-- ==== Sys2Proof/Word.lean ====
section
/-!
DEFINITION. Word.lean: the word types of the machine (R3, R4, R5) and nothing else.
-/
namespace Sys2Proof

/-- One byte of memory. -/
abbrev Byte := BitVec 8

/-- A word of a memory object, a g register, an address (R4, R17). -/
abbrev Word := BitVec 64

/-- A vector register: 16 lanes of 32 bits (R136). -/
abbrev VWord := BitVec 512

/-- The bits of a stream register (R55, R174). -/
abbrev ZWord := BitVec 4096

/-- A finite map written as an association list in ascending key order. -/
abbrev Map (α : Type) := List (Nat × α)

end Sys2Proof
end

