-- ==== Sys2Proof/Wire.lean ====
section
/-!
DEFINITION. Wire.lean: the objects that reach the package from outside and stand as arguments of
events: Causeway operation records and frames (R256, R257), host accesses (R358), directory lines.
-/
namespace Sys2Proof

/-- R257, word 0 [63:62]: the three operations a Causeway carries. -/
inductive CwOpKind where
  | cwst
  | cwadd
  | cwcas
  deriving DecidableEq, Repr

/-- An operation record of a Causeway frame (R257): the window word index, the data word and the
expected value (zero unless CWCAS). -/
structure CwRec where
  kind   : CwOpKind
  word   : Nat
  data   : Word
  expect : Word
  deriving DecidableEq, Repr

/-- R258, R264, R265: what the master's frame 0 of a rotation carries, and `held`: of the positions (rotation, member,
frame index) of members this view removes, those whose frames some live member holds. No frame carries `held`: whether
another member holds a frame is known to no port by itself, and the event brings it from outside. -/
structure CwView where
  rotation : Nat
  master   : Nat
  live     : BitVec 32
  held     : List (Nat × Nat × Nat) := []
  deriving DecidableEq, Repr

/-- A frame of a burst (R256): its rotation, sender, frame index, the number of frames of its burst and what it
carries. A frame whose CRC fails never becomes one (R262). -/
structure CwFrame where
  rotation : Nat
  member   : Nat
  fidx     : Nat
  fcount   : Nat
  ops      : List CwRec
  /-- R256 word 3: sender and frame index of at most four frames of the rotation before that are asked for again. -/
  nacks    : List (Nat × Nat)
  /-- R256 word 1: the view, in frame 0 from the master. -/
  view     : Option CwView := none
  /-- R267: the replica bytes of a snapshot frame and their offset. -/
  snap     : Option (Nat × List Byte) := none
  deriving DecidableEq, Repr

/-- R256, R267: what a frame of a burst carries: operation records, a frame replayed, or replica bytes at an offset. -/
inductive CwLoad where
  | ops (os : List CwRec)
  | replay (f : CwFrame)
  | snap (off : Nat) (data : List Byte)
  deriving DecidableEq, Repr

/-- R256, R262: a frame that carries a replay, and the frame replayed. -/
structure CwReplay where
  carrier : CwFrame
  frame   : CwFrame
  deriving DecidableEq, Repr

/-- R267, R269: what a joining port hears in its two rotations of listening. -/
structure CwHeard where
  light     : Bool
  cwid      : BitVec 16
  slots     : Nat
  period    : Bool      -- the rotation period heard is S slots long
  ownSlot   : Bool      -- light arrived in the port's own slot
  far       : Bool      -- the measured path exceeds 60 m
  weak      : Bool      -- a member's light is below -20 dBm
  deriving DecidableEq, Repr

/-- The two host links of the package (R357, R360). -/
inductive HostLink where
  | pcie
  | cxl
  deriving DecidableEq, Repr

/-- Which function of R358 a host access goes through: the physical function (BAR 2 is the package-local
physical space) or the virtual function of a partition (BAR 2 is virtual memory of process 0). -/
inductive HostFn where
  | pf
  | vf (part : Nat)
  deriving DecidableEq, Repr

/-- R358: a base address register of a function, and an offset in it. -/
structure BarAddr where
  bar : Nat
  off : Nat
  deriving DecidableEq, Repr

/-- The AtomicOps the package completes (R357). -/
inductive HostAtomic where
  | cas (size : Nat) (expect new : Nat)
  | fetchAdd (size : Nat) (addend : Nat)
  | swap (size : Nat) (new : Nat)
  deriving DecidableEq, Repr

/-- A unit that a fatal error can hit (R376, R380). -/
inductive FatalUnit where
  | core (phys : Nat)
  | matrix (phys : Nat)
  | ssu (phys : Nat)
  | shared (bank : Nat)
  deriving DecidableEq, Repr

end Sys2Proof
end

