-- ==== Sys2Proof/Syntax.lean ====
section
/-!
DEFINITION. Syntax.lean: the instructions of the machine, one constructor for each row of the opcode
table: 215 encoded words (R60, R64, R69), six tile command words (R67, R156, R157) and 123 events, the
indivisible acts of the agents beside the threads.
-/
namespace Sys2Proof

/-- R156, payload word 1 of every tile command: the registers `cpl`, `val` and `ms`, and the mode. -/
structure Cpl where
  cpl  : BitVec 7
  val  : BitVec 7
  ms   : BitVec 7
  mode : BitVec 2
  deriving DecidableEq, Repr

/-- R156, R157: the fields of MMA. -/
structure MmaArgs where
  zero : Bool
  edge : Bool
  fb   : BitVec 3
  fa   : BitVec 3
  c    : BitVec 7
  a    : BitVec 7
  b    : BitVec 7
  k    : BitVec 7
  lda  : BitVec 7
  ldb  : BitVec 7
  sa   : BitVec 7
  sb   : BitVec 7
  ia   : BitVec 7
  ib   : BitVec 7
  deriving DecidableEq, Repr

/-- R156: the fields of COPY. -/
structure CopyArgs where
  dst  : BitVec 7
  src  : BitVec 7
  rows : BitVec 7
  rowb : BitVec 7
  ss   : BitVec 7
  ds   : BitVec 7
  deriving DecidableEq, Repr

/-- R156: the fields of FILL. -/
structure FillArgs where
  dst  : BitVec 7
  pat  : BitVec 7
  rows : BitVec 7
  rowb : BitVec 7
  ds   : BitVec 7
  deriving DecidableEq, Repr

/-- R156, R157: the fields of GATH; `scat` is the flag SCAT. -/
structure GathArgs where
  scat : Bool
  dst  : BitVec 7
  src  : BitVec 7
  idx  : BitVec 7
  n    : BitVec 7
  rowb : BitVec 7
  ss   : BitVec 7
  ds   : BitVec 7
  deriving DecidableEq, Repr

/-- R156, R157, R167: the fields of COLL. -/
structure CollArgs where
  rf   : BitVec 4
  op   : BitVec 2
  dst  : BitVec 7
  src  : BitVec 7
  n    : BitVec 7
  tag  : BitVec 7
  root : BitVec 7
  deriving DecidableEq, Repr

/-- R156, R157, R171: the fields of ENC8. -/
structure Enc8Args where
  bf16   : Bool
  dat    : BitVec 7
  src    : BitVec 7
  rows   : BitVec 7
  kk     : BitVec 7
  stride : BitVec 7
  idx    : BitVec 7
  sc     : BitVec 7
  off    : BitVec 7
  deriving DecidableEq, Repr

/-- One constructor for each row of the opcode table, in its order. In an encoded instruction `g` is the
guard (R60, R62) and the other arguments are the fields of the word as the table names them; in an event
the arguments name what it happens to, and the data that reach the package from outside. -/
inductive Instr where
  /-- ADD (R83). Adds two g registers modulo 2^64. -/
  | add (g : BitVec 3) (d a b : BitVec 7)
  /-- SUB (R83). Subtracts g[b] from g[a] modulo 2^64. -/
  | sub (g : BitVec 3) (d a b : BitVec 7)
  /-- AND (R83). Bitwise AND of two g registers. -/
  | and (g : BitVec 3) (d a b : BitVec 7)
  /-- OR (R83). Bitwise OR of two g registers. -/
  | or (g : BitVec 3) (d a b : BitVec 7)
  /-- XOR (R83). Bitwise XOR of two g registers. -/
  | xor (g : BitVec 3) (d a b : BitVec 7)
  /-- ANDN (R83). g[a] AND NOT g[b]. -/
  | andn (g : BitVec 3) (d a b : BitVec 7)
  /-- SHL (R83). Shifts g[a] left by g[b][5:0]. -/
  | shl (g : BitVec 3) (d a b : BitVec 7)
  /-- SHR (R83). Logical right shift of g[a] by g[b][5:0]. -/
  | shr (g : BitVec 3) (d a b : BitVec 7)
  /-- SRA (R83). Arithmetic right shift of g[a] by g[b][5:0]. -/
  | sra (g : BitVec 3) (d a b : BitVec 7)
  /-- ROTL (R83). Rotates g[a] left by g[b][5:0]. -/
  | rotl (g : BitVec 3) (d a b : BitVec 7)
  /-- MINS (R83). Signed minimum of two g registers. -/
  | mins (g : BitVec 3) (d a b : BitVec 7)
  /-- MAXS (R83). Signed maximum of two g registers. -/
  | maxs (g : BitVec 3) (d a b : BitVec 7)
  /-- MINU (R83). Unsigned minimum of two g registers. -/
  | minu (g : BitVec 3) (d a b : BitVec 7)
  /-- MAXU (R83). Unsigned maximum of two g registers. -/
  | maxu (g : BitVec 3) (d a b : BitVec 7)
  /-- CLZ (R83). Counts leading zero bits of g[a]. -/
  | clz (g : BitVec 3) (d a : BitVec 7)
  /-- CTZ (R83). Counts trailing zero bits of g[a]. -/
  | ctz (g : BitVec 3) (d a : BitVec 7)
  /-- POPC (R83). Counts one bits of g[a]. -/
  | popc (g : BitVec 3) (d a : BitVec 7)
  /-- BREV (R83). Reverses the bits of g[a]. -/
  | brev (g : BitVec 3) (d a : BitVec 7)
  /-- BSWAP (R83). Reverses the bytes of g[a]. -/
  | bswap (g : BitVec 3) (d a : BitVec 7)
  /-- MUL (R84). Low 64 bits of the product. -/
  | mul (g : BitVec 3) (d a b : BitVec 7)
  /-- MULHS (R84). High 64 bits of the signed product. -/
  | mulhs (g : BitVec 3) (d a b : BitVec 7)
  /-- MULHU (R84). High 64 bits of the unsigned product. -/
  | mulhu (g : BitVec 3) (d a b : BitVec 7)
  /-- MULHSU (R84). High 64 bits of the signed-by-unsigned product. -/
  | mulhsu (g : BitVec 3) (d a b : BitVec 7)
  /-- DIVS (R85). Signed quotient with R32 edge cases. -/
  | divs (g : BitVec 3) (d a b : BitVec 7)
  /-- DIVU (R85). Unsigned quotient with R32 edge cases. -/
  | divu (g : BitVec 3) (d a b : BitVec 7)
  /-- REMS (R85). Signed remainder with the sign of the dividend. -/
  | rems (g : BitVec 3) (d a b : BitVec 7)
  /-- REMU (R85). Unsigned remainder. -/
  | remu (g : BitVec 3) (d a b : BitVec 7)
  /-- SHADD1 (R86). (g[a] << 1) + g[b]. -/
  | shadd1 (g : BitVec 3) (d a b : BitVec 7)
  /-- SHADD2 (R86). (g[a] << 2) + g[b]. -/
  | shadd2 (g : BitVec 3) (d a b : BitVec 7)
  /-- SHADD3 (R86). (g[a] << 3) + g[b]. -/
  | shadd3 (g : BitVec 3) (d a b : BitVec 7)
  /-- SHADD4 (R86). (g[a] << 4) + g[b]. -/
  | shadd4 (g : BitVec 3) (d a b : BitVec 7)
  /-- BEXT (R87). Extracts a bit field of g[a] described by g[b]. -/
  | bext (g : BitVec 3) (d a b : BitVec 7)
  /-- BINS (R87). Inserts a bit field of g[a] into g[d]. -/
  | bins (g : BitVec 3) (d a b : BitVec 7)
  /-- ADDI (R88). Adds a sign-extended 9-bit immediate. -/
  | addi (g : BitVec 3) (d a : BitVec 7) (i : BitVec 9)
  /-- ANDI (R88). ANDs a sign-extended 9-bit immediate. -/
  | andi (g : BitVec 3) (d a : BitVec 7) (i : BitVec 9)
  /-- ORI (R88). ORs a sign-extended 9-bit immediate. -/
  | ori (g : BitVec 3) (d a : BitVec 7) (i : BitVec 9)
  /-- XORI (R88). XORs a sign-extended 9-bit immediate. -/
  | xori (g : BitVec 3) (d a : BitVec 7) (i : BitVec 9)
  /-- SHLI (R89). Shifts left by an immediate amount. -/
  | shli (g : BitVec 3) (d a : BitVec 7) (n : BitVec 6)
  /-- SHRI (R89). Logical right shift by an immediate amount. -/
  | shri (g : BitVec 3) (d a : BitVec 7) (n : BitVec 6)
  /-- SRAI (R89). Arithmetic right shift by an immediate amount. -/
  | srai (g : BitVec 3) (d a : BitVec 7) (n : BitVec 6)
  /-- ROTLI (R89). Rotates left by an immediate amount. -/
  | rotli (g : BitVec 3) (d a : BitVec 7) (n : BitVec 6)
  /-- LI (R90). Loads a sign-extended 16-bit immediate. -/
  | li (g : BitVec 3) (d : BitVec 7) (i : BitVec 16)
  /-- LIS (R90). Shifts g[d] left by 16 and inserts a 16-bit immediate. -/
  | lis (g : BitVec 3) (d : BitVec 7) (i : BitVec 16)
  /-- CMP_REG (R91). Sets a predicate from a comparison of two g registers. -/
  | cmpReg (g p c : BitVec 3) (a b : BitVec 7)
  /-- CMP_IMM (R91). Sets a predicate from a comparison of g[a] with an immediate. -/
  | cmpImm (g p c : BitVec 3) (a : BitVec 7) (i : BitVec 9)
  /-- PLOG (R92). Combines two predicates into a third. -/
  | plog (g p x y : BitVec 3) (o : BitVec 2)
  /-- PGET (R93). Copies the predicate word to a g register. -/
  | pget (g : BitVec 3) (d : BitVec 7)
  /-- PSET (R93). Sets p1 to p7 from a g register. -/
  | pset (g : BitVec 3) (a : BitVec 7)
  /-- BR (R94). Branches by a word offset. -/
  | br (g : BitVec 3) (o : BitVec 23)
  /-- JAL (R95). Jumps by a word offset and writes the link. -/
  | jal (g : BitVec 3) (d : BitVec 7) (i : BitVec 16)
  /-- JR (R96). Jumps through a register, writing the link. -/
  | jr (g : BitVec 3) (d a : BitVec 7) (i : BitVec 9)
  /-- LDBN (R109). Loads a zero-extended byte. -/
  | ldbn (g : BitVec 3) (d a : BitVec 7) (o : BitVec 8) (r : BitVec 1)
  /-- LDHN (R109). Loads a zero-extended half word. -/
  | ldhn (g : BitVec 3) (d a : BitVec 7) (o : BitVec 8) (r : BitVec 1)
  /-- LDWN (R109). Loads a zero-extended word. -/
  | ldwn (g : BitVec 3) (d a : BitVec 7) (o : BitVec 8) (r : BitVec 1)
  /-- LDD (R109). Loads a 64-bit double word. -/
  | ldd (g : BitVec 3) (d a : BitVec 7) (o : BitVec 8) (r : BitVec 1)
  /-- LDBS (R109). Loads a sign-extended byte. -/
  | ldbs (g : BitVec 3) (d a : BitVec 7) (o : BitVec 8) (r : BitVec 1)
  /-- LDHS (R109). Loads a sign-extended half word. -/
  | ldhs (g : BitVec 3) (d a : BitVec 7) (o : BitVec 8) (r : BitVec 1)
  /-- LDWS (R109). Loads a sign-extended word. -/
  | ldws (g : BitVec 3) (d a : BitVec 7) (o : BitVec 8) (r : BitVec 1)
  /-- STB (R109). Stores a byte. -/
  | stb (g : BitVec 3) (d a : BitVec 7) (o : BitVec 8) (r : BitVec 1)
  /-- STH (R109). Stores a half word. -/
  | sth (g : BitVec 3) (d a : BitVec 7) (o : BitVec 8) (r : BitVec 1)
  /-- STW (R109). Stores a word. -/
  | stw (g : BitVec 3) (d a : BitVec 7) (o : BitVec 8) (r : BitVec 1)
  /-- STD (R109). Stores a 64-bit double word. -/
  | std (g : BitVec 3) (d a : BitVec 7) (o : BitVec 8) (r : BitVec 1)
  /-- LDQ (R110). Loads 16 bytes into a register pair. -/
  | ldq (g : BitVec 3) (d a : BitVec 7)
  /-- STQ (R110). Stores a register pair as 16 bytes. -/
  | stq (g : BitVec 3) (d a : BitVec 7)
  /-- LDFE (R115). Reads a full/empty word, waiting for full or returning the full bit. -/
  | ldfe (g : BitVec 3) (d a b : BitVec 7)
  /-- STFE (R115). Writes a full/empty word when empty, waiting or returning a status. -/
  | stfe (g : BitVec 3) (d a b : BitVec 7)
  /-- AADD (R118). Atomic add returning the old value. -/
  | aadd (g : BitVec 3) (d a b : BitVec 7)
  /-- AAND (R118). Atomic AND returning the old value. -/
  | aand (g : BitVec 3) (d a b : BitVec 7)
  /-- AOR (R118). Atomic OR returning the old value. -/
  | aor (g : BitVec 3) (d a b : BitVec 7)
  /-- AXOR (R118). Atomic XOR returning the old value. -/
  | axor (g : BitVec 3) (d a b : BitVec 7)
  /-- AMINS (R118). Atomic signed minimum. -/
  | amins (g : BitVec 3) (d a b : BitVec 7)
  /-- AMAXS (R118). Atomic signed maximum. -/
  | amaxs (g : BitVec 3) (d a b : BitVec 7)
  /-- AMINU (R118). Atomic unsigned minimum. -/
  | aminu (g : BitVec 3) (d a b : BitVec 7)
  /-- AMAXU (R118). Atomic unsigned maximum. -/
  | amaxu (g : BitVec 3) (d a b : BitVec 7)
  /-- ASWAP (R118). Atomic swap. -/
  | aswap (g : BitVec 3) (d a b : BitVec 7)
  /-- ACAS (R119). 64-bit compare and swap. -/
  | acas (g : BitVec 3) (d a b : BitVec 7)
  /-- ACASQ (R119). 128-bit compare and swap of register pairs. -/
  | acasq (g : BitVec 3) (d a b : BitVec 7)
  /-- AFADD (R120). Atomic FP64 add rounded to nearest even. -/
  | afadd (g : BitVec 3) (d a b : BitVec 7)
  /-- FENCE (R125). Waits for relaxed accesses, engine acceptance, Causeway application or remote stores as selected. -/
  | fence (g : BitVec 3) (w e r : BitVec 1) (s : BitVec 3)
  /-- WATCH (R126). Arms a watch on a 64-byte line and returns a code. -/
  | watch (g : BitVec 3) (d a : BitVec 7)
  /-- UNWATCH (R127). Disarms one or all of the thread's watches. -/
  | unwatch (g : BitVec 3) (d a : BitVec 7)
  /-- SLEEP (R129). Consumes the wake latch or sleeps until it is set. -/
  | sleep (g : BitVec 3) (d : BitVec 7)
  /-- WAITGE (R130). Waits until a word is at least g[b]. -/
  | waitge (g : BitVec 3) (d a b : BitVec 7)
  /-- WBR (R132). Writes back dirty lines of a range. -/
  | wbr (g : BitVec 3) (d a b : BitVec 7)
  /-- INVR (R134). Invalidates lines of a range, discarding dirty data only with DISCARD. -/
  | invr (g : BitVec 3) (d a b : BitVec 7)
  /-- WBINVR (R132). Writes back and invalidates lines of a range. -/
  | wbinvr (g : BitVec 3) (d a b : BitVec 7)
  /-- PREFR (R135). Prefetch hint for a range. -/
  | prefr (g : BitVec 3) (a b : BitVec 7)
  /-- FADD_D (R100). FP64 addition. -/
  | faddD (g : BitVec 3) (d a b : BitVec 7)
  /-- FSUB_D (R100). FP64 subtraction. -/
  | fsubD (g : BitVec 3) (d a b : BitVec 7)
  /-- FMUL_D (R100). FP64 multiplication. -/
  | fmulD (g : BitVec 3) (d a b : BitVec 7)
  /-- FMIN_D (R100). FP64 minimum under R46. -/
  | fminD (g : BitVec 3) (d a b : BitVec 7)
  /-- FMAX_D (R100). FP64 maximum under R46. -/
  | fmaxD (g : BitVec 3) (d a b : BitVec 7)
  /-- FDIV_D (R100). FP64 division. -/
  | fdivD (g : BitVec 3) (d a b : BitVec 7)
  /-- FSQRT_D (R100). FP64 square root. -/
  | fsqrtD (g : BitVec 3) (d a : BitVec 7)
  /-- FCVT (R104). Converts g[a] between formats by a 7-bit code. -/
  | fcvt (g : BitVec 3) (d a c : BitVec 7)
  /-- FADD_S (R100). FP32 addition. -/
  | faddS (g : BitVec 3) (d a b : BitVec 7)
  /-- FSUB_S (R100). FP32 subtraction. -/
  | fsubS (g : BitVec 3) (d a b : BitVec 7)
  /-- FMUL_S (R100). FP32 multiplication. -/
  | fmulS (g : BitVec 3) (d a b : BitVec 7)
  /-- FMIN_S (R100). FP32 minimum under R46. -/
  | fminS (g : BitVec 3) (d a b : BitVec 7)
  /-- FMAX_S (R100). FP32 maximum under R46. -/
  | fmaxS (g : BitVec 3) (d a b : BitVec 7)
  /-- FDIV_S (R100). FP32 division. -/
  | fdivS (g : BitVec 3) (d a b : BitVec 7)
  /-- FSQRT_S (R100). FP32 square root. -/
  | fsqrtS (g : BitVec 3) (d a : BitVec 7)
  /-- FCLASS (R103). Classifies g[a] as FP64 and its low bits as FP32. -/
  | fclass (g : BitVec 3) (d a : BitVec 7)
  /-- FMA_D (R101). FP64 fused multiply-add into g[d]. -/
  | fmaD (g : BitVec 3) (d a b : BitVec 7)
  /-- FMA_S (R101). FP32 fused multiply-add into g[d]. -/
  | fmaS (g : BitVec 3) (d a b : BitVec 7)
  /-- FMS_D (R101). FP64 fused multiply-subtract. -/
  | fmsD (g : BitVec 3) (d a b : BitVec 7)
  /-- FMS_S (R101). FP32 fused multiply-subtract. -/
  | fmsS (g : BitVec 3) (d a b : BitVec 7)
  /-- FCMP (R102). Sets a predicate from a floating-point comparison. -/
  | fcmp (g p c : BitVec 3) (a b : BitVec 7)
  /-- SPAWN (R189). Starts a new thread on a named core. -/
  | spawn (g : BitVec 3) (d a b : BitVec 7)
  /-- QUIT (R190). Ends the issuing thread. -/
  | quit (g : BitVec 3)
  /-- MIGR (R191). Moves the thread to a core beside the memory at g[a]. -/
  | migr (g : BitVec 3) (a : BitVec 7)
  /-- SEND (R192). Delivers an active message to a named core. -/
  | send (g : BitVec 3) (d a b : BitVec 7)
  /-- FORK (R193). Splits a trip range across the issuer and recruited contexts. -/
  | fork (g : BitVec 3) (d a b : BitVec 7)
  /-- JOIN (R194). Decrements a join cell; the last part continues, others quit. -/
  | join (g : BitVec 3) (a : BitVec 7)
  /-- WQRY (R195). Requests the next persistent work item into a full/empty word. -/
  | wqry (g : BitVec 3) (d a : BitVec 7)
  /-- LAUNCH (R196). Submits a launch header to the distributor. -/
  | launch (g : BitVec 3) (d a : BitVec 7)
  /-- BAR (R197). Arrives at a barrier and sleeps until the phase changes. -/
  | bar (g : BitVec 3) (d a : BitVec 7)
  /-- BARD (R197). Arrives at a barrier and drops the registration. -/
  | bard (g : BitVec 3) (d a : BitVec 7)
  /-- BREG (R197). Registers the thread at a barrier. -/
  | breg (g : BitVec 3) (d a : BitVec 7)
  /-- CHKPT (R198). Commits a lock-step checkpoint. -/
  | chkpt (g : BitVec 3) (d : BitVec 7)
  /-- TSTOP (R201). Sets SSTOP in a target thread. -/
  | tstop (g : BitVec 3) (d a : BitVec 7)
  /-- TSTART (R201). Clears SSTOP in a target thread. -/
  | tstart (g : BitVec 3) (d a : BitVec 7)
  /-- TREAD (R202). Reads a register of a stopped or faulted thread. -/
  | tread (g : BitVec 3) (d a b : BitVec 7)
  /-- TWRITE (R202). Writes a register of a stopped or faulted thread. -/
  | twrite (g : BitVec 3) (d a b : BitVec 7)
  /-- GETS (R204). Reads a state register. -/
  | gets (g : BitVec 3) (d : BitVec 7) (s : BitVec 9)
  /-- SETS (R204). Writes a state register after the R24 checks. -/
  | sets (g : BitVec 3) (a : BitVec 7) (s : BitVec 9)
  /-- INVPG (R206). Removes a translation from every waystation of the package. -/
  | invpg (g : BitVec 3) (d a b : BitVec 7)
  /-- SELFT (R207). Self-tests selected units of the issuing core. -/
  | selft (g : BitVec 3) (d a b : BitVec 7)
  /-- BRK (R208). Faults BREAK with its immediate. -/
  | brk (g : BitVec 3) (i : BitVec 21)
  /-- VADD (R138). Lane-wise 32-bit add. -/
  | vadd (g : BitVec 3) (d a b : BitVec 6)
  /-- VSUB (R138). Lane-wise 32-bit subtract. -/
  | vsub (g : BitVec 3) (d a b : BitVec 6)
  /-- VMUL (R138). Lane-wise low product. -/
  | vmul (g : BitVec 3) (d a b : BitVec 6)
  /-- VMULHS (R138). Lane-wise signed high product. -/
  | vmulhs (g : BitVec 3) (d a b : BitVec 6)
  /-- VMULHU (R138). Lane-wise unsigned high product. -/
  | vmulhu (g : BitVec 3) (d a b : BitVec 6)
  /-- VAND (R138). Lane-wise AND. -/
  | vand (g : BitVec 3) (d a b : BitVec 6)
  /-- VOR (R138). Lane-wise OR. -/
  | vor (g : BitVec 3) (d a b : BitVec 6)
  /-- VXOR (R138). Lane-wise XOR. -/
  | vxor (g : BitVec 3) (d a b : BitVec 6)
  /-- VANDN (R138). Lane-wise AND NOT. -/
  | vandn (g : BitVec 3) (d a b : BitVec 6)
  /-- VSHL (R138). Lane-wise left shift. -/
  | vshl (g : BitVec 3) (d a b : BitVec 6)
  /-- VSHR (R138). Lane-wise logical right shift. -/
  | vshr (g : BitVec 3) (d a b : BitVec 6)
  /-- VSRA (R138). Lane-wise arithmetic right shift. -/
  | vsra (g : BitVec 3) (d a b : BitVec 6)
  /-- VMINS (R138). Lane-wise signed minimum. -/
  | vmins (g : BitVec 3) (d a b : BitVec 6)
  /-- VMAXS (R138). Lane-wise signed maximum. -/
  | vmaxs (g : BitVec 3) (d a b : BitVec 6)
  /-- VMINU (R138). Lane-wise unsigned minimum. -/
  | vminu (g : BitVec 3) (d a b : BitVec 6)
  /-- VMAXU (R138). Lane-wise unsigned maximum. -/
  | vmaxu (g : BitVec 3) (d a b : BitVec 6)
  /-- VABS (R138). Lane-wise absolute value modulo 2^32. -/
  | vabs (g : BitVec 3) (d a : BitVec 6)
  /-- VPOPC (R138). Lane-wise population count. -/
  | vpopc (g : BitVec 3) (d a : BitVec 6)
  /-- VCLZ (R138). Lane-wise leading zero count. -/
  | vclz (g : BitVec 3) (d a : BitVec 6)
  /-- VCMPEQ (R138). Lane-wise equality mask. -/
  | vcmpeq (g : BitVec 3) (d a b : BitVec 6)
  /-- VCMPLTS (R138). Lane-wise signed less-than mask. -/
  | vcmplts (g : BitVec 3) (d a b : BitVec 6)
  /-- VCMPLTU (R138). Lane-wise unsigned less-than mask. -/
  | vcmpltu (g : BitVec 3) (d a b : BitVec 6)
  /-- VSEL (R139). Selects lanes of va or vb by the mask in vd. -/
  | vsel (g : BitVec 3) (d a b : BitVec 6)
  /-- VSHUF (R139). Permutes lanes of va by indices in vb. -/
  | vshuf (g : BitVec 3) (d a b : BitVec 6)
  /-- VFADD (R140). Lane-wise FP addition, precision by f5[4]. -/
  | vfadd (g : BitVec 3) (d a b : BitVec 6) (p : BitVec 1)
  /-- VFSUB (R140). Lane-wise FP subtraction. -/
  | vfsub (g : BitVec 3) (d a b : BitVec 6) (p : BitVec 1)
  /-- VFMUL (R140). Lane-wise FP multiplication. -/
  | vfmul (g : BitVec 3) (d a b : BitVec 6) (p : BitVec 1)
  /-- VFMA (R140). Lane-wise fused multiply-add into vd. -/
  | vfma (g : BitVec 3) (d a b : BitVec 6) (p : BitVec 1)
  /-- VFMS (R140). Lane-wise fused multiply-subtract. -/
  | vfms (g : BitVec 3) (d a b : BitVec 6) (p : BitVec 1)
  /-- VFMIN (R140). Lane-wise FP minimum. -/
  | vfmin (g : BitVec 3) (d a b : BitVec 6) (p : BitVec 1)
  /-- VFMAX (R140). Lane-wise FP maximum. -/
  | vfmax (g : BitVec 3) (d a b : BitVec 6) (p : BitVec 1)
  /-- VFABS (R140). Clears the sign bit of each element. -/
  | vfabs (g : BitVec 3) (d a : BitVec 6) (p : BitVec 1)
  /-- VFNEG (R140). Inverts the sign bit of each element. -/
  | vfneg (g : BitVec 3) (d a : BitVec 6) (p : BitVec 1)
  /-- VFDIV (R141). Lane-wise FP division as a special-function request. -/
  | vfdiv (g : BitVec 3) (d a b : BitVec 6) (p : BitVec 1)
  /-- VFSQRT (R141). Lane-wise FP square root as a special-function request. -/
  | vfsqrt (g : BitVec 3) (d a : BitVec 6) (p : BitVec 1)
  /-- VFCMPEQ (R140). Lane-wise FP equality mask. -/
  | vfcmpeq (g : BitVec 3) (d a b : BitVec 6) (p : BitVec 1)
  /-- VFCMPLT (R140). Lane-wise FP less-than mask. -/
  | vfcmplt (g : BitVec 3) (d a b : BitVec 6) (p : BitVec 1)
  /-- VFCMPLE (R140). Lane-wise FP less-or-equal mask. -/
  | vfcmple (g : BitVec 3) (d a b : BitVec 6) (p : BitVec 1)
  /-- VFCMPUN (R140). Lane-wise unordered mask. -/
  | vfcmpun (g : BitVec 3) (d a b : BitVec 6) (p : BitVec 1)
  /-- VHADD_H (R142). FP16 element addition. -/
  | vhaddH (g : BitVec 3) (d a b : BitVec 6)
  /-- VHMUL_H (R142). FP16 element multiplication. -/
  | vhmulH (g : BitVec 3) (d a b : BitVec 6)
  /-- VHFMA_H (R142). FP16 element fused multiply-add. -/
  | vhfmaH (g : BitVec 3) (d a b : BitVec 6)
  /-- VHADD_B (R142). BF16 element addition. -/
  | vhaddB (g : BitVec 3) (d a b : BitVec 6)
  /-- VHMUL_B (R142). BF16 element multiplication. -/
  | vhmulB (g : BitVec 3) (d a b : BitVec 6)
  /-- VHFMA_B (R142). BF16 element fused multiply-add. -/
  | vhfmaB (g : BitVec 3) (d a b : BitVec 6)
  /-- VDOT8 (R44). F8e4 four-way dot product added to FP32 lanes. -/
  | vdot8 (g : BitVec 3) (d a b : BitVec 6)
  /-- VDOTS8 (R44). S8 four-way dot product added to S32 lanes. -/
  | vdots8 (g : BitVec 3) (d a b : BitVec 6)
  /-- VCVT (R143). Converts vector elements by a 6-bit code, stochastic rounding when S = D. -/
  | vcvt (g : BitVec 3) (d a c : BitVec 6)
  /-- VLD (R145). Loads 64 bytes into a vector register. -/
  | vld (g : BitVec 3) (d : BitVec 6) (a b : BitVec 7)
  /-- VST (R145). Stores a vector register as 64 bytes. -/
  | vst (g : BitVec 3) (d : BitVec 6) (a b : BitVec 7)
  /-- VLDS (R145). Strided lane loads. -/
  | vlds (g : BitVec 3) (d : BitVec 6) (a b : BitVec 7)
  /-- VSTS (R145). Strided lane stores. -/
  | vsts (g : BitVec 3) (d : BitVec 6) (a b : BitVec 7)
  /-- VGATH (R145). Gathers lanes through indices in a register pair. -/
  | vgath (g : BitVec 3) (d : BitVec 6) (a b : BitVec 7)
  /-- VSCAT (R145). Scatters lanes through indices in a register pair. -/
  | vscat (g : BitVec 3) (d : BitVec 6) (a b : BitVec 7)
  /-- VLDB (R145). Loads one word and broadcasts it to all lanes. -/
  | vldb (g : BitVec 3) (d : BitVec 6) (a b : BitVec 7)
  /-- VLD_R (R147). Relaxed 64-byte vector load. -/
  | vldR (g : BitVec 3) (d : BitVec 6) (a b : BitVec 7)
  /-- VBCAST (R144). Broadcasts a g register into every lane pair. -/
  | vbcast (g : BitVec 3) (x : BitVec 7) (v : BitVec 6)
  /-- VEXT (R144). Extracts lanes into a g register. -/
  | vext (g : BitVec 3) (x : BitVec 7) (v w : BitVec 6)
  /-- VINS (R144). Inserts a lane from a g register. -/
  | vins (g : BitVec 3) (x : BitVec 7) (v w : BitVec 6)
  /-- VREDADD_S (R45). FP32 tree sum of the lanes. -/
  | vredaddS (g : BitVec 3) (x : BitVec 7) (v : BitVec 6)
  /-- VREDADD_I (R144). S32 sum of the lanes. -/
  | vredaddI (g : BitVec 3) (x : BitVec 7) (v : BitVec 6)
  /-- VREDMAX_S (R144). FP32 tree maximum of the lanes. -/
  | vredmaxS (g : BitVec 3) (x : BitVec 7) (v : BitVec 6)
  /-- VREDMIN_S (R144). FP32 tree minimum of the lanes. -/
  | vredminS (g : BitVec 3) (x : BitVec 7) (v : BitVec 6)
  /-- VMASK (R144). Packs lane sign bits into a 16-bit mask. -/
  | vmask (g : BitVec 3) (x : BitVec 7) (v : BitVec 6)
  /-- VRCP (R149). Reciprocal by the reference procedure. -/
  | vrcp (g : BitVec 3) (d a : BitVec 6)
  /-- VRSQ (R149). Reciprocal square root by the reference procedure. -/
  | vrsq (g : BitVec 3) (d a : BitVec 6)
  /-- VEXP2 (R149). Base-2 exponential by the reference procedure. -/
  | vexp2 (g : BitVec 3) (d a : BitVec 6)
  /-- VLOG2 (R149). Base-2 logarithm by the reference procedure. -/
  | vlog2 (g : BitVec 3) (d a : BitVec 6)
  /-- VSIN (R149). Sine of revolutions by the reference procedure. -/
  | vsin (g : BitVec 3) (d a : BitVec 6)
  /-- VCOS (R149). Cosine of revolutions by the reference procedure. -/
  | vcos (g : BitVec 3) (d a : BitVec 6)
  /-- VTANH (R150). Hyperbolic tangent composed from EXP2 and RCP. -/
  | vtanh (g : BitVec 3) (d a : BitVec 6)
  /-- VSIGM (R150). Logistic sigmoid composed from EXP2 and RCP. -/
  | vsigm (g : BitVec 3) (d a : BitVec 6)
  /-- B2Z (R177). Generates a stream from a value in a class. -/
  | b2z (g : BitVec 3) (z : BitVec 4) (a b : BitVec 7)
  /-- Z2B (R178). Counts the ones of a stream. -/
  | z2b (g : BitVec 3) (z : BitVec 4) (a : BitVec 7)
  /-- ZCLS (R179). Reads a stream register's mask and length code. -/
  | zcls (g : BitVec 3) (z : BitVec 4) (a b : BitVec 7)
  /-- ZRGN (R180). Regenerates a stream's count in a fresh class. -/
  | zrgn (g : BitVec 3) (z s : BitVec 4) (b : BitVec 7)
  /-- ZCLR (R181). Clears a stream register with mask 0. -/
  | zclr (g : BitVec 3) (z : BitVec 4)
  /-- ZAND (R182). Bitwise AND of two streams. -/
  | zand (g : BitVec 3) (d a b : BitVec 4)
  /-- ZOR (R182). Bitwise OR of two streams. -/
  | zor (g : BitVec 3) (d a b : BitVec 4)
  /-- ZXNOR (R182). Bitwise XNOR of two streams. -/
  | zxnor (g : BitVec 3) (d a b : BitVec 4)
  /-- ZNOT (R182). Bitwise NOT of a stream. -/
  | znot (g : BitVec 3) (d a : BitVec 4)
  /-- ZMUX (R182). Selects stream bits under a select stream. -/
  | zmux (g : BitVec 3) (d a b s : BitVec 4)
  /-- CWST (R209). Sends a store into the Causeway order. -/
  | cwst (g : BitVec 3) (d a : BitVec 7)
  /-- CWADD (R209). Sends an add into the Causeway order and returns the old value. -/
  | cwadd (g : BitVec 3) (d a b : BitVec 7)
  /-- CWCAS (R209). Sends a compare-and-swap into the Causeway order. -/
  | cwcas (g : BitVec 3) (d a b : BitVec 7)
  /-- CWFENCE (R209). Waits until the port's accepted operations are applied locally. -/
  | cwfence (g : BitVec 3) (d a : BitVec 7)
  /-- MMA (R163). Tile command: 32x32 matrix multiply-accumulate on the core's matrix unit. -/
  | mma (g : BitVec 3) (cpl : Cpl) (x : MmaArgs)
  /-- COPY (R165). Tile command: copies a two-dimensional block of bytes. -/
  | copy (g : BitVec 3) (cpl : Cpl) (x : CopyArgs)
  /-- GATH (R166). Tile command: gathers or scatters rows through an index list. -/
  | gath (g : BitVec 3) (cpl : Cpl) (x : GathArgs)
  /-- COLL (R167). Tile command: contributes to a band collective. -/
  | coll (g : BitVec 3) (cpl : Cpl) (x : CollArgs)
  /-- FILL (R165). Tile command: fills a block with a 64-bit pattern. -/
  | fill (g : BitVec 3) (cpl : Cpl) (x : FillArgs)
  /-- ENC8 (R171). Tile command: encodes lines as EC8 blocks with scales and index. -/
  | enc8 (g : BitVec 3) (cpl : Cpl) (x : Enc8Args)
  /-- ROTATION_FILL (R11). Event. The head of the ready queue takes an empty rotation position and issues. -/
  | rotationFill (core : Nat)
  /-- REGISTER_FILL_ADMIT (R20). Event. Waiting register fills are admitted once entries free. -/
  | registerFillAdmit (core : Nat)
  /-- REGISTER_FILL_COMPLETE (R20). Event. A register fill completes and the waiting instruction issues. -/
  | registerFillComplete (core slot : Nat)
  /-- RELAXED_LOAD_DELIVER (R112). Event. A relaxed load delivers its value and clears the pending mark. -/
  | relaxedLoadDeliver (core slot id : Nat)
  /-- RELAXED_STORE_PERFORM (R111). Event. An outstanding relaxed store is performed. -/
  | relaxedStorePerform (core slot id : Nat)
  /-- ACCESS_COMPLETE (R15). Event. An awaited non-relaxed access completes and the thread becomes READY. -/
  | accessComplete (core slot : Nat)
  /-- SFU_QUEUE_ADMIT (R29). Event. A waiting special-function request gets a queue place. -/
  | sfuQueueAdmit (core : Nat)
  /-- SFU_REQUEST_COMPLETE (R29). Event. A special-function request completes and writes its destination. -/
  | sfuRequestComplete (core : Nat)
  /-- SSU_COMPLETE (R185). Event. A long SSU instruction completes and its thread becomes READY. -/
  | ssuComplete (core slot : Nat)
  /-- CONTEXT_GRANT (R22). Event. A waiting allocation is served when a context or pool room frees. -/
  | contextGrant (core : Nat)
  /-- THREAD_FILL (R23). Event. A woken spilled thread takes a free context and its fill starts. -/
  | threadFill (core : Nat)
  /-- THREAD_FILL_COMPLETE (R23). Event. A fill completes and the thread becomes READY. -/
  | threadFillComplete (core slot : Nat)
  /-- WLIM_EXPIRY (R131). Event. A sleeping period reaches WLIM and ends by expiry. -/
  | wlimExpiry (core slot : Nat)
  /-- WAITGE_RECHECK (R130). Event. A woken WAITGE reads its word again. -/
  | waitgeRecheck (core slot : Nat)
  /-- FE_WAITER_RELEASE (R116). Event. A full-bit change releases the earliest waiting LDFE or STFE. -/
  | feWaiterRelease (core word : Nat)
  /-- WATCH_ENTRY_GRANT (R217). Event. A freed watch-store entry admits a waiting LDFE, STFE or WAITGE. -/
  | watchEntryGrant (core slot : Nat)
  /-- WATCH_RECORDED (R126). Event. The watch store records a watch and WATCH returns its code. -/
  | watchRecorded (core slot : Nat)
  /-- GUEST_ACCESS (R216). Event. A cluster-window access is served in the peer's bank turn. -/
  | guestAccess (core : Nat)
  /-- POSTED_STORE_ACCEPT (R106). Event. The fabric port accepts a posted store and the thread continues. -/
  | postedStoreAccept (core slot : Nat)
  /-- THREAD_PACKET_ARRIVE (R243). Event. A SPAWN, FORK, MIGRATE or MESSAGE packet creates its thread at the target. -/
  | threadPacketArrive (id : Nat)
  /-- VISITOR_SLOT_GRANT (R244). Event. A waiting migrant or message takes a freed visitor slot. -/
  | visitorSlotGrant (core : Nat)
  /-- THREAD_STATE_ACT (R200). Event. A thread-state instruction is performed on its target. -/
  | threadStateAct (core slot : Nat)
  /-- INVPG_COMPLETE (R206). Event. Every waystation has removed the translation and its requests are performed. -/
  | invpgComplete (core slot : Nat)
  /-- SELFT_COMPLETE (R379). Event. Self-test ends, writes its record and repairs or fences units. -/
  | selftComplete (core slot : Nat) (failed : BitVec 8) (rows : BitVec 64) (ways : BitVec 4) (bank : BitVec 8)
  /-- BARRIER_RECORD_GRANT (R248). Event. A BREG waiting for a core barrier record gets one. -/
  | barrierRecordGrant (core : Nat)
  /-- BARRIER_JOIN (R249). Event. A JOIN message raises the barrier's expected count. -/
  | barrierJoin (id : Nat)
  /-- BARRIER_DROP (R250). Event. A DROP message lowers the barrier's expected count. -/
  | barrierDrop (id : Nat)
  /-- BARRIER_ARRIVE (R249). Event. An ARRIVE message counts an arrival and ORs engine status. -/
  | barrierArrive (id : Nat)
  /-- ENGINE_ACCEPT (R153). Event. An engine makes its checks and accepts a tile command. -/
  | engineAccept (id : Nat)
  /-- MMA_STEP (R163). Event. The matrix unit performs one 64-deep K-step. -/
  | mmaStep (id : Nat)
  /-- GATH_SCATTER_ROW (R166). Event. A scatter reaches a row, translates, owns and writes its target. -/
  | gathScatterRow (id : Nat)
  /-- ENGINE_COMPLETE (R158). Event. An engine command finishes and writes its completion pair or barrier arrival. -/
  | engineComplete (id : Nat)
  /-- COLL_INSTANCE_COMPLETE (R168). Event. All participants have contributed and the collective result is written. -/
  | collInstanceComplete (id : Nat)
  /-- RD (R345). Event. Read request at the home slice. -/
  | rd (line agent : Nat)
  /-- RDX (R345). Event. Read-with-write-permission request at the home. -/
  | rdx (line agent : Nat)
  /-- UPG (R345). Event. Upgrade request of an S line at the home. -/
  | upg (line agent : Nat)
  /-- WB (R345). Event. Dirty write-back giving up a line. -/
  | wb (line agent : Nat)
  /-- WBK (R345). Event. Write-back keeping S. -/
  | wbk (line agent : Nat)
  /-- PUT (R345). Event. Gives up a clean or discarded line. -/
  | put (line agent : Nat)
  /-- AMO (R122). Event. An atomic reserves the line and is performed at the home. -/
  | amo (line agent : Nat)
  /-- OWN (R349). Event. An engine takes ownership of a destination line. -/
  | own (line id : Nat)
  /-- EW (R349). Event. An engine writes an owned line at the home. -/
  | ew (line id : Nat)
  /-- REL (R349). Event. An engine releases an unwritten owned line. -/
  | rel (line id : Nat)
  /-- INV (R344). Event. The home tells an agent to drop an S copy. -/
  | inv (line agent : Nat)
  /-- RCL (R344). Event. The home recalls an E or M line. -/
  | rcl (line agent : Nat)
  /-- DWG (R344). Event. The home downgrades a holder to S. -/
  | dwg (line agent : Nat)
  /-- RECALL_ANSWER (R345). Event. An agent's answer to a recall reaches the home. -/
  | recallAnswer (line agent : Nat)
  /-- ACK (R347). Event. The home acknowledges a write-back and frees the eviction buffer entry. -/
  | ack (line agent : Nat)
  /-- NACK (R353). Event. The home refuses a request with a stale lease generation. -/
  | nack (line agent : Nat)
  /-- PIN (R349). Event. A tile fetch unit pins a line at the home. -/
  | pin (line agent : Nat)
  /-- PIN_DROP (R349). Event. A pin is dropped after its step has read the line. -/
  | pinDrop (line agent : Nat)
  /-- LEASE_RENEWAL (R351). Event. An agent renews its lease at a die's keeper. -/
  | leaseRenewal (die agent : Nat)
  /-- LEASE_EXPIRY (R351). Event. An agent's lease expires and its generation advances. -/
  | leaseExpiry (die agent : Nat)
  /-- LEASE_SELF_LIMIT (R351). Event. An agent without acknowledgements treats its permissions as lost. -/
  | leaseSelfLimit (die agent : Nat)
  /-- LEASE_REJOIN (R353). Event. An agent drops its lines and rejoins the keeper for a new generation. -/
  | leaseRejoin (die agent : Nat)
  /-- COPY_TERM_EXPIRY (R340). Event. A read-shared or remote copy reaches the end of its term and is dropped. -/
  | copyTermExpiry (agent line : Nat)
  /-- WALK_COMPLETE (R329). Event. A page walk ends and serves its waiting misses. -/
  | walkComplete (id : Nat)
  /-- WAYSTATION_INVALIDATE (R331). Event. An invalidation reaches a waystation and removes matching entries. -/
  | waystationInvalidate (ws id : Nat)
  /-- CW_JOIN (R267). Event. Port block command JOIN puts the port into joining. -/
  | cwJoin (port : Nat)
  /-- CW_LEAVE (R266). Event. Port block command LEAVE removes the port from membership. -/
  | cwLeave (port : Nat)
  /-- CW_QUEUE_ADMIT (R260). Event. A waiting Causeway operation enters the freed port queue. -/
  | cwQueueAdmit (port : Nat)
  /-- ROTATION_OPEN (R258). Event. The master opens a rotation with its frame 0 and the live view. -/
  | rotationOpen (port : Nat) (view : CwView)
  /-- BURST_SEND (R258). Event. A member transmits its burst in its slot. -/
  | burstSend (port : Nat)
  /-- FRAME_DATA (R259). Event. A received data frame's operations are applied in order. -/
  | frameData (port : Nat) (frame : CwFrame)
  /-- FRAME_REPLAY (R262). Event. A replayed frame fills a hole and buffered frames are applied. -/
  | frameReplay (port : Nat) (frame : CwReplay)
  /-- FRAME_SNAPSHOT (R267). Event. A snapshot frame loads replica bytes at a joiner. -/
  | frameSnapshot (port : Nat) (frame : CwFrame) (part : Nat × List Byte)
  /-- FRAME_CONTROL (R267). Event. A joiner's control frame reaches the master. -/
  | frameControl (port index : Nat) (cwid : BitVec 16) (slots : Nat)
  /-- MISSING_FRAME (R262). Event. A frame is found missing and application stops at the hole. -/
  | missingFrame (port rotation member fidx : Nat)
  /-- HOLE_TIMEOUT (R263). Event. A hole unfilled for 8 rotations makes the receiver leave. -/
  | holeTimeout (port : Nat)
  /-- MASTER_LOSS (R264). Event. No master frame 0 for 2 rotations puts the member in recovering. -/
  | masterLoss (port : Nat)
  /-- RECOVERY_TIMEOUT (R264). Event. Recovery not completed within 100 us makes the member leave. -/
  | recoveryTimeout (port : Nat)
  /-- JOIN_LISTEN_END (R267). Event. A joining port's 2-rotation listening period ends. -/
  | joinListenEnd (port : Nat) (heard : CwHeard)
  /-- FOUNDER_WAIT_END (R268). Event. A founder's index-based wait ends and it becomes master. -/
  | founderWaitEnd (port : Nat) (heard : CwHeard)
  /-- JOIN_GRANT_TIMEOUT (R269). Event. No grant within 8 rotations refuses the JOIN. -/
  | joinGrantTimeout (port : Nat)
  /-- LAUNCH_PORT_HEADER (R303). Event. A write to launch port word 1 submits a header. -/
  | launchPortHeader (part : Nat) (addr : Word)
  /-- LAUNCH_PORT_GRAPH (R314). Event. A write to launch port word 2 starts a task graph replay. -/
  | launchPortGraph (part : Nat) (addr : Word)
  /-- LAUNCH_ACCEPT (R300). Event. The distributor checks a header and accepts or refuses it. -/
  | launchAccept (id : Nat)
  /-- LAUNCH_RECORD_GRANT (R301). Event. A LAUNCH waiting for a record proceeds when one frees. -/
  | launchRecordGrant (part : Nat)
  /-- DEPENDENCE_READY (R304). Event. The dependence word reaches depval and the launch becomes ready. -/
  | dependenceReady (lid : Nat)
  /-- DEPENDENCE_CANCEL (R304). Event. The dependence page fails and the launch is cancelled. -/
  | dependenceCancel (lid : Nat)
  /-- PLACEMENT_DECISION (R306). Event. The distributor places the next band that fits. -/
  | placementDecision (part : Nat)
  /-- QUANTUM_EXPIRY (R307). Event. A launch's quantum expires and a pre-emptor is sought. -/
  | quantumExpiry (lid : Nat)
  /-- GROUP_SAVE (R336). Event. A held group with no engine operations is saved to the lay-by. -/
  | groupSave (gid : Nat)
  /-- WQRY_SERVE (R311). Event. The distributor serves a work-list request. -/
  | wqryServe (part : Nat)
  /-- WQRY_ANSWER_DELIVER (R195). Event. A work-list answer is written into the emptied answer word. -/
  | wqryAnswerDeliver (id : Nat)
  /-- LAUNCH_COMPLETION (R318). Event. The completion status and done add of a launch are performed. -/
  | launchCompletion (lid : Nat)
  /-- CREATE (R321). Event. Partition command CREATE makes a partition active. -/
  | create (part : Nat)
  /-- RESET (R321). Event. Partition command RESET stops, drains and scrubs the partition. -/
  | reset (part : Nat)
  /-- TEARDOWN (R321). Event. Partition command TEARDOWN resets and releases the partition. -/
  | teardown (part : Nat)
  /-- PMS_WRITE (R365). Event. A STD to PMS translates and records the milestone address. -/
  | pmsWrite (core slot : Nat)
  /-- HISTOGRAM_CONFIG (R394). Event. A write to histogram word 0 sets source, shift and enables. -/
  | histogramConfig (part unit : Nat) (value : Word)
  /-- HISTOGRAM_CLEAR (R395). Event. The CLEAR bit zeroes a histogram unit. -/
  | histogramClear (part unit : Nat)
  /-- HISTOGRAM_SAMPLE (R395). Event. A sample updates count, min, max, sum and its bucket. -/
  | histogramSample (part unit : Nat) (sample : Word)
  /-- REGISTER_WRITE (R320). Event. A write to a register with no behaviour of its own. -/
  | registerWrite (part word : Nat) (value : Word)
  /-- POSTED_WRITE_ARRIVE (R366). Event. A posted packet's payload is performed at its target. -/
  | postedWriteArrive (id : Nat)
  /-- REMOTE_READ (R367). Event. A read packet is served at the target home. -/
  | remoteRead (id : Nat)
  /-- REMOTE_READ_RESPONSE (R367). Event. A read response fills the RDC copy and wakes the reader. -/
  | remoteReadResponse (id : Nat) (data : Option (List Byte))
  /-- REMOTE_ATOMIC (R367). Event. An atomic packet is performed as an AMO at the target home. -/
  | remoteAtomic (id : Nat)
  /-- REMOTE_ATOMIC_RESPONSE (R367). Event. An atomic response returns the old value to the issuer. -/
  | remoteAtomicResponse (id : Nat) (old : Option (List Byte))
  /-- HOST_BAR_ACCESS (R358). Event. A host read or write through BAR 0 or BAR 2 is performed. -/
  | hostBarAccess (fn : HostFn) (addr : BarAddr) (size : Nat) (write : Option Nat)
  /-- HOST_ATOMICOP (R358). Event. A received PCIe AtomicOp is performed as an AMO. -/
  | hostAtomicop (fn : HostFn) (offset : Nat) (op : HostAtomic)
  /-- CXL_MEM_ACCESS (R360). Event. A host CXL.mem access is performed at its home slice. -/
  | cxlMemAccess (addr size : Nat) (write : Option Nat)
  /-- HOST_SNOOP (R361). Event. A host snoop reaches a host-coherent line held on the device. -/
  | hostSnoop (line : Nat) (write : Option (List Byte))
  /-- LINK_DOWN (R361). Event. A host link goes down and host-coherent accesses fault. -/
  | linkDown (link : HostLink)
  /-- FLIT_CRC_ERROR (R373). Event. A Buris flit fails its CRC and is retried, fencing the link after 16. -/
  | flitCrcError (link : Nat)
  /-- FATAL_ERROR (R387). Event. A fatal error fences the unit and starts recovery. -/
  | fatalError (unit : FatalUnit) (poisoned : List Nat)
  /-- CHECKPOINT_COMMIT (R385). Event. A lock-step pair commits a checkpoint on its periodic timer. -/
  | checkpointCommit (core : Nat)
  /-- LOCKSTEP_MISMATCH (R386). Event. A pair mismatch rolls both members back, or fences on the third. -/
  | lockstepMismatch (core : Nat)
  /-- BOOT (R388). Event. Power good starts the secure boot sequence. -/
  | boot (image0 image1 : Bool)
  /-- THERMAL_THROTTLE (R393). Event. A die above 105 C has issue cycles withheld. -/
  | thermalThrottle (die : Nat)
  /-- THERMAL_SHUTDOWN (R393). Event. A die at 115 C stops every partition and shuts down. -/
  | thermalShutdown (die : Nat)
  /-- MC_BANK_READ (R390). Event. Management command 0x01 reads 8 bytes of a bank. -/
  | mcBankRead (bank word : Nat)
  /-- BANK_CLEAR (R377). Event. Management command 0x02 clears a machine-check bank. -/
  | bankClear (bank : Nat)
  /-- TELEMETRY_READ (R392). Event. Management command 0x03 reads a telemetry word. -/
  | telemetryRead (word : Nat)
  /-- POWER_LIMIT_SET (R391). Event. Management command 0x04 sets the power limit. -/
  | powerLimitSet (milliwatts : Nat)
  /-- PCB_WORD_ACCESS (R390). Event. Management command 0x05 reads or writes a partition control block word. -/
  | pcbWordAccess (part word : Nat) (write : Option Word)
  /-- ATTESTATION (R389). Event. Management command 0x06 returns a signed attestation report. -/
  | attestation (nonce : List Byte)
  /-- FENCE_LIST_READ (R390). Event. Management command 0x07 reads the fence list. -/
  | fenceListRead
  /-- VERSION_RAISE (R390). Event. Management command 0x08 raises the fused version counter. -/
  | versionRaise
  /-- MGMT_UNKNOWN_CODE (R390). Event. An unassigned management command code is answered with NACK. -/
  | mgmtUnknownCode (code : BitVec 8)
  /-- LAY_BY_SCRUB_COMPLETE (R321). Event. The scrub that ends a RESET or TEARDOWN finishes; result and state are written, leaving busy, and cplval is written at cpladdr. -/
  | layByScrubComplete (part : Nat)
  /-- HOST_LINK_UP (R361). Event. A PCIe or CXL host link that was down trains up again, and host-coherent and host-noncoherent accesses stop faulting. -/
  | hostLinkUp (link : HostLink)
  /-- THERMAL_RECOVERY (R393). Event. A throttled die falls below 100 C and the controller stops withholding issue cycles for it. -/
  | thermalRecovery (die : Nat)
  deriving DecidableEq, Repr

/-- The events of the opcode table apart, as the agenda of the machine holds them: the constructors of
`Instr` that have no instruction word, with the same names and arguments. -/
inductive Event where
  /-- ROTATION_FILL (R11). -/
  | rotationFill (core : Nat)
  /-- REGISTER_FILL_ADMIT (R20). -/
  | registerFillAdmit (core : Nat)
  /-- REGISTER_FILL_COMPLETE (R20). -/
  | registerFillComplete (core slot : Nat)
  /-- RELAXED_LOAD_DELIVER (R112). -/
  | relaxedLoadDeliver (core slot id : Nat)
  /-- RELAXED_STORE_PERFORM (R111). -/
  | relaxedStorePerform (core slot id : Nat)
  /-- ACCESS_COMPLETE (R15). -/
  | accessComplete (core slot : Nat)
  /-- SFU_QUEUE_ADMIT (R29). -/
  | sfuQueueAdmit (core : Nat)
  /-- SFU_REQUEST_COMPLETE (R29). -/
  | sfuRequestComplete (core : Nat)
  /-- SSU_COMPLETE (R185). -/
  | ssuComplete (core slot : Nat)
  /-- CONTEXT_GRANT (R22). -/
  | contextGrant (core : Nat)
  /-- THREAD_FILL (R23). -/
  | threadFill (core : Nat)
  /-- THREAD_FILL_COMPLETE (R23). -/
  | threadFillComplete (core slot : Nat)
  /-- WLIM_EXPIRY (R131). -/
  | wlimExpiry (core slot : Nat)
  /-- WAITGE_RECHECK (R130). -/
  | waitgeRecheck (core slot : Nat)
  /-- FE_WAITER_RELEASE (R116). -/
  | feWaiterRelease (core word : Nat)
  /-- WATCH_ENTRY_GRANT (R217). -/
  | watchEntryGrant (core slot : Nat)
  /-- WATCH_RECORDED (R126). -/
  | watchRecorded (core slot : Nat)
  /-- GUEST_ACCESS (R216). -/
  | guestAccess (core : Nat)
  /-- POSTED_STORE_ACCEPT (R106). -/
  | postedStoreAccept (core slot : Nat)
  /-- THREAD_PACKET_ARRIVE (R243). -/
  | threadPacketArrive (id : Nat)
  /-- VISITOR_SLOT_GRANT (R244). -/
  | visitorSlotGrant (core : Nat)
  /-- THREAD_STATE_ACT (R200). -/
  | threadStateAct (core slot : Nat)
  /-- INVPG_COMPLETE (R206). -/
  | invpgComplete (core slot : Nat)
  /-- SELFT_COMPLETE (R379). -/
  | selftComplete (core slot : Nat) (failed : BitVec 8) (rows : BitVec 64) (ways : BitVec 4) (bank : BitVec 8)
  /-- BARRIER_RECORD_GRANT (R248). -/
  | barrierRecordGrant (core : Nat)
  /-- BARRIER_JOIN (R249). -/
  | barrierJoin (id : Nat)
  /-- BARRIER_DROP (R250). -/
  | barrierDrop (id : Nat)
  /-- BARRIER_ARRIVE (R249). -/
  | barrierArrive (id : Nat)
  /-- ENGINE_ACCEPT (R153). -/
  | engineAccept (id : Nat)
  /-- MMA_STEP (R163). -/
  | mmaStep (id : Nat)
  /-- GATH_SCATTER_ROW (R166). -/
  | gathScatterRow (id : Nat)
  /-- ENGINE_COMPLETE (R158). -/
  | engineComplete (id : Nat)
  /-- COLL_INSTANCE_COMPLETE (R168). -/
  | collInstanceComplete (id : Nat)
  /-- RD (R345). -/
  | rd (line agent : Nat)
  /-- RDX (R345). -/
  | rdx (line agent : Nat)
  /-- UPG (R345). -/
  | upg (line agent : Nat)
  /-- WB (R345). -/
  | wb (line agent : Nat)
  /-- WBK (R345). -/
  | wbk (line agent : Nat)
  /-- PUT (R345). -/
  | put (line agent : Nat)
  /-- AMO (R122). -/
  | amo (line agent : Nat)
  /-- OWN (R349). -/
  | own (line id : Nat)
  /-- EW (R349). -/
  | ew (line id : Nat)
  /-- REL (R349). -/
  | rel (line id : Nat)
  /-- INV (R344). -/
  | inv (line agent : Nat)
  /-- RCL (R344). -/
  | rcl (line agent : Nat)
  /-- DWG (R344). -/
  | dwg (line agent : Nat)
  /-- RECALL_ANSWER (R345). -/
  | recallAnswer (line agent : Nat)
  /-- ACK (R347). -/
  | ack (line agent : Nat)
  /-- NACK (R353). -/
  | nack (line agent : Nat)
  /-- PIN (R349). -/
  | pin (line agent : Nat)
  /-- PIN_DROP (R349). -/
  | pinDrop (line agent : Nat)
  /-- LEASE_RENEWAL (R351). -/
  | leaseRenewal (die agent : Nat)
  /-- LEASE_EXPIRY (R351). -/
  | leaseExpiry (die agent : Nat)
  /-- LEASE_SELF_LIMIT (R351). -/
  | leaseSelfLimit (die agent : Nat)
  /-- LEASE_REJOIN (R353). -/
  | leaseRejoin (die agent : Nat)
  /-- COPY_TERM_EXPIRY (R340). -/
  | copyTermExpiry (agent line : Nat)
  /-- WALK_COMPLETE (R329). -/
  | walkComplete (id : Nat)
  /-- WAYSTATION_INVALIDATE (R331). -/
  | waystationInvalidate (ws id : Nat)
  /-- CW_JOIN (R267). -/
  | cwJoin (port : Nat)
  /-- CW_LEAVE (R266). -/
  | cwLeave (port : Nat)
  /-- CW_QUEUE_ADMIT (R260). -/
  | cwQueueAdmit (port : Nat)
  /-- ROTATION_OPEN (R258). -/
  | rotationOpen (port : Nat) (view : CwView)
  /-- BURST_SEND (R258). -/
  | burstSend (port : Nat)
  /-- FRAME_DATA (R259). -/
  | frameData (port : Nat) (frame : CwFrame)
  /-- FRAME_REPLAY (R262). -/
  | frameReplay (port : Nat) (frame : CwReplay)
  /-- FRAME_SNAPSHOT (R267). -/
  | frameSnapshot (port : Nat) (frame : CwFrame) (part : Nat × List Byte)
  /-- FRAME_CONTROL (R267). -/
  | frameControl (port index : Nat) (cwid : BitVec 16) (slots : Nat)
  /-- MISSING_FRAME (R262). -/
  | missingFrame (port rotation member fidx : Nat)
  /-- HOLE_TIMEOUT (R263). -/
  | holeTimeout (port : Nat)
  /-- MASTER_LOSS (R264). -/
  | masterLoss (port : Nat)
  /-- RECOVERY_TIMEOUT (R264). -/
  | recoveryTimeout (port : Nat)
  /-- JOIN_LISTEN_END (R267). -/
  | joinListenEnd (port : Nat) (heard : CwHeard)
  /-- FOUNDER_WAIT_END (R268). -/
  | founderWaitEnd (port : Nat) (heard : CwHeard)
  /-- JOIN_GRANT_TIMEOUT (R269). -/
  | joinGrantTimeout (port : Nat)
  /-- LAUNCH_PORT_HEADER (R303). -/
  | launchPortHeader (part : Nat) (addr : Word)
  /-- LAUNCH_PORT_GRAPH (R314). -/
  | launchPortGraph (part : Nat) (addr : Word)
  /-- LAUNCH_ACCEPT (R300). -/
  | launchAccept (id : Nat)
  /-- LAUNCH_RECORD_GRANT (R301). -/
  | launchRecordGrant (part : Nat)
  /-- DEPENDENCE_READY (R304). -/
  | dependenceReady (lid : Nat)
  /-- DEPENDENCE_CANCEL (R304). -/
  | dependenceCancel (lid : Nat)
  /-- PLACEMENT_DECISION (R306). -/
  | placementDecision (part : Nat)
  /-- QUANTUM_EXPIRY (R307). -/
  | quantumExpiry (lid : Nat)
  /-- GROUP_SAVE (R336). -/
  | groupSave (gid : Nat)
  /-- WQRY_SERVE (R311). -/
  | wqryServe (part : Nat)
  /-- WQRY_ANSWER_DELIVER (R195). -/
  | wqryAnswerDeliver (id : Nat)
  /-- LAUNCH_COMPLETION (R318). -/
  | launchCompletion (lid : Nat)
  /-- CREATE (R321). -/
  | create (part : Nat)
  /-- RESET (R321). -/
  | reset (part : Nat)
  /-- TEARDOWN (R321). -/
  | teardown (part : Nat)
  /-- PMS_WRITE (R365). -/
  | pmsWrite (core slot : Nat)
  /-- HISTOGRAM_CONFIG (R394). -/
  | histogramConfig (part unit : Nat) (value : Word)
  /-- HISTOGRAM_CLEAR (R395). -/
  | histogramClear (part unit : Nat)
  /-- HISTOGRAM_SAMPLE (R395). -/
  | histogramSample (part unit : Nat) (sample : Word)
  /-- REGISTER_WRITE (R320). -/
  | registerWrite (part word : Nat) (value : Word)
  /-- POSTED_WRITE_ARRIVE (R366). -/
  | postedWriteArrive (id : Nat)
  /-- REMOTE_READ (R367). -/
  | remoteRead (id : Nat)
  /-- REMOTE_READ_RESPONSE (R367). -/
  | remoteReadResponse (id : Nat) (data : Option (List Byte))
  /-- REMOTE_ATOMIC (R367). -/
  | remoteAtomic (id : Nat)
  /-- REMOTE_ATOMIC_RESPONSE (R367). -/
  | remoteAtomicResponse (id : Nat) (old : Option (List Byte))
  /-- HOST_BAR_ACCESS (R358). -/
  | hostBarAccess (fn : HostFn) (addr : BarAddr) (size : Nat) (write : Option Nat)
  /-- HOST_ATOMICOP (R358). -/
  | hostAtomicop (fn : HostFn) (offset : Nat) (op : HostAtomic)
  /-- CXL_MEM_ACCESS (R360). -/
  | cxlMemAccess (addr size : Nat) (write : Option Nat)
  /-- HOST_SNOOP (R361). -/
  | hostSnoop (line : Nat) (write : Option (List Byte))
  /-- LINK_DOWN (R361). -/
  | linkDown (link : HostLink)
  /-- FLIT_CRC_ERROR (R373). -/
  | flitCrcError (link : Nat)
  /-- FATAL_ERROR (R387). -/
  | fatalError (unit : FatalUnit) (poisoned : List Nat)
  /-- CHECKPOINT_COMMIT (R385). -/
  | checkpointCommit (core : Nat)
  /-- LOCKSTEP_MISMATCH (R386). -/
  | lockstepMismatch (core : Nat)
  /-- BOOT (R388). -/
  | boot (image0 image1 : Bool)
  /-- THERMAL_THROTTLE (R393). -/
  | thermalThrottle (die : Nat)
  /-- THERMAL_SHUTDOWN (R393). -/
  | thermalShutdown (die : Nat)
  /-- MC_BANK_READ (R390). -/
  | mcBankRead (bank word : Nat)
  /-- BANK_CLEAR (R377). -/
  | bankClear (bank : Nat)
  /-- TELEMETRY_READ (R392). -/
  | telemetryRead (word : Nat)
  /-- POWER_LIMIT_SET (R391). -/
  | powerLimitSet (milliwatts : Nat)
  /-- PCB_WORD_ACCESS (R390). -/
  | pcbWordAccess (part word : Nat) (write : Option Word)
  /-- ATTESTATION (R389). -/
  | attestation (nonce : List Byte)
  /-- FENCE_LIST_READ (R390). -/
  | fenceListRead
  /-- VERSION_RAISE (R390). -/
  | versionRaise
  /-- MGMT_UNKNOWN_CODE (R390). -/
  | mgmtUnknownCode (code : BitVec 8)
  /-- LAY_BY_SCRUB_COMPLETE (R321). -/
  | layByScrubComplete (part : Nat)
  /-- HOST_LINK_UP (R361). -/
  | hostLinkUp (link : HostLink)
  /-- THERMAL_RECOVERY (R393). -/
  | thermalRecovery (die : Nat)
  deriving DecidableEq, Repr

end Sys2Proof
end

