-- ==== Sys2Proof/WellFormed.lean ====
section
/-!
DEFINITION. WellFormed.lean: the conditions on the fields of an instruction that R63 order 2 judges from
the words alone (R24, R66, R70, R91, R92, R104, R154, R156, R157, R167).
-/
namespace Sys2Proof

/-- The rows of the opcode table that are events: acts of agents, with no instruction word. -/
def Instr.isEvent : Instr → Bool
  | .add .. | .sub .. | .and .. | .or .. | .xor .. | .andn .. | .shl .. | .shr .. | .sra .. | .rotl ..
  | .mins .. | .maxs .. | .minu .. | .maxu .. | .clz .. | .ctz .. | .popc .. | .brev .. | .bswap ..
  | .mul .. | .mulhs .. | .mulhu .. | .mulhsu .. | .divs .. | .divu .. | .rems .. | .remu ..
  | .shadd1 .. | .shadd2 .. | .shadd3 .. | .shadd4 .. | .bext .. | .bins .. | .addi .. | .andi ..
  | .ori .. | .xori .. | .shli .. | .shri .. | .srai .. | .rotli .. | .li .. | .lis .. | .cmpReg ..
  | .cmpImm .. | .plog .. | .pget .. | .pset .. | .br .. | .jal .. | .jr .. | .ldbn .. | .ldhn ..
  | .ldwn .. | .ldd .. | .ldbs .. | .ldhs .. | .ldws .. | .stb .. | .sth .. | .stw .. | .std ..
  | .ldq .. | .stq .. | .ldfe .. | .stfe .. | .aadd .. | .aand .. | .aor .. | .axor .. | .amins ..
  | .amaxs .. | .aminu .. | .amaxu .. | .aswap .. | .acas .. | .acasq .. | .afadd .. | .fence ..
  | .watch .. | .unwatch .. | .sleep .. | .waitge .. | .wbr .. | .invr .. | .wbinvr .. | .prefr ..
  | .faddD .. | .fsubD .. | .fmulD .. | .fminD .. | .fmaxD .. | .fdivD .. | .fsqrtD .. | .fcvt ..
  | .faddS .. | .fsubS .. | .fmulS .. | .fminS .. | .fmaxS .. | .fdivS .. | .fsqrtS .. | .fclass ..
  | .fmaD .. | .fmaS .. | .fmsD .. | .fmsS .. | .fcmp .. | .spawn .. | .quit .. | .migr .. | .send ..
  | .fork .. | .join .. | .wqry .. | .launch .. | .bar .. | .bard .. | .breg .. | .chkpt .. | .tstop ..
  | .tstart .. | .tread .. | .twrite .. | .gets .. | .sets .. | .invpg .. | .selft .. | .brk ..
  | .vadd .. | .vsub .. | .vmul .. | .vmulhs .. | .vmulhu .. | .vand .. | .vor .. | .vxor ..
  | .vandn .. | .vshl .. | .vshr .. | .vsra .. | .vmins .. | .vmaxs .. | .vminu .. | .vmaxu ..
  | .vabs .. | .vpopc .. | .vclz .. | .vcmpeq .. | .vcmplts .. | .vcmpltu .. | .vsel .. | .vshuf ..
  | .vfadd .. | .vfsub .. | .vfmul .. | .vfma .. | .vfms .. | .vfmin .. | .vfmax .. | .vfabs ..
  | .vfneg .. | .vfdiv .. | .vfsqrt .. | .vfcmpeq .. | .vfcmplt .. | .vfcmple .. | .vfcmpun ..
  | .vhaddH .. | .vhmulH .. | .vhfmaH .. | .vhaddB .. | .vhmulB .. | .vhfmaB .. | .vdot8 ..
  | .vdots8 .. | .vcvt .. | .vld .. | .vst .. | .vlds .. | .vsts .. | .vgath .. | .vscat .. | .vldb ..
  | .vldR .. | .vbcast .. | .vext .. | .vins .. | .vredaddS .. | .vredaddI .. | .vredmaxS ..
  | .vredminS .. | .vmask .. | .vrcp .. | .vrsq .. | .vexp2 .. | .vlog2 .. | .vsin .. | .vcos ..
  | .vtanh .. | .vsigm .. | .b2z .. | .z2b .. | .zcls .. | .zrgn .. | .zclr .. | .zand .. | .zor ..
  | .zxnor .. | .znot .. | .zmux .. | .cwst .. | .cwadd .. | .cwcas .. | .cwfence .. | .mma ..
  | .copy .. | .gath .. | .coll .. | .fill .. | .enc8 .. => false
  | .rotationFill .. | .registerFillAdmit .. | .registerFillComplete .. | .relaxedLoadDeliver ..
  | .relaxedStorePerform .. | .accessComplete .. | .sfuQueueAdmit .. | .sfuRequestComplete ..
  | .ssuComplete .. | .contextGrant .. | .threadFill .. | .threadFillComplete .. | .wlimExpiry ..
  | .waitgeRecheck .. | .feWaiterRelease .. | .watchEntryGrant .. | .watchRecorded .. | .guestAccess ..
  | .postedStoreAccept .. | .threadPacketArrive .. | .visitorSlotGrant .. | .threadStateAct ..
  | .invpgComplete .. | .selftComplete .. | .barrierRecordGrant .. | .barrierJoin .. | .barrierDrop ..
  | .barrierArrive .. | .engineAccept .. | .mmaStep .. | .gathScatterRow .. | .engineComplete ..
  | .collInstanceComplete .. | .rd .. | .rdx .. | .upg .. | .wb .. | .wbk .. | .put .. | .amo ..
  | .own .. | .ew .. | .rel .. | .inv .. | .rcl .. | .dwg .. | .recallAnswer .. | .ack .. | .nack ..
  | .pin .. | .pinDrop .. | .leaseRenewal .. | .leaseExpiry .. | .leaseSelfLimit .. | .leaseRejoin ..
  | .copyTermExpiry .. | .walkComplete .. | .waystationInvalidate .. | .cwJoin .. | .cwLeave ..
  | .cwQueueAdmit .. | .rotationOpen .. | .burstSend .. | .frameData .. | .frameReplay ..
  | .frameSnapshot .. | .frameControl .. | .missingFrame .. | .holeTimeout .. | .masterLoss ..
  | .recoveryTimeout .. | .joinListenEnd .. | .founderWaitEnd .. | .joinGrantTimeout ..
  | .launchPortHeader .. | .launchPortGraph .. | .launchAccept .. | .launchRecordGrant ..
  | .dependenceReady .. | .dependenceCancel .. | .placementDecision .. | .quantumExpiry ..
  | .groupSave .. | .wqryServe .. | .wqryAnswerDeliver .. | .launchCompletion .. | .create ..
  | .reset .. | .teardown .. | .pmsWrite .. | .histogramConfig .. | .histogramClear ..
  | .histogramSample .. | .registerWrite .. | .postedWriteArrive .. | .remoteRead ..
  | .remoteReadResponse .. | .remoteAtomic .. | .remoteAtomicResponse .. | .hostBarAccess ..
  | .hostAtomicop .. | .cxlMemAccess .. | .hostSnoop .. | .linkDown .. | .flitCrcError ..
  | .fatalError .. | .checkpointCommit .. | .lockstepMismatch .. | .boot .. | .thermalThrottle ..
  | .thermalShutdown .. | .mcBankRead .. | .bankClear .. | .telemetryRead .. | .powerLimitSet ..
  | .pcbWordAccess .. | .attestation .. | .fenceListRead | .versionRaise | .mgmtUnknownCode ..
  | .layByScrubComplete .. | .hostLinkUp .. | .thermalRecovery .. => true

/-- R24: the selectors SETS may name. -/
def setsSelectors : List (BitVec 9) :=
  [0x007, 0x008, 0x009, 0x00A, 0x00B, 0x00C, 0x00D, 0x011, 0x014]

/-- R104: the assigned codes of FCVT: S and D differ, and T is set only from a floating format to an
integer. -/
def fcvtAssigned (c : BitVec 7) : Bool :=
  c.extractLsb' 3 3 != c.extractLsb' 0 3 &&
    (c.extractLsb' 6 1 == 0#1 ||
      ((c.extractLsb' 3 3).toNat ≤ 5 && 6 ≤ (c.extractLsb' 0 3).toNat))

/-- R156: the combinations of payload word 1; `msOk` for the kinds that take a milestone word. -/
def Cpl.wf (c : Cpl) (msOk : Bool) : Bool :=
  c.mode != 3#2 && (c.mode != 0#2 || (c.cpl == 0#7 && c.val == 0#7)) &&
    (c.mode != 2#2 || c.val == 0#7) && (msOk || c.ms == 0#7)

/-- R157: the class of an MMA format code. -/
def mmaClass (f : BitVec 3) : Nat :=
  match f.toNat with
  | 0 | 1 | 2 => 0
  | 3 | 4 => 1
  | 5 => 2
  | 6 => 3
  | _ => 4

/-- R157: the format pairs and index fields of MMA. -/
def MmaArgs.wf (x : MmaArgs) : Bool :=
  mmaClass x.fa == mmaClass x.fb && (x.fa == 2#3) == (x.ia != 0#7) && (x.fb == 2#3) == (x.ib != 0#7) &&
    (x.fa != 7#3 || (x.sa == 0#7 && x.sb == 0#7))

/-- R157, R167: the reduction code of COLL; zero for BCAST (2) and ALLGATH (3). -/
def CollArgs.wf (x : CollArgs) : Bool :=
  x.rf.toNat ≤ 6 && (x.op.toNat ≤ 1 || x.rf == 0#4)

/-- The conditions of R63 order 2 on an instruction's fields. Every event is well formed. -/
def Instr.wf : Instr → Bool
  | .fence _ _ _ _ s => s.toNat ≤ 4
  | .gets _ _ s => s.toNat ≤ 0x014
  | .sets _ _ s => setsSelectors.contains s
  | .plog _ p _ _ _ => p != 0#3
  | .cmpReg _ p _ _ _ => p != 0#3
  | .cmpImm _ p c _ i => p != 0#3 && (c.toNat ≤ 5 || i.extractLsb' 6 3 == 0#3)
  | .fcmp _ p _ _ _ => p != 0#3
  | .fcvt _ _ _ c => fcvtAssigned c
  | .mma _ cpl x => cpl.wf false && x.wf
  | .copy _ cpl _ => cpl.wf true
  | .fill _ cpl _ => cpl.wf true
  | .gath _ cpl _ => cpl.wf true
  | .coll _ cpl x => cpl.wf false && x.wf
  | .enc8 _ cpl _ => cpl.wf false
  | .add .. | .sub .. | .and .. | .or .. | .xor .. | .andn .. | .shl .. | .shr .. | .sra .. | .rotl ..
  | .mins .. | .maxs .. | .minu .. | .maxu .. | .clz .. | .ctz .. | .popc .. | .brev .. | .bswap ..
  | .mul .. | .mulhs .. | .mulhu .. | .mulhsu .. | .divs .. | .divu .. | .rems .. | .remu ..
  | .shadd1 .. | .shadd2 .. | .shadd3 .. | .shadd4 .. | .bext .. | .bins .. | .addi .. | .andi ..
  | .ori .. | .xori .. | .shli .. | .shri .. | .srai .. | .rotli .. | .li .. | .lis .. | .pget ..
  | .pset .. | .br .. | .jal .. | .jr .. | .ldbn .. | .ldhn .. | .ldwn .. | .ldd .. | .ldbs ..
  | .ldhs .. | .ldws .. | .stb .. | .sth .. | .stw .. | .std .. | .ldq .. | .stq .. | .ldfe ..
  | .stfe .. | .aadd .. | .aand .. | .aor .. | .axor .. | .amins .. | .amaxs .. | .aminu .. | .amaxu ..
  | .aswap .. | .acas .. | .acasq .. | .afadd .. | .watch .. | .unwatch .. | .sleep .. | .waitge ..
  | .wbr .. | .invr .. | .wbinvr .. | .prefr .. | .faddD .. | .fsubD .. | .fmulD .. | .fminD ..
  | .fmaxD .. | .fdivD .. | .fsqrtD .. | .faddS .. | .fsubS .. | .fmulS .. | .fminS .. | .fmaxS ..
  | .fdivS .. | .fsqrtS .. | .fclass .. | .fmaD .. | .fmaS .. | .fmsD .. | .fmsS .. | .spawn ..
  | .quit .. | .migr .. | .send .. | .fork .. | .join .. | .wqry .. | .launch .. | .bar .. | .bard ..
  | .breg .. | .chkpt .. | .tstop .. | .tstart .. | .tread .. | .twrite .. | .invpg .. | .selft ..
  | .brk .. | .vadd .. | .vsub .. | .vmul .. | .vmulhs .. | .vmulhu .. | .vand .. | .vor .. | .vxor ..
  | .vandn .. | .vshl .. | .vshr .. | .vsra .. | .vmins .. | .vmaxs .. | .vminu .. | .vmaxu ..
  | .vabs .. | .vpopc .. | .vclz .. | .vcmpeq .. | .vcmplts .. | .vcmpltu .. | .vsel .. | .vshuf ..
  | .vfadd .. | .vfsub .. | .vfmul .. | .vfma .. | .vfms .. | .vfmin .. | .vfmax .. | .vfabs ..
  | .vfneg .. | .vfdiv .. | .vfsqrt .. | .vfcmpeq .. | .vfcmplt .. | .vfcmple .. | .vfcmpun ..
  | .vhaddH .. | .vhmulH .. | .vhfmaH .. | .vhaddB .. | .vhmulB .. | .vhfmaB .. | .vdot8 ..
  | .vdots8 .. | .vcvt .. | .vld .. | .vst .. | .vlds .. | .vsts .. | .vgath .. | .vscat .. | .vldb ..
  | .vldR .. | .vbcast .. | .vext .. | .vins .. | .vredaddS .. | .vredaddI .. | .vredmaxS ..
  | .vredminS .. | .vmask .. | .vrcp .. | .vrsq .. | .vexp2 .. | .vlog2 .. | .vsin .. | .vcos ..
  | .vtanh .. | .vsigm .. | .b2z .. | .z2b .. | .zcls .. | .zrgn .. | .zclr .. | .zand .. | .zor ..
  | .zxnor .. | .znot .. | .zmux .. | .cwst .. | .cwadd .. | .cwcas .. | .cwfence .. | .rotationFill ..
  | .registerFillAdmit .. | .registerFillComplete .. | .relaxedLoadDeliver .. | .relaxedStorePerform ..
  | .accessComplete .. | .sfuQueueAdmit .. | .sfuRequestComplete .. | .ssuComplete ..
  | .contextGrant .. | .threadFill .. | .threadFillComplete .. | .wlimExpiry .. | .waitgeRecheck ..
  | .feWaiterRelease .. | .watchEntryGrant .. | .watchRecorded .. | .guestAccess ..
  | .postedStoreAccept .. | .threadPacketArrive .. | .visitorSlotGrant .. | .threadStateAct ..
  | .invpgComplete .. | .selftComplete .. | .barrierRecordGrant .. | .barrierJoin .. | .barrierDrop ..
  | .barrierArrive .. | .engineAccept .. | .mmaStep .. | .gathScatterRow .. | .engineComplete ..
  | .collInstanceComplete .. | .rd .. | .rdx .. | .upg .. | .wb .. | .wbk .. | .put .. | .amo ..
  | .own .. | .ew .. | .rel .. | .inv .. | .rcl .. | .dwg .. | .recallAnswer .. | .ack .. | .nack ..
  | .pin .. | .pinDrop .. | .leaseRenewal .. | .leaseExpiry .. | .leaseSelfLimit .. | .leaseRejoin ..
  | .copyTermExpiry .. | .walkComplete .. | .waystationInvalidate .. | .cwJoin .. | .cwLeave ..
  | .cwQueueAdmit .. | .rotationOpen .. | .burstSend .. | .frameData .. | .frameReplay ..
  | .frameSnapshot .. | .frameControl .. | .missingFrame .. | .holeTimeout .. | .masterLoss ..
  | .recoveryTimeout .. | .joinListenEnd .. | .founderWaitEnd .. | .joinGrantTimeout ..
  | .launchPortHeader .. | .launchPortGraph .. | .launchAccept .. | .launchRecordGrant ..
  | .dependenceReady .. | .dependenceCancel .. | .placementDecision .. | .quantumExpiry ..
  | .groupSave .. | .wqryServe .. | .wqryAnswerDeliver .. | .launchCompletion .. | .create ..
  | .reset .. | .teardown .. | .pmsWrite .. | .histogramConfig .. | .histogramClear ..
  | .histogramSample .. | .registerWrite .. | .postedWriteArrive .. | .remoteRead ..
  | .remoteReadResponse .. | .remoteAtomic .. | .remoteAtomicResponse .. | .hostBarAccess ..
  | .hostAtomicop .. | .cxlMemAccess .. | .hostSnoop .. | .linkDown .. | .flitCrcError ..
  | .fatalError .. | .checkpointCommit .. | .lockstepMismatch .. | .boot .. | .thermalThrottle ..
  | .thermalShutdown .. | .mcBankRead .. | .bankClear .. | .telemetryRead .. | .powerLimitSet ..
  | .pcbWordAccess .. | .attestation .. | .fenceListRead | .versionRaise | .mgmtUnknownCode ..
  | .layByScrubComplete .. | .hostLinkUp .. | .thermalRecovery .. => true

end Sys2Proof
end

