-- ==== Sys2Proof/Decode.lean ====
section
/-!
DEFINITION. Decode.lean: decoding of instruction words (R60 to R70, R156, R157), total on any bytes, and
after it the encoder, written from the same encoding tables of the spec.
-/
namespace Sys2Proof

/-- Why bytes are not an instruction (R63, orders 2 and 3). -/
inductive DecodeError where
  /-- R63 order 2; `extra` is word 5 of the fault record: the selector in the selector cases, else 0. -/
  | illegal (extra : BitVec 9)
  /-- R63 order 3: a tile command word of reserved engine kind. -/
  | engine (kind : BitVec 4)
  /-- Fewer bytes than the instruction has. -/
  | truncated
  deriving DecidableEq, Repr

def illegal : Except DecodeError Instr := .error (.illegal 0#9)

/-- R66: a field that must be zero. -/
def guardZ (c : Bool) (i : Instr) : Except DecodeError Instr := if c then .ok i else illegal

/-- R69: the instruction of a word by its major and minor, before the conditions of `Instr.wf`. DESIGN CHOICE (log 93):
the refusal of a GETS or SETS word that has a nonzero unused field carries 0, whether or not its selector is wrong too. -/
def decodeFields (w : BitVec 32) : Except DecodeError Instr :=
  match (w.extractLsb' 23 6).toNat with
  | 0x00 =>
    match (w.extractLsb' 0 2).toNat with
    | 0 => .ok (.add (w.extractLsb' 29 3) (w.extractLsb' 16 7) (w.extractLsb' 9 7) (w.extractLsb' 2 7))
    | 1 => .ok (.sub (w.extractLsb' 29 3) (w.extractLsb' 16 7) (w.extractLsb' 9 7) (w.extractLsb' 2 7))
    | 2 => .ok (.and (w.extractLsb' 29 3) (w.extractLsb' 16 7) (w.extractLsb' 9 7) (w.extractLsb' 2 7))
    | 3 => .ok (.or (w.extractLsb' 29 3) (w.extractLsb' 16 7) (w.extractLsb' 9 7) (w.extractLsb' 2 7))
    | _ => illegal
  | 0x01 =>
    match (w.extractLsb' 0 2).toNat with
    | 0 => .ok (.xor (w.extractLsb' 29 3) (w.extractLsb' 16 7) (w.extractLsb' 9 7) (w.extractLsb' 2 7))
    | 1 => .ok (.andn (w.extractLsb' 29 3) (w.extractLsb' 16 7) (w.extractLsb' 9 7) (w.extractLsb' 2 7))
    | 2 => .ok (.shl (w.extractLsb' 29 3) (w.extractLsb' 16 7) (w.extractLsb' 9 7) (w.extractLsb' 2 7))
    | 3 => .ok (.shr (w.extractLsb' 29 3) (w.extractLsb' 16 7) (w.extractLsb' 9 7) (w.extractLsb' 2 7))
    | _ => illegal
  | 0x02 =>
    match (w.extractLsb' 0 2).toNat with
    | 0 => .ok (.sra (w.extractLsb' 29 3) (w.extractLsb' 16 7) (w.extractLsb' 9 7) (w.extractLsb' 2 7))
    | 1 => .ok (.rotl (w.extractLsb' 29 3) (w.extractLsb' 16 7) (w.extractLsb' 9 7) (w.extractLsb' 2 7))
    | 2 => .ok (.mins (w.extractLsb' 29 3) (w.extractLsb' 16 7) (w.extractLsb' 9 7) (w.extractLsb' 2 7))
    | 3 => .ok (.maxs (w.extractLsb' 29 3) (w.extractLsb' 16 7) (w.extractLsb' 9 7) (w.extractLsb' 2 7))
    | _ => illegal
  | 0x03 =>
    match (w.extractLsb' 0 2).toNat with
    | 0 => .ok (.minu (w.extractLsb' 29 3) (w.extractLsb' 16 7) (w.extractLsb' 9 7) (w.extractLsb' 2 7))
    | 1 => .ok (.maxu (w.extractLsb' 29 3) (w.extractLsb' 16 7) (w.extractLsb' 9 7) (w.extractLsb' 2 7))
    | 2 => guardZ (w.extractLsb' 2 7 == 0#7) (.clz (w.extractLsb' 29 3) (w.extractLsb' 16 7) (w.extractLsb' 9 7))
    | 3 => guardZ (w.extractLsb' 2 7 == 0#7) (.ctz (w.extractLsb' 29 3) (w.extractLsb' 16 7) (w.extractLsb' 9 7))
    | _ => illegal
  | 0x04 =>
    match (w.extractLsb' 0 2).toNat with
    | 0 => guardZ (w.extractLsb' 2 7 == 0#7) (.popc (w.extractLsb' 29 3) (w.extractLsb' 16 7) (w.extractLsb' 9 7))
    | 1 => guardZ (w.extractLsb' 2 7 == 0#7) (.brev (w.extractLsb' 29 3) (w.extractLsb' 16 7) (w.extractLsb' 9 7))
    | 2 => guardZ (w.extractLsb' 2 7 == 0#7) (.bswap (w.extractLsb' 29 3) (w.extractLsb' 16 7) (w.extractLsb' 9 7))
    | _ => illegal
  | 0x05 =>
    match (w.extractLsb' 0 2).toNat with
    | 0 => .ok (.mul (w.extractLsb' 29 3) (w.extractLsb' 16 7) (w.extractLsb' 9 7) (w.extractLsb' 2 7))
    | 1 => .ok (.mulhs (w.extractLsb' 29 3) (w.extractLsb' 16 7) (w.extractLsb' 9 7) (w.extractLsb' 2 7))
    | 2 => .ok (.mulhu (w.extractLsb' 29 3) (w.extractLsb' 16 7) (w.extractLsb' 9 7) (w.extractLsb' 2 7))
    | 3 => .ok (.mulhsu (w.extractLsb' 29 3) (w.extractLsb' 16 7) (w.extractLsb' 9 7) (w.extractLsb' 2 7))
    | _ => illegal
  | 0x06 =>
    match (w.extractLsb' 0 2).toNat with
    | 0 => .ok (.divs (w.extractLsb' 29 3) (w.extractLsb' 16 7) (w.extractLsb' 9 7) (w.extractLsb' 2 7))
    | 1 => .ok (.divu (w.extractLsb' 29 3) (w.extractLsb' 16 7) (w.extractLsb' 9 7) (w.extractLsb' 2 7))
    | 2 => .ok (.rems (w.extractLsb' 29 3) (w.extractLsb' 16 7) (w.extractLsb' 9 7) (w.extractLsb' 2 7))
    | 3 => .ok (.remu (w.extractLsb' 29 3) (w.extractLsb' 16 7) (w.extractLsb' 9 7) (w.extractLsb' 2 7))
    | _ => illegal
  | 0x07 =>
    match (w.extractLsb' 0 2).toNat with
    | 0 => .ok (.shadd1 (w.extractLsb' 29 3) (w.extractLsb' 16 7) (w.extractLsb' 9 7) (w.extractLsb' 2 7))
    | 1 => .ok (.shadd2 (w.extractLsb' 29 3) (w.extractLsb' 16 7) (w.extractLsb' 9 7) (w.extractLsb' 2 7))
    | 2 => .ok (.shadd3 (w.extractLsb' 29 3) (w.extractLsb' 16 7) (w.extractLsb' 9 7) (w.extractLsb' 2 7))
    | 3 => .ok (.shadd4 (w.extractLsb' 29 3) (w.extractLsb' 16 7) (w.extractLsb' 9 7) (w.extractLsb' 2 7))
    | _ => illegal
  | 0x08 =>
    match (w.extractLsb' 0 2).toNat with
    | 0 => .ok (.bext (w.extractLsb' 29 3) (w.extractLsb' 16 7) (w.extractLsb' 9 7) (w.extractLsb' 2 7))
    | 1 => .ok (.bins (w.extractLsb' 29 3) (w.extractLsb' 16 7) (w.extractLsb' 9 7) (w.extractLsb' 2 7))
    | _ => illegal
  | 0x09 => .ok (.addi (w.extractLsb' 29 3) (w.extractLsb' 16 7) (w.extractLsb' 9 7) (w.extractLsb' 0 9))
  | 0x0A => .ok (.andi (w.extractLsb' 29 3) (w.extractLsb' 16 7) (w.extractLsb' 9 7) (w.extractLsb' 0 9))
  | 0x0B => .ok (.ori (w.extractLsb' 29 3) (w.extractLsb' 16 7) (w.extractLsb' 9 7) (w.extractLsb' 0 9))
  | 0x0C => .ok (.xori (w.extractLsb' 29 3) (w.extractLsb' 16 7) (w.extractLsb' 9 7) (w.extractLsb' 0 9))
  | 0x0D =>
    match (w.extractLsb' 7 2).toNat with
    | 0 => guardZ (w.extractLsb' 6 1 == 0#1) (.shli (w.extractLsb' 29 3) (w.extractLsb' 16 7) (w.extractLsb' 9 7) (w.extractLsb' 0 6))
    | 1 => guardZ (w.extractLsb' 6 1 == 0#1) (.shri (w.extractLsb' 29 3) (w.extractLsb' 16 7) (w.extractLsb' 9 7) (w.extractLsb' 0 6))
    | 2 => guardZ (w.extractLsb' 6 1 == 0#1) (.srai (w.extractLsb' 29 3) (w.extractLsb' 16 7) (w.extractLsb' 9 7) (w.extractLsb' 0 6))
    | 3 => guardZ (w.extractLsb' 6 1 == 0#1) (.rotli (w.extractLsb' 29 3) (w.extractLsb' 16 7) (w.extractLsb' 9 7) (w.extractLsb' 0 6))
    | _ => illegal
  | 0x0E => .ok (.li (w.extractLsb' 29 3) (w.extractLsb' 16 7) (w.extractLsb' 0 16))
  | 0x0F => .ok (.lis (w.extractLsb' 29 3) (w.extractLsb' 16 7) (w.extractLsb' 0 16))
  | 0x10 =>
    if w.extractLsb' 16 1 == 0#1 then guardZ (w.extractLsb' 0 2 == 0#2) (.cmpReg (w.extractLsb' 29 3) (w.extractLsb' 20 3) (w.extractLsb' 17 3) (w.extractLsb' 9 7) (w.extractLsb' 2 7))
    else .ok (.cmpImm (w.extractLsb' 29 3) (w.extractLsb' 20 3) (w.extractLsb' 17 3) (w.extractLsb' 9 7) (w.extractLsb' 0 9))
  | 0x11 => guardZ (w.extractLsb' 0 12 == 0#12) (.plog (w.extractLsb' 29 3) (w.extractLsb' 20 3) (w.extractLsb' 17 3) (w.extractLsb' 14 3) (w.extractLsb' 12 2))
  | 0x12 =>
    match (w.extractLsb' 0 2).toNat with
    | 0 => guardZ (w.extractLsb' 2 14 == 0#14) (.pget (w.extractLsb' 29 3) (w.extractLsb' 16 7))
    | 1 => guardZ (w.extractLsb' 2 7 == 0#7 && w.extractLsb' 16 7 == 0#7) (.pset (w.extractLsb' 29 3) (w.extractLsb' 9 7))
    | _ => illegal
  | 0x13 => .ok (.br (w.extractLsb' 29 3) (w.extractLsb' 0 23))
  | 0x14 => .ok (.jal (w.extractLsb' 29 3) (w.extractLsb' 16 7) (w.extractLsb' 0 16))
  | 0x15 => .ok (.jr (w.extractLsb' 29 3) (w.extractLsb' 16 7) (w.extractLsb' 9 7) (w.extractLsb' 0 9))
  | 0x16 => .ok (.ldbn (w.extractLsb' 29 3) (w.extractLsb' 16 7) (w.extractLsb' 9 7) (w.extractLsb' 1 8) (w.extractLsb' 0 1))
  | 0x17 => .ok (.ldhn (w.extractLsb' 29 3) (w.extractLsb' 16 7) (w.extractLsb' 9 7) (w.extractLsb' 1 8) (w.extractLsb' 0 1))
  | 0x18 => .ok (.ldwn (w.extractLsb' 29 3) (w.extractLsb' 16 7) (w.extractLsb' 9 7) (w.extractLsb' 1 8) (w.extractLsb' 0 1))
  | 0x19 => .ok (.ldd (w.extractLsb' 29 3) (w.extractLsb' 16 7) (w.extractLsb' 9 7) (w.extractLsb' 1 8) (w.extractLsb' 0 1))
  | 0x1A => .ok (.ldbs (w.extractLsb' 29 3) (w.extractLsb' 16 7) (w.extractLsb' 9 7) (w.extractLsb' 1 8) (w.extractLsb' 0 1))
  | 0x1B => .ok (.ldhs (w.extractLsb' 29 3) (w.extractLsb' 16 7) (w.extractLsb' 9 7) (w.extractLsb' 1 8) (w.extractLsb' 0 1))
  | 0x1C => .ok (.ldws (w.extractLsb' 29 3) (w.extractLsb' 16 7) (w.extractLsb' 9 7) (w.extractLsb' 1 8) (w.extractLsb' 0 1))
  | 0x1D => .ok (.stb (w.extractLsb' 29 3) (w.extractLsb' 16 7) (w.extractLsb' 9 7) (w.extractLsb' 1 8) (w.extractLsb' 0 1))
  | 0x1E => .ok (.sth (w.extractLsb' 29 3) (w.extractLsb' 16 7) (w.extractLsb' 9 7) (w.extractLsb' 1 8) (w.extractLsb' 0 1))
  | 0x1F => .ok (.stw (w.extractLsb' 29 3) (w.extractLsb' 16 7) (w.extractLsb' 9 7) (w.extractLsb' 1 8) (w.extractLsb' 0 1))
  | 0x20 => .ok (.std (w.extractLsb' 29 3) (w.extractLsb' 16 7) (w.extractLsb' 9 7) (w.extractLsb' 1 8) (w.extractLsb' 0 1))
  | 0x21 =>
    match (w.extractLsb' 0 2).toNat with
    | 0 => guardZ (w.extractLsb' 2 7 == 0#7) (.ldq (w.extractLsb' 29 3) (w.extractLsb' 16 7) (w.extractLsb' 9 7))
    | 1 => guardZ (w.extractLsb' 2 7 == 0#7) (.stq (w.extractLsb' 29 3) (w.extractLsb' 16 7) (w.extractLsb' 9 7))
    | 2 => .ok (.ldfe (w.extractLsb' 29 3) (w.extractLsb' 16 7) (w.extractLsb' 9 7) (w.extractLsb' 2 7))
    | 3 => .ok (.stfe (w.extractLsb' 29 3) (w.extractLsb' 16 7) (w.extractLsb' 9 7) (w.extractLsb' 2 7))
    | _ => illegal
  | 0x22 =>
    match (w.extractLsb' 0 2).toNat with
    | 0 => .ok (.aadd (w.extractLsb' 29 3) (w.extractLsb' 16 7) (w.extractLsb' 9 7) (w.extractLsb' 2 7))
    | 1 => .ok (.aand (w.extractLsb' 29 3) (w.extractLsb' 16 7) (w.extractLsb' 9 7) (w.extractLsb' 2 7))
    | 2 => .ok (.aor (w.extractLsb' 29 3) (w.extractLsb' 16 7) (w.extractLsb' 9 7) (w.extractLsb' 2 7))
    | 3 => .ok (.axor (w.extractLsb' 29 3) (w.extractLsb' 16 7) (w.extractLsb' 9 7) (w.extractLsb' 2 7))
    | _ => illegal
  | 0x23 =>
    match (w.extractLsb' 0 2).toNat with
    | 0 => .ok (.amins (w.extractLsb' 29 3) (w.extractLsb' 16 7) (w.extractLsb' 9 7) (w.extractLsb' 2 7))
    | 1 => .ok (.amaxs (w.extractLsb' 29 3) (w.extractLsb' 16 7) (w.extractLsb' 9 7) (w.extractLsb' 2 7))
    | 2 => .ok (.aminu (w.extractLsb' 29 3) (w.extractLsb' 16 7) (w.extractLsb' 9 7) (w.extractLsb' 2 7))
    | 3 => .ok (.amaxu (w.extractLsb' 29 3) (w.extractLsb' 16 7) (w.extractLsb' 9 7) (w.extractLsb' 2 7))
    | _ => illegal
  | 0x24 =>
    match (w.extractLsb' 0 2).toNat with
    | 0 => .ok (.aswap (w.extractLsb' 29 3) (w.extractLsb' 16 7) (w.extractLsb' 9 7) (w.extractLsb' 2 7))
    | 1 => .ok (.acas (w.extractLsb' 29 3) (w.extractLsb' 16 7) (w.extractLsb' 9 7) (w.extractLsb' 2 7))
    | 2 => .ok (.acasq (w.extractLsb' 29 3) (w.extractLsb' 16 7) (w.extractLsb' 9 7) (w.extractLsb' 2 7))
    | 3 => .ok (.afadd (w.extractLsb' 29 3) (w.extractLsb' 16 7) (w.extractLsb' 9 7) (w.extractLsb' 2 7))
    | _ => illegal
  | 0x25 => guardZ (w.extractLsb' 6 17 == 0#17) (.fence (w.extractLsb' 29 3) (w.extractLsb' 5 1) (w.extractLsb' 4 1) (w.extractLsb' 3 1) (w.extractLsb' 0 3))
  | 0x26 =>
    match (w.extractLsb' 0 2).toNat with
    | 0 => guardZ (w.extractLsb' 2 7 == 0#7) (.watch (w.extractLsb' 29 3) (w.extractLsb' 16 7) (w.extractLsb' 9 7))
    | 1 => guardZ (w.extractLsb' 2 7 == 0#7) (.unwatch (w.extractLsb' 29 3) (w.extractLsb' 16 7) (w.extractLsb' 9 7))
    | 2 => guardZ (w.extractLsb' 2 14 == 0#14) (.sleep (w.extractLsb' 29 3) (w.extractLsb' 16 7))
    | 3 => .ok (.waitge (w.extractLsb' 29 3) (w.extractLsb' 16 7) (w.extractLsb' 9 7) (w.extractLsb' 2 7))
    | _ => illegal
  | 0x27 =>
    match (w.extractLsb' 0 2).toNat with
    | 0 => .ok (.wbr (w.extractLsb' 29 3) (w.extractLsb' 16 7) (w.extractLsb' 9 7) (w.extractLsb' 2 7))
    | 1 => .ok (.invr (w.extractLsb' 29 3) (w.extractLsb' 16 7) (w.extractLsb' 9 7) (w.extractLsb' 2 7))
    | 2 => .ok (.wbinvr (w.extractLsb' 29 3) (w.extractLsb' 16 7) (w.extractLsb' 9 7) (w.extractLsb' 2 7))
    | 3 => guardZ (w.extractLsb' 16 7 == 0#7) (.prefr (w.extractLsb' 29 3) (w.extractLsb' 9 7) (w.extractLsb' 2 7))
    | _ => illegal
  | 0x28 =>
    match (w.extractLsb' 0 2).toNat with
    | 0 => .ok (.faddD (w.extractLsb' 29 3) (w.extractLsb' 16 7) (w.extractLsb' 9 7) (w.extractLsb' 2 7))
    | 1 => .ok (.fsubD (w.extractLsb' 29 3) (w.extractLsb' 16 7) (w.extractLsb' 9 7) (w.extractLsb' 2 7))
    | 2 => .ok (.fmulD (w.extractLsb' 29 3) (w.extractLsb' 16 7) (w.extractLsb' 9 7) (w.extractLsb' 2 7))
    | 3 => .ok (.fminD (w.extractLsb' 29 3) (w.extractLsb' 16 7) (w.extractLsb' 9 7) (w.extractLsb' 2 7))
    | _ => illegal
  | 0x29 =>
    match (w.extractLsb' 0 2).toNat with
    | 0 => .ok (.fmaxD (w.extractLsb' 29 3) (w.extractLsb' 16 7) (w.extractLsb' 9 7) (w.extractLsb' 2 7))
    | 1 => .ok (.fdivD (w.extractLsb' 29 3) (w.extractLsb' 16 7) (w.extractLsb' 9 7) (w.extractLsb' 2 7))
    | 2 => guardZ (w.extractLsb' 2 7 == 0#7) (.fsqrtD (w.extractLsb' 29 3) (w.extractLsb' 16 7) (w.extractLsb' 9 7))
    | 3 => .ok (.fcvt (w.extractLsb' 29 3) (w.extractLsb' 16 7) (w.extractLsb' 9 7) (w.extractLsb' 2 7))
    | _ => illegal
  | 0x2A =>
    match (w.extractLsb' 0 2).toNat with
    | 0 => .ok (.faddS (w.extractLsb' 29 3) (w.extractLsb' 16 7) (w.extractLsb' 9 7) (w.extractLsb' 2 7))
    | 1 => .ok (.fsubS (w.extractLsb' 29 3) (w.extractLsb' 16 7) (w.extractLsb' 9 7) (w.extractLsb' 2 7))
    | 2 => .ok (.fmulS (w.extractLsb' 29 3) (w.extractLsb' 16 7) (w.extractLsb' 9 7) (w.extractLsb' 2 7))
    | 3 => .ok (.fminS (w.extractLsb' 29 3) (w.extractLsb' 16 7) (w.extractLsb' 9 7) (w.extractLsb' 2 7))
    | _ => illegal
  | 0x2B =>
    match (w.extractLsb' 0 2).toNat with
    | 0 => .ok (.fmaxS (w.extractLsb' 29 3) (w.extractLsb' 16 7) (w.extractLsb' 9 7) (w.extractLsb' 2 7))
    | 1 => .ok (.fdivS (w.extractLsb' 29 3) (w.extractLsb' 16 7) (w.extractLsb' 9 7) (w.extractLsb' 2 7))
    | 2 => guardZ (w.extractLsb' 2 7 == 0#7) (.fsqrtS (w.extractLsb' 29 3) (w.extractLsb' 16 7) (w.extractLsb' 9 7))
    | 3 => guardZ (w.extractLsb' 2 7 == 0#7) (.fclass (w.extractLsb' 29 3) (w.extractLsb' 16 7) (w.extractLsb' 9 7))
    | _ => illegal
  | 0x2C =>
    match (w.extractLsb' 0 2).toNat with
    | 0 => .ok (.fmaD (w.extractLsb' 29 3) (w.extractLsb' 16 7) (w.extractLsb' 9 7) (w.extractLsb' 2 7))
    | 1 => .ok (.fmaS (w.extractLsb' 29 3) (w.extractLsb' 16 7) (w.extractLsb' 9 7) (w.extractLsb' 2 7))
    | 2 => .ok (.fmsD (w.extractLsb' 29 3) (w.extractLsb' 16 7) (w.extractLsb' 9 7) (w.extractLsb' 2 7))
    | 3 => .ok (.fmsS (w.extractLsb' 29 3) (w.extractLsb' 16 7) (w.extractLsb' 9 7) (w.extractLsb' 2 7))
    | _ => illegal
  | 0x2D => if w.extractLsb' 16 1 == 0#1 then guardZ (w.extractLsb' 0 2 == 0#2) (.fcmp (w.extractLsb' 29 3) (w.extractLsb' 20 3) (w.extractLsb' 17 3) (w.extractLsb' 9 7) (w.extractLsb' 2 7)) else illegal
  | 0x2E =>
    match (w.extractLsb' 0 2).toNat with
    | 0 => .ok (.spawn (w.extractLsb' 29 3) (w.extractLsb' 16 7) (w.extractLsb' 9 7) (w.extractLsb' 2 7))
    | 1 => guardZ (w.extractLsb' 2 21 == 0#21) (.quit (w.extractLsb' 29 3))
    | 2 => guardZ (w.extractLsb' 2 7 == 0#7 && w.extractLsb' 16 7 == 0#7) (.migr (w.extractLsb' 29 3) (w.extractLsb' 9 7))
    | 3 => .ok (.send (w.extractLsb' 29 3) (w.extractLsb' 16 7) (w.extractLsb' 9 7) (w.extractLsb' 2 7))
    | _ => illegal
  | 0x2F =>
    match (w.extractLsb' 0 2).toNat with
    | 0 => .ok (.fork (w.extractLsb' 29 3) (w.extractLsb' 16 7) (w.extractLsb' 9 7) (w.extractLsb' 2 7))
    | 1 => guardZ (w.extractLsb' 2 7 == 0#7 && w.extractLsb' 16 7 == 0#7) (.join (w.extractLsb' 29 3) (w.extractLsb' 9 7))
    | 2 => guardZ (w.extractLsb' 2 7 == 0#7) (.wqry (w.extractLsb' 29 3) (w.extractLsb' 16 7) (w.extractLsb' 9 7))
    | 3 => guardZ (w.extractLsb' 2 7 == 0#7) (.launch (w.extractLsb' 29 3) (w.extractLsb' 16 7) (w.extractLsb' 9 7))
    | _ => illegal
  | 0x30 =>
    match (w.extractLsb' 0 2).toNat with
    | 0 => guardZ (w.extractLsb' 2 7 == 0#7) (.bar (w.extractLsb' 29 3) (w.extractLsb' 16 7) (w.extractLsb' 9 7))
    | 1 => guardZ (w.extractLsb' 2 7 == 0#7) (.bard (w.extractLsb' 29 3) (w.extractLsb' 16 7) (w.extractLsb' 9 7))
    | 2 => guardZ (w.extractLsb' 2 7 == 0#7) (.breg (w.extractLsb' 29 3) (w.extractLsb' 16 7) (w.extractLsb' 9 7))
    | 3 => guardZ (w.extractLsb' 2 14 == 0#14) (.chkpt (w.extractLsb' 29 3) (w.extractLsb' 16 7))
    | _ => illegal
  | 0x31 =>
    match (w.extractLsb' 0 2).toNat with
    | 0 => guardZ (w.extractLsb' 2 7 == 0#7) (.tstop (w.extractLsb' 29 3) (w.extractLsb' 16 7) (w.extractLsb' 9 7))
    | 1 => guardZ (w.extractLsb' 2 7 == 0#7) (.tstart (w.extractLsb' 29 3) (w.extractLsb' 16 7) (w.extractLsb' 9 7))
    | 2 => .ok (.tread (w.extractLsb' 29 3) (w.extractLsb' 16 7) (w.extractLsb' 9 7) (w.extractLsb' 2 7))
    | 3 => .ok (.twrite (w.extractLsb' 29 3) (w.extractLsb' 16 7) (w.extractLsb' 9 7) (w.extractLsb' 2 7))
    | _ => illegal
  | 0x32 => guardZ (w.extractLsb' 9 7 == 0#7) (.gets (w.extractLsb' 29 3) (w.extractLsb' 16 7) (w.extractLsb' 0 9))
  | 0x33 => guardZ (w.extractLsb' 16 7 == 0#7) (.sets (w.extractLsb' 29 3) (w.extractLsb' 9 7) (w.extractLsb' 0 9))
  | 0x34 =>
    match (w.extractLsb' 0 2).toNat with
    | 0 => .ok (.invpg (w.extractLsb' 29 3) (w.extractLsb' 16 7) (w.extractLsb' 9 7) (w.extractLsb' 2 7))
    | 1 => .ok (.selft (w.extractLsb' 29 3) (w.extractLsb' 16 7) (w.extractLsb' 9 7) (w.extractLsb' 2 7))
    | 2 => .ok (.brk (w.extractLsb' 29 3) (w.extractLsb' 2 21))
    | _ => illegal
  | 0x35 =>
    match (w.extractLsb' 0 5).toNat with
    | 0 => .ok (.vadd (w.extractLsb' 29 3) (w.extractLsb' 17 6) (w.extractLsb' 11 6) (w.extractLsb' 5 6))
    | 1 => .ok (.vsub (w.extractLsb' 29 3) (w.extractLsb' 17 6) (w.extractLsb' 11 6) (w.extractLsb' 5 6))
    | 2 => .ok (.vmul (w.extractLsb' 29 3) (w.extractLsb' 17 6) (w.extractLsb' 11 6) (w.extractLsb' 5 6))
    | 3 => .ok (.vmulhs (w.extractLsb' 29 3) (w.extractLsb' 17 6) (w.extractLsb' 11 6) (w.extractLsb' 5 6))
    | 4 => .ok (.vmulhu (w.extractLsb' 29 3) (w.extractLsb' 17 6) (w.extractLsb' 11 6) (w.extractLsb' 5 6))
    | 5 => .ok (.vand (w.extractLsb' 29 3) (w.extractLsb' 17 6) (w.extractLsb' 11 6) (w.extractLsb' 5 6))
    | 6 => .ok (.vor (w.extractLsb' 29 3) (w.extractLsb' 17 6) (w.extractLsb' 11 6) (w.extractLsb' 5 6))
    | 7 => .ok (.vxor (w.extractLsb' 29 3) (w.extractLsb' 17 6) (w.extractLsb' 11 6) (w.extractLsb' 5 6))
    | 8 => .ok (.vandn (w.extractLsb' 29 3) (w.extractLsb' 17 6) (w.extractLsb' 11 6) (w.extractLsb' 5 6))
    | 9 => .ok (.vshl (w.extractLsb' 29 3) (w.extractLsb' 17 6) (w.extractLsb' 11 6) (w.extractLsb' 5 6))
    | 10 => .ok (.vshr (w.extractLsb' 29 3) (w.extractLsb' 17 6) (w.extractLsb' 11 6) (w.extractLsb' 5 6))
    | 11 => .ok (.vsra (w.extractLsb' 29 3) (w.extractLsb' 17 6) (w.extractLsb' 11 6) (w.extractLsb' 5 6))
    | 12 => .ok (.vmins (w.extractLsb' 29 3) (w.extractLsb' 17 6) (w.extractLsb' 11 6) (w.extractLsb' 5 6))
    | 13 => .ok (.vmaxs (w.extractLsb' 29 3) (w.extractLsb' 17 6) (w.extractLsb' 11 6) (w.extractLsb' 5 6))
    | 14 => .ok (.vminu (w.extractLsb' 29 3) (w.extractLsb' 17 6) (w.extractLsb' 11 6) (w.extractLsb' 5 6))
    | 15 => .ok (.vmaxu (w.extractLsb' 29 3) (w.extractLsb' 17 6) (w.extractLsb' 11 6) (w.extractLsb' 5 6))
    | 16 => guardZ (w.extractLsb' 5 6 == 0#6) (.vabs (w.extractLsb' 29 3) (w.extractLsb' 17 6) (w.extractLsb' 11 6))
    | 17 => guardZ (w.extractLsb' 5 6 == 0#6) (.vpopc (w.extractLsb' 29 3) (w.extractLsb' 17 6) (w.extractLsb' 11 6))
    | 18 => guardZ (w.extractLsb' 5 6 == 0#6) (.vclz (w.extractLsb' 29 3) (w.extractLsb' 17 6) (w.extractLsb' 11 6))
    | 19 => .ok (.vcmpeq (w.extractLsb' 29 3) (w.extractLsb' 17 6) (w.extractLsb' 11 6) (w.extractLsb' 5 6))
    | 20 => .ok (.vcmplts (w.extractLsb' 29 3) (w.extractLsb' 17 6) (w.extractLsb' 11 6) (w.extractLsb' 5 6))
    | 21 => .ok (.vcmpltu (w.extractLsb' 29 3) (w.extractLsb' 17 6) (w.extractLsb' 11 6) (w.extractLsb' 5 6))
    | 22 => .ok (.vsel (w.extractLsb' 29 3) (w.extractLsb' 17 6) (w.extractLsb' 11 6) (w.extractLsb' 5 6))
    | 23 => .ok (.vshuf (w.extractLsb' 29 3) (w.extractLsb' 17 6) (w.extractLsb' 11 6) (w.extractLsb' 5 6))
    | _ => illegal
  | 0x36 =>
    match (w.extractLsb' 0 4).toNat with
    | 0 => .ok (.vfadd (w.extractLsb' 29 3) (w.extractLsb' 17 6) (w.extractLsb' 11 6) (w.extractLsb' 5 6) (w.extractLsb' 4 1))
    | 1 => .ok (.vfsub (w.extractLsb' 29 3) (w.extractLsb' 17 6) (w.extractLsb' 11 6) (w.extractLsb' 5 6) (w.extractLsb' 4 1))
    | 2 => .ok (.vfmul (w.extractLsb' 29 3) (w.extractLsb' 17 6) (w.extractLsb' 11 6) (w.extractLsb' 5 6) (w.extractLsb' 4 1))
    | 3 => .ok (.vfma (w.extractLsb' 29 3) (w.extractLsb' 17 6) (w.extractLsb' 11 6) (w.extractLsb' 5 6) (w.extractLsb' 4 1))
    | 4 => .ok (.vfms (w.extractLsb' 29 3) (w.extractLsb' 17 6) (w.extractLsb' 11 6) (w.extractLsb' 5 6) (w.extractLsb' 4 1))
    | 5 => .ok (.vfmin (w.extractLsb' 29 3) (w.extractLsb' 17 6) (w.extractLsb' 11 6) (w.extractLsb' 5 6) (w.extractLsb' 4 1))
    | 6 => .ok (.vfmax (w.extractLsb' 29 3) (w.extractLsb' 17 6) (w.extractLsb' 11 6) (w.extractLsb' 5 6) (w.extractLsb' 4 1))
    | 7 => guardZ (w.extractLsb' 5 6 == 0#6) (.vfabs (w.extractLsb' 29 3) (w.extractLsb' 17 6) (w.extractLsb' 11 6) (w.extractLsb' 4 1))
    | 8 => guardZ (w.extractLsb' 5 6 == 0#6) (.vfneg (w.extractLsb' 29 3) (w.extractLsb' 17 6) (w.extractLsb' 11 6) (w.extractLsb' 4 1))
    | 9 => .ok (.vfdiv (w.extractLsb' 29 3) (w.extractLsb' 17 6) (w.extractLsb' 11 6) (w.extractLsb' 5 6) (w.extractLsb' 4 1))
    | 10 => guardZ (w.extractLsb' 5 6 == 0#6) (.vfsqrt (w.extractLsb' 29 3) (w.extractLsb' 17 6) (w.extractLsb' 11 6) (w.extractLsb' 4 1))
    | 11 => .ok (.vfcmpeq (w.extractLsb' 29 3) (w.extractLsb' 17 6) (w.extractLsb' 11 6) (w.extractLsb' 5 6) (w.extractLsb' 4 1))
    | 12 => .ok (.vfcmplt (w.extractLsb' 29 3) (w.extractLsb' 17 6) (w.extractLsb' 11 6) (w.extractLsb' 5 6) (w.extractLsb' 4 1))
    | 13 => .ok (.vfcmple (w.extractLsb' 29 3) (w.extractLsb' 17 6) (w.extractLsb' 11 6) (w.extractLsb' 5 6) (w.extractLsb' 4 1))
    | 14 => .ok (.vfcmpun (w.extractLsb' 29 3) (w.extractLsb' 17 6) (w.extractLsb' 11 6) (w.extractLsb' 5 6) (w.extractLsb' 4 1))
    | _ => illegal
  | 0x37 =>
    match (w.extractLsb' 0 5).toNat with
    | 0 => .ok (.vhaddH (w.extractLsb' 29 3) (w.extractLsb' 17 6) (w.extractLsb' 11 6) (w.extractLsb' 5 6))
    | 1 => .ok (.vhmulH (w.extractLsb' 29 3) (w.extractLsb' 17 6) (w.extractLsb' 11 6) (w.extractLsb' 5 6))
    | 2 => .ok (.vhfmaH (w.extractLsb' 29 3) (w.extractLsb' 17 6) (w.extractLsb' 11 6) (w.extractLsb' 5 6))
    | 3 => .ok (.vhaddB (w.extractLsb' 29 3) (w.extractLsb' 17 6) (w.extractLsb' 11 6) (w.extractLsb' 5 6))
    | 4 => .ok (.vhmulB (w.extractLsb' 29 3) (w.extractLsb' 17 6) (w.extractLsb' 11 6) (w.extractLsb' 5 6))
    | 5 => .ok (.vhfmaB (w.extractLsb' 29 3) (w.extractLsb' 17 6) (w.extractLsb' 11 6) (w.extractLsb' 5 6))
    | 6 => .ok (.vdot8 (w.extractLsb' 29 3) (w.extractLsb' 17 6) (w.extractLsb' 11 6) (w.extractLsb' 5 6))
    | 7 => .ok (.vdots8 (w.extractLsb' 29 3) (w.extractLsb' 17 6) (w.extractLsb' 11 6) (w.extractLsb' 5 6))
    | 8 => .ok (.vcvt (w.extractLsb' 29 3) (w.extractLsb' 17 6) (w.extractLsb' 11 6) (w.extractLsb' 5 6))
    | _ => illegal
  | 0x38 =>
    match (w.extractLsb' 0 3).toNat with
    | 0 => .ok (.vld (w.extractLsb' 29 3) (w.extractLsb' 17 6) (w.extractLsb' 10 7) (w.extractLsb' 3 7))
    | 1 => .ok (.vst (w.extractLsb' 29 3) (w.extractLsb' 17 6) (w.extractLsb' 10 7) (w.extractLsb' 3 7))
    | 2 => .ok (.vlds (w.extractLsb' 29 3) (w.extractLsb' 17 6) (w.extractLsb' 10 7) (w.extractLsb' 3 7))
    | 3 => .ok (.vsts (w.extractLsb' 29 3) (w.extractLsb' 17 6) (w.extractLsb' 10 7) (w.extractLsb' 3 7))
    | 4 => .ok (.vgath (w.extractLsb' 29 3) (w.extractLsb' 17 6) (w.extractLsb' 10 7) (w.extractLsb' 3 7))
    | 5 => .ok (.vscat (w.extractLsb' 29 3) (w.extractLsb' 17 6) (w.extractLsb' 10 7) (w.extractLsb' 3 7))
    | 6 => .ok (.vldb (w.extractLsb' 29 3) (w.extractLsb' 17 6) (w.extractLsb' 10 7) (w.extractLsb' 3 7))
    | 7 => .ok (.vldR (w.extractLsb' 29 3) (w.extractLsb' 17 6) (w.extractLsb' 10 7) (w.extractLsb' 3 7))
    | _ => illegal
  | 0x39 =>
    match (w.extractLsb' 0 4).toNat with
    | 0 => guardZ (w.extractLsb' 4 6 == 0#6) (.vbcast (w.extractLsb' 29 3) (w.extractLsb' 16 7) (w.extractLsb' 10 6))
    | 1 => .ok (.vext (w.extractLsb' 29 3) (w.extractLsb' 16 7) (w.extractLsb' 10 6) (w.extractLsb' 4 6))
    | 2 => .ok (.vins (w.extractLsb' 29 3) (w.extractLsb' 16 7) (w.extractLsb' 10 6) (w.extractLsb' 4 6))
    | 3 => guardZ (w.extractLsb' 4 6 == 0#6) (.vredaddS (w.extractLsb' 29 3) (w.extractLsb' 16 7) (w.extractLsb' 10 6))
    | 4 => guardZ (w.extractLsb' 4 6 == 0#6) (.vredaddI (w.extractLsb' 29 3) (w.extractLsb' 16 7) (w.extractLsb' 10 6))
    | 5 => guardZ (w.extractLsb' 4 6 == 0#6) (.vredmaxS (w.extractLsb' 29 3) (w.extractLsb' 16 7) (w.extractLsb' 10 6))
    | 6 => guardZ (w.extractLsb' 4 6 == 0#6) (.vredminS (w.extractLsb' 29 3) (w.extractLsb' 16 7) (w.extractLsb' 10 6))
    | 7 => guardZ (w.extractLsb' 4 6 == 0#6) (.vmask (w.extractLsb' 29 3) (w.extractLsb' 16 7) (w.extractLsb' 10 6))
    | _ => illegal
  | 0x3A =>
    match (w.extractLsb' 0 5).toNat with
    | 0 => guardZ (w.extractLsb' 5 6 == 0#6) (.vrcp (w.extractLsb' 29 3) (w.extractLsb' 17 6) (w.extractLsb' 11 6))
    | 1 => guardZ (w.extractLsb' 5 6 == 0#6) (.vrsq (w.extractLsb' 29 3) (w.extractLsb' 17 6) (w.extractLsb' 11 6))
    | 2 => guardZ (w.extractLsb' 5 6 == 0#6) (.vexp2 (w.extractLsb' 29 3) (w.extractLsb' 17 6) (w.extractLsb' 11 6))
    | 3 => guardZ (w.extractLsb' 5 6 == 0#6) (.vlog2 (w.extractLsb' 29 3) (w.extractLsb' 17 6) (w.extractLsb' 11 6))
    | 4 => guardZ (w.extractLsb' 5 6 == 0#6) (.vsin (w.extractLsb' 29 3) (w.extractLsb' 17 6) (w.extractLsb' 11 6))
    | 5 => guardZ (w.extractLsb' 5 6 == 0#6) (.vcos (w.extractLsb' 29 3) (w.extractLsb' 17 6) (w.extractLsb' 11 6))
    | 6 => guardZ (w.extractLsb' 5 6 == 0#6) (.vtanh (w.extractLsb' 29 3) (w.extractLsb' 17 6) (w.extractLsb' 11 6))
    | 7 => guardZ (w.extractLsb' 5 6 == 0#6) (.vsigm (w.extractLsb' 29 3) (w.extractLsb' 17 6) (w.extractLsb' 11 6))
    | _ => illegal
  | 0x3B =>
    match (w.extractLsb' 0 5).toNat with
    | 0 => .ok (.b2z (w.extractLsb' 29 3) (w.extractLsb' 19 4) (w.extractLsb' 12 7) (w.extractLsb' 5 7))
    | 1 => guardZ (w.extractLsb' 5 7 == 0#7) (.z2b (w.extractLsb' 29 3) (w.extractLsb' 19 4) (w.extractLsb' 12 7))
    | 2 => .ok (.zcls (w.extractLsb' 29 3) (w.extractLsb' 19 4) (w.extractLsb' 12 7) (w.extractLsb' 5 7))
    | 3 => guardZ (w.extractLsb' 16 3 == 0#3) (.zrgn (w.extractLsb' 29 3) (w.extractLsb' 19 4) (w.extractLsb' 12 4) (w.extractLsb' 5 7))
    | 4 => guardZ (w.extractLsb' 5 14 == 0#14) (.zclr (w.extractLsb' 29 3) (w.extractLsb' 19 4))
    | _ => illegal
  | 0x3C =>
    match (w.extractLsb' 0 7).toNat with
    | 0 => guardZ (w.extractLsb' 7 4 == 0#4) (.zand (w.extractLsb' 29 3) (w.extractLsb' 19 4) (w.extractLsb' 15 4) (w.extractLsb' 11 4))
    | 1 => guardZ (w.extractLsb' 7 4 == 0#4) (.zor (w.extractLsb' 29 3) (w.extractLsb' 19 4) (w.extractLsb' 15 4) (w.extractLsb' 11 4))
    | 2 => guardZ (w.extractLsb' 7 4 == 0#4) (.zxnor (w.extractLsb' 29 3) (w.extractLsb' 19 4) (w.extractLsb' 15 4) (w.extractLsb' 11 4))
    | 3 => guardZ (w.extractLsb' 7 8 == 0#8) (.znot (w.extractLsb' 29 3) (w.extractLsb' 19 4) (w.extractLsb' 15 4))
    | 4 => .ok (.zmux (w.extractLsb' 29 3) (w.extractLsb' 19 4) (w.extractLsb' 15 4) (w.extractLsb' 11 4) (w.extractLsb' 7 4))
    | _ => illegal
  | 0x3D =>
    match (w.extractLsb' 0 2).toNat with
    | 0 => guardZ (w.extractLsb' 2 7 == 0#7) (.cwst (w.extractLsb' 29 3) (w.extractLsb' 16 7) (w.extractLsb' 9 7))
    | 1 => .ok (.cwadd (w.extractLsb' 29 3) (w.extractLsb' 16 7) (w.extractLsb' 9 7) (w.extractLsb' 2 7))
    | 2 => .ok (.cwcas (w.extractLsb' 29 3) (w.extractLsb' 16 7) (w.extractLsb' 9 7) (w.extractLsb' 2 7))
    | 3 => guardZ (w.extractLsb' 2 7 == 0#7) (.cwfence (w.extractLsb' 29 3) (w.extractLsb' 16 7) (w.extractLsb' 9 7))
    | _ => illegal
  | _ => illegal

/-- R24, R63: word 5 of the record of an ILLEGAL word: the selector when GETS or SETS names one wrongly. -/
def selectorExtra : Instr → BitVec 9
  | .gets _ _ s => s
  | .sets _ _ s => s
  | _ => 0#9

/-- R63 order 2 on an instruction's fields. -/
def checkWf (i : Instr) : Except DecodeError Instr :=
  if i.wf then .ok i else .error (.illegal (selectorExtra i))

/-- R60: the instruction of one 32-bit word that is no tile command header. -/
def decodeWord (w : BitVec 32) : Except DecodeError Instr :=
  match decodeFields w with
  | .ok i => checkWf i
  | .error e => .error e

/-- R67, R68: a header has major 0x3F and [18:16] = 0b111. -/
def isTcwHeader (w : BitVec 32) : Bool :=
  w.extractLsb' 23 6 == 0x3F#6 && w.extractLsb' 16 3 == 7#3

/-- R67, R68: a payload word has guard 0 and major 0x3E. -/
def isPayload (w : BitVec 32) : Bool :=
  w.extractLsb' 29 3 == 0#3 && w.extractLsb' 23 6 == 0x3E#6

/-- R156: the fields X, Y, Z and T of a payload word. -/
def payX (w : BitVec 32) : BitVec 7 := w.extractLsb' 16 7
def payY (w : BitVec 32) : BitVec 7 := w.extractLsb' 9 7
def payZ (w : BitVec 32) : BitVec 7 := w.extractLsb' 2 7
def payT (w : BitVec 32) : BitVec 2 := w.extractLsb' 0 2

/-- R156, R157: the command of a well-formed header and its payload, whose unused slots must be zero. -/
def decodeTcwFields (h w1 w2 w3 w4 w5 w6 w7 : BitVec 32) : Except DecodeError Instr :=
  let g := h.extractLsb' 29 3
  let cpl : Cpl := { cpl := payX w1, val := payY w1, ms := payZ w1, mode := payT w1 }
  let tz := payT w2 == 0#2 && payT w3 == 0#2 && payT w4 == 0#2 && payT w5 == 0#2 &&
    w6.extractLsb' 0 23 == 0#23 && w7.extractLsb' 0 23 == 0#23
  let z4 := w4.extractLsb' 0 23 == 0#23
  let z5 := w5.extractLsb' 0 23 == 0#23
  match (h.extractLsb' 19 4).toNat with
  | 0 => guardZ (tz && payZ w4 == 0#7 && payZ w5 == 0#7 && h.extractLsb' 8 8 == 0#8)
      (.mma g cpl {
        zero := h.extractLsb' 7 1 == 1#1, edge := h.extractLsb' 6 1 == 1#1,
        fb := h.extractLsb' 3 3, fa := h.extractLsb' 0 3, c := payX w2, a := payY w2, b := payZ w2,
        k := payX w3, lda := payY w3, ldb := payZ w3, sa := payX w4, sb := payY w4, ia := payX w5,
        ib := payY w5 })
  | 1 => guardZ (tz && z4 && z5 && h.extractLsb' 0 16 == 0#16)
      (.copy g cpl {
        dst := payX w2, src := payY w2, rows := payZ w2, rowb := payX w3, ss := payY w3,
        ds := payZ w3 })
  | 2 => guardZ (tz && payZ w3 == 0#7 && payZ w4 == 0#7 && z5 && h.extractLsb' 1 15 == 0#15)
      (.gath g cpl {
        scat := h.extractLsb' 0 1 == 1#1, dst := payX w2, src := payY w2, idx := payZ w2,
        n := payX w3, rowb := payY w3, ss := payX w4, ds := payY w4 })
  | 3 => guardZ (tz && payZ w3 == 0#7 && z4 && z5 && h.extractLsb' 6 10 == 0#10)
      (.coll g cpl {
        rf := h.extractLsb' 2 4, op := h.extractLsb' 0 2, dst := payX w2, src := payY w2,
        n := payZ w2, tag := payX w3, root := payY w3 })
  | 4 => guardZ (tz && payY w3 == 0#7 && z4 && z5 && h.extractLsb' 0 16 == 0#16)
      (.fill g cpl { dst := payX w2, pat := payY w2, rows := payZ w2, rowb := payX w3, ds := payZ w3 })
  | 5 => guardZ (tz && payZ w4 == 0#7 && z5 && h.extractLsb' 1 15 == 0#15)
      (.enc8 g cpl {
        bf16 := h.extractLsb' 0 1 == 1#1, dat := payX w2, src := payY w2, rows := payZ w2,
        kk := payX w3, stride := payY w3, idx := payZ w3, sc := payX w4, off := payY w4 })
  | _ => .error (.engine (h.extractLsb' 19 4))

/-- R67, R68: the command of eight words at a 32-byte aligned address. -/
def decodeTcw (h w1 w2 w3 w4 w5 w6 w7 : BitVec 32) : Except DecodeError Instr :=
  if isPayload w1 && isPayload w2 && isPayload w3 && isPayload w4 && isPayload w5 && isPayload w6 &&
      isPayload w7 then
    match decodeTcwFields h w1 w2 w3 w4 w5 w6 w7 with
    | .ok i => checkWf i
    | .error e => .error e
  else illegal

/-- The instruction at the head of a list of words, the first at a 32-byte aligned address, and the words
after it. -/
def decodeWords : List (BitVec 32) → Except DecodeError (Instr × List (BitVec 32))
  | [] => .error .truncated
  | w :: ws =>
    if isTcwHeader w then
      match ws with
      | w1 :: w2 :: w3 :: w4 :: w5 :: w6 :: w7 :: rest =>
        (decodeTcw w w1 w2 w3 w4 w5 w6 w7).map (fun i => (i, rest))
      | _ => .error .truncated
    else (decodeWord w).map (fun i => (i, ws))

/-- R60: four bytes, the lowest address first, as one word. -/
def wordOfBytes (b0 b1 b2 b3 : Byte) : BitVec 32 := b3 ++ b2 ++ b1 ++ b0

/-- R60: the words of a list of bytes; up to three bytes that fill no word are left out. -/
def wordsOfBytes : List Byte → List (BitVec 32)
  | b0 :: b1 :: b2 :: b3 :: bs => wordOfBytes b0 b1 b2 b3 :: wordsOfBytes bs
  | _ => []

/-- The instruction that bytes at a 32-byte aligned address begin with. -/
def decodeBytes (bs : List Byte) : Except DecodeError (Instr × List (BitVec 32)) :=
  decodeWords (wordsOfBytes bs)

/-- Words as bytes in increasing addresses (R60). -/
def bytesOfWord (w : BitVec 32) : List Byte :=
  [w.extractLsb' 0 8, w.extractLsb' 8 8, w.extractLsb' 16 8, w.extractLsb' 24 8]

/-- The eight words from address 0 that hold the instruction whose bits are `w`, bit 0 the least
significant bit of the first word; the bits from `nbits` on are zero. -/
def tableWords (nbits w : Nat) : List (BitVec 32) :=
  (List.range 8).map (fun k => BitVec.ofNat 32 ((w % 2 ^ nbits) >>> (32 * k)))

/-- The instruction read from an instruction whose bits are `w`, numbered as the opcode table does. -/
def decodeTableWord (nbits w : Nat) : Option Instr :=
  match decodeBytes ((tableWords nbits w).flatMap bytesOfWord) with
  | .ok (i, _) => some i
  | .error _ => none

/-! ## The encoder -/

/-- R64, format R. -/
def encR (g : BitVec 3) (maj : BitVec 6) (d : BitVec 7) (a : BitVec 7) (b : BitVec 7) (m : BitVec 2) : BitVec 32 :=
  g ++ maj ++ d ++ a ++ b ++ m

/-- R64, format I. -/
def encI (g : BitVec 3) (maj : BitVec 6) (d : BitVec 7) (a : BitVec 7) (i : BitVec 9) : BitVec 32 :=
  g ++ maj ++ d ++ a ++ i

/-- R64, format L. -/
def encL (g : BitVec 3) (maj : BitVec 6) (d : BitVec 7) (i : BitVec 16) : BitVec 32 :=
  g ++ maj ++ d ++ i

/-- R64, format M. -/
def encM (g : BitVec 3) (maj : BitVec 6) (d : BitVec 7) (a : BitVec 7) (o : BitVec 8) (r : BitVec 1) : BitVec 32 :=
  g ++ maj ++ d ++ a ++ o ++ r

/-- R64, format B. -/
def encB (g : BitVec 3) (maj : BitVec 6) (o : BitVec 23) : BitVec 32 :=
  g ++ maj ++ o

/-- R64, format P, immediate flag clear. -/
def encP (g : BitVec 3) (maj : BitVec 6) (p : BitVec 3) (c : BitVec 3) (a : BitVec 7) (b : BitVec 7) : BitVec 32 :=
  g ++ maj ++ p ++ c ++ 0#1 ++ a ++ b ++ 0#2

/-- R64, format P, immediate flag set. -/
def encPI (g : BitVec 3) (maj : BitVec 6) (p : BitVec 3) (c : BitVec 3) (a : BitVec 7) (i : BitVec 9) : BitVec 32 :=
  g ++ maj ++ p ++ c ++ 1#1 ++ a ++ i

/-- R64, format PLOG. -/
def encPlog (g : BitVec 3) (maj : BitVec 6) (p : BitVec 3) (x : BitVec 3) (y : BitVec 3) (o : BitVec 2) : BitVec 32 :=
  g ++ maj ++ p ++ x ++ y ++ o ++ 0#12

/-- R64, format S. -/
def encS (g : BitVec 3) (maj : BitVec 6) (d : BitVec 7) (a : BitVec 7) (s : BitVec 9) : BitVec 32 :=
  g ++ maj ++ d ++ a ++ s

/-- R70, FENCE: sel9 with the flags apart. -/
def encFence (g : BitVec 3) (maj : BitVec 6) (w : BitVec 1) (e : BitVec 1) (r : BitVec 1) (s : BitVec 3) : BitVec 32 :=
  g ++ maj ++ 0#17 ++ w ++ e ++ r ++ s

/-- R64, format V. -/
def encV (g : BitVec 3) (maj : BitVec 6) (d : BitVec 6) (a : BitVec 6) (b : BitVec 6) (m : BitVec 5) : BitVec 32 :=
  g ++ maj ++ d ++ a ++ b ++ m

/-- R69, VFLT: f5 is the precision bit and a 4-bit minor. -/
def encVF (g : BitVec 3) (maj : BitVec 6) (d : BitVec 6) (a : BitVec 6) (b : BitVec 6) (p : BitVec 1) (m : BitVec 4) : BitVec 32 :=
  g ++ maj ++ d ++ a ++ b ++ p ++ m

/-- R64, format VM. -/
def encVM (g : BitVec 3) (maj : BitVec 6) (d : BitVec 6) (a : BitVec 7) (b : BitVec 7) (m : BitVec 3) : BitVec 32 :=
  g ++ maj ++ d ++ a ++ b ++ m

/-- R64, format VX. -/
def encVX (g : BitVec 3) (maj : BitVec 6) (x : BitVec 7) (v : BitVec 6) (w : BitVec 6) (m : BitVec 4) : BitVec 32 :=
  g ++ maj ++ x ++ v ++ w ++ m

/-- R64, format ZG. -/
def encZG (g : BitVec 3) (maj : BitVec 6) (z : BitVec 4) (a : BitVec 7) (b : BitVec 7) (m : BitVec 5) : BitVec 32 :=
  g ++ maj ++ z ++ a ++ b ++ m

/-- R64, format Z. -/
def encZ (g : BitVec 3) (maj : BitVec 6) (d : BitVec 4) (a : BitVec 4) (b : BitVec 4) (s : BitVec 4) (m : BitVec 7) : BitVec 32 :=
  g ++ maj ++ d ++ a ++ b ++ s ++ m

/-- R65, SHI: imm9 is kind, zero, amount. -/
def encShi (g : BitVec 3) (maj : BitVec 6) (d : BitVec 7) (a : BitVec 7) (k : BitVec 2) (n : BitVec 6) : BitVec 32 :=
  g ++ maj ++ d ++ a ++ k ++ 0#1 ++ n

/-- R208, BRK: the immediate is [22:2]. -/
def encBrk (g : BitVec 3) (maj : BitVec 6) (i : BitVec 21) (m : BitVec 2) : BitVec 32 :=
  g ++ maj ++ i ++ m

/-- R67: a tile command header. -/
def encHeader (g : BitVec 3) (kind : BitVec 4) (flags : BitVec 16) : BitVec 32 :=
  g ++ 0x3F#6 ++ kind ++ 7#3 ++ flags

/-- R67, R156: a payload word. -/
def encPay (x y z : BitVec 7) (t : BitVec 2) : BitVec 32 := 0#3 ++ 0x3E#6 ++ x ++ y ++ z ++ t

def bit (b : Bool) : BitVec 1 := if b then 1#1 else 0#1

/-- R156, R157: the words of a tile command with engine kind, flags and the slots of words 2 to 5. -/
def encTcw (g : BitVec 3) (kind : BitVec 4) (flags : BitVec 16) (c : Cpl)
    (x2 y2 z2 x3 y3 z3 x4 y4 x5 y5 : BitVec 7) : List (BitVec 32) :=
  [encHeader g kind flags, encPay c.cpl c.val c.ms c.mode, encPay x2 y2 z2 0#2, encPay x3 y3 z3 0#2,
    encPay x4 y4 0#7 0#2, encPay x5 y5 0#7 0#2, encPay 0#7 0#7 0#7 0#2, encPay 0#7 0#7 0#7 0#2]

/-- The words of an instruction (R60, R67); an event has none. -/
def encode : Instr → List (BitVec 32)
  | .add g d a b => [encR g 0x00#6 d a b 0#2]
  | .sub g d a b => [encR g 0x00#6 d a b 1#2]
  | .and g d a b => [encR g 0x00#6 d a b 2#2]
  | .or g d a b => [encR g 0x00#6 d a b 3#2]
  | .xor g d a b => [encR g 0x01#6 d a b 0#2]
  | .andn g d a b => [encR g 0x01#6 d a b 1#2]
  | .shl g d a b => [encR g 0x01#6 d a b 2#2]
  | .shr g d a b => [encR g 0x01#6 d a b 3#2]
  | .sra g d a b => [encR g 0x02#6 d a b 0#2]
  | .rotl g d a b => [encR g 0x02#6 d a b 1#2]
  | .mins g d a b => [encR g 0x02#6 d a b 2#2]
  | .maxs g d a b => [encR g 0x02#6 d a b 3#2]
  | .minu g d a b => [encR g 0x03#6 d a b 0#2]
  | .maxu g d a b => [encR g 0x03#6 d a b 1#2]
  | .clz g d a => [encR g 0x03#6 d a 0#7 2#2]
  | .ctz g d a => [encR g 0x03#6 d a 0#7 3#2]
  | .popc g d a => [encR g 0x04#6 d a 0#7 0#2]
  | .brev g d a => [encR g 0x04#6 d a 0#7 1#2]
  | .bswap g d a => [encR g 0x04#6 d a 0#7 2#2]
  | .mul g d a b => [encR g 0x05#6 d a b 0#2]
  | .mulhs g d a b => [encR g 0x05#6 d a b 1#2]
  | .mulhu g d a b => [encR g 0x05#6 d a b 2#2]
  | .mulhsu g d a b => [encR g 0x05#6 d a b 3#2]
  | .divs g d a b => [encR g 0x06#6 d a b 0#2]
  | .divu g d a b => [encR g 0x06#6 d a b 1#2]
  | .rems g d a b => [encR g 0x06#6 d a b 2#2]
  | .remu g d a b => [encR g 0x06#6 d a b 3#2]
  | .shadd1 g d a b => [encR g 0x07#6 d a b 0#2]
  | .shadd2 g d a b => [encR g 0x07#6 d a b 1#2]
  | .shadd3 g d a b => [encR g 0x07#6 d a b 2#2]
  | .shadd4 g d a b => [encR g 0x07#6 d a b 3#2]
  | .bext g d a b => [encR g 0x08#6 d a b 0#2]
  | .bins g d a b => [encR g 0x08#6 d a b 1#2]
  | .addi g d a i => [encI g 0x09#6 d a i]
  | .andi g d a i => [encI g 0x0A#6 d a i]
  | .ori g d a i => [encI g 0x0B#6 d a i]
  | .xori g d a i => [encI g 0x0C#6 d a i]
  | .shli g d a n => [encShi g 0x0D#6 d a 0#2 n]
  | .shri g d a n => [encShi g 0x0D#6 d a 1#2 n]
  | .srai g d a n => [encShi g 0x0D#6 d a 2#2 n]
  | .rotli g d a n => [encShi g 0x0D#6 d a 3#2 n]
  | .li g d i => [encL g 0x0E#6 d i]
  | .lis g d i => [encL g 0x0F#6 d i]
  | .cmpReg g p c a b => [encP g 0x10#6 p c a b]
  | .cmpImm g p c a i => [encPI g 0x10#6 p c a i]
  | .plog g p x y o => [encPlog g 0x11#6 p x y o]
  | .pget g d => [encR g 0x12#6 d 0#7 0#7 0#2]
  | .pset g a => [encR g 0x12#6 0#7 a 0#7 1#2]
  | .br g o => [encB g 0x13#6 o]
  | .jal g d i => [encL g 0x14#6 d i]
  | .jr g d a i => [encI g 0x15#6 d a i]
  | .ldbn g d a o r => [encM g 0x16#6 d a o r]
  | .ldhn g d a o r => [encM g 0x17#6 d a o r]
  | .ldwn g d a o r => [encM g 0x18#6 d a o r]
  | .ldd g d a o r => [encM g 0x19#6 d a o r]
  | .ldbs g d a o r => [encM g 0x1A#6 d a o r]
  | .ldhs g d a o r => [encM g 0x1B#6 d a o r]
  | .ldws g d a o r => [encM g 0x1C#6 d a o r]
  | .stb g d a o r => [encM g 0x1D#6 d a o r]
  | .sth g d a o r => [encM g 0x1E#6 d a o r]
  | .stw g d a o r => [encM g 0x1F#6 d a o r]
  | .std g d a o r => [encM g 0x20#6 d a o r]
  | .ldq g d a => [encR g 0x21#6 d a 0#7 0#2]
  | .stq g d a => [encR g 0x21#6 d a 0#7 1#2]
  | .ldfe g d a b => [encR g 0x21#6 d a b 2#2]
  | .stfe g d a b => [encR g 0x21#6 d a b 3#2]
  | .aadd g d a b => [encR g 0x22#6 d a b 0#2]
  | .aand g d a b => [encR g 0x22#6 d a b 1#2]
  | .aor g d a b => [encR g 0x22#6 d a b 2#2]
  | .axor g d a b => [encR g 0x22#6 d a b 3#2]
  | .amins g d a b => [encR g 0x23#6 d a b 0#2]
  | .amaxs g d a b => [encR g 0x23#6 d a b 1#2]
  | .aminu g d a b => [encR g 0x23#6 d a b 2#2]
  | .amaxu g d a b => [encR g 0x23#6 d a b 3#2]
  | .aswap g d a b => [encR g 0x24#6 d a b 0#2]
  | .acas g d a b => [encR g 0x24#6 d a b 1#2]
  | .acasq g d a b => [encR g 0x24#6 d a b 2#2]
  | .afadd g d a b => [encR g 0x24#6 d a b 3#2]
  | .fence g w e r s => [encFence g 0x25#6 w e r s]
  | .watch g d a => [encR g 0x26#6 d a 0#7 0#2]
  | .unwatch g d a => [encR g 0x26#6 d a 0#7 1#2]
  | .sleep g d => [encR g 0x26#6 d 0#7 0#7 2#2]
  | .waitge g d a b => [encR g 0x26#6 d a b 3#2]
  | .wbr g d a b => [encR g 0x27#6 d a b 0#2]
  | .invr g d a b => [encR g 0x27#6 d a b 1#2]
  | .wbinvr g d a b => [encR g 0x27#6 d a b 2#2]
  | .prefr g a b => [encR g 0x27#6 0#7 a b 3#2]
  | .faddD g d a b => [encR g 0x28#6 d a b 0#2]
  | .fsubD g d a b => [encR g 0x28#6 d a b 1#2]
  | .fmulD g d a b => [encR g 0x28#6 d a b 2#2]
  | .fminD g d a b => [encR g 0x28#6 d a b 3#2]
  | .fmaxD g d a b => [encR g 0x29#6 d a b 0#2]
  | .fdivD g d a b => [encR g 0x29#6 d a b 1#2]
  | .fsqrtD g d a => [encR g 0x29#6 d a 0#7 2#2]
  | .fcvt g d a c => [encR g 0x29#6 d a c 3#2]
  | .faddS g d a b => [encR g 0x2A#6 d a b 0#2]
  | .fsubS g d a b => [encR g 0x2A#6 d a b 1#2]
  | .fmulS g d a b => [encR g 0x2A#6 d a b 2#2]
  | .fminS g d a b => [encR g 0x2A#6 d a b 3#2]
  | .fmaxS g d a b => [encR g 0x2B#6 d a b 0#2]
  | .fdivS g d a b => [encR g 0x2B#6 d a b 1#2]
  | .fsqrtS g d a => [encR g 0x2B#6 d a 0#7 2#2]
  | .fclass g d a => [encR g 0x2B#6 d a 0#7 3#2]
  | .fmaD g d a b => [encR g 0x2C#6 d a b 0#2]
  | .fmaS g d a b => [encR g 0x2C#6 d a b 1#2]
  | .fmsD g d a b => [encR g 0x2C#6 d a b 2#2]
  | .fmsS g d a b => [encR g 0x2C#6 d a b 3#2]
  | .fcmp g p c a b => [encP g 0x2D#6 p c a b]
  | .spawn g d a b => [encR g 0x2E#6 d a b 0#2]
  | .quit g => [encR g 0x2E#6 0#7 0#7 0#7 1#2]
  | .migr g a => [encR g 0x2E#6 0#7 a 0#7 2#2]
  | .send g d a b => [encR g 0x2E#6 d a b 3#2]
  | .fork g d a b => [encR g 0x2F#6 d a b 0#2]
  | .join g a => [encR g 0x2F#6 0#7 a 0#7 1#2]
  | .wqry g d a => [encR g 0x2F#6 d a 0#7 2#2]
  | .launch g d a => [encR g 0x2F#6 d a 0#7 3#2]
  | .bar g d a => [encR g 0x30#6 d a 0#7 0#2]
  | .bard g d a => [encR g 0x30#6 d a 0#7 1#2]
  | .breg g d a => [encR g 0x30#6 d a 0#7 2#2]
  | .chkpt g d => [encR g 0x30#6 d 0#7 0#7 3#2]
  | .tstop g d a => [encR g 0x31#6 d a 0#7 0#2]
  | .tstart g d a => [encR g 0x31#6 d a 0#7 1#2]
  | .tread g d a b => [encR g 0x31#6 d a b 2#2]
  | .twrite g d a b => [encR g 0x31#6 d a b 3#2]
  | .gets g d s => [encS g 0x32#6 d 0#7 s]
  | .sets g a s => [encS g 0x33#6 0#7 a s]
  | .invpg g d a b => [encR g 0x34#6 d a b 0#2]
  | .selft g d a b => [encR g 0x34#6 d a b 1#2]
  | .brk g i => [encBrk g 0x34#6 i 2#2]
  | .vadd g d a b => [encV g 0x35#6 d a b 0#5]
  | .vsub g d a b => [encV g 0x35#6 d a b 1#5]
  | .vmul g d a b => [encV g 0x35#6 d a b 2#5]
  | .vmulhs g d a b => [encV g 0x35#6 d a b 3#5]
  | .vmulhu g d a b => [encV g 0x35#6 d a b 4#5]
  | .vand g d a b => [encV g 0x35#6 d a b 5#5]
  | .vor g d a b => [encV g 0x35#6 d a b 6#5]
  | .vxor g d a b => [encV g 0x35#6 d a b 7#5]
  | .vandn g d a b => [encV g 0x35#6 d a b 8#5]
  | .vshl g d a b => [encV g 0x35#6 d a b 9#5]
  | .vshr g d a b => [encV g 0x35#6 d a b 10#5]
  | .vsra g d a b => [encV g 0x35#6 d a b 11#5]
  | .vmins g d a b => [encV g 0x35#6 d a b 12#5]
  | .vmaxs g d a b => [encV g 0x35#6 d a b 13#5]
  | .vminu g d a b => [encV g 0x35#6 d a b 14#5]
  | .vmaxu g d a b => [encV g 0x35#6 d a b 15#5]
  | .vabs g d a => [encV g 0x35#6 d a 0#6 16#5]
  | .vpopc g d a => [encV g 0x35#6 d a 0#6 17#5]
  | .vclz g d a => [encV g 0x35#6 d a 0#6 18#5]
  | .vcmpeq g d a b => [encV g 0x35#6 d a b 19#5]
  | .vcmplts g d a b => [encV g 0x35#6 d a b 20#5]
  | .vcmpltu g d a b => [encV g 0x35#6 d a b 21#5]
  | .vsel g d a b => [encV g 0x35#6 d a b 22#5]
  | .vshuf g d a b => [encV g 0x35#6 d a b 23#5]
  | .vfadd g d a b p => [encVF g 0x36#6 d a b p 0#4]
  | .vfsub g d a b p => [encVF g 0x36#6 d a b p 1#4]
  | .vfmul g d a b p => [encVF g 0x36#6 d a b p 2#4]
  | .vfma g d a b p => [encVF g 0x36#6 d a b p 3#4]
  | .vfms g d a b p => [encVF g 0x36#6 d a b p 4#4]
  | .vfmin g d a b p => [encVF g 0x36#6 d a b p 5#4]
  | .vfmax g d a b p => [encVF g 0x36#6 d a b p 6#4]
  | .vfabs g d a p => [encVF g 0x36#6 d a 0#6 p 7#4]
  | .vfneg g d a p => [encVF g 0x36#6 d a 0#6 p 8#4]
  | .vfdiv g d a b p => [encVF g 0x36#6 d a b p 9#4]
  | .vfsqrt g d a p => [encVF g 0x36#6 d a 0#6 p 10#4]
  | .vfcmpeq g d a b p => [encVF g 0x36#6 d a b p 11#4]
  | .vfcmplt g d a b p => [encVF g 0x36#6 d a b p 12#4]
  | .vfcmple g d a b p => [encVF g 0x36#6 d a b p 13#4]
  | .vfcmpun g d a b p => [encVF g 0x36#6 d a b p 14#4]
  | .vhaddH g d a b => [encV g 0x37#6 d a b 0#5]
  | .vhmulH g d a b => [encV g 0x37#6 d a b 1#5]
  | .vhfmaH g d a b => [encV g 0x37#6 d a b 2#5]
  | .vhaddB g d a b => [encV g 0x37#6 d a b 3#5]
  | .vhmulB g d a b => [encV g 0x37#6 d a b 4#5]
  | .vhfmaB g d a b => [encV g 0x37#6 d a b 5#5]
  | .vdot8 g d a b => [encV g 0x37#6 d a b 6#5]
  | .vdots8 g d a b => [encV g 0x37#6 d a b 7#5]
  | .vcvt g d a c => [encV g 0x37#6 d a c 8#5]
  | .vld g d a b => [encVM g 0x38#6 d a b 0#3]
  | .vst g d a b => [encVM g 0x38#6 d a b 1#3]
  | .vlds g d a b => [encVM g 0x38#6 d a b 2#3]
  | .vsts g d a b => [encVM g 0x38#6 d a b 3#3]
  | .vgath g d a b => [encVM g 0x38#6 d a b 4#3]
  | .vscat g d a b => [encVM g 0x38#6 d a b 5#3]
  | .vldb g d a b => [encVM g 0x38#6 d a b 6#3]
  | .vldR g d a b => [encVM g 0x38#6 d a b 7#3]
  | .vbcast g x v => [encVX g 0x39#6 x v 0#6 0#4]
  | .vext g x v w => [encVX g 0x39#6 x v w 1#4]
  | .vins g x v w => [encVX g 0x39#6 x v w 2#4]
  | .vredaddS g x v => [encVX g 0x39#6 x v 0#6 3#4]
  | .vredaddI g x v => [encVX g 0x39#6 x v 0#6 4#4]
  | .vredmaxS g x v => [encVX g 0x39#6 x v 0#6 5#4]
  | .vredminS g x v => [encVX g 0x39#6 x v 0#6 6#4]
  | .vmask g x v => [encVX g 0x39#6 x v 0#6 7#4]
  | .vrcp g d a => [encV g 0x3A#6 d a 0#6 0#5]
  | .vrsq g d a => [encV g 0x3A#6 d a 0#6 1#5]
  | .vexp2 g d a => [encV g 0x3A#6 d a 0#6 2#5]
  | .vlog2 g d a => [encV g 0x3A#6 d a 0#6 3#5]
  | .vsin g d a => [encV g 0x3A#6 d a 0#6 4#5]
  | .vcos g d a => [encV g 0x3A#6 d a 0#6 5#5]
  | .vtanh g d a => [encV g 0x3A#6 d a 0#6 6#5]
  | .vsigm g d a => [encV g 0x3A#6 d a 0#6 7#5]
  | .b2z g z a b => [encZG g 0x3B#6 z a b 0#5]
  | .z2b g z a => [encZG g 0x3B#6 z a 0#7 1#5]
  | .zcls g z a b => [encZG g 0x3B#6 z a b 2#5]
  | .zrgn g z s b => [encZG g 0x3B#6 z (0#3 ++ s) b 3#5]
  | .zclr g z => [encZG g 0x3B#6 z 0#7 0#7 4#5]
  | .zand g d a b => [encZ g 0x3C#6 d a b 0#4 0#7]
  | .zor g d a b => [encZ g 0x3C#6 d a b 0#4 1#7]
  | .zxnor g d a b => [encZ g 0x3C#6 d a b 0#4 2#7]
  | .znot g d a => [encZ g 0x3C#6 d a 0#4 0#4 3#7]
  | .zmux g d a b s => [encZ g 0x3C#6 d a b s 4#7]
  | .cwst g d a => [encR g 0x3D#6 d a 0#7 0#2]
  | .cwadd g d a b => [encR g 0x3D#6 d a b 1#2]
  | .cwcas g d a b => [encR g 0x3D#6 d a b 2#2]
  | .cwfence g d a => [encR g 0x3D#6 d a 0#7 3#2]
  | .mma g cpl x => encTcw g 0#4 (0#8 ++ bit x.zero ++ bit x.edge ++ x.fb ++ x.fa) cpl
      x.c x.a x.b x.k x.lda x.ldb x.sa x.sb x.ia x.ib
  | .copy g cpl x => encTcw g 1#4 0#16 cpl x.dst x.src x.rows x.rowb x.ss x.ds 0#7 0#7 0#7 0#7
  | .gath g cpl x => encTcw g 2#4 (0#15 ++ bit x.scat) cpl x.dst x.src x.idx x.n x.rowb 0#7 x.ss x.ds
      0#7 0#7
  | .coll g cpl x => encTcw g 3#4 (0#10 ++ x.rf ++ x.op) cpl x.dst x.src x.n x.tag x.root 0#7 0#7 0#7
      0#7 0#7
  | .fill g cpl x => encTcw g 4#4 0#16 cpl x.dst x.pat x.rows x.rowb 0#7 x.ds 0#7 0#7 0#7 0#7
  | .enc8 g cpl x => encTcw g 5#4 (0#15 ++ bit x.bf16) cpl x.dat x.src x.rows x.kk x.stride x.idx x.sc
      x.off 0#7 0#7
  | .rotationFill .. | .registerFillAdmit .. | .registerFillComplete .. | .relaxedLoadDeliver ..
  | .relaxedStorePerform .. | .accessComplete .. | .sfuQueueAdmit .. | .sfuRequestComplete ..
  | .ssuComplete .. | .contextGrant .. | .threadFill .. | .threadFillComplete .. | .wlimExpiry ..
  | .waitgeRecheck .. | .feWaiterRelease .. | .watchEntryGrant .. | .watchRecorded .. | .guestAccess ..
  | .postedStoreAccept .. | .threadPacketArrive .. | .visitorSlotGrant .. | .threadStateAct ..
  | .invpgComplete .. | .selftComplete .. | .barrierRecordGrant .. | .barrierJoin .. | .barrierDrop ..
  | .barrierArrive .. | .engineAccept .. | .mmaStep .. | .gathScatterRow .. | .engineComplete ..
  | .collInstanceComplete .. | .rd .. | .rdx .. | .upg .. | .wb .. | .wbk .. | .put .. | .amo ..
  | .own .. | .ew .. | .rel .. | .inv .. | .rcl .. | .dwg .. | .recallAnswer .. | .ack .. | .nack ..
  | .pin .. | .pinDrop .. | .leaseRenewal .. | .leaseExpiry .. | .leaseSelfLimit .. | .leaseRejoin ..
  | .copyTermExpiry .. | .walkComplete .. | .waystationInvalidate .. | .cwJoin .. | .cwLeave ..
  | .cwQueueAdmit .. | .rotationOpen .. | .burstSend .. | .frameData .. | .frameReplay ..
  | .frameSnapshot .. | .frameControl .. | .missingFrame .. | .holeTimeout .. | .masterLoss ..
  | .recoveryTimeout .. | .joinListenEnd .. | .founderWaitEnd .. | .joinGrantTimeout ..
  | .launchPortHeader .. | .launchPortGraph .. | .launchAccept .. | .launchRecordGrant ..
  | .dependenceReady .. | .dependenceCancel .. | .placementDecision .. | .quantumExpiry ..
  | .groupSave .. | .wqryServe .. | .wqryAnswerDeliver .. | .launchCompletion .. | .create ..
  | .reset .. | .teardown .. | .pmsWrite .. | .histogramConfig .. | .histogramClear ..
  | .histogramSample .. | .registerWrite .. | .postedWriteArrive .. | .remoteRead ..
  | .remoteReadResponse .. | .remoteAtomic .. | .remoteAtomicResponse .. | .hostBarAccess ..
  | .hostAtomicop .. | .cxlMemAccess .. | .hostSnoop .. | .linkDown .. | .flitCrcError ..
  | .fatalError .. | .checkpointCommit .. | .lockstepMismatch .. | .boot .. | .thermalThrottle ..
  | .thermalShutdown .. | .mcBankRead .. | .bankClear .. | .telemetryRead .. | .powerLimitSet ..
  | .pcbWordAccess .. | .attestation .. | .fenceListRead | .versionRaise | .mgmtUnknownCode ..
  | .layByScrubComplete .. | .hostLinkUp .. | .thermalRecovery .. => []

/-- The instruction word that a fault record holds in word 4 (R27): the first word of the instruction. -/
def encode32 (i : Instr) : BitVec 32 := (encode i).headD 0#32

end Sys2Proof
end

