-- ==== Sys2Proof/Config.lean ====
section
/-!
DEFINITION. Config.lean: the values the spec leaves open, as constants with no body. Nothing can be proved
of any of them; a claim about a run holds whatever they are.
-/
namespace Sys2Proof

/-- R20: which entry of a full register cache is the victim, for the n-th choice made. -/
opaque Config.victim : Nat → Nat

/-- R20, R218: the line of the lay-by, beyond every line that an address can name, that the n-th register fill reads. -/
opaque Config.layLine : Nat → Nat

/-- R63, orders 4 and 5: which of several register fields past the declared count the record of an instruction
word names. -/
opaque Config.limitField : BitVec 32 → Nat

/-- R229: a byte of another package's memory, at a domain physical address, as it stands there after n free
values have been used. -/
opaque Config.remote : Nat → Nat → Byte

/-- R249: whether the message of a number reaches its barrier object in the same cycle as the one that is taken after n
free values have been used. -/
opaque Config.sameCycle : Nat → Nat → Bool

/-- R244, step 3: the logical core of a partition that another package's core table gives for a domain physical
address there, after n free values have been used; none when no core qualifies. -/
opaque Config.farCore : Nat → Nat → Nat → Option Nat

/-- R392: the reading of a telemetry word, for the n-th reading made. -/
opaque Config.telemetry : Nat → Nat → Word

/-- R388, R389: SHA-512 of bytes, 64 bytes. The digest is not defined in the spec. -/
opaque Config.sha512 : List Byte → List Byte

/-- R389: byte i of the signature over bytes by the device key. -/
opaque Config.signature : List Byte → Nat → Byte

/-- R389: the bytes of a firmware image as the digest takes them. -/
opaque Config.firmware : Nat → List Byte

/-- R389: the bytes of the fuse state as the digest takes them, with the version counter at a value. -/
opaque Config.fuses : Nat → List Byte

/-- R388: the security version of a firmware image. -/
opaque Config.imageVersion : Nat → Nat

/-- R378: the bank class of a bank, in the unit code of UE_UNIT. -/
opaque Config.bankClass : Nat → Nat

/-- R379: what a self-test finds: the failed units, the register cache rows and L1 ways that passed, and the
first failing scratchpad bank. -/
opaque Config.selfTest : Nat → BitVec 8 × BitVec 64 × BitVec 4 × BitVec 8

end Sys2Proof
end

