-- ==== Sys2Proof/Machine/State.lean ====
section
/-!
DEFINITION. State.lean: everything the spec gives one package of the machine, as plain data, and the state
at the end of boot. Numbers that a rule only counts with are natural numbers; what software sees as a word
is a bit vector. Cores are keyed by physical number (R322), threads by handle slot (R12); a `Map` entry
that is absent is at the value its docstring names.
-/
namespace Sys2Proof.Machine
open Sys2Proof

/-- Why the machine stops. A thread's fault (R26) is a state of that thread and stops nothing; this type is
for what the spec gives no effect. -/
inductive Fault where
  /-- Raised by `exec` of an encoded instruction when the core whose turn it is has no thread in its
  rotation position: there is no thread whose instruction it could be (R8). Safe: `step` never runs an
  instruction there. -/
  | noThread
  deriving DecidableEq, Repr

/-- Why an instruction has no meaning here. -/
inductive Refusal where
  /-- Raised by an arm of `exec` that has no meaning yet, with the mnemonic. Safe. -/
  | notModelled (mnemonic : String)
  deriving DecidableEq, Repr

/-- A memory: bytes at rising addresses, none of them zero; an unlisted address reads as zero. -/
abbrev Mem := List Host.Cell

/-- R106, R328: the page kinds. -/
inductive PageKind where
  | priv
  | readShared
  | coherent
  | remotePosted
  | device
  | hostCoherent
  | hostNoncoherent
  deriving DecidableEq, Repr

/-- Where an address leads once it is classified (R105) and translated (R329): a byte of a core's
scratchpad (physical core), of a Causeway window, of the device window, or of a page. -/
inductive Place where
  | spad (core off : Nat)
  | cw (port off : Nat)
  | dev (off : Nat)
  | page (kind : PageKind) (pkg pa : Nat)
  deriving DecidableEq, Repr

/-- A thread of this package: physical core and handle slot. -/
structure TRef where
  core : Nat
  slot : Nat
  deriving DecidableEq, Repr

/-- R27: what a fault record says beside the thread's own words. -/
structure FaultInfo where
  code  : BitVec 16
  addr  : Word
  word  : BitVec 32
  extra : Word
  flags : BitVec 16
  deriving DecidableEq, Repr

/-- R118 to R120: the operation of an atomic. -/
inductive AmoOp where
  | add | and | or | xor | mins | maxs | minu | maxu | swap | fadd
  deriving DecidableEq, Repr

/-- What one access does at its place. `store` carries the bytes; `cas` the expected and new bytes;
`ldfe` and `stfe` are the forms of R115 that return a status; `watch` arms, `unwatch` disarms one or all;
`waitge` is the first read of a WAITGE; `join` the decrement of a join cell, whole (R194). -/
inductive UnitOp where
  | load
  | store (data : List Byte)
  | amo (op : AmoOp) (b : Word)
  | cas (expect new : List Byte)
  | ldfe
  | stfe (data : Word)
  | watch
  | unwatch
  | unwatchAll
  | waitge (bound : Word)
  | join
  deriving DecidableEq, Repr

/-- One single-copy atomic piece of an access: one lane, or the whole of a scalar access. -/
structure MUnit where
  va    : Word
  size  : Nat
  op    : UnitOp
  /-- R331: none until the request is translated. -/
  place : Option Place
  /-- Whether a request of this unit is on its way to a home, a peer or the fabric. -/
  sent  : Bool
  /-- The bytes read, or the status in one byte, once the unit has been performed. -/
  out   : Option (List Byte)
  deriving DecidableEq, Repr

/-- What becomes of the bytes an access read. -/
inductive Finish where
  | none
  /-- R109: zero- or sign-extended into a g register. -/
  | g (d : Nat) (signed : Bool)
  /-- R110, R119: a register pair. -/
  | pair (d : Nat)
  /-- R115: the word into `d`, then the full bit into `b`. -/
  | feLoad (d b : Nat)
  /-- R115, R126, R127: the status byte into a g register. -/
  | status (d : Nat)
  /-- R145: one lane a unit, into the lanes listed; the others of `vd` keep their value. -/
  | lanes (vd : Nat) (lanes : List Nat)
  /-- R145: 64 bytes into `vd`. -/
  | whole (vd : Nat)
  /-- R145, VLDB: one word into every lane. -/
  | bcast (vd : Nat)
  /-- R194: the thread continues at the cell's PC, or ends. -/
  | join
  deriving DecidableEq, Repr

/-- A memory access of an instruction: its pieces in order and its result. -/
structure Access where
  units  : List MUnit
  fin    : Finish
  /-- Whether the checks of R107 order 3 to 6 have been made on every unit. -/
  checked : Bool
  /-- R394 source 0: the cycle of issue. -/
  issued : Nat
  /-- What the checks of R107 take the access for. -/
  load : Bool
  /-- R245: an M-format load or an LDQ, which may migrate its thread. -/
  auto : Bool
  /-- R123: an atomic that PCIe has. -/
  sup : Bool
  /-- R146: the fault, of order 1 or 2, of the lane after the pieces here, once these pass their checks. -/
  bad : Option FaultInfo := none
  deriving DecidableEq, Repr

/-- R111: an outstanding relaxed access. -/
structure Relaxed where
  id    : Nat
  load  : Bool
  /-- The g register that is pending, if any (never g0), or the vector register of VLD.r. -/
  dstG  : Option Nat
  dstV  : Option Nat
  word  : BitVec 32
  acc   : Access
  /-- R113: the deferred fault. -/
  fault : Option FaultInfo := none
  deriving DecidableEq, Repr

/-- R17, R55: a stream register. -/
structure ZReg where
  bits : ZWord
  len  : BitVec 2
  cls  : BitVec 64
  deriving DecidableEq, Repr

/-- R148: a request in the special-function queue, with the operands read at issue. -/
structure SfuReq where
  slot  : Nat
  instr : Instr
  vd    : Nat
  a     : VWord
  b     : VWord
  /-- FPCTL at issue (VFDIV, VFSQRT). -/
  fpctl : Word
  deriving DecidableEq, Repr

/-- A register write that a unit performs when it completes. -/
inductive RegWrite where
  | g (d : Nat) (w : Word)
  | v (d : Nat) (w : VWord)
  | z (d : Nat) (w : ZReg)
  | flags (f : BitVec 5)
  deriving DecidableEq, Repr

/-- R267: a snapshot that a port sends: the rotation whose frame 0 is the join point, the bytes sent so far, and the
replica as of that point once the port has applied so far. -/
structure CwSnap where
  point : Nat
  sent  : Nat := 0
  image : Option Mem := none
  deriving DecidableEq, Repr

/-- R209, R260: a Causeway operation in a port's queue, and who issued it. -/
structure CwOp where
  what  : CwRec
  issuer : Option TRef
  d     : Nat
  deriving DecidableEq, Repr

/-- What an issued instruction of a WAITING or SLEEPING thread waits for (R10, R16). -/
inductive Wait where
  /-- Nothing: READY, RUNNING, or a stop with nothing outstanding. -/
  | idle
  /-- R20: fills or deliveries of these registers (0 the predicate word, 128 + i for vi); the instruction
  at the pc has not issued. -/
  | fill (regs : List Nat)
  /-- R20: an entry of the register cache for the destination of a relaxed load, which has not issued. -/
  | entry (d : Nat)
  /-- R124, R153, R188: earlier relaxed accesses; the instruction at the pc has not issued. -/
  | drain
  /-- R111: one of the thread's relaxed accesses of the kind; the instruction has not issued. -/
  | relaxedRoom (load : Bool)
  | access (a : Access)
  /-- R29: a place in the special-function queue. -/
  | sfuPlace (r : SfuReq)
  | sfu
  /-- R185: the stochastic stream unit: the cycle in which it is done, and what it writes then. -/
  | ssu (e : Nat) (w : List RegWrite)
  /-- R153: a tile command, until acceptance, or for MMA until its completion. -/
  | tile (cmd : Nat)
  /-- R129. -/
  | sleep (d : Nat)
  /-- R130; `entry` once the temporary watch is held. -/
  | waitge (d : Nat) (va : Word) (place : Place) (bound last : Word) (entry : Bool)
  /-- R116: a waiting LDFE (`load`) or STFE; `entry` once it is registered. -/
  | fe (load : Bool) (d : Nat) (va : Word) (place : Place) (data : Word) (entry : Bool)
  /-- R197: asleep in BAR until the word at `place`, the object's phase, differs from `p`. -/
  | bar (d : Nat) (place : Place) (p : Word)
  /-- R248: BREG, until the core has a record and the object has answered. -/
  | breg (d : Nat) (place : Place)
  /-- R189, R192, R191: a thread packet in its way. -/
  | packet (d : Nat) (pkt : Nat)
  /-- R200: a thread-state act at its target. -/
  | tact (id : Nat)
  | invpg (d : Nat) (id : Nat)
  /-- R207, R379: a self-test of the units in `mask`, in progress until the cycle `e`. -/
  | selft (d : Nat) (mask : BitVec 8) (record : Place) (e : Nat)
  | launch (d : Nat) (sub : Nat)
  /-- R209, R260: room in a port's queue. -/
  | cwRoom (port : Nat) (op : CwOp) (va : Word)
  /-- R209: the application of this thread's operation, the one that the port accepted after `pos` others. -/
  | cwResult (port : Nat) (d : Nat) (pos : Nat) (va : Word)
  /-- R209: every operation of the port up to the position. -/
  | cwFence (port : Nat) (d : Nat) (upto : Nat) (va : Word)
  /-- R125. -/
  | fence (cw eng rel : Bool) (scope : Nat)
  /-- R132: a range operation (0 WBR, 1 INVR, 2 WBINVR), its start and its control word; once it has acted, the
  number of lines, the lines whose acknowledgement it waits for, and the lines it covers: kind, first and number. -/
  | range (op d : Nat) (va ctl : Word) (left : Option (Nat × List Nat × List (PageKind × Nat × Nat)))
  | chkpt (d : Nat)
  /-- R106: the fabric port's acceptance of a posted store. -/
  | post (addr : Nat) (data : List Byte)
  deriving DecidableEq, Repr

/-- R14: the code field of STATE. -/
inductive TCode where
  | free | ready | running | waiting | sleeping | stopped | faulted | spilled
  deriving DecidableEq, Repr

/-- A thread. Registers are maps in which an absent register is zero-valid (R21) and reads zero. -/
structure Thread where
  /-- R17: the declared counts N, M and Z. -/
  n : Nat := 0
  m : Nat := 0
  zc : Nat := 0
  g : Map Word := []
  pw : BitVec 8 := 0#8
  v : Map VWord := []
  z : Map ZReg := []
  pc : Word := 0#64
  wid : Word := 0#64
  fmt : Word := 0#64
  scl : Word := 0#64
  fpctl : Word := 0#64
  fpflg : Word := 0#64
  fline : Word := 0#64
  wlim : Word := 0#64
  geom0 : Word := 0#64
  geom1 : Word := 0#64
  zctl : Word := 0#64
  authp : Word := 0#64
  srseed : Word := 0#64
  /-- R365: the value written to PMS, and the domain physical address it was translated to, if any. -/
  pms : Word := 0#64
  pmsPhys : Option Nat := none
  code : TCode := .ready
  sstop : Bool := false
  hold : Bool := false
  wake : Bool := false
  away : Bool := false
  /-- R15: whether the thread was SLEEPING when it was stopped. -/
  slept : Bool := false
  /-- R203: the step flag. A thread that has left STOPPED or FAULTED with it set is being stepped: its one
  instruction is still to issue (`some none`), or is the one of this word. -/
  step : Bool := false
  stepping : Option (Option (BitVec 32)) := none
  latch : Bool := false
  /-- R26: the fault counter. -/
  faults : Word := 0#64
  wait : Wait := .idle
  /-- R16, R26: the address and the word of the instruction issued last. -/
  ipc : Word := 0#64
  iword : BitVec 32 := 0#32
  relaxed : List Relaxed := []
  /-- R131: cycles of the present SLEEPING period. -/
  sleepFor : Nat := 0
  /-- The core cycle in which the thread last became STOPPED, FAULTED or SLEEPING (R22). -/
  since : Nat := 0
  /-- R247: the barriers at which the thread is registered. -/
  bars : List Place := []
  /-- R17, R375: poisoned registers: k for gk, 128 the predicate word, 256 + i for vi, 512 + k for zk. -/
  poison : List Nat := []
  /-- The launch and group of which the thread is a member (R240), and its process (R327). -/
  lid : Nat := 0
  gid : Nat := 0
  proc : Nat := 0
  part : Nat := 0
  /-- R333: lay-by room held for a thread that SPAWN or FORK created. -/
  room : Nat := 0
  /-- R246: a migrant or a message handler. -/
  migrant : Bool := false
  handler : Bool := false
  /-- R240: the packet in which a migrant came from another package, whose group is told when it ends. -/
  origin : Option Nat := none
  deriving DecidableEq, Repr

/-- R20: the entry of the register cache for one register. -/
inductive RcState where
  | present (dirty : Bool)
  /-- R111: pending on a relaxed load. -/
  | pending
  /-- R20: reserved for an admitted fill. -/
  | reserved
  deriving DecidableEq, Repr

/-- R343: the state of a line in an L1 or an RDC (absent is I). -/
inductive LState where
  | s | e | m
  deriving DecidableEq, Repr

/-- A line of an L1, an eviction buffer or an RDC. `term` is the end of a copy's term (R340) on the holder's
cycle counter; `leaves` is the leaf vector of an RDC line (R348), and `owner` the L1 that holds write
permission under it. -/
structure CLine where
  st : LState
  kind : PageKind
  data : List Byte
  used : Nat := 0
  term : Option Nat := none
  poison : Bool := false
  leaves : List Nat := []
  owner : Option Nat := none
  deriving DecidableEq, Repr

/-- R248: a core's record of a barrier: registered and arrived counts. -/
structure BarRec where
  place : Place
  r : Nat
  a : Nat
  deriving DecidableEq, Repr

/-- R332: a resident code image. -/
structure Image where
  part : Nat
  proc : Nat
  code : Word
  bytes : Nat
  deriving DecidableEq, Repr

/-- R236, R384: the lock-step state of a pair, held with its lead core. -/
structure LockStep where
  partner : Nat
  odd : Bool
  /-- CKPT [63:32]. -/
  count : Nat
  /-- R236: held writes in program order: thread, place, bytes. -/
  held : List (TRef × Place × List Byte)
  /-- R384: the undo log: scratchpad offset and old value. -/
  undo : List (Nat × Word)
  /-- R386: the threads of the core at the last commit. -/
  snap : Map Thread
  /-- Mismatches since the last commit. -/
  mismatches : Nat
  /-- The core cycle of the last commit. -/
  since : Nat
  /-- R385: threads whose instruction is followed by a commit when it completes. -/
  after : List Nat := []
  deriving DecidableEq, Repr

/-- R22, R23: who waits for a resident context: a packet's thread, or a SPILLED thread that has been woken. -/
inductive CtxReq where
  | packet (id : Nat)
  | fill (slot : Nat)
  deriving DecidableEq, Repr

/-- A core. Every collection is empty and every number zero unless listed. -/
structure Core where
  /-- R25: cycles since the core left reset; CYC is this modulo 2^64. -/
  cyc : Nat := 0
  xb : Nat := 0
  /-- R8: the occupied rotation positions and the slot in each. -/
  rot : Map Nat := []
  /-- R11: the ready queue: slot and the cycle in which it became ready. -/
  ready : List (Nat × Nat) := []
  spad : Mem := []
  /-- R115: the words whose full bit is set, ascending. -/
  full : List Nat := []
  /-- R375: poisoned scratchpad words. -/
  poisonW : List Nat := []
  /-- R13: generations of the slots; absent is 0. -/
  gens : Map Nat := []
  threads : Map Thread := []
  /-- R241: slots and contexts that a FORK has taken for recruits whose packets have not arrived. -/
  reservedSlots : List Nat := []
  /-- R20: the register cache, keyed 128 × slot + register, register 0 the predicate word. -/
  rc : Map RcState := []
  /-- R20: requests for fills not yet admitted, in the order they arrived. -/
  fillq : List Nat := []
  /-- R218, R219: the L1 and its eviction buffer, keyed by domain line number. -/
  l1 : Map CLine := []
  xbuf : Map CLine := []
  /-- R114, R216: guest accesses of peers, in arrival order; a relaxed one with its number. -/
  guests : List (TRef × Option Nat) := []
  /-- R29: the queue, and the slots that wait for a place. -/
  sfuq : List SfuReq := []
  sfuWait : List Nat := []
  /-- R185. -/
  ssuBusy : Nat := 0
  bars : List BarRec := []
  /-- R248: slots whose BREG waits for a record. -/
  barWait : List Nat := []
  /-- R22, R23: who waits for a context, in the order in which it began to wait. -/
  ctxWait : List CtxReq := []
  /-- R244, R192: packets that wait for a visitor slot. -/
  visitWait : List Nat := []
  image : Option Image := none
  /-- The partition and logical core, while a partition owns the core. -/
  owner : Option (Nat × Nat) := none
  lock : Option LockStep := none
  /-- R377 word 5: fenced functions, register cache rows and L1 ways in use; the core itself fenced. -/
  fencedFns : BitVec 8 := 0#8
  rows : BitVec 64 := BitVec.allOnes 64
  ways : BitVec 4 := 0xF#4
  fenced : Bool := false
  /-- R207: the slot whose SELFT runs. -/
  selft : Option Nat := none
  deriving DecidableEq, Repr

/-- R126, R116, R130, R304: what a watch belongs to. -/
inductive WatchKind where
  | watch
  | fe
  | waitge
  | bar
  | dep (lid : Nat)
  deriving DecidableEq, Repr

/-- An entry of a watch store. `place` is the line (for `fe` the word). The list of all of them, in order
of arming, is the watch tables, the slices' watch stores and the replica tables together. -/
structure Watch where
  place : Place
  thread : TRef
  kind : WatchKind
  deriving DecidableEq, Repr

/-- R342: the state of a directory entry. -/
inductive DState where
  | i | s | e | r | o | b
  deriving DecidableEq, Repr

/-- R344: the messages between agents and homes. -/
inductive MsgKind where
  | rd | rdx | upg | wb | wbk | put | amo | own | ew | rel | inv | rcl | dwg | ack | nack | answer
  | pin | pinDrop
  /-- R346: in a home's queue only: an act that an event makes at the home, and bytes to be written there. -/
  | act | write
  deriving DecidableEq, Repr

/-- A message in flight. `agent` is the sender, or for a home's message its addressee; `thread` and `cmd`
name whose access it serves. -/
structure Msg where
  kind : MsgKind
  line : Nat
  agent : Nat
  gen : BitVec 16
  thread : Option TRef := none
  cmd : Option Nat := none
  data : Option (List Byte) := none
  poison : Bool := false
  /-- R348: the L1 on whose behalf an RDC asks. -/
  via : Option Nat := none
  /-- The relaxed access it serves, if it is one. -/
  rid : Option Nat := none
  /-- In an answer: the agent keeps S. In an act: it writes. -/
  keep : Bool := false
  /-- R346: the event of an act in a queue, and whether its turn has come. -/
  event : Option Event := none
  called : Bool := false
  /-- The offset in the line of the bytes of a write. -/
  off : Nat := 0
  deriving DecidableEq, Repr

/-- R342: a directory entry, keyed by the line number of the package; absent is state I. -/
structure DirEntry where
  st : DState := .i
  fl : Bool := false
  /-- The sharers or the holder (mode 0), at most four, or the bits of the leaf vector (mode 1); the agents
  whose pins are on the line. -/
  mode : Bool := false
  ptrs : List Nat := []
  vec : List Nat := []
  pins : List Nat := []
  gen : BitVec 16 := 0#16
  /-- R346: requests that wait, oldest first. -/
  queue : List Msg := []
  /-- The request a recall is made for, and the agents whose answers are outstanding (state B). -/
  cur : Option Msg := none
  asked : List Nat := []
  /-- In state B: the agent asked held write permission. -/
  excl : Bool := false
  /-- The command that owns the line (state O). -/
  cmd : Option Nat := none
  deriving DecidableEq, Repr

/-- R329, R330: a cached translation. -/
structure Tlb where
  part : Nat
  proc : Nat
  /-- Address of the page in units of its size, and the size: 16, 21 or 30 bits. -/
  page : Nat
  bits : Nat
  pkg : Nat
  frame : Nat
  kind : PageKind
  mig : Bool
  noamo : Bool
  w : Bool
  deriving DecidableEq, Repr

/-- R329: where a walk is: before the process table's entry, before an entry of a level's table, or at its end. -/
inductive WalkPos where
  | start
  | table (lvl addr : Nat)
  | leaf (t : Tlb)
  | fails (lvl : Nat)
  deriving DecidableEq, Repr

/-- R330, R331: a walk in progress: one page of one waystation and the threads that wait for it. -/
structure Walk where
  id : Nat
  ws : Nat
  part : Nat
  proc : Nat
  va : Word
  waiters : List TRef
  /-- R331: an invalidation arrived; the result serves no request. -/
  marked : Bool
  /-- R329: the entries it has read so far have brought it here. -/
  pos : WalkPos := .start
  deriving DecidableEq, Repr

/-- R206, R331: an invalidation on its way: the waystations not yet reached, and the accesses translated
with a removed entry that it waits for. -/
structure Inval where
  id : Nat
  thread : TRef
  part : Nat
  proc : Nat
  va : Word
  size : Nat
  left : List Nat
  /-- Accesses (with their names and cycles of issue), commands and packets. -/
  accs : List (TRef × Option Nat × Nat) := []
  cmds : List Nat := []
  sent : List Nat := []
  /-- R331: barrier messages, and threads in the middle of an instruction that has its place, with its address. -/
  bars : List Nat := []
  doing : List (TRef × Word) := []
  deriving DecidableEq, Repr

/-- R237: a launch header, its fields apart. -/
structure Header where
  code : Word
  entry : Nat
  bytes : Nat
  gfield : Nat
  tfield : Nat
  count : Nat
  widths : List Nat
  extents : List Nat
  spad : Nat
  zclaim : Nat
  vclaim : Nat
  regs : Nat
  gsize : Nat
  fmt : Word
  scl : Word
  auth : Word
  fline : Word
  done : Word
  doneadd : Word
  dep : Word
  depval : Word
  quantum : Nat
  migrant : Bool
  edge : Bool
  persist : Bool
  lsp : Bool
  prio : Nat
  geom : Word
  wlist : Word
  grain : Nat
  wcount : Nat
  proc : Nat
  part : Nat
  deriving DecidableEq, Repr

/-- R306, R308: what has become of a band. -/
inductive BandState where
  | unplaced
  | placed
  | saved
  | ended
  deriving DecidableEq, Repr

/-- R298: a launch record. -/
structure Launch where
  lid : Nat
  part : Nat
  hdr : Header
  /-- Acceptance order. -/
  seq : Nat
  /-- R315: in the queue (a graph node enters later). -/
  entered : Bool
  /-- R304: the ready cycle, once ready. -/
  ready : Option Nat
  cancelled : Bool
  bands : List BandState
  status : BitVec 5
  /-- R307: cycles counted of the present quantum. -/
  ran : Nat
  /-- R308: being pre-empted. -/
  preempting : Bool
  /-- R311. -/
  items : Nat
  /-- R315: replay and node. -/
  node : Option (Nat × Nat)
  /-- R338: RESTORE_FIT records written. -/
  fits : Nat
  /-- Every band has ended and the completion is written (a graph node's record stays). -/
  done : Bool
  /-- R394 source 1: the cycle of acceptance. -/
  accepted : Nat := 0
  /-- R318: how many of the completion's writes have been made. -/
  wrote : Nat := 0
  /-- R307, R310: the cycle in which the quantum last expired, and whether the launch was then found to be the one that
  is pre-empted. -/
  expired : Option Nat := none
  victim : Bool := false
  /-- R338: the saved bands that have been reported. -/
  fitBands : List Nat := []
  deriving DecidableEq, Repr

/-- R336: what a save keeps of a group beside its threads, which stay in their slots, AWAY and on HOLD, and
its held answers. Offsets of full bits and poison are words from the allocation's base. -/
structure Saved where
  bytes : List Byte := []
  full : List Nat := []
  poison : List Nat := []
  bars : List BarRec := []
  /-- R312: answers held because their word is full: offset in the allocation and item. -/
  held : List (Nat × Word) := []
  deriving DecidableEq, Repr

/-- R240: a group. -/
structure Group where
  gid : Nat
  lid : Nat
  band : Nat := 0
  /-- f[gfield]. -/
  rank : Nat := 0
  /-- R238: the index in the launch. -/
  index : Nat := 0
  core : Nat
  /-- R215: the allocation; size 0 for none. -/
  base : Nat := 0
  size : Nat := 0
  /-- R309: members in visitor slots. -/
  away : Nat := 0
  /-- R155, R312: engine commands and undelivered answers. -/
  ops : Nat := 0
  saved : Option Saved := none
  /-- R167: the contributions made with each tag. -/
  colls : Map Nat := []
  deriving DecidableEq, Repr

/-- R311: a WQRY request or its answer. -/
structure Query where
  id : Nat
  lid : Nat
  gid : Nat
  core : Nat
  off : Nat
  answer : Option Word
  /-- R195: the answer has arrived and its word is full. -/
  held : Bool := false
  deriving DecidableEq, Repr

/-- R243: a thread packet, and what the device keeps beside its words of the thread on its way. -/
structure Packet where
  id : Nat
  /-- The target core of this package; of a packet for another package, the logical core there. -/
  target : Nat
  /-- R243: words 0 to 15, and for SPAWN and FORK the extension, words 16 and 17. -/
  words : List Word
  /-- R375: the marks of the registers that it carries. -/
  marks : List Nat := []
  /-- R240, R327: the launch and the group that the thread belongs to, its process and its partition. -/
  lid : Nat := 0
  gid : Nat := 0
  proc : Nat := 0
  part : Nat := 0
  /-- R239, R191: GEOM0 and the authority template of the launch. -/
  geom : Word := 0#64
  auth : Word := 0#64
  /-- R246: whether the thread is a message handler. -/
  handler : Bool := false
  /-- R333: the lay-by room held for a recruit. -/
  room : Nat := 0
  /-- The issuer, when one waits. -/
  issuer : Option TRef := none
  /-- R241: the slot a FORK has taken for it. -/
  slot : Option Nat := none
  /-- R192, R244: the packet of another package that it came in, which is to be answered. -/
  reply : Option Nat := none
  /-- R240: as in `Thread`. -/
  origin : Option Nat := none
  deriving DecidableEq, Repr

/-- R200: which thread-state instruction. -/
inductive TOp where
  | stop
  | start
  | read (d b : Nat) (sel : Word)
  | write (b : Nat) (sel value : Word)
  deriving DecidableEq, Repr

/-- R200: a thread-state act on its way to its target. -/
structure TAct where
  id : Nat
  /-- The issuer; none when it is a thread of another package. -/
  thread : Option TRef
  handle : Word
  op : TOp
  d : Nat
  /-- R199, R200 order 2: the rights found in the issuer's table. -/
  rights : BitVec 32
  part : Nat
  deriving DecidableEq, Repr

/-- R248: a message to a barrier object. -/
structure BarMsg where
  id : Nat
  /-- 0 JOIN, 1 DROP, 2 ARRIVE. -/
  kind : Nat
  place : Place
  status : Word
  thread : Option TRef
  /-- R158: the command whose completion it is. -/
  cmd : Option Nat := none
  deriving DecidableEq, Repr

/-- R161: what a command will write in a line that it owns: the bytes, which of them, and their poison. -/
structure LineBuf where
  data : List Byte
  mask : BitVec 64
  poison : Bool
  deriving DecidableEq, Repr

/-- A tile command from its issue to its completion (R153, R155). -/
structure Cmd where
  id : Nat
  instr : Instr
  /-- R153: the registers named, as read in the issue turn. -/
  regs : Map Word := []
  thread : TRef
  core : Nat
  gid : Nat
  lid : Nat
  part : Nat := 0
  proc : Nat := 0
  geom0 : Word := 0#64
  geom1 : Word := 0#64
  accepted : Bool := false
  /-- R161: the checks of R154 are passed and the coherent lines still to be owned. -/
  toOwn : List Nat := []
  owned : List Nat := []
  /-- R349: the coherent lines of the present step's operands still to be pinned, and those pinned. -/
  toPin : List Nat := []
  pinned : List Nat := []
  checked : Bool := false
  /-- R49, R163: progress: steps of MMA, rows of GATH. -/
  step : Nat := 0
  status : Word := 0#64
  /-- R125: every source has been read. -/
  sourcesRead : Bool := false
  /-- Nothing more is to be written. -/
  stopped : Bool := false
  /-- R158: where the completion goes, and R160: the milestone's domain physical address. -/
  cpl : Option Place := none
  ms : Option Nat := none
  /-- R161, R163: translations made for the command: the number of a 64 KiB page and the place of its start. -/
  dst : List (Nat × Place) := []
  /-- R167: the number of this contribution among those of its group and tag. -/
  inst : Nat := 0
  /-- R158: sent and not yet acknowledged packets and barrier messages of this command. -/
  unacked : List Nat := []
  /-- R158: its completion has been sent, and is to be performed. -/
  ending : Bool := false
  /-- R341: the engine as an agent. -/
  agent : Nat := 0
  /-- Bytes done of the present row, and the row number read for it (R166). -/
  pos : Nat := 0
  row : Option Nat := none
  /-- Whether that number was poisoned. -/
  rowBad : Bool := false
  /-- Writes still to be made, and those in owned lines; whether the latter are on their way. -/
  todo : List (Place × List Byte × Bool) := []
  buf : Map LineBuf := []
  flushed : Bool := false
  /-- R161: private lines of the destination, held in the issuing core. -/
  priv : List Nat := []
  /-- R163: the index entries and scales read at acceptance, with their poison. -/
  index : Map (Nat × Bool) := []
  scales : List (Nat × Nat × Bool) := []
  /-- R396: this participant's own ranges failed. -/
  cut : Option Word := none
  deriving DecidableEq, Repr

/-- R363: a packet between packages. `ms` is the milestone address, if any. -/
structure FabricPacket where
  id : Nat
  /-- 0 posted write, 1 read, 2 read response, 3 atomic, 4 atomic response, 5 thread packet, 6 thread act. -/
  kind : Nat
  /-- Domain physical address of the target. -/
  addr : Nat := 0
  part : Nat := 0
  size : Nat := 0
  data : List Byte
  op : Option UnitOp := none
  ms : Option Nat := none
  poison : Bool := false
  thread : Option TRef
  rid : Option Nat := none
  cmd : Option Nat := none
  /-- R366: how many of its bytes have been performed at their homes. -/
  pos : Nat := 0
  /-- R235: the launch whose posted store it is, or whose completion; 0 for none. -/
  lid : Nat := 0
  /-- The thread a packet of kind 5 carries, and the core it is for. -/
  carried : Option Packet := none
  /-- The act that a packet of kind 6 carries. -/
  act : Option TAct := none
  deriving DecidableEq, Repr

/-- R254: the states of a Causeway port. -/
inductive PortState where
  | none | joining | member | removed | recovering
  deriving DecidableEq, Repr

/-- R253 to R269: a Causeway port. -/
structure Port where
  owner : Option Nat := none
  cwid : BitVec 16 := 0#16
  slots : Nat := 0
  index : Nat := 0
  state : PortState := .none
  live : BitVec 32 := 0#32
  master : Nat := 0
  applied : Nat := 0
  rotation : Nat := 0
  lost : Nat := 0
  nacks : Nat := 0
  /-- R260: the queue, and the operations accepted and applied since the membership began. -/
  queue : List CwOp := []
  accepted : Nat := 0
  ownApplied : Nat := 0
  /-- R259: own operations sent and not yet applied, in order. -/
  flying : List CwOp := []
  replica : Mem := []
  /-- R264, R265: the views received, newest first. -/
  views : List CwView := []
  /-- R262: frames not yet applied, and frames kept for replay. -/
  buffered : List CwFrame := []
  kept : List CwFrame := []
  /-- R259: the next position to apply: rotation, turn, frame index. -/
  nextRot : Nat := 0
  nextTurn : Nat := 0
  nextFidx : Nat := 0
  /-- R262: the missing frames (rotation, member, frame index), each with the rotation it was detected in, and the
  requests still to be sent. -/
  holes : List (Nat × Nat × Nat × Nat) := []
  ask : List (Nat × Nat × Nat) := []
  /-- R262: frames this port owes the others as replays. -/
  owed : List CwFrame := []
  /-- R262: requests heard for frames of other members, each with the member that asks. -/
  requests : List ((Nat × Nat × Nat) × Nat) := []
  /-- R258: the rotation of the last own burst. -/
  sentRot : Option Nat := none
  /-- R265: dark slots in a row of each member, as the master counts them. -/
  dark : Map Nat := []
  /-- R265: members of which a frame of a dark slot has come by replay in the present rotation. -/
  lit : List Nat := []
  /-- R267: the joiners the master has heard, and whether this port has sent its own control frame. -/
  joiners : List Nat := []
  asked : Bool := false
  /-- R267: the snapshot still to be loaded. -/
  snapshot : Bool := false
  /-- R267: the snapshot frames that have come, one bit each. -/
  got : Nat := 0
  /-- R267: the snapshots this port sends to those it granted. -/
  snaps : List CwSnap := []
  /-- R268: the port found no light; once its wait has ended it is the master of a new Causeway. -/
  founder : Bool := false
  /-- R209: threads that wait for room, in order. -/
  room : List TRef := []
  deriving DecidableEq, Repr

/-- R394: a histogram unit. -/
structure Hist where
  cfg : BitVec 16 := 0#16
  count : Nat := 0
  min : Nat := 2 ^ 64 - 1
  max : Nat := 0
  sum : Nat := 0
  buckets : Map Nat := []
  deriving DecidableEq, Repr

/-- R302, R303: the submission of a port or of LAUNCH under decision. -/
structure Submission where
  id : Nat
  part : Nat
  proc : Nat
  addr : Word
  graph : Bool
  thread : Option TRef
  /-- R301: the header of a LAUNCH that waits for a record, as it was read. -/
  read : Option (List Byte) := none
  deriving DecidableEq, Repr

/-- R320: the states of a partition. -/
inductive PartState where
  | absent | active | busy
  deriving DecidableEq, Repr

/-- R314, R316: a replay of a task graph. -/
structure Replay where
  id : Nat
  part : Nat
  proc : Nat
  desc : Word
  version : Word
  done : Word
  doneadd : Word
  /-- Launch of each node, and the predecessors of each. -/
  nodes : List Nat
  preds : List (List Nat)
  /-- R316: how many of the completion's writes have been made. -/
  wrote : Nat := 0
  deriving DecidableEq, Repr

/-- R320: a partition control block and what the partition owns. -/
structure Part where
  /-- Words 0 to 8 of the control block. -/
  words : Map Word := []
  result : BitVec 8 := 0#8
  state : PartState := .absent
  /-- The command being carried out while the state is busy: 2 RESET, 3 TEARDOWN, 4 the stop of a
  shutdown (R393). -/
  running : Nat := 0
  /-- R322: the physical cores of the logical cores, as CREATE read them. -/
  ctab : List Nat := []
  /-- R302: the launch port. -/
  lpProc : BitVec 16 := 0#16
  lpSeq : BitVec 32 := 0#32
  lpDropped : BitVec 16 := 0#16
  lpStatus : BitVec 8 := 0#8
  /-- Bytes of the lay-by pool in use (R333). -/
  poolUsed : Nat := 0
  hists : Map Hist := []
  deriving DecidableEq, Repr

/-- R378: a machine-check record. -/
structure McRecord where
  part : Nat
  cls : Nat
  event : BitVec 16
  addr : Word
  who : Word
  extra : Word
  cycle : Word
  deriving DecidableEq, Repr

/-- R377: a machine-check bank; the ring newest first, at most 15. -/
structure Bank where
  written : Nat := 0
  corrected : Nat := 0
  contained : Nat := 0
  fatal : Nat := 0
  discard : Nat := 0
  lost : Nat := 0
  ring : List McRecord := []
  /-- R380: the unit is fenced. -/
  fenced : Bool := false
  deriving DecidableEq, Repr

/-- R351: what a die's lease keeper holds for an agent. -/
structure Lease where
  gen : BitVec 16 := 0#16
  /-- The generation the agent itself holds for that die. -/
  held : BitVec 16 := 0#16
  /-- The cycles of the last renewal, and of the last acknowledgement the agent received. -/
  last : Nat := 0
  ack : Nat := 0
  /-- R351: the agent has expired and has not rejoined. -/
  expired : Bool := false
  deriving DecidableEq, Repr

/-- R388 to R393: firmware, fuses, power. -/
structure Platform where
  /-- R388: no image could be booted. -/
  recovery : Bool := false
  image : Nat := 0
  version : Nat := 0
  powerLimit : Nat := 2800000
  /-- R391, R393: dies whose issue cycles are being withheld. -/
  hot : List Nat := []
  /-- R393: a die has reached 115 °C and the partitions are being stopped; then the package has shut down. -/
  stopping : Bool := false
  off : Bool := false
  /-- R380: out of service until the next boot. -/
  outOfService : Bool := false
  /-- R390: the fence list: unit numbers of fenced units, and the answer of the port's last command. -/
  fences : List Nat := []
  answer : List Byte := []
  nack : Bool := false
  /-- R358: what the host's latest read or AtomicOp was answered: bytes and their poison, or none for an
  Unsupported Request. -/
  completion : Option (List Byte × Bool) := none
  /-- R360: the HDM base that the host has programmed. -/
  hdmBase : Nat := 0
  /-- R361, R373: host links and Buris links down. -/
  pcieDown : Bool := false
  cxlDown : Bool := false
  lpddr : Bool := false
  /-- Bytes of CXL expanders (R356). -/
  expander : Nat := 0
  /-- Retries in a row of each Buris link, and the links fenced (R373). -/
  retries : Map Nat := []
  linksDown : List Nat := []
  deriving DecidableEq, Repr

/-- Which act comes next: the k-th event of the agenda, or an issue turn of a core. -/
inductive Pick where
  | event (k : Nat)
  | core (phys : Nat)
  deriving DecidableEq, Repr

/-- The machine: one package. -/
structure State where
  cores : Map Core := []
  /-- Package memory at its homes (R211), by package-local address; poisoned lines (R375). -/
  mem : Mem := []
  poison : List Nat := []
  /-- The host's memory as far as the package reaches it (R355), by host physical address. -/
  host : Mem := []
  /-- R360: host-coherent lines held by the agent of each die, keyed 2^40 × die + line. -/
  hostLines : Map CLine := []
  dir : Map DirEntry := []
  rdc : Map (Map CLine) := []
  /-- R347, R348: the eviction buffers of the RDCs. -/
  rdcX : Map (Map CLine) := []
  msgs : List Msg := []
  watches : List Watch := []
  /-- R116, R130, R217: waits that found their watch store full, in order of arrival. -/
  entryWait : List (TRef × Place) := []
  /-- R351: keyed 4096 × die + agent. -/
  leases : Map Lease := []
  ws : Map (List Tlb) := []
  walks : List Walk := []
  invals : List Inval := []
  parts : Map Part := []
  launches : Map Launch := []
  groups : Map Group := []
  replays : List Replay := []
  subs : List Submission := []
  queries : List Query := []
  packets : Map Packet := []
  acts : List TAct := []
  barMsgs : List BarMsg := []
  cmds : Map Cmd := []
  ports : Map Port := []
  /-- R363: packets sent and not yet performed, and packets that have reached this package. -/
  out : Map FabricPacket := []
  inbox : Map FabricPacket := []
  banks : Map Bank := []
  plat : Platform := {}
  /-- R13: this package's number in the domain. -/
  pkg : Nat := 0
  /-- Cycles of the shared units' own counters (R25, R299). -/
  now : Nat := 0
  /-- The next number for a packet, command, walk, act or launch. -/
  fresh : Nat := 0
  /-- MODEL: how many free values have been used. -/
  free : Nat := 0
  /-- MODEL: the physical core whose issue turn it is. -/
  turn : Nat := 0
  /-- R161, R346: events that wait for an engine to write or release a line it owns. -/
  blocked : List Event := []
  /-- MODEL: events that may happen; the machine adds its own at the end. -/
  agenda : List Event := []
  /-- MODEL: which act comes next; when empty, the first event of the agenda, or else a turn. -/
  sched : List Pick := []
  deriving DecidableEq, Repr

/-- The machine right after reset: the end of R388 step 5. Every core is out of reset with no partition, its
scratchpad zero and every full bit empty; no partition exists (R320: every word of a control block is 0), no
port has a membership (R254), no bank holds a record (R377), the power limit is 2,800 W (R391). -/
def State.reset : State := {}

end Sys2Proof.Machine
end

