-- ==== Sys2Proof/Machine/Map.lean ====
section
/-!
DEFINITION. Map.lean: finite maps as ascending association lists, memories in canonical form, and bytes as
numbers, the lowest address least significant (R4).
-/
namespace Sys2Proof.Machine
open Sys2Proof

/-- The value at a key. -/
def Map.get? {α : Type} : Map α → Nat → Option α
  | [], _ => none
  | (k, v) :: m, a => if k = a then some v else Map.get? m a

/-- The map with a key set, ascending order kept. -/
def Map.set {α : Type} : Map α → Nat → α → Map α
  | [], a, x => [(a, x)]
  | (k, v) :: m, a, x =>
    if a < k then (a, x) :: (k, v) :: m
    else if k = a then (a, x) :: m
    else (k, v) :: Map.set m a x

/-- The map without a key. -/
def Map.erase {α : Type} : Map α → Nat → Map α
  | [], _ => []
  | (k, v) :: m, a => if k = a then Map.erase m a else (k, v) :: Map.erase m a

/-- The map with the value at a key changed, if there is one. -/
def Map.modify {α : Type} (m : Map α) (a : Nat) (f : α → α) : Map α :=
  match Map.get? m a with
  | some v => Map.set m a (f v)
  | none => m

/-- Whether a key has a value. -/
def Map.has {α : Type} (m : Map α) (a : Nat) : Bool := (Map.get? m a).isSome

/-- The keys, ascending. -/
def Map.keys {α : Type} (m : Map α) : List Nat := m.map (·.1)

/-- The least number from `a` on that is no key, looking at `fuel` of them. -/
def Map.leastFree {α : Type} (m : Map α) (a : Nat) : Nat → Option Nat
  | 0 => none
  | fuel + 1 => if Map.has m a then Map.leastFree m (a + 1) fuel else some a

/-- One byte of a memory. -/
def Mem.read : Mem → Nat → Byte
  | [], _ => 0#8
  | (k, b) :: m, a => if k = a then b else Mem.read m a

/-- A memory with one byte written; a zero byte is not listed. -/
def Mem.write : Mem → Nat → Byte → Mem
  | [], a, b => if b = 0#8 then [] else [(a, b)]
  | (k, c) :: m, a, b =>
    if a < k then (if b = 0#8 then (k, c) :: m else (a, b) :: (k, c) :: m)
    else if k = a then (if b = 0#8 then m else (a, b) :: m)
    else (k, c) :: Mem.write m a b

/-- The bytes from an address up. -/
def Mem.readN (m : Mem) (a : Nat) : Nat → List Byte
  | 0 => []
  | n + 1 => Mem.read m a :: Mem.readN m (a + 1) n

/-- A memory with bytes written from an address up. -/
def Mem.writeN (m : Mem) (a : Nat) : List Byte → Mem
  | [] => m
  | b :: bs => Mem.writeN (Mem.write m a b) (a + 1) bs

/-- A memory without the cells of [a, a + n): those bytes read zero. -/
def Mem.clear (m : Mem) (a n : Nat) : Mem := m.filter (fun c => c.1 < a || a + n ≤ c.1)

/-- The canonical form above an address: rising addresses, no zero byte. -/
def Mem.wfFrom : Nat → Mem → Bool
  | _, [] => true
  | lo, (k, b) :: m => decide (lo ≤ k) && b != 0#8 && Mem.wfFrom (k + 1) m

/-- The canonical form of a memory. -/
def Mem.wf (m : Mem) : Bool := Mem.wfFrom 0 m

/-- Bytes as a number, the first least significant. -/
def leNat : List Byte → Nat
  | [] => 0
  | b :: bs => b.toNat + 256 * leNat bs

/-- The low `n` bytes of a number, the least significant first. -/
def leBytes (w : Nat) : Nat → List Byte
  | 0 => []
  | n + 1 => BitVec.ofNat 8 w :: leBytes (w / 256) n

/-- Bytes as a 64-bit word. -/
def leWord (bs : List Byte) : Word := BitVec.ofNat 64 (leNat bs)

/-- The eight bytes of a word. -/
def wordBytes (w : Word) : List Byte := leBytes w.toNat 8

/-- The number of a list's elements that satisfy a test. -/
def count {α : Type} (p : α → Bool) (l : List α) : Nat := (l.filter p).length

/-- The list with the element at a position replaced. -/
def setAt {α : Type} : List α → Nat → α → List α
  | [], _, _ => []
  | _ :: l, 0, x => x :: l
  | y :: l, n + 1, x => y :: setAt l n x

/-- The list without its first element that satisfies a test. -/
def eraseFirst {α : Type} (p : α → Bool) : List α → List α
  | [] => []
  | x :: l => if p x then l else x :: eraseFirst p l

/-- A number inserted in an ascending list, once. -/
def insertNat (a : Nat) : List Nat → List Nat
  | [] => [a]
  | b :: l => if a < b then a :: b :: l else if a = b then b :: l else b :: insertNat a l

/-- Part of a list of bytes replaced from a position on. -/
def patch (old : List Byte) (at_ : Nat) (new : List Byte) : List Byte :=
  old.take at_ ++ new ++ old.drop (at_ + new.length)

end Sys2Proof.Machine
end

