-- ==== Sys2Proof/Machine/Memory.lean ====
section
/-!
DEFINITION. Memory.lean: where memory lies (R211, R212, R322), the machine-check log (R376 to R378), the
readiness of threads (R11, R15, R16), wakes (R128), and the single acts in which memory is read and written
at its place in the package order (R224, R225).
-/
namespace Sys2Proof.Machine
open Sys2Proof

/-! ## Cores and threads -/

/-- The state of a physical core. -/
def State.core (s : State) (c : Nat) : Core := (Map.get? s.cores c).getD {}

def State.setCore (s : State) (c : Nat) (k : Core) : State := { s with cores := Map.set s.cores c k }

def State.modCore (s : State) (c : Nat) (f : Core → Core) : State := s.setCore c (f (s.core c))

/-- The thread in a handle slot of a core; none when the slot is FREE (R15). -/
def State.thread? (s : State) (c slot : Nat) : Option Thread := Map.get? (s.core c).threads slot

def State.setThread (s : State) (c slot : Nat) (t : Thread) : State :=
  s.modCore c (fun k => { k with threads := Map.set k.threads slot t })

def State.modThread (s : State) (c slot : Nat) (f : Thread → Thread) : State :=
  match s.thread? c slot with
  | some t => s.setThread c slot (f t)
  | none => s

/-- An event that may happen from now on. -/
def State.post (s : State) (e : Event) : State := { s with agenda := s.agenda ++ [e] }

/-- The state after a fresh number has been taken; the number is `s.fresh`. -/
def State.bump (s : State) : State := { s with fresh := s.fresh + 1 }

def State.part (s : State) (p : Nat) : Part := (Map.get? s.parts p).getD {}

def State.modPart (s : State) (p : Nat) (f : Part → Part) : State :=
  { s with parts := Map.set s.parts p (f (s.part p)) }

def State.port (s : State) (p : Nat) : Port := (Map.get? s.ports p).getD {}

def State.modPort (s : State) (p : Nat) (f : Port → Port) : State :=
  { s with ports := Map.set s.ports p (f (s.port p)) }

/-! ## Where things lie -/

/-- The bits [lo + n - 1 : lo] of a number. -/
def bitsOf (w lo n : Nat) : Nat := w / 2 ^ lo % 2 ^ n

/-- R211: the home die of a package-local address below 0x400_0000_0000. -/
def homeDie (pa : Nat) : Nat :=
  if pa < 0x4000000000 then pa / 0x1000000000
  else if pa < 0x14000000000 then (pa - 0x4000000000) / 0x4000000000
  else 3

/-- R212: the L2 slice of a package-local address in its home die. -/
def sliceOf (pa : Nat) : Nat := bitsOf pa 6 5 ^^^ bitsOf pa 11 5 ^^^ bitsOf pa 16 5

/-- R211, R355, R356: whether a package-local address is populated memory of this package. -/
def populated (s : State) (pa : Nat) : Bool :=
  pa < 0x4000000000 ||
    (pa < 0x14000000000 && s.plat.lpddr) ||
    (decide (0x20000000000 ≤ pa) && pa < 0x40000000000 && pa - 0x20000000000 < s.plat.expander)

/-- R322: the die, physical cluster and position of a physical core. -/
def coreDie (c : Nat) : Nat := c / 520
def coreCluster (c : Nat) : Nat := c / 130
def corePos (c : Nat) : Nat := c % 130

/-- R322: the regular cores of a physical cluster that a core table leaves out, ascending. -/
def leftOut (ctab : List Nat) (cluster : Nat) : List Nat :=
  ((List.range 128).map (130 * cluster + ·)).filter (fun c => !ctab.contains c)

/-- R322: the package leaf of a physical core; a spare belongs to the leaf of the core it stands in for. -/
def coreLeaf (s : State) (c : Nat) : Nat :=
  let pos :=
    if corePos c < 128 then corePos c
    else match (s.core c).owner with
      | some (p, _) => corePos ((leftOut (s.part p).ctab (coreCluster c)).getD (corePos c - 128) 0)
      | none => 0
  8 * coreCluster c + pos / 16

/-- The waystation of a core (R330), numbered 8 × die + waystation. -/
def coreWs (s : State) (c : Nat) : Nat := coreLeaf s c / 4

/-- R298: the home distributor of a partition: the die of its logical core 0. -/
def homeDist (s : State) (p : Nat) : Nat := coreDie ((s.part p).ctab.headD 0)

/-- A domain physical address (R211). -/
def domAddr (pkg pa : Nat) : Nat := pkg * 2 ^ 50 + pa

/-- R13: a handle. -/
def mkHandle (pkg part lcore slot gen : Nat) : Word :=
  BitVec.ofNat 64 (pkg * 2 ^ 50 + part * 2 ^ 44 + lcore * 2 ^ 32 + slot * 2 ^ 20 + gen % 2 ^ 20)

/-- R13: the generation of a slot. -/
def genOf (k : Core) (slot : Nat) : Nat := (Map.get? k.gens slot).getD 0

/-- R13: the handle of a slot of a core. -/
def handleOf (s : State) (c slot : Nat) : Word :=
  let k := s.core c
  let o := k.owner.getD (0, 0)
  mkHandle s.pkg o.1 o.2 slot (genOf k slot)

/-! ## Machine-check banks (R376 to R378) -/

def coreBank (c : Nat) : Nat := c
def sliceBank (pa : Nat) : Nat := 0x900 + 32 * homeDie pa + sliceOf pa

/-- R377, R378: an event logged in a bank; only the first 16 corrected events after a clear are recorded. -/
def logEvent (s : State) (bank part cls : Nat) (event : BitVec 16) (addr who extra cycle : Word) : State :=
  let b := (Map.get? s.banks bank).getD {}
  let rec? := cls != 1 || decide (b.corrected < 16)
  let r : McRecord := { part := part, cls := cls, event := event, addr := addr, who := who,
                        extra := extra, cycle := cycle }
  let b := { b with
    corrected := if cls = 1 then b.corrected + 1 else b.corrected
    contained := if cls = 2 then b.contained + 1 else b.contained
    fatal := if cls = 3 then b.fatal + 1 else b.fatal }
  let b := if rec? then
      { b with written := b.written + 1, ring := (r :: b.ring).take 15,
               lost := if b.ring.length < 15 then b.lost else b.lost + 1 }
    else b
  { s with banks := Map.set s.banks bank b }

/-- A shared unit's own cycle counter (R25). -/
def nowWord (s : State) : Word := BitVec.ofNat 64 s.now

/-- R25: CYC of a core. -/
def cycWord (s : State) (c : Nat) : Word := BitVec.ofNat 64 (s.core c).cyc

/-- R350: whether a line has a watch list. -/
def watched (s : State) (line : Nat) : Bool :=
  s.watches.any (fun w => match w.place with
    | .page .coherent _ pa => pa / 64 = line
    | _ => false)

/-- R342: whether an entry is kept: one in I is freed unless it has a watch, a pin or a request. -/
def keepsEntry (s : State) (line : Nat) (e : DirEntry) : Bool :=
  e.st != .i || !e.pins.isEmpty || !e.queue.isEmpty || e.cur.isSome || watched s line

/-- R116, R130, R217, R350: watch entries have come free: directory entries without a watch are freed, and the waits
that found their store full look again. -/
def postEntries (s : State) : State :=
  let s := { s with dir := s.dir.filter (fun x => keepsEntry s x.1 x.2) }
  let s := s.launches.foldl (fun (s : State) (x : Nat × Launch) =>
    if x.2.entered && x.2.ready.isNone && !x.2.done &&
        !s.watches.any (fun w => w.kind = .dep x.1) then s.post (.dependenceReady x.1)
    else s) s
  s.entryWait.foldl (fun s x => s.post (.watchEntryGrant x.1.core x.1.slot)) s

/-! ## Registers and readiness -/

/-- R17, R21: the value of a g register; g0 and a zero-valid register read zero. -/
def Thread.gv (t : Thread) (r : Nat) : Word := if r = 0 then 0#64 else (Map.get? t.g r).getD 0#64

/-- R17: the predicate word; p0 reads 1. -/
def Thread.pwv (t : Thread) : BitVec 8 := t.pw ||| 1#8

/-- R17: predicate pk. -/
def Thread.p (t : Thread) (k : Nat) : Bool := t.pwv.getLsbD k

/-- R17, R21: a vector register. -/
def Thread.vv (t : Thread) (r : Nat) : VWord := (Map.get? t.v r).getD 0#512

/-- R17, R21: a stream register; a zero-valid one has length code 0 and class mask 0. -/
def Thread.zv (t : Thread) (r : Nat) : ZReg :=
  (Map.get? t.z r).getD { bits := 0#4096, len := 0#2, cls := 0#64 }

/-- R375: any write of a register clears its mark. -/
def Thread.clean (t : Thread) (r : Nat) : Thread := { t with poison := t.poison.filter (· != r) }

/-- R17: a write of a g register; a write to g0 is discarded. -/
def Thread.setG (t : Thread) (d : Nat) (w : Word) : Thread :=
  if d = 0 then t else { t with g := Map.set t.g d w, poison := t.poison.filter (· != d) }

def Thread.setV (t : Thread) (d : Nat) (w : VWord) : Thread :=
  { t with v := Map.set t.v d w, poison := t.poison.filter (· != 256 + d) }

def Thread.setZ (t : Thread) (d : Nat) (w : ZReg) : Thread :=
  { t with z := Map.set t.z d w, poison := t.poison.filter (· != 512 + d) }

/-- R17: a write of the predicate word; bit 0 stays 1. -/
def Thread.setPw (t : Thread) (w : BitVec 8) : Thread :=
  { t with pw := w ||| 1#8, poison := t.poison.filter (· != 128) }

/-- R20: the key of a register's entry in the register cache. -/
def rcKey (slot r : Nat) : Nat := 128 * slot + r

/-- The number of one bits. -/
def ones {n : Nat} (x : BitVec n) : Nat := count (fun i => x.getLsbD i) (List.range n)

/-- R20: the entries a core's register cache holds. -/
def rcSize (k : Core) : Nat := 64 * ones k.rows

/-- R20: an entry given to a register. A full cache gives up an entry that is neither pending nor reserved:
which one, the spec leaves open. -/
def rcPut (s : State) (c slot r : Nat) (e : RcState) : State :=
  let k := s.core c
  let key := rcKey slot r
  if Map.has k.rc key || k.rc.length < rcSize k then s.setCore c { k with rc := Map.set k.rc key e }
  else
    let victims := k.rc.filter (fun x => match x.2 with | .present _ => true | _ => false)
    let v := (victims.getD (Config.victim s.free % victims.length) (key, e)).1
    { s.setCore c { k with rc := Map.set (Map.erase k.rc v) key e } with free := s.free + 1 }

/-- R20: the entries of a slot leave the register cache. -/
def rcDrop (k : Core) (slot : Nat) : Core :=
  { k with rc := k.rc.filter (fun x => x.1 / 128 != slot) }

/-- R20, R22: a spilled thread gives up its entries but those that are pending, which end when their loads
deliver. -/
def rcSpill (k : Core) (slot : Nat) : Core :=
  { k with rc := k.rc.filter (fun x => x.1 / 128 != slot || x.2 = .pending) }

/-- R16, R20, R22: a register has been written: its entry is there and dirty; or, when the thread's context is in
the lay-by, the write went to its backing area, and an entry that was pending on it ends. -/
def rcWrote (s : State) (c slot r : Nat) (away : Bool) : State :=
  if away then s.modCore c (fun k => { k with rc := Map.erase k.rc (rcKey slot r) })
  else rcPut s c slot r (.present true)

/-- R17, R20: a write of a g register through the register cache; of a thread in the lay-by, into its
backing area. -/
def writeG (s : State) (c slot d : Nat) (w : Word) : State :=
  if d = 0 then s
  else match s.thread? c slot with
    | none => s
    | some t => rcWrote (s.setThread c slot (t.setG d w)) c slot d t.away

def writePw (s : State) (c slot : Nat) (w : BitVec 8) : State :=
  match s.thread? c slot with
  | none => s
  | some t =>
    rcWrote (s.setThread c slot (t.setPw w)) c slot 0 t.away

/-- A unit's register write. -/
def applyWrite (s : State) (c slot : Nat) : RegWrite → State
  | .g d w => writeG s c slot d w
  | .v d w => s.modThread c slot (fun t => t.setV d w)
  | .z d w => s.modThread c slot (fun t => t.setZ d w)
  | .flags f => s.modThread c slot (fun t => { t with fpflg := t.fpflg ||| f.zeroExtend 64 })

def applyWrites (s : State) (c slot : Nat) : List RegWrite → State
  | [] => s
  | w :: ws => applyWrites (applyWrite s c slot w) c slot ws

/-- R11: a place in the ready queue by cycle, then by slot. -/
def readyInsert (slot cyc : Nat) : List (Nat × Nat) → List (Nat × Nat)
  | [] => [(slot, cyc)]
  | (t, y) :: l =>
    if cyc < y || (cyc = y && slot < t) then (slot, cyc) :: (t, y) :: l
    else (t, y) :: readyInsert slot cyc l

/-- R8: a slot gives up its rotation position. -/
def leaveRot (k : Core) (slot : Nat) : Core :=
  { k with rot := k.rot.filter (fun x => x.2 != slot), ready := k.ready.filter (fun x => x.1 != slot) }

/-- R11: a thread becomes READY in the core's present cycle. -/
def makeReady (s : State) (c slot : Nat) : State :=
  let s := s.modThread c slot (fun t => { t with code := .ready, slept := false, sleepFor := 0 })
  s.modCore c (fun k =>
    { k with ready := readyInsert slot k.cyc (k.ready.filter (fun x => x.1 != slot)) })

/-- R22, R23: the first in the queue for contexts may now be served. -/
def postCtx (s : State) (c : Nat) : State :=
  match (s.core c).ctxWait with
  | [] => s
  | .packet _ :: _ => s.post (.contextGrant c)
  | .fill _ :: _ => s.post (.threadFill c)

/-- R23: a woken SPILLED thread joins the queue for contexts. -/
def joinFill (s : State) (c slot : Nat) : State :=
  postCtx (s.modCore c (fun k => { k with ctxWait := k.ctxWait ++ [.fill slot] })) c

/-- R10, R15: a thread leaves the rotation to wait. -/
def beginWait (s : State) (c slot : Nat) (code : TCode) (w : Wait) : State :=
  let s := s.modThread c slot (fun t =>
    { t with code := code, wait := w, sleepFor := 0, since := (s.core c).cyc })
  let s := s.modCore c (fun k => leaveRot k slot)
  if code = .sleeping then postCtx s c else s

/-- R385: the instruction of a paired core's thread that asks for a commit after it is complete. -/
def postCommit (s : State) (c slot : Nat) : State :=
  match (s.core c).lock with
  | none => s
  | some L =>
    if L.after.contains slot then
      (s.modCore c (fun k => { k with lock := some { L with after := L.after.filter (· != slot) } })).post
        (.checkpointCommit c)
    else s

/-- R16, R206: an operation of a thread is over: the acts and invalidations that may have waited for it look
again. -/
def postWaiting (s : State) : State :=
  let s := s.acts.foldl (fun s a => match a.thread with
    | some r => s.post (.threadStateAct r.core r.slot)
    | none => s.post (.remoteAtomic a.id)) s
  s.invals.foldl (fun s i => if i.left.isEmpty then s.post (.invpgComplete i.thread.core i.thread.slot) else s) s

/-- R203: the word of the instruction being stepped, once it has issued. -/
def Thread.stepped (t : Thread) : Option (BitVec 32) := t.stepping.bind id

/-- R11, R15, R23: a thread whose wait is over becomes READY, or, when its context is in the lay-by, waits for its
fill. -/
def wakeUp (s : State) (c slot : Nat) (t : Thread) : State :=
  if t.away then joinFill (s.setThread c slot { t with wait := .idle, code := .spilled, slept := false, sleepFor := 0 }) c slot
  else makeReady (s.setThread c slot { t with wait := .idle }) c slot

/-- R15, R16: what a thread waited for is complete. A WAITING or SLEEPING thread becomes READY; a STOPPED
one stays so, with WAKE set if it was asleep; a SPILLED one, and any other whose context is in the lay-by, waits for
its fill (R23). A thread that is being stepped takes its STEP at ACCESS_COMPLETE (R203). -/
def finishWait (s : State) (c slot : Nat) : State :=
  let s := postWaiting (postCommit s c slot)
  match s.thread? c slot with
  | none => s
  | some t =>
    let ended := s.setThread c slot { t with wait := .idle, wake := t.wake || (t.code = .stopped && t.slept) }
    if t.stepped.isSome then
      (if t.code = .sleeping then ended.modThread c slot (fun t => { t with code := .waiting }) else ended).post
        (.accessComplete c slot)
    else match t.code with
      | .waiting | .sleeping | .spilled => wakeUp s c slot t
      | _ => ended

end Sys2Proof.Machine
end

