-- ==== Sys2Proof/Machine/Caches.lean ====
section
/-!
DEFINITION. Caches.lean: the copies of a line (R342, R347, R348): L1s, RDCs and their eviction buffers; the present value
of a line (R224); wakes (R128); and the single acts in which memory is read and written at its place in the package
order (R225).
-/
namespace Sys2Proof.Machine
open Sys2Proof

/-! ## Lines (R342, R347, R348) -/

/-- The domain line number of a package-local line of this package. -/
def lineKey (s : State) (pa : Nat) : Nat := domAddr s.pkg pa / 64

def dirOf (s : State) (line : Nat) : DirEntry := (Map.get? s.dir line).getD {}

/-- R342: an entry in I with no watch, pin or request is freed. -/
def setDir (s : State) (line : Nat) (e : DirEntry) : State :=
  if keepsEntry s line e then { s with dir := Map.set s.dir line e } else { s with dir := Map.erase s.dir line }

def rdcOf (s : State) (die : Nat) : Map CLine := (Map.get? s.rdc die).getD []

def setRdc (s : State) (die : Nat) (m : Map CLine) : State := { s with rdc := Map.set s.rdc die m }

/-- R347, R348: the eviction buffer of a die's RDC. -/
def rdcXOf (s : State) (die : Nat) : Map CLine := (Map.get? s.rdcX die).getD []

def setRdcX (s : State) (die : Nat) (m : Map CLine) : State := { s with rdcX := Map.set s.rdcX die m }

/-- R341: agents that are L1s. -/
def isL1 (a : Nat) : Bool := a < 0x820

/-- The dirty copy of a line that a core holds, in its L1 or on its way home. -/
def l1Dirty (k : Core) (key : Nat) : Option CLine :=
  match Map.get? k.l1 key with
  | some l => if l.st = .m then some l else (Map.get? k.xbuf key).filter (fun x => x.st = .m)
  | none => (Map.get? k.xbuf key).filter (fun x => x.st = .m)

/-- The dirty copy of a line that an agent with write permission holds (R347, R348). -/
def dirtyOf (s : State) (agent key : Nat) : Option CLine :=
  if isL1 agent then l1Dirty (s.core agent) key
  else match Map.get? (rdcOf s (agent - 0xC00)) key with
    | none => (Map.get? (rdcXOf s (agent - 0xC00)) key).filter (fun x => x.st = .m)
    | some l =>
      match l.owner.bind (fun c => l1Dirty (s.core c) key) with
      | some d => some d
      | none => if l.st = .m then some l else (Map.get? (rdcXOf s (agent - 0xC00)) key).filter (fun x => x.st = .m)

/-- The agents that may hold a copy (R342): the pointers, or the L1s of the marked leaves of the home die and
the marked RDCs of the others. -/
def holders (s : State) (line : Nat) (e : DirEntry) : List Nat :=
  if e.mode then e.vec.flatMap (fun b =>
    if b / 32 = homeDie (64 * line) then (Map.keys s.cores).filter (fun c => coreLeaf s c = b)
    else [0xC00 + b / 32])
  else e.ptrs

def leaseOf (s : State) (die agent : Nat) : Lease := (Map.get? s.leases (4096 * die + agent)).getD {}

def setLease (s : State) (die agent : Nat) (l : Lease) : State :=
  { s with leases := Map.set s.leases (4096 * die + agent) l }

/-- The generation that the keeper of a line's die holds for an agent. -/
def keptGen (s : State) (line agent : Nat) : BitVec 16 := (leaseOf s (homeDie (64 * line)) agent).gen

/-- The cycles an agent counts itself. -/
def agentNow (s : State) (agent : Nat) : Nat := if isL1 agent then (s.core agent).cyc else s.now

/-- The entries homed on a die that name an agent as sharer, holder, owner or pin. -/
def namedLines (s : State) (die agent : Nat) : List Nat :=
  (s.dir.filter (fun x => homeDie (64 * x.1) = die &&
    ((holders s x.1 x.2).contains agent || x.2.pins.contains agent || x.2.asked.contains agent))).map (·.1)

/-- R344: a message about a line, with the generation its sender holds. -/
def mkMsg (s : State) (kind : MsgKind) (line agent : Nat) : Msg :=
  { kind := kind, line := line, agent := agent, gen := (leaseOf s (homeDie (64 * line)) agent).held }

/-- R345, R353: the data of a line that are on their way to its home in an answer that still counts. -/
def flyingData (s : State) (line : Nat) (e : DirEntry) : Option (List Byte × Bool) :=
  (s.msgs.find? (fun m => m.kind = .answer && m.line = line && m.data.isSome && e.asked.contains m.agent &&
    m.gen = keptGen s line m.agent)).map (fun m => (m.data.getD [], m.poison))

/-- R345, R354: the dirty data of a coherent line: those of the agent with write permission, or, while they are recalled,
those that it still holds or has sent. An agent that the entry does not name has no part in the line. -/
def lineDirty (s : State) (line : Nat) : Option (List Byte × Bool) :=
  let e := dirOf s line
  let at_ := fun (a : Nat) => (dirtyOf s a (lineKey s (64 * line))).map (fun l => (l.data, l.poison))
  match e.st with
  | .e => e.ptrs.head?.bind at_
  | .b =>
    if e.excl then
      match e.asked.filterMap at_ with
      | v :: _ => some v
      | [] => flyingData s line e
    else none
  | _ => none

/-- R224: the present value of a coherent line homed here, and whether it is poisoned: the dirty copy where
one exists, else the home's. `pa` is a multiple of 64. -/
def lineNow (s : State) (pa : Nat) : List Byte × Bool :=
  (lineDirty s (pa / 64)).getD (Mem.readN s.mem pa 64, s.poison.contains (pa / 64))

/-- R382: a partition that is being stopped looks again at what it waits for. -/
def drainNext (s : State) (p : Nat) : State :=
  if (s.part p).state = .busy && !s.agenda.contains (.layByScrubComplete p) then s.post (.layByScrubComplete p) else s

/-- R382, step 5: the partition of an L1, if it is being stopped. -/
def drainAgent (s : State) (agent : Nat) : State :=
  match (s.core agent).owner with
  | some (p, _) => if isL1 agent then drainNext s p else s
  | none => s

/-- A line taken away from an L1, and from its eviction buffer. -/
def dropL1 (s : State) (c key : Nat) : State :=
  s.modCore c (fun k => { k with l1 := Map.erase k.l1 key, xbuf := Map.erase k.xbuf key })

/-- A line taken away from an agent and everything under it (R348). -/
def dropAgent (s : State) (agent key : Nat) : State :=
  if isL1 agent then dropL1 s agent key
  else
    let die := agent - 0xC00
    let s := setRdcX (setRdc s die (Map.erase (rdcOf s die) key)) die (Map.erase (rdcXOf s die) key)
    { s with cores := s.cores.map (fun ck =>
        if coreDie ck.1 = die then
          (ck.1, { ck.2 with l1 := Map.erase ck.2.l1 key, xbuf := Map.erase ck.2.xbuf key })
        else ck) }

def dropAll (s : State) (key : Nat) : List Nat → State
  | [] => s
  | a :: as => dropAll (dropAgent s a key) key as

/-- R375: the poison mark of a home line after bytes are written: a whole line clears it. -/
def setPoison (s : State) (line : Nat) (p : Bool) : State :=
  { s with poison := if p then insertNat line s.poison else s.poison.filter (· != line) }

/-- The home's copy of a line replaced. -/
def writeHome (s : State) (pa : Nat) (bytes : List Byte) (poison : Bool) : State :=
  let s := { s with mem := Mem.writeN s.mem pa bytes }
  if bytes.length = 64 then setPoison s (pa / 64) poison
  else if poison then setPoison s (pa / 64) true else s

/-- R346, R349: what goes on once a write is performed at a home: FL is cleared. -/
def clearFl (s : State) (line : Nat) : State :=
  match Map.get? s.dir line with
  | some e => setDir s line { e with fl := false }
  | none => s

/-- R345: every copy of a line recalled in one act, dirty data written to the home first. -/
def recallAll (s : State) (pa : Nat) : State :=
  let pa := pa / 64 * 64
  let e := dirOf s (pa / 64)
  let s := match lineDirty s (pa / 64) with
    | some v => clearFl (writeHome s pa v.1 v.2) (pa / 64)
    | none => s
  let s := { dropAll s (lineKey s pa) (holders s (pa / 64) e) with
    msgs := s.msgs.map (fun m => if m.line = pa / 64 then { m with data := none } else m) }
  if e.st = .s || e.st = .e then
    setDir s (pa / 64) { dirOf s (pa / 64) with st := .i, mode := false, ptrs := [], vec := [] }
  else s

/-- R342: a slice with no free entry takes a victim in S or E, without watch or pin, whose copies are
recalled. -/
def dirRoom (s : State) (line : Nat) : State :=
  if Map.has s.dir line then s
  else
    let mine := s.dir.filter (fun x =>
      homeDie (64 * x.1) = homeDie (64 * line) && sliceOf (64 * x.1) = sliceOf (64 * line))
    if mine.length < 65536 then s
    else match mine.find? (fun x => (x.2.st = .s || x.2.st = .e) && x.2.pins.isEmpty && !watched s x.1) with
      | some x => recallAll s (64 * x.1)
      | none => s

def putDir (s : State) (line : Nat) (e : DirEntry) : State := setDir (dirRoom s line) line e

/-! ## Host-coherent lines (R360) -/

/-- The number under which an L1 holds a host-coherent line. -/
def hostKey (s : State) (line : Nat) : Nat := domAddr s.pkg (0x80000000000 + 64 * line) / 64

/-- A host-coherent line taken from every L1. -/
def dropHostL1 (s : State) (line : Nat) : State :=
  { s with cores := s.cores.map (fun x => (x.1, { x.2 with l1 := Map.erase x.2.l1 (hostKey s line) })) }

/-- R360: a host-coherent line goes back to the host's memory if it is dirty. -/
def flushHost (s : State) (key : Nat) : State :=
  match Map.get? s.hostLines key with
  | none => s
  | some l =>
    let s := dropHostL1 { s with hostLines := Map.erase s.hostLines key } (key % 2 ^ 40)
    if l.st = .m then { s with host := Mem.writeN s.host (key % 2 ^ 40 * 64) l.data } else s

/-- R360: an agent holds at most 16,384 lines; the one it took first leaves. -/
def hostRoom (s : State) (die : Nat) : State :=
  match s.hostLines.filter (fun x => x.1 / 2 ^ 40 = die) with
  | [] => s
  | x :: l => if 16384 ≤ l.length + 1 then flushHost s x.1 else s

/-- R360: a host-coherent line held by the agent of a die, and by no other; no L1 but those under it keeps it. -/
def holdHost (s : State) (die line : Nat) (l : CLine) : State :=
  let s := { s with
    hostLines := s.hostLines.filter (fun x => x.1 % 2 ^ 40 != line)
    cores := s.cores.map (fun x => if l.leaves.contains x.1 then x
      else (x.1, { x.2 with l1 := Map.erase x.2.l1 (hostKey s line) })) }
  let s := hostRoom s die
  { s with hostLines := Map.set s.hostLines (2 ^ 40 * die + line) l }

/-- R218, R360: an L1 gives up a host-coherent line; its dirty data are written to the host at once. -/
def leaveHost (s : State) (c key : Nat) : State :=
  let line := key % 2 ^ 44 - 0x80000000000 / 64
  match Map.get? s.hostLines (2 ^ 40 * coreDie c + line) with
  | none => s
  | some l =>
    let s := if l.st = .m && l.owner = some c then { s with host := Mem.writeN s.host (line * 64) l.data } else s
    let l : CLine := { l with leaves := l.leaves.filter (· != c), owner := l.owner.filter (· != c)
                              st := if l.owner = some c then .s else l.st }
    { s with hostLines := Map.set s.hostLines (2 ^ 40 * coreDie c + line) l }

/-! ## The L1 (R218, R344, R347) -/

/-- R344: a message sent, and the event of its arrival. -/
def sendMsg (s : State) (m : Msg) : State :=
  let s := { s with msgs := s.msgs ++ [m] }
  s.post (match m.kind with
    | .rd => .rd m.line m.agent
    | .rdx => .rdx m.line m.agent
    | .upg => .upg m.line m.agent
    | .wb => .wb m.line m.agent
    | .wbk => .wbk m.line m.agent
    | .put => .put m.line m.agent
    | .amo => .amo m.line m.agent
    | .own => .own m.line (m.cmd.getD 0)
    | .ew => .ew m.line (m.cmd.getD 0)
    | .rel => .rel m.line (m.cmd.getD 0)
    | .inv => .inv m.line m.agent
    | .rcl => .rcl m.line m.agent
    | .dwg => .dwg m.line m.agent
    | .ack => .ack m.line m.agent
    | .nack => .nack m.line m.agent
    | .answer => .recallAnswer m.line m.agent
    | .pin => .pin m.line m.agent
    | .pinDrop => .pinDrop m.line m.agent
    | .act => m.event.getD (.rd m.line m.agent)
    | .write => .wb m.line m.agent)

/-- R218, R228: a private line written to its home, through the copy of its die's RDC. -/
def writePriv (s : State) (c pa : Nat) (data : List Byte) (poison : Bool) : State :=
  let key := lineKey s pa
  let s := match Map.get? (rdcOf s (coreDie c)) key with
    | some r => setRdc s (coreDie c) (Map.set (rdcOf s (coreDie c)) key { r with data := data, poison := poison })
    | none => s
  writeHome s pa data poison

/-- R347: an L1 gives up a line: a clean S line or copy silently, E by PUT and M by WB, kept in the
eviction buffer until the home's acknowledgement; private and host-coherent data go home at once (R218), and a
line homed on another die goes to its die's RDC (R348). -/
def evictL1 (s : State) (c key : Nat) : State :=
  match Map.get? (s.core c).l1 key with
  | none => s
  | some l =>
    let s := s.modCore c (fun k => { k with l1 := Map.erase k.l1 key })
    let pa := 64 * key - s.pkg * 2 ^ 50
    match l.kind with
    | .priv => if l.st = .m then writePriv s c pa l.data l.poison else s
    | .coherent =>
      if homeDie pa != coreDie c then
        match Map.get? (rdcOf s (coreDie c)) key with
        | none => s
        | some r =>
          if l.st = .s then s
          else setRdc s (coreDie c) (Map.set (rdcOf s (coreDie c)) key
            { r with owner := none, data := l.data, poison := l.poison,
                     st := if l.st = .m then .m else r.st })
      else if l.st = .s then s
      else
        let s := s.modCore c (fun k => { k with xbuf := Map.set k.xbuf key l })
        sendMsg s { mkMsg s (if l.st = .m then .wb else .put) (pa / 64) c with
          data := if l.st = .m then some l.data else none, poison := l.poison }
    | .hostCoherent => leaveHost s c key
    | _ => s

/-- R218: the least recently used line of a set. -/
def lruOf (m : Map CLine) (set : Nat) : Option Nat :=
  (m.filter (fun x => x.1 % 256 = set)).foldl
    (fun best x => match best with
      | none => some x.1
      | some b => match Map.get? m b with
        | some y => if x.2.used < y.used then some x.1 else some b
        | none => some x.1) none

/-- R218: a line put into an L1; a full set gives up its least recently used line first. -/
def fillL1 (s : State) (c key : Nat) (l : CLine) : State :=
  let k := s.core c
  let full := !Map.has k.l1 key && decide (ones k.ways ≤ count (fun x => x.1 % 256 = key % 256) k.l1)
  let s := if full then (match lruOf k.l1 (key % 256) with
      | some v => evictL1 s c v
      | none => s) else s
  s.modCore c (fun k => { k with l1 := Map.set k.l1 key { l with used := k.cyc } })

/-- R340: copies have a term of 2^20 cycles. -/
def copyTerm : Nat := 1048576

/-! ## The remote data cache (R2, R348) -/

/-- R2: the lines of an RDC of 16 MiB. -/
def rdcLines : Nat := 262144

/-- R348: an RDC gives up a line: its L1 copies first; a coherent line is sent home by PUT or WB and stays in the
eviction buffer until it is acknowledged (R347). -/
def evictRdc (s : State) (die key : Nat) : State :=
  match Map.get? (rdcOf s die) key with
  | none => s
  | some l =>
    let agent := 0xC00 + die
    let line := key % 2 ^ 44
    let d := dirtyOf s agent key
    let keep := { l with st := if d.isSome then .m else l.st, data := (d.getD l).data, poison := (d.getD l).poison }
    let mine := s.cores.filter (fun x => coreDie x.1 = die)
    match l.kind with
    | .coherent =>
      let s := dropAgent s agent key
      if keep.st = .s then s
      else sendMsg (setRdcX s die (Map.set (rdcXOf s die) key keep))
        { mkMsg s (if keep.st = .m then .wb else .put) line agent with
          data := if keep.st = .m then some keep.data else none, poison := keep.poison }
    | .priv =>
      let s := mine.foldl (fun s x => match Map.get? x.2.l1 key with
        | some v => if v.st = .m then writeHome s (64 * line) v.data v.poison else s
        | none => s) s
      dropAgent s agent key
    | .readShared => dropAgent s agent key
    | _ => setRdc s die (Map.erase (rdcOf s die) key)

/-- R2, R348: a line put into an RDC; a full one gives up a line first: which one, the spec leaves open. -/
def rdcPut (s : State) (die key : Nat) (l : CLine) : State :=
  let m := rdcOf s die
  if Map.has m key || m.length < rdcLines then setRdc s die (Map.set m key l)
  else
    let v := (m.getD (Config.victim s.free % m.length) (key, l)).1
    let s := evictRdc { s with free := s.free + 1 } die v
    setRdc s die (Map.set (rdcOf s die) key l)

/-! ## Reads and writes in one act -/

/-- The bytes of [a, a + n) of a line's bytes; `a` is the offset in the line. -/
def slice (l : List Byte) (a n : Nat) : List Byte := (l.drop a).take n

/-- The value and poison of a private line as a core sees it (R218, R228): its L1, its die's RDC, the home. -/
def privLine (s : State) (c pa : Nat) : List Byte × Bool :=
  let key := lineKey s pa
  let k := s.core c
  match Map.get? k.l1 key with
  | some l => (l.data, l.poison)
  | none =>
    match (if homeDie pa = coreDie c then none else Map.get? (rdcOf s (coreDie c)) key) with
    | some l => (l.data, l.poison)
    | none => (Mem.readN s.mem pa 64, s.poison.contains (pa / 64))

/-- R375: whether any of the scratchpad words of [off, off + n) is poisoned. -/
def spadPoison (k : Core) (off n : Nat) : Bool :=
  k.poisonW.any (fun w => decide (off / 8 ≤ w) && decide (w ≤ (off + n - 1) / 8))

/-- R360, R361: a host-coherent line as the package sees it: the agent's line or the host's memory. -/
def hostLineNow (s : State) (pa : Nat) : List Byte × Bool :=
  match s.hostLines.filter (fun x => x.1 % 2 ^ 40 = pa / 64) with
  | (_, l) :: _ => (l.data, l.poison)
  | [] => (Mem.readN s.host (pa / 64 * 64) 64, false)

/-- The bytes at a place at this moment, and whether they are poisoned, as a thread or engine of core `c`
reads them; memory of another package that no copy holds is open. The piece lies within one line. The device window is read by its own operation. -/
def readPlace (s : State) (c : Nat) (p : Place) (n : Nat) : List Byte × Bool :=
  match p with
  | .spad k off => (Mem.readN (s.core k).spad off n, spadPoison (s.core k) off n || (s.core k).fenced)
  | .cw port off => (Mem.readN (s.port port).replica off n, false)
  | .dev _ => (List.replicate n 0#8, false)
  | .page kind pkg pa =>
    let base := pa / 64 * 64
    match kind with
    | .priv => let l := privLine s c base; (slice l.1 (pa - base) n, l.2)
    | .coherent => let l := lineNow s base; (slice l.1 (pa - base) n, l.2)
    | .hostCoherent =>
      let h := pa - 0x80000000000
      let l := hostLineNow s (h / 64 * 64); (slice l.1 (h - h / 64 * 64) n, l.2)
    | .hostNoncoherent => (Mem.readN s.host (pa - 0x40000000000) n, false)
    | .device => (List.replicate n 0#8, false)
    | .readShared | .remotePosted =>
      let key := domAddr pkg pa / 64
      match Map.get? (s.core c).l1 key with
      | some l => (slice l.data (pa - base) n, l.poison)
      | none => match Map.get? (rdcOf s (coreDie c)) key with
        | some l => (slice l.data (pa - base) n, l.poison)
        | none =>
          if pkg = s.pkg then let l := lineNow s base; (slice l.1 (pa - base) n, l.2)
          else ((List.range n).map (fun i => Config.remote s.free (domAddr pkg pa + i)), false)

/-- A piece of up to any length read at a translated or local place, line by line. -/
def readBytes (s : State) (c : Nat) (p : Place) (n : Nat) : List Byte × Bool :=
  match p with
  | .page kind pkg pa =>
    let go := (List.range ((pa % 64 + n + 63) / 64)).map (fun i =>
      let a := if i = 0 then pa else (pa / 64 + i) * 64
      let e := Nat.min (pa + n) ((pa / 64 + i + 1) * 64)
      readPlace s c (.page kind pkg a) (e - a))
    (go.flatMap (·.1), go.any (·.2))
  | _ => readPlace s c p n

/-! ## Lines brought into an L1 (R218, R340, R360) -/

/-- R218: a line of an L1 is used. -/
def touchL1 (s : State) (c key : Nat) : State :=
  s.modCore c (fun k => { k with l1 := Map.modify k.l1 key (fun l => { l with used := k.cyc }) })

/-- A private line used in an L1, or brought there (R218, R228), through its die's RDC when it is homed elsewhere. -/
def fetchPriv (s : State) (c pa : Nat) : State :=
  let base := pa / 64 * 64
  let key := lineKey s base
  if Map.has (s.core c).l1 key then touchL1 s c key
  else
    let v := privLine s c base
    let l : CLine := { st := .e, kind := .priv, data := v.1, poison := v.2 }
    let s := if homeDie pa = coreDie c then s else rdcPut s (coreDie c) key { l with st := .s }
    fillL1 s c key l

/-- R340: a copy of a read-shared line, or of a line of another package, used in an L1 or brought there: from the RDC,
whose copy's term it has; or, of a line of this package, from its home, through the RDC when that is another die's. The
copy of a line of another package comes to the RDC with the answer of its read (R367). -/
def fetchCopy (s : State) (c : Nat) (kind : PageKind) (pkg pa : Nat) : State :=
  let base := pa / 64 * 64
  let key := domAddr pkg base / 64
  let die := coreDie c
  if Map.has (s.core c).l1 key then touchL1 s c key
  else
    let l : CLine := { st := .s, kind := kind, data := [] }
    match Map.get? (rdcOf s die) key with
    | some r =>
      let rest := r.term.getD (s.now + copyTerm) - s.now
      fillL1 s c key { l with data := r.data, poison := r.poison, term := some ((s.core c).cyc + rest) }
    | none =>
      if kind != .readShared then s
      else
        let v := readPlace s c (.page kind pkg base) 64
        let l := { l with data := v.1, poison := v.2 }
        let s := if homeDie pa = die then s else rdcPut s die key { l with term := some (s.now + copyTerm) }
        fillL1 s c key { l with term := some ((s.core c).cyc + copyTerm) }

/-- R360: a host-coherent line brought to the agent of a core's die, and its L1, by a read: an agent that holds it dirty
gives its data to the host and keeps the line shared. -/
def fetchHost (s : State) (c pa : Nat) : State :=
  let line := (pa - 0x80000000000) / 64
  let die := coreDie c
  let key := hostKey s line
  let v := hostLineNow s (line * 64)
  let l1 := fun (s : State) => if Map.has (s.core c).l1 key then touchL1 s c key
    else fillL1 s c key { st := .s, kind := .hostCoherent, data := [] }
  match Map.get? s.hostLines (2 ^ 40 * die + line) with
  | some l =>
    let l : CLine := { l with leaves := insertNat c l.leaves }
    l1 { s with hostLines := Map.set s.hostLines (2 ^ 40 * die + line) l }
  | none =>
    let s := if s.hostLines.any (fun x => x.1 % 2 ^ 40 = line && x.2.st = .m) then
        { s with
          host := Mem.writeN s.host (line * 64) v.1
          hostLines := s.hostLines.map (fun x =>
            if x.1 % 2 ^ 40 = line then (x.1, { x.2 with st := .s, owner := none }) else x) }
      else s
    let s := hostRoom s die
    let l : CLine := { st := .s, kind := .hostCoherent, data := v.1, poison := v.2, leaves := [c] }
    l1 { s with hostLines := Map.set s.hostLines (2 ^ 40 * die + line) l }

/-! ## Wakes (R128, R130, R197, R304) -/

/-- R128: the line of a place, as a watch store keeps it. -/
def lineOf : Place → Place
  | .spad c off => .spad c (off / 64 * 64)
  | .cw p off => .cw p (off / 64 * 64)
  | .dev off => .dev off
  | .page k pkg pa => .page k pkg (pa / 64 * 64)

/-- R197: a BAR sleeper reads the phase again. -/
def barWake (s : State) (c slot : Nat) : State :=
  match s.thread? c slot with
  | some t =>
    match t.wait with
    | .bar d place p =>
      let ph := leWord (readPlace s c place 8).1
      if ph = p then s
      else
        let s := { s with watches :=
          s.watches.filter (fun w => !(w.thread = ⟨c, slot⟩ && w.kind = .bar)) }
        finishWait (writeG s c slot d ph) c slot
    | _ => s
  | none => s

/-- What a write to a watched line does to one watcher. -/
def wakeOne (s : State) (w : Watch) : State :=
  let c := w.thread.core
  let slot := w.thread.slot
  match w.kind with
  | .watch =>
    match s.thread? c slot with
    | some t =>
      match t.wait with
      | .sleep d =>
        let s := s.setThread c slot { t with latch := false }
        finishWait (writeG s c slot d 0#64) c slot
      | _ => s.setThread c slot { t with latch := true }
    | none => s
  | .waitge => s.post (.waitgeRecheck c slot)
  | .bar => barWake s c slot
  | .fe => s
  | .dep lid => s.post (.dependenceReady lid)

def wakeList (s : State) : List Watch → State
  | [] => s
  | w :: ws => wakeList (wakeOne s w) ws

/-- R128: one write wakes every watcher of the line. -/
def wakeLine (s : State) (p : Place) : State :=
  wakeList s (s.watches.filter (fun w => w.place = lineOf p && w.kind != .fe))

/-! ## Writes in one act -/

/-- R375: the poisoned words of a scratchpad after a write. -/
def spadMark (k : Core) (off : Nat) (bytes : List Byte) (poison : Bool) : Core :=
  let words := (List.range ((off % 8 + bytes.length + 7) / 8)).map (off / 8 + ·)
  if poison then { k with poisonW := words.foldl (fun l w => insertNat w l) k.poisonW }
  else { k with poisonW := k.poisonW.filter (fun w =>
    !(words.contains w && decide (off ≤ 8 * w) && decide (8 * w + 8 ≤ off + bytes.length))) }

/-- A write at a place in one act, with the wake of its line. The piece lies within one line. On a page of
another package nothing is written here. -/
def writePlace (s : State) (c : Nat) (p : Place) (bytes : List Byte) (poison : Bool) : State :=
  match p with
  | .spad k off =>
    let s := s.modCore k (fun x => spadMark { x with spad := Mem.writeN x.spad off bytes } off bytes poison)
    wakeLine s p
  | .cw port off =>
    wakeLine (s.modPort port (fun x => { x with replica := Mem.writeN x.replica off bytes })) p
  | .dev _ => s
  | .page kind pkg pa =>
    match kind with
    | .priv =>
      let base := pa / 64 * 64
      let l := privLine s c base
      (fetchPriv s c base).modCore c (fun k => { k with l1 := Map.modify k.l1 (lineKey s base) (fun x =>
        { x with st := .m, data := patch l.1 (pa - base) bytes
                 poison := poison || (l.2 && bytes.length != 64) }) })
    | .hostCoherent =>
      let h := pa - 0x80000000000
      let l := hostLineNow s (h / 64 * 64)
      let line : CLine := { st := .m, kind := .hostCoherent, data := patch l.1 (h % 64) bytes,
                            poison := poison || (l.2 && bytes.length != 64), owner := some c,
                            leaves := [c] }
      wakeLine (holdHost s (coreDie c) (h / 64) line) p
    | .hostNoncoherent => { s with host := Mem.writeN s.host (pa - 0x40000000000) bytes }
    | .device => s
    | .coherent | .readShared =>
      let s := recallAll s pa
      wakeLine (clearFl (writeHome s pa bytes poison) (pa / 64)) (.page .coherent pkg pa)
    | .remotePosted =>
      if pkg = s.pkg then
        let s := recallAll s pa
        wakeLine (clearFl (writeHome s pa bytes poison) (pa / 64)) (.page .coherent pkg pa)
      else s

/-- Bytes cut at line boundaries, with the offset of each piece. -/
def pieces (a : Nat) (bytes : List Byte) : List (Nat × List Byte) :=
  (List.range ((a % 64 + bytes.length + 63) / 64)).map (fun i =>
    let lo := if i = 0 then 0 else (a / 64 + i) * 64 - a
    let hi := Nat.min bytes.length ((a / 64 + i + 1) * 64 - a)
    (lo, (bytes.drop lo).take (hi - lo)))

/-- The place an offset further on. -/
def Place.add (p : Place) (n : Nat) : Place :=
  match p with
  | .spad c off => .spad c (off + n)
  | .cw q off => .cw q (off + n)
  | .dev off => .dev (off + n)
  | .page k pkg pa => .page k pkg (pa + n)

/-- The number whose remainder modulo 64 is that of the place. -/
def Place.off : Place → Nat
  | .spad _ off => off
  | .cw _ off => off
  | .dev off => off
  | .page _ _ pa => pa

def writePieces (s : State) (c : Nat) (p : Place) (poison : Bool) : List (Nat × List Byte) → State
  | [] => s
  | (o, bs) :: l => writePieces (writePlace s c (p.add o) bs poison) c p poison l

/-- Bytes of any length written at a place, line by line. -/
def writeBytes (s : State) (c : Nat) (p : Place) (bytes : List Byte) (poison : Bool) : State :=
  writePieces s c p poison (pieces p.off bytes)

/-! ## Writes that wait at a home (R346, R349) -/

/-- R346, R349: whether a write that reaches a line waits in the line's queue. -/
def homeBusy (e : DirEntry) : Bool := e.st = .o || e.st = .b || !e.pins.isEmpty || !e.queue.isEmpty

/-- R231, R346, R349: a write of a core's at a place, in one act, or once the line lets it: its bytes then wait in the
line's queue. The piece lies within one line. -/
def storeAt (s : State) (c : Nat) (p : Place) (bytes : List Byte) (poison : Bool) : State :=
  match p with
  | .page .coherent _ pa =>
    let e := dirOf s (pa / 64)
    if homeBusy e then
      setDir s (pa / 64) { e with queue := e.queue ++
        [{ mkMsg s .write (pa / 64) c with data := some bytes, poison := poison, off := pa % 64 }] }
    else writePlace s c p bytes poison
  | _ => writePlace s c p bytes poison

def storePieces (s : State) (c : Nat) (p : Place) (poison : Bool) : List (Nat × List Byte) → State
  | [] => s
  | (o, bs) :: l => storePieces (storeAt s c (p.add o) bs poison) c p poison l

/-- Bytes of any length written so, line by line. -/
def storeBytes (s : State) (c : Nat) (p : Place) (bytes : List Byte) (poison : Bool) : State :=
  storePieces s c p poison (pieces p.off bytes)

end Sys2Proof.Machine
end

