-- ==== Sys2Proof/Machine/Translate.lean ====
section
/-!
DEFINITION. Translate.lean: the class of an address (R105), translation by walk and waystation (R327 to
R330), and the checks of an access, orders 2 to 5 of R107.
-/
namespace Sys2Proof.Machine
open Sys2Proof

/-- What an access is to the checks of R105 to R107. `record` is the 64-byte write of a fault record (R26);
`ldq` an LDQ; `ld1` the load of one byte that MIGR checks; `range` a range operation, which needs no permission to
store; `cell own` a join cell or a barrier object, which may lie in the own scratchpad when `own` (R193, R197);
`amo sup` an atomic, `sup` when PCIe has an AtomicOp for it (R123). -/
inductive AKind where
  | ld | st | ldd | std | ldq
  | amo (sup : Bool)
  | fe | watch | wait | range | record | ld1
  | cell (own : Bool)
  deriving DecidableEq, Repr

def AKind.writes : AKind → Bool
  | .st | .std | .amo _ | .record | .cell _ => true
  | _ => false

/-- R28: the fault codes. -/
def fcIllegal : BitVec 16 := 0x0001
def fcMisalign : BitVec 16 := 0x0002
def fcXfetch : BitVec 16 := 0x0003
def fcPage : BitVec 16 := 0x0004
def fcProt : BitVec 16 := 0x0005
def fcWatchLimit : BitVec 16 := 0x0006
def fcScale : BitVec 16 := 0x0007
def fcZcorr : BitVec 16 := 0x0008
def fcZlen : BitVec 16 := 0x0009
def fcAuth : BitVec 16 := 0x000A
def fcAmoUnsup : BitVec 16 := 0x000B
def fcReglimit : BitVec 16 := 0x000C
def fcVclaim : BitVec 16 := 0x000D
def fcEngine : BitVec 16 := 0x000E
def fcLease : BitVec 16 := 0x000F
def fcRestoreFit : BitVec 16 := 0x0010
def fcLockstep : BitVec 16 := 0x0011
def fcPoison : BitVec 16 := 0x0012
def fcRsWrite : BitVec 16 := 0x0013
def fcMigrfit : BitVec 16 := 0x0014
def fcBreak : BitVec 16 := 0x0015
def fcStep : BitVec 16 := 0x0016

/-- A fault of the instruction issued last; word 4 is filled in when it is taken. -/
def mkFault (code : BitVec 16) (addr extra : Word) : FaultInfo :=
  { code := code, addr := addr, word := 0#32, extra := extra, flags := 0#16 }

/-- R28: PROT with its sub-code. -/
def prot (addr : Word) (sub : Nat) : FaultInfo := mkFault fcProt addr (BitVec.ofNat 64 sub)

/-- R105: the class of an address, before any check of what is done there. -/
inductive AClass where
  | own (off : Nat)
  | cluster (idx off : Nat)
  | cw (port off : Nat)
  | dev (off : Nat)
  | paged
  | none
  deriving DecidableEq, Repr

def classOf (va : Word) : AClass :=
  let a := va.toNat
  if a < 0x20000 then .own a
  else if 0x100000000 ≤ a ∧ a < 0x101000000 then
    .cluster ((a - 0x100000000) / 0x20000) ((a - 0x100000000) % 0x20000)
  else if 0x200000000 ≤ a ∧ a < 0x200400000 then
    .cw ((a - 0x200000000) / 0x100000) ((a - 0x200000000) % 0x100000)
  else if 0x300000000 ≤ a ∧ a < 0x301000000 then .dev (a - 0x300000000)
  else if 0x10000000000 ≤ a then .paged
  else .none

/-- R384: the member of a pair that holds its scratchpad: the lead. -/
def leadOf (s : State) (q : Nat) : Nat :=
  match (s.core q).lock with
  | some L => if L.odd then L.partner else q
  | none => q

/-- R216, R322: the physical core of index `idx` in the logical cluster of a core. -/
def peerOf (s : State) (c idx : Nat) : Option Nat :=
  match (s.core c).owner with
  | some (p, l) => ((s.part p).ctab[l / 128 * 128 + idx]?).map (leadOf s)
  | none => if idx = 0 then some c else none

/-- R384: the undo log of a paired core. -/
def undoRegion (k : Core) (off : Nat) : Bool := k.lock.isSome && decide (0x1E000 ≤ off)

/-- R107 order 2: the place of an address that is not translated, or `none` for a translated one. -/
def checkClass (s : State) (c part : Nat) (va : Word) (k : AKind) : Except FaultInfo (Option Place) :=
  match classOf va with
  | .own off =>
    if k = .cell false then .error (prot va 3)
    else if off < (s.core c).xb then .error (prot va 2)
    else if undoRegion (s.core c) off then .error (prot va 1)
    else .ok (some (.spad c off))
  | .cluster idx off =>
    match peerOf s c idx with
    | none => .error (prot va 1)
    | some q =>
      if off < (s.core q).xb then .error (prot va 2)
      else if undoRegion (s.core q) off then .error (prot va 1)
      else .ok (some (.spad q off))
  | .cw p off =>
    let x := s.port p
    if x.state != .member || x.owner != some part then .error (prot va 1)
    else match k with
      | .ld | .ldd | .watch | .wait | .range | .ld1 => .ok (some (.cw p off))
      | _ => .error (prot va 3)
  | .dev off =>
    match k with
    | .ldd | .std | .watch => .ok (some (.dev off))
    | .fe | .wait | .cell _ => .error (prot va 3)
    | _ => .error (prot va 4)
  | .paged => if k = .fe then .error (prot va 3) else .ok none
  | .none => .error (prot va 1)

/-! ## Walks -/

/-- R327, R329: a 64-bit table entry, read as a coherent read at its home. -/
def readEntry (s : State) (pa : Nat) : Nat :=
  leNat (slice (lineNow s (pa / 64 * 64)).1 (pa % 64) 8)

/-- R328: the page kind of a leaf. -/
def kindOf (n : Nat) : Option PageKind :=
  match n with
  | 0 => some .priv
  | 1 => some .readShared
  | 2 => some .coherent
  | 3 => some .remotePosted
  | 4 => some .device
  | 5 => some .hostCoherent
  | 6 => some .hostNoncoherent
  | _ => none

/-- R328: the leaf that an entry is at a level that maps 2^bits bytes; none when it is malformed. -/
def leafOf (s : State) (part proc va e bits : Nat) : Option Tlb :=
  let pkg := bitsOf e 50 14
  let frame := bitsOf e 16 34 * 2 ^ 16
  match kindOf (bitsOf e 13 3) with
  | none => none
  | some kind =>
    let noamo := bitsOf e 11 1 = 1
    if bitsOf e 8 3 != 0 || bitsOf e 3 5 != 0 || frame % 2 ^ bits != 0 ||
        (kind = .remotePosted && pkg = s.pkg) || (kind != .remotePosted && pkg != s.pkg) ||
        (noamo && kind != .hostNoncoherent) then none
    else some { part := part, proc := proc, page := va / 2 ^ bits, bits := bits, pkg := pkg,
                frame := frame, kind := kind, mig := bitsOf e 12 1 = 1, noamo := noamo,
                w := bitsOf e 1 1 = 1 }

/-- R327: the levels: the lowest index bit and the number of index bits. -/
def levelBits (lvl : Nat) : Nat × Nat :=
  match lvl with
  | 1 => (39, 9)
  | 2 => (30, 9)
  | 3 => (21, 9)
  | _ => (16, 5)

/-- R327: the process table of a partition, and its number of entries. -/
def procTable (s : State) (part : Nat) : Nat × Nat :=
  let words := (s.part part).words
  let n := bitsOf ((Map.get? words 0).getD 0#64).toNat 48 16
  (((Map.get? words 3).getD 0#64).toNat, if n = 0 then 65536 else n)

/-- R327: whether a walk fails before it reads anything. -/
def noWalk (s : State) (part proc va : Nat) : Bool := va / 2 ^ 48 != 0 || decide ((procTable s part).2 ≤ proc)

/-- R329: the address of the entry that a walk reads next, if it reads one. -/
def walkReads (s : State) (part proc va : Nat) : WalkPos → Option Nat
  | .start => if noWalk s part proc va then none else some ((procTable s part).1 + 8 * proc)
  | .table lvl a => some (a + 8 * bitsOf va (levelBits lvl).1 (levelBits lvl).2)
  | _ => none

/-- R327 to R329: what an entry of a level makes of a walk. -/
def walkEntry (s : State) (part proc va lvl e : Nat) : WalkPos :=
  if e % 2 = 0 then .fails lvl
  else if bitsOf e 2 1 = 1 then
    if lvl = 1 then .fails lvl
    else match leafOf s part proc va e (levelBits lvl).1 with
      | some t => .leaf t
      | none => .fails lvl
  else if lvl = 4 || bitsOf e 50 14 != 0 || bitsOf e 3 5 != 0 || bitsOf e 1 1 != 0 then .fails lvl
  else .table (lvl + 1) (bitsOf e 16 34 * 2 ^ 16 + bitsOf e 8 8 * 2 ^ 8)

/-- R329: a walk reads its next entry. -/
def walkStep (s : State) (part proc va : Nat) (w : WalkPos) : WalkPos :=
  match w, walkReads s part proc va w with
  | .start, none => .fails 1
  | .start, some a =>
    let e := readEntry s a
    if e % 2 = 0 then .fails 1 else .table 1 (bitsOf e 12 38 * 2 ^ 12)
  | .table lvl _, some a => walkEntry s part proc va lvl (readEntry s a)
  | w, _ => w

/-- R329: a walk taken to its end: five reads at most. -/
def walkRun (s : State) (part proc va : Nat) (w : WalkPos) : WalkPos :=
  let step := walkStep s part proc va
  step (step (step (step (step w))))

/-- R328, R329: the end of a walk as a request receives it. -/
def walkEnd (va : Word) (write : Bool) : WalkPos → Except FaultInfo Tlb
  | .leaf t => .ok t
  | .fails lvl => .error (mkFault fcPage va (BitVec.ofNat 64 (lvl + if write then 256 else 0)))
  | _ => .error (mkFault fcPage va (BitVec.ofNat 64 (4 + if write then 256 else 0)))

/-- R327 to R329: the walk of a page, in one act. -/
def walk (s : State) (part proc : Nat) (va : Word) (write : Bool) : Except FaultInfo Tlb :=
  walkEnd va write (walkRun s part proc va.toNat .start)

/-- R330: a cached translation of an address. -/
def tlbFind (l : List Tlb) (part proc : Nat) (va : Word) : Option Tlb :=
  l.find? (fun t => t.part = part && t.proc = proc && t.page = va.toNat / 2 ^ t.bits &&
    va.toNat / 2 ^ 48 = 0)

def wsOf (s : State) (w : Nat) : List Tlb := (Map.get? s.ws w).getD []

/-- R330: a successful translation is cached; a full cache gives up its oldest. -/
def tlbAdd (s : State) (w : Nat) (t : Tlb) : State :=
  { s with ws := Map.set s.ws w ((t :: (wsOf s w).filter (· != t)).take 16384) }

/-- R330, R331: the walk of a page in progress at a waystation that no invalidation has met. -/
def walkOf (s : State) (w part proc : Nat) (va : Word) : Option Walk :=
  s.walks.find? (fun k => k.ws = w && k.part = part && k.proc = proc && !k.marked &&
    k.va.toNat / 2 ^ 16 = va.toNat / 2 ^ 16)

/-- R329, R330: an address translated at a waystation in one act: it joins a walk of its page that is in progress, which
goes to its end, or has one of its own. -/
def translate (s : State) (w part proc : Nat) (va : Word) (write : Bool) :
    State × Except FaultInfo Tlb :=
  match tlbFind (wsOf s w) part proc va with
  | some t => (s, .ok t)
  | none =>
    let k := walkOf s w part proc va
    let e := walkRun s part proc va.toNat (match k with | some k => k.pos | none => .start)
    let s := match k with
      | some k => { s with walks := s.walks.map (fun x => if x.id = k.id then { x with pos := e } else x) }
      | none => s
    match walkEnd va write e with
    | .ok t => (tlbAdd s w t, .ok t)
    | .error f => (s, .error f)

/-- R329: the package-local address of a translated address. -/
def Tlb.pa (t : Tlb) (va : Word) : Nat := t.frame + va.toNat % 2 ^ t.bits

/-! ## Checks of a translated access -/

/-- R323: whether a partition's route table lets it reach a package; with none, only its own. -/
def reach (s : State) (part pkg : Nat) : Bool :=
  let rtab := ((Map.get? (s.part part).words 2).getD 0#64).toNat
  if rtab = 0 then pkg = s.pkg
  else ((lineNow s ((rtab + pkg) / 64 * 64)).1.getD ((rtab + pkg) % 64) 0#8).getLsbD 0

/-- R355: whether a leaf of this kind may name the address. -/
def rangeOk (s : State) (kind : PageKind) (pkg pa : Nat) : Bool :=
  match kind with
  | .priv | .readShared | .coherent => populated s pa
  | .remotePosted =>
    if pkg = s.pkg then populated s pa
    else pa < 0x14000000000 || (decide (0x20000000000 ≤ pa) && pa < 0x40000000000)
  | .hostNoncoherent => decide (0x40000000000 ≤ pa) && pa < 0x80000000000
  | .hostCoherent => decide (0x80000000000 ≤ pa) && pa < 0xC0000000000
  | .device => decide (0xC0000000000 ≤ pa) && pa < 0xC0001000000

/-- R106, R107 orders 4 and 5, R323, R355, R361: the place of a translated access. -/
def checkPage (s : State) (part : Nat) (va : Word) (k : AKind) (t : Tlb) : Except FaultInfo Place :=
  let pa := t.pa va
  if (k = .cell false || k = .cell true) && t.kind != .coherent then .error (prot va 3)
  else if t.kind = .readShared && k.writes then .error (mkFault fcRsWrite va 0#64)
  else if !rangeOk s t.kind t.pkg pa || !reach s part t.pkg ||
      (k.writes && !t.w) || (t.kind = .hostCoherent && s.plat.cxlDown) ||
      (t.kind = .hostNoncoherent && s.plat.pcieDown) then .error (prot va 3)
  else match t.kind with
    | .device =>
      match k with
      | .ldd | .std | .watch | .range => .ok (.dev (pa - 0xC0000000000))
      | .wait | .record => .error (prot va 3)
      | _ => .error (prot va 4)
    | .hostNoncoherent =>
      match k with
      | .amo sup =>
        if sup && !t.noamo then .ok (.page t.kind t.pkg pa) else .error (mkFault fcAmoUnsup va 0#64)
      | .wait => .error (prot va 3)
      | _ => .ok (.page t.kind t.pkg pa)
    | .coherent | .hostCoherent => .ok (.page t.kind t.pkg pa)
    | _ => if k = .wait then .error (prot va 3) else .ok (.page t.kind t.pkg pa)

/-- Orders 2 to 5 of R107 in one act, for a thread's partition and process on a core: the place, and
whether its page has the migrate attribute. -/
def resolve (s : State) (c part proc : Nat) (va : Word) (k : AKind) :
    State × Except FaultInfo (Place × Bool) :=
  match checkClass s c part va k with
  | .error f => (s, .error f)
  | .ok (some p) => (s, .ok (p, false))
  | .ok none =>
    match translate s (coreWs s c) part proc va k.writes with
    | (s', .error f) => (s', .error f)
    | (s', .ok t) => match checkPage s' part va k t with
      | .error f => (s', .error f)
      | .ok p => (s', .ok (p, t.mig))

end Sys2Proof.Machine
end

