-- ==== Sys2Proof/Machine/Ops.lean ====
section
/-!
DEFINITION. Ops.lean: what the meanings share: work identifiers (R238), taking a fault (R26, R27), the
return from one (TSTART, R201), lock-step commits (R385), and the issue of an instruction up to its own
effect (R18, R20, R62, R63, R112, R113, R188).
-/
namespace Sys2Proof.Machine
open Sys2Proof

/-! ## Work identifiers (R238) -/

/-- The value of field i of a WID. -/
def widField (h : Header) (wid : Word) (i : Nat) : Nat :=
  bitsOf wid.toNat (h.widths.take i).sum (h.widths.getD i 0)

/-- Σ f_i × Π e_j over the fields listed, in ascending order. -/
def widIndex (h : Header) (wid : Word) (fields : List Nat) : Nat :=
  (fields.foldl (fun (acc : Nat × Nat) i =>
    (acc.1 + widField h wid i * acc.2, acc.2 * h.extents.getD i 1)) (0, 1)).1

/-- The band index: the fields other than tfield and gfield. -/
def bandIndex (h : Header) (wid : Word) : Nat :=
  widIndex h wid ((List.range h.count).filter (fun i => i != h.tfield && i != h.gfield))

/-- The index of a group in its launch: the fields other than tfield. -/
def groupIndex (h : Header) (wid : Word) : Nat :=
  widIndex h wid ((List.range h.count).filter (· != h.tfield))

def State.launch? (s : State) (lid : Nat) : Option Launch := Map.get? s.launches lid
def State.group? (s : State) (gid : Nat) : Option Group := Map.get? s.groups gid

def State.modGroup (s : State) (gid : Nat) (f : Group → Group) : State :=
  { s with groups := Map.modify s.groups gid f }

def State.modLaunch (s : State) (lid : Nat) (f : Launch → Launch) : State :=
  { s with launches := Map.modify s.launches lid f }

/-- R26: the line of a thread's launch at which it reports when FLINE is 0. -/
def launchLine (s : State) (t : Thread) : Word :=
  match s.launch? t.lid with
  | some l => l.hdr.fline + BitVec.ofNat 64 (64 * groupIndex l.hdr t.wid)
  | none => 0#64

/-! ## Packets to other packages (R363) -/

/-- A posted write sent, not yet performed at its target; its number is `s.fresh`. -/
def sendPosted (s : State) (addr part : Nat) (ms : Option Nat) (data : List Byte) (poison : Bool)
    (thread : Option TRef) (cmd : Option Nat) : State :=
  let lid := match cmd.bind (fun i => Map.get? s.cmds i), thread with
    | some c, _ => c.lid
    | none, some r => ((s.thread? r.core r.slot).map (·.lid)).getD 0
    | none, none => 0
  let p : FabricPacket := { id := s.fresh, kind := 0, addr := addr, part := part, size := data.length,
                            data := data, ms := ms, poison := poison, thread := thread, cmd := cmd, lid := lid }
  ({ s with out := Map.set s.out s.fresh p }.bump).post (.postedWriteArrive s.fresh)

/-! ## Faults (R26 to R28) -/

/-- R27: the 64 bytes of a fault record. -/
def recordBytes (handle pc wid seq : Word) (f : FaultInfo) : List Byte :=
  wordBytes (BitVec.ofNat 64 (f.code.toNat + 65536 * f.flags.toNat)) ++ wordBytes handle ++
    wordBytes pc ++ wordBytes f.addr ++ wordBytes (f.word.zeroExtend 64) ++ wordBytes f.extra ++
    wordBytes wid ++ wordBytes seq

/-- R26: a record written as one line write at a place a record may lie. -/
def putRecord (s : State) (c part : Nat) (p : Place) (bytes : List Byte) : State :=
  match p with
  | .page .remotePosted pkg pa => sendPosted s (domAddr pkg pa) part none bytes false none none
  | .page .hostNoncoherent pkg pa =>
    let s := writePlace s c (.page .hostNoncoherent pkg (pa + 8)) (bytes.drop 8) false
    writePlace s c (.page .hostNoncoherent pkg pa) (bytes.take 8) false
  | _ => storeAt s c p bytes false

/-- R26, R380: order 7 of R107 for a record's write: a fenced core answers an access of a peer with POISON. -/
def recordRefused (s : State) (c : Nat) (p : Place) : Bool :=
  match p with
  | .spad q _ => q != c && (s.core q).fenced
  | _ => false

/-- R26: the checks of a record's write at a line: its place, when it passes them. -/
def recordPlace (s : State) (c : Nat) (t : Thread) (line : Word) : State × Option Place :=
  match resolve s c t.part t.proc line .record with
  | (s, .ok (p, _)) => (s, if recordRefused s c p then none else some p)
  | (s, .error _) => (s, none)

/-- R26: the record is written at FLINE, or at the launch fault line, or is lost. -/
def writeRecord (s : State) (c slot : Nat) (t : Thread) (pc : Word) (f : FaultInfo) : State :=
  let line := if t.fline = 0#64 then launchLine s t else t.fline
  let bytes := fun f => recordBytes (handleOf s c slot) pc t.wid t.faults f
  match recordPlace s c t line with
  | (s1, some p) => putRecord s1 c t.part p (bytes f)
  | (s1, none) =>
    match recordPlace s1 c t (launchLine s t) with
    | (s2, some p) => putRecord s2 c t.part p (bytes { f with flags := f.flags ||| 2#16 })
    | (s2, none) =>
      logEvent s2 (coreBank c) t.part 2 0x8006#16 line (handleOf s c slot) (f.code.zeroExtend 64)
        (cycWord s c)

/-- R116, R130: the registrations of a thread's waits are withdrawn; its watches stay. -/
def dropWaits (s : State) (c slot : Nat) : State :=
  postEntries { s with
    watches := s.watches.filter (fun w =>
      !(w.thread = ⟨c, slot⟩ && (w.kind = .fe || w.kind = .waitge || w.kind = .bar)))
    entryWait := s.entryWait.filter (fun x => x.1 != ⟨c, slot⟩) }

/-- R20: the reservations of a thread end when its instruction issues. -/
def settle (k : Core) (slot : Nat) : Core :=
  { k with rc := k.rc.map (fun x => if x.1 / 128 = slot && x.2 = .reserved then (x.1, .present false) else x) }

/-- R20: entries have come free for the first fill request that waits. -/
def postFill (s : State) (c : Nat) : State :=
  if (s.core c).fillq.isEmpty then s else s.post (.registerFillAdmit c)

/-- R26: the thread becomes FAULTED with its pc at `pc`; its fault counter is incremented; the record is
written. SSTOP and HOLD are kept (R16), and the reservations of its instruction end (R20). MODEL'S CHOICE (log
entry 78): the time for which it has been STOPPED or FAULTED (R22) counts from here, also when it was STOPPED. -/
def enterFault (s : State) (c slot : Nat) (pc : Word) (f : FaultInfo) : State :=
  match s.thread? c slot with
  | none => s
  | some t =>
    let t := { t with code := .faulted, pc := pc, wait := .idle, faults := t.faults + 1#64,
                      stepping := none, slept := false, since := (s.core c).cyc }
    let s := postCtx ((dropWaits (s.setThread c slot t) c slot).modCore c (fun k => settle (leaveRot k slot) slot)) c
    let s := postFill (postWaiting s) c
    writeRecord s c slot t pc f

/-- TAKING A FAULT (R26): the instruction issued last has no effect, and the pc holds it. A consumption of
poison is logged (R375). -/
def takeFault (s : State) (c slot : Nat) (f : FaultInfo) : State :=
  match s.thread? c slot with
  | none => s
  | some t =>
    let s := if f.code = fcPoison then
        logEvent s (coreBank c) t.part 2 0x8005#16 f.addr (handleOf s c slot) 0#64 (cycWord s c)
      else s
    enterFault s c slot t.ipc (if f.flags.getLsbD 0 then f else { f with word := t.iword })

/-- R203: a stepped instruction is complete: the thread faults STEP at the next instruction. -/
def stepFault (s : State) (c slot : Nat) : State :=
  match s.thread? c slot with
  | none => s
  | some t =>
    match t.stepped with
    | none => s
    | some w => enterFault s c slot t.pc { mkFault fcStep 0#64 0#64 with word := w }

/-! ## Leaving STOPPED and FAULTED (R15, R16, R201) -/

/-- Whether an operation is outstanding (R16), other than a sleep. -/
def outstanding : Wait → Bool
  | .idle => false
  | .sleep _ | .bar _ _ _ => false
  | .waitge _ _ _ _ _ e => !e
  | .fe _ _ _ _ _ e => !e
  | _ => true

/-- Whether the wait is one of SLEEPING. -/
def sleeps : Wait → Bool
  | .sleep _ | .bar _ _ _ => true
  | .waitge _ _ _ _ _ e => e
  | .fe _ _ _ _ _ e => e
  | _ => false

/-- A thread that is READY again takes a place in the queue, or waits for its fill when it is away (R23). -/
def readyOrFill (s : State) (c slot : Nat) : State :=
  match s.thread? c slot with
  | some t => wakeUp s c slot t
  | none => s

/-- R203: what stepping is in force for a thread that leaves STOPPED or FAULTED: with its step flag set one
instruction is to issue, unless the one being stepped is still to complete. -/
def armed (t : Thread) : Option (Option (BitVec 32)) :=
  if t.step then (if t.stepped.isSome then t.stepping else some none) else none

/-- THE RETURN FROM A FAULT (R15, R201, R203): a FAULTED thread that is started becomes READY at the pc in
its context. -/
def restart (s : State) (c slot : Nat) : State :=
  readyOrFill (s.modThread c slot (fun t => { t with stepping := armed t })) c slot

/-- R15: a STOPPED thread with SSTOP and HOLD clear becomes WAITING, SLEEPING or READY; WAKE is cleared. A thread
whose context is in the lay-by stays there while it waits. MODEL'S CHOICE (log entry 78): a stopped sleeper in the
lay-by becomes SPILLED, which is SLEEPING with AWAY set; and the time for which it has slept (R22) counts from its
stop. -/
def unstop (s : State) (c slot : Nat) : State :=
  match s.thread? c slot with
  | none => s
  | some t =>
    if t.code != .stopped || t.sstop || t.hold then s
    else
      let s := s.setThread c slot { t with wake := false, stepping := armed t }
      if outstanding t.wait || (armed t).any Option.isSome then
        s.modThread c slot (fun t => { t with code := .waiting, slept := false })
      else if sleeps t.wait && !t.wake then
        s.modThread c slot (fun t =>
          { t with code := if t.away then .spilled else .sleeping, slept := false })
      else readyOrFill s c slot

/-- R15, R16: SSTOP or HOLD has been set: a READY, RUNNING, WAITING, SLEEPING or SPILLED thread becomes
STOPPED at once and gives up its position. -/
def stopThread (s : State) (c slot : Nat) : State :=
  match s.thread? c slot with
  | none => s
  | some t =>
    match t.code with
    | .ready | .running | .waiting | .sleeping | .spilled =>
      let asleep := t.code = .sleeping || (t.code = .spilled && sleeps t.wait)
      postCtx ((s.setThread c slot { t with code := .stopped, slept := asleep, since := (s.core c).cyc }).modCore c
        (fun k => { leaveRot k slot with ctxWait := k.ctxWait.filter (· != .fill slot) })) c
    | _ => s

/-! ## Lock-step commits (R385) -/

/-- R365: the milestone that a thread's posted store to a package carries. -/
def msFor (t : Thread) (pkg : Nat) : Option Nat := t.pmsPhys.filter (fun a => a / 2 ^ 50 = pkg)

/-- R218, R229: a write of a core's thread to a line of another package: the copy that its L1 holds is
updated, and the one in its die's RDC dropped, so that the thread reads its own write or a later one. -/
def ownWrite (s : State) (c pkg pa : Nat) (bytes : List Byte) : State :=
  let key := domAddr pkg pa / 64
  let s := s.modCore c (fun k => { k with
    l1 := Map.modify k.l1 key (fun l => { l with data := patch l.data (pa % 64) bytes }) })
  setRdc s (coreDie c) (Map.erase (rdcOf s (coreDie c)) key)

/-- R106, R365: a thread's posted store, accepted by the fabric port; a relaxed one with its number. -/
def postStore (s : State) (r : TRef) (rid : Option Nat) (pkg pa : Nat) (bytes : List Byte) : State :=
  match s.thread? r.core r.slot with
  | none => s
  | some t =>
    let s' := sendPosted (ownWrite s r.core pkg pa bytes) (domAddr pkg pa) t.part (msFor t pkg) bytes false (some r) none
    { s' with out := Map.modify s'.out s.fresh (fun x => { x with rid := rid }) }

/-- R236: a held write is performed. -/
def releaseWrite (s : State) (r : TRef) (p : Place) (bs : List Byte) : State :=
  match p with
  | .page .remotePosted pkg pa => postStore s r none pkg pa bs
  | _ => storeBytes s r.core p bs false

/-- R236: the held writes are performed in program order. -/
def releaseHeld (s : State) : List (TRef × Place × List Byte) → State
  | [] => s
  | (r, p, bs) :: l => releaseHeld (releaseWrite s r p bs) l

/-- R385: a commit of a paired core; nothing on any other. -/
def commitPair (s : State) (c : Nat) : State :=
  match (s.core c).lock with
  | none => s
  | some L =>
    let s := releaseHeld s L.held
    let s := s.modCore c (fun k => { k with lock := some { L with
      held := [], undo := [], snap := k.threads, count := (L.count + 1) % 2 ^ 32,
      mismatches := 0, since := k.cyc } })
    if (s.core c).guests.isEmpty then s else s.post (.guestAccess c)

/-- R385: the commit before an instruction of R236, and the mark for the one after it. -/
def commitBefore (s : State) (c slot : Nat) : State :=
  if (s.core c).lock.isNone then s
  else (commitPair s c).modCore c (fun k => { k with lock := k.lock.map (fun L =>
    { L with after := L.after ++ [slot] }) })

/-! ## Issue -/

/-- What an instruction names, as far as its issue depends on it. Register numbers in `reads` and `writes`
are g registers; `pw` tells whether the body reads the predicate word. -/
structure Desc where
  guard : BitVec 3
  len : Nat := 4
  /-- R18: the g, v and z fields checked against the declared counts, in the order of the encoding. -/
  g : List Nat := []
  v : List Nat := []
  z : List Nat := []
  reads : List Nat := []
  writes : List Nat := []
  pw : Bool := false
  vreads : List Nat := []
  vwrites : List Nat := []
  zreads : List Nat := []
  /-- R124, R153, R188: waits for the thread's earlier relaxed accesses. -/
  drain : Bool := false
  /-- R236: a lock-step pair commits before it. -/
  commit : Thread → Bool := fun _ => false
  /-- R20: the register for which a relaxed load is to get an entry of the register cache. -/
  alloc : Thread → Option Nat := fun _ => none

/-- The thread whose turn it is: the occupant of the present position of the core `turn`. -/
def current (s : State) : Option (Nat × Nat × Thread) :=
  let k := s.core s.turn
  match Map.get? k.rot (k.cyc % 16) with
  | none => none
  | some slot => match Map.get? k.threads slot with
    | none => none
    | some t => some (s.turn, slot, t)

/-- R63: of the fields that are past the count, the one whose index the record has. -/
def limitPick (w : BitVec 32) (rs : List Nat) : Nat := rs.getD (Config.limitField w % rs.length) 0

/-- R18, R63 orders 4 and 5. -/
def limitFault (t : Thread) (d : Desc) : Option FaultInfo :=
  match d.g.filter (fun r => t.n ≤ r), d.v.filter (fun r => t.m ≤ r), d.z.filter (fun r => t.zc ≤ r) with
  | [], [], [] => none
  | [], [], z :: zs =>
    some (mkFault fcVclaim 0#64 (BitVec.ofNat 64 (limitPick t.iword (z :: zs) + 512 + 65536 * t.zc)))
  | [], v :: vs, _ =>
    some (mkFault fcVclaim 0#64 (BitVec.ofNat 64 (limitPick t.iword (v :: vs) + 256 + 65536 * t.m)))
  | g :: gs, _, _ => some (mkFault fcReglimit 0#64 (BitVec.ofNat 64 (limitPick t.iword (g :: gs) + 256 * t.n)))

/-- R111: whether a register is pending on a relaxed load. -/
def pendingG (t : Thread) (r : Nat) : Bool :=
  r != 0 && t.relaxed.any (fun x => x.dstG = some r && x.fault.isNone)

/-- R20, R21, R111: whether a read of a register of the thread waits for a fill or a delivery. A zero-valid
register has no backing to read. Register 0 is the predicate word. -/
def absent (k : Core) (t : Thread) (slot r : Nat) : Bool :=
  pendingG t r || match Map.get? k.rc (rcKey slot r) with
    | some .pending => true
    | some _ => false
    | none => if r = 0 then t.pw != 0#8 else Map.has t.g r

/-- R20: whether a read of a register needs a fill. -/
def cold (k : Core) (t : Thread) (slot r : Nat) : Bool :=
  (Map.get? k.rc (rcKey slot r)).isNone && absent k t slot r && !pendingG t r

/-- R20: entries that are pending or reserved. -/
def busyEntries (k : Core) : Nat :=
  count (fun x => match x.2 with | RcState.present _ => false | _ => true) k.rc

/-- R20: a relaxed load may allocate the entry of its destination: one is reserved for it, or none waits before it
and an entry would remain neither pending nor reserved. -/
def entryFits (k : Core) (slot r : Nat) : Bool :=
  Map.get? k.rc (rcKey slot r) = some .reserved || (k.fillq.isEmpty && decide (busyEntries k + 1 < rcSize k))

def pendingV (t : Thread) (r : Nat) : Bool :=
  t.relaxed.any (fun x => x.dstV = some r && x.fault.isNone)

/-- R113: the deferred fault an instruction reports: the earliest in program order, when one of them is
for it to report. -/
def deferred (t : Thread) (d : Desc) : Option FaultInfo :=
  let faulted := t.relaxed.filter (fun x => x.fault.isSome)
  let mine := faulted.any (fun x => d.drain ||
    (match x.dstG with | some r => (d.reads ++ d.writes).contains r | none => false) ||
    (match x.dstV with | some r => (d.vreads ++ d.vwrites).contains r | none => false))
  if !mine then none
  else match faulted with
    | [] => none
    | x :: rest => x.fault.map (fun f =>
        { f with word := x.word, flags := if rest.isEmpty then 1#16 else 5#16 })

/-- The thread at the instruction waits before it issues; its pc stays. -/
def waitIssue (s : State) (c slot : Nat) (w : Wait) : State := beginWait s c slot .waiting w

/-- R10, R20: a wait for entries of the register cache joins the queue for admission. -/
def waitEntries (s : State) (c slot : Nat) (w : Wait) : State :=
  ((waitIssue s c slot w).modCore c (fun k => { k with fillq := k.fillq ++ [slot] })).post (.registerFillAdmit c)

def waitFill (s : State) (c slot : Nat) (regs : List Nat) : State := waitEntries s c slot (.fill regs)

/-- R203, R16: the instruction is complete in its turn. -/
def afterIssue (s : State) (c slot : Nat) : State :=
  match s.thread? c slot with
  | some t => if t.code = .running then stepFault (postCommit s c slot) c slot else s
  | none => s

/-- R16, R20, R61: the instruction issues. -/
def settleCore (s : State) (c slot : Nat) : State :=
  postFill (s.modCore c (fun k => settle k slot)) c

/-- R16, R61: the instruction has issued: its address and word are kept and the pc stands past it. -/
def issued (t : Thread) (w : BitVec 32) (len : Nat) : Thread :=
  { t with pc := t.pc + BitVec.ofNat 64 len, stepping := t.stepping.map (fun _ => some w) }

/-- The issue of an instruction by the thread whose turn it is (R18, R20, R62, R63, R112, R113, R188,
R375), and then its own effect `body` on core, slot and thread as they were at issue. -/
def issue (i : Instr) (d : Desc) (body : Nat → Nat → Thread → State → State) (s : State) :
    Host.Outcome State Fault Refusal :=
  match current s with
  | none => .fault .noThread
  | some (c, slot, t0) =>
    let t := { t0 with ipc := t0.pc, iword := encode32 i }
    let s := s.setThread c slot t
    let k := s.core c
    if d.guard != 0#3 && absent k t slot 0 then
      .next (waitFill s c slot (0 :: d.reads.filter (fun r => r != 0 && cold k t slot r)))
    else match limitFault t d with
    | some f => .next (takeFault s c slot f)
    | none =>
      if d.guard != 0#3 && t.poison.contains 128 then
        .next (takeFault s c slot (mkFault fcPoison 0#64 0#64))
      else if d.guard != 0#3 && !t.p d.guard.toNat then
        .next (afterIssue (settleCore (s.setThread c slot (issued t (encode32 i) d.len)) c slot) c slot)
      else match deferred t d with
        | some f =>
          .next (takeFault (s.setThread c slot
            { t with relaxed := t.relaxed.filter (fun x => x.fault.isNone) }) c slot f)
        | none =>
          let need := (if d.pw && absent k t slot 0 then [0] else []) ++
            d.reads.filter (fun r => r != 0 && absent k t slot r) ++
            d.writes.filter (fun r => pendingG t r) ++
            ((d.vreads ++ d.vwrites).filter (fun r => pendingV t r)).map (128 + ·)
          if need != [] then .next (waitFill s c slot need)
          else if d.drain && t.relaxed.any (fun x => x.fault.isNone) then
            .next (waitIssue s c slot .drain)
          else if d.reads.any (fun r => r != 0 && t.poison.contains r) ||
              (d.pw && t.poison.contains 128) ||
              d.vreads.any (fun r => t.poison.contains (256 + r)) ||
              d.zreads.any (fun r => t.poison.contains (512 + r)) then
            .next (takeFault s c slot (mkFault fcPoison 0#64 0#64))
          else if (d.alloc t).any (fun r => !entryFits k slot r) then
            .next (waitEntries s c slot (.entry ((d.alloc t).getD 0)))
          else
            let s := if d.commit t then commitBefore s c slot else s
            let s := settleCore (s.setThread c slot (issued t (encode32 i) d.len)) c slot
            .next (afterIssue (body c slot t s) c slot)

/-- R16: a thread whose instruction has not issued may issue it now. -/
def resumeIssue (s : State) (c slot : Nat) : State :=
  match s.thread? c slot with
  | none => s
  | some t =>
    match t.code with
    | .waiting => wakeUp s c slot t
    | _ => s.setThread c slot { t with wait := .idle }

end Sys2Proof.Machine
end

