-- ==== Sys2Proof/Machine/Operands.lean ====
section
/-!
DEFINITION. Operands.lean: the operand forms that instructions share: immediates (R65), register operands
and results (R79), predicates, and the pc.
-/
namespace Sys2Proof.Machine
open Sys2Proof

/-- R65: a field sign-extended to 64 bits. -/
def sx {n : Nat} (x : BitVec n) : Word := x.signExtend 64

/-- R65: a field zero-extended to 64 bits. -/
def zx {n : Nat} (x : BitVec n) : Word := x.zeroExtend 64

/-- R65: off8 of the M format, scaled by the access size. -/
def offM (o : BitVec 8) (size : Nat) : Word := sx o * BitVec.ofNat 64 size

/-- R65, R94: an offset in words. -/
def offW {n : Nat} (o : BitVec n) : Word := sx o * 4#64

/-- A word of truth. -/
def ofBool (b : Bool) : Word := if b then 1#64 else 0#64

/-- R61: the pc of a thread assigned. -/
def setPc (s : State) (c slot : Nat) (pc : Word) : State :=
  s.modThread c slot (fun t => { t with pc := pc })

/-- R91: one predicate bit written; pd is never 0. -/
def writeP (s : State) (c slot k : Nat) (b : Bool) : State :=
  match s.thread? c slot with
  | none => s
  | some t =>
    let m := (1#8 <<< k)
    writePw s c slot (if b then t.pwv ||| m else t.pwv &&& ~~~m)

/-- d := f (g[a], g[b]) (R79). -/
def opRRR (i : Instr) (g : BitVec 3) (d a b : BitVec 7) (f : Word → Word → Word) (s : State) :
    Host.Outcome State Fault Refusal :=
  issue i { guard := g, g := [d.toNat, a.toNat, b.toNat], reads := [a.toNat, b.toNat],
            writes := [d.toNat] }
    (fun c slot t s => writeG s c slot d.toNat (f (t.gv a.toNat) (t.gv b.toNat))) s

/-- d := f (g[a]). -/
def opRR (i : Instr) (g : BitVec 3) (d a : BitVec 7) (f : Word → Word) (s : State) :
    Host.Outcome State Fault Refusal :=
  issue i { guard := g, g := [d.toNat, a.toNat], reads := [a.toNat], writes := [d.toNat] }
    (fun c slot t s => writeG s c slot d.toNat (f (t.gv a.toNat))) s

/-- d := f (g[d], g[a], g[b]): d is also a source. -/
def opDRR (i : Instr) (g : BitVec 3) (d a b : BitVec 7) (f : Word → Word → Word → Word) (s : State) :
    Host.Outcome State Fault Refusal :=
  issue i { guard := g, g := [d.toNat, a.toNat, b.toNat], reads := [d.toNat, a.toNat, b.toNat],
            writes := [d.toNat] }
    (fun c slot t s =>
      writeG s c slot d.toNat (f (t.gv d.toNat) (t.gv a.toNat) (t.gv b.toNat))) s

/-! ## Integer operations (R83 to R87) -/

/-- R83: a shift or rotate amount. -/
def shAmt (b : Word) : Nat := b.toNat % 64

def opMins (x y : Word) : Word := if x.toInt ≤ y.toInt then x else y
def opMaxs (x y : Word) : Word := if x.toInt ≤ y.toInt then y else x
def opMinu (x y : Word) : Word := if x.toNat ≤ y.toNat then x else y
def opMaxu (x y : Word) : Word := if x.toNat ≤ y.toNat then y else x

/-- The number of binary digits of a number of at most `fuel` digits. -/
def digits : Nat → Nat → Nat
  | 0, _ => 0
  | fuel + 1, x => if x = 0 then 0 else digits fuel (x / 2) + 1

/-- R83: zero bits above the highest one bit of an n-bit value; n when there is none. -/
def clzN (n x : Nat) : Nat := n - digits n x

/-- R83: zero bits below the lowest one bit of an n-bit value; n when there is none. -/
def ctzN : Nat → Nat → Nat
  | 0, _ => 0
  | n + 1, x => if x % 2 = 1 then 0 else ctzN n (x / 2) + 1

/-- R83: the number of one bits of an n-bit value. -/
def popcN : Nat → Nat → Nat
  | 0, _ => 0
  | n + 1, x => x % 2 + popcN n (x / 2)

/-- R83: bit i of the result is bit n − 1 − i. -/
def brevN : Nat → Nat → Nat
  | 0, _ => 0
  | n + 1, x => x % 2 * 2 ^ n + brevN n (x / 2)

/-- R83: byte i of the result is byte 7 − i. -/
def opBswap (x : Word) : Word := leWord (wordBytes x).reverse

/-- R84: bits [127:64] of an exact product. -/
def hiHalf (p : Int) : Word := BitVec.ofInt 64 (p / 2 ^ 64)

/-- R32, R85: the quotient rounded towards zero; all ones for a divisor of zero. -/
def opDivs (x y : Word) : Word :=
  if y = 0#64 then BitVec.allOnes 64 else BitVec.ofInt 64 (x.toInt.tdiv y.toInt)

def opDivu (x y : Word) : Word :=
  if y = 0#64 then BitVec.allOnes 64 else BitVec.ofNat 64 (x.toNat / y.toNat)

/-- R32, R85: the remainder with the sign of the dividend; the dividend for a divisor of zero. -/
def opRems (x y : Word) : Word := if y = 0#64 then x else BitVec.ofInt 64 (x.toInt.tmod y.toInt)

def opRemu (x y : Word) : Word := if y = 0#64 then x else BitVec.ofNat 64 (x.toNat % y.toNat)

/-- R87: the field that g[b] describes: its lowest bit and its width. -/
def fieldLo (b : Word) : Nat := b.toNat % 64
def fieldWidth (b : Word) : Nat := bitsOf b.toNat 8 6 + 1

def opBext (x b : Word) : Word := BitVec.ofNat 64 (bitsOf x.toNat (fieldLo b) (fieldWidth b))

def opBins (old x b : Word) : Word :=
  let m : Word := BitVec.ofNat 64 (2 ^ fieldWidth b - 1)
  (old &&& ~~~(m <<< fieldLo b)) ||| ((x &&& m) <<< fieldLo b)

/-- R91: the condition of CMP. -/
def cmpCond (c : BitVec 3) (x y : Word) : Bool :=
  match c.toNat with
  | 0 => x == y
  | 1 => x != y
  | 2 => decide (x.toInt < y.toInt)
  | 3 => decide (y.toInt ≤ x.toInt)
  | 4 => decide (x.toNat < y.toNat)
  | 5 => decide (y.toNat ≤ x.toNat)
  | 6 => x.getLsbD (y.toNat % 64)
  | _ => !x.getLsbD (y.toNat % 64)

/-- R92: the operation of PLOG. -/
def plogOp (o : BitVec 2) (x y : Bool) : Bool :=
  match o.toNat with
  | 0 => x && y
  | 1 => x || y
  | 2 => x != y
  | _ => x && !y

end Sys2Proof.Machine
end

