-- ==== Sys2Proof/Machine/Flags.lean ====
section
/-!
DEFINITION. Flags.lean: floating-point formats, rounding, overflow, NaNs and flags (R33 to R46): every
result is the exact value rounded once. Formats are carried in the low bits of a natural number; flags are
FPFLG[4:0]: invalid, divide-by-zero, overflow, underflow, inexact.
-/
namespace Sys2Proof.Machine
open Sys2Proof

/-- R33: a format: exponent and fraction bits. F8e4 has no infinities. -/
structure FFmt where
  eb : Nat
  fb : Nat
  f8e4 : Bool := false
  deriving DecidableEq, Repr

def fp64 : FFmt := { eb := 11, fb := 52 }
def fp32 : FFmt := { eb := 8, fb := 23 }
def fp16 : FFmt := { eb := 5, fb := 10 }
def bf16 : FFmt := { eb := 8, fb := 7 }
def f8e4 : FFmt := { eb := 4, fb := 3, f8e4 := true }
def f8e5 : FFmt := { eb := 5, fb := 2 }

def FFmt.bias (f : FFmt) : Nat := 2 ^ (f.eb - 1) - 1
def FFmt.width (f : FFmt) : Nat := 1 + f.eb + f.fb
/-- The least exponent of a normal number. -/
def FFmt.emin (f : FFmt) : Int := 1 - (f.bias : Int)
/-- The greatest exponent of a finite number. -/
def FFmt.emax (f : FFmt) : Int := if f.f8e4 then 8 else f.bias
/-- The largest significand at the greatest exponent. -/
def FFmt.maxSig (f : FFmt) : Nat := if f.f8e4 then 14 else 2 ^ (f.fb + 1) - 1

/-- FPFLG bits. -/
def flInvalid : BitVec 5 := 1#5
def flDivZero : BitVec 5 := 2#5
def flOverflow : BitVec 5 := 4#5
def flUnderflow : BitVec 5 := 8#5
def flInexact : BitVec 5 := 16#5

/-- A number read from a format: `fin` is (−1)^neg × m × 2^e. -/
inductive FVal where
  | nan (neg sig : Bool)
  | inf (neg : Bool)
  | fin (neg : Bool) (m : Nat) (e : Int)
  deriving DecidableEq, Repr

/-- R33, R34: the value of an encoding. -/
def FFmt.unpack (f : FFmt) (w : Nat) : FVal :=
  let frac := w % 2 ^ f.fb
  let ex := bitsOf w f.fb f.eb
  let neg := bitsOf w (f.fb + f.eb) 1 = 1
  if f.f8e4 then
    if ex = 15 ∧ frac = 7 then .nan neg false
    else if ex = 0 then .fin neg frac (f.emin - f.fb)
    else .fin neg (2 ^ f.fb + frac) ((ex : Int) - f.bias - f.fb)
  else if ex = 2 ^ f.eb - 1 then
    if frac = 0 then .inf neg else .nan neg (frac < 2 ^ (f.fb - 1))
  else if ex = 0 then .fin neg frac (f.emin - f.fb)
  else .fin neg (2 ^ f.fb + frac) ((ex : Int) - f.bias - f.fb)

/-- The sign bit of an encoding. -/
def FFmt.signBit (f : FFmt) (neg : Bool) : Nat := if neg then 2 ^ (f.fb + f.eb) else 0

/-- R34: the canonical NaN. -/
def FFmt.canon (f : FFmt) : Nat :=
  if f.f8e4 then 0x7F else (2 ^ f.eb - 1) * 2 ^ f.fb + 2 ^ (f.fb - 1)

def FFmt.infinity (f : FFmt) (neg : Bool) : Nat := f.signBit neg + (2 ^ f.eb - 1) * 2 ^ f.fb

/-- The largest finite value. -/
def FFmt.largest (f : FFmt) (neg : Bool) : Nat :=
  f.signBit neg + (if f.f8e4 then 0x7E else (2 ^ f.eb - 1) * 2 ^ f.fb - 1)

/-- R34: a NaN quieted. -/
def FFmt.quiet (f : FFmt) (w : Nat) : Nat := w ||| 2 ^ (f.fb - 1)

/-- The number of binary digits. -/
def bitLen (m : Nat) : Nat := if m = 0 then 0 else Nat.log2 m + 1

/-- R37: the rounding of q + r / d to an integer; `up` adds one. Modes: 0 RNE, 1 RTZ, 2 RUP, 3 RDN. -/
def roundUp (mode : Nat) (neg : Bool) (q r d : Nat) : Bool :=
  match mode with
  | 0 => decide (d < 2 * r) || (decide (2 * r = d) && q % 2 = 1)
  | 1 => false
  | 2 => decide (0 < r) && !neg
  | _ => decide (0 < r) && neg

/-- m × 2^e rounded to a multiple of 2^q: the multiple, and whether it is inexact. -/
def roundAt (mode : Nat) (neg : Bool) (m : Nat) (e q : Int) : Nat × Bool :=
  if q ≤ e then (m * 2 ^ (e - q).toNat, false)
  else
    let d := 2 ^ (q - e).toNat
    (m / d + (if roundUp mode neg (m / d) (m % d) d then 1 else 0), m % d != 0)

/-- R38: the result of an overflow. `nanOv` is FPCTL[2]. -/
def FFmt.overflow (f : FFmt) (mode : Nat) (nanOv neg : Bool) : Nat :=
  if f.f8e4 then (if nanOv then f.signBit neg + 0x7F else f.largest neg)
  else if mode = 0 || (mode = 2 && !neg) || (mode = 3 && neg) then f.infinity neg
  else f.largest neg

/-- R37 to R39: m × 2^e, with its sign, rounded once: the encoding and the flags. -/
def FFmt.round (f : FFmt) (mode : Nat) (nanOv neg : Bool) (m : Nat) (e : Int) : Nat × BitVec 5 :=
  if m = 0 then (f.signBit neg, 0#5)
  else
    let E : Int := e + bitLen m - 1
    let q : Int := (if E < f.emin then f.emin else E) - f.fb
    let r := roundAt mode neg m e q
    let E' : Int := q + bitLen r.1 - 1
    if r.1 != 0 && (decide (f.emax < E') || (E' = f.emax && r.1 != 2 ^ (f.fb + 1) && decide (f.maxSig < r.1))) then
      (f.overflow mode nanOv neg, flOverflow ||| flInexact)
    else
      let tiny : Bool := decide (E < f.emin) &&
        (let u := roundAt mode neg m e (E - f.fb)
         decide ((E - f.fb) + bitLen u.1 - 1 < f.emin))
      let enc : Nat :=
        if r.1 < 2 ^ f.fb then r.1
        else if r.1 = 2 ^ (f.fb + 1) then ((q + f.fb + 1 + f.bias).toNat) * 2 ^ f.fb
        else ((q + f.fb + f.bias).toNat) * 2 ^ f.fb + (r.1 - 2 ^ f.fb)
      (f.signBit neg + enc,
        (if r.2 then flInexact else 0#5) ||| (if r.2 && tiny then flUnderflow else 0#5))

/-- An exact dyadic number n × 2^e. -/
structure Dy where
  n : Int
  e : Int
  deriving DecidableEq, Repr

def Dy.of (neg : Bool) (m : Nat) (e : Int) : Dy := { n := if neg then -(m : Int) else m, e := e }

def Dy.add (x y : Dy) : Dy :=
  let e := if x.e ≤ y.e then x.e else y.e
  { n := x.n * 2 ^ (x.e - e).toNat + y.n * 2 ^ (y.e - e).toNat, e := e }

/-- R37: an exact value rounded; an exact zero takes the sign `zneg`. -/
def FFmt.roundDy (f : FFmt) (mode : Nat) (nanOv zneg : Bool) (x : Dy) : Nat × BitVec 5 :=
  if x.n = 0 then (f.signBit zneg, 0#5) else f.round mode nanOv (x.n < 0) x.n.natAbs x.e

def FVal.isNan : FVal → Bool
  | .nan _ _ => true
  | _ => false

def FVal.isSnan : FVal → Bool
  | .nan _ s => s
  | _ => false

def FVal.neg : FVal → Bool
  | .nan n _ => n
  | .inf n => n
  | .fin n _ _ => n

def FVal.isZero : FVal → Bool
  | .fin _ m _ => m = 0
  | _ => false

/-- The environment of a rounding: FPCTL (R24). -/
def fpMode (ctl : Word) : Nat := ctl.toNat % 4
def fpNanOv (ctl : Word) : Bool := ctl.getLsbD 2

/-- R35: the first NaN of a list of encodings, quieted, and invalid for a signalling one. -/
def nanOf (f : FFmt) (ws : List Nat) : Option (Nat × BitVec 5) :=
  match ws.find? (fun w => (f.unpack w).isNan) with
  | none => none
  | some w => some (f.quiet w,
      if ws.any (fun w => (f.unpack w).isSnan) then flInvalid else 0#5)

/-- R100: x + y. -/
def fadd (f : FFmt) (ctl : Word) (x y : Nat) : Nat × BitVec 5 :=
  match nanOf f [x, y] with
  | some r => r
  | none => match f.unpack x, f.unpack y with
    | .inf a, .inf b => if a = b then (f.infinity a, 0#5) else (f.canon, flInvalid)
    | .inf a, _ => (f.infinity a, 0#5)
    | _, .inf b => (f.infinity b, 0#5)
    | .fin a m e, .fin b m' e' =>
      f.roundDy (fpMode ctl) (fpNanOv ctl) (if a = b then a else fpMode ctl = 3)
        ((Dy.of a m e).add (Dy.of b m' e'))
    | _, _ => (f.canon, flInvalid)

/-- The encoding with its sign inverted. -/
def FFmt.flip (f : FFmt) (w : Nat) : Nat := w ^^^ 2 ^ (f.fb + f.eb)

/-- R100: x − y; a NaN is passed on as it stands. -/
def fsub (f : FFmt) (ctl : Word) (x y : Nat) : Nat × BitVec 5 :=
  match nanOf f [x, y] with
  | some r => r
  | none => fadd f ctl x (f.flip y)

/-- R100: x × y. -/
def fmul (f : FFmt) (ctl : Word) (x y : Nat) : Nat × BitVec 5 :=
  match nanOf f [x, y] with
  | some r => r
  | none => match f.unpack x, f.unpack y with
    | .fin a m e, .fin b m' e' => f.round (fpMode ctl) (fpNanOv ctl) (a != b) (m * m') (e + e')
    | u, v =>
      if u.isZero || v.isZero then (f.canon, flInvalid) else (f.infinity (u.neg != v.neg), 0#5)

/-- R100: x ÷ y; the quotient is taken to 2^-130 with a sticky bit. -/
def fdiv (f : FFmt) (ctl : Word) (x y : Nat) : Nat × BitVec 5 :=
  match nanOf f [x, y] with
  | some r => r
  | none =>
    let neg := (f.unpack x).neg != (f.unpack y).neg
    match f.unpack x, f.unpack y with
    | .inf _, .inf _ => (f.canon, flInvalid)
    | .inf _, _ => (f.infinity neg, 0#5)
    | _, .inf _ => (f.signBit neg, 0#5)
    | .fin _ m e, .fin _ m' e' =>
      if m' = 0 then
        if m = 0 then (f.canon, flInvalid) else (f.infinity neg, flDivZero)
      else
        let q := m * 2 ^ 130 / m'
        let st := if m * 2 ^ 130 % m' = 0 then 0 else 1
        f.round (fpMode ctl) (fpNanOv ctl) neg (2 * q + st) (e - e' - 131)
    | _, _ => (f.canon, flInvalid)

/-- The integer square root of a number below 4^fuel. -/
def isqrt : Nat → Nat → Nat
  | 0, _ => 0
  | fuel + 1, x =>
    let r := 2 * isqrt fuel (x / 4)
    if (r + 1) * (r + 1) ≤ x then r + 1 else r

/-- R100: √x. -/
def fsqrt (f : FFmt) (ctl : Word) (x : Nat) : Nat × BitVec 5 :=
  match nanOf f [x] with
  | some r => r
  | none => match f.unpack x with
    | .inf neg => if neg then (f.canon, flInvalid) else (f.infinity false, 0#5)
    | .fin neg m e =>
      if m = 0 then (f.signBit neg, 0#5)
      else if neg then (f.canon, flInvalid)
      else
        let odd : Nat := (e % 2).toNat
        let m' := m * 2 ^ odd * 4 ^ 64
        let r := isqrt 96 m'
        let st := if r * r = m' then 0 else 1
        f.round (fpMode ctl) (fpNanOv ctl) false (2 * r + st) ((e - odd) / 2 - 65)
    | _ => (f.canon, flInvalid)

/-- R36, R101: x × y + z, or x × y − z, with one rounding. -/
def ffma (f : FFmt) (ctl : Word) (sub : Bool) (z x y : Nat) : Nat × BitVec 5 :=
  let X := f.unpack x
  let Y := f.unpack y
  let inv := match X, Y with
    | .inf _, v => v.isZero
    | u, .inf _ => u.isZero
    | _, _ => false
  match nanOf f [z, x, y] with
  | some (w, fl) => (w, if inv then flInvalid else fl)
  | none =>
    if inv then (f.canon, flInvalid)
    else
      let pn := X.neg != Y.neg
      match X, Y, f.unpack z with
      | .fin _ m e, .fin _ m' e', .fin c n k =>
        let zn := c != sub
        f.roundDy (fpMode ctl) (fpNanOv ctl) (if pn = zn then pn else fpMode ctl = 3)
          ((Dy.of pn (m * m') (e + e')).add (Dy.of zn n k))
      | .fin _ _ _, .fin _ _ _, v => (f.infinity (v.neg != sub), 0#5)
      | _, _, .inf c => if pn = (c != sub) then (f.infinity pn, 0#5) else (f.canon, flInvalid)
      | _, _, _ => (f.infinity pn, 0#5)

/-- R46: an order of the non-NaN encodings in which −0 is below +0. -/
def FFmt.key (f : FFmt) (w : Nat) : Int :=
  let mag := w % 2 ^ (f.fb + f.eb)
  if bitsOf w (f.fb + f.eb) 1 = 1 then -(mag : Int) - 1 else mag

/-- R46: minimum and maximum. -/
def fminmax (f : FFmt) (max : Bool) (x y : Nat) : Nat × BitVec 5 :=
  let X := f.unpack x
  let Y := f.unpack y
  let fl := if X.isSnan || Y.isSnan then flInvalid else 0#5
  if X.isNan && Y.isNan then (f.canon, fl)
  else if X.isNan then (y, fl)
  else if Y.isNan then (x, fl)
  else if max then (if f.key x < f.key y then y else x, fl)
  else (if f.key y < f.key x then y else x, fl)

/-- The order of two numbers, −0 equal to +0, neither a NaN: x < y and x = y. -/
def FFmt.lt (f : FFmt) (x y : Nat) : Bool :=
  decide (f.key x < f.key y) && !((f.unpack x).isZero && (f.unpack y).isZero)
def FFmt.eq (f : FFmt) (x y : Nat) : Bool :=
  f.key x = f.key y || ((f.unpack x).isZero && (f.unpack y).isZero)

/-- R102: FCMP conditions EQ, LT, LE, UN. -/
def fcmp (f : FFmt) (cond : Nat) (x y : Nat) : Bool × BitVec 5 :=
  let X := f.unpack x
  let Y := f.unpack y
  let nan := X.isNan || Y.isNan
  let sig := X.isSnan || Y.isSnan
  match cond with
  | 0 => (!nan && f.eq x y, if sig then flInvalid else 0#5)
  | 1 => (!nan && f.lt x y, if nan then flInvalid else 0#5)
  | 2 => (!nan && (f.lt x y || f.eq x y), if nan then flInvalid else 0#5)
  | _ => (nan, if sig then flInvalid else 0#5)

/-- R103: the class of an encoding, as a bit number. -/
def fclass (f : FFmt) (w : Nat) : Nat :=
  match f.unpack w with
  | .inf neg => if neg then 0 else 7
  | .nan _ sig => if sig then 8 else 9
  | .fin neg m _ =>
    if m = 0 then (if neg then 3 else 4)
    else if m < 2 ^ f.fb then (if neg then 2 else 5)
    else if neg then 1 else 6

/-- R41: from one floating-point format to another. -/
def fconv (src dst : FFmt) (ctl : Word) (x : Nat) : Nat × BitVec 5 :=
  match src.unpack x with
  | .fin neg m e => dst.round (fpMode ctl) (fpNanOv ctl) neg m e
  | .inf neg =>
    if dst.f8e4 then
      (if fpNanOv ctl then dst.canon else dst.largest neg, flInvalid)
    else (dst.infinity neg, 0#5)
  | .nan neg sig =>
    let fl := if sig then flInvalid else 0#5
    if dst.f8e4 then (dst.signBit neg + 0x7F, fl)
    else
      let frac := x % 2 ^ src.fb
      let frac' := if src.fb ≤ dst.fb then frac * 2 ^ (dst.fb - src.fb)
        else frac / 2 ^ (src.fb - dst.fb)
      (dst.quiet (dst.infinity neg + frac'), fl)

/-- R42: to an integer format of w bits, two's complement when signed. -/
def ftoi (src : FFmt) (mode : Nat) (signed : Bool) (w : Nat) (x : Nat) : Int × BitVec 5 :=
  let lo : Int := if signed then -(2 ^ (w - 1) : Nat) else 0
  let hi : Int := if signed then (2 ^ (w - 1) : Nat) - 1 else (2 ^ w : Nat) - 1
  match src.unpack x with
  | .nan _ _ => (0, flInvalid)
  | .inf neg => (if neg then lo else hi, flInvalid)
  | .fin neg m e =>
    let r := roundAt mode neg m e 0
    let v : Int := if neg then -(r.1 : Int) else r.1
    if v < lo then (lo, flInvalid)
    else if hi < v then (hi, flInvalid)
    else (v, if r.2 then flInexact else 0#5)

/-- R43: an exact integer to a floating-point format. -/
def itof (dst : FFmt) (ctl : Word) (v : Int) : Nat × BitVec 5 :=
  dst.round (fpMode ctl) (fpNanOv ctl) (v < 0) v.natAbs 0

/-- R43: an integer saturated to w bits. -/
def satInt (signed : Bool) (w : Nat) (v : Int) : Int :=
  let lo : Int := if signed then -(2 ^ (w - 1) : Nat) else 0
  let hi : Int := if signed then (2 ^ (w - 1) : Nat) - 1 else (2 ^ w : Nat) - 1
  if v < lo then lo else if hi < v then hi else v

/-- R104, R143: the floating-point formats by number. -/
def fmtNo (n : Nat) : Option FFmt :=
  match n with
  | 0 => some fp64
  | 1 => some fp32
  | 2 => some fp16
  | 3 => some bf16
  | 4 => some f8e4
  | 5 => some f8e5
  | _ => none

/-- The low bits of an integer as an encoding. -/
def intBits (w : Nat) (v : Int) : Nat := (v % (2 ^ w : Nat)).toNat

/-- An encoding of w bits as an integer. -/
def bitsInt (signed : Bool) (w x : Nat) : Int :=
  if signed && decide (2 ^ (w - 1) ≤ x % 2 ^ w) then (x % 2 ^ w : Nat) - (2 ^ w : Nat) else (x % 2 ^ w : Nat)

/-- R104, R143: a conversion between numbered formats, the integer formats of w bits; `trunc` is the T bit. -/
def fcvtCode (w : Nat) (trunc : Bool) (S D : Nat) (ctl : Word) (x : Nat) : Nat × BitVec 5 :=
  match fmtNo S, fmtNo D with
  | some a, some b => fconv a b ctl (x % 2 ^ a.width)
  | some a, none =>
    let r := ftoi a (if trunc then 1 else fpMode ctl) (D = 6) w (x % 2 ^ a.width)
    (intBits w r.1, r.2)
  | none, some b => itof b ctl (bitsInt (S = 6) w x)
  | none, none => (intBits w (satInt (D = 6) w (bitsInt (S = 6) w x)), 0#5)

/-- R40: the stochastic-rounding conversion of one element at a counter value. -/
def fsr (src dst : FFmt) (ctl seed : Word) (x : Nat) : Nat × BitVec 5 :=
  let rne : Word := (ctl >>> 2) <<< 2
  match src.unpack x with
  | .fin neg m e =>
    let lo := dst.round 1 false false m e
    let big := (dst.unpack (dst.largest false))
    let tooBig := match big with
      | .fin _ M E => decide (0 < ((Dy.of false m e).add (Dy.of true M E)).n)
      | _ => false
    if tooBig then fconv src dst rne x
    else
      match dst.unpack lo.1, dst.unpack (lo.1 + 1) with
      | .fin _ l le, .fin _ h he =>
        let num := (Dy.of false m e).add (Dy.of true l le)
        let den := (Dy.of false h he).add (Dy.of true l le)
        let k := if num.e ≤ den.e then num.e else den.e
        let dd := 4096 * (num.n * 2 ^ (num.e - k).toNat).toNat / (den.n * 2 ^ (den.e - k).toNat).toNat
        let up := decide (seed.toNat % 4096 < dd)
        let mag := if up then lo.1 + 1 else lo.1
        let inexact : Bool := lo.2 != 0#5
        let tiny : Bool := decide (((Dy.of false m e).add (Dy.of true 1 dst.emin)).n < 0)
        (dst.signBit neg + mag,
          (if inexact then flInexact else 0#5) ||| (if inexact && tiny then flUnderflow else 0#5))
      | _, _ =>
        (dst.signBit neg + lo.1, lo.2)
  | _ => fconv src dst rne x

end Sys2Proof.Machine
end

