-- ==== Sys2Proof/Machine/Packets.lean ====
section
/-!
DEFINITION. Packets.lean: the end of a group (R240), of a thread in its slot (R15, R190), barrier drops
(R248), thread packets (R243) and the target of a migration (R244).
-/
namespace Sys2Proof.Machine
open Sys2Proof

/-- R126, R190, R191: every watch and wait registration of a thread is disarmed. -/
def disarmAll (s : State) (c slot : Nat) : State :=
  postEntries { s with
    watches := s.watches.filter (fun w =>
      !(w.thread = ⟨c, slot⟩ && (match w.kind with | .dep _ => false | _ => true)))
    entryWait := s.entryWait.filter (fun x => x.1 != ⟨c, slot⟩) }

/-- R248: a message to a barrier object; its number is `s.fresh`. -/
def sendBar (s : State) (kind : Nat) (place : Place) (status : Word) (thread : Option TRef)
    (cmd : Option Nat := none) : State :=
  let id := s.fresh
  let m : BarMsg := { id := id, kind := kind, place := place, status := status, thread := thread, cmd := cmd }
  let s := ({ s with barMsgs := s.barMsgs ++ [m] } : State).bump
  s.post (match kind with
    | 0 => .barrierJoin id
    | 1 => .barrierDrop id
    | _ => .barrierArrive id)

/-- R248: a registration dropped from the core's record: DROP when it was the last, or ARRIVE when the
others have all arrived. -/
def dropReg (s : State) (c : Nat) (place : Place) : State :=
  match (s.core c).bars.find? (fun r => r.place = place) with
  | none => s
  | some r =>
    let rest := (s.core c).bars.filter (fun x => x.place != place)
    if r.r ≤ 1 then
      let s := sendBar (s.modCore c (fun k => { k with bars := rest })) 1 place 0#64 none
      if (s.core c).barWait.isEmpty then s else s.post (.barrierRecordGrant c)
    else if r.a = r.r - 1 then
      sendBar (s.modCore c (fun k => { k with bars := { r with r := r.r - 1, a := 0 } :: rest })) 2 place
        0#64 none
    else s.modCore c (fun k => { k with bars := { r with r := r.r - 1 } :: rest })

def dropRegs (s : State) (c : Nat) : List Place → State
  | [] => s
  | p :: ps => dropRegs (dropReg s c p) c ps

/-! ## Lay-by room (R333) -/

/-- R189, R251: lay-by room has come free: the packets of a partition that wait at the head of their core's queue look
again. -/
def postSpawns (s : State) (part : Nat) : State :=
  ((s.part part).ctab.filter (fun c => match (s.core c).ctxWait with
    | .packet _ :: _ => true
    | _ => false)).foldl (fun s c => s.post (.contextGrant c)) s

/-- R333: lay-by room that a partition no longer uses. -/
def freeRoom (s : State) (part n : Nat) : State :=
  let s := s.modPart part (fun p => { p with poolUsed := p.poolUsed - n })
  if n = 0 then s else postSpawns s part

/-! ## The end of a group (R240) -/

/-- R19: the backing area of a thread. -/
def backing (n m z : Nat) : Nat := (256 + 8 * n + 64 * m + 528 * z + 63) / 64 * 64

/-- R333: the lay-by room of a group. -/
def groupRoom (h : Header) : Nat :=
  (h.gsize * backing h.regs h.vclaim h.zclaim + h.spad + h.spad / 64 + 63) / 64 * 64

/-- Whether a thread is one of a group's own in its core (R240). -/
def ownMember (t : Thread) (gid : Nat) : Bool := t.gid = gid && !t.migrant && !t.handler

/-! ## The words of a thread packet (R243) -/

/-- R243: the 128 bytes of a packet that carries a thread of a core, and the extension of SPAWN and FORK. -/
def packetWords (s : State) (kind c : Nat) (t : Thread) : List Word :=
  let w0 := bitsOf t.pc.toNat 0 17 + t.n * 2 ^ 17 + t.m * 2 ^ 25 + t.zc * 2 ^ 32 + bitsOf t.fpctl.toNat 0 3 * 2 ^ 37 +
    s.pkg % 2 ^ 14 * 2 ^ 46 + kind * 2 ^ 60
  let lcore := ((s.core c).owner.getD (0, 0)).2
  [BitVec.ofNat 64 w0] ++ (List.range 10).map (fun i => t.gv (i + 1)) ++
    [t.pwv.zeroExtend 64, t.wid, t.fmt, t.scl,
     BitVec.ofNat 64 (bitsOf t.fline.toNat 6 50 + lcore * 2 ^ 52)] ++
    (if kind = 0 || kind = 3 then [t.authp, t.fline] else [])

/-- R243: 0 SPAWN, 1 MIGRATE, 2 MESSAGE, 3 FORK. -/
def Packet.kind (p : Packet) : Nat := bitsOf (p.words.getD 0 0#64).toNat 60 4

/-- R243: whether a packet has an extension. -/
def Packet.extended (p : Packet) : Bool := p.kind = 0 || p.kind = 3

/-- The g registers that ten words give a thread; one that is zero is as zero-valid (R21). -/
def wordRegs (ws : List Word) : Map Word :=
  ((List.range 10).map (fun i => (i + 1, ws.getD i 0#64))).filter (fun x => x.2 != 0#64)

/-- R189, R191, R192, R193, R243: the thread that a packet starts at its target. -/
def Packet.thread (p : Packet) : Thread :=
  let w := fun i => p.words.getD i 0#64
  let f := fun lo n => bitsOf (w 0).toNat lo n
  let claim := fun (n : Nat) => if p.extended then n else 0
  { n := if p.kind = 2 then 16 else f 17 8, m := claim (f 25 7), zc := claim (f 32 5)
    g := wordRegs (p.words.drop 1), pw := if w 11 = 1#64 then 0#8 else (w 11).truncate 8
    pc := BitVec.ofNat 64 (f 0 17), ipc := BitVec.ofNat 64 (f 0 17)
    wid := w 12, fmt := w 13, scl := w 14
    fline := if p.extended then w 17 else BitVec.ofNat 64 (64 * bitsOf (w 15).toNat 0 50)
    authp := if p.extended then w 16 else p.auth
    fpctl := BitVec.ofNat 64 (claim (f 37 3)), geom0 := p.geom, poison := p.marks
    lid := p.lid, gid := p.gid, proc := p.proc, part := p.part, room := p.room
    migrant := p.kind = 1, handler := p.handler, origin := p.origin }

/-- R243: the packet that the device builds of a thread of core `c`, for a target; its number is `s.fresh`. -/
def buildPacket (s : State) (kind c target : Nat) (t : Thread) (issuer : Option TRef) : Packet :=
  { id := s.fresh, target := target, words := packetWords s kind c t, marks := t.poison, lid := t.lid, gid := t.gid
    proc := t.proc, part := t.part, geom := t.geom0, auth := t.authp, handler := t.handler, room := t.room
    issuer := issuer, origin := t.origin }

/-- R240: whether a group still has a thread: in its core, away, or in a packet of SPAWN or FORK. -/
def hasThreads (s : State) (g : Group) : Bool :=
  g.away != 0 || (s.core g.core).threads.any (fun x => ownMember x.2 g.gid) ||
    s.packets.any (fun x => (x.2.kind = 0 || x.2.kind = 3) && x.2.gid = g.gid)

/-- R215: every waiter on a word of a released allocation is withdrawn, and its thread faults. -/
def withdrawWaiters (s : State) : List Watch → State
  | [] => s
  | w :: ws =>
    let va := match s.thread? w.thread.core w.thread.slot with
      | some t => (match t.wait with | .fe _ _ va _ _ _ => va | _ => 0#64)
      | none => 0#64
    withdrawWaiters (takeFault s w.thread.core w.thread.slot (prot va 1)) ws

def inAllocation (c base size : Nat) (p : Place) : Bool :=
  match p with
  | .spad k off => k = c && decide (base ≤ off) && decide (off < base + size)
  | _ => false

/-- R215: an allocation is released. -/
def releaseAllocation (s : State) (c base size : Nat) : State :=
  withdrawWaiters s (s.watches.filter (fun w => w.kind = .fe && inAllocation c base size w.place))

/-- R240, R310, R318: the band of an ended group, and its launch, end with their last group; bit 1 of the status tells
that the quantum expired in this cycle. -/
def bandEnd (s : State) (g : Group) : State :=
  if s.groups.any (fun x => x.2.lid = g.lid && x.2.band = g.band) then s
  else
    let s := s.modLaunch g.lid (fun l => { l with bands := setAt l.bands g.band .ended })
    match s.launch? g.lid with
    | none => s
    | some l =>
      let s := s.post (.placementDecision l.part)
      if l.bands.all (· = .ended) then
        (s.modLaunch g.lid (fun l => { l with
          status := if l.expired = some s.now then l.status ||| 2#5 else l.status })).post (.launchCompletion g.lid)
      else s

/-- R384: a pair with no group left parts after a commit; the shadow's scratchpad is its lead's. -/
def unpair (s : State) (c : Nat) : State :=
  match (s.core c).lock with
  | none => s
  | some L =>
    if s.groups.any (fun x => x.2.core = c && x.2.saved.isNone) then s
    else
      let s := commitPair s c
      let k := s.core c
      let s := s.setCore c { k with lock := none }
      s.modCore L.partner (fun q => { q with
        lock := none, spad := k.spad, full := k.full, poisonW := k.poisonW, image := k.image, xb := k.xb })

/-- R307, R309: a placed group that is not DRAINING: one with a thread in its own core. -/
def running (s : State) (g : Group) : Bool :=
  g.saved.isNone && (s.core g.core).threads.any (fun x => ownMember x.2 g.gid)

/-- R308 step 4: a pre-empted launch whose last held group has been saved or has ended is ready again. -/
def preempted (s : State) (lid : Nat) : State :=
  match s.launch? lid with
  | none => s
  | some l =>
    if !l.preempting || l.bands.all (· = .ended) || s.groups.any (fun x => x.2.lid = lid && running s x.2) then s
    else (s.modLaunch lid (fun l => { l with
      preempting := false, ready := some s.now, status := l.status ||| 1#5 })).post (.placementDecision l.part)

/-- R240, R312: a group whose last thread is FREE discards its held answers, and ends when its engine
operations are zero too. -/
def endGroup (s : State) (gid : Nat) : State :=
  match s.group? gid with
  | none => s
  | some g =>
    if g.saved.isSome || hasThreads s g then s
    else
      let mine := fun (q : Query) => q.gid = gid && q.held
      let n := count mine s.queries
      let s := { s with queries := s.queries.filter (fun q => !mine q) }
      let s := s.modGroup gid (fun g => { g with ops := g.ops - n })
      if g.ops - n != 0 then s
      else
        let room := match s.launch? g.lid with | some l => groupRoom l.hdr | none => 0
        let part := match s.launch? g.lid with | some l => l.part | none => 0
        let s := freeRoom { s with groups := Map.erase s.groups gid } part room
        postCtx (bandEnd (unpair (releaseAllocation s g.core g.base g.size) g.core) g) g.core

/-- R240, R308: a group that may have ended ends, and a pre-emption that has waited for it goes on. -/
def groupEnd (s : State) (gid : Nat) : State :=
  match s.group? gid with
  | none => s
  | some g => preempted (endGroup s gid) g.lid

/-- R155, R240: an engine operation of a group is over. -/
def endOp (s : State) (gid : Nat) : State :=
  groupEnd (s.modGroup gid (fun g => { g with ops := g.ops - 1 })) gid

/-! ## Slots -/

/-- R190, R209: the Causeway operations of a thread in a port's queue or on their way, under another name or none. -/
def renameOps (a : TRef) (b : Option TRef) (os : List CwOp) : List CwOp :=
  os.map (fun o => if o.issuer = some a then { o with issuer := b } else o)

/-- R155, R190: the commands, posted packets and Causeway operations of a thread that ends are no thread's any more. -/
def disown (s : State) (r : TRef) : State :=
  { s with
    cmds := s.cmds.map (fun (x : Nat × Cmd) =>
      if x.2.thread = r then (x.1, { x.2 with thread := ⟨r.core, 4096⟩ }) else x)
    out := s.out.map (fun (x : Nat × FabricPacket) =>
      if x.2.thread = some r && x.2.kind = 0 then (x.1, { x.2 with thread := none }) else x)
    ports := s.ports.map (fun (x : Nat × Port) =>
      (x.1, { x.2 with queue := renameOps r none x.2.queue, flying := renameOps r none x.2.flying })) }

/-- R229, R235, R337: a thread that moves to another core and slot takes its commands, its posted packets and its
Causeway operations with it. -/
def moveWork (s : State) (a b : TRef) : State :=
  { s with
    cmds := s.cmds.map (fun (x : Nat × Cmd) => if x.2.thread = a then (x.1, { x.2 with thread := b }) else x)
    out := s.out.map (fun (x : Nat × FabricPacket) =>
      if x.2.thread = some a then (x.1, { x.2 with thread := some b }) else x)
    ports := s.ports.map (fun (x : Nat × Port) =>
      (x.1, { x.2 with queue := renameOps a (some b) x.2.queue, flying := renameOps a (some b) x.2.flying })) }

/-- R13, R15: a slot becomes FREE; its generation advances, and what it held in the core goes with it. -/
def clearSlot (s : State) (c slot : Nat) : State :=
  let s := match s.thread? c slot with
    | some t => freeRoom s t.part t.room
    | none => s
  let s := (disarmAll s c slot).modCore c (fun k =>
    { rcDrop (leaveRot k slot) slot with
      threads := Map.erase k.threads slot
      gens := Map.set k.gens slot ((genOf k slot + 1) % 2 ^ 20)
      fillq := k.fillq.filter (· != slot)
      sfuq := k.sfuq.filter (fun r => r.slot != slot)
      sfuWait := k.sfuWait.filter (· != slot)
      ctxWait := k.ctxWait.filter (· != .fill slot) })
  let s := disown s ⟨c, slot⟩
  if 4080 ≤ slot then (if (s.core c).visitWait.isEmpty then s else s.post (.visitorSlotGrant c))
  else postCtx (postFill s c) c

/-- R192, R200, R240: an answer to a packet of another package. -/
def sendReply (s : State) (request : Nat) (data : List Byte) : State :=
  let p : FabricPacket := { id := s.fresh, kind := 4, size := data.length, data := data, thread := none,
                            rid := some request }
  ({ s with out := Map.set s.out s.fresh p } : State).bump

/-- R240, R309: a member of a group that was away has ended: its group is told, in this package or in the one it
came from. -/
def awayEnded (s : State) (gid : Nat) (origin : Option Nat) : State :=
  match origin with
  | some n => sendReply s n [0#8]
  | none => groupEnd (s.modGroup gid (fun g => { g with away := g.away - 1 })) gid

/-- R15, R190, R240, R309: a thread of the core has ended. -/
def freeSlot (s : State) (c slot : Nat) : State :=
  match s.thread? c slot with
  | none => s
  | some t =>
    let s := clearSlot s c slot
    if t.handler then s
    else if t.migrant then awayEnded s t.gid t.origin
    else groupEnd s t.gid

/-- R190: the thread ends: its registrations are dropped and its slot is freed. -/
def quitThread (s : State) (c slot : Nat) : State :=
  match s.thread? c slot with
  | some t => freeSlot (dropRegs s c t.bars) c slot
  | none => s

/-- R243: a packet of a thread's on its way in this package; its number is `s.fresh`. -/
def sendPacket (s : State) (kind target : Nat) (t : Thread) (r : TRef) : State :=
  let p := buildPacket s kind r.core target t (some r)
  ({ s with packets := Map.set s.packets s.fresh p }.bump).post (.threadPacketArrive s.fresh)

/-- R192, R244: a packet of a thread's on its way to a logical core of another package, where `addr` lies; its number
is `s.fresh`, and the thread waits for its answer. -/
def sendAway (s : State) (kind lcore addr : Nat) (t : Thread) (r : TRef) : State :=
  let p : FabricPacket := { id := s.fresh, kind := 5, addr := addr, part := t.part, data := [], thread := some r,
                            carried := some (buildPacket s kind r.core lcore t (some r)) }
  ({ s with out := Map.set s.out s.fresh p } : State).bump

/-- R243: FLINE as a packet without an extension carries it. -/
def packetLine (fline : Word) : Word := if fline.toNat < 2 ^ 56 then fline else 0#64

/-- R191, R243, R244: the thread that a MIGRATE packet carries: g1 to g10, the predicate word and the
identity of the thread; everything else at its value at allocation. -/
def migrantOf (s : State) (t : Thread) (pc : Word) : Thread :=
  let auth := match s.launch? t.lid with | some l => l.hdr.auth | none => 0#64
  let geom := match s.launch? t.lid with | some l => l.hdr.geom | none => 0#64
  { n := t.n, g := t.g.filter (fun x => x.1 ≤ 10), pw := t.pw, pc := pc, wid := t.wid, fmt := t.fmt, scl := t.scl
    fline := packetLine t.fline, authp := auth, geom0 := geom, ipc := pc
    poison := t.poison.filter (fun r => r ≤ 10 || r = 128), lid := t.lid, gid := t.gid, proc := t.proc, part := t.part
    migrant := true, handler := t.handler, origin := t.origin }

/-- R244: the physical cores of leaf s of die d, with the spares that stand in for its cores. -/
def leafCores (s : State) (part die sl : Nat) : List Nat :=
  let cluster := 4 * die + sl / 8
  let first := 130 * cluster + 16 * (sl % 8)
  let regular := (List.range 16).map (first + ·)
  regular ++ [130 * cluster + 128, 130 * cluster + 129].filter (fun sp =>
    (s.part part).ctab.contains sp &&
      regular.contains ((leftOut (s.part part).ctab cluster).getD (sp % 130 - 128) 0))

/-- R244: the target of a migration to an address of this package: the lowest logical core of the partition
in the leaf beside the line's slice that is not paired; none when no core qualifies. -/
def migrTarget (s : State) (part pa : Nat) : Option Nat :=
  if 0x40000000000 ≤ pa then none else
  let leaf := leafCores s part (homeDie pa) (sliceOf pa)
  (s.part part).ctab.find? (fun c => leaf.contains c && (s.core c).lock.isNone)

/-- R191: whether a thread may migrate. -/
def mayMigrate (s : State) (t : Thread) : Bool :=
  (match s.launch? t.lid with | some l => l.hdr.migrant | none => false) &&
    t.n ≤ 16 && t.m = 0 && t.zc = 0 && t.bars.isEmpty

/-- R244, step 3: the target of a migration, a physical core of this package or a logical core of another; none when
it is the thread's own core. The core table of another package is open. -/
def migrGoal (s : State) (c part pkg pa : Nat) : Option Nat :=
  if pkg != s.pkg then Config.farCore s.free (domAddr pkg pa) part
  else (migrTarget s part pa).filter (· != c)

/-- R191, R244: the thread's packet leaves, and the thread waits for a visitor slot of the target, with its handle.
Nothing happens when the target is its own core. -/
def migrate (s : State) (c slot : Nat) (t : Thread) (pkg pa : Nat) (pc : Word) : Option State :=
  (migrGoal s c t.part pkg pa).map (fun target =>
    let s' := beginWait s c slot .waiting (.packet 0 s.fresh)
    if pkg != s.pkg then
      sendAway { s' with free := s.free + 1 } 1 target (domAddr pkg pa) (migrantOf s t pc) ⟨c, slot⟩
    else sendPacket s' 1 target (migrantOf s t pc) ⟨c, slot⟩)

/-- R191, R240, R244, R246: a migrant's packet has been taken: its old slot is freed, and it is a member of its group
that is away. -/
def leaveSlot (s : State) (r : TRef) : State :=
  match s.thread? r.core r.slot with
  | none => s
  | some u =>
    let s := clearSlot s r.core r.slot
    if u.migrant || u.handler then s else s.modGroup u.gid (fun g => { g with away := g.away + 1 })

end Sys2Proof.Machine
end

