-- ==== Sys2Proof/Machine/Access.lean ====
section
/-!
DEFINITION. Access.lean: a thread's access to memory from its checks (R107) to its result: pieces in the
scratchpad (R114), full bits (R115, R116), caches (R218, R219, R340, R347), requests to homes, peers and
the fabric (R344, R367), and what becomes of the bytes read (R109 to R120, R145).
-/
namespace Sys2Proof.Machine
open Sys2Proof

/-! ## Operations on a word (R118 to R120) -/

/-- R118, R120: the new value an atomic writes. -/
def amoNew (op : AmoOp) (old b : Word) : Word :=
  match op with
  | .add => old + b
  | .and => old &&& b
  | .or => old ||| b
  | .xor => old ^^^ b
  | .mins => opMins old b
  | .maxs => opMaxs old b
  | .minu => opMinu old b
  | .maxu => opMaxu old b
  | .swap => b
  | .fadd => BitVec.ofNat 64 (fadd fp64 0#64 old.toNat b.toNat).1

/-- What an operation writes, from the bytes it finds; none when it writes nothing. -/
def UnitOp.writes (op : UnitOp) (old : List Byte) : Option (List Byte) :=
  match op with
  | .store d => some d
  | .amo o b => some (wordBytes (amoNew o (leWord old) b))
  | .cas e n => if old = e then some n else none
  | .join =>
    let w := leWord (old.take 8)
    if w = 0#64 then none else some (wordBytes (w - 1#64) ++ old.drop 8)
  | _ => none

/-- Whether an operation reads data that can be poisoned (R375). -/
def UnitOp.readsData : UnitOp → Bool
  | .load | .amo _ _ | .cas _ _ | .ldfe | .waitge _ | .join => true
  | _ => false

/-- Whether an operation is one of R126 and R127. -/
def UnitOp.isWatch : UnitOp → Bool
  | .watch | .unwatch | .unwatchAll => true
  | _ => false

/-! ## Full bits and their waiters (R115, R116) -/

def fullBit (k : Core) (off : Nat) : Bool := k.full.contains (off / 8)

/-- A full bit changed; an emptied word lets the first answer that is held for it be delivered (R195). -/
def setFull (s : State) (c off : Nat) (b : Bool) : State :=
  let s := s.modCore c (fun k => { k with
    full := if b then insertNat (off / 8) k.full else k.full.filter (· != off / 8) })
  match s.queries.find? (fun q => q.core = c && q.off / 8 = off / 8 && q.answer.isSome) with
  | some q => if b then s else s.post (.wqryAnswerDeliver q.id)
  | none => s

/-- R384: the old values of the words a paired core's own write covers go to the undo log. -/
def logUndo (k : Core) (off n : Nat) : Core :=
  match k.lock with
  | none => k
  | some L =>
    let words := (List.range ((off % 8 + n + 7) / 8)).map (fun i => off / 8 * 8 + 8 * i)
    { k with lock := some { L with
        undo := words.map (fun w => (w, leWord (Mem.readN k.spad w 8))) ++ L.undo } }

/-- R116: the earliest waiter on a word whose condition holds. -/
def feNext (s : State) (c off : Nat) : Option Watch :=
  s.watches.find? (fun w => w.kind = .fe && w.place = .spad c (off / 8 * 8) &&
    (match s.thread? w.thread.core w.thread.slot with
     | some t => (match t.wait with
       | .fe load _ _ _ _ _ => load == fullBit (s.core c) off
       | _ => false)
     | none => false))

/-- R116: the earliest waiter whose condition holds is performed: its LDFE or STFE, whole. -/
def feRelease (s : State) (c off : Nat) : State :=
  let off := off / 8 * 8
  match feNext s c off with
  | none => s
  | some w =>
    match s.thread? w.thread.core w.thread.slot with
    | none => s
    | some t =>
      match t.wait with
      | .fe load d va _ data _ =>
        let s := postEntries { s with watches := s.watches.filter (· != w) }
        if load then
          if spadPoison (s.core c) off 8 then
            takeFault s w.thread.core w.thread.slot (mkFault fcPoison va 0#64)
          else
            let v := leWord (Mem.readN (s.core c).spad off 8)
            let s := wakeLine (setFull s c off false) (.spad c off)
            finishWait (writeG s w.thread.core w.thread.slot d v) w.thread.core w.thread.slot
        else
          let s := if w.thread.core = c then s.modCore c (fun k => logUndo k off 8) else s
          let s := setFull (writePlace s c (.spad c off) (wordBytes data) false) c off true
          finishWait s w.thread.core w.thread.slot
      | _ => s

/-- R116: every waiter of a word that its full bit lets go, in order of registration. -/
def feSettle (s : State) (c off : Nat) : Nat → State
  | 0 => s
  | fuel + 1 =>
    match feNext s c off with
    | none => s
    | some _ => feSettle (feRelease s c off) c off fuel

/-- R116: the release that a change of a word's full bit has made due is performed. -/
def feDue (s : State) (c word : Nat) : State :=
  let e : Event := .feWaiterRelease c word
  if s.agenda.contains e then
    feSettle { s with agenda := s.agenda.filter (· != e) } c (8 * word) s.watches.length
  else s

/-- R114, R116, R215: before an access reaches a word, the waiters that a change of its full bit has released are
performed; a bit cleared at a grant releases none. MODEL'S CHOICE (log entry 86): also before the access of an own thread
that issues in that cycle. -/
def feFirst (s : State) (c off n : Nat) : State :=
  if s.watches.any (fun w => w.kind = .fe) then
    (List.range ((off % 8 + n + 7) / 8)).foldl (fun s i => feDue s c (off / 8 + i)) s
  else s

/-- R115, R116: a full bit changed, with the wake of its line and the release of a waiter. -/
def changeFull (s : State) (c off : Nat) (b : Bool) : State :=
  let s := wakeLine (setFull s c off b) (.spad c off)
  match feNext s c off with
  | none => s
  | some _ => s.post (.feWaiterRelease c (off / 8))

/-! ## The scratchpad (R114) -/

/-- One operation in a bank's turn, whole: the state, and the bytes read or the status; `none` when the data
are poisoned or the core is fenced (R380). `own` when it is the core's own thread. -/
def spadUnit (s : State) (c off n : Nat) (op : UnitOp) (own : Bool) : State × Option (List Byte) :=
  let s := feFirst s c off n
  let k := s.core c
  let old := Mem.readN k.spad off n
  if (k.fenced && !own) || (op.readsData && spadPoison k off n) then (s, none)
  else match op with
    | .ldfe => (s, some (old ++ [if fullBit k off then 1#8 else 0#8]))
    | .stfe d =>
      if fullBit k off then (s, some [0#8])
      else
        let s := if own then s.modCore c (fun k => logUndo k off 8) else s
        let s := setFull (writePlace s c (.spad c off) (wordBytes d) false) c off true
        (match feNext s c off with
         | none => s
         | some _ => s.post (.feWaiterRelease c (off / 8)), some [1#8])
    | _ =>
      match op.writes old with
      | none => (s, some old)
      | some bs =>
        let s := if own then s.modCore c (fun k => logUndo k off n) else s
        (writePlace s c (.spad c off) bs false, some old)

/-! ## Caches (R218, R219, R347) -/

/-! ## Held writes of a lock-step pair (R236) -/

/-- R236: the pair's own loads return the held bytes. -/
def overlay (s : State) (c : Nat) (p : Place) (bytes : List Byte) : List Byte :=
  match (s.core c).lock with
  | none => bytes
  | some L => L.held.foldl (fun bs h =>
      let q := h.2.1
      if lineOf q = lineOf p ∧ h.1.core = c then
        (List.range bs.length).map (fun i =>
          let a := p.off + i
          if q.off ≤ a ∧ a < q.off + h.2.2.length then h.2.2.getD (a - q.off) 0#8 else bs.getD i 0#8)
      else bs) bytes

/-! ## Pieces performed where they stand -/

/-- R126, R360: whether two places, watched from two cores, belong to one watch store; a host-coherent line is in the store
of the agent of the watcher's die. -/
def sameStore (c : Nat) (p : Place) (d : Nat) (q : Place) : Bool :=
  match p, q with
  | .spad c _, .spad k _ => c = k
  | .cw x _, .cw y _ => x = y
  | .page .coherent _ a, .page .coherent _ b => homeDie a = homeDie b && sliceOf a = sliceOf b
  | .page .hostCoherent _ _, .page .hostCoherent _ _ => coreDie c = coreDie d
  | _, _ => false

/-- R126, R217, R342: entries of the watch store of a place. MODEL'S CHOICE (log entry 85): the store of a host-coherence
agent has as many entries as the agent holds lines (R360). -/
def storeSize : Place → Nat
  | .page .coherent _ _ => 4096
  | .page .hostCoherent _ _ => 16384
  | _ => 256

/-- The core from which a watch is held; a launch's, on the die of its home distributor (R298, R304). -/
def Watch.from (s : State) (w : Watch) : Nat :=
  match w.kind with
  | .dep lid => match s.launch? lid with
    | some l => 520 * homeDist s l.part
    | none => 0
  | _ => w.thread.core

/-- R126: the watch store that a place belongs to, for a core, has room. -/
def storeRoom (s : State) (c : Nat) (p : Place) : Bool :=
  count (fun (w : Watch) => sameStore (w.from s) w.place c p && w.kind != .bar) s.watches < storeSize p

/-- R342, R350: a watch recorded; an E holder is recalled first, and the line has an entry. -/
def addWatch (s : State) (w : Watch) : State :=
  match w.place with
  | .page .coherent _ pa =>
    let s := if (dirOf s (pa / 64)).st = DState.e then recallAll s pa else s
    let s := { s with watches := s.watches ++ [w] }
    putDir s (pa / 64) (dirOf s (pa / 64))
  | _ => { s with watches := s.watches ++ [w] }

/-- R126: the arming of a watch, in the order of precedence of its codes. -/
def armWatch (s : State) (r : TRef) (p : Place) : State × Nat :=
  let refuse : Bool := match p with
    | .spad _ _ | .cw _ _ => false
    | .dev _ => true
    | .page k _ _ => k != PageKind.coherent && k != PageKind.hostCoherent
  let w : Watch := { place := lineOf p, thread := r, kind := .watch }
  if refuse then (s, 4)
  else if s.watches.contains w then (s, 1)
  else if 8 ≤ count (fun (x : Watch) => x.thread = r && x.kind = .watch) s.watches then (s, 3)
  else if !storeRoom s r.core p then (s, 2)
  else (addWatch s w, 0)

/-- R127: the thread's watch on a line disarmed. -/
def disarmWatch (s : State) (r : TRef) (p : Place) : State × Nat :=
  let w : Watch := { place := lineOf p, thread := r, kind := .watch }
  if s.watches.contains w then (postEntries { s with watches := s.watches.filter (· != w) }, 0)
  else (s, 1)

/-- R127: every watch of a thread disarmed, and their number. -/
def disarmEvery (s : State) (r : TRef) : State × Nat :=
  let mine := fun (w : Watch) => w.thread = r && w.kind = .watch
  (postEntries { s with watches := s.watches.filter (fun w => !mine w) }, count mine s.watches)

/-- R126, R127: an operation of a watch store; its code in one byte. -/
def watchUnit (s : State) (r : TRef) (op : UnitOp) (p : Place) : State × List Byte :=
  let x := match op with
    | .watch => armWatch s r p
    | .unwatch => disarmWatch s r p
    | _ => disarmEvery s r
  (x.1, [BitVec.ofNat 8 x.2])

/-- R236: a store of a lock-step pair outside its own scratchpad is held. -/
def holdWrite (s : State) (r : TRef) (p : Place) (bs : List Byte) : State :=
  s.modCore r.core (fun k => { k with lock := k.lock.map (fun L =>
    { L with held := L.held ++ [(r, p, bs)] }) })

/-- A piece performed in one act at a place that needs no message: the state and the bytes read; `none`
when poisoned data were read. -/
def directUnit (s : State) (r : TRef) (u : MUnit) (p : Place) : State × Option (List Byte) :=
  let c := r.core
  let s := match p with
    | .page .priv _ pa => fetchPriv s c pa
    | .page .readShared pkg pa => fetchCopy s c .readShared pkg pa
    | .page .remotePosted pkg pa => fetchCopy s c .remotePosted pkg pa
    | .page .hostCoherent _ pa => fetchHost s c pa
    | _ => s
  let v := readPlace s c p u.size
  let old := overlay s c p v.1
  if u.op.readsData && v.2 then (s, none)
  else match u.op.writes old with
    | none => (s, some old)
    | some bs => (writePlace s c p bs false, some old)

/-- A coherent line that the L1 of a core holds well enough for an operation (R343). -/
def l1Holds (k : Core) (key : Nat) (write : Bool) : Bool :=
  match Map.get? k.l1 key with
  | some l => !write || l.st != .s
  | none => !write && Map.has k.xbuf key

/-- R343: an operation on a coherent line that the L1 holds: a load reads it (or the eviction buffer,
R347), a store makes it M. -/
def l1Unit (s : State) (c : Nat) (pa n : Nat) (op : UnitOp) : State × Option (List Byte) :=
  let key := lineKey s pa
  let k := s.core c
  match (match Map.get? k.l1 key with | some l => some l | none => Map.get? k.xbuf key) with
  | none => (s, some (List.replicate n 0#8))
  | some l =>
    let off := pa % 64
    let old := slice l.data off n
    match op.writes old with
    | none =>
      if l.poison then (s, none)
      else
        let s' := s.setCore c { k with l1 := Map.modify k.l1 key (fun l => { l with used := k.cyc }) }
        (s', some (overlay s c (.page .coherent s.pkg pa) old))
    | some bs =>
      let l' := { l with st := .m, data := patch l.data off bs,
                         poison := l.poison && bs.length != 64, used := k.cyc }
      (s.setCore c { k with l1 := Map.set k.l1 key l' }, some old)

/-! ## Results -/

/-- R394: a sample for every unit of a partition that is set to a source. -/
def sampleHist (s : State) (part source v : Nat) : State :=
  (List.range 8).foldl (fun s u =>
    match Map.get? (s.part part).hists u with
    | some h =>
      if h.cfg.getLsbD 0 && !h.cfg.getLsbD 2 && !h.cfg.getLsbD 3 && bitsOf h.cfg.toNat 4 8 = source then
        s.post (.histogramSample part u (BitVec.ofNat 64 v))
      else s
    | none => s) s

/-- A 32-bit lane of a vector register replaced. -/
def setLane (v : VWord) (l : Nat) (w : BitVec 32) : VWord :=
  BitVec.ofNat 512 (v.toNat - bitsOf v.toNat (32 * l) 32 * 2 ^ (32 * l) + w.toNat * 2 ^ (32 * l))

/-- A 32-bit lane of a vector register. -/
def lane (v : VWord) (l : Nat) : BitVec 32 := v.extractLsb' (32 * l) 32

/-- 16 lanes as a vector register. -/
def ofLanes (ls : List (BitVec 32)) : VWord :=
  BitVec.ofNat 512 (ls.foldr (fun w acc => w.toNat + 2 ^ 32 * acc) 0)

/-- What an access writes to its thread's registers, from the bytes of its pieces in order. -/
def finishAccess (s : State) (c slot : Nat) (fin : Finish) (outs : List (List Byte)) : State :=
  let o := outs.headD []
  match fin with
  | .none => s
  | .g d signed =>
    let w := leWord o
    let w := if signed then BitVec.ofInt 64 (bitsInt true (8 * o.length) w.toNat) else w
    writeG s c slot d w
  | .pair d =>
    let o := outs.flatten
    let s := writeG s c slot (d / 2 * 2) (leWord (o.take 8))
    writeG s c slot (d / 2 * 2 + 1) (leWord (o.drop 8))
  | .feLoad d b =>
    let s := writeG s c slot d (leWord (o.take 8))
    writeG s c slot b (leWord (o.drop 8))
  | .status d => writeG s c slot d (leWord o)
  | .lanes vd ls =>
    s.modThread c slot (fun t => t.setV vd
      ((ls.zip outs).foldl (fun v x => setLane v x.1 (BitVec.ofNat 32 (leNat x.2))) (t.vv vd)))
  | .whole vd => s.modThread c slot (fun t => t.setV vd (BitVec.ofNat 512 (leNat outs.flatten)))
  | .bcast vd => s.modThread c slot (fun t => t.setV vd
      (ofLanes (List.replicate 16 (BitVec.ofNat 32 (leNat o)))))
  | .join =>
    if leWord (o.take 8) = 1#64 then
      s.modThread c slot (fun t => { t with pc := BitVec.ofNat 64 (leNat ((o.drop 8).take 4)) })
    else quitThread s c slot

/-! ## The accesses of a thread (R107, R111)

A thread has at most one access it waits for, named `none` below, and relaxed ones, named by their
numbers. -/

/-- What a thread waits for. -/
def waitOf (s : State) (r : TRef) : Option Wait := (s.thread? r.core r.slot).map (fun t => t.wait)

/-- The access of a thread by its name, while it is outstanding. -/
def accOf (t : Thread) (rid : Option Nat) : Option Access :=
  match rid with
  | none => match t.wait with | .access a => some a | _ => none
  | some id => ((t.relaxed.find? (fun x => x.id = id)).filter (fun x => x.fault.isNone)).map (·.acc)

def putAcc (t : Thread) (rid : Option Nat) (a : Access) : Thread :=
  match rid with
  | none => { t with wait := .access a }
  | some id => { t with relaxed := t.relaxed.map (fun x => if x.id = id then { x with acc := a } else x) }

def modAcc (s : State) (r : TRef) (rid : Option Nat) (f : Access → Access) : State :=
  match s.thread? r.core r.slot with
  | none => s
  | some t => match accOf t rid with
    | none => s
    | some a => s.setThread r.core r.slot (putAcc t rid (f a))

/-- The event that performs an access where it stands. -/
def accEvent (t : Thread) (r : TRef) (rid : Option Nat) : Event :=
  match rid with
  | none => .accessComplete r.core r.slot
  | some id => match t.relaxed.find? (fun x => x.id = id) with
    | some x => if x.load then .relaxedLoadDeliver r.core r.slot id else .relaxedStorePerform r.core r.slot id
    | none => .accessComplete r.core r.slot

def postAcc (s : State) (r : TRef) (rid : Option Nat) : State :=
  match s.thread? r.core r.slot with
  | some t => s.post (accEvent t r rid)
  | none => s

/-- R111, R112: what waits for a relaxed access of a thread looks again. -/
def wakeRelaxed (s : State) (r : TRef) : State :=
  match s.thread? r.core r.slot with
  | none => s
  | some t =>
    let left := t.relaxed.filter (fun x => x.fault.isNone)
    match t.wait with
    | .fill _ => s.post (.registerFillComplete r.core r.slot)
    | .drain => if left.isEmpty then resumeIssue s r.core r.slot else s
    | .relaxedRoom load =>
      if count (fun x : Relaxed => x.load = load) left < (if load then 4 else 16) then
        resumeIssue s r.core r.slot
      else s
    | .access _ => s.post (.accessComplete r.core r.slot)
    | .fence _ _ _ _ => s.post (.accessComplete r.core r.slot)
    | _ => s

/-- R111: the relaxed accesses of a thread that an earlier one may have held look again. -/
def postRelaxed (s : State) (r : TRef) : State :=
  match s.thread? r.core r.slot with
  | none => s
  | some t => (t.relaxed.filter (fun x => x.fault.isNone)).foldl (fun s x => s.post (accEvent t r (some x.id))) s

/-- R113: a relaxed access faults: it is not performed, its destination keeps its value and is no longer
pending, and the fault is deferred. A waited access faults its thread. -/
def failAcc (s : State) (r : TRef) (rid : Option Nat) (f : FaultInfo) : State :=
  match rid with
  | none => takeFault s r.core r.slot f
  | some id =>
    match s.thread? r.core r.slot with
    | none => s
    | some t =>
      let d := (t.relaxed.find? (fun x => x.id = id)).bind (·.dstG)
      let s := s.setThread r.core r.slot { t with relaxed := t.relaxed.map (fun x =>
        if x.id = id then { x with fault := some f } else x) }
      let s := match d with
        | some d => rcWrote s r.core r.slot d t.away
        | none => s
      postRelaxed (wakeRelaxed (postWaiting (postFill s r.core)) r) r

/-! ## An access in its issue turn -/

/-- R107 orders 1 and 2 for every piece in order (R146): the pieces that pass, those that need no translation
with their places, and the fault of the first that does not. -/
def classify (s : State) (c part align : Nat) (k : AKind) : List MUnit → List MUnit × Option FaultInfo
  | [] => ([], none)
  | u :: us =>
    if u.va.toNat % align != 0 then ([], some (mkFault fcMisalign u.va (BitVec.ofNat 64 align)))
    else match checkClass s c part u.va k with
      | .error f => ([], some f)
      | .ok p =>
        let x := classify s c part align k us
        ({ u with place := p } :: x.1, x.2)

/-- Whether a piece that is still to be performed stores in a line. -/
def MUnit.storesIn (u : MUnit) (p : Place) : Bool :=
  u.out.isNone && (match u.op, u.place with
    | .store _, some q => lineOf q = lineOf p
    | _, _ => false)

/-- R128, R147: an act whose write wakes nobody, since a later piece of the same store falls in its line. -/
def quietly {α : Type} (p : Place) (f : State → State × α) (s : State) : State × α :=
  let mine := fun (w : Watch) => w.place = lineOf p && w.kind != .fe
  let x := f { s with watches := s.watches.filter (fun w => !mine w) }
  ({ x.1 with watches := s.watches.filter (fun w => mine w || x.1.watches.contains w) }, x.2)

/-- R9, R147: the pieces of an access to the own scratchpad, in order, in one act. -/
def ownUnits (s : State) (r : TRef) : List MUnit → State × Except FaultInfo (List (List Byte))
  | [] => (s, .ok [])
  | u :: us =>
    match u.place with
    | some (.spad c off) =>
      let x := if u.op.isWatch then
          let w := watchUnit s r u.op (.spad c off)
          (w.1, some w.2)
        else if us.any (fun w => w.storesIn (.spad c off)) then
          quietly (.spad c off) (fun s => spadUnit s c off u.size u.op true) (feFirst s c off u.size)
        else spadUnit s c off u.size u.op true
      match x.2 with
      | none => (x.1, .error (mkFault fcPoison u.va 0#64))
      | some o =>
        match ownUnits x.1 r us with
        | (s', .ok os) => (s', .ok (o :: os))
        | (s', .error f) => (s', .error f)
    | _ => (s, .ok [])

/-- Whether every piece lies in the core's own scratchpad by its own-scratchpad address (R105). -/
def allOwn (us : List MUnit) : Bool :=
  us.all (fun u => match classOf u.va with | .own _ => true | _ => false)

/-! ## Order among the accesses of a thread (R111, R227, R229) -/

/-- Whether two pieces share a byte. -/
def Place.meets (p : Place) (n : Nat) (q : Place) (m : Nat) : Bool :=
  let hit := fun (a b : Nat) => decide (a < b + m) && decide (b < a + n)
  match p, q with
  | .spad c a, .spad k b => c = k && hit a b
  | .cw x a, .cw y b => x = y && hit a b
  | .dev a, .dev b => hit a b
  | .page _ x a, .page _ y b => x = y && hit a b
  | _, _ => false

/-- R111: an earlier relaxed access of the thread that a piece must follow. One that is not translated yet lies on a
page, and may be it. -/
def behind (x : Relaxed) (u : MUnit) (p : Place) : Bool :=
  x.acc.units.any (fun w => w.out.isNone && (match w.place with
    | none => (match p with
      | .page _ _ _ => true
      | _ => false)
    | some q => p.meets u.size q w.size))

/-- R230: an earlier relaxed write of the thread to host-noncoherent memory, which a later access there does not pass. -/
def hostBehind (x : Relaxed) (p : Place) : Bool :=
  match p with
  | .page .hostNoncoherent _ _ => x.acc.units.any (fun w => w.out.isNone && (match w.op, w.place with
    | .store _, none => true
    | .store _, some (.page .hostNoncoherent _ _) => true
    | _, _ => false))
  | _ => false

/-- R134: whether an INVR of a core's thread, in progress, covers the line of a place: its stores are held. -/
def invrHolds (s : State) (c : Nat) (p : Place) : Bool :=
  match p with
  | .page kind pkg pa => (s.core c).threads.any (fun x => match x.2.wait with
    | .range 1 _ _ _ (some (_, _, held)) => held.any (fun (h : PageKind × Nat × Nat) => h.1 = kind &&
        decide (h.2.1 ≤ domAddr pkg pa / 64) && decide (domAddr pkg pa / 64 < h.2.1 + h.2.2))
    | _ => false)
  | _ => false

/-- R111, R134, R161, R229, R230: whether a piece waits: for an earlier access of its thread to overlapping bytes, a
relaxed one or a posted store that is on its way; for an earlier write to the host; for an INVR; or for an engine that
is to write its private line. -/
def mustWait (s : State) (r : TRef) (t : Thread) (rid : Option Nat) (u : MUnit) (p : Place) : Bool :=
  !u.op.isWatch &&
    (t.relaxed.any (fun x => x.fault.isNone && (match rid with | some id => decide (x.id < id) | none => true) &&
        (behind x u p || hostBehind x p)) ||
      (match u.op with | .store _ => invrHolds s r.core p | _ => false) ||
      (match p with
       | .page .priv _ pa => s.cmds.any (fun q => q.2.core = r.core && q.2.accepted && q.2.priv.contains (pa / 64))
       | .page .remotePosted pkg pa => s.out.any (fun q => q.2.kind = 0 && q.2.thread = some r &&
           q.2.cmd.isNone && decide (q.2.addr < domAddr pkg pa + u.size) &&
           decide (domAddr pkg pa < q.2.addr + q.2.size))
       | _ => false))

/-! ## An access that has left the rotation -/

/-- R244, R245: whether a load that has been translated moves its thread instead. -/
def autoMigrates (s : State) (t : Thread) (a : Access) (mig : Bool) : Bool :=
  a.auto && mig && mayMigrate s t

/-- R330: a walk of a page at a waystation joined, or started. -/
def joinWalk (s : State) (r : TRef) (t : Thread) (va : Word) : State :=
  let w := coreWs s r.core
  match walkOf s w t.part t.proc va with
  | some k => { s with walks := s.walks.map (fun x =>
      if x.id = k.id && !x.waiters.contains r then { x with waiters := x.waiters ++ [r] } else x) }
  | none =>
    let k : Walk := { id := s.fresh, ws := w, part := t.part, proc := t.proc, va := va, waiters := [r],
                      marked := false }
    (({ s with walks := s.walks ++ [k] } : State).bump).post (.walkComplete s.fresh)

/-- What the access asks of R107's checks at a page. -/
def Access.kind (a : Access) (u : MUnit) : AKind :=
  match u.op with
  | .load => if u.size = 8 then .ldd else if u.size = 16 then .ldq else .ld
  | .store _ => if u.size = 8 then .std else .st
  | .amo _ _ | .cas _ _ => .amo a.sup
  | .ldfe | .stfe _ => .fe
  | .watch | .unwatch | .unwatchAll => .watch
  | .waitge _ => .wait
  | .join => .cell false

/-- R329, R330: every untranslated piece whose translation is cached gets its place; the first piece that
is not cached, and the first fault of the checks, are answered too. The Bool is the migrate attribute. -/
def translateUnits (s : State) (c : Nat) (t : Thread) (a : Access) :
    List MUnit → Except FaultInfo (List MUnit × Option Word × Bool)
  | [] => .ok ([], none, false)
  | u :: us =>
    let mine : Except FaultInfo (MUnit × Option Word × Bool) :=
      match u.place with
      | some _ => .ok (u, none, false)
      | none => match tlbFind (wsOf s (coreWs s c)) t.part t.proc u.va with
        | none => .ok (u, some u.va, false)
        | some e => match checkPage s t.part u.va (a.kind u) e with
          | .error f => .error f
          | .ok p => .ok ({ u with place := some p }, none, e.mig)
    match mine with
    | .error f => .error f
    | .ok (u', some va, mig) => .ok (u' :: us, some va, mig)
    | .ok (u', none, mig) =>
      match translateUnits s c t a us with
      | .error f => .error f
      | .ok (us', miss, mig') => .ok (u' :: us', miss, mig || mig')

/-- R363, R367: a read or atomic packet to another package. -/
def sendRemote (s : State) (r : TRef) (rid : Option Nat) (part kind : Nat) (u : MUnit) (pkg pa : Nat) :
    State :=
  let p : FabricPacket := { id := s.fresh, kind := kind, addr := domAddr pkg pa, part := part,
                            size := u.size, data := [], op := some u.op, thread := some r, rid := rid }
  ({ s with out := Map.set s.out s.fresh p } : State).bump

/-- What becomes of a piece that is to be performed: it can be performed where it stands, its request has
been sent, or it waits. -/
inductive Sending where
  | here | sent | waits
  deriving DecidableEq, Repr

/-- R348: a line taken from the L1s of a die, except one core's. -/
def dropOthers (s : State) (die c key : Nat) : State :=
  { s with cores := s.cores.map (fun ck =>
      if coreDie ck.1 = die && ck.1 != c then
        (ck.1, { ck.2 with l1 := Map.erase ck.2.l1 key, xbuf := Map.erase ck.2.xbuf key })
      else ck) }

/-- R348: the present data of a line in a die's RDC. -/
def rdcData (s : State) (die key : Nat) (l : CLine) : List Byte × Bool :=
  match dirtyOf s (0xC00 + die) key with
  | some d => (d.data, d.poison)
  | none => (l.data, l.poison)

/-- R348: an RDC serves one of its L1s: a shared copy, the die's writer downgraded; or write permission,
every other copy of the die dropped. -/
def rdcGrant (s : State) (c key : Nat) (l : CLine) (write : Bool) : State :=
  let die := coreDie c
  let v := rdcData s die key l
  let dirty := (dirtyOf s (0xC00 + die) key).isSome
  let lv := insertNat (coreLeaf s c % 32) l.leaves
  if write then
    let s := dropOthers s die c key
    let s := setRdc s die (Map.set (rdcOf s die) key
      { l with st := if dirty then .m else l.st, data := v.1, poison := v.2, owner := some c, leaves := lv })
    fillL1 s c key { st := .e, kind := .coherent, data := v.1, poison := v.2 }
  else
    let s := match l.owner with
      | some o => s.modCore o (fun k => { k with l1 := Map.modify k.l1 key (fun x => { x with st := .s }) })
      | none => s
    let s := setRdc s die (Map.set (rdcOf s die) key
      { l with st := if dirty then .m else l.st, data := v.1, poison := v.2, owner := none, leaves := lv })
    fillL1 s c key { st := .s, kind := .coherent, data := v.1, poison := v.2 }

/-- R344, R348: a request for a coherent line that an L1 does not hold well enough: to the home, or to its
die's RDC, which serves it or asks the home. -/
def askLine (s : State) (r : TRef) (rid : Option Nat) (pa : Nat) (write : Bool) : State × Sending :=
  let c := r.core
  let key := lineKey s pa
  let die := coreDie c
  let kind := fun (have_ : Bool) => if write then (if have_ then MsgKind.upg else .rdx) else .rd
  if homeDie pa = die then
    (sendMsg s { mkMsg s (kind (Map.has (s.core c).l1 key)) (pa / 64) c with thread := some r, rid := rid },
      .sent)
  else if Map.has (rdcXOf s die) key then (s, .waits)
  else match Map.get? (rdcOf s die) key with
    | some l =>
      if !write || l.st != .s then (rdcGrant s c key l write, .here)
      else (sendMsg s { mkMsg s .upg (pa / 64) (0xC00 + die) with thread := some r, rid := rid, via := some c },
        .sent)
    | none =>
      (sendMsg s { mkMsg s (kind false) (pa / 64) (0xC00 + die) with
        thread := some r, rid := rid, via := some c }, .sent)

/-- The request that a translated piece sends, if it needs one. -/
def sendUnit (s : State) (r : TRef) (rid : Option Nat) (part : Nat) (u : MUnit) : State × Sending :=
  let c := r.core
  let k := s.core c
  if u.op.isWatch then (s.post (.watchRecorded c r.slot), .sent)
  else match u.place with
  | some (.spad q _) =>
    if k.lock.isSome && q != c && (match u.op with | .store _ => true | _ => false) then (s, .here)
    else ((s.modCore q (fun x => { x with guests := x.guests ++ [(r, rid)] })).post (.guestAccess q), .sent)
  | some (.dev off) =>
    if off = 0x80 && (match u.op with | .store _ => true | _ => false) then
      (s.post (.pmsWrite c r.slot), .sent)
    else (s, .here)
  | some (.page .coherent _ pa) =>
    let key := lineKey s pa
    match u.op with
    | .load => if l1Holds k key false then (s, .here) else askLine s r rid pa false
    | .store _ =>
      if k.lock.isSome || l1Holds k key true then (s, .here)
      else if Map.has k.xbuf key then (s, .waits)
      else askLine s r rid pa true
    | .amo _ _ | .cas _ _ | .join => (sendMsg s { mkMsg s .amo (pa / 64) c with thread := some r, rid := rid }, .sent)
    | _ => (s, .here)
  | some (.page .remotePosted pkg pa) =>
    let key := domAddr pkg pa / 64
    match u.op with
    | .load =>
      if Map.has k.l1 key || Map.has (rdcOf s (coreDie c)) key then (s, .here)
      else (sendRemote s r rid part 1 u pkg pa, .sent)
    | .store _ =>
      if rid.isSome || k.lock.isSome then (s, .here) else (s.post (.postedStoreAccept c r.slot), .sent)
    | .amo _ _ | .cas _ _ => (sendRemote s r rid part 3 u pkg pa, .sent)
    | _ => (s, .here)
  | some _ => (s, .here)
  | none => (s, .waits)

/-- Every piece not yet sent sends its request; the Bool tells that some piece can be performed where it
stands. -/
def sendUnits (s : State) (r : TRef) (rid : Option Nat) (t : Thread) :
    List MUnit → State × List MUnit × Bool
  | [] => (s, [], false)
  | u :: us =>
    if u.sent || u.out.isSome || (match u.place with | some p => mustWait s r t rid u p | none => true) then
      let x := sendUnits s r rid t us
      (x.1, u :: x.2.1, x.2.2)
    else
      let y := sendUnit s r rid t.part u
      let x := sendUnits y.1 r rid t us
      (x.1, { u with sent := y.2 = .sent } :: x.2.1, y.2 = .here || x.2.2)

/-- R108: an access of more than 8 bytes to host-noncoherent memory is not single-copy atomic. MODEL'S CHOICE (log entry
84): it is made of accesses of 8 bytes, the lowest first. -/
def tear (u : MUnit) : List MUnit :=
  match u.place with
  | some (.page .hostNoncoherent pkg pa) =>
    let part := fun (i : Nat) (op : UnitOp) => { u with
      va := u.va + BitVec.ofNat 64 (8 * i), size := 8, op := op, place := some (.page .hostNoncoherent pkg (pa + 8 * i)) }
    if u.size ≤ 8 || u.sent || u.out.isSome then [u]
    else match u.op with
      | .load => (List.range (u.size / 8)).map (fun i => part i .load)
      | .store bs => (List.range (u.size / 8)).map (fun i => part i (.store (slice bs (8 * i) 8)))
      | _ => [u]
  | _ => [u]

/-- R113, R245: the deferred fault that a load which would move its thread reports. -/
def moveFault (t : Thread) : Option FaultInfo :=
  deferred t { guard := 0#3, drain := true }

/-- R245: a load that is to move its thread does so once the relaxed accesses before it are performed; until then its
pieces stay untranslated. -/
def tryMove (s : State) (r : TRef) (t : Thread) (us : List MUnit) : Option State :=
  match moveFault t with
  | some f => some (takeFault (s.setThread r.core r.slot
      { t with relaxed := t.relaxed.filter (fun x => x.fault.isNone) }) r.core r.slot f)
  | none =>
    match us with
    | { place := some (.page _ pkg pa), .. } :: _ =>
      if !t.relaxed.isEmpty && (migrGoal s r.core t.part pkg pa).isSome then some s
      else migrate s r.core r.slot t pkg pa t.ipc
    | _ => none

/-- R105 to R107: an outstanding access goes as far as it can: translation, checks, migration, requests. -/
def pump (s : State) (r : TRef) (rid : Option Nat) : State :=
  match s.thread? r.core r.slot with
  | none => s
  | some t =>
    match accOf t rid with
    | none => s
    | some a =>
      match translateUnits s r.core t a a.units with
      | .error f => failAcc s r rid f
      | .ok (us, some va, _) =>
        joinWalk (s.setThread r.core r.slot (putAcc t rid { a with units := us })) r t va
      | .ok (us, none, mig) => match a.bad with
       | some f => failAcc s r rid f
       | none =>
        match (if rid.isNone && autoMigrates s t a mig then tryMove s r t us else none) with
        | some s' => s'
        | none =>
          let us := us.flatMap tear
          let t := putAcc t rid { a with units := us }
          let s := s.setThread r.core r.slot t
          let x := sendUnits s r rid t us
          let s := modAcc x.1 r rid (fun a => { a with units := x.2.1, checked := true })
          if x.2.2 then postAcc s r rid else s

def pumpList (s : State) (r : TRef) : List (Option Nat) → State
  | [] => s
  | x :: xs => pumpList (pump s r x) r xs

/-- The accesses of a thread that may now go further. -/
def pumpAll (s : State) (r : TRef) : State :=
  match s.thread? r.core r.slot with
  | none => s
  | some t => pumpList s r (none :: t.relaxed.map (fun x => some x.id))

/-- R111, R112, R114: a relaxed access has been performed: a load's value is written, and what waits for it
goes on. -/
def deliverRelaxed (s : State) (r : TRef) (id : Nat) : State :=
  match s.thread? r.core r.slot with
  | none => s
  | some t =>
    match t.relaxed.find? (fun x => x.id = id) with
    | none => s
    | some x =>
      let s := s.setThread r.core r.slot { t with relaxed := t.relaxed.filter (fun y => y.id != id) }
      let s := finishAccess s r.core r.slot x.acc.fin (x.acc.units.map (fun u => u.out.getD []))
      pumpAll (wakeRelaxed (postWaiting (postFill s r.core)) r) r

/-- The access is complete when every piece has been performed: registers are written and the thread goes
on (R15, R16). -/
def completeIfDone (s : State) (r : TRef) (rid : Option Nat) : State :=
  match s.thread? r.core r.slot with
  | none => s
  | some t =>
    match accOf t rid with
    | none => s
    | some a =>
      if a.units.all (fun u => u.out.isSome) then
        match rid with
        | some id => deliverRelaxed s r id
        | none =>
          let s := finishAccess s r.core r.slot a.fin (a.units.map (fun u => u.out.getD []))
          let s := if a.load then sampleHist s t.part 0 ((s.core r.core).cyc - a.issued) else s
          finishWait s r.core r.slot
      else s

/-- A piece of an access has been performed with these bytes. -/
def setOut (us : List MUnit) (k : Nat) (o : List Byte) : List MUnit :=
  match us[k]? with
  | some u => setAt us k { u with out := some o, sent := true }
  | none => us

/-- R128, R147: whether a piece stores in a line in which a later one of its access is to store. -/
def laterLane (s : State) (r : TRef) (rid : Option Nat) (k : Nat) (u : MUnit) : Bool :=
  match u.op, u.place, (s.thread? r.core r.slot).bind (fun t => accOf t rid) with
  | .store _, some p, some a => (a.units.eraseIdx k).any (fun w => w.storesIn p)
  | _, _, _ => false

/-- R236: the bytes that a load of a pair finds, with those it holds. -/
def seenBytes (s : State) (c : Nat) (u : MUnit) (o : List Byte) : List Byte :=
  match u.op, u.place with
  | .load, some p => overlay s c p o
  | _, _ => o

/-- One piece of an access performed by a function that answers its bytes, or poison. -/
def performPiece (s : State) (r : TRef) (rid : Option Nat) (k : Nat) (u : MUnit)
    (f : State → State × Option (List Byte)) : State :=
  let f := if laterLane s r rid k u then quietly (u.place.getD (.dev 0)) f else f
  match f s with
  | (s', some o) =>
    modAcc s' r rid (fun a => { a with units := setOut a.units k (seenBytes s' r.core u o) })
  | (s', none) => failAcc s' r rid (mkFault fcPoison u.va 0#64)

/-- The pieces of an access that a test picks, performed in order. -/
def performWhere (s : State) (r : TRef) (rid : Option Nat) (pick : State → MUnit → Place → Bool)
    (f : State → MUnit → Place → State × Option (List Byte)) : List Nat → State
  | [] => s
  | k :: ks =>
    match (s.thread? r.core r.slot).bind (fun t => accOf t rid) with
    | none => s
    | some a =>
      match a.units[k]? with
      | some u =>
        (match u.place with
         | some p =>
           if u.out.isNone && pick s u p then
             performWhere (performPiece s r rid k u (fun s => f s u p)) r rid pick f ks
           else performWhere s r rid pick f ks
         | none => performWhere s r rid pick f ks)
      | none => s

/-- The numbers of an access's pieces. -/
def pieceNos (s : State) (r : TRef) (rid : Option Nat) : List Nat :=
  match (s.thread? r.core r.slot).bind (fun t => accOf t rid) with
  | some a => List.range a.units.length
  | none => []

/-- R343, R345: the pieces on a line performed now that the L1 of the core holds it well enough. -/
def performLine (s : State) (r : TRef) (rid : Option Nat) (line : Nat) : State :=
  let s := performWhere s r rid
    (fun s u p => match p with
      | .page .coherent _ pa => pa / 64 = line &&
          (match u.op with
           | .load => l1Holds (s.core r.core) (lineKey s pa) false
           | .store _ => l1Holds (s.core r.core) (lineKey s pa) true
           | _ => false)
      | _ => false)
    (fun s u p => l1Unit s r.core p.off u.size u.op) (pieceNos s r rid)
  completeIfDone s r rid

/-- An access by the thread that issues, after its operands are read: checks of order 1 and 2, then the
whole of it in the turn when it lies in the own scratchpad, or the thread leaves the rotation (R10). -/
def startAccess (s : State) (c slot : Nat) (t : Thread) (us : List MUnit) (align : Nat) (k : AKind)
    (fin : Finish) (auto sup : Bool) : State :=
  match classify s c t.part align k us with
  | (us, bad) =>
    match (if us.all (fun u => u.place.isSome) then bad else none) with
    | some f => takeFault s c slot f
    | none =>
      let r : TRef := ⟨c, slot⟩
      if allOwn us && bad.isNone && !us.any (fun u => match u.place with
          | some p => mustWait s r t none u p | none => false) then
        match ownUnits s r us with
        | (_, .error f) => takeFault s c slot f
        | (s', .ok os) => finishAccess s' c slot fin os
      else
        let a : Access := { units := us, fin := fin, checked := false, issued := (s.core c).cyc,
                            load := (match k with | .ld | .ldd | .ldq => true | _ => false),
                            auto := auto, sup := sup, bad := bad }
        pump (beginWait s c slot .waiting (.access a)) r none

/-- One untranslated piece. -/
def piece (va : Word) (size : Nat) (op : UnitOp) : MUnit :=
  { va := va, size := size, op := op, place := none, sent := false, out := none }

end Sys2Proof.Machine
end

