-- ==== Sys2Proof/Machine/Authority.lean ====
section
/-!
DEFINITION. Authority.lean: reads of tables through a thread's translation, and rights (R199, R325).
-/
namespace Sys2Proof.Machine
open Sys2Proof

/-- The pieces of [va, va + n) at line boundaries: address and length. -/
def vaPieces (va : Word) (n : Nat) : List (Word × Nat) :=
  let a := va.toNat
  (List.range ((a % 64 + n + 63) / 64)).map (fun i =>
    let lo := if i = 0 then a else (a / 64 + i) * 64
    let hi := Nat.min (a + n) ((a / 64 + i + 1) * 64)
    (BitVec.ofNat 64 lo, hi - lo))

def readPieces (s : State) (c part proc : Nat) (k : AKind) :
    List (Word × Nat) → State × Except FaultInfo (List Byte)
  | [] => (s, .ok [])
  | (va, n) :: l =>
    match resolve s c part proc va k with
    | (s, .error f) => (s, .error f)
    | (s, .ok (p, _)) =>
      let v := readPlace s c p n
      if v.2 then (s, .error (mkFault fcPoison va 0#64))
      else match readPieces s c part proc k l with
        | (s, .error f) => (s, .error f)
        | (s, .ok bs) => (s, .ok (v.1 ++ bs))

/-- Bytes read in one act through a partition's and process's translation, under orders 2 to 4 and 7 of
R107. -/
def readVa (s : State) (c part proc : Nat) (va : Word) (n : Nat) : State × Except FaultInfo (List Byte) :=
  readPieces s c part proc .ld (vaPieces va n)

/-- R199: the rights word of the first entry from the e-th on that matches. -/
def searchRights (s : State) (c part proc : Nat) (authp h : Word) (e : Nat) :
    Nat → State × Except FaultInfo (BitVec 32)
  | 0 => (s, .ok 0#32)
  | fuel + 1 =>
    match readVa s c part proc (authp + BitVec.ofNat 64 (16 + 32 * e)) 32 with
    | (s, .error f) => (s, .error f)
    | (s, .ok bs) =>
      let m := leWord ((bs.drop 8).take 8)
      if h &&& m = leWord (bs.take 8) &&& m then (s, .ok (BitVec.ofNat 32 (leNat ((bs.drop 16).take 4))))
      else searchRights s c part proc authp h (e + 1) fuel

/-- R199: the rights that a thread's authority table gives it over a handle. -/
def rightsOver (s : State) (c : Nat) (t : Thread) (h : Word) : State × Except FaultInfo (BitVec 32) :=
  if t.authp = 0#64 then (s, .ok 0#32)
  else match readVa s c t.part t.proc t.authp 4 with
    | (s, .error f) => (s, .error f)
    | (s, .ok bs) => searchRights s c t.part t.proc t.authp h 0 (Nat.min (leNat bs) 256)

/-- R199: the rights in the entry that matches the thread's own handle. -/
def ownRights (s : State) (c slot : Nat) (t : Thread) : State × Except FaultInfo (BitVec 32) :=
  rightsOver s c t (handleOf s c slot)

/-- R28: AUTH with the number of the missing right. -/
def authFault (right : Nat) : FaultInfo := mkFault fcAuth 0#64 (BitVec.ofNat 64 right)

/-- The fault of a thread that lacks a right over its own core, if it lacks it. -/
def needRight (s : State) (c slot : Nat) (t : Thread) (right : Nat) : State × Option FaultInfo :=
  match ownRights s c slot t with
  | (s, .error f) => (s, some f)
  | (s, .ok r) => (s, if r.getLsbD right then none else some (authFault right))

end Sys2Proof.Machine
end

