-- ==== Sys2Proof/Machine/Causeway.lean ====
section
/-!
DEFINITION. Causeway.lean: the Causeway operations (R209), FENCE's conditions (R125), and the events of the
Causeway ports (R253 to R270, R397).
-/
namespace Sys2Proof.Machine
open Sys2Proof

/-! ## FENCE (R125) -/

/-- R125, CW: a Causeway operation of a thread not yet applied to the local replica. -/
def cwPending (s : State) (r : TRef) : Bool :=
  s.ports.any (fun p => p.2.queue.any (fun o => o.issuer = some r) || p.2.flying.any (fun o => o.issuer = some r))

/-- R125: whether a relaxed store that is not performed yet is one a scope waits for: to a remote-posted page,
at scope 4 to a host-noncoherent page too, or to one not yet known. -/
def fenceStore (scope : Nat) (x : Relaxed) : Bool :=
  !x.load && x.fault.isNone && x.acc.units.any (fun u => match u.place with
    | none => true
    | some (.page .remotePosted _ _) => true
    | some (.page .hostNoncoherent _ _) => scope = 4
    | _ => false)

/-- R125: what FENCE waits for holds. REL holds once it has issued; a write to a host-noncoherent page is
complete when it is performed. -/
def fenceHolds (s : State) (r : TRef) (cw eng : Bool) (scope : Nat) : Bool :=
  (!eng || !s.cmds.any (fun c => c.2.thread = r && !c.2.sourcesRead)) &&
    (!cw || !cwPending s r) &&
    (decide (scope < 3) || !(s.out.any (fun p => p.2.kind = 0 && p.2.thread = some r && p.2.cmd.isNone) ||
      (match s.thread? r.core r.slot with
       | some t => t.relaxed.any (fenceStore scope)
       | none => false)))

/-- FENCE's conditions looked at again for a thread that waits in one. -/
def recheckFence (s : State) (r : TRef) : State :=
  match s.thread? r.core r.slot with
  | none => s
  | some t =>
    match t.wait with
    | .fence cw eng _ scope => if fenceHolds s r cw eng scope then finishWait s r.core r.slot else s
    | _ => s

def recheckFences (s : State) : List TRef → State
  | [] => s
  | r :: rs => recheckFences (recheckFence s r) rs

/-! ## Application (R209, R259, R261) -/

/-- Every thread of the package. -/
def allThreads (s : State) : List (TRef × Thread) :=
  s.cores.flatMap (fun k => k.2.threads.map (fun x => (⟨k.1, x.1⟩, x.2)))

/-- R209: CWFENCEs of a port whose position has been applied receive the applied count. -/
def fenceApplied (s : State) (p : Nat) : List (TRef × Thread) → State
  | [] => s
  | (r, t) :: l =>
    match t.wait with
    | .cwFence q d upto _ =>
      if q = p && decide (upto ≤ (s.port p).ownApplied) then
        fenceApplied (finishWait (writeG s r.core r.slot d (BitVec.ofNat 64 (s.port p).applied)) r.core r.slot)
          p l
      else fenceApplied s p l
    | _ => fenceApplied s p l

/-- R209: the issuer of the operation accepted after `pos` others receives the value before its application, if it
waits for that. -/
def cwAnswer (s : State) (p : Nat) (r : TRef) (pos : Nat) (old : Word) : State :=
  match s.thread? r.core r.slot with
  | none => s
  | some t =>
    match t.wait with
    | .cwResult q d n _ =>
      if q = p && n = pos then finishWait (writeG s r.core r.slot d old) r.core r.slot else s
    | _ => s

/-- R209: one operation applied to a port's replica, as one write that wakes watches; `own` is the entry of
the port's own queue it came from. -/
def applyOp (s : State) (p : Nat) (o : CwRec) (own : Option CwOp) : State :=
  let off := 8 * (o.word % 131072)
  let old := leWord (Mem.readN (s.port p).replica off 8)
  let new := match o.kind with
    | .cwst => some o.data
    | .cwadd => some (old + o.data)
    | .cwcas => if old = o.expect then some o.data else none
  let s := match new with
    | some w => writePlace s 0 (.cw p off) (wordBytes w) false
    | none => s
  let pos := (s.port p).ownApplied
  let s := s.modPort p (fun x => { x with
    applied := (x.applied + 1) % 2 ^ 64
    ownApplied := if own.isSome then x.ownApplied + 1 else x.ownApplied
    flying := if own.isSome then x.flying.drop 1 else x.flying })
  match own with
  | none => s
  | some o =>
    let s := match o.issuer with
      | none => s
      | some r => recheckFence (cwAnswer s p r pos old) r
    fenceApplied s p (allThreads s)

def applyOps (s : State) (p : Nat) (own : Bool) : List CwRec → State
  | [] => s
  | o :: os => applyOps (applyOp s p o (if own then (s.port p).flying.head? else none)) p own os

/-- R264: the view that governs a rotation. -/
def viewAt (x : Port) (rot : Nat) : Option CwView := x.views.find? (fun v => v.rotation ≤ rot)

/-- R259: the member whose slot a turn of a rotation is. -/
def memberAt (x : Port) (v : CwView) (turn : Nat) : Nat := (v.master + turn) % x.slots

/-- R259: the position after a frame, or after an empty slot. -/
def advance (x : Port) (fcount : Nat) : Port :=
  if x.nextFidx + 1 < fcount then { x with nextFidx := x.nextFidx + 1 }
  else if x.nextTurn + 1 < x.slots then { x with nextTurn := x.nextTurn + 1, nextFidx := 0 }
  else { x with nextRot := x.nextRot + 1, nextTurn := 0, nextFidx := 0 }

/-- R265: whether a later view drops a member. -/
def removedAfter (x : Port) (rot m : Nat) : Bool := x.views.any (fun w => decide (rot < w.rotation) && !w.live.getLsbD m)

/-- R265: whether some live member holds the frame of a removed member at a position. -/
def heldElse (x : Port) (rot m fidx : Nat) : Bool := x.views.any (fun w => w.held.contains (rot, m, fidx))

/-- R265: whether a slot of a removed member has a frame, here or at a live member, after the present position. -/
def moreOf (x : Port) (m : Nat) : Bool :=
  x.buffered.any (fun f => f.rotation = x.nextRot && f.member = m && decide (x.nextFidx < f.fidx)) ||
    x.views.any (fun w => w.held.any (fun h => h.1 = x.nextRot && h.2.1 = m && decide (x.nextFidx < h.2.2)))

/-- R267: snapshots of the replica as of the join point, taken when the application has come there. -/
def takeSnaps (x : Port) : Port :=
  { x with snaps := x.snaps.map (fun n =>
      if n.image.isNone && n.point = x.nextRot && x.nextTurn = 0 && x.nextFidx = 0 then { n with image := some x.replica }
      else n) }

/-- R259, R262: frames applied in order up to the first position that is missing. A slot of a member that
is not live is dark; a position of a member since removed that no live member holds is an empty frame (R265). -/
def drainPort (s : State) (p : Nat) : Nat → State
  | 0 => s
  | fuel + 1 =>
    let s := s.modPort p takeSnaps
    let x := s.port p
    match viewAt x x.nextRot with
    | none => s
    | some v =>
      if !x.views.any (fun w => x.nextRot ≤ w.rotation) then s
      else
        let m := memberAt x v x.nextTurn
        match x.buffered.find? (fun f => f.rotation = x.nextRot && f.member = m && f.fidx = x.nextFidx) with
        | some f =>
          let s := s.modPort p (fun x => { x with buffered := x.buffered.filter (· != f)
                                                  rotation := x.nextRot })
          let s := applyOps s p (m = x.index) f.ops
          drainPort (s.modPort p (fun x => advance x f.fcount)) p fuel
        | none =>
          if !v.live.getLsbD m || (removedAfter x x.nextRot m && !heldElse x x.nextRot m x.nextFidx) then
            let n := if v.live.getLsbD m && moreOf x m then x.nextFidx + 2 else 0
            drainPort (s.modPort p (fun x => { advance x n with
              holes := x.holes.filter (fun h =>
                !(h.1 = x.nextRot && h.2.1 = m && (n = 0 || h.2.2.1 = x.nextFidx))) })) p fuel
          else s

/-- R259: as much of the stream as is here is applied. -/
def drainAll (s : State) (p : Nat) : State :=
  let x := s.port p
  match x.views with
  | [] => s
  | v :: _ =>
    if x.state = .member || x.state = .recovering then
      drainPort s p ((v.rotation + 1 - x.nextRot) * x.slots + x.buffered.length +
        x.views.foldl (fun n w => n + w.held.length) 1)
    else s

/-! ## Leaving and joining (R266, R267, R397) -/

/-- R397: the CW_LEFT event of a port. -/
def logCwLeft (s : State) (p : Nat) (reason cause rotation : Nat) : State :=
  logEvent s (0xA4C + p) ((s.port p).owner.getD 0) 2 0x800D#16 0#64 0#64
    (BitVec.ofNat 64 (reason * 2 ^ 56 + cause * 2 ^ 48 + rotation % 2 ^ 48)) (nowWord s)

/-- R266: the window address that a thread waits on at a port, if it does. -/
def cwWaits (t : Thread) (p : Nat) : Option Word :=
  match t.wait with
  | .cwRoom q _ va => if q = p then some va else none
  | .cwResult q _ _ va => if q = p then some va else none
  | .cwFence q _ _ va => if q = p then some va else none
  | .waitge _ va (.cw q _) _ _ _ => if q = p then some va else none
  | .access a => (a.units.find? (fun u => match u.op, u.place with
      | .waitge _, some (.cw q _) => q = p
      | _, _ => false)).map (·.va)
  | _ => none

def faultWaiters (s : State) (p : Nat) : List (TRef × Thread) → State
  | [] => s
  | (r, t) :: l =>
    match cwWaits t p with
    | some va => faultWaiters (takeFault s r.core r.slot (prot va 1)) p l
    | none => faultWaiters s p l

/-- R266: a port leaves: its queue is discarded, its waiters fault, and it keeps nothing. -/
def portLeave (s : State) (p : Nat) (st : PortState) (cause : Nat) : State :=
  let x := s.port p
  let s := logCwLeft s p 0 cause x.rotation
  let s := s.modPort p (fun x => { x with
    state := st
    lost := x.lost + count (fun o => o.what.kind = CwOpKind.cwst) x.queue
    queue := [], flying := [], replica := [], views := [], buffered := [], kept := [], holes := []
    ask := [], owed := [], requests := [], sentRot := none, dark := [], lit := [], joiners := [], asked := false
    snapshot := false, got := 0, snaps := [], founder := false, room := [], live := 0#32 })
  let ws := allThreads s
  recheckFences (faultWaiters s p ws) (ws.map (·.1))

/-- R254, R267: JOIN written to word 7. -/
def portJoin (s : State) (p : Nat) : State :=
  match (s.port p).state with
  | .none | .removed => s.modPort p (fun x => { x with
      state := .joining, applied := 0, lost := 0, nacks := 0, accepted := 0, ownApplied := 0
      queue := [], flying := [], replica := [], views := [], buffered := [], kept := [], holes := []
      ask := [], owed := [], requests := [], dark := [], lit := [], got := 0, snaps := []
      joiners := [], asked := false, founder := false, snapshot := false, sentRot := none
      live := 0#32, rotation := 0 })
  | _ => s

/-- R269: a joining port refuses itself. -/
def refuseJoin (s : State) (p reason : Nat) : State :=
  logCwLeft (s.modPort p (fun x => { x with state := .none, asked := false, founder := false })) p reason 0 0

/-- CW_JOIN (R254, R267): the command JOIN of a port block. -/
def execCwJoin (port : Nat) (s : State) : Host.Outcome State Fault Refusal := .next (portJoin s port)

/-- CW_LEAVE (R254, R266): the command LEAVE of a port block, in state member. -/
def execCwLeave (port : Nat) (s : State) : Host.Outcome State Fault Refusal :=
  .next (if (s.port port).state = .member then portLeave s port .none 3 else s)

/-- R269: the first reason for which a joining port refuses itself on what it hears. -/
def refusal (x : Port) (h : CwHeard) : Option Nat :=
  if h.light && h.cwid != x.cwid then some 1
  else if h.light && (h.slots != x.slots || !h.period) then some 2
  else if x.slots ≤ x.index then some 3
  else if h.light && h.ownSlot then some 4
  else if h.light && h.far then some 5
  else if h.light && h.weak then some 6
  else none

/-- JOIN_LISTEN_END (R267, R268, R269): two rotations of listening are over: the port refuses itself, asks the
master it hears, or is a founder. -/
def execJoinListenEnd (port : Nat) (heard : CwHeard) (s : State) : Host.Outcome State Fault Refusal :=
  let x := s.port port
  if x.state != .joining || x.asked || x.founder then .next s
  else match refusal x heard with
    | some r => .next (refuseJoin s port r)
    | none =>
      .next (s.modPort port (fun x =>
        if heard.light then { x with asked := true } else { x with founder := true }))

/-- FOUNDER_WAIT_END (R268, R269): the founder's wait is over: it refuses itself or asks the master whose light has
appeared, or becomes master at rotation 0. -/
def execFounderWaitEnd (port : Nat) (heard : CwHeard) (s : State) : Host.Outcome State Fault Refusal :=
  let x := s.port port
  if x.state != .joining || !x.founder || x.asked || x.views != [] then .next s
  else match refusal x heard with
    | some r => .next (refuseJoin s port r)
    | none =>
      .next (s.modPort port (fun x =>
        if heard.light then { x with founder := false, asked := true }
        else { x with master := x.index
                      views := [{ rotation := 0, master := x.index, live := 0#32 }]
                      nextRot := 0, nextTurn := 0, nextFidx := 0 }))

/-- JOIN_GRANT_TIMEOUT (R269): no grant within 8 rotations of the control frame. -/
def execJoinGrantTimeout (port : Nat) (s : State) : Host.Outcome State Fault Refusal :=
  let x := s.port port
  .next (if x.state = .joining && x.asked && !x.snapshot && x.sentRot.isSome then refuseJoin s port 7 else s)

/-- R258: the lowest-indexed live member of a view. -/
def lowestLive (l : BitVec 32) : Option Nat := (List.range 32).find? (fun i => l.getLsbD i)

/-- The rotation of the newest view. -/
def lastRot (x : Port) : Nat := match x.views with | v :: _ => v.rotation | [] => 0

/-- R258, R264: the highest rotation number that a port holds: of a view, of its own burst or of a frame. -/
def nowRot (x : Port) : Nat :=
  x.kept.foldl (fun n f => max n f.rotation) (max (lastRot x) (x.sentRot.getD 0))

/-- R264: the lowest-indexed live member, the master that is lost left out, that still transmits: one of which a frame
has come in the last two rotations. -/
def recoverer (x : Port) : Option Nat :=
  (List.range 32).find? (fun i => x.live.getLsbD i && lowestLive x.live != some i &&
    (i = x.index || x.kept.any (fun f => f.member = i && decide (nowRot x ≤ f.rotation + 1))))

/-- R258, R264, R268: whether a port opens the next rotation: as the lowest-indexed live member, as the founder of a
Causeway, or as the one that takes a lost master's place. -/
def isMaster (x : Port) : Bool :=
  match x.state with
  | .member => lowestLive x.live = some x.index
  | .recovering => recoverer x = some x.index
  | .joining => (x.founder && x.views != []) || (x.snapshot && lowestLive x.live = some x.index)
  | _ => false

/-- Whether a port follows the stream: as a member, recovering, or a joiner from its join point on. -/
def hears (x : Port) : Bool :=
  x.state = .member || x.state = .recovering || (x.state = .joining && x.snapshot)

/-- FRAME_CONTROL (R267, R269): a control frame reaches the members; the master, at its next frame 0, takes the joiner
up, unless its cwid or S differs, its index is not below S, or it is live or granted already. -/
def execFrameControl (port index : Nat) (cwid : BitVec 16) (slots : Nat) (s : State) :
    Host.Outcome State Fault Refusal :=
  let x := s.port port
  if !(isMaster x || hears x) || cwid != x.cwid || slots != x.slots || x.slots ≤ index || x.live.getLsbD index ||
      x.joiners.contains index || index = x.index then .next s
  else .next (s.modPort port (fun x => { x with joiners := x.joiners ++ [index] }))

/-! ## Rotations (R258, R264, R265) -/

def setBits (l : BitVec 32) : List Nat → BitVec 32
  | [] => l
  | i :: is => setBits (l ||| (1#32 <<< i)) is

/-- R265: dark slots in a row of the members, at the opening of the rotation after `rot`. The count starts again after
a replay of a frame of a dark slot. -/
def countDark (x : Port) (rot : Nat) : Map Nat :=
  ((List.range x.slots).filter (fun i => x.live.getLsbD i)).map (fun i =>
    (i, if i = x.index || x.lit.contains i || x.kept.any (fun f => f.rotation = rot && f.member = i) then 0
        else (Map.get? x.dark i).getD 0 + 1))

/-- R265: a member whose slots of three rotations in a row were dark is dead. -/
def deadMember (x : Port) (i : Nat) : Bool := decide (3 ≤ (Map.get? x.dark i).getD 0)

/-- R264, R265, R267, R268: the view with which the master opens its next rotation. -/
def nextView (x : Port) (rot : Nat) : BitVec 32 :=
  if x.state = .joining && x.founder then
    (if rot = 8 then setBits 0#32 (x.index :: x.joiners) else 0#32)
  else
    setBits 0#32 ((List.range x.slots).filter (fun i => x.live.getLsbD i && !deadMember x i &&
      !(x.state = .recovering && lowestLive x.live = some i)) ++ x.joiners)

/-- R262: frames and requests are kept for 8 rotations. -/
def trim (x : Port) (rot : Nat) : Port :=
  { x with kept := x.kept.filter (fun f => decide (rot ≤ f.rotation + 8))
           requests := x.requests.filter (fun q => decide (rot ≤ q.1.1 + 8)) }

/-- R258, R265: a port takes a view, at the opening of its rotation. -/
def seeView (x : Port) (v : CwView) : Port :=
  trim { x with dark := countDark x (v.rotation - 1), lit := [], joiners := []
                views := v :: x.views, live := v.live, master := v.master } v.rotation

/-- R258, R264, R268: the master opens its next rotation; it grants the joiners it has heard (R267). -/
def openRotation (x : Port) (held : List (Nat × Nat × Nat)) : Port :=
  let rot := nowRot x + 1
  let y := { x with dark := countDark x (rot - 1) }
  let z := seeView x { rotation := rot, master := x.index, live := nextView y rot, held := held }
  match x.state, x.founder with
  | .joining, true =>
    if rot = 8 then { z with state := .member, founder := false, nextRot := rot, nextTurn := 0, nextFidx := 0 }
    else { z with joiners := x.joiners }
  | st, _ => { z with
      state := if st = .recovering then .member else st
      snaps := if x.joiners.isEmpty then x.snaps else x.snaps ++ [{ point := rot }] }

/-- ROTATION_OPEN (R258, R264, R265, R267, R268): a rotation opens with the master's frame 0. A port that is
itself the master makes the view; any other takes what it carries: it is granted, stays, returns from
recovering, or finds itself removed. -/
def execRotationOpen (port : Nat) (view : CwView) (s : State) : Host.Outcome State Fault Refusal :=
  let x := s.port port
  if isMaster x then .next (drainAll (s.modPort port (fun x => openRotation x view.held)) port)
  else if x.views != [] && view.rotation ≤ lastRot x then .next s
  else match x.state with
    | .joining =>
      if x.asked && !x.snapshot && view.live.getLsbD x.index then
        let y := { x with
          views := [view], live := view.live, master := view.master, sentRot := none
          nextRot := view.rotation, nextTurn := 0, nextFidx := 0, rotation := view.rotation }
        .next (s.modPort port (fun _ =>
          if view.rotation = 8 then { y with state := .member, asked := false }
          else { y with snapshot := true }))
      else if !x.snapshot then .next s
      else if view.live.getLsbD x.index then .next (s.modPort port (fun x => seeView x view))
      else .next (portLeave s port .removed 2)
    | .member | .recovering =>
      if view.live.getLsbD x.index then
        .next (drainAll (s.modPort port (fun x => { seeView x view with state := .member })) port)
      else .next (portLeave s port .removed 2)
    | _ => .next s

/-- Records cut into frames of at most 30 (R256), at most `fuel` of them. -/
def chunk (os : List CwRec) : Nat → List (List CwRec)
  | 0 => []
  | fuel + 1 => if os.isEmpty then [] else os.take 30 :: chunk (os.drop 30) fuel

/-- R262: the frames of the rotation before that a burst asks for again. -/
def asksFor (x : Port) (rot : Nat) : List (Nat × Nat) := (x.ask.filter (fun a => a.1 + 1 = rot)).map (·.2)

/-- A frame that a port keeps. -/
def keptFrame (x : Port) (q : Nat × Nat × Nat) : Option CwFrame :=
  x.kept.find? (fun f => f.rotation = q.1 && f.member = q.2.1 && f.fidx = q.2.2)

/-- R262: the frames of senders no longer live that this port replays: those it holds and every live member of a lower
index has asked for. -/
def heirFrames (x : Port) : List CwFrame :=
  (x.requests.map (·.1)).eraseDups.filterMap (fun q =>
    if x.live.getLsbD q.2.1 then none
    else if (List.range x.index).all (fun j => !x.live.getLsbD j || x.requests.contains (q, j)) then keptFrame x q
    else none)

/-- R267: the next snapshot frames, at most `n` of 960 bytes, and the snapshots that are left. -/
def snapLoads (x : Port) (n : Nat) : List CwLoad × List CwSnap :=
  match x.snaps with
  | { point := q, sent := o, image := some m } :: rest =>
    let k := min n ((1048576 - o + 959) / 960)
    ((List.range k).map (fun i => .snap (o + 960 * i) (Mem.readN m (o + 960 * i) (min 960 (1048576 - (o + 960 * i))))),
     if 1048576 ≤ o + 960 * k then rest else { point := q, sent := o + 960 * k, image := some m } :: rest)
  | l => ([], l)

/-- R258, R264: the rotation in which a port's slot has come round: that of the newest view, or the one after its last
burst where no view has come since. -/
def burstRot (x : Port) : Nat :=
  match x.sentRot with
  | some r => max (lastRot x) (r + 1)
  | none => lastRot x

/-- R256: a frame of a burst. -/
def burstFrame (x : Port) (rot n : Nat) (asks : List (Nat × Nat)) (i : Nat) (l : CwLoad) : CwFrame :=
  { rotation := rot, member := x.index, fidx := i, fcount := n
    ops := match l with | .ops os => os | _ => []
    nacks := (asks.drop (4 * i)).take 4
    view := if i = 0 then x.views.find? (fun v => v.rotation = rot && v.master = x.index) else none
    snap := match l with | .snap o bs => some (o, bs) | _ => none }

/-- R256, R258, R262: what the frames of a burst carry, in order: replays ahead of snapshot frames and new ones, but for
the master's frame 0; at least one frame, and as many as the requests need, at most 64. -/
def burstLoads (first : Bool) (extra data : List CwLoad) (asks : Nat) : List CwLoad :=
  let l := if first then data.headD (.ops []) :: (extra ++ data.drop 1)
    else if extra.isEmpty && data.isEmpty then [.ops []]
    else extra ++ data
  l ++ List.replicate (min 64 ((asks + 3) / 4) - l.length) (.ops [])

/-- R258: the own receiver hears a frame of the burst. -/
def hearOwn (s : State) (port : Nat) (f : CwFrame) : CwLoad → State
  | .ops _ => s.post (.frameData port f)
  | .replay g => s.post (.frameReplay port ⟨f, g⟩)
  | .snap o bs => s.post (.frameSnapshot port f (o, bs))

/-- R258, R260, R262, R267: a burst leaves a port: the replays it owes, the next frames of its snapshot, and, where it
owes none, frames from the head of its queue; else an idle frame. -/
def sendBurst (s : State) (port : Nat) : State :=
  let x := s.port port
  let rot := burstRot x
  let owed := x.owed ++ heirFrames x
  let sn := snapLoads x (min 16 (63 - (owed.take 63).length))
  let ops := if owed.isEmpty && x.state = .member then x.queue.take (30 * (64 - sn.1.length)) else []
  let asks := asksFor x rot
  let loads := burstLoads (x.views.any (fun v => v.rotation = rot && v.master = x.index))
    ((owed.take 63).map CwLoad.replay ++ sn.1) ((chunk (ops.map (·.what)) 64).map CwLoad.ops) asks.length
  let frames := (List.range loads.length).map (fun i =>
    (burstFrame x rot loads.length asks i (loads.getD i (.ops [])), loads.getD i (.ops [])))
  let s := s.modPort port (fun x => { x with
    queue := x.queue.drop ops.length, flying := x.flying ++ ops
    ask := x.ask.filter (fun a => decide (rot ≤ a.1)), nacks := x.nacks + min asks.length (4 * loads.length)
    kept := x.kept ++ frames.map (·.1), owed := owed.drop 63, snaps := sn.2, sentRot := some rot
    requests := x.requests.filter (fun q => x.live.getLsbD q.1.2.1) })
  let s := frames.foldl (fun s f => hearOwn s port f.1 f.2) s
  if (s.port port).room.isEmpty then s else s.post (.cwQueueAdmit port)

/-- BURST_SEND (R258, R260, R262, R267): a port's slot has come: a live member transmits its burst, and a port that has
heard a master its control frame. -/
def execBurstSend (port : Nat) (s : State) : Host.Outcome State Fault Refusal :=
  let x := s.port port
  if x.state = .joining && x.asked && !x.snapshot then
    .next (if x.sentRot.isSome then s
      else (s.modPort port (fun x => { x with sentRot := some 0 })).post (.frameControl port x.index x.cwid x.slots))
  else .next (if hears x && x.live.getLsbD x.index then sendBurst s port else s)

/-- R262: the frames of its own slot that a port owes as replays for the requests of a frame: those it keeps, and an
empty one where the slot was dark. -/
def answerNacks (x : Port) (rot : Nat) (nacks : List (Nat × Nat)) : List CwFrame :=
  nacks.flatMap (fun n =>
    if n.1 != x.index then []
    else match keptFrame x (rot, n) with
      | some f => if x.owed.contains f then [] else [f]
      | none =>
        if x.kept.any (fun f => f.rotation = rot && f.member = n.1) then []
        else [{ rotation := rot, member := n.1, fidx := n.2, fcount := 0, ops := [], nacks := [] }])

/-- R264: a view put into its place among those a port holds. -/
def insertView (v : CwView) : List CwView → List CwView
  | [] => [v]
  | w :: l =>
    if w.rotation < v.rotation then v :: w :: l
    else if w.rotation = v.rotation then w :: l
    else w :: insertView v l

/-- R262, R265: what a frame tells a port beside its operations: requests for replays; by a replay, a view that was
missed, and that a member whose slot was dark is there. -/
def noteFrame (x : Port) (f : CwFrame) (fresh : Bool) : Port :=
  if fresh then { x with
    owed := x.owed ++ answerNacks x (f.rotation - 1) f.nacks
    requests := x.requests ++ (f.nacks.filter (fun n => n.1 != x.index)).map (fun n => ((f.rotation - 1, n), f.member)) }
  else { x with
    views := match f.view with
      | some v => insertView v x.views
      | none => x.views
    lit := if lastRot x ≤ f.rotation + (Map.get? x.dark f.member).getD 0 then x.lit ++ [f.member] else x.lit }

/-- A frame taken into the stream, once, unless its sender is no member at its rotation (R265). -/
def bufferFrame (x : Port) (f : CwFrame) (fresh : Bool) : Port :=
  let removed := match viewAt x f.rotation with
    | some v => !v.live.getLsbD f.member
    | none => true
  { x with
    kept := if (f.member = x.index && fresh) || x.kept.contains f then x.kept else x.kept ++ [f]
    buffered := if removed || decide (f.rotation < x.nextRot) || x.buffered.any (fun g =>
        g.rotation = f.rotation && g.member = f.member && g.fidx = f.fidx) then x.buffered
      else x.buffered ++ [f]
    holes := x.holes.filter (fun h => !(h.1 = f.rotation && h.2.1 = f.member && h.2.2.1 = f.fidx)) }

/-- R259, R262: a frame received, by itself (`fresh`) or in a replay, and what it lets be applied. -/
def takeFrame (s : State) (port : Nat) (f : CwFrame) (fresh : Bool) : State :=
  drainAll (s.modPort port (fun x => bufferFrame (noteFrame x f fresh) f fresh)) port

/-- FRAME_DATA (R259, R261, R265): a data frame is received and, with what it completes, applied in order. -/
def execFrameData (port : Nat) (frame : CwFrame) (s : State) : Host.Outcome State Fault Refusal :=
  .next (if hears (s.port port) then takeFrame s port frame true else s)

/-- R267: replica bytes as of the join point, loaded by a joiner. -/
def loadSnap (x : Port) (off : Nat) (data : List Byte) : Port :=
  if x.state = .joining && x.snapshot && off % 960 = 0 && decide (off < 1048576) &&
      data.length = min 960 (1048576 - off) then
    { x with replica := Mem.writeN x.replica off data, got := x.got ||| 2 ^ (off / 960) }
  else x

/-- R267: the replica bytes that a frame carries, if any; once all of them have come the joiner is a member and applies
what it has buffered. -/
def takeSnap (s : State) (port : Nat) (frame : CwFrame) : State :=
  match frame.snap with
  | none => s
  | some (off, data) =>
    let s := s.modPort port (fun x => loadSnap x off data)
    let x := s.port port
    if x.state = .joining && x.snapshot && x.got = 2 ^ 1093 - 1 then
      drainAll (s.modPort port (fun x => { x with state := .member, snapshot := false, asked := false })) port
    else s

/-- FRAME_REPLAY (R262): a replayed frame fills a hole, and what was held behind it is applied, or brings replica bytes
(R267); the frame that carries it has its own place in the stream. -/
def execFrameReplay (port : Nat) (frame : CwReplay) (s : State) : Host.Outcome State Fault Refusal :=
  .next (if hears (s.port port) then
    takeSnap (takeFrame (takeFrame s port frame.carrier true) port frame.frame false) port frame.frame
  else s)

/-- FRAME_SNAPSHOT (R267): a snapshot frame is received, with the offset and the bytes of its part of the replica. -/
def execFrameSnapshot (port : Nat) (frame : CwFrame) (part : Nat × List Byte) (s : State) :
    Host.Outcome State Fault Refusal :=
  let f : CwFrame := { frame with snap := some part }
  .next (if hears (s.port port) then takeSnap (takeFrame s port f true) port f else s)

/-- R262: whether a frame of a live member that a port has not applied is not here either: frame 0 of its slot, or one
of a burst of which a frame has come. -/
def lacks (x : Port) (rotation member fidx : Nat) : Bool :=
  decide (rotation ≤ nowRot x) && x.live.getLsbD member && decide (member < x.slots) &&
    (match viewAt x rotation with
     | some v =>
       let turn := (member + x.slots - v.master % x.slots) % x.slots
       v.live.getLsbD member && (decide (x.nextRot < rotation) || (rotation = x.nextRot &&
         (decide (x.nextTurn < turn) || (turn = x.nextTurn && decide (x.nextFidx ≤ fidx)))))
     | none => false) &&
    (fidx = 0 || x.kept.any (fun f => f.rotation = rotation && f.member = member && decide (fidx < f.fcount))) &&
    !x.buffered.any (fun f => f.rotation = rotation && f.member = member && f.fidx = fidx) &&
    !x.holes.any (fun h => h.1 = rotation && h.2.1 = member && h.2.2.1 = fidx)

/-- MISSING_FRAME (R262): a frame is found missing: application stops in front of it, and its replay is asked
for in the next burst. -/
def execMissingFrame (port rotation member fidx : Nat) (s : State) : Host.Outcome State Fault Refusal :=
  let x := s.port port
  if !hears x || !lacks x rotation member fidx then .next s
  else .next (s.modPort port (fun x => { x with
    holes := x.holes ++ [(rotation, member, fidx, nowRot x)], ask := x.ask ++ [(rotation, member, fidx)] }))

/-- HOLE_TIMEOUT (R263): a hole still unfilled 8 rotations after it was detected makes the port leave. -/
def execHoleTimeout (port : Nat) (s : State) : Host.Outcome State Fault Refusal :=
  let x := s.port port
  .next (if hears x && x.holes.any (fun h => decide (h.2.2.2 + 8 ≤ nowRot x)) then portLeave s port .removed 1 else s)

/-- MASTER_LOSS (R264): no frame 0 of the master for two rotations: the member recovers. -/
def execMasterLoss (port : Nat) (s : State) : Host.Outcome State Fault Refusal :=
  .next (if (s.port port).state = .member && !isMaster (s.port port) then
    s.modPort port (fun x => { x with state := .recovering }) else s)

/-- RECOVERY_TIMEOUT (R264): recovery not complete within 100 µs makes the port leave. -/
def execRecoveryTimeout (port : Nat) (s : State) : Host.Outcome State Fault Refusal :=
  .next (if (s.port port).state = .recovering then portLeave s port .removed 4 else s)

/-! ## Operations (R209, R210) -/

/-- R260: an operation enters a port's queue. -/
def acceptOp (s : State) (p : Nat) (o : CwOp) : State :=
  s.modPort p (fun x => { x with queue := x.queue ++ [o], accepted := x.accepted + 1 })

/-- R209: the fault of a Causeway operation's address, or its port and word. -/
def cwTarget (s : State) (part : Nat) (va : Word) : Except FaultInfo (Nat × Nat) :=
  if va.toNat % 8 != 0 then .error (mkFault fcMisalign va 8#64)
  else match classOf va with
    | .cw p off =>
      if (s.port p).state != .member || (s.port p).owner != some part then .error (prot va 1)
      else .ok (p, off / 8)
    | _ => .error (prot va 1)

/-- R209, R260: a thread's operation is accepted, or waits for room; CWADD and CWCAS wait for their result. -/
def cwIssue (s : State) (c slot : Nat) (t : Thread) (va : Word) (kind : CwOpKind) (d : Nat)
    (data expect : Word) : State :=
  match cwTarget s t.part va with
  | .error f => takeFault s c slot f
  | .ok (p, w) =>
    let o : CwOp := { what := { kind := kind, word := w, data := data, expect := expect },
                      issuer := some ⟨c, slot⟩, d := d }
    if (s.port p).queue.length < 1024 && (s.port p).room.isEmpty then
      let pos := (s.port p).accepted
      let s := acceptOp s p o
      if kind = .cwst then s else beginWait s c slot .waiting (.cwResult p d pos va)
    else
      let s := s.modPort p (fun x => { x with room := x.room ++ [⟨c, slot⟩] })
      beginWait s c slot .waiting (.cwRoom p o va)

/-- CW_QUEUE_ADMIT (R260): the first operation that waits for room enters the queue. -/
def execCwQueueAdmit (port : Nat) (s : State) : Host.Outcome State Fault Refusal :=
  let x := s.port port
  match x.room with
  | [] => .next s
  | r :: rest =>
    if 1024 ≤ x.queue.length then .next s
    else
      let s := s.modPort port (fun x => { x with room := rest })
      let s := if rest.isEmpty then s else s.post (.cwQueueAdmit port)
      match s.thread? r.core r.slot with
      | none => .next s
      | some t =>
        match t.wait with
        | .cwRoom p o va =>
          let pos := (s.port p).accepted
          let s := acceptOp s p o
          if o.what.kind = .cwst then .next (finishWait s r.core r.slot)
          else .next (s.modThread r.core r.slot (fun t => { t with wait := .cwResult p o.d pos va }))
        | _ => .next s

/-- CWST (R209). -/
def execCwst (g : BitVec 3) (d a : BitVec 7) : State → Host.Outcome State Fault Refusal :=
  issue (.cwst g d a) { guard := g, g := [d.toNat, a.toNat], reads := [d.toNat, a.toNat], drain := true,
                        commit := fun _ => true }
    (fun c slot t s => cwIssue s c slot t (t.gv a.toNat) .cwst 0 (t.gv d.toNat) 0#64)

/-- CWADD (R209). -/
def execCwadd (g : BitVec 3) (d a b : BitVec 7) : State → Host.Outcome State Fault Refusal :=
  issue (.cwadd g d a b) { guard := g, g := [d.toNat, a.toNat, b.toNat], reads := [a.toNat, b.toNat],
                           writes := [d.toNat], drain := true, commit := fun _ => true }
    (fun c slot t s => cwIssue s c slot t (t.gv a.toNat) .cwadd d.toNat (t.gv b.toNat) 0#64)

/-- CWCAS (R209): d holds the expected value and receives the old one. -/
def execCwcas (g : BitVec 3) (d a b : BitVec 7) : State → Host.Outcome State Fault Refusal :=
  issue (.cwcas g d a b) { guard := g, g := [d.toNat, a.toNat, b.toNat],
                           reads := [d.toNat, a.toNat, b.toNat], writes := [d.toNat], drain := true,
                           commit := fun _ => true }
    (fun c slot t s => cwIssue s c slot t (t.gv a.toNat) .cwcas d.toNat (t.gv b.toNat) (t.gv d.toNat))

/-- CWFENCE (R209, R261). -/
def execCwfence (g : BitVec 3) (d a : BitVec 7) : State → Host.Outcome State Fault Refusal :=
  issue (.cwfence g d a) { guard := g, g := [d.toNat, a.toNat], reads := [a.toNat], writes := [d.toNat],
                           drain := true, commit := fun _ => true }
    (fun c slot t s =>
      let va := t.gv a.toNat
      match cwTarget s t.part va with
      | .error f => takeFault s c slot f
      | .ok (p, _) =>
        let x := s.port p
        if x.accepted ≤ x.ownApplied then writeG s c slot d.toNat (BitVec.ofNat 64 x.applied)
        else beginWait s c slot .waiting (.cwFence p d.toNat x.accepted va))

end Sys2Proof.Machine
end

