-- ==== Sys2Proof/Machine/Device.lean ====
section
/-!
DEFINITION. Device.lean: the registers of the device window and their partition filter (R105): kernel and
partition view blocks (R213, R324), PMS (R365), port blocks (R254), launch port (R302, R303), machine-check
banks (R376 to R378) and histogram units (R394, R395).
-/
namespace Sys2Proof.Machine
open Sys2Proof

/-! ## Registers read by threads and the host -/

def partWord (s : State) (p w : Nat) : Word := (Map.get? (s.part p).words w).getD 0#64

/-- R213: a word of the kernel view block. -/
def kernelView (s : State) (c slot : Nat) (t : Thread) (w : Nat) : Word :=
  let visitor := decide (4080 ≤ slot)
  let g := if visitor then none else s.group? t.gid
  match w with
  | 0 => match g with | some g => BitVec.ofNat 64 (if g.size = 0 then 0 else g.base) | none => 0#64
  | 1 => match g with | some g => BitVec.ofNat 64 g.size | none => 0#64
  | 2 => match (s.core c).owner with | some (_, l) => BitVec.ofNat 64 (l % 128) | none => 0#64
  | 3 => BitVec.ofNat 64 s.pkg
  | _ => 0#64

/-- R324: a word of the partition view block. -/
def partitionView (s : State) (part w : Nat) : Word :=
  let w0 := (partWord s part 0).toNat
  match w with
  | 0 => BitVec.ofNat 64 (bitsOf w0 0 12)
  | 1 => BitVec.ofNat 64 (bitsOf w0 28 8 + 256 * bitsOf w0 36 8)
  | 2 => 0x20000#64
  | 3 => 0x20000#64
  | _ => 0#64

def portStateCode : PortState → Nat
  | .none => 0
  | .joining => 1
  | .member => 2
  | .removed => 3
  | .recovering => 4

/-- R254: a word of a port block. -/
def portBlock (x : Port) (w : Nat) : Word :=
  match w with
  | 0 => BitVec.ofNat 64 (x.cwid.toNat * 2 ^ 48 + x.slots % 256 * 2 ^ 32 + x.index % 32 * 2 ^ 24 +
      portStateCode x.state)
  | 1 => x.live.zeroExtend 64
  | 2 => BitVec.ofNat 64 x.applied
  | 3 => BitVec.ofNat 64 (x.rotation % 2 ^ 48)
  | 4 => BitVec.ofNat 64 x.lost
  | 5 => BitVec.ofNat 64 x.nacks
  | 6 => BitVec.ofNat 64 x.queue.length
  | _ => 0#64

/-- R302: a word of the launch port. -/
def launchPort (P : Part) (w : Nat) : Word :=
  match w with
  | 0 => P.lpProc.zeroExtend 64
  | 3 => P.lpSeq.zeroExtend 64 <<< 32 ||| P.lpDropped.zeroExtend 64 <<< 16 ||| P.lpStatus.zeroExtend 64
  | _ => 0#64

/-- R378: a word of a record. -/
def recordWord (r : McRecord) (seq w : Nat) : Word :=
  match w with
  | 0 => BitVec.ofNat 64 (r.part * 2 ^ 52 + r.cls * 2 ^ 48 + r.event.toNat)
  | 1 => r.addr
  | 2 => r.who
  | 3 => r.extra
  | 4 => r.cycle
  | 5 => BitVec.ofNat 64 seq
  | _ => 0#64

/-- R377: a word of the header of a bank. -/
def bankHeader (s : State) (bank w : Nat) : Word :=
  let b := (Map.get? s.banks bank).getD {}
  match w with
  | 0 => BitVec.ofNat 64 b.written
  | 1 => BitVec.ofNat 64 b.corrected
  | 2 => BitVec.ofNat 64 b.contained
  | 3 => BitVec.ofNat 64 b.fatal
  | 4 => BitVec.ofNat 64 b.discard
  | 5 =>
    if bank < 0x820 then
      let k := s.core bank
      let odd := match k.lock with | some L => L.odd | none => false
      BitVec.ofNat 64 ((if odd then 2 ^ 28 else 0) + k.ways.toNat * 2 ^ 24 + ones k.rows * 2 ^ 16 +
        k.fencedFns.toNat * 2 ^ 8 +
        (if k.fenced then 2 else if k.fencedFns != 0#8 then 1 else 0))
    else BitVec.ofNat 64 (0xF * 2 ^ 24 + 64 * 2 ^ 16 + if b.fenced then 2 else 0)
  | 6 => BitVec.ofNat 64 b.lost
  | _ => 0#64

/-- R376: the record in a block of the ring, with its number. -/
def ringRecord (b : Bank) (block : Nat) : Option (McRecord × Nat) :=
  ((List.range b.ring.length).filterMap (fun i =>
    let n := b.written - 1 - i
    if n % 15 = block - 1 then (b.ring[i]?).map (fun r => (r, n)) else none)).head?

/-- R376: a word of a bank; `see` tells which records its reader may see. -/
def bankWord (s : State) (bank off : Nat) (see : McRecord → Bool) : Word :=
  let block := off / 64
  let w := off / 8 % 8
  if block = 0 then bankHeader s bank w
  else match ringRecord ((Map.get? s.banks bank).getD {}) block with
    | some (r, n) => if see r then recordWord r (n + 1) w else 0#64
    | none => 0#64

/-- R376: whether a bank number is assigned. -/
def bankExists (b : Nat) : Bool :=
  b < 0x820 || (0x900 ≤ b && b < 0x980) || (0xA00 ≤ b && b < 0xA04) || (0xA08 ≤ b && b < 0xA0C) ||
    (0xA10 ≤ b && b < 0xA34) || (0xA38 ≤ b && b < 0xA3C) || (0xA40 ≤ b && b < 0xA44) ||
    (0xA48 ≤ b && b < 0xA50)

/-- R376: the bank that a thread's bank index names, when the partition filter passes it. -/
def threadBank (s : State) (part idx : Nat) : Option Nat :=
  let ctab := (s.part part).ctab
  if idx < 0x800 then ctab[idx]?
  else if idx < 0x820 then (if ctab.contains idx then some idx else none)
  else if bankExists idx then some idx
  else none

/-- R394: a word of a histogram unit. -/
def histWord (h : Hist) (w : Nat) : Word :=
  if w = 0 then h.cfg.zeroExtend 64
  else if w = 1 then BitVec.ofNat 64 h.count
  else if w = 2 then BitVec.ofNat 64 h.min
  else if w = 3 then BitVec.ofNat 64 h.max
  else if w = 4 then BitVec.ofNat 64 h.sum
  else if 8 ≤ w ∧ w < 24 then BitVec.ofNat 64 ((Map.get? h.buckets (w - 8)).getD 0)
  else 0#64

def histOf (s : State) (part u : Nat) : Hist := (Map.get? (s.part part).hists u).getD {}

/-! ## Histogram units (R394, R395) -/

def setHist (s : State) (part u : Nat) (h : Hist) : State :=
  s.modPart part (fun P => { P with hists := Map.set P.hists u h })

/-- R394: the CLEAR bit. -/
def histClear (s : State) (part u : Nat) : State :=
  setHist s part u { cfg := (histOf s part u).cfg, count := 0, min := 2 ^ 64 - 1, max := 0, sum := 0,
                     buckets := [] }

/-- R394: a write of word 0; one that names a reserved source is ignored whole. -/
def histConfig (s : State) (part u : Nat) (v : Word) : State :=
  if 5 < bitsOf v.toNat 4 8 then s
  else
    let s := if v.getLsbD 1 then histClear s part u else s
    setHist s part u { histOf s part u with cfg := v.truncate 16 &&& ~~~2#16 }

/-- R395: floor(log2 v) of a positive number. -/
def log2Floor (v : Nat) : Nat := digits 64 v - 1

/-- R395: the bucket of a sample. -/
def bucketOf (shift v : Nat) : Nat :=
  if v < 2 ^ shift then 0 else Nat.min 15 (log2Floor v - shift + 1)

/-- R395: a sample taken. -/
def histSample (h : Hist) (v : Nat) : Hist :=
  let sat := fun n => Nat.min n (2 ^ 64 - 1)
  let b := bucketOf (bitsOf h.cfg.toNat 12 4) v
  { cfg := h.cfg, count := sat (h.count + 1), min := Nat.min h.min v, max := Nat.max h.max v,
    sum := sat (h.sum + v), buckets := Map.set h.buckets b (sat ((Map.get? h.buckets b).getD 0 + 1)) }

/-- HISTOGRAM_CONFIG (R394). -/
def execHistogramConfig (part unit : Nat) (value : Word) (s : State) : Host.Outcome State Fault Refusal :=
  .next (if unit < 8 then histConfig s part unit value else s)

/-- HISTOGRAM_CLEAR (R394, R395). -/
def execHistogramClear (part unit : Nat) (s : State) : Host.Outcome State Fault Refusal :=
  .next (if unit < 8 then histClear s part unit else s)

/-- HISTOGRAM_SAMPLE (R395): a unit that is on and not frozen takes the sample. -/
def execHistogramSample (part unit : Nat) (sample : Word) (s : State) : Host.Outcome State Fault Refusal :=
  let h := histOf s part unit
  .next (if unit < 8 && h.cfg.getLsbD 0 && !h.cfg.getLsbD 2 then
    setHist s part unit (histSample h sample.toNat) else s)

/-! ## The launch port (R302, R303, R314) -/

/-- R303: a write to word 1 or 2 is taken up, or ignored while another submission is undecided. -/
def portSubmit (s : State) (part : Nat) (addr : Word) (graph : Bool) : State :=
  if s.subs.any (fun x => x.part = part && x.thread.isNone) then
    s.modPart part (fun P => { P with lpDropped := P.lpDropped + 1#16 })
  else
    let x : Submission := { id := s.fresh, part := part, proc := (s.part part).lpProc.toNat, addr := addr,
                            graph := graph, thread := none }
    (({ s with subs := s.subs ++ [x] } : State).bump).post (.launchAccept s.fresh)

/-- LAUNCH_PORT_HEADER (R303). -/
def execLaunchPortHeader (part : Nat) (addr : Word) (s : State) : Host.Outcome State Fault Refusal :=
  .next (portSubmit s part addr false)

/-- LAUNCH_PORT_GRAPH (R314). -/
def execLaunchPortGraph (part : Nat) (addr : Word) (s : State) : Host.Outcome State Fault Refusal :=
  .next (portSubmit s part addr true)

/-- R302: a write of a word of a launch port; words 3 to 7 ignore it. -/
def launchPortWrite (s : State) (part w : Nat) (v : Word) : State :=
  match w with
  | 0 => s.modPart part (fun P => { P with lpProc := v.truncate 16 })
  | 1 => portSubmit s part v false
  | 2 => portSubmit s part v true
  | _ => s

/-! ## The device window of a thread (R105) -/

/-- PROT, sub-code 4. -/
def filterFault (va : Word) : FaultInfo := prot va 4

/-- R105: an LDD of a register. -/
def deviceRead (s : State) (c slot : Nat) (t : Thread) (va : Word) (off : Nat) :
    State × Except FaultInfo Word :=
  let w := off / 8 % 8
  if off < 0x40 then (s, .ok (kernelView s c slot t w))
  else if off < 0x80 then (s, .ok (partitionView s t.part w))
  else if off = 0x80 then (s, .ok t.pms)
  else if 0x100 ≤ off ∧ off < 0x200 then
    let x := s.port ((off - 0x100) / 0x40)
    if x.owner = some t.part then (s, .ok (portBlock x w)) else (s, .error (filterFault va))
  else if 0x400 ≤ off ∧ off < 0x440 then (s, .ok (launchPort (s.part t.part) w))
  else if 0x400000 ≤ off ∧ off < 0x800000 then
    match threadBank s t.part ((off - 0x400000) / 0x400) with
    | none =>
      match needRight s c slot t 9 with
      | (s, some f) => (s, .error f)
      | (s, none) => (s, .error (filterFault va))
    | some bank =>
      match needRight s c slot t 9 with
      | (s, some f) => (s, .error f)
      | (s, none) =>
        (s, .ok (bankWord s bank (off % 0x400) (fun r => bank < 0x820 || r.part = t.part)))
  else if 0x800000 ≤ off ∧ off < 0x800800 then
    (s, .ok (histWord (histOf s t.part ((off - 0x800000) / 0x100)) (off % 0x100 / 8)))
  else (s, .error (filterFault va))

/-- R365: the milestone address that a value written to PMS records. -/
def pmsTranslate (s : State) (c : Nat) (t : Thread) (v : Word) : State × Except FaultInfo (Option Nat) :=
  let va := v &&& ~~~7#64
  if va = 0#64 then (s, .ok none)
  else match resolve s c t.part t.proc va .ldd with
    | (s, .error f) => (s, .error f)
    | (s, .ok (.page .remotePosted pkg pa, _)) => (s, .ok (some (domAddr pkg pa)))
    | (s, .ok (.page .coherent pkg pa, _)) => (s, .ok (some (domAddr pkg pa)))
    | (s, .ok _) => (s, .error (prot va 3))

/-- R365: PMS written. -/
def pmsWrite (s : State) (c slot : Nat) (t : Thread) (v : Word) : State × Except FaultInfo Unit :=
  match pmsTranslate s c t v with
  | (s, .error f) => (s, .error f)
  | (s, .ok a) => (s.modThread c slot (fun t => { t with pms := v &&& ~~~7#64, pmsPhys := a }), .ok ())

/-- R254: a write of word 7 of a port block. -/
def portCommand (s : State) (p : Nat) (v : Word) : State :=
  match bitsOf v.toNat 0 2 with
  | 1 => portJoin s p
  | 2 => if (s.port p).state = .member then portLeave s p .none 3 else s
  | _ => s

/-- R105: an STD to a register. -/
def deviceWrite (s : State) (c slot : Nat) (t : Thread) (va : Word) (off : Nat) (v : Word) :
    State × Except FaultInfo Unit :=
  let w := off / 8 % 8
  if off = 0x80 then pmsWrite s c slot t v
  else if 0x100 ≤ off ∧ off < 0x200 then
    let p := (off - 0x100) / 0x40
    if (s.port p).owner = some t.part && w = 7 then (portCommand s p v, .ok ())
    else (s, .error (filterFault va))
  else if 0x400 ≤ off ∧ off < 0x440 then
    if w = 1 || w = 2 then
      match needRight s c slot t 10 with
      | (s, some f) => (s, .error f)
      | (s, none) => (launchPortWrite s t.part w v, .ok ())
    else (launchPortWrite s t.part w v, .ok ())
  else if 0x400000 ≤ off ∧ off < 0x800000 then
    (s, .error (filterFault va))
  else if 0x800000 ≤ off ∧ off < 0x800800 ∧ off % 0x100 = 0 then
    (histConfig s t.part ((off - 0x800000) / 0x100) v, .ok ())
  else (s, .error (filterFault va))

/-- R394: the level that a source samples. -/
def levelOf (s : State) (part source : Nat) : Nat :=
  match source with
  | 3 => count (fun l : Nat × Launch => l.2.part = part && l.2.ready.isSome && l.2.entered) s.launches
  | 4 => ((s.ports.filter (fun p => p.2.owner = some part)).map (fun p => p.2.queue.length)).sum
  | _ => count (fun p : Nat × FabricPacket => p.2.part = part) s.out

/-- R394: the level samples of a cycle. -/
def levelSamples (s : State) : List Event :=
  s.parts.flatMap (fun P => P.2.hists.filterMap (fun h =>
    let src := bitsOf h.2.cfg.toNat 4 8
    if h.2.cfg.getLsbD 0 && h.2.cfg.getLsbD 3 && !h.2.cfg.getLsbD 2 && 3 ≤ src &&
        s.now % 2 ^ bitsOf h.2.cfg.toNat 12 4 = 0 then
      some (.histogramSample P.1 h.1 (BitVec.ofNat 64 (levelOf s P.1 src)))
    else none))

end Sys2Proof.Machine
end

