-- ==== Sys2Proof/Machine/Rotation.lean ====
section
/-!
DEFINITION. Rotation.lean: the events of a core's rotation, register cache, contexts and visitor slots
(R11, R20 to R23, R243, R244).
-/
namespace Sys2Proof.Machine
open Sys2Proof

/-! ## The rotation (R11) -/

/-- R388, R391, R393: whether a core issues nothing: its cycles are withheld, or the package does not run. -/
def issueStopped (s : State) (c : Nat) : Bool :=
  s.plat.off || s.plat.recovery || s.plat.hot.contains (coreDie c)

/-- ROTATION_FILL (R11): the head of the ready queue, READY since an earlier cycle, takes the empty position
of the present cycle. No position is filled while a self-test runs (R207) or the core's issue cycles are
withheld (R391). -/
def execRotationFill (core : Nat) (s : State) : Host.Outcome State Fault Refusal :=
  let k := s.core core
  if Map.has k.rot (k.cyc % 16) || k.selft.isSome || issueStopped s core then .next s
  else match k.ready with
    | [] => .next s
    | (slot, y) :: rest =>
      if k.cyc ≤ y then .next s
      else
        .next ((s.setCore core { k with rot := Map.set k.rot (k.cyc % 16) slot, ready := rest }).modThread
          core slot (fun t => { t with code := .running }))

/-! ## Register fills (R20) -/

/-- R20, R218: the fill of a register brings the line of its backing area to the L1, as a private line. MODEL'S CHOICE (log
entry 90): which line is open, and it holds nothing that another access could reach. -/
def fillLine (s : State) (c : Nat) : State :=
  fillL1 { s with free := s.free + 1 } c (2 ^ 60 + Config.layLine s.free) { st := .e, kind := .priv, data := [] }

def reserveAll (s : State) (c slot : Nat) : List Nat → State
  | [] => s
  | r :: rs => reserveAll (rcPut (fillLine s c) c slot r .reserved) c slot rs

/-- REGISTER_FILL_ADMIT (R20): the first waiting request is admitted, whole, when an entry would remain
neither pending nor reserved. -/
def execRegisterFillAdmit (core : Nat) (s : State) : Host.Outcome State Fault Refusal :=
  let k := s.core core
  match k.fillq with
  | [] => .next s
  | slot :: rest =>
    match s.thread? core slot with
    | none => .next (postFill (s.setCore core { k with fillq := rest }) core)
    | some t =>
      match t.wait with
      | .fill regs =>
        let need := regs.filter (fun r => r < 128 && cold k t slot r)
        if busyEntries k + need.length < rcSize k then
          let s := reserveAll (s.setCore core { k with fillq := rest }) core slot need
          .next (postFill (s.post (.registerFillComplete core slot)) core)
        else .next s
      | .entry d =>
        if busyEntries k + 1 < rcSize k then
          let s := rcPut (s.setCore core { k with fillq := rest }) core slot d .reserved
          .next (postFill (resumeIssue s core slot) core)
        else .next s
      | _ => .next (postFill (s.setCore core { k with fillq := rest }) core)

/-- REGISTER_FILL_COMPLETE (R20, R112): every register the waiting instruction needs is there, and it may
issue. -/
def execRegisterFillComplete (core slot : Nat) (s : State) : Host.Outcome State Fault Refusal :=
  match s.thread? core slot with
  | none => .next s
  | some t =>
    match t.wait with
    | .fill regs =>
      if (s.core core).fillq.contains slot || regs.any (fun r => pendingG t r) ||
          regs.any (fun r => 128 ≤ r && pendingV t (r - 128)) then .next s
      else .next (resumeIssue s core slot)
    | _ => .next s

/-! ## Contexts (R12, R22, R23) -/

/-- The resident threads of a core, visitors apart. -/
def residents (k : Core) : Map Thread := k.threads.filter (fun x => x.1 < 4080 && !x.2.away)

/-- The recruits on their way to a core (R241). -/
def recruits (s : State) (c : Nat) : List Packet :=
  (s.packets.map (·.2)).filter (fun p => p.target = c && p.slot.isSome)

/-- R336: whether a group is saved. -/
def isSaved (s : State) (gid : Nat) : Bool := ((s.group? gid).bind (·.saved)).isSome

/-- The threads of a core whose claims it holds: a spilled thread keeps its claim, a saved one does not (R308). -/
def claimants (s : State) (c : Nat) : Map Thread :=
  (s.core c).threads.filter (fun x => x.1 < 4080 && !isSaved s x.2.gid)

/-- R240: the launches of the groups on a core that keep their claims though none of their threads is left there. -/
def draining (s : State) (c : Nat) : List Header :=
  (s.groups.map (·.2)).filterMap (fun g =>
    if g.core = c && g.saved.isNone && !hasThreads s { g with away := 0 } then
      (s.launch? g.lid).map (·.hdr)
    else none)

/-- R240, R306: slots and contexts that such groups keep. -/
def drainSlots (s : State) (c : Nat) : Nat := ((draining s c).map (·.gsize)).sum

/-- R17: registers of a pool in use. -/
def vUsed (s : State) (c : Nat) : Nat :=
  ((claimants s c).map (fun x => x.2.m)).sum + ((recruits s c).map (fun p => p.thread.m)).sum +
    ((draining s c).map (fun h => h.gsize * h.vclaim)).sum

def zUsed (s : State) (c : Nat) : Nat :=
  ((claimants s c).map (fun x => x.2.zc)).sum + ((recruits s c).map (fun p => p.thread.zc)).sum +
    ((draining s c).map (fun h => h.gsize * h.zclaim)).sum

def poolsFit (s : State) (c m z : Nat) : Bool :=
  vUsed s c + m ≤ 1024 && zUsed s c + z ≤ 64

/-- R12: contexts in use. -/
def contexts (s : State) (c : Nat) : Nat :=
  (residents (s.core c)).length + (s.core c).reservedSlots.length + drainSlots s c

/-- R12: handle slots in use, the visitors' apart. -/
def slotsUsed (s : State) (c : Nat) : Nat :=
  count (fun x : Nat × Thread => x.1 < 4080) (s.core c).threads + (s.core c).reservedSlots.length + drainSlots s c

/-- R22: the thread that has been so longest, of those that a test allows. MODEL'S CHOICE (log entry 78): of several
that have been so equally long, the one in the lowest slot. -/
def longest (m : Map Thread) (p : Thread → Bool) : Option Nat :=
  (m.filter (fun x => p x.2)).foldl (fun best x =>
    match best with
    | none => some x.1
    | some b => match Map.get? m b with
      | some y => if x.2.since < y.since then some x.1 else some b
      | none => some x.1) none

/-- R22: the thread that a core spills next. -/
def spillChoice (k : Core) : Option Nat :=
  match longest (residents k) (fun t => t.code = .stopped || t.code = .faulted) with
  | some x => some x
  | none => longest (residents k) (fun t => t.code = .sleeping)

/-- R22: a thread is spilled to the lay-by; its pending entries last (R20). -/
def spill (s : State) (c slot : Nat) : State :=
  let s := s.modThread c slot (fun t =>
    { t with away := true, code := if t.code = .sleeping then .spilled else t.code })
  postFill (s.modCore c (fun k => rcSpill k slot)) c

/-- R22: a free context, made by a spill when there is none. -/
def freeContext (s : State) (c : Nat) : Option State :=
  if contexts s c < 512 then some s
  else match spillChoice (s.core c) with
    | some x => some (spill s c x)
    | none => none

/-- R241: the lowest free handle slot from a number on. -/
def lowestSlot (k : Core) (a : Nat) : Nat → Option Nat
  | 0 => none
  | fuel + 1 =>
    if Map.has k.threads a || k.reservedSlots.contains a then lowestSlot k (a + 1) fuel else some a

/-- R333: bytes of a partition's lay-by pool not in use. -/
def layByRoom (s : State) (part : Nat) : Nat :=
  let pages := bitsOf ((Map.get? (s.part part).words 5).getD 0#64).toNat 0 32
  65536 * pages - (s.part part).poolUsed

/-- R308: a thread created in a group that is being pre-empted is held at once. -/
def holdNew (s : State) (c slot gid lid : Nat) : State :=
  match s.group? gid, s.launch? lid with
  | some g, some l =>
    if l.preempting && g.saved.isNone then
      stopThread (s.modThread c slot (fun t => { t with hold := true, latch := true })) c slot
    else s
  | _, _ => s

/-- R380, R382: whether the threads of a core are being stopped, and a new one with them. -/
def coreStopping (s : State) (c : Nat) : Bool :=
  s.plat.outOfService || (match (s.core c).owner with
    | some (p, _) => (s.part p).state = .busy
    | none => false)

/-- R386: a thread that a paired core is given between two commits is part of its checkpoint. -/
def snapThread (s : State) (c slot : Nat) : State :=
  match (s.core c).lock, s.thread? c slot with
  | some L, some t => s.modCore c (fun k => { k with lock := some { L with snap := Map.set L.snap slot t } })
  | _, _ => s

/-- R15, R21: a thread allocated in a slot, READY; one in a partition that is being stopped is held at once. -/
def allocThread (s : State) (c slot : Nat) (t : Thread) : State :=
  let s := snapThread (makeReady (s.setThread c slot { t with away := false, code := .ready }) c slot) c slot
  if coreStopping s c then
    stopThread (s.modThread c slot (fun t => { t with hold := true, latch := true })) c slot
  else s

/-! ## Thread packets (R189, R193, R243) -/

/-- R189, R192, R244: the thread that waits for a packet, and the register its result goes to. -/
def packetIssuer (s : State) (p : Packet) : Option (TRef × Thread × Nat) :=
  p.issuer.bind (fun r => (s.thread? r.core r.slot).bind (fun t =>
    match t.wait with
    | .packet d _ => some (r, t, d)
    | _ => none))

/-- The result of a packet that has been taken, to its issuer here or in another package. -/
def packetDone (s : State) (p : Packet) (w : Word) : State :=
  let s := match packetIssuer s p with
    | some (r, _, d) => finishWait (writeG s r.core r.slot d w) r.core r.slot
    | none => s
  match p.reply with
  | some n => sendReply s n [0#8]
  | none => s

/-- R189: a SPAWN's thread created at its target, when it has a handle slot, pool and lay-by room and a
context; the issuer receives its handle. -/
def trySpawn (s : State) (p : Packet) : Option State :=
  let c := p.target
  let t := p.thread
  let room := backing t.n t.m t.zc
  match lowestSlot (s.core c) 0 4080 with
  | none => none
  | some slot =>
    if isSaved s t.gid || 4080 ≤ slotsUsed s c || !poolsFit s c t.m t.zc || layByRoom s t.part < room then none
    else match freeContext s c with
      | none => none
      | some s =>
        let s := allocThread { s with packets := Map.erase s.packets p.id } c slot { t with room := room }
        let s := s.modPart t.part (fun q => { q with poolUsed := q.poolUsed + room })
        let s := holdNew s c slot t.gid t.lid
        some (packetDone s p (handleOf s c slot))

/-- R193: a recruit created in the slot its FORK took. -/
def startRecruit (s : State) (p : Packet) (slot : Nat) : State :=
  let s := { s with packets := Map.erase s.packets p.id }
  let s := s.modCore p.target (fun k => { k with reservedSlots := k.reservedSlots.filter (· != slot) })
  holdNew (allocThread s p.target slot p.thread) p.target slot p.gid p.lid

/-- R191, R244: a migrant starts in a visitor slot, with what it had accepted and posted; its old slot is freed, and an
SSTOP that it got on its way holds. -/
def takeMigrant (s : State) (p : Packet) (slot : Nat) : State :=
  let s' := match packetIssuer s p with
    | some (r, _, _) => leaveSlot (moveWork s r ⟨p.target, slot⟩) r
    | none => s
  let s' := allocThread s' p.target slot p.thread
  let s' := match packetIssuer s p with
    | some (_, u, _) => if u.sstop then
        stopThread (s'.modThread p.target slot (fun t => { t with sstop := true })) p.target slot
      else s'
    | none => s'
  match p.reply with
  | some n => sendReply s' n [0#8]
  | none => s'

/-- R244, R192: a migrant or a message takes the lowest free visitor slot. A migrant's old slot is freed;
a message's sender receives 0. -/
def takeVisitor (s : State) (p : Packet) (slot : Nat) : State :=
  let s := { s with packets := Map.erase s.packets p.id }
  if p.kind = 1 then takeMigrant s p slot
  else packetDone (allocThread s p.target slot p.thread) p 0#64

/-- R192, R384: the core of this package that a message names; a shadow has no name. -/
def messageCore (s : State) (part lcore : Nat) : Option Nat :=
  match (s.part part).ctab[lcore]? with
  | some c => if ((s.core c).lock.map (·.odd)).getD false then none else some c
  | none => none

/-- R191, R326: the launch of this package that a thread from another one runs in: of a message, one that the core
hosts; of a migrant, one with MIGRANT that is placed. MODEL'S CHOICE (log entry 79): the first of them. -/
def foreignLaunch (s : State) (kind part c : Nat) : Option Launch :=
  ((s.groups.map (·.2)).filterMap (fun g =>
    if g.saved.isSome || (kind != 1 && g.core != c) then none
    else (s.launch? g.lid).filter (fun l => l.part = part && (kind != 1 || l.hdr.migrant)))).head?

/-- R192, R243, R244: a thread packet of another package goes on to the core that it names. A message that names no
core, or a core without a group, is answered so; a migrant, which never fails, waits for its core. A migrant takes the
launch's authority template, a message none (R326). -/
def foreignPacket (s : State) (x : FabricPacket) (m : Packet) : State :=
  let taken := { s with inbox := Map.erase s.inbox x.id }
  match messageCore s x.part m.target with
  | none => if m.kind = 2 then sendReply taken x.id [2#8] else s
  | some q =>
    let l := foreignLaunch s m.kind x.part q
    if m.kind = 2 && l.isNone then sendReply taken x.id [1#8]
    else if m.kind = 1 || m.kind = 2 then
      let p : Packet :=
        { id := s.fresh, target := q, words := m.words, marks := m.marks, part := x.part
          lid := (l.map (·.lid)).getD 0, proc := (l.map (·.hdr.proc)).getD 0, geom := (l.map (·.hdr.geom)).getD 0#64
          auth := if m.kind = 1 then (l.map (·.hdr.auth)).getD 0#64 else 0#64
          handler := m.kind = 2 || m.handler, reply := some x.id, origin := if m.kind = 1 then some x.id else none }
      (({ taken with packets := Map.set s.packets s.fresh p } : State).bump).post (.threadPacketArrive s.fresh)
    else s

/-- A thread packet that has reached this package. -/
def takeForeign (s : State) (id : Nat) : State :=
  match Map.get? s.inbox id with
  | none => s
  | some x =>
    match x.carried with
    | none => s
    | some m => if x.kind = 5 then foreignPacket s { x with id := id } m else s

/-- THREAD_PACKET_ARRIVE (R243): the packet's thread is created, or waits for room at the target. -/
def execThreadPacketArrive (id : Nat) (s : State) : Host.Outcome State Fault Refusal :=
  match Map.get? s.packets id with
  | none => .next (takeForeign s id)
  | some p =>
    let k := s.core p.target
    if k.ctxWait.contains (.packet id) || k.visitWait.contains id then .next s
    else match p.slot with
      | some slot => .next (startRecruit s p slot)
      | none =>
        if p.kind = 0 then
          match (if k.ctxWait.isEmpty then trySpawn s p else none) with
          | some s' => .next s'
          | none => .next (s.setCore p.target { k with ctxWait := k.ctxWait ++ [.packet id] })
        else
          match (if k.visitWait.isEmpty then lowestSlot k 4080 16 else none) with
          | some slot => .next (takeVisitor s p slot)
          | none => .next (s.setCore p.target { k with visitWait := k.visitWait ++ [id] })

/-- CONTEXT_GRANT (R22): the first that waits for a context, a packet's thread, is served. -/
def execContextGrant (core : Nat) (s : State) : Host.Outcome State Fault Refusal :=
  let k := s.core core
  match k.ctxWait with
  | .packet id :: rest =>
    match Map.get? s.packets id with
    | none => .next (postCtx (s.setCore core { k with ctxWait := rest }) core)
    | some p =>
      match trySpawn (s.setCore core { k with ctxWait := rest }) p with
      | some s' => .next (postCtx s' core)
      | none => .next s
  | _ => .next s

/-- VISITOR_SLOT_GRANT (R244): the first packet that waits takes a freed visitor slot. -/
def execVisitorSlotGrant (core : Nat) (s : State) : Host.Outcome State Fault Refusal :=
  let k := s.core core
  match k.visitWait with
  | [] => .next s
  | id :: rest =>
    let s' := s.setCore core { k with visitWait := rest }
    match Map.get? s.packets id, lowestSlot k 4080 16 with
    | none, _ => .next s'
    | some _, none => .next s
    | some p, some slot =>
      let s' := takeVisitor s' p slot
      .next (if (s'.core core).visitWait.isEmpty then s' else s'.post (.visitorSlotGrant core))

/-- THREAD_FILL (R23): the first that waits for a context, a woken SPILLED thread, takes one, and its fill
starts. Its vector and stream registers are still claimed: a claim lasts across spills. -/
def execThreadFill (core : Nat) (s : State) : Host.Outcome State Fault Refusal :=
  let k := s.core core
  match k.ctxWait with
  | .fill slot :: rest =>
    match s.thread? core slot with
    | none => .next (postCtx (s.setCore core { k with ctxWait := rest }) core)
    | some _ =>
      match freeContext s core with
      | none => .next s
      | some s' =>
        let s' := s'.modCore core (fun k => { k with ctxWait := rest })
        let s' := s'.modThread core slot (fun t => { t with away := false })
        .next (postCtx (s'.post (.threadFillComplete core slot)) core)
  | _ => .next s

/-- THREAD_FILL_COMPLETE (R23): the thread's state is back in its context, and it becomes READY. -/
def execThreadFillComplete (core slot : Nat) (s : State) : Host.Outcome State Fault Refusal :=
  match s.thread? core slot with
  | some t => .next (if t.code = .spilled && !t.away then makeReady s core slot else s)
  | none => .next s

end Sys2Proof.Machine
end

