-- ==== Sys2Proof/Machine/Fetch.lean ====
section
/-!
DEFINITION. Fetch.lean: what an issue turn fetches (R63, orders 1 to 3), what the end of a core's cycle looks at (R131,
R351, R385), and a program placed by hand.
-/
namespace Sys2Proof.Machine
open Sys2Proof

/-- R11: the present position of the core whose turn it is, filled if it can be. -/
def fillPosition (s : State) : State :=
  match execRotationFill s.turn s with
  | .next s' => s'
  | _ => s

/-- What a turn fetches. -/
inductive Fetched where
  | idle
  | fault (core slot : Nat) (f : FaultInfo)
  | run (i : Instr)
  deriving DecidableEq, Repr

/-- A fault of an instruction that was fetched, its word with it. -/
def fetchFault (code : BitVec 16) (addr : Word) (w : BitVec 32) (extra : Nat) : FaultInfo :=
  { code := code, addr := addr, word := w, extra := BitVec.ofNat 64 extra, flags := 0#16 }

/-- R67, R68: the words that an instruction at `pc` has, as the scratchpad holds them. -/
def codeBytes (k : Core) (pc : Nat) : List Byte :=
  if pc % 32 = 0 then Mem.readN k.spad pc 32 else Mem.readN k.spad pc 4

/-- R63, orders 1 to 3, for a thread's pc: its instruction, or the fault. DESIGN CHOICE (log 92): word 4 of the record of
an XFETCH or a MISALIGN of the pc, where no word was fetched, is 0; a word of major 0x3F off a 32-byte boundary whose eight
words pass XB faults XFETCH when its bits [18:16] are 0b111, and ILLEGAL otherwise. -/
def fetchAt (k : Core) (pc : Word) : Except FaultInfo Instr :=
  if pc.toNat % 4 != 0 then .error (fetchFault fcMisalign pc 0#32 4)
  else if k.xb ≤ pc.toNat then .error (fetchFault fcXfetch pc 0#32 k.xb)
  else
    let bs := codeBytes k pc.toNat
    let w : BitVec 32 := BitVec.ofNat 32 (leNat (bs.take 4))
    if isTcwHeader w && k.xb < pc.toNat + 32 then
      .error (fetchFault fcXfetch (BitVec.ofNat 64 ((k.xb + 3) / 4 * 4)) w k.xb)
    else if isTcwHeader w && pc.toNat % 32 != 0 then .error (fetchFault fcIllegal 0#64 w 0)
    else match decodeBytes bs with
      | .ok (i, _) => .ok i
      | .error (.illegal x) => .error (fetchFault fcIllegal 0#64 w x.toNat)
      | .error (.engine kind) => .error (fetchFault fcEngine 0#64 w (kind.toNat + 256))
      | .error .truncated => .error (fetchFault fcIllegal 0#64 w 0)

/-- The instruction of the thread whose turn it is. A core that runs a self-test (R207), is fenced (R380)
or has its issue cycles withheld (R391) issues nothing. -/
def fetch (s : State) : Fetched :=
  match current s with
  | none => .idle
  | some (c, slot, t) =>
    let k := s.core c
    if t.code != .running || k.selft.isSome || k.fenced || issueStopped s c then .idle
    else match fetchAt k t.pc with
      | .ok i => .run i
      | .error f => .fault c slot f

/-- R26, R63: a fault of fetch or decode, at the thread's pc. -/
def fetchFaults (s : State) (c slot : Nat) (f : FaultInfo) : State :=
  takeFault (s.modThread c slot (fun t => { t with ipc := t.pc, iword := f.word })) c slot f

/-! ## What the end of a cycle looks at -/

/-- R131: a cycle of a SLEEPING period, spilled or not. -/
def sleepTick (t : Thread) : Thread :=
  if t.code = .sleeping || (t.code = .spilled && sleeps t.wait) then { t with sleepFor := t.sleepFor + 1 }
  else t

/-- R131: whether a period has reached its limit. -/
def limitReached (t : Thread) : Bool :=
  (t.code = .sleeping || (t.code = .spilled && sleeps t.wait)) && t.wlim != 0#64 &&
    decide (t.wlim.toNat ≤ t.sleepFor)

def postAll (s : State) : List Event → State
  | [] => s
  | e :: es => postAll (s.post e) es

/-- R385: cycles between the periodic commits of a pair. -/
def commitPeriod (s : State) (c : Nat) : Nat :=
  match s.groups.find? (fun g => g.2.core = c) with
  | none => 1048576
  | some g => match s.launch? g.2.lid with
    | none => 1048576
    | some l => if l.hdr.quantum = 0 then 1048576 else l.hdr.quantum / 16

/-- R385: whether a pair's timer, buffer or log calls for a commit. -/
def commitDue (s : State) (c : Nat) : Bool :=
  match (s.core c).lock with
  | none => false
  | some L =>
    decide (commitPeriod s c ≤ (s.core c).cyc - L.since) ||
      decide (256 ≤ ((L.held.map (fun h => lineOf h.2.1)).eraseDups).length) || decide (510 ≤ L.undo.length)

/-! ## Leases (R351) -/

/-- R351: 2^20 cycles. -/
def leaseTerm : Nat := 1048576

/-- R351: an agent whose entry with a keeper is due: a renewal every 2^18 cycles of its own, or, when none has
been acknowledged for long, its self-limit. -/
def leaseDue (s : State) (die agent : Nat) (l : Lease) : List Event :=
  let now := agentNow s agent
  if now < l.ack + 262144 || (namedLines s die agent).isEmpty then []
  else if now < l.ack + 786432 then [.leaseRenewal die agent]
  else [.leaseRenewal die agent, .leaseSelfLimit die agent]

/-- R351: what the agents that a test picks send to the keepers. -/
def renewals (s : State) (p : Nat → Bool) : List Event :=
  s.leases.flatMap (fun x => if p (x.1 % 4096) then leaseDue s (x.1 / 4096) (x.1 % 4096) x.2 else [])

/-- R351: the leases that have expired. -/
def expiries (s : State) : List Event :=
  s.leases.flatMap (fun x =>
    if x.2.expired || s.now < x.2.last + leaseTerm || (namedLines s (x.1 / 4096) (x.1 % 4096)).isEmpty then []
    else [.leaseExpiry (x.1 / 4096) (x.1 % 4096)])

/-! ## A program placed by hand -/

/-- A thread as a placement with the largest claims would start it (R239). -/
def loadedThread : Thread := { n := 128, m := 64, zc := 16, code := .running }

/-- Bytes at address 0 of the scratchpad of the core whose turn it is, below XB, and a RUNNING thread in its
present position with its pc there. -/
def placeWord (s : State) (bytes : List Byte) : State :=
  let c := s.turn
  let k := s.core c
  let slot := (Map.get? k.rot (k.cyc % 16)).getD 0
  let t := (Map.get? k.threads slot).getD loadedThread
  let k := { k with
    xb := 64
    spad := Mem.writeN k.spad 0 bytes
    rot := Map.set k.rot (k.cyc % 16) slot
    threads := Map.set k.threads slot { t with pc := 0#64, code := .running }
    owner := some (k.owner.getD (0, 0))
    selft := none
    fenced := false }
  let s := if Map.has s.parts 0 then s
    else { s with parts := [(0, { state := .active, ctab := [c] })] }
  { s.setCore c k with
    agenda := [], sched := []
    plat := { s.plat with off := false, recovery := false, hot := [] } }

end Sys2Proof.Machine
end

