-- ==== Sys2Proof/Machine/Homes.lean ====
section
/-!
DEFINITION. Homes.lean: what a home does with the requests that reach it (R342, R345, R346, R349, R350): grants, recalls,
ownership, pins, and the queue of a line, in which the acts of events wait for their turn too.
-/
namespace Sys2Proof.Machine
open Sys2Proof

/-! ## Leases (R351) -/

/-- R351: an agent that receives its first permission at a die's homes begins to renew its lease there. MODEL'S CHOICE
(log entry 87): its term counts from that grant. -/
def touchLease (s : State) (line agent : Nat) : State :=
  let die := homeDie (64 * line)
  if (namedLines s die agent).isEmpty then
    setLease s die agent { leaseOf s die agent with last := s.now, ack := agentNow s agent }
  else s

/-! ## Entries (R342) -/

/-- R342, R348: the agent that holds a line for an agent: an L1 of another die holds it under its die's RDC. -/
def homeAgent (line a : Nat) : Nat :=
  if isL1 a && coreDie a != homeDie (64 * line) then 0xC00 + coreDie a else a

/-- R342: the bit of an agent in the leaf vector. -/
def vecBit (s : State) (a : Nat) : Nat := if isL1 a then coreLeaf s a else 32 * (a - 0xC00)

/-- R342: a sharer joins; the fifth turns the pointers into the leaf vector. -/
def addSharer (s : State) (e : DirEntry) (a : Nat) : DirEntry :=
  if e.mode then { e with vec := insertNat (vecBit s a) e.vec }
  else if e.ptrs.contains a then e
  else if e.ptrs.length < 4 then { e with ptrs := e.ptrs ++ [a] }
  else { e with mode := true, ptrs := [],
                vec := (e.ptrs ++ [a]).foldl (fun v x => insertNat (vecBit s x) v) e.vec }

/-- R345: bytes written at the home: FL is cleared and the watch list woken. -/
def homeStore (s : State) (pa : Nat) (bytes : List Byte) (poison : Bool) : State :=
  wakeLine (clearFl (writeHome s pa bytes poison) (pa / 64)) (.page .coherent s.pkg pa)

/-! ## Grants -/

/-- R343, R348: an agent receives a line, or permission to write the line it holds. -/
def fillAgent (s : State) (line : Nat) (m : Msg) (write : Bool) : State :=
  let pa := 64 * line
  let key := lineKey s pa
  let data := Mem.readN s.mem pa 64
  let poison := s.poison.contains line
  let st : LState := if write then .e else .s
  let fresh : CLine := { st := st, kind := .coherent, data := data, poison := poison }
  if isL1 m.agent then
    match Map.get? (s.core m.agent).l1 key with
    | some l =>
      if write && l.st = .s then
        s.modCore m.agent (fun k => { k with l1 := Map.set k.l1 key { l with st := .e } })
      else s
    | none => fillL1 s m.agent key fresh
  else
    let die := m.agent - 0xC00
    let l := match Map.get? (rdcOf s die) key with
      | some l => { l with st := if write && l.st = .s then .e else l.st }
      | none => fresh
    let s := rdcPut s die key l
    match m.via with
    | some c => rdcGrant s c key l write
    | none => s

/-- The request is granted: the pieces that waited for it are performed. -/
def afterGrant (s : State) (m : Msg) : State :=
  match m.thread with
  | some r => performLine s r m.rid m.line
  | none => s

/-- R345: read permission granted; a holder of E that asks keeps it. -/
def grantS (s : State) (m : Msg) : State :=
  let s := touchLease s m.line m.agent
  let e := dirOf s m.line
  let s := if e.st = .e then s else putDir s m.line (addSharer s { e with st := .s } m.agent)
  afterGrant (fillAgent s m.line m false) m

/-- R350: the store that a request carries is performed at the home of a watched line. -/
def carriedStore (s : State) (m : Msg) : State :=
  match m.thread with
  | none => s
  | some r =>
    completeIfDone (performWhere s r m.rid
      (fun s u p => match p, u.op with
        | .page .coherent pkg pa, .store _ => pkg = s.pkg && pa / 64 = m.line
        | _, _ => false)
      (fun s u p => match u.op with
        | .store bs => (homeStore s p.off bs false, some [])
        | _ => (s, some []))
      (pieceNos s r m.rid)) r m.rid

/-- R345, R350: write permission granted; on a watched line the carried store is performed at the home and
the requester receives S. Every other copy is gone. -/
def grantE (s : State) (m : Msg) : State :=
  let s := touchLease s m.line m.agent
  let e := dirOf s m.line
  let e := { e with mode := false, vec := [], ptrs := [m.agent] }
  if watched s m.line then
    let s := carriedStore (putDir s m.line { e with st := .s }) m
    fillAgent (dropAgent s m.agent (lineKey s (64 * m.line))) m.line m false
  else
    let s := putDir s m.line { e with st := .e, gen := m.gen }
    afterGrant (fillAgent s m.line m true) m

/-- R122: the atomics of a thread on a line performed at the home. -/
def performAmo (s : State) (m : Msg) : State :=
  match m.thread with
  | none => s
  | some r =>
    completeIfDone (performWhere s r m.rid
      (fun s u p => match p, u.op with
        | .page .coherent pkg pa, .amo _ _ => pkg = s.pkg && pa / 64 = m.line
        | .page .coherent pkg pa, .cas _ _ => pkg = s.pkg && pa / 64 = m.line
        | .page .coherent pkg pa, .join => pkg = s.pkg && pa / 64 = m.line
        | _, _ => false)
      (fun s u p =>
        let old := Mem.readN s.mem p.off u.size
        if s.poison.contains m.line then (s, none)
        else match u.op.writes old with
          | some bs => (homeStore s p.off bs false, some old)
          | none => (s, some old))
      (pieceNos s r m.rid)) r m.rid

def modCmd (s : State) (id : Nat) (f : Cmd → Cmd) : State := { s with cmds := Map.modify s.cmds id f }

/-- R161, R349: the first of the lines that a command is still to own is asked for; with none left it goes on. -/
def ownNext (s : State) (id : Nat) : State :=
  match Map.get? s.cmds id with
  | none => s
  | some c =>
    match c.toOwn with
    | l :: _ => sendMsg s { mkMsg s .own l c.agent with cmd := some id }
    | [] => s.post (if c.accepted then .gathScatterRow id else .engineAccept id)

/-- R161, R166, R349: a line is owned for a command. -/
def ownGranted (s : State) (line id : Nat) : State :=
  ownNext (modCmd s id (fun c => { c with
    owned := insertNat line c.owned, toOwn := c.toOwn.filter (· != line) })) id

/-- R164, R349: the next line of a step is asked to be pinned; with none left the step can be made. -/
def pinNext (s : State) (id : Nat) : State :=
  match Map.get? s.cmds id with
  | none => s
  | some c =>
    match c.toPin with
    | l :: _ => sendMsg s { mkMsg s .pin l c.core with cmd := some id }
    | [] => s.post (.mmaStep id)

/-- R164, R349: a line is pinned for a step of a command. -/
def pinGranted (s : State) (line id : Nat) : State :=
  pinNext (modCmd s id (fun c => { c with
    pinned := c.pinned ++ [line], toPin := eraseFirst (· = line) c.toPin })) id

/-! ## The queue of a line (R345, R346, R349) -/

/-- Whether a request waits while the line is pinned (R349). -/
def Msg.pinWaits (m : Msg) : Bool :=
  match m.kind with
  | .rdx | .upg | .amo | .own | .write => true
  | .act => m.keep
  | _ => false

/-- R345, R346, R349: whether the line's state holds a request. Ownership never holds an engine's read (R162). -/
def holdsBack (e : DirEntry) (m : Msg) : Bool :=
  e.st = .b || e.st = .r || (e.st = .o && m.kind != .pin) || (m.pinWaits && !e.pins.isEmpty) ||
    (m.kind = .pin && decide (15 ≤ e.pins.length))

/-- R346: whether a request that arrives joins the queue of its line: also behind an act whose turn comes. -/
def mustQueue (e : DirEntry) (m : Msg) : Bool :=
  holdsBack e m || (m.kind != .pin && e.queue.any (fun x => x.kind = .act))

/-- R345, R349: the recalls that a request needs first: agents, and the message each receives. A pin makes a reader of the
agent that held write permission, its own included. -/
def recalls (s : State) (e : DirEntry) (m : Msg) : List (Nat × MsgKind) :=
  let hs := holders s m.line e
  let others := hs.filter (· != m.agent)
  match m.kind with
  | .rd => if e.st = .e then others.map (·, .dwg) else []
  | .pin => if e.st = .e then hs.map (·, .dwg) else []
  | .rdx | .upg => others.map (·, if e.st = .e then .rcl else .inv)
  | .amo | .own => hs.map (·, if e.st = .e then .rcl else .inv)
  | _ => []

def sendRecalls (s : State) (line : Nat) : List (Nat × MsgKind) → State
  | [] => s
  | (a, k) :: l => sendRecalls (sendMsg s { kind := k, line := line, agent := a, gen := keptGen s line a }) line l

/-- A request whose line no other agent stands in the way of is served. -/
def serveNow (s : State) (m : Msg) : State :=
  match m.kind with
  | .rd => grantS s m
  | .rdx | .upg => grantE s m
  | .amo =>
    let e := dirOf s m.line
    let s := if e.st = .s || e.st = .e then
        putDir s m.line { e with st := .i, mode := false, ptrs := [], vec := [] }
      else s
    performAmo s m
  | .own =>
    match m.cmd with
    | some id =>
      let s := touchLease s m.line m.agent
      let s := putDir s m.line { dirOf s m.line with
        st := .o, mode := false, vec := [], ptrs := [m.agent], gen := keptGen s m.line m.agent, cmd := some id }
      ownGranted s m.line id
    | none => s
  | .pin =>
    match m.cmd with
    | some id =>
      let s := touchLease s m.line m.agent
      let e := dirOf s m.line
      let e := { e with pins := e.pins ++ [m.agent] }
      pinGranted (putDir s m.line (if e.st = .o then e
        else addSharer s { e with st := .s } (homeAgent m.line m.agent))) m.line id
    | none => s
  | _ => s

/-- A request begins: recalls go out and the line is in B, or it is served at once. -/
def startRequest (s : State) (m : Msg) : State :=
  let e := dirOf s m.line
  match recalls s e m with
  | [] => serveNow s m
  | rs =>
    sendRecalls (putDir s m.line { e with
      st := .b, cur := some m, asked := rs.map (·.1), excl := e.st = .e }) m.line rs

/-- R353: a request that carries an old generation is refused. -/
def refuse (s : State) (m : Msg) : State := sendMsg s { m with kind := .nack }

/-- R352, R353: whether a request carries an old generation. An OWN carries none, and an AMO that has reached its home is
complete in itself. -/
def stale (s : State) (m : Msg) : Bool :=
  (match m.kind with
   | .rd | .rdx | .upg | .pin => true
   | _ => false) && m.gen != keptGen s m.line m.agent

/-- R231, R346: a write that waited in the queue of its line. -/
def queuedWrite (s : State) (m : Msg) : State :=
  writePlace s m.agent (.page .coherent s.pkg (64 * m.line + m.off)) (m.data.getD []) m.poison

/-- R346: the event of an act whose turn has come. -/
def sendCall (s : State) (m : Msg) : State :=
  match m.event with
  | some e => s.post e
  | none => s

/-- R346, R353: the requests of a line's queue served in order, as far as they can be. An act whose turn has come is
called, and is made when its event happens. -/
def serveQueue (s : State) (line : Nat) : Nat → State
  | 0 => s
  | fuel + 1 =>
    let e := dirOf s line
    match e.queue with
    | [] => s
    | m :: rest =>
      if holdsBack e m then s
      else
        let next := setDir s line { e with queue := rest }
        match m.kind with
        | .act =>
          if m.called then s
          else sendCall (setDir s line { e with queue := { m with called := true } :: rest }) m
        | .write => serveQueue (queuedWrite next m) line fuel
        | _ => serveQueue (if stale s m then refuse next m else startRequest next m) line fuel

def serveAll (s : State) (line : Nat) : State := serveQueue s line ((dirOf s line).queue.length + 1)

/-- R345, R346, R353: a request reaches its home. -/
def request (s : State) (m : Msg) : State :=
  if m.kind != .own && m.gen != keptGen s m.line m.agent then refuse s m
  else
    let e := dirOf s m.line
    if mustQueue e m then putDir s m.line { e with queue := e.queue ++ [m] } else startRequest s m

/-! ## Acts that an event makes at a home (R231, R346) -/

/-- R346, R349: whether a line's state holds an act, one that writes or one that reads. -/
def actHeld (d : DirEntry) (write : Bool) : Bool :=
  d.st = .b || d.st = .r || d.st = .o || (write && !d.pins.isEmpty)

/-- R346: an act in the queue of a line. -/
def actMsg (e : Event) (line : Nat) (write : Bool) : Msg :=
  { kind := .act, line := line, agent := 0, gen := 0#16, keep := write, event := some e }

/-- R231, R346: the act `f` of an event at a line: made now, or when its turn in the line's queue has come and the event
happens again. `twice` when the same event may stand for a second act. -/
def atHome (s : State) (e : Event) (line : Nat) (write twice : Bool) (f : State → State) : State :=
  let d := dirOf s line
  let wait := setDir s line { d with queue := d.queue ++ [actMsg e line write] }
  match d.queue with
  | [] => if actHeld d write then wait else f s
  | m :: rest =>
    if m.event = some e && m.called then
      if actHeld d write then setDir s line { d with queue := { m with called := false } :: rest }
      else serveAll (f (setDir s line { d with queue := rest })) line
    else if !twice && d.queue.any (fun x => x.event = some e) then s
    else wait

/-- An act at the line of a place: only a coherent line of this package has a queue. -/
def atPlace (s : State) (e : Event) (p : Place) (write twice : Bool) (f : State → State) : State :=
  match p with
  | .page .coherent _ pa => atHome s e (pa / 64) write twice f
  | _ => f s

/-- R346: the event of an act has happened; an act of it that was called and not made is no longer wanted. -/
def settleAct (s : State) (e : Event) : State :=
  match s.dir.find? (fun x => x.2.queue.head?.any (fun m => m.event = some e && m.called)) with
  | some (line, d) => serveAll (setDir s line { d with queue := d.queue.tail }) line
  | none => s

/-- R161, R132, R382: what waited for an engine's lines, or for acknowledgements, looks again. -/
def unblock (s : State) : State :=
  (Map.keys s.parts).foldl drainNext (s.blocked.foldl (fun s e => s.post e) { s with blocked := [] })

end Sys2Proof.Machine
end

