-- ==== Sys2Proof/Machine/Threads.lean ====
section
/-!
DEFINITION. Threads.lean: creating, ending and moving threads: SPAWN, QUIT, MIGR, SEND, FORK, JOIN (R188 to
R194, R241 to R246).
-/
namespace Sys2Proof.Machine
open Sys2Proof

/-! ## Core names and join cells -/

/-- R13, R188: the fields of a handle or of a core name. -/
def hPkg (h : Word) : Nat := bitsOf h.toNat 50 14
def hPart (h : Word) : Nat := bitsOf h.toNat 44 6
def hCore (h : Word) : Nat := bitsOf h.toNat 32 12
def hSlot (h : Word) : Nat := bitsOf h.toNat 20 12
def hGen (h : Word) : Nat := bitsOf h.toNat 0 20

/-- R189, R384: the physical core that a core name names in a partition; a shadow has none. -/
def namedCore (s : State) (part : Nat) (h : Word) : Option Nat :=
  match (s.part part).ctab[hCore h]? with
  | none => none
  | some c => match (s.core c).lock with
    | some L => if L.odd then none else some c
    | none => some c

/-- The group of a launch that a core hosts. -/
def groupOn (s : State) (c lid : Nat) : Option Group :=
  (s.groups.find? (fun x => x.2.core = c && x.2.lid = lid && x.2.saved.isNone)).map (·.2)

/-- R189: fail(r). -/
def spawnFail (part : Nat) (h : Word) (r : Nat) : Word := mkHandle (hPkg h) part (hCore h) 4095 r

/-- R193, R197: the place of a join cell or a barrier object, or the fault of its address. -/
def cellPlace (s : State) (c : Nat) (t : Thread) (va : Word) (align : Nat) (own : Bool) :
    State × Except FaultInfo Place :=
  if va.toNat % align != 0 then (s, .error (mkFault fcMisalign va (BitVec.ofNat 64 align)))
  else match resolve s c t.part t.proc va (.cell own) with
    | (s, .error f) => (s, .error f)
    | (s, .ok (p, _)) => (s, .ok p)

/-! ## New threads -/

/-- R189, R239: what a thread created by SPAWN, FORK or SEND starts with, beside its registers: the issuer's
work, formats and fault line, and everything else at its value at allocation. -/
def childOf (s : State) (t : Thread) (pc : Word) (g : Map Word) : Thread :=
  { n := t.n, m := t.m, zc := t.zc, g := g, pc := pc, wid := t.wid, fmt := t.fmt, scl := t.scl, fline := t.fline,
    authp := t.authp, fpctl := t.fpctl, lid := t.lid, gid := t.gid, proc := t.proc, part := t.part,
    geom0 := match s.launch? t.lid with | some l => l.hdr.geom | none => 0#64, ipc := pc }

/-- The g registers of a thread in a range. -/
def gRange (t : Thread) (lo hi : Nat) : Map Word := t.g.filter (fun x => decide (lo ≤ x.1) && decide (x.1 ≤ hi))

/-- SPAWN's own effect (R189). -/
def doSpawn (s : State) (c slot : Nat) (t : Thread) (d : Nat) (name start : Word) : State :=
  if hPkg name != s.pkg then writeG s c slot d (spawnFail t.part name 3)
  else match namedCore s t.part name with
    | none => writeG s c slot d (spawnFail t.part name 2)
    | some q => match groupOn s q t.lid with
      | none => writeG s c slot d (spawnFail t.part name 1)
      | some g =>
        let child := { childOf s t start (gRange t 1 4) with gid := g.gid }
        sendPacket (beginWait s c slot .waiting (.packet d s.fresh)) 0 q child ⟨c, slot⟩

/-- SPAWN (R189). -/
def execSpawn (g : BitVec 3) (d a b : BitVec 7) : State → Host.Outcome State Fault Refusal :=
  issue (.spawn g d a b)
    { guard := g, g := [d.toNat, a.toNat, b.toNat], reads := [a.toNat, b.toNat, 1, 2, 3, 4], writes := [d.toNat],
      drain := true, commit := fun _ => true }
    (fun c slot t s => doSpawn s c slot t d.toNat (t.gv a.toNat) (t.gv b.toNat))

/-- QUIT (R190). -/
def execQuit (g : BitVec 3) : State → Host.Outcome State Fault Refusal :=
  issue (.quit g) { guard := g, drain := true } (fun c slot _ s => quitThread s c slot)

/-! ## Migration and messages -/

/-- MIGR's own effect (R191, R244). -/
def doMigr (s : State) (c slot : Nat) (t : Thread) (ea : Word) : State :=
  match classOf ea with
  | .own _ => s
  | _ =>
    match resolve s c t.part t.proc ea .ld1 with
    | (s, .error f) => takeFault s c slot f
    | (s, .ok (p, _)) =>
      if !mayMigrate s t then takeFault s c slot (mkFault fcMigrfit 0#64 (BitVec.ofNat 64 t.n))
      else match p with
        | .page _ pkg pa => (migrate s c slot t pkg pa (t.ipc + 4#64)).getD s
        | _ => s

/-- MIGR (R191). -/
def execMigr (g : BitVec 3) (a : BitVec 7) : State → Host.Outcome State Fault Refusal :=
  issue (.migr g a) { guard := g, g := [a.toNat], reads := [a.toNat], drain := true, commit := fun _ => true }
    (fun c slot t s => doMigr s c slot t (t.gv a.toNat))

/-- R192: the thread that a message starts. -/
def handlerOf (s : State) (t : Thread) (pc : Word) : Thread :=
  { childOf s t pc (gRange t 1 10) with
    n := 16, m := 0, zc := 0, authp := 0#64, fpctl := 0#64, fline := packetLine t.fline, handler := true }

/-- SEND's own effect (R192). -/
def doSend (s : State) (c slot : Nat) (t : Thread) (d : Nat) (name pc : Word) : State :=
  let h := handlerOf s t pc
  let r : TRef := ⟨c, slot⟩
  if hPkg name != s.pkg then
    if reach s t.part (hPkg name) then
      sendAway (beginWait s c slot .waiting (.packet d s.fresh)) 2 (hCore name) (domAddr (hPkg name) 0) h r
    else writeG s c slot d 2#64
  else match namedCore s t.part name with
    | none => writeG s c slot d 2#64
    | some q => match groupOn s q t.lid with
      | none => writeG s c slot d 1#64
      | some _ => sendPacket (beginWait s c slot .waiting (.packet d s.fresh)) 2 q h r

/-- SEND (R192). -/
def execSend (g : BitVec 3) (d a b : BitVec 7) : State → Host.Outcome State Fault Refusal :=
  issue (.send g d a b)
    { guard := g, g := [d.toNat, a.toNat, b.toNat], reads := [a.toNat, b.toNat, 1, 2, 3, 4, 5, 6, 7, 8, 9, 10],
      writes := [d.toNat], drain := true, commit := fun _ => true }
    (fun c slot t s => doSend s c slot t d.toNat (t.gv a.toNat) (t.gv b.toNat))

/-! ## FORK and JOIN -/

/-- R241, R322: the cores where recruits are sought, in order: the own core, the other cores of its logical leaf (16
of its cluster), the other cores of its cluster. -/
def forkCores (s : State) (part c lid : Nat) : List Nat :=
  let l := ((s.core c).owner.getD (0, 0)).2
  let at_ := fun (is : List Nat) => (is.filterMap (fun i => (s.part part).ctab[i]?)).filter
    (fun q => q != c && (groupOn s q lid).isSome)
  let leaf := (List.range 16).map (l / 16 * 16 + ·)
  (if (groupOn s c lid).isSome then [c] else []) ++ at_ leaf ++
    at_ (((List.range 128).map (l / 128 * 128 + ·)).filter (fun i => !leaf.contains i))

/-- R241: a recruit taken on a core that has a free context, a free handle slot, pool room and lay-by room:
its slot and context are reserved and its packet made, not yet sent. -/
def takeRecruit (s : State) (t : Thread) (c q : Nat) : Option State :=
  let room := backing t.n t.m t.zc
  if 512 ≤ contexts s q || 4080 ≤ slotsUsed s q || !poolsFit s q t.m t.zc || layByRoom s t.part < room then none
  else match lowestSlot (s.core q) 0 4080, groupOn s q t.lid with
    | some slot, some g =>
      let child := { childOf s t (t.ipc + 4#64) (gRange t 3 10) with gid := g.gid, room := room }
      let p := { buildPacket s 3 c q child none with slot := some slot }
      let s' := s.modCore q (fun k => { k with reservedSlots := insertNat slot k.reservedSlots })
      let s' := s'.modPart t.part (fun x => { x with poolUsed := x.poolUsed + room })
      some ({ s' with packets := Map.set s'.packets p.id p } : State).bump
    | _, _ => none

/-- Recruits taken on one core, at most `n`: the state and how many. -/
def takeRecruits (s : State) (t : Thread) (c q : Nat) : Nat → State × Nat
  | 0 => (s, 0)
  | n + 1 =>
    match takeRecruit s t c q with
    | none => (s, 0)
    | some s' => let x := takeRecruits s' t c q n; (x.1, x.2 + 1)

/-- R241: the search. -/
def findRecruits (s : State) (t : Thread) (c want : Nat) : List Nat → State × Nat
  | [] => (s, 0)
  | q :: qs =>
    let x := takeRecruits s t c q want
    let y := findRecruits x.1 t c (want - x.2) qs
    (y.1, x.2 + y.2)

/-- R193: lo[p] of the parts of [0, T). -/
def partLo (T parts p : Nat) : Word := BitVec.ofNat 64 (T * p / parts)

/-- The recruits' packets are sent, with their parts. -/
def sendRecruits (s : State) (first T parts : Nat) (n : Nat) : Nat → State
  | 0 => s
  | m + 1 =>
    let p := n - m
    let id := first + p - 1
    let s := { s with packets := Map.modify s.packets id (fun x =>
      { x with words := setAt (setAt x.words 1 (partLo T parts p)) 2 (partLo T parts (p + 1)) }) }
    sendRecruits (s.post (.threadPacketArrive id)) first T parts n m

/-- R193: max(1, the launch's fork grain). -/
def forkGrain (s : State) (t : Thread) : Nat :=
  match s.launch? t.lid with
  | some l => Nat.max 1 l.hdr.grain
  | none => 1

/-- FORK's own effect (R193). -/
def doFork (s : State) (c slot : Nat) (t : Thread) (d : Nat) (jc trip : Word) : State :=
  match cellPlace s c t jc 16 false with
  | (s, .error f) => takeFault s c slot f
  | (s, .ok p) =>
    let T := trip.toNat
    let gr := forkGrain s t
    let want := Nat.min 128 ((T + gr - 1) / gr)
    let first := s.fresh
    let x := findRecruits s t c (want - 1) (forkCores s t.part c t.lid)
    let parts := x.2 + 1
    let s := storeAt x.1 c p (wordBytes (BitVec.ofNat 64 parts)) false
    let s := storeAt s c (p.add 12) (leBytes (handleOf s c slot).toNat 4) false
    let s := sendRecruits s first T parts x.2 x.2
    writeG (writeG (writeG s c slot 1 (partLo T parts 0)) c slot 2 (partLo T parts 1)) c slot d
      (BitVec.ofNat 64 parts)

/-- FORK (R193). -/
def execFork (g : BitVec 3) (d a b : BitVec 7) : State → Host.Outcome State Fault Refusal :=
  issue (.fork g d a b)
    { guard := g, g := [d.toNat, a.toNat, b.toNat], reads := [a.toNat, b.toNat, 3, 4, 5, 6, 7, 8, 9, 10],
      writes := [1, 2, d.toNat], drain := true, commit := fun _ => true }
    (fun c slot t s => doFork s c slot t d.toNat (t.gv a.toNat) (t.gv b.toNat))

/-- JOIN (R194). -/
def execJoin (g : BitVec 3) (a : BitVec 7) : State → Host.Outcome State Fault Refusal :=
  issue (.join g a) { guard := g, g := [a.toNat], reads := [a.toNat], drain := true, commit := fun _ => true }
    (fun c slot t s =>
      startAccess s c slot t [piece (t.gv a.toNat) 16 .join] 16 (.cell false) .join false true)

end Sys2Proof.Machine
end

