-- ==== Sys2Proof/Machine/Launches.lean ====
section
/-!
DEFINITION. Launches.lean: launches from their submission to their completion: headers and their checks (R237,
R300 to R303), task graphs (R313 to R316), dependences (R304), work lists (R195, R311, R312) and completion (R317,
R318). Placement is in Placement.lean.
-/
namespace Sys2Proof.Machine
open Sys2Proof

/-! ## A distributor's accesses -/

/-- No core: the private lines that a distributor reads are those at their homes. -/
def noCore : Nat := 4096

/-- R300: an address as a distributor reaches it: its leaf, or none. -/
def distLeaf (s : State) (part proc : Nat) (va : Word) (write : Bool) : Option Tlb :=
  match classOf va with
  | .paged => match walk s part proc va write with
    | .ok t => some t
    | .error _ => none
  | _ => none

/-- The place of an address as a distributor reaches it. -/
def distPlace (s : State) (part proc : Nat) (va : Word) (k : AKind) : Option Place :=
  (distLeaf s part proc va k.writes).bind (fun t =>
    match checkPage s part va k t with
    | .ok (.dev _) => none
    | .ok p => some p
    | .error _ => none)

/-- Bytes read by a distributor in pieces; none when one fails translation, permission or poison. -/
def distPieces (s : State) (part proc : Nat) : List (Word × Nat) → Option (List Byte)
  | [] => some []
  | (va, n) :: l =>
    match distPlace s part proc va .ld with
    | none => none
    | some p =>
      let v := readPlace s noCore p n
      if v.2 then none else (distPieces s part proc l).map (v.1 ++ ·)

def distRead (s : State) (part proc : Nat) (va : Word) (n : Nat) : Option (List Byte) :=
  distPieces s part proc (vaPieces va n)

/-- Bytes written by a distributor at a place. -/
def distStore (s : State) (part : Nat) (p : Place) (bytes : List Byte) : State :=
  match p with
  | .page .priv _ pa => writePriv s noCore (pa / 64 * 64)
      (patch (Mem.readN s.mem (pa / 64 * 64) 64) (pa % 64) bytes) (s.poison.contains (pa / 64))
  | .page .remotePosted pkg pa => sendPosted s (domAddr pkg pa) part none bytes false none none
  | p => writeBytes s 0 p bytes false

/-! ## Headers (R237) -/

/-- Word i of bytes, as a number. -/
def wordAt (bs : List Byte) (i : Nat) : Nat := leNat ((bs.drop (8 * i)).take 8)

/-- R237: the fields of a header. -/
def headerOf (bs : List Byte) : Header :=
  let w := wordAt bs
  { code := BitVec.ofNat 64 (w 1), entry := bitsOf (w 2) 32 32, bytes := bitsOf (w 2) 0 32,
    gfield := bitsOf (w 3) 42 3, tfield := bitsOf (w 3) 39 3, count := bitsOf (w 3) 36 3,
    widths := (List.range (bitsOf (w 3) 36 3)).map (fun i => bitsOf (w 3) (6 * i) 6),
    extents := (List.range (bitsOf (w 3) 36 3)).map (fun i => leNat ((bs.drop (0x20 + 4 * i)).take 4)),
    spad := bitsOf (w 7) 40 24, zclaim := bitsOf (w 7) 32 8, vclaim := bitsOf (w 7) 24 8,
    regs := bitsOf (w 7) 16 8, gsize := bitsOf (w 7) 0 16,
    fmt := BitVec.ofNat 64 (w 8), scl := BitVec.ofNat 64 (w 9), auth := BitVec.ofNat 64 (w 10),
    fline := BitVec.ofNat 64 (w 11), done := BitVec.ofNat 64 (w 12), doneadd := BitVec.ofNat 64 (w 13),
    dep := BitVec.ofNat 64 (w 14), depval := BitVec.ofNat 64 (w 15), quantum := bitsOf (w 16) 8 56,
    migrant := (w 16).testBit 7, edge := (w 16).testBit 6, persist := (w 16).testBit 5,
    lsp := (w 16).testBit 4, prio := bitsOf (w 16) 0 4, geom := BitVec.ofNat 64 (w 17),
    wlist := BitVec.ofNat 64 (w 18), grain := bitsOf (w 19) 32 32, wcount := bitsOf (w 19) 0 32,
    proc := bitsOf (w 20) 16 16, part := bitsOf (w 20) 0 6 }

/-- The extent of the group field: the groups of a band. -/
def bandGroups (h : Header) : Nat := h.extents.getD h.gfield 1

/-- R238: the number of bands. -/
def bandCount (h : Header) : Nat :=
  ((List.range h.count).filter (fun i => i != h.tfield && i != h.gfield)).foldl (fun n i =>
    n * h.extents.getD i 1) 1

/-- R300 order 3: every field within its limit and every reserved bit zero. -/
def headerFields (bs : List Byte) (h : Header) : Bool :=
  let w := wordAt bs
  let six := fun (i : Nat) => (bitsOf (w 3) (6 * i) 6, leNat ((bs.drop (0x20 + 4 * i)).take 4))
  bitsOf (w 0) 32 32 = 0 && h.code.toNat % 64 = 0 &&
    h.bytes % 4 = 0 && decide (4 ≤ h.bytes) && decide (h.bytes ≤ 0x20000) &&
    h.entry % 4 = 0 && decide (h.entry < h.bytes) &&
    bitsOf (w 3) 45 19 = 0 && decide (2 ≤ h.count) && decide (h.count ≤ 6) && decide (h.gfield < h.count) &&
    decide (h.tfield < h.count) && h.tfield != h.gfield &&
    (List.range 6).all (fun i =>
      if i < h.count then
        decide (1 ≤ (six i).1) && decide (1 ≤ (six i).2) && decide ((six i).2 ≤ 2 ^ (six i).1)
      else (six i).1 = 0 && (six i).2 = 0) &&
    decide (h.widths.sum ≤ 64) &&
    h.spad % 64 = 0 && decide (h.spad ≤ 0x20000) && [8, 16, 32, 64, 128].contains h.regs &&
    decide (1 ≤ h.gsize) && decide (h.gsize ≤ 512) && h.gsize = h.extents.getD h.tfield 0 &&
    h.fline.toNat % 64 = 0 && h.done.toNat % 8 = 0 && h.dep.toNat % 8 = 0 && h.wlist.toNat % 8 = 0 &&
    decide (h.prio ≤ 7) && bitsOf (w 17) 63 1 = 0 && bitsOf (w 20) 32 32 = 0 && bitsOf (w 20) 6 10 = 0 &&
    (bs.drop 0xA8).all (· = 0#8)

/-- The page kind of an address at 0x100_0000_0000 or above, as a distributor translates it. -/
def distKind (s : State) (h : Header) (va : Word) : Option PageKind :=
  (distLeaf s h.part h.proc va false).map (·.kind)

/-- R300 order 3: what the header's addresses must be. -/
def headerPages (s : State) (h : Header) : Bool :=
  (distRead s h.part h.proc h.code h.bytes).isSome &&
    (h.dep = 0#64 || (match distKind s h h.dep with
      | some .coherent | some .hostCoherent => true
      | _ => false)) &&
    (h.done = 0#64 || (match distKind s h h.done with
      | some .coherent | some .remotePosted | some .hostCoherent => true
      | _ => false))

/-! ## Claims that can never be placed (R300 order 4) -/

/-- The bytes of a code image, rounded up to lines (R332). -/
def imageTop (h : Header) : Nat := (h.bytes + 63) / 64 * 64

/-- R384: the end of the scratchpad that allocations may take. -/
def spadTop (h : Header) : Nat := if h.lsp then 0x1E000 else 0x20000

/-- R333: bytes of a lay-by pool beside its visitors' backing. -/
def poolSize (s : State) (part : Nat) : Nat :=
  65536 * bitsOf ((Map.get? (s.part part).words 5).getD 0#64).toNat 0 32 - 8192 * (s.part part).ctab.length

/-- R306, R333, R380: whether a core could host a group when no other allocation is present. -/
def couldHost (s : State) (h : Header) (c : Nat) : Bool :=
  !(s.core c).fenced && (s.core c).selft.isNone && (h.zclaim = 0 || !(s.core c).fencedFns.getLsbD 4) &&
    decide (imageTop h + h.spad ≤ spadTop h) && decide (groupRoom h ≤ poolSize s h.part)

/-- R322: the physical cores of a logical cluster, in ascending cidx. -/
def clusterCores (s : State) (part k : Nat) : List Nat := ((s.part part).ctab.drop (128 * k)).take 128

def clusters (s : State) (part : Nat) : Nat := ((s.part part).ctab.length + 127) / 128

/-- R384: the pairs of cores 2k and 2k + 1. -/
def pairsOf : List Nat → List (Nat × Nat)
  | a :: b :: l => (a, b) :: pairsOf l
  | _ => []

/-- R300 order 4, R338: whether some cluster could ever hold `n` groups. -/
def someCluster (s : State) (h : Header) (n : Nat) : Bool :=
  (List.range (clusters s h.part)).any (fun k =>
    let cs := clusterCores s h.part k
    decide (n ≤ if h.lsp then count (fun x : Nat × Nat => couldHost s h x.1 && couldHost s h x.2) (pairsOf cs)
            else count (couldHost s h) cs))

/-- R300: the status of a header. -/
def headerStatus (s : State) (part proc : Nat) (bs : List Byte) : Nat :=
  let h := headerOf bs
  if bitsOf (wordAt bs 0) 0 32 != 0x514C4801 then 1
  else if h.part != part || h.proc != proc then 2
  else if !headerFields bs h || !headerPages s h then 4
  else if 64 < h.vclaim || 1024 < h.gsize * h.vclaim || 16 < h.zclaim || 64 < h.gsize * h.zclaim ||
      128 < bandGroups h || !someCluster s h (bandGroups h) then 3
  else 0

/-! ## Acceptance (R300 to R303, R314) -/

/-- R298: the records a partition holds. -/
def recordsOf (s : State) (part : Nat) : Nat := count (fun x : Nat × Launch => x.2.part = part) s.launches

/-- R304: a launch in the queue becomes ready, or waits for its dependence. -/
def enterLaunch (s : State) (lid : Nat) : State :=
  match s.launch? lid with
  | none => s
  | some l =>
    if l.hdr.dep = 0#64 then
      (s.modLaunch lid (fun l => { l with entered := true, ready := some s.now })).post (.placementDecision l.part)
    else (s.modLaunch lid (fun l => { l with entered := true })).post (.dependenceReady lid)

/-- A launch record made of a header; its number is `s.fresh + 1`. -/
def newLaunch (s : State) (h : Header) (node : Option (Nat × Nat)) : State :=
  let l : Launch := { lid := s.fresh + 1, part := h.part, hdr := h, seq := s.fresh, entered := false, ready := none,
                      cancelled := false, bands := List.replicate (bandCount h) .unplaced, status := 0#5,
                      ran := 0, preempting := false, items := 0, node := node, fits := 0, done := false,
                      accepted := s.now }
  ({ s with launches := Map.set s.launches l.lid l } : State).bump

/-- R302, R303: the decision of a port's submission, or of a LAUNCH, is known. -/
def answerSub (s : State) (x : Submission) (status : Nat) : State :=
  let s := { s with subs := s.subs.filter (fun y => y.id != x.id) }
  match x.thread with
  | none => s.modPart x.part (fun P => { P with lpStatus := BitVec.ofNat 8 status, lpSeq := P.lpSeq + 1#32 })
  | some r =>
    let s := if s.subs.any (fun y => y.part = x.part && y.thread.isSome) then s.post (.launchRecordGrant x.part)
      else s
    match s.thread? r.core r.slot with
    | none => s
    | some t => match t.wait with
      | .launch d _ => finishWait (writeG s r.core r.slot d (BitVec.ofNat 64 status)) r.core r.slot
      | _ => s

/-- A header that passes its checks becomes a launch. -/
def takeHeader (s : State) (x : Submission) (bs : List Byte) : State :=
  let st := headerStatus s x.part x.proc bs
  if st = 0 then
    let lid := s.fresh + 1
    answerSub (enterLaunch (newLaunch s (headerOf bs) none) lid) x 0
  else answerSub s x st

/-- R303: a header submitted through a port. -/
def portHeader (s : State) (x : Submission) : State :=
  if x.addr.toNat % 64 != 0 then answerSub s x 6
  else match distRead s x.part x.proc x.addr 256 with
    | none => answerSub s x 6
    | some bs => if 1024 ≤ recordsOf s x.part then answerSub s x 5 else takeHeader s x bs

/-- R301: the LAUNCH that has waited longest for a record may go on. -/
def grantRecord (s : State) (part : Nat) : State :=
  if s.subs.any (fun y => y.part = part && y.thread.isSome) then s.post (.launchRecordGrant part) else s

/-- R301: a LAUNCH submits nothing after all. -/
def dropSub (s : State) (x : Submission) : State :=
  grantRecord { s with subs := s.subs.filter (fun y => y.id != x.id) } x.part

/-- R301: a header that LAUNCH has read is checked, or waits while the partition has no record for it or an earlier
LAUNCH waits. -/
def checkHeader (s : State) (x : Submission) (bs : List Byte) : State :=
  if 1024 ≤ recordsOf s x.part ||
      s.subs.any (fun y => y.part = x.part && y.thread.isSome && decide (y.id < x.id)) then
    { s with subs := s.subs.map (fun y => if y.id = x.id then { y with read := some bs } else y) }
  else takeHeader s x bs

/-- R301: a header submitted by LAUNCH: it is read once, before it waits for a record. -/
def threadHeader (s : State) (x : Submission) (r : TRef) : State :=
  match s.thread? r.core r.slot with
  | none => dropSub s x
  | some t =>
    match x.read with
    | some bs => checkHeader s x bs
    | none =>
      match readVa s r.core t.part t.proc x.addr 256 with
      | (s, .error f) => takeFault (dropSub s x) r.core r.slot f
      | (s, .ok bs) => checkHeader s x bs

/-! ## Task graphs (R313 to R316) -/

/-- R313: an entry of a node table: its header's address, pbase, pstride, K, predecessors. -/
structure NodeEntry where
  header : Word
  pbase : Nat
  pstride : Nat
  k : Nat
  preds : List Nat
  low : Nat
  deriving DecidableEq, Repr

def nodeEntry (bs : List Byte) (i : Nat) : NodeEntry :=
  let b := bs.drop (32 * i)
  { header := BitVec.ofNat 64 (wordAt b 0), pbase := wordAt b 1, pstride := bitsOf (wordAt b 2) 32 32,
    k := bitsOf (wordAt b 2) 24 8, low := bitsOf (wordAt b 2) 0 24,
    preds := (List.range 4).map (fun j => bitsOf (wordAt b 3) (16 * j) 16) }

/-- R313: whether the fields of entry i are within their ranges. -/
def nodeFields (e : NodeEntry) (i : Nat) : Bool :=
  decide (1 ≤ e.k) && decide (e.k ≤ 16) && e.low = 0 && e.pbase % 64 = 0 && e.pstride % 64 = 0 &&
    (e.k = 1 || e.pstride != 0) && e.preds.all (fun p => p = 0xFFFF || decide (p < i))

/-- R314 order 4: the headers of a node table. -/
def nodeHeaders (s : State) (part proc : Nat) : List NodeEntry → Option (List (List Byte))
  | [] => some []
  | e :: es =>
    if e.header.toNat % 64 != 0 then none
    else match distRead s part proc e.header 256, nodeHeaders s part proc es with
      | some bs, some l => some (bs :: l)
      | _, _ => none

/-- R314 order 6: the status of the first node that fails. -/
def nodeStatus (s : State) (part proc : Nat) : Nat → List (NodeEntry × List Byte) → Nat
  | _, [] => 0
  | i, (e, bs) :: l =>
    let st := headerStatus s part proc bs
    if st != 0 then st else if !nodeFields e i then 4 else nodeStatus s part proc (i + 1) l

/-- R314 step 4: the records of a replay's nodes. -/
def makeNodes (s : State) (rid v : Nat) : Nat → List (NodeEntry × List Byte) → State
  | _, [] => s
  | i, (e, bs) :: l =>
    let h := { headerOf bs with scl := BitVec.ofNat 64 (e.pbase + v % e.k * e.pstride) }
    makeNodes (newLaunch s h (some (rid, i))) rid v (i + 1) l

/-- Whether node i of a replay has completed. -/
def nodeDone (s : State) (x : Replay) (i : Nat) : Bool :=
  match (x.nodes[i]?).bind s.launch? with
  | some l => l.done
  | none => false

/-- The previous replay of the same descriptor that has not completed. -/
def previousReplay (s : State) (x : Replay) : Option Replay :=
  (s.replays.filter (fun y => y.part = x.part && y.proc = x.proc && y.desc = x.desc && y.id < x.id)).getLast?

/-- R315: whether node i may enter the launch queue. -/
def nodeMayEnter (s : State) (x : Replay) (i : Nat) : Bool :=
  (x.preds.getD i []).all (fun p => p = 0xFFFF || nodeDone s x p) &&
    (match previousReplay s x with
     | some y => decide (y.nodes.length ≤ i) || nodeDone s y i
     | none => true)

/-- R315: every node that may enter the queue does. -/
def enterNodes (s : State) (x : Replay) : List Nat → State
  | [] => s
  | i :: is =>
    match (x.nodes[i]?).bind s.launch? with
    | some l =>
      if !l.entered && nodeMayEnter s x i then enterNodes (enterLaunch s l.lid) x is else enterNodes s x is
    | none => enterNodes s x is

def enterAll (s : State) : List Replay → State
  | [] => s
  | x :: xs => enterAll (enterNodes s x (List.range x.nodes.length)) xs

/-- R314: a graph submitted through a port. -/
def portGraph (s : State) (x : Submission) : State :=
  if x.addr.toNat % 64 != 0 then answerSub s x 6
  else match distRead s x.part x.proc x.addr 64 with
    | none => answerSub s x 6
    | some bs =>
      let w := wordAt bs
      let n := bitsOf (w 0) 32 16
      if bitsOf (w 0) 0 32 != 0x514C4702 then answerSub s x 1
      else if n = 0 || 256 < n || w 2 % 32 != 0 || w 3 % 8 != 0 || bitsOf (w 0) 48 16 != 0 || w 6 != 0 ||
          w 7 != 0 then answerSub s x 4
      else match distRead s x.part x.proc (BitVec.ofNat 64 (w 2)) (32 * n) with
        | none => answerSub s x 6
        | some tbl =>
          let es := (List.range n).map (nodeEntry tbl)
          match nodeHeaders s x.part x.proc es with
          | none => answerSub s x 6
          | some hs =>
            if 1024 < recordsOf s x.part + n || 16 ≤ count (fun y : Replay => y.part = x.part) s.replays then
              answerSub s x 5
            else
              let st := nodeStatus s x.part x.proc 0 (es.zip hs)
              if st != 0 then answerSub s x st
              else
                let rid := s.fresh
                let s := makeNodes s.bump rid (w 1) 0 (es.zip hs)
                let r : Replay := { id := rid, part := x.part, proc := x.proc, desc := x.addr,
                                    version := BitVec.ofNat 64 (w 1), done := BitVec.ofNat 64 (w 3),
                                    doneadd := BitVec.ofNat 64 (w 4),
                                    nodes := (List.range n).map (fun i => rid + 2 + i), preds := es.map (·.preds) }
                let s := { s with replays := s.replays ++ [r] }
                answerSub (enterNodes s r (List.range n)) x 0

/-- LAUNCH_ACCEPT (R300, R301, R303, R314): a submission is decided. -/
def execLaunchAccept (id : Nat) (s : State) : Host.Outcome State Fault Refusal :=
  match s.subs.find? (fun x => x.id = id) with
  | none => .next s
  | some x =>
    .next (match x.thread with
      | some r => threadHeader s x r
      | none => if x.graph then portGraph s x else portHeader s x)

/-- LAUNCH_RECORD_GRANT (R301): the LAUNCH that has waited longest looks again. -/
def execLaunchRecordGrant (part : Nat) (s : State) : Host.Outcome State Fault Refusal :=
  match s.subs.find? (fun x => x.part = part && x.thread.isSome) with
  | none => .next s
  | some x => execLaunchAccept x.id s

/-- LAUNCH's own effect (R196, R301): the right, the alignment, and the submission. -/
def doLaunch (s : State) (c slot : Nat) (t : Thread) (d : Nat) (va : Word) : State :=
  match needRight s c slot t 10 with
  | (s, some f) => takeFault s c slot f
  | (s, none) =>
    if va.toNat % 64 != 0 then takeFault s c slot (mkFault fcMisalign va 64#64)
    else
      let x : Submission := { id := s.fresh, part := t.part, proc := t.proc, addr := va, graph := false,
                              thread := some ⟨c, slot⟩ }
      let s := beginWait s c slot .waiting (.launch d s.fresh)
      (({ s with subs := s.subs ++ [x] } : State).bump).post (.launchAccept s.fresh)

/-- LAUNCH (R196). -/
def execLaunch (g : BitVec 3) (d a : BitVec 7) : State → Host.Outcome State Fault Refusal :=
  issue (.launch g d a)
    { guard := g, g := [d.toNat, a.toNat], reads := [a.toNat], writes := [d.toNat], drain := true,
      commit := fun _ => true }
    (fun c slot t s => doLaunch s c slot t d.toNat (t.gv a.toNat))

/-! ## Dependences (R304) -/

/-- R304: the dependence word: its place; none when its page fails. -/
def depPlace (s : State) (h : Header) : Option Place :=
  match distPlace s h.part h.proc h.dep .ld with
  | some (.page .coherent pkg pa) => some (.page .coherent pkg pa)
  | some (.page .hostCoherent pkg pa) => some (.page .hostCoherent pkg pa)
  | _ => none

/-- R304: the launch's watch on its dependence word. -/
def dropDep (s : State) (lid : Nat) : State :=
  postEntries { s with watches := s.watches.filter (fun w => w.kind != .dep lid) }

/-- R304: whether a launch still waits for its dependence: one that is pre-empted has met it. -/
def dependent (l : Launch) : Bool :=
  l.entered && l.ready.isNone && !l.preempting && !l.done && !l.cancelled && l.hdr.dep != 0#64

/-- R304: the dependence word read, and watched in the same act while it falls short. -/
def readDep (s : State) (l : Launch) (p : Place) : State :=
  let v := readPlace s noCore p 8
  if l.hdr.depval.toNat ≤ (leWord v.1).toNat then
    (dropDep (s.modLaunch l.lid (fun l => { l with ready := some s.now })) l.lid).post (.placementDecision l.part)
  else if s.watches.any (fun w => w.kind = .dep l.lid) || !storeRoom s (520 * homeDist s l.part) p then s
  else addWatch s { place := lineOf p, thread := ⟨0, 0⟩, kind := .dep l.lid }

/-- DEPENDENCE_READY (R304): the word is read at its home, and watched in the same act while it falls short. -/
def execDependenceReady (lid : Nat) (s : State) : Host.Outcome State Fault Refusal :=
  .next (settleAct (match s.launch? lid with
    | none => s
    | some l =>
      if !dependent l then s
      else match depPlace s l.hdr with
        | none => s.post (.dependenceCancel lid)
        | some p => atPlace s (.dependenceReady lid) p false false (fun s => readDep s { l with lid := lid } p))
    (.dependenceReady lid))

/-- DEPENDENCE_CANCEL (R304): the page of the dependence word fails: no group is placed, and the launch
completes. Where the page no longer fails, the word is read. -/
def execDependenceCancel (lid : Nat) (s : State) : Host.Outcome State Fault Refusal :=
  match s.launch? lid with
  | none => .next s
  | some l =>
    if !dependent l then .next s
    else if (depPlace s l.hdr).isSome then .next (s.post (.dependenceReady lid))
    else
      let s := s.modLaunch lid (fun l => { l with
        cancelled := true, ready := some s.now, status := l.status ||| 4#5, bands := l.bands.map (fun _ => .ended) })
      .next ((dropDep s lid).post (.launchCompletion lid))

/-! ## Work lists (R195, R311, R312) -/

/-- WQRY's own effect (R195): the answer word is checked and the request is queued. -/
def doWqry (s : State) (c slot : Nat) (t : Thread) (d : Nat) (va : Word) : State :=
  if va.toNat % 8 != 0 then takeFault s c slot (mkFault fcMisalign va 8#64)
  else match classOf va with
    | .own off =>
      if off < (s.core c).xb then takeFault s c slot (prot va 3)
      else if undoRegion (s.core c) off then takeFault s c slot (prot va 1)
      else match s.launch? t.lid with
        | some l =>
          if l.hdr.persist then
            let q : Query := { id := s.fresh, lid := t.lid, gid := t.gid, core := c, off := off, answer := none }
            let s := (({ s with queries := s.queries ++ [q] } : State).bump).post (.wqryServe l.part)
            writeG (s.modGroup t.gid (fun g => { g with ops := g.ops + 1 })) c slot d 0#64
          else writeG s c slot d 1#64
        | none => writeG s c slot d 1#64
    | _ => takeFault s c slot (prot va 3)

/-- WQRY (R195). -/
def execWqry (g : BitVec 3) (d a : BitVec 7) : State → Host.Outcome State Fault Refusal :=
  issue (.wqry g d a)
    { guard := g, g := [d.toNat, a.toNat], reads := [a.toNat], writes := [d.toNat], drain := true,
      commit := fun _ => true }
    (fun c slot t s => doWqry s c slot t d.toNat (t.gv a.toNat))

/-- The end-of-work token. -/
def endToken : Word := BitVec.allOnes 64

def setAnswer (qs : List Query) (id : Nat) (w : Word) : List Query :=
  qs.map (fun q => if q.id = id then { q with answer := some w } else q)

/-- WQRY_SERVE (R311): the partition's oldest request is served. -/
def execWqryServe (part : Nat) (s : State) : Host.Outcome State Fault Refusal :=
  match s.queries.find? (fun q => q.answer.isNone && (match s.launch? q.lid with
      | some l => l.part = part
      | none => false)) with
  | none => .next s
  | some q =>
    match s.launch? q.lid with
    | none => .next s
    | some l =>
      let i := l.items
      let item := if i < l.hdr.wcount then distRead s l.part l.hdr.proc (l.hdr.wlist + BitVec.ofNat 64 (8 * i)) 8
        else some (wordBytes endToken)
      let s := s.modLaunch q.lid (fun l => { l with
        items := if i < l.hdr.wcount then i + 1 else i
        status := if item.isNone then l.status ||| 8#5 else l.status })
      let w := match item with | some bs => leWord bs | none => endToken
      .next (({ s with queries := setAnswer s.queries q.id w } : State).post (.wqryAnswerDeliver q.id))

/-- WQRY_ANSWER_DELIVER (R195, R312): the answer is written and its word is full; it is held while the word is
full, or an earlier answer to it is undelivered. -/
def execWqryAnswerDeliver (id : Nat) (s : State) : Host.Outcome State Fault Refusal :=
  match s.queries.find? (fun q => q.id = id) with
  | none => .next s
  | some q =>
    match q.answer with
    | none => .next s
    | some w =>
      let s := feFirst s q.core q.off 8
      if fullBit (s.core q.core) q.off ||
          s.queries.any (fun x => x.core = q.core && x.off = q.off && x.answer.isSome && decide (x.id < id)) then
        let s := { s with queries := s.queries.map (fun x => if x.id = id then { x with held := true } else x) }
        .next (groupEnd s q.gid)
      else
        let s := { s with queries := s.queries.filter (fun x => x.id != id) }
        let s := setFull (writePlace s q.core (.spad q.core q.off) (wordBytes w) false) q.core q.off true
        let s := match feNext s q.core q.off with
          | none => s
          | some _ => s.post (.feWaiterRelease q.core (q.off / 8))
        .next (endOp s q.gid)

/-! ## Completion (R316 to R318) -/

/-- R378: a completion write failed. -/
def logLaunchWrite (s : State) (part : Nat) (va extra : Word) : State :=
  logEvent s (0xA08 + homeDist s part) part 2 0x800E#16 va 0#64 extra (nowWord s)

/-- What came of one atomic write of a distributor: made, failed, or on its way to another package. -/
inductive DistWrite where
  | made | failed | sent
  deriving DecidableEq, Repr

/-- R318: one atomic of a completion at the place R121 names; the answer of another package comes as an event
that names the launch. -/
def distAtomic (s : State) (part proc lid : Nat) (va : Word) (op : AmoOp) (w : Word) : State × DistWrite :=
  match distPlace s part proc va (.amo true) with
  | some (.page .remotePosted pkg pa) =>
    let p : FabricPacket := { id := s.fresh, kind := 3, addr := domAddr pkg pa, part := part, size := 8, data := [],
                              op := some (.amo op w), thread := none, lid := lid }
    (({ s with out := Map.set s.out s.fresh p } : State).bump, .sent)
  | some (.page k pkg pa) =>
    let p : Place := .page k pkg pa
    if k != .coherent && k != .hostCoherent then (s, .failed)
    else
      let v := readPlace s noCore p 8
      if v.2 then (s, .failed)
      else (writePlace s 0 p (wordBytes (amoNew op (leWord v.1) w)) false, .made)
  | _ => (s, .failed)

/-- R318: a launch's completion is written: a node's record stays until its replay completes, any other is freed. -/
def launchOver (s : State) (l : Launch) : State :=
  match l.node with
  | none => grantRecord { s with launches := Map.erase s.launches l.lid } l.part
  | some _ =>
    let s := s.modLaunch l.lid (fun l => { l with done := true })
    (enterAll s (s.replays.filter (fun y => y.part = l.part))).post (.launchCompletion l.lid)

/-- R315, R316: the replays of a descriptor that come after one look again. -/
def postReplays (s : State) (x : Replay) : List Replay → State
  | [] => s
  | y :: ys =>
    postReplays (if y.part = x.part && y.proc = x.proc && y.desc = x.desc then
      s.post (.launchCompletion (y.nodes.headD 0)) else s) x ys

/-- R316: a replay whose completion is written is over, its records are free, and the next may complete. -/
def replayOver (s : State) (x : Replay) : State :=
  let s := grantRecord { s with
    replays := s.replays.filter (fun y => y.id != x.id)
    launches := s.launches.filter (fun y => !x.nodes.contains y.1) } x.part
  postReplays s x s.replays

def setReplayWrote (s : State) (id n : Nat) : State :=
  { s with replays := s.replays.map (fun y => if y.id = id then { y with wrote := n } else y) }

/-- R235: whether a posted store or a completion write of a launch is still on its way. -/
def writesInFlight (s : State) (lid : Nat) : Bool := s.out.any (fun x => x.2.lid = lid)

/-- R346: an act of a distributor at the home of an address that it writes; where the address has no place, at once. -/
def distTurn (s : State) (part proc lid : Nat) (va : Word) (k : AKind) (f : State → State) : State :=
  match distPlace s part proc va k with
  | some p => atPlace s (.launchCompletion lid) p true false f
  | none => f s

/-- R316: retired is written; a posted write of it to another package is awaited under the launch's number. -/
def writeRetired (s : State) (lid : Nat) (x : Replay) : State :=
  match distPlace s x.part x.proc (x.desc + 0x28#64) .std with
  | none => logLaunchWrite s x.part (x.desc + 0x28#64) 0#64
  | some (.page .remotePosted pkg pa) =>
    let s' := distStore s x.part (.page .remotePosted pkg pa) (wordBytes x.version)
    { s' with out := s'.out.map (fun p => if p.1 = s.fresh then (p.1, { p.2 with lid := lid }) else p) }
  | some p => distStore s x.part p (wordBytes x.version)

/-- R316: the milestone add of a replay. -/
def addDone (s : State) (lid : Nat) (x : Replay) : State :=
  match distAtomic s x.part x.proc lid x.done .add x.doneadd with
  | (s, .made) => replayOver s x
  | (s, .failed) => replayOver (logLaunchWrite s x.part x.done 0#64) x
  | (s, .sent) => setReplayWrote s x.id 2

/-- R316: the next write of a replay whose nodes have all completed: retired, then the milestone add. -/
def replayStep (s : State) (lid : Nat) (x : Replay) : State :=
  if !(List.range x.nodes.length).all (nodeDone s x) || (previousReplay s x).isSome || x.nodes.any (writesInFlight s) then s
  else match x.wrote with
    | 0 => distTurn s x.part x.proc lid (x.desc + 0x28#64) .std (fun s =>
        (setReplayWrote (writeRetired s lid x) x.id 1).post (.launchCompletion lid))
    | 1 =>
      if x.done = 0#64 then replayOver s x
      else distTurn s x.part x.proc lid x.done (.amo true) (fun s => addDone s lid x)
    | _ => replayOver s x

/-- R318: one write of a completion; one that fails is logged, and what follows it goes on. -/
def completionWrite (s : State) (l : Launch) (lid : Nat) (va : Word) (op : AmoOp) (w : Word) (next : State → State) :
    State :=
  match distAtomic s l.part l.hdr.proc lid va op w with
  | (s, .made) => next s
  | (s, .failed) => next (logLaunchWrite s l.part l.hdr.done (l.status.zeroExtend 64))
  | (s, .sent) => s.modLaunch lid (fun l => { l with wrote := l.wrote + 1 })

/-- R318: the next write of the completion of a launch: its status, then the add. -/
def completionStep (s : State) (l : Launch) (lid : Nat) : State :=
  match l.wrote with
  | 0 => distTurn s l.part l.hdr.proc lid (l.hdr.done + 8#64) (.amo true) (fun s =>
      completionWrite s l lid (l.hdr.done + 8#64) .or (l.status.zeroExtend 64) (fun s =>
        (s.modLaunch lid (fun l => { l with wrote := 1 })).post (.launchCompletion lid)))
  | 1 => distTurn s l.part l.hdr.proc lid l.hdr.done (.amo true) (fun s =>
      completionWrite s l lid l.hdr.done .add l.hdr.doneadd (fun s => launchOver s l))
  | _ => launchOver s l

/-- LAUNCH_COMPLETION (R235, R316 to R318): the next write of a completion. -/
def execLaunchCompletion (lid : Nat) (s : State) : Host.Outcome State Fault Refusal :=
  .next (settleAct (match s.launch? lid with
    | none => s
    | some l =>
      if l.done then
        match l.node.bind (fun n => s.replays.find? (fun x => x.id = n.1)) with
        | some x => replayStep s lid x
        | none => s
      else if !l.bands.all (· = .ended) || writesInFlight s lid then s
      else if l.hdr.done = 0#64 then launchOver s l
      else completionStep s l lid) (.launchCompletion lid))

end Sys2Proof.Machine
end

