-- ==== Sys2Proof/Machine/Placement.lean ====
section
/-!
DEFINITION. Placement.lean: the placement of bands (R305, R306, R332, R333, R239), quantum pre-emption (R307 to R310),
saving and restoring groups (R335 to R338).
-/
namespace Sys2Proof.Machine
open Sys2Proof

/-! ## Whether a group fits (R306, R333) -/

/-- What a group needs of a core. -/
structure Need where
  slots : Nat
  v : Nat
  z : Nat
  deriving DecidableEq, Repr

/-- R306: the claims of a group that has not run. -/
def newNeed (h : Header) : Need := { slots := h.gsize, v := h.gsize * h.vclaim, z := h.gsize * h.zclaim }

/-- R332: the identity of a launch's code image. -/
def imageOf (h : Header) : Image := { part := h.part, proc := h.proc, code := h.code, bytes := h.bytes }

/-- The groups placed on a core. -/
def placedOn (s : State) (c : Nat) : List Group :=
  (s.groups.map (·.2)).filter (fun g => g.core = c && g.saved.isNone)

/-- R333: a core that holds no thread, no live allocation and no reserved save. -/
def emptyCore (s : State) (c : Nat) : Bool :=
  (s.core c).threads.isEmpty && (s.core c).reservedSlots.isEmpty && !s.groups.any (fun x => x.2.core = c)

/-- R333: the images of the placed groups whose launch has MIGRANT set. -/
def migrantImages (s : State) (part : Nat) : List Image :=
  (s.groups.map (·.2)).filterMap (fun g => match s.launch? g.lid with
    | some l => if g.saved.isNone && l.part = part && l.hdr.migrant then some (imageOf l.hdr) else none
    | none => none)

/-- R333: XB once a launch's image is resident on a core; none when it cannot be. -/
def xbWith (s : State) (h : Header) (c : Nat) : Option Nat :=
  let k := s.core c
  if k.image = some (imageOf h) then some k.xb
  else if emptyCore s c then some (imageTop h) else none

/-- Whether [a, a + n) meets no live allocation of a core. -/
def rangeFree (gs : List Group) (a n : Nat) : Bool :=
  gs.all (fun g => g.size = 0 || decide (a + n ≤ g.base) || decide (g.base + g.size ≤ a))

/-- R333: the highest address at which an allocation fits; 0 for an allocation of no bytes. -/
def highestBase (gs : List Group) (xb top n : Nat) : Option Nat :=
  if n = 0 then some 0
  else ((top :: gs.map (·.base)).filterMap (fun e =>
      if xb + n ≤ e && rangeFree gs (e - n) n then some (e - n) else none)).foldl (fun best a =>
    match best with
    | none => some a
    | some b => some (Nat.max a b)) none

/-- R306: slots, contexts and pools of a core. -/
def claimsFit (s : State) (c : Nat) (nd : Need) : Bool :=
  let k := s.core c
  let movable := count (fun x : Nat × Thread =>
    x.2.code = .stopped || x.2.code = .faulted || x.2.code = .sleeping) (residents k)
  slotsUsed s c + nd.slots ≤ 4080 && contexts s c + nd.slots ≤ 512 + movable &&
    vUsed s c + nd.v ≤ 1024 && zUsed s c + nd.z ≤ 64

/-- R306, R380: a core that may be given a group of a launch. -/
def coreOpen (s : State) (l : Launch) (c : Nat) (nd : Need) : Bool :=
  let k := s.core c
  !k.fenced && k.selft.isNone && (nd.z = 0 || !k.fencedFns.getLsbD 4) &&
    !(placedOn s c).any (fun g => g.lid = l.lid) &&
    (migrantImages s l.part).all (· = imageOf l.hdr)

/-- R384: whether a core may host, or stop hosting, lock-step work: cores of a pair run only launches with LSP,
and a core that is to be paired runs nothing. -/
def lockFits (s : State) (l : Launch) (c : Nat) : Bool :=
  match (s.core c).lock with
  | some L => l.hdr.lsp && !L.odd
  | none => !l.hdr.lsp || emptyCore s c

/-- R306: where a group of a launch would lie on a core, if it fits there. -/
def groupFits (s : State) (l : Launch) (nd : Need) (c : Nat) : Option Nat :=
  if !coreOpen s l c nd || !lockFits s l c || !claimsFit s c nd then none
  else match xbWith s l.hdr c with
    | none => none
    | some xb => highestBase (placedOn s c) xb (spadTop l.hdr) l.hdr.spad

/-- R306, R384: the shadow of a pair: it runs what its lead runs, and nothing else. -/
def shadowFits (s : State) (nd : Need) (lead shadow : Nat) : Bool :=
  let k := s.core shadow
  !k.fenced && k.selft.isNone && (nd.z = 0 || !k.fencedFns.getLsbD 4) && (match k.lock with
    | some L => L.odd && L.partner = lead
    | none => emptyCore s shadow && (s.core lead).lock.isNone)

/-- R306, R384: the cores of a logical cluster that groups of a launch may have, in ascending cidx, each with its
shadow. -/
def hosts (s : State) (l : Launch) (k : Nat) : List (Nat × Option Nat) :=
  let cs := clusterCores s l.part k
  if l.hdr.lsp then (pairsOf cs).map (fun x => (x.1, some x.2)) else cs.map (·, none)

/-- R306: where a group would lie on a core, or on a pair both of whose cores it fits. -/
def hostFits (s : State) (l : Launch) (nd : Need) (x : Nat × Option Nat) : Option Nat :=
  match x.2 with
  | some q => if shadowFits s nd x.1 q then groupFits s l nd x.1 else none
  | none => groupFits s l nd x.1

/-- R306: the cores of a logical cluster on which a group fits, in ascending cidx, with the place of its
allocation. -/
def fitting (s : State) (l : Launch) (nd : Need) (k : Nat) : List (Nat × Nat) :=
  (hosts s l k).filterMap (fun x => (hostFits s l nd x).map (x.1, ·))

/-- R306: the cores for `n` groups: the first of the lowest-numbered cluster that has enough. -/
def chooseCores (s : State) (l : Launch) (nd : Need) (n : Nat) : Option (List (Nat × Nat)) :=
  ((List.range (clusters s l.part)).filterMap (fun k =>
    let f := fitting s l nd k
    if n ≤ f.length then some (f.take n) else none)).head?

/-- R333: the lay-by room of a band. -/
def bandRoom (s : State) (l : Launch) : Bool := bandGroups l.hdr * groupRoom l.hdr ≤ layByRoom s l.part

/-! ## What a saved band needs (R337) -/

/-- The saved groups of a band, in ascending f[gfield]. -/
def savedGroups (s : State) (lid b : Nat) : List Group :=
  let gs := ((s.groups.map (·.2)).filter (fun g => g.lid = lid && g.band = b && g.saved.isSome))
  (List.range 128).filterMap (fun r => gs.find? (fun g => g.rank = r))

/-- The threads of a group in its core, its visitors apart. -/
def members (s : State) (g : Group) : List (Nat × Thread) :=
  (s.core g.core).threads.filter (fun x => ownMember x.2 g.gid)

def savedNeed (s : State) (g : Group) : Need :=
  let ts := members s g
  { slots := ts.length, v := (ts.map (·.2.m)).sum, z := (ts.map (·.2.zc)).sum }

/-- The barriers at which a group's threads are registered. -/
def groupBars (s : State) (g : Group) : List Place := ((members s g).flatMap (fun x => x.2.bars)).eraseDups

/-- R333: whether a core's barrier records let a saved group in: none of a barrier at which the group is registered. -/
def barsFit (s : State) (g : Group) (c : Nat) : Bool :=
  (groupBars s g).all (fun p => !(s.core c).bars.any (fun r => r.place = p))

/-- R337: whether a group fits at its former place. -/
def homeFits (s : State) (l : Launch) (g : Group) : Bool :=
  let nd := savedNeed s g
  let shadow := match (s.core g.core).owner with
    | some (p, lc) => (s.part p).ctab[lc + 1]?
    | none => none
  coreOpen s l g.core nd && claimsFit s g.core { nd with slots := 0 } &&
    decide (contexts s g.core + nd.slots ≤ 512 + count (fun x : Nat × Thread =>
      x.2.code = .stopped || x.2.code = .faulted || x.2.code = .sleeping) (residents (s.core g.core))) &&
    (s.core g.core).image = some (imageOf l.hdr) &&
    decide ((s.core g.core).xb ≤ g.base || g.size = 0) &&
    rangeFree (placedOn s g.core) g.base g.size && barsFit s g g.core &&
    (if l.hdr.lsp then
      ((s.core g.core).lock.isSome || (placedOn s g.core).isEmpty) &&
        (match shadow with | some q => shadowFits s nd g.core q | none => false)
    else (s.core g.core).lock.isNone)

/-- R306, R333: where a saved group would lie on a core. -/
def savedFits (s : State) (l : Launch) (g : Group) (x : Nat × Option Nat) : Option Nat :=
  if barsFit s g x.1 then hostFits s l (savedNeed s g) x else none

/-- R306, R337: saved groups, in ascending f[gfield], on the cores that fit them, in ascending cidx. -/
def assignGroups (s : State) (l : Launch) : List Group → List (Nat × Option Nat) → Option (List (Nat × Nat))
  | [], _ => some []
  | _, [] => none
  | g :: gs, x :: xs =>
    match savedFits s l g x with
    | some b => (assignGroups s l gs xs).map ((x.1, b) :: ·)
    | none => assignGroups s l (g :: gs) xs

/-- R337: where a saved band would go when it cannot go home: the lowest-numbered cluster that has cores for all its
groups. -/
def movedCores (s : State) (l : Launch) (gs : List Group) : Option (List (Nat × Nat)) :=
  ((List.range (clusters s l.part)).filterMap (fun k => assignGroups s l gs (hosts s l k))).head?

/-! ## The next band (R306) -/

/-- R306: the lowest-indexed saved band, or else the lowest-indexed unplaced band. -/
def nextBand (l : Launch) : Option (Nat × Bool) :=
  let at_ := fun (b : BandState) => ((List.range l.bands.length).find? (fun i => l.bands.getD i .ended = b))
  match at_ .saved with
  | some b => some (b, true)
  | none => (at_ .unplaced).map (·, false)

/-- How the next band of a launch would be placed. -/
inductive Plan where
  | fresh (b : Nat) (cores : List (Nat × Nat))
  | home (gs : List Group)
  | moved (gs : List Group) (cores : List (Nat × Nat))
  deriving DecidableEq, Repr

/-- R306, R337: the plan for the next band, when it fits. -/
def planOf (s : State) (l : Launch) : Option Plan :=
  match nextBand l with
  | none => none
  | some (b, false) =>
    if bandRoom s l then (chooseCores s l (newNeed l.hdr) (bandGroups l.hdr)).map (.fresh b) else none
  | some (b, true) =>
    let gs := savedGroups s l.lid b
    if gs.isEmpty then none
    else if gs.all (homeFits s l) then some (.home gs)
    else (movedCores s l gs).map (.moved gs)

/-! ## Code images (R332, R333) -/

/-- R332: an image loaded on a core; none when its memory cannot be read. -/
def loadImage (s : State) (h : Header) (c : Nat) : Option State :=
  if (s.core c).image = some (imageOf h) then some s
  else (distRead s h.part h.proc h.code h.bytes).map (fun bs =>
    (writeBytes s c (.spad c 0) bs false).modCore c (fun k =>
      { k with xb := imageTop h, image := some (imageOf h) }))

def loadAll (s : State) (h : Header) : List Nat → Except Nat State
  | [] => .ok s
  | c :: cs => match loadImage s h c with
    | none => .error c
    | some s => loadAll s h cs

/-- R332, R378: a code image could not be loaded. -/
def logCodeLoad (s : State) (h : Header) (c : Nat) : State :=
  let lc := ((s.core c).owner.getD (0, 0)).2
  logEvent s (0xA08 + homeDist s h.part) h.part 2 0x800F#16 h.code 0#64 (BitVec.ofNat 64 lc) (nowWord s)

/-- R333: the image of a MIGRANT launch goes to every core of its partition that could receive it. -/
def spreadImage (s : State) (l : Launch) : List Nat → State
  | [] => s
  | c :: cs =>
    if emptyCore s c && !(s.core c).fenced then
      spreadImage (match loadImage s l.hdr c with
        | some s => s
        | none => logCodeLoad s l.hdr c) l cs
    else spreadImage s l cs

/-! ## Placing a new band (R239, R306) -/

/-- R238: the field values of a band index. -/
def bandFields (h : Header) (b : Nat) : List Nat :=
  ((List.range h.count).foldl (fun (acc : List Nat × Nat) i =>
    if i = h.tfield || i = h.gfield then (acc.1 ++ [0], acc.2)
    else (acc.1 ++ [acc.2 % h.extents.getD i 1], acc.2 / h.extents.getD i 1)) ([], b)).1

/-- R238: the WID of a thread. -/
def widOf (h : Header) (b rank tix : Nat) : Word :=
  let fs := bandFields h b
  BitVec.ofNat 64 ((List.range h.count).foldl (fun acc i =>
    let f := if i = h.tfield then tix else if i = h.gfield then rank else fs.getD i 0
    acc + f * 2 ^ ((h.widths.take i).sum)) 0)

/-- R239: a thread as the distributor places it. -/
def placedThread (l : Launch) (gid b rank tix : Nat) : Thread :=
  let h := l.hdr
  { n := h.regs, m := h.vclaim, zc := h.zclaim, pc := BitVec.ofNat 64 h.entry, wid := widOf h b rank tix,
    fmt := h.fmt, scl := h.scl, authp := h.auth, geom0 := h.geom,
    geom1 := if h.edge then BitVec.ofNat 64 (b % 2 ^ 32 * 2 ^ 32 + rank) else 0#64,
    lid := l.lid, gid := gid, proc := h.proc, part := h.part, ipc := BitVec.ofNat 64 h.entry }

/-- R22: contexts freed on a core until `n` are free. -/
def freeContexts (s : State) (c n : Nat) : Nat → State
  | 0 => s
  | fuel + 1 =>
    if contexts s c + n ≤ 512 then s
    else match spillChoice (s.core c) with
      | some x => freeContexts (spill s c x) c n fuel
      | none => s

/-- R239: the threads of a group take the lowest free slots, in ascending TIX. -/
def placeThreads (s : State) (c : Nat) (l : Launch) (gid b rank : Nat) : List Nat → State
  | [] => s
  | tix :: ts =>
    match lowestSlot (s.core c) 0 4080 with
    | none => s
    | some slot => placeThreads (allocThread s c slot (placedThread l gid b rank tix)) c l gid b rank ts

/-- R215: the full bits of a range of a scratchpad are emptied; nothing is released or woken. -/
def emptyRange (s : State) (c base n : Nat) : State :=
  s.modCore c (fun k => { k with full := k.full.filter (fun w => w < base / 8 || (base + n) / 8 ≤ w) })

/-- R384: two cores become a pair. -/
def setPair (s : State) (lead : Nat) : State :=
  match (s.core lead).owner with
  | none => s
  | some (p, lc) => match (s.part p).ctab[lc + 1]? with
    | none => s
    | some shadow =>
      if (s.core lead).lock.isSome then s
      else
        let L := fun (partner : Nat) (odd : Bool) =>
          ({ partner := partner, odd := odd, count := 0, held := [], undo := [], snap := [], mismatches := 0,
             since := (s.core lead).cyc } : LockStep)
        (s.modCore lead (fun k => { k with lock := some (L shadow false) })).modCore shadow
          (fun k => { k with lock := some (L lead true) })

/-- R384, R386: a checkpoint that is the present state of the core's threads. -/
def snapNow (s : State) (c : Nat) : State :=
  s.modCore c (fun k => { k with lock := k.lock.map (fun L => { L with snap := k.threads }) })

/-- R239, R306: one group of a band placed. -/
def placeGroup (s : State) (l : Launch) (b rank c base : Nat) : State :=
  let gid := s.fresh + 1
  let index := groupIndex l.hdr (widOf l.hdr b rank 0)
  let g : Group := { gid := gid, lid := l.lid, band := b, rank := rank, index := index, core := c, base := base,
                     size := l.hdr.spad }
  let s := freeContexts s c l.hdr.gsize 512
  let s := emptyRange ({ s with groups := Map.set s.groups gid g } : State).bump c base l.hdr.spad
  let s := s.modPart l.part (fun p => { p with poolUsed := p.poolUsed + groupRoom l.hdr })
  let s := if l.hdr.lsp then setPair s c else s
  let s := placeThreads s c l gid b rank (List.range l.hdr.gsize)
  if l.hdr.lsp then snapNow s c else s

def placeGroups (s : State) (l : Launch) (b : Nat) : List (Nat × Nat × Nat) → State
  | [] => s
  | (rank, c, base) :: xs => placeGroups (placeGroup s l b rank c base) l b xs

/-- R307, R394: a band has been placed: the quantum starts, and the decision is sampled. -/
def bandPlaced (s : State) (l : Launch) (b : Nat) (start : Bool) : State :=
  let s := s.modLaunch l.lid (fun l => { l with
    bands := setAt l.bands b .placed, ran := if start then 0 else l.ran, fitBands := l.fitBands.filter (· != b) })
  sampleHist s l.part 1 (s.now - l.accepted)

/-- R239, R332, R333: a new band is placed; when an image cannot be loaded, the failure is logged and the band is
not placed. -/
def placeFresh (s : State) (l : Launch) (b : Nat) (cores : List (Nat × Nat)) : State × Bool :=
  match loadAll s l.hdr (cores.map (·.1)) with
  | .error c => (logCodeLoad s l.hdr c, false)
  | .ok s =>
    let first := l.bands.all (fun b => b = .unplaced)
    let s := placeGroups s l b ((List.range cores.length).zip cores)
    let s := if l.hdr.migrant && first then spreadImage s l (s.part l.part).ctab else s
    (bandPlaced s l b first, true)

/-! ## Restoring a saved band (R337) -/

/-- R337: HOLD is cleared in the threads of a restored group. -/
def clearHold (s : State) (c : Nat) : List Nat → State
  | [] => s
  | slot :: l => clearHold (unstop (s.modThread c slot (fun t => { t with hold := false })) c slot) c l

/-- R337: a saved group's contents, records and answers return to a core. -/
def refill (s : State) (g : Group) (v : Saved) (c base : Nat) : State :=
  let s := s.modCore c (fun k => { k with
    spad := Mem.writeN k.spad base v.bytes
    full := (v.full.map (base / 8 + ·)).foldl (fun l w => insertNat w l)
      (k.full.filter (fun w => w < base / 8 || (base + g.size) / 8 ≤ w))
    poisonW := (v.poison.map (base / 8 + ·)).foldl (fun l w => insertNat w l)
      (k.poisonW.filter (fun w => w < base / 8 || (base + g.size) / 8 ≤ w))
    bars := k.bars ++ v.bars })
  let s := s.modGroup g.gid (fun g => { g with saved := none, core := c, base := base, ops := g.ops + v.held.length })
  v.held.foldl (fun (s : State) (h : Nat × Word) =>
    let q : Query := { id := s.fresh, lid := g.lid, gid := g.gid, core := c, off := base + h.1, answer := some h.2 }
    (({ s with queries := s.queries ++ [q] } : State).bump).post (.wqryAnswerDeliver s.fresh)) s

/-- R337: a group goes back to its own core with its own slots. -/
def restoreHome (s : State) (l : Launch) (g : Group) : State :=
  match g.saved with
  | none => s
  | some v =>
    let slots := (members s g).map (·.1)
    let s := freeContexts s g.core slots.length 512
    let s := if l.hdr.lsp then setPair s g.core else s
    let s := refill s g v g.core g.base
    let s := slots.foldl (fun (s : State) n => s.modThread g.core n (fun t => { t with away := false })) s
    if l.hdr.lsp then snapNow s g.core else s

/-- One name of a thread for another. -/
def renamed (a b : TRef) (r : Option TRef) : Option TRef := if r = some a then some b else r

/-- A thread that moves to another core and slot takes its watches, its requests on their way and its place in queues
with it. -/
def moveRefs (s : State) (a b : TRef) : State :=
  let s := moveWork s a b
  { s with
    watches := s.watches.map (fun w => if w.thread = a then { w with thread := b } else w)
    subs := s.subs.map (fun x => { x with thread := renamed a b x.thread })
    packets := s.packets.map (fun (x : Nat × Packet) => (x.1, { x.2 with issuer := renamed a b x.2.issuer }))
    acts := s.acts.map (fun x => { x with thread := renamed a b x.thread })
    invals := s.invals.map (fun x => if x.thread = a then { x with thread := b } else x)
    barMsgs := s.barMsgs.map (fun m => { m with thread := renamed a b m.thread })
    ports := s.ports.map (fun (x : Nat × Port) =>
      (x.1, { x.2 with room := x.2.room.map (fun r => if r = a then b else r) })) }

/-- R209: what a thread that moves waits for names it anew. -/
def moveWait (b : TRef) : Wait → Wait
  | .cwRoom p o va => .cwRoom p { o with issuer := some b } va
  | w => w

/-- R248: a BREG that waits for a record waits for one of the core its thread has moved to. -/
def moveBreg (s : State) (a c slot n : Nat) : State :=
  if (s.core a).barWait.contains slot then
    ((s.modCore a (fun k => { k with barWait := k.barWait.erase slot })).modCore c
      (fun k => { k with barWait := k.barWait ++ [n] })).post (.barrierRecordGrant c)
  else s

/-- R337: one thread of a group that moves: the old slot is freed with its generation advanced. -/
def moveThread (s : State) (a c : Nat) (slot : Nat) (t : Thread) : State :=
  match lowestSlot (s.core c) 0 4080 with
  | none => s
  | some n =>
    let s := moveBreg (moveRefs s ⟨a, slot⟩ ⟨c, n⟩) a c slot n
    let s := s.modCore a (fun k => { rcDrop k slot with
      threads := Map.erase k.threads slot
      gens := Map.set k.gens slot ((genOf k slot + 1) % 2 ^ 20) })
    s.setThread c n { t with away := false, since := (s.core c).cyc, wait := moveWait ⟨c, n⟩ t.wait }

def moveThreads (s : State) (a c : Nat) : List (Nat × Thread) → State
  | [] => s
  | (slot, t) :: l => moveThreads (moveThread s a c slot t) a c l

/-- R337: a group goes to another core. -/
def restoreMoved (s : State) (l : Launch) (g : Group) (c base : Nat) : State :=
  match g.saved with
  | none => s
  | some v =>
    let ts := members s g
    let s := freeContexts s c ts.length 512
    let s := if l.hdr.lsp then setPair s c else s
    let s := refill s g v c base
    let s := moveThreads s g.core c ts
    let s := if l.hdr.lsp then snapNow s c else s
    let mine := fun (p : Packet) => p.kind = 0 && p.gid = g.gid
    let s := { s with packets := s.packets.map (fun (x : Nat × Packet) =>
      if mine x.2 then (x.1, { x.2 with target := c }) else x) }
    let s := s.modCore g.core (fun k => { k with ctxWait := k.ctxWait.filter (fun r => match r with
      | .packet id => (match Map.get? s.packets id with | some p => !mine p | none => true)
      | .fill _ => true) })
    (s.packets.filter (fun x => mine x.2)).foldl (fun (s : State) (x : Nat × Packet) =>
      s.post (.threadPacketArrive x.1)) s

/-- R337: HOLD is cleared once every group of the band is restored. -/
def releaseBand (s : State) : List Nat → State
  | [] => s
  | gid :: l =>
    match s.group? gid with
    | none => releaseBand s l
    | some g =>
      let s := clearHold s g.core ((members s g).map (·.1))
      releaseBand (groupEnd (postCtx s g.core) gid) l

def restoreAll (s : State) (l : Launch) : List (Group × Nat × Nat) → State
  | [] => s
  | (g, c, base) :: xs => restoreAll (restoreMoved s l g c base) l xs

/-- R337: a saved band is restored; the Bool is false when an image could not be loaded. -/
def placeSaved (s : State) (l : Launch) (b : Nat) (p : Plan) : State × Bool :=
  match p with
  | .home gs =>
    let s := gs.foldl (fun s g => restoreHome s l g) s
    (bandPlaced (releaseBand s (gs.map (·.gid))) l b true, true)
  | .moved gs cores =>
    match loadAll s l.hdr (cores.map (·.1)) with
    | .error c => (logCodeLoad s l.hdr c, false)
    | .ok s =>
      let s := restoreAll s l (gs.zip cores)
      (bandPlaced (releaseBand s (gs.map (·.gid))) l b true, true)
  | .fresh _ _ => (s, false)

/-! ## RESTORE_FIT (R338) -/

/-- R338: whether some cluster could ever hold the groups of a saved band. -/
def couldEver (s : State) (l : Launch) (b : Nat) : Bool := someCluster s l.hdr (savedGroups s l.lid b).length

/-- R28, R338: the claims and the group of a record. -/
def fitWord (l : Launch) (g : Group) : Word :=
  BitVec.ofNat 64 (l.hdr.vclaim + 256 * l.hdr.zclaim + 2 ^ 32 * g.rank)

/-- R338: the record is written at the supervisor line, or the lack of one is logged. -/
def writeFit (s : State) (l : Launch) (g : Group) : State :=
  let t := (members s g).find? (fun x => widField l.hdr x.2.wid l.hdr.tfield = 0)
  let slot := (t.map (·.1)).getD 0
  let wid := (t.map (·.2.wid)).getD (widOf l.hdr g.band g.rank 0)
  let sup := ((Map.get? (s.part l.part).words 6).getD 0#64).toNat
  let f : FaultInfo := { code := fcRestoreFit, addr := 0#64, word := 0#32, extra := fitWord l g, flags := 0#16 }
  if sup = 0 then
    logEvent s (0xA08 + homeDist s l.part) l.part 2 0x8010#16 0#64 0#64 (fitWord l g) (nowWord s)
  else
    let n := ((s.launch? l.lid).map (·.fits)).getD 0 + 1
    let s := s.modLaunch l.lid (fun l => { l with fits := n, status := l.status ||| 16#5 })
    writePlace s 0 (.page .coherent s.pkg sup)
      (recordBytes (handleOf s g.core slot) 0#64 wid (BitVec.ofNat 64 n) f) false

/-- R338: a saved band that no cluster could ever hold is reported, once until it is placed. -/
def reportBand (s : State) (l : Launch) (b : Nat) : State :=
  if l.bands[b]? = some .saved && !l.fitBands.contains b && !couldEver s l b then
    match savedGroups s l.lid b with
    | g :: _ => writeFit (s.modLaunch l.lid (fun l => { l with fitBands := l.fitBands ++ [b] })) l g
    | [] => s
  else s

/-- R338: every saved band of a launch. -/
def reportFit (s : State) (l : Launch) : State :=
  (List.range l.bands.length).foldl (fun s b => reportBand s l b) s

def reportAll (s : State) : List Launch → State
  | [] => s
  | l :: ls => reportAll (reportFit s l) ls

/-! ## Decisions (R305, R306) -/

/-- R305: the effective priority. -/
def effective (s : State) (l : Launch) : Nat := Nat.min 7 (l.hdr.prio + (s.now - l.ready.getD s.now) / 2 ^ 24)

/-- R305: whether a launch stands before another. -/
def before (s : State) (x y : Launch) : Bool :=
  let rx := x.ready.getD 0
  let ry := y.ready.getD 0
  decide (effective s y < effective s x) ||
    (effective s x = effective s y && (decide (rx < ry) || (rx = ry && decide (x.seq < y.seq))))

def insertLaunch (s : State) (x : Launch) : List Launch → List Launch
  | [] => [x]
  | y :: l => if before s x y then x :: y :: l else y :: insertLaunch s x l

/-- R305: the ready launches of a partition with a band to place, in their order. -/
def readyOrder (s : State) (part : Nat) : List Launch :=
  if (s.part part).state != .active || s.plat.outOfService then []
  else ((s.launches.map (·.2)).filter (fun l => l.part = part && wantsToPlace l)).foldr (insertLaunch s) []
where
  wantsToPlace (l : Launch) : Bool :=
    l.ready.isSome && !l.cancelled && !l.preempting && !l.done && l.bands.any (fun b => b = .unplaced || b = .saved)

/-- R306: the first launch whose next band fits places it. -/
def decide1 (s : State) : List Launch → State × Bool
  | [] => (s, false)
  | l :: ls =>
    match planOf s l with
    | none => decide1 s ls
    | some (.fresh b cores) =>
      let x := placeFresh s l b cores
      if x.2 then x else decide1 x.1 ls
    | some p =>
      let x := placeSaved s l ((nextBand l).getD (0, true)).1 p
      if x.2 then x else decide1 x.1 ls

/-- PLACEMENT_DECISION (R305, R306, R337, R338). -/
def execPlacementDecision (part : Nat) (s : State) : Host.Outcome State Fault Refusal :=
  let x := decide1 s (readyOrder s part)
  .next (if x.2 then x.1.post (.placementDecision part) else reportAll x.1 (readyOrder x.1 part))

/-! ## Pre-emption (R307, R308, R310, R335) -/

/-- R335: a wait that pre-emption withdraws: the thread's pc goes back to the instruction. A WAITGE may still be about to
read its word; an LDFE or STFE may still wait for its entry, or as a guest. -/
def withdrawn (t : Thread) : Bool :=
  match t.wait with
  | .waitge _ _ _ _ _ _ => true
  | .fe _ _ _ _ _ _ => true
  | .access a => a.units.any (fun u => match u.op with | .waitge _ => u.out.isNone | _ => false)
  | _ => false

/-- R335: a guest's LDFE or STFE is no longer in its peer's queue. -/
def leaveGuests (s : State) (r : TRef) (w : Wait) : State :=
  match w with
  | .fe _ _ _ (.spad q _) _ _ => s.modCore q (fun k => { k with guests := k.guests.filter (· != (r, none)) })
  | _ => s

/-- R335: the watches of a thread are disarmed and its latch is set; a wait of R116 or R130 is withdrawn. -/
def holdWaits (s : State) (c slot : Nat) : State :=
  match s.thread? c slot with
  | none => s
  | some t =>
    let s := (disarmEvery s ⟨c, slot⟩).1
    if withdrawn t then
      let s := postEntries { s with
        watches := s.watches.filter (fun w => !(w.thread = ⟨c, slot⟩ && (w.kind = .fe || w.kind = .waitge)))
        entryWait := s.entryWait.filter (fun x => x.1 != ⟨c, slot⟩) }
      (leaveGuests s ⟨c, slot⟩ t.wait).setThread c slot { t with
        latch := true, wait := .idle, pc := t.ipc, wake := false, slept := false
        code := if t.code = .sleeping || t.code = .spilled then .waiting else t.code }
    else s.setThread c slot { t with latch := true }

/-- R308, R335: HOLD is set in a thread. -/
def holdThread (s : State) (c slot : Nat) : State :=
  stopThread ((holdWaits s c slot).modThread c slot (fun t => { t with hold := true })) c slot

def holdThreads (s : State) (c : Nat) : List Nat → State
  | [] => s
  | n :: l => holdThreads (holdThread s c n) c l

def holdGroups (s : State) : List Group → State
  | [] => s
  | g :: gs => holdGroups ((holdThreads s g.core ((members s g).map (·.1))).post (.groupSave g.gid)) gs

/-- R307: whether a launch's quantum is counting. -/
def counting (s : State) (l : Launch) : Bool :=
  l.hdr.quantum != 0 && !l.preempting && s.groups.any (fun g => g.2.lid = l.lid && running s g.2)

/-- R307: the launches of a partition whose quantum reaches its end with the cycle that now ends. -/
def expiring (s : State) (part : Nat) : List Launch :=
  (s.launches.map (·.2)).filter (fun l => l.part = part && counting s l && !l.done && decide (l.hdr.quantum ≤ l.ran + 1))

/-- R307: whether a ready launch pre-empts one that expires, as the state of the cycle before has it. -/
def preemptor (s : State) (l : Launch) : Bool :=
  (readyOrder s l.part).any (fun x => x.lid != l.lid && decide (l.hdr.prio < effective s x) && (planOf s x).isNone)

/-- R307: of those that expire together with a pre-emptor, the one to be pre-empted. -/
def victimOf (ls : List Launch) : Option Launch :=
  ls.foldl (fun best l => match best with
    | none => some l
    | some b => if l.hdr.prio < b.hdr.prio || (l.hdr.prio = b.hdr.prio && b.seq < l.seq) then some l else some b) none

/-- R307: of the launches of a partition that expire together, the one that is pre-empted; none while another is being
pre-empted. -/
def victimAt (s : State) (part : Nat) : Option Nat :=
  if s.launches.any (fun x => x.2.part = part && x.2.preempting) then none
  else (victimOf ((expiring s part).filter (preemptor s))).map (·.lid)

/-- R307: the quantum starts again. -/
def restartQuantum (s : State) (lid : Nat) : State := s.modLaunch lid (fun l => { l with ran := 0 })

/-- QUANTUM_EXPIRY (R307, R308, R310): the launch that the end of the cycle before has found to be the one is
pre-empted; of any other the quantum starts again. -/
def execQuantumExpiry (lid : Nat) (s : State) : Host.Outcome State Fault Refusal :=
  match s.launch? lid with
  | none => .next s
  | some l =>
    if l.hdr.quantum = 0 || l.ran < l.hdr.quantum || l.preempting || l.done then .next s
    else if l.bands.all (· = .ended) then
      .next (s.modLaunch lid (fun l => { l with status := l.status ||| 2#5 }))
    else
      let gs := (s.groups.map (·.2)).filter (fun g => g.lid = lid && running s g)
      if gs.isEmpty then .next s
      else if !l.victim then .next (restartQuantum s lid)
      else
        let s := s.modLaunch lid (fun l => { l with preempting := true, ran := 0, ready := none })
        .next (holdGroups s gs)

/-! ## Saving (R309, R312, R336) -/

/-- R336: what a thread still does before its group can be saved: an access, or an operation that ends by itself. -/
def busyThread (t : Thread) : Bool :=
  t.relaxed.any (fun x => x.fault.isNone) ||
    (match t.wait with
     | .access _ | .range _ _ _ _ _ | .post _ _ | .fence _ _ _ _ | .sfu | .sfuPlace _ | .ssu _ _ | .selft _ _ _ _ => true
     | _ => false)

/-- R248: whether a thread's BREG is on its way to its object. -/
def bregSent (s : State) (c : Nat) (x : Nat × Thread) : Bool :=
  match x.2.wait with
  | .breg _ _ => !(s.core c).barWait.contains x.1
  | _ => false

/-- R336: a thread as its group's save leaves it: in its backing area, its slot reserved, HOLD set. A pending SLEEP
ends (R335); an instruction that has not issued issues again. -/
def saveThread (s : State) (c slot : Nat) : State :=
  let s := holdWaits s c slot
  let s := s.modCore c (fun k => { rcDrop k slot with fillq := k.fillq.filter (· != slot),
                                                      ctxWait := k.ctxWait.filter (· != .fill slot) })
  match s.thread? c slot with
  | none => s
  | some t =>
    let s := s.setThread c slot { t with
      away := true, hold := true
      code := if t.code = .faulted then .faulted else .stopped
      wait := match t.wait with
        | .fill _ | .entry _ | .drain | .relaxedRoom _ | .sleep _ => .idle
        | w => w }
    match t.wait with
    | .sleep d => (writeG s c slot d 0#64).modThread c slot (fun t => { t with latch := false })
    | _ => s

def saveThreads (s : State) (c : Nat) : List Nat → State
  | [] => s
  | n :: l => saveThreads (saveThread s c n) c l

/-- R336: a group's part of a record: its registered threads, and those of them whose arrivals it counts. -/
def recordPart (s : State) (g : Group) (r : BarRec) : BarRec :=
  let ts := (members s g).filter (fun x => x.2.bars.contains r.place)
  { r with r := ts.length
           a := Nat.min r.a (count (fun x : Nat × Thread => match x.2.wait with
             | .bar _ p _ => p = r.place.add 8
             | _ => false) ts) }

/-- R336: the group's barrier records. -/
def groupRecords (s : State) (g : Group) : List BarRec :=
  ((s.core g.core).bars.map (recordPart s g)).filter (fun r => r.r != 0)

/-- R336: what is left of a core's records when a group's have been saved: the other threads' parts. -/
def otherRecords (s : State) (g : Group) : List BarRec :=
  ((s.core g.core).bars.map (fun r =>
    let m := recordPart s g r
    { r with r := r.r - m.r, a := r.a - m.a })).filter (fun r => r.r != 0)

/-- R312: the answers held for words of a group's allocation. -/
def heldAnswers (s : State) (g : Group) : List Query :=
  s.queries.filter (fun q => q.gid = g.gid && q.held && q.core = g.core && decide (g.base ≤ q.off) &&
    decide (q.off < g.base + g.size))

/-- R308, R309: whether a held group can be saved. -/
def canSave (s : State) (g : Group) : Bool :=
  g.saved.isNone && !(members s g).isEmpty && (members s g).all (fun x =>
      !busyThread x.2 && !bregSent s g.core x && x.2.hold && !(s.core g.core).rot.any (fun y => y.2 = x.1)) &&
    g.ops = count (fun q : Query => q.gid = g.gid && q.held) s.queries &&
    !s.packets.any (fun x => x.2.kind = 3 && x.2.gid = g.gid)

/-- R336: a group is saved, and its claims and its allocation are released. -/
def saveGroup (s : State) (g : Group) : State :=
  let s := if (s.core g.core).lock.isSome then commitPair s g.core else s
  let slots := (members s g).map (·.1)
  let answers := heldAnswers s g
  let recs := groupRecords s g
  let k := s.core g.core
  let inside := fun (w : Nat) => decide (g.base / 8 ≤ w) && decide (w < (g.base + g.size) / 8)
  let v : Saved := { bytes := Mem.readN k.spad g.base g.size
                     full := (k.full.filter inside).map (· - g.base / 8)
                     poison := (k.poisonW.filter inside).map (· - g.base / 8)
                     bars := recs
                     held := answers.map (fun q => (q.off - g.base, q.answer.getD 0#64)) }
  let others := otherRecords s g
  let s := s.modCore g.core (fun k => { k with bars := others })
  let s := saveThreads s g.core slots
  let s := { s with queries := s.queries.filter (fun q => !answers.any (fun a => a.id = q.id)) }
  let s := s.modGroup g.gid (fun g => { g with saved := some v, ops := g.ops - answers.length })
  let s := unpair (releaseAllocation s g.core g.base g.size) g.core
  let s := s.modLaunch g.lid (fun l => { l with bands := setAt l.bands g.band .saved })
  let s := if (s.core g.core).barWait.isEmpty then s else s.post (.barrierRecordGrant g.core)
  postCtx (postFill s g.core) g.core

/-- GROUP_SAVE (R308, R309, R336). -/
def execGroupSave (gid : Nat) (s : State) : Host.Outcome State Fault Refusal :=
  match s.group? gid with
  | none => .next s
  | some g => match s.launch? g.lid with
    | none => .next s
    | some l =>
      if !l.preempting || g.saved.isSome then .next s
      else if (members s g).isEmpty then .next (preempted s g.lid)
      else if canSave s g then .next (preempted (saveGroup s g) g.lid)
      else .next s

end Sys2Proof.Machine
end

