-- ==== Sys2Proof/Machine/Cycle.lean ====
section
/-!
DEFINITION. Cycle.lean: the end of a core's cycle (R8, R25, R131, R307, R308, R340, R385).
-/
namespace Sys2Proof.Machine
open Sys2Proof

/-- R306: whether a launch has a band to place. -/
def wantsPlace (l : Launch) : Bool :=
  l.ready.isSome && !l.cancelled && !l.preempting && !l.done && l.bands.any (fun b => b = .unplaced || b = .saved)

/-- R306: the decisions that the distributors may make in a cycle. -/
def decisions (s : State) : List Event :=
  (((s.launches.filter (fun x => wantsPlace x.2)).map (fun x => Event.placementDecision x.2.part)).eraseDups).filter
    (fun e => !s.agenda.contains e)

/-- R307: a launch at the end of a cycle: its quantum counts, and one that expires with the next cycle is judged on the
present state. -/
def countQuantum (s : State) (l : Launch) : Launch :=
  if counting s l then
    { l with ran := l.ran + 1
             expired := if l.hdr.quantum ≤ l.ran + 1 then some (s.now + 1) else l.expired
             victim := decide (l.hdr.quantum ≤ l.ran + 1) && victimAt s l.part = some l.lid }
  else l

/-- R308: the groups of launches being pre-empted that can be saved now. -/
def saves (s : State) : List Event :=
  (s.groups.filter (fun x => (match s.launch? x.2.lid with
    | some l => l.preempting && canSave s x.2
    | none => false) && !s.agenda.contains (.groupSave x.1))).map (fun x => Event.groupSave x.1)

/-- R307, R394: one cycle of the shared units: quanta count, one that reaches its end expires, held groups are saved
once they can be (R308), levels are sampled, a die's copies reach the end of their term (R340), and leases are renewed
or expire (R351). -/
def launchTick (s : State) : State :=
  let s := { s with
    now := s.now + 1
    launches := s.launches.map (fun x => (x.1, countQuantum s x.2)) }
  postAll s ((s.launches.filter (fun x => counting s x.2 && decide (x.2.hdr.quantum ≤ x.2.ran))).map
    (fun x => Event.quantumExpiry x.1) ++ saves s ++ decisions s ++ levelSamples s ++
    renewals s (fun a => !isL1 a) ++ expiries s ++
    s.rdc.flatMap (fun d => (d.2.filter (fun x => match x.2.term with
      | some e => decide (e ≤ s.now)
      | none => false)).map (fun x => Event.copyTermExpiry (0xC00 + d.1) x.1)))

/-- The core after a core, in ascending order, round. -/
def nextCore (ks : List Nat) (c : Nat) : Nat :=
  match ks.find? (fun k => c < k) with
  | some k => k
  | none => ks.headD c

/-- The end of a core's cycle (R8, R25): the counter advances, sleeping periods count (R131), copies whose
term has ended (R340), stream instructions that are done (R185) and a pair's commits that are due (R385) are seen to, and another core has its turn. The
shared units' counters follow the core that is furthest. -/
def tick (s : State) (c : Nat) : State :=
  let s := s.modCore c (fun k => { k with
    cyc := k.cyc + 1, threads := k.threads.map (fun x => (x.1, sleepTick x.2)) })
  let k := s.core c
  let s := postAll s (((k.threads.filter (fun x => limitReached x.2)).map (fun x => Event.wlimExpiry c x.1)) ++
    ((k.l1.filter (fun x => match x.2.term with | some e => decide (e ≤ k.cyc) | none => false)).map
      (fun x => Event.copyTermExpiry c x.1)) ++
    renewals s (fun a => a = c) ++
    ((k.threads.filter (fun x => match x.2.wait with | .ssu e _ => decide (e ≤ k.cyc) | _ => false)).map
      (fun x => Event.ssuComplete c x.1)) ++
    (k.threads.filterMap (fun x => match x.2.wait with
      | .selft _ mask _ e => if e ≤ k.cyc then
          let r := Config.selfTest s.free
          some (Event.selftComplete c x.1 (r.1 &&& mask) r.2.1 r.2.2.1 r.2.2.2)
        else none
      | _ => none)) ++
    (if commitDue s c then [Event.checkpointCommit c] else []))
  let s := if s.now < k.cyc then launchTick s else s
  { s with turn := nextCore (Map.keys s.cores) c }

end Sys2Proof.Machine
end

