-- ==== Sys2Proof/Machine/Barriers.lean ====
section
/-!
DEFINITION. Barriers.lean: barrier objects and a core's records of them (R197, R247 to R250), and CHKPT and the
commits of a lock-step pair (R198, R385).
-/
namespace Sys2Proof.Machine
open Sys2Proof

/-! ## The object (R247, R249) -/

/-- A word of a barrier object, or of any place. -/
def placeWordAt (s : State) (p : Place) (w : Nat) : Word := leWord (readPlace s 0 (p.add (8 * w)) 8).1

/-- R249: the phase after a phase; all ones is skipped. -/
def nextPhase (p : Word) : Word := if p + 1#64 = BitVec.allOnes 64 then 0#64 else p + 1#64

/-- R249: what reached an object in one cycle takes effect in one act: `j` JOINs and `d` DROPs, then `n` ARRIVEs with
the OR of their statuses; and then the phase completes if arrived has reached expected. -/
def barActs (s : State) (p : Place) (j d n : Nat) (status : Word) : State :=
  let w0 := (placeWordAt s p 0).toNat
  let expected := (bitsOf w0 0 32 + j + (2 ^ 32 - d % 2 ^ 32)) % 2 ^ 32
  let arrived := (bitsOf w0 32 32 + n) % 2 ^ 32
  let done := decide (expected ≤ arrived)
  let word0 : Word := BitVec.ofNat 64 (expected + 2 ^ 32 * (if done then 0 else arrived))
  let s := if n != 0 && status != 0#64 then
      writePlace s 0 (p.add 16) (wordBytes (placeWordAt s p 2 ||| status)) false
    else s
  let s := writePlace s 0 p (wordBytes word0) false
  if done then writePlace s 0 (p.add 8) (wordBytes (nextPhase (placeWordAt s p 1))) false else s

/-- R249: the act of one message: 0 JOIN, 1 DROP, 2 ARRIVE with a status. -/
def barAct (s : State) (kind : Nat) (p : Place) (status : Word) : State :=
  barActs s p (if kind = 0 then 1 else 0) (if kind = 1 then 1 else 0) (if kind = 2 then 1 else 0) status

/-- The thread of a BREG receives the phase at which it is registered. -/
def bregDone (s : State) (r : TRef) (phase : Word) : State :=
  match s.thread? r.core r.slot with
  | none => s
  | some t =>
    match t.wait with
    | .breg d _ => finishWait (writeG s r.core r.slot d phase) r.core r.slot
    | _ => s

/-- R375: a barrier object whose words a BREG reads is poisoned. -/
def barPoison (s : State) (p : Place) : Bool := (readPlace s 0 p 16).2

/-- R249: whether a message reaches its object in the same cycle as one that is being taken. -/
def together (s : State) (m x : BarMsg) : Bool :=
  x.id = m.id || (x.place = m.place && Config.sameCycle s.free x.id)

/-- The act of some messages to one object. -/
def barBatch (s : State) (p : Place) (ms : List BarMsg) : State :=
  barActs s p (count (fun m => m.kind = 0) ms) (count (fun m => m.kind = 1) ms) (count (fun m => m.kind = 2) ms)
    ((ms.filter (fun m => m.kind = 2)).foldl (fun w m => w ||| m.status) 0#64)

/-- R158: the arrival that completes a command has been performed. -/
def cmdArrived (s : State) (m : BarMsg) : State :=
  match m.cmd with
  | some id => (modCmd s id (fun c => { c with unacked := c.unacked.filter (· != m.id) })).post (.engineComplete id)
  | none => s

/-- The threads of the JOINs of an act receive its phase, and the commands that arrived go on. -/
def barDone (s : State) (phase : Word) : List BarMsg → State
  | [] => s
  | m :: ms => barDone (match m.thread with
      | some r => bregDone s r phase
      | none => cmdArrived s m) phase ms

/-- A message to a barrier object is taken, with all that reached the object in its cycle; the thread of a JOIN receives
the phase of the same act. -/
def barMsg (s : State) (m : BarMsg) : State :=
  let ms := s.barMsgs.filter (together s m)
  let s := postWaiting { s with barMsgs := s.barMsgs.filter (fun x => !together s m x), free := s.free + 1 }
  barDone (barBatch s m.place ms) (placeWordAt s m.place 1) ms

/-- R249, R346: the message of an event is taken when it has its turn at the home of its object. -/
def barTurn (s : State) (e : Event) (id : Nat) : State :=
  match s.barMsgs.find? (fun m => m.id = id) with
  | none => settleAct s e
  | some m => settleAct (atPlace s e m.place true false (fun s => barMsg s m)) e

/-- BARRIER_JOIN (R249). -/
def execBarrierJoin (id : Nat) (s : State) : Host.Outcome State Fault Refusal := .next (barTurn s (.barrierJoin id) id)

/-- BARRIER_DROP (R249, R250). -/
def execBarrierDrop (id : Nat) (s : State) : Host.Outcome State Fault Refusal := .next (barTurn s (.barrierDrop id) id)

/-- BARRIER_ARRIVE (R249). -/
def execBarrierArrive (id : Nat) (s : State) : Host.Outcome State Fault Refusal :=
  .next (barTurn s (.barrierArrive id) id)

/-! ## The core's records (R248) -/

/-- R248: a registration recorded: a new record with a JOIN on its way, or one more in the record, the phase read
from the object. -/
def registerBar (s : State) (c slot : Nat) (p : Place) : State :=
  let s := s.modThread c slot (fun t => { t with bars := t.bars ++ [p] })
  match (s.core c).bars.find? (fun r => r.place = p) with
  | some _ =>
    bregDone (s.modCore c (fun k => { k with
      bars := k.bars.map (fun r => if r.place = p then { r with r := r.r + 1 } else r) }))
      ⟨c, slot⟩ (placeWordAt s p 1)
  | none =>
    sendBar (s.modCore c (fun k => { k with bars := { place := p, r := 1, a := 0 } :: k.bars })) 0 p 0#64
      (some ⟨c, slot⟩)

/-- R248: whether the core has a record for a barrier, or room for one. -/
def barRoom (k : Core) (p : Place) : Bool := k.bars.any (fun r => r.place = p) || decide (k.bars.length < 64)

/-- R248: a BREG that waits and can be recorded now, or that no longer waits. -/
def barReady (s : State) (c slot : Nat) : Bool :=
  match waitOf s ⟨c, slot⟩ with
  | some (.breg _ p) => barRoom (s.core c) p
  | _ => true

/-- BARRIER_RECORD_GRANT (R248): the first BREG that waits for nothing but its record's update is recorded. One that
needs a record waits while there is no room for it; no other waits behind it. -/
def execBarrierRecordGrant (core : Nat) (s : State) : Host.Outcome State Fault Refusal :=
  let k := s.core core
  match k.barWait.find? (barReady s core) with
  | none => .next s
  | some slot =>
    let rest := k.barWait.erase slot
    let next := fun (s : State) => if rest.isEmpty then s else s.post (.barrierRecordGrant core)
    let s' := s.setCore core { k with barWait := rest }
    match waitOf s ⟨core, slot⟩ with
    | some (.breg _ p) =>
      if barPoison s' p then .next (next (takeFault s' core slot (mkFault fcPoison 0#64 0#64)))
      else .next (next (registerBar s' core slot p))
    | _ => .next (next s')

/-- R248: an arrival of one of the core's registered threads. -/
def arriveBar (s : State) (c : Nat) (p : Place) : State :=
  match (s.core c).bars.find? (fun r => r.place = p) with
  | none => s
  | some r =>
    let all := r.a + 1 = r.r
    let s := s.modCore c (fun k => { k with
      bars := k.bars.map (fun x => if x.place = p then { x with a := if all then 0 else r.a + 1 } else x) })
    if all then sendBar s 2 p 0#64 none else s

/-! ## The instructions (R197) -/

/-- The checks of a barrier instruction's object, and then its effect at the place. -/
def opBar (i : Instr) (g : BitVec 3) (d a : BitVec 7)
    (body : Nat → Nat → Thread → Place → State → State) : State → Host.Outcome State Fault Refusal :=
  issue i { guard := g, g := [d.toNat, a.toNat], reads := [a.toNat], writes := [d.toNat], drain := true }
    (fun c slot t s =>
      match cellPlace s c t (t.gv a.toNat) 32 true with
      | (s, .error f) => takeFault s c slot f
      | (s, .ok p) => body c slot t p s)

/-- BREG's own effect: all ones when it does nothing, else the thread waits for its record. -/
def doBreg (d : Nat) (c slot : Nat) (t : Thread) (p : Place) (s : State) : State :=
  if 4 ≤ t.bars.length || t.bars.contains p then writeG s c slot d (BitVec.allOnes 64)
  else
    ((beginWait s c slot .waiting (.breg d p)).modCore c (fun k => { k with barWait := k.barWait ++ [slot] })).post
      (.barrierRecordGrant c)

/-- BREG (R197, R248). -/
def execBreg (g : BitVec 3) (d a : BitVec 7) : State → Host.Outcome State Fault Refusal :=
  opBar (.breg g d a) g d a (doBreg d.toNat)

/-- BAR's own effect: the phase is read, the thread arrives and sleeps until the phase differs. -/
def doBar (d : Nat) (va : Word) (c slot : Nat) (t : Thread) (p : Place) (s : State) : State :=
  if !t.bars.contains p then writeG s c slot d (BitVec.allOnes 64)
  else if (readPlace s c (p.add 8) 8).2 then takeFault s c slot (mkFault fcPoison va 0#64)
  else
    let s' := beginWait s c slot .sleeping (.bar d (p.add 8) (placeWordAt s p 1))
    arriveBar { s' with watches := s'.watches ++ [{ place := lineOf p, thread := ⟨c, slot⟩, kind := .bar }] } c p

/-- BAR (R197). -/
def execBar (g : BitVec 3) (d a : BitVec 7) : State → Host.Outcome State Fault Refusal :=
  opBar (.bar g d a) g d a (fun c slot t p s => doBar d.toNat (t.gv a.toNat) c slot t p s)

/-- BARD's own effect: the phase is read, and the thread arrives and drops its registration. -/
def doBard (d : Nat) (va : Word) (c slot : Nat) (t : Thread) (p : Place) (s : State) : State :=
  if !t.bars.contains p then writeG s c slot d (BitVec.allOnes 64)
  else if (readPlace s c (p.add 8) 8).2 then takeFault s c slot (mkFault fcPoison va 0#64)
  else
    let phase := placeWordAt s p 1
    let s := s.modThread c slot (fun t => { t with bars := t.bars.filter (· != p) })
    dropReg (writeG s c slot d phase) c p

/-- BARD (R197). -/
def execBard (g : BitVec 3) (d a : BitVec 7) : State → Host.Outcome State Fault Refusal :=
  opBar (.bard g d a) g d a (fun c slot t p s => doBard d.toNat (t.gv a.toNat) c slot t p s)

/-! ## Checkpoints (R198, R385) -/

/-- CKPT [63:32] of a core (R24). -/
def ckptCount (s : State) (c : Nat) : Word :=
  match (s.core c).lock with
  | some L => BitVec.ofNat 64 L.count
  | none => 0#64

/-- CHKPT (R198): nothing on a core that is not paired; else the thread waits for the commit. -/
def execChkpt (g : BitVec 3) (d : BitVec 7) : State → Host.Outcome State Fault Refusal :=
  issue (.chkpt g d) { guard := g, g := [d.toNat], writes := [d.toNat], drain := true }
    (fun c slot _ s =>
      if (s.core c).lock.isNone then writeG s c slot d.toNat 0#64
      else (beginWait s c slot .waiting (.chkpt d.toNat)).post (.checkpointCommit c))

/-- The threads of a core that wait in CHKPT receive the count. -/
def chkptDone (s : State) (c : Nat) : List Nat → State
  | [] => s
  | slot :: l =>
    match waitOf s ⟨c, slot⟩ with
    | some (.chkpt d) => chkptDone (finishWait (writeG s c slot d (ckptCount s c)) c slot) c l
    | _ => chkptDone s c l

/-- CHECKPOINT_COMMIT (R385): the pair of a core commits. -/
def execCheckpointCommit (core : Nat) (s : State) : Host.Outcome State Fault Refusal :=
  if (s.core core).lock.isNone then .next s
  else
    let s := commitPair s core
    .next (chkptDone s core (Map.keys (s.core core).threads))

end Sys2Proof.Machine
end

