-- ==== Sys2Proof/Machine/MemAccess.lean ====
section
/-!
DEFINITION. MemAccess.lean: the loads, stores, full/empty instructions and atomics (R109 to R124), FENCE
(R125), watches and sleeping (R126 to R131), and the issue of the range operations (R132, R135).
-/
namespace Sys2Proof.Machine
open Sys2Proof

/-! ## Loads and stores (R109 to R113) -/

/-- R107: the kind of a load or a store of a size. -/
def loadKind (size : Nat) : AKind := if size = 8 then .ldd else .ld
def storeKind (size : Nat) : AKind := if size = 8 then .std else .st

/-- R111: whether the relaxed bit has an effect on an address. -/
def relaxable (va : Word) : Bool :=
  match classOf va with
  | .own _ | .cw _ _ | .dev _ => false
  | _ => true

/-- R111: relaxed accesses of one kind outstanding. MODEL'S CHOICE (log entry 80): one that has faulted, and whose fault
is still to be reported, no longer counts against the limits. -/
def relaxedCount (t : Thread) (load : Bool) : Nat :=
  count (fun x : Relaxed => x.load = load && x.fault.isNone) t.relaxed

/-- R111: a relaxed access of a thread that stays in the rotation; beyond the limit it waits, not issued. A
fault found here is deferred (R113). -/
def startRelaxed (s : State) (c slot : Nat) (t : Thread) (us : List MUnit) (align : Nat) (k : AKind)
    (load : Bool) (dstG dstV : Option Nat) (fin : Finish) : State :=
  if (if load then 4 else 16) ≤ relaxedCount t load then
    beginWait (s.modThread c slot (fun u => { u with pc := t.ipc, stepping := t.stepping })) c slot .waiting
      (.relaxedRoom load)
  else
    let acc := fun (us : List MUnit) =>
      ({ units := us, fin := fin, checked := false, issued := (s.core c).cyc, load := load, auto := false,
         sup := false } : Access)
    let id := s.fresh
    let add := fun (x : Relaxed) =>
      (s.modThread c slot (fun t => { t with relaxed := t.relaxed ++ [x] })).bump
    match classify s c t.part align k us with
    | (_, some f) =>
      add { id := id, load := load, dstG := dstG, dstV := dstV, word := t.iword, acc := acc us,
            fault := some { f with word := t.iword } }
    | (us, none) =>
      let s := add { id := id, load := load, dstG := dstG, dstV := dstV, word := t.iword, acc := acc us }
      let s := match dstG with
        | some d => rcPut s c slot d .pending
        | none => s
      pump s ⟨c, slot⟩ (some id)

/-- R65: the address of an M-format access. -/
def eaM (t : Thread) (a : BitVec 7) (off : BitVec 8) (size : Nat) : Word := t.gv a.toNat + offM off size

/-- R20, R111: the register for which a load is to get an entry of the register cache: that of a relaxed load which is
within the limit. -/
def loadEntry (d : BitVec 7) (r : BitVec 1) (ea : Thread → Word) (t : Thread) : Option Nat :=
  if r = 1#1 && relaxable (ea t) && d != 0#7 && decide (relaxedCount t true < 4) then some d.toNat else none

/-- An M-format load (R109, R111). -/
def opLoad (i : Instr) (g : BitVec 3) (d a : BitVec 7) (off : BitVec 8) (r : BitVec 1) (size : Nat)
    (signed : Bool) : State → Host.Outcome State Fault Refusal :=
  issue i { guard := g, g := [d.toNat, a.toNat], reads := [a.toNat], writes := [d.toNat]
            alloc := loadEntry d r (fun t => eaM t a off size) }
    (fun c slot t s =>
      let us := [piece (eaM t a off size) size .load]
      if r = 1#1 && relaxable (eaM t a off size) then
        startRelaxed s c slot t us size (loadKind size) true (if d = 0#7 then none else some d.toNat) none
          (.g d.toNat signed)
      else startAccess s c slot t us size (loadKind size) (.g d.toNat signed) true false)

/-- An M-format store (R109, R111). -/
def opStore (i : Instr) (g : BitVec 3) (d a : BitVec 7) (off : BitVec 8) (r : BitVec 1) (size : Nat) :
    State → Host.Outcome State Fault Refusal :=
  issue i { guard := g, g := [d.toNat, a.toNat], reads := [d.toNat, a.toNat] }
    (fun c slot t s =>
      let us := [piece (eaM t a off size) size (.store (leBytes (t.gv d.toNat).toNat size))]
      if r = 1#1 && relaxable (eaM t a off size) then
        startRelaxed s c slot t us size (storeKind size) false none none .none
      else startAccess s c slot t us size (storeKind size) .none false false)

/-- LDBN (R109). -/
def execLdbn (g : BitVec 3) (d a : BitVec 7) (off8 : BitVec 8) (r : BitVec 1) :
    State → Host.Outcome State Fault Refusal := opLoad (.ldbn g d a off8 r) g d a off8 r 1 false

/-- LDHN (R109). -/
def execLdhn (g : BitVec 3) (d a : BitVec 7) (off8 : BitVec 8) (r : BitVec 1) :
    State → Host.Outcome State Fault Refusal := opLoad (.ldhn g d a off8 r) g d a off8 r 2 false

/-- LDWN (R109). -/
def execLdwn (g : BitVec 3) (d a : BitVec 7) (off8 : BitVec 8) (r : BitVec 1) :
    State → Host.Outcome State Fault Refusal := opLoad (.ldwn g d a off8 r) g d a off8 r 4 false

/-- LDD (R109). -/
def execLdd (g : BitVec 3) (d a : BitVec 7) (off8 : BitVec 8) (r : BitVec 1) :
    State → Host.Outcome State Fault Refusal := opLoad (.ldd g d a off8 r) g d a off8 r 8 false

/-- LDBS (R109). -/
def execLdbs (g : BitVec 3) (d a : BitVec 7) (off8 : BitVec 8) (r : BitVec 1) :
    State → Host.Outcome State Fault Refusal := opLoad (.ldbs g d a off8 r) g d a off8 r 1 true

/-- LDHS (R109). -/
def execLdhs (g : BitVec 3) (d a : BitVec 7) (off8 : BitVec 8) (r : BitVec 1) :
    State → Host.Outcome State Fault Refusal := opLoad (.ldhs g d a off8 r) g d a off8 r 2 true

/-- LDWS (R109). -/
def execLdws (g : BitVec 3) (d a : BitVec 7) (off8 : BitVec 8) (r : BitVec 1) :
    State → Host.Outcome State Fault Refusal := opLoad (.ldws g d a off8 r) g d a off8 r 4 true

/-- STB (R109). -/
def execStb (g : BitVec 3) (d a : BitVec 7) (off8 : BitVec 8) (r : BitVec 1) :
    State → Host.Outcome State Fault Refusal := opStore (.stb g d a off8 r) g d a off8 r 1

/-- STH (R109). -/
def execSth (g : BitVec 3) (d a : BitVec 7) (off8 : BitVec 8) (r : BitVec 1) :
    State → Host.Outcome State Fault Refusal := opStore (.sth g d a off8 r) g d a off8 r 2

/-- STW (R109). -/
def execStw (g : BitVec 3) (d a : BitVec 7) (off8 : BitVec 8) (r : BitVec 1) :
    State → Host.Outcome State Fault Refusal := opStore (.stw g d a off8 r) g d a off8 r 4

/-- STD (R109). -/
def execStd (g : BitVec 3) (d a : BitVec 7) (off8 : BitVec 8) (r : BitVec 1) :
    State → Host.Outcome State Fault Refusal := opStore (.std g d a off8 r) g d a off8 r 8

/-- R110: the registers of the pair that a field names, low and high. -/
def pairLo (d : BitVec 7) : Nat := d.toNat / 2 * 2
def pairHi (d : BitVec 7) : Nat := d.toNat / 2 * 2 + 1

/-- R110: the 16 bytes of a register pair. -/
def pairBytes (t : Thread) (d : BitVec 7) : List Byte :=
  wordBytes (t.gv (pairLo d)) ++ wordBytes (t.gv (pairHi d))

/-- Whether an address is no own-scratchpad address: R236 has a pair commit first. -/
def offCore (va : Word) : Bool :=
  match classOf va with
  | .own _ => false
  | _ => true

/-- LDQ (R110). -/
def execLdq (g : BitVec 3) (d a : BitVec 7) : State → Host.Outcome State Fault Refusal :=
  issue (.ldq g d a) { guard := g, g := [d.toNat, a.toNat], reads := [a.toNat],
                       writes := [pairLo d, pairHi d], drain := true,
                       commit := fun t => offCore (t.gv a.toNat) }
    (fun c slot t s =>
      startAccess s c slot t [piece (t.gv a.toNat) 16 .load] 16 .ldq (.pair d.toNat) true false)

/-- STQ (R110). -/
def execStq (g : BitVec 3) (d a : BitVec 7) : State → Host.Outcome State Fault Refusal :=
  issue (.stq g d a) { guard := g, g := [d.toNat, a.toNat], reads := [pairLo d, pairHi d, a.toNat],
                       drain := true }
    (fun c slot t s =>
      startAccess s c slot t [piece (t.gv a.toNat) 16 (.store (pairBytes t d))] 16 .st .none false false)

/-! ## Full/empty words (R115, R116) -/

/-- R126, R116: a wait that needs an entry of a watch store is registered, or waits for an entry. The Bool
tells which; the state has the registration. -/
def register (s : State) (r : TRef) (p : Place) (w : Watch) : State × Bool :=
  if storeRoom s r.core p then (addWatch s w, true)
  else ({ s with entryWait := s.entryWait ++ [(r, p)] }, false)

/-- R115: the act of a waiting LDFE (`load`) or STFE at its word: none when it must wait. -/
def feAct (s : State) (r : TRef) (load : Bool) (d : Nat) (va : Word) (q off : Nat) (data : Word) :
    Except FaultInfo (Option State) :=
  let s := feFirst s q off 8
  let k := s.core q
  let own := q = r.core
  if k.fenced && !own then .error (mkFault fcPoison va 0#64)
  else if load != fullBit k off then .ok none
  else if load then
    if spadPoison k off 8 then .error (mkFault fcPoison va 0#64)
    else .ok (some (changeFull (writeG s r.core r.slot d (leWord (Mem.readN k.spad off 8))) q off false))
  else
    let s := if own then s.modCore q (fun k => logUndo k off 8) else s
    .ok (some (changeFull (writePlace s q (.spad q off) (wordBytes data) false) q off true))

/-- R116: the thread's state while it waits on a word: asleep once registered. -/
def feWait (s : State) (c slot : Nat) (load : Bool) (d : Nat) (va : Word) (p : Place) (data : Word) : State :=
  match register s ⟨c, slot⟩ p { place := p, thread := ⟨c, slot⟩, kind := .fe } with
  | (s, true) => beginWait s c slot .sleeping (.fe load d va p data true)
  | (s, false) => beginWait s c slot .waiting (.fe load d va p data false)

/-- A waiting LDFE or STFE as it issues (R115). -/
def startFe (s : State) (c slot : Nat) (t : Thread) (load : Bool) (d : Nat) (va data : Word) : State :=
  if va.toNat % 8 != 0 then takeFault s c slot (mkFault fcMisalign va 8#64)
  else match checkClass s c t.part va .fe with
    | .error f => takeFault s c slot f
    | .ok (some (.spad q off)) =>
      if offCore va then
        let s := beginWait s c slot .waiting (.fe load d va (.spad q off) data false)
        (s.modCore q (fun k => { k with guests := k.guests ++ [(⟨c, slot⟩, none)] })).post (.guestAccess q)
      else match feAct s ⟨c, slot⟩ load d va q off data with
        | .error f => takeFault s c slot f
        | .ok (some s') => s'
        | .ok none => feWait (feFirst s q off 8) c slot load d va (.spad q off) data
    | .ok _ => takeFault s c slot (prot va 3)

/-- LDFE (R115). -/
def execLdfe (g : BitVec 3) (d a b : BitVec 7) : State → Host.Outcome State Fault Refusal :=
  issue (.ldfe g d a b) { guard := g, g := [d.toNat, a.toNat, b.toNat], reads := [a.toNat],
                          writes := [d.toNat, b.toNat], drain := true,
                          commit := fun t => offCore (t.gv a.toNat) }
    (fun c slot t s =>
      if b = 0#7 then startFe s c slot t true d.toNat (t.gv a.toNat) 0#64
      else startAccess s c slot t [piece (t.gv a.toNat) 8 .ldfe] 8 .fe (.feLoad d.toNat b.toNat) false false)

/-- STFE (R115). -/
def execStfe (g : BitVec 3) (d a b : BitVec 7) : State → Host.Outcome State Fault Refusal :=
  issue (.stfe g d a b) { guard := g, g := [d.toNat, a.toNat, b.toNat], reads := [d.toNat, a.toNat],
                          writes := [b.toNat], drain := true,
                          commit := fun t => offCore (t.gv a.toNat) }
    (fun c slot t s =>
      if b = 0#7 then startFe s c slot t false 0 (t.gv a.toNat) (t.gv d.toNat)
      else startAccess s c slot t [piece (t.gv a.toNat) 8 (.stfe (t.gv d.toNat))] 8 .fe (.status b.toNat)
        false false)

/-! ## Atomics (R118 to R124) -/

/-- An atomic of R118. `sup` when PCIe has it (R123). -/
def opAmo (i : Instr) (g : BitVec 3) (d a b : BitVec 7) (op : AmoOp) (sup : Bool) :
    State → Host.Outcome State Fault Refusal :=
  issue i { guard := g, g := [d.toNat, a.toNat, b.toNat], reads := [a.toNat, b.toNat], writes := [d.toNat],
            drain := true, commit := fun t => offCore (t.gv a.toNat) }
    (fun c slot t s =>
      startAccess s c slot t [piece (t.gv a.toNat) 8 (.amo op (t.gv b.toNat))] 8 (.amo sup)
        (.g d.toNat false) false sup)

/-- AADD (R118). -/
def execAadd (g : BitVec 3) (d a b : BitVec 7) : State → Host.Outcome State Fault Refusal :=
  opAmo (.aadd g d a b) g d a b .add true

/-- AAND (R118). -/
def execAand (g : BitVec 3) (d a b : BitVec 7) : State → Host.Outcome State Fault Refusal :=
  opAmo (.aand g d a b) g d a b .and false

/-- AOR (R118). -/
def execAor (g : BitVec 3) (d a b : BitVec 7) : State → Host.Outcome State Fault Refusal :=
  opAmo (.aor g d a b) g d a b .or false

/-- AXOR (R118). -/
def execAxor (g : BitVec 3) (d a b : BitVec 7) : State → Host.Outcome State Fault Refusal :=
  opAmo (.axor g d a b) g d a b .xor false

/-- AMINS (R118). -/
def execAmins (g : BitVec 3) (d a b : BitVec 7) : State → Host.Outcome State Fault Refusal :=
  opAmo (.amins g d a b) g d a b .mins false

/-- AMAXS (R118). -/
def execAmaxs (g : BitVec 3) (d a b : BitVec 7) : State → Host.Outcome State Fault Refusal :=
  opAmo (.amaxs g d a b) g d a b .maxs false

/-- AMINU (R118). -/
def execAminu (g : BitVec 3) (d a b : BitVec 7) : State → Host.Outcome State Fault Refusal :=
  opAmo (.aminu g d a b) g d a b .minu false

/-- AMAXU (R118). -/
def execAmaxu (g : BitVec 3) (d a b : BitVec 7) : State → Host.Outcome State Fault Refusal :=
  opAmo (.amaxu g d a b) g d a b .maxu false

/-- ASWAP (R118). -/
def execAswap (g : BitVec 3) (d a b : BitVec 7) : State → Host.Outcome State Fault Refusal :=
  opAmo (.aswap g d a b) g d a b .swap true

/-- AFADD (R120). -/
def execAfadd (g : BitVec 3) (d a b : BitVec 7) : State → Host.Outcome State Fault Refusal :=
  opAmo (.afadd g d a b) g d a b .fadd false

/-- ACAS (R119). -/
def execAcas (g : BitVec 3) (d a b : BitVec 7) : State → Host.Outcome State Fault Refusal :=
  issue (.acas g d a b) { guard := g, g := [d.toNat, a.toNat, b.toNat],
                          reads := [d.toNat, a.toNat, b.toNat], writes := [d.toNat], drain := true,
                          commit := fun t => offCore (t.gv a.toNat) }
    (fun c slot t s =>
      startAccess s c slot t
        [piece (t.gv a.toNat) 8 (.cas (wordBytes (t.gv d.toNat)) (wordBytes (t.gv b.toNat)))] 8 (.amo true)
        (.g d.toNat false) false true)

/-- ACASQ (R119). -/
def execAcasq (g : BitVec 3) (d a b : BitVec 7) : State → Host.Outcome State Fault Refusal :=
  issue (.acasq g d a b) { guard := g, g := [d.toNat, a.toNat, b.toNat],
                           reads := [pairLo d, pairHi d, a.toNat, pairLo b, pairHi b],
                           writes := [pairLo d, pairHi d], drain := true,
                           commit := fun t => offCore (t.gv a.toNat) }
    (fun c slot t s =>
      startAccess s c slot t [piece (t.gv a.toNat) 16 (.cas (pairBytes t d) (pairBytes t b))] 16 (.amo true)
        (.pair d.toNat) false true)

/-! ## FENCE (R125) -/

/-- FENCE (R125). REL waits as the drain of R188 does. -/
def execFence (g : BitVec 3) (cw eng rel : BitVec 1) (scope : BitVec 3) :
    State → Host.Outcome State Fault Refusal :=
  issue (.fence g cw eng rel scope) { guard := g, drain := rel = 1#1, commit := fun _ => decide (3 ≤ scope.toNat) }
    (fun c slot _ s =>
      if fenceHolds s ⟨c, slot⟩ (cw = 1#1) (eng = 1#1) scope.toNat then s
      else beginWait s c slot .waiting (.fence (cw = 1#1) (eng = 1#1) (rel = 1#1) scope.toNat))

/-! ## Watches and sleeping (R126 to R130) -/

/-- WATCH (R126). -/
def execWatch (g : BitVec 3) (d a : BitVec 7) : State → Host.Outcome State Fault Refusal :=
  issue (.watch g d a) { guard := g, g := [d.toNat, a.toNat], reads := [a.toNat], writes := [d.toNat] }
    (fun c slot t s =>
      startAccess s c slot t [piece (t.gv a.toNat) 1 .watch] 1 .watch (.status d.toNat) false false)

/-- R127: whether every watch of a thread is in its own core's table. -/
def watchesHere (s : State) (r : TRef) : Bool :=
  s.watches.all (fun w => w.thread != r || w.kind != .watch ||
    (match w.place with | .spad q _ => q = r.core | _ => false))

/-- UNWATCH (R127); with g0 every watch of the thread, waiting unless all of them are its own core's. -/
def execUnwatch (g : BitVec 3) (d a : BitVec 7) : State → Host.Outcome State Fault Refusal :=
  issue (.unwatch g d a) { guard := g, g := [d.toNat, a.toNat], reads := [a.toNat], writes := [d.toNat] }
    (fun c slot t s =>
      if a = 0#7 then
        if watchesHere s ⟨c, slot⟩ then
          let x := disarmEvery s ⟨c, slot⟩
          writeG x.1 c slot d.toNat (BitVec.ofNat 64 x.2)
        else
          let u := { piece 0#64 1 .unwatchAll with place := some (.dev 0) }
          let acc : Access := { units := [u], fin := .status d.toNat, checked := true,
                                issued := (s.core c).cyc, load := false, auto := false, sup := false }
          pump (beginWait s c slot .waiting (.access acc)) ⟨c, slot⟩ none
      else
        startAccess s c slot t [piece (t.gv a.toNat) 1 .unwatch] 1 .watch (.status d.toNat) false false)

/-- SLEEP (R129). -/
def execSleep (g : BitVec 3) (d : BitVec 7) : State → Host.Outcome State Fault Refusal :=
  issue (.sleep g d) { guard := g, g := [d.toNat], writes := [d.toNat] }
    (fun c slot t s =>
      if t.latch then writeG (s.modThread c slot (fun t => { t with latch := false })) c slot d.toNat 0#64
      else if !s.watches.any (fun w => w.thread = ⟨c, slot⟩ && w.kind = .watch) then
        writeG s c slot d.toNat 2#64
      else beginWait s c slot .sleeping (.sleep d.toNat))

/-- R130: the temporary watch of a WAITGE. -/
def geWatch (r : TRef) (p : Place) : Watch := { place := lineOf p, thread := r, kind := .waitge }

/-- R130: a WAITGE whose read fell short sleeps under its temporary watch, or waits for an entry. -/
def geWait (s : State) (c slot : Nat) (d : Nat) (va : Word) (p : Place) (bound v : Word) : State :=
  match register s ⟨c, slot⟩ p (geWatch ⟨c, slot⟩ p) with
  | (s, true) => beginWait s c slot .sleeping (.waitge d va p bound v true)
  | (s, false) => beginWait s c slot .waiting (.waitge d va p bound v false)

/-- WAITGE (R130). On the own scratchpad its first read is made in the turn. -/
def execWaitge (g : BitVec 3) (d a b : BitVec 7) : State → Host.Outcome State Fault Refusal :=
  issue (.waitge g d a b) { guard := g, g := [d.toNat, a.toNat, b.toNat], reads := [a.toNat, b.toNat],
                            writes := [d.toNat] }
    (fun c slot t s =>
      let va := t.gv a.toNat
      let bound := t.gv b.toNat
      let u := piece va 8 (.waitge bound)
      let here := !offCore va && va.toNat % 8 = 0 &&
        !mustWait s ⟨c, slot⟩ t none u (.spad c va.toNat)
      match (if here then some (checkClass s c t.part va .wait) else none) with
      | some (.error f) => takeFault s c slot f
      | some (.ok _) =>
        let p : Place := .spad c va.toNat
        let s := feFirst s c va.toNat 8
        let v := readPlace s c p 8
        if v.2 then takeFault s c slot (mkFault fcPoison va 0#64)
        else if bound.toNat ≤ (leWord v.1).toNat then writeG s c slot d.toNat (leWord v.1)
        else geWait s c slot d.toNat va p bound (leWord v.1)
      | none =>
        match classify s c t.part 8 .wait [u] with
        | (_, some f) => takeFault s c slot f
        | (us, none) =>
          let acc : Access := { units := us, fin := .g d.toNat false, checked := false,
                                issued := (s.core c).cyc, load := false, auto := false, sup := false }
          pump (beginWait s c slot .waiting (.access acc)) ⟨c, slot⟩ none)

/-! ## Range operations (R132, R135) -/

/-- R132: a range operation leaves the rotation; it is performed by ACCESS_COMPLETE. -/
def opRange (i : Instr) (g : BitVec 3) (d a b : BitVec 7) (op : Nat) :
    State → Host.Outcome State Fault Refusal :=
  issue i { guard := g, g := [d.toNat, a.toNat, b.toNat], reads := [a.toNat, b.toNat], writes := [d.toNat],
            commit := fun _ => true }
    (fun c slot t s =>
      (beginWait s c slot .waiting (.range op d.toNat (t.gv a.toNat) (t.gv b.toNat) none)).post
        (.accessComplete c slot))

/-- WBR (R132). -/
def execWbr (g : BitVec 3) (d a b : BitVec 7) : State → Host.Outcome State Fault Refusal :=
  opRange (.wbr g d a b) g d a b 0

/-- INVR (R132). -/
def execInvr (g : BitVec 3) (d a b : BitVec 7) : State → Host.Outcome State Fault Refusal :=
  opRange (.invr g d a b) g d a b 1

/-- WBINVR (R132). -/
def execWbinvr (g : BitVec 3) (d a b : BitVec 7) : State → Host.Outcome State Fault Refusal :=
  opRange (.wbinvr g d a b) g d a b 2

/-- R135: one line fetched by a hint, for which nothing waits: a coherent line by a request to its home or RDC, a line of
another package by a read packet, any other at once. A line that cannot be fetched is skipped. -/
def prefetchLine (s : State) (r : TRef) (t : Thread) (va : Word) : State :=
  let c := r.core
  match classOf va with
  | .paged =>
    match resolve s c t.part t.proc va .ld with
    | (s, .ok (.page .priv _ pa, _)) => fetchPriv s c pa
    | (s, .ok (.page .readShared pkg pa, _)) => fetchCopy s c .readShared pkg pa
    | (s, .ok (.page .hostCoherent _ pa, _)) => fetchHost s c pa
    | (s, .ok (.page .coherent _ pa, _)) =>
      if l1Holds (s.core c) (lineKey s pa) false then s else (askLine s r (some s.fresh) pa false).1.bump
    | (s, .ok (.page .remotePosted pkg pa, _)) =>
      let key := domAddr pkg pa / 64
      if Map.has (s.core c).l1 key || Map.has (rdcOf s (coreDie c)) key then fetchCopy s c .remotePosted pkg pa
      else sendRemote s r (some s.fresh) t.part 1 (piece va 64 .load) pkg pa
    | (s, _) => s
  | _ => s

def prefetchLines (s : State) (r : TRef) (t : Thread) (va : Nat) : Nat → State
  | 0 => s
  | n + 1 => prefetchLines (prefetchLine s r t (BitVec.ofNat 64 va)) r t (va + 64) n

/-- R132, R135: the lines that a hint covers: the first, and how many. -/
def prefetchCount (va ctl : Word) : Nat :=
  let n := bitsOf ctl.toNat 0 40
  if n = 0 then 0
  else Nat.min 4096 ((Nat.min (2 ^ 64 - 1) (va.toNat + n - 1)) / 64 + 1 - va.toNat / 64)

/-- PREFR (R135): the lines of the range are fetched in ascending order. It waits for no operand, and reports no fault of
one: no result depends on what it fetches. -/
def execPrefr (g : BitVec 3) (a b : BitVec 7) : State → Host.Outcome State Fault Refusal :=
  issue (.prefr g a b) { guard := g, g := [a.toNat, b.toNat] }
    (fun c slot t s => prefetchLines s ⟨c, slot⟩ t ((t.gv a.toNat).toNat / 64 * 64)
      (prefetchCount (t.gv a.toNat) (t.gv b.toNat)))

end Sys2Proof.Machine
end

