-- ==== Sys2Proof/Machine/Perform.lean ====
section
/-!
DEFINITION. Perform.lean: the events in which accesses, waits and watches of threads are performed (R106,
R111 to R117, R126 to R131, R216, R217, R329, R340, R365).
-/
namespace Sys2Proof.Machine
open Sys2Proof

/-- R15: a thread that waits for an entry or a reading falls asleep; in the lay-by it is SPILLED. -/
def sleepNow (s : State) (r : TRef) (w : Wait) : State :=
  match s.thread? r.core r.slot with
  | none => s
  | some t =>
    match t.code with
    | .waiting =>
      postCtx (s.setThread r.core r.slot
        { t with code := if t.away then .spilled else .sleeping, wait := w, sleepFor := 0
                 since := (s.core r.core).cyc }) r.core
    | _ => s.setThread r.core r.slot { t with wait := w, slept := true, sleepFor := 0 }

/-! ## Pieces performed where they stand -/

/-- R105: a piece at a register of the device window. -/
def performDev (s : State) (r : TRef) (rid : Option Nat) (k : Nat) (u : MUnit) (off : Nat) : State :=
  match s.thread? r.core r.slot with
  | none => s
  | some t =>
    match u.op with
    | .store bs =>
      match deviceWrite s r.core r.slot t u.va off (leWord bs) with
      | (s, .error f) => failAcc s r rid f
      | (s, .ok _) => modAcc s r rid (fun a => { a with units := setOut a.units k [] })
    | _ =>
      match deviceRead s r.core r.slot t u.va off with
      | (s, .error f) => failAcc s r rid f
      | (s, .ok w) => modAcc s r rid (fun a => { a with units := setOut a.units k (wordBytes w) })

/-- R116, R130, R236: the word that a WAITGE reads, after the waiters that its full bit has released, with what its pair
holds; and its poison. -/
def geRead (s : State) (c : Nat) (p : Place) : State × List Byte × Bool :=
  let s := match p with
    | .spad q off => feFirst s q off 8
    | _ => s
  let v := readPlace s c p 8
  (s, overlay s c p v.1, v.2)

/-- R130: the first read of a WAITGE, and its temporary watch when it falls short. -/
def lookGe (s : State) (r : TRef) (k : Nat) (u : MUnit) (p : Place) (bound : Word) : State :=
  match (s.thread? r.core r.slot).bind (fun t => accOf t none) with
  | none => s
  | some a =>
    let (s, v) := geRead s r.core p
    if v.2 then takeFault s r.core r.slot (mkFault fcPoison u.va 0#64)
    else if bound.toNat ≤ (leWord v.1).toNat then
      modAcc s r none (fun a => { a with units := setOut a.units k v.1 })
    else
      let d := match a.fin with | .g d _ => d | _ => 0
      match register s r p (geWatch r p) with
      | (s, true) => sleepNow s r (.waitge d u.va p bound (leWord v.1) true)
      | (s, false) => s.modThread r.core r.slot (fun t =>
          { t with wait := .waitge d u.va p bound (leWord v.1) false })

/-- R231, R346: the first read of a WAITGE has its turn at the home of its line. -/
def performGe (s : State) (r : TRef) (k : Nat) (u : MUnit) (p : Place) (bound : Word) : State :=
  let s := modAcc s r none (fun a => { a with units := setAt a.units k { u with sent := true } })
  atPlace s (.accessComplete r.core r.slot) p false false (fun s => lookGe s r k u p bound)

/-- Whether a piece has its turn by the event of its access, also after it has been sent. -/
def MUnit.isGe (u : MUnit) : Bool :=
  match u.op with
  | .waitge _ => true
  | _ => false

/-- R236: whether a pair holds a store. -/
def heldStore (s : State) (r : TRef) (p : Place) : Bool :=
  (s.core r.core).lock.isSome && (match p with
    | .spad q _ => q != r.core
    | .dev _ => false
    | _ => true)

/-- R361: whether the host link that a place lies behind is down. -/
def linkLost (s : State) (p : Place) : Bool :=
  match p with
  | .page .hostCoherent _ _ => s.plat.cxlDown
  | .page .hostNoncoherent _ _ => s.plat.pcieDown
  | _ => false

/-- R253: whether a place lies in a Causeway window that the thread's partition may not reach, as when the port has left
since the access was checked. -/
def portLost (s : State) (r : TRef) : Place → Bool
  | .cw p _ => (s.port p).state != .member || (s.port p).owner != (s.thread? r.core r.slot).map (·.part)
  | _ => false

/-- R106, R227: a store to another package is handed to the fabric port. A relaxed one is outstanding until it has been
performed at its target. -/
def sendStore (s : State) (r : TRef) (rid : Option Nat) (k : Nat) (u : MUnit) (pkg pa : Nat) (bs : List Byte) : State :=
  match rid with
  | none => performPiece s r rid k u (fun s => (postStore s r none pkg pa bs, some []))
  | some _ => modAcc (postStore s r rid pkg pa bs) r rid (fun a =>
      { a with units := setAt a.units k { u with sent := true } })

/-- R108: whether the next piece of an access is performed in an act of its own. -/
def pauses : Place → Bool
  | .page .hostNoncoherent _ _ => true
  | _ => false

/-- One piece performed at its place, now. -/
def performUnit (s : State) (r : TRef) (rid : Option Nat) (k : Nat) (u : MUnit) (p : Place) : State :=
  if linkLost s p then failAcc s r rid (prot u.va 3)
  else if portLost s r p then failAcc s r rid (prot u.va 1)
  else match u.op, p with
  | .waitge bound, p => performGe s r k u p bound
  | _, .dev off => performDev s r rid k u off
  | .store bs, p =>
    if heldStore s r p then performPiece s r rid k u (fun s => (holdWrite s r p bs, some []))
    else match p with
      | .spad q off => performPiece s r rid k u (fun s => spadUnit s q off u.size u.op (q = r.core))
      | .page .coherent _ pa => performPiece s r rid k u (fun s => l1Unit s r.core pa u.size u.op)
      | .page .remotePosted pkg pa => sendStore s r rid k u pkg pa bs
      | p => performPiece s r rid k u (fun s => directUnit s r u p)
  | _, .spad q off => performPiece s r rid k u (fun s => spadUnit s q off u.size u.op (q = r.core))
  | _, .page .coherent _ pa => performPiece s r rid k u (fun s => l1Unit s r.core pa u.size u.op)
  | _, p => performPiece s r rid k u (fun s => directUnit s r u p)

/-- Every piece of an access that can be performed where it stands is performed, in order. -/
def performHere (s : State) (r : TRef) (rid : Option Nat) : List Nat → State
  | [] => s
  | k :: ks =>
    match s.thread? r.core r.slot with
    | none => s
    | some t =>
      match (accOf t rid).bind (fun a => a.units[k]?) with
      | none => performHere s r rid ks
      | some u =>
        match u.place with
        | none => performHere s r rid ks
        | some p =>
          if (u.sent && !u.isGe) || u.out.isSome || mustWait s r t rid u p then performHere s r rid ks
          else match sendUnit s r rid t.part u with
            | (s', .here) =>
              let s' := performUnit s' r rid k u p
              if pauses p then s' else performHere s' r rid ks
            | _ => performHere s r rid ks

/-- An access performed as far as it can be, its other pieces sent on their way. -/
def performAcc (s : State) (r : TRef) (rid : Option Nat) : State :=
  pump (completeIfDone (performHere s r rid (pieceNos s r rid)) r rid) r rid

/-- RELAXED_LOAD_DELIVER (R111, R112). -/
def execRelaxedLoadDeliver (core slot id : Nat) (s : State) : Host.Outcome State Fault Refusal :=
  .next (performAcc s ⟨core, slot⟩ (some id))

/-- RELAXED_STORE_PERFORM (R111). -/
def execRelaxedStorePerform (core slot id : Nat) (s : State) : Host.Outcome State Fault Refusal :=
  .next (performAcc s ⟨core, slot⟩ (some id))

/-- The first piece of an access that a test picks, with its number. -/
def firstPiece (us : List MUnit) (p : MUnit → Bool) : Option (Nat × MUnit) :=
  ((List.range us.length).filterMap (fun k => (us[k]?).bind (fun u => if p u then some (k, u) else none))).head?

/-- The first piece of the access a thread waits for, of those that a test picks. -/
def waitedPiece (s : State) (r : TRef) (rid : Option Nat) (p : MUnit → Bool) : Option (Nat × MUnit) :=
  (s.thread? r.core r.slot).bind (fun t => (accOf t rid).bind (fun a => firstPiece a.units p))

/-- POSTED_STORE_ACCEPT (R106, R363): the fabric port accepts a posted store; the thread goes on once all of
its stores are accepted. -/
def execPostedStoreAccept (core slot : Nat) (s : State) : Host.Outcome State Fault Refusal :=
  let r : TRef := ⟨core, slot⟩
  match waitedPiece s r none (fun u => u.sent && u.out.isNone && (match u.op, u.place with
      | .store _, some (.page .remotePosted _ _) => true
      | _, _ => false)) with
  | some (k, { op := .store bs, place := some (.page _ pkg pa), .. }) =>
    let s := modAcc (postStore s r none pkg pa bs) r none (fun a => { a with units := setOut a.units k [] })
    .next (completeIfDone s r none)
  | _ => .next s

/-- PMS_WRITE (R365): the store to PMS is translated and recorded. -/
def execPmsWrite (core slot : Nat) (s : State) : Host.Outcome State Fault Refusal :=
  let r : TRef := ⟨core, slot⟩
  match s.thread? core slot, waitedPiece s r none (fun u => u.sent && u.out.isNone &&
      (match u.op, u.place with | .store _, some (.dev 0x80) => true | _, _ => false)) with
  | some t, some (k, { op := .store bs, .. }) =>
    match pmsWrite s core slot t (leWord bs) with
    | (s, .error f) => .next (takeFault s core slot f)
    | (s, .ok _) =>
      .next (completeIfDone (modAcc s r none (fun a => { a with units := setOut a.units k [] })) r none)
  | _, _ => .next s

/-- WATCH_RECORDED (R126, R127): the watch store records or drops a watch, and the instruction receives its
code. -/
def execWatchRecorded (core slot : Nat) (s : State) : Host.Outcome State Fault Refusal :=
  let r : TRef := ⟨core, slot⟩
  match waitedPiece s r none (fun u => u.op.isWatch && u.out.isNone) with
  | some (k, { op := op, va := va, place := some p, .. }) =>
    if portLost s r p then .next (settleAct (failAcc s r none (prot va 1)) (.watchRecorded core slot))
    else
    let act := fun (s : State) =>
      let x := watchUnit s r op p
      completeIfDone (modAcc x.1 r none (fun a => { a with units := setOut a.units k x.2 })) r none
    .next (settleAct (if op = .watch then atPlace s (.watchRecorded core slot) p false false act else act s)
      (.watchRecorded core slot))
  | _ => .next (settleAct s (.watchRecorded core slot))

/-! ## Guests (R114, R216) -/

/-- R236: whether a word was written by its pair since the last commit. -/
def unsettled (k : Core) (off n : Nat) : Bool :=
  match k.lock with
  | none => false
  | some L => L.undo.any (fun x => decide (x.1 < off + n) && decide (off < x.1 + 8))

/-- R116: a waiting LDFE or STFE of a peer in the bank's turn. -/
def guestFe (s : State) (r : TRef) (load : Bool) (d : Nat) (va : Word) (q off : Nat) (data : Word) : State :=
  match feAct s r load d va q off data with
  | .error f => takeFault s r.core r.slot f
  | .ok (some s') => finishWait s' r.core r.slot
  | .ok none =>
    let s := feFirst s q off 8
    let p : Place := .spad q off
    match register s r p { place := p, thread := r, kind := .fe } with
    | (s, true) => sleepNow s r (.fe load d va p data true)
    | (s, false) => s

/-- What a guest asks of a core: the bytes it reaches. -/
def guestReach (s : State) (q : Nat) (r : TRef) (rid : Option Nat) : Option (Nat × Nat) :=
  match waitedPiece s r rid (fun u => u.sent && u.out.isNone &&
      (match u.place with | some (.spad k _) => k = q | _ => false)) with
  | some (_, { place := some (.spad _ off), size := n, .. }) => some (off, n)
  | _ => match waitOf s r with
    | some (.fe _ _ _ (.spad _ off) _ _) => some (off, 8)
    | _ => none

/-- One guest access performed. -/
def guestPerform (s : State) (q : Nat) (r : TRef) (rid : Option Nat) : State :=
  match waitedPiece s r rid (fun u => u.sent && u.out.isNone &&
      (match u.place with | some (.spad k _) => k = q | _ => false)) with
  | some (k, u) =>
    match u.place with
    | some p => completeIfDone (performUnit s r rid k u p) r rid
    | none => s
  | none =>
    match rid, waitOf s r with
    | none, some (.fe load d va (.spad k off) data false) =>
      if k = q && !s.entryWait.any (fun x => x.1 = r) then guestFe s r load d va q off data else s
    | _, _ => s

/-- GUEST_ACCESS (R114, R216): the guest that came first is served whole in the peer's bank turn; one on a word
that its pair has not committed waits (R236). -/
def execGuestAccess (core : Nat) (s : State) : Host.Outcome State Fault Refusal :=
  match (s.core core).guests with
  | [] => .next s
  | (r, rid) :: rest =>
    let held := match guestReach s core r rid with
      | some (off, n) => unsettled (s.core core) off n
      | none => false
    if held then .next s
    else
      let s := guestPerform (s.modCore core (fun k => { k with guests := rest })) core r rid
      .next (if rest.isEmpty || s.agenda.contains (.guestAccess core) then s else s.post (.guestAccess core))

/-- FE_WAITER_RELEASE (R116): the earliest waiter whose condition now holds is performed; what its change
releases comes next. -/
def execFeWaiterRelease (core word : Nat) (s : State) : Host.Outcome State Fault Refusal :=
  let s := feRelease s core (8 * word)
  match feNext s core (8 * word) with
  | none => .next s
  | some _ => .next (s.post (.feWaiterRelease core word))

/-! ## WAITGE, entries and expiry (R130, R131, R217) -/

/-- The temporary watch of a thread's WAITGE ends. -/
def dropGe (s : State) (r : TRef) : State :=
  postEntries { s with watches := s.watches.filter (fun w => !(w.thread = r && w.kind = .waitge)) }

/-- R197: the sleep of a BAR ends. -/
def dropBar (s : State) (r : TRef) : State :=
  postEntries { s with watches := s.watches.filter (fun w => !(w.thread = r && w.kind = .bar)) }

/-- R130: a woken WAITGE reads its word again, in one act. -/
def recheckGe (s : State) (c slot d : Nat) (va : Word) (p : Place) (bound : Word) : State :=
  let (s, v) := geRead s c p
  if v.2 then takeFault s c slot (mkFault fcPoison va 0#64)
  else if bound.toNat ≤ (leWord v.1).toNat then
    finishWait (writeG (dropGe s ⟨c, slot⟩) c slot d (leWord v.1)) c slot
  else s.modThread c slot (fun t => { t with wait := .waitge d va p bound (leWord v.1) true })

/-- WAITGE_RECHECK (R130, R346): a woken WAITGE reads its word again when it has its turn at the line's home. -/
def execWaitgeRecheck (core slot : Nat) (s : State) : Host.Outcome State Fault Refusal :=
  match s.thread? core slot with
  | none => .next (settleAct s (.waitgeRecheck core slot))
  | some t =>
    match t.wait with
    | .waitge d va p bound _ true =>
      .next (settleAct (atPlace s (.waitgeRecheck core slot) p false false (fun s => recheckGe s core slot d va p bound))
        (.waitgeRecheck core slot))
    | _ => .next (settleAct s (.waitgeRecheck core slot))

/-- R217: whether a wait is the first of those for its watch store. -/
def firstForEntry (s : State) (r : TRef) (p : Place) : Bool :=
  match s.entryWait.find? (fun x => sameStore x.1.core x.2 r.core p) with
  | some x => x.1 = r
  | none => false

/-- R130, R217: a WAITGE for which an entry has come free reads its word again, and takes the entry if it must. -/
def entryGe (s : State) (r : TRef) (d : Nat) (va : Word) (p : Place) (bound : Word) : State :=
  let (s, v) := geRead s r.core p
  if v.2 then takeFault s r.core r.slot (mkFault fcPoison va 0#64)
  else if bound.toNat ≤ (leWord v.1).toNat then finishWait (writeG s r.core r.slot d (leWord v.1)) r.core r.slot
  else sleepNow (addWatch s (geWatch r p)) r (.waitge d va p bound (leWord v.1) true)

/-- WATCH_ENTRY_GRANT (R116, R130, R217): a wait that found its watch store full is looked at again, and takes
the entry that has come free. -/
def execWatchEntryGrant (core slot : Nat) (s : State) : Host.Outcome State Fault Refusal :=
  let r : TRef := ⟨core, slot⟩
  let e : Event := .watchEntryGrant core slot
  match s.entryWait.find? (fun x => x.1 = r) with
  | none => .next (settleAct s e)
  | some (_, p) =>
    if !storeRoom s core p || !firstForEntry s r p then .next (settleAct s e)
    else
      let leave := fun (s : State) => { s with entryWait := s.entryWait.filter (fun x => x.1 != r) }
      match waitOf s r with
      | some (.fe load d va (.spad q off) data false) => .next (guestFe (leave s) r load d va q off data)
      | some (.waitge d va p bound _ false) =>
        .next (settleAct (atPlace s e p false false (fun s => entryGe (leave s) r d va p bound)) e)
      | _ => .next (settleAct (leave s) e)

/-- R131: whether an event that a write has posted for a sleeper is still to happen, or waits for its turn at a home. -/
def pendingEvent (s : State) (e : Event) : Bool :=
  s.agenda.contains e || s.dir.any (fun x => x.2.queue.any (fun m => m.event = some e))

/-- R131: whether a write has woken a sleeper already: its wake comes before the end of its period. -/
def woken (s : State) (r : TRef) (w : Wait) : Bool :=
  match w with
  | .waitge _ _ _ _ _ true => pendingEvent s (.waitgeRecheck r.core r.slot)
  | .fe load _ _ (.spad q off) _ true => load == fullBit (s.core q) off && pendingEvent s (.feWaiterRelease q (off / 8))
  | _ => false

/-- WLIM_EXPIRY (R131, R197): a sleeping period has reached WLIM; one that a write has ended first ends so. -/
def execWlimExpiry (core slot : Nat) (s : State) : Host.Outcome State Fault Refusal :=
  match s.thread? core slot with
  | none => .next s
  | some t =>
    if !limitReached t then .next s
    else if woken s ⟨core, slot⟩ t.wait then .next (s.post (.wlimExpiry core slot))
    else match t.wait with
      | .sleep d => .next (finishWait (writeG s core slot d 1#64) core slot)
      | .waitge d _ _ _ last _ =>
        .next (finishWait (writeG (dropGe s ⟨core, slot⟩) core slot d last) core slot)
      | .fe _ _ va _ _ _ => .next (takeFault s core slot (mkFault fcWatchLimit va t.wlim))
      | .bar d _ p => .next (finishWait (writeG (dropBar s ⟨core, slot⟩) core slot d p) core slot)
      | _ => .next s

/-! ## Walks and copies (R329 to R331, R340) -/

/-- The first address that an access of a thread still needs translated, and whether it is stored to. -/
def missOf (s : State) (r : TRef) (t : Thread) (rid : Option Nat) : Option (Word × Bool) :=
  (accOf t rid).bind (fun a =>
    match translateUnits s r.core t a a.units with
    | .ok (us, some va, _) =>
      (us.find? (fun u => u.place.isNone && u.va = va)).map (fun u => (va, (a.kind u).writes))
    | _ => none)

/-- R329, R330: one access that waited for a walk: it goes on, or faults as the walk does. -/
def afterWalk (s : State) (r : TRef) (k : Walk) (rid : Option Nat) : State :=
  match s.thread? r.core r.slot with
  | none => s
  | some t =>
    match missOf s r t rid with
    | some (va, write) =>
      if va.toNat / 2 ^ 16 != k.va.toNat / 2 ^ 16 || t.part != k.part || t.proc != k.proc then s
      else match walkEnd va write k.pos with
        | .error f => failAcc s r rid f
        | .ok _ => pump s r rid
    | none => pump s r rid

def afterWalkAll (s : State) (r : TRef) (k : Walk) : List (Option Nat) → State
  | [] => s
  | x :: xs => afterWalkAll (afterWalk s r k x) r k xs

def serveWaiters (s : State) (k : Walk) : List TRef → State
  | [] => s
  | r :: rs =>
    match s.thread? r.core r.slot with
    | none => serveWaiters s k rs
    | some t => serveWaiters (afterWalkAll s r k (none :: t.relaxed.map (fun x => some x.id))) k rs

def pumpThreads (s : State) : List TRef → State
  | [] => s
  | r :: rs => pumpThreads (pumpAll s r) rs

/-- R330: a walk that is at its end serves its waiters: a success is cached; a failure is not, and faults the requests
that waited. -/
def endWalk (s : State) (k : Walk) : State :=
  let s := { s with walks := s.walks.filter (fun x => x.id != k.id) }
  serveWaiters (match k.pos with | .leaf t => tlbAdd s k.ws t | _ => s) k k.waiters

/-- R329: a walk in progress reads its next entry, and ends or goes on. -/
def stepWalk (s : State) (k : Walk) : State :=
  let k' := { k with pos := walkStep s k.part k.proc k.va.toNat k.pos }
  match k'.pos with
  | .table _ _ => ({ s with walks := s.walks.map (fun x => if x.id = k.id then k' else x) } : State).post
      (.walkComplete k.id)
  | _ => endWalk s k'

/-- WALK_COMPLETE (R225, R329 to R331): a walk takes its next step, a read at the entry's home, and ends with the last. A
walk that an invalidation has met serves no request, and its waiters start another. -/
def execWalkComplete (id : Nat) (s : State) : Host.Outcome State Fault Refusal :=
  .next (settleAct (match s.walks.find? (fun k => k.id = id) with
    | none => s
    | some k =>
      if k.marked then pumpThreads { s with walks := s.walks.filter (fun x => x.id != id) } k.waiters
      else match walkReads s k.part k.proc k.va.toNat k.pos with
        | some a => atPlace s (.walkComplete id) (.page .coherent s.pkg (a / 64 * 64)) false false (fun s => stepWalk s k)
        | none => stepWalk s k) (.walkComplete id))

/-- COPY_TERM_EXPIRY (R340): a copy whose term has ended is dropped. -/
def execCopyTermExpiry (agent line : Nat) (s : State) : Host.Outcome State Fault Refusal :=
  let over_ := fun (l : Option CLine) (now : Nat) =>
    match l.bind (·.term) with
    | some e => decide (e ≤ now)
    | none => false
  if isL1 agent then
    .next (if over_ (Map.get? (s.core agent).l1 line) (s.core agent).cyc then
      s.modCore agent (fun k => { k with l1 := Map.erase k.l1 line }) else s)
  else
    let m := rdcOf s (agent - 0xC00)
    .next (if over_ (Map.get? m line) s.now then setRdc s (agent - 0xC00) (Map.erase m line) else s)

end Sys2Proof.Machine
end

