-- ==== Sys2Proof/Machine/Coherence.lean ====
section
/-!
DEFINITION. Coherence.lean: the directory protocol: requests, recalls, write-backs, ownership and pins at a
home (R342 to R350), and leases (R351 to R354).
-/
namespace Sys2Proof.Machine
open Sys2Proof

/-! ## Messages (R344) -/

/-- Whether a message goes from a home to an agent. -/
def MsgKind.fromHome : MsgKind → Bool
  | .inv | .rcl | .dwg | .ack | .nack => true
  | _ => false

/-- R344: whether two messages take one path: one agent, one slice, one direction. -/
def samePath (x y : Msg) : Bool :=
  x.agent = y.agent && homeDie (64 * x.line) = homeDie (64 * y.line) &&
    sliceOf (64 * x.line) = sliceOf (64 * y.line) && x.kind.fromHome == y.kind.fromHome

/-- The first message that a test picks, taken from those in flight; none while an earlier one of its path
is still in flight. -/
def takeMsg (p : Msg → Bool) (before : List Msg) : List Msg → Option (Msg × List Msg)
  | [] => none
  | m :: l =>
    if p m then (if before.any (samePath m) then none else some (m, before.reverse ++ l))
    else takeMsg p (m :: before) l

/-- An arrival: the message of an event is taken and dealt with. One that may not arrive yet stays on its
way. -/
def arrive (s : State) (e : Event) (p : Msg → Bool) (f : State → Msg → State) :
    Host.Outcome State Fault Refusal :=
  match takeMsg p [] s.msgs with
  | some (m, ms) => .next (drainAgent (f { s with msgs := ms } m) m.agent)
  | none => if s.msgs.any p then .next (s.post e) else .next s

/-- The messages of one kind between a home and an agent. -/
def isMsg (k : MsgKind) (line agent : Nat) (m : Msg) : Bool := m.kind = k && m.line = line && m.agent = agent

/-! ## Requests (R345) -/

/-- RD (R345). -/
def execRd (line agent : Nat) (s : State) : Host.Outcome State Fault Refusal :=
  arrive s (.rd line agent) (isMsg .rd line agent) request

/-- RDX (R345). -/
def execRdx (line agent : Nat) (s : State) : Host.Outcome State Fault Refusal :=
  arrive s (.rdx line agent) (isMsg .rdx line agent) request

/-- UPG (R345). -/
def execUpg (line agent : Nat) (s : State) : Host.Outcome State Fault Refusal :=
  arrive s (.upg line agent) (isMsg .upg line agent) request

/-- AMO (R122, R345). -/
def execAmo (line agent : Nat) (s : State) : Host.Outcome State Fault Refusal :=
  arrive s (.amo line agent) (isMsg .amo line agent) request

/-- OWN (R345, R349). -/
def execOwn (line id : Nat) (s : State) : Host.Outcome State Fault Refusal :=
  arrive s (.own line id) (fun m => m.kind = .own && m.line = line && m.cmd = some id) request

/-- PIN (R349). -/
def execPin (line agent : Nat) (s : State) : Host.Outcome State Fault Refusal :=
  arrive s (.pin line agent) (isMsg .pin line agent) request

/-- PIN_DROP (R349): the step has read the line. -/
def execPinDrop (line agent : Nat) (s : State) : Host.Outcome State Fault Refusal :=
  arrive s (.pinDrop line agent) (isMsg .pinDrop line agent) (fun s m =>
    let e := dirOf s m.line
    unblock (serveAll (putDir s m.line { e with pins := eraseFirst (· = m.agent) e.pins }) m.line))

/-! ## Answers and write-backs (R345, R347) -/

/-- R345: the last answer of a recall is in: the request it was made for is served, then the queue. -/
def recalled (s : State) (line : Nat) : State :=
  let e := dirOf s line
  match e.cur with
  | none => s
  | some m =>
    let keep := m.kind = .rd || m.kind = .pin
    let e := { e with
      cur := none, excl := false
      mode := if keep then e.mode else false
      vec := if keep then e.vec else []
      ptrs := if keep then e.ptrs else []
      st := if keep && !(e.ptrs.isEmpty && e.vec.isEmpty) then .s else .i }
    let s := putDir s line e
    serveAll (if stale s m then refuse s m else serveNow s m) line

/-- An agent that was asked has answered. -/
def answered (s : State) (line agent : Nat) (keep : Bool) : State :=
  let e := dirOf s line
  let e := { e with asked := e.asked.filter (· != agent)
                    ptrs := if keep then e.ptrs else e.ptrs.filter (· != agent) }
  let s := putDir s line e
  if e.asked.isEmpty then recalled s line else s

/-- RECALL_ANSWER (R345): an answer reaches the home; one that is no longer awaited is discarded. -/
def execRecallAnswer (line agent : Nat) (s : State) : Host.Outcome State Fault Refusal :=
  arrive s (.recallAnswer line agent) (isMsg .answer line agent) (fun s m =>
    let e := dirOf s m.line
    if e.st != .b || !e.asked.contains m.agent || m.gen != keptGen s m.line m.agent then s
    else
      let s := match m.data with
        | some bs => homeStore s (64 * m.line) bs m.poison
        | none => s
      answered s m.line m.agent m.keep)

/-- R344: the home's acknowledgement. -/
def sendAck (s : State) (m : Msg) : State :=
  sendMsg s { kind := .ack, line := m.line, agent := m.agent, gen := m.gen }

/-- R353: a write-back with an old generation is discarded and logged. -/
def late (s : State) (m : Msg) : State :=
  let who := BitVec.ofNat 64 m.agent
  logEvent s (sliceBank (64 * m.line)) 0 2 0x8009#16 (BitVec.ofNat 64 (domAddr s.pkg (64 * m.line))) who
    (m.gen.zeroExtend 64) (nowWord s)

/-- R345, R347: a WB, WBK or PUT reaches its home. In B it serves as the answer of the agent that was asked;
a WBK leaves its agent with S, and its answer to come. -/
def writeBack (s : State) (m : Msg) : State :=
  let e := dirOf s m.line
  let put := fun s => match m.data with
    | some bs => homeStore s (64 * m.line) bs m.poison
    | none => s
  if m.gen != keptGen s m.line m.agent then late s m
  else if e.st = .e && e.ptrs.contains m.agent && m.gen = e.gen then
    let s := put s
    let e := dirOf s m.line
    let s := if m.kind = .wbk then putDir s m.line { e with st := .s }
      else putDir s m.line { e with st := .i, ptrs := [] }
    sendAck (serveAll s m.line) m
  else if e.st = .b && e.asked.contains m.agent && e.excl then
    let s := sendAck (put s) m
    if m.kind = .wbk then s else answered s m.line m.agent false
  else sendAck s m

/-- WB (R345). -/
def execWb (line agent : Nat) (s : State) : Host.Outcome State Fault Refusal :=
  arrive s (.wb line agent) (isMsg .wb line agent) writeBack

/-- WBK (R345). -/
def execWbk (line agent : Nat) (s : State) : Host.Outcome State Fault Refusal :=
  arrive s (.wbk line agent) (isMsg .wbk line agent) writeBack

/-- PUT (R345). -/
def execPut (line agent : Nat) (s : State) : Host.Outcome State Fault Refusal :=
  arrive s (.put line agent) (isMsg .put line agent) writeBack

/-! ## Messages that reach an agent (R344, R347, R348) -/

/-- A line taken from an agent and from everything under it; an eviction buffer keeps its lines. -/
def dropHeld (s : State) (agent key : Nat) : State :=
  if isL1 agent then s.modCore agent (fun k => { k with l1 := Map.erase k.l1 key })
  else dropAgent s agent key

/-- R347, R348: what an agent holds of a line that is not on its way home: its state and present data. -/
def heldLine (s : State) (agent key : Nat) : Option (LState × List Byte × Bool) :=
  if isL1 agent then (Map.get? (s.core agent).l1 key).map (fun l => (l.st, l.data, l.poison))
  else (Map.get? (rdcOf s (agent - 0xC00)) key).map (fun l =>
    match dirtyOf s agent key with
    | some d => (.m, d.data, d.poison)
    | none => (l.st, l.data, l.poison))

/-- R345: an agent keeps a line with read permission only. -/
def downgrade (s : State) (agent key : Nat) (data : List Byte) (poison : Bool) : State :=
  let clean := fun (l : CLine) => { l with st := .s, data := data, poison := poison, owner := none }
  if isL1 agent then s.modCore agent (fun k => { k with l1 := Map.modify k.l1 key clean })
  else
    let die := agent - 0xC00
    let s := setRdc s die (Map.modify (rdcOf s die) key clean)
    { s with cores := s.cores.map (fun ck =>
        if coreDie ck.1 = die then (ck.1, { ck.2 with l1 := Map.modify ck.2.l1 key clean }) else ck) }

def sendAnswer (s : State) (m : Msg) (data : Option (List Byte)) (poison keep : Bool) : State :=
  sendMsg s { mkMsg s .answer m.line m.agent with data := data, poison := poison, keep := keep }

/-- A recall reaches its agent: it gives up the line, or keeps S when `keep`; data that are dirty go with the
answer. A line in the eviction buffer, or not held, is answered without data. A fenced core answers nothing
(R387). -/
def recallAgent (s : State) (m : Msg) (keep : Bool) : State :=
  let key := lineKey s (64 * m.line)
  if isL1 m.agent && (s.core m.agent).fenced then s
  else match heldLine s m.agent key with
  | none => sendAnswer s m none false false
  | some (st, data, poison) =>
    let s := if keep then downgrade s m.agent key data poison else dropHeld s m.agent key
    sendAnswer s m (if st = .m then some data else none) poison keep

/-- INV (R344): the agent drops its S copy and acknowledges. -/
def execInv (line agent : Nat) (s : State) : Host.Outcome State Fault Refusal :=
  arrive s (.inv line agent) (isMsg .inv line agent) (fun s m => recallAgent s m false)

/-- RCL (R344): the agent gives up E or M. -/
def execRcl (line agent : Nat) (s : State) : Host.Outcome State Fault Refusal :=
  arrive s (.rcl line agent) (isMsg .rcl line agent) (fun s m => recallAgent s m false)

/-- DWG (R344): the agent keeps S. -/
def execDwg (line agent : Nat) (s : State) : Host.Outcome State Fault Refusal :=
  arrive s (.dwg line agent) (isMsg .dwg line agent) (fun s m => recallAgent s m true)

/-- The threads of a core. -/
def coreThreads (s : State) (c : Nat) : List TRef := (Map.keys (s.core c).threads).map (fun k => ⟨c, k⟩)

/-- The threads of a die. -/
def dieThreads (s : State) (die : Nat) : List TRef :=
  ((Map.keys s.cores).filter (fun c => coreDie c = die)).flatMap (coreThreads s)

/-- ACK (R347): the eviction buffer entry is free, and what waited for it goes on. -/
def execAck (line agent : Nat) (s : State) : Host.Outcome State Fault Refusal :=
  arrive s (.ack line agent) (isMsg .ack line agent) (fun s m =>
    let key := lineKey s (64 * m.line)
    if isL1 m.agent then
      let s := s.modCore m.agent (fun k => { k with xbuf := Map.erase k.xbuf key })
      unblock (pumpThreads s (coreThreads s m.agent))
    else
      let die := m.agent - 0xC00
      let s := setRdcX s die (Map.erase (rdcXOf s die) key)
      unblock (pumpThreads s (dieThreads s die)))

/-- The address of the first piece of a thread's access on a line. -/
def lineVa (s : State) (r : TRef) (rid : Option Nat) (line : Nat) : Word :=
  match waitedPiece s r rid (fun u => u.out.isNone && (match u.place with
      | some (.page _ _ pa) => pa / 64 = line
      | _ => false)) with
  | some (_, u) => u.va
  | none => 0#64

/-- R353, R159: an engine's message is refused: its command stops, with status bit 4 and the line. -/
def refuseCmd (s : State) (id line : Nat) : State :=
  modCmd s id (fun c => { c with
    stopped := true, toOwn := [], toPin := []
    status := if c.status.getLsbD 4 then c.status
      else c.status ||| BitVec.ofNat 64 (16 + domAddr s.pkg (64 * line) / 2 ^ 16 * 2 ^ 16) })

/-- The event that carries a command on. -/
def cmdEvent (c : Cmd) : Event :=
  match c.instr with
  | .gath _ _ x => if x.scat && !c.stopped then .gathScatterRow c.id else .engineComplete c.id
  | _ => .engineComplete c.id

/-- R349: a line leaves a command's ownership. -/
def disownLine (s : State) (line id : Nat) : State :=
  let s := modCmd s id (fun c => { c with owned := c.owned.filter (· != line), buf := Map.erase c.buf line })
  match Map.get? s.cmds id with
  | some c => if c.owned.isEmpty then s.post (cmdEvent c) else s
  | none => s

/-- NACK (R353): the thread faults LEASE with the old generation; an engine's command stops, and gives up the line of a
refused EW or REL; the agent rejoins. -/
def execNack (line agent : Nat) (s : State) : Host.Outcome State Fault Refusal :=
  arrive s (.nack line agent) (isMsg .nack line agent) (fun s m =>
    let s := match m.thread with
      | some r => failAcc s r m.rid (mkFault fcLease (lineVa s r m.rid m.line) (m.gen.zeroExtend 64))
      | none => s
    let s := match m.cmd with
      | some id =>
        let s := refuseCmd s id m.line
        (if m.keep then disownLine s m.line id else s).post (.engineComplete id)
      | none => s
    s.post (.leaseRejoin (homeDie (64 * m.line)) m.agent))

/-! ## Leases (R351 to R354) -/

/-- LEASE_RENEWAL (R351): the keeper notes the renewal and acknowledges it; one with an old generation is
refused. -/
def execLeaseRenewal (die agent : Nat) (s : State) : Host.Outcome State Fault Refusal :=
  let l := leaseOf s die agent
  if l.held != l.gen then .next (s.post (.leaseRejoin die agent))
  else .next (setLease s die agent { l with last := s.now, ack := agentNow s agent })

/-- R352: the resolution of one entry for an expired agent. -/
def resolveEntry (s : State) (agent line : Nat) : State :=
  let e := dirOf s line
  let e := { e with pins := e.pins.filter (· != agent) }
  let pa := 64 * line
  let revert := (e.st = .e || e.st = .o) && e.ptrs = [agent] || (e.st = .b && e.excl && e.asked = [agent])
  let s := if revert then
      logEvent s (sliceBank pa) 0 2 0x8008#16 (BitVec.ofNat 64 (domAddr s.pkg pa)) (BitVec.ofNat 64 agent)
        (BitVec.ofNat 64 (domAddr s.pkg (pa / 2 ^ 16 * 2 ^ 16))) (nowWord s)
    else s
  if e.st = .b then
    let s := putDir s line { e with fl := e.fl || revert }
    if e.asked.contains agent then answered s line agent false else s
  else if revert then
    serveAll (putDir s line { e with st := .i, ptrs := [], cmd := none, fl := true }) line
  else serveAll (putDir s line e) line

def resolveAll (s : State) (agent : Nat) : List Nat → State
  | [] => s
  | l :: ls => resolveAll (resolveEntry s agent l) agent ls

/-- LEASE_EXPIRY (R351, R352): an agent's last renewal is 2^20 cycles old: its generation advances and the
die's homes resolve every entry that names it. -/
def execLeaseExpiry (die agent : Nat) (s : State) : Host.Outcome State Fault Refusal :=
  let l := leaseOf s die agent
  let named := namedLines s die agent
  if l.expired || s.now < l.last + leaseTerm || named.isEmpty then .next s
  else
    let s := setLease s die agent { l with gen := l.gen + 1#16, expired := true }
    .next (unblock (resolveAll s agent named))

/-- The bank of an agent (R376). -/
def agentBank (agent : Nat) : Nat :=
  if isL1 agent then agent
  else if agent < 0xD00 then 0xA00 + (agent - 0xC00)
  else if agent < 0xE00 then 130 * ((agent - 0xD00) / 8) + 16 * ((agent - 0xD00) % 8)
  else 130 * (agent - 0xE00)

/-- Whether a domain line number is that of a line homed on a die of this package. -/
def homedAt (s : State) (die key : Nat) : Bool := key / 2 ^ 44 = s.pkg && homeDie (64 * (key % 2 ^ 44)) = die

def isDirty (l : CLine) : Bool := l.st = .m

/-- The coherent lines of a die's homes that an agent holds, and those of them that are dirty. -/
def agentLines (s : State) (die agent : Nat) : List Nat × List Nat :=
  let mine := fun (m : Map CLine) => m.filter (fun x => x.2.kind = .coherent && homedAt s die x.1)
  if isL1 agent then
    let k := s.core agent
    let ls := mine k.l1 ++ mine k.xbuf
    (ls.map (·.1), (ls.filter (fun x => isDirty x.2)).map (·.1))
  else if agent < 0xD00 then
    let ls := mine (rdcOf s (agent - 0xC00)) ++ mine (rdcXOf s (agent - 0xC00))
    (ls.map (·.1), (ls.filter (fun x => (dirtyOf s agent x.1).isSome)).map (·.1))
  else ([], [])

def logDrops (s : State) (agent : Nat) : List Nat → State
  | [] => s
  | key :: ks =>
    logDrops (logEvent s (agentBank agent) 0 2 0x800A#16 (BitVec.ofNat 64 (64 * key)) (BitVec.ofNat 64 agent) 0#64
      (BitVec.ofNat 64 (agentNow s agent))) agent ks

/-- LEASE_REJOIN (R353): the agent drops every line it holds of the die's homes, dirty data discarded and logged,
and receives the current generation. -/
def execLeaseRejoin (die agent : Nat) (s : State) : Host.Outcome State Fault Refusal :=
  let ls := agentLines s die agent
  let s := ls.1.foldl (fun s key => dropAgent s agent key) (logDrops s agent ls.2)
  let l := leaseOf s die agent
  let s := setLease s die agent { l with held := l.gen, last := s.now, ack := agentNow s agent, expired := false }
  .next (unblock (if isL1 agent then pumpThreads s (coreThreads s agent)
    else if agent < 0xD00 then pumpThreads s (dieThreads s (agent - 0xC00)) else s))

/-- R351, R353: an engine that treats its ownerships at a die as lost: each command of its that holds a line there stops
as one that was refused. MODEL'S CHOICE (log entry 88). -/
def loseOwned (s : State) (die agent : Nat) : State :=
  s.cmds.foldl (fun (s : State) (x : Nat × Cmd) =>
    match (if x.2.agent = agent then x.2.owned.find? (fun l => homeDie (64 * l) = die) else none) with
    | some l => (refuseCmd s x.1 l).post (.engineComplete x.1)
    | none => s) s

/-- LEASE_SELF_LIMIT (R351): no acknowledgement for 2^20 − 2^18 cycles: the agent treats its permissions as
lost, and rejoins. -/
def execLeaseSelfLimit (die agent : Nat) (s : State) : Host.Outcome State Fault Refusal :=
  if agentNow s agent < (leaseOf s die agent).ack + 786432 ||
      ((agentLines s die agent).1.isEmpty && (namedLines s die agent).isEmpty) then .next s
  else execLeaseRejoin die agent (loseOwned s die agent)

end Sys2Proof.Machine
end

