-- ==== Sys2Proof/Machine/Matrix.lean ====
section
/-!
DEFINITION. Matrix.lean: the arithmetic of the engines: matrix steps (R47 to R50), EC8 blocks (R51 to R54, R172) and
the reductions of COLL (R167, R168).
-/
namespace Sys2Proof.Machine
open Sys2Proof

/-! ## Element formats (R157) -/

/-- R157: the floating-point format of a code; EC8 decodes to F8e4. Code 7 is S8. -/
def mmaFmt (code : Nat) : FFmt :=
  match code with
  | 0 => f8e4
  | 1 => f8e5
  | 2 => f8e4
  | 3 => bf16
  | 4 => fp16
  | 5 => fp32
  | _ => fp64

/-- R163: bytes of an element. -/
def mmaSize (code : Nat) : Nat :=
  match code with
  | 3 | 4 => 2
  | 5 => 4
  | 6 => 8
  | _ => 1

/-- R47: the accumulator's format. -/
def accFmt (code : Nat) : FFmt := if code = 6 then fp64 else fp32

/-- R163: bytes of an accumulator element. -/
def accSize (code : Nat) : Nat := if code = 6 then 8 else 4

/-! ## One element of a matrix step -/

/-- R48: the exact sum of a step. -/
inductive ExactSum where
  | nan
  | inf (neg : Bool)
  /-- The sum, and whether every product is −0. -/
  | fin (x : Dy) (negZero : Bool)
  deriving DecidableEq, Repr

/-- R48: a product that is not a number: a NaN element, or 0 × ∞. -/
def badProduct (x y : FVal) : Bool :=
  x.isNan || y.isNan || (match x, y with
    | .inf _, .fin _ m _ => m = 0
    | .fin _ m _, .inf _ => m = 0
    | _, _ => false)

/-- The sign of an infinite product. -/
def infProduct (x y : FVal) : Option Bool :=
  match x, y with
  | .inf a, v => some (a != v.neg)
  | v, .inf b => some (v.neg != b)
  | _, _ => none

def finProduct (x y : FVal) : Dy :=
  match x, y with
  | .fin a m e, .fin b n k => Dy.of (a != b) (m * n) (e + k)
  | _, _ => { n := 0, e := 0 }

/-- R47, R48: the exact sum of 64 products. -/
def exactSum (xs ys : List FVal) : ExactSum :=
  let ps := xs.zip ys
  let infs := ps.filterMap (fun p => infProduct p.1 p.2)
  if ps.any (fun p => badProduct p.1 p.2) || (infs.contains true && infs.contains false) then .nan
  else match infs with
    | s :: _ => .inf s
    | [] => .fin (ps.foldl (fun acc p => acc.add (finProduct p.1 p.2)) { n := 0, e := 0 })
        (ps.all (fun p => (p.1.isZero || p.2.isZero) && (p.1.neg != p.2.neg)))

/-- R47: exactsum × s, rounded once; s is a positive finite number. -/
def scaleSum (f : FFmt) (x : ExactSum) (s : FVal) : Nat :=
  match x, s with
  | .nan, _ => f.canon
  | .inf neg, _ => f.infinity neg
  | .fin d z, .fin _ m e => (f.roundDy 0 false z { n := d.n * m, e := d.e + e }).1
  | .fin _ _, _ => f.canon

def FVal.isFin : FVal → Bool
  | .fin _ _ _ => true
  | _ => false

def FVal.isInf : FVal → Bool
  | .inf _ => true
  | _ => false

/-- R47, R48: the new element, and whether the accumulator overflowed. -/
def stepElem (f : FFmt) (c : Nat) (xs ys : List FVal) (s : FVal) : Nat × Bool :=
  let r := (fadd f 0#64 c (scaleSum f (exactSum xs ys) s)).1
  let r := if (f.unpack r).isNan then f.canon else r
  (r, (f.unpack r).isInf && (f.unpack c).isFin && xs.all (·.isFin) && ys.all (·.isFin))

/-- R50: the new element of an S8 step, and whether it saturated. -/
def stepInt (c : Nat) (xs ys : List Int) : Nat × Bool :=
  let v := bitsInt true 32 c + ((xs.zip ys).map (fun p => p.1 * p.2)).sum
  let w := satInt true 32 v
  (intBits 32 w, w != v)

/-- R49: a slab scale that is positive and finite. -/
def scaleOk (w : Nat) : Bool := decide (0 < w) && decide (w < 0x7F800000)

/-- R47, R49: s = rne32(sA × sB). -/
def scaleProduct (a b : Nat) : Nat := (fmul fp32 0#64 a b).1

/-- Little-endian elements of `size` bytes. -/
def elements (size : Nat) (bs : List Byte) : List Nat :=
  (List.range (bs.length / size)).map (fun i => leNat ((bs.drop (size * i)).take size))

/-! ## EC8 blocks (R51 to R54) -/

/-- Nibble i of bytes. -/
def nibble (bs : List Byte) (i : Nat) : Nat := bitsOf (bs.getD (i / 2) 0#8).toNat (4 * (i % 2)) 4

/-- Bits of bytes, bit b being bit b mod 8 of byte b div 8. -/
def bitStream (bs : List Byte) : List Bool := bs.flatMap (fun b => (List.range 8).map (fun i => b.getLsbD i))

/-- R53: the count of one bits up to a zero bit, at most 30, and the rest. -/
def unary : Nat → List Bool → Option (Nat × List Bool)
  | _, [] => none
  | _, false :: l => some (0, l)
  | 0, true :: _ => none
  | fuel + 1, true :: l => (unary fuel l).map (fun x => (x.1 + 1, x.2))

/-- R53: k bits, the least significant first. -/
def takeBits : Nat → List Bool → Option (Nat × List Bool)
  | 0, l => some (0, l)
  | _ + 1, [] => none
  | k + 1, b :: l => (takeBits k l).map (fun x => ((if b then 1 else 0) + 2 * x.1, x.2))

/-- R51: the exponent delta that z stands for. -/
def unzigzag (z : Nat) : Int := if z % 2 = 0 then (z / 2 : Nat) else -(((z + 1) / 2 : Nat) : Int)

/-- R53: n exponents of a coded block from its bit stream; none when it is malformed. -/
def codedExps (e0 k : Nat) : Nat → List Bool → Option (List Nat)
  | 0, _ => some []
  | n + 1, l =>
    match unary 30 l with
    | none => none
    | some (q, l) => match takeBits k l with
      | none => none
      | some (rem, l) =>
        let z := q * 2 ^ k + rem
        let e : Int := e0 + unzigzag z
        if 30 < z || e < 0 || 15 < e then none
        else (codedExps e0 k n l).map (e.toNat :: ·)

/-- R53: a block of `span` bytes that begins with `bs`: 64 F8e4 elements, or none when it is malformed. The bytes
given are the whole block, or at least the 281 that any block needs. -/
def decodeBlock (bs : List Byte) : Option (List Nat) :=
  match bs with
  | [] => none
  | h :: rest =>
    let mode := h.toNat / 64
    let k := bitsOf h.toNat 4 2
    let e0 := h.toNat % 16
    if mode = 3 then none
    else if mode = 1 then some (List.replicate 64 0)
    else
      let exps := if mode = 2 then
          (if rest.length < 64 then none else some ((List.range 64).map (fun i => nibble (rest.drop 32) i)))
        else (if rest.length < 32 then none else codedExps e0 k 64 (bitStream (rest.drop 32)))
      exps.map (fun es => (List.range 64).map (fun i =>
        nibble rest i / 8 * 128 + es.getD i 0 * 8 + nibble rest i % 8))

/-! ## Encoding (R172) -/

/-- R51: z of an exponent delta. -/
def zigzag (d : Int) : Nat := if 0 ≤ d then (2 * d).toNat else (-2 * d - 1).toNat

/-- R172: the stream bits of 64 exponents under (e0, k). -/
def streamBits (es : List Nat) (e0 k : Nat) : Nat :=
  (es.map (fun (e : Nat) => zigzag ((e : Int) - e0) / 2 ^ k + 1 + k)).sum

/-- R172: (e0, k) with the fewest stream bits, ties to the smaller k, then the smaller e0. -/
def bestCode (es : List Nat) : Nat × Nat :=
  ((List.range 64).map (fun i => (i % 16, i / 16))).foldl (fun (best : Nat × Nat) c =>
    if streamBits es c.1 c.2 < streamBits es best.1 best.2 then c else best) (0, 0)

/-- Bits as bytes, padded with zeros. -/
def packBits (l : List Bool) : List Byte :=
  (List.range ((l.length + 7) / 8)).map (fun i =>
    BitVec.ofNat 8 (((List.range 8).map (fun j => if l.getD (8 * i + j) false then 2 ^ j else 0)).sum))

/-- Numbers below 16 as bytes, two in a byte. -/
def packNibbles (l : List Nat) : List Byte :=
  (List.range (l.length / 2)).map (fun i => BitVec.ofNat 8 (l.getD (2 * i) 0 + 16 * l.getD (2 * i + 1) 0))

/-- R51: the bits of one exponent. -/
def expBits (e0 k e : Nat) : List Bool :=
  let z := zigzag ((e : Int) - e0)
  List.replicate (z / 2 ^ k) true ++ [false] ++ (List.range k).map (fun j => z.testBit j)

/-- R172: the block of 64 F8e4 elements. -/
def encodeBlock (q : List Nat) : List Byte :=
  if q.all (· = 0) then [0x40#8]
  else
    let es := q.map (fun x => bitsOf x 3 4)
    let nibs := packNibbles (q.map (fun x => x / 128 * 8 + x % 8))
    let c := bestCode es
    if 33 + (streamBits es c.1 c.2 + 7) / 8 < 65 then
      BitVec.ofNat 8 (16 * c.2 + c.1) :: nibs ++ packBits (es.flatMap (expBits c.1 c.2))
    else 0x80#8 :: nibs ++ packNibbles es

/-- R172: the scale of a slab whose largest magnitude is the FP32 number m. -/
def slabScale (m : Nat) : Nat :=
  let s := (fdiv fp32 0#64 m 0x43E00000).1
  if s = 0 then 1 else s

/-- R172: F8e4 of the exact x ÷ s, to nearest, saturating. -/
def quantise (x s : Nat) : Nat :=
  match fp32.unpack x, fp32.unpack s with
  | .fin neg m e, .fin _ n k =>
    if m = 0 then f8e4.signBit neg
    else
      let q := m * 2 ^ 64 / n
      let r := m * 2 ^ 64 % n
      (f8e4.round 0 false neg (2 * q + (if r = 0 then 0 else 1)) (e - k - 65)).1
  | _, _ => 0

/-! ## Reductions (R167, R168) -/

/-- R167: bytes of an element of a reduction code. -/
def redSize (rf : Nat) : Nat :=
  match rf with
  | 1 | 3 => 8
  | 6 => 2
  | _ => 4

/-- R167: one combination, and whether a sum overflowed from finite inputs (R168). -/
def redOp (rf x y : Nat) : Nat × Bool :=
  let f := fun (r : Nat × BitVec 5) => (r.1, r.2.getLsbD 2)
  match rf with
  | 0 => f (fadd fp32 0#64 x y)
  | 1 => f (fadd fp64 0#64 x y)
  | 2 => ((x + y) % 2 ^ 32, false)
  | 3 => ((x + y) % 2 ^ 64, false)
  | 4 => ((fminmax fp32 true x y).1, false)
  | 5 => ((fminmax fp32 false x y).1, false)
  | _ => f (fadd bf16 0#64 x y)

/-- R168: the contributions combined element by element, in rank order. -/
def reduceAll (rf : Nat) (xs : List (List Nat)) : List Nat × Bool :=
  match xs with
  | [] => ([], false)
  | x :: rest => rest.foldl (fun acc y =>
      let r := (acc.1.zip y).map (fun p => redOp rf p.1 p.2)
      (r.map (·.1), acc.2 || r.any (·.2))) (x, false)

end Sys2Proof.Machine
end

