-- ==== Sys2Proof/Machine/Engine.lean ====
section
/-!
DEFINITION. Engine.lean: what the engines share: the operands of tile commands (R156, R165 to R171), translations,
reads of sources and writes of destinations (R160 to R162), ownership (R349), and completion (R158, R159).
-/
namespace Sys2Proof.Machine
open Sys2Proof

/-! ## Commands -/

/-- R67: the kind of a tile command. -/
def Cmd.kind (c : Cmd) : Nat :=
  match c.instr with
  | .mma _ _ _ => 0
  | .copy _ _ _ => 1
  | .gath _ _ _ => 2
  | .coll _ _ _ => 3
  | .fill _ _ _ => 4
  | _ => 5

/-- R156: payload word 1. -/
def Cmd.word1 (c : Cmd) : Cpl :=
  match c.instr with
  | .mma _ w _ | .copy _ w _ | .gath _ w _ | .coll _ w _ | .fill _ w _ | .enc8 _ w _ => w
  | _ => { cpl := 0#7, val := 0#7, ms := 0#7, mode := 0#2 }

/-- R153: the value of a register as it was read at issue. -/
def Cmd.reg (c : Cmd) (r : BitVec 7) : Word := if r = 0#7 then 0#64 else (Map.get? c.regs r.toNat).getD 0#64

/-- R154: an ENGINE fault: the reason and the offending address. -/
def engineFault (c : Cmd) (reason : Nat) (va : Word) : FaultInfo :=
  mkFault fcEngine va (BitVec.ofNat 64 (c.kind + 256 * reason))

/-- R159: cut short at an address. -/
def cutStatus (va : Word) : Word := (va >>> 16) <<< 16 ||| 16#64

/-! ## Addresses -/

/-- [va, va + n) cut at 64 KiB boundaries. -/
def pageChunks (va : Word) (n : Nat) : List (Word × Nat) :=
  let a := va.toNat
  (List.range ((a % 65536 + n + 65535) / 65536)).map (fun i =>
    let lo := if i = 0 then a else (a / 65536 + i) * 65536
    (BitVec.ofNat 64 lo, Nat.min (a + n) ((a / 65536 + i + 1) * 65536) - lo))

/-- The place n bytes before. -/
def Place.back (p : Place) (n : Nat) : Place :=
  match p with
  | .spad c off => .spad c (off - n)
  | .cw q off => .cw q (off - n)
  | .dev off => .dev (off - n)
  | .page k pkg pa => .page k pkg (pa - n)

/-- R154 order 3: whether the class of an address is one that engines accept, at or above XB; `own` demands the
own scratchpad. -/
def classOk (s : State) (c : Nat) (va : Word) (own : Bool) : Bool :=
  match classOf va with
  | .own off => decide ((s.core c).xb ≤ off) && !undoRegion (s.core c) off
  | .cluster idx off =>
    !own && (match peerOf s c idx with
      | some q => decide ((s.core q).xb ≤ off) && !undoRegion (s.core q) off
      | none => false)
  | .paged => !own
  | _ => false

/-- R384: a piece cut where the undo log of a scratchpad begins. -/
def logSplit (x : Word × Nat) : List (Word × Nat) :=
  let log := x.1.toNat / 0x20000 * 0x20000 + 0x1E000
  if x.1.toNat < log && log < x.1.toNat + x.2 then
    [(x.1, log - x.1.toNat), (BitVec.ofNat 64 log, x.1.toNat + x.2 - log)]
  else [x]

/-- The pieces of some ranges within which a class and a page do not change. -/
def touched (rs : List (Word × Nat)) : List (Word × Nat) := (rs.flatMap (fun r => pageChunks r.1 r.2)).flatMap logSplit

/-- The least of some addresses. -/
def leastWord (l : List Word) : Option Word :=
  l.foldl (fun best w => match best with
    | none => some w
    | some b => if w.toNat < b.toNat then some w else some b) none

/-- R154 order 3: the first address of an operand's ranges whose class is refused. -/
def classBad (s : State) (c : Nat) (own : Bool) (rs : List (Word × Nat)) : Option Word :=
  leastWord (((touched rs).map (·.1)).filter (fun va => !classOk s c va own))

/-- The first address of each 64 KiB page that some ranges touch, and of each undo log. -/
def pageFirsts (rs : List (Word × Nat)) : Map Word :=
  (touched rs).foldl (fun m x =>
    let n := 2 * (x.1.toNat / 65536) + (if 0x1E000 ≤ x.1.toNat % 0x20000 then 1 else 0)
    match Map.get? m n with
    | some w => if x.1.toNat < w.toNat then Map.set m n x.1 else m
    | none => Map.set m n x.1) []

/-- A place of a command's translations. -/
def Cmd.placeAt (c : Cmd) (va : Word) : Option Place :=
  (c.dst.find? (fun x => x.1 = va.toNat / 65536)).map (fun x => x.2.add (va.toNat % 65536))

/-- R161, R165 to R171: the page kinds that a command accepts, as a source and as a destination. -/
def srcKind (kind : Nat) (k : PageKind) : Bool :=
  match k with
  | .priv | .coherent => true
  | .readShared => kind != 3
  | .remotePosted | .hostCoherent | .hostNoncoherent => kind = 1 || kind = 2
  | .device => false

def dstKind (kind : Nat) (k : PageKind) : Bool :=
  match k with
  | .priv | .coherent => true
  | .remotePosted | .hostCoherent | .hostNoncoherent => kind = 1 || kind = 2 || kind = 4
  | .readShared | .device => false

/-- The place of an address of a class without pages, as it was checked at acceptance. -/
def localPlace (s : State) (c : Nat) (va : Word) : Option Place :=
  match classOf va with
  | .own off => some (.spad c off)
  | .cluster idx off => (peerOf s c idx).map (fun q => .spad q off)
  | _ => none

/-- R329: a page of a command translated, in one act: its leaf, or the fault. -/
def engLeaf (s : State) (c : Cmd) (va : Word) (write : Bool) : State × Except FaultInfo Tlb :=
  match classOf va with
  | .paged => translate s (coreWs s c.core) c.part c.proc va write
  | _ => (s, .error (prot va 1))

/-- R161, R162, R221: the place of a source address as the engine reaches it; none when it fails. -/
def srcPlace (s : State) (c : Cmd) (va : Word) : State × Option Place :=
  match localPlace s c.core va with
  | some p => (s, if classOk s c.core va false then some p else none)
  | none => match engLeaf s c va false with
    | (s, .error _) => (s, none)
    | (s, .ok t) =>
      if !srcKind c.kind t.kind then (s, none)
      else match checkPage s c.part va .ld t with
        | .ok p => (s, some p)
        | .error _ => (s, none)

/-- R375: bytes at a place, and which of them are poisoned: words of a scratchpad singly, a line as a whole. -/
def readMarked (s : State) (c : Nat) (p : Place) (n : Nat) : List Byte × List Bool :=
  let v := readPlace s c p n
  (v.1, match p with
    | .spad q off => (List.range n).map (fun i => v.2 && (readPlace s c (.spad q (off + i)) 1).2)
    | _ => List.replicate n v.2)

/-- R162, R375: source bytes read line by line, and which of them are poisoned; or the address that failed. -/
def engRead (s : State) (c : Cmd) : List (Word × Nat) → State × Except Word (List Byte × List Bool)
  | [] => (s, .ok ([], []))
  | (va, n) :: l =>
    match srcPlace s c va with
    | (s, none) => (s, .error va)
    | (s, some p) =>
      let v := readMarked s c.core p n
      match engRead { s with free := s.free + 1 } c l with
      | (s, .error w) => (s, .error w)
      | (s, .ok (bs, ps)) => (s, .ok (v.1 ++ bs, v.2 ++ ps))

/-! ## Destinations (R161) -/

/-- What a command writes in an owned line is kept until its EW. -/
def bufPut (m : Map LineBuf) (line off : Nat) (bytes : List Byte) (poison : Bool) : Map LineBuf :=
  let b := (Map.get? m line).getD { data := List.replicate 64 0#8, mask := 0#64, poison := false }
  Map.set m line { data := patch b.data off bytes
                   mask := b.mask ||| (BitVec.ofNat 64 (2 ^ bytes.length - 1)) <<< off
                   poison := b.poison || poison }

/-- R161: an engine's write of a private line: the issuing core's copy goes home first. -/
def engPriv (s : State) (c pa : Nat) (bytes : List Byte) (poison : Bool) : State :=
  let base := pa / 64 * 64
  let l := privLine s c base
  let s := s.modCore c (fun k => { k with l1 := Map.erase k.l1 (lineKey s base) })
  writePriv s c base (patch l.1 (pa - base) bytes) (poison || (l.2 && bytes.length != 64))

/-- R160, R363: the milestone that a command's packet carries to a package. -/
def Cmd.msFor (c : Cmd) (pkg : Nat) : Option Nat := c.ms.filter (fun a => a / 2 ^ 50 = pkg)

/-- Every source of a command has been read (R125). -/
def sourcesDone (s : State) (id : Nat) : State :=
  match Map.get? s.cmds id with
  | none => s
  | some c => recheckFence (modCmd s id (fun c => { c with sourcesRead := true })) c.thread

/-- R159, R161: a failure stops the command at an address; the first failure is the one reported. -/
def cutCmd (s : State) (id : Nat) (va : Word) : State :=
  modCmd s id (fun c => { c with
    stopped := true, todo := []
    status := if c.status.getLsbD 4 then c.status else c.status ||| cutStatus va })

/-- R161: a command stops at an address. -/
def stopAt (s : State) (id : Nat) (va : Word) : State :=
  (sourcesDone (cutCmd s id va) id).post (.engineComplete id)

/-- The address by which a command reaches a byte of a scratchpad. -/
def Cmd.spadVa (c : Cmd) (q off : Nat) : Word :=
  match c.dst.find? (fun x => match x.2 with
      | .spad k base => k = q && decide (base ≤ off) && decide (off < base + 65536)
      | _ => false) with
  | some (n, .spad _ base) => BitVec.ofNat 64 (65536 * n + (off - base))
  | _ => BitVec.ofNat 64 off

/-- One piece of a destination written: at most a line, a word of a scratchpad, or for a remote page at most 256 bytes in
one packet. A scratchpad word that is no longer data (R221) stops the command. -/
def engWrite (s : State) (id : Nat) (p : Place) (bytes : List Byte) (poison : Bool) : State :=
  match Map.get? s.cmds id with
  | none => s
  | some c =>
    match p with
    | .page .coherent _ pa =>
      modCmd s id (fun c => { c with buf := bufPut c.buf (pa / 64) (pa % 64) bytes poison })
    | .page .priv _ pa => engPriv s c.core pa bytes poison
    | .page .remotePosted pkg pa =>
      modCmd (sendPosted s (domAddr pkg pa) c.part (c.msFor pkg) bytes poison (some c.thread) (some id)) id
        (fun c => { c with unacked := c.unacked ++ [s.fresh] })
    | .spad q off =>
      if c.stopped && c.status.getLsbD 4 then s
      else if off < (s.core q).xb || undoRegion (s.core q) off then stopAt s id (c.spadVa q off)
      else writePlace (feFirst s q off bytes.length) c.core p bytes poison
    | _ => writePlace s c.core p bytes poison

/-- R161: the bytes up to the end of a piece at a place: a line, a word of a scratchpad, a packet. -/
def pieceRoom (p : Place) : Nat :=
  match p with
  | .page .remotePosted _ pa => 256 - pa % 256
  | .spad _ off => 8 - off % 8
  | p => 64 - p.off % 64

/-! ## Ownership (R161, R349) -/

/-- The coherent lines of this package in the ranges of a command, ascending. -/
def coherentLines (c : Cmd) (rs : List (Word × Nat)) : List Nat :=
  (rs.flatMap (fun r => pageChunks r.1 r.2)).foldl (fun ls x =>
    match c.placeAt x.1 with
    | some (.page .coherent _ pa) =>
      (List.range ((pa % 64 + x.2 + 63) / 64)).foldl (fun ls i => insertNat (pa / 64 + i) ls) ls
    | _ => ls) []

/-- The private lines of this package in the ranges of a command. -/
def privateLines (c : Cmd) (rs : List (Word × Nat)) : List Nat :=
  (rs.flatMap (fun r => pageChunks r.1 r.2)).foldl (fun ls x =>
    match c.placeAt x.1 with
    | some (.page .priv _ pa) =>
      (List.range ((pa % 64 + x.2 + 63) / 64)).foldl (fun ls i => insertNat (pa / 64 + i) ls) ls
    | _ => ls) []

/-- R349: EW for the owned lines that the command writes, REL for the others. -/
def flushOwned (s : State) (c : Cmd) : List Nat → State
  | [] => s
  | l :: ls =>
    flushOwned (sendMsg s { mkMsg s (if Map.has c.buf l then .ew else .rel) l c.agent with cmd := some c.id }) c ls

/-- R349: whether a line is owned for a command. -/
def ownedBy (e : DirEntry) (m : Msg) : Bool := e.st = .o && e.cmd = m.cmd

/-- R161: the line's new contents: the bytes of the command over what the home holds. -/
def mergeBuf (old : List Byte) (b : LineBuf) : List Byte :=
  (List.range 64).map (fun i => if b.mask.getLsbD i then b.data.getD i 0#8 else old.getD i 0#8)

/-- An EW or REL reaches the home of its line: the line is written, or not, and held requests proceed. One whose
line is no longer owned is refused (R353). -/
def ownEnd (s : State) (m : Msg) : State :=
  match m.cmd with
  | none => s
  | some id =>
    let e := dirOf s m.line
    if !ownedBy e m || m.gen != keptGen s m.line m.agent then sendMsg s { m with kind := .nack, keep := true }
    else
      let s := match (Map.get? s.cmds id).bind (fun c => Map.get? c.buf m.line) with
        | some b => if m.kind = .ew then
            homeStore s (64 * m.line) (mergeBuf (Mem.readN s.mem (64 * m.line) 64) b)
              (b.poison || (s.poison.contains m.line && b.mask != BitVec.allOnes 64))
          else s
        | none => s
      let s := putDir s m.line { dirOf s m.line with st := .i, ptrs := [], cmd := none }
      unblock (disownLine (serveAll s m.line) m.line id)

/-- EW (R345, R349). -/
def execEw (line id : Nat) (s : State) : Host.Outcome State Fault Refusal :=
  arrive s (.ew line id) (fun m => m.kind = .ew && m.line = line && m.cmd = some id) ownEnd

/-- REL (R345, R349). -/
def execRel (line id : Nat) (s : State) : Host.Outcome State Fault Refusal :=
  arrive s (.rel line id) (fun m => m.kind = .rel && m.line = line && m.cmd = some id) ownEnd

/-! ## Engines (R152) and the end of a command (R155, R158) -/

/-- The commands that the same engine serves. -/
def sameEngine (s : State) (c d : Cmd) : Bool :=
  match c.kind with
  | 0 => d.kind = 0 && d.core = c.core
  | 3 => d.kind = 3 && coreCluster d.core = coreCluster c.core
  | _ => d.kind != 0 && d.kind != 3 && coreLeaf s d.core = coreLeaf s c.core

/-- R152: the commands an engine holds at once. -/
def engineRoom (c : Cmd) : Nat :=
  match c.kind with
  | 0 => 1
  | 3 => 128
  | _ => 64

/-- R152: the first command that waits for an engine looks again. -/
def nextCmd (s : State) (c : Cmd) : State :=
  match s.cmds.find? (fun x => sameEngine s c x.2 && !x.2.accepted) with
  | some x => s.post (.engineAccept x.1)
  | none => s

/-- R153: a command that failed a check is discarded, and its thread faults. -/
def rejectCmd (s : State) (c : Cmd) (f : FaultInfo) : State :=
  let s := { s with cmds := Map.erase s.cmds c.id }
  let s := match waitOf s c.thread with
    | some (.tile id) => if id = c.id then takeFault s c.thread.core c.thread.slot f else s
    | _ => s
  drainNext (nextCmd s c) c.part

/-- R158: the pair of a completion. -/
def Cmd.pair (c : Cmd) : List Byte := wordBytes (c.reg c.word1.val) ++ wordBytes c.status

/-- R158: the completion of a command is written, where that is one act. -/
def writeCompletion (s : State) (c : Cmd) : State :=
  match c.word1.mode.toNat, c.cpl with
  | 1, some (.page .hostNoncoherent pkg pa) =>
    writePlace s c.core (.page .hostNoncoherent pkg pa) (wordBytes (c.reg c.word1.val)) false
  | 1, some (.page .priv _ pa) => engPriv s c.core pa c.pair false
  | 1, some (.spad q off) => writePlace (feFirst s q off 16) c.core (.spad q off) c.pair false
  | 1, some p => writePlace s c.core p c.pair false
  | _, _ =>
    if c.status = 0#64 then s
    else logEvent s (coreBank c.core) c.part 2 0x8007#16 0#64 (handleOf s c.thread.core c.thread.slot) c.status
      (cycWord s c.core)

/-- A command is over: its thread goes on if it is MMA, its group, and what waited for its engine or its lines. -/
def endCmd (s : State) (c : Cmd) : State :=
  let s := { s with cmds := Map.erase s.cmds c.id }
  let s := if c.kind = 0 then
      (match waitOf s c.thread with
       | some (.tile id) => if id = c.id then finishWait s c.thread.core c.thread.slot else s
       | _ => s)
    else endOp s c.gid
  let s := recheckFence (postWaiting s) c.thread
  let s := if c.priv.isEmpty then s else unblock (pumpThreads s (coreThreads s c.core))
  drainNext (nextCmd s c) c.part

/-- R155, R158: the completion of a command, after every destination byte has been performed; the command is over once
it has been performed itself: a pair on another package and an arrival where they go, the two writes of a pair in host
memory one after the other, any other in its turn at the line's home (R164, R346). -/
def completeCmd (s : State) (c : Cmd) : State :=
  let ending := fun (s : State) (id : Nat) => modCmd s c.id (fun c => { c with ending := true, unacked := c.unacked ++ [id] })
  match c.word1.mode.toNat, c.cpl with
  | 1, some (.page .remotePosted pkg pa) =>
    ending (sendPosted s (domAddr pkg pa) c.part none c.pair false none (some c.id)) s.fresh
  | 2, some p => ending (sendBar s 2 p c.status none (some c.id)) s.fresh
  | 1, some (.page .hostNoncoherent pkg pa) =>
    (modCmd (writePlace s c.core (.page .hostNoncoherent pkg (pa + 8)) (wordBytes c.status) false) c.id
      (fun c => { c with ending := true })).post (.engineComplete c.id)
  | 1, some p => atPlace s (.engineComplete c.id) p true false (fun s => endCmd (writeCompletion s c) c)
  | _, _ => endCmd (writeCompletion s c) c

/-- R158: whether the completion of a command has a second write. -/
def Cmd.second (c : Cmd) : Bool :=
  match c.word1.mode.toNat, c.cpl with
  | 1, some (.page .hostNoncoherent _ _) => true
  | _, _ => false

/-- R158: a command that has nothing more to move sends its owned lines home, waits until every destination byte
has been performed, and completes. -/
def finishCmd (s : State) (c : Cmd) : State :=
  if !c.flushed then
    let s := flushOwned (modCmd s c.id (fun c => { c with flushed := true })) c c.owned
    if c.owned.isEmpty then s.post (.engineComplete c.id) else s
  else if !c.owned.isEmpty || !c.unacked.isEmpty then s
  else if c.ending then endCmd (if c.second then writeCompletion s c else s) c
  else completeCmd s c

end Sys2Proof.Machine
end

