-- ==== Sys2Proof/Machine/Tile.lean ====
section
/-!
DEFINITION. Tile.lean: tile commands: their issue (R153), the checks at acceptance (R154), and what each kind does
(R163 to R172, R396).
-/
namespace Sys2Proof.Machine
open Sys2Proof

/-! ## Issue (R153) -/

/-- R153: the command goes to its engine, and the thread waits. -/
def startCmd (i : Instr) (regs : List (BitVec 7)) (leafUnit : Bool) (c slot : Nat) (t : Thread) (s : State) :
    State :=
  let id := s.fresh
  let cmd : Cmd := { id := id, instr := i, thread := ⟨c, slot⟩, core := c, gid := t.gid, lid := t.lid,
                     regs := regs.foldl (fun m r => Map.set m r.toNat (t.gv r.toNat)) []
                     part := t.part, proc := t.proc, geom0 := t.geom0, geom1 := t.geom1,
                     agent := if leafUnit then 0xD00 + coreLeaf s c else 0xE00 + coreCluster c }
  ((beginWait ({ s with cmds := Map.set s.cmds id cmd } : State).bump c slot .waiting (.tile id))).post
    (.engineAccept id)

/-- The issue of a tile command that names these registers after those of word 1. -/
def issueTile (i : Instr) (g : BitVec 3) (w : Cpl) (rest : List (BitVec 7)) (leafUnit : Bool) :
    State → Host.Outcome State Fault Refusal :=
  let regs := [w.cpl, w.val, w.ms] ++ rest
  issue i { guard := g, len := 32, g := regs.map (·.toNat), reads := regs.map (·.toNat), drain := true,
            commit := fun _ => true }
    (startCmd i regs leafUnit)

/-- MMA (R153, R163). -/
def execMma (g : BitVec 3) (w : Cpl) (x : MmaArgs) : State → Host.Outcome State Fault Refusal :=
  issueTile (.mma g w x) g w [x.c, x.a, x.b, x.k, x.lda, x.ldb, x.sa, x.sb, x.ia, x.ib] true

/-- COPY (R153, R165). -/
def execCopy (g : BitVec 3) (w : Cpl) (x : CopyArgs) : State → Host.Outcome State Fault Refusal :=
  issueTile (.copy g w x) g w [x.dst, x.src, x.rows, x.rowb, x.ss, x.ds] true

/-- GATH (R153, R166). -/
def execGath (g : BitVec 3) (w : Cpl) (x : GathArgs) : State → Host.Outcome State Fault Refusal :=
  issueTile (.gath g w x) g w [x.dst, x.src, x.idx, x.n, x.rowb, x.ss, x.ds] true

/-- COLL (R153, R167). -/
def execColl (g : BitVec 3) (w : Cpl) (x : CollArgs) : State → Host.Outcome State Fault Refusal :=
  issueTile (.coll g w x) g w [x.dst, x.src, x.n, x.tag, x.root] false

/-- FILL (R153, R165). -/
def execFill (g : BitVec 3) (w : Cpl) (x : FillArgs) : State → Host.Outcome State Fault Refusal :=
  issueTile (.fill g w x) g w [x.dst, x.pat, x.rows, x.rowb, x.ds] true

/-- ENC8 (R153, R171). -/
def execEnc8 (g : BitVec 3) (w : Cpl) (x : Enc8Args) : State → Host.Outcome State Fault Refusal :=
  issueTile (.enc8 g w x) g w [x.dat, x.src, x.rows, x.kk, x.stride, x.idx, x.sc, x.off] true

/-! ## Shapes -/

/-- The value of a register as a number. -/
def Cmd.num (c : Cmd) (r : BitVec 7) : Nat := (c.reg r).toNat

/-- R167: the groups of the band, and the rank of the command's. -/
def partiesOf (s : State) (c : Cmd) : Nat :=
  match s.launch? c.lid with
  | some l => l.hdr.extents.getD l.hdr.gfield 1
  | none => 1

def rankOf (s : State) (c : Cmd) : Nat := ((s.group? c.gid).map (·.rank)).getD 0

/-- R163: rows and columns that the edges leave. -/
def mmaRows (c : Cmd) (x : MmaArgs) : List Nat :=
  (List.range 32).filter (fun i =>
    !x.edge || decide (32 * bitsOf c.geom1.toNat 0 32 + i < bitsOf c.geom0.toNat 0 21))

def mmaCols (c : Cmd) (x : MmaArgs) : List Nat :=
  (List.range 32).filter (fun j =>
    !x.edge || decide (32 * bitsOf c.geom1.toNat 32 32 + j < bitsOf c.geom0.toNat 21 21))

/-- `n` pieces of `w` bytes, one every `st` bytes. -/
def rowRanges (base : Word) (n : Nat) (st : Word) (w : Nat) : List (Word × Nat) :=
  (List.range n).map (fun r => (base + BitVec.ofNat 64 r * st, w))

/-- R171: steps of ENC8, and the start of its data. -/
def encSteps (c : Cmd) (x : Enc8Args) : Nat := c.num x.kk / 64
def encOff (c : Cmd) (x : Enc8Args) : Nat := c.num x.off % 2 ^ 32
def encElem (x : Enc8Args) : Nat := if x.bf16 then 2 else 4

/-- R154 order 1: the limits on counts and shapes. -/
def badShape (s : State) (c : Cmd) : Bool :=
  let out := fun (n lo hi m : Nat) => n < lo || hi < n || n % m != 0
  match c.instr with
  | .mma _ _ x => out (c.num x.k) 64 4096 64
  | .copy _ _ x => out (c.num x.rows) 1 65536 1 || out (c.num x.rowb) 8 (2 ^ 24) 8
  | .fill _ _ x => out (c.num x.rows) 1 65536 1 || out (c.num x.rowb) 8 (2 ^ 24) 8
  | .gath _ _ x => out (c.num x.n) 1 65536 1 || out (c.num x.rowb) 8 65536 8
  | .coll _ _ x => out (c.num x.n) 8 (2 ^ 20) 8 || decide (partiesOf s c ≤ c.num x.root)
  | .enc8 _ _ x => out (c.num x.rows) 32 65536 32 || out (c.num x.kk) 64 65536 64 ||
      decide (2 ^ 32 - 1 < encOff c x + 65 * c.num x.rows * encSteps c x)
  | _ => false

/-- R154 order 2: values, their alignments, and whether each is an address. -/
def alignments (c : Cmd) : List (Word × Nat × Bool) :=
  let w := c.word1
  let head := if w.mode = 0#2 then [] else [(c.reg w.cpl, if w.mode = 1#2 then 16 else 32, true)]
  head ++ match c.instr with
  | .mma _ _ x =>
    let e := fun (f : BitVec 3) (r : BitVec 7) (a : Bool) =>
      if f = 2#3 then [] else [(c.reg r, mmaSize f.toNat, a)]
    let four := fun (r : BitVec 7) => if r = 0#7 then [] else [(c.reg r, 4, true)]
    [(c.reg x.c, 64, true)] ++ e x.fa x.a true ++ e x.fb x.b true ++ e x.fa x.lda false ++ e x.fb x.ldb false ++
      four x.sa ++ four x.sb ++ four x.ia ++ four x.ib
  | .copy _ _ x =>
    [(c.reg x.dst, 8, true), (c.reg x.src, 8, true)] ++
      (if c.num x.rows = 1 then [] else [(c.reg x.ss, 8, false), (c.reg x.ds, 8, false)])
  | .fill _ _ x => (c.reg x.dst, 8, true) :: (if c.num x.rows = 1 then [] else [(c.reg x.ds, 8, false)])
  | .gath _ _ x =>
    [(c.reg x.dst, 8, true), (c.reg x.src, 8, true), (c.reg x.idx, 4, true), (c.reg x.ss, 8, false),
      (c.reg x.ds, 8, false)]
  | .coll _ _ x => [(c.reg x.dst, 8, true), (c.reg x.src, 8, true)]
  | .enc8 _ _ x =>
    [(c.reg x.src, encElem x, true), (c.reg x.stride, encElem x, false), (c.reg x.idx, 4, true),
      (c.reg x.sc, 4, true)]
  | _ => []

/-- R163: the index entries that the lines of an EC8 operand read, and the address of entry `t` of line `i`. -/
def entryAt (c : Cmd) (ix ld : BitVec 7) (i t : Nat) : Word :=
  c.reg ix + 4#64 * (BitVec.ofNat 64 i * c.reg ld + BitVec.ofNat 64 t)

def entryRanges (c : Cmd) (ix ld : BitVec 7) (ls : List Nat) (steps : Nat) : List (Word × Nat) :=
  ls.map (fun i => (entryAt c ix ld i 0, 4 * (steps + 1)))

/-- R163: the lines of an operand that is not EC8. -/
def lineRanges (c : Cmd) (a ld : BitVec 7) (ls : List Nat) (bytes : Nat) : List (Word × Nat) :=
  ls.map (fun i => (c.reg a + BitVec.ofNat 64 i * c.reg ld, bytes))

/-- R161, R171: the destination ranges of a command of kinds 1 to 5; a scatter has none at acceptance. -/
def dstRanges (s : State) (c : Cmd) : List (Word × Nat) :=
  match c.instr with
  | .copy _ _ x => rowRanges (c.reg x.dst) (c.num x.rows) (c.reg x.ds) (c.num x.rowb)
  | .fill _ _ x => rowRanges (c.reg x.dst) (c.num x.rows) (c.reg x.ds) (c.num x.rowb)
  | .gath _ _ x => if x.scat then [] else rowRanges (c.reg x.dst) (c.num x.n) (c.reg x.ds) (c.num x.rowb)
  | .coll _ _ x =>
    if x.op = 1#2 && rankOf s c != c.num x.root then []
    else [(c.reg x.dst, c.num x.n * (if x.op = 3#2 then partiesOf s c else 1))]
  | .enc8 _ _ x =>
    let blocks := c.num x.rows * encSteps c x
    [(c.reg x.dat + BitVec.ofNat 64 (encOff c x), 65 * blocks), (c.reg x.idx, 4 * (blocks + 1)),
      (c.reg x.sc, 4 * (c.num x.rows / 32 * encSteps c x))]
  | _ => []

/-- R154 order 3: the operands in the order of their slots: their ranges, and whether the own scratchpad must
hold them. Rows that an index list names are judged when they are reached; here only their base. -/
def operands (s : State) (c : Cmd) : List (Bool × List (Word × Nat)) :=
  let w := c.word1
  let head := if w.mode = 0#2 then [] else [(false, [(c.reg w.cpl, if w.mode = 1#2 then 16 else 32)])]
  head ++ match c.instr with
  | .mma _ _ x =>
    let steps := c.num x.k / 64
    let opnd := fun (f : BitVec 3) (a ld : BitVec 7) (ls : List Nat) =>
      (false, if f = 2#3 then (if ls.isEmpty then [] else [(c.reg a, 1)])
              else lineRanges c a ld ls (c.num x.k * mmaSize f.toNat))
    let scale := fun (r : BitVec 7) => (false, if r = 0#7 then [] else [(c.reg r, 4 * steps)])
    let index := fun (r ld : BitVec 7) (ls : List Nat) =>
      (false, if r = 0#7 then [] else entryRanges c r ld ls steps)
    [(true, [(c.reg x.c, 1024 * accSize x.fa.toNat)]), opnd x.fa x.a x.lda (mmaRows c x),
      opnd x.fb x.b x.ldb (mmaCols c x), scale x.sa, scale x.sb, index x.ia x.lda (mmaRows c x),
      index x.ib x.ldb (mmaCols c x)]
  | .copy _ _ x =>
    [(false, dstRanges s c), (false, rowRanges (c.reg x.src) (c.num x.rows) (c.reg x.ss) (c.num x.rowb))]
  | .fill _ _ _ => [(false, dstRanges s c)]
  | .gath _ _ x =>
    let list := (false, [(c.reg x.idx, 4 * c.num x.n)])
    if x.scat then
      [(false, [(c.reg x.dst, 1)]), (false, rowRanges (c.reg x.src) (c.num x.n) (c.reg x.ss) (c.num x.rowb)), list]
    else [(false, dstRanges s c), (false, [(c.reg x.src, 1)]), list]
  | .coll _ _ x =>
    [(false, [(c.reg x.dst, c.num x.n * (if x.op = 3#2 then partiesOf s c else 1))]),
      (false, [(c.reg x.src, c.num x.n)])]
  | .enc8 _ _ x =>
    match dstRanges s c with
    | [d, i, sc] => [(false, [d]),
        (false, rowRanges (c.reg x.src) (c.num x.rows) (c.reg x.stride) (c.num x.kk * encElem x)), (false, [i]),
        (false, [sc])]
    | _ => []
  | _ => []

/-! ## The checks at acceptance (R154) -/

/-- R154 orders 1 to 3: what the registers' values alone decide. -/
def shapeFault (s : State) (c : Cmd) : Option FaultInfo :=
  if badShape s c then some (engineFault c 2 0#64)
  else match (alignments c).find? (fun x => x.1.toNat % x.2.1 != 0) with
    | some x => some (engineFault c 4 (if x.2.2 then x.1 else 0#64))
    | none => ((operands s c).filterMap (fun o => classBad s c.core o.1 o.2)).head?.map (engineFault c 3)

/-- R154 order 4, R158: the place of the completion pair or the barrier object. -/
def cplPlace (s : State) (c : Cmd) : State × Except FaultInfo (Option Place) :=
  let w := c.word1
  let va := c.reg w.cpl
  if w.mode = 0#2 then (s, .ok none)
  else match localPlace s c.core va with
    | some p => (s, .ok (some p))
    | none => match engLeaf s c va true with
      | (s, .error f) => (s, .error f)
      | (s, .ok t) => match checkPage s c.part va .std t with
        | .error f => (s, .error f)
        | .ok (.dev _) => (s, .error (engineFault c 3 va))
        | .ok p =>
          if w.mode = 2#2 && t.kind != .coherent then (s, .error (engineFault c 3 va))
          else (s, .ok (some p))

/-- R154 order 4, R160, R365: the milestone word. -/
def msPlace (s : State) (c : Cmd) : State × Except FaultInfo (Option Nat) :=
  let w := c.word1
  if w.ms = 0#7 then (s, .ok none)
  else match pmsTranslate s c.core { part := c.part, proc := c.proc } (c.reg w.ms) with
    | (s, .error f) => (s, .error (if f.code = fcProt then prot f.addr 3 else f))
    | r => r

/-- R161: a page of a command, in the list of its translations. -/
def Cmd.addPage (c : Cmd) (va : Word) (p : Place) : Cmd :=
  if c.dst.any (fun x => x.1 = va.toNat / 65536) then c
  else { c with dst := c.dst ++ [(va.toNat / 65536, p.back (va.toNat % 65536))] }

/-- R154 order 5, R163: the pages that MMA reads, in ascending order; the first failure decides. A block of an EC8 operand
may lie in a class that is not accepted. -/
def coverSrc (s : State) (c : Cmd) : List Word → State × Except FaultInfo Cmd
  | [] => (s, .ok c)
  | va :: l =>
    if !classOk s c.core va false then (s, .error (engineFault c 3 va))
    else match localPlace s c.core va with
    | some p => coverSrc s (c.addPage va p) l
    | none => match engLeaf s c va false with
      | (s, .error f) => (s, .error f)
      | (s, .ok t) =>
        if !srcKind c.kind t.kind then (s, .error (engineFault c 3 va))
        else match checkPage s c.part va .ld t with
          | .error f => (s, .error f)
          | .ok p => coverSrc s (c.addPage va p) l

/-- The bytes of a range whose pages a command has translated, read line by line, and which of them are poisoned. -/
def cmdMarked (s : State) (c : Cmd) (va : Word) (n : Nat) : List Byte × List Bool :=
  let ps := (pieces va.toNat (List.replicate n 0#8)).map (fun x =>
    match c.placeAt (va + BitVec.ofNat 64 x.1) with
    | some p => readMarked s c.core p x.2.length
    | none => (x.2, List.replicate x.2.length false))
  (ps.flatMap (·.1), ps.flatMap (·.2))

/-- The bytes of such a range, and whether any is poisoned. -/
def cmdRead (s : State) (c : Cmd) (va : Word) (n : Nat) : List Byte × Bool :=
  let v := cmdMarked s c va n
  (v.1, v.2.any id)

/-- The key under which an index entry is kept: operand, line, number. -/
def entryKey (o i t : Nat) : Nat := o * 65536 + i * 1024 + t

/-- R154 order 5: the index entries of one line at `va`, once its pages are found, or the failure met. -/
def takeIndex (c : Cmd) (o steps i : Nat) (va : Word) (x : State × Except FaultInfo Cmd) :
    State × Cmd × Option FaultInfo :=
  match x with
  | (s, .error f) => (s, c, some f)
  | (s, .ok c) =>
    let v := cmdMarked s c va (4 * (steps + 1))
    let es := elements 4 v.1
    (s, { c with index := (List.range (steps + 1)).foldl (fun m t =>
      Map.set m (entryKey o i t) (es.getD t 0, ((v.2.drop (4 * t)).take 4).any id)) c.index }, none)

/-- R154 order 5: the index entries of one line of an operand are read, or the failure they meet. -/
def indexLine (s : State) (c : Cmd) (o : Nat) (ix ld : BitVec 7) (steps i : Nat) :
    State × Cmd × Option FaultInfo :=
  let va := entryAt c ix ld i 0
  takeIndex c o steps i va (coverSrc s c ((pageFirsts [(va, 4 * (steps + 1))]).map (·.2)))

/-- R154: of two failures the one at the lower address is kept. -/
def lowerIndexFault (f g : Option FaultInfo) : Option FaultInfo :=
  match f, g with
  | none, g => g
  | some f, none => some f
  | some f, some g => if g.addr.toNat < f.addr.toNat then some g else some f

/-- R154 order 5: the index entries of the lines of an operand are read; the failure at the lowest address is
kept. -/
def readEntries (s : State) (c : Cmd) (o : Nat) (ix ld : BitVec 7) (steps : Nat) :
    List Nat → State × Cmd × Option FaultInfo
  | [] => (s, c, none)
  | i :: ls =>
    let x := indexLine s c o ix ld steps i
    let y := readEntries x.1 x.2.1 o ix ld steps ls
    (y.1, y.2.1, lowerIndexFault x.2.2 y.2.2)

/-- R52, R53: where a block begins and its span in whole numbers, and whether an entry is poisoned. -/
def blockOf (c : Cmd) (o i t : Nat) : Option (Nat × Nat × Bool) :=
  match Map.get? c.index (entryKey o i t), Map.get? c.index (entryKey o i (t + 1)) with
  | some a, some b => some (a.1, b.1 - a.1, a.2 || b.2)
  | _, _ => none

/-- R154 order 5: the bytes of the blocks of an EC8 operand that are read. -/
def blockRangesOf (c : Cmd) (o : Nat) (a : BitVec 7) (steps : Nat) (ls : List Nat) : List (Word × Nat) :=
  (ls.flatMap (fun i => (List.range steps).filterMap (fun t => blockOf c o i t))).filterMap (fun b =>
    if b.2.1 = 0 then none else some (c.reg a + BitVec.ofNat 64 b.1, Nat.min b.2.1 281))

/-- R154 order 5: the operands one after another, in the order of their slots. -/
def coverAll (s : State) (c : Cmd) : List (List (Word × Nat)) → State × Except FaultInfo Cmd
  | [] => (s, .ok c)
  | rs :: l =>
    match coverSrc s c ((pageFirsts rs).map (·.2)) with
    | (s, .error f) => (s, .error f)
    | (s, .ok c) => coverAll s c l

/-- R154 order 6, R49: the scales of the steps, read at acceptance. -/
def readScales (s : State) (c : Cmd) (sa sb : BitVec 7) : List Nat → Except FaultInfo (List (Nat × Nat × Bool))
  | [] => .ok []
  | t :: ts =>
    let at_ := fun (r : BitVec 7) => c.reg r + BitVec.ofNat 64 (4 * t)
    let rd := fun (r : BitVec 7) =>
      if r = 0#7 then (0x3F800000, false) else let v := cmdRead s c (at_ r) 4; (leNat v.1, v.2)
    let a := rd sa
    let b := rd sb
    let bad := fun (r : BitVec 7) (w : Nat) => mkFault fcScale (at_ r) (BitVec.ofNat 64 w)
    if !scaleOk a.1 then .error (bad sa a.1)
    else if !scaleOk b.1 then .error (bad sb b.1)
    else if !scaleOk (scaleProduct a.1 b.1) then .error (bad sa a.1)
    else match readScales s c sa sb ts with
      | .error f => .error f
      | .ok l => .ok ((a.1, b.1, a.2 || b.2) :: l)

/-- R154 orders 5 and 6. -/
def checkMma (s : State) (c : Cmd) (x : MmaArgs) : State × Except FaultInfo Cmd :=
  let steps := c.num x.k / 64
  let rows := mmaRows c x
  let cols := mmaCols c x
  let ea := if x.fa = 2#3 then readEntries s c 0 x.ia x.lda steps rows else (s, c, none)
  let eb := if x.fb = 2#3 then readEntries ea.1 ea.2.1 1 x.ib x.ldb steps cols else (ea.1, ea.2.1, none)
  let c := eb.2.1
  let data := fun (o : Nat) (f : BitVec 3) (a ld : BitVec 7) (ls : List Nat) =>
    if f = 2#3 then blockRangesOf c o a steps ls else lineRanges c a ld ls (c.num x.k * mmaSize f.toNat)
  let scale := fun (r : BitVec 7) => if r = 0#7 then [] else [(c.reg r, 4 * steps)]
  match coverAll eb.1 c [data 0 x.fa x.a x.lda rows, data 1 x.fb x.b x.ldb cols, scale x.sa, scale x.sb] with
  | (s, .error f) => (s, .error f)
  | (s, .ok c) =>
    match ea.2.2, eb.2.2 with
    | some f, _ => (s, .error f)
    | none, some f => (s, .error f)
    | none, none =>
      if x.fa = 7#3 then (s, .ok c)
      else match readScales s c x.sa x.sb (List.range steps) with
        | .error f => (s, .error f)
        | .ok l => (s, .ok { c with scales := l })

/-- R154 order 7, R161: what a destination page is. -/
inductive DstPage where
  | place (p : Place)
  | fails
  | refused
  deriving DecidableEq, Repr

def dstPage (s : State) (c : Cmd) (va : Word) : State × DstPage :=
  match localPlace s c.core va with
  | some p => (s, .place p)
  | none => match engLeaf s c va true with
    | (s, .error _) => (s, .fails)
    | (s, .ok t) =>
      if t.kind = .readShared then (s, .fails)
      else if !dstKind c.kind t.kind then (s, .refused)
      else match checkPage s c.part va .st t with
        | .error _ => (s, .fails)
        | .ok p => (s, .place p)

/-- R154 order 7: the destination pages: the command with their places, the first page whose kind is refused,
and the first that fails. -/
def coverDst (s : State) (c : Cmd) : List Word → State × Cmd × Option Word × Option Word
  | [] => (s, c, none, none)
  | va :: l =>
    match dstPage s c va with
    | (s, .place p) => coverDst s (c.addPage va p) l
    | (s, .fails) => let x := coverDst s c l; (x.1, x.2.1, x.2.2.1, some va)
    | (s, .refused) => let x := coverDst s c l; (x.1, x.2.1, some va, x.2.2.2)

/-- R154, R156: the addresses at which the destinations of a command are checked, operand by operand in the order of
their slots. -/
def dstPoints (c : Cmd) (rs : List (Word × Nat)) : List Word :=
  (if c.kind = 5 then rs.map (fun r => [r]) else [rs]).flatMap (fun r => (pageFirsts r).map (·.2))

/-- R154 order 7, R161, R396: the destinations of a command and the lines it is to own. -/
def checkDst (s : State) (c : Cmd) : State × Except FaultInfo Cmd :=
  let rs := dstRanges s c
  match coverDst s c (dstPoints c rs) with
  | (s, _, some va, _) => (s, .error (engineFault c 3 va))
  | (s, c, none, some va) =>
    if c.kind = 3 then (s, .ok { c with cut := some va })
    else (s, .ok { c with stopped := true, status := cutStatus va })
  | (s, c, none, none) =>
    (s, .ok { c with toOwn := coherentLines c rs, priv := privateLines c rs })

/-- R154, R380: every check of a command, in order. -/
def checkCmd (s : State) (c : Cmd) : State × Except FaultInfo Cmd :=
  if c.kind = 0 && (s.core c.core).fencedFns.getLsbD 3 then (s, .error (engineFault c 5 0#64))
  else match shapeFault s c with
    | some f => (s, .error f)
    | none => match cplPlace s c with
      | (s, .error f) => (s, .error f)
      | (s, .ok cpl) => match msPlace s c with
        | (s, .error f) => (s, .error f)
        | (s, .ok ms) =>
          let c := { c with cpl := cpl, ms := ms }
          match c.instr with
          | .mma _ _ x => checkMma s c x
          | _ => checkDst s c

/-! ## Acceptance (R153, R161) -/

/-- R163: the ranges that a step of MMA reads. -/
def stepRanges (c : Cmd) (x : MmaArgs) (t : Nat) : List (Word × Nat) :=
  let data := fun (o : Nat) (f : BitVec 3) (a ld : BitVec 7) (ls : List Nat) =>
    if f = 2#3 then (ls.filterMap (fun i => blockOf c o i t)).filterMap (fun b =>
        if b.2.1 = 0 then none else some (c.reg a + BitVec.ofNat 64 b.1, Nat.min b.2.1 281))
    else (lineRanges c a ld ls (64 * mmaSize f.toNat)).map (fun r =>
        (r.1 + BitVec.ofNat 64 (64 * t * mmaSize f.toNat), r.2))
  data 0 x.fa x.a x.lda (mmaRows c x) ++ data 1 x.fb x.b x.ldb (mmaCols c x)

/-- R164, R349: the coherent lines that a step of MMA reads. -/
def stepLines (c : Cmd) (x : MmaArgs) (t : Nat) : List Nat := coherentLines c (stepRanges c x t)

/-- R221: the first address of a step, in an operand or in C, that is no longer data. -/
def stepBarred (s : State) (c : Cmd) (x : MmaArgs) : Option Word :=
  match classBad s c.core false (stepRanges c x c.step) with
  | some va => some va
  | none => classBad s c.core true [(c.reg x.c, 1024 * accSize x.fa.toNat)]

/-- A step of MMA begins: its lines are pinned. -/
def beginStep (s : State) (id : Nat) : State :=
  match Map.get? s.cmds id with
  | none => s
  | some c => match c.instr with
    | .mma _ _ x => pinNext (modCmd s id (fun c => { c with toPin := stepLines c x c.step })) id
    | _ => s

/-- R161: the issuing core's copies of private lines go home and are dropped. -/
def dropPriv (s : State) (core : Nat) : List Nat → State
  | [] => s
  | l :: ls => dropPriv (evictL1 s core (lineKey s (64 * l))) core ls

/-- R167: the number of a contribution among those of its group and tag. -/
def countContribution (s : State) (c : Cmd) : State :=
  match c.instr with
  | .coll _ _ x =>
    let tag := c.num x.tag % 2 ^ 32
    let n := ((s.group? c.gid).bind (fun g => Map.get? g.colls tag)).getD 0
    modCmd (s.modGroup c.gid (fun g => { g with colls := Map.set g.colls tag (n + 1) })) c.id
      (fun c => { c with inst := n })
  | _ => s

/-- R353, R396: a COLL one of whose lines was refused contributes as one whose destination failed. -/
def refusedColl (c : Cmd) : Cmd :=
  if c.kind = 3 && c.stopped then
    { c with stopped := false, status := 0#64, cut := some (c.status >>> 16 <<< 16) }
  else c

/-- R153, R155: a command is accepted. -/
def acceptCmd (s : State) (id : Nat) : State :=
  let s := modCmd s id (fun c => refusedColl { c with accepted := true })
  match Map.get? s.cmds id with
  | none => s
  | some c =>
    let s := dropPriv s c.core c.priv
    let s := if c.kind = 0 then s else
      match waitOf s c.thread with
      | some (.tile n) =>
        let s := s.modGroup c.gid (fun g => { g with ops := g.ops + 1 })
        if n = id then finishWait s c.thread.core c.thread.slot else s
      | _ => s.modGroup c.gid (fun g => { g with ops := g.ops + 1 })
    let s := countContribution s c
    let s := match c.instr with
      | .mma _ _ _ => beginStep s id
      | .coll _ _ _ => s.post (.collInstanceComplete id)
      | _ => s.post (cmdEvent c)
    drainNext (nextCmd s c) c.part

/-- R152: whether an engine can look at a command: those before it have been accepted, and there is room. -/
def engineReady (s : State) (c : Cmd) : Bool :=
  !(s.cmds.any (fun x => sameEngine s c x.2 && !x.2.accepted && decide (x.1 < c.id))) &&
    count (fun x : Nat × Cmd => sameEngine s c x.2 && x.2.accepted) s.cmds < engineRoom c

/-- ENGINE_ACCEPT (R152 to R154, R161). -/
def execEngineAccept (id : Nat) (s : State) : Host.Outcome State Fault Refusal :=
  match Map.get? s.cmds id with
  | none => .next s
  | some c =>
    if c.accepted || !engineReady s c then .next s
    else if c.checked then .next (if c.toOwn.isEmpty then acceptCmd s id else s)
    else match checkCmd s c with
      | (s, .error f) => .next (rejectCmd s c f)
      | (s, .ok c) =>
        let s := { s with cmds := Map.set s.cmds id { c with checked := true } }
        .next (if c.toOwn.isEmpty then acceptCmd s id else ownNext s id)

/-! ## MMA (R163, R164) -/

/-- A line of an operand at one step: 64 elements as they enter the step, whether the block was malformed, and
poison. -/
def operandLine (s : State) (c : Cmd) (o : Nat) (f : BitVec 3) (a ld : BitVec 7) (t i : Nat) :
    List Nat × Bool × Bool :=
  if f = 2#3 then
    match blockOf c o i t with
    | none => (List.replicate 64 0, true, false)
    | some (start, span, p) =>
      let v := cmdRead s c (c.reg a + BitVec.ofNat 64 start) (Nat.min span 281)
      match decodeBlock v.1 with
      | some es => (es, false, v.2 || p)
      | none => (List.replicate 64 0, true, v.2 || p)
  else
    let e := mmaSize f.toNat
    let v := cmdRead s c (c.reg a + BitVec.ofNat 64 i * c.reg ld + BitVec.ofNat 64 (64 * t * e)) (64 * e)
    (elements e v.1, false, v.2)

/-- R47 to R50: the new bits of a C element, whether it overflowed, and whether poison entered it. -/
def newElem (x : MmaArgs) (cin : Nat) (a b : List Nat) (scale : Nat) (poison : Bool) : Nat × Bool :=
  if x.fa = 7#3 then
    if poison then (0, false)
    else stepInt cin (a.map (bitsInt true 8)) (b.map (bitsInt true 8))
  else
    let f := accFmt x.fa.toNat
    if poison then (f.canon, false)
    else stepElem f cin (a.map (mmaFmt x.fa.toNat).unpack) (b.map (mmaFmt x.fb.toNat).unpack) (fp32.unpack scale)

/-- One element of C at one step, in one access: the state, and the status bits. -/
def elemStep (s : State) (c : Cmd) (x : MmaArgs) (ra rb : Map (List Nat × Bool × Bool)) (sc : Nat × Bool)
    (i j : Nat) : State :=
  let w := accSize x.fa.toNat
  let p : Place := .spad c.core ((c.num x.c) + w * (32 * i + j))
  let v := readPlace s c.core p w
  let zero := x.zero && c.step = 0
  let a := (Map.get? ra i).getD ([], false, false)
  let b := (Map.get? rb j).getD ([], false, false)
  let poison := a.2.2 || b.2.2 || sc.2 || (v.2 && !zero)
  let r := newElem x (if zero then 0 else leNat v.1) a.1 b.1 sc.1 poison
  let s := engWrite s c.id p (leBytes r.1 w) poison
  if r.2 || poison then
    modCmd s c.id (fun c => { c with status := c.status ||| (if r.2 then 8#64 else 0#64) |||
      (if poison then 1#64 else 0#64) })
  else s

def elemSteps (s : State) (c : Cmd) (x : MmaArgs) (ra rb : Map (List Nat × Bool × Bool)) (sc : Nat × Bool) :
    List (Nat × Nat) → State
  | [] => s
  | (i, j) :: l => elemSteps (elemStep s c x ra rb sc i j) c x ra rb sc l

/-- R163: one step of MMA on every element that is not masked. -/
def matrixStep (s : State) (c : Cmd) (x : MmaArgs) : State :=
  let rows := mmaRows c x
  let cols := mmaCols c x
  let ra := rows.map (fun i => (i, operandLine s c 0 x.fa x.a x.lda c.step i))
  let rb := cols.map (fun j => (j, operandLine s c 1 x.fb x.b x.ldb c.step j))
  let sc := match c.scales[c.step]? with
    | some (a, b, p) => (scaleProduct a b, p)
    | none => (0x3F800000, false)
  let bad := ra.any (fun r => r.2.2.1) || rb.any (fun r => r.2.2.1)
  let s := { s with free := s.free + 1 }
  let s := modCmd s c.id (fun c => { c with status := c.status ||| (if bad then 2#64 else 0#64) })
  elemSteps s c x ra rb sc (rows.flatMap (fun i => cols.map (fun j => (i, j))))

/-- R349: the pins of a step are dropped. -/
def dropPins (s : State) (c : Cmd) : List Nat → State
  | [] => modCmd s c.id (fun c => { c with pinned := [], toPin := [] })
  | l :: ls => dropPins (sendMsg s { mkMsg s .pinDrop l c.core with cmd := some c.id }) c ls

/-- A command has read all its sources and has nothing more to compute. -/
def doneMoving (s : State) (id : Nat) : State :=
  (sourcesDone (modCmd s id (fun c => { c with stopped := true })) id).post (.engineComplete id)

/-- MMA_STEP (R163, R164, R380). -/
def execMmaStep (id : Nat) (s : State) : Host.Outcome State Fault Refusal :=
  match Map.get? s.cmds id with
  | none => .next s
  | some c =>
    match c.instr with
    | .mma _ _ x =>
      if !c.accepted || c.stopped || !c.toPin.isEmpty then .next s
      else match stepBarred s c x with
      | some va => .next (stopAt (dropPins s c c.pinned) id va)
      | none =>
        let s := dropPins (matrixStep s c x) c c.pinned
        let s := modCmd s id (fun c => { c with step := c.step + 1 })
        let steps := c.num x.k / 64
        if c.step + 1 = steps then .next (doneMoving s id)
        else if (s.core c.core).fencedFns.getLsbD 3 then
          .next (doneMoving (modCmd s id (fun c => { c with status := c.status ||| 1#64 })) id)
        else .next (beginStep s id)
    | _ => .next s

/-! ## COPY, FILL and GATH (R165, R166) -/

/-- R159: bytes at an address, and which of them are poisoned, as an engine writes them: lines, words of a scratchpad, or
packets of a remote page, each poisoned if a byte of it is. -/
def dstPieces (c : Cmd) : Nat → Word → List Byte → List Bool → List (Place × List Byte × Bool)
  | 0, _, _, _ => []
  | fuel + 1, va, bs, ps =>
    match bs, c.placeAt va with
    | [], _ => []
    | _, none => []
    | bs, some p =>
      let n := pieceRoom p
      (p, bs.take n, (ps.take n).any id) ::
        dstPieces c fuel (va + BitVec.ofNat 64 n) (bs.drop n) (ps.drop n)

/-- Pieces written one after another. -/
def writeAll (s : State) (id : Nat) : List (Place × List Byte × Bool) → State
  | [] => s
  | (p, bs, po) :: l => writeAll (engWrite s id p bs po) id l

/-- Bytes read by a command and written at a destination. -/
def moveTo (s : State) (c : Cmd) (va : Word) (bs : List Byte) (ps : List Bool) : State :=
  let s := if ps.any id then modCmd s c.id (fun c => { c with status := c.status ||| 1#64 }) else s
  writeAll s c.id (dstPieces c (bs.length + 1) va bs ps)

/-- R159, R166: what a poisoned row number makes of a row: all of it is affected. -/
def Cmd.rowMarks (c : Cmd) (ps : List Bool) : List Bool := ps.map (fun p => p || c.rowBad)

/-- [va, va + n) cut at lines. -/
def lineChunks (va : Word) (n : Nat) : List (Word × Nat) :=
  (pieces va.toNat (List.replicate n 0#8)).map (fun x => (va + BitVec.ofNat 64 x.1, x.2.length))

/-- A command has moved n bytes of its row of `rowb`, one of `rows`. -/
def advanceRow (s : State) (id n rowb rows : Nat) : State :=
  match Map.get? s.cmds id with
  | none => s
  | some c =>
    if c.pos + n < rowb then
      (modCmd s id (fun c => { c with pos := c.pos + n })).post (.engineComplete id)
    else if c.step + 1 < rows then
      (modCmd s id (fun c => { c with pos := 0, step := c.step + 1, row := none, rowBad := false })).post
        (.engineComplete id)
    else doneMoving s id

/-- The next source line, or for a remote page the rest of the row, moved from `src` to `dst`. -/
def movePiece (s : State) (c : Cmd) (dst src : Word) (rowb rows : Nat) : State :=
  let da := dst + BitVec.ofNat 64 c.pos
  let sa := src + BitVec.ofNat 64 c.pos
  let n := match c.placeAt da with
    | some (.page .remotePosted _ _) => rowb - c.pos
    | _ => Nat.min (rowb - c.pos) (64 - sa.toNat % 64)
  match engRead s c (lineChunks sa n) with
  | (s, .error va) => stopAt s c.id va
  | (s, .ok (bs, ps)) => advanceRow (moveTo s c da bs (c.rowMarks ps)) c.id n rowb rows

/-- The next piece of a row of one repeated word. -/
def fillPiece (s : State) (c : Cmd) (dst pat : Word) (rowb rows : Nat) : State :=
  let da := dst + BitVec.ofNat 64 c.pos
  let room := match c.placeAt da with
    | some p => pieceRoom p
    | none => 64
  let n := Nat.min (rowb - c.pos) room
  advanceRow (moveTo s c da ((List.replicate (n / 8) (wordBytes pat)).flatten) (List.replicate n c.rowBad)) c.id n rowb
    rows

/-- R166: the row number of the present row is read. -/
def readRow (s : State) (c : Cmd) (idx : Word) : State :=
  match engRead s c (lineChunks (idx + BitVec.ofNat 64 (4 * c.step)) 4) with
  | (s, .error va) => stopAt s c.id va
  | (s, .ok (bs, ps)) =>
    let s := modCmd s c.id (fun c => { c with row := some (leNat bs), rowBad := ps.any id })
    s.post (cmdEvent c)

/-- R166: a scatter's target row is checked, and its lines are to be owned. -/
def scatterTarget (s : State) (c : Cmd) (rs : List (Word × Nat)) : State :=
  let stop := fun (s : State) (va : Word) => stopAt s c.id va
  match classBad s c.core false rs with
  | some va => stop s va
  | none =>
    match coverDst s { c with dst := [] } ((pageFirsts rs).map (·.2)) with
    | (s, _, some va, some wa) => stop s (if va.toNat < wa.toNat then va else wa)
    | (s, _, some va, none) => stop s va
    | (s, _, none, some va) => stop s va
    | (s, c, none, none) =>
      let priv := privateLines c rs
      let s := { s with cmds := Map.set s.cmds c.id { c with
        toOwn := coherentLines c rs, priv := priv, pos := 1 } }
      ownNext (dropPriv s c.core priv) c.id

/-- R166: the present row of a scatter is over. -/
def nextScatter (s : State) (c : Cmd) (n : Nat) : State :=
  let s := modCmd s c.id (fun c =>
    { c with step := c.step + 1, row := none, rowBad := false, pos := 0, flushed := false, priv := [], dst := [] })
  let s := if c.priv.isEmpty then s else unblock (pumpThreads s (coreThreads s c.core))
  if c.step + 1 < n then s.post (.gathScatterRow c.id) else doneMoving s c.id

/-- GATH_SCATTER_ROW (R161, R166): the row's number is read, its target checked and owned, then written and
released. -/
def execGathScatterRow (id : Nat) (s : State) : Host.Outcome State Fault Refusal :=
  match Map.get? s.cmds id with
  | none => .next s
  | some c =>
    match c.instr with
    | .gath _ _ x =>
      if !x.scat || !c.accepted || c.stopped || !c.toOwn.isEmpty then .next s
      else match c.row with
        | none => .next (readRow s c (c.reg x.idx))
        | some r =>
          let dst := c.reg x.dst + BitVec.ofNat 64 r * c.reg x.ds
          let rowb := c.num x.rowb
          if r = 0xFFFFFFFF then .next (nextScatter s c (c.num x.n))
          else if c.pos = 0 then .next (scatterTarget s c [(dst, rowb)])
          else if !c.flushed then
            match engRead s c (lineChunks (c.reg x.src + BitVec.ofNat 64 c.step * c.reg x.ss) rowb) with
            | (s, .error va) => .next (stopAt s id va)
            | (s, .ok (bs, ps)) =>
              let s := moveTo s c dst bs (c.rowMarks ps)
              match Map.get? s.cmds id with
              | none => .next s
              | some c =>
                let s := flushOwned (modCmd s id (fun c => { c with flushed := true })) c c.owned
                .next (if c.owned.isEmpty then s.post (.gathScatterRow id) else s)
          else if !c.owned.isEmpty then .next s
          else .next (nextScatter s c (c.num x.n))
    | _ => .next s

/-! ## ENC8 (R171, R172) -/

/-- R172: a source element as an FP32 number. -/
def srcElem (x : Enc8Args) (w : Nat) : Nat := if x.bf16 then w * 65536 else w

/-- R172: the lines of the source, and which of their elements are poisoned. -/
def encLines (s : State) (c : Cmd) (x : Enc8Args) : List Nat → State × Except Word (List (List Nat × List Bool))
  | [] => (s, .ok [])
  | i :: l =>
    let va := c.reg x.src + BitVec.ofNat 64 i * c.reg x.stride
    match engRead s c (lineChunks va (c.num x.kk * encElem x)) with
    | (s, .error w) => (s, .error w)
    | (s, .ok (bs, ps)) =>
      match encLines s c x l with
      | (s, .error w) => (s, .error w)
      | (s, .ok ls) =>
        let marks := (List.range (c.num x.kk)).map (fun k => ps.getD (encElem x * k) false)
        (s, .ok (((elements (encElem x) bs).map (srcElem x), marks) :: ls))

/-- R172: the scale of a slab: the bits, and whether it holds a NaN or an infinity. -/
def slab (ls : List (List Nat)) (t : Nat) : Nat × Bool :=
  let m := ((ls.flatMap (fun l => (l.drop (64 * t)).take 64)).map (· % 2 ^ 31)).foldl Nat.max 0
  if 0x7F800000 ≤ m then (0x3F800000, true)
  else if m = 0 then (0x3F800000, false)
  else (slabScale m, false)

/-- R172: one block. -/
def encBlock (l : List Nat) (t : Nat) (sc : Nat × Bool) : List Byte :=
  if sc.2 then [0xC0#8]
  else encodeBlock (((l.drop (64 * t)).take 64).map (fun v => quantise v sc.1))

/-- R172: the blocks with the position at which each starts, and the end. -/
def placeBlocks : Nat → List (List Byte) → List (Nat × List Byte) × Nat
  | pos, [] => ([], pos)
  | pos, b :: l => let x := placeBlocks (pos + b.length) l; ((pos, b) :: x.1, x.2)

/-- For each element of a list, and for its end, whether an element before it is set. -/
def anyBefore : Bool → List Bool → List Bool
  | b, [] => [b]
  | b, x :: l => b :: anyBefore (b || x) l

/-- R159, R172: everything ENC8 writes: address, bytes, poison; and whether a slab was bad. What is computed from poisoned
elements is poisoned: the scale and the blocks of their slab, and, since the length of a block places those after it, every
later block and index entry (log entry 89). -/
def encWrites (c : Cmd) (x : Enc8Args) (ls : List (List Nat × List Bool)) : List (Word × List Byte × Bool) × Bool :=
  let steps := encSteps c x
  let rows := c.num x.rows
  let slabs := (List.range (rows / 32)).map (fun g => (List.range steps).map (fun t =>
    slab (((ls.drop (32 * g)).take 32).map (·.1)) t))
  let dirty := fun g t => ((ls.drop (32 * g)).take 32).any (fun l => ((l.2.drop (64 * t)).take 64).any id)
  let sc := fun g t => ((slabs.getD g []).getD t (0x3F800000, false))
  let blocks := (ls.zip (List.range rows)).flatMap (fun l => (List.range steps).map (fun t =>
    (encBlock l.1.1 t (sc (l.2 / 32) t), dirty (l.2 / 32) t)))
  let at_ := placeBlocks (encOff c x) (blocks.map (·.1))
  let entries := at_.1.map (·.1) ++ [at_.2]
  let moved := anyBefore false (blocks.map (·.2))
  ((at_.1.zip (blocks.zip moved)).map (fun b => (c.reg x.dat + BitVec.ofNat 64 b.1.1, b.1.2, b.2.1.2 || b.2.2)) ++
    ((entries.zip moved).zip (List.range entries.length)).map (fun e =>
      (c.reg x.idx + BitVec.ofNat 64 (4 * e.2), leBytes e.1.1 4, e.1.2)) ++
    (List.range (rows / 32)).flatMap (fun g => (List.range steps).map (fun t =>
      (c.reg x.sc + BitVec.ofNat 64 (4 * (g * steps + t)), leBytes (sc g t).1 4, dirty g t))),
    slabs.any (fun l => l.any (·.2)))

/-- The pieces of a command's writes at the places it has translated. -/
def todoOf (c : Cmd) (ws : List (Word × List Byte × Bool)) : List (Place × List Byte × Bool) :=
  ws.flatMap (fun w => dstPieces c (w.2.1.length + 1) w.1 w.2.1 (List.replicate w.2.1.length w.2.2))

/-- R172: ENC8 reads its source and computes what it writes. -/
def encodeAll (s : State) (c : Cmd) (x : Enc8Args) : State :=
  match encLines s c x (List.range (c.num x.rows)) with
  | (s, .error va) => stopAt s c.id va
  | (s, .ok ls) =>
    let w := encWrites c x ls
    doneMoving (modCmd s c.id (fun c => { c with
      todo := todoOf c w.1
      status := c.status ||| (if w.2 then 4#64 else 0#64) |||
        (if ls.any (fun l => l.2.any id) then 1#64 else 0#64) })) c.id

/-! ## The course of a command (R158) -/

/-- ENGINE_COMPLETE (R155, R158 to R162): the command moves its next piece; when nothing is left to move its
lines go home, and its completion is written. -/
def execEngineComplete (id : Nat) (s : State) : Host.Outcome State Fault Refusal :=
  match Map.get? s.cmds id with
  | none => .next (settleAct s (.engineComplete id))
  | some c =>
    if !c.accepted then .next (if c.checked && c.stopped then acceptCmd s id else s)
    else match c.todo with
      | (p, bs, po) :: rest =>
        .next ((engWrite (modCmd s id (fun c => { c with todo := rest })) id p bs po).post (.engineComplete id))
      | [] =>
        if c.stopped then
          .next (finishCmd (if c.pinned.isEmpty then s else dropPins s c c.pinned) { c with pinned := [] })
        else match c.instr with
          | .copy _ _ x =>
            .next (movePiece s c (c.reg x.dst + BitVec.ofNat 64 c.step * c.reg x.ds)
              (c.reg x.src + BitVec.ofNat 64 c.step * c.reg x.ss) (c.num x.rowb) (c.num x.rows))
          | .fill _ _ x =>
            .next (fillPiece s c (c.reg x.dst + BitVec.ofNat 64 c.step * c.reg x.ds) (c.reg x.pat) (c.num x.rowb)
              (c.num x.rows))
          | .gath _ _ x =>
            if x.scat then .next s
            else match c.row with
              | none => .next (readRow s c (c.reg x.idx))
              | some r =>
                let dst := c.reg x.dst + BitVec.ofNat 64 c.step * c.reg x.ds
                if r = 0xFFFFFFFF then .next (fillPiece s c dst 0#64 (c.num x.rowb) (c.num x.n))
                else .next (movePiece s c dst (c.reg x.src + BitVec.ofNat 64 r * c.reg x.ss) (c.num x.rowb)
                  (c.num x.n))
          | .enc8 _ _ x => .next (encodeAll s c x)
          | _ => .next s

/-! ## COLL (R167 to R170, R396) -/

/-- R167: the contribution of a rank to the instance of a command, if it has been made. -/
def contribution (s : State) (c : Cmd) (q : Nat) : Option Cmd :=
  let band := fun (d : Cmd) => (s.group? d.gid).map (·.band)
  let tag := fun (d : Cmd) => match d.instr with | .coll _ _ x => d.num x.tag % 2 ^ 32 | _ => 0
  (s.cmds.find? (fun y => y.2.kind = 3 && y.2.accepted && !y.2.stopped && y.2.lid = c.lid && band y.2 = band c &&
    tag y.2 = tag c && y.2.inst = c.inst && rankOf s y.2 = q)).map (·.2)

/-- R170: what the contributions to one instance must agree in. -/
def collShape (c : Cmd) : BitVec 2 × BitVec 4 × Nat × Nat :=
  match c.instr with
  | .coll _ _ x => (x.op, x.rf, c.num x.n, c.num x.root)
  | _ => (0#2, 0#4, 0, 0)

/-- R396: every participant's source bytes, or the address at which its ranges first fail. -/
def collSources (s : State) : List Cmd → State × List (Except Word (List Byte × List Bool))
  | [] => (s, [])
  | c :: l =>
    let src := match c.instr with | .coll _ _ x => engRead s c (lineChunks (c.reg x.src) (c.num x.n))
                                  | _ => (s, .ok ([], []))
    let x := collSources src.1 l
    (x.1, (match c.cut with | some va => .error va | none => src.2) :: x.2)

/-- R159, R168: the bytes that a participant receives, whether a sum overflowed, and which bytes are poisoned: those
computed from poisoned ones. -/
def collResult (sh : BitVec 2 × BitVec 4 × Nat × Nat) (xs : List (List Byte × List Bool)) :
    List Byte × Bool × List Bool :=
  let root := xs.getD sh.2.2.2 ([], [])
  match sh.1.toNat with
  | 2 => (root.1, false, root.2)
  | 3 => (xs.flatMap (·.1), false, xs.flatMap (·.2))
  | _ =>
    let rf := sh.2.1.toNat
    let r := reduceAll rf (xs.map (fun x => elements (redSize rf) x.1))
    (r.1.flatMap (fun w => leBytes w (redSize rf)), r.2,
      (List.range sh.2.2.1).map (fun i => xs.any (fun x => x.2.getD i false)))

/-- Every participant of an instance goes on to its writes and its completion. -/
def endContributions (s : State) (f : Cmd → Cmd) : List Cmd → State
  | [] => s
  | c :: l => endContributions (doneMoving (modCmd s c.id f) c.id) f l

/-- R168, R170, R396: an instance to which every rank has contributed. -/
def runColl (s : State) (cs : List Cmd) : State :=
  match cs with
  | [] => s
  | c :: _ =>
    let sh := collShape c
    let differ := cs.any (fun d => collShape d != sh)
    let r := collSources s cs
    let failed := r.2.any (fun x => match x with | .error _ => true | .ok _ => false)
    if differ || failed then
      (cs.zip r.2).foldl (fun s (x : Cmd × Except Word (List Byte × List Bool)) =>
        let st := (if differ then 32#64 else 0#64) |||
          (match x.2 with | .error va => cutStatus va | .ok _ => if failed then 16#64 else 0#64)
        endContributions s (fun c => { c with status := c.status ||| st }) [x.1]) r.1
    else
      let xs := r.2.filterMap (fun x => match x with | .ok v => some v | .error _ => none)
      let res := collResult sh xs
      let st := (if res.2.1 then 8#64 else 0#64) ||| (if res.2.2.any id then 1#64 else 0#64)
      cs.foldl (fun s c =>
        let dst := match c.instr with | .coll _ _ x => c.reg x.dst | _ => 0#64
        let todo := if (dstRanges s c).isEmpty then [] else dstPieces c (res.1.length + 1) dst res.1 res.2.2
        endContributions s (fun c => { c with todo := todo, status := c.status ||| st }) [c]) r.1

/-- COLL_INSTANCE_COMPLETE (R167 to R170, R396): once every rank has contributed, the result is computed. -/
def execCollInstanceComplete (id : Nat) (s : State) : Host.Outcome State Fault Refusal :=
  match Map.get? s.cmds id with
  | none => .next s
  | some c =>
    if c.kind != 3 || !c.accepted || c.stopped then .next s
    else
      let cs := (List.range (partiesOf s c)).map (contribution s c)
      if cs.all (·.isSome) then .next (runColl s (cs.filterMap (fun x => x))) else .next s

end Sys2Proof.Machine
end

