-- ==== Sys2Proof/Machine/Contexts.lean ====
section
/-!
DEFINITION. Contexts.lean: partitions from their creation to their teardown: control blocks (R320), the commands
CREATE, RESET and TEARDOWN (R321), stopping and draining (R382), and scrubbing (R339).
-/
namespace Sys2Proof.Machine
open Sys2Proof

/-! ## Control blocks (R320) -/

def partStateCode : PartState → Nat
  | .absent => 0
  | .active => 1
  | .busy => 2

/-- R320: a word of a control block as it is read. -/
def pcbWord (s : State) (p w : Nat) : Word :=
  if w ≤ 8 then partWord s p w
  else if w = 9 then BitVec.ofNat 64 ((s.part p).result.toNat * 256 + partStateCode (s.part p).state * 16)
  else 0#64

/-- R320: words 0 to 8 are written in state absent; word 5 [63:32] in any state. -/
def pcbWrite (s : State) (p w : Nat) (v : Word) : State :=
  if 8 < w then s
  else if (s.part p).state = .absent then s.modPart p (fun x => { x with words := Map.set x.words w v })
  else if w = 5 then
    let old := (partWord s p 5).toNat
    s.modPart p (fun x => { x with
      words := Map.set x.words 5 (BitVec.ofNat 64 (v.toNat / 2 ^ 32 * 2 ^ 32 + old % 2 ^ 32)) })
  else s

/-- R321: the logical cores that a control block asks for. -/
def ccountOf (s : State) (p : Nat) : Nat := bitsOf (partWord s p 0).toNat 0 12

/-- R320: the base and the bytes of a partition's lay-by pool. -/
def poolBase (s : State) (p : Nat) : Nat := (partWord s p 4).toNat
def poolBytes (s : State) (p : Nat) : Nat := bitsOf (partWord s p 5).toNat 0 32 * 65536

/-- R333: the visitor backing that CREATE reserves for a core. -/
def visitorBacking : Nat := 16 * 512

/-- Whether [a, a + n) is populated package memory. -/
def inMemory (s : State) (a n : Nat) : Bool :=
  n = 0 || (populated s a && populated s (a + n - 1) && decide (a + n ≤ 2 ^ 42))

/-- R321: the end of a command: result and state are written, and then cplval at cpladdr (process 0). -/
def endCommand (s : State) (p : Nat) (result : BitVec 8) (st : PartState) : State :=
  let s := s.modPart p (fun x => { x with result := result, state := st, running := 0 })
  let va := partWord s p 7
  if va = 0#64 || va.toNat % 4 != 0 then s
  else match distPlace s p 0 va .st with
    | some place => distStore s p place (leBytes (bitsOf (partWord s p 8).toNat 0 32) 4)
    | none => s

/-! ## CREATE (R321, R322) -/

/-- R321, result 2: whether a field is out of range or a reserved bit is set. -/
def pcbBad (s : State) (p : Nat) : Bool :=
  let w := fun i => (partWord s p i).toNat
  let cc := ccountOf s p
  let nproc := if bitsOf (w 0) 48 16 = 0 then 65536 else bitsOf (w 0) 48 16
  bitsOf (w 0) 12 16 != 0 || bitsOf (w 8) 32 32 != 0 ||
    cc % 128 != 0 || decide (cc < 128) || decide (2048 < cc) ||
    bitsOf (w 0) 28 8 * bitsOf (w 0) 36 8 != cc / 128 ||
    w 1 % 64 != 0 || !inMemory s (w 1) (2 * cc) ||
    w 2 % 64 != 0 || (w 2 != 0 && !inMemory s (w 2) 16384) ||
    w 3 % 64 != 0 || !inMemory s (w 3) (8 * nproc) ||
    w 4 % 65536 != 0 || !inMemory s (w 4) (poolBytes s p) ||
    w 6 % 64 != 0 || (w 6 != 0 && !inMemory s (w 6) 64)

/-- R322: the entries of a core table. -/
def tableEntry (s : State) (a l : Nat) : Nat := bitsOf (readEntry s (a + 2 * l / 8 * 8)) (16 * (l % 4)) 16

def readTable (s : State) (a n : Nat) : List Nat := (List.range n).map (tableEntry s a)

/-- R321, result 3: whether an entry of a core table is invalid, owned, fenced, repeated or outside the physical
cluster of its logical cluster. DESIGN CHOICE (log 91): an entry whose reserved bits [15:12] are set is invalid. -/
def tableBad (s : State) : List Nat → List Nat → Nat → Bool
  | [], _, _ => false
  | e :: es, seen, cluster =>
    let cl := if seen.length % 128 = 0 then e / 130 else cluster
    decide (2080 ≤ e) || (s.core e).owner.isSome || (s.core e).fenced || seen.contains e || e / 130 != cl ||
      tableBad s es (seen ++ [e]) cl

/-- R320: the Causeway ports that a control block names. -/
def namedPorts (s : State) (p : Nat) : List Nat :=
  (List.range 4).filter (fun i => (partWord s p 0).toNat.testBit (44 + i))

/-- R321, result 5: whether the pool overlaps that of a partition that exists, or is too small. -/
def poolBad (s : State) (p : Nat) : Bool :=
  let a := poolBase s p
  let n := poolBytes s p
  decide (n < ccountOf s p * visitorBacking) ||
    s.parts.any (fun x => x.1 != p && x.2.state != .absent &&
      decide (a < poolBase s x.1 + poolBytes s x.1) && decide (poolBase s x.1 < a + n))

/-- R321: the result of the checks of CREATE. -/
def createCheck (s : State) (p : Nat) (tab : List Nat) : Nat :=
  if pcbBad s p then 2
  else if tableBad s tab [] 0 then 3
  else if (namedPorts s p).any (fun i => (s.port i).owner.isSome) then 4
  else if poolBad s p then 5
  else 0

/-- R339: a core as a scrub leaves it, its counter and what firmware has fenced in it apart; the generation of
every slot that held a thread has advanced (R13). -/
def scrubbed (k : Core) : Core :=
  { cyc := k.cyc, fencedFns := k.fencedFns, rows := k.rows, ways := k.ways, fenced := k.fenced,
    owner := k.owner
    gens := k.threads.foldl (fun g x => Map.set g x.1 (((Map.get? g x.1).getD 0 + 1) % 2 ^ 20)) k.gens }

/-- R321: a core that a partition receives: scrubbed, and every generation 0. -/
def giveCores (s : State) (p : Nat) : List Nat → Nat → State
  | [], _ => s
  | c :: cs, l =>
    giveCores (s.modCore c (fun k => { scrubbed k with owner := some (p, l), gens := [] })) p cs (l + 1)

/-- R322, R333, R253: a partition comes to own its cores, its ports and its pool. -/
def makePart (s : State) (p : Nat) (tab : List Nat) : State :=
  let s := giveCores s p tab 0
  let s := (namedPorts s p).foldl (fun s i => s.modPort i (fun x => { x with owner := some p })) s
  s.modPart p (fun x => { x with ctab := tab, poolUsed := tab.length * visitorBacking })

/-- CREATE (R321). -/
def execCreate (part : Nat) (s : State) : Host.Outcome State Fault Refusal :=
  if 64 ≤ part then .next s
  else if (s.part part).state != .absent then .next (s.modPart part (fun x => { x with result := 1#8 }))
  else
    let tab := if pcbBad s part then [] else readTable s (partWord s part 1).toNat (ccountOf s part)
    let r := createCheck s part tab
    if r = 0 then .next (endCommand (makePart s part tab) part 0#8 .active)
    else .next (endCommand s part (BitVec.ofNat 8 r) .absent)

/-! ## Stopping (R382 step 1) -/

def holdCores (s : State) : List Nat → State
  | [] => s
  | c :: cs => holdCores (holdThreads s c (Map.keys (s.core c).threads)) cs

/-- R382, step 1: HOLD is set in every thread of a partition; its waits are withdrawn and its watches disarmed. -/
def holdPart (s : State) (p : Nat) : State := holdCores s (s.part p).ctab

/-- R382, step 2: tile commands that no engine has taken up are taken up no more. -/
def dropUnbegun (s : State) (p : Nat) : State :=
  { s with cmds := s.cmds.filter (fun x => !(x.2.part = p && !x.2.accepted && !x.2.checked)) }

/-- RESET and TEARDOWN begin. -/
def beginStop (s : State) (p running : Nat) : State :=
  let s := s.modPart p (fun x => { x with state := .busy, running := running })
  (dropUnbegun (holdPart s p) p).post (.layByScrubComplete p)

/-- RESET (R321, R382). -/
def execReset (part : Nat) (s : State) : Host.Outcome State Fault Refusal :=
  if 64 ≤ part then .next s
  else if (s.part part).state != .active then .next (s.modPart part (fun x => { x with result := 1#8 }))
  else .next (beginStop s part 2)

/-- TEARDOWN (R321, R382). -/
def execTeardown (part : Nat) (s : State) : Host.Outcome State Fault Refusal :=
  if 64 ≤ part then .next s
  else if (s.part part).state != .active then .next (s.modPart part (fun x => { x with result := 1#8 }))
  else .next (beginStop s part 3)

/-- REGISTER_WRITE (R302, R320): a write of word `word` of a control block, or of word `word` − 16 of the launch
port, through BAR 0 of the physical function (R358). The command field of word 9 runs its command. -/
def execRegisterWrite (part word : Nat) (value : Word) (s : State) : Host.Outcome State Fault Refusal :=
  if 64 ≤ part then .next s
  else if 16 ≤ word then .next (launchPortWrite s part (word - 16) value)
  else if word = 9 then
    match value.toNat % 16 with
    | 1 => execCreate part s
    | 2 => execReset part s
    | 3 => execTeardown part s
    | _ => .next s
  else .next (pcbWrite s part word value)

/-! ## Draining (R382 steps 2 to 5) -/

/-- R382, step 2: the COLL commands of a partition whose instance lacks a contribution. -/
def lackingColls (s : State) (p : Nat) : List Cmd :=
  (s.cmds.map (·.2)).filter (fun c => c.part = p && c.kind = 3 && c.accepted && !c.stopped &&
    !((List.range (partiesOf s c)).all (fun q => (contribution s c q).isSome)))

/-- The instances that some COLL commands belong to, counted by their least command. -/
def instancesOf (s : State) (cs : List Cmd) : Nat :=
  count (fun c => (List.range (partiesOf s c)).all (fun q =>
    match contribution s c q with | some d => decide (c.id ≤ d.id) | none => true)) cs

/-- R382, step 2: such an instance completes at each contributor with status bit 5, and writes nothing. -/
def cancelColls (s : State) (p : Nat) : State :=
  let cs := lackingColls s p
  if cs.isEmpty then s
  else
    let n := instancesOf s cs
    let s := endContributions s (fun c => { c with status := c.status ||| 32#64 }) cs
    logEvent s (0xA08 + homeDist s p) p 2 0x8016#16 0#64 0#64 (BitVec.ofNat 64 n) (nowWord s)

/-- R382, step 3: launch records and replays are freed with no completion add, and held answers discarded. -/
def freeLaunches (s : State) (p : Nat) : State :=
  let mine := fun (lid : Nat) => match s.launch? lid with | some l => l.part = p | none => false
  { s with
    launches := s.launches.filter (fun x => x.2.part != p)
    groups := s.groups.filter (fun x => !mine x.2.lid)
    queries := s.queries.filter (fun q => !mine q.lid)
    replays := s.replays.filter (fun r => r.part != p)
    subs := s.subs.filter (fun x => x.part != p)
    watches := s.watches.filter (fun w => match w.kind with | .dep lid => !mine lid | _ => true) }

/-- R382, step 4: the ports of a partition discard their queues. -/
def discardQueues (s : State) (p : Nat) : State :=
  { s with ports := s.ports.map (fun (x : Nat × Port) =>
      if x.2.owner = some p then
        (x.1, { x.2 with
          lost := x.2.lost + count (fun o => o.what.kind = CwOpKind.cwst) x.2.queue
          accepted := x.2.accepted - x.2.queue.length
          queue := [], room := []
          flying := x.2.flying.map (fun o => { o with issuer := none }) })
      else x) }

/-- R382, step 5: an L1 gives up every line it holds; dirty ones go home. -/
def evictAll (s : State) (c : Nat) : List Nat → State
  | [] => s
  | k :: ks => evictAll (evictL1 s c k) c ks

/-- R382, step 5: the lines of every core of a partition that is not fenced. -/
def evictCores (s : State) : List Nat → State
  | [] => s
  | c :: cs => evictCores (if (s.core c).fenced then s else evictAll s c (Map.keys (s.core c).l1)) cs

/-- R382, step 5: whether something of a core's L1 is still on its way to a home, or a home still serves it. -/
def agentBusy (s : State) (c : Nat) : Bool :=
  !(s.core c).fenced && (!(s.core c).xbuf.isEmpty || s.msgs.any (fun m => m.agent = c) ||
    s.dir.any (fun x => x.2.queue.any (fun m => m.agent = c) ||
      (match x.2.cur with | some m => m.agent = c | none => false)))

/-! ## Scrubbing (R339) -/

/-- What names a thread of the cores of a partition is forgotten. -/
def forgetThreads (s : State) (p : Nat) (cs : List Nat) : State :=
  let here := fun (r : TRef) => cs.contains r.core
  { s with
    watches := s.watches.filter (fun w => !(here w.thread && (match w.kind with | .dep _ => false | _ => true)))
    entryWait := s.entryWait.filter (fun x => !here x.1)
    acts := s.acts.filter (fun a => match a.thread with | some r => !here r | none => true)
    barMsgs := s.barMsgs.map (fun m => match m.thread with
      | some r => if here r then { m with thread := none } else m
      | none => m)
    packets := s.packets.filter (fun x => !cs.contains x.2.target &&
      (match x.2.issuer with | some r => !here r | none => true))
    walks := s.walks.filter (fun w => w.part != p)
    invals := s.invals.filter (fun v => !here v.thread)
    out := s.out.map (fun (x : Nat × FabricPacket) => match x.2.thread with
      | some r => if here r then (x.1, { x.2 with thread := none, lid := 0, cmd := none }) else x
      | none => x) }

/-- R339: every core of a partition is scrubbed. -/
def scrubCores (s : State) : List Nat → State
  | [] => s
  | c :: cs => scrubCores (s.modCore c scrubbed) cs

/-- Whether a place is package memory in [a, a + n). -/
def placeWithin (a n : Nat) : Place → Bool
  | .page .coherent _ pa => decide (a ≤ pa) && decide (pa < a + n)
  | _ => false

/-- R339: a region of package memory is zeroed at its homes; every copy is recalled and its watchers are woken. -/
def zeroMemory (s : State) (a n : Nat) : State :=
  let s := ((Map.keys s.dir).filter (fun l => decide (a ≤ 64 * l) && decide (64 * l < a + n))).foldl
    (fun s l => recallAll s (64 * l)) s
  let s := { s with mem := Mem.clear s.mem a n,
                    poison := s.poison.filter (fun l => decide (64 * l < a) || decide (a + n ≤ 64 * l)) }
  ((s.watches.map (·.place)).filter (placeWithin a n)).eraseDups.foldl (fun s p => wakeLine s p) s

/-- R339: the scrub of a partition. -/
def scrub (s : State) (p : Nat) : State :=
  let cs := (s.part p).ctab
  let s := scrubCores (forgetThreads s p cs) cs
  let s := { s with ws := s.ws.map (fun (x : Nat × List Tlb) => (x.1, x.2.filter (fun t => t.part != p))) }
  let s := zeroMemory s (poolBase s p) (poolBytes s p)
  s.modPart p (fun x => { x with hists := [], poolUsed := cs.length * visitorBacking })

/-- R321: TEARDOWN releases the cores and the ports, each of which leaves. -/
def releasePart (s : State) (p : Nat) : State :=
  let s := (s.part p).ctab.foldl (fun s c => s.modCore c (fun k => { k with owner := none })) s
  let ports := (s.ports.filter (fun x => x.2.owner = some p)).map (·.1)
  let s := ports.foldl (fun s i =>
    match (s.port i).state with
    | .member | .recovering => portLeave s i .none 5
    | _ => s.modPort i (fun x => { x with state := .none })) s
  let s := ports.foldl (fun s i => s.modPort i (fun x => { x with owner := none })) s
  s.modPart p (fun x => { x with ctab := [], poolUsed := 0 })

/-- R393: a partition has been stopped for a shutdown; with the last of them the package is off. -/
def stopped (s : State) (p : Nat) : State :=
  let s := s.modPart p (fun x => { x with state := .active, running := 0 })
  if s.parts.any (fun x => x.2.state = .busy) then s
  else { s with plat := { s.plat with off := s.plat.stopping || s.plat.off } }

/-- LAY_BY_SCRUB_COMPLETE (R321, R339, R382): once the commands of a stopped partition have completed, its records
are freed and its lines written back; once nothing of its L1s is on its way, its cores and its pool are scrubbed and
the command ends. -/
def execLayByScrubComplete (part : Nat) (s : State) : Host.Outcome State Fault Refusal :=
  if (s.part part).state != .busy then .next s
  else if s.cmds.any (fun x => x.2.part = part && !x.2.accepted) then .next s
  else
    let s := cancelColls s part
    if s.cmds.any (fun x => x.2.part = part) then .next s
    else
      let cs := (s.part part).ctab
      let s := evictCores (discardQueues (freeLaunches s part) part) cs
      if cs.any (agentBusy s) then .next s
      else if (s.part part).running = 4 then .next (stopped s part)
      else
        let s := scrub s part
        if (s.part part).running = 3 then .next (endCommand (releasePart s part) part 0#8 .absent)
        else .next (endCommand s part 0#8 .active)

end Sys2Proof.Machine
end

