-- ==== Sys2Proof/Machine/Stochastic.lean ====
section
/-!
DEFINITION. Stochastic.lean: streams and their generators (R55 to R58), the stream instructions (R174 to R184)
and the time they take in the stream unit (R185, R186).
-/
namespace Sys2Proof.Machine
open Sys2Proof

/-! ## Streams (R55 to R57) -/

/-- R55: n, where a length code stands for 2^n bits. -/
def streamN (code : BitVec 2) : Nat := 8 + 2 * code.toNat
def streamLen (code : BitVec 2) : Nat := 2 ^ streamN code

/-- R57: P_m over n bits. -/
def genP (m n i : Nat) : Nat :=
  let L := 2 ^ n
  match m with
  | 0 => i
  | 1 => brevN n i
  | 2 => i ^^^ (i / 2)
  | 3 => brevN n (i ^^^ (i / 2))
  | 4 => (165 * i + 83) % L
  | 5 => brevN n ((165 * i + 83) % L)
  | 6 => i % 2 ^ (n - n / 2) * 2 ^ (n / 2) + i / 2 ^ (n - n / 2)
  | _ => brevN n ((59 * i + 45) % L)

/-- R57: K_m. -/
def genK (m : Nat) : Nat :=
  match m with
  | 0 => 0x000
  | 1 => 0x5A3
  | 2 => 0xC3C
  | 3 => 0x2D9
  | 4 => 0x9F0
  | 5 => 0x717
  | 6 => 0xE4B
  | _ => 0x36E

/-- R56: g_c(i) over n bits. -/
def gen (c n i : Nat) : Nat := genP (c % 8) n i ^^^ (genK (c / 8) % 2 ^ n)

/-- Bits as a stream, bit 0 first. -/
def ofBits (l : List Bool) : ZWord := BitVec.ofNat 4096 (l.foldr (fun b acc => (if b then 1 else 0) + 2 * acc) 0)

/-- R55, R58: the stream of X in class c, of a length code. -/
def streamOf (code : BitVec 2) (c X : Nat) : ZReg :=
  let n := streamN code
  { bits := ofBits ((List.range (2 ^ n)).map (fun i => decide (gen c n i < X))), len := code,
    cls := BitVec.ofNat 64 (2 ^ c) }

/-- R178: the ones of a stream. -/
def streamCount (z : ZReg) : Nat := popcN (streamLen z.len) z.bits.toNat

/-! ## The unit (R185, R186, R380) -/

/-- R185: cycles that an instruction occupies the unit. -/
def ssuTime (code : BitVec 2) : Nat :=
  match code.toNat with
  | 0 => 1
  | 1 => 2
  | _ => 8

/-- R185: an instruction enters the unit; its results are there before its thread's next turn, or the thread
waits for them. -/
def ssuRun (s : State) (c slot time : Nat) (w : List RegWrite) : State :=
  let k := s.core c
  let e := Nat.max k.cyc k.ssuBusy + time
  let s := s.setCore c { k with ssuBusy := e }
  if e ≤ k.cyc + 16 then applyWrites s c slot w else beginWait s c slot .waiting (.ssu e w)

/-- R380: the fault of a core whose stream unit is fenced. -/
def ssuFault (k : Core) : Option FaultInfo :=
  if k.fencedFns.getLsbD 4 then some (mkFault fcEngine 0#64 (15#64 + 5#64 * 256#64)) else none

/-- A stream instruction: its faults, then what it does. -/
def opZ (i : Instr) (d : Desc) (body : Nat → Nat → Thread → State → State) :
    State → Host.Outcome State Fault Refusal :=
  issue i d (fun c slot t s => match ssuFault (s.core c) with
    | some f => takeFault s c slot f
    | none => body c slot t s)

/-- R177, R181: ZCTL[1:0] as read at issue. -/
def zctlLen (t : Thread) : BitVec 2 := t.zctl.truncate 2

/-- B2Z (R177). -/
def execB2z (g : BitVec 3) (z : BitVec 4) (a b : BitVec 7) : State → Host.Outcome State Fault Refusal :=
  opZ (.b2z g z a b) { guard := g, g := [a.toNat, b.toNat], z := [z.toNat], reads := [a.toNat, b.toNat] }
    (fun c slot t s =>
      let l := zctlLen t
      ssuRun s c slot (ssuTime l) [.z z.toNat
        (streamOf l ((t.gv b.toNat).toNat % 64) (Nat.min (t.gv a.toNat).toNat (streamLen l)))])

/-- Z2B (R178). -/
def execZ2b (g : BitVec 3) (z : BitVec 4) (a : BitVec 7) : State → Host.Outcome State Fault Refusal :=
  opZ (.z2b g z a) { guard := g, g := [a.toNat], z := [z.toNat], writes := [a.toNat], zreads := [z.toNat] }
    (fun c slot t s =>
      let x := t.zv z.toNat
      ssuRun s c slot (ssuTime x.len) [.g a.toNat (BitVec.ofNat 64 (streamCount x))])

/-- ZCLS (R179); the length code is written last. -/
def execZcls (g : BitVec 3) (z : BitVec 4) (a b : BitVec 7) : State → Host.Outcome State Fault Refusal :=
  opZ (.zcls g z a b) { guard := g, g := [a.toNat, b.toNat], z := [z.toNat], writes := [a.toNat, b.toNat],
                        zreads := [z.toNat] }
    (fun c slot t s =>
      let x := t.zv z.toNat
      writeG (writeG s c slot a.toNat x.cls) c slot b.toNat (zx x.len))

/-- ZRGN (R180). -/
def execZrgn (g : BitVec 3) (z src : BitVec 4) (b : BitVec 7) : State → Host.Outcome State Fault Refusal :=
  opZ (.zrgn g z src b) { guard := g, g := [b.toNat], z := [z.toNat, src.toNat], reads := [b.toNat],
                          zreads := [src.toNat] }
    (fun c slot t s =>
      let x := t.zv src.toNat
      ssuRun s c slot (2 * ssuTime x.len) [.z z.toNat
        (streamOf x.len ((t.gv b.toNat).toNat % 64) (streamCount x))])

/-- ZCLR (R181). -/
def execZclr (g : BitVec 3) (z : BitVec 4) : State → Host.Outcome State Fault Refusal :=
  opZ (.zclr g z) { guard := g, z := [z.toNat] }
    (fun c slot t s => s.modThread c slot (fun u => u.setZ z.toNat
      { bits := 0#4096, len := zctlLen t, cls := 0#64 }))

/-- R183: ZLEN with the two length codes. -/
def zlenFault (x y : ZReg) : FaultInfo := mkFault fcZlen 0#64 (zx x.len + zx y.len * 256#64)

/-- R183: ZCORR with the classes that two streams share. -/
def zcorrFault (x y : ZReg) : FaultInfo := mkFault fcZcorr 0#64 (x.cls &&& y.cls)

/-- R55: the bits below a length. -/
def clip (code : BitVec 2) (w : ZWord) : ZWord := w &&& BitVec.ofNat 4096 (2 ^ streamLen code - 1)

/-- ZAND, ZOR and ZXNOR (R182, R183). -/
def opZ2 (i : Instr) (g : BitVec 3) (d a b : BitVec 4) (f : ZWord → ZWord → ZWord) :
    State → Host.Outcome State Fault Refusal :=
  opZ i { guard := g, z := [d.toNat, a.toNat, b.toNat], zreads := [a.toNat, b.toNat] }
    (fun c slot t s =>
      let x := t.zv a.toNat
      let y := t.zv b.toNat
      if x.len != y.len then takeFault s c slot (zlenFault x y)
      else if x.cls &&& y.cls != 0#64 then takeFault s c slot (zcorrFault x y)
      else ssuRun s c slot (ssuTime x.len)
        [.z d.toNat { bits := clip x.len (f x.bits y.bits), len := x.len, cls := x.cls ||| y.cls }])

/-- ZAND (R182). -/
def execZand (g : BitVec 3) (d a b : BitVec 4) : State → Host.Outcome State Fault Refusal :=
  opZ2 (.zand g d a b) g d a b (fun x y => x &&& y)

/-- ZOR (R182). -/
def execZor (g : BitVec 3) (d a b : BitVec 4) : State → Host.Outcome State Fault Refusal :=
  opZ2 (.zor g d a b) g d a b (fun x y => x ||| y)

/-- ZXNOR (R182). -/
def execZxnor (g : BitVec 3) (d a b : BitVec 4) : State → Host.Outcome State Fault Refusal :=
  opZ2 (.zxnor g d a b) g d a b (fun x y => ~~~(x ^^^ y))

/-- ZNOT (R182). -/
def execZnot (g : BitVec 3) (d a : BitVec 4) : State → Host.Outcome State Fault Refusal :=
  opZ (.znot g d a) { guard := g, z := [d.toNat, a.toNat], zreads := [a.toNat] }
    (fun c slot t s =>
      let x := t.zv a.toNat
      ssuRun s c slot (ssuTime x.len)
        [.z d.toNat { bits := clip x.len (~~~x.bits), len := x.len, cls := x.cls }])

/-- ZMUX (R182, R183). -/
def execZmux (g : BitVec 3) (d a b sel : BitVec 4) : State → Host.Outcome State Fault Refusal :=
  opZ (.zmux g d a b sel) { guard := g, z := [d.toNat, a.toNat, b.toNat, sel.toNat],
                            zreads := [a.toNat, b.toNat, sel.toNat] }
    (fun c slot t s =>
      let x := t.zv a.toNat
      let y := t.zv b.toNat
      let z := t.zv sel.toNat
      if x.len != y.len then takeFault s c slot (zlenFault x y)
      else if x.len != z.len then takeFault s c slot (zlenFault x z)
      else if z.cls &&& x.cls != 0#64 then takeFault s c slot (zcorrFault z x)
      else if z.cls &&& y.cls != 0#64 then takeFault s c slot (zcorrFault z y)
      else ssuRun s c slot (ssuTime x.len)
        [.z d.toNat { bits := clip x.len ((z.bits &&& y.bits) ||| (~~~z.bits &&& x.bits)), len := x.len,
                      cls := x.cls ||| y.cls ||| z.cls }])

/-- SSU_COMPLETE (R185, R186): in cycle e every destination is written and the thread goes on. -/
def execSsuComplete (core slot : Nat) (s : State) : Host.Outcome State Fault Refusal :=
  match s.thread? core slot with
  | none => .next s
  | some t =>
    match t.wait with
    | .ssu e w =>
      .next (if e ≤ (s.core core).cyc then finishWait (applyWrites s core slot w) core slot else s)
    | _ => .next s

end Sys2Proof.Machine
end

