-- ==== Sys2Proof/Machine/System.lean ====
section
/-!
DEFINITION. System.lean: thread-state instructions (R200 to R203), state registers (R24, R204, R205), and the
system instructions INVPG, SELFT and BRK (R206 to R208, R331).
-/
namespace Sys2Proof.Machine
open Sys2Proof

/-! ## Selectors of a thread's state (R202, R187) -/

/-- R14: the STATE word. -/
def stateWord (t : Thread) : Word :=
  let code := match t.code with
    | .free => 0 | .ready => 1 | .running => 2 | .waiting => 3 | .sleeping => 4 | .stopped => 5 | .faulted => 6
    | .spilled => 7
  let bit := fun (b : Bool) (n : Nat) => if b then 2 ^ n else 0
  BitVec.ofNat 64 (code + bit t.away 8 + bit t.sstop 9 + bit t.hold 10 + bit t.wake 11)

/-- R187: a word of a stream register; the length code and the mask stay. -/
def zWord (z : ZReg) (j : Nat) : Word :=
  if 64 * j < streamLen z.len then BitVec.ofNat 64 (bitsOf z.bits.toNat (64 * j) 64) else 0#64

def setZWord (z : ZReg) (j : Nat) (w : Word) : ZReg :=
  if 64 * j < streamLen z.len then
    let n := z.bits.toNat - bitsOf z.bits.toNat (64 * j) 64 * 2 ^ (64 * j) + w.toNat * 2 ^ (64 * j)
    { z with bits := BitVec.ofNat 4096 n }
  else z

/-- A 64-bit chunk of a vector register. -/
def vChunk (v : VWord) (j : Nat) : Word := BitVec.ofNat 64 (bitsOf v.toNat (64 * j) 64)

def setVChunk (v : VWord) (j : Nat) (w : Word) : VWord :=
  BitVec.ofNat 512 (v.toNat - bitsOf v.toNat (64 * j) 64 * 2 ^ (64 * j) + w.toNat * 2 ^ (64 * j))

/-- R202: what a selector names. -/
inductive Sel where
  | g (i : Nat)
  | pc | pw | state | fline | wlim | step
  | v (i j : Nat)
  | z (k j : Nat)
  deriving DecidableEq, Repr

/-- R202: the register of the target that a selector names, if there is one. -/
def selOf (t : Thread) (sel : Word) : Option Sel :=
  let x := sel.toNat
  if x < 0x80 then (if x < t.n then some (.g x) else none)
  else if x = 0x80 then some .pc
  else if x = 0x81 then some .pw
  else if x = 0x82 then some .state
  else if x = 0x83 then some .fline
  else if x = 0x84 then some .wlim
  else if x = 0x85 then some .step
  else if 0x100 ≤ x ∧ x < 0x300 then
    (if (x - 0x100) / 8 < t.m then some (.v ((x - 0x100) / 8) ((x - 0x100) % 8)) else none)
  else if 0x300 ≤ x ∧ x < 0x700 then
    (if (x - 0x300) / 64 < t.zc then some (.z ((x - 0x300) / 64) ((x - 0x300) % 64)) else none)
  else none

/-- The number under which a register's poison is kept; none for a register that has no mark. -/
def Sel.key : Sel → Option Nat
  | .g i => some i
  | .pw => some 128
  | .v i _ => some (256 + i)
  | .z k _ => some (512 + k)
  | _ => none

/-- R202: what TREAD returns. -/
def selRead (t : Thread) : Sel → Word
  | .g i => t.gv i
  | .pc => t.pc
  | .pw => t.pwv.zeroExtend 64
  | .state => stateWord t
  | .fline => t.fline
  | .wlim => t.wlim
  | .step => ofBool t.step
  | .v i j => vChunk (t.vv i) j
  | .z k j => zWord (t.zv k) j

/-- R202: the values a TWRITE refuses with status 5. -/
def selRefuses (x : Sel) (w : Word) : Bool :=
  match x with
  | .state => true
  | .pc => w.toNat % 4 != 0
  | .fline => w.toNat % 64 != 0
  | _ => false

/-- R202: a TWRITE's write. -/
def selWrite (s : State) (c slot : Nat) (t : Thread) (x : Sel) (w : Word) : State :=
  match x with
  | .g i => writeG s c slot i w
  | .pw => writePw s c slot (w.truncate 8)
  | .state => s
  | .pc => s.setThread c slot { t with pc := w }
  | .fline => s.setThread c slot { t with fline := w }
  | .wlim => s.setThread c slot { t with wlim := w }
  | .step => s.setThread c slot { t with step := w.getLsbD 0 }
  | .v i j => s.setThread c slot (t.setV i (setVChunk (t.vv i) j w))
  | .z k j => s.setThread c slot (t.setZ k (setZWord (t.zv k) j w))

/-! ## Outstanding writes (R16, R202) -/

/-- The registers, by the numbers of their marks, that the result of an access goes to. -/
def Finish.dests : Finish → List Nat
  | .none | .join => []
  | .g d _ | .status d => [d]
  | .pair d => [d / 2 * 2, d / 2 * 2 + 1]
  | .feLoad d b => [d, b]
  | .lanes v _ | .whole v | .bcast v => [256 + v]

def RegWrite.dest : RegWrite → Nat
  | .g d _ => d
  | .v d _ => 256 + d
  | .z d _ => 512 + d
  | .flags _ => 0

/-- The registers that an outstanding operation writes when it completes. -/
def waitDests (s : State) (c slot : Nat) : Wait → List Nat
  | .access a => a.fin.dests
  | .sfuPlace r => [256 + r.vd]
  | .sfu => (((s.core c).sfuq.filter (fun r => r.slot = slot)).map (fun r => 256 + r.vd))
  | .ssu _ w => w.map RegWrite.dest
  | .waitge d _ _ _ _ _ => [d]
  | .fe true d _ _ _ _ => [d]
  | .breg d _ | .packet d _ | .invpg d _ | .selft d _ _ _ | .launch d _ | .chkpt d => [d]
  | .cwResult _ d _ _ | .cwFence _ d _ _ | .range _ d _ _ _ => [d]
  | .tact id => (s.acts.filter (fun a => a.id = id)).flatMap (fun a => match a.op with
      | .stop | .start => [a.d]
      | .read d b _ => [d, b]
      | .write b _ _ => [b])
  | _ => []

/-- R16, R202: a TREAD of this register waits for an outstanding write. -/
def writePending (s : State) (c slot : Nat) (t : Thread) (x : Sel) : Bool :=
  match x.key with
  | none => false
  | some k =>
    k != 0 && ((outstanding t.wait && (waitDests s c slot t.wait).contains k) ||
      t.relaxed.any (fun y => y.fault.isNone && (y.dstG = some k || y.dstV.map (256 + ·) = some k)))

/-! ## Thread-state acts (R200 to R202) -/

/-- R200 order 2: the rights that an act needs. -/
def TOp.needs : TOp → List Nat
  | .stop => [0]
  | .start => [1]
  | .read _ _ _ => [2]
  | .write _ sel v => if sel = 0x85#64 && v.getLsbD 0 then [3, 4] else [3]

/-- R200, orders 1 and 2. -/
def actRefused (a : TAct) : Bool :=
  hPart a.handle != a.part || a.op.needs.any (fun r => !a.rights.getLsbD r)

/-- What an act does: a status, and the value of a TREAD; or it waits (R202). -/
inductive ActResult where
  | done (status : Nat) (value : Word)
  | waits
  deriving DecidableEq, Repr

/-- R201, R202, once orders 1 to 4 of R200 are passed. -/
def actOn (s : State) (c slot : Nat) (t : Thread) (op : TOp) : State × ActResult :=
  let still := t.code = .stopped || t.code = .faulted
  match op with
  | .stop => (stopThread (s.setThread c slot { t with sstop := true }) c slot, .done 0 0#64)
  | .start =>
    let s := s.setThread c slot { t with sstop := false }
    if t.code = .faulted then (if t.hold then (s, .done 0 0#64) else (restart s c slot, .done 0 0#64))
    else (unstop s c slot, .done 0 0#64)
  | .read _ _ sel =>
    if !still then (s, .done 4 0#64)
    else match selOf t sel with
      | none => (s, .done 5 0#64)
      | some x =>
        if writePending s c slot t x then (s, .waits)
        else if (match x.key with | some k => t.poison.contains k | none => false) then
          (logEvent s (coreBank c) t.part 2 0x8005#16 0#64 (handleOf s c slot) 0#64 (cycWord s c), .done 0 0#64)
        else (s, .done 0 (selRead t x))
  | .write _ sel w =>
    if !still then (s, .done 4 0#64)
    else match selOf t sel with
      | none => (s, .done 5 0#64)
      | some x => if selRefuses x w then (s, .done 5 0#64) else (selWrite s c slot t x w, .done 0 0#64)

/-- R200: an act on a thread of this package. -/
def actAt (s : State) (a : TAct) : State × ActResult :=
  if actRefused a then (s, .done 1 0#64)
  else if hPkg a.handle != s.pkg then (s, .done 2 0#64)
  else match namedCore s a.part a.handle with
    | none => (s, .done 2 0#64)
    | some c =>
      match s.thread? c (hSlot a.handle) with
      | none => (s, .done 2 0#64)
      | some t =>
        if genOf (s.core c) (hSlot a.handle) != hGen a.handle then (s, .done 3 0#64)
        else actOn s c (hSlot a.handle) t a.op

/-- R202: the issuer receives the value and the status. -/
def actDone (s : State) (r : TRef) (a : TAct) (status : Nat) (value : Word) : State :=
  let c := r.core
  let slot := r.slot
  let st : Word := BitVec.ofNat 64 status
  let s := { s with acts := s.acts.filter (fun x => x.id != a.id) }
  match a.op with
  | .stop | .start => finishWait (writeG s c slot a.d st) c slot
  | .read d b _ =>
    let s := if status = 0 then writeG s c slot d value else s
    finishWait (writeG s c slot b st) c slot
  | .write b _ _ => finishWait (writeG s c slot b st) c slot

/-- THREAD_STATE_ACT (R200): the act of the thread that waits for it is performed. -/
def execThreadStateAct (core slot : Nat) (s : State) : Host.Outcome State Fault Refusal :=
  match waitOf s ⟨core, slot⟩ with
  | some (.tact id) =>
    match s.acts.find? (fun a => a.id = id) with
    | none => .next s
    | some a =>
      match actAt s a with
      | (s', .done st v) => .next (actDone s' ⟨core, slot⟩ a st v)
      | (_, .waits) => .next s
  | _ => .next s

/-- R199, R200: an act leaves its issuer, who waits. -/
def startAct (s : State) (c slot : Nat) (t : Thread) (op : TOp) (d : Nat) (h : Word) : State :=
  let rights := if hPart h != t.part then (s, Except.ok 0#32) else rightsOver s c t h
  match rights with
  | (s, .error f) => takeFault s c slot f
  | (s, .ok r) =>
    let a : TAct := { id := s.fresh, thread := some ⟨c, slot⟩, handle := h, op := op, d := d, rights := r,
                      part := t.part }
    let s' := beginWait s c slot .waiting (.tact s.fresh)
    if hPkg h != s.pkg && !actRefused a && reach s t.part (hPkg h) then
      let p : FabricPacket := { id := s.fresh, kind := 6, addr := domAddr (hPkg h) 0, part := t.part, data := [],
                                thread := some ⟨c, slot⟩, act := some a }
      ({ s' with out := Map.set s'.out s.fresh p } : State).bump
    else (({ s' with acts := s'.acts ++ [a] } : State).bump).post (.threadStateAct c slot)

/-- TSTOP (R200, R201). -/
def execTstop (g : BitVec 3) (d a : BitVec 7) : State → Host.Outcome State Fault Refusal :=
  issue (.tstop g d a)
    { guard := g, g := [d.toNat, a.toNat], reads := [a.toNat], writes := [d.toNat], drain := true,
      commit := fun _ => true }
    (fun c slot t s => startAct s c slot t .stop d.toNat (t.gv a.toNat))

/-- TSTART (R200, R201). -/
def execTstart (g : BitVec 3) (d a : BitVec 7) : State → Host.Outcome State Fault Refusal :=
  issue (.tstart g d a)
    { guard := g, g := [d.toNat, a.toNat], reads := [a.toNat], writes := [d.toNat], drain := true,
      commit := fun _ => true }
    (fun c slot t s => startAct s c slot t .start d.toNat (t.gv a.toNat))

/-- TREAD (R200, R202). -/
def execTread (g : BitVec 3) (d a b : BitVec 7) : State → Host.Outcome State Fault Refusal :=
  issue (.tread g d a b)
    { guard := g, g := [d.toNat, a.toNat, b.toNat], reads := [a.toNat, b.toNat], writes := [d.toNat, b.toNat],
      drain := true, commit := fun _ => true }
    (fun c slot t s => startAct s c slot t (.read d.toNat b.toNat (t.gv b.toNat)) 0 (t.gv a.toNat))

/-- TWRITE (R200, R202). -/
def execTwrite (g : BitVec 3) (d a b : BitVec 7) : State → Host.Outcome State Fault Refusal :=
  issue (.twrite g d a b)
    { guard := g, g := [d.toNat, a.toNat, b.toNat], reads := [d.toNat, a.toNat, b.toNat], writes := [b.toNat],
      drain := true, commit := fun _ => true }
    (fun c slot t s =>
      startAct s c slot t (.write b.toNat (t.gv b.toNat) (t.gv d.toNat)) 0 (t.gv a.toNat))

/-! ## State registers (R24, R204, R205) -/

/-- R24: CKPT as a thread of the core reads it. -/
def ckptWord (k : Core) : Word :=
  match k.lock with
  | none => 0#64
  | some L => BitVec.ofNat 64 (1 + (if L.odd then 2 else 0) + L.count * 2 ^ 32)

/-- R24: what GETS reads. -/
def stateReg (s : State) (c slot : Nat) (t : Thread) (sel : Nat) : Word :=
  let hdr := (s.launch? t.lid).map (·.hdr)
  let k := s.core c
  match sel with
  | 0x00 => t.wid
  | 0x01 => match hdr with | some h => BitVec.ofNat 64 (widField h t.wid h.tfield % 65536) | none => 0#64
  | 0x02 => match hdr with | some h => BitVec.ofNat 64 h.gsize | none => 0#64
  | 0x03 => match k.owner with | some (_, l) => BitVec.ofNat 64 l | none => 0#64
  | 0x04 => match hdr with | some h => BitVec.ofNat 64 (bandIndex h t.wid % 65536) | none => 0#64
  | 0x05 => t.fmt
  | 0x06 => t.scl
  | 0x07 => t.fpctl
  | 0x08 => t.fpflg
  | 0x09 => t.fline
  | 0x0A => t.wlim
  | 0x0B => t.geom0
  | 0x0C => t.geom1
  | 0x0D => t.zctl
  | 0x0E => cycWord s c
  | 0x0F => handleOf s c slot
  | 0x10 => t.authp
  | 0x11 => BitVec.ofNat 64 k.xb
  | 0x12 => BitVec.ofNat 64 t.part
  | 0x13 => ckptWord k
  | _ => t.srseed

/-- GETS (R204). -/
def execGets (g : BitVec 3) (d : BitVec 7) (sel : BitVec 9) : State → Host.Outcome State Fault Refusal :=
  issue (.gets g d sel) { guard := g, g := [d.toNat], writes := [d.toNat] }
    (fun c slot t s => writeG s c slot d.toNat (stateReg s c slot t sel.toNat))

/-- R24, R204: the values that a SETS refuses with ILLEGAL. -/
def setsIllegal (sel : Nat) (v : Word) : Bool :=
  match sel with
  | 0x07 => decide (8 ≤ v.toNat)
  | 0x08 => decide (32 ≤ v.toNat)
  | 0x0B => v.getLsbD 63
  | 0x0D => decide (3 ≤ v.toNat)
  | 0x11 => v.toNat % 64 != 0 || decide (0x20000 < v.toNat)
  | _ => false

/-- R204, R205: what a SETS writes. -/
def setsWrite (s : State) (c slot sel : Nat) (v : Word) : State :=
  let m := fun (f : Thread → Thread) => s.modThread c slot f
  match sel with
  | 0x07 => m (fun t => { t with fpctl := v })
  | 0x08 => m (fun t => { t with fpflg := v })
  | 0x09 => m (fun t => { t with fline := v })
  | 0x0A => m (fun t => { t with wlim := v })
  | 0x0B => m (fun t => { t with geom0 := v })
  | 0x0C => m (fun t => { t with geom1 := v })
  | 0x0D => m (fun t => { t with zctl := v })
  | 0x11 => s.modCore c (fun k => { k with xb := v.toNat })
  | 0x14 => m (fun t => { t with srseed := v })
  | _ => s

/-- SETS after its right: the checks of R24, items 2 and 3, and the write. -/
def setsChecked (s : State) (c slot sel : Nat) (v : Word) : State :=
  if setsIllegal sel v then takeFault s c slot (mkFault fcIllegal 0#64 (BitVec.ofNat 64 sel))
  else if sel = 0x09 && v.toNat % 64 != 0 then takeFault s c slot (mkFault fcMisalign v 64#64)
  else setsWrite s c slot sel v

/-- SETS (R24, R204, R205). -/
def execSets (g : BitVec 3) (a : BitVec 7) (sel : BitVec 9) : State → Host.Outcome State Fault Refusal :=
  issue (.sets g a sel) { guard := g, g := [a.toNat], reads := [a.toNat] }
    (fun c slot t s =>
      if sel = 0x11#9 then
        match needRight s c slot t 5 with
        | (s, some f) => takeFault s c slot f
        | (s, none) => setsChecked s c slot sel.toNat (t.gv a.toNat)
      else setsChecked s c slot sel.toNat (t.gv a.toNat))

/-! ## INVPG (R206, R331) -/

/-- R206: the bits of a page of a size, and for size 3 the whole address space. -/
def sizeBits (size : Nat) : Nat :=
  match size with
  | 0 => 16
  | 1 => 21
  | 2 => 30
  | _ => 64

/-- R330, R331: whether a cached translation is one that an invalidation removes. -/
def invalHits (v : Inval) (e : Tlb) : Bool :=
  e.part = v.part && e.proc = v.proc &&
    (v.size = 3 || (e.bits = sizeBits v.size && e.page = v.va.toNat / 2 ^ sizeBits v.size))

/-- Whether an address lies in the page. -/
def invalCovers (v : Inval) (va : Nat) : Bool := va / 2 ^ sizeBits v.size = v.va.toNat / 2 ^ sizeBits v.size

/-- R331: whether an outstanding piece has been translated with a removed entry. -/
def unitHit (es : List Tlb) (u : MUnit) : Bool :=
  u.out.isNone && (match u.place with
    | some (.page kind pkg pa) => es.any (fun e => e.kind = kind && e.pkg = pkg && e.page = u.va.toNat / 2 ^ e.bits &&
        e.pa u.va = pa)
    | _ => false)

/-- The accesses of a thread that an invalidation waits for. -/
def accsHit (es : List Tlb) (r : TRef) (t : Thread) : List (TRef × Option Nat × Nat) :=
  (none :: t.relaxed.map (fun x => some x.id)).filterMap (fun rid =>
    match accOf t rid with
    | some a => if a.units.any (unitHit es) then some (r, rid, a.issued) else none
    | none => none)

/-- R331: whether a domain physical address is one that a removed entry maps. -/
def entryMaps (es : List Tlb) (a : Nat) : Bool :=
  es.any (fun e => decide (domAddr e.pkg e.frame ≤ a) && decide (a < domAddr e.pkg e.frame + 2 ^ e.bits))

/-- R331: whether a place is one that a removed entry maps. -/
def placeHit (es : List Tlb) : Place → Bool
  | .page _ pkg pa => entryMaps es (domAddr pkg pa)
  | _ => false

/-- R331: the packets on their way to a page that a removed entry maps. -/
def packetHit (part : Nat) (es : List Tlb) (p : FabricPacket) : Bool :=
  p.kind = 0 && p.part = part && entryMaps es p.addr

/-- R331: the partition of a barrier message: its thread's or its command's. -/
def barPart (s : State) (m : BarMsg) : Option Nat :=
  match m.thread, m.cmd.bind (fun i => Map.get? s.cmds i) with
  | some r, _ => (s.thread? r.core r.slot).map (·.part)
  | none, some c => some c.part
  | none, none => none

/-- R331: the messages to barrier objects in a page that a removed entry maps; of one whose thread is gone the partition
is not known. -/
def barHit (s : State) (part : Nat) (es : List Tlb) (m : BarMsg) : Bool :=
  placeHit es m.place && (match barPart s m with
    | some p => p = part
    | none => true)

/-- R331: whether a command's operands, its completion's place or its milestone were translated in the page. -/
def cmdHit (s : State) (w : Nat) (v : Inval) (es : List Tlb) (c : Cmd) : Bool :=
  coreWs s c.core = w && c.part = v.part && c.proc = v.proc &&
    (c.dst.any (fun d => invalCovers v (d.1 * 65536)) || (c.cpl.map (placeHit es)).getD false ||
      (c.ms.map (entryMaps es)).getD false)

/-- R331: whether a thread is in the middle of an instruction that has been translated with a removed entry, beside its
accesses: a self-test's record, a range operation, a posted store that the port has not accepted, a BREG. -/
def doingHit (es : List Tlb) (v : Inval) (t : Thread) : Bool :=
  match t.wait with
  | .selft _ _ p _ => placeHit es p
  | .range _ _ va _ (some _) => invalCovers v va.toNat
  | .post a _ => entryMaps es a
  | .breg _ p => placeHit es p
  | _ => false

/-- R331: whether a thread still is. -/
def stillDoing (t : Thread) : Bool :=
  match t.wait with
  | .selft _ _ _ _ | .range _ _ _ _ (some _) | .post _ _ | .breg _ _ => true
  | _ => false

/-- The threads that a waystation serves, of the invalidation's process. -/
def servedThreads (s : State) (w : Nat) (v : Inval) : List (TRef × Thread) :=
  (s.cores.flatMap (fun (c : Nat × Core) => c.2.threads.map (fun (t : Nat × Thread) =>
    ((⟨c.1, t.1⟩ : TRef), t.2)))).filter
    (fun (x : TRef × Thread) => coreWs s x.1.core = w && x.2.part = v.part && x.2.proc = v.proc)

/-- R331: the invalidation, once it has met a waystation: what was translated there with a removed entry is to be
waited for. -/
def meetInval (s : State) (w : Nat) (v : Inval) : Inval :=
  let gone := (wsOf s w).filter (fun e => invalHits v e)
  { v with
    left := v.left.filter (· != w)
    accs := v.accs ++ (servedThreads s w v).flatMap (fun (x : TRef × Thread) => accsHit gone x.1 x.2)
    cmds := v.cmds ++ (s.cmds.filter (fun (c : Nat × Cmd) => cmdHit s w v gone c.2)).map (fun (c : Nat × Cmd) => c.1)
    bars := v.bars ++ (s.barMsgs.filter (barHit s v.part gone)).map (·.id)
    doing := v.doing ++ ((servedThreads s w v).filter (fun x => doingHit gone v x.2)).map (fun x => (x.1, x.2.ipc))
    sent := v.sent ++ (s.out.filter (fun (p : Nat × FabricPacket) => packetHit v.part gone p.2)).map
      (fun (p : Nat × FabricPacket) => p.1) }

/-- R331: a walk of the page is marked. -/
def markWalk (v : Inval) (w : Nat) (k : Walk) : Walk :=
  if k.ws = w && k.part = v.part && k.proc = v.proc && invalCovers v k.va.toNat then { k with marked := true } else k

/-- WAYSTATION_INVALIDATE (R331): an invalidation reaches a waystation: matching entries are removed, walks of the
page are marked, and what was translated with a removed entry is to be waited for. -/
def execWaystationInvalidate (w id : Nat) (s : State) : Host.Outcome State Fault Refusal :=
  match s.invals.find? (fun v => v.id = id) with
  | none => .next s
  | some v =>
    if !v.left.contains w then .next s
    else
      let v' := meetInval s w v
      let s := { s with
        ws := Map.set s.ws w ((wsOf s w).filter (fun e => !invalHits v e))
        walks := s.walks.map (markWalk v w)
        invals := s.invals.map (fun (x : Inval) => if x.id = id then v' else x) }
      .next (if v'.left.isEmpty then s.post (.invpgComplete v.thread.core v.thread.slot) else s)

/-- R331: whether everything an invalidation waits for has been performed. -/
def invalDone (s : State) (v : Inval) : Bool :=
  v.left.isEmpty &&
    v.accs.all (fun x => match s.thread? x.1.core x.1.slot with
      | none => true
      | some t => match accOf t x.2.1 with
        | none => true
        | some a => a.issued != x.2.2) &&
    v.cmds.all (fun c => !Map.has s.cmds c) && v.sent.all (fun p => !Map.has s.out p) &&
    v.bars.all (fun i => !s.barMsgs.any (fun m => m.id = i)) &&
    v.doing.all (fun x => match s.thread? x.1.core x.1.slot with
      | none => true
      | some t => t.ipc != x.2 || !stillDoing t)

/-- INVPG_COMPLETE (R206): the invalidation is complete everywhere. -/
def execInvpgComplete (core slot : Nat) (s : State) : Host.Outcome State Fault Refusal :=
  match waitOf s ⟨core, slot⟩ with
  | some (.invpg d id) =>
    match s.invals.find? (fun v => v.id = id) with
    | none => .next s
    | some v =>
      if invalDone s v then
        let s := { s with invals := s.invals.filter (fun x => x.id != id) }
        let s := s.launches.foldl (fun (s : State) (x : Nat × Launch) =>
          if x.2.part = v.part && x.2.hdr.proc = v.proc && x.2.hdr.dep != 0#64 && x.2.ready.isNone then
            s.post (.dependenceCancel x.1)
          else s) s
        .next (finishWait (writeG s core slot d 0#64) core slot)
      else .next s
  | _ => .next s

/-- The waystations of the package (R330). -/
def allWs : List Nat := List.range 32

/-- INVPG's own effect, once its right is found. -/
def startInvpg (s : State) (c slot : Nat) (t : Thread) (d : Nat) (va ctl : Word) : State :=
  let v : Inval := { id := s.fresh, thread := ⟨c, slot⟩, part := t.part, proc := bitsOf ctl.toNat 0 16, va := va,
                     size := bitsOf ctl.toNat 16 2, left := allWs }
  let s' := beginWait s c slot .waiting (.invpg d s.fresh)
  allWs.foldl (fun x w => x.post (.waystationInvalidate w s.fresh))
    ({ s' with invals := s'.invals ++ [v] } : State).bump

/-- INVPG (R206). -/
def execInvpg (g : BitVec 3) (d a b : BitVec 7) : State → Host.Outcome State Fault Refusal :=
  issue (.invpg g d a b)
    { guard := g, g := [d.toNat, a.toNat, b.toNat], reads := [a.toNat, b.toNat], writes := [d.toNat], drain := true }
    (fun c slot t s =>
      match needRight s c slot t 6 with
      | (s, some f) => takeFault s c slot f
      | (s, none) => startInvpg s c slot t d.toNat (t.gv a.toNat) (t.gv b.toNat))

/-! ## SELFT and BRK (R207, R208, R379) -/

/-- R379: the cycles of the test of a unit. -/
def selftCycles (unit : Nat) : Nat :=
  match unit with
  | 0 => 20000
  | 1 => 40000
  | 2 => 30000
  | 3 => 200000
  | 4 => 20000
  | 5 => 300000
  | 6 => 60000
  | _ => 120000

/-- R379: the cycles that the tests of the selected units take. -/
def selftTime (mask : BitVec 8) : Nat :=
  (((List.range 8).filter (fun u => mask.getLsbD u)).map selftCycles).sum

/-- SELFT's checks and its start (R207). -/
def startSelft (s : State) (c slot : Nat) (t : Thread) (d : Nat) (mask : BitVec 8) (va : Word) : State :=
  match needRight s c slot t 8 with
  | (s, some f) => takeFault s c slot f
  | (s, none) =>
    if va.toNat % 64 != 0 then takeFault s c slot (mkFault fcMisalign va 64#64)
    else match resolve s c t.part t.proc va .st with
      | (s, .error f) => takeFault s c slot f
      | (s, .ok (p, _)) =>
        (beginWait s c slot .waiting (.selft d mask p ((s.core c).cyc + selftTime mask))).modCore c
          (fun k => { k with selft := some slot })

/-- SELFT (R207). -/
def execSelft (g : BitVec 3) (d a b : BitVec 7) : State → Host.Outcome State Fault Refusal :=
  issue (.selft g d a b)
    { guard := g, g := [d.toNat, a.toNat, b.toNat], reads := [a.toNat, b.toNat], writes := [d.toNat], drain := true }
    (fun c slot t s => startSelft s c slot t d.toNat ((t.gv a.toNat).truncate 8) (t.gv b.toNat))

/-- BRK (R208): BREAK, word 5 the immediate. -/
def execBrk (g : BitVec 3) (imm : BitVec 21) : State → Host.Outcome State Fault Refusal :=
  issue (.brk g imm) { guard := g }
    (fun c slot _ s => takeFault s c slot (mkFault fcBreak 0#64 (imm.zeroExtend 64)))

end Sys2Proof.Machine
end

