-- ==== Sys2Proof/Machine/Fabric.lean ====
section
/-!
DEFINITION. Fabric.lean: packets between packages: posted writes and their milestones (R366), remote reads and
atomics (R367), thread-state acts and messages that cross packages (R192, R200).
-/
namespace Sys2Proof.Machine
open Sys2Proof

/-- The lines of [a, a + n), by an address in each. -/
def linesIn (a n : Nat) : List Nat := (List.range ((a % 64 + n + 63) / 64)).map (fun i => (a / 64 + i) * 64)

/-- R366, R367: whether the bytes of a packet can be reached here: they are populated package memory, and the
packet's partition exists in this package. -/
def packetOk (s : State) (x : FabricPacket) (n : Nat) : Bool :=
  let pa := x.addr % 2 ^ 50
  (linesIn pa n).all (populated s) && populated s pa && decide (pa + n ≤ 2 ^ 42) &&
    (s.part x.part).state != .absent

/-- R366, R367, R378: a packet that could not be performed. -/
def logDrop (s : State) (x : FabricPacket) (n : Nat) : State :=
  logEvent s 0xA4B x.part 2 0x800B#16 (BitVec.ofNat 64 x.addr) 0#64 (BitVec.ofNat 64 n) (nowWord s)

/-- R366: the milestone word, when it lies in this package. -/
def msHere (s : State) (x : FabricPacket) : Option Nat :=
  match x.ms with
  | some m => if m / 2 ^ 50 = s.pkg && populated s (m % 2 ^ 50) then some (m % 2 ^ 50) else none
  | none => none

/-- R366: the AADD of a milestone at its home; a poisoned word is left as it is (R375). -/
def addMilestone (s : State) (x : FabricPacket) : State :=
  match msHere s x with
  | none => s
  | some pa =>
    let v := readPlace s noCore (.page .coherent s.pkg pa) 8
    if v.2 then s
    else writePlace s 0 (.page .coherent s.pkg pa) (wordBytes (leWord v.1 + BitVec.ofNat 64 x.data.length)) false

/-- The piece of an access that a packet serves. -/
def packetPiece (x : FabricPacket) (u : MUnit) (p : Place) : Bool :=
  u.sent && (match p with
    | .page .remotePosted pkg pa => domAddr pkg pa = x.addr && u.size = x.size
    | _ => false)

/-- R366: the payload of a posted packet that has reached this package, in the turn of its next line. -/
def takePayload (s : State) (x : FabricPacket) : State :=
  let pa := x.addr % 2 ^ 50 + x.pos
  let n := Nat.min (64 - pa % 64) (x.data.length - x.pos)
  let s := { s with inbox := Map.set s.inbox x.id { x with pos := x.pos + n } }
  (writePlace s 0 (.page .coherent s.pkg pa) (slice x.data x.pos n) x.poison).post (.postedWriteArrive x.id)

/-- R225, R346, R366: a posted packet at its target: its payload, each line in its turn, and then its milestone; or it is
dropped whole. -/
def takePosted (s : State) (x : FabricPacket) : State :=
  let e : Event := .postedWriteArrive x.id
  let over_ := fun (s : State) => { s with inbox := Map.erase s.inbox x.id }
  if !packetOk s x x.data.length then logDrop (over_ s) x x.data.length
  else if x.pos < x.data.length then
    atHome s e ((x.addr % 2 ^ 50 + x.pos) / 64) true false (fun s => takePayload s x)
  else match msHere s x with
    | some pa => atHome s e (pa / 64) true false (fun s => addMilestone (over_ s) x)
    | none => over_ s

/-- R222: the copies that a command's core and its die hold of the lines that its packet has written are dropped: what its
threads read from now on is what the packet wrote, or later. -/
def dropCopies (s : State) (c : Nat) (x : FabricPacket) : State :=
  (linesIn x.addr x.data.length).foldl (fun s a =>
    let key := a / 64
    let s := s.modCore c (fun k => { k with l1 := Map.erase k.l1 key })
    setRdc s (coreDie c) (Map.erase (rdcOf s (coreDie c)) key)) s

/-- R227: a relaxed store of a thread has been performed at its target. -/
def storeDone (s : State) (r : TRef) (x : FabricPacket) : State :=
  match x.rid with
  | none => s
  | some id =>
    completeIfDone (performWhere s r (some id)
      (fun _ u p => match u.op with
        | .store _ => packetPiece x u p
        | _ => false)
      (fun s _ _ => (s, some [])) (pieceNos s r (some id))) r (some id)

/-- A posted packet of this package has been performed at its target: its thread, command and launch go on. -/
def postedDone (s : State) (x : FabricPacket) : State :=
  let s := { s with out := Map.erase s.out x.id }
  let s := match x.cmd.bind (fun id => Map.get? s.cmds id) with
    | some c => (modCmd (dropCopies s c.core x) c.id (fun c =>
        { c with unacked := c.unacked.filter (· != x.id) })).post (.engineComplete c.id)
    | none => s
  let s := match x.thread with
    | some r => let s := storeDone s r x; pumpAll (recheckFence s r) r
    | none => s
  let s := postWaiting s
  if x.lid = 0 then s else s.post (.launchCompletion x.lid)

/-- POSTED_WRITE_ARRIVE (R366): a posted packet is performed at its target: one of this package's at another, or
one that has reached this package. -/
def execPostedWriteArrive (id : Nat) (s : State) : Host.Outcome State Fault Refusal :=
  match (Map.get? s.out id).filter (fun x => x.kind = 0) with
  | some x => .next (postedDone s x)
  | none =>
    match (Map.get? s.inbox id).filter (fun x => x.kind = 0) with
    | none => .next s
    | some x => .next (settleAct (takePosted s { x with id := id }) (.postedWriteArrive id))

/-- A packet sent in answer to one that has reached this package. -/
def sendAnswerTo (s : State) (x : FabricPacket) (kind : Nat) (data : List Byte) (poison : Bool) : State :=
  let p : FabricPacket := { id := s.fresh, kind := kind, addr := x.addr, part := x.part, size := data.length,
                            data := data, poison := poison, thread := none, rid := some x.id }
  ({ s with out := Map.set s.out s.fresh p, inbox := Map.erase s.inbox x.id } : State).bump

/-- REMOTE_READ (R340, R367): a read packet is served at the home of its line, whole. -/
def execRemoteRead (id : Nat) (s : State) : Host.Outcome State Fault Refusal :=
  match (Map.get? s.inbox id).filter (fun x => x.kind = 1) with
  | none => .next s
  | some x =>
    let e : Event := .remoteRead id
    let pa := x.addr % 2 ^ 50 / 64 * 64
    if !packetOk s x 1 then .next (settleAct (logDrop (sendAnswerTo s x 2 [] false) x x.size) e)
    else .next (atHome s e (pa / 64) false false (fun s =>
      let v := lineNow s pa
      sendAnswerTo s x 2 v.1 v.2))

/-- R367: an access that a packet serves is refused. -/
def refuseAccess (s : State) (r : TRef) (x : FabricPacket) : State :=
  match (s.thread? r.core r.slot).bind (fun t => accOf t x.rid) with
  | none => s
  | some a =>
    match a.units.find? (fun u => match u.place with | some p => u.out.isNone && packetPiece x u p | none => false) with
    | some u => failAcc s r x.rid (prot u.va 3)
    | none => s

/-- R218, R340, R367: a line of another package as a copy in the RDC of the reader's die, and in its L1. -/
def fillCopy (s : State) (c key : Nat) (data : List Byte) (poison : Bool) : State :=
  let l : CLine := { st := .s, kind := .remotePosted, data := data, poison := poison }
  let s := rdcPut s (coreDie c) key { l with term := some (s.now + copyTerm) }
  fillL1 s c key { l with term := some ((s.core c).cyc + copyTerm) }

/-- R367, R394: a read's line has arrived: the copy is filled, and the reader receives its bytes. -/
def takeLine (s : State) (r : TRef) (x : FabricPacket) (data : List Byte) (poison : Bool) : State :=
  let s := fillCopy s r.core (x.addr / 64) data poison
  let s := match (s.thread? r.core r.slot).bind (fun t => (accOf t x.rid).map (fun a => (t.part, a.issued))) with
    | some (p, n) => sampleHist s p 2 ((s.core r.core).cyc - n)
    | none => s
  let f := fun (s : State) (u : MUnit) (p : Place) =>
    (s, if poison then none else some (slice data (p.off % 64) u.size))
  completeIfDone (performWhere s r x.rid (fun _ u p => packetPiece x u p) f (pieceNos s r x.rid)) r x.rid

/-- REMOTE_READ_RESPONSE (R367): the answer to a read packet: the 64 bytes of the line; bytes of any other number
stand for a poisoned line, and none for a refusal. -/
def execRemoteReadResponse (id : Nat) (data : Option (List Byte)) (s : State) : Host.Outcome State Fault Refusal :=
  match (Map.get? s.out id).filter (fun x => x.kind = 1) with
  | none => .next s
  | some x =>
    let s := { s with out := Map.erase s.out id }
    match x.thread with
    | none => .next (postWaiting s)
    | some r =>
      match data with
      | none => .next (postWaiting (refuseAccess s r x))
      | some bs =>
        if bs.length = 64 then .next (postWaiting (takeLine s r x bs false))
        else .next (postWaiting (takeLine s r x (List.replicate 64 0#8) true))

/-- R367: an atomic of another package performed at its home in one act. -/
def atomicHere (s : State) (x : FabricPacket) (op : UnitOp) : State :=
  let p : Place := .page .coherent s.pkg (x.addr % 2 ^ 50)
  let v := readPlace s noCore p x.size
  if v.2 then sendAnswerTo s x 4 [] true
  else match op.writes v.1 with
    | some bs => sendAnswerTo (writePlace s 0 p bs false) x 4 v.1 false
    | none => sendAnswerTo s x 4 v.1 false

/-- R200, R202: a thread-state act of another package is performed, or waits (R202). -/
def actHere (s : State) (x : FabricPacket) (a : TAct) : State :=
  let a := { a with id := x.id, thread := none }
  match actAt s a with
  | (s', .done st v) =>
    sendAnswerTo { s' with acts := s'.acts.filter (fun y => y.id != x.id || y.thread.isSome) } x 4
      (BitVec.ofNat 8 st :: wordBytes v) false
  | (_, .waits) =>
    if s.acts.any (fun y => y.id = x.id && y.thread.isNone) then s else { s with acts := s.acts ++ [a] }

/-- REMOTE_ATOMIC (R200, R367): an atomic packet, or a thread-state act, is performed at its target. -/
def execRemoteAtomic (id : Nat) (s : State) : Host.Outcome State Fault Refusal :=
  match Map.get? s.inbox id with
  | none => .next s
  | some x =>
    match x.kind, x.op, x.act with
    | 3, some op, _ =>
      let e : Event := .remoteAtomic id
      if !packetOk s x x.size then .next (settleAct (logDrop (sendAnswerTo s x 4 [] false) x x.size) e)
      else .next (atHome s e (x.addr % 2 ^ 50 / 64) true false (fun s => atomicHere s x op))
    | 6, _, some a => .next (actHere s x a)
    | _, _, _ => .next s

/-- R218, R367: the old value of an atomic reaches its thread, whose copy of the line sees the write. -/
def takeOld (s : State) (r : TRef) (x : FabricPacket) (old : List Byte) : State :=
  let s := match x.op.bind (fun op => if old.length = x.size then op.writes old else none) with
    | some bs => ownWrite s r.core (x.addr / 2 ^ 50) (x.addr % 2 ^ 50) bs
    | none => s
  let f := fun (s : State) (u : MUnit) (_ : Place) => (s, if old.length = u.size then some old else none)
  completeIfDone (performWhere s r x.rid (fun _ u p => packetPiece x u p) f (pieceNos s r x.rid)) r x.rid

/-- R318: a completion's write to another package has been made, or refused and logged. -/
def completionDone (s : State) (lid : Nat) (ok : Bool) : State :=
  let s := if ok then s else
    match s.launch? lid with
    | some l =>
      match if l.done then l.node.bind (fun n => s.replays.find? (fun x => x.id = n.1)) else none with
      | some x => logLaunchWrite s x.part x.done 0#64
      | none => logLaunchWrite s l.part l.hdr.done (l.status.zeroExtend 64)
    | none => s
  s.post (.launchCompletion lid)

/-- R192: a message's sender receives its answer: a status byte, 2 when the packet was refused. -/
def messageDone (s : State) (r : TRef) (id status : Nat) : State :=
  match waitOf s r with
  | some (.packet d n) =>
    if n = id then finishWait (writeG s r.core r.slot d (BitVec.ofNat 64 status)) r.core r.slot else s
  | _ => s

/-- R191, R240, R244: the two answers to a MIGRATE packet: first the thread has its visitor slot there and leaves its
old one; then it has ended, and its group is told. -/
def migrantDone (s : State) (x : FabricPacket) (m : Packet) : State :=
  match x.thread with
  | some r =>
    if waitOf s r = some (.packet 0 x.id) then
      leaveSlot { s with out := Map.set s.out x.id { x with thread := none } } r
    else s
  | none =>
    let s := { s with out := Map.erase s.out x.id }
    if m.handler then s else awayEnded s m.gid m.origin

/-- R200: the answer to an act on a thread of another package: a status byte and the eight bytes of a value. -/
def foreignActDone (s : State) (r : TRef) (a : TAct) (old : Option (List Byte)) : State :=
  match waitOf s r with
  | some (.tact n) =>
    if n != a.id then s
    else match old with
      | some (st :: bs) => actDone s r a st.toNat (leWord (bs.take 8))
      | _ => actDone s r a 2 0#64
  | _ => s

/-- REMOTE_ATOMIC_RESPONSE (R192, R200, R318, R367): the answer to an atomic packet: the old value; bytes of
another number than the atomic's stand for a poisoned word, and none for a refusal. Messages, migrants and
thread-state acts are answered in the same way. -/
def execRemoteAtomicResponse (id : Nat) (old : Option (List Byte)) (s : State) : Host.Outcome State Fault Refusal :=
  match (Map.get? s.out id).filter (fun x => x.kind = 3 || x.kind = 5 || x.kind = 6) with
  | none => .next s
  | some x =>
    match x.carried.filter (fun m => x.kind = 5 && m.kind = 1) with
    | some m => .next (postWaiting (migrantDone s { x with id := id } m))
    | none =>
    let s := { s with out := Map.erase s.out id }
    .next (postWaiting (match x.kind, x.thread with
      | 3, some r => (match old with
        | some bs => takeOld s r x bs
        | none => refuseAccess s r x)
      | 3, none => completionDone s x.lid old.isSome
      | 5, some r => messageDone s r id (match old with | some (st :: _) => st.toNat | _ => 2)
      | 6, some r => (match x.act with | some a => foreignActDone s r a old | none => s)
      | _, _ => s))

end Sys2Proof.Machine
end

