-- ==== Sys2Proof/Machine/Float.lean ====
section
/-!
DEFINITION. Float.lean: the scalar floating-point instructions (R98 to R104).
-/
namespace Sys2Proof.Machine
open Sys2Proof

/-- R39, R99: flags ORed into FPFLG. -/
def raise (s : State) (c slot : Nat) (fl : BitVec 5) : State :=
  s.modThread c slot (fun t => { t with fpflg := t.fpflg ||| fl.zeroExtend 64 })

/-- R98: an operand in a format, from the low bits of a register. -/
def fopnd (f : FFmt) (w : Word) : Nat := w.toNat % 2 ^ f.width

/-- R81, R98: a result and its flags: the flags are raised also when d is g0. -/
def fresult (s : State) (c slot d : Nat) (r : Nat × BitVec 5) : State :=
  writeG (raise s c slot r.2) c slot d (BitVec.ofNat 64 r.1)

/-- R100: d := f (a, b) in a format. -/
def opF2 (i : Instr) (g : BitVec 3) (d a b : BitVec 7) (f : FFmt)
    (op : Word → Nat → Nat → Nat × BitVec 5) (s : State) : Host.Outcome State Fault Refusal :=
  issue i { guard := g, g := [d.toNat, a.toNat, b.toNat], reads := [a.toNat, b.toNat],
            writes := [d.toNat] }
    (fun c slot t s => fresult s c slot d.toNat
      (op t.fpctl (fopnd f (t.gv a.toNat)) (fopnd f (t.gv b.toNat)))) s

/-- R101: d := ±d + a × b with one rounding. -/
def opFma (i : Instr) (g : BitVec 3) (d a b : BitVec 7) (f : FFmt) (sub : Bool) (s : State) :
    Host.Outcome State Fault Refusal :=
  issue i { guard := g, g := [d.toNat, a.toNat, b.toNat], reads := [d.toNat, a.toNat, b.toNat],
            writes := [d.toNat] }
    (fun c slot t s => fresult s c slot d.toNat
      (ffma f t.fpctl sub (fopnd f (t.gv d.toNat)) (fopnd f (t.gv a.toNat)) (fopnd f (t.gv b.toNat)))) s

/-- R100: d := f (a) in a format. -/
def opF1 (i : Instr) (g : BitVec 3) (d a : BitVec 7) (f : FFmt)
    (op : Word → Nat → Nat × BitVec 5) (s : State) : Host.Outcome State Fault Refusal :=
  issue i { guard := g, g := [d.toNat, a.toNat], reads := [a.toNat], writes := [d.toNat] }
    (fun c slot t s => fresult s c slot d.toNat (op t.fpctl (fopnd f (t.gv a.toNat)))) s

/-- FADD.D (R100). -/
def execFaddD (g : BitVec 3) (d a b : BitVec 7) : State → Host.Outcome State Fault Refusal :=
  opF2 (.faddD g d a b) g d a b fp64 (fadd fp64)

/-- FSUB.D (R100). -/
def execFsubD (g : BitVec 3) (d a b : BitVec 7) : State → Host.Outcome State Fault Refusal :=
  opF2 (.fsubD g d a b) g d a b fp64 (fsub fp64)

/-- FMUL.D (R100). -/
def execFmulD (g : BitVec 3) (d a b : BitVec 7) : State → Host.Outcome State Fault Refusal :=
  opF2 (.fmulD g d a b) g d a b fp64 (fmul fp64)

/-- FMIN.D (R100). -/
def execFminD (g : BitVec 3) (d a b : BitVec 7) : State → Host.Outcome State Fault Refusal :=
  opF2 (.fminD g d a b) g d a b fp64 ((fun _ => fminmax fp64 false))

/-- FMAX.D (R100). -/
def execFmaxD (g : BitVec 3) (d a b : BitVec 7) : State → Host.Outcome State Fault Refusal :=
  opF2 (.fmaxD g d a b) g d a b fp64 ((fun _ => fminmax fp64 true))

/-- FDIV.D (R100). -/
def execFdivD (g : BitVec 3) (d a b : BitVec 7) : State → Host.Outcome State Fault Refusal :=
  opF2 (.fdivD g d a b) g d a b fp64 (fdiv fp64)

/-- FSQRT.D (R100). -/
def execFsqrtD (g : BitVec 3) (d a : BitVec 7) : State → Host.Outcome State Fault Refusal :=
  opF1 (.fsqrtD g d a) g d a fp64 (fsqrt fp64)

/-- FMA.D (R101). -/
def execFmaD (g : BitVec 3) (d a b : BitVec 7) : State → Host.Outcome State Fault Refusal :=
  opFma (.fmaD g d a b) g d a b fp64 false

/-- FMS.D (R101). -/
def execFmsD (g : BitVec 3) (d a b : BitVec 7) : State → Host.Outcome State Fault Refusal :=
  opFma (.fmsD g d a b) g d a b fp64 true

/-- FADD.S (R100). -/
def execFaddS (g : BitVec 3) (d a b : BitVec 7) : State → Host.Outcome State Fault Refusal :=
  opF2 (.faddS g d a b) g d a b fp32 (fadd fp32)

/-- FSUB.S (R100). -/
def execFsubS (g : BitVec 3) (d a b : BitVec 7) : State → Host.Outcome State Fault Refusal :=
  opF2 (.fsubS g d a b) g d a b fp32 (fsub fp32)

/-- FMUL.S (R100). -/
def execFmulS (g : BitVec 3) (d a b : BitVec 7) : State → Host.Outcome State Fault Refusal :=
  opF2 (.fmulS g d a b) g d a b fp32 (fmul fp32)

/-- FMIN.S (R100). -/
def execFminS (g : BitVec 3) (d a b : BitVec 7) : State → Host.Outcome State Fault Refusal :=
  opF2 (.fminS g d a b) g d a b fp32 ((fun _ => fminmax fp32 false))

/-- FMAX.S (R100). -/
def execFmaxS (g : BitVec 3) (d a b : BitVec 7) : State → Host.Outcome State Fault Refusal :=
  opF2 (.fmaxS g d a b) g d a b fp32 ((fun _ => fminmax fp32 true))

/-- FDIV.S (R100). -/
def execFdivS (g : BitVec 3) (d a b : BitVec 7) : State → Host.Outcome State Fault Refusal :=
  opF2 (.fdivS g d a b) g d a b fp32 (fdiv fp32)

/-- FSQRT.S (R100). -/
def execFsqrtS (g : BitVec 3) (d a : BitVec 7) : State → Host.Outcome State Fault Refusal :=
  opF1 (.fsqrtS g d a) g d a fp32 (fsqrt fp32)

/-- FMA.S (R101). -/
def execFmaS (g : BitVec 3) (d a b : BitVec 7) : State → Host.Outcome State Fault Refusal :=
  opFma (.fmaS g d a b) g d a b fp32 false

/-- FMS.S (R101). -/
def execFmsS (g : BitVec 3) (d a b : BitVec 7) : State → Host.Outcome State Fault Refusal :=
  opFma (.fmsS g d a b) g d a b fp32 true

/-- FCMP (R102): conditions 0 to 3 in FP64, 4 to 7 in FP32. -/
def execFcmp (g p c : BitVec 3) (a b : BitVec 7) : State → Host.Outcome State Fault Refusal :=
  issue (.fcmp g p c a b) { guard := g, g := [a.toNat, b.toNat], reads := [a.toNat, b.toNat] }
    (fun k slot t s =>
      let f := if c.toNat < 4 then fp64 else fp32
      let r := fcmp f (c.toNat % 4) (fopnd f (t.gv a.toNat)) (fopnd f (t.gv b.toNat))
      writeP (raise s k slot r.2) k slot p.toNat r.1)

/-- FCLASS (R103). -/
def execFclass (g : BitVec 3) (d a : BitVec 7) : State → Host.Outcome State Fault Refusal :=
  opRR (.fclass g d a) g d a (fun x => BitVec.ofNat 64
    (2 ^ fclass fp64 x.toNat + 2 ^ (16 + fclass fp32 (x.toNat % 2 ^ 32))))

/-- FCVT (R104). The code is not checked against N (R66). -/
def execFcvt (g : BitVec 3) (d a c : BitVec 7) : State → Host.Outcome State Fault Refusal :=
  issue (.fcvt g d a c) { guard := g, g := [d.toNat, a.toNat], reads := [a.toNat],
                          writes := [d.toNat] }
    (fun k slot t s => fresult s k slot d.toNat
      (fcvtCode 64 (c.getLsbD 6) (bitsOf c.toNat 3 3) (bitsOf c.toNat 0 3) t.fpctl
        (t.gv a.toNat).toNat))

end Sys2Proof.Machine
end

