-- ==== Sys2Proof/Machine/HostPorts.lean ====
section
/-!
DEFINITION. HostPorts.lean: the host's accesses through its BARs and CXL.mem (R358, R360), snoops of host-coherent
lines (R361), and the links (R361, R373).
-/
namespace Sys2Proof.Machine
open Sys2Proof

/-- R393, R388: whether the package answers its host. -/
def hostAnswers (s : State) : Bool := !s.plat.off && !s.plat.recovery

/-- R358: the virtual address of an offset in a virtual function's BAR 2. -/
def vfAddr (off : Nat) : Word := BitVec.ofNat 64 (0x10000000000 + off)

/-- R358: a place that a host access may have: pages of the device kind give none. -/
def hostSees : Place → Option Place
  | .page .device _ _ => none
  | .page k pkg pa => some (.page k pkg pa)
  | _ => none

/-- R358: the place of a host access through BAR 2; none for what gives an Unsupported Request. -/
def hostPlace (s : State) (fn : HostFn) (off : Nat) (k : AKind) : State × Option Place :=
  match fn with
  | .pf => (s, if populated s off && decide (off < 2 ^ 42) then some (.page .coherent s.pkg off) else none)
  | .vf p =>
    if 64 ≤ p || (s.part p).state != .active || 2 ^ 40 ≤ off then (s, none)
    else match translate s 0 p 0 (vfAddr off) k.writes with
      | (s, .error _) => (s, none)
      | (s, .ok t) =>
        match checkPage s p (vfAddr off) k t with
        | .error _ => (s, none)
        | .ok q => (s, hostSees q)

/-- The partition of a function. -/
def fnPart : HostFn → Nat
  | .pf => 0
  | .vf p => p

/-- R358: an Unsupported Request: logged, and for a read the answer. -/
def unsupported (s : State) (fn : HostFn) (off : Nat) (read : Bool) : State :=
  let s := logEvent s 0xA49 (fnPart fn) 2 0x800C#16 (BitVec.ofNat 64 off) 0#64 0#64 (nowWord s)
  if read then { s with plat := { s.plat with completion := none } } else s

/-- R345, R360: a home recalls the agent that holds write permission on the line of a host access. -/
def recallHolder (s : State) (p : Place) : State :=
  match p with
  | .page .coherent _ pa => if (dirOf s (pa / 64)).st = .e then recallAll s pa else s
  | _ => s

/-- R358, R375: a host access at its place, in one act: a read's completion, with its poison, or a write. -/
def hostPerform (s : State) (part : Nat) (p : Place) (size : Nat) (write : Option Nat) : State :=
  match write with
  | some v => distStore s part p (leBytes v size)
  | none =>
    let s := recallHolder s p
    let v := readBytes s noCore p size
    { s with free := s.free + 1, plat := { s.plat with completion := some (v.1, v.2) } }

/-- Whether a host access is one request: it has bytes, and crosses no 64-byte line. -/
def oneLine (off size : Nat) : Bool := decide (0 < size) && decide (off % 64 + size ≤ 64)

/-- R302, R320, R358: the register at an offset of BAR 0: a partition and a word of its control block, or 16 and a word
of its launch port. -/
def barRegister (fn : HostFn) (off : Nat) : Option (Nat × Nat) :=
  match fn with
  | .pf =>
    if 0x1000 ≤ off ∧ off < 0x2000 then some ((off - 0x1000) / 64, 16 + off / 8 % 8)
    else if 0x2000 ≤ off ∧ off < 0x4000 then some ((off - 0x2000) / 128, off / 8 % 16)
    else none
  | .vf p => if 0x1000 ≤ off ∧ off < 0x1040 then some (p, 16 + off / 8 % 8) else none

/-- R358: a byte of BAR 0. -/
def barByte (s : State) (fn : HostFn) (off : Nat) : Byte :=
  match barRegister fn off with
  | some (p, w) =>
    (wordBytes (if 16 ≤ w then launchPort (s.part p) (w - 16) else pcbWord s p w)).getD (off % 8) 0#8
  | none => 0#8

/-- R358: a write of 64-bit words of BAR 0, from an offset on, at most `n` of them. -/
def barWrite (s : State) (fn : HostFn) (off v : Nat) : Nat → Host.Outcome State Fault Refusal
  | 0 => .next s
  | n + 1 =>
    match (match barRegister fn off with
      | some (p, w) => execRegisterWrite p w (BitVec.ofNat 64 v) s
      | none => .next s) with
    | .next s => barWrite s fn (off + 8) (v / 2 ^ 64) n
    | o => o

/-- R357: whether a function is enabled. -/
def fnEnabled (s : State) : HostFn → Bool
  | .pf => true
  | .vf p => decide (p < 64) && (s.part p).state = .active

/-- R302, R320, R358: a read of BAR 0, or a write of the whole words that it covers. -/
def barZero (s : State) (fn : HostFn) (off size : Nat) (write : Option Nat) : Host.Outcome State Fault Refusal :=
  if !fnEnabled s fn then .next (unsupported s fn off write.isNone)
  else match write with
    | none => .next { s with
        free := s.free + 1
        plat := { s.plat with completion := some ((List.range size).map (fun i => barByte s fn (off + i)), false) } }
    | some v => if off % 8 = 0 && size % 8 = 0 then barWrite s fn off v (size / 8) else .next s

/-- HOST_BAR_ACCESS (R225, R358): a read or write of up to a line through BAR 0 or BAR 2. -/
def execHostBarAccess (fn : HostFn) (addr : BarAddr) (size : Nat) (write : Option Nat) (s : State) :
    Host.Outcome State Fault Refusal :=
  if !hostAnswers s || s.plat.pcieDown || !oneLine addr.off size then .next s
  else if addr.bar = 0 then barZero s fn addr.off size write
  else
    match hostPlace s fn addr.off (if write.isSome then .st else .ld) with
    | (s, none) => .next (unsupported s fn addr.off write.isNone)
    | (s, some p) =>
      let e : Event := .hostBarAccess fn addr size write
      .next (settleAct (atPlace s e p write.isSome true (fun s => hostPerform s (fnPart fn) p size write)) e)

/-- R357: the size of an AtomicOp that the package completes. -/
def hostOpSize : HostAtomic → Nat
  | .cas n _ _ => n
  | .fetchAdd n _ => n
  | .swap n _ => n

/-- R357: whether the package completes an AtomicOp of this size. -/
def hostOpKnown : HostAtomic → Bool
  | .cas n _ _ => n = 4 || n = 8 || n = 16
  | .fetchAdd n _ => n = 4 || n = 8
  | .swap n _ => n = 4 || n = 8

/-- R122, R357: what an AtomicOp writes, from what it finds; none when a CAS fails. -/
def hostOpNew (op : HostAtomic) (old : Nat) : Option Nat :=
  match op with
  | .cas n e w => if old = e % 2 ^ (8 * n) then some w else none
  | .fetchAdd _ a => some (old + a)
  | .swap _ w => some w

/-- R358: an AtomicOp at its home, in one act. -/
def atomicOpHere (s : State) (part : Nat) (p : Place) (op : HostAtomic) : State :=
  let v := readBytes s noCore p (hostOpSize op)
  let s := { s with free := s.free + 1, plat := { s.plat with completion := some (v.1, v.2) } }
  if v.2 then s
  else match hostOpNew op (leNat v.1) with
    | some w => distStore s part p (leBytes w (hostOpSize op))
    | none => s

/-- HOST_ATOMICOP (R122, R357, R358): a received AtomicOp is performed as an AMO at the home. -/
def execHostAtomicop (fn : HostFn) (offset : Nat) (op : HostAtomic) (s : State) :
    Host.Outcome State Fault Refusal :=
  if !hostAnswers s || s.plat.pcieDown then .next s
  else if !hostOpKnown op || offset % (hostOpSize op) != 0 then .next (unsupported s fn offset true)
  else
    match hostPlace s fn offset (.amo true) with
    | (s, none) => .next (unsupported s fn offset true)
    | (s, some p) =>
      let e : Event := .hostAtomicop fn offset op
      .next (settleAct (atPlace s e p true true (fun s => atomicOpHere s (fnPart fn) p op)) e)

/-- R360: the stacked DRAM that CXL.mem exposes. -/
def cxlMemBytes : Nat := 0x4000000000

/-- CXL_MEM_ACCESS (R345, R360): a host access at a host address of the exposed memory, as a BAR 2 access is. -/
def execCxlMemAccess (addr size : Nat) (write : Option Nat) (s : State) : Host.Outcome State Fault Refusal :=
  let pa := addr - s.plat.hdmBase
  if !hostAnswers s || s.plat.cxlDown || addr < s.plat.hdmBase || cxlMemBytes ≤ pa || !oneLine pa size then .next s
  else
    let p : Place := .page .coherent s.pkg pa
    let e : Event := .cxlMemAccess addr size write
    .next (settleAct (atPlace s e p write.isSome true (fun s => hostPerform s 0 p size write)) e)

/-- The place of a host-coherent line. -/
def hostLinePlace (s : State) (line : Nat) : Place := .page .hostCoherent s.pkg (0x80000000000 + 64 * line)

/-- R360, R361: the agents' lines of a host line, downgraded to shared with their data at home. -/
def shareHost (s : State) (line : Nat) : State :=
  let mine := fun (x : Nat × CLine) => decide (x.1 % 2 ^ 40 = line)
  let s := ((s.hostLines.filter mine).filter (fun x => x.2.st = .m)).foldl (fun (s : State) x =>
    { s with host := Mem.writeN s.host (64 * line) x.2.data }) s
  { s with hostLines := s.hostLines.map (fun x => if mine x then (x.1, { x.2 with st := .s }) else x) }

/-- HOST_SNOOP (R360, R361): a snoop for a read leaves the line shared; one for a write takes the line away, writes
the host's bytes and wakes the line's watchers. -/
def execHostSnoop (line : Nat) (write : Option (List Byte)) (s : State) : Host.Outcome State Fault Refusal :=
  if s.plat.cxlDown then .next s
  else match write with
    | none => .next (shareHost s line)
    | some bs =>
      let s := ((Map.keys s.hostLines).filter (fun k => k % 2 ^ 40 = line)).foldl flushHost s
      let s := { s with host := Mem.writeN s.host (64 * line) (bs.take 64) }
      .next (wakeLine s (hostLinePlace s line))

/-- LINK_DOWN (R361, R373): accesses behind the link fault from now on. -/
def execLinkDown (link : HostLink) (s : State) : Host.Outcome State Fault Refusal :=
  match link with
  | .pcie => .next { s with plat := { s.plat with pcieDown := true } }
  | .cxl => .next { s with plat := { s.plat with cxlDown := true } }

/-- HOST_LINK_UP (R361, R373). -/
def execHostLinkUp (link : HostLink) (s : State) : Host.Outcome State Fault Refusal :=
  match link with
  | .pcie => .next { s with plat := { s.plat with pcieDown := false } }
  | .cxl => .next { s with plat := { s.plat with cxlDown := false } }

/-- FLIT_CRC_ERROR (R373): the flit is retried; after 16 retries the link is fenced. -/
def execFlitCrcError (link : Nat) (s : State) : Host.Outcome State Fault Refusal :=
  if s.plat.linksDown.contains link then .next s
  else
    let n := (Map.get? s.plat.retries link).getD 0 + 1
    let s := logEvent s 0xA4B 0 1 0x8003#16 0#64 0#64 (BitVec.ofNat 64 link) (nowWord s)
    if n < 16 then .next { s with plat := { s.plat with retries := Map.set s.plat.retries link n } }
    else .next { s with plat := { s.plat with
      retries := Map.erase s.plat.retries link, linksDown := insertNat link s.plat.linksDown } }

end Sys2Proof.Machine
end

