-- ==== Sys2Proof/Machine/Repair.lean ====
section
/-!
DEFINITION. Repair.lean: self-test and its repairs (R379), fences (R380), recovery from fatal errors (R387) and the
rollback of lock-step pairs (R386).
-/
namespace Sys2Proof.Machine
open Sys2Proof

/-! ## Recovery, steps 1 and 2 (R387) -/

/-- R377, R378: the 64 bytes of the latest record of a bank. -/
def lastRecord (s : State) (bank : Nat) : List Byte :=
  let b := (Map.get? s.banks bank).getD {}
  match b.ring with
  | r :: _ => (List.range 8).flatMap (fun w => wordBytes (recordWord r b.written w))
  | [] => List.replicate 64 0#8

/-- R387, step 2: a partition whose unit has failed: HOLD in all threads, the record at its supervisor line, and
cplval at cpladdr. -/
def recoverPart (s : State) (bank p : Nat) : State :=
  let s := holdPart s p
  let sup := (partWord s p 6).toNat
  let s := if sup = 0 then s else writePlace s 0 (.page .coherent s.pkg sup) (lastRecord s bank) false
  endCommand s p (s.part p).result (s.part p).state

def recoverParts (s : State) (bank : Nat) : List Nat → State
  | [] => s
  | p :: ps => recoverParts (if (s.part p).state = .active then recoverPart s bank p else s) bank ps

/-- R387: recovery for the partition of a core. -/
def recoverCore (s : State) (c : Nat) : State :=
  match (s.core c).owner with
  | some (p, _) => recoverParts s (coreBank c) [p]
  | none => s

/-- R380: a fence is recorded by the management controller: a unit by its bank number, a function of a core by
0x10000 × (1 + its bit) + the core's. -/
def recordFence (s : State) (n : Nat) : State :=
  { s with plat := { s.plat with fences := insertNat n s.plat.fences } }

def fenceCore (s : State) (c : Nat) : State :=
  recordFence (s.modCore c (fun k => { k with fenced := true })) (coreBank c)

/-- R380: the matrix unit (bit 3) or the SSU (bit 4) of a core is fenced. -/
def fenceFunction (s : State) (c bit : Nat) : State :=
  let s := s.modCore c (fun k => { k with fencedFns := k.fencedFns ||| BitVec.ofNat 8 (2 ^ bit) })
  recordFence s (0x10000 * (1 + bit) + coreBank c)

/-! ## Self-test (R379) -/

/-- What a self-test comes to: the failed units, rows and ways in use, whether the core is to be fenced, and how
many rows and ways were repaired. -/
structure Tested where
  failed : BitVec 8
  rows : BitVec 64
  ways : BitVec 4
  fence : Bool
  fused : Nat
  disabled : Nat
  deriving DecidableEq, Repr

/-- R379: the findings of a test of the units in `mask`. -/
def tested (k : Core) (mask failed : BitVec 8) (rows : BitVec 64) (ways : BitVec 4) : Tested :=
  let rows' := if mask.getLsbD 6 then k.rows &&& rows else k.rows
  let ways' := if mask.getLsbD 7 then k.ways &&& ways else k.ways
  let fused := ones k.rows - ones rows'
  let disabled := ones k.ways - ones ways'
  let f := (failed &&& mask &&& 0x3F#8) ||| (if fused = 0 then 0#8 else 0x40#8) |||
    (if disabled = 0 then 0#8 else 0x80#8)
  { failed := f, rows := rows', ways := ways', fused := fused, disabled := disabled
    fence := f &&& 0x27#8 != 0#8 || decide (ones rows' < 34) || ways' = 0#4 }

/-- R379: repairs take effect: rows are fused off, and with ways disabled the L1 gives up its lines. -/
def repair (s : State) (c : Nat) (r : Tested) (who : Word) : State :=
  if r.fused = 0 && r.disabled = 0 then s
  else
    let s := s.modCore c (fun k => { k with
      rows := r.rows, ways := r.ways
      rc := if r.fused = 0 then k.rc else k.rc.filter (fun x => match x.2 with
        | .present _ => false
        | _ => true) })
    let s := if r.disabled = 0 then s else evictAll s c (Map.keys (s.core c).l1)
    logEvent s (coreBank c) (((s.core c).owner.map (·.1)).getD 0) 1 0x8015#16 0#64 who
      (BitVec.ofNat 64 (r.fused + 256 * r.disabled)) (cycWord s c)

/-- R379, R380: fences take effect, and recovery begins (R374, R387). -/
def fenceFound (s : State) (c : Nat) (r : Tested) (who : Word) : State :=
  if !r.fence && r.failed &&& 0x18#8 = 0#8 then s
  else
    let s := logEvent s (coreBank c) (((s.core c).owner.map (·.1)).getD 0) 3 0x8014#16 0#64 who
      (r.failed.zeroExtend 64) (cycWord s c)
    let s := if r.failed.getLsbD 3 then fenceFunction s c 3 else s
    let s := if r.failed.getLsbD 4 then fenceFunction s c 4 else s
    let s := if r.fence then fenceCore s c else s
    recoverCore s c

/-- R379: the record of a SELFT. -/
def selftRecord (mask : BitVec 8) (r : Tested) (bank : BitVec 8) : List Byte :=
  let w0 := mask.toNat + 256 * r.failed.toNat + 65536 * (r.fused + r.disabled)
  wordBytes (BitVec.ofNat 64 w0) ++ wordBytes (BitVec.ofNat 64 (selftTime mask)) ++ wordBytes r.rows ++
    wordBytes (r.ways.zeroExtend 64) ++
    wordBytes (if r.failed.getLsbD 5 then bank.zeroExtend 64 else 0xFF#64) ++ List.replicate 24 0#8

/-- R379: whether the core's matrix unit still executes an MMA. -/
def mmaRuns (s : State) (c : Nat) : Bool := s.cmds.any (fun x => x.2.core = c && x.2.kind = 0 && x.2.accepted)

/-- SELFT_COMPLETE (R207, R379): the record is written, the thread receives the failed units, and then repairs and
fences take effect. -/
def execSelftComplete (core slot : Nat) (failed : BitVec 8) (rows : BitVec 64) (ways : BitVec 4)
    (bank : BitVec 8) (s : State) : Host.Outcome State Fault Refusal :=
  match s.thread? core slot with
  | none => .next s
  | some t =>
    match t.wait with
    | .selft d mask place e =>
      if (s.core core).cyc < e || (mask.getLsbD 3 && mmaRuns s core) then .next s
      else
        let r := tested (s.core core) mask failed rows ways
        let who := handleOf s core slot
        let s := putRecord { s with free := s.free + 1 } core t.part place (selftRecord mask r bank)
        let s := writeG s core slot d (r.failed.zeroExtend 64)
        let s := (finishWait s core slot).modCore core (fun k => { k with selft := none })
        .next (fenceFound (repair s core r who) core r who)
    | _ => .next s

/-! ## Fatal errors (R387) -/

/-- R376: the bank of a unit, and R378: its unit code. -/
def unitBank : FatalUnit → Nat
  | .core c => coreBank c
  | .matrix c => coreBank c
  | .ssu c => coreBank c
  | .shared b => b

def unitCode : FatalUnit → Nat
  | .core _ => 0
  | .matrix _ => 3
  | .ssu _ => 4
  | .shared b => 16 + Config.bankClass b

/-- R375, R387: data that a unit can no longer deliver are poisoned at their homes. -/
def poisonLines (s : State) (bank : Nat) : List Nat → State
  | [] => s
  | l :: ls =>
    let s := { s with poison := insertNat l s.poison }
    poisonLines (logEvent s bank 0 2 0x8004#16 (BitVec.ofNat 64 (domAddr s.pkg (64 * l))) 0#64 0#64 (nowWord s))
      bank ls

/-- R387, step 1: the unit is fenced. -/
def fenceUnit (s : State) : FatalUnit → State
  | .core c => fenceCore s c
  | .matrix c => fenceFunction s c 3
  | .ssu c => fenceFunction s c 4
  | .shared b =>
    let s := { s with banks := Map.set s.banks b { (Map.get? s.banks b).getD {} with fenced := true } }
    recordFence { s with plat := { s.plat with outOfService := true } } b

/-- The partitions that use a unit. -/
def unitParts (s : State) : FatalUnit → List Nat
  | .core c | .matrix c | .ssu c => ((s.core c).owner.map (·.1)).toList
  | .shared _ => Map.keys s.parts

/-- FATAL_ERROR (R374, R380, R387): the unit is fenced, what it can no longer deliver (`poisoned`, line numbers) is
poisoned, and every partition using it is stopped and told. -/
def execFatalError (unit : FatalUnit) (poisoned : List Nat) (s : State) : Host.Outcome State Fault Refusal :=
  let bank := unitBank unit
  let part := match unit with | .shared _ => 0 | u => ((unitParts s u).head?).getD 0
  let s := poisonLines s bank poisoned
  let s := logEvent s bank part 3 0x8013#16 0#64 0#64 (BitVec.ofNat 64 (unitCode unit)) (nowWord s)
  let s := fenceUnit s unit
  .next (recoverParts s bank (unitParts s unit))

/-! ## Rollback of a pair (R386) -/

/-- R386: a wait as a rollback leaves it, with whether the instruction issues again. An operation that is still
outstanding stays so; an access is asked for again. -/
def rolledWait (now snap : Wait) : Wait × Bool :=
  match snap with
  | .access a => (.access { a with units := a.units.map (fun u => { u with sent := false, out := none }) }, false)
  | .idle => (.idle, false)
  | .sleep d => (.sleep d, false)
  | .bar d p ph => (.bar d p ph, false)
  | .ssu e w => (.ssu e w, false)
  | w => if w = now && (match w with
      | .fill _ | .entry _ | .drain | .relaxedRoom _ | .sfu | .sfuPlace _ => false
      | _ => true)
    then (w, false) else (.idle, true)

/-- R386: a thread as it resumes after a rollback. -/
def rolledThread (now : Option Thread) (t : Thread) : Thread :=
  let w := rolledWait ((now.map (·.wait)).getD .idle) t.wait
  let again := w.2 && (match t.wait with | .fill _ | .entry _ | .drain | .relaxedRoom _ => false | _ => true)
  let latch := match now with | some n => n.latch | none => false
  let afresh := fun (x : Relaxed) =>
    let us := x.acc.units.map (fun (u : MUnit) => { u with sent := false, out := none })
    { x with acc := { x.acc with units := us } }
  let t := { t with
    wait := w.1, pc := if again then t.ipc else t.pc
    stepping := if again then t.stepping.map (fun _ => none) else t.stepping, latch := t.latch || latch, relaxed := t.relaxed.map afresh }
  match t.code with
  | .running => { t with code := .ready }
  | .waiting | .sleeping => if w.1 = .idle then { t with code := .ready } else t
  | _ => t

/-- R386: the threads of a core after a rollback: those of the checkpoint as they stood then, in which a thread that
the core was given since stands as it came (`snapThread`). -/
def rolledThreads (now snap : Map Thread) : Map Thread :=
  (snap.map (fun x => (x.1, rolledThread (Map.get? now x.1) x.2))).foldl (fun m x => Map.set m x.1 x.2) now

/-- The undo log applied in reverse, the latest entry first. -/
def undoWrites (m : Mem) : List (Nat × Word) → Mem
  | [] => m
  | (a, w) :: l => undoWrites (Mem.writeN m a (wordBytes w)) l

/-- R386: what goes on in a thread after a rollback. -/
def resumeRolled (s : State) (c : Nat) : List Nat → State
  | [] => s
  | slot :: l =>
    let s := match s.thread? c slot with
      | none => s
      | some t =>
        let s := if t.code = .ready then makeReady s c slot else s
        let s := t.relaxed.foldl (fun (s : State) x => postAcc s ⟨c, slot⟩ (some x.id)) s
        match t.wait with
        | .access _ => pump s ⟨c, slot⟩ none
        | .sleep d => if t.latch then
            finishWait (writeG (s.modThread c slot (fun t => { t with latch := false })) c slot d 0#64) c slot else s
        | .bar _ _ _ => barWake s c slot
        | _ => s
    resumeRolled s c l

/-- R386: both members of a pair roll back. -/
def rollback (s : State) (c : Nat) (L : LockStep) : State :=
  let k := s.core c
  let gone := (Map.keys L.snap).filter (fun n => !Map.has k.threads n)
  let s := s.setCore c { k with
    spad := undoWrites k.spad L.undo
    threads := rolledThreads k.threads L.snap
    gens := gone.foldl (fun g n => Map.set g n ((genOf k n + 2 ^ 20 - 1) % 2 ^ 20)) k.gens
    rc := [], fillq := [], sfuq := [], sfuWait := [], rot := [], ready := []
    lock := some { L with held := [], undo := [], after := [], mismatches := L.mismatches + 1 } }
  resumeRolled s c (Map.keys (s.core c).threads)

/-- R386: a third mismatch with no commit between: every thread faults LOCKSTEP at its checkpoint pc. -/
def lockstepFaults (s : State) (c : Nat) (count : Nat) : List Nat → State
  | [] => s
  | slot :: l =>
    let s := match s.thread? c slot with
      | none => s
      | some t => enterFault s c slot t.pc (mkFault fcLockstep 0#64 (BitVec.ofNat 64 count))
    lockstepFaults s c count l

/-- R386: the pair is fenced, and recovery follows. -/
def failPair (s : State) (c : Nat) (L : LockStep) : State :=
  let part := ((s.core c).owner.map (·.1)).getD 0
  let s := lockstepFaults s c L.count (Map.keys (s.core c).threads)
  let s := logEvent s (coreBank c) part 3 0x8012#16 0#64 0#64 (BitVec.ofNat 64 L.count) (cycWord s c)
  recoverCore (fenceCore (fenceCore s c) L.partner) c

/-- LOCKSTEP_MISMATCH (R386), of the pair whose lead is `core`. A commit that follows an instruction that is
complete comes first (R385). -/
def execLockstepMismatch (core : Nat) (s : State) : Host.Outcome State Fault Refusal :=
  let s := if s.agenda.contains (.checkpointCommit core) then commitPair s core else s
  match (s.core core).lock with
  | none => .next s
  | some L =>
    if L.odd || (s.core core).fenced then .next s
    else
      let part := ((s.core core).owner.map (·.1)).getD 0
      let s := rollback s core L
      if L.mismatches < 2 then
        .next (logEvent s (coreBank core) part 2 0x8011#16 0#64 0#64 (BitVec.ofNat 64 L.count) (cycWord s core))
      else .next (failPair s core L)

end Sys2Proof.Machine
end

