-- ==== Sys2Proof/Machine/PlatformPort.lean ====
section
/-!
DEFINITION. PlatformPort.lean: boot (R388), attestation (R389), the management port (R376, R377, R390), power and
cooling (R391 to R393).
-/
namespace Sys2Proof.Machine
open Sys2Proof

/-! ## Boot (R388) -/

/-- R380: the fence that a recorded number stands for is applied again. -/
def refence (s : State) (n : Nat) : State :=
  if 0x10000 ≤ n then
    s.modCore (n % 0x10000) (fun k => { k with
      fencedFns := k.fencedFns ||| BitVec.ofNat 8 (2 ^ (n / 0x10000 - 1)) })
  else if n < 0x820 then s.modCore n (fun k => { k with fenced := true })
  else { s with banks := Map.set s.banks n { (Map.get? s.banks n).getD {} with fenced := true } }

/-- R388, step 4: SELFT of every unit on a core that is not fenced. -/
def bootTest (s : State) (c : Nat) : State :=
  if (s.core c).fenced then s
  else
    let f := Config.selfTest (s.free + c)
    let r := tested (s.core c) 0xFF#8 f.1 f.2.1 f.2.2.1
    fenceFound (repair s c r 0#64) c r 0#64

def bootTests (s : State) : List Nat → State
  | [] => s
  | c :: cs => bootTests (bootTest s c) cs

/-- R388: the package as power comes up: what is fused or fitted, the recorded fences and the host's memory last. -/
def poweredUp (s : State) : State :=
  { State.reset with
    pkg := s.pkg, host := s.host, fresh := s.fresh, free := s.free, sched := s.sched
    plat := { version := s.plat.version, fences := s.plat.fences, lpddr := s.plat.lpddr,
              expander := s.plat.expander } }

/-- BOOT (R388): `image0` and `image1` tell which firmware image verifies. -/
def execBoot (image0 image1 : Bool) (s : State) : Host.Outcome State Fault Refusal :=
  let s := poweredUp s
  if !image0 && !image1 then .next { s with plat := { s.plat with recovery := true } }
  else
    let s := { s with plat := { s.plat with image := if image0 then 0 else 1 } }
    let s := bootTests (s.plat.fences.foldl refence s) (List.range 2080)
    .next { s with free := s.free + 2080 }

/-! ## Power and cooling (R391, R393) -/

/-- THERMAL_THROTTLE (R393): the issue cycles of a die's cores are withheld. -/
def execThermalThrottle (die : Nat) (s : State) : Host.Outcome State Fault Refusal :=
  .next { s with plat := { s.plat with hot := insertNat die s.plat.hot } }

/-- THERMAL_RECOVERY (R393): a throttled die is below 100 °C. -/
def execThermalRecovery (die : Nat) (s : State) : Host.Outcome State Fault Refusal :=
  .next { s with plat := { s.plat with hot := s.plat.hot.filter (· != die) } }

def stopParts (s : State) : List Nat → State
  | [] => s
  | p :: ps => stopParts (if (s.part p).state = .active then beginStop s p 4 else s) ps

/-- THERMAL_SHUTDOWN (R382, R393): every partition is stopped, and the package shuts down. -/
def execThermalShutdown (die : Nat) (s : State) : Host.Outcome State Fault Refusal :=
  let bank := 0xA08 + die
  let s := logEvent s bank 0 3 0x8013#16 0#64 0#64 (BitVec.ofNat 64 (16 + Config.bankClass bank)) (nowWord s)
  let s := stopParts { s with plat := { s.plat with stopping := true } } (Map.keys s.parts)
  .next (if s.parts.any (fun x => x.2.state = .busy) then s else { s with plat := { s.plat with off := true } })

/-! ## The management port (R390) -/

/-- An answer of the port, or a NACK; a package that is off answers nothing. -/
def portAnswer (s : State) (answer : Option (List Byte)) : Host.Outcome State Fault Refusal :=
  if s.plat.off then .next s
  else match answer with
    | some bs => .next { s with plat := { s.plat with answer := bs, nack := false } }
    | none => .next { s with plat := { s.plat with answer := [], nack := true } }

/-- MC_BANK_READ (R376, R390): 8 bytes of a bank, by physical numbering. -/
def execMcBankRead (bank word : Nat) (s : State) : Host.Outcome State Fault Refusal :=
  portAnswer s (if bankExists bank && decide (word < 128) then
    some (wordBytes (bankWord s bank (8 * word) (fun _ => true))) else none)

/-- R377, word 7: words 0 to 4, 6 and the ring are zeroed. -/
def clearBank (s : State) (bank : Nat) : State :=
  { s with banks := Map.modify s.banks bank (fun b => { fenced := b.fenced }) }

/-- BANK_CLEAR (R377, R390). -/
def execBankClear (bank : Nat) (s : State) : Host.Outcome State Fault Refusal :=
  if s.plat.off then .next s
  else portAnswer (clearBank s bank) (if bankExists bank then some [] else none)

/-- TELEMETRY_READ (R390, R392): words 0 to 10; word 10 is at most 1,000 per mille. -/
def execTelemetryRead (word : Nat) (s : State) : Host.Outcome State Fault Refusal :=
  let v := Config.telemetry word s.free
  let w := if word = 10 then BitVec.ofNat 64 (v.toNat % 1001) else v
  portAnswer { s with free := s.free + 1 } (if word ≤ 10 then some (wordBytes w) else none)

/-- POWER_LIMIT_SET (R390, R391): from 600 W to 2,800 W, in milliwatts. -/
def execPowerLimitSet (milliwatts : Nat) (s : State) : Host.Outcome State Fault Refusal :=
  if s.plat.off then .next s
  else portAnswer { s with plat := { s.plat with
    powerLimit := Nat.max 600000 (Nat.min 2800000 milliwatts) } } (some [])

/-- PCB_WORD_ACCESS (R320, R390): a word of a control block read or written; the command of word 9 acts. -/
def execPcbWordAccess (part word : Nat) (write : Option Word) (s : State) : Host.Outcome State Fault Refusal :=
  if s.plat.off then .next s
  else if 64 ≤ part || 16 ≤ word then portAnswer s none
  else match write with
    | none => portAnswer s (some (wordBytes (pcbWord s part word)))
    | some v => match execRegisterWrite part word v s with
      | .next s => portAnswer s (some [])
      | o => o

/-- R389: SHA-512 as 64 bytes. -/
def digest (bs : List Byte) : List Byte := (List.range 64).map (fun i => (Config.sha512 bs).getD i 0#8)

/-- R389: the fence list as it is read and digested: 8 bytes for each unit. -/
def fenceBytes (s : State) : List Byte := s.plat.fences.flatMap (fun n => wordBytes (BitVec.ofNat 64 n))

/-- R389: every partition control block as it stands. -/
def pcbBytes (s : State) : List Byte :=
  (List.range 64).flatMap (fun p => (List.range 16).flatMap (fun w => wordBytes (pcbWord s p w)))

/-- R389: bytes 0 to 255 of a report. -/
def reportBody (s : State) (nonce : List Byte) : List Byte :=
  nonce ++ digest (Config.firmware s.plat.image) ++ digest (Config.fuses s.plat.version) ++
    digest (fenceBytes s ++ pcbBytes s)

/-- ATTESTATION (R389, R390): the report of 768 bytes for a nonce of 64. -/
def execAttestation (nonce : List Byte) (s : State) : Host.Outcome State Fault Refusal :=
  let body := reportBody s nonce
  portAnswer s (if nonce.length = 64 && !s.plat.recovery then
    some (body ++ (List.range 512).map (Config.signature body)) else none)

/-- FENCE_LIST_READ (R390). -/
def execFenceListRead (s : State) : Host.Outcome State Fault Refusal := portAnswer s (some (fenceBytes s))

/-- VERSION_RAISE (R390): the fused counter is raised to the version of the running image. -/
def execVersionRaise (s : State) : Host.Outcome State Fault Refusal :=
  if s.plat.off then .next s
  else if s.plat.recovery then portAnswer s none
  else portAnswer { s with plat := { s.plat with
    version := Nat.max s.plat.version (Config.imageVersion s.plat.image) } } (some [])

/-- MGMT_UNKNOWN_CODE (R390): a code that is not assigned is answered with a NACK. -/
def execMgmtUnknownCode (code : BitVec 8) (s : State) : Host.Outcome State Fault Refusal :=
  if 1 ≤ code.toNat && code.toNat ≤ 8 then .next s else portAnswer s none

end Sys2Proof.Machine
end

