-- ==== Sys2Proof/Machine/Ranges.lean ====
section
/-!
DEFINITION. Ranges.lean: the act of a range operation (R132 to R134) and ACCESS_COMPLETE (R15).
-/
namespace Sys2Proof.Machine
open Sys2Proof

/-! ## The range (R132) -/

/-- R132: the first and the last byte of the lines covered; none for a length of 0. -/
def rangeOf (va ctl : Word) : Option (Nat × Nat) :=
  let n := bitsOf ctl.toNat 0 40
  if n = 0 then none
  else some (va.toNat / 64 * 64, Nat.min (2 ^ 64 - 1) ((va.toNat + n - 1) / 64 * 64 + 63))

/-- The pieces of a range between 64 KiB boundaries: first and last byte. -/
def rangeChunks (lo hi : Nat) : List (Nat × Nat) :=
  (List.range (hi / 65536 + 1 - lo / 65536)).map (fun i =>
    (Nat.max lo ((lo / 65536 + i) * 65536), Nat.min hi ((lo / 65536 + i) * 65536 + 65535)))

/-- R132, 1: every page of the range translated and checked: the places of the pieces with their lengths, or
the first fault. -/
def rangePlaces (s : State) (c : Nat) (t : Thread) :
    List (Nat × Nat) → State × Except FaultInfo (List (Place × Nat))
  | [] => (s, .ok [])
  | (lo, hi) :: l =>
    match resolve s c t.part t.proc (BitVec.ofNat 64 lo) .range with
    | (s, .error f) => (s, .error f)
    | (s, .ok (.dev _, _)) => (s, .error (prot (BitVec.ofNat 64 lo) 4))
    | (s, .ok (p, _)) =>
      match resolve s c t.part t.proc (BitVec.ofNat 64 hi) .range with
      | (s, .error f) => (s, .error f)
      | (s, .ok _) => match rangePlaces s c t l with
        | (s, .error f) => (s, .error f)
        | (s, .ok ps) => (s, .ok ((p, (hi + 1 - lo) / 64) :: ps))

/-- The domain line numbers of a piece of a page: the first, and how many. -/
def placeLines (p : Place) (n : Nat) : Option (PageKind × Nat × Nat) :=
  match p with
  | .page kind pkg pa => some (kind, domAddr pkg pa / 64, n)
  | _ => none

def keysIn (m : Map CLine) (first n : Nat) : List Nat :=
  (m.map (·.1)).filter (fun k => decide (first ≤ k) && decide (k < first + n))

/-- R132: the lines of a piece that the caches of a scope hold. -/
def cachedKeys (s : State) (c scope first n : Nat) : List Nat :=
  let a := keysIn (s.core c).l1 first n
  if scope < 2 then a
  else (keysIn (rdcOf s (coreDie c)) first n).foldl (fun l k => insertNat k l) a

/-- R132, R360: the host-coherent lines of a piece that a scope covers. -/
def hostKeys (s : State) (c scope first n : Nat) : List Nat :=
  (s.hostLines.filter (fun x =>
    let key := domAddr s.pkg (0x80000000000 + 64 * (x.1 % 2 ^ 40)) / 64
    decide (first ≤ key) && decide (key < first + n) &&
      (if scope = 4 then x.1 / 2 ^ 40 = coreDie c else x.2.leaves.contains c))).map (·.1)

/-! ## Dirty lines (R134) -/

/-- Whether a coherent line is homed on another die, and so held through the RDC (R348). -/
def farLine (s : State) (c key : Nat) : Bool := homeDie (64 * key - s.pkg * 2 ^ 50) != coreDie c

/-- R134: whether a line is dirty in a cache of the scope. -/
def dirtyIn (s : State) (c scope key : Nat) : Bool :=
  (match Map.get? (s.core c).l1 key with | some l => l.st = .m | none => false) ||
    (decide (2 ≤ scope) && (match Map.get? (rdcOf s (coreDie c)) key with
      | some l => l.kind = .coherent && (dirtyOf s (0xC00 + coreDie c) key).isSome
      | none => false))

def hostDirty (s : State) (c scope key : Nat) : Bool :=
  match Map.get? s.hostLines key with
  | some l => l.st = .m && (scope = 4 || l.owner = some c)
  | none => false

/-! ## One line (R133) -/

/-- R133, R347, R348: a message of a die's RDC about a line that it keeps in its eviction buffer until the home has
acknowledged it. -/
def sendRdc (s : State) (die key : Nat) (kind : MsgKind) (keep : CLine) (d : Option (List Byte)) : State :=
  sendMsg (setRdcX s die (Map.set (rdcXOf s die) key keep))
    { mkMsg s kind (key % 2 ^ 44) (0xC00 + die) with data := d, poison := keep.poison }

/-- R133, R348: a line of another die's home, in the RDC: dirty data written to the home and kept clean, or the line given
up with its data written (2) or discarded (1). -/
def rdcRange (s : State) (c op key : Nat) : State :=
  let die := coreDie c
  let agent := 0xC00 + die
  let line := key % 2 ^ 44
  match heldLine s agent key with
  | none => s
  | some (st, data, poison) =>
    let kept : CLine := { st := st, kind := .coherent, data := data, poison := poison }
    if op = 0 then
      if st = .m then sendRdc (downgrade s agent key data poison) die key .wbk kept (some data) else s
    else
      let s' := dropAgent s agent key
      match st with
      | .s => s'
      | .e => sendRdc s' die key .put kept none
      | .m =>
        if op = 2 then sendRdc s' die key .wb kept (some data)
        else sendRdc s' die key .put
          { kept with st := .e, data := Mem.readN s.mem (64 * line) 64, poison := s.poison.contains line } none

/-- A line in the L1 alone, its RDC line staying: dirty data go to the home through the RDC. -/
def l1FarRange (s : State) (c op key : Nat) (l : CLine) : State :=
  let die := coreDie c
  let agent := 0xC00 + die
  let free := fun (s : State) => setRdc s die (Map.modify (rdcOf s die) key (fun (r : CLine) =>
    if r.owner = some c then { r with owner := none } else r))
  let erase := fun (s : State) => s.modCore c (fun k => { k with l1 := Map.erase k.l1 key })
  if l.st = .m && op != 1 then
    let s := sendRdc (downgrade s agent key l.data l.poison) die key .wbk { l with owner := none } (some l.data)
    if op = 2 then erase s else s
  else if op = 0 then s
  else erase (free s)

/-- R133, R347: a coherent line homed on the core's own die, in its L1. -/
def l1Range (s : State) (c op key : Nat) (l : CLine) : State :=
  let line := key % 2 ^ 44
  let send := fun (s : State) (k : MsgKind) (keep : CLine) (d : Option (List Byte)) =>
    sendMsg (s.modCore c (fun x => { x with xbuf := Map.set x.xbuf key keep }))
      { mkMsg s k line c with data := d, poison := l.poison }
  let erase := fun (s : State) => s.modCore c (fun k => { k with l1 := Map.erase k.l1 key })
  if op = 0 then
    if l.st = .m then
      send (s.modCore c (fun k => { k with l1 := Map.set k.l1 key { l with st := .s } })) .wbk l (some l.data)
    else s
  else match l.st with
    | .s => erase s
    | .e => send (erase s) .put l none
    | .m =>
      if op = 2 then send (erase s) .wb l (some l.data)
      else send (erase s) .put
        { l with st := .e, data := Mem.readN s.mem (64 * line) 64, poison := s.poison.contains line } none

/-- R133: a line of one of the caches of the scope: the state, and whether it was written back or dropped. -/
def rangeLine (s : State) (c op scope key : Nat) : State × Bool :=
  let pa := 64 * key - s.pkg * 2 ^ 50
  let mine := Map.get? (s.core c).l1 key
  let rdc := if scope < 2 then none else Map.get? (rdcOf s (coreDie c)) key
  let dropRdc := fun (s : State) => if rdc.isSome then
    setRdc s (coreDie c) (Map.erase (rdcOf s (coreDie c)) key) else s
  let kind := match mine, rdc with
    | some l, _ => some l.kind
    | none, some l => some l.kind
    | none, none => none
  match kind with
  | none => (s, false)
  | some .priv =>
    let s' : State := match mine with
      | some l => if isDirty l && op != 1 then writePriv s c pa l.data l.poison else s
      | none => s
    if op = 0 then
      let s'' := s'.modCore c (fun k => { k with
        l1 := Map.modify k.l1 key (fun (l : CLine) => { l with st := LState.e }) })
      match mine with
      | some l => if l.st = .m then (s'', true) else (s, false)
      | none => (s, false)
    else (dropRdc (s'.modCore c (fun k => { k with l1 := Map.erase k.l1 key })), true)
  | some .coherent =>
    if farLine s c key then
      if rdc.isSome then (rdcRange s c op key, op != 0 || dirtyIn s c scope key)
      else match mine with
        | some l => (l1FarRange s c op key l, op != 0 || l.st = .m)
        | none => (s, false)
    else match mine with
      | some l => (l1Range s c op key l, op != 0 || l.st = .m)
      | none => (s, false)
  | some _ =>
    if op = 0 then (s, false)
    else (dropRdc (s.modCore c (fun k => { k with l1 := Map.erase k.l1 key })), true)

def rangeLines (s : State) (c op scope : Nat) (n : Nat) : List Nat → State × Nat
  | [] => (s, n)
  | k :: ks =>
    let x := rangeLine s c op scope k
    rangeLines x.1 c op scope (if x.2 then n + 1 else n) ks

/-- R133, R360: a host-coherent line. -/
def hostRange (s : State) (c op scope key : Nat) : State × Bool :=
  match Map.get? s.hostLines key with
  | none => (s, false)
  | some l =>
    let dirty := hostDirty s c scope key
    let back := { s with host := Mem.writeN s.host (key % 2 ^ 40 * 64) l.data }
    let gone := fun (s : State) => dropHostL1 { s with hostLines := Map.erase s.hostLines key } (key % 2 ^ 40)
    if op = 0 then
      if dirty then ({ back with hostLines := Map.set s.hostLines key { l with st := .s, owner := none } }, true)
      else (s, false)
    else if dirty then (gone (if op = 2 then back else s), true)
    else if scope = 4 then (gone s, true)
    else
      let s := s.modCore c (fun k => { k with l1 := Map.erase k.l1 (hostKey s (key % 2 ^ 40)) })
      ({ s with hostLines := Map.set s.hostLines key { l with leaves := l.leaves.filter (· != c) } }, true)

def hostRanges (s : State) (c op scope : Nat) (n : Nat) : List Nat → State × Nat
  | [] => (s, n)
  | k :: ks =>
    let x := hostRange s c op scope k
    hostRanges x.1 c op scope (if x.2 then n + 1 else n) ks

/-! ## The act (R132, R134) -/

/-- R132: a scope of 5 to 7 acts as 4. -/
def rangeScope (ctl : Word) : Nat := Nat.min 4 (bitsOf ctl.toNat 48 3)

/-- R134: INVR with dirty lines asks the authority table first: the missing right, or the fault of its read. -/
def discardRight (s : State) (c slot : Nat) (t : Thread) (dirty : Nat) : State × Option FaultInfo :=
  if dirty = 0 then (s, none) else needRight s c slot t 7

/-- R134: discarded lines are counted in the core's bank. -/
def countDiscards (s : State) (c n : Nat) : State :=
  if n = 0 then s
  else
    let b := (Map.get? s.banks (coreBank c)).getD {}
    { s with banks := Map.set s.banks (coreBank c) { b with discard := b.discard + n } }

/-- R132: whether an engine is to write a line of a piece of the range first. -/
def engineFirst (s : State) (c : Nat) (x : PageKind × Nat × Nat) : Bool :=
  let within := fun (l : Nat) => decide (x.2.1 ≤ lineKey s (64 * l)) && decide (lineKey s (64 * l) < x.2.1 + x.2.2)
  match x.1 with
  | .coherent => s.dir.any (fun e => e.2.st = .o && within e.1)
  | .priv => s.cmds.any (fun q => q.2.core = c && q.2.accepted && q.2.priv.any within)
  | _ => false

/-- R132, R347, R348: whether the home is still to acknowledge a line that a core or its die's RDC has sent home. -/
def onWayHome (s : State) (c key : Nat) : Bool := Map.has (s.core c).xbuf key || Map.has (rdcXOf s (coreDie c)) key

/-- R132: the operation acts on the lines: the result is known, and the lines on their way home are waited
for. -/
def rangeAct (s : State) (c slot : Nat) (t : Thread) (op d : Nat) (va ctl : Word) : State :=
  let places : State × Except FaultInfo (List (Place × Nat)) :=
    match rangeOf va ctl with
    | none => (s, .ok [])
    | some (lo, hi) => rangePlaces s c t (rangeChunks lo hi)
  match places with
  | (s, .error f) => takeFault s c slot f
  | (s, .ok ps) =>
    let scope := rangeScope ctl
    let ls := ps.filterMap (fun x => placeLines x.1 x.2)
    if ls.any (engineFirst s c) then { s with blocked := s.blocked ++ [.accessComplete c slot] }
    else
      let keys := ls.flatMap (fun x =>
        if x.1 = .hostCoherent then [] else cachedKeys s c scope x.2.1 x.2.2)
      let hosts := ls.flatMap (fun x =>
        if x.1 = .hostCoherent then hostKeys s c scope x.2.1 x.2.2 else [])
      let dirty := if op = 1 then count (fun k => dirtyIn s c scope k) keys +
        count (fun k => hostDirty s c scope k) hosts else 0
      match discardRight s c slot t dirty with
      | (s, some f) => takeFault s c slot f
      | (s, none) =>
        let x := rangeLines (countDiscards s c dirty) c op scope 0 keys
        let y := hostRanges x.1 c op scope x.2 hosts
        let left := keys.filter (onWayHome y.1 c)
        if left.isEmpty then finishWait (writeG y.1 c slot d (BitVec.ofNat 64 y.2)) c slot
        else { y.1.modThread c slot (fun t => { t with wait := .range op d va ctl (some (y.2, left, ls)) }) with
               blocked := y.1.blocked ++ [.accessComplete c slot] }

/-- ACCESS_COMPLETE (R15): what the thread waits for is performed as far as it can be: its access, its FENCE,
its range operation; a stepped instruction that is complete faults STEP (R203). -/
def execAccessComplete (core slot : Nat) (s : State) : Host.Outcome State Fault Refusal :=
  let r : TRef := ⟨core, slot⟩
  match s.thread? core slot with
  | none => .next (settleAct s (.accessComplete core slot))
  | some t =>
    match t.wait with
    | .access _ => .next (settleAct (performAcc s r none) (.accessComplete core slot))
    | .fence _ _ _ _ => .next (recheckFence s r)
    | .range op d va ctl none => .next (rangeAct s core slot t op d va ctl)
    | .range _ d _ _ (some (n, left, _)) =>
      if left.any (onWayHome s core) then
        .next { s with blocked := s.blocked ++ [.accessComplete core slot] }
      else .next (pumpThreads (finishWait (writeG s core slot d (BitVec.ofNat 64 n)) core slot) (coreThreads s core))
    | .idle => .next (settleAct (if t.code = .running || t.code = .ready then s else stepFault s core slot)
        (.accessComplete core slot))
    | _ => .next (settleAct s (.accessComplete core slot))

end Sys2Proof.Machine
end

