-- ==== Sys2Proof/Machine/Scalar.lean ====
section
/-!
DEFINITION. Scalar.lean: the scalar integer, predicate and control instructions (R79 to R97).
-/
namespace Sys2Proof.Machine
open Sys2Proof

/-! ## Integer operations on registers (R83 to R87) -/

/-- ADD (R83). -/
def execAdd (g : BitVec 3) (d a b : BitVec 7) : State → Host.Outcome State Fault Refusal :=
  opRRR (.add g d a b) g d a b (fun x y => x + y)

/-- SUB (R83). -/
def execSub (g : BitVec 3) (d a b : BitVec 7) : State → Host.Outcome State Fault Refusal :=
  opRRR (.sub g d a b) g d a b (fun x y => x - y)

/-- AND (R83). -/
def execAnd (g : BitVec 3) (d a b : BitVec 7) : State → Host.Outcome State Fault Refusal :=
  opRRR (.and g d a b) g d a b (fun x y => x &&& y)

/-- OR (R83). -/
def execOr (g : BitVec 3) (d a b : BitVec 7) : State → Host.Outcome State Fault Refusal :=
  opRRR (.or g d a b) g d a b (fun x y => x ||| y)

/-- XOR (R83). -/
def execXor (g : BitVec 3) (d a b : BitVec 7) : State → Host.Outcome State Fault Refusal :=
  opRRR (.xor g d a b) g d a b (fun x y => x ^^^ y)

/-- ANDN (R83). -/
def execAndn (g : BitVec 3) (d a b : BitVec 7) : State → Host.Outcome State Fault Refusal :=
  opRRR (.andn g d a b) g d a b (fun x y => x &&& ~~~y)

/-- SHL (R83). -/
def execShl (g : BitVec 3) (d a b : BitVec 7) : State → Host.Outcome State Fault Refusal :=
  opRRR (.shl g d a b) g d a b (fun x y => x <<< shAmt y)

/-- SHR (R83). -/
def execShr (g : BitVec 3) (d a b : BitVec 7) : State → Host.Outcome State Fault Refusal :=
  opRRR (.shr g d a b) g d a b (fun x y => x >>> shAmt y)

/-- SRA (R83). -/
def execSra (g : BitVec 3) (d a b : BitVec 7) : State → Host.Outcome State Fault Refusal :=
  opRRR (.sra g d a b) g d a b (fun x y => x.sshiftRight (shAmt y))

/-- ROTL (R83). -/
def execRotl (g : BitVec 3) (d a b : BitVec 7) : State → Host.Outcome State Fault Refusal :=
  opRRR (.rotl g d a b) g d a b (fun x y => x.rotateLeft (shAmt y))

/-- MINS (R83). -/
def execMins (g : BitVec 3) (d a b : BitVec 7) : State → Host.Outcome State Fault Refusal :=
  opRRR (.mins g d a b) g d a b opMins

/-- MAXS (R83). -/
def execMaxs (g : BitVec 3) (d a b : BitVec 7) : State → Host.Outcome State Fault Refusal :=
  opRRR (.maxs g d a b) g d a b opMaxs

/-- MINU (R83). -/
def execMinu (g : BitVec 3) (d a b : BitVec 7) : State → Host.Outcome State Fault Refusal :=
  opRRR (.minu g d a b) g d a b opMinu

/-- MAXU (R83). -/
def execMaxu (g : BitVec 3) (d a b : BitVec 7) : State → Host.Outcome State Fault Refusal :=
  opRRR (.maxu g d a b) g d a b opMaxu

/-- CLZ (R83). -/
def execClz (g : BitVec 3) (d a : BitVec 7) : State → Host.Outcome State Fault Refusal :=
  opRR (.clz g d a) g d a (fun x => BitVec.ofNat 64 (clzN 64 x.toNat))

/-- CTZ (R83). -/
def execCtz (g : BitVec 3) (d a : BitVec 7) : State → Host.Outcome State Fault Refusal :=
  opRR (.ctz g d a) g d a (fun x => BitVec.ofNat 64 (ctzN 64 x.toNat))

/-- POPC (R83). -/
def execPopc (g : BitVec 3) (d a : BitVec 7) : State → Host.Outcome State Fault Refusal :=
  opRR (.popc g d a) g d a (fun x => BitVec.ofNat 64 (popcN 64 x.toNat))

/-- BREV (R83). -/
def execBrev (g : BitVec 3) (d a : BitVec 7) : State → Host.Outcome State Fault Refusal :=
  opRR (.brev g d a) g d a (fun x => BitVec.ofNat 64 (brevN 64 x.toNat))

/-- BSWAP (R83). -/
def execBswap (g : BitVec 3) (d a : BitVec 7) : State → Host.Outcome State Fault Refusal :=
  opRR (.bswap g d a) g d a opBswap

/-- MUL (R84). -/
def execMul (g : BitVec 3) (d a b : BitVec 7) : State → Host.Outcome State Fault Refusal :=
  opRRR (.mul g d a b) g d a b (fun x y => x * y)

/-- MULHS (R84). -/
def execMulhs (g : BitVec 3) (d a b : BitVec 7) : State → Host.Outcome State Fault Refusal :=
  opRRR (.mulhs g d a b) g d a b (fun x y => hiHalf (x.toInt * y.toInt))

/-- MULHU (R84). -/
def execMulhu (g : BitVec 3) (d a b : BitVec 7) : State → Host.Outcome State Fault Refusal :=
  opRRR (.mulhu g d a b) g d a b (fun x y => hiHalf (x.toNat * y.toNat))

/-- MULHSU (R84). -/
def execMulhsu (g : BitVec 3) (d a b : BitVec 7) : State → Host.Outcome State Fault Refusal :=
  opRRR (.mulhsu g d a b) g d a b (fun x y => hiHalf (x.toInt * y.toNat))

/-- DIVS (R85). -/
def execDivs (g : BitVec 3) (d a b : BitVec 7) : State → Host.Outcome State Fault Refusal :=
  opRRR (.divs g d a b) g d a b opDivs

/-- DIVU (R85). -/
def execDivu (g : BitVec 3) (d a b : BitVec 7) : State → Host.Outcome State Fault Refusal :=
  opRRR (.divu g d a b) g d a b opDivu

/-- REMS (R85). -/
def execRems (g : BitVec 3) (d a b : BitVec 7) : State → Host.Outcome State Fault Refusal :=
  opRRR (.rems g d a b) g d a b opRems

/-- REMU (R85). -/
def execRemu (g : BitVec 3) (d a b : BitVec 7) : State → Host.Outcome State Fault Refusal :=
  opRRR (.remu g d a b) g d a b opRemu

/-- SHADD1 (R86). -/
def execShadd1 (g : BitVec 3) (d a b : BitVec 7) : State → Host.Outcome State Fault Refusal :=
  opRRR (.shadd1 g d a b) g d a b (fun x y => (x <<< 1) + y)

/-- SHADD2 (R86). -/
def execShadd2 (g : BitVec 3) (d a b : BitVec 7) : State → Host.Outcome State Fault Refusal :=
  opRRR (.shadd2 g d a b) g d a b (fun x y => (x <<< 2) + y)

/-- SHADD3 (R86). -/
def execShadd3 (g : BitVec 3) (d a b : BitVec 7) : State → Host.Outcome State Fault Refusal :=
  opRRR (.shadd3 g d a b) g d a b (fun x y => (x <<< 3) + y)

/-- SHADD4 (R86). -/
def execShadd4 (g : BitVec 3) (d a b : BitVec 7) : State → Host.Outcome State Fault Refusal :=
  opRRR (.shadd4 g d a b) g d a b (fun x y => (x <<< 4) + y)

/-- BEXT (R87). -/
def execBext (g : BitVec 3) (d a b : BitVec 7) : State → Host.Outcome State Fault Refusal :=
  opRRR (.bext g d a b) g d a b opBext

/-- BINS (R87): d is also a source. -/
def execBins (g : BitVec 3) (d a b : BitVec 7) : State → Host.Outcome State Fault Refusal :=
  opDRR (.bins g d a b) g d a b opBins

/-! ## Immediate forms (R88 to R90) -/

/-- ADDI (R88). -/
def execAddi (g : BitVec 3) (d a : BitVec 7) (i : BitVec 9) :
    State → Host.Outcome State Fault Refusal :=
  opRR (.addi g d a i) g d a (fun x => x + sx i)

/-- ANDI (R88). -/
def execAndi (g : BitVec 3) (d a : BitVec 7) (i : BitVec 9) :
    State → Host.Outcome State Fault Refusal :=
  opRR (.andi g d a i) g d a (fun x => x &&& sx i)

/-- ORI (R88). -/
def execOri (g : BitVec 3) (d a : BitVec 7) (i : BitVec 9) :
    State → Host.Outcome State Fault Refusal :=
  opRR (.ori g d a i) g d a (fun x => x ||| sx i)

/-- XORI (R88). -/
def execXori (g : BitVec 3) (d a : BitVec 7) (i : BitVec 9) :
    State → Host.Outcome State Fault Refusal :=
  opRR (.xori g d a i) g d a (fun x => x ^^^ sx i)

/-- SHLI (R89). -/
def execShli (g : BitVec 3) (d a : BitVec 7) (n : BitVec 6) :
    State → Host.Outcome State Fault Refusal :=
  opRR (.shli g d a n) g d a (fun x => x <<< n.toNat)

/-- SHRI (R89). -/
def execShri (g : BitVec 3) (d a : BitVec 7) (n : BitVec 6) :
    State → Host.Outcome State Fault Refusal :=
  opRR (.shri g d a n) g d a (fun x => x >>> n.toNat)

/-- SRAI (R89). -/
def execSrai (g : BitVec 3) (d a : BitVec 7) (n : BitVec 6) :
    State → Host.Outcome State Fault Refusal :=
  opRR (.srai g d a n) g d a (fun x => x.sshiftRight n.toNat)

/-- ROTLI (R89). -/
def execRotli (g : BitVec 3) (d a : BitVec 7) (n : BitVec 6) :
    State → Host.Outcome State Fault Refusal :=
  opRR (.rotli g d a n) g d a (fun x => x.rotateLeft n.toNat)

/-- LI (R90). -/
def execLi (g : BitVec 3) (d : BitVec 7) (i : BitVec 16) : State → Host.Outcome State Fault Refusal :=
  issue (.li g d i) { guard := g, g := [d.toNat], writes := [d.toNat] }
    (fun c slot _ s => writeG s c slot d.toNat (sx i))

/-- LIS (R90): d is also a source. -/
def execLis (g : BitVec 3) (d : BitVec 7) (i : BitVec 16) : State → Host.Outcome State Fault Refusal :=
  issue (.lis g d i) { guard := g, g := [d.toNat], reads := [d.toNat], writes := [d.toNat] }
    (fun c slot t s => writeG s c slot d.toNat ((t.gv d.toNat <<< 16) ||| zx i))

/-! ## Predicates (R91 to R93) -/

/-- CMP, register form (R91). -/
def execCmpReg (g p c : BitVec 3) (a b : BitVec 7) : State → Host.Outcome State Fault Refusal :=
  issue (.cmpReg g p c a b) { guard := g, g := [a.toNat, b.toNat], reads := [a.toNat, b.toNat] }
    (fun k slot t s => writeP s k slot p.toNat (cmpCond c (t.gv a.toNat) (t.gv b.toNat)))

/-- CMP, immediate form (R91). -/
def execCmpImm (g p c : BitVec 3) (a : BitVec 7) (i : BitVec 9) :
    State → Host.Outcome State Fault Refusal :=
  issue (.cmpImm g p c a i) { guard := g, g := [a.toNat], reads := [a.toNat] }
    (fun k slot t s => writeP s k slot p.toNat (cmpCond c (t.gv a.toNat) (sx i)))

/-- PLOG (R92). -/
def execPlog (g p x y : BitVec 3) (o : BitVec 2) : State → Host.Outcome State Fault Refusal :=
  issue (.plog g p x y o) { guard := g, pw := true }
    (fun k slot t s => writeP s k slot p.toNat (plogOp o (t.p x.toNat) (t.p y.toNat)))

/-- PGET (R93). -/
def execPget (g : BitVec 3) (d : BitVec 7) : State → Host.Outcome State Fault Refusal :=
  issue (.pget g d) { guard := g, g := [d.toNat], writes := [d.toNat], pw := true }
    (fun k slot t s => writeG s k slot d.toNat (zx t.pwv))

/-- PSET (R93): bits 7 to 1 are written. -/
def execPset (g : BitVec 3) (a : BitVec 7) : State → Host.Outcome State Fault Refusal :=
  issue (.pset g a) { guard := g, g := [a.toNat], reads := [a.toNat] }
    (fun k slot t s => writePw s k slot ((t.gv a.toNat).extractLsb' 0 8))

/-! ## Control transfer (R94 to R97) -/

/-- BR (R94). -/
def execBr (g : BitVec 3) (o : BitVec 23) : State → Host.Outcome State Fault Refusal :=
  issue (.br g o) { guard := g } (fun c slot t s => setPc s c slot (t.pc + offW o))

/-- JAL (R95). -/
def execJal (g : BitVec 3) (d : BitVec 7) (i : BitVec 16) : State → Host.Outcome State Fault Refusal :=
  issue (.jal g d i) { guard := g, g := [d.toNat], writes := [d.toNat] }
    (fun c slot t s => setPc (writeG s c slot d.toNat (t.pc + 4#64)) c slot (t.pc + offW i))

/-- JR (R96): a target that is no multiple of 4 faults MISALIGN. -/
def execJr (g : BitVec 3) (d a : BitVec 7) (i : BitVec 9) : State → Host.Outcome State Fault Refusal :=
  issue (.jr g d a i) { guard := g, g := [d.toNat, a.toNat], reads := [a.toNat], writes := [d.toNat] }
    (fun c slot t s =>
      let target := t.gv a.toNat + offW i
      if target.toNat % 4 != 0 then takeFault s c slot (mkFault fcMisalign target 4#64)
      else setPc (writeG s c slot d.toNat (t.pc + 4#64)) c slot target)

end Sys2Proof.Machine
end

