-- ==== Sys2Proof/Machine/SfuTables.lean ====
section
/-!
DEFINITION. SfuTables.lean: the table entries of the special-function procedures (R149, step 3): c0, c1 and c2 of
each cell, as FP32 encodings. They are the exact values of the functions and their derivatives, rounded once;
cos 2πu is sin 2πu a quarter of a turn on, which is 16 cells.
-/
namespace Sys2Proof.Machine
open Sys2Proof

/-- R149: c0 of 1 ÷ u on [1, 2). -/
def rcpC0 : List Nat :=
  [0x3F800000, 0x3F7C0FC1, 0x3F783E10, 0x3F74898D, 0x3F70F0F1, 0x3F6D7304, 0x3F6A0EA1, 0x3F66C2B4] ++
  [0x3F638E39, 0x3F607038, 0x3F5D67C9, 0x3F5A740E, 0x3F579436, 0x3F54C77B, 0x3F520D21, 0x3F4F6475] ++
  [0x3F4CCCCD, 0x3F4A4588, 0x3F47CE0C, 0x3F4565C8, 0x3F430C31, 0x3F40C0C1, 0x3F3E82FA, 0x3F3C5264] ++
  [0x3F3A2E8C, 0x3F381703, 0x3F360B61, 0x3F340B41, 0x3F321643, 0x3F302C0B, 0x3F2E4C41, 0x3F2C7692] ++
  [0x3F2AAAAB, 0x3F28E83F, 0x3F272F05, 0x3F257EB5, 0x3F23D70A, 0x3F2237C3, 0x3F20A0A1, 0x3F1F1166] ++
  [0x3F1D89D9, 0x3F1C09C1, 0x3F1A90E8, 0x3F191F1A, 0x3F17B426, 0x3F164FDA, 0x3F14F209, 0x3F139A86] ++
  [0x3F124925, 0x3F10FDBC, 0x3F0FB824, 0x3F0E7835, 0x3F0D3DCB, 0x3F0C08C1, 0x3F0AD8F3, 0x3F09AE41] ++
  [0x3F088889, 0x3F0767AB, 0x3F064B8A, 0x3F053408, 0x3F042108, 0x3F03126F, 0x3F020821, 0x3F010204]

/-- R149: c1 of 1 ÷ u on [1, 2). -/
def rcpC1 : List Nat :=
  [0xBF800000, 0xBF782F05, 0xBF70B84D, 0xBF69967F, 0xBF62C4A7, 0xBF5C3E29, 0xBF55FEBF, 0xBF500270] ++
  [0xBF4A4588, 0xBF44C493, 0xBF3F7C5B, 0xBF3A69DC, 0xBF358A48, 0xBF30DAFF, 0xBF2C598B, 0xBF28039C] ++
  [0xBF23D70A, 0xBF1FD1CD, 0xBF1BF1FD, 0xBF1835CF, 0xBF149B93, 0xBF1121B2, 0xBF0DC6AE, 0xBF0A891D] ++
  [0xBF0767AB, 0xBF046116, 0xBF01742E, 0xBEFD3FA7, 0xBEF7C5EE, 0xBEF2792D, 0xBEED577F, 0xBEE85F15] ++
  [0xBEE38E39, 0xBEDEE34C, 0xBEDA5CC3, 0xBED5F928, 0xBED1B717, 0xBECD953E, 0xBEC9925B, 0xBEC5AD3C] ++
  [0xBEC1E4BC, 0xBEBE37C6, 0xBEBAA552, 0xBEB72C62, 0xBEB3CC07, 0xBEB0835A, 0xBEAD517F, 0xBEAA35A6] ++
  [0xBEA72F05, 0xBEA43CDE, 0xBEA15E79, 0xBE9E9327, 0xBE9BDA41, 0xBE993326, 0xBE969D3C, 0xBE9417EF] ++
  [0xBE91A2B4, 0xBE8F3D01, 0xBE8CE657, 0xBE8A9E36, 0xBE88642A, 0xBE8637BD, 0xBE841883, 0xBE820610]

/-- R149: c2 of 1 ÷ u on [1, 2). -/
def rcpC2 : List Nat :=
  [0x3F800000, 0x3F745D8F, 0x3F696CE6, 0x3F5F20F4, 0x3F556DCA, 0x3F4C487F, 0x3F43A715, 0x3F3B8065] ++
  [0x3F33CC07, 0x3F2C8242, 0x3F259BFB, 0x3F1F12A7, 0x3F18E03D, 0x3F12FF2B, 0x3F0D6A4A, 0x3F081CD9] ++
  [0x3F03126F, 0x3EFC8DE9, 0x3EF36D40, 0x3EEABBD9, 0x3EE27329, 0x3EDA8D18, 0x3ED303FD, 0x3ECBD28F] ++
  [0x3EC4F3E2, 0x3EBE635C, 0x3EB81CB3, 0x3EB21BE3, 0x3EAC5D2B, 0x3EA6DD06, 0x3EA1982B, 0x3E9C8B82] ++
  [0x3E97B426, 0x3E930F5F, 0x3E8E9A9F, 0x3E8A537F, 0x3E8637BD, 0x3E824539, 0x3E7CF3E6, 0x3E75A80E] ++
  [0x3E6EA35D, 0x3E67E278, 0x3E616233, 0x3E5B1F90, 0x3E5517BC, 0x3E4F480B, 0x3E49ADF6, 0x3E444717] ++
  [0x3E3F112B, 0x3E3A0A0B, 0x3E352FB0, 0x3E30802C, 0x3E2BF9A9, 0x3E279A6B, 0x3E2360CC, 0x3E1F4B39] ++
  [0x3E1B5837, 0x3E17865A, 0x3E13D44A, 0x3E1040BE, 0x3E0CCA7D, 0x3E09705F, 0x3E063148, 0x3E030C28]

/-- R149: c0 of u^(−1/2) on [1, 2). -/
def rsqEC0 : List Nat :=
  [0x3F800000, 0x3F7E05EC, 0x3F7C1764, 0x3F7A33F9, 0x3F785B42, 0x3F768CDC, 0x3F74C867, 0x3F730D8A] ++
  [0x3F715BEF, 0x3F6FB345, 0x3F6E133E, 0x3F6C7B90, 0x3F6AEBF5, 0x3F69642A, 0x3F67E3ED, 0x3F666B02] ++
  [0x3F64F92E, 0x3F638E39, 0x3F6229ED, 0x3F60CC16, 0x3F5F7483, 0x3F5E2305, 0x3F5CD76E, 0x3F5B9193] ++
  [0x3F5A514A, 0x3F59166B, 0x3F57E0CF, 0x3F56B051, 0x3F5584CD, 0x3F545E22, 0x3F533C2E, 0x3F521ED0] ++
  [0x3F5105EC, 0x3F4FF162, 0x3F4EE116, 0x3F4DD4ED, 0x3F4CCCCD, 0x3F4BC89B, 0x3F4AC83F, 0x3F49CBA2] ++
  [0x3F48D2AB, 0x3F47DD45, 0x3F46EB5A, 0x3F45FCD6, 0x3F4511A3, 0x3F4429AF, 0x3F4344E6, 0x3F426337] ++
  [0x3F41848F, 0x3F40A8DE, 0x3F3FD012, 0x3F3EFA1C, 0x3F3E26EB, 0x3F3D5671, 0x3F3C889F, 0x3F3BBD67] ++
  [0x3F3AF4BA, 0x3F3A2E8C, 0x3F396ACE, 0x3F38A975, 0x3F37EA74, 0x3F372DBF, 0x3F36734A, 0x3F35BB09]

/-- R149: c1 of u^(−1/2) on [1, 2). -/
def rsqEC1 : List Nat :=
  [0xBF000000, 0xBEFA1D76, 0xBEF473C6, 0xBEEEFFFA, 0xBEE9BF4D, 0xBEE4AF2C, 0xBEDFCD2B, 0xBEDB1705] ++
  [0xBED68A9B, 0xBED225EF, 0xBECDE721, 0xBEC9CC6D, 0xBEC5D42D, 0xBEC1FCD0, 0xBEBE44DD, 0xBEBAAAF2] ++
  [0xBEB72DBF, 0xBEB3CC07, 0xBEB084A0, 0xBEAD566D, 0xBEAA4064, 0xBEA74185, 0xBEA458E1, 0xBEA18592] ++
  [0xBE9EC6C1, 0xBE9C1BA0, 0xBE99836B, 0xBE96FD69, 0xBE9488E8, 0xBE922541, 0xBE8FD1D3, 0xBE8D8E06] ++
  [0xBE8B5948, 0xBE89330E, 0xBE871AD5, 0xBE85101D, 0xBE83126F, 0xBE812156, 0xBE7E78C8, 0xBE7AC661] ++
  [0xBE772AAB, 0xBE73A4E6, 0xBE70345A, 0xBE6CD853, 0xBE699029, 0xBE665B39, 0xBE6338E7, 0xBE60289C] ++
  [0xBE5D29C8, 0xBE5A3BE2, 0xBE575E65, 0xBE5490D1, 0xBE51D2AB, 0xBE4F237E, 0xBE4C82D8, 0xBE49F04C] ++
  [0xBE476B71, 0xBE44F3E2, 0xBE42893D, 0xBE402B24, 0xBE3DD93E, 0xBE3B9332, 0xBE3958AC, 0xBE37295C]

/-- R149: c2 of u^(−1/2) on [1, 2). -/
def rsqEC2 : List Nat :=
  [0x3EC00000, 0x3EB8B34C, 0x3EB1C890, 0x3EAB394C, 0x3EA4FF82, 0x3E9F15AF, 0x3E9976BE, 0x3E941DFC] ++
  [0x3E8F0712, 0x3E8A2DFC, 0x3E858F01, 0x3E8126AC, 0x3E79E397, 0x3E71DAC7, 0x3E6A2D5F, 0x3E62D636] ++
  [0x3E5BD07E, 0x3E5517BC, 0x3E4EA7C1, 0x3E487CA3, 0x3E4292BB, 0x3E3CE69C, 0x3E377513, 0x3E323B1D] ++
  [0x3E2D35EA, 0x3E2862D5, 0x3E23BF61, 0x3E1F4939, 0x3E1AFE2A, 0x3E16DC22, 0x3E12E12E, 0x3E0F0B7A] ++
  [0x3E0B5948, 0x3E07C8F6, 0x3E0458FA, 0x3E0107DE, 0x3DFBA882, 0x3DF579AA, 0x3DEF80BC, 0x3DE9BB61] ++
  [0x3DE42763, 0x3DDEC2A7, 0x3DD98B2F, 0x3DD47F18, 0x3DCF9C97, 0x3DCAE1F5, 0x3DC64D96, 0x3DC1DDEE] ++
  [0x3DBD9187, 0x3DB966FB, 0x3DB55CF7, 0x3DB17236, 0x3DADA585, 0x3DA9F5BD, 0x3DA661C6, 0x3DA2E894] ++
  [0x3D9F8927, 0x3D9C428D, 0x3D9913DC, 0x3D95FC35, 0x3D92FAC4, 0x3D900EBE, 0x3D8D375F, 0x3D8A73ED]

/-- R149: c0 of (2u)^(−1/2) on [1, 2). -/
def rsqOC0 : List Nat :=
  [0x3F3504F3, 0x3F339F19, 0x3F32416A, 0x3F30EB96, 0x3F2F9D53, 0x3F2E565C, 0x3F2D166C, 0x3F2BDD46] ++
  [0x3F2AAAAB, 0x3F297E62, 0x3F285835, 0x3F2737F0, 0x3F261D5F, 0x3F250855, 0x3F23F8A2, 0x3F22EE1D] ++
  [0x3F21E89B, 0x3F20E7F5, 0x3F1FEC04, 0x3F1EF4A4, 0x3F1E01B3, 0x3F1D130E, 0x3F1C2896, 0x3F1B422C] ++
  [0x3F1A5FB2, 0x3F19810C, 0x3F18A61F, 0x3F17CED0, 0x3F16FB06, 0x3F162AA9, 0x3F155DA2, 0x3F1493D9] ++
  [0x3F13CD3A, 0x3F1309AF, 0x3F124925, 0x3F118B87, 0x3F10D0C3, 0x3F1018C6, 0x3F0F6381, 0x3F0EB0E0] ++
  [0x3F0E00D5, 0x3F0D534F, 0x3F0CA83F, 0x3F0BFF97, 0x3F0B5948, 0x3F0AB544, 0x3F0A137D, 0x3F0973E8] ++
  [0x3F08D677, 0x3F083B1E, 0x3F07A1D2, 0x3F070A87, 0x3F067532, 0x3F05E1C7, 0x3F05503E, 0x3F04C08B] ++
  [0x3F0432A5, 0x3F03A682, 0x3F031C1A, 0x3F029362, 0x3F020C52, 0x3F0186E2, 0x3F01030A, 0x3F0080C1]

/-- R149: c1 of (2u)^(−1/2) on [1, 2). -/
def rsqOC1 : List Nat :=
  [0xBEB504F3, 0xBEB0DBAB, 0xBEACDA95, 0xBEA8FF9A, 0xBEA548C7, 0xBEA1B446, 0xBE9E4063, 0xBE9AEB83] ++
  [0xBE97B426, 0xBE9498E2, 0xBE919865, 0xBE8EB170, 0xBE8BE2D7, 0xBE892B7F, 0xBE868A5E, 0xBE83FE79] ++
  [0xBE8186E2, 0xBE7E4576, 0xBE79A25D, 0xBE7522EA, 0xBE70C5A2, 0xBE6C891E, 0xBE686C09, 0xBE646D20] ++
  [0xBE608B31, 0xBE5CC51A, 0xBE5919C5, 0xBE55882D, 0xBE520F57, 0xBE4EAE54, 0xBE4B6444, 0xBE48304D] ++
  [0xBE4511A3, 0xBE420780, 0xBE3F112B, 0xBE3C2DEF, 0xBE395D22, 0xBE369E21, 0xBE33F051, 0xBE31531C] ++
  [0xBE2EC5F2, 0xBE2C484D, 0xBE29D9A8, 0xBE277987, 0xBE252771, 0xBE22E2F4, 0xBE20ABA0, 0xBE1E810C] ++
  [0xBE1C62D1, 0xBE1A508F, 0xBE1849E8, 0xBE164E80, 0xBE145E02, 0xBE12781A, 0xBE109C77, 0xBE0ECACE] ++
  [0xBE0D02D2, 0xBE0B443E, 0xBE098ECB, 0xBE07E238, 0xBE063E44, 0xBE04A2B3, 0xBE030F47, 0xBE0183C9]

/-- R149: c2 of (2u)^(−1/2) on [1, 2). -/
def rsqOC2 : List Nat :=
  [0x3E87C3B6, 0x3E829A57, 0x3E7B6C7C, 0x3E7225A4, 0x3E6957AF, 0x3E60FAD1, 0x3E5907D8, 0x3E517821] ++
  [0x3E4A4588, 0x3E436A5E, 0x3E3CE161, 0x3E36A5AE, 0x3E30B2BF, 0x3E2B045C, 0x3E25969B, 0x3E2065D7] ++
  [0x3E1B6EA9, 0x3E16ADE7, 0x3E12209A, 0x3E0DC400, 0x3E099581, 0x3E0592B3, 0x3E01B952, 0x3DFC0E7C] ++
  [0x3DF4F4F0, 0x3DEE2244, 0x3DE792F5, 0x3DE143B4, 0x3DDB3165, 0x3DD5591D, 0x3DCFB81A, 0x3DCA4BC2] ++
  [0x3DC511A3, 0x3DC0076D, 0x3DBB2AF0, 0x3DB67A1E, 0x3DB1F302, 0x3DAD93C5, 0x3DA95AA7, 0x3DA54601] ++
  [0x3DA15442, 0x3D9D83EF, 0x3D99D39D, 0x3D9641F8, 0x3D92CDBA, 0x3D8F75AF, 0x3D8C38B1, 0x3D8915A9] ++
  [0x3D860B8F, 0x3D831965, 0x3D803E3C, 0x3D7AF25D, 0x3D7592C5, 0x3D705C10, 0x3D6B4CB1, 0x3D66632E] ++
  [0x3D619E1D, 0x3D5CFC27, 0x3D587C01, 0x3D541C70, 0x3D4FDC49, 0x3D4BBA6A, 0x3D47B5C2, 0x3D43CD48]

/-- R149: c0 of 2^u on [0, 1). -/
def exp2C0 : List Nat :=
  [0x3F800000, 0x3F8164D2, 0x3F82CD87, 0x3F843A29, 0x3F85AAC3, 0x3F871F62, 0x3F88980F, 0x3F8A14D5] ++
  [0x3F8B95C2, 0x3F8D1ADF, 0x3F8EA43A, 0x3F9031DC, 0x3F91C3D3, 0x3F935A2B, 0x3F94F4F0, 0x3F96942D] ++
  [0x3F9837F0, 0x3F99E046, 0x3F9B8D3A, 0x3F9D3EDA, 0x3F9EF532, 0x3FA0B051, 0x3FA27043, 0x3FA43516] ++
  [0x3FA5FED7, 0x3FA7CD94, 0x3FA9A15B, 0x3FAB7A3A, 0x3FAD583F, 0x3FAF3B79, 0x3FB123F6, 0x3FB311C4] ++
  [0x3FB504F3, 0x3FB6FD92, 0x3FB8FBAF, 0x3FBAFF5B, 0x3FBD08A4, 0x3FBF179A, 0x3FC12C4D, 0x3FC346CD] ++
  [0x3FC5672A, 0x3FC78D75, 0x3FC9B9BE, 0x3FCBEC15, 0x3FCE248C, 0x3FD06334, 0x3FD2A81E, 0x3FD4F35B] ++
  [0x3FD744FD, 0x3FD99D16, 0x3FDBFBB8, 0x3FDE60F5, 0x3FE0CCDF, 0x3FE33F89, 0x3FE5B907, 0x3FE8396A] ++
  [0x3FEAC0C7, 0x3FED4F30, 0x3FEFE4BA, 0x3FF28177, 0x3FF5257D, 0x3FF7D0DF, 0x3FFA83B3, 0x3FFD3E0C]

/-- R149: c1 of 2^u on [0, 1). -/
def exp2C1 : List Nat :=
  [0x3F317218, 0x3F3360C0, 0x3F3554CC, 0x3F374E49, 0x3F394D47, 0x3F3B51D6, 0x3F3D5C05, 0x3F3F6BE4] ++
  [0x3F418182, 0x3F439CEF, 0x3F45BE3D, 0x3F47E57A, 0x3F4A12B8, 0x3F4C4608, 0x3F4E7F79, 0x3F50BF1F] ++
  [0x3F530509, 0x3F555149, 0x3F57A3F1, 0x3F59FD12, 0x3F5C5CC0, 0x3F5EC30B, 0x3F613007, 0x3F63A3C6] ++
  [0x3F661E5B, 0x3F689FD9, 0x3F6B2853, 0x3F6DB7DD, 0x3F704E8A, 0x3F72EC6F, 0x3F75919F, 0x3F783E2E] ++
  [0x3F7AF233, 0x3F7DADC0, 0x3F803876, 0x3F819DE5, 0x3F830739, 0x3F84747C, 0x3F85E5B9, 0x3F875AFB] ++
  [0x3F88D44F, 0x3F8A51BD, 0x3F8BD354, 0x3F8D591D, 0x3F8EE324, 0x3F907177, 0x3F92041F, 0x3F939B2A] ++
  [0x3F9536A4, 0x3F96D698, 0x3F987B15, 0x3F9A2425, 0x3F9BD1D6, 0x3F9D8436, 0x3F9F3B50, 0x3FA0F732] ++
  [0x3FA2B7E9, 0x3FA47D84, 0x3FA6480F, 0x3FA81798, 0x3FA9EC2D, 0x3FABC5DD, 0x3FADA4B5, 0x3FAF88C4]

/-- R149: c2 of 2^u on [0, 1). -/
def exp2C2 : List Nat :=
  [0x3E75FDF0, 0x3E78ABAE, 0x3E7B60E3, 0x3E7E1DA5, 0x3E807104, 0x3E81D711, 0x3E834104, 0x3E84AEE8] ++
  [0x3E8620C8, 0x3E8796B0, 0x3E8910A9, 0x3E8A8EC0, 0x3E8C1101, 0x3E8D9776, 0x3E8F222B, 0x3E90B12D] ++
  [0x3E924487, 0x3E93DC45, 0x3E957875, 0x3E971921, 0x3E98BE57, 0x3E9A6822, 0x3E9C1691, 0x3E9DC9B0] ++
  [0x3E9F818C, 0x3EA13E32, 0x3EA2FFAF, 0x3EA4C612, 0x3EA69167, 0x3EA861BD, 0x3EAA3721, 0x3EAC11A1] ++
  [0x3EADF14C, 0x3EAFD631, 0x3EB1C05D, 0x3EB3AFDF, 0x3EB5A4C7, 0x3EB79F24, 0x3EB99F03, 0x3EBBA476] ++
  [0x3EBDAF8B, 0x3EBFC053, 0x3EC1D6DC, 0x3EC3F338, 0x3EC61575, 0x3EC83DA6, 0x3ECA6BDA, 0x3ECCA022] ++
  [0x3ECEDA8F, 0x3ED11B32, 0x3ED3621D, 0x3ED5AF60, 0x3ED8030F, 0x3EDA5D39, 0x3EDCBDF3, 0x3EDF254D] ++
  [0x3EE1935B, 0x3EE4082F, 0x3EE683DC, 0x3EE90674, 0x3EEB900D, 0x3EEE20B8, 0x3EF0B889, 0x3EF35795]

/-- R149: c0 of log2 u on [1, 2). -/
def log2C0 : List Nat :=
  [0x00000000, 0x3CB73CB4, 0x3D35D69C, 0x3D8759C5, 0x3DB31FB8, 0x3DDE4212, 0x3E0462C4, 0x3E19574F] ++
  [0x3E2E00D2, 0x3E42615F, 0x3E567AF1, 0x3E6A4F72, 0x3E7DE0B6, 0x3E88983F, 0x3E92203D, 0x3E9B8926] ++
  [0x3EA4D3C2, 0x3EAE00D2, 0x3EB7110E, 0x3EC0052B, 0x3EC8DDD4, 0x3ED19BB0, 0x3EDA3F60, 0x3EE2C97D] ++
  [0x3EEB3A9F, 0x3EF39355, 0x3EFBD42B, 0x3F01FED4, 0x3F060828, 0x3F0A0650, 0x3F0DF989, 0x3F11E20F] ++
  [0x3F15C01A, 0x3F1993E3, 0x3F1D5DA0, 0x3F211D84, 0x3F24D3C2, 0x3F28808C, 0x3F2C2411, 0x3F2FBE80] ++
  [0x3F335004, 0x3F36D8CB, 0x3F3A58FF, 0x3F3DD0C8, 0x3F41404F, 0x3F44A7BA, 0x3F480731, 0x3F4B5ED7] ++
  [0x3F4EAED0, 0x3F51F740, 0x3F553848, 0x3F587209, 0x3F5BA4A4, 0x3F5ED039, 0x3F61F4E5, 0x3F6512C7] ++
  [0x3F6829FB, 0x3F6B3A9F, 0x3F6E44CD, 0x3F7148A1, 0x3F744636, 0x3F773DA4, 0x3F7A2F04, 0x3F7D1A71]

/-- R149: c1 of log2 u on [1, 2). -/
def log2C1 : List Nat :=
  [0x3FB8AA3B, 0x3FB5D2EF, 0x3FB311AE, 0x3FB06579, 0x3FADCD65, 0x3FAB4890, 0x3FA8D627, 0x3FA67564] ++
  [0x3FA4258A, 0x3FA1E5E7, 0x3F9FB5D2, 0x3F9D94AD, 0x3F9B81E1, 0x3F997CDE, 0x3F97851D, 0x3F959A1C] ++
  [0x3F93BB63, 0x3F91E87B, 0x3F9020F6, 0x3F8E646B, 0x3F8CB276, 0x3F8B0AB7, 0x3F896CD3, 0x3F87D872] ++
  [0x3F864D42, 0x3F84CAF4, 0x3F83513B, 0x3F81DFD0, 0x3F80766C, 0x3F7E299C, 0x3F7B756C, 0x3F78CFCE] ++
  [0x3F76384F, 0x3F73AE7E, 0x3F7131EF, 0x3F6EC23D, 0x3F6C5F04, 0x3F6A07E6, 0x3F67BC86, 0x3F657C8F] ++
  [0x3F6347AB, 0x3F611D8A, 0x3F5EFDDD, 0x3F5CE85A, 0x3F5ADCB8, 0x3F58DAB2, 0x3F56E204, 0x3F54F26E] ++
  [0x3F530BB1, 0x3F512D92, 0x3F4F57D7, 0x3F4D8A46, 0x3F4BC4AB, 0x3F4A06D1, 0x3F485086, 0x3F46A198] ++
  [0x3F44F9D9, 0x3F43591B, 0x3F41BF31, 0x3F402BF3, 0x3F3E9F35, 0x3F3D18D0, 0x3F3B989E, 0x3F3A1E78]

/-- R149: c2 of log2 u on [1, 2). -/
def log2C2 : List Nat :=
  [0xBF38AA3B, 0xBF3306D4, 0xBF2DA489, 0xBF287F7F, 0xBF239423, 0xBF1EDF21, 0xBF1A5D66, 0xBF160C12] ++
  [0xBF11E87B, 0xBF0DF022, 0xBF0A20B6, 0xBF06780B, 0xBF02F41C, 0xBEFF2603, 0xBEF8A5EE, 0xBEF264A3] ++
  [0xBEEC5F04, 0xBEE69224, 0xBEE0FB42, 0xBEDB97C7, 0xBED66546, 0xBED16174, 0xBECC8A28, 0xBEC7DD58] ++
  [0xBEC3591B, 0xBEBEFB9E, 0xBEBAC32C, 0xBEB6AE27, 0xBEB2BB05, 0xBEAEE855, 0xBEAB34B6, 0xBEA79EDC] ++
  [0xBEA4258A, 0xBEA0C795, 0xBE9D83E0, 0xBE9A595E, 0xBE97470D, 0xBE944BF9, 0xBE91673B, 0xBE8E97F6] ++
  [0xBE8BDD56, 0xBE893693, 0xBE86A2F0, 0xBE8421B5, 0xBE81B234, 0xBE7EA791, 0xBE7A0BA7, 0xBE758F7C] ++
  [0xBE7131EF, 0xBE6CF1EC, 0xBE68CE6A, 0xBE64C66D, 0xBE60D904, 0xBE5D0545, 0xBE594A54, 0xBE55A75C] ++
  [0xBE521B92, 0xBE4EA631, 0xBE4B467F, 0xBE47FBC8, 0xBE44C560, 0xBE41A2A0, 0xBE3E92E9, 0xBE3B95A3]

/-- R149: c0 of sin 2πu on [0, 1). -/
def sinC0 : List Nat :=
  [0x00000000, 0x3DC8BD36, 0x3E47C5C2, 0x3E94A031, 0x3EC3EF15, 0x3EF15AEA, 0x3F0E39DA, 0x3F226799] ++
  [0x3F3504F3, 0x3F45E403, 0x3F54DB31, 0x3F61C598, 0x3F6C835E, 0x3F74FA0B, 0x3F7B14BE, 0x3F7EC46D] ++
  [0x3F800000, 0x3F7EC46D, 0x3F7B14BE, 0x3F74FA0B, 0x3F6C835E, 0x3F61C598, 0x3F54DB31, 0x3F45E403] ++
  [0x3F3504F3, 0x3F226799, 0x3F0E39DA, 0x3EF15AEA, 0x3EC3EF15, 0x3E94A031, 0x3E47C5C2, 0x3DC8BD36] ++
  [0x00000000, 0xBDC8BD36, 0xBE47C5C2, 0xBE94A031, 0xBEC3EF15, 0xBEF15AEA, 0xBF0E39DA, 0xBF226799] ++
  [0xBF3504F3, 0xBF45E403, 0xBF54DB31, 0xBF61C598, 0xBF6C835E, 0xBF74FA0B, 0xBF7B14BE, 0xBF7EC46D] ++
  [0xBF800000, 0xBF7EC46D, 0xBF7B14BE, 0xBF74FA0B, 0xBF6C835E, 0xBF61C598, 0xBF54DB31, 0xBF45E403] ++
  [0xBF3504F3, 0xBF226799, 0xBF0E39DA, 0xBEF15AEA, 0xBEC3EF15, 0xBE94A031, 0xBE47C5C2, 0xBDC8BD36]

/-- R149: c1 of sin 2πu on [0, 1). -/
def sinC1 : List Nat :=
  [0x40C90FDB, 0x40C81801, 0x40C532D6, 0x40C0677E, 0x40B9C1CB, 0x40B1521F, 0x40A72D48, 0x409B6C48] ++
  [0x408E2C19, 0x407F1ACC, 0x405F6876, 0x403D8F54, 0x4019E2DA, 0x3FE975F6, 0x3F9CE6A4, 0x3F1DA8FE] ++
  [0x00000000, 0xBF1DA8FE, 0xBF9CE6A4, 0xBFE975F6, 0xC019E2DA, 0xC03D8F54, 0xC05F6876, 0xC07F1ACC] ++
  [0xC08E2C19, 0xC09B6C48, 0xC0A72D48, 0xC0B1521F, 0xC0B9C1CB, 0xC0C0677E, 0xC0C532D6, 0xC0C81801] ++
  [0xC0C90FDB, 0xC0C81801, 0xC0C532D6, 0xC0C0677E, 0xC0B9C1CB, 0xC0B1521F, 0xC0A72D48, 0xC09B6C48] ++
  [0xC08E2C19, 0xC07F1ACC, 0xC05F6876, 0xC03D8F54, 0xC019E2DA, 0xBFE975F6, 0xBF9CE6A4, 0xBF1DA8FE] ++
  [0x00000000, 0x3F1DA8FE, 0x3F9CE6A4, 0x3FE975F6, 0x4019E2DA, 0x403D8F54, 0x405F6876, 0x407F1ACC] ++
  [0x408E2C19, 0x409B6C48, 0x40A72D48, 0x40B1521F, 0x40B9C1CB, 0x40C0677E, 0x40C532D6, 0x40C81801]

/-- R149: c2 of sin 2πu on [0, 1). -/
def sinC2 : List Nat :=
  [0x00000000, 0xBFF7A6E6, 0xC076759D, 0xC0B75C14, 0xC0F1B94A, 0xC114E146, 0xC12F76DA, 0xC1485BD7] ++
  [0xC15F52DB, 0xC1742349, 0xC1834CE8, 0xC18B4476, 0xC191E4A9, 0xC1971D2D, 0xC19AE121, 0xC19D273D] ++
  [0xC19DE9E6, 0xC19D273D, 0xC19AE121, 0xC1971D2D, 0xC191E4A9, 0xC18B4476, 0xC1834CE8, 0xC1742349] ++
  [0xC15F52DB, 0xC1485BD7, 0xC12F76DA, 0xC114E146, 0xC0F1B94A, 0xC0B75C14, 0xC076759D, 0xBFF7A6E6] ++
  [0x00000000, 0x3FF7A6E6, 0x4076759D, 0x40B75C14, 0x40F1B94A, 0x4114E146, 0x412F76DA, 0x41485BD7] ++
  [0x415F52DB, 0x41742349, 0x41834CE8, 0x418B4476, 0x4191E4A9, 0x41971D2D, 0x419AE121, 0x419D273D] ++
  [0x419DE9E6, 0x419D273D, 0x419AE121, 0x41971D2D, 0x4191E4A9, 0x418B4476, 0x41834CE8, 0x41742349] ++
  [0x415F52DB, 0x41485BD7, 0x412F76DA, 0x4114E146, 0x40F1B94A, 0x40B75C14, 0x4076759D, 0x3FF7A6E6]

end Sys2Proof.Machine
end

