-- ==== Sys2Proof/Machine/Vector.lean ====
section
/-!
DEFINITION. Vector.lean: the vector instructions that complete in their turn (R136 to R144), and vector memory
(R145 to R147).
-/
namespace Sys2Proof.Machine
open Sys2Proof

/-! ## Elements (R136) -/

/-- R136: element e of width w. -/
def elem (w : Nat) (v : VWord) (e : Nat) : Nat := bitsOf v.toNat (w * e) w

/-- R136: a register of elements of width w, from element 0 up; what lies above is zero. -/
def ofElems (w : Nat) (l : List Nat) : VWord :=
  BitVec.ofNat 512 (l.foldr (fun x acc => x % 2 ^ w + 2 ^ w * acc) 0)

/-- R136: results with flags: the register, and the flags of all elements together. -/
def flagged (w : Nat) (l : List (Nat × BitVec 5)) : VWord × BitVec 5 :=
  (ofElems w (l.map (·.1)), l.foldl (fun fl x => fl ||| x.2) 0#5)

/-- R39, R136: a vector result and its flags. -/
def vresult (s : State) (c slot d : Nat) (r : VWord × BitVec 5) : State :=
  (raise s c slot r.2).modThread c slot (fun t => t.setV d r.1)

/-! ## Integer lanes (R138, R139) -/

/-- vd[l] := f (va[l], vb[l]). -/
def opV2 (i : Instr) (g : BitVec 3) (d a b : BitVec 6) (f : BitVec 32 → BitVec 32 → BitVec 32) :
    State → Host.Outcome State Fault Refusal :=
  issue i { guard := g, v := [d.toNat, a.toNat, b.toNat], vreads := [a.toNat, b.toNat], vwrites := [d.toNat] }
    (fun c slot t s => s.modThread c slot (fun u => u.setV d.toNat
      (ofLanes ((List.range 16).map (fun l => f (lane (t.vv a.toNat) l) (lane (t.vv b.toNat) l))))))

/-- vd[l] := f (va[l]). -/
def opV1 (i : Instr) (g : BitVec 3) (d a : BitVec 6) (f : BitVec 32 → BitVec 32) :
    State → Host.Outcome State Fault Refusal :=
  issue i { guard := g, v := [d.toNat, a.toNat], vreads := [a.toNat], vwrites := [d.toNat] }
    (fun c slot t s => s.modThread c slot (fun u => u.setV d.toNat
      (ofLanes ((List.range 16).map (fun l => f (lane (t.vv a.toNat) l))))))

/-- R138: all ones or all zeros. -/
def maskLane (b : Bool) : BitVec 32 := if b then BitVec.allOnes 32 else 0#32

/-- VADD (R138). -/
def execVadd (g : BitVec 3) (d a b : BitVec 6) : State → Host.Outcome State Fault Refusal :=
  opV2 (.vadd g d a b) g d a b (fun x y => x + y)

/-- VSUB (R138). -/
def execVsub (g : BitVec 3) (d a b : BitVec 6) : State → Host.Outcome State Fault Refusal :=
  opV2 (.vsub g d a b) g d a b (fun x y => x - y)

/-- VMUL (R138). -/
def execVmul (g : BitVec 3) (d a b : BitVec 6) : State → Host.Outcome State Fault Refusal :=
  opV2 (.vmul g d a b) g d a b (fun x y => x * y)

/-- VMULHS (R138). -/
def execVmulhs (g : BitVec 3) (d a b : BitVec 6) : State → Host.Outcome State Fault Refusal :=
  opV2 (.vmulhs g d a b) g d a b (fun x y => BitVec.ofInt 32 (x.toInt * y.toInt / 2 ^ 32))

/-- VMULHU (R138). -/
def execVmulhu (g : BitVec 3) (d a b : BitVec 6) : State → Host.Outcome State Fault Refusal :=
  opV2 (.vmulhu g d a b) g d a b (fun x y => BitVec.ofNat 32 (x.toNat * y.toNat / 2 ^ 32))

/-- VAND (R138). -/
def execVand (g : BitVec 3) (d a b : BitVec 6) : State → Host.Outcome State Fault Refusal :=
  opV2 (.vand g d a b) g d a b (fun x y => x &&& y)

/-- VOR (R138). -/
def execVor (g : BitVec 3) (d a b : BitVec 6) : State → Host.Outcome State Fault Refusal :=
  opV2 (.vor g d a b) g d a b (fun x y => x ||| y)

/-- VXOR (R138). -/
def execVxor (g : BitVec 3) (d a b : BitVec 6) : State → Host.Outcome State Fault Refusal :=
  opV2 (.vxor g d a b) g d a b (fun x y => x ^^^ y)

/-- VANDN (R138). -/
def execVandn (g : BitVec 3) (d a b : BitVec 6) : State → Host.Outcome State Fault Refusal :=
  opV2 (.vandn g d a b) g d a b (fun x y => x &&& ~~~y)

/-- VSHL (R138). -/
def execVshl (g : BitVec 3) (d a b : BitVec 6) : State → Host.Outcome State Fault Refusal :=
  opV2 (.vshl g d a b) g d a b (fun x y => x <<< (y.toNat % 32))

/-- VSHR (R138). -/
def execVshr (g : BitVec 3) (d a b : BitVec 6) : State → Host.Outcome State Fault Refusal :=
  opV2 (.vshr g d a b) g d a b (fun x y => x >>> (y.toNat % 32))

/-- VSRA (R138). -/
def execVsra (g : BitVec 3) (d a b : BitVec 6) : State → Host.Outcome State Fault Refusal :=
  opV2 (.vsra g d a b) g d a b (fun x y => x.sshiftRight (y.toNat % 32))

/-- VMINS (R138). -/
def execVmins (g : BitVec 3) (d a b : BitVec 6) : State → Host.Outcome State Fault Refusal :=
  opV2 (.vmins g d a b) g d a b (fun x y => if x.toInt ≤ y.toInt then x else y)

/-- VMAXS (R138). -/
def execVmaxs (g : BitVec 3) (d a b : BitVec 6) : State → Host.Outcome State Fault Refusal :=
  opV2 (.vmaxs g d a b) g d a b (fun x y => if x.toInt ≤ y.toInt then y else x)

/-- VMINU (R138). -/
def execVminu (g : BitVec 3) (d a b : BitVec 6) : State → Host.Outcome State Fault Refusal :=
  opV2 (.vminu g d a b) g d a b (fun x y => if x.toNat ≤ y.toNat then x else y)

/-- VMAXU (R138). -/
def execVmaxu (g : BitVec 3) (d a b : BitVec 6) : State → Host.Outcome State Fault Refusal :=
  opV2 (.vmaxu g d a b) g d a b (fun x y => if x.toNat ≤ y.toNat then y else x)

/-- VABS (R138). -/
def execVabs (g : BitVec 3) (d a : BitVec 6) : State → Host.Outcome State Fault Refusal :=
  opV1 (.vabs g d a) g d a (fun x => if x.getLsbD 31 then -x else x)

/-- VPOPC (R138). -/
def execVpopc (g : BitVec 3) (d a : BitVec 6) : State → Host.Outcome State Fault Refusal :=
  opV1 (.vpopc g d a) g d a (fun x => BitVec.ofNat 32 (popcN 32 x.toNat))

/-- VCLZ (R138). -/
def execVclz (g : BitVec 3) (d a : BitVec 6) : State → Host.Outcome State Fault Refusal :=
  opV1 (.vclz g d a) g d a (fun x => BitVec.ofNat 32 (clzN 32 x.toNat))

/-- VCMPEQ (R138). -/
def execVcmpeq (g : BitVec 3) (d a b : BitVec 6) : State → Host.Outcome State Fault Refusal :=
  opV2 (.vcmpeq g d a b) g d a b (fun x y => maskLane (x == y))

/-- VCMPLTS (R138). -/
def execVcmplts (g : BitVec 3) (d a b : BitVec 6) : State → Host.Outcome State Fault Refusal :=
  opV2 (.vcmplts g d a b) g d a b (fun x y => maskLane (decide (x.toInt < y.toInt)))

/-- VCMPLTU (R138). -/
def execVcmpltu (g : BitVec 3) (d a b : BitVec 6) : State → Host.Outcome State Fault Refusal :=
  opV2 (.vcmpltu g d a b) g d a b (fun x y => maskLane (decide (x.toNat < y.toNat)))

/-- VSEL (R139): vd is the mask, then the result. -/
def execVsel (g : BitVec 3) (d a b : BitVec 6) : State → Host.Outcome State Fault Refusal :=
  issue (.vsel g d a b) { guard := g, v := [d.toNat, a.toNat, b.toNat],
                          vreads := [d.toNat, a.toNat, b.toNat], vwrites := [d.toNat] }
    (fun c slot t s => s.modThread c slot (fun u => u.setV d.toNat
      (ofLanes ((List.range 16).map (fun l =>
        if (lane (t.vv d.toNat) l).getLsbD 31 then lane (t.vv a.toNat) l else lane (t.vv b.toNat) l)))))

/-- VSHUF (R139). -/
def execVshuf (g : BitVec 3) (d a b : BitVec 6) : State → Host.Outcome State Fault Refusal :=
  issue (.vshuf g d a b) { guard := g, v := [d.toNat, a.toNat, b.toNat], vreads := [a.toNat, b.toNat],
                           vwrites := [d.toNat] }
    (fun c slot t s => s.modThread c slot (fun u => u.setV d.toNat
      (ofLanes ((List.range 16).map (fun l =>
        lane (t.vv a.toNat) ((lane (t.vv b.toNat) l).toNat % 16))))))

/-! ## Floating-point lanes (R140) -/

/-- R140: the format that the precision bit selects, and the number of elements. -/
def vfmt (p : BitVec 1) : FFmt := if p = 1#1 then fp64 else fp32
def vcount (f : FFmt) : Nat := 512 / f.width

/-- vd[e] := f (va[e], vb[e]) with flags. -/
def vf2 (f : FFmt) (op : Nat → Nat → Nat × BitVec 5) (a b : VWord) : VWord × BitVec 5 :=
  flagged f.width ((List.range (vcount f)).map (fun e => op (elem f.width a e) (elem f.width b e)))

/-- vd[e] := f (vd[e], va[e], vb[e]) with flags. -/
def vf3 (f : FFmt) (op : Nat → Nat → Nat → Nat × BitVec 5) (d a b : VWord) : VWord × BitVec 5 :=
  flagged f.width ((List.range (vcount f)).map (fun e =>
    op (elem f.width d e) (elem f.width a e) (elem f.width b e)))

/-- A floating-point operation of two sources. -/
def opVf2 (i : Instr) (g : BitVec 3) (d a b : BitVec 6) (f : FFmt) (op : Word → Nat → Nat → Nat × BitVec 5) :
    State → Host.Outcome State Fault Refusal :=
  issue i { guard := g, v := [d.toNat, a.toNat, b.toNat], vreads := [a.toNat, b.toNat], vwrites := [d.toNat] }
    (fun c slot t s => vresult s c slot d.toNat (vf2 f (op t.fpctl) (t.vv a.toNat) (t.vv b.toNat)))

/-- A floating-point operation in which vd is a source too. -/
def opVf3 (i : Instr) (g : BitVec 3) (d a b : BitVec 6) (f : FFmt)
    (op : Word → Nat → Nat → Nat → Nat × BitVec 5) : State → Host.Outcome State Fault Refusal :=
  issue i { guard := g, v := [d.toNat, a.toNat, b.toNat], vreads := [d.toNat, a.toNat, b.toNat],
            vwrites := [d.toNat] }
    (fun c slot t s => vresult s c slot d.toNat
      (vf3 f (op t.fpctl) (t.vv d.toNat) (t.vv a.toNat) (t.vv b.toNat)))

/-- R140: a sign operation, without flags. -/
def opVsign (i : Instr) (g : BitVec 3) (d a : BitVec 6) (f : FFmt) (op : Nat → Nat) :
    State → Host.Outcome State Fault Refusal :=
  issue i { guard := g, v := [d.toNat, a.toNat], vreads := [a.toNat], vwrites := [d.toNat] }
    (fun c slot t s => vresult s c slot d.toNat (vf2 f (fun x _ => (op x, 0#5)) (t.vv a.toNat) 0#512))

/-- R140: a comparison over a whole element. -/
def vcmp (f : FFmt) (cond : Nat) (_ : Word) (x y : Nat) : Nat × BitVec 5 :=
  let r := fcmp f cond x y
  (if r.1 then 2 ^ f.width - 1 else 0, r.2)

/-- VFADD (R140). -/
def execVfadd (g : BitVec 3) (d a b : BitVec 6) (p : BitVec 1) :
    State → Host.Outcome State Fault Refusal := opVf2 (.vfadd g d a b p) g d a b (vfmt p) (fadd (vfmt p))

/-- VFSUB (R140). -/
def execVfsub (g : BitVec 3) (d a b : BitVec 6) (p : BitVec 1) :
    State → Host.Outcome State Fault Refusal := opVf2 (.vfsub g d a b p) g d a b (vfmt p) (fsub (vfmt p))

/-- VFMUL (R140). -/
def execVfmul (g : BitVec 3) (d a b : BitVec 6) (p : BitVec 1) :
    State → Host.Outcome State Fault Refusal := opVf2 (.vfmul g d a b p) g d a b (vfmt p) (fmul (vfmt p))

/-- VFMA (R140). -/
def execVfma (g : BitVec 3) (d a b : BitVec 6) (p : BitVec 1) :
    State → Host.Outcome State Fault Refusal := opVf3 (.vfma g d a b p) g d a b (vfmt p) (fun ctl => ffma (vfmt p) ctl false)

/-- VFMS (R140). -/
def execVfms (g : BitVec 3) (d a b : BitVec 6) (p : BitVec 1) :
    State → Host.Outcome State Fault Refusal := opVf3 (.vfms g d a b p) g d a b (vfmt p) (fun ctl => ffma (vfmt p) ctl true)

/-- VFMIN (R140). -/
def execVfmin (g : BitVec 3) (d a b : BitVec 6) (p : BitVec 1) :
    State → Host.Outcome State Fault Refusal := opVf2 (.vfmin g d a b p) g d a b (vfmt p) (fun _ => fminmax (vfmt p) false)

/-- VFMAX (R140). -/
def execVfmax (g : BitVec 3) (d a b : BitVec 6) (p : BitVec 1) :
    State → Host.Outcome State Fault Refusal := opVf2 (.vfmax g d a b p) g d a b (vfmt p) (fun _ => fminmax (vfmt p) true)

/-- VFABS (R140). -/
def execVfabs (g : BitVec 3) (d a : BitVec 6) (p : BitVec 1) :
    State → Host.Outcome State Fault Refusal := opVsign (.vfabs g d a p) g d a (vfmt p) (fun x => x % 2 ^ ((vfmt p).width - 1))

/-- VFNEG (R140). -/
def execVfneg (g : BitVec 3) (d a : BitVec 6) (p : BitVec 1) :
    State → Host.Outcome State Fault Refusal := opVsign (.vfneg g d a p) g d a (vfmt p) ((vfmt p).flip)

/-- VFCMPEQ (R140). -/
def execVfcmpeq (g : BitVec 3) (d a b : BitVec 6) (p : BitVec 1) :
    State → Host.Outcome State Fault Refusal := opVf2 (.vfcmpeq g d a b p) g d a b (vfmt p) (vcmp (vfmt p) 0)

/-- VFCMPLT (R140). -/
def execVfcmplt (g : BitVec 3) (d a b : BitVec 6) (p : BitVec 1) :
    State → Host.Outcome State Fault Refusal := opVf2 (.vfcmplt g d a b p) g d a b (vfmt p) (vcmp (vfmt p) 1)

/-- VFCMPLE (R140). -/
def execVfcmple (g : BitVec 3) (d a b : BitVec 6) (p : BitVec 1) :
    State → Host.Outcome State Fault Refusal := opVf2 (.vfcmple g d a b p) g d a b (vfmt p) (vcmp (vfmt p) 2)

/-- VFCMPUN (R140). -/
def execVfcmpun (g : BitVec 3) (d a b : BitVec 6) (p : BitVec 1) :
    State → Host.Outcome State Fault Refusal := opVf2 (.vfcmpun g d a b p) g d a b (vfmt p) (vcmp (vfmt p) 3)

/-! ## Narrow elements (R142, R143) -/

/-- VHADD.H (R142). -/
def execVhaddH (g : BitVec 3) (d a b : BitVec 6) : State → Host.Outcome State Fault Refusal :=
  opVf2 (.vhaddH g d a b) g d a b fp16 (fadd fp16)

/-- VHMUL.H (R142). -/
def execVhmulH (g : BitVec 3) (d a b : BitVec 6) : State → Host.Outcome State Fault Refusal :=
  opVf2 (.vhmulH g d a b) g d a b fp16 (fmul fp16)

/-- VHFMA.H (R142). -/
def execVhfmaH (g : BitVec 3) (d a b : BitVec 6) : State → Host.Outcome State Fault Refusal :=
  opVf3 (.vhfmaH g d a b) g d a b fp16 (fun ctl => ffma fp16 ctl false)

/-- VHADD.B (R142). -/
def execVhaddB (g : BitVec 3) (d a b : BitVec 6) : State → Host.Outcome State Fault Refusal :=
  opVf2 (.vhaddB g d a b) g d a b bf16 (fadd bf16)

/-- VHMUL.B (R142). -/
def execVhmulB (g : BitVec 3) (d a b : BitVec 6) : State → Host.Outcome State Fault Refusal :=
  opVf2 (.vhmulB g d a b) g d a b bf16 (fmul bf16)

/-- VHFMA.B (R142). -/
def execVhfmaB (g : BitVec 3) (d a b : BitVec 6) : State → Host.Outcome State Fault Refusal :=
  opVf3 (.vhfmaB g d a b) g d a b bf16 (fun ctl => ffma bf16 ctl false)

/-- R44: round (d + p0 + p1 + p2 + p3), the products of F8e4 bytes. -/
def dot8 (ctl : Word) (d x y : Nat) : Nat × BitVec 5 :=
  let bytes := (List.range 4).map (fun k => (f8e4.unpack (bitsOf x (8 * k) 8), f8e4.unpack (bitsOf y (8 * k) 8)))
  let D := fp32.unpack d
  if D.isNan || bytes.any (fun p => p.1.isNan || p.2.isNan) then
    (fp32.canon, if D.isSnan then flInvalid else 0#5)
  else match D with
    | .inf neg => (fp32.infinity neg, 0#5)
    | .fin neg m e =>
      let ps := bytes.map (fun p => match p.1, p.2 with
        | .fin a m e, .fin b n k => (a != b, Dy.of (a != b) (m * n) (e + k))
        | _, _ => (false, ({ n := 0, e := 0 } : Dy)))
      let sum := ps.foldl (fun acc p => acc.add p.2) (Dy.of neg m e)
      let zneg := if ps.all (fun p => p.1 == neg) then neg else fpMode ctl = 3
      fp32.roundDy (fpMode ctl) (fpNanOv ctl) zneg sum
    | .nan _ _ => (fp32.canon, 0#5)

/-- VDOT8 (R142, R44). -/
def execVdot8 (g : BitVec 3) (d a b : BitVec 6) : State → Host.Outcome State Fault Refusal :=
  opVf3 (.vdot8 g d a b) g d a b fp32 dot8

/-- R44: d plus the four products of S8 bytes, modulo 2^32. -/
def dots8 (d x y : Nat) : Nat :=
  intBits 32 ((List.range 4).foldl (fun (acc : Int) k =>
    acc + bitsInt true 8 (bitsOf x (8 * k) 8) * bitsInt true 8 (bitsOf y (8 * k) 8)) (d : Int))

/-- VDOTS8 (R142, R44). -/
def execVdots8 (g : BitVec 3) (d a b : BitVec 6) : State → Host.Outcome State Fault Refusal :=
  opVf3 (.vdots8 g d a b) g d a b fp32 (fun _ x y z => (dots8 x y z, 0#5))

/-- R143: the width of a numbered format; the integer formats have 32 bits. -/
def vcvtWidth (n : Nat) : Nat := match fmtNo n with | some f => f.width | none => 32

/-- R143: the source and the target of the eight stochastic codes. -/
def srPair (k : Nat) : Nat × Nat := (if k < 4 then 0 else 1, k % 4 + 2)

/-- R143: the result of a conversion, its flags, and by how much SRSEED advances. -/
def vcvt (code : BitVec 6) (ctl seed : Word) (v : VWord) : (VWord × BitVec 5) × Nat :=
  let S := bitsOf code.toNat 3 3
  let D := bitsOf code.toNat 0 3
  let sr := S = D
  let S' := if sr then (srPair S).1 else S
  let D' := if sr then (srPair S).2 else D
  let n := if S' = 0 || D' = 0 then 8 else 16
  let one := fun e =>
    let x := elem (vcvtWidth S') v e
    if sr then match fmtNo S', fmtNo D' with
      | some a, some b => fsr a b ctl (seed + BitVec.ofNat 64 e) x
      | _, _ => (0, 0#5)
    else fcvtCode 32 false S' D' ctl x
  (flagged (vcvtWidth D') ((List.range n).map one), if sr then n else 0)

/-- VCVT (R143). The code is not checked against the claim (R66). -/
def execVcvt (g : BitVec 3) (d a c : BitVec 6) : State → Host.Outcome State Fault Refusal :=
  issue (.vcvt g d a c) { guard := g, v := [d.toNat, a.toNat], vreads := [a.toNat], vwrites := [d.toNat] }
    (fun k slot t s =>
      let r := vcvt c t.fpctl t.srseed (t.vv a.toNat)
      (vresult s k slot d.toNat r.1).modThread k slot
        (fun u => { u with srseed := u.srseed + BitVec.ofNat 64 r.2 }))

/-! ## Lane transfer and reductions (R144, R45) -/

/-- VBCAST (R144). -/
def execVbcast (g : BitVec 3) (x : BitVec 7) (v : BitVec 6) : State → Host.Outcome State Fault Refusal :=
  issue (.vbcast g x v) { guard := g, g := [x.toNat], v := [v.toNat], reads := [x.toNat], vwrites := [v.toNat] }
    (fun c slot t s => s.modThread c slot (fun u => u.setV v.toNat
      (ofElems 64 (List.replicate 8 (t.gv x.toNat).toNat))))

/-- VEXT (R144). -/
def execVext (g : BitVec 3) (x : BitVec 7) (v w : BitVec 6) : State → Host.Outcome State Fault Refusal :=
  issue (.vext g x v w) { guard := g, g := [x.toNat], v := [v.toNat, w.toNat], reads := [x.toNat],
                          writes := [x.toNat], vreads := [v.toNat, w.toNat] }
    (fun c slot t s =>
      let k := (t.gv x.toNat).toNat % 16
      writeG s c slot x.toNat ((lane (t.vv w.toNat) (k ^^^ 1)) ++ (lane (t.vv v.toNat) k)))

/-- VINS (R144). -/
def execVins (g : BitVec 3) (x : BitVec 7) (v w : BitVec 6) : State → Host.Outcome State Fault Refusal :=
  issue (.vins g x v w) { guard := g, g := [x.toNat], v := [v.toNat, w.toNat], reads := [x.toNat],
                          vreads := [w.toNat], vwrites := [v.toNat] }
    (fun c slot t s => s.modThread c slot (fun u => u.setV v.toNat
      (setLane (t.vv w.toNat) (bitsOf (t.gv x.toNat).toNat 32 4) ((t.gv x.toNat).truncate 32))))

/-- R45: neighbours combined, the left one first. -/
def pairUp (op : Nat → Nat → Nat × BitVec 5) : List Nat → List Nat × BitVec 5
  | x :: y :: l =>
    let r := op x y
    let q := pairUp op l
    (r.1 :: q.1, r.2 ||| q.2)
  | l => (l, 0#5)

/-- R45: the tree over 16 lanes. -/
def tree16 (op : Nat → Nat → Nat × BitVec 5) (l : List Nat) : Nat × BitVec 5 :=
  let a := pairUp op l
  let b := pairUp op a.1
  let c := pairUp op b.1
  let r := pairUp op c.1
  (r.1.headD 0, a.2 ||| b.2 ||| c.2 ||| r.2)

/-- The 16 lanes as numbers. -/
def laneList (v : VWord) : List Nat := (List.range 16).map (elem 32 v)

/-- A reduction of v1's lanes into a g register. -/
def opRed (i : Instr) (g : BitVec 3) (x : BitVec 7) (v : BitVec 6) (op : Word → Nat → Nat → Nat × BitVec 5)
    (wide : Nat → Word) : State → Host.Outcome State Fault Refusal :=
  issue i { guard := g, g := [x.toNat], v := [v.toNat], writes := [x.toNat], vreads := [v.toNat] }
    (fun c slot t s =>
      let r := tree16 (op t.fpctl) (laneList (t.vv v.toNat))
      writeG (raise s c slot r.2) c slot x.toNat (wide r.1))

/-- VREDADD.S (R144, R45). -/
def execVredaddS (g : BitVec 3) (x : BitVec 7) (v : BitVec 6) : State → Host.Outcome State Fault Refusal :=
  opRed (.vredaddS g x v) g x v (fadd fp32) (BitVec.ofNat 64)

/-- VREDADD.I (R144, R45). -/
def execVredaddI (g : BitVec 3) (x : BitVec 7) (v : BitVec 6) : State → Host.Outcome State Fault Refusal :=
  opRed (.vredaddI g x v) g x v (fun _ a b => ((a + b) % 2 ^ 32, 0#5))
    (fun r => (BitVec.ofNat 32 r).signExtend 64)

/-- VREDMAX.S (R144, R45). -/
def execVredmaxS (g : BitVec 3) (x : BitVec 7) (v : BitVec 6) : State → Host.Outcome State Fault Refusal :=
  opRed (.vredmaxS g x v) g x v (fun _ => fminmax fp32 true) (BitVec.ofNat 64)

/-- VREDMIN.S (R144, R45). -/
def execVredminS (g : BitVec 3) (x : BitVec 7) (v : BitVec 6) : State → Host.Outcome State Fault Refusal :=
  opRed (.vredminS g x v) g x v (fun _ => fminmax fp32 false) (BitVec.ofNat 64)

/-- VMASK (R144). -/
def execVmask (g : BitVec 3) (x : BitVec 7) (v : BitVec 6) : State → Host.Outcome State Fault Refusal :=
  issue (.vmask g x v) { guard := g, g := [x.toNat], v := [v.toNat], writes := [x.toNat], vreads := [v.toNat] }
    (fun c slot t s => writeG s c slot x.toNat (BitVec.ofNat 64
      ((List.range 16).foldl (fun acc l =>
        if (lane (t.vv v.toNat) l).getLsbD 31 then acc + 2 ^ l else acc) 0)))

/-! ## Vector memory (R145 to R147) -/

/-- R145: ea_l of the strided forms. -/
def eaStride (t : Thread) (a b : BitVec 7) (l : Nat) : Word :=
  t.gv a.toNat + BitVec.ofNat 64 l * t.gv b.toNat

/-- R145: ea_l of the gather forms. -/
def eaIndex (t : Thread) (a : BitVec 7) (vx l : Nat) : Word :=
  t.gv a.toNat + sx (lane (t.vv vx) l) * 4#64

/-- R145: the lanes that the lane-off mask leaves active. -/
def activeLanes (off : Word) : List Nat := (List.range 16).filter (fun l => !off.getLsbD l)

/-- The four bytes of a lane. -/
def laneBytes (v : VWord) (l : Nat) : List Byte := leBytes (lane v l).toNat 4

/-- VLD (R145). -/
def execVld (g : BitVec 3) (d : BitVec 6) (a b : BitVec 7) : State → Host.Outcome State Fault Refusal :=
  issue (.vld g d a b) { guard := g, g := [a.toNat, b.toNat], v := [d.toNat], reads := [a.toNat, b.toNat],
                         vwrites := [d.toNat] }
    (fun c slot t s => startAccess s c slot t [piece (t.gv a.toNat + t.gv b.toNat) 64 .load] 64 .ld
      (.whole d.toNat) false false)

/-- VST (R145). -/
def execVst (g : BitVec 3) (d : BitVec 6) (a b : BitVec 7) : State → Host.Outcome State Fault Refusal :=
  issue (.vst g d a b) { guard := g, g := [a.toNat, b.toNat], v := [d.toNat], reads := [a.toNat, b.toNat],
                         vreads := [d.toNat] }
    (fun c slot t s => startAccess s c slot t
      [piece (t.gv a.toNat + t.gv b.toNat) 64 (.store (leBytes (t.vv d.toNat).toNat 64))] 64 .st .none false
      false)

/-- VLDS (R145). -/
def execVlds (g : BitVec 3) (d : BitVec 6) (a b : BitVec 7) : State → Host.Outcome State Fault Refusal :=
  issue (.vlds g d a b) { guard := g, g := [a.toNat, b.toNat], v := [d.toNat], reads := [a.toNat, b.toNat],
                          vwrites := [d.toNat] }
    (fun c slot t s => startAccess s c slot t
      ((List.range 16).map (fun l => piece (eaStride t a b l) 4 .load)) 4 .ld
      (.lanes d.toNat (List.range 16)) false false)

/-- VSTS (R145). -/
def execVsts (g : BitVec 3) (d : BitVec 6) (a b : BitVec 7) : State → Host.Outcome State Fault Refusal :=
  issue (.vsts g d a b) { guard := g, g := [a.toNat, b.toNat], v := [d.toNat], reads := [a.toNat, b.toNat],
                          vreads := [d.toNat] }
    (fun c slot t s => startAccess s c slot t
      ((List.range 16).map (fun l => piece (eaStride t a b l) 4 (.store (laneBytes (t.vv d.toNat) l)))) 4 .st
      .none false false)

/-- R145: the registers of the pair that VGATH and VSCAT name. -/
def vpairX (d : BitVec 6) : Nat := d.toNat / 2 * 2
def vpairY (d : BitVec 6) : Nat := d.toNat / 2 * 2 + 1

/-- VGATH (R145). -/
def execVgath (g : BitVec 3) (d : BitVec 6) (a b : BitVec 7) : State → Host.Outcome State Fault Refusal :=
  issue (.vgath g d a b) { guard := g, g := [a.toNat, b.toNat], v := [vpairX d, vpairY d],
                           reads := [a.toNat, b.toNat], vreads := [vpairX d], vwrites := [vpairY d] }
    (fun c slot t s =>
      let ls := activeLanes (t.gv b.toNat)
      startAccess s c slot t (ls.map (fun l => piece (eaIndex t a (vpairX d) l) 4 .load)) 4 .ld
        (.lanes (vpairY d) ls) false false)

/-- VSCAT (R145). -/
def execVscat (g : BitVec 3) (d : BitVec 6) (a b : BitVec 7) : State → Host.Outcome State Fault Refusal :=
  issue (.vscat g d a b) { guard := g, g := [a.toNat, b.toNat], v := [vpairX d, vpairY d],
                           reads := [a.toNat, b.toNat], vreads := [vpairX d, vpairY d] }
    (fun c slot t s => startAccess s c slot t
      ((activeLanes (t.gv b.toNat)).map (fun l =>
        piece (eaIndex t a (vpairX d) l) 4 (.store (laneBytes (t.vv (vpairY d)) l)))) 4 .st .none false false)

/-- VLDB (R145). -/
def execVldb (g : BitVec 3) (d : BitVec 6) (a b : BitVec 7) : State → Host.Outcome State Fault Refusal :=
  issue (.vldb g d a b) { guard := g, g := [a.toNat, b.toNat], v := [d.toNat], reads := [a.toNat, b.toNat],
                          vwrites := [d.toNat] }
    (fun c slot t s => startAccess s c slot t [piece (t.gv a.toNat + t.gv b.toNat) 4 .load] 4 .ld
      (.bcast d.toNat) false false)

/-- VLD.r (R145, R147). -/
def execVldR (g : BitVec 3) (d : BitVec 6) (a b : BitVec 7) : State → Host.Outcome State Fault Refusal :=
  issue (.vldR g d a b) { guard := g, g := [a.toNat, b.toNat], v := [d.toNat], reads := [a.toNat, b.toNat],
                          vwrites := [d.toNat] }
    (fun c slot t s =>
      let ea := t.gv a.toNat + t.gv b.toNat
      if relaxable ea then
        startRelaxed s c slot t [piece ea 64 .load] 64 .ld true none (some d.toNat) (.whole d.toNat)
      else startAccess s c slot t [piece ea 64 .load] 64 .ld (.whole d.toNat) false false)

end Sys2Proof.Machine
end

