-- ==== Sys2Proof/Machine/Sfu.lean ====
section
/-!
DEFINITION. Sfu.lean: the special-function unit (R29, R30, R148) and its procedures (R149 to R151).
-/
namespace Sys2Proof.Machine
open Sys2Proof

/-! ## Reference procedures (R149) -/

/-- R149: an exact value rounded to FP32 by RNE; overflow goes to an infinity and no flag is raised. -/
def rne32 (x : Dy) : Nat := (fp32.roundDy 0 false false x).1

/-- The exact value of a finite FP32 encoding. -/
def dyOf (w : Nat) : Dy :=
  match fp32.unpack w with
  | .fin neg m e => Dy.of neg m e
  | _ => { n := 0, e := 0 }

/-- x × 2^k. -/
def Dy.scale (x : Dy) (k : Int) : Dy := { n := x.n, e := x.e + k }

/-- The greatest integer not above an exact value. -/
def Dy.floor (x : Dy) : Int :=
  if 0 ≤ x.e then x.n * 2 ^ x.e.toNat else x.n.fdiv (2 ^ (-x.e).toNat)

def Dy.ofInt (n : Int) : Dy := { n := n, e := 0 }

/-- x − y. -/
def Dy.sub (x y : Dy) : Dy := x.add { n := -y.n, e := y.e }

/-- A fused multiply-add of FP32 encodings, rounded by RNE. -/
def fma32 (a b c : Nat) : Nat := (ffma fp32 0#64 false c a b).1

/-- R149, steps 2 to 4: y, for r in [a, a + 1), from the three tables. -/
def sfuCell (c0 c1 c2 : List Nat) (a : Int) (r : Dy) : Nat :=
  let i := ((r.sub (Dy.ofInt a)).scale 6).floor.toNat
  let u : Dy := { n := 64 * a + i, e := -6 }
  let d := rne32 (r.sub u)
  let pp := fma32 (c2.getD i 0) d (c1.getD i 0)
  fma32 pp d (c0.getD i 0)

/-- |x| = m × 2^e with m in [1, 2), for a nonzero finite encoding: m and e. -/
def normal32 (w : Nat) : Dy × Int :=
  match fp32.unpack w with
  | .fin _ m e =>
    let k : Int := bitLen m - 1
    ({ n := m, e := -k }, e + k)
  | _ => ({ n := 1, e := 0 }, 0)

/-- A scale beyond which every result overflows, or rounds to zero. -/
def clampExp (n : Int) : Int := if n < -1000 then -1000 else if 1000 < n then 1000 else n

/-- VRCP of one value (R149, R151). -/
def sfuRcp (w : Nat) : Nat × BitVec 5 :=
  match fp32.unpack w with
  | .nan _ s => (fp32.quiet w, if s then flInvalid else 0#5)
  | .inf neg => (fp32.signBit neg, 0#5)
  | .fin neg 0 _ => (fp32.infinity neg, flDivZero)
  | .fin neg _ _ =>
    let x := normal32 w
    (fp32.signBit neg + rne32 ((dyOf (sfuCell rcpC0 rcpC1 rcpC2 1 x.1)).scale (-x.2)), 0#5)

/-- VRSQ of one value. -/
def sfuRsq (w : Nat) : Nat × BitVec 5 :=
  match fp32.unpack w with
  | .nan _ s => (fp32.quiet w, if s then flInvalid else 0#5)
  | .inf neg => if neg then (fp32.canon, flInvalid) else (0, 0#5)
  | .fin neg 0 _ => (fp32.infinity neg, flDivZero)
  | .fin neg _ _ =>
    if neg then (fp32.canon, flInvalid)
    else
      let x := normal32 w
      let y := if x.2 % 2 = 0 then sfuCell rsqEC0 rsqEC1 rsqEC2 1 x.1 else sfuCell rsqOC0 rsqOC1 rsqOC2 1 x.1
      (rne32 ((dyOf y).scale (-(x.2.fdiv 2))), 0#5)

/-- VEXP2 of one value. -/
def sfuExp2 (w : Nat) : Nat × BitVec 5 :=
  match fp32.unpack w with
  | .nan _ s => (fp32.quiet w, if s then flInvalid else 0#5)
  | .inf neg => (if neg then 0 else fp32.infinity false, 0#5)
  | .fin neg m e =>
    let x := Dy.of neg m e
    let n := x.floor
    let y := sfuCell exp2C0 exp2C1 exp2C2 0 (x.sub (Dy.ofInt n))
    (rne32 ((dyOf y).scale (clampExp n)), 0#5)

/-- VLOG2 of one value. -/
def sfuLog2 (w : Nat) : Nat × BitVec 5 :=
  match fp32.unpack w with
  | .nan _ s => (fp32.quiet w, if s then flInvalid else 0#5)
  | .inf neg => if neg then (fp32.canon, flInvalid) else (fp32.infinity false, 0#5)
  | .fin _ 0 _ => (fp32.infinity true, flDivZero)
  | .fin neg _ _ =>
    if neg then (fp32.canon, flInvalid)
    else
      let x := normal32 w
      (rne32 ((Dy.ofInt x.2).add (dyOf (sfuCell log2C0 log2C1 log2C2 1 x.1))), 0#5)

/-- A list turned by a quarter: entry i is entry i + 16, round. -/
def quarter (l : List Nat) : List Nat := l.drop 16 ++ l.take 16

/-- VSIN and VCOS of one value, by their tables. -/
def sfuTurn (c0 c1 c2 : List Nat) (w : Nat) : Nat × BitVec 5 :=
  match fp32.unpack w with
  | .nan _ s => (fp32.quiet w, if s then flInvalid else 0#5)
  | .inf _ => (fp32.canon, flInvalid)
  | .fin neg m e =>
    let x := Dy.of neg m e
    (sfuCell c0 c1 c2 0 (x.sub (Dy.ofInt x.floor)), 0#5)

def sfuSin (w : Nat) : Nat × BitVec 5 := sfuTurn sinC0 sinC1 sinC2 w
def sfuCos (w : Nat) : Nat × BitVec 5 := sfuTurn (quarter sinC0) (quarter sinC1) (quarter sinC2) w

/-- R150: the constants. -/
def sfuC1 : Nat := 0x3FB8AA3B
def sfuC2 : Nat := 0x4038AA3B
def one32 : Nat := 0x3F800000

/-- VSIGM of one value (R150). -/
def sfuSigm (w : Nat) : Nat × BitVec 5 :=
  match fp32.unpack w with
  | .nan _ s => (fp32.quiet w, if s then flInvalid else 0#5)
  | _ =>
    let q := (fmul fp32 0#64 (fp32.flip w) sfuC1).1
    ((sfuRcp (fadd fp32 0#64 one32 (sfuExp2 q).1).1).1, 0#5)

/-- VTANH of one value (R150). -/
def sfuTanh (w : Nat) : Nat × BitVec 5 :=
  match fp32.unpack w with
  | .nan _ s => (fp32.quiet w, if s then flInvalid else 0#5)
  | v =>
    let mag := w % 2 ^ 31
    if mag < 0x39800000 then (w, 0#5)
    else
      let q := (fmul fp32 0#64 mag sfuC2).1
      let s := (fadd fp32 0#64 (sfuExp2 q).1 one32).1
      let r := (sfuRcp s).1
      (fp32.signBit v.neg + rne32 ((Dy.ofInt 1).sub ((dyOf r).scale 1)), 0#5)

/-! ## Requests (R29, R30, R141, R148) -/

/-- A function of one lane over the 16 lanes. -/
def sfuLanes (f : Nat → Nat × BitVec 5) (a : VWord) : VWord × BitVec 5 := vf2 fp32 (fun x _ => f x) a 0#512

/-- The result of a request. -/
def sfuResult (r : SfuReq) : VWord × BitVec 5 :=
  match r.instr with
  | .vfdiv _ _ _ _ p => vf2 (vfmt p) (fdiv (vfmt p) r.fpctl) r.a r.b
  | .vfsqrt _ _ _ p => vf2 (vfmt p) (fun x _ => fsqrt (vfmt p) r.fpctl x) r.a 0#512
  | .vrcp _ _ _ => sfuLanes sfuRcp r.a
  | .vrsq _ _ _ => sfuLanes sfuRsq r.a
  | .vexp2 _ _ _ => sfuLanes sfuExp2 r.a
  | .vlog2 _ _ _ => sfuLanes sfuLog2 r.a
  | .vsin _ _ _ => sfuLanes sfuSin r.a
  | .vcos _ _ _ => sfuLanes sfuCos r.a
  | .vtanh _ _ _ => sfuLanes sfuTanh r.a
  | .vsigm _ _ _ => sfuLanes sfuSigm r.a
  | _ => (0#512, 0#5)

/-- R29: a request joins the queue, or waits for a place. -/
def sfuJoin (s : State) (c slot : Nat) (r : SfuReq) : State :=
  let k := s.core c
  if k.sfuq.length < 32 && k.sfuWait.isEmpty then
    ((beginWait s c slot .waiting .sfu).modCore c (fun k => { k with sfuq := k.sfuq ++ [r] })).post
      (.sfuRequestComplete c)
  else
    (beginWait s c slot .waiting (.sfuPlace r)).modCore c (fun k => { k with sfuWait := k.sfuWait ++ [slot] })

/-- A special-function request of two sources, of which the second may be unused. -/
def opSfu (i : Instr) (g : BitVec 3) (d a : BitVec 6) (b : List Nat) :
    State → Host.Outcome State Fault Refusal :=
  issue i { guard := g, v := d.toNat :: a.toNat :: b, vreads := a.toNat :: b, vwrites := [d.toNat] }
    (fun c slot t s => sfuJoin s c slot
      { slot := slot, instr := i, vd := d.toNat, a := t.vv a.toNat,
        b := match b with | x :: _ => t.vv x | [] => 0#512,
        fpctl := t.fpctl })

/-- VFDIV (R140, R141). -/
def execVfdiv (g : BitVec 3) (d a b : BitVec 6) (p : BitVec 1) : State → Host.Outcome State Fault Refusal :=
  opSfu (.vfdiv g d a b p) g d a [b.toNat]

/-- VFSQRT (R140, R141). -/
def execVfsqrt (g : BitVec 3) (d a : BitVec 6) (p : BitVec 1) : State → Host.Outcome State Fault Refusal :=
  opSfu (.vfsqrt g d a p) g d a []

/-- VRCP (R148). -/
def execVrcp (g : BitVec 3) (d a : BitVec 6) : State → Host.Outcome State Fault Refusal :=
  opSfu (.vrcp g d a) g d a []

/-- VRSQ (R148). -/
def execVrsq (g : BitVec 3) (d a : BitVec 6) : State → Host.Outcome State Fault Refusal :=
  opSfu (.vrsq g d a) g d a []

/-- VEXP2 (R148). -/
def execVexp2 (g : BitVec 3) (d a : BitVec 6) : State → Host.Outcome State Fault Refusal :=
  opSfu (.vexp2 g d a) g d a []

/-- VLOG2 (R148). -/
def execVlog2 (g : BitVec 3) (d a : BitVec 6) : State → Host.Outcome State Fault Refusal :=
  opSfu (.vlog2 g d a) g d a []

/-- VSIN (R148). -/
def execVsin (g : BitVec 3) (d a : BitVec 6) : State → Host.Outcome State Fault Refusal :=
  opSfu (.vsin g d a) g d a []

/-- VCOS (R148). -/
def execVcos (g : BitVec 3) (d a : BitVec 6) : State → Host.Outcome State Fault Refusal :=
  opSfu (.vcos g d a) g d a []

/-- VTANH (R148, R150). -/
def execVtanh (g : BitVec 3) (d a : BitVec 6) : State → Host.Outcome State Fault Refusal :=
  opSfu (.vtanh g d a) g d a []

/-- VSIGM (R148, R150). -/
def execVsigm (g : BitVec 3) (d a : BitVec 6) : State → Host.Outcome State Fault Refusal :=
  opSfu (.vsigm g d a) g d a []

/-- SFU_QUEUE_ADMIT (R29): the first thread that waits for a place gets one. -/
def execSfuQueueAdmit (core : Nat) (s : State) : Host.Outcome State Fault Refusal :=
  let k := s.core core
  match k.sfuWait with
  | [] => .next s
  | slot :: rest =>
    if 32 ≤ k.sfuq.length then .next s
    else
      let s := s.setCore core { k with sfuWait := rest }
      match s.thread? core slot with
      | none => .next s
      | some t =>
        match t.wait with
        | .sfuPlace r =>
          .next (((s.setThread core slot { t with wait := .sfu }).modCore core
            (fun k => { k with sfuq := k.sfuq ++ [r] })).post (.sfuRequestComplete core))
        | _ => .next s

/-- SFU_REQUEST_COMPLETE (R29, R30): the request at the head of the queue writes its result and its flags, and
its thread goes on; one whose thread no longer waits for it writes nothing. -/
def execSfuRequestComplete (core : Nat) (s : State) : Host.Outcome State Fault Refusal :=
  let k := s.core core
  match k.sfuq with
  | [] => .next s
  | r :: rest =>
    let s := s.setCore core { k with sfuq := rest }
    let s := if k.sfuWait.isEmpty then s else s.post (.sfuQueueAdmit core)
    match s.thread? core r.slot with
    | none => .next s
    | some t =>
      match t.wait with
      | .sfu => .next (finishWait (vresult s core r.slot r.vd (sfuResult r)) core r.slot)
      | _ => .next s

end Sys2Proof.Machine
end

