-- ==== Sys2Proof/Machine/Dispatch.lean ====
section
/-!
DEFINITION. Dispatch.lean: one arm for each constructor of Instr.
-/
namespace Sys2Proof.Machine
open Sys2Proof

/-- What an instruction does to the machine. -/
def exec (i : Instr) (s : State) : Host.Outcome State Fault Refusal :=
  match i with
  | .add g d a b => Sys2Proof.Machine.execAdd g d a b s
  | .sub g d a b => Sys2Proof.Machine.execSub g d a b s
  | .and g d a b => Sys2Proof.Machine.execAnd g d a b s
  | .or g d a b => Sys2Proof.Machine.execOr g d a b s
  | .xor g d a b => Sys2Proof.Machine.execXor g d a b s
  | .andn g d a b => Sys2Proof.Machine.execAndn g d a b s
  | .shl g d a b => Sys2Proof.Machine.execShl g d a b s
  | .shr g d a b => Sys2Proof.Machine.execShr g d a b s
  | .sra g d a b => Sys2Proof.Machine.execSra g d a b s
  | .rotl g d a b => Sys2Proof.Machine.execRotl g d a b s
  | .mins g d a b => Sys2Proof.Machine.execMins g d a b s
  | .maxs g d a b => Sys2Proof.Machine.execMaxs g d a b s
  | .minu g d a b => Sys2Proof.Machine.execMinu g d a b s
  | .maxu g d a b => Sys2Proof.Machine.execMaxu g d a b s
  | .clz g d a => Sys2Proof.Machine.execClz g d a s
  | .ctz g d a => Sys2Proof.Machine.execCtz g d a s
  | .popc g d a => Sys2Proof.Machine.execPopc g d a s
  | .brev g d a => Sys2Proof.Machine.execBrev g d a s
  | .bswap g d a => Sys2Proof.Machine.execBswap g d a s
  | .mul g d a b => Sys2Proof.Machine.execMul g d a b s
  | .mulhs g d a b => Sys2Proof.Machine.execMulhs g d a b s
  | .mulhu g d a b => Sys2Proof.Machine.execMulhu g d a b s
  | .mulhsu g d a b => Sys2Proof.Machine.execMulhsu g d a b s
  | .divs g d a b => Sys2Proof.Machine.execDivs g d a b s
  | .divu g d a b => Sys2Proof.Machine.execDivu g d a b s
  | .rems g d a b => Sys2Proof.Machine.execRems g d a b s
  | .remu g d a b => Sys2Proof.Machine.execRemu g d a b s
  | .shadd1 g d a b => Sys2Proof.Machine.execShadd1 g d a b s
  | .shadd2 g d a b => Sys2Proof.Machine.execShadd2 g d a b s
  | .shadd3 g d a b => Sys2Proof.Machine.execShadd3 g d a b s
  | .shadd4 g d a b => Sys2Proof.Machine.execShadd4 g d a b s
  | .bext g d a b => Sys2Proof.Machine.execBext g d a b s
  | .bins g d a b => Sys2Proof.Machine.execBins g d a b s
  | .addi g d a i_ => Sys2Proof.Machine.execAddi g d a i_ s
  | .andi g d a i_ => Sys2Proof.Machine.execAndi g d a i_ s
  | .ori g d a i_ => Sys2Proof.Machine.execOri g d a i_ s
  | .xori g d a i_ => Sys2Proof.Machine.execXori g d a i_ s
  | .shli g d a n => Sys2Proof.Machine.execShli g d a n s
  | .shri g d a n => Sys2Proof.Machine.execShri g d a n s
  | .srai g d a n => Sys2Proof.Machine.execSrai g d a n s
  | .rotli g d a n => Sys2Proof.Machine.execRotli g d a n s
  | .li g d i_ => Sys2Proof.Machine.execLi g d i_ s
  | .lis g d i_ => Sys2Proof.Machine.execLis g d i_ s
  | .cmpReg g p c a b => Sys2Proof.Machine.execCmpReg g p c a b s
  | .cmpImm g p c a i_ => Sys2Proof.Machine.execCmpImm g p c a i_ s
  | .plog g p x y o => Sys2Proof.Machine.execPlog g p x y o s
  | .pget g d => Sys2Proof.Machine.execPget g d s
  | .pset g a => Sys2Proof.Machine.execPset g a s
  | .br g o => Sys2Proof.Machine.execBr g o s
  | .jal g d i_ => Sys2Proof.Machine.execJal g d i_ s
  | .jr g d a i_ => Sys2Proof.Machine.execJr g d a i_ s
  | .ldbn g d a o r => Sys2Proof.Machine.execLdbn g d a o r s
  | .ldhn g d a o r => Sys2Proof.Machine.execLdhn g d a o r s
  | .ldwn g d a o r => Sys2Proof.Machine.execLdwn g d a o r s
  | .ldd g d a o r => Sys2Proof.Machine.execLdd g d a o r s
  | .ldbs g d a o r => Sys2Proof.Machine.execLdbs g d a o r s
  | .ldhs g d a o r => Sys2Proof.Machine.execLdhs g d a o r s
  | .ldws g d a o r => Sys2Proof.Machine.execLdws g d a o r s
  | .stb g d a o r => Sys2Proof.Machine.execStb g d a o r s
  | .sth g d a o r => Sys2Proof.Machine.execSth g d a o r s
  | .stw g d a o r => Sys2Proof.Machine.execStw g d a o r s
  | .std g d a o r => Sys2Proof.Machine.execStd g d a o r s
  | .ldq g d a => Sys2Proof.Machine.execLdq g d a s
  | .stq g d a => Sys2Proof.Machine.execStq g d a s
  | .ldfe g d a b => Sys2Proof.Machine.execLdfe g d a b s
  | .stfe g d a b => Sys2Proof.Machine.execStfe g d a b s
  | .aadd g d a b => Sys2Proof.Machine.execAadd g d a b s
  | .aand g d a b => Sys2Proof.Machine.execAand g d a b s
  | .aor g d a b => Sys2Proof.Machine.execAor g d a b s
  | .axor g d a b => Sys2Proof.Machine.execAxor g d a b s
  | .amins g d a b => Sys2Proof.Machine.execAmins g d a b s
  | .amaxs g d a b => Sys2Proof.Machine.execAmaxs g d a b s
  | .aminu g d a b => Sys2Proof.Machine.execAminu g d a b s
  | .amaxu g d a b => Sys2Proof.Machine.execAmaxu g d a b s
  | .aswap g d a b => Sys2Proof.Machine.execAswap g d a b s
  | .acas g d a b => Sys2Proof.Machine.execAcas g d a b s
  | .acasq g d a b => Sys2Proof.Machine.execAcasq g d a b s
  | .afadd g d a b => Sys2Proof.Machine.execAfadd g d a b s
  | .fence g w e r s_ => Sys2Proof.Machine.execFence g w e r s_ s
  | .watch g d a => Sys2Proof.Machine.execWatch g d a s
  | .unwatch g d a => Sys2Proof.Machine.execUnwatch g d a s
  | .sleep g d => Sys2Proof.Machine.execSleep g d s
  | .waitge g d a b => Sys2Proof.Machine.execWaitge g d a b s
  | .wbr g d a b => Sys2Proof.Machine.execWbr g d a b s
  | .invr g d a b => Sys2Proof.Machine.execInvr g d a b s
  | .wbinvr g d a b => Sys2Proof.Machine.execWbinvr g d a b s
  | .prefr g a b => Sys2Proof.Machine.execPrefr g a b s
  | .faddD g d a b => Sys2Proof.Machine.execFaddD g d a b s
  | .fsubD g d a b => Sys2Proof.Machine.execFsubD g d a b s
  | .fmulD g d a b => Sys2Proof.Machine.execFmulD g d a b s
  | .fminD g d a b => Sys2Proof.Machine.execFminD g d a b s
  | .fmaxD g d a b => Sys2Proof.Machine.execFmaxD g d a b s
  | .fdivD g d a b => Sys2Proof.Machine.execFdivD g d a b s
  | .fsqrtD g d a => Sys2Proof.Machine.execFsqrtD g d a s
  | .fcvt g d a c => Sys2Proof.Machine.execFcvt g d a c s
  | .faddS g d a b => Sys2Proof.Machine.execFaddS g d a b s
  | .fsubS g d a b => Sys2Proof.Machine.execFsubS g d a b s
  | .fmulS g d a b => Sys2Proof.Machine.execFmulS g d a b s
  | .fminS g d a b => Sys2Proof.Machine.execFminS g d a b s
  | .fmaxS g d a b => Sys2Proof.Machine.execFmaxS g d a b s
  | .fdivS g d a b => Sys2Proof.Machine.execFdivS g d a b s
  | .fsqrtS g d a => Sys2Proof.Machine.execFsqrtS g d a s
  | .fclass g d a => Sys2Proof.Machine.execFclass g d a s
  | .fmaD g d a b => Sys2Proof.Machine.execFmaD g d a b s
  | .fmaS g d a b => Sys2Proof.Machine.execFmaS g d a b s
  | .fmsD g d a b => Sys2Proof.Machine.execFmsD g d a b s
  | .fmsS g d a b => Sys2Proof.Machine.execFmsS g d a b s
  | .fcmp g p c a b => Sys2Proof.Machine.execFcmp g p c a b s
  | .spawn g d a b => Sys2Proof.Machine.execSpawn g d a b s
  | .quit g => Sys2Proof.Machine.execQuit g s
  | .migr g a => Sys2Proof.Machine.execMigr g a s
  | .send g d a b => Sys2Proof.Machine.execSend g d a b s
  | .fork g d a b => Sys2Proof.Machine.execFork g d a b s
  | .join g a => Sys2Proof.Machine.execJoin g a s
  | .wqry g d a => Sys2Proof.Machine.execWqry g d a s
  | .launch g d a => Sys2Proof.Machine.execLaunch g d a s
  | .bar g d a => Sys2Proof.Machine.execBar g d a s
  | .bard g d a => Sys2Proof.Machine.execBard g d a s
  | .breg g d a => Sys2Proof.Machine.execBreg g d a s
  | .chkpt g d => Sys2Proof.Machine.execChkpt g d s
  | .tstop g d a => Sys2Proof.Machine.execTstop g d a s
  | .tstart g d a => Sys2Proof.Machine.execTstart g d a s
  | .tread g d a b => Sys2Proof.Machine.execTread g d a b s
  | .twrite g d a b => Sys2Proof.Machine.execTwrite g d a b s
  | .gets g d s_ => Sys2Proof.Machine.execGets g d s_ s
  | .sets g a s_ => Sys2Proof.Machine.execSets g a s_ s
  | .invpg g d a b => Sys2Proof.Machine.execInvpg g d a b s
  | .selft g d a b => Sys2Proof.Machine.execSelft g d a b s
  | .brk g i_ => Sys2Proof.Machine.execBrk g i_ s
  | .vadd g d a b => Sys2Proof.Machine.execVadd g d a b s
  | .vsub g d a b => Sys2Proof.Machine.execVsub g d a b s
  | .vmul g d a b => Sys2Proof.Machine.execVmul g d a b s
  | .vmulhs g d a b => Sys2Proof.Machine.execVmulhs g d a b s
  | .vmulhu g d a b => Sys2Proof.Machine.execVmulhu g d a b s
  | .vand g d a b => Sys2Proof.Machine.execVand g d a b s
  | .vor g d a b => Sys2Proof.Machine.execVor g d a b s
  | .vxor g d a b => Sys2Proof.Machine.execVxor g d a b s
  | .vandn g d a b => Sys2Proof.Machine.execVandn g d a b s
  | .vshl g d a b => Sys2Proof.Machine.execVshl g d a b s
  | .vshr g d a b => Sys2Proof.Machine.execVshr g d a b s
  | .vsra g d a b => Sys2Proof.Machine.execVsra g d a b s
  | .vmins g d a b => Sys2Proof.Machine.execVmins g d a b s
  | .vmaxs g d a b => Sys2Proof.Machine.execVmaxs g d a b s
  | .vminu g d a b => Sys2Proof.Machine.execVminu g d a b s
  | .vmaxu g d a b => Sys2Proof.Machine.execVmaxu g d a b s
  | .vabs g d a => Sys2Proof.Machine.execVabs g d a s
  | .vpopc g d a => Sys2Proof.Machine.execVpopc g d a s
  | .vclz g d a => Sys2Proof.Machine.execVclz g d a s
  | .vcmpeq g d a b => Sys2Proof.Machine.execVcmpeq g d a b s
  | .vcmplts g d a b => Sys2Proof.Machine.execVcmplts g d a b s
  | .vcmpltu g d a b => Sys2Proof.Machine.execVcmpltu g d a b s
  | .vsel g d a b => Sys2Proof.Machine.execVsel g d a b s
  | .vshuf g d a b => Sys2Proof.Machine.execVshuf g d a b s
  | .vfadd g d a b p => Sys2Proof.Machine.execVfadd g d a b p s
  | .vfsub g d a b p => Sys2Proof.Machine.execVfsub g d a b p s
  | .vfmul g d a b p => Sys2Proof.Machine.execVfmul g d a b p s
  | .vfma g d a b p => Sys2Proof.Machine.execVfma g d a b p s
  | .vfms g d a b p => Sys2Proof.Machine.execVfms g d a b p s
  | .vfmin g d a b p => Sys2Proof.Machine.execVfmin g d a b p s
  | .vfmax g d a b p => Sys2Proof.Machine.execVfmax g d a b p s
  | .vfabs g d a p => Sys2Proof.Machine.execVfabs g d a p s
  | .vfneg g d a p => Sys2Proof.Machine.execVfneg g d a p s
  | .vfdiv g d a b p => Sys2Proof.Machine.execVfdiv g d a b p s
  | .vfsqrt g d a p => Sys2Proof.Machine.execVfsqrt g d a p s
  | .vfcmpeq g d a b p => Sys2Proof.Machine.execVfcmpeq g d a b p s
  | .vfcmplt g d a b p => Sys2Proof.Machine.execVfcmplt g d a b p s
  | .vfcmple g d a b p => Sys2Proof.Machine.execVfcmple g d a b p s
  | .vfcmpun g d a b p => Sys2Proof.Machine.execVfcmpun g d a b p s
  | .vhaddH g d a b => Sys2Proof.Machine.execVhaddH g d a b s
  | .vhmulH g d a b => Sys2Proof.Machine.execVhmulH g d a b s
  | .vhfmaH g d a b => Sys2Proof.Machine.execVhfmaH g d a b s
  | .vhaddB g d a b => Sys2Proof.Machine.execVhaddB g d a b s
  | .vhmulB g d a b => Sys2Proof.Machine.execVhmulB g d a b s
  | .vhfmaB g d a b => Sys2Proof.Machine.execVhfmaB g d a b s
  | .vdot8 g d a b => Sys2Proof.Machine.execVdot8 g d a b s
  | .vdots8 g d a b => Sys2Proof.Machine.execVdots8 g d a b s
  | .vcvt g d a c => Sys2Proof.Machine.execVcvt g d a c s
  | .vld g d a b => Sys2Proof.Machine.execVld g d a b s
  | .vst g d a b => Sys2Proof.Machine.execVst g d a b s
  | .vlds g d a b => Sys2Proof.Machine.execVlds g d a b s
  | .vsts g d a b => Sys2Proof.Machine.execVsts g d a b s
  | .vgath g d a b => Sys2Proof.Machine.execVgath g d a b s
  | .vscat g d a b => Sys2Proof.Machine.execVscat g d a b s
  | .vldb g d a b => Sys2Proof.Machine.execVldb g d a b s
  | .vldR g d a b => Sys2Proof.Machine.execVldR g d a b s
  | .vbcast g x v => Sys2Proof.Machine.execVbcast g x v s
  | .vext g x v w => Sys2Proof.Machine.execVext g x v w s
  | .vins g x v w => Sys2Proof.Machine.execVins g x v w s
  | .vredaddS g x v => Sys2Proof.Machine.execVredaddS g x v s
  | .vredaddI g x v => Sys2Proof.Machine.execVredaddI g x v s
  | .vredmaxS g x v => Sys2Proof.Machine.execVredmaxS g x v s
  | .vredminS g x v => Sys2Proof.Machine.execVredminS g x v s
  | .vmask g x v => Sys2Proof.Machine.execVmask g x v s
  | .vrcp g d a => Sys2Proof.Machine.execVrcp g d a s
  | .vrsq g d a => Sys2Proof.Machine.execVrsq g d a s
  | .vexp2 g d a => Sys2Proof.Machine.execVexp2 g d a s
  | .vlog2 g d a => Sys2Proof.Machine.execVlog2 g d a s
  | .vsin g d a => Sys2Proof.Machine.execVsin g d a s
  | .vcos g d a => Sys2Proof.Machine.execVcos g d a s
  | .vtanh g d a => Sys2Proof.Machine.execVtanh g d a s
  | .vsigm g d a => Sys2Proof.Machine.execVsigm g d a s
  | .b2z g z a b => Sys2Proof.Machine.execB2z g z a b s
  | .z2b g z a => Sys2Proof.Machine.execZ2b g z a s
  | .zcls g z a b => Sys2Proof.Machine.execZcls g z a b s
  | .zrgn g z s_ b => Sys2Proof.Machine.execZrgn g z s_ b s
  | .zclr g z => Sys2Proof.Machine.execZclr g z s
  | .zand g d a b => Sys2Proof.Machine.execZand g d a b s
  | .zor g d a b => Sys2Proof.Machine.execZor g d a b s
  | .zxnor g d a b => Sys2Proof.Machine.execZxnor g d a b s
  | .znot g d a => Sys2Proof.Machine.execZnot g d a s
  | .zmux g d a b s_ => Sys2Proof.Machine.execZmux g d a b s_ s
  | .cwst g d a => Sys2Proof.Machine.execCwst g d a s
  | .cwadd g d a b => Sys2Proof.Machine.execCwadd g d a b s
  | .cwcas g d a b => Sys2Proof.Machine.execCwcas g d a b s
  | .cwfence g d a => Sys2Proof.Machine.execCwfence g d a s
  | .mma g cpl x => Sys2Proof.Machine.execMma g cpl x s
  | .copy g cpl x => Sys2Proof.Machine.execCopy g cpl x s
  | .gath g cpl x => Sys2Proof.Machine.execGath g cpl x s
  | .coll g cpl x => Sys2Proof.Machine.execColl g cpl x s
  | .fill g cpl x => Sys2Proof.Machine.execFill g cpl x s
  | .enc8 g cpl x => Sys2Proof.Machine.execEnc8 g cpl x s
  | .rotationFill core => Sys2Proof.Machine.execRotationFill core s
  | .registerFillAdmit core => Sys2Proof.Machine.execRegisterFillAdmit core s
  | .registerFillComplete core slot => Sys2Proof.Machine.execRegisterFillComplete core slot s
  | .relaxedLoadDeliver core slot id => Sys2Proof.Machine.execRelaxedLoadDeliver core slot id s
  | .relaxedStorePerform core slot id => Sys2Proof.Machine.execRelaxedStorePerform core slot id s
  | .accessComplete core slot => Sys2Proof.Machine.execAccessComplete core slot s
  | .sfuQueueAdmit core => Sys2Proof.Machine.execSfuQueueAdmit core s
  | .sfuRequestComplete core => Sys2Proof.Machine.execSfuRequestComplete core s
  | .ssuComplete core slot => Sys2Proof.Machine.execSsuComplete core slot s
  | .contextGrant core => Sys2Proof.Machine.execContextGrant core s
  | .threadFill core => Sys2Proof.Machine.execThreadFill core s
  | .threadFillComplete core slot => Sys2Proof.Machine.execThreadFillComplete core slot s
  | .wlimExpiry core slot => Sys2Proof.Machine.execWlimExpiry core slot s
  | .waitgeRecheck core slot => Sys2Proof.Machine.execWaitgeRecheck core slot s
  | .feWaiterRelease core word => Sys2Proof.Machine.execFeWaiterRelease core word s
  | .watchEntryGrant core slot => Sys2Proof.Machine.execWatchEntryGrant core slot s
  | .watchRecorded core slot => Sys2Proof.Machine.execWatchRecorded core slot s
  | .guestAccess core => Sys2Proof.Machine.execGuestAccess core s
  | .postedStoreAccept core slot => Sys2Proof.Machine.execPostedStoreAccept core slot s
  | .threadPacketArrive id => Sys2Proof.Machine.execThreadPacketArrive id s
  | .visitorSlotGrant core => Sys2Proof.Machine.execVisitorSlotGrant core s
  | .threadStateAct core slot => Sys2Proof.Machine.execThreadStateAct core slot s
  | .invpgComplete core slot => Sys2Proof.Machine.execInvpgComplete core slot s
  | .selftComplete core slot failed rows ways bank => Sys2Proof.Machine.execSelftComplete core slot failed rows ways bank s
  | .barrierRecordGrant core => Sys2Proof.Machine.execBarrierRecordGrant core s
  | .barrierJoin id => Sys2Proof.Machine.execBarrierJoin id s
  | .barrierDrop id => Sys2Proof.Machine.execBarrierDrop id s
  | .barrierArrive id => Sys2Proof.Machine.execBarrierArrive id s
  | .engineAccept id => Sys2Proof.Machine.execEngineAccept id s
  | .mmaStep id => Sys2Proof.Machine.execMmaStep id s
  | .gathScatterRow id => Sys2Proof.Machine.execGathScatterRow id s
  | .engineComplete id => Sys2Proof.Machine.execEngineComplete id s
  | .collInstanceComplete id => Sys2Proof.Machine.execCollInstanceComplete id s
  | .rd line agent => Sys2Proof.Machine.execRd line agent s
  | .rdx line agent => Sys2Proof.Machine.execRdx line agent s
  | .upg line agent => Sys2Proof.Machine.execUpg line agent s
  | .wb line agent => Sys2Proof.Machine.execWb line agent s
  | .wbk line agent => Sys2Proof.Machine.execWbk line agent s
  | .put line agent => Sys2Proof.Machine.execPut line agent s
  | .amo line agent => Sys2Proof.Machine.execAmo line agent s
  | .own line id => Sys2Proof.Machine.execOwn line id s
  | .ew line id => Sys2Proof.Machine.execEw line id s
  | .rel line id => Sys2Proof.Machine.execRel line id s
  | .inv line agent => Sys2Proof.Machine.execInv line agent s
  | .rcl line agent => Sys2Proof.Machine.execRcl line agent s
  | .dwg line agent => Sys2Proof.Machine.execDwg line agent s
  | .recallAnswer line agent => Sys2Proof.Machine.execRecallAnswer line agent s
  | .ack line agent => Sys2Proof.Machine.execAck line agent s
  | .nack line agent => Sys2Proof.Machine.execNack line agent s
  | .pin line agent => Sys2Proof.Machine.execPin line agent s
  | .pinDrop line agent => Sys2Proof.Machine.execPinDrop line agent s
  | .leaseRenewal die agent => Sys2Proof.Machine.execLeaseRenewal die agent s
  | .leaseExpiry die agent => Sys2Proof.Machine.execLeaseExpiry die agent s
  | .leaseSelfLimit die agent => Sys2Proof.Machine.execLeaseSelfLimit die agent s
  | .leaseRejoin die agent => Sys2Proof.Machine.execLeaseRejoin die agent s
  | .copyTermExpiry agent line => Sys2Proof.Machine.execCopyTermExpiry agent line s
  | .walkComplete id => Sys2Proof.Machine.execWalkComplete id s
  | .waystationInvalidate ws id => Sys2Proof.Machine.execWaystationInvalidate ws id s
  | .cwJoin port => Sys2Proof.Machine.execCwJoin port s
  | .cwLeave port => Sys2Proof.Machine.execCwLeave port s
  | .cwQueueAdmit port => Sys2Proof.Machine.execCwQueueAdmit port s
  | .rotationOpen port view => Sys2Proof.Machine.execRotationOpen port view s
  | .burstSend port => Sys2Proof.Machine.execBurstSend port s
  | .frameData port frame => Sys2Proof.Machine.execFrameData port frame s
  | .frameReplay port frame => Sys2Proof.Machine.execFrameReplay port frame s
  | .frameSnapshot port frame part => Sys2Proof.Machine.execFrameSnapshot port frame part s
  | .frameControl port index cwid slots => Sys2Proof.Machine.execFrameControl port index cwid slots s
  | .missingFrame port rotation member fidx => Sys2Proof.Machine.execMissingFrame port rotation member fidx s
  | .holeTimeout port => Sys2Proof.Machine.execHoleTimeout port s
  | .masterLoss port => Sys2Proof.Machine.execMasterLoss port s
  | .recoveryTimeout port => Sys2Proof.Machine.execRecoveryTimeout port s
  | .joinListenEnd port heard => Sys2Proof.Machine.execJoinListenEnd port heard s
  | .founderWaitEnd port heard => Sys2Proof.Machine.execFounderWaitEnd port heard s
  | .joinGrantTimeout port => Sys2Proof.Machine.execJoinGrantTimeout port s
  | .launchPortHeader part addr => Sys2Proof.Machine.execLaunchPortHeader part addr s
  | .launchPortGraph part addr => Sys2Proof.Machine.execLaunchPortGraph part addr s
  | .launchAccept id => Sys2Proof.Machine.execLaunchAccept id s
  | .launchRecordGrant part => Sys2Proof.Machine.execLaunchRecordGrant part s
  | .dependenceReady lid => Sys2Proof.Machine.execDependenceReady lid s
  | .dependenceCancel lid => Sys2Proof.Machine.execDependenceCancel lid s
  | .placementDecision part => Sys2Proof.Machine.execPlacementDecision part s
  | .quantumExpiry lid => Sys2Proof.Machine.execQuantumExpiry lid s
  | .groupSave gid => Sys2Proof.Machine.execGroupSave gid s
  | .wqryServe part => Sys2Proof.Machine.execWqryServe part s
  | .wqryAnswerDeliver id => Sys2Proof.Machine.execWqryAnswerDeliver id s
  | .launchCompletion lid => Sys2Proof.Machine.execLaunchCompletion lid s
  | .create part => Sys2Proof.Machine.execCreate part s
  | .reset part => Sys2Proof.Machine.execReset part s
  | .teardown part => Sys2Proof.Machine.execTeardown part s
  | .pmsWrite core slot => Sys2Proof.Machine.execPmsWrite core slot s
  | .histogramConfig part unit value => Sys2Proof.Machine.execHistogramConfig part unit value s
  | .histogramClear part unit => Sys2Proof.Machine.execHistogramClear part unit s
  | .histogramSample part unit sample => Sys2Proof.Machine.execHistogramSample part unit sample s
  | .registerWrite part word value => Sys2Proof.Machine.execRegisterWrite part word value s
  | .postedWriteArrive id => Sys2Proof.Machine.execPostedWriteArrive id s
  | .remoteRead id => Sys2Proof.Machine.execRemoteRead id s
  | .remoteReadResponse id data => Sys2Proof.Machine.execRemoteReadResponse id data s
  | .remoteAtomic id => Sys2Proof.Machine.execRemoteAtomic id s
  | .remoteAtomicResponse id old => Sys2Proof.Machine.execRemoteAtomicResponse id old s
  | .hostBarAccess fn addr size write => Sys2Proof.Machine.execHostBarAccess fn addr size write s
  | .hostAtomicop fn offset op => Sys2Proof.Machine.execHostAtomicop fn offset op s
  | .cxlMemAccess addr size write => Sys2Proof.Machine.execCxlMemAccess addr size write s
  | .hostSnoop line write => Sys2Proof.Machine.execHostSnoop line write s
  | .linkDown link => Sys2Proof.Machine.execLinkDown link s
  | .flitCrcError link => Sys2Proof.Machine.execFlitCrcError link s
  | .fatalError unit poisoned => Sys2Proof.Machine.execFatalError unit poisoned s
  | .checkpointCommit core => Sys2Proof.Machine.execCheckpointCommit core s
  | .lockstepMismatch core => Sys2Proof.Machine.execLockstepMismatch core s
  | .boot image0 image1 => Sys2Proof.Machine.execBoot image0 image1 s
  | .thermalThrottle die => Sys2Proof.Machine.execThermalThrottle die s
  | .thermalShutdown die => Sys2Proof.Machine.execThermalShutdown die s
  | .mcBankRead bank word => Sys2Proof.Machine.execMcBankRead bank word s
  | .bankClear bank => Sys2Proof.Machine.execBankClear bank s
  | .telemetryRead word => Sys2Proof.Machine.execTelemetryRead word s
  | .powerLimitSet milliwatts => Sys2Proof.Machine.execPowerLimitSet milliwatts s
  | .pcbWordAccess part word write => Sys2Proof.Machine.execPcbWordAccess part word write s
  | .attestation nonce => Sys2Proof.Machine.execAttestation nonce s
  | .fenceListRead => Sys2Proof.Machine.execFenceListRead s
  | .versionRaise => Sys2Proof.Machine.execVersionRaise s
  | .mgmtUnknownCode code => Sys2Proof.Machine.execMgmtUnknownCode code s
  | .layByScrubComplete part => Sys2Proof.Machine.execLayByScrubComplete part s
  | .hostLinkUp link => Sys2Proof.Machine.execHostLinkUp link s
  | .thermalRecovery die => Sys2Proof.Machine.execThermalRecovery die s

end Sys2Proof.Machine
end

