-- ==== Sys2Proof/Machine/Events.lean ====
section
/-!
DEFINITION. Events.lean: what an event of the agenda does: the same meanings as the arms of `exec`.
-/
namespace Sys2Proof.Machine
open Sys2Proof

/-- An event performed (R8 to R394, one rule or more for each). -/
def perform (e : Event) (s : State) : Host.Outcome State Fault Refusal :=
  match e with
  | .rotationFill core => execRotationFill core s
  | .registerFillAdmit core => execRegisterFillAdmit core s
  | .registerFillComplete core slot => execRegisterFillComplete core slot s
  | .relaxedLoadDeliver core slot id => execRelaxedLoadDeliver core slot id s
  | .relaxedStorePerform core slot id => execRelaxedStorePerform core slot id s
  | .accessComplete core slot => execAccessComplete core slot s
  | .sfuQueueAdmit core => execSfuQueueAdmit core s
  | .sfuRequestComplete core => execSfuRequestComplete core s
  | .ssuComplete core slot => execSsuComplete core slot s
  | .contextGrant core => execContextGrant core s
  | .threadFill core => execThreadFill core s
  | .threadFillComplete core slot => execThreadFillComplete core slot s
  | .wlimExpiry core slot => execWlimExpiry core slot s
  | .waitgeRecheck core slot => execWaitgeRecheck core slot s
  | .feWaiterRelease core word => execFeWaiterRelease core word s
  | .watchEntryGrant core slot => execWatchEntryGrant core slot s
  | .watchRecorded core slot => execWatchRecorded core slot s
  | .guestAccess core => execGuestAccess core s
  | .postedStoreAccept core slot => execPostedStoreAccept core slot s
  | .threadPacketArrive id => execThreadPacketArrive id s
  | .visitorSlotGrant core => execVisitorSlotGrant core s
  | .threadStateAct core slot => execThreadStateAct core slot s
  | .invpgComplete core slot => execInvpgComplete core slot s
  | .selftComplete core slot failed rows ways bank => execSelftComplete core slot failed rows ways bank s
  | .barrierRecordGrant core => execBarrierRecordGrant core s
  | .barrierJoin id => execBarrierJoin id s
  | .barrierDrop id => execBarrierDrop id s
  | .barrierArrive id => execBarrierArrive id s
  | .engineAccept id => execEngineAccept id s
  | .mmaStep id => execMmaStep id s
  | .gathScatterRow id => execGathScatterRow id s
  | .engineComplete id => execEngineComplete id s
  | .collInstanceComplete id => execCollInstanceComplete id s
  | .rd line agent => execRd line agent s
  | .rdx line agent => execRdx line agent s
  | .upg line agent => execUpg line agent s
  | .wb line agent => execWb line agent s
  | .wbk line agent => execWbk line agent s
  | .put line agent => execPut line agent s
  | .amo line agent => execAmo line agent s
  | .own line id => execOwn line id s
  | .ew line id => execEw line id s
  | .rel line id => execRel line id s
  | .inv line agent => execInv line agent s
  | .rcl line agent => execRcl line agent s
  | .dwg line agent => execDwg line agent s
  | .recallAnswer line agent => execRecallAnswer line agent s
  | .ack line agent => execAck line agent s
  | .nack line agent => execNack line agent s
  | .pin line agent => execPin line agent s
  | .pinDrop line agent => execPinDrop line agent s
  | .leaseRenewal die agent => execLeaseRenewal die agent s
  | .leaseExpiry die agent => execLeaseExpiry die agent s
  | .leaseSelfLimit die agent => execLeaseSelfLimit die agent s
  | .leaseRejoin die agent => execLeaseRejoin die agent s
  | .copyTermExpiry agent line => execCopyTermExpiry agent line s
  | .walkComplete id => execWalkComplete id s
  | .waystationInvalidate ws id => execWaystationInvalidate ws id s
  | .cwJoin port => execCwJoin port s
  | .cwLeave port => execCwLeave port s
  | .cwQueueAdmit port => execCwQueueAdmit port s
  | .rotationOpen port view => execRotationOpen port view s
  | .burstSend port => execBurstSend port s
  | .frameData port frame => execFrameData port frame s
  | .frameReplay port frame => execFrameReplay port frame s
  | .frameSnapshot port frame part => execFrameSnapshot port frame part s
  | .frameControl port index cwid slots => execFrameControl port index cwid slots s
  | .missingFrame port rotation member fidx => execMissingFrame port rotation member fidx s
  | .holeTimeout port => execHoleTimeout port s
  | .masterLoss port => execMasterLoss port s
  | .recoveryTimeout port => execRecoveryTimeout port s
  | .joinListenEnd port heard => execJoinListenEnd port heard s
  | .founderWaitEnd port heard => execFounderWaitEnd port heard s
  | .joinGrantTimeout port => execJoinGrantTimeout port s
  | .launchPortHeader part addr => execLaunchPortHeader part addr s
  | .launchPortGraph part addr => execLaunchPortGraph part addr s
  | .launchAccept id => execLaunchAccept id s
  | .launchRecordGrant part => execLaunchRecordGrant part s
  | .dependenceReady lid => execDependenceReady lid s
  | .dependenceCancel lid => execDependenceCancel lid s
  | .placementDecision part => execPlacementDecision part s
  | .quantumExpiry lid => execQuantumExpiry lid s
  | .groupSave gid => execGroupSave gid s
  | .wqryServe part => execWqryServe part s
  | .wqryAnswerDeliver id => execWqryAnswerDeliver id s
  | .launchCompletion lid => execLaunchCompletion lid s
  | .create part => execCreate part s
  | .reset part => execReset part s
  | .teardown part => execTeardown part s
  | .pmsWrite core slot => execPmsWrite core slot s
  | .histogramConfig part unit value => execHistogramConfig part unit value s
  | .histogramClear part unit => execHistogramClear part unit s
  | .histogramSample part unit sample => execHistogramSample part unit sample s
  | .registerWrite part word value => execRegisterWrite part word value s
  | .postedWriteArrive id => execPostedWriteArrive id s
  | .remoteRead id => execRemoteRead id s
  | .remoteReadResponse id data => execRemoteReadResponse id data s
  | .remoteAtomic id => execRemoteAtomic id s
  | .remoteAtomicResponse id old => execRemoteAtomicResponse id old s
  | .hostBarAccess fn addr size write => execHostBarAccess fn addr size write s
  | .hostAtomicop fn offset op => execHostAtomicop fn offset op s
  | .cxlMemAccess addr size write => execCxlMemAccess addr size write s
  | .hostSnoop line write => execHostSnoop line write s
  | .linkDown link => execLinkDown link s
  | .flitCrcError link => execFlitCrcError link s
  | .fatalError unit poisoned => execFatalError unit poisoned s
  | .checkpointCommit core => execCheckpointCommit core s
  | .lockstepMismatch core => execLockstepMismatch core s
  | .boot image0 image1 => execBoot image0 image1 s
  | .thermalThrottle die => execThermalThrottle die s
  | .thermalShutdown die => execThermalShutdown die s
  | .mcBankRead bank word => execMcBankRead bank word s
  | .bankClear bank => execBankClear bank s
  | .telemetryRead word => execTelemetryRead word s
  | .powerLimitSet milliwatts => execPowerLimitSet milliwatts s
  | .pcbWordAccess part word write => execPcbWordAccess part word write s
  | .attestation nonce => execAttestation nonce s
  | .fenceListRead => execFenceListRead s
  | .versionRaise => execVersionRaise s
  | .mgmtUnknownCode code => execMgmtUnknownCode code s
  | .layByScrubComplete part => execLayByScrubComplete part s
  | .hostLinkUp link => execHostLinkUp link s
  | .thermalRecovery die => execThermalRecovery die s

end Sys2Proof.Machine
end

