-- ==== Sys2Proof/Machine/Step.lean ====
section
/-!
DEFINITION. Step.lean: one step of the machine: an event of the agenda, or an issue turn of a core (R8, R63).
-/
namespace Sys2Proof.Machine
open Sys2Proof

/-- R8: what a core's cycle ends with, when its instruction leaves a next state. -/
def endCycle (o : Host.Outcome State Fault Refusal) (c : Nat) : Host.Outcome State Fault Refusal :=
  match o with
  | .next s => .next (tick s c)
  | .fault f => .fault f
  | .refused r => .refused r

/-- One cycle of the core whose turn it is: an empty position may be filled (R11), and its occupant issues
(R63). -/
def issueTurn (s : State) : Host.Outcome State Fault Refusal :=
  let s := fillPosition s
  match fetch s with
  | .idle => .next (tick s s.turn)
  | .fault c slot f => .next (tick (fetchFaults s c slot f) s.turn)
  | .run i => endCycle (exec i s) s.turn

/-- ONE STEP: the act that `sched` names; with no choice made, the first event of the agenda, or else a turn. -/
def step (s : State) : Host.Outcome State Fault Refusal :=
  match s.sched with
  | .event k :: rest =>
    match s.agenda[k]? with
    | some e => perform e { s with sched := rest, agenda := s.agenda.take k ++ s.agenda.drop (k + 1) }
    | none => .next { s with sched := rest }
  | .core c :: rest => issueTurn { s with sched := rest, turn := c }
  | [] =>
    match s.agenda with
    | e :: rest => perform e { s with agenda := rest }
    | [] => issueTurn s

/-- A program's word placed where the next step fetches: the thread of the present rotation position of
the core whose turn it is, at address 0 of its scratchpad; a core that has no thread there gets one, as a
placement would give it (R239, R322). Nothing else may come first. -/
def State.withFetchWord (s : State) (nbits w : Nat) : State :=
  placeWord s ((tableWords nbits w).flatMap bytesOfWord)

end Sys2Proof.Machine
end

