-- ==== Sys2Proof/Safety.lean ====
section
/-!
DEFINITION. Safety.lean: what counts as a safe step and a safe state, and the words in which claims about one
instruction are made: when it issues, what it then leaves, and what it leaves alone.
-/
namespace Sys2Proof
open Machine

/-- A step that does not stop. -/
def Safe (s : State) : Prop := ∃ s', step s = .next s'

/-- The memories are in their canonical form: package memory, the host's memory, every core's scratchpad
and every replica. -/
def MemOk (s : State) : Prop :=
  s.mem.wf = true ∧ s.host.wf = true ∧ (∀ x ∈ s.cores, x.2.spad.wf = true) ∧
    (∀ x ∈ s.ports, x.2.replica.wf = true)

/-! ## When an instruction issues -/

/-- The thread as its instruction's own effect reads it: the address and the word of the instruction are kept (R16). -/
def reading (i : Instr) (t : Thread) : Thread := { t with ipc := t.pc, iword := encode32 i }

/-- The thread in `slot` of core `c` has the turn, and nothing keeps an instruction that names what `d` says
from issuing: its registers are below the declared counts (R18); its guard is true (R62); no deferred fault
is for it to report (R113); what it reads and writes is present (R20, R112); the relaxed accesses it waits for
are performed (R124, R153, R188); no register it reads is poisoned (R375); and where it starts a relaxed load, the
register cache has an entry for the register it loads (R20). -/
structure Issues (d : Desc) (s : State) (c slot : Nat) (t : Thread) : Prop where
  turn : current s = some (c, slot, t)
  gLimit : ∀ r ∈ d.g, r < t.n
  vLimit : ∀ r ∈ d.v, r < t.m
  zLimit : ∀ r ∈ d.z, r < t.zc
  guarded : d.guard = 0#3 ∨
    (absent (s.core c) t slot 0 = false ∧ t.poison.contains 128 = false ∧ t.p d.guard.toNat = true)
  noDeferred : deferred t d = none
  here : ∀ r ∈ d.reads, r ≠ 0 → absent (s.core c) t slot r = false
  pwHere : d.pw = true → absent (s.core c) t slot 0 = false
  gFree : ∀ r ∈ d.writes, pendingG t r = false
  vFree : ∀ r ∈ d.vreads ++ d.vwrites, pendingV t r = false
  drained : d.drain = true → ∀ x ∈ t.relaxed, x.fault.isNone = false
  gClean : ∀ r ∈ d.reads, r ≠ 0 → t.poison.contains r = false
  pwClean : d.pw = true → t.poison.contains 128 = false
  vClean : ∀ r ∈ d.vreads, t.poison.contains (256 + r) = false
  zClean : ∀ r ∈ d.zreads, t.poison.contains (512 + r) = false
  entry : ∀ i r, d.alloc (reading i t) = some r → entryFits (s.core c) slot r = true

/-- Nothing follows the thread's instruction when it is complete: the thread is not being stepped (R203), and its
core owes no lock-step commit for it (R385). -/
structure Plain (s : State) (c slot : Nat) (t : Thread) : Prop where
  notStepped : t.stepping = none
  noCommit : ∀ L, (s.core c).lock = some L → L.after.contains slot = false

/-- A thread past an instruction of `len` bytes: its pc stands behind it, and the instruction's address and word
are kept (R16, R61). -/
def past (i : Instr) (len : Nat) (t : Thread) : Thread :=
  { t with ipc := t.pc, iword := encode32 i, pc := t.pc + BitVec.ofNat 64 len }

/-- R16, R61, R385: the state an instruction's own effect starts from: a lock-step pair has committed where the
instruction asks for it, and the thread stands past the instruction. -/
def atIssue (i : Instr) (d : Desc) (s : State) (c slot : Nat) (t : Thread) : State :=
  let s := s.setThread c slot (reading i t)
  settleCore ((if d.commit (reading i t) then commitBefore s c slot else s).setThread c slot
    (issued (reading i t) (encode32 i) d.len)) c slot

/-! ## What an instruction leaves alone -/

/-- `s'` is `s` but for the thread in one slot, which is now `t'`, what the register cache of its core holds
(R20), and with it a request for fills that may look again. Every other thread, register, status and memory is
as before. -/
structure Becomes (s s' : State) (c slot : Nat) (t' : Thread) : Prop where
  thread : s'.thread? c slot = some t'
  others : ∀ x, x ≠ slot → s'.thread? c x = s.thread? c x
  core : { s'.core c with threads := [], rc := [] } = { s.core c with threads := [], rc := [] }
  cores : ∀ x, x ≠ c → s'.core x = s.core x
  rest : { s' with cores := [], agenda := [], free := 0 } = { s with cores := [], agenda := [], free := 0 }
  events : s'.agenda = s.agenda ∨ s'.agenda = s.agenda ++ [.registerFillAdmit c]

/-- When instruction `i`, which names what `d` says, issues, it is complete in its turn: the machine goes on
with the thread past it and changed by `f`, and with nothing else changed. -/
def Computes (i : Instr) (d : Desc) (f : Thread → Thread) : Prop :=
  ∀ s c slot t, Issues d s c slot t → Plain s c slot t →
    ∃ s', exec i s = .next s' ∧ Becomes s s' c slot (f (past i d.len t))

/-- The same, when the thread meets a condition. -/
def ComputesIf (i : Instr) (d : Desc) (p : Thread → Prop) (f : Thread → Thread) : Prop :=
  ∀ s c slot t, p t → Issues d s c slot t → Plain s c slot t →
    ∃ s', exec i s = .next s' ∧ Becomes s s' c slot (f (past i d.len t))

/-- R26: the instruction faults: it has no effect, and its thread is left as taking the fault leaves it. -/
def FaultsWith (i : Instr) (d : Desc) (s : State) (c slot : Nat) (t : Thread) (f : FaultInfo) : Prop :=
  exec i s = .next (takeFault (atIssue i d s c slot t) c slot f)

/-- R18, R62: the turn of an instruction whose guard is false: its registers are below the declared counts, and the
predicate word is present and not poisoned. -/
structure Skips (d : Desc) (s : State) (c slot : Nat) (t : Thread) : Prop where
  turn : current s = some (c, slot, t)
  gLimit : ∀ r ∈ d.g, r < t.n
  vLimit : ∀ r ∈ d.v, r < t.m
  zLimit : ∀ r ∈ d.z, r < t.zc
  guarded : d.guard ≠ 0#3
  here : absent (s.core c) t slot 0 = false
  clean : t.poison.contains 128 = false
  off : t.p d.guard.toNat = false

/-- R62: with a false guard the instruction only moves the thread past it. -/
def SkippedWhenOff (i : Instr) (d : Desc) : Prop :=
  ∀ s c slot t, Skips d s c slot t → Plain s c slot t →
    ∃ s', exec i s = .next s' ∧ Becomes s s' c slot (past i d.len t)

/-- R63: a fault found before the instruction issues; its thread has not moved. -/
def FaultsEarly (i : Instr) (s : State) (c slot : Nat) (t : Thread) (f : FaultInfo) : Prop :=
  exec i s = .next (takeFault (s.setThread c slot (reading i t)) c slot f)

/-! ## What the formats name (R64, R79), and results written in a register -/

/-- d := g[a], g[b]. -/
def dRRR (g : BitVec 3) (d a b : BitVec 7) : Desc :=
  { guard := g, g := [d.toNat, a.toNat, b.toNat], reads := [a.toNat, b.toNat], writes := [d.toNat] }

/-- d := g[a]. -/
def dRR (g : BitVec 3) (d a : BitVec 7) : Desc :=
  { guard := g, g := [d.toNat, a.toNat], reads := [a.toNat], writes := [d.toNat] }

/-- d := g[d], g[a], g[b]. -/
def dDRR (g : BitVec 3) (d a b : BitVec 7) : Desc :=
  { guard := g, g := [d.toNat, a.toNat, b.toNat], reads := [d.toNat, a.toNat, b.toNat],
    writes := [d.toNat] }

/-- g[a], g[b], and no register written. -/
def dSrc2 (g : BitVec 3) (a b : BitVec 7) : Desc :=
  { guard := g, g := [a.toNat, b.toNat], reads := [a.toNat, b.toNat] }

/-- g[a], and no register written. -/
def dSrc (g : BitVec 3) (a : BitVec 7) : Desc := { guard := g, g := [a.toNat], reads := [a.toNat] }

/-- vd := va, vb. -/
def dVVV (g : BitVec 3) (d a b : BitVec 6) : Desc :=
  { guard := g, v := [d.toNat, a.toNat, b.toNat], vreads := [a.toNat, b.toNat], vwrites := [d.toNat] }

/-- vd := va. -/
def dVV (g : BitVec 3) (d a : BitVec 6) : Desc :=
  { guard := g, v := [d.toNat, a.toNat], vreads := [a.toNat], vwrites := [d.toNat] }

/-- vd := vd, va, vb. -/
def dDVV (g : BitVec 3) (d a b : BitVec 6) : Desc :=
  { guard := g, v := [d.toNat, a.toNat, b.toNat], vreads := [d.toNat, a.toNat, b.toNat],
    vwrites := [d.toNat] }

/-- R-format instructions that write v (g[a], g[b]) to g[d], and change nothing else. -/
def GivesRRR (mk : BitVec 3 → BitVec 7 → BitVec 7 → BitVec 7 → Instr) (v : Word → Word → Word) : Prop :=
  ∀ g d a b, Computes (mk g d a b) (dRRR g d a b)
    (fun t => t.setG d.toNat (v (t.gv a.toNat) (t.gv b.toNat)))

/-- R-format instructions that write v (g[a]) to g[d]. -/
def GivesRR (mk : BitVec 3 → BitVec 7 → BitVec 7 → Instr) (v : Word → Word) : Prop :=
  ∀ g d a, Computes (mk g d a) (dRR g d a) (fun t => t.setG d.toNat (v (t.gv a.toNat)))

/-- Instructions with an immediate that write v (g[a], imm) to g[d]. -/
def GivesImm {n : Nat} (mk : BitVec 3 → BitVec 7 → BitVec 7 → BitVec n → Instr) (v : Word → BitVec n → Word) :
    Prop :=
  ∀ g d a i, Computes (mk g d a i) (dRR g d a) (fun t => t.setG d.toNat (v (t.gv a.toNat) i))

/-- R39: flags ORed into FPFLG. -/
def withFlags (t : Thread) (fl : BitVec 5) : Thread := { t with fpflg := t.fpflg ||| fl.zeroExtend 64 }

/-- One predicate written (R91). -/
def withP (t : Thread) (k : Nat) (b : Bool) : Thread :=
  t.setPw (if b then t.pwv ||| (1#8 <<< k) else t.pwv &&& ~~~(1#8 <<< k))

/-- Floating-point instructions that write a result to g[d] and OR its flags into FPFLG (R98, R99). -/
def GivesF2 (mk : BitVec 3 → BitVec 7 → BitVec 7 → BitVec 7 → Instr) (f : FFmt)
    (op : Word → Nat → Nat → Nat × BitVec 5) : Prop :=
  ∀ g d a b, Computes (mk g d a b) (dRRR g d a b) (fun t =>
    let r := op t.fpctl ((t.gv a.toNat).toNat % 2 ^ f.width) ((t.gv b.toNat).toNat % 2 ^ f.width)
    (withFlags t r.2).setG d.toNat (BitVec.ofNat 64 r.1))

/-- vd[l] := f (va[l], vb[l]) in each of the 16 lanes (R138). -/
def GivesV2 (mk : BitVec 3 → BitVec 6 → BitVec 6 → BitVec 6 → Instr)
    (f : BitVec 32 → BitVec 32 → BitVec 32) : Prop :=
  ∀ g d a b, Computes (mk g d a b) (dVVV g d a b) (fun t =>
    t.setV d.toNat (ofLanes ((List.range 16).map (fun l => f (lane (t.vv a.toNat) l) (lane (t.vv b.toNat) l)))))

/-- vd[l] := f (va[l]) in each of the 16 lanes (R138). -/
def GivesV1 (mk : BitVec 3 → BitVec 6 → BitVec 6 → Instr) (f : BitVec 32 → BitVec 32) : Prop :=
  ∀ g d a, Computes (mk g d a) (dVV g d a) (fun t =>
    t.setV d.toNat (ofLanes ((List.range 16).map (fun l => f (lane (t.vv a.toNat) l)))))

/-- vd[e] := op (va[e], vb[e]) in each element of a format, the flags of all elements ORed into FPFLG (R136,
R140). -/
def GivesVf2 (mk : BitVec 3 → BitVec 6 → BitVec 6 → BitVec 6 → Instr) (f : FFmt)
    (op : Word → Nat → Nat → Nat × BitVec 5) : Prop :=
  ∀ g d a b, Computes (mk g d a b) (dVVV g d a b) (fun t =>
    let r := vf2 f (op t.fpctl) (t.vv a.toNat) (t.vv b.toNat)
    (withFlags t r.2).setV d.toNat r.1)

/-- The same where vd is a source too. -/
def GivesVf3 (mk : BitVec 3 → BitVec 6 → BitVec 6 → BitVec 6 → Instr) (f : FFmt)
    (op : Word → Nat → Nat → Nat → Nat × BitVec 5) : Prop :=
  ∀ g d a b, Computes (mk g d a b) (dDVV g d a b) (fun t =>
    let r := vf3 f (op t.fpctl) (t.vv d.toNat) (t.vv a.toNat) (t.vv b.toNat)
    (withFlags t r.2).setV d.toNat r.1)

/-! ## Other forms of result -/

/-- A stream instruction that passes its checks and whose unit is in service (R183, R185, R380): it takes the unit
for `time` cycles after those before it; when it is done within 16 cycles it completes in its turn, and otherwise
its thread leaves the rotation until then, with what it will write. -/
def ComputesZ (i : Instr) (d : Desc) (p : Thread → Prop) (time : Thread → Nat) (w : Thread → List RegWrite)
    (f : Thread → Thread) : Prop :=
  ∀ s c slot t e, p t → Issues d s c slot t → (s.core c).fencedFns.getLsbD 4 = false →
    e = max (s.core c).cyc (s.core c).ssuBusy + time t →
    (e ≤ (s.core c).cyc + 16 → Plain s c slot t →
      ∃ s', exec i s = .next s' ∧ Becomes (s.modCore c (fun k => { k with ssuBusy := e })) s' c slot (f (past i 4 t))) ∧
    ((s.core c).cyc + 16 < e →
      exec i s = .next (beginWait ((atIssue i d s c slot t).modCore c (fun k => { k with ssuBusy := e })) c slot
        .waiting (.ssu e (w t))))

/-- GETS of a selector writes this value to g[d] and changes nothing else (R24, R204). -/
def GetsGives (sel : BitVec 9) (v : State → Nat → Nat → Thread → Word) : Prop :=
  ∀ g d s c slot t, Issues { guard := g, g := [d.toNat], writes := [d.toNat] } s c slot t → Plain s c slot t →
    ∃ s', exec (.gets g d sel) s = .next s' ∧
      Becomes s s' c slot ((past (.gets g d sel) 4 t).setG d.toNat (v s c slot t))

/-- SETS of a selector, of a value it takes, changes the thread so (R24, R204). -/
def SetsWrites (sel : BitVec 9) (ok : Word → Prop) (f : Thread → Word → Thread) : Prop :=
  ∀ g a, ComputesIf (.sets g a sel) (dSrc g a) (fun t => ok (t.gv a.toNat)) (fun t => f t (t.gv a.toNat))

/-! ## Accesses to the own scratchpad -/

/-- No watch, no wait, no release of a waiter that is due and no earlier relaxed access concerns the core's scratchpad,
and the core is not paired. -/
structure Calm (s : State) (c : Nat) (t : Thread) : Prop where
  unpaired : (s.core c).lock = none
  relaxed : t.relaxed = []
  watches : ∀ w ∈ s.watches, ∀ off, w.place ≠ .spad c off
  due : ∀ w, Event.feWaiterRelease c w ∉ s.agenda

/-- `n` bytes at an own-scratchpad address, aligned and not below XB (R105, R107). -/
structure Own (s : State) (c : Nat) (va : Word) (n : Nat) : Prop where
  own : va.toNat < 0x20000
  aligned : va.toNat % n = 0
  data : (s.core c).xb ≤ va.toNat

/-- No scratchpad word that holds one of the bytes is poisoned (R375). -/
def Unpoisoned (k : Core) (off n : Nat) : Prop := ∀ w ∈ k.poisonW, w < off / 8 ∨ (off + n - 1) / 8 < w

/-- A byte after pieces have been written in order: that of the last piece that covers it. -/
def readAfter (m : Mem) (ws : List (Nat × List Byte)) (a : Nat) : Byte :=
  match ws.reverse.find? (fun p => decide (p.1 ≤ a) && decide (a < p.1 + p.2.length)) with
  | some p => p.2.getD (a - p.1) 0#8
  | none => Mem.read m a

/-- `s'` is `s` but for the thread in one slot, the register cache of its core, the pieces `ws` written in order in
the core's scratchpad with the marks of the words they cover wholly, and the full bits, which are now `full`. -/
structure Alters (s s' : State) (c slot : Nat) (t' : Thread) (ws : List (Nat × List Byte)) (full : List Nat) :
    Prop where
  thread : s'.thread? c slot = some t'
  others : ∀ x, x ≠ slot → s'.thread? c x = s.thread? c x
  memory : ∀ a, Mem.read (s'.core c).spad a = readAfter (s.core c).spad ws a
  poison : ∀ w, w ∈ (s'.core c).poisonW ↔
    w ∈ (s.core c).poisonW ∧ ∀ p ∈ ws, ¬(p.1 ≤ 8 * w ∧ 8 * w + 8 ≤ p.1 + p.2.length)
  full : (s'.core c).full = full
  core : { s'.core c with threads := [], rc := [], spad := [], poisonW := [], full := [] } =
    { s.core c with threads := [], rc := [], spad := [], poisonW := [], full := [] }
  cores : ∀ x, x ≠ c → s'.core x = s.core x
  rest : { s' with cores := [], agenda := [], free := 0 } = { s with cores := [], agenda := [], free := 0 }
  events : s'.agenda = s.agenda ∨ s'.agenda = s.agenda ++ [.registerFillAdmit c]

/-- A store: the full bits stay. -/
def Stores (s s' : State) (c slot : Nat) (t' : Thread) (ws : List (Nat × List Byte)) : Prop :=
  Alters s s' c slot t' ws (s.core c).full

/-- An M-format load of `n` bytes from the own scratchpad writes `v` of them to g[d] (R109). -/
def LoadsOwn (mk : BitVec 3 → BitVec 7 → BitVec 7 → BitVec 8 → BitVec 1 → Instr) (n : Nat)
    (v : List Byte → Word) : Prop :=
  ∀ g d a o r s c slot t ea, ea = t.gv a.toNat + o.signExtend 64 * BitVec.ofNat 64 n →
    Issues { guard := g, g := [d.toNat, a.toNat], reads := [a.toNat], writes := [d.toNat] } s c slot t →
    Plain s c slot t → Calm s c t → Own s c ea n → Unpoisoned (s.core c) ea.toNat n →
    ∃ s', exec (mk g d a o r) s = .next s' ∧ Becomes s s' c slot
      ((past (mk g d a o r) 4 t).setG d.toNat (v (Mem.readN (s.core c).spad ea.toNat n)))

/-- An M-format store writes the `n` low bytes of g[d] in the own scratchpad, and nothing else (R109). -/
def StoresOwn (mk : BitVec 3 → BitVec 7 → BitVec 7 → BitVec 8 → BitVec 1 → Instr) (n : Nat) : Prop :=
  ∀ g d a o r s c slot t ea, ea = t.gv a.toNat + o.signExtend 64 * BitVec.ofNat 64 n →
    Issues { guard := g, g := [d.toNat, a.toNat], reads := [d.toNat, a.toNat] } s c slot t →
    Plain s c slot t → Calm s c t → Own s c ea n → (s.core c).spad.wf = true →
    ∃ s', exec (mk g d a o r) s = .next s' ∧
      Stores s s' c slot (past (mk g d a o r) 4 t) [(ea.toNat, leBytes (t.gv d.toNat).toNat n)]

/-- What LDQ, STQ and ACASQ name as the pair of a field (R110). -/
def lowOf (d : BitVec 7) : Nat := d.toNat / 2 * 2
def highOf (d : BitVec 7) : Nat := d.toNat / 2 * 2 + 1

/-- An atomic on the own scratchpad reads the word, writes `op` of it and g[b], and puts the old word in g[d]
(R118). -/
def AtomicOwn (mk : BitVec 3 → BitVec 7 → BitVec 7 → BitVec 7 → Instr) (op : Word → Word → Word) : Prop :=
  ∀ g d a b s c slot t ea old, ea = t.gv a.toNat → old = leWord (Mem.readN (s.core c).spad ea.toNat 8) →
    Issues { dRRR g d a b with drain := true } s c slot t →
    Plain s c slot t → Calm s c t → Own s c ea 8 → Unpoisoned (s.core c) ea.toNat 8 →
    (s.core c).spad.wf = true →
    ∃ s', exec (mk g d a b) s = .next s' ∧ Stores s s' c slot ((past (mk g d a b) 4 t).setG d.toNat old)
      [(ea.toNat, wordBytes (op old (t.gv b.toNat)))]

/-! ## Waiting -/

/-- The instruction has issued and its thread has left the rotation, in the state `code` and with `w` to wait for
(R10, R16); the watches are now `ws`, and nothing else has changed but the register cache. -/
structure Left (i : Instr) (s s' : State) (c slot : Nat) (t : Thread) (code : TCode) (w : Wait) (ws : List Watch) :
    Prop where
  thread : s'.thread? c slot =
    some { past i 4 t with code := code, wait := w, sleepFor := 0, since := (s.core c).cyc }
  others : ∀ x, x ≠ slot → s'.thread? c x = s.thread? c x
  rot : (s'.core c).rot = (s.core c).rot.filter (fun x => x.2 != slot)
  core : { s'.core c with threads := [], rc := [], rot := [], ready := [] } =
    { s.core c with threads := [], rc := [], rot := [], ready := [] }
  cores : ∀ x, x ≠ c → s'.core x = s.core x
  watches : s'.watches = ws
  rest : { s' with cores := [], agenda := [], free := 0, watches := [] } =
    { s with cores := [], agenda := [], free := 0, watches := [] }

/-- R11, R15: the wait of the thread in a slot is over, and it is READY in the core's present cycle. -/
structure Resumed (s' : State) (c slot : Nat) (t : Thread) : Prop where
  thread : s'.thread? c slot = some { t with code := .ready, wait := .idle, slept := false, sleepFor := 0 }
  queued : (slot, (s'.core c).cyc) ∈ (s'.core c).ready

/-- The thread in a slot waits or sleeps, in the wait `w`, holds a context, and is not being stepped. -/
structure Waits (s : State) (c slot : Nat) (t : Thread) (w : Wait) : Prop where
  thread : s.thread? c slot = some t
  wait : t.wait = w
  code : t.code = .waiting ∨ t.code = .sleeping
  notStepped : t.stepping = none
  here : t.away = false

/-- `s'` is `s` but for one core, the events to come, and the free values used. -/
structure CoreOnly (s s' : State) (c : Nat) : Prop where
  cores : ∀ x, x ≠ c → s'.core x = s.core x
  rest : { s' with cores := [], agenda := [], free := 0 } = { s with cores := [], agenda := [], free := 0 }

/-- R346: no act of an event waits in the queue of a line. -/
def NoAct (s : State) (e : Event) : Prop := ∀ x ∈ s.dir, ∀ m ∈ x.2.queue, m.event ≠ some e

/-- R346: an act of an event, one that writes or one that reads, has its turn at a place at once: no act of it waits
anywhere, and no request waits at the line of the place, whose state holds no such act. -/
structure InTurn (s : State) (e : Event) (p : Place) (write : Bool) : Prop where
  noAct : NoAct s e
  noQueue : ∀ pkg pa, p = .page .coherent pkg pa → (dirOf s (pa / 64)).queue = []
  notHeld : ∀ pkg pa, p = .page .coherent pkg pa → actHeld (dirOf s (pa / 64)) write = false

/-- Nothing waits for an entry of a watch store (R116, R130, R304), and no directory entry that should be free is kept
(R342). -/
def NoEntryWaits (s : State) : Prop :=
  s.entryWait = [] ∧ (∀ x ∈ s.launches, x.2.entered = false) ∧ ∀ x ∈ s.dir, keepsEntry s x.1 x.2 = true

/-- R344: the message `m`, one that `p` picks, is the next of its path; it is taken, and `u` is left. -/
def Arrives (p : Msg → Bool) (s : State) (m : Msg) (u : State) : Prop :=
  ∃ ms, takeMsg p [] s.msgs = some (m, ms) ∧ u = { s with msgs := ms }

/-- R342: a line has a directory entry, or its slice has a free one. -/
def EntryRoom (s : State) (line : Nat) : Prop :=
  Map.has s.dir line = true ∨ (s.dir.filter (fun x =>
    homeDie (64 * x.1) = homeDie (64 * line) && sliceOf (64 * x.1) = sliceOf (64 * line))).length < 65536

/-- A core's L1 does not hold a line, and has a free way for it. -/
def L1Room (s : State) (c key : Nat) : Prop :=
  Map.get? (s.core c).l1 key = none ∧ count (fun x => x.1 % 256 = key % 256) (s.core c).l1 < ones (s.core c).ways

/-- What a tile command names: g[cpl], g[val], g[ms] and the registers of its payload, which are all read (R153). -/
def dTile (g : BitVec 3) (regs : List (BitVec 7)) : Desc :=
  { guard := g, len := 32, g := regs.map (·.toNat), reads := regs.map (·.toNat), drain := true,
    commit := fun _ => true }

/-- R153: a tile command that names `rest x` beside its completion is recorded for its engine, with the registers as
they are read; its thread stands 32 bytes on and waits for the engine, which is to look at it. -/
def SendsCommand {α : Type} (mk : BitVec 3 → Cpl → α → Instr) (rest : α → List (BitVec 7)) (leaf : Bool) : Prop :=
  ∀ g w x s c slot t regs U id, regs = [w.cpl, w.val, w.ms] ++ rest x → Issues (dTile g regs) s c slot t →
    t.stepping = none → U = atIssue (mk g w x) (dTile g regs) s c slot t → id = U.fresh →
    ∃ s' cmd, exec (mk g w x) s = .next s' ∧ .engineAccept id ∈ s'.agenda ∧ Map.get? s'.cmds id = some cmd ∧
      cmd.instr = mk g w x ∧ (∀ r ∈ regs, cmd.reg r = t.gv r.toNat) ∧ cmd.thread = ⟨c, slot⟩ ∧ cmd.core = c ∧
      cmd.gid = t.gid ∧ cmd.lid = t.lid ∧ cmd.part = t.part ∧ cmd.proc = t.proc ∧ cmd.geom0 = t.geom0 ∧
      cmd.geom1 = t.geom1 ∧ cmd.agent = (if leaf then 0xD00 + coreLeaf U c else 0xE00 + coreCluster c) ∧
      cmd.accepted = false ∧ cmd.stopped = false ∧ (∀ x, x ≠ id → Map.get? s'.cmds x = Map.get? U.cmds x) ∧
      s'.thread? c slot = some { past (mk g w x) 32 t with
        code := .waiting, wait := .tile id, sleepFor := 0, since := (U.core c).cyc }

end Sys2Proof
end

