-- ==== Sys2Proof/Certificates/Slice0/Obligations.lean ====
section
/-!
DEFINITION. Certificates/Slice0/Obligations.lean: the statements, from the rules of the spec file by file.
-/
open Sys2Proof Sys2Proof.Machine

/-! ## Integer, predicate and control instructions -/

/-- R83: each logical, shift, rotate, compare-select and bit-count instruction that issues completes in its
turn; it writes this value to g[d] and changes nothing else. -/
def Obligations.IntegerInstructionsWriteTheirResult : Prop :=
  GivesRRR .add (fun x y => x + y) ∧ GivesRRR .sub (fun x y => x - y) ∧
  GivesRRR .and (fun x y => x &&& y) ∧ GivesRRR .or (fun x y => x ||| y) ∧
  GivesRRR .xor (fun x y => x ^^^ y) ∧ GivesRRR .andn (fun x y => x &&& ~~~y) ∧
  GivesRRR .shl (fun x y => x <<< (y.toNat % 64)) ∧ GivesRRR .shr (fun x y => x >>> (y.toNat % 64)) ∧
  GivesRRR .sra (fun x y => x.sshiftRight (y.toNat % 64)) ∧
  GivesRRR .rotl (fun x y => (x <<< (y.toNat % 64)) ||| (x >>> (64 - y.toNat % 64))) ∧
  GivesRRR .mins (fun x y => if x.toInt ≤ y.toInt then x else y) ∧
  GivesRRR .maxs (fun x y => if x.toInt ≤ y.toInt then y else x) ∧
  GivesRRR .minu (fun x y => if x.toNat ≤ y.toNat then x else y) ∧
  GivesRRR .maxu (fun x y => if x.toNat ≤ y.toNat then y else x) ∧
  GivesRR .clz (fun x => BitVec.ofNat 64 (((List.range 64).takeWhile (fun i => !x.getLsbD (63 - i))).length)) ∧
  GivesRR .ctz (fun x => BitVec.ofNat 64 (((List.range 64).takeWhile (fun i => !x.getLsbD i)).length)) ∧
  GivesRR .popc (fun x => BitVec.ofNat 64 ((List.range 64).countP (fun i => x.getLsbD i))) ∧
  GivesRR .brev (fun x => x.reverse) ∧
  GivesRR .bswap (fun x => x.extractLsb' 0 8 ++ x.extractLsb' 8 8 ++ x.extractLsb' 16 8 ++ x.extractLsb' 24 8 ++
    x.extractLsb' 32 8 ++ x.extractLsb' 40 8 ++ x.extractLsb' 48 8 ++ x.extractLsb' 56 8)

/-- R84, R85: the multiplies deliver one half of the exact product; the divides round towards zero, divide by
zero to all ones and the dividend, and −2^63 by −1 to −2^63 and 0. -/
def Obligations.MultipliesAndDividesWriteTheirResult : Prop :=
  GivesRRR .mul (fun x y => (x.setWidth 128 * y.setWidth 128).extractLsb' 0 64) ∧
  GivesRRR .mulhs (fun x y => (x.signExtend 128 * y.signExtend 128).extractLsb' 64 64) ∧
  GivesRRR .mulhu (fun x y => (x.setWidth 128 * y.setWidth 128).extractLsb' 64 64) ∧
  GivesRRR .mulhsu (fun x y => (x.signExtend 128 * y.setWidth 128).extractLsb' 64 64) ∧
  GivesRRR .divs (fun x y => if y = 0#64 then BitVec.allOnes 64 else x.sdiv y) ∧
  GivesRRR .divu (fun x y => if y = 0#64 then BitVec.allOnes 64 else x / y) ∧
  GivesRRR .rems (fun x y => if y = 0#64 then x else x.srem y) ∧
  GivesRRR .remu (fun x y => if y = 0#64 then x else x % y)

/-- R86, R87: the scaled adds, and the bit field of g[b]'s lowest bit and width extracted or inserted. -/
def Obligations.ScaledAddsAndFieldsWriteTheirResult : Prop :=
  GivesRRR .shadd1 (fun x y => x * 2#64 + y) ∧ GivesRRR .shadd2 (fun x y => x * 4#64 + y) ∧
  GivesRRR .shadd3 (fun x y => x * 8#64 + y) ∧ GivesRRR .shadd4 (fun x y => x * 16#64 + y) ∧
  GivesRRR .bext (fun x b => (x >>> (b.toNat % 64)) &&&
    BitVec.ofNat 64 (2 ^ ((b.extractLsb' 8 6).toNat + 1) - 1)) ∧
  ∀ g d a b, Computes (.bins g d a b) (dDRR g d a b) (fun t =>
    let lo := (t.gv b.toNat).toNat % 64
    let m : Word := BitVec.ofNat 64 (2 ^ (((t.gv b.toNat).extractLsb' 8 6).toNat + 1) - 1)
    t.setG d.toNat ((t.gv d.toNat &&& ~~~(m <<< lo)) ||| ((t.gv a.toNat &&& m) <<< lo)))

/-- R88, R89, R90: the immediate forms; LI writes its sign-extended immediate, and LIS shifts its own register. -/
def Obligations.ImmediateInstructionsWriteTheirResult : Prop :=
  GivesImm .addi (fun x i => x + i.signExtend 64) ∧ GivesImm .andi (fun x i => x &&& i.signExtend 64) ∧
  GivesImm .ori (fun x i => x ||| i.signExtend 64) ∧ GivesImm .xori (fun x i => x ^^^ i.signExtend 64) ∧
  GivesImm .shli (fun x n => x <<< n.toNat) ∧ GivesImm .shri (fun x n => x >>> n.toNat) ∧
  GivesImm .srai (fun x n => x.sshiftRight n.toNat) ∧
  GivesImm .rotli (fun x n => (x <<< n.toNat) ||| (x >>> (64 - n.toNat))) ∧
  (∀ g d i, Computes (.li g d i) { guard := g, g := [d.toNat], writes := [d.toNat] }
    (fun t => t.setG d.toNat (i.signExtend 64))) ∧
  ∀ g d i, Computes (.lis g d i) { guard := g, g := [d.toNat], reads := [d.toNat], writes := [d.toNat] }
    (fun t => t.setG d.toNat ((t.gv d.toNat <<< 16) ||| i.setWidth 64))

/-- R91, R92, R93: the compares and PLOG write one predicate, and PGET and PSET move the predicate word. -/
def Obligations.PredicateInstructionsWriteTheirResult : Prop :=
  (∀ g p a b (x y : Thread → Word), x = (fun t => t.gv a.toNat) → y = (fun t => t.gv b.toNat) →
    Computes (.cmpReg g p 0#3 a b) (dSrc2 g a b) (fun t => withP t p.toNat (decide (x t = y t))) ∧
    Computes (.cmpReg g p 1#3 a b) (dSrc2 g a b) (fun t => withP t p.toNat (decide (x t ≠ y t))) ∧
    Computes (.cmpReg g p 2#3 a b) (dSrc2 g a b) (fun t => withP t p.toNat ((x t).slt (y t))) ∧
    Computes (.cmpReg g p 3#3 a b) (dSrc2 g a b) (fun t => withP t p.toNat ((y t).sle (x t))) ∧
    Computes (.cmpReg g p 4#3 a b) (dSrc2 g a b) (fun t => withP t p.toNat ((x t).ult (y t))) ∧
    Computes (.cmpReg g p 5#3 a b) (dSrc2 g a b) (fun t => withP t p.toNat ((y t).ule (x t))) ∧
    Computes (.cmpReg g p 6#3 a b) (dSrc2 g a b)
      (fun t => withP t p.toNat ((x t).getLsbD ((y t).toNat % 64))) ∧
    Computes (.cmpReg g p 7#3 a b) (dSrc2 g a b)
      (fun t => withP t p.toNat (!(x t).getLsbD ((y t).toNat % 64)))) ∧
  (∀ g p a (i : BitVec 9) (x : Thread → Word) (y : Word), x = (fun t => t.gv a.toNat) → y = i.signExtend 64 →
    Computes (.cmpImm g p 0#3 a i) (dSrc g a) (fun t => withP t p.toNat (decide (x t = y))) ∧
    Computes (.cmpImm g p 1#3 a i) (dSrc g a) (fun t => withP t p.toNat (decide (x t ≠ y))) ∧
    Computes (.cmpImm g p 2#3 a i) (dSrc g a) (fun t => withP t p.toNat ((x t).slt y)) ∧
    Computes (.cmpImm g p 3#3 a i) (dSrc g a) (fun t => withP t p.toNat (y.sle (x t))) ∧
    Computes (.cmpImm g p 4#3 a i) (dSrc g a) (fun t => withP t p.toNat ((x t).ult y)) ∧
    Computes (.cmpImm g p 5#3 a i) (dSrc g a) (fun t => withP t p.toNat (y.ule (x t))) ∧
    Computes (.cmpImm g p 6#3 a i) (dSrc g a) (fun t => withP t p.toNat ((x t).getLsbD (y.toNat % 64))) ∧
    Computes (.cmpImm g p 7#3 a i) (dSrc g a) (fun t => withP t p.toNat (!(x t).getLsbD (y.toNat % 64)))) ∧
  (∀ g p x y,
    Computes (.plog g p x y 0#2) { guard := g, pw := true } (fun t => withP t p.toNat (t.p x.toNat && t.p y.toNat)) ∧
    Computes (.plog g p x y 1#2) { guard := g, pw := true } (fun t => withP t p.toNat (t.p x.toNat || t.p y.toNat)) ∧
    Computes (.plog g p x y 2#2) { guard := g, pw := true }
      (fun t => withP t p.toNat (t.p x.toNat ^^ t.p y.toNat)) ∧
    Computes (.plog g p x y 3#2) { guard := g, pw := true }
      (fun t => withP t p.toNat (t.p x.toNat && !t.p y.toNat))) ∧
  (∀ g d, Computes (.pget g d) { guard := g, g := [d.toNat], writes := [d.toNat], pw := true }
    (fun t => t.setG d.toNat (t.pwv.setWidth 64))) ∧
  ∀ g a, Computes (.pset g a) (dSrc g a) (fun t => t.setPw ((t.gv a.toNat).extractLsb' 0 8))

/-- R94, R95, R96: BR, JAL and JR set the pc and write the link; a JR whose target is no multiple of 4 takes MISALIGN,
with the target and 4 in the record, and g[d] and the pc keep their values. -/
def Obligations.ControlTransfersSetThePc : Prop :=
  ((∀ g o, Computes (.br g o) { guard := g } (fun t => { t with pc := t.ipc + o.signExtend 64 * 4#64 })) ∧
   (∀ g d i, Computes (.jal g d i) { guard := g, g := [d.toNat], writes := [d.toNat] }
     (fun t => { t.setG d.toNat (t.ipc + 4#64) with pc := t.ipc + i.signExtend 64 * 4#64 })) ∧
   ∀ g d a i, ComputesIf (.jr g d a i) (dRR g d a)
     (fun t => (t.gv a.toNat + i.signExtend 64 * 4#64).extractLsb' 0 2 = 0#2)
     (fun t => { t.setG d.toNat (t.ipc + 4#64) with pc := t.gv a.toNat + i.signExtend 64 * 4#64 })) ∧
  (∀ g d a (i : BitVec 9) s c slot t target, Issues (dRR g d a) s c slot t →
     target = t.gv a.toNat + i.signExtend 64 * 4#64 → target.extractLsb' 0 2 ≠ 0#2 →
     FaultsWith (.jr g d a i) (dRR g d a) s c slot t (mkFault fcMisalign target 4#64))


/-! ## Floating point -/

/-- R98, R100, R101: each scalar operation reads .D operands whole and .S operands from bits [31:0], writes its
result, and ORs its flags into FPFLG, the flags also when the destination is g0. -/
def Obligations.ScalarFloatingPointWritesResultAndFlags : Prop :=
  GivesF2 .faddD fp64 (fadd fp64) ∧ GivesF2 .fsubD fp64 (fsub fp64) ∧ GivesF2 .fmulD fp64 (fmul fp64) ∧
  GivesF2 .fdivD fp64 (fdiv fp64) ∧ GivesF2 .fminD fp64 (fun _ => fminmax fp64 false) ∧
  GivesF2 .fmaxD fp64 (fun _ => fminmax fp64 true) ∧
  GivesF2 .faddS fp32 (fadd fp32) ∧ GivesF2 .fsubS fp32 (fsub fp32) ∧ GivesF2 .fmulS fp32 (fmul fp32) ∧
  GivesF2 .fdivS fp32 (fdiv fp32) ∧ GivesF2 .fminS fp32 (fun _ => fminmax fp32 false) ∧
  GivesF2 .fmaxS fp32 (fun _ => fminmax fp32 true) ∧
  (∀ g d a, Computes (.fsqrtD g d a) (dRR g d a) (fun t =>
    let r := fsqrt fp64 t.fpctl (t.gv a.toNat).toNat
    (withFlags t r.2).setG d.toNat (BitVec.ofNat 64 r.1))) ∧
  (∀ g d a, Computes (.fsqrtS g d a) (dRR g d a) (fun t =>
    let r := fsqrt fp32 t.fpctl ((t.gv a.toNat).toNat % 2 ^ 32)
    (withFlags t r.2).setG d.toNat (BitVec.ofNat 64 r.1))) ∧
  (∀ g d a b, Computes (.fmaD g d a b) (dDRR g d a b) (fun t =>
    let r := ffma fp64 t.fpctl false (t.gv d.toNat).toNat (t.gv a.toNat).toNat (t.gv b.toNat).toNat
    (withFlags t r.2).setG d.toNat (BitVec.ofNat 64 r.1))) ∧
  (∀ g d a b, Computes (.fmsD g d a b) (dDRR g d a b) (fun t =>
    let r := ffma fp64 t.fpctl true (t.gv d.toNat).toNat (t.gv a.toNat).toNat (t.gv b.toNat).toNat
    (withFlags t r.2).setG d.toNat (BitVec.ofNat 64 r.1))) ∧
  (∀ g d a b, Computes (.fmaS g d a b) (dDRR g d a b) (fun t =>
    let r := ffma fp32 t.fpctl false ((t.gv d.toNat).toNat % 2 ^ 32) ((t.gv a.toNat).toNat % 2 ^ 32)
      ((t.gv b.toNat).toNat % 2 ^ 32)
    (withFlags t r.2).setG d.toNat (BitVec.ofNat 64 r.1))) ∧
  ∀ g d a b, Computes (.fmsS g d a b) (dDRR g d a b) (fun t =>
    let r := ffma fp32 t.fpctl true ((t.gv d.toNat).toNat % 2 ^ 32) ((t.gv a.toNat).toNat % 2 ^ 32)
      ((t.gv b.toNat).toNat % 2 ^ 32)
    (withFlags t r.2).setG d.toNat (BitVec.ofNat 64 r.1))

/-- R102, R103, R104: FCMP writes one predicate, in FP64 for conditions 0 to 3 and in FP32 for 4 to 7; FCLASS
sets the bit of each of its two classes; FCVT converts between the two formats its code names. -/
def Obligations.FloatCompareClassifyConvertWriteTheirResult : Prop :=
  (∀ g p c a b, Computes (.fcmp g p c a b) (dSrc2 g a b) (fun t =>
    let f := if c.toNat < 4 then fp64 else fp32
    let r := fcmp f (c.toNat % 4) ((t.gv a.toNat).toNat % 2 ^ f.width) ((t.gv b.toNat).toNat % 2 ^ f.width)
    withP (withFlags t r.2) p.toNat r.1)) ∧
  (∀ g d a, Computes (.fclass g d a) (dRR g d a) (fun t => t.setG d.toNat (BitVec.ofNat 64
    (2 ^ fclass fp64 (t.gv a.toNat).toNat + 2 ^ (16 + fclass fp32 ((t.gv a.toNat).toNat % 2 ^ 32)))))) ∧
  ∀ g d a c, Computes (.fcvt g d a c) (dRR g d a) (fun t =>
    let r := fcvtCode 64 (c.getLsbD 6) (c.extractLsb' 3 3).toNat (c.extractLsb' 0 3).toNat t.fpctl
      (t.gv a.toNat).toNat
    (withFlags t r.2).setG d.toNat (BitVec.ofNat 64 r.1))

/-- R35, R36, R100: a NaN operand is passed on, the first in precedence, quieted, with invalid for a signalling
one; and the invalid operations and the division by zero give the canonical NaN or a signed infinity. For FP64 and
FP32. -/
def Obligations.SpecialValuesOfFloatingPoint : Prop :=
  ∀ f ctl, f = fp64 ∨ f = fp32 →
    (∀ x y, (f.unpack x).isNan = true ∨ (f.unpack y).isNan = true →
      let q := if (f.unpack x).isNan then f.quiet x else f.quiet y
      let fl := if (f.unpack x).isSnan || (f.unpack y).isSnan then flInvalid else 0#5
      fadd f ctl x y = (q, fl) ∧ fsub f ctl x y = (q, fl) ∧ fmul f ctl x y = (q, fl) ∧ fdiv f ctl x y = (q, fl)) ∧
    (∀ x y a b, f.unpack x = .inf a → f.unpack y = .inf b → a ≠ b → fadd f ctl x y = (f.canon, flInvalid)) ∧
    (∀ x y a b, f.unpack x = .inf a → f.unpack y = .inf b → fdiv f ctl x y = (f.canon, flInvalid)) ∧
    (∀ x y a b e, f.unpack x = .inf a → f.unpack y = .fin b 0 e →
      fmul f ctl x y = (f.canon, flInvalid) ∧ fmul f ctl y x = (f.canon, flInvalid)) ∧
    (∀ x y a b m e k, f.unpack x = .fin a m e → f.unpack y = .fin b 0 k →
      fdiv f ctl x y = if m = 0 then (f.canon, flInvalid) else (f.infinity (a != b), flDivZero)) ∧
    (∀ x m e, f.unpack x = .fin true m e → m ≠ 0 → fsqrt f ctl x = (f.canon, flInvalid)) ∧
    ∀ z x y a b e, f.unpack x = .inf a → f.unpack y = .fin b 0 e →
      ffma f ctl false z x y = (if (f.unpack z).isNan then f.quiet z else f.canon, flInvalid)

/-- R37: a magnitude m × 2^e, rounded to a multiple of 2^q above e, is under RNE a nearest one, the even one of
two; under RTZ the greatest not above; under RUP and RDN the one next towards +∞ or −∞. -/
def Obligations.RoundingIsCorrect : Prop :=
  ∀ (neg : Bool) (m : Nat) (e q : Int) (k : Nat), q = e + k → 0 < k →
    (let r := (roundAt 0 neg m e q).1
     2 * r * 2 ^ k ≤ 2 * m + 2 ^ k ∧ 2 * m ≤ 2 * r * 2 ^ k + 2 ^ k ∧
       (2 * r * 2 ^ k = 2 * m + 2 ^ k ∨ 2 * m = 2 * r * 2 ^ k + 2 ^ k → r % 2 = 0)) ∧
    (let r := (roundAt 1 neg m e q).1
     r * 2 ^ k ≤ m ∧ m < (r + 1) * 2 ^ k) ∧
    (let r := (roundAt 2 neg m e q).1
     if neg then r * 2 ^ k ≤ m ∧ m < (r + 1) * 2 ^ k else m ≤ r * 2 ^ k ∧ r * 2 ^ k < m + 2 ^ k) ∧
    (let r := (roundAt 3 neg m e q).1
     if neg then m ≤ r * 2 ^ k ∧ r * 2 ^ k < m + 2 ^ k else r * 2 ^ k ≤ m ∧ m < (r + 1) * 2 ^ k) ∧
    (∀ mode, (roundAt mode neg m e q).2 = decide (m % 2 ^ k ≠ 0))

/-- R46: the minimum and the maximum; −0 orders below +0, and a single NaN operand gives way to the other. -/
def Obligations.MinimumAndMaximum : Prop :=
  ∀ f x y, f = fp64 ∨ f = fp32 →
    ((f.unpack x).isNan = true → (f.unpack y).isNan = true → ∀ hi, (fminmax f hi x y).1 = f.canon) ∧
    ((f.unpack x).isNan = true → (f.unpack y).isNan = false → ∀ hi, (fminmax f hi x y).1 = y) ∧
    ((f.unpack x).isNan = false → (f.unpack y).isNan = true → ∀ hi, (fminmax f hi x y).1 = x) ∧
    ((f.unpack x).isNan = false → (f.unpack y).isNan = false →
      f.key (fminmax f false x y).1 = min (f.key x) (f.key y) ∧
      f.key (fminmax f true x y).1 = max (f.key x) (f.key y)) ∧
    (∀ hi, (fminmax f hi x y).2 = if (f.unpack x).isSnan || (f.unpack y).isSnan then flInvalid else 0#5) ∧
    f.key (f.signBit true) < f.key 0

/-! ## Vectors -/

/-- R138, R139: each integer lane instruction writes every lane of vd; VSEL picks a lane by bit 31 of vd's, and
VSHUF by the low four bits of vb's. -/
def Obligations.VectorIntegerWritesEveryLane : Prop :=
  GivesV2 .vadd (fun x y => x + y) ∧ GivesV2 .vsub (fun x y => x - y) ∧ GivesV2 .vmul (fun x y => x * y) ∧
  GivesV2 .vmulhs (fun x y => (x.signExtend 64 * y.signExtend 64).extractLsb' 32 32) ∧
  GivesV2 .vmulhu (fun x y => (x.setWidth 64 * y.setWidth 64).extractLsb' 32 32) ∧
  GivesV2 .vand (fun x y => x &&& y) ∧ GivesV2 .vor (fun x y => x ||| y) ∧ GivesV2 .vxor (fun x y => x ^^^ y) ∧
  GivesV2 .vandn (fun x y => x &&& ~~~y) ∧ GivesV2 .vshl (fun x y => x <<< (y.toNat % 32)) ∧
  GivesV2 .vshr (fun x y => x >>> (y.toNat % 32)) ∧ GivesV2 .vsra (fun x y => x.sshiftRight (y.toNat % 32)) ∧
  GivesV2 .vmins (fun x y => if x.toInt ≤ y.toInt then x else y) ∧
  GivesV2 .vmaxs (fun x y => if x.toInt ≤ y.toInt then y else x) ∧
  GivesV2 .vminu (fun x y => if x.toNat ≤ y.toNat then x else y) ∧
  GivesV2 .vmaxu (fun x y => if x.toNat ≤ y.toNat then y else x) ∧
  GivesV1 .vabs (fun x => if x.getLsbD 31 then -x else x) ∧
  GivesV1 .vpopc (fun x => BitVec.ofNat 32 ((List.range 32).countP (fun i => x.getLsbD i))) ∧
  GivesV1 .vclz (fun x => BitVec.ofNat 32 (((List.range 32).takeWhile (fun i => !x.getLsbD (31 - i))).length)) ∧
  GivesV2 .vcmpeq (fun x y => if x = y then BitVec.allOnes 32 else 0#32) ∧
  GivesV2 .vcmplts (fun x y => if x.toInt < y.toInt then BitVec.allOnes 32 else 0#32) ∧
  GivesV2 .vcmpltu (fun x y => if x.toNat < y.toNat then BitVec.allOnes 32 else 0#32) ∧
  (∀ g d a b, Computes (.vsel g d a b) (dDVV g d a b) (fun t => t.setV d.toNat (ofLanes ((List.range 16).map
    (fun l => if (lane (t.vv d.toNat) l).getLsbD 31 then lane (t.vv a.toNat) l else lane (t.vv b.toNat) l))))) ∧
  ∀ g d a b, Computes (.vshuf g d a b) (dVVV g d a b) (fun t => t.setV d.toNat (ofLanes ((List.range 16).map
    (fun l => lane (t.vv a.toNat) ((lane (t.vv b.toNat) l).toNat % 16)))))

/-- R136, R140: each floating-point lane instruction computes every element as the scalar operation does, in 16
FP32 lanes or 8 FP64 lane pairs, and ORs the flags of all of them into FPFLG. -/
def Obligations.VectorFloatingPointWritesEveryElement : Prop :=
  ∀ p : BitVec 1, let f := if p = 1#1 then fp64 else fp32
    GivesVf2 (.vfadd · · · · p) f (fadd f) ∧ GivesVf2 (.vfsub · · · · p) f (fsub f) ∧
    GivesVf2 (.vfmul · · · · p) f (fmul f) ∧ GivesVf3 (.vfma · · · · p) f (fun ctl => ffma f ctl false) ∧
    GivesVf3 (.vfms · · · · p) f (fun ctl => ffma f ctl true) ∧
    GivesVf2 (.vfmin · · · · p) f (fun _ => fminmax f false) ∧
    GivesVf2 (.vfmax · · · · p) f (fun _ => fminmax f true) ∧
    (∀ g d a, Computes (.vfabs g d a p) (dVV g d a) (fun t => t.setV d.toNat
      (ofElems f.width ((List.range (512 / f.width)).map (fun e =>
        elem f.width (t.vv a.toNat) e % 2 ^ (f.width - 1)))))) ∧
    (∀ g d a, Computes (.vfneg g d a p) (dVV g d a) (fun t => t.setV d.toNat
      (ofElems f.width ((List.range (512 / f.width)).map (fun e =>
        elem f.width (t.vv a.toNat) e ^^^ 2 ^ (f.width - 1)))))) ∧
    GivesVf2 (.vfcmpeq · · · · p) f (fun _ x y =>
      ((if (fcmp f 0 x y).1 then 2 ^ f.width - 1 else 0), (fcmp f 0 x y).2)) ∧
    GivesVf2 (.vfcmplt · · · · p) f (fun _ x y =>
      ((if (fcmp f 1 x y).1 then 2 ^ f.width - 1 else 0), (fcmp f 1 x y).2)) ∧
    GivesVf2 (.vfcmple · · · · p) f (fun _ x y =>
      ((if (fcmp f 2 x y).1 then 2 ^ f.width - 1 else 0), (fcmp f 2 x y).2)) ∧
    GivesVf2 (.vfcmpun · · · · p) f (fun _ x y =>
      ((if (fcmp f 3 x y).1 then 2 ^ f.width - 1 else 0), (fcmp f 3 x y).2))

/-- R142, R143: the narrow operations on 32 FP16 or BF16 elements, the two dot products, and the conversions, which
advance SRSEED by the elements a stochastic code converts. R144, R45: moves between a vector register and a g
register, and the reductions over 16 lanes by the tree. -/
def Obligations.VectorNarrowConvertAndTransfer : Prop :=
  (GivesVf2 .vhaddH fp16 (fadd fp16) ∧ GivesVf2 .vhmulH fp16 (fmul fp16) ∧
   GivesVf3 .vhfmaH fp16 (fun ctl => ffma fp16 ctl false) ∧
   GivesVf2 .vhaddB bf16 (fadd bf16) ∧ GivesVf2 .vhmulB bf16 (fmul bf16) ∧
   GivesVf3 .vhfmaB bf16 (fun ctl => ffma bf16 ctl false) ∧
   GivesVf3 .vdot8 fp32 dot8 ∧
   (∀ g d a b, Computes (.vdots8 g d a b) (dDVV g d a b) (fun t => t.setV d.toNat (ofElems 32 ((List.range 16).map
     (fun l => dots8 (elem 32 (t.vv d.toNat) l) (elem 32 (t.vv a.toNat) l) (elem 32 (t.vv b.toNat) l)))))) ∧
   ∀ g d a c, Computes (.vcvt g d a c) (dVV g d a) (fun t =>
     let r := vcvt c t.fpctl t.srseed (t.vv a.toNat)
     { (withFlags t r.1.2).setV d.toNat r.1.1 with srseed := t.srseed + BitVec.ofNat 64 r.2 })) ∧
  ((∀ g x v, Computes (.vbcast g x v)
     { guard := g, g := [x.toNat], v := [v.toNat], reads := [x.toNat], vwrites := [v.toNat] }
     (fun t => t.setV v.toNat (ofElems 64 (List.replicate 8 (t.gv x.toNat).toNat)))) ∧
   (∀ g x v w, Computes (.vext g x v w)
     { guard := g, g := [x.toNat], v := [v.toNat, w.toNat], reads := [x.toNat], writes := [x.toNat],
       vreads := [v.toNat, w.toNat] }
     (fun t => let k := (t.gv x.toNat).toNat % 16
       t.setG x.toNat (lane (t.vv w.toNat) (k ^^^ 1) ++ lane (t.vv v.toNat) k))) ∧
   (∀ g x v w, Computes (.vins g x v w)
     { guard := g, g := [x.toNat], v := [v.toNat, w.toNat], reads := [x.toNat], vreads := [w.toNat],
       vwrites := [v.toNat] }
     (fun t => t.setV v.toNat (setLane (t.vv w.toNat) ((t.gv x.toNat).extractLsb' 32 4).toNat
       ((t.gv x.toNat).extractLsb' 0 32)))) ∧
   (∀ g x v, let d : Desc := { guard := g, g := [x.toNat], v := [v.toNat], writes := [x.toNat], vreads := [v.toNat] }
     Computes (.vredaddS g x v) d (fun t =>
       let r := tree16 (fadd fp32 t.fpctl) ((List.range 16).map (elem 32 (t.vv v.toNat)))
       (withFlags t r.2).setG x.toNat (BitVec.ofNat 64 r.1)) ∧
     Computes (.vredaddI g x v) d (fun t =>
       t.setG x.toNat ((BitVec.ofNat 32 ((List.range 16).map (elem 32 (t.vv v.toNat))).sum).signExtend 64)) ∧
     Computes (.vredmaxS g x v) d (fun t =>
       let r := tree16 (fminmax fp32 true) ((List.range 16).map (elem 32 (t.vv v.toNat)))
       (withFlags t r.2).setG x.toNat (BitVec.ofNat 64 r.1)) ∧
     Computes (.vredminS g x v) d (fun t =>
       let r := tree16 (fminmax fp32 false) ((List.range 16).map (elem 32 (t.vv v.toNat)))
       (withFlags t r.2).setG x.toNat (BitVec.ofNat 64 r.1)) ∧
     Computes (.vmask g x v) d (fun t => t.setG x.toNat (BitVec.ofNat 64
       ((List.range 16).map (fun l => if (lane (t.vv v.toNat) l).getLsbD 31 then 2 ^ l else 0)).sum))))


/-! ## Streams -/

/-- R55, R177 to R182: each stream instruction that passes its checks computes this value, and takes the stream
unit for the cycles of R185. -/
def Obligations.StreamInstructionsWriteTheirResult : Prop :=
  (∀ g z a b, ComputesZ (.b2z g z a b)
    { guard := g, g := [a.toNat, b.toNat], z := [z.toNat], reads := [a.toNat, b.toNat] } (fun _ => True)
    (fun t => ssuTime (t.zctl.extractLsb' 0 2))
    (fun t => [.z z.toNat (streamOf (t.zctl.extractLsb' 0 2) ((t.gv b.toNat).toNat % 64)
      (min (t.gv a.toNat).toNat (streamLen (t.zctl.extractLsb' 0 2))))])
    (fun t => t.setZ z.toNat (streamOf (t.zctl.extractLsb' 0 2) ((t.gv b.toNat).toNat % 64)
      (min (t.gv a.toNat).toNat (streamLen (t.zctl.extractLsb' 0 2)))))) ∧
  (∀ g z a, ComputesZ (.z2b g z a)
    { guard := g, g := [a.toNat], z := [z.toNat], writes := [a.toNat], zreads := [z.toNat] } (fun _ => True)
    (fun t => ssuTime (t.zv z.toNat).len)
    (fun t => [.g a.toNat (BitVec.ofNat 64 ((List.range (streamLen (t.zv z.toNat).len)).countP
      (fun i => (t.zv z.toNat).bits.getLsbD i)))])
    (fun t => t.setG a.toNat (BitVec.ofNat 64 ((List.range (streamLen (t.zv z.toNat).len)).countP
      (fun i => (t.zv z.toNat).bits.getLsbD i))))) ∧
  (∀ g z src b, ComputesZ (.zrgn g z src b)
    { guard := g, g := [b.toNat], z := [z.toNat, src.toNat], reads := [b.toNat], zreads := [src.toNat] }
    (fun _ => True) (fun t => 2 * ssuTime (t.zv src.toNat).len)
    (fun t => [.z z.toNat (streamOf (t.zv src.toNat).len ((t.gv b.toNat).toNat % 64) (streamCount (t.zv src.toNat)))])
    (fun t => t.setZ z.toNat
      (streamOf (t.zv src.toNat).len ((t.gv b.toNat).toNat % 64) (streamCount (t.zv src.toNat))))) ∧
  (∀ g d a b (op : (BitVec 3 → BitVec 4 → BitVec 4 → BitVec 4 → Instr) × (ZWord → ZWord → ZWord)),
    op ∈ [(Instr.zand, fun x y => x &&& y), (Instr.zor, fun x y => x ||| y),
      (Instr.zxnor, fun x y => ~~~(x ^^^ y))] →
    ComputesZ (op.1 g d a b) { guard := g, z := [d.toNat, a.toNat, b.toNat], zreads := [a.toNat, b.toNat] }
      (fun t => (t.zv a.toNat).len = (t.zv b.toNat).len ∧ (t.zv a.toNat).cls &&& (t.zv b.toNat).cls = 0#64)
      (fun t => ssuTime (t.zv a.toNat).len)
      (fun t => [.z d.toNat { bits := clip (t.zv a.toNat).len (op.2 (t.zv a.toNat).bits (t.zv b.toNat).bits)
                              len := (t.zv a.toNat).len, cls := (t.zv a.toNat).cls ||| (t.zv b.toNat).cls }])
      (fun t => t.setZ d.toNat { bits := clip (t.zv a.toNat).len (op.2 (t.zv a.toNat).bits (t.zv b.toNat).bits)
                                 len := (t.zv a.toNat).len, cls := (t.zv a.toNat).cls ||| (t.zv b.toNat).cls })) ∧
  (∀ g d a, ComputesZ (.znot g d a) { guard := g, z := [d.toNat, a.toNat], zreads := [a.toNat] } (fun _ => True)
    (fun t => ssuTime (t.zv a.toNat).len)
    (fun t => [.z d.toNat { t.zv a.toNat with bits := clip (t.zv a.toNat).len (~~~(t.zv a.toNat).bits) }])
    (fun t => t.setZ d.toNat { t.zv a.toNat with bits := clip (t.zv a.toNat).len (~~~(t.zv a.toNat).bits) })) ∧
  ∀ g d a b sel, ComputesZ (.zmux g d a b sel)
    { guard := g, z := [d.toNat, a.toNat, b.toNat, sel.toNat], zreads := [a.toNat, b.toNat, sel.toNat] }
    (fun t => (t.zv a.toNat).len = (t.zv b.toNat).len ∧ (t.zv a.toNat).len = (t.zv sel.toNat).len ∧
      (t.zv sel.toNat).cls &&& (t.zv a.toNat).cls = 0#64 ∧ (t.zv sel.toNat).cls &&& (t.zv b.toNat).cls = 0#64)
    (fun t => ssuTime (t.zv a.toNat).len)
    (fun t => [.z d.toNat { bits := clip (t.zv a.toNat).len (((t.zv sel.toNat).bits &&& (t.zv b.toNat).bits) |||
                                      (~~~(t.zv sel.toNat).bits &&& (t.zv a.toNat).bits))
                            len := (t.zv a.toNat).len
                            cls := (t.zv a.toNat).cls ||| (t.zv b.toNat).cls ||| (t.zv sel.toNat).cls }])
    (fun t => t.setZ d.toNat
      { bits := clip (t.zv a.toNat).len (((t.zv sel.toNat).bits &&& (t.zv b.toNat).bits) |||
          (~~~(t.zv sel.toNat).bits &&& (t.zv a.toNat).bits))
        len := (t.zv a.toNat).len, cls := (t.zv a.toNat).cls ||| (t.zv b.toNat).cls ||| (t.zv sel.toNat).cls })

/-- R179, R181: ZCLS reads the mask and then the length code of a stream register, and ZCLR clears one; neither uses
the stream unit. R183: unequal length codes fault ZLEN with both codes, and streams that share a class ZCORR with
the shared classes: the first check that fails, and the unit is not used. -/
def Obligations.StreamMetadataInstructionsAndChecks : Prop :=
  ((∀ g z a b s c slot t,
     Issues { guard := g, g := [a.toNat, b.toNat], z := [z.toNat], writes := [a.toNat, b.toNat], zreads := [z.toNat] }
       s c slot t → Plain s c slot t → (s.core c).fencedFns.getLsbD 4 = false →
     ∃ s', exec (.zcls g z a b) s = .next s' ∧ Becomes s s' c slot
       (((past (.zcls g z a b) 4 t).setG a.toNat (t.zv z.toNat).cls).setG b.toNat
         ((t.zv z.toNat).len.setWidth 64))) ∧
   ∀ g z s c slot t, Issues { guard := g, z := [z.toNat] } s c slot t → Plain s c slot t →
     (s.core c).fencedFns.getLsbD 4 = false →
     ∃ s', exec (.zclr g z) s = .next s' ∧ Becomes s s' c slot ((past (.zclr g z) 4 t).setZ z.toNat
       { bits := 0#4096, len := t.zctl.extractLsb' 0 2, cls := 0#64 })) ∧
  ((∀ g d a b s c slot t (mk : BitVec 3 → BitVec 4 → BitVec 4 → BitVec 4 → Instr),
     mk ∈ [Instr.zand, Instr.zor, Instr.zxnor] →
     Issues { guard := g, z := [d.toNat, a.toNat, b.toNat], zreads := [a.toNat, b.toNat] } s c slot t →
     (s.core c).fencedFns.getLsbD 4 = false →
     let faults := FaultsWith (mk g d a b)
       { guard := g, z := [d.toNat, a.toNat, b.toNat], zreads := [a.toNat, b.toNat] } s c slot t
     ((t.zv a.toNat).len ≠ (t.zv b.toNat).len →
       faults (mkFault fcZlen 0#64 ((t.zv a.toNat).len.setWidth 64 + (t.zv b.toNat).len.setWidth 64 * 256#64))) ∧
     ((t.zv a.toNat).len = (t.zv b.toNat).len → (t.zv a.toNat).cls &&& (t.zv b.toNat).cls ≠ 0#64 →
       faults (mkFault fcZcorr 0#64 ((t.zv a.toNat).cls &&& (t.zv b.toNat).cls)))) ∧
   ∀ g d a b sel s c slot t,
     Issues { guard := g, z := [d.toNat, a.toNat, b.toNat, sel.toNat], zreads := [a.toNat, b.toNat, sel.toNat] }
       s c slot t → (s.core c).fencedFns.getLsbD 4 = false →
     let x := t.zv a.toNat; let y := t.zv b.toNat; let z := t.zv sel.toNat
     let faults := FaultsWith (.zmux g d a b sel)
       { guard := g, z := [d.toNat, a.toNat, b.toNat, sel.toNat], zreads := [a.toNat, b.toNat, sel.toNat] } s c slot t
     (x.len ≠ y.len → faults (mkFault fcZlen 0#64 (x.len.setWidth 64 + y.len.setWidth 64 * 256#64))) ∧
     (x.len = y.len → x.len ≠ z.len → faults (mkFault fcZlen 0#64 (x.len.setWidth 64 + z.len.setWidth 64 * 256#64))) ∧
     (x.len = y.len → x.len = z.len → z.cls &&& x.cls ≠ 0#64 → faults (mkFault fcZcorr 0#64 (z.cls &&& x.cls))) ∧
     (x.len = y.len → x.len = z.len → z.cls &&& x.cls = 0#64 → z.cls &&& y.cls ≠ 0#64 →
       faults (mkFault fcZcorr 0#64 (z.cls &&& y.cls))))


/-- R56, R58: over 256, 1,024 or 4,096 indices each of the 64 generators takes every value once, so that a stream
of X holds exactly X ones. -/
def Obligations.StreamsHoldExactlyTheirValue : Prop :=
  ∀ (code : BitVec 2) (c X : Nat), code ≠ 3#2 → c < 64 → X ≤ streamLen code →
    streamCount (streamOf code c X) = X

/-! ## State registers -/

/-- R24, R204: GETS completes for each selector of R24, on every state in which it issues and nothing follows it, and
changes only g[d]; and what it writes there for each selector. -/
def Obligations.GetsReadsEveryStateRegister : Prop :=
  (∀ (g : BitVec 3) (d : BitVec 7) (sel : BitVec 9), sel.toNat ≤ 0x14 → ∀ s c slot t,
    Issues { guard := g, g := [d.toNat], writes := [d.toNat] } s c slot t → Plain s c slot t →
    ∃ s', exec (.gets g d sel) s = .next s' ∧
      ∃ w : Word, Becomes s s' c slot ((past (.gets g d sel) 4 t).setG d.toNat w)) ∧
  GetsGives 0x00#9 (fun _ _ _ t => t.wid) ∧
  GetsGives 0x01#9 (fun s _ _ t => match s.launch? t.lid with
    | some l => BitVec.ofNat 64 (widField l.hdr t.wid l.hdr.tfield % 65536)
    | none => 0#64) ∧
  GetsGives 0x02#9 (fun s _ _ t => match s.launch? t.lid with
    | some l => BitVec.ofNat 64 l.hdr.gsize
    | none => 0#64) ∧
  GetsGives 0x03#9 (fun s c _ _ => match (s.core c).owner with
    | some (_, l) => BitVec.ofNat 64 l
    | none => 0#64) ∧
  GetsGives 0x04#9 (fun s _ _ t => match s.launch? t.lid with
    | some l => BitVec.ofNat 64 (bandIndex l.hdr t.wid % 65536)
    | none => 0#64) ∧
  GetsGives 0x05#9 (fun _ _ _ t => t.fmt) ∧ GetsGives 0x06#9 (fun _ _ _ t => t.scl) ∧
  GetsGives 0x07#9 (fun _ _ _ t => t.fpctl) ∧ GetsGives 0x08#9 (fun _ _ _ t => t.fpflg) ∧
  GetsGives 0x09#9 (fun _ _ _ t => t.fline) ∧ GetsGives 0x0A#9 (fun _ _ _ t => t.wlim) ∧
  GetsGives 0x0B#9 (fun _ _ _ t => t.geom0) ∧ GetsGives 0x0C#9 (fun _ _ _ t => t.geom1) ∧
  GetsGives 0x0D#9 (fun _ _ _ t => t.zctl) ∧
  GetsGives 0x0E#9 (fun s c _ _ => BitVec.ofNat 64 (s.core c).cyc) ∧
  GetsGives 0x0F#9 (fun s c slot _ => handleOf s c slot) ∧
  GetsGives 0x10#9 (fun _ _ _ t => t.authp) ∧ GetsGives 0x11#9 (fun s c _ _ => BitVec.ofNat 64 (s.core c).xb) ∧
  GetsGives 0x12#9 (fun _ _ _ t => BitVec.ofNat 64 t.part) ∧
  GetsGives 0x13#9 (fun s c _ _ => match (s.core c).lock with
    | none => 0#64
    | some L => BitVec.ofNat 64 (1 + (if L.odd then 2 else 0) + L.count * 2 ^ 32)) ∧
  GetsGives 0x14#9 (fun _ _ _ t => t.srseed)

/-- R24, R204, R205: SETS of each register that can be written, for the values it takes; XB belongs to the core and
needs its right. A value that its register does not take faults ILLEGAL with the selector, and an FLINE that is no
multiple of 64 faults MISALIGN with 64; the register keeps its value. -/
def Obligations.SetsWritesOrRefuses : Prop :=
  (SetsWrites 0x07#9 (fun v => v.toNat < 8) (fun t v => { t with fpctl := v }) ∧
   SetsWrites 0x08#9 (fun v => v.toNat < 32) (fun t v => { t with fpflg := v }) ∧
   SetsWrites 0x09#9 (fun v => v.toNat % 64 = 0) (fun t v => { t with fline := v }) ∧
   SetsWrites 0x0A#9 (fun _ => True) (fun t v => { t with wlim := v }) ∧
   SetsWrites 0x0B#9 (fun v => v.getLsbD 63 = false) (fun t v => { t with geom0 := v }) ∧
   SetsWrites 0x0C#9 (fun _ => True) (fun t v => { t with geom1 := v }) ∧
   SetsWrites 0x0D#9 (fun v => v.toNat < 3) (fun t v => { t with zctl := v }) ∧
   SetsWrites 0x14#9 (fun _ => True) (fun t v => { t with srseed := v }) ∧
   ∀ g a s c slot t s2, Issues (dSrc g a) s c slot t → (t.gv a.toNat).toNat % 64 = 0 →
     (t.gv a.toNat).toNat ≤ 0x20000 →
     needRight (atIssue (.sets g a 0x11#9) (dSrc g a) s c slot t) c slot (reading (.sets g a 0x11#9) t) 5 = (s2, none) →
     exec (.sets g a 0x11#9) s =
       .next (afterIssue (s2.modCore c (fun k => { k with xb := (t.gv a.toNat).toNat })) c slot)) ∧
  (∀ g a sel s c slot t v, Issues (dSrc g a) s c slot t → v = t.gv a.toNat →
     let faults := FaultsWith (.sets g a sel) (dSrc g a) s c slot t
     ((sel = 0x07#9 ∧ 8 ≤ v.toNat) ∨ (sel = 0x08#9 ∧ 32 ≤ v.toNat) ∨ (sel = 0x0B#9 ∧ v.getLsbD 63 = true) ∨
         (sel = 0x0D#9 ∧ 3 ≤ v.toNat) →
       faults (mkFault fcIllegal 0#64 (sel.setWidth 64))) ∧
     (sel = 0x09#9 → v.toNat % 64 ≠ 0 → faults (mkFault fcMisalign v 64#64)))


/-! ## Registers, guards and faults -/

/-- R17, R375: g0 reads zero and discards writes; p0 reads 1; a write of a register is what the next read of it gives,
leaves the other registers alone, and clears the register's poison mark. -/
def Obligations.RegistersKeepWhatIsWritten : Prop :=
  ∀ (t : Thread),
    t.gv 0 = 0#64 ∧ t.p 0 = true ∧
    (∀ d w r, (t.setG d w).gv r = if r = d ∧ d ≠ 0 then w else t.gv r) ∧
    (∀ d w, (t.setG d w).pw = t.pw ∧ (t.setG d w).v = t.v ∧ (t.setG d w).z = t.z ∧ (t.setG d w).pc = t.pc) ∧
    t.setG 0 0#64 = t ∧
    (∀ w, (t.setPw w).pwv = w ||| 1#8 ∧ (t.setPw w).g = t.g) ∧
    (∀ d w r, (t.setV d w).vv r = if r = d then w else t.vv r) ∧
    (∀ d w r, (t.setZ d w).zv r = if r = d then w else t.zv r) ∧
    ∀ d w r, d ≠ 0 → ((t.setG d w).poison.contains r = true ↔ r ≠ d ∧ t.poison.contains r = true)

/-- R61, R62: an instruction of any form whose guard is false does nothing but advance the pc, by 4, or by 32 for a
tile command word. -/
def Obligations.GuardedOffInstructionsOnlyAdvance : Prop :=
  (∀ i d body, exec i = issue i d body → SkippedWhenOff i d) ∧
  (∀ g d a b, SkippedWhenOff (.add g d a b) (dRRR g d a b) ∧ SkippedWhenOff (.faddD g d a b) (dRRR g d a b)) ∧
  (∀ g d a o r, SkippedWhenOff (.ldd g d a o r)
    { guard := g, g := [d.toNat, a.toNat], reads := [a.toNat], writes := [d.toNat] }) ∧
  (∀ g d a o r, SkippedWhenOff (.std g d a o r)
    { guard := g, g := [d.toNat, a.toNat], reads := [d.toNat, a.toNat] }) ∧
  (∀ g i, SkippedWhenOff (.brk g i) { guard := g }) ∧
  ∀ g, SkippedWhenOff (.quit g) { guard := g, drain := true }

/-- R18, R63: once its guard has been read, naming a register at or past the declared count faults, g registers before
v and z registers, with the index of a field that is past it and the count, and whether or not the guard passes. Which
of several such fields the record names is open (log entry 18). R375: an instruction that would read a poisoned
register faults POISON, and the register stays poisoned. -/
def Obligations.UnusableRegistersFault : Prop :=
  (∀ i d body s c slot t, exec i = issue i d body → current s = some (c, slot, t) →
    (d.guard = 0#3 ∨ absent (s.core c) t slot 0 = false) →
    ((∃ x ∈ d.g, t.n ≤ x) → ∃ r ∈ d.g, t.n ≤ r ∧
      FaultsEarly i s c slot t (mkFault fcReglimit 0#64 (BitVec.ofNat 64 (r + 256 * t.n)))) ∧
    ((∀ x ∈ d.g, x < t.n) → (∃ x ∈ d.v, t.m ≤ x) → ∃ r ∈ d.v, t.m ≤ r ∧
      FaultsEarly i s c slot t (mkFault fcVclaim 0#64 (BitVec.ofNat 64 (r + 256 + 65536 * t.m)))) ∧
    ((∀ x ∈ d.g, x < t.n) → (∀ x ∈ d.v, x < t.m) → (∃ x ∈ d.z, t.zc ≤ x) → ∃ r ∈ d.z, t.zc ≤ r ∧
      FaultsEarly i s c slot t (mkFault fcVclaim 0#64 (BitVec.ofNat 64 (r + 512 + 65536 * t.zc))))) ∧
  (∀ g d a b s c slot t, current s = some (c, slot, t) → (g = 0#3 ∨ absent (s.core c) t slot 0 = false) →
    t.n ≤ d.toNat → a.toNat < t.n → b.toNat < t.n →
    FaultsEarly (.add g d a b) s c slot t (mkFault fcReglimit 0#64 (BitVec.ofNat 64 (d.toNat + 256 * t.n)))) ∧
  (∀ g d a b s c slot t, current s = some (c, slot, t) → (g = 0#3 ∨ absent (s.core c) t slot 0 = false) →
    d.toNat < t.m → t.m ≤ a.toNat → b.toNat < t.m →
    FaultsEarly (.vadd g d a b) s c slot t
      (mkFault fcVclaim 0#64 (BitVec.ofNat 64 (a.toNat + 256 + 65536 * t.m)))) ∧
  (∀ g d a b s c slot t, current s = some (c, slot, t) → (g = 0#3 ∨ absent (s.core c) t slot 0 = false) →
    t.zc ≤ d.toNat → a.toNat < t.zc → b.toNat < t.zc →
    FaultsEarly (.zand g d a b) s c slot t
      (mkFault fcVclaim 0#64 (BitVec.ofNat 64 (d.toNat + 512 + 65536 * t.zc)))) ∧
  ∀ g d a b s c slot t, current s = some (c, slot, t) → (∀ r ∈ [d.toNat, a.toNat, b.toNat], r < t.n) → g = 0#3 →
    t.relaxed = [] → (∀ r ∈ [a.toNat, b.toNat], r ≠ 0 → absent (s.core c) t slot r = false) →
    a.toNat ≠ 0 → t.poison.contains a.toNat = true →
    FaultsEarly (.add g d a b) s c slot t (mkFault fcPoison 0#64 0#64) ∧
    ∃ s' u, exec (.add g d a b) s = .next s' ∧ s'.thread? c slot = some u ∧ u.code = .faulted ∧ u.pc = t.pc ∧
      u.poison.contains a.toNat = true

/-- R26: taking a fault makes the thread FAULTED at the faulting instruction, counts it, and leaves its registers and
its stop and hold bits as they were. R27: the eight words of a fault record. -/
def Obligations.TakingAFaultWritesItsRecord : Prop :=
  (∀ s c slot t f, s.thread? c slot = some t →
     ∃ u, (takeFault s c slot f).thread? c slot = some u ∧ u.code = .faulted ∧ u.pc = t.ipc ∧
       u.faults = t.faults + 1#64 ∧ u.wait = .idle ∧ u.g = t.g ∧ u.pw = t.pw ∧ u.v = t.v ∧ u.z = t.z ∧
       u.fpflg = t.fpflg ∧ u.fpctl = t.fpctl ∧ u.poison = t.poison ∧ u.sstop = t.sstop ∧ u.hold = t.hold ∧
       u.wid = t.wid ∧ u.fline = t.fline ∧ u.authp = t.authp ∧ u.step = t.step) ∧
  (∀ handle pc wid seq (f : FaultInfo),
     let b := recordBytes handle pc wid seq f
     let word := fun k => leWord ((b.drop (8 * k)).take 8)
     b.length = 64 ∧ word 0 = f.code.setWidth 64 + f.flags.setWidth 64 * 65536#64 ∧ word 1 = handle ∧ word 2 = pc ∧
       word 3 = f.addr ∧ word 4 = f.word.setWidth 64 ∧ word 5 = f.extra ∧ word 6 = wid ∧ word 7 = seq)


/-- R208: BRK faults BREAK, with its immediate as word 5. R203: a thread that is being stepped faults STEP when its
one instruction is complete: the record has the word of that instruction and the address of the next. -/
def Obligations.BreakAndStepEndInTheirFaults : Prop :=
  (∀ g imm s c slot t, Issues { guard := g } s c slot t →
     FaultsWith (.brk g imm) { guard := g } s c slot t (mkFault fcBreak 0#64 (imm.setWidth 64)) ∧
     ∃ s' u, exec (.brk g imm) s = .next s' ∧ s'.thread? c slot = some u ∧ u.code = .faulted ∧ u.pc = t.pc ∧
       u.faults = t.faults + 1#64) ∧
  (∀ g d a b s c slot t w, Issues (dRRR g d a b) s c slot t → t.code = .running → t.stepping = some w →
     (s.core c).lock = none →
     ∃ s1 u, exec (.add g d a b) s =
         .next (enterFault s1 c slot (t.pc + 4#64) { mkFault fcStep 0#64 0#64 with word := encode32 (.add g d a b) }) ∧
       s1.thread? c slot = some u ∧ u.pc = t.pc + 4#64 ∧ u.gv d.toNat = (if d = 0#7 then 0#64 else
         t.gv a.toNat + t.gv b.toNat) ∧ u.step = t.step)


/-! ## Memory in the own scratchpad -/

/-- R109, R110: the loads, zero- or sign-extended; the stores, after which every byte outside those stored, every
register and all else stays; and LDQ and STQ, which move 16 bytes between the scratchpad and a register pair. -/
def Obligations.LoadsAndStoresOfTheOwnScratchpad : Prop :=
  (LoadsOwn .ldbn 1 leWord ∧ LoadsOwn .ldhn 2 leWord ∧ LoadsOwn .ldwn 4 leWord ∧ LoadsOwn .ldd 8 leWord ∧
   LoadsOwn .ldbs 1 (fun b => (BitVec.ofNat 8 (leNat b)).signExtend 64) ∧
   LoadsOwn .ldhs 2 (fun b => (BitVec.ofNat 16 (leNat b)).signExtend 64) ∧
   LoadsOwn .ldws 4 (fun b => (BitVec.ofNat 32 (leNat b)).signExtend 64)) ∧
  (StoresOwn .stb 1 ∧ StoresOwn .sth 2 ∧ StoresOwn .stw 4 ∧ StoresOwn .std 8) ∧
  ((∀ g d a s c slot t ea, ea = t.gv a.toNat →
     Issues { guard := g, g := [d.toNat, a.toNat], reads := [a.toNat], writes := [lowOf d, highOf d], drain := true }
       s c slot t → Plain s c slot t → Calm s c t → Own s c ea 16 → Unpoisoned (s.core c) ea.toNat 16 →
     ∃ s', exec (.ldq g d a) s = .next s' ∧ Becomes s s' c slot (((past (.ldq g d a) 4 t).setG (lowOf d)
       (leWord (Mem.readN (s.core c).spad ea.toNat 8))).setG (highOf d)
       (leWord (Mem.readN (s.core c).spad (ea.toNat + 8) 8)))) ∧
   ∀ g d a s c slot t ea, ea = t.gv a.toNat →
     Issues { guard := g, g := [d.toNat, a.toNat], reads := [lowOf d, highOf d, a.toNat], drain := true }
       s c slot t → Plain s c slot t → Calm s c t → Own s c ea 16 → (s.core c).spad.wf = true →
     ∃ s', exec (.stq g d a) s = .next s' ∧ Stores s s' c slot (past (.stq g d a) 4 t)
       [(ea.toNat, wordBytes (t.gv (lowOf d)) ++ wordBytes (t.gv (highOf d)))])


/-- R118, R119, R120: each atomic returns the old word and writes its new one; the compare-and-swaps write only when
what they find is what they expect. -/
def Obligations.AtomicsAndCompareAndSwaps : Prop :=
  (AtomicOwn .aadd (fun x y => x + y) ∧ AtomicOwn .aand (fun x y => x &&& y) ∧ AtomicOwn .aor (fun x y => x ||| y) ∧
   AtomicOwn .axor (fun x y => x ^^^ y) ∧ AtomicOwn .amins (fun x y => if x.toInt ≤ y.toInt then x else y) ∧
   AtomicOwn .amaxs (fun x y => if x.toInt ≤ y.toInt then y else x) ∧
   AtomicOwn .aminu (fun x y => if x.toNat ≤ y.toNat then x else y) ∧
   AtomicOwn .amaxu (fun x y => if x.toNat ≤ y.toNat then y else x) ∧ AtomicOwn .aswap (fun _ y => y) ∧
   AtomicOwn .afadd (fun x y => BitVec.ofNat 64 (fadd fp64 0#64 x.toNat y.toNat).1)) ∧
  ((∀ g d a b s c slot t ea old, ea = t.gv a.toNat → old = leWord (Mem.readN (s.core c).spad ea.toNat 8) →
     Issues { dDRR g d a b with drain := true } s c slot t → Plain s c slot t → Calm s c t → Own s c ea 8 →
     Unpoisoned (s.core c) ea.toNat 8 → (s.core c).spad.wf = true →
     ∃ s', exec (.acas g d a b) s = .next s' ∧ Stores s s' c slot ((past (.acas g d a b) 4 t).setG d.toNat old)
       (if old = t.gv d.toNat then [(ea.toNat, wordBytes (t.gv b.toNat))] else [])) ∧
   ∀ g d a b s c slot t ea lo hi, ea = t.gv a.toNat → lo = leWord (Mem.readN (s.core c).spad ea.toNat 8) →
     hi = leWord (Mem.readN (s.core c).spad (ea.toNat + 8) 8) →
     Issues { guard := g, g := [d.toNat, a.toNat, b.toNat], drain := true,
              reads := [lowOf d, highOf d, a.toNat, lowOf b, highOf b], writes := [lowOf d, highOf d] } s c slot t →
     Plain s c slot t → Calm s c t → Own s c ea 16 → Unpoisoned (s.core c) ea.toNat 16 → (s.core c).spad.wf = true →
     ∃ s', exec (.acasq g d a b) s = .next s' ∧
       Stores s s' c slot (((past (.acasq g d a b) 4 t).setG (lowOf d) lo).setG (highOf d) hi)
         (if lo = t.gv (lowOf d) ∧ hi = t.gv (highOf d) then
           [(ea.toNat, wordBytes (t.gv (lowOf b)) ++ wordBytes (t.gv (highOf b)))] else []))


/-- R10, R115, R116: the forms of LDFE and STFE that do not sleep: what they read, write and do to the full bit; and
LDFE on an empty word and STFE on a full one, in the waiting form, which put the thread to sleep with an entry of
the core's watch table, when it has one free. -/
def Obligations.FullEmptyFormsReadWriteOrSleep : Prop :=
  ((∀ g d a b s c slot t ea w, ea = t.gv a.toNat → w = leWord (Mem.readN (s.core c).spad ea.toNat 8) →
     Issues { guard := g, g := [d.toNat, a.toNat, b.toNat], reads := [a.toNat], writes := [d.toNat, b.toNat],
              drain := true } s c slot t → Plain s c slot t → Calm s c t → Own s c ea 8 →
     Unpoisoned (s.core c) ea.toNat 8 → (∀ q ∈ s.queries, q.answer = none) →
     (b ≠ 0#7 → ∃ s', exec (.ldfe g d a b) s = .next s' ∧ Becomes s s' c slot
       (((past (.ldfe g d a b) 4 t).setG d.toNat w).setG b.toNat
         (if ea.toNat / 8 ∈ (s.core c).full then 1#64 else 0#64))) ∧
     (b = 0#7 → ea.toNat / 8 ∈ (s.core c).full → ∃ s', exec (.ldfe g d a b) s = .next s' ∧
       Alters s s' c slot ((past (.ldfe g d a b) 4 t).setG d.toNat w) []
         ((s.core c).full.filter (· != ea.toNat / 8)))) ∧
   ∀ g d a b s c slot t ea, ea = t.gv a.toNat →
     Issues { guard := g, g := [d.toNat, a.toNat, b.toNat], reads := [d.toNat, a.toNat], writes := [b.toNat],
              drain := true } s c slot t → Plain s c slot t → Calm s c t → Own s c ea 8 →
     (s.core c).spad.wf = true →
     (ea.toNat / 8 ∉ (s.core c).full → ∃ s', exec (.stfe g d a b) s = .next s' ∧
       Alters s s' c slot (if b = 0#7 then past (.stfe g d a b) 4 t else (past (.stfe g d a b) 4 t).setG b.toNat 1#64)
         [(ea.toNat, wordBytes (t.gv d.toNat))] (insertNat (ea.toNat / 8) (s.core c).full)) ∧
     (b ≠ 0#7 → ea.toNat / 8 ∈ (s.core c).full → ∃ s', exec (.stfe g d a b) s = .next s' ∧
       Becomes s s' c slot ((past (.stfe g d a b) 4 t).setG b.toNat 0#64))) ∧
  (∀ g d a s c slot t ea w, ea = t.gv a.toNat → w = { place := .spad c ea.toNat, thread := ⟨c, slot⟩, kind := .fe } →
     Issues { guard := g, g := [d.toNat, a.toNat, 0], reads := [d.toNat, a.toNat], writes := [d.toNat],
              drain := true } s c slot t → Plain s c slot t → Calm s c t → Own s c ea 8 →
     (ea.toNat / 8 ∉ (s.core c).full → ∃ s', exec (.ldfe g d a 0#7) s = .next s' ∧
       Left (.ldfe g d a 0#7) s s' c slot t .sleeping (.fe true d.toNat ea (.spad c ea.toNat) 0#64 true)
         (s.watches ++ [w])) ∧
     (ea.toNat / 8 ∈ (s.core c).full → ∃ s', exec (.stfe g d a 0#7) s = .next s' ∧
       Left (.stfe g d a 0#7) s s' c slot t .sleeping
         (.fe false 0 ea (.spad c ea.toNat) (t.gv d.toNat) true) (s.watches ++ [w])))


/-- R126, R127: WATCH and UNWATCH of an own-scratchpad line: each code, in its order, and what is armed after. -/
def Obligations.WatchAndUnwatchAnswerTheirCodes : Prop :=
  (∀ g d a s c slot t w, Issues (dRR g d a) s c slot t → Plain s c slot t → (s.core c).lock = none →
    Own s c (t.gv a.toNat) 1 → w = { place := .spad c ((t.gv a.toNat).toNat / 64 * 64), thread := ⟨c, slot⟩,
                                     kind := .watch } →
    ∃ s' code, exec (.watch g d a) s = .next s' ∧
      Becomes { s with watches := if code = 0#64 then s.watches ++ [w] else s.watches } s' c slot
        ((past (.watch g d a) 4 t).setG d.toNat code) ∧
      code = if w ∈ s.watches then 1#64
        else if 8 ≤ (s.watches.filter (fun x => x.thread = ⟨c, slot⟩ && x.kind = .watch)).length then 3#64
        else if storeRoom s c w.place then 0#64 else 2#64) ∧
  (∀ g d a s c slot t w, Issues (dRR g d a) s c slot t → Plain s c slot t → (s.core c).lock = none → a ≠ 0#7 →
    NoEntryWaits s → Own s c (t.gv a.toNat) 1 →
    w = { place := .spad c ((t.gv a.toNat).toNat / 64 * 64), thread := ⟨c, slot⟩, kind := .watch } →
    ∃ s', exec (.unwatch g d a) s = .next s' ∧
      Becomes { s with watches := s.watches.filter (· != w) } s' c slot
        ((past (.unwatch g d a) 4 t).setG d.toNat (if w ∈ s.watches then 0#64 else 1#64))) ∧
  ∀ g d s c slot t, Issues (dRR g d 0#7) s c slot t → Plain s c slot t → NoEntryWaits s →
    (∀ w ∈ s.watches, w.thread = ⟨c, slot⟩ → w.kind = .watch → ∃ off, w.place = .spad c off) →
    ∃ s', exec (.unwatch g d 0#7) s = .next s' ∧
      Becomes { s with watches := s.watches.filter (fun w => !(w.thread = ⟨c, slot⟩ && w.kind = .watch)) } s' c slot
        ((past (.unwatch g d 0#7) 4 t).setG d.toNat (BitVec.ofNat 64
          (s.watches.filter (fun w => w.thread = ⟨c, slot⟩ && w.kind = .watch)).length))

/-- R129, R130: SLEEP takes the wake latch, answers 2 without a watch, and sleeps otherwise; WAITGE on the own
scratchpad returns a word that is large enough at once, and sleeps under a temporary watch otherwise. -/
def Obligations.SleepAndWaitgeWait : Prop :=
  (∀ g d s c slot t, Issues { guard := g, g := [d.toNat], writes := [d.toNat] } s c slot t → Plain s c slot t →
    (t.latch = true → ∃ s', exec (.sleep g d) s = .next s' ∧
      Becomes s s' c slot ({ past (.sleep g d) 4 t with latch := false }.setG d.toNat 0#64)) ∧
    (t.latch = false → (∀ w ∈ s.watches, w.thread = ⟨c, slot⟩ → w.kind ≠ .watch) →
      ∃ s', exec (.sleep g d) s = .next s' ∧ Becomes s s' c slot ((past (.sleep g d) 4 t).setG d.toNat 2#64)) ∧
    (t.latch = false → (∃ w ∈ s.watches, w.thread = ⟨c, slot⟩ ∧ w.kind = .watch) →
      ∃ s', exec (.sleep g d) s = .next s' ∧
        Left (.sleep g d) s s' c slot t .sleeping (.sleep d.toNat) s.watches)) ∧
  ∀ g d a b s c slot t ea v, ea = t.gv a.toNat → v = leWord (Mem.readN (s.core c).spad ea.toNat 8) →
    Issues (dRRR g d a b) s c slot t → Plain s c slot t → Calm s c t → Own s c ea 8 →
    Unpoisoned (s.core c) ea.toNat 8 → (s.core c).fenced = false →
    ((t.gv b.toNat).toNat ≤ v.toNat → ∃ s', exec (.waitge g d a b) s = .next s' ∧
      Becomes s s' c slot ((past (.waitge g d a b) 4 t).setG d.toNat v)) ∧
    (v.toNat < (t.gv b.toNat).toNat → ∃ s', exec (.waitge g d a b) s = .next s' ∧
      Left (.waitge g d a b) s s' c slot t .sleeping (.waitge d.toNat ea (.spad c ea.toNat) (t.gv b.toNat) v true)
        (s.watches ++ [{ place := .spad c (ea.toNat / 64 * 64), thread := ⟨c, slot⟩, kind := .waitge }]))

/-- R145, R147: the vector memory forms on the own scratchpad: whole registers, strided, indexed and broadcast. -/
def Obligations.VectorMemoryFormsMoveTheirLanes : Prop :=
  (∀ g d a b s c slot t ea, ea = t.gv a.toNat + t.gv b.toNat → Plain s c slot t → Calm s c t →
    (∀ mk ∈ [Instr.vld, Instr.vldR], Own s c ea 64 → Unpoisoned (s.core c) ea.toNat 64 →
      Issues { guard := g, g := [a.toNat, b.toNat], v := [d.toNat], reads := [a.toNat, b.toNat],
               vwrites := [d.toNat] } s c slot t →
      ∃ s', exec (mk g d a b) s = .next s' ∧ Becomes s s' c slot ((past (mk g d a b) 4 t).setV d.toNat
        (BitVec.ofNat 512 (leNat (Mem.readN (s.core c).spad ea.toNat 64))))) ∧
    (Own s c ea 64 → (s.core c).spad.wf = true →
      Issues { guard := g, g := [a.toNat, b.toNat], v := [d.toNat], reads := [a.toNat, b.toNat],
               vreads := [d.toNat] } s c slot t →
      ∃ s', exec (.vst g d a b) s = .next s' ∧ Stores s s' c slot (past (.vst g d a b) 4 t)
        [(ea.toNat, leBytes (t.vv d.toNat).toNat 64)]) ∧
    (Own s c ea 4 → Unpoisoned (s.core c) ea.toNat 4 →
      Issues { guard := g, g := [a.toNat, b.toNat], v := [d.toNat], reads := [a.toNat, b.toNat],
               vwrites := [d.toNat] } s c slot t →
      ∃ s', exec (.vldb g d a b) s = .next s' ∧ Becomes s s' c slot ((past (.vldb g d a b) 4 t).setV d.toNat
        (ofLanes (List.replicate 16 (BitVec.ofNat 32 (leNat (Mem.readN (s.core c).spad ea.toNat 4)))))))) ∧
  (∀ g d a b s c slot t (ea : Nat → Word), (∀ l, ea l = t.gv a.toNat + BitVec.ofNat 64 l * t.gv b.toNat) →
    Plain s c slot t → Calm s c t → (∀ l, l < 16 → Own s c (ea l) 4) →
    ((∀ l, l < 16 → Unpoisoned (s.core c) (ea l).toNat 4) →
      Issues { guard := g, g := [a.toNat, b.toNat], v := [d.toNat], reads := [a.toNat, b.toNat],
               vwrites := [d.toNat] } s c slot t →
      ∃ s', exec (.vlds g d a b) s = .next s' ∧ Becomes s s' c slot ((past (.vlds g d a b) 4 t).setV d.toNat
        ((List.range 16).foldl (fun v l => setLane v l
          (BitVec.ofNat 32 (leNat (Mem.readN (s.core c).spad (ea l).toNat 4)))) (t.vv d.toNat)))) ∧
    ((s.core c).spad.wf = true →
      Issues { guard := g, g := [a.toNat, b.toNat], v := [d.toNat], reads := [a.toNat, b.toNat],
               vreads := [d.toNat] } s c slot t →
      ∃ s', exec (.vsts g d a b) s = .next s' ∧ Stores s s' c slot (past (.vsts g d a b) 4 t)
        ((List.range 16).map (fun l => ((ea l).toNat, leBytes (lane (t.vv d.toNat) l).toNat 4))))) ∧
  ∀ g (d : BitVec 6) a b s c slot t x y (ea : Nat → Word) ls, x = d.toNat / 2 * 2 → y = d.toNat / 2 * 2 + 1 →
    (∀ l, ea l = t.gv a.toNat + (lane (t.vv x) l).signExtend 64 * 4#64) →
    ls = (List.range 16).filter (fun l => !(t.gv b.toNat).getLsbD l) →
    Plain s c slot t → Calm s c t → (∀ l ∈ ls, Own s c (ea l) 4) →
    ((∀ l ∈ ls, Unpoisoned (s.core c) (ea l).toNat 4) →
      Issues { guard := g, g := [a.toNat, b.toNat], v := [x, y], reads := [a.toNat, b.toNat], vreads := [x],
               vwrites := [y] } s c slot t →
      ∃ s', exec (.vgath g d a b) s = .next s' ∧ Becomes s s' c slot ((past (.vgath g d a b) 4 t).setV y
        (ls.foldl (fun v l => setLane v l
          (BitVec.ofNat 32 (leNat (Mem.readN (s.core c).spad (ea l).toNat 4)))) (t.vv y)))) ∧
    ((s.core c).spad.wf = true →
      Issues { guard := g, g := [a.toNat, b.toNat], v := [x, y], reads := [a.toNat, b.toNat], vreads := [x, y] }
        s c slot t →
      ∃ s', exec (.vscat g d a b) s = .next s' ∧ Stores s s' c slot (past (.vscat g d a b) 4 t)
        (ls.map (fun l => ((ea l).toNat, leBytes (lane (t.vv y) l).toNat 4))))

/-- R105, R107: a misaligned address faults MISALIGN with the alignment, before all else; an own-scratchpad address
below XB faults PROT 2, and one of no class PROT 1. -/
def Obligations.AccessesAreChecked : Prop :=
  ∀ g d a (o : BitVec 8) s c slot t ea, ea = t.gv a.toNat + o.signExtend 64 * 8#64 →
    let loads := FaultsWith (.ldd g d a o 0#1)
      { guard := g, g := [d.toNat, a.toNat], reads := [a.toNat], writes := [d.toNat] } s c slot t
    let stores := FaultsWith (.std g d a o 0#1)
      { guard := g, g := [d.toNat, a.toNat], reads := [d.toNat, a.toNat] } s c slot t
    (Issues { guard := g, g := [d.toNat, a.toNat], reads := [a.toNat], writes := [d.toNat] } s c slot t →
      (ea.toNat % 8 ≠ 0 → loads (mkFault fcMisalign ea 8#64)) ∧
      (ea.toNat % 8 = 0 → ea.toNat < 0x20000 → ea.toNat < (s.core c).xb → loads (mkFault fcProt ea 2#64)) ∧
      (ea.toNat % 8 = 0 → 0x20000 ≤ ea.toNat → ea.toNat < 0x100000000 → loads (mkFault fcProt ea 1#64))) ∧
    (Issues { guard := g, g := [d.toNat, a.toNat], reads := [d.toNat, a.toNat] } s c slot t →
      (ea.toNat % 8 ≠ 0 → stores (mkFault fcMisalign ea 8#64)) ∧
      (ea.toNat % 8 = 0 → ea.toNat < 0x20000 → ea.toNat < (s.core c).xb → stores (mkFault fcProt ea 2#64)) ∧
      (ea.toNat % 8 = 0 → 0x20000 ≤ ea.toNat → ea.toNat < 0x100000000 → stores (mkFault fcProt ea 1#64)))

/-! ## The events of a core -/

/-- R11, R20, R23: the head of the ready queue takes the empty position of the cycle; the first fill request is
admitted whole, and its thread is READY when all is there; a woken thread gets its context back, and is READY when its
state is. -/
def Obligations.ReadyFillAndContextQueuesAreServed : Prop :=
  (∀ c s slot y rest t, Map.has (s.core c).rot ((s.core c).cyc % 16) = false → (s.core c).selft = none →
    issueStopped s c = false → (s.core c).ready = (slot, y) :: rest → y < (s.core c).cyc →
    s.thread? c slot = some t →
    ∃ s', exec (.rotationFill c) s = .next s' ∧ CoreOnly s s' c ∧ (s'.core c).ready = rest ∧
      (s'.core c).rot = Map.set (s.core c).rot ((s.core c).cyc % 16) slot ∧
      s'.thread? c slot = some { t with code := .running } ∧ ∀ x, x ≠ slot → s'.thread? c x = s.thread? c x) ∧
  (∀ c s slot rest t regs need, (s.core c).fillq = slot :: rest → s.thread? c slot = some t → t.wait = .fill regs →
    need = regs.filter (fun r => r < 128 && cold (s.core c) t slot r) →
    busyEntries (s.core c) + need.length < rcSize (s.core c) →
    ∃ s', exec (.registerFillAdmit c) s = .next s' ∧ (s'.core c).fillq = rest ∧
      .registerFillComplete c slot ∈ s'.agenda ∧ s'.thread? c slot = some t ∧
      ((s.core c).rc.length + need.length ≤ rcSize (s.core c) →
        ∀ r ∈ need, Map.get? (s'.core c).rc (rcKey slot r) = some .reserved)) ∧
  (∀ c slot s t regs, Waits s c slot t (.fill regs) → t.code = .waiting → slot ∉ (s.core c).fillq →
    (∀ r ∈ regs, pendingG t r = false ∧ (128 ≤ r → pendingV t (r - 128) = false)) →
    ∃ s', exec (.registerFillComplete c slot) s = .next s' ∧ CoreOnly s s' c ∧ Resumed s' c slot t) ∧
  (∀ c s slot rest t, (s.core c).ctxWait = .fill slot :: rest → s.thread? c slot = some t →
    poolsFit s c t.m t.zc = true → contexts s c < 512 →
    ∃ s', exec (.threadFill c) s = .next s' ∧ CoreOnly s s' c ∧ (s'.core c).ctxWait = rest ∧
      s'.thread? c slot = some { t with away := false } ∧ .threadFillComplete c slot ∈ s'.agenda) ∧
  ∀ c slot s t, s.thread? c slot = some t → t.code = .spilled → t.away = false → t.wait = .idle →
    ∃ s', exec (.threadFillComplete c slot) s = .next s' ∧ CoreOnly s s' c ∧ Resumed s' c slot t

/-- R189, R192, R193, R243, R244: a SPAWN's packet that fits makes a READY thread in the lowest free slot and gives
its issuer the handle, at once or when a context comes free; a FORK's packet starts its recruit in the slot taken for
it; a message that finds a visitor slot starts its handler and gives its sender 0, and a migrant leaves its old slot. -/
def Obligations.ThreadPacketsStartThreads : Prop :=
  (∀ id s p slot r u d x t e, Map.get? s.packets id = some p → p.kind = 0 → p.slot = none → p.issuer = some r →
    Waits s r.core r.slot u (.packet d x) → lowestSlot (s.core p.target) 0 4080 = some slot →
    isSaved s p.thread.gid = false → poolsFit s p.target p.thread.m p.thread.zc = true →
    backing p.thread.n p.thread.m p.thread.zc ≤ layByRoom s p.thread.part → contexts s p.target < 512 →
    slotsUsed s p.target < 4080 → p.reply = none → coreStopping s p.target = false →
      (∀ l, s.launch? p.thread.lid = some l → l.preempting = false) →
    t = { p.thread with room := backing p.thread.n p.thread.m p.thread.zc, away := false, code := .ready,
                        slept := false, sleepFor := 0 } →
    (e = .threadPacketArrive id ∧ (s.core p.target).ctxWait = [] ∧ id ∉ (s.core p.target).visitWait ∨
      e = .contextGrant p.target ∧ (s.core p.target).ctxWait.head? = some (.packet id)) →
    ∃ s', exec e s = .next s' ∧ s'.thread? p.target slot = some t ∧
      Resumed s' r.core r.slot (u.setG d (handleOf s p.target slot)) ∧ s'.packets = Map.erase s.packets p.id) ∧
  (∀ id s p slot, Map.get? s.packets id = some p → p.slot = some slot → coreStopping s p.target = false →
    .packet id ∉ (s.core p.target).ctxWait → id ∉ (s.core p.target).visitWait →
    (∀ l, s.launch? p.thread.lid = some l → l.preempting = false) →
    ∃ s', exec (.threadPacketArrive id) s = .next s' ∧ s'.packets = Map.erase s.packets p.id ∧
      s'.thread? p.target slot =
        some { p.thread with away := false, code := .ready, slept := false, sleepFor := 0 }) ∧
  (∀ id s p slot r u d x t e, Map.get? s.packets id = some p → (p.kind = 1 ∨ p.kind = 2) → p.slot = none →
    p.issuer = some r → Waits s r.core r.slot u (.packet d x) → u.sstop = false →
    lowestSlot (s.core p.target) 4080 16 = some slot → coreStopping s p.target = false → p.reply = none →
    t = { p.thread with away := false, code := .ready, slept := false, sleepFor := 0 } →
    (e = .threadPacketArrive id ∧ (s.core p.target).visitWait = [] ∧ .packet id ∉ (s.core p.target).ctxWait ∨
      e = .visitorSlotGrant p.target ∧ (s.core p.target).visitWait.head? = some id) →
    ∃ s', exec e s = .next s' ∧ s'.thread? p.target slot = some t ∧ s'.packets = Map.erase s.packets p.id ∧
      if p.kind = 1 then s'.thread? r.core r.slot = none
      else Resumed s' r.core r.slot (u.setG d 0#64))

/-- R116, R117, R130, R131, R197, R217: how sleeps end: at the limit WLIM, each with its result, where no write has
ended them first; by a WAITGE's new reading, when its turn at the word's home has come; by an entry that has come free;
by the change of a full bit. -/
def Obligations.SleepsEndWithTheirResults : Prop :=
  (∀ c slot s t w, Waits s c slot t w → limitReached t = true → woken s ⟨c, slot⟩ w = false →
    (∀ d v, (w = .sleep d ∧ v = 1#64 ∨ (∃ va p b e, w = .waitge d va p b v e) ∨ ∃ p, w = .bar d p v) →
      ∃ s', exec (.wlimExpiry c slot) s = .next s' ∧ Resumed s' c slot (t.setG d v)) ∧
    ∀ load d va p data e, w = .fe load d va p data e →
      exec (.wlimExpiry c slot) s = .next (takeFault s c slot (mkFault fcWatchLimit va t.wlim))) ∧
  (∀ c slot s t d va p bound last v, Waits s c slot t (.waitge d va p bound last true) → (s.core c).lock = none →
    InTurn s (.waitgeRecheck c slot) p false → (∀ q w, Event.feWaiterRelease q w ∉ s.agenda) →
    v = readPlace s c p 8 → v.2 = false →
    (bound.toNat ≤ (leWord v.1).toNat → ∃ s', exec (.waitgeRecheck c slot) s = .next s' ∧
      Resumed s' c slot (t.setG d (leWord v.1)) ∧
      ∀ w ∈ s'.watches, ¬(w.thread = ⟨c, slot⟩ ∧ w.kind = .waitge)) ∧
    ((leWord v.1).toNat < bound.toNat → ∃ s', exec (.waitgeRecheck c slot) s = .next s' ∧ CoreOnly s s' c ∧
      s'.thread? c slot = some { t with wait := .waitge d va p bound (leWord v.1) true })) ∧
  (∀ c slot s t d va q off bound last v, Waits s c slot t (.waitge d va (.spad q off) bound last false) →
    t.code = .waiting → (s.core c).lock = none → InTurn s (.watchEntryGrant c slot) (.spad q off) false →
    (∀ q w, Event.feWaiterRelease q w ∉ s.agenda) →
    v = readPlace s c (.spad q off) 8 → v.2 = false → storeRoom s c (.spad q off) = true →
    s.entryWait.head? = some (⟨c, slot⟩, .spad q off) →
    (bound.toNat ≤ (leWord v.1).toNat → ∃ s', exec (.watchEntryGrant c slot) s = .next s' ∧
      Resumed s' c slot (t.setG d (leWord v.1))) ∧
    ((leWord v.1).toNat < bound.toNat → ∃ s', exec (.watchEntryGrant c slot) s = .next s' ∧
      s'.thread? c slot = some { t with code := .sleeping, sleepFor := 0, since := (s.core c).cyc,
                                        wait := .waitge d va (.spad q off) bound (leWord v.1) true } ∧
      s'.watches = s.watches ++ [geWatch ⟨c, slot⟩ (.spad q off)] ∧ (⟨c, slot⟩ : TRef) ∉ s'.entryWait.map (·.1))) ∧
  ∀ c off s w slot t d va data, Waits s c slot t (.fe true d va (.spad c (8 * off)) data true) →
    w = { place := .spad c (8 * off), thread := ⟨c, slot⟩, kind := .fe } → s.watches = [w] →
    off ∈ (s.core c).full → Unpoisoned (s.core c) (8 * off) 8 → (∀ q ∈ s.queries, q.answer = none) →
    (s.core c).fenced = false →
    ∃ s', exec (.feWaiterRelease c off) s = .next s' ∧ s'.watches = [] ∧ off ∉ (s'.core c).full ∧
      Resumed s' c slot (t.setG d (leWord (Mem.readN (s.core c).spad (8 * off) 8)))

/-- R15, R106, R111, R112, R216, R343: accesses performed: a load, waited for or relaxed, of a line that the L1 holds
gives its register the line's bytes; a relaxed store makes its line M, when no INVR of the core covers it (R134); a
guest's load reads the peer's scratchpad; a posted store is sent on its way. -/
def Obligations.AccessesArePerformed : Prop :=
  (∀ c slot s t a va pkg pa l d, Waits s c slot t (.access a) → t.relaxed = [] → (s.core c).lock = none →
    a.units = [{ va := va, size := 8, op := .load, place := some (.page .coherent pkg pa), sent := false,
                 out := none }] → a.fin = .g d false → a.bad = none →
    NoAct s (.accessComplete c slot) → Map.get? (s.core c).l1 (lineKey s pa) = some l → l.poison = false →
    ∃ s', exec (.accessComplete c slot) s = .next s' ∧
      Resumed s' c slot (t.setG d (leWord (slice l.data (pa % 64) 8)))) ∧
  (∀ c slot id s t x va pkg pa l d, s.thread? c slot = some t → t.relaxed = [x] → x.id = id → x.fault = none →
    t.wait = .idle → (s.core c).lock = none →
    x.acc.units = [{ va := va, size := 8, op := .load, place := some (.page .coherent pkg pa), sent := false,
                     out := none }] → x.acc.fin = .g d false →
    Map.get? (s.core c).l1 (lineKey s pa) = some l → l.poison = false →
    ∃ s', exec (.relaxedLoadDeliver c slot id) s = .next s' ∧
      s'.thread? c slot = some ({ t with relaxed := [] }.setG d (leWord (slice l.data (pa % 64) 8)))) ∧
  (∀ c slot id s t x va pkg pa l bs, s.thread? c slot = some t → t.relaxed = [x] → x.id = id → x.fault = none →
    t.wait = .idle → (s.core c).lock = none → bs.length = 8 →
    x.acc.units = [{ va := va, size := 8, op := .store bs, place := some (.page .coherent pkg pa), sent := false,
                     out := none }] → x.acc.fin = .none →
    Map.get? (s.core c).l1 (lineKey s pa) = some l → l.st ≠ .s → invrHolds s c (.page .coherent pkg pa) = false →
    ∃ s', exec (.relaxedStorePerform c slot id) s = .next s' ∧
      s'.thread? c slot = some { t with relaxed := [] } ∧
      Map.get? (s'.core c).l1 (lineKey s pa) =
        some { l with st := .m, data := patch l.data (pa % 64) bs, used := (s.core c).cyc }) ∧
  (∀ c slot q s t a va off d, Waits s c slot t (.access a) → (s.core q).guests = [(⟨c, slot⟩, none)] →
    a.units = [{ va := va, size := 8, op := .load, place := some (.spad q off), sent := true, out := none }] →
    a.fin = .g d false → c ≠ q → (s.core c).lock = none → (s.core q).lock = none → (s.core q).fenced = false →
    Unpoisoned (s.core q) off 8 → (∀ w ∈ s.watches, w.kind ≠ .fe) →
    ∃ s', exec (.guestAccess q) s = .next s' ∧ (s'.core q).guests = [] ∧
      Resumed s' c slot (t.setG d (leWord (Mem.readN (s.core q).spad off 8)))) ∧
  (∀ c slot s t a va pkg pa bs, Waits s c slot t (.access a) →
    a.units = [{ va := va, size := bs.length, op := .store bs, place := some (.page .remotePosted pkg pa),
                 sent := true, out := none }] → a.fin = .none →
    ∃ s', exec (.postedStoreAccept c slot) s = .next s' ∧ Resumed s' c slot t ∧
      s'.out = Map.set s.out s.fresh { id := s.fresh, kind := 0, addr := domAddr pkg pa, part := t.part,
                                       size := bs.length, data := bs, ms := msFor t pkg, thread := some ⟨c, slot⟩,
                                       lid := t.lid })

/-- R126, R329, R330, R340, R365: a watch is recorded and its code answered; a store to PMS is translated and kept; a
walk reads one entry at its home in each step, and one that succeeds is cached and its waiters go on; a copy whose term
has ended is dropped. -/
def Obligations.WatchesWalksAndTermsAreSettled : Prop :=
  (∀ c slot s t a va q off d w code, Waits s c slot t (.access a) →
    a.units = [{ va := va, size := 1, op := .watch, place := some (.spad q off), sent := true, out := none }] →
    a.fin = .status d → w = { place := .spad q (off / 64 * 64), thread := ⟨c, slot⟩, kind := .watch } →
    (code = if w ∈ s.watches then 1#64
      else if 8 ≤ (s.watches.filter (fun x => x.thread = ⟨c, slot⟩ && x.kind = .watch)).length then 3#64
      else if storeRoom s c w.place then 0#64 else 2#64) → NoAct s (.watchRecorded c slot) →
    ∃ s', exec (.watchRecorded c slot) s = .next s' ∧ Resumed s' c slot (t.setG d code) ∧
      s'.watches = if code = 0#64 then s.watches ++ [w] else s.watches) ∧
  (∀ c slot s t a va bs m, Waits s c slot t (.access a) →
    a.units = [{ va := va, size := 8, op := .store bs, place := some (.dev 0x80), sent := true, out := none }] →
    a.fin = .none → pmsTranslate s c t (leWord bs) = (s, .ok m) →
    ∃ s', exec (.pmsWrite c slot) s = .next s' ∧
      Resumed s' c slot { t with pms := leWord bs &&& ~~~7#64, pmsPhys := m }) ∧
  (∀ id s k p a, s.walks.find? (fun k => k.id = id) = some k → k.marked = false →
    p = walkStep s k.part k.proc k.va.toNat k.pos → walkReads s k.part k.proc k.va.toNat k.pos = some a →
    InTurn s (.walkComplete id) (.page .coherent s.pkg (a / 64 * 64)) false →
    (∀ lvl b, p = .table lvl b → ∃ s', exec (.walkComplete id) s = .next s' ∧ .walkComplete id ∈ s'.agenda ∧
      s'.walks = s.walks.map (fun x => if x.id = id then { k with pos := p } else x)) ∧
    ∀ e, p = .leaf e → exec (.walkComplete id) s = .next (settleAct (serveWaiters (tlbAdd { s with
      walks := s.walks.filter (fun x => x.id != id) } k.ws e) { k with pos := p } k.waiters) (.walkComplete id))) ∧
  ∀ agent line s l e, l.term = some e →
    (isL1 agent = true → Map.get? (s.core agent).l1 line = some l → e ≤ (s.core agent).cyc →
      ∃ s', exec (.copyTermExpiry agent line) s = .next s' ∧ CoreOnly s s' agent ∧
        (s'.core agent).l1 = Map.erase (s.core agent).l1 line) ∧
    (isL1 agent = false → Map.get? (rdcOf s (agent - 0xC00)) line = some l → e ≤ s.now →
      exec (.copyTermExpiry agent line) s =
        .next (setRdc s (agent - 0xC00) (Map.erase (rdcOf s (agent - 0xC00)) line)))

/-! ## Threads -/

/-- R189, R192, R243: SPAWN and SEND leave with their packet for a core of this package that hosts a group of the
launch, and answer their code when it hosts none (1), has no such core (2), or when SPAWN names another package
(3). -/
def Obligations.SpawnAndSendLeaveWithTheirPacket : Prop :=
  (∀ g d a b s c slot t name, name = t.gv a.toNat → (s.core c).lock = none →
    Issues { guard := g, g := [d.toNat, a.toNat, b.toNat], reads := [a.toNat, b.toNat, 1, 2, 3, 4],
             writes := [d.toNat], drain := true } s c slot t → Plain s c slot t →
    (∀ q gr, hPkg name = s.pkg → namedCore s t.part name = some q → groupOn s q t.lid = some gr →
      ∃ s', exec (.spawn g d a b) s = .next s' ∧ .threadPacketArrive s.fresh ∈ s'.agenda ∧
        Left (.spawn g d a b)
          { s with fresh := s.fresh + 1, packets := Map.set s.packets s.fresh (buildPacket s 0 c q
                     { childOf s t (t.gv b.toNat) (gRange t 1 4) with gid := gr.gid } (some ⟨c, slot⟩)) }
          s' c slot t .waiting (.packet d.toNat s.fresh) s.watches) ∧
    (∀ r, (hPkg name ≠ s.pkg ∧ r = 3 ∨ hPkg name = s.pkg ∧ namedCore s t.part name = none ∧ r = 2 ∨
        hPkg name = s.pkg ∧ (∃ q, namedCore s t.part name = some q ∧ groupOn s q t.lid = none) ∧ r = 1) →
      ∃ s', exec (.spawn g d a b) s = .next s' ∧
        Becomes s s' c slot ((past (.spawn g d a b) 4 t).setG d.toNat (spawnFail t.part name r)))) ∧
  ∀ g d a b s c slot t name, name = t.gv a.toNat → (s.core c).lock = none → hPkg name = s.pkg →
    Issues { guard := g, g := [d.toNat, a.toNat, b.toNat], reads := [a.toNat, b.toNat, 1, 2, 3, 4, 5, 6, 7, 8, 9, 10],
             writes := [d.toNat], drain := true } s c slot t → Plain s c slot t →
    (∀ q gr, namedCore s t.part name = some q → groupOn s q t.lid = some gr →
      ∃ s', exec (.send g d a b) s = .next s' ∧ .threadPacketArrive s.fresh ∈ s'.agenda ∧
        Left (.send g d a b)
          { s with fresh := s.fresh + 1, packets := Map.set s.packets s.fresh
                     (buildPacket s 2 c q (handlerOf s t (t.gv b.toNat)) (some ⟨c, slot⟩)) }
          s' c slot t .waiting (.packet d.toNat s.fresh) s.watches) ∧
    (∀ r, (namedCore s t.part name = none ∧ r = 2#64 ∨
        (∃ q, namedCore s t.part name = some q ∧ groupOn s q t.lid = none) ∧ r = 1#64) →
      ∃ s', exec (.send g d a b) s = .next s' ∧
        Becomes s s' c slot ((past (.send g d a b) 4 t).setG d.toNat r))

/-- R190, R191, R193, R194: QUIT frees its slot, whose generation advances; MIGR to the own scratchpad does nothing,
and to another core, of this package or of another, leaves with its packet; FORK writes the join cell and its parts;
JOIN's decrement goes to the cell's home. -/
def Obligations.QuitMigrForkAndJoin : Prop :=
  (∀ g s c slot t, Issues { guard := g, drain := true } s c slot t → Plain s c slot t → t.bars = [] →
    t.handler = false → t.migrant = false → (∃ x ∈ (s.core c).threads, x.1 ≠ slot ∧ ownMember x.2 t.gid = true) →
    (∀ gr, s.group? t.gid = some gr → gr.core = c ∧ gr.gid = t.gid) → t.relaxed = [] →
    ∃ s', exec (.quit g) s = .next s' ∧ s'.thread? c slot = none ∧
      (∀ x, x ≠ slot → s'.thread? c x = s.thread? c x) ∧
      genOf (s'.core c) slot = (genOf (s.core c) slot + 1) % 2 ^ 20 ∧ s'.groups = s.groups) ∧
  (∀ g a s c slot t ea D U R, ea = t.gv a.toNat → R = reading (.migr g a) t →
    D = { guard := g, g := [a.toNat], reads := [a.toNat], drain := true, commit := fun _ => true } →
    Issues D s c slot t → U = atIssue (.migr g a) D s c slot t →
    (ea.toNat < 0x20000 → (s.core c).lock = none → Plain s c slot t →
      ∃ s', exec (.migr g a) s = .next s' ∧ Becomes s s' c slot (past (.migr g a) 4 t)) ∧
    (∀ u k pa m q, 0x20000 ≤ ea.toNat → resolve U c t.part t.proc ea .ld1 = (u, .ok (.page k u.pkg pa, m)) →
      mayMigrate u R = true → migrTarget u t.part pa = some q → q ≠ c →
      exec (.migr g a) s = .next (afterIssue (sendPacket (beginWait u c slot .waiting (.packet 0 u.fresh)) 1 q
        (migrantOf u R (t.pc + 4#64)) ⟨c, slot⟩) c slot)) ∧
    (∀ u k pkg pa m, 0x20000 ≤ ea.toNat → resolve U c t.part t.proc ea .ld1 = (u, .ok (.page k pkg pa, m)) →
      mayMigrate u R = true → pkg ≠ u.pkg →
      exec (.migr g a) s = .next (afterIssue (match Config.farCore u.free (domAddr pkg pa) t.part with
        | some q => sendAway { beginWait u c slot .waiting (.packet 0 u.fresh) with free := u.free + 1 } 1 q
            (domAddr pkg pa) (migrantOf u R (t.pc + 4#64)) ⟨c, slot⟩
        | none => u) c slot))) ∧
  (∀ g d a b s c slot t U R u p x w T,
    Issues { guard := g, g := [d.toNat, a.toNat, b.toNat], reads := [a.toNat, b.toNat, 3, 4, 5, 6, 7, 8, 9, 10],
             writes := [1, 2, d.toNat], drain := true, commit := fun _ => true } s c slot t →
    R = reading (.fork g d a b) t → T = (t.gv b.toNat).toNat →
    U = atIssue (.fork g d a b)
      { guard := g, g := [d.toNat, a.toNat, b.toNat], reads := [a.toNat, b.toNat, 3, 4, 5, 6, 7, 8, 9, 10],
        writes := [1, 2, d.toNat], drain := true, commit := fun _ => true } s c slot t →
    cellPlace U c R (t.gv a.toNat) 16 false = (u, .ok p) →
    x = findRecruits u R c (Nat.min 128 ((T + forkGrain u R - 1) / forkGrain u R) - 1) (forkCores u t.part c t.lid) →
    w = storeAt (storeAt x.1 c p (wordBytes (BitVec.ofNat 64 (x.2 + 1))) false) c (p.add 12)
      (leBytes (handleOf (storeAt x.1 c p (wordBytes (BitVec.ofNat 64 (x.2 + 1))) false) c slot).toNat 4) false →
    exec (.fork g d a b) s = .next (afterIssue (writeG (writeG (writeG (sendRecruits w u.fresh T (x.2 + 1) x.2 x.2)
      c slot 1 (partLo T (x.2 + 1) 0)) c slot 2 (partLo T (x.2 + 1) 1)) c slot d.toNat
      (BitVec.ofNat 64 (x.2 + 1))) c slot)) ∧
  ∀ g a s c slot t ea e pkg pa m, ea = t.gv a.toNat → (s.core c).lock = none → ea.toNat % 16 = 0 →
    0x10000000000 ≤ ea.toNat → Issues { guard := g, g := [a.toNat], reads := [a.toNat], drain := true } s c slot t →
    Plain s c slot t → t.relaxed = [] → tlbFind (wsOf s (coreWs s c)) t.part t.proc ea = some e →
    e.pkg = s.pkg → checkPage s t.part ea (.cell false) e = .ok (.page .coherent pkg pa) →
    m = { mkMsg s .amo (pa / 64) c with thread := some ⟨c, slot⟩ } →
    ∃ s' acc, exec (.join g a) s = .next s' ∧ acc.fin = .join ∧ .amo (pa / 64) c ∈ s'.agenda ∧
      acc.units = [{ va := ea, size := 16, op := .join, place := some (.page .coherent pkg pa), sent := true,
                     out := none }] ∧
      Left (.join g a) { s with msgs := s.msgs ++ [m] } s' c slot t .waiting (.access acc) s.watches

/-! ## System instructions and acts -/

/-- R199, R200, R202: TSTOP, TSTART, TREAD and TWRITE of a thread of this package leave their act, with the rights
that the authority table gives over the target, and its status ends their wait: a stop leaves the target STOPPED; a
start lets a FAULTED target go on from its pc; a read gives the selected register; a write sets it. -/
def Obligations.ThreadStateActsReachTheirTarget : Prop :=
  (∀ i D op d h s c slot t U R u r (g : BitVec 3) (fd fa fb : BitVec 7),
    (i = .tstop g fd fa ∧ op = .stop ∧ d = fd.toNat ∧
        D = { guard := g, g := [fd.toNat, fa.toNat], reads := [fa.toNat], writes := [fd.toNat], drain := true,
              commit := fun _ => true } ∨
      i = .tstart g fd fa ∧ op = .start ∧ d = fd.toNat ∧
        D = { guard := g, g := [fd.toNat, fa.toNat], reads := [fa.toNat], writes := [fd.toNat], drain := true,
              commit := fun _ => true } ∨
      i = .tread g fd fa fb ∧ op = .read fd.toNat fb.toNat (t.gv fb.toNat) ∧ d = 0 ∧
        D = { guard := g, g := [fd.toNat, fa.toNat, fb.toNat], reads := [fa.toNat, fb.toNat],
              writes := [fd.toNat, fb.toNat], drain := true, commit := fun _ => true } ∨
      i = .twrite g fd fa fb ∧ op = .write fb.toNat (t.gv fb.toNat) (t.gv fd.toNat) ∧ d = 0 ∧
        D = { guard := g, g := [fd.toNat, fa.toNat, fb.toNat], reads := [fd.toNat, fa.toNat, fb.toNat],
              writes := [fb.toNat], drain := true, commit := fun _ => true }) →
    h = t.gv fa.toNat → Issues D s c slot t → R = reading i t → U = atIssue i D s c slot t → hPkg h = u.pkg →
    (hPart h ≠ t.part ∧ u = U ∧ r = 0#32 ∨ hPart h = t.part ∧ rightsOver U c R h = (u, .ok r)) →
    exec i s = .next (afterIssue
      ((({ beginWait u c slot .waiting (.tact u.fresh) with
           acts := (beginWait u c slot .waiting (.tact u.fresh)).acts ++
             [{ id := u.fresh, thread := some ⟨c, slot⟩, handle := h, op := op, d := d, rights := r,
                part := t.part }] } : State).bump).post (.threadStateAct c slot)) c slot)) ∧
  ∀ s c slot t a q x u, Waits s c slot t (.tact a.id) → s.acts.find? (fun y => y.id = a.id) = some a →
    hPart a.handle = a.part → (∀ r ∈ a.op.needs, a.rights.getLsbD r = true) → hPkg a.handle = s.pkg →
    namedCore s a.part a.handle = some q → x = hSlot a.handle → s.thread? q x = some u →
    genOf (s.core q) x = hGen a.handle → ¬(q = c ∧ x = slot) →
    (a.op = .stop → u.code = .ready ∨ u.code = .running ∨ u.code = .waiting ∨ u.code = .sleeping →
      ∃ s' u', exec (.threadStateAct c slot) s = .next s' ∧ Resumed s' c slot (t.setG a.d 0#64) ∧
        s'.thread? q x = some u' ∧ u'.code = .stopped ∧ u'.sstop = true ∧ u'.wait = u.wait ∧ u'.g = u.g ∧
          u'.pc = u.pc) ∧
    (a.op = .start → u.code = .faulted → u.hold = false → u.away = false → u.wait = .idle →
      ∃ s' u', exec (.threadStateAct c slot) s = .next s' ∧ Resumed s' c slot (t.setG a.d 0#64) ∧
        s'.thread? q x = some u' ∧ u'.code = .ready ∧ u'.sstop = false ∧ u'.g = u.g ∧ u'.pc = u.pc) ∧
    (∀ d b sel y, a.op = .read d b sel → u.code = .stopped ∨ u.code = .faulted → selOf u sel = some y →
      writePending s q x u y = false → (∀ k, y.key = some k → u.poison.contains k = false) →
      ∃ s', exec (.threadStateAct c slot) s = .next s' ∧
        Resumed s' c slot ((t.setG d (selRead u y)).setG b 0#64)) ∧
    (∀ b sel w y, a.op = .write b sel w → u.code = .stopped ∨ u.code = .faulted → selOf u sel = some y →
      selRefuses y w = false →
      ∃ s' u', exec (.threadStateAct c slot) s = .next s' ∧ Resumed s' c slot (t.setG b 0#64) ∧
        s'.thread? q x = some u' ∧ (selWrite s q x u y w).thread? q x = some u')

/-- R206, R331: INVPG with its right sends an invalidation to the 32 waystations; each removes the matching
translations; when all have been met and what was to be waited for is performed, the thread receives 0. R207, R379:
SELFT holds the core until its test is over; the thread then receives the units that failed. -/
def Obligations.InvalidationsAndSelfTests : Prop :=
  (∀ g d a b s c slot t T D U u, D = { dRRR g d a b with drain := true } → Issues D s c slot t →
    U = atIssue (.invpg g d a b) D s c slot t → needRight U c slot (reading (.invpg g d a b) t) 6 = (u, none) →
    u.thread? c slot = some T →
    ∃ s', exec (.invpg g d a b) s = .next s' ∧
      s'.thread? c slot = some { T with code := .waiting, wait := .invpg d.toNat u.fresh, sleepFor := 0,
                                        since := (u.core c).cyc } ∧
      s'.invals = u.invals ++
        [{ id := u.fresh, thread := ⟨c, slot⟩, part := t.part, proc := (t.gv b.toNat).toNat % 65536,
           va := t.gv a.toNat, size := (t.gv b.toNat).toNat / 65536 % 4, left := List.range 32 }] ∧
      ∀ w, w < 32 → .waystationInvalidate w u.fresh ∈ s'.agenda) ∧
  (∀ w id s v, s.invals.find? (fun x => x.id = id) = some v → w ∈ v.left →
    ∃ s', exec (.waystationInvalidate w id) s = .next s' ∧
      wsOf s' w = (wsOf s w).filter (fun e => !invalHits v e) ∧ (∀ x, x ≠ w → wsOf s' x = wsOf s x) ∧
      s'.invals = s.invals.map (fun x => if x.id = id then meetInval s w v else x) ∧
      s'.cores = s.cores ∧ ((∀ x ∈ v.left, x = w) → .invpgComplete v.thread.core v.thread.slot ∈ s'.agenda)) ∧
  (∀ s c slot t d id v, Waits s c slot t (.invpg d id) → s.invals.find? (fun x => x.id = id) = some v →
    invalDone s v = true → ∃ s', exec (.invpgComplete c slot) s = .next s' ∧ Resumed s' c slot (t.setG d 0#64)) ∧
  (∀ g d a b s c slot t T D U u w p m va, D = { dRRR g d a b with drain := true } → Issues D s c slot t →
    U = atIssue (.selft g d a b) D s c slot t → needRight U c slot (reading (.selft g d a b) t) 8 = (u, none) →
    va = t.gv b.toNat → va.toNat % 64 = 0 → resolve u c t.part t.proc va .st = (w, .ok (p, m)) →
    w.thread? c slot = some T →
    ∃ s', exec (.selft g d a b) s = .next s' ∧ (s'.core c).selft = some slot ∧
      s'.thread? c slot = some
        { T with code := .waiting, sleepFor := 0, since := (w.core c).cyc,
                 wait := .selft d.toNat ((t.gv a.toNat).truncate 8) p
                   ((w.core c).cyc + selftTime ((t.gv a.toNat).truncate 8)) }) ∧
  ∀ s c slot t d mask p e failed rows ways bank r s1, Waits s c slot t (.selft d mask p e) → e ≤ (s.core c).cyc →
    (mask.getLsbD 3 && mmaRuns s c) = false → r = tested (s.core c) mask failed rows ways →
    s1 = putRecord { s with free := s.free + 1 } c t.part p (selftRecord mask r bank) →
    s1.thread? c slot = some t →
    ∃ s2, Resumed s2 c slot (t.setG d (r.failed.zeroExtend 64)) ∧ (s2.core c).selft = none ∧
      exec (.selftComplete c slot failed rows ways bank) s =
        .next (fenceFound (repair s2 c r (handleOf s c slot)) c r (handleOf s c slot)) ∧
      (r.failed = 0#8 → r.fence = false → r.fused = 0 → r.disabled = 0 →
        exec (.selftComplete c slot failed rows ways bank) s = .next s2)

/-- R125: FENCE goes on when its conditions hold, and waits until they do otherwise. R132: WBR, INVR and WBINVR leave
the rotation until their lines are written back or dropped; a length of 0 gives 0. R135: PREFR waits for no
operand and completes in its turn; with a length of 0 it changes nothing but its thread's pc. R198, R385: CHKPT gives 0
on a core that is not paired, and otherwise waits for the pair's commit, which
takes the core's checkpoint. -/
def Obligations.FencesRangesAndCheckpoints : Prop :=
  (∀ g cw eng rel scope s c slot t D U,
    D = { guard := g, drain := rel = 1#1, commit := fun _ => decide (3 ≤ scope.toNat) } → Issues D s c slot t →
    Plain s c slot t → (s.core c).lock = none → U = atIssue (.fence g cw eng rel scope) D s c slot t →
    (fenceHolds U ⟨c, slot⟩ (cw = 1#1) (eng = 1#1) scope.toNat = true →
      ∃ s', exec (.fence g cw eng rel scope) s = .next s' ∧
        Becomes s s' c slot (past (.fence g cw eng rel scope) 4 t)) ∧
    (fenceHolds U ⟨c, slot⟩ (cw = 1#1) (eng = 1#1) scope.toNat = false →
      ∃ s', exec (.fence g cw eng rel scope) s = .next s' ∧ Left (.fence g cw eng rel scope) s s' c slot t .waiting
        (.fence (cw = 1#1) (eng = 1#1) (rel = 1#1) scope.toNat) s.watches)) ∧
  (∀ g d a b s c slot t i op, (i = .wbr g d a b ∧ op = 0 ∨ i = .invr g d a b ∧ op = 1 ∨ i = .wbinvr g d a b ∧ op = 2) →
    Issues (dRRR g d a b) s c slot t → Plain s c slot t → (s.core c).lock = none →
    ∃ s', exec i s = .next s' ∧ .accessComplete c slot ∈ s'.agenda ∧
      Left i s s' c slot t .waiting (.range op d.toNat (t.gv a.toNat) (t.gv b.toNat) none) s.watches) ∧
  (∀ s c slot t op d va ctl, Waits s c slot t (.range op d va ctl none) → ctl.toNat % 2 ^ 40 = 0 →
    ∃ s', exec (.accessComplete c slot) s = .next s' ∧ Resumed s' c slot (t.setG d 0#64)) ∧
  (∀ g a b s c slot t, Issues { guard := g, g := [a.toNat, b.toNat] } s c slot t → Plain s c slot t →
    ∃ s', exec (.prefr g a b) s = .next s' ∧ s'.thread? c slot = some (past (.prefr g a b) 4 t) ∧
      ((t.gv b.toNat).toNat % 2 ^ 40 = 0 → Becomes s s' c slot (past (.prefr g a b) 4 t))) ∧
  (∀ g d s c slot t, Issues { guard := g, g := [d.toNat], writes := [d.toNat], drain := true } s c slot t →
    Plain s c slot t →
    ((s.core c).lock = none →
      ∃ s', exec (.chkpt g d) s = .next s' ∧ Becomes s s' c slot ((past (.chkpt g d) 4 t).setG d.toNat 0#64)) ∧
    ((s.core c).lock ≠ none →
      ∃ s', exec (.chkpt g d) s = .next s' ∧ .checkpointCommit c ∈ s'.agenda ∧
        Left (.chkpt g d) s s' c slot t .waiting (.chkpt d.toNat) s.watches)) ∧
  ∀ s c slot t d L n, (s.core c).lock = some L → n = (L.count + 1) % 2 ^ 32 → L.held = [] → L.after = [] →
    (s.core c).threads = [(slot, t)] → Waits s c slot t (.chkpt d) →
    ∃ s' L', exec (.checkpointCommit c) s = .next s' ∧ Resumed s' c slot (t.setG d (BitVec.ofNat 64 n)) ∧
      (s'.core c).lock = some L' ∧ L'.count = n ∧ L'.snap = [(slot, t)] ∧ L'.undo = [] ∧ L'.held = []

/-! ## The special-function and stochastic units -/

/-- R29, R30, R141, R148: a special-function request joins the core's queue, or its thread waits for a place; the
request at the head writes its result and its flags, and its thread is READY. R184: the stochastic unit's results are
written when its time is over. -/
def Obligations.RequestsOfTheSharedUnits : Prop :=
  (∀ i g d a b p x s c slot t r,
    (i = .vfdiv g d a b p ∧ x = [b.toNat] ∨ x = [] ∧ (i = .vfsqrt g d a p ∨ i = .vrcp g d a ∨ i = .vrsq g d a ∨
      i = .vexp2 g d a ∨ i = .vlog2 g d a ∨ i = .vsin g d a ∨ i = .vcos g d a ∨ i = .vtanh g d a ∨
      i = .vsigm g d a)) →
    Issues { guard := g, v := d.toNat :: a.toNat :: x, vreads := a.toNat :: x, vwrites := [d.toNat] } s c slot t →
    Plain s c slot t →
    r = { slot := slot, instr := i, vd := d.toNat, a := t.vv a.toNat, b := ((x.head?.map t.vv).getD 0#512),
          fpctl := t.fpctl } →
    ((s.core c).sfuq.length < 32 → (s.core c).sfuWait = [] →
      ∃ s', exec i s = .next s' ∧ .sfuRequestComplete c ∈ s'.agenda ∧
        Left i (s.modCore c (fun k => { k with sfuq := k.sfuq ++ [r] })) s' c slot t .waiting .sfu s.watches) ∧
    (32 ≤ (s.core c).sfuq.length ∨ (s.core c).sfuWait ≠ [] →
      ∃ s', exec i s = .next s' ∧
        Left i (s.modCore c (fun k => { k with sfuWait := k.sfuWait ++ [slot] })) s' c slot t .waiting (.sfuPlace r)
          s.watches)) ∧
  (∀ s c slot rest t r, (s.core c).sfuWait = slot :: rest → (s.core c).sfuq.length < 32 →
    Waits s c slot t (.sfuPlace r) →
    ∃ s', exec (.sfuQueueAdmit c) s = .next s' ∧ s'.thread? c slot = some { t with wait := .sfu } ∧
      (s'.core c).sfuq = (s.core c).sfuq ++ [r] ∧ (s'.core c).sfuWait = rest ∧ .sfuRequestComplete c ∈ s'.agenda) ∧
  (∀ s c t r rest, (s.core c).sfuq = r :: rest → Waits s c r.slot t .sfu →
    ∃ s', exec (.sfuRequestComplete c) s = .next s' ∧ (s'.core c).sfuq = rest ∧
      Resumed s' c r.slot ((withFlags t (sfuResult r).2).setV r.vd (sfuResult r).1)) ∧
  ∀ s c slot t e w, Waits s c slot t (.ssu e w) → e ≤ (s.core c).cyc →
    ∃ s', exec (.ssuComplete c slot) s = .next s' ∧
      (∀ d v, w = [.g d v] → Resumed s' c slot (t.setG d v)) ∧
      (∀ d v, w = [.v d v] → Resumed s' c slot (t.setV d v)) ∧
      (∀ d v, w = [.z d v] → Resumed s' c slot (t.setZ d v))

/-- R149 to R151: a NaN gives its quieted self, and invalid if it is signalling; no other flag than divide-by-zero and
invalid is raised; the table's special inputs, and the rule's worked examples. -/
def Obligations.SpecialFunctionsOfSpecialInputs : Prop :=
  (∀ f : Nat → Nat × BitVec 5, f ∈ [sfuRcp, sfuRsq, sfuExp2, sfuLog2, sfuSin, sfuCos, sfuTanh, sfuSigm] →
    (∀ w p q, fp32.unpack w = .nan p q → f w = (fp32.quiet w, if q then flInvalid else 0#5)) ∧
    ∀ w, (f w).2 = 0#5 ∨ (f w).2 = flInvalid ∨ (f w).2 = flDivZero) ∧
  sfuRcp 0 = (0x7F800000, flDivZero) ∧ sfuRcp 0x80000000 = (0xFF800000, flDivZero) ∧ sfuRcp 0x7F800000 = (0, 0#5) ∧
  sfuRcp 0xFF800000 = (0x80000000, 0#5) ∧ sfuRsq 0 = (0x7F800000, flDivZero) ∧
  sfuRsq 0x80000000 = (0xFF800000, flDivZero) ∧ sfuRsq 0x7F800000 = (0, 0#5) ∧
  sfuRsq 0xFF800000 = (fp32.canon, flInvalid) ∧
  (∀ w, fp32.unpack w = .inf true → sfuExp2 w = (0, 0#5) ∧ sfuLog2 w = (fp32.canon, flInvalid)) ∧
  (∀ w, fp32.unpack w = .inf false → sfuExp2 w = (0x7F800000, 0#5) ∧ sfuLog2 w = (0x7F800000, 0#5)) ∧
  (∀ w m e, fp32.unpack w = .fin true m e → m ≠ 0 → sfuRsq w = (fp32.canon, flInvalid) ∧
    sfuLog2 w = (fp32.canon, flInvalid)) ∧
  sfuLog2 0 = (0xFF800000, flDivZero) ∧ sfuLog2 0x80000000 = (0xFF800000, flDivZero) ∧
  (∀ w neg, fp32.unpack w = .inf neg → sfuSin w = (fp32.canon, flInvalid) ∧ sfuCos w = (fp32.canon, flInvalid)) ∧
  sfuExp2 0 = (0x3F800000, 0#5) ∧ sfuSin 0 = (0, 0#5) ∧ sfuCos 0 = (0x3F800000, 0#5) ∧ sfuTanh 0 = (0, 0#5) ∧
  sfuTanh 0x80000000 = (0x80000000, 0#5) ∧ sfuTanh 0x7F800000 = (0x3F800000, 0#5) ∧
  sfuTanh 0xFF800000 = (0xBF800000, 0#5) ∧ sfuSigm 0 = (0x3F000000, 0#5) ∧ sfuSigm 0x7F800000 = (0x3F800000, 0#5) ∧
  sfuSigm 0xFF800000 = (0, 0#5) ∧ sfuRcp 0x40400000 = (0x3EAAAAAB, 0#5) ∧ sfuExp2 0x40200000 = (0x40B504F3, 0#5) ∧
  sfuSin 0xBE800000 = (0xBF800000, 0#5)

/-! ## Barriers -/

/-- R197, R248: BREG leaves its thread waiting for its core's record, or gives all ones; BAR arrives and sleeps on the
phase; BARD arrives, drops its registration and gives the phase. The core's record sends JOIN, ARRIVE and DROP. R249:
an ARRIVE is counted in the object, and completes the phase when it is the last that is expected; of the messages that
reach an object in one cycle the JOINs and DROPs count first, then the ARRIVEs, and then there is one test. -/
def Obligations.BarriersCountAndCompleteTheirPhases : Prop :=
  (∀ i g d a s c slot t T D U R u p, (i = .breg g d a ∨ i = .bar g d a ∨ i = .bard g d a) →
    D = { dRR g d a with drain := true } → Issues D s c slot t → R = reading i t → U = atIssue i D s c slot t →
    cellPlace U c R (t.gv a.toNat) 32 true = (u, .ok p) → u.thread? c slot = some T →
    (i = .breg g d a → R.bars.length < 4 → p ∉ R.bars →
      ∃ s', exec i s = .next s' ∧ .barrierRecordGrant c ∈ s'.agenda ∧
        (s'.core c).barWait = (u.core c).barWait ++ [slot] ∧
        s'.thread? c slot = some { T with code := .waiting, wait := .breg d.toNat p, sleepFor := 0,
                                          since := (u.core c).cyc }) ∧
    ((i = .breg g d a ∧ (4 ≤ R.bars.length ∨ p ∈ R.bars) ∨ i ≠ .breg g d a ∧ p ∉ R.bars) →
      exec i s = .next (afterIssue (writeG u c slot d.toNat (BitVec.allOnes 64)) c slot)) ∧
    (i = .bar g d a → p ∈ R.bars → (readPlace u c (p.add 8) 8).2 = false →
      ∃ v, v = beginWait u c slot .sleeping (.bar d.toNat (p.add 8) (placeWordAt u p 1)) ∧
        exec i s = .next (afterIssue (arriveBar { v with watches := v.watches ++
          [{ place := lineOf p, thread := ⟨c, slot⟩, kind := .bar }] } c p) c slot)) ∧
    (i = .bard g d a → p ∈ R.bars → (readPlace u c (p.add 8) 8).2 = false →
      exec i s = .next (afterIssue (dropReg (writeG (u.modThread c slot (fun t => { t with
        bars := t.bars.filter (· != p) })) c slot d.toNat (placeWordAt u p 1)) c p) c slot))) ∧
  (∀ s c slot rest t d p u v, (s.core c).barWait = slot :: rest → Waits s c slot t (.breg d p) →
    u = s.setCore c { s.core c with barWait := rest } → barPoison u p = false →
    v = u.setThread c slot { t with bars := t.bars ++ [p] } →
    (∀ r, (s.core c).bars.find? (fun r => r.place = p) = some r →
      ∃ s', exec (.barrierRecordGrant c) s = .next s' ∧
        Resumed s' c slot (({ t with bars := t.bars ++ [p] } : Thread).setG d (placeWordAt v p 1)) ∧
        (s'.core c).bars = (s.core c).bars.map (fun r => if r.place = p then { r with r := r.r + 1 } else r) ∧
        s'.barMsgs = s.barMsgs) ∧
    ((s.core c).bars.find? (fun r => r.place = p) = none → (s.core c).bars.length < 64 →
      ∃ s', exec (.barrierRecordGrant c) s = .next s' ∧ s'.thread? c slot = some { t with bars := t.bars ++ [p] } ∧
        (s'.core c).bars = { place := p, r := 1, a := 0 } :: (s.core c).bars ∧ .barrierJoin s.fresh ∈ s'.agenda ∧
        s'.barMsgs = s.barMsgs ++
          [{ id := s.fresh, kind := 0, place := p, status := 0#64, thread := some ⟨c, slot⟩ }])) ∧
  (∀ s c p r, (s.core c).bars.find? (fun x => x.place = p) = some r →
    (r.a + 1 < r.r → arriveBar s c p = s.modCore c (fun k => { k with
      bars := k.bars.map (fun x => if x.place = p then { x with a := r.a + 1 } else x) })) ∧
    (r.a + 1 = r.r → arriveBar s c p = sendBar (s.modCore c (fun k => { k with
      bars := k.bars.map (fun x => if x.place = p then { x with a := 0 } else x) })) 2 p 0#64 none) ∧
    (r.r = 1 → (s.core c).barWait = [] → dropReg s c p = sendBar (s.modCore c (fun k => { k with
      bars := (s.core c).bars.filter (fun x => x.place != p) })) 1 p 0#64 none)) ∧
  (∀ s id m u, s.barMsgs.find? (fun m => m.id = id) = some m → s.barMsgs.filter (together s m) = [m] → m.cmd = none →
    u = postWaiting { s with barMsgs := s.barMsgs.filter (fun x => !together s m x), free := s.free + 1 } →
    (m.kind = 0 → (∀ r, m.thread = some r → InTurn s (.barrierJoin id) m.place true → exec (.barrierJoin id) s =
        .next (settleAct (bregDone (barAct u 0 m.place m.status) r (placeWordAt u m.place 1)) (.barrierJoin id)))) ∧
    (m.kind = 1 → m.thread = none → InTurn s (.barrierDrop id) m.place true →
      exec (.barrierDrop id) s = .next (settleAct (barAct u 1 m.place m.status) (.barrierDrop id))) ∧
    (m.kind = 2 → m.thread = none → InTurn s (.barrierArrive id) m.place true →
      exec (.barrierArrive id) s = .next (settleAct (barAct u 2 m.place m.status) (.barrierArrive id))) ∧
    ∀ e a k, m.kind < 3 → placeWordAt u m.place 0 = BitVec.ofNat 64 (e + 2 ^ 32 * a) → e < 2 ^ 32 → a < 2 ^ 32 - 1 →
      k = (if m.kind = 2 then a + 1 else a) → m.status = 0#64 →
      (∀ x, x = (if m.kind = 0 then (e + 1) % 2 ^ 32 else if m.kind = 1 then (e + 2 ^ 32 - 1) % 2 ^ 32 else e) →
        (k < x → barAct u m.kind m.place m.status =
          writePlace u 0 m.place (wordBytes (BitVec.ofNat 64 (x + 2 ^ 32 * k))) false) ∧
        (x ≤ k → barAct u m.kind m.place m.status =
          (let w := writePlace u 0 m.place (wordBytes (BitVec.ofNat 64 x)) false
           writePlace w 0 (m.place.add 8) (wordBytes (nextPhase (placeWordAt w m.place 1))) false)))) ∧
  ∀ u p j d n e a, placeWordAt u p 0 = BitVec.ofNat 64 (e + 2 ^ 32 * a) → e + j < 2 ^ 32 → d ≤ e + j → a + n < 2 ^ 32 →
    (a + n < e + j - d → barActs u p j d n 0#64 =
      writePlace u 0 p (wordBytes (BitVec.ofNat 64 (e + j - d + 2 ^ 32 * (a + n)))) false) ∧
    (e + j - d ≤ a + n → barActs u p j d n 0#64 =
      (let w := writePlace u 0 p (wordBytes (BitVec.ofNat 64 (e + j - d))) false
       writePlace w 0 (p.add 8) (wordBytes (nextPhase (placeWordAt w p 1))) false))

/-! ## The Causeway -/

/-- R209, R260: CWST, CWADD and CWCAS enter their port's queue, or wait for room; CWST goes on, the others wait for the
old value. CWFENCE gives the applied count once every accepted operation has been applied. The first operation that
waits for room enters when there is some. -/
def Obligations.CausewayOperationsEnterTheQueue : Prop :=
  (∀ i k dd w x g d a b s c slot t D va p o n,
    (i = .cwst g d a ∧ k = .cwst ∧ dd = 0 ∧ w = t.gv d.toNat ∧ x = 0#64 ∧
        D = { guard := g, g := [d.toNat, a.toNat], reads := [d.toNat, a.toNat], drain := true,
              commit := fun _ => true } ∨
      i = .cwadd g d a b ∧ k = .cwadd ∧ dd = d.toNat ∧ w = t.gv b.toNat ∧ x = 0#64 ∧
        D = { guard := g, g := [d.toNat, a.toNat, b.toNat], reads := [a.toNat, b.toNat], writes := [d.toNat],
              drain := true, commit := fun _ => true } ∨
      i = .cwcas g d a b ∧ k = .cwcas ∧ dd = d.toNat ∧ w = t.gv b.toNat ∧ x = t.gv d.toNat ∧
        D = { guard := g, g := [d.toNat, a.toNat, b.toNat], reads := [d.toNat, a.toNat, b.toNat],
              writes := [d.toNat], drain := true, commit := fun _ => true }) →
    Issues D s c slot t → Plain s c slot t → (s.core c).lock = none → va = t.gv a.toNat →
    cwTarget s t.part va = .ok (p, n) →
    o = { what := { kind := k, word := n, data := w, expect := x }, issuer := some ⟨c, slot⟩, d := dd } →
    ((s.port p).queue.length < 1024 → (s.port p).room = [] →
      ∃ s', exec i s = .next s' ∧
        (k = .cwst → Becomes (acceptOp s p o) s' c slot (past i 4 t)) ∧
        (k ≠ .cwst →
          Left i (acceptOp s p o) s' c slot t .waiting (.cwResult p dd (s.port p).accepted va) s.watches)) ∧
    (1024 ≤ (s.port p).queue.length ∨ (s.port p).room ≠ [] →
      ∃ s', exec i s = .next s' ∧
        Left i (s.modPort p (fun y => { y with room := y.room ++ [⟨c, slot⟩] })) s' c slot t .waiting (.cwRoom p o va)
          s.watches)) ∧
  (∀ g d a s c slot t va p n,
    Issues { guard := g, g := [d.toNat, a.toNat], reads := [a.toNat], writes := [d.toNat], drain := true,
             commit := fun _ => true } s c slot t →
    Plain s c slot t → (s.core c).lock = none → va = t.gv a.toNat → cwTarget s t.part va = .ok (p, n) →
    ((s.port p).accepted ≤ (s.port p).ownApplied →
      ∃ s', exec (.cwfence g d a) s = .next s' ∧
        Becomes s s' c slot ((past (.cwfence g d a) 4 t).setG d.toNat (BitVec.ofNat 64 (s.port p).applied))) ∧
    ((s.port p).ownApplied < (s.port p).accepted →
      ∃ s', exec (.cwfence g d a) s = .next s' ∧
        Left (.cwfence g d a) s s' c slot t .waiting (.cwFence p d.toNat (s.port p).accepted va) s.watches)) ∧
  ∀ s p c slot rest t o va, (s.port p).room = ⟨c, slot⟩ :: rest → (s.port p).queue.length < 1024 →
    Waits s c slot t (.cwRoom p o va) →
    ∃ s', exec (.cwQueueAdmit p) s = .next s' ∧ (s'.port p).queue = (s.port p).queue ++ [o] ∧
      (s'.port p).room = rest ∧ (s'.port p).accepted = (s.port p).accepted + 1 ∧
      (o.what.kind = .cwst → Resumed s' c slot t) ∧
      (o.what.kind ≠ .cwst → s'.thread? c slot = some { t with wait := .cwResult p o.d (s.port p).accepted va })

/-- R209, R253 to R270: how a port joins, leaves and refuses; how the views, the frames and the replays of its rotations
reach it and are applied; how an operation changes the replica; and how it recovers from the loss of frames or of the
master. -/
def Obligations.CausewayPortsFollowTheStream : Prop :=
  (∀ s p, ((s.port p).state = .none ∨ (s.port p).state = .removed) →
    ∃ s', exec (.cwJoin p) s = .next s' ∧ (s'.port p).state = .joining ∧ (s'.port p).queue = [] ∧
      (s'.port p).replica = [] ∧ (s'.port p).applied = 0 ∧ (s'.port p).lost = 0 ∧ (s'.port p).nacks = 0 ∧
      (∀ q, q ≠ p → s'.port q = s.port q) ∧ s'.cores = s.cores ∧ s'.mem = s.mem) ∧
  (∀ s p, (s.port p).state = .member → (∀ x ∈ allThreads s, x.2.wait = .idle) →
    ∃ s', exec (.cwLeave p) s = .next s' ∧ (s'.port p).state = .none ∧ (s'.port p).queue = [] ∧
      (s'.port p).replica = [] ∧ (s'.port p).live = 0#32 ∧
      (s'.port p).lost = (s.port p).lost + count (fun o => o.what.kind = .cwst) (s.port p).queue ∧
      (∀ q, q ≠ p → s'.port q = s.port q) ∧ s'.cores = s.cores ∧ s'.mem = s.mem) ∧
  (∀ s p h, (s.port p).state = .joining → (s.port p).asked = false → (s.port p).founder = false →
    (∀ r, refusal (s.port p) h = some r → exec (.joinListenEnd p h) s = .next (refuseJoin s p r)) ∧
    (refusal (s.port p) h = none → h.light = true →
      exec (.joinListenEnd p h) s = .next (s.modPort p (fun x => { x with asked := true }))) ∧
    (refusal (s.port p) h = none → h.light = false →
      exec (.joinListenEnd p h) s = .next (s.modPort p (fun x => { x with founder := true })))) ∧
  (∀ s p, (s.port p).state = .joining → (s.port p).founder = true → (s.port p).asked = false →
    (s.port p).views = [] →
    ∀ h, (∀ r, refusal (s.port p) h = some r → exec (.founderWaitEnd p h) s = .next (refuseJoin s p r)) ∧
    (refusal (s.port p) h = none → h.light = true → exec (.founderWaitEnd p h) s =
      .next (s.modPort p (fun x => { x with founder := false, asked := true }))) ∧
    (refusal (s.port p) h = none → h.light = false →
      ∃ s', exec (.founderWaitEnd p h) s = .next s' ∧ (s'.port p).master = (s.port p).index ∧
        (s'.port p).views = [{ rotation := 0, master := (s.port p).index, live := 0#32 }])) ∧
  (∀ s p, (s.port p).state = .joining → (s.port p).asked = true → (s.port p).snapshot = false →
    (s.port p).sentRot ≠ none → exec (.joinGrantTimeout p) s = .next (refuseJoin s p 7)) ∧
  (∀ s p r, ((refuseJoin s p r).port p).state = .none ∧ ((refuseJoin s p r).port p).asked = false) ∧
  (∀ s p j, isMaster (s.port p) = true → j < (s.port p).slots → (s.port p).live.getLsbD j = false →
    j ∉ (s.port p).joiners → j ≠ (s.port p).index →
    exec (.frameControl p j (s.port p).cwid (s.port p).slots) s =
      .next (s.modPort p (fun x => { x with joiners := x.joiners ++ [j] }))) ∧
  (∀ s p f o bs u, hears (s.port p) = true → u = takeFrame s p { f with snap := some (o, bs) } true →
    (loadSnap (u.port p) o bs).state = .joining → (loadSnap (u.port p) o bs).snapshot = true →
    ((loadSnap (u.port p) o bs).got ≠ 2 ^ 1093 - 1 →
      exec (.frameSnapshot p f (o, bs)) s = .next (u.modPort p (fun x => loadSnap x o bs))) ∧
    ((loadSnap (u.port p) o bs).got = 2 ^ 1093 - 1 → exec (.frameSnapshot p f (o, bs)) s =
      .next (drainAll ((u.modPort p (fun x => loadSnap x o bs)).modPort p (fun x =>
        { x with state := .member, snapshot := false, asked := false })) p))) ∧
  (∀ (x : Port) o bs, x.state = .joining → x.snapshot = true → o % 960 = 0 → o < 1048576 →
    bs.length = min 960 (1048576 - o) →
    loadSnap x o bs = { x with replica := Mem.writeN x.replica o bs, got := x.got ||| 2 ^ (o / 960) }) ∧
  (∀ s p v, isMaster (s.port p) = true →
    exec (.rotationOpen p v) s = .next (drainAll (s.modPort p (fun x => openRotation x v.held)) p)) ∧
  (∀ (x : Port) h, (openRotation x h).views =
      { rotation := nowRot x + 1, master := x.index, held := h
        live := nextView { x with dark := countDark x (nowRot x) } (nowRot x + 1) } :: x.views) ∧
  (∀ s p v w vs, (s.port p).state = .member ∨ (s.port p).state = .recovering → isMaster (s.port p) = false →
    (s.port p).views = w :: vs → w.rotation < v.rotation →
    (v.live.getLsbD (s.port p).index = true → exec (.rotationOpen p v) s =
      .next (drainAll (s.modPort p (fun x => { seeView x v with state := .member })) p)) ∧
    (v.live.getLsbD (s.port p).index = false → exec (.rotationOpen p v) s = .next (portLeave s p .removed 2))) ∧
  (∀ s p v vs, (s.port p).state = .member → (s.port p).views = v :: vs →
    (∀ r, (s.port p).sentRot = some r → r < v.rotation) → (s.port p).live.getLsbD (s.port p).index = true →
    (s.port p).owed = [] → (s.port p).requests = [] → (s.port p).ask = [] → (s.port p).snaps = [] →
    (s.port p).room = [] → (s.port p).queue.length ≤ 30 →
    ∃ s', exec (.burstSend p) s = .next s' ∧ (s'.port p).queue = [] ∧
      (s'.port p).flying = (s.port p).flying ++ (s.port p).queue ∧ (s'.port p).sentRot = some v.rotation ∧
      s'.agenda = s.agenda ++ [.frameData p
        { rotation := v.rotation, member := (s.port p).index, fidx := 0, fcount := 1,
          ops := (s.port p).queue.map (·.what), nacks := [],
          view := (s.port p).views.find? (fun w => w.rotation = v.rotation && w.master = (s.port p).index) }]) ∧
  (∀ s p f, hears (s.port p) = true → exec (.frameData p f) s = .next (takeFrame s p f true) ∧
    ∀ g, exec (.frameReplay p ⟨g, f⟩) s = .next (takeSnap (takeFrame (takeFrame s p g true) p f false) p f)) ∧
  (∀ s p o old, old = leWord (Mem.readN (s.port p).replica (8 * (o.word % 131072)) 8) →
    (o.kind = .cwst ∨ o.kind = .cwadd ∨ o.expect = old → applyOp s p o none =
      (writePlace s 0 (.cw p (8 * (o.word % 131072)))
        (wordBytes (if o.kind = .cwadd then old + o.data else o.data)) false).modPort p
          (fun x => { x with applied := (x.applied + 1) % 2 ^ 64 })) ∧
    (o.kind = .cwcas → o.expect ≠ old → applyOp s p o none =
      s.modPort p (fun x => { x with applied := (x.applied + 1) % 2 ^ 64 }))) ∧
  (∀ s p r m i, hears (s.port p) = true → lacks (s.port p) r m i = true →
    exec (.missingFrame p r m i) s = .next (s.modPort p (fun x =>
      { x with holes := x.holes ++ [(r, m, i, nowRot x)], ask := x.ask ++ [(r, m, i)] }))) ∧
  (∀ s p, hears (s.port p) = true → (∃ h ∈ (s.port p).holes, h.2.2.2 + 8 ≤ nowRot (s.port p)) →
    exec (.holeTimeout p) s = .next (portLeave s p .removed 1)) ∧
  (∀ s p, (s.port p).state = .member → isMaster (s.port p) = false →
    exec (.masterLoss p) s = .next (s.modPort p (fun x => { x with state := .recovering }))) ∧
  ∀ s p, (s.port p).state = .recovering → exec (.recoveryTimeout p) s = .next (portLeave s p .removed 4)

/-! ## Launches, partitions and histograms -/

/-- R196, R300 to R303: LAUNCH with its right leaves its submission and waits for the decision, as a write to the
launch port does without a thread; the decision is answered. R304: a dependence met makes its launch ready, and one
whose page fails cancels it. R195, R311, R312: WQRY's request is served with the next item and its answer is delivered.
R317, R318: a completed launch is written, its status and then its add, whatever becomes of the first, and freed. -/
def Obligations.LaunchesAreSubmittedDecidedAndCompleted : Prop :=
  (∀ g d a s c slot t T D U u va, D = { dRR g d a with drain := true, commit := fun _ => true } →
    Issues D s c slot t → U = atIssue (.launch g d a) D s c slot t →
    needRight U c slot (reading (.launch g d a) t) 10 = (u, none) → va = t.gv a.toNat → va.toNat % 64 = 0 →
    u.thread? c slot = some T →
    ∃ s', exec (.launch g d a) s = .next s' ∧ .launchAccept u.fresh ∈ s'.agenda ∧
      s'.subs = u.subs ++ [{ id := u.fresh, part := t.part, proc := t.proc, addr := va, graph := false,
                             thread := some ⟨c, slot⟩ }] ∧
      s'.thread? c slot = some { T with code := .waiting, wait := .launch d.toNat u.fresh, sleepFor := 0,
                                        since := (u.core c).cyc }) ∧
  (∀ s p a, s.subs.any (fun x => x.part = p && x.thread.isNone) = false →
    (∃ s', exec (.launchPortHeader p a) s = .next s' ∧ .launchAccept s.fresh ∈ s'.agenda ∧ s'.parts = s.parts ∧
      s'.subs = s.subs ++ [{ id := s.fresh, part := p, proc := (s.part p).lpProc.toNat, addr := a, graph := false,
                             thread := none }]) ∧
    ∃ s', exec (.launchPortGraph p a) s = .next s' ∧ .launchAccept s.fresh ∈ s'.agenda ∧ s'.parts = s.parts ∧
      s'.subs = s.subs ++ [{ id := s.fresh, part := p, proc := (s.part p).lpProc.toNat, addr := a, graph := true,
                             thread := none }]) ∧
  (∀ s p a, s.subs.any (fun x => x.part = p && x.thread.isNone) = true →
    exec (.launchPortHeader p a) s = .next (s.modPart p (fun P => { P with lpDropped := P.lpDropped + 1#16 }))) ∧
  (∀ s x, s.subs.find? (fun y => y.id = x.id) = some x → x.thread = none → x.graph = false →
    (∀ st, (x.addr.toNat % 64 ≠ 0 ∧ st = 6 ∨
        x.addr.toNat % 64 = 0 ∧ distRead s x.part x.proc x.addr 256 = none ∧ st = 6 ∨
        x.addr.toNat % 64 = 0 ∧ (∃ bs, distRead s x.part x.proc x.addr 256 = some bs ∧ 1024 ≤ recordsOf s x.part) ∧
          st = 5 ∨
        x.addr.toNat % 64 = 0 ∧ (∃ bs, distRead s x.part x.proc x.addr 256 = some bs ∧ recordsOf s x.part < 1024 ∧
          headerStatus s x.part x.proc bs = st) ∧ st ≠ 0) →
      exec (.launchAccept x.id) s = .next (answerSub s x st)) ∧
    (∀ bs, x.addr.toNat % 64 = 0 → distRead s x.part x.proc x.addr 256 = some bs → recordsOf s x.part < 1024 →
      headerStatus s x.part x.proc bs = 0 →
      exec (.launchAccept x.id) s =
        .next (answerSub (enterLaunch (newLaunch s (headerOf bs) none) (s.fresh + 1)) x 0)) ∧
    ∀ st, ((answerSub s x st).part x.part).lpStatus = BitVec.ofNat 8 st ∧
      ((answerSub s x st).part x.part).lpSeq = (s.part x.part).lpSeq + 1#32) ∧
  (∀ s p x u c slot t T d bs st, s.subs.find? (fun y => y.part = p && y.thread.isSome) = some x →
    s.subs.find? (fun y => y.id = x.id) = some x → x.thread = some ⟨c, slot⟩ → s.thread? c slot = some T →
    (x.read = none ∧ readVa s c T.part T.proc x.addr 256 = (u, .ok bs) ∨ x.read = some bs ∧ u = s) →
    recordsOf u x.part < 1024 →
    u.subs.any (fun y => y.part = x.part && y.thread.isSome && decide (y.id < x.id)) = false →
    st = headerStatus u x.part x.proc bs → Waits u c slot t (.launch d x.id) →
    ∃ s', exec (.launchRecordGrant p) s = .next s' ∧ exec (.launchAccept x.id) s = .next s' ∧
      Resumed s' c slot (t.setG d (BitVec.ofNat 64 st))) ∧
  (∀ s lid l p, s.launch? lid = some l → l.entered = true → l.ready = none → l.done = false → l.hdr.dep ≠ 0#64 →
    l.cancelled = false → l.preempting = false → depPlace s l.hdr = some p → InTurn s (.dependenceReady lid) p false →
    l.hdr.depval.toNat ≤ (leWord (readPlace s noCore p 8).1).toNat →
    ∃ s', exec (.dependenceReady lid) s = .next s' ∧ .placementDecision l.part ∈ s'.agenda ∧
      s'.launch? lid = some { l with ready := some s.now }) ∧
  (∀ s lid l, s.launch? lid = some l → l.entered = true → l.ready = none → l.done = false → l.hdr.dep ≠ 0#64 →
    l.cancelled = false → l.preempting = false → depPlace s l.hdr = none →
    ∃ s', exec (.dependenceCancel lid) s = .next s' ∧ .launchCompletion lid ∈ s'.agenda ∧
      s'.launch? lid = some { l with cancelled := true, ready := some s.now, status := l.status ||| 4#5,
                                     bands := l.bands.map (fun _ => .ended) }) ∧
  (∀ g d a s c slot t l va D, D = { dRR g d a with drain := true, commit := fun _ => true } → Issues D s c slot t →
    Plain s c slot t → (s.core c).lock = none → va = t.gv a.toNat → va.toNat % 8 = 0 → va.toNat < 0x20000 →
    (s.core c).xb ≤ va.toNat → s.launch? t.lid = some l →
    (l.hdr.persist = true →
      ∃ s', exec (.wqry g d a) s = .next s' ∧ .wqryServe l.part ∈ s'.agenda ∧
        s'.thread? c slot = some ((past (.wqry g d a) 4 t).setG d.toNat 0#64) ∧
        s'.groups = (s.modGroup t.gid (fun g => { g with ops := g.ops + 1 })).groups ∧
        s'.queries = s.queries ++ [{ id := s.fresh, lid := t.lid, gid := t.gid, core := c, off := va.toNat,
                                     answer := none }]) ∧
    (l.hdr.persist = false →
      ∃ s', exec (.wqry g d a) s = .next s' ∧
        Becomes s s' c slot ((past (.wqry g d a) 4 t).setG d.toNat 1#64))) ∧
  (∀ s p q l w, s.queries.find? (fun q => q.answer.isNone && (match s.launch? q.lid with
      | some l => l.part = p
      | none => false)) = some q → s.launch? q.lid = some l →
    (l.items < l.hdr.wcount ∧ (∃ bs, leWord bs = w ∧
        distRead s l.part l.hdr.proc (l.hdr.wlist + BitVec.ofNat 64 (8 * l.items)) 8 = some bs) ∨
      l.hdr.wcount ≤ l.items ∧ w = endToken) →
    ∃ s', exec (.wqryServe p) s = .next s' ∧ .wqryAnswerDeliver q.id ∈ s'.agenda ∧
      s'.queries = setAnswer s.queries q.id w ∧
      s'.launch? q.lid = some { l with items := if l.items < l.hdr.wcount then l.items + 1 else l.items }) ∧
  (∀ s id q w u v, s.queries.find? (fun q => q.id = id) = some q → q.answer = some w →
    u = feFirst s q.core q.off 8 →
    u.queries.any (fun x => x.core = q.core && x.off = q.off && x.answer.isSome && decide (x.id < id)) = false →
    v = setFull (writePlace { u with queries := u.queries.filter (fun x => x.id != id) } q.core (.spad q.core q.off)
      (wordBytes w) false) q.core q.off true →
    (fullBit (u.core q.core) q.off = false → feNext v q.core q.off = none →
      exec (.wqryAnswerDeliver id) s = .next (endOp v q.gid)) ∧
    (fullBit (u.core q.core) q.off = true →
      exec (.wqryAnswerDeliver id) s = .next (groupEnd { u with
        queries := u.queries.map (fun x => if x.id = id then { x with held := true } else x) } q.gid))) ∧
  ∀ s lid l, s.launch? lid = some l → l.done = false → l.bands.all (· = .ended) = true → writesInFlight s lid = false →
    NoAct s (.launchCompletion lid) →
    (l.hdr.done = 0#64 → l.node = none → l.lid = lid →
      ∃ s', exec (.launchCompletion lid) s = .next s' ∧ s'.launch? lid = none ∧
        (∀ x, x ≠ lid → s'.launch? x = s.launch? x)) ∧
    (∀ u, l.hdr.done ≠ 0#64 → l.wrote = 0 →
      (∀ p, distPlace s l.part l.hdr.proc (l.hdr.done + 8#64) (.amo true) = some p →
        InTurn s (.launchCompletion lid) p true) →
      (distAtomic s l.part l.hdr.proc lid (l.hdr.done + 8#64) .or (l.status.zeroExtend 64) = (u, .made) →
        exec (.launchCompletion lid) s = .next (settleAct ((u.modLaunch lid (fun l => { l with wrote := 1 })).post
          (.launchCompletion lid)) (.launchCompletion lid))) ∧
      (distAtomic s l.part l.hdr.proc lid (l.hdr.done + 8#64) .or (l.status.zeroExtend 64) = (u, .failed) →
        exec (.launchCompletion lid) s = .next (settleAct (((logLaunchWrite u l.part l.hdr.done
          (l.status.zeroExtend 64)).modLaunch lid (fun l => { l with wrote := 1 })).post
            (.launchCompletion lid)) (.launchCompletion lid)))) ∧
    (∀ u, l.hdr.done ≠ 0#64 → l.wrote = 1 →
      (∀ p, distPlace s l.part l.hdr.proc l.hdr.done (.amo true) = some p → InTurn s (.launchCompletion lid) p true) →
      distAtomic s l.part l.hdr.proc lid l.hdr.done .add l.hdr.doneadd = (u, .made) →
      exec (.launchCompletion lid) s = .next (settleAct (launchOver u l) (.launchCompletion lid)))

/-- R239, R305 to R310, R336: the first ready launch whose next band fits places it, and each thread is placed as its
header says; a quantum that ends restarts or pre-empts; a held group is saved. R320, R321, R339, R382: CREATE, RESET and
TEARDOWN, by their event or by a write of word 9. R394, R395: histogram units. -/
def Obligations.BandsPartitionsAndHistograms : Prop :=
  (∀ s p, (readyOrder s p = [] → exec (.placementDecision p) s = .next s) ∧
    ∀ l ls b cores u, readyOrder s p = l :: ls → planOf s l = some (.fresh b cores) →
      placeFresh s l b cores = (u, true) → exec (.placementDecision p) s = .next (u.post (.placementDecision p))) ∧
  (∀ s c l gid b rank tix slot, lowestSlot (s.core c) 0 4080 = some slot → coreStopping s c = false →
    ∃ t, (placeThreads s c l gid b rank [tix]).thread? c slot = some t ∧ t.code = .ready ∧
      t.pc = BitVec.ofNat 64 l.hdr.entry ∧ t.wid = widOf l.hdr b rank tix ∧ t.fmt = l.hdr.fmt ∧ t.scl = l.hdr.scl ∧
      t.authp = l.hdr.auth ∧ t.n = l.hdr.regs ∧ t.m = l.hdr.vclaim ∧ t.zc = l.hdr.zclaim ∧ t.geom0 = l.hdr.geom ∧
      t.g = [] ∧ t.v = [] ∧ t.z = [] ∧ t.fpctl = 0#64 ∧ t.fpflg = 0#64 ∧ t.fline = 0#64 ∧ t.wlim = 0#64) ∧
  (∀ s lid l, s.launch? lid = some l → l.hdr.quantum ≠ 0 → l.hdr.quantum ≤ l.ran → l.preempting = false →
    l.done = false →
    (l.bands.all (· = .ended) = true →
      exec (.quantumExpiry lid) s = .next (s.modLaunch lid (fun l => { l with status := l.status ||| 2#5 }))) ∧
    (l.bands.all (· = .ended) = false → ∀ gs, gs = (s.groups.map (·.2)).filter (fun g => g.lid = lid && running s g) →
      gs ≠ [] →
      (l.victim = false → exec (.quantumExpiry lid) s = .next (restartQuantum s lid)) ∧
      (l.victim = true →
        exec (.quantumExpiry lid) s = .next (holdGroups (s.modLaunch lid (fun l =>
          { l with preempting := true, ran := 0, ready := none })) gs)))) ∧
  (∀ s gid g l, s.group? gid = some g → s.launch? g.lid = some l → l.preempting = true → g.saved = none →
    (members s g = [] → exec (.groupSave gid) s = .next (preempted s g.lid)) ∧
    (canSave s g = true → exec (.groupSave gid) s = .next (preempted (saveGroup s g) g.lid))) ∧
  (∀ s p, p < 64 →
    ((s.part p).state ≠ .absent → exec (.create p) s = .next (s.modPart p (fun x => { x with result := 1#8 }))) ∧
    ((s.part p).state = .absent → pcbBad s p = true →
      exec (.create p) s = .next (endCommand s p 2#8 .absent)) ∧
    (∀ tab, (s.part p).state = .absent → pcbBad s p = false →
      tab = readTable s (partWord s p 1).toNat (ccountOf s p) → createCheck s p tab = 0 →
      exec (.create p) s = .next (endCommand (makePart s p tab) p 0#8 .active)) ∧
    ((s.part p).state = .active → exec (.reset p) s = .next (beginStop s p 2) ∧
      exec (.teardown p) s = .next (beginStop s p 3)) ∧
    ((s.part p).state ≠ .active → exec (.reset p) s = .next (s.modPart p (fun x => { x with result := 1#8 })) ∧
      exec (.teardown p) s = .next (s.modPart p (fun x => { x with result := 1#8 }))) ∧
    (∀ v : Word, exec (.registerWrite p 9 v) s =
      (if v.toNat % 16 = 1 then exec (.create p) s else if v.toNat % 16 = 2 then exec (.reset p) s
       else if v.toNat % 16 = 3 then exec (.teardown p) s else .next s)) ∧
    ∀ w v, w ≤ 8 → (s.part p).state = .absent →
      ∃ s', exec (.registerWrite p w v) s = .next s' ∧ partWord s' p w = v ∧
        (∀ x, x ≠ w → partWord s' p x = partWord s p x) ∧ (∀ q, q ≠ p → s'.part q = s.part q)) ∧
  (∀ s p u v, (s.part p).state = .busy → s.cmds.any (fun x => x.2.part = p) = false →
    u = evictCores (discardQueues (freeLaunches s p) p) (s.part p).ctab → (s.part p).ctab.any (agentBusy u) = false →
    v = scrub u p → (u.part p).running = (s.part p).running → (v.part p).running = (s.part p).running →
    ((s.part p).running = 2 → exec (.layByScrubComplete p) s = .next (endCommand v p 0#8 .active)) ∧
    ((s.part p).running = 3 → exec (.layByScrubComplete p) s = .next (endCommand (releasePart v p) p 0#8 .absent))) ∧
  ∀ s p x, x < 8 →
    (∀ v : Word, v.toNat / 16 % 256 ≤ 5 → v.getLsbD 1 = false →
      ∃ s', exec (.histogramConfig p x v) s = .next s' ∧
        histOf s' p x = { histOf s p x with cfg := v.truncate 16 }) ∧
    (∀ v : Word, 5 < v.toNat / 16 % 256 → exec (.histogramConfig p x v) s = .next s) ∧
    (∃ s', exec (.histogramClear p x) s = .next s' ∧
      histOf s' p x = { cfg := (histOf s p x).cfg, count := 0, min := 2 ^ 64 - 1, max := 0, sum := 0, buckets := [] }) ∧
    ∀ v h, h = histOf s p x → h.cfg.getLsbD 0 = true → h.cfg.getLsbD 2 = false →
      ∃ s', exec (.histogramSample p x v) s = .next s' ∧
        (histOf s' p x).min = Nat.min h.min v.toNat ∧ (histOf s' p x).max = Nat.max h.max v.toNat ∧
        (histOf s' p x).count = Nat.min (h.count + 1) (2 ^ 64 - 1) ∧
        (histOf s' p x).sum = Nat.min (h.sum + v.toNat) (2 ^ 64 - 1)

/-! ## Coherence and leases -/

/-- R353: a request with an old generation is refused. R346, R349: one that reaches a line in B, R or O, or a pinned
line, waits in its queue, as does one that finds an act waiting there. R345: a line in E at another agent is recalled;
in S every other sharer is, for a write. The grants: RD of a line in I or S; RDX and UPG of an unwatched line that no
other agent holds; AMO; OWN; PIN and its drop. -/
def Obligations.CoherenceRequestsAreServed : Prop :=
  (∀ (ev : Nat → Nat → Instr) k, (ev, k) ∈ [(Instr.rd, MsgKind.rd), (.rdx, .rdx), (.upg, .upg), (.amo, .amo),
      (.pin, .pin)] → ∀ s m u e, Arrives (isMsg k m.line m.agent) s m u → e = dirOf u m.line →
    (m.gen ≠ keptGen u m.line m.agent →
      exec (ev m.line m.agent) s = .next (drainAgent (sendMsg u { m with kind := .nack }) m.agent)) ∧
    (m.gen = keptGen u m.line m.agent →
      (e.st = .b ∨ e.st = .r ∨ e.st = .o ∧ k ≠ .pin ∨ e.pins ≠ [] ∧ k ≠ .rd ∧ k ≠ .pin ∨ 15 ≤ e.pins.length ∧ k = .pin ∨
        k ≠ .pin ∧ ∃ x ∈ e.queue, x.kind = .act) →
      exec (ev m.line m.agent) s = .next (drainAgent (putDir u m.line { e with queue := e.queue ++ [m] }) m.agent)) ∧
    (m.gen = keptGen u m.line m.agent → e.st = .e → e.mode = false → e.pins = [] → e.queue = [] → ∀ x, e.ptrs = [x] →
      (k = .pin ∨ k = .amo ∨ x ≠ m.agent) →
      exec (ev m.line m.agent) s = .next (drainAgent (sendMsg (putDir u m.line
          { e with st := .b, cur := some m, asked := [x], excl := true })
        { kind := if k = .rd ∨ k = .pin then .dwg else .rcl, line := m.line, agent := x,
          gen := keptGen u m.line x }) m.agent)) ∧
    (m.gen = keptGen u m.line m.agent → k = .rdx ∨ k = .upg → e.st = .s → e.mode = false → e.pins = [] → e.queue = [] →
      ∀ xs, xs = e.ptrs.filter (· != m.agent) → xs ≠ [] →
      exec (ev m.line m.agent) s = .next (drainAgent (sendRecalls (putDir u m.line
          { e with st := .b, cur := some m, asked := xs, excl := false }) m.line (xs.map (·, .inv))) m.agent))) ∧
  (∀ s m u e key, Arrives (isMsg .rd m.line m.agent) s m u → e = dirOf u m.line →
    m.gen = keptGen u m.line m.agent → e.st = .i ∨ e.st = .s → e.queue = [] → EntryRoom u m.line → isL1 m.agent = true →
    key = lineKey u (64 * m.line) → L1Room u m.agent key →
    ∃ v, exec (.rd m.line m.agent) s = .next (drainAgent (afterGrant v m) m.agent) ∧
      dirOf v m.line = addSharer u { e with st := .s } m.agent ∧ v.mem = u.mem ∧
      (v.core m.agent).l1 = Map.set (u.core m.agent).l1 key
        { st := .s, kind := .coherent, data := Mem.readN u.mem (64 * m.line) 64, poison := u.poison.contains m.line,
          used := (u.core m.agent).cyc }) ∧
  (∀ (ev : Nat → Nat → Instr) k, (ev, k) ∈ [(Instr.rdx, MsgKind.rdx), (.upg, .upg)] → ∀ s m u e key,
    Arrives (isMsg k m.line m.agent) s m u → e = dirOf u m.line →
    m.gen = keptGen u m.line m.agent → e.st = .i ∨ e.st = .s → e.mode = false → (∀ x ∈ e.ptrs, x = m.agent) →
    e.pins = [] → e.queue = [] → watched u m.line = false → EntryRoom u m.line → isL1 m.agent = true →
    key = lineKey u (64 * m.line) →
    (L1Room u m.agent key ∨ ∃ l, Map.get? (u.core m.agent).l1 key = some l ∧ l.st = .s) →
    ∃ v, exec (ev m.line m.agent) s = .next (drainAgent (afterGrant v m) m.agent) ∧
      dirOf v m.line = { e with st := .e, mode := false, vec := [], ptrs := [m.agent], gen := m.gen } ∧
      v.mem = u.mem ∧
      (L1Room u m.agent key → (v.core m.agent).l1 = Map.set (u.core m.agent).l1 key
        { st := .e, kind := .coherent, data := Mem.readN u.mem (64 * m.line) 64, poison := u.poison.contains m.line,
          used := (u.core m.agent).cyc }) ∧
      (∀ l, Map.get? (u.core m.agent).l1 key = some l → l.st = .s →
        (v.core m.agent).l1 = Map.set (u.core m.agent).l1 key { l with st := .e })) ∧
  (∀ s m u e, Arrives (isMsg .amo m.line m.agent) s m u → e = dirOf u m.line → m.gen = keptGen u m.line m.agent →
    e.st = .i → e.mode = false → e.ptrs = [] → e.pins = [] → e.queue = [] →
    exec (.amo m.line m.agent) s = .next (drainAgent (performAmo u m) m.agent)) ∧
  (∀ s m u e id c, Arrives (fun m' => m'.kind = .own && m'.line = m.line && m'.cmd = some id) s m u →
    e = dirOf u m.line → e.st = .i → e.mode = false → e.ptrs = [] → e.pins = [] → e.queue = [] → EntryRoom u m.line →
    Map.get? u.cmds id = some c →
    ∃ v, exec (.own m.line id) s = .next (drainAgent (ownNext v id) m.agent) ∧
      dirOf v m.line = { e with st := .o, mode := false, vec := [], ptrs := [m.agent],
                                gen := keptGen u m.line m.agent, cmd := some id } ∧
      Map.get? v.cmds id = some { c with owned := insertNat m.line c.owned, toOwn := c.toOwn.filter (· != m.line) }) ∧
  (∀ s m u e id c, Arrives (isMsg .pin m.line m.agent) s m u → m.cmd = some id → e = dirOf u m.line →
    m.gen = keptGen u m.line m.agent → e.st = .i ∨ e.st = .s → e.pins.length < 15 → EntryRoom u m.line →
    Map.get? u.cmds id = some c →
    ∃ v, exec (.pin m.line m.agent) s = .next (drainAgent (pinNext v id) m.agent) ∧
      dirOf v m.line = addSharer u { e with pins := e.pins ++ [m.agent], st := .s } (homeAgent m.line m.agent) ∧
      Map.get? v.cmds id = some { c with pinned := c.pinned ++ [m.line], toPin := eraseFirst (· = m.line) c.toPin }) ∧
  ∀ s m u e, Arrives (isMsg .pinDrop m.line m.agent) s m u → e = dirOf u m.line → e.queue = [] →
    exec (.pinDrop m.line m.agent) s = .next (drainAgent (unblock (putDir u m.line
      { e with pins := eraseFirst (· = m.agent) e.pins })) m.agent)

/-- R345: the answers to a recall are awaited, and the last serves its request. R345, R353: a write-back by the holder
is written at the home and acknowledged; one with an old generation is discarded and logged. R344, R347: what an L1
does with INV, RCL, DWG and ACK. R353: NACK. R349: EW and REL end an ownership. R351 to R353: renewals, expiries and
rejoining. -/
def Obligations.RecallsWriteBacksAndLeases : Prop :=
  (∀ s m u e v, Arrives (isMsg .answer m.line m.agent) s m u → e = dirOf u m.line →
    (e.st ≠ .b ∨ e.asked.contains m.agent = false ∨ m.gen ≠ keptGen u m.line m.agent →
      exec (.recallAnswer m.line m.agent) s = .next (drainAgent u m.agent)) ∧
    (e.st = .b → e.asked.contains m.agent = true → m.gen = keptGen u m.line m.agent → m.data = none →
      v = putDir u m.line { e with asked := e.asked.filter (· != m.agent),
                                   ptrs := if m.keep then e.ptrs else e.ptrs.filter (· != m.agent) } →
      (e.asked.filter (· != m.agent) ≠ [] → exec (.recallAnswer m.line m.agent) s = .next (drainAgent v m.agent)) ∧
      (e.asked.filter (· != m.agent) = [] →
        exec (.recallAnswer m.line m.agent) s = .next (drainAgent (recalled v m.line) m.agent)))) ∧
  (∀ (ev : Nat → Nat → Instr) k, (ev, k) ∈ [(Instr.wb, MsgKind.wb), (.wbk, .wbk), (.put, .put)] → ∀ s m u e,
    Arrives (isMsg k m.line m.agent) s m u → e = dirOf u m.line →
    (m.gen ≠ keptGen u m.line m.agent → exec (ev m.line m.agent) s = .next (drainAgent (late u m) m.agent)) ∧
    (m.gen = keptGen u m.line m.agent → e.st = .e → e.ptrs = [m.agent] → m.gen = e.gen → e.queue = [] →
      watched u m.line = false →
      ∃ v, exec (ev m.line m.agent) s = .next (drainAgent v m.agent) ∧
        (dirOf v m.line).st = (if k = .wbk then .s else .i) ∧
        { kind := .ack, line := m.line, agent := m.agent, gen := m.gen } ∈ v.msgs ∧
        (∀ bs, m.data = some bs → v.mem = Mem.writeN u.mem (64 * m.line) bs ∧ (dirOf v m.line).fl = false) ∧
        (m.data = none → v.mem = u.mem))) ∧
  (∀ (ev : Nat → Nat → Instr) k, (ev, k) ∈ [(Instr.inv, MsgKind.inv), (.rcl, .rcl), (.dwg, .dwg)] → ∀ s m u key,
    Arrives (isMsg k m.line m.agent) s m u → isL1 m.agent = true → key = lineKey u (64 * m.line) →
    (u.core m.agent).fenced = false →
    (Map.get? (u.core m.agent).l1 key = none →
      exec (ev m.line m.agent) s = .next (drainAgent (sendAnswer u m none false false) m.agent)) ∧
    ∀ l, Map.get? (u.core m.agent).l1 key = some l →
      exec (ev m.line m.agent) s = .next (drainAgent (sendAnswer (u.modCore m.agent (fun k' => { k' with
          l1 := if k = .dwg then Map.set k'.l1 key { l with st := .s, owner := none } else Map.erase k'.l1 key }))
        m (if l.st = .m then some l.data else none) l.poison (k = .dwg)) m.agent)) ∧
  (∀ s m u, Arrives (isMsg .ack m.line m.agent) s m u → isL1 m.agent = true →
    ∀ v, v = u.modCore m.agent (fun k => { k with xbuf := Map.erase k.xbuf (lineKey u (64 * m.line)) }) →
      exec (.ack m.line m.agent) s = .next (drainAgent (unblock (pumpThreads v (coreThreads v m.agent))) m.agent)) ∧
  (∀ s m u c slot t a, Arrives (isMsg .nack m.line m.agent) s m u → m.thread = some ⟨c, slot⟩ → m.cmd = none →
    m.rid = none → Waits u c slot t (.access a) →
    exec (.nack m.line m.agent) s = .next (drainAgent ((takeFault u c slot
        (mkFault fcLease (lineVa u ⟨c, slot⟩ none m.line) (m.gen.zeroExtend 64))).post
      (.leaseRejoin (homeDie (64 * m.line)) m.agent)) m.agent)) ∧
  (∀ (ev : Nat → Nat → Instr) k, (ev, k) ∈ [(Instr.ew, MsgKind.ew), (.rel, .rel)] → ∀ s m u e id c,
    Arrives (fun m' => m'.kind = k && m'.line = m.line && m'.cmd = some id) s m u → e = dirOf u m.line →
    e.st = .o → e.cmd = some id → e.queue = [] → watched u m.line = false → Map.get? u.cmds id = some c →
    (m.gen ≠ keptGen u m.line m.agent →
      exec (ev m.line id) s = .next (drainAgent (sendMsg u { m with kind := .nack, keep := true }) m.agent)) ∧
    (m.gen = keptGen u m.line m.agent → ∃ v,
      exec (ev m.line id) s = .next (drainAgent (unblock (disownLine v m.line id)) m.agent) ∧
      (dirOf v m.line).st = .i ∧
      (k = .rel → v.mem = u.mem) ∧
      (∀ b, k = .ew → Map.get? c.buf m.line = some b →
        v.mem = Mem.writeN u.mem (64 * m.line) (mergeBuf (Mem.readN u.mem (64 * m.line) 64) b)))) ∧
  (∀ s die a l, l = leaseOf s die a →
    (l.held = l.gen → exec (.leaseRenewal die a) s =
      .next (setLease s die a { l with last := s.now, ack := agentNow s a })) ∧
    (l.held ≠ l.gen → exec (.leaseRenewal die a) s = .next (s.post (.leaseRejoin die a))) ∧
    (s.now < l.last + 2 ^ 20 ∨ l.expired = true → exec (.leaseExpiry die a) s = .next s) ∧
    (l.expired = false → l.last + 2 ^ 20 ≤ s.now → ∀ x xs, namedLines s die a = x :: xs →
      exec (.leaseExpiry die a) s = .next (unblock (resolveAll
        (setLease s die a { l with gen := l.gen + 1#16, expired := true }) a (x :: xs))))) ∧
  (∀ s a line e, e = dirOf s line → e.ptrs = [a] → e.queue = [] → e.st = .e →
    (dirOf (resolveEntry s a line) line).st = .i ∧
      (watched s line = true → (dirOf (resolveEntry s a line) line).fl = true) ∧
      (resolveEntry s a line).mem = s.mem) ∧
  ∀ s die a, isL1 a = true →
    (∃ v, exec (.leaseRejoin die a) s = .next (unblock (pumpThreads v (coreThreads v a))) ∧
      leaseOf v die a = { leaseOf s die a with
        held := (leaseOf s die a).gen, last := s.now, ack := (s.core a).cyc, expired := false } ∧
      (∀ key ∈ (agentLines s die a).1, Map.get? (v.core a).l1 key = none ∧ Map.get? (v.core a).xbuf key = none)) ∧
    ((leaseOf s die a).ack + 786432 ≤ (s.core a).cyc → (agentLines s die a).1 ≠ [] ∨ namedLines s die a ≠ [] →
      exec (.leaseSelfLimit die a) s = exec (.leaseRejoin die a) (loseOwned s die a)) ∧
    ((s.core a).cyc < (leaseOf s die a).ack + 786432 → exec (.leaseSelfLimit die a) s = .next s)

/-! ## Tile commands -/

/-- R153: each kind of tile command is issued with its registers read, and its thread waits for the engine. -/
def Obligations.TileCommandsAreSentToTheirEngine : Prop :=
  SendsCommand .mma (fun x => [x.c, x.a, x.b, x.k, x.lda, x.ldb, x.sa, x.sb, x.ia, x.ib]) true ∧
  SendsCommand .copy (fun x => [x.dst, x.src, x.rows, x.rowb, x.ss, x.ds]) true ∧
  SendsCommand .gath (fun x => [x.dst, x.src, x.idx, x.n, x.rowb, x.ss, x.ds]) true ∧
  SendsCommand .coll (fun x => [x.dst, x.src, x.n, x.tag, x.root]) false ∧
  SendsCommand .fill (fun x => [x.dst, x.pat, x.rows, x.rowb, x.ds]) true ∧
  SendsCommand .enc8 (fun x => [x.dat, x.src, x.rows, x.kk, x.stride, x.idx, x.sc, x.off]) true

/-- R152 to R155: an engine looks at its oldest command; one that fails a check faults its thread, one that passes is
accepted and its thread goes on (MMA's waits). R163: a step of MMA on an element. R165, R166: pieces of COPY, FILL and
GATH. R171: ENC8. R158, R346: completion, in its
turn where it is one act, and awaited where it is sent. R167 to R170: COLL. -/
def Obligations.EnginesCarryOutTheirCommands : Prop :=
  (∀ s id c u, Map.get? s.cmds id = some c → c.accepted = false → c.checked = false →
    (engineReady s c = false → exec (.engineAccept id) s = .next s) ∧
    (∀ f, engineReady s c = true → checkCmd s c = (u, .error f) →
      exec (.engineAccept id) s = .next (rejectCmd u c f)) ∧
    (∀ c', engineReady s c = true → checkCmd s c = (u, .ok c') → c'.toOwn ≠ [] →
      exec (.engineAccept id) s = .next (ownNext { u with cmds := Map.set u.cmds id { c' with checked := true } } id)) ∧
    (∀ c' g w x core slot t, engineReady s c = true → checkCmd s c = (u, .ok c') → c'.toOwn = [] → c'.priv = [] →
      c'.instr = .copy g w x → c'.id = id → c'.stopped = false → c'.thread = ⟨core, slot⟩ →
        Waits u core slot t (.tile id) →
      ∃ s', exec (.engineAccept id) s = .next s' ∧ .engineComplete id ∈ s'.agenda ∧
        Map.get? s'.cmds id = some { c' with checked := true, accepted := true } ∧
        s'.groups = (u.modGroup c'.gid (fun g => { g with ops := g.ops + 1 })).groups ∧
        Resumed s' core slot t)) ∧
  (∀ s id c g w x, Map.get? s.cmds id = some c → c.instr = .mma g w x → c.accepted = true → c.stopped = false →
    c.toPin = [] →
    (∀ va, stepBarred s c x = some va → exec (.mmaStep id) s = .next (stopAt (dropPins s c c.pinned) id va)) ∧
    (stepBarred s c x = none → c.step + 1 = c.num x.k / 64 → exec (.mmaStep id) s =
      .next (doneMoving (modCmd (dropPins (matrixStep s c x) c c.pinned) id (fun c => { c with step := c.step + 1 })) id)) ∧
    ∀ i j p v a b sc, p = Place.spad c.core (c.num x.c + accSize x.fa.toNat * (32 * i + j)) →
      x.zero = false → v = readPlace s c.core p (accSize x.fa.toNat) → v.2 = false →
      ∀ r, r = newElem x (leNat v.1) a b sc false → r.2 = false → c.id = id →
      elemStep s c x [(i, a, false, false)] [(j, b, false, false)] (sc, false) i j =
        engWrite s id p (leBytes r.1 (accSize x.fa.toNat)) false) ∧
  (∀ s id c g w x, Map.get? s.cmds id = some c → c.instr = .fill g w x → c.id = id → c.accepted = true →
    c.stopped = false → c.todo = [] → c.rowBad = false → ∀ da p n,
      da = c.reg x.dst + BitVec.ofNat 64 c.step * c.reg x.ds + BitVec.ofNat 64 c.pos →
    c.placeAt da = some p → n = Nat.min (c.num x.rowb - c.pos) (pieceRoom p) → 8 ≤ n →
    exec (.engineComplete id) s = .next (advanceRow (engWrite s id p
      ((List.replicate (n / 8) (wordBytes (c.reg x.pat))).flatten) false) id n (c.num x.rowb) (c.num x.rows))) ∧
  (∀ s id c g w x, Map.get? s.cmds id = some c → c.instr = .copy g w x → c.id = id → c.accepted = true →
    c.stopped = false → c.todo = [] → c.rowBad = false → ∀ da sa q off n u bs po,
    da = c.reg x.dst + BitVec.ofNat 64 c.step * c.reg x.ds + BitVec.ofNat 64 c.pos →
    sa = c.reg x.src + BitVec.ofNat 64 c.step * c.reg x.ss + BitVec.ofNat 64 c.pos →
    c.placeAt da = some (.spad q off) → n = Nat.min (c.num x.rowb - c.pos) (64 - sa.toNat % 64) →
    (engRead s c (lineChunks sa n) = (u, .ok (bs, po)) →
      exec (.engineComplete id) s = .next (advanceRow (moveTo u c da bs po) id n (c.num x.rowb) (c.num x.rows))) ∧
    (∀ va, engRead s c (lineChunks sa n) = (u, .error va) → exec (.engineComplete id) s = .next (stopAt u id va))) ∧
  (∀ s id c g w x, Map.get? s.cmds id = some c → c.instr = .gath g w x → c.id = id → c.accepted = true →
    c.stopped = false →
    ∀ ia u bs po, ia = c.reg x.idx + BitVec.ofNat 64 (4 * c.step) → c.row = none →
    engRead s c (lineChunks ia 4) = (u, .ok (bs, po)) →
    (x.scat = true → c.toOwn = [] → exec (.gathScatterRow id) s =
      .next ((modCmd u id (fun c =>
        { c with row := some (leNat bs), rowBad := po.any (fun b => b) })).post (.gathScatterRow id))) ∧
    (x.scat = false → c.todo = [] → exec (.engineComplete id) s =
      .next ((modCmd u id (fun c =>
        { c with row := some (leNat bs), rowBad := po.any (fun b => b) })).post (.engineComplete id)))) ∧
  (∀ s id c g w x r, Map.get? s.cmds id = some c → c.instr = .gath g w x → c.id = id → c.accepted = true →
    c.stopped = false → c.row = some r → r ≠ 0xFFFFFFFF → ∀ da u bs po,
    (x.scat = true → c.toOwn = [] → c.pos ≠ 0 → c.flushed = false → c.owned = [] →
      da = c.reg x.dst + BitVec.ofNat 64 r * c.reg x.ds →
      engRead s c (lineChunks (c.reg x.src + BitVec.ofNat 64 c.step * c.reg x.ss) (c.num x.rowb)) =
        (u, .ok (bs, po)) → ∀ c', Map.get? (moveTo u c da bs (c.rowMarks po)).cmds id = some c' → c'.owned = [] →
      exec (.gathScatterRow id) s = .next ((modCmd (moveTo u c da bs (c.rowMarks po)) id
        (fun c => { c with flushed := true })).post (.gathScatterRow id))) ∧
    (x.scat = false → c.todo = [] →
      exec (.engineComplete id) s = .next (movePiece s c (c.reg x.dst + BitVec.ofNat 64 c.step * c.reg x.ds)
        (c.reg x.src + BitVec.ofNat 64 r * c.reg x.ss) (c.num x.rowb) (c.num x.n)))) ∧
  (∀ s id c g w x u ls, Map.get? s.cmds id = some c → c.instr = .enc8 g w x → c.id = id → c.accepted = true →
    c.stopped = false → c.todo = [] → encLines s c x (List.range (c.num x.rows)) = (u, .ok ls) →
    exec (.engineComplete id) s = .next (doneMoving (modCmd u id (fun c' => { c' with
      todo := todoOf c' (encWrites c x ls).1
      status := c'.status ||| (if (encWrites c x ls).2 then 4#64 else 0#64) |||
        (if ls.any (fun l => l.2.any (fun b => b)) then 1#64 else 0#64) })) id)) ∧
  (∀ s id c, Map.get? s.cmds id = some c → c.id = id → c.accepted = true → c.stopped = true → c.todo = [] →
    c.pinned = [] →
    (c.flushed = true → c.owned = [] → c.unacked = [] →
      (c.ending = false → exec (.engineComplete id) s = .next (completeCmd s c)) ∧
      (c.ending = true → c.second = false → exec (.engineComplete id) s = .next (endCmd s c))) ∧
    (c.word1.mode = 0#2 → completeCmd s c = endCmd (writeCompletion s c) c) ∧
    (∀ p, c.word1.mode = 1#2 → c.cpl = some p → (∀ pkg pa, p ≠ .page .remotePosted pkg pa) →
      (∀ pkg pa, p ≠ .page .hostNoncoherent pkg pa) → InTurn s (.engineComplete id) p true →
      completeCmd s c = endCmd (writeCompletion s c) c) ∧
    (∀ pkg pa, c.word1.mode = 1#2 → c.cpl = some (.page .remotePosted pkg pa) → ∃ x,
      Map.get? (completeCmd s c).out s.fresh = some x ∧ x.kind = 0 ∧ x.addr = domAddr pkg pa ∧
        x.data = wordBytes (c.reg c.word1.val) ++ wordBytes c.status ∧ x.cmd = some id ∧
        (completeCmd s c).cmds = Map.modify s.cmds id (fun c => { c with
          ending := true, unacked := c.unacked ++ [s.fresh] })) ∧
    (∀ q off, c.word1.mode = 1#2 → c.cpl = some (.spad q off) → writeCompletion s c =
      writePlace (feFirst s q off 16) c.core (.spad q off) (wordBytes (c.reg c.word1.val) ++ wordBytes c.status) false)) ∧
  ∀ s id c g w x cs, Map.get? s.cmds id = some c → c.instr = .coll g w x → c.accepted = true → c.stopped = false →
    cs = (List.range (partiesOf s c)).map (contribution s c) →
    (cs.all (·.isSome) = true → exec (.collInstanceComplete id) s = .next (runColl s (cs.filterMap (fun x => x)))) ∧
    (cs.all (·.isSome) = false → exec (.collInstanceComplete id) s = .next s) ∧
    ∀ rf n root xs, (collResult (2#2, rf, n, root) xs).1 = (xs.getD root ([], [])).1 ∧
      (collResult (3#2, rf, n, root) xs).1 = xs.flatMap (·.1)

/-! ## The fabric and the host -/

/-- R366, R346: a posted packet has been performed, or is performed here, each of its lines in its turn, and then its
milestone; or it waits in the queue of a line, or is dropped and logged. R340, R367: remote reads and atomics, and their
answers. R302, R320, R358, R360: accesses of the host through its BARs and CXL.mem. R361: snoops. R361, R373: links. -/
def Obligations.FabricPacketsAndHostAccessesArePerformed : Prop :=
  (∀ s id x, Map.get? s.out id = some x → x.kind = 0 → x.thread = none → x.cmd = none → x.lid = 0 → x.id = id →
    exec (.postedWriteArrive id) s = .next (postWaiting { s with out := Map.erase s.out id })) ∧
  (∀ s id x pa n line e, Map.get? s.out id = none → Map.get? s.inbox id = some x → x.kind = 0 → x.id = id →
    pa = x.addr % 2 ^ 50 + x.pos → n = Nat.min (64 - pa % 64) (x.data.length - x.pos) → line = pa / 64 →
    e = .postedWriteArrive id →
    (packetOk s x x.data.length = false → NoAct s e →
      exec (.postedWriteArrive id) s = .next (logDrop { s with inbox := Map.erase s.inbox id } x x.data.length)) ∧
    (packetOk s x x.data.length = true → x.pos < x.data.length →
      (InTurn s e (.page .coherent s.pkg pa) true →
        exec (.postedWriteArrive id) s = .next (settleAct ((writePlace
          { s with inbox := Map.set s.inbox id { x with pos := x.pos + n } } 0 (.page .coherent s.pkg pa)
          (slice x.data x.pos n) x.poison).post e) e)) ∧
      (NoAct s e → (dirOf s line).queue = [] → actHeld (dirOf s line) true = true →
        exec (.postedWriteArrive id) s = .next (setDir s line { dirOf s line with queue := [actMsg e line true] }))) ∧
    (packetOk s x x.data.length = true → x.pos = x.data.length →
      (msHere s x = none → NoAct s e →
        exec (.postedWriteArrive id) s = .next { s with inbox := Map.erase s.inbox id }) ∧
      (∀ m, msHere s x = some m → InTurn s e (.page .coherent s.pkg m) true →
        exec (.postedWriteArrive id) s =
          .next (settleAct (addMilestone { s with inbox := Map.erase s.inbox id } x) e)))) ∧
  (∀ s x m v, msHere s x = some m → v = readPlace s noCore (.page .coherent s.pkg m) 8 → v.2 = false →
    addMilestone s x = writePlace s 0 (.page .coherent s.pkg m)
      (wordBytes (leWord v.1 + BitVec.ofNat 64 x.data.length)) false) ∧
  (∀ s id x v, Map.get? s.inbox id = some x → x.kind = 1 → packetOk s x 1 = true →
    InTurn s (.remoteRead id) (.page .coherent s.pkg (x.addr % 2 ^ 50 / 64 * 64)) false →
      v = lineNow s (x.addr % 2 ^ 50 / 64 * 64) →
    ∃ s' p, exec (.remoteRead id) s = .next s' ∧ Map.get? s'.out s.fresh = some p ∧ p.kind = 2 ∧ p.rid = some x.id ∧
      p.data = v.1 ∧ p.poison = v.2 ∧ s'.inbox = Map.erase s.inbox x.id ∧ s'.mem = s.mem) ∧
  (∀ s id x c slot u, Map.get? s.out id = some x → x.kind = 1 → x.thread = some ⟨c, slot⟩ →
    u = { s with out := Map.erase s.out id } →
    (∀ bs, bs.length = 64 → exec (.remoteReadResponse id (some bs)) s =
      .next (postWaiting (takeLine u ⟨c, slot⟩ x bs false))) ∧
    (∀ t a w, x.rid = none → Waits s c slot t (.access a) → a.units = [w] → w.out = none → w.sent = true →
      w.place = some (.page .remotePosted (x.addr / 2 ^ 50) (x.addr % 2 ^ 50)) → w.size = x.size →
      exec (.remoteReadResponse id none) s =
        .next (postWaiting (takeFault u c slot (prot w.va 3))))) ∧
  (∀ s id x op p v bs, Map.get? s.inbox id = some x → x.kind = 3 → x.op = some op → packetOk s x x.size = true →
    p = Place.page .coherent s.pkg (x.addr % 2 ^ 50) → InTurn s (.remoteAtomic id) p true →
    v = readPlace s noCore p x.size → v.2 = false → op.writes v.1 = some bs →
    exec (.remoteAtomic id) s = .next (sendAnswerTo (writePlace s 0 p bs false) x 4 v.1 false)) ∧
  (∀ s id x c slot t d st bs, Map.get? s.out id = some x → x.kind = 5 → x.thread = some ⟨c, slot⟩ →
    (∀ m, x.carried = some m → m.kind ≠ 1) → Waits s c slot t (.packet d id) →
    ∃ s', exec (.remoteAtomicResponse id (some (st :: bs))) s = .next s' ∧
      Resumed s' c slot (t.setG d (BitVec.ofNat 64 st.toNat))) ∧
  (∀ s id x bs, Map.get? s.out id = some x → x.kind = 3 → x.thread = none →
    exec (.remoteAtomicResponse id (some bs)) s =
      .next (postWaiting (({ s with out := Map.erase s.out id } : State).post (.launchCompletion x.lid)))) ∧
  (∀ s off size p line, hostAnswers s = true → s.plat.pcieDown = false → oneLine off size = true →
    p = Place.page .coherent s.pkg off → line = off / 64 →
    (populated s off = true → off < 2 ^ 42 →
      (∀ u e, e = .hostBarAccess .pf ⟨2, off⟩ size none → InTurn s e p false →
        u = (if (dirOf s line).st = .e then recallAll s off else s) →
        exec (.hostBarAccess .pf ⟨2, off⟩ size none) s = .next (settleAct { u with
          free := u.free + 1, plat := { u.plat with completion := some (readBytes u noCore p size) } } e)) ∧
      (∀ v e, e = .hostBarAccess .pf ⟨2, off⟩ size (some v) →
        (InTurn s e p true → exec (.hostBarAccess .pf ⟨2, off⟩ size (some v)) s =
          .next (settleAct (writeBytes s 0 p (leBytes v size) false) e)) ∧
        (NoAct s e → (dirOf s line).queue = [] → actHeld (dirOf s line) true = true →
          exec (.hostBarAccess .pf ⟨2, off⟩ size (some v)) s =
            .next (setDir s line { dirOf s line with queue := [actMsg e line true] })))) ∧
    (populated s off = false →
      ∃ s', exec (.hostBarAccess .pf ⟨2, off⟩ size none) s = .next s' ∧ s'.plat.completion = none ∧ s'.mem = s.mem)) ∧
  (∀ s fn off size, hostAnswers s = true → s.plat.pcieDown = false → oneLine off size = true → fnEnabled s fn = true →
    exec (.hostBarAccess fn ⟨0, off⟩ size none) s = .next { s with
      free := s.free + 1
      plat := { s.plat with completion := some ((List.range size).map (fun i => barByte s fn (off + i)), false) } } ∧
    ∀ v, off % 8 = 0 → size = 8 →
      (∀ p w, barRegister fn off = some (p, w) →
        exec (.hostBarAccess fn ⟨0, off⟩ size (some v)) s = exec (.registerWrite p w (BitVec.ofNat 64 v)) s) ∧
      (barRegister fn off = none → exec (.hostBarAccess fn ⟨0, off⟩ size (some v)) s = .next s)) ∧
  (∀ p w i, p < 64 → i < 8 →
    (w < 8 → barRegister .pf (0x1000 + 64 * p + 8 * w + i) = some (p, 16 + w)) ∧
    (w < 16 → barRegister .pf (0x2000 + 128 * p + 8 * w + i) = some (p, w)) ∧
    (w < 8 → barRegister (.vf p) (0x1000 + 8 * w + i) = some (p, 16 + w))) ∧
  (∀ s off op p v w, hostAnswers s = true → s.plat.pcieDown = false → hostOpKnown op = true → off % hostOpSize op = 0 →
    populated s off = true → off < 2 ^ 42 → p = Place.page .coherent s.pkg off →
    InTurn s (.hostAtomicop .pf off op) p true →
    v = readBytes s noCore p (hostOpSize op) → v.2 = false → hostOpNew op (leNat v.1) = some w →
    exec (.hostAtomicop .pf off op) s = .next (settleAct (writeBytes { s with
      free := s.free + 1, plat := { s.plat with completion := some v } } 0 p (leBytes w (hostOpSize op)) false)
      (.hostAtomicop .pf off op))) ∧
  (∀ s a size pa p u, hostAnswers s = true → s.plat.cxlDown = false → s.plat.hdmBase ≤ a → pa = a - s.plat.hdmBase →
    pa < 2 ^ 38 → oneLine pa size = true → p = Place.page .coherent s.pkg pa →
    InTurn s (.cxlMemAccess a size none) p false → u = (if (dirOf s (pa / 64)).st = .e then recallAll s pa else s) →
    exec (.cxlMemAccess a size none) s = .next (settleAct { u with
      free := u.free + 1
      plat := { u.plat with completion := some (readBytes u noCore p size) } } (.cxlMemAccess a size none))) ∧
  (∀ s line, s.plat.cxlDown = false → (∀ k ∈ Map.keys s.hostLines, k % 2 ^ 40 ≠ line) →
    exec (.hostSnoop line none) s = .next s ∧
    ∀ bs, exec (.hostSnoop line (some bs)) s = .next (wakeLine
      { s with host := Mem.writeN s.host (64 * line) (bs.take 64) } (hostLinePlace s line))) ∧
  (∀ s, exec (.linkDown .pcie) s = .next { s with plat := { s.plat with pcieDown := true } } ∧
    exec (.linkDown .cxl) s = .next { s with plat := { s.plat with cxlDown := true } } ∧
    exec (.hostLinkUp .pcie) s = .next { s with plat := { s.plat with pcieDown := false } } ∧
    exec (.hostLinkUp .cxl) s = .next { s with plat := { s.plat with cxlDown := false } }) ∧
  ∀ s link n, s.plat.linksDown.contains link = false → n = (Map.get? s.plat.retries link).getD 0 + 1 →
    ∃ s', exec (.flitCrcError link) s = .next s' ∧
      (n < 16 → s'.plat = { s.plat with retries := Map.set s.plat.retries link n }) ∧
      (16 ≤ n → s'.plat = { s.plat with
        retries := Map.erase s.plat.retries link, linksDown := insertNat link s.plat.linksDown })

/-! ## Repair and the platform -/

/-- R374, R380, R387: a fatal error fences its unit, records the fence and stops the partitions that use it. R386: a
lock-step mismatch rolls the pair back, and a third fails it. R388: boot. R391, R393: throttling and shutdown. R376,
R377, R389, R390: the commands of the management port. -/
def Obligations.RepairBootAndTheManagementPort : Prop :=
  (∀ s c, (s.core c).owner = none →
    ∃ s', exec (.fatalError (.core c) []) s = .next s' ∧ (s'.core c).fenced = true ∧
      s'.plat.fences = insertNat (coreBank c) s.plat.fences ∧ s'.mem = s.mem ∧
      (∀ x, x ≠ c → s'.core x = s.core x)) ∧
  (∀ s c, (s.core c).owner = none →
    (∃ s', exec (.fatalError (.matrix c) []) s = .next s' ∧ (s'.core c).fencedFns.getLsbD 3 = true) ∧
    ∃ s', exec (.fatalError (.ssu c) []) s = .next s' ∧ (s'.core c).fencedFns.getLsbD 4 = true) ∧
  (∀ s b, s.parts = [] → ∃ s', exec (.fatalError (.shared b) []) s = .next s' ∧ s'.plat.outOfService = true ∧
    s'.plat.fences = insertNat b s.plat.fences) ∧
  (∀ s c L part, s.agenda.contains (.checkpointCommit c) = false → part = ((s.core c).owner.map (·.1)).getD 0 →
    ((s.core c).lock = none → exec (.lockstepMismatch c) s = .next s) ∧
    ((s.core c).lock = some L → L.odd = false → (s.core c).fenced = false →
      (L.mismatches < 2 → exec (.lockstepMismatch c) s = .next (logEvent (rollback s c L) (coreBank c) part 2
        0x8011#16 0#64 0#64 (BitVec.ofNat 64 L.count) (cycWord (rollback s c L) c))) ∧
      (2 ≤ L.mismatches → exec (.lockstepMismatch c) s = .next (failPair (rollback s c L) c L)))) ∧
  (∀ s u, u = poweredUp s → u.cores = [] ∧ u.mem = [] ∧ u.host = s.host ∧ u.plat.version = s.plat.version ∧
      u.plat.fences = s.plat.fences ∧
    exec (.boot false false) s = .next { u with plat := { u.plat with recovery := true } } ∧
    ∀ i0 i1, i0 = true ∨ i1 = true → ∀ v w, v = { u with plat := { u.plat with image := if i0 then 0 else 1 } } →
      w = bootTests (v.plat.fences.foldl refence v) (List.range 2080) →
      exec (.boot i0 i1) s = .next { w with free := w.free + 2080 }) ∧
  (∀ s die, exec (.thermalThrottle die) s = .next { s with plat := { s.plat with hot := insertNat die s.plat.hot } } ∧
    exec (.thermalRecovery die) s = .next { s with plat := { s.plat with hot := s.plat.hot.filter (· != die) } } ∧
    (s.parts = [] → ∃ s', exec (.thermalShutdown die) s = .next s' ∧ s'.plat.off = true ∧ s'.mem = s.mem)) ∧
  (∀ s, s.plat.off = false →
    (∀ bank word, ((bankExists bank = true ∧ word < 128) → exec (.mcBankRead bank word) s =
        .next { s with plat := { s.plat with
          answer := wordBytes (bankWord s bank (8 * word) (fun _ => true)), nack := false } }) ∧
      (¬(bankExists bank = true ∧ word < 128) → exec (.mcBankRead bank word) s =
        .next { s with plat := { s.plat with answer := [], nack := true } })) ∧
    (∀ bank b, Map.get? s.banks bank = some b → bankExists bank = true →
      ∃ s', exec (.bankClear bank) s = .next s' ∧ Map.get? s'.banks bank = some { fenced := b.fenced } ∧
        s'.plat = { s.plat with answer := [], nack := false }) ∧
    (∀ word, (word < 10 → exec (.telemetryRead word) s = .next { s with
        free := s.free + 1
        plat := { s.plat with answer := wordBytes (Config.telemetry word s.free), nack := false } }) ∧
      (10 < word → exec (.telemetryRead word) s = .next { s with
        free := s.free + 1, plat := { s.plat with answer := [], nack := true } })) ∧
    (∀ mw, ∃ s', exec (.powerLimitSet mw) s = .next s' ∧
      s'.plat = { s.plat with powerLimit := Nat.max 600000 (Nat.min 2800000 mw), answer := [], nack := false }) ∧
    (∀ p w, p < 64 → w < 16 →
      exec (.pcbWordAccess p w none) s = .next { s with plat := { s.plat with
        answer := wordBytes (pcbWord s p w), nack := false } } ∧
      ∀ v u, exec (.registerWrite p w v) s = .next u → u.plat.off = false →
        exec (.pcbWordAccess p w (some v)) s = .next { u with plat := { u.plat with answer := [], nack := false } }) ∧
    (∀ nonce body, nonce.length = 64 → s.plat.recovery = false →
      body = nonce ++ digest (Config.firmware s.plat.image) ++ digest (Config.fuses s.plat.version) ++
        digest (fenceBytes s ++ pcbBytes s) →
      exec (.attestation nonce) s = .next { s with plat := { s.plat with
        answer := body ++ (List.range 512).map (Config.signature body), nack := false } }) ∧
    exec .fenceListRead s = .next { s with plat := { s.plat with answer := fenceBytes s, nack := false } } ∧
    (s.plat.recovery = false → exec .versionRaise s = .next { s with plat := { s.plat with
      version := Nat.max s.plat.version (Config.imageVersion s.plat.image), answer := [], nack := false } }) ∧
    ∀ code : BitVec 8, code = 0#8 ∨ 8 < code.toNat →
      exec (.mgmtUnknownCode code) s = .next { s with plat := { s.plat with answer := [], nack := true } }) ∧
  ∀ s, s.plat.off = true → ∀ bank word, exec (.mcBankRead bank word) s = .next s ∧ exec .fenceListRead s = .next s

/-! ## The step, the encodings and reset -/

/-- R8, R11, R60, R62, R63, R67, R68, R380: with no event to come first, a step is the issue turn of the core
whose turn it is. A RUNNING occupant of the rotation position, on a core that issues, runs the instruction whose
words stand at its pc, if they lie below XB and a tile command at a multiple of 32; a pc that is no multiple of
4 takes MISALIGN and one at or past XB takes XFETCH, and then a word that is no instruction takes ILLEGAL with
that word; otherwise the turn is idle. Around the instruction the turn counts one cycle, which touches no
memory, no register and no state of a thread but its sleeping periods. -/
def Obligations.AStepRunsTheDecodedInstruction : Prop :=
  (∀ s u c slot t i, s.sched = [] → s.agenda = [] → u = fillPosition s → current u = some (c, slot, t) →
    t.code = .running → (u.core c).selft = none → (u.core c).fenced = false → issueStopped u c = false →
    t.pc.toNat % 4 = 0 → i.wf = true → encode i ≠ [] → t.pc.toNat + 4 * (encode i).length ≤ (u.core c).xb →
    ((encode i).length = 8 → t.pc.toNat % 32 = 0) →
    Mem.readN (u.core c).spad t.pc.toNat (4 * (encode i).length) = (encode i).flatMap bytesOfWord →
    step s = endCycle (exec i u) u.turn) ∧
  (∀ s u c slot t, s.sched = [] → s.agenda = [] → u = fillPosition s → current u = some (c, slot, t) →
    t.code = .running → (u.core c).selft = none → (u.core c).fenced = false → issueStopped u c = false →
    (t.pc.toNat % 4 ≠ 0 →
      step s = .next (tick (fetchFaults u c slot (fetchFault fcMisalign t.pc 0#32 4)) u.turn)) ∧
    (t.pc.toNat % 4 = 0 → (u.core c).xb ≤ t.pc.toNat →
      step s = .next (tick (fetchFaults u c slot (fetchFault fcXfetch t.pc 0#32 (u.core c).xb)) u.turn)) ∧
    (∀ w x, t.pc.toNat % 4 = 0 → t.pc.toNat < (u.core c).xb → isTcwHeader w = false →
      decodeWord w = .error (.illegal x) → Mem.readN (u.core c).spad t.pc.toNat 4 = bytesOfWord w →
      step s = .next (tick (fetchFaults u c slot (fetchFault fcIllegal 0#64 w x.toNat)) u.turn))) ∧
  (∀ s u, s.sched = [] → s.agenda = [] → u = fillPosition s →
    (∀ c slot t, current u = some (c, slot, t) →
      t.code ≠ .running ∨ (u.core c).selft.isSome ∨ (u.core c).fenced = true ∨ issueStopped u c = true) →
    step s = .next (tick u u.turn)) ∧
  (∀ s e es, s.sched = [] → s.agenda = e :: es → step s = perform e { s with agenda := es }) ∧
  (∀ s c, ∃ now launches agenda turn,
    tick s c = { s.modCore c (fun k => { k with
        cyc := k.cyc + 1, threads := k.threads.map (fun x => (x.1, sleepTick x.2)) }) with
      now := now, launches := launches, agenda := agenda, turn := turn }) ∧
  ∀ t, ∃ n, sleepTick t = { t with sleepFor := n }

/-- R60, R64, R65, R67: words of a few families, each bit as the encoding tables give it, and the instructions
they stand for. -/
def Obligations.DecodesTheWordsOfTheEncodingTables : Prop :=
  -- format R: p2 ? ADD g5, g6, g7
  decodeTableWord 32 0b010_000000_0000101_0000110_0000111_00 = some (.add 2#3 5#7 6#7 7#7) ∧
  -- format I, SHI: kind 2 and amount 63 are SRAI
  decodeTableWord 32 0b000_001101_0000001_0000010_10_0_111111 = some (.srai 0#3 1#7 2#7 63#6) ∧
  -- format L: LI g1, −2
  decodeTableWord 32 0b000_001110_0000001_1111111111111110 = some (.li 0#3 1#7 0xFFFE#16) ∧
  -- format B: p1 ? BR back by one word
  decodeTableWord 32 0b001_010011_11111111111111111111111 = some (.br 1#3 0x7FFFFF#23) ∧
  -- format P: p3 = g[1] ≥ g[127] unsigned, the flag clear, and the flag set with −256
  decodeTableWord 32 0b000_010000_011_101_0_0000001_1111111_00 = some (.cmpReg 0#3 3#3 5#3 1#7 127#7) ∧
  decodeTableWord 32 0b000_010000_011_101_1_0000001_100000000 = some (.cmpImm 0#3 3#3 5#3 1#7 0x100#9) ∧
  -- format PLOG: p1 = p2 and not p7
  decodeTableWord 32 0b000_010001_001_010_111_11_000000000000 = some (.plog 0#3 1#3 2#3 7#3 3#2) ∧
  -- format M: a relaxed LDD of g3 at g4 − 8
  decodeTableWord 32 0b000_011001_0000011_0000100_11111111_1 = some (.ldd 0#3 3#7 4#7 0xFF#8 1#1) ∧
  -- format S: GETS g9 of selector 0x014, and a selector that does not exist
  decodeTableWord 32 0b000_110010_0001001_0000000_000010100 = some (.gets 0#3 9#7 0x14#9) ∧
  decodeTableWord 32 0b000_110010_0001001_0000000_000010101 = none ∧
  -- formats V, VM and VX
  decodeTableWord 32 0b000_110101_000001_000010_111111_00001 = some (.vsub 0#3 1#6 2#6 63#6) ∧
  decodeTableWord 32 0b000_111000_000001_0000010_0000011_011 = some (.vsts 0#3 1#6 2#7 3#7) ∧
  decodeTableWord 32 0b000_111001_0000010_000001_000000_0100 = some (.vredaddI 0#3 2#7 1#6) ∧
  -- formats ZG and Z
  decodeTableWord 32 0b000_111011_0001_0001111_0000010_00011 = some (.zrgn 0#3 1#4 15#4 2#7) ∧
  decodeTableWord 32 0b000_111100_0001_0010_0011_0000_0000000 = some (.zand 0#3 1#4 2#4 3#4) ∧
  -- the all-zero word is ADD g0, g0, g0, and a payload word is no instruction
  decodeTableWord 32 0 = some (.add 0#3 0#7 0#7 0#7) ∧
  decodeTableWord 32 0b000_111110_00000000000000000000000 = none ∧
  -- a COPY of dst g1, src g2, rows g3, rowb g4, ss g5 and ds g6, with a completion pair in g7 and g8
  decodeWords [0b000_111111_0001_111_0000000000000000#32, 0b000_111110_0000111_0001000_0000000_01#32,
      0b000_111110_0000001_0000010_0000011_00#32, 0b000_111110_0000100_0000101_0000110_00#32,
      0b000_111110_00000000000000000000000#32, 0b000_111110_00000000000000000000000#32,
      0b000_111110_00000000000000000000000#32, 0b000_111110_00000000000000000000000#32] =
    .ok (.copy 0#3 { cpl := 7#7, val := 8#7, ms := 0#7, mode := 1#2 }
      { dst := 1#7, src := 2#7, rows := 3#7, rowb := 4#7, ss := 5#7, ds := 6#7 }, [])

/-- R60, R64, R67: the bytes of every well-formed instruction, laid out as memory holds them, decode to that
instruction, and no byte is left over. -/
def Obligations.DecodingTheBytesOfAnInstructionGivesItBack : Prop :=
  ∀ i : Instr, i.wf = true → encode i ≠ [] → decodeBytes ((encode i).flatMap bytesOfWord) = .ok (i, [])

/-- R63, R64, R66, R67: a word, or a tile command of eight words, that decodes does so to a well-formed
instruction whose words it is: no bit is ignored. -/
def Obligations.EveryWordThatDecodesIsItsInstructionsEncoding : Prop :=
  (∀ w i, isTcwHeader w = false → decodeWord w = .ok i → i.wf = true ∧ encode i = [w]) ∧
  ∀ h w1 w2 w3 w4 w5 w6 w7 i, isTcwHeader h = true → decodeTcw h w1 w2 w3 w4 w5 w6 w7 = .ok i →
    i.wf = true ∧ encode i = [h, w1, w2, w3, w4, w5, w6, w7]

/-- R388, step 5: every core leaves reset with no partition, no thread, XB 0, its scratchpad zero and every full
bit empty; no partition exists, and the words of every control block are 0 (R320); no port has a membership
(R254); no bank holds a record (R377); the power limit is 2,800 W (R391). Package memory, which the spec gives no
contents, and the host's read as zero (the model's choice, log entry 3). Every memory is in its canonical form. -/
def Obligations.ResetLeavesTheMachineEmpty : Prop :=
  MemOk State.reset ∧
  (∀ c, let k := State.reset.core c
    k.owner = none ∧ k.threads = [] ∧ k.xb = 0 ∧ k.cyc = 0 ∧ k.full = [] ∧ k.fenced = false ∧
      k.rows = BitVec.allOnes 64 ∧
      k.ways = 0xF#4 ∧ ∀ a, Mem.read k.spad a = 0#8) ∧
  (∀ p, let q := State.reset.part p
    q.state = .absent ∧ q.result = 0#8 ∧ ∀ w, (Map.get? q.words w).getD 0#64 = 0#64) ∧
  (∀ p, let q := State.reset.port p
    q.state = .none ∧ q.live = 0#32 ∧ q.applied = 0 ∧ q.rotation = 0 ∧ q.lost = 0 ∧ q.nacks = 0 ∧ q.queue = []) ∧
  (∀ b, let k := (Map.get? State.reset.banks b).getD {}
    k.written = 0 ∧ k.corrected = 0 ∧ k.contained = 0 ∧ k.fatal = 0 ∧ k.discard = 0 ∧ k.lost = 0 ∧ k.ring = []) ∧
  State.reset.plat.powerLimit = 2800000 ∧
  (∀ a, Mem.read State.reset.mem a = 0#8 ∧ Mem.read State.reset.host a = 0#8) ∧ State.reset.agenda = []

/-- R6, R211, R253, R355: the memories are the scratchpads, package memory, the Causeway replicas and the host's
memory as the package reaches it. Whatever a step does (an instruction of any core, or any event), it keeps each of
them in canonical form: addresses strictly rising and no byte listed that an unlisted address reads as, so that equal
memories are equal data. The form is the model's own (log entry 3); reset has it. -/
def Obligations.EveryStepKeepsTheMemoriesInForm : Prop :=
  ∀ s s', MemOk s → step s = .next s' → MemOk s'
end

