-- ==== Sys2Proof/Laws/State.lean ====
section
/-!
SUPPORT. Laws/State.lean: each field of the state after each named update, so that no proof unfolds a record
update.
-/
namespace Sys2Proof.Machine

/-! ## setCore -/

section
variable (s : State) (c : Nat) (k : Core)
@[simp] theorem State.setCore_cores : (s.setCore c k).cores = Map.set s.cores c k := rfl
@[simp] theorem State.setCore_mem : (s.setCore c k).mem = s.mem := rfl
@[simp] theorem State.setCore_poison : (s.setCore c k).poison = s.poison := rfl
@[simp] theorem State.setCore_host : (s.setCore c k).host = s.host := rfl
@[simp] theorem State.setCore_hostLines : (s.setCore c k).hostLines = s.hostLines := rfl
@[simp] theorem State.setCore_dir : (s.setCore c k).dir = s.dir := rfl
@[simp] theorem State.setCore_rdc : (s.setCore c k).rdc = s.rdc := rfl
@[simp] theorem State.setCore_rdcX : (s.setCore c k).rdcX = s.rdcX := rfl
@[simp] theorem State.setCore_msgs : (s.setCore c k).msgs = s.msgs := rfl
@[simp] theorem State.setCore_watches : (s.setCore c k).watches = s.watches := rfl
@[simp] theorem State.setCore_entryWait : (s.setCore c k).entryWait = s.entryWait := rfl
@[simp] theorem State.setCore_leases : (s.setCore c k).leases = s.leases := rfl
@[simp] theorem State.setCore_ws : (s.setCore c k).ws = s.ws := rfl
@[simp] theorem State.setCore_walks : (s.setCore c k).walks = s.walks := rfl
@[simp] theorem State.setCore_invals : (s.setCore c k).invals = s.invals := rfl
@[simp] theorem State.setCore_parts : (s.setCore c k).parts = s.parts := rfl
@[simp] theorem State.setCore_launches : (s.setCore c k).launches = s.launches := rfl
@[simp] theorem State.setCore_groups : (s.setCore c k).groups = s.groups := rfl
@[simp] theorem State.setCore_replays : (s.setCore c k).replays = s.replays := rfl
@[simp] theorem State.setCore_subs : (s.setCore c k).subs = s.subs := rfl
@[simp] theorem State.setCore_queries : (s.setCore c k).queries = s.queries := rfl
@[simp] theorem State.setCore_packets : (s.setCore c k).packets = s.packets := rfl
@[simp] theorem State.setCore_acts : (s.setCore c k).acts = s.acts := rfl
@[simp] theorem State.setCore_barMsgs : (s.setCore c k).barMsgs = s.barMsgs := rfl
@[simp] theorem State.setCore_cmds : (s.setCore c k).cmds = s.cmds := rfl
@[simp] theorem State.setCore_ports : (s.setCore c k).ports = s.ports := rfl
@[simp] theorem State.setCore_out : (s.setCore c k).out = s.out := rfl
@[simp] theorem State.setCore_inbox : (s.setCore c k).inbox = s.inbox := rfl
@[simp] theorem State.setCore_banks : (s.setCore c k).banks = s.banks := rfl
@[simp] theorem State.setCore_plat : (s.setCore c k).plat = s.plat := rfl
@[simp] theorem State.setCore_pkg : (s.setCore c k).pkg = s.pkg := rfl
@[simp] theorem State.setCore_now : (s.setCore c k).now = s.now := rfl
@[simp] theorem State.setCore_fresh : (s.setCore c k).fresh = s.fresh := rfl
@[simp] theorem State.setCore_free : (s.setCore c k).free = s.free := rfl
@[simp] theorem State.setCore_turn : (s.setCore c k).turn = s.turn := rfl
@[simp] theorem State.setCore_blocked : (s.setCore c k).blocked = s.blocked := rfl
@[simp] theorem State.setCore_agenda : (s.setCore c k).agenda = s.agenda := rfl
@[simp] theorem State.setCore_sched : (s.setCore c k).sched = s.sched := rfl
end

/-! ## modCore -/

section
variable (s : State) (c : Nat) (f : Core → Core)
@[simp] theorem State.modCore_cores : (s.modCore c f).cores = Map.set s.cores c (f (s.core c)) := rfl
@[simp] theorem State.modCore_mem : (s.modCore c f).mem = s.mem := rfl
@[simp] theorem State.modCore_poison : (s.modCore c f).poison = s.poison := rfl
@[simp] theorem State.modCore_host : (s.modCore c f).host = s.host := rfl
@[simp] theorem State.modCore_hostLines : (s.modCore c f).hostLines = s.hostLines := rfl
@[simp] theorem State.modCore_dir : (s.modCore c f).dir = s.dir := rfl
@[simp] theorem State.modCore_rdc : (s.modCore c f).rdc = s.rdc := rfl
@[simp] theorem State.modCore_rdcX : (s.modCore c f).rdcX = s.rdcX := rfl
@[simp] theorem State.modCore_msgs : (s.modCore c f).msgs = s.msgs := rfl
@[simp] theorem State.modCore_watches : (s.modCore c f).watches = s.watches := rfl
@[simp] theorem State.modCore_entryWait : (s.modCore c f).entryWait = s.entryWait := rfl
@[simp] theorem State.modCore_leases : (s.modCore c f).leases = s.leases := rfl
@[simp] theorem State.modCore_ws : (s.modCore c f).ws = s.ws := rfl
@[simp] theorem State.modCore_walks : (s.modCore c f).walks = s.walks := rfl
@[simp] theorem State.modCore_invals : (s.modCore c f).invals = s.invals := rfl
@[simp] theorem State.modCore_parts : (s.modCore c f).parts = s.parts := rfl
@[simp] theorem State.modCore_launches : (s.modCore c f).launches = s.launches := rfl
@[simp] theorem State.modCore_groups : (s.modCore c f).groups = s.groups := rfl
@[simp] theorem State.modCore_replays : (s.modCore c f).replays = s.replays := rfl
@[simp] theorem State.modCore_subs : (s.modCore c f).subs = s.subs := rfl
@[simp] theorem State.modCore_queries : (s.modCore c f).queries = s.queries := rfl
@[simp] theorem State.modCore_packets : (s.modCore c f).packets = s.packets := rfl
@[simp] theorem State.modCore_acts : (s.modCore c f).acts = s.acts := rfl
@[simp] theorem State.modCore_barMsgs : (s.modCore c f).barMsgs = s.barMsgs := rfl
@[simp] theorem State.modCore_cmds : (s.modCore c f).cmds = s.cmds := rfl
@[simp] theorem State.modCore_ports : (s.modCore c f).ports = s.ports := rfl
@[simp] theorem State.modCore_out : (s.modCore c f).out = s.out := rfl
@[simp] theorem State.modCore_inbox : (s.modCore c f).inbox = s.inbox := rfl
@[simp] theorem State.modCore_banks : (s.modCore c f).banks = s.banks := rfl
@[simp] theorem State.modCore_plat : (s.modCore c f).plat = s.plat := rfl
@[simp] theorem State.modCore_pkg : (s.modCore c f).pkg = s.pkg := rfl
@[simp] theorem State.modCore_now : (s.modCore c f).now = s.now := rfl
@[simp] theorem State.modCore_fresh : (s.modCore c f).fresh = s.fresh := rfl
@[simp] theorem State.modCore_free : (s.modCore c f).free = s.free := rfl
@[simp] theorem State.modCore_turn : (s.modCore c f).turn = s.turn := rfl
@[simp] theorem State.modCore_blocked : (s.modCore c f).blocked = s.blocked := rfl
@[simp] theorem State.modCore_agenda : (s.modCore c f).agenda = s.agenda := rfl
@[simp] theorem State.modCore_sched : (s.modCore c f).sched = s.sched := rfl
end

/-! ## setThread -/

section
variable (s : State) (c slot : Nat) (t : Thread)
@[simp] theorem State.setThread_cores : (s.setThread c slot t).cores = Map.set s.cores c { s.core c with threads := Map.set (s.core c).threads slot t } := rfl
@[simp] theorem State.setThread_mem : (s.setThread c slot t).mem = s.mem := rfl
@[simp] theorem State.setThread_poison : (s.setThread c slot t).poison = s.poison := rfl
@[simp] theorem State.setThread_host : (s.setThread c slot t).host = s.host := rfl
@[simp] theorem State.setThread_hostLines : (s.setThread c slot t).hostLines = s.hostLines := rfl
@[simp] theorem State.setThread_dir : (s.setThread c slot t).dir = s.dir := rfl
@[simp] theorem State.setThread_rdc : (s.setThread c slot t).rdc = s.rdc := rfl
@[simp] theorem State.setThread_rdcX : (s.setThread c slot t).rdcX = s.rdcX := rfl
@[simp] theorem State.setThread_msgs : (s.setThread c slot t).msgs = s.msgs := rfl
@[simp] theorem State.setThread_watches : (s.setThread c slot t).watches = s.watches := rfl
@[simp] theorem State.setThread_entryWait : (s.setThread c slot t).entryWait = s.entryWait := rfl
@[simp] theorem State.setThread_leases : (s.setThread c slot t).leases = s.leases := rfl
@[simp] theorem State.setThread_ws : (s.setThread c slot t).ws = s.ws := rfl
@[simp] theorem State.setThread_walks : (s.setThread c slot t).walks = s.walks := rfl
@[simp] theorem State.setThread_invals : (s.setThread c slot t).invals = s.invals := rfl
@[simp] theorem State.setThread_parts : (s.setThread c slot t).parts = s.parts := rfl
@[simp] theorem State.setThread_launches : (s.setThread c slot t).launches = s.launches := rfl
@[simp] theorem State.setThread_groups : (s.setThread c slot t).groups = s.groups := rfl
@[simp] theorem State.setThread_replays : (s.setThread c slot t).replays = s.replays := rfl
@[simp] theorem State.setThread_subs : (s.setThread c slot t).subs = s.subs := rfl
@[simp] theorem State.setThread_queries : (s.setThread c slot t).queries = s.queries := rfl
@[simp] theorem State.setThread_packets : (s.setThread c slot t).packets = s.packets := rfl
@[simp] theorem State.setThread_acts : (s.setThread c slot t).acts = s.acts := rfl
@[simp] theorem State.setThread_barMsgs : (s.setThread c slot t).barMsgs = s.barMsgs := rfl
@[simp] theorem State.setThread_cmds : (s.setThread c slot t).cmds = s.cmds := rfl
@[simp] theorem State.setThread_ports : (s.setThread c slot t).ports = s.ports := rfl
@[simp] theorem State.setThread_out : (s.setThread c slot t).out = s.out := rfl
@[simp] theorem State.setThread_inbox : (s.setThread c slot t).inbox = s.inbox := rfl
@[simp] theorem State.setThread_banks : (s.setThread c slot t).banks = s.banks := rfl
@[simp] theorem State.setThread_plat : (s.setThread c slot t).plat = s.plat := rfl
@[simp] theorem State.setThread_pkg : (s.setThread c slot t).pkg = s.pkg := rfl
@[simp] theorem State.setThread_now : (s.setThread c slot t).now = s.now := rfl
@[simp] theorem State.setThread_fresh : (s.setThread c slot t).fresh = s.fresh := rfl
@[simp] theorem State.setThread_free : (s.setThread c slot t).free = s.free := rfl
@[simp] theorem State.setThread_turn : (s.setThread c slot t).turn = s.turn := rfl
@[simp] theorem State.setThread_blocked : (s.setThread c slot t).blocked = s.blocked := rfl
@[simp] theorem State.setThread_agenda : (s.setThread c slot t).agenda = s.agenda := rfl
@[simp] theorem State.setThread_sched : (s.setThread c slot t).sched = s.sched := rfl
end

/-! ## post -/

section
variable (s : State) (e : Event)
@[simp] theorem State.post_cores : (s.post e).cores = s.cores := rfl
@[simp] theorem State.post_mem : (s.post e).mem = s.mem := rfl
@[simp] theorem State.post_poison : (s.post e).poison = s.poison := rfl
@[simp] theorem State.post_host : (s.post e).host = s.host := rfl
@[simp] theorem State.post_hostLines : (s.post e).hostLines = s.hostLines := rfl
@[simp] theorem State.post_dir : (s.post e).dir = s.dir := rfl
@[simp] theorem State.post_rdc : (s.post e).rdc = s.rdc := rfl
@[simp] theorem State.post_rdcX : (s.post e).rdcX = s.rdcX := rfl
@[simp] theorem State.post_msgs : (s.post e).msgs = s.msgs := rfl
@[simp] theorem State.post_watches : (s.post e).watches = s.watches := rfl
@[simp] theorem State.post_entryWait : (s.post e).entryWait = s.entryWait := rfl
@[simp] theorem State.post_leases : (s.post e).leases = s.leases := rfl
@[simp] theorem State.post_ws : (s.post e).ws = s.ws := rfl
@[simp] theorem State.post_walks : (s.post e).walks = s.walks := rfl
@[simp] theorem State.post_invals : (s.post e).invals = s.invals := rfl
@[simp] theorem State.post_parts : (s.post e).parts = s.parts := rfl
@[simp] theorem State.post_launches : (s.post e).launches = s.launches := rfl
@[simp] theorem State.post_groups : (s.post e).groups = s.groups := rfl
@[simp] theorem State.post_replays : (s.post e).replays = s.replays := rfl
@[simp] theorem State.post_subs : (s.post e).subs = s.subs := rfl
@[simp] theorem State.post_queries : (s.post e).queries = s.queries := rfl
@[simp] theorem State.post_packets : (s.post e).packets = s.packets := rfl
@[simp] theorem State.post_acts : (s.post e).acts = s.acts := rfl
@[simp] theorem State.post_barMsgs : (s.post e).barMsgs = s.barMsgs := rfl
@[simp] theorem State.post_cmds : (s.post e).cmds = s.cmds := rfl
@[simp] theorem State.post_ports : (s.post e).ports = s.ports := rfl
@[simp] theorem State.post_out : (s.post e).out = s.out := rfl
@[simp] theorem State.post_inbox : (s.post e).inbox = s.inbox := rfl
@[simp] theorem State.post_banks : (s.post e).banks = s.banks := rfl
@[simp] theorem State.post_plat : (s.post e).plat = s.plat := rfl
@[simp] theorem State.post_pkg : (s.post e).pkg = s.pkg := rfl
@[simp] theorem State.post_now : (s.post e).now = s.now := rfl
@[simp] theorem State.post_fresh : (s.post e).fresh = s.fresh := rfl
@[simp] theorem State.post_free : (s.post e).free = s.free := rfl
@[simp] theorem State.post_turn : (s.post e).turn = s.turn := rfl
@[simp] theorem State.post_blocked : (s.post e).blocked = s.blocked := rfl
@[simp] theorem State.post_agenda : (s.post e).agenda = s.agenda ++ [e] := rfl
@[simp] theorem State.post_sched : (s.post e).sched = s.sched := rfl
end

/-! ## bump -/

section
variable (s : State) 
@[simp] theorem State.bump_cores : (s.bump).cores = s.cores := rfl
@[simp] theorem State.bump_mem : (s.bump).mem = s.mem := rfl
@[simp] theorem State.bump_poison : (s.bump).poison = s.poison := rfl
@[simp] theorem State.bump_host : (s.bump).host = s.host := rfl
@[simp] theorem State.bump_hostLines : (s.bump).hostLines = s.hostLines := rfl
@[simp] theorem State.bump_dir : (s.bump).dir = s.dir := rfl
@[simp] theorem State.bump_rdc : (s.bump).rdc = s.rdc := rfl
@[simp] theorem State.bump_rdcX : (s.bump).rdcX = s.rdcX := rfl
@[simp] theorem State.bump_msgs : (s.bump).msgs = s.msgs := rfl
@[simp] theorem State.bump_watches : (s.bump).watches = s.watches := rfl
@[simp] theorem State.bump_entryWait : (s.bump).entryWait = s.entryWait := rfl
@[simp] theorem State.bump_leases : (s.bump).leases = s.leases := rfl
@[simp] theorem State.bump_ws : (s.bump).ws = s.ws := rfl
@[simp] theorem State.bump_walks : (s.bump).walks = s.walks := rfl
@[simp] theorem State.bump_invals : (s.bump).invals = s.invals := rfl
@[simp] theorem State.bump_parts : (s.bump).parts = s.parts := rfl
@[simp] theorem State.bump_launches : (s.bump).launches = s.launches := rfl
@[simp] theorem State.bump_groups : (s.bump).groups = s.groups := rfl
@[simp] theorem State.bump_replays : (s.bump).replays = s.replays := rfl
@[simp] theorem State.bump_subs : (s.bump).subs = s.subs := rfl
@[simp] theorem State.bump_queries : (s.bump).queries = s.queries := rfl
@[simp] theorem State.bump_packets : (s.bump).packets = s.packets := rfl
@[simp] theorem State.bump_acts : (s.bump).acts = s.acts := rfl
@[simp] theorem State.bump_barMsgs : (s.bump).barMsgs = s.barMsgs := rfl
@[simp] theorem State.bump_cmds : (s.bump).cmds = s.cmds := rfl
@[simp] theorem State.bump_ports : (s.bump).ports = s.ports := rfl
@[simp] theorem State.bump_out : (s.bump).out = s.out := rfl
@[simp] theorem State.bump_inbox : (s.bump).inbox = s.inbox := rfl
@[simp] theorem State.bump_banks : (s.bump).banks = s.banks := rfl
@[simp] theorem State.bump_plat : (s.bump).plat = s.plat := rfl
@[simp] theorem State.bump_pkg : (s.bump).pkg = s.pkg := rfl
@[simp] theorem State.bump_now : (s.bump).now = s.now := rfl
@[simp] theorem State.bump_fresh : (s.bump).fresh = s.fresh + 1 := rfl
@[simp] theorem State.bump_free : (s.bump).free = s.free := rfl
@[simp] theorem State.bump_turn : (s.bump).turn = s.turn := rfl
@[simp] theorem State.bump_blocked : (s.bump).blocked = s.blocked := rfl
@[simp] theorem State.bump_agenda : (s.bump).agenda = s.agenda := rfl
@[simp] theorem State.bump_sched : (s.bump).sched = s.sched := rfl
end

/-! ## modPart -/

section
variable (s : State) (p : Nat) (f : Part → Part)
@[simp] theorem State.modPart_cores : (s.modPart p f).cores = s.cores := rfl
@[simp] theorem State.modPart_mem : (s.modPart p f).mem = s.mem := rfl
@[simp] theorem State.modPart_poison : (s.modPart p f).poison = s.poison := rfl
@[simp] theorem State.modPart_host : (s.modPart p f).host = s.host := rfl
@[simp] theorem State.modPart_hostLines : (s.modPart p f).hostLines = s.hostLines := rfl
@[simp] theorem State.modPart_dir : (s.modPart p f).dir = s.dir := rfl
@[simp] theorem State.modPart_rdc : (s.modPart p f).rdc = s.rdc := rfl
@[simp] theorem State.modPart_rdcX : (s.modPart p f).rdcX = s.rdcX := rfl
@[simp] theorem State.modPart_msgs : (s.modPart p f).msgs = s.msgs := rfl
@[simp] theorem State.modPart_watches : (s.modPart p f).watches = s.watches := rfl
@[simp] theorem State.modPart_entryWait : (s.modPart p f).entryWait = s.entryWait := rfl
@[simp] theorem State.modPart_leases : (s.modPart p f).leases = s.leases := rfl
@[simp] theorem State.modPart_ws : (s.modPart p f).ws = s.ws := rfl
@[simp] theorem State.modPart_walks : (s.modPart p f).walks = s.walks := rfl
@[simp] theorem State.modPart_invals : (s.modPart p f).invals = s.invals := rfl
@[simp] theorem State.modPart_parts : (s.modPart p f).parts = Map.set s.parts p (f (s.part p)) := rfl
@[simp] theorem State.modPart_launches : (s.modPart p f).launches = s.launches := rfl
@[simp] theorem State.modPart_groups : (s.modPart p f).groups = s.groups := rfl
@[simp] theorem State.modPart_replays : (s.modPart p f).replays = s.replays := rfl
@[simp] theorem State.modPart_subs : (s.modPart p f).subs = s.subs := rfl
@[simp] theorem State.modPart_queries : (s.modPart p f).queries = s.queries := rfl
@[simp] theorem State.modPart_packets : (s.modPart p f).packets = s.packets := rfl
@[simp] theorem State.modPart_acts : (s.modPart p f).acts = s.acts := rfl
@[simp] theorem State.modPart_barMsgs : (s.modPart p f).barMsgs = s.barMsgs := rfl
@[simp] theorem State.modPart_cmds : (s.modPart p f).cmds = s.cmds := rfl
@[simp] theorem State.modPart_ports : (s.modPart p f).ports = s.ports := rfl
@[simp] theorem State.modPart_out : (s.modPart p f).out = s.out := rfl
@[simp] theorem State.modPart_inbox : (s.modPart p f).inbox = s.inbox := rfl
@[simp] theorem State.modPart_banks : (s.modPart p f).banks = s.banks := rfl
@[simp] theorem State.modPart_plat : (s.modPart p f).plat = s.plat := rfl
@[simp] theorem State.modPart_pkg : (s.modPart p f).pkg = s.pkg := rfl
@[simp] theorem State.modPart_now : (s.modPart p f).now = s.now := rfl
@[simp] theorem State.modPart_fresh : (s.modPart p f).fresh = s.fresh := rfl
@[simp] theorem State.modPart_free : (s.modPart p f).free = s.free := rfl
@[simp] theorem State.modPart_turn : (s.modPart p f).turn = s.turn := rfl
@[simp] theorem State.modPart_blocked : (s.modPart p f).blocked = s.blocked := rfl
@[simp] theorem State.modPart_agenda : (s.modPart p f).agenda = s.agenda := rfl
@[simp] theorem State.modPart_sched : (s.modPart p f).sched = s.sched := rfl
end

/-! ## modPort -/

section
variable (s : State) (p : Nat) (f : Port → Port)
@[simp] theorem State.modPort_cores : (s.modPort p f).cores = s.cores := rfl
@[simp] theorem State.modPort_mem : (s.modPort p f).mem = s.mem := rfl
@[simp] theorem State.modPort_poison : (s.modPort p f).poison = s.poison := rfl
@[simp] theorem State.modPort_host : (s.modPort p f).host = s.host := rfl
@[simp] theorem State.modPort_hostLines : (s.modPort p f).hostLines = s.hostLines := rfl
@[simp] theorem State.modPort_dir : (s.modPort p f).dir = s.dir := rfl
@[simp] theorem State.modPort_rdc : (s.modPort p f).rdc = s.rdc := rfl
@[simp] theorem State.modPort_rdcX : (s.modPort p f).rdcX = s.rdcX := rfl
@[simp] theorem State.modPort_msgs : (s.modPort p f).msgs = s.msgs := rfl
@[simp] theorem State.modPort_watches : (s.modPort p f).watches = s.watches := rfl
@[simp] theorem State.modPort_entryWait : (s.modPort p f).entryWait = s.entryWait := rfl
@[simp] theorem State.modPort_leases : (s.modPort p f).leases = s.leases := rfl
@[simp] theorem State.modPort_ws : (s.modPort p f).ws = s.ws := rfl
@[simp] theorem State.modPort_walks : (s.modPort p f).walks = s.walks := rfl
@[simp] theorem State.modPort_invals : (s.modPort p f).invals = s.invals := rfl
@[simp] theorem State.modPort_parts : (s.modPort p f).parts = s.parts := rfl
@[simp] theorem State.modPort_launches : (s.modPort p f).launches = s.launches := rfl
@[simp] theorem State.modPort_groups : (s.modPort p f).groups = s.groups := rfl
@[simp] theorem State.modPort_replays : (s.modPort p f).replays = s.replays := rfl
@[simp] theorem State.modPort_subs : (s.modPort p f).subs = s.subs := rfl
@[simp] theorem State.modPort_queries : (s.modPort p f).queries = s.queries := rfl
@[simp] theorem State.modPort_packets : (s.modPort p f).packets = s.packets := rfl
@[simp] theorem State.modPort_acts : (s.modPort p f).acts = s.acts := rfl
@[simp] theorem State.modPort_barMsgs : (s.modPort p f).barMsgs = s.barMsgs := rfl
@[simp] theorem State.modPort_cmds : (s.modPort p f).cmds = s.cmds := rfl
@[simp] theorem State.modPort_ports : (s.modPort p f).ports = Map.set s.ports p (f (s.port p)) := rfl
@[simp] theorem State.modPort_out : (s.modPort p f).out = s.out := rfl
@[simp] theorem State.modPort_inbox : (s.modPort p f).inbox = s.inbox := rfl
@[simp] theorem State.modPort_banks : (s.modPort p f).banks = s.banks := rfl
@[simp] theorem State.modPort_plat : (s.modPort p f).plat = s.plat := rfl
@[simp] theorem State.modPort_pkg : (s.modPort p f).pkg = s.pkg := rfl
@[simp] theorem State.modPort_now : (s.modPort p f).now = s.now := rfl
@[simp] theorem State.modPort_fresh : (s.modPort p f).fresh = s.fresh := rfl
@[simp] theorem State.modPort_free : (s.modPort p f).free = s.free := rfl
@[simp] theorem State.modPort_turn : (s.modPort p f).turn = s.turn := rfl
@[simp] theorem State.modPort_blocked : (s.modPort p f).blocked = s.blocked := rfl
@[simp] theorem State.modPort_agenda : (s.modPort p f).agenda = s.agenda := rfl
@[simp] theorem State.modPort_sched : (s.modPort p f).sched = s.sched := rfl
end

/-! ## modGroup -/

section
variable (s : State) (gid : Nat) (f : Group → Group)
@[simp] theorem State.modGroup_cores : (s.modGroup gid f).cores = s.cores := rfl
@[simp] theorem State.modGroup_mem : (s.modGroup gid f).mem = s.mem := rfl
@[simp] theorem State.modGroup_poison : (s.modGroup gid f).poison = s.poison := rfl
@[simp] theorem State.modGroup_host : (s.modGroup gid f).host = s.host := rfl
@[simp] theorem State.modGroup_hostLines : (s.modGroup gid f).hostLines = s.hostLines := rfl
@[simp] theorem State.modGroup_dir : (s.modGroup gid f).dir = s.dir := rfl
@[simp] theorem State.modGroup_rdc : (s.modGroup gid f).rdc = s.rdc := rfl
@[simp] theorem State.modGroup_rdcX : (s.modGroup gid f).rdcX = s.rdcX := rfl
@[simp] theorem State.modGroup_msgs : (s.modGroup gid f).msgs = s.msgs := rfl
@[simp] theorem State.modGroup_watches : (s.modGroup gid f).watches = s.watches := rfl
@[simp] theorem State.modGroup_entryWait : (s.modGroup gid f).entryWait = s.entryWait := rfl
@[simp] theorem State.modGroup_leases : (s.modGroup gid f).leases = s.leases := rfl
@[simp] theorem State.modGroup_ws : (s.modGroup gid f).ws = s.ws := rfl
@[simp] theorem State.modGroup_walks : (s.modGroup gid f).walks = s.walks := rfl
@[simp] theorem State.modGroup_invals : (s.modGroup gid f).invals = s.invals := rfl
@[simp] theorem State.modGroup_parts : (s.modGroup gid f).parts = s.parts := rfl
@[simp] theorem State.modGroup_launches : (s.modGroup gid f).launches = s.launches := rfl
@[simp] theorem State.modGroup_groups : (s.modGroup gid f).groups = Map.modify s.groups gid f := rfl
@[simp] theorem State.modGroup_replays : (s.modGroup gid f).replays = s.replays := rfl
@[simp] theorem State.modGroup_subs : (s.modGroup gid f).subs = s.subs := rfl
@[simp] theorem State.modGroup_queries : (s.modGroup gid f).queries = s.queries := rfl
@[simp] theorem State.modGroup_packets : (s.modGroup gid f).packets = s.packets := rfl
@[simp] theorem State.modGroup_acts : (s.modGroup gid f).acts = s.acts := rfl
@[simp] theorem State.modGroup_barMsgs : (s.modGroup gid f).barMsgs = s.barMsgs := rfl
@[simp] theorem State.modGroup_cmds : (s.modGroup gid f).cmds = s.cmds := rfl
@[simp] theorem State.modGroup_ports : (s.modGroup gid f).ports = s.ports := rfl
@[simp] theorem State.modGroup_out : (s.modGroup gid f).out = s.out := rfl
@[simp] theorem State.modGroup_inbox : (s.modGroup gid f).inbox = s.inbox := rfl
@[simp] theorem State.modGroup_banks : (s.modGroup gid f).banks = s.banks := rfl
@[simp] theorem State.modGroup_plat : (s.modGroup gid f).plat = s.plat := rfl
@[simp] theorem State.modGroup_pkg : (s.modGroup gid f).pkg = s.pkg := rfl
@[simp] theorem State.modGroup_now : (s.modGroup gid f).now = s.now := rfl
@[simp] theorem State.modGroup_fresh : (s.modGroup gid f).fresh = s.fresh := rfl
@[simp] theorem State.modGroup_free : (s.modGroup gid f).free = s.free := rfl
@[simp] theorem State.modGroup_turn : (s.modGroup gid f).turn = s.turn := rfl
@[simp] theorem State.modGroup_blocked : (s.modGroup gid f).blocked = s.blocked := rfl
@[simp] theorem State.modGroup_agenda : (s.modGroup gid f).agenda = s.agenda := rfl
@[simp] theorem State.modGroup_sched : (s.modGroup gid f).sched = s.sched := rfl
end

/-! ## modLaunch -/

section
variable (s : State) (lid : Nat) (f : Launch → Launch)
@[simp] theorem State.modLaunch_cores : (s.modLaunch lid f).cores = s.cores := rfl
@[simp] theorem State.modLaunch_mem : (s.modLaunch lid f).mem = s.mem := rfl
@[simp] theorem State.modLaunch_poison : (s.modLaunch lid f).poison = s.poison := rfl
@[simp] theorem State.modLaunch_host : (s.modLaunch lid f).host = s.host := rfl
@[simp] theorem State.modLaunch_hostLines : (s.modLaunch lid f).hostLines = s.hostLines := rfl
@[simp] theorem State.modLaunch_dir : (s.modLaunch lid f).dir = s.dir := rfl
@[simp] theorem State.modLaunch_rdc : (s.modLaunch lid f).rdc = s.rdc := rfl
@[simp] theorem State.modLaunch_rdcX : (s.modLaunch lid f).rdcX = s.rdcX := rfl
@[simp] theorem State.modLaunch_msgs : (s.modLaunch lid f).msgs = s.msgs := rfl
@[simp] theorem State.modLaunch_watches : (s.modLaunch lid f).watches = s.watches := rfl
@[simp] theorem State.modLaunch_entryWait : (s.modLaunch lid f).entryWait = s.entryWait := rfl
@[simp] theorem State.modLaunch_leases : (s.modLaunch lid f).leases = s.leases := rfl
@[simp] theorem State.modLaunch_ws : (s.modLaunch lid f).ws = s.ws := rfl
@[simp] theorem State.modLaunch_walks : (s.modLaunch lid f).walks = s.walks := rfl
@[simp] theorem State.modLaunch_invals : (s.modLaunch lid f).invals = s.invals := rfl
@[simp] theorem State.modLaunch_parts : (s.modLaunch lid f).parts = s.parts := rfl
@[simp] theorem State.modLaunch_launches : (s.modLaunch lid f).launches = Map.modify s.launches lid f := rfl
@[simp] theorem State.modLaunch_groups : (s.modLaunch lid f).groups = s.groups := rfl
@[simp] theorem State.modLaunch_replays : (s.modLaunch lid f).replays = s.replays := rfl
@[simp] theorem State.modLaunch_subs : (s.modLaunch lid f).subs = s.subs := rfl
@[simp] theorem State.modLaunch_queries : (s.modLaunch lid f).queries = s.queries := rfl
@[simp] theorem State.modLaunch_packets : (s.modLaunch lid f).packets = s.packets := rfl
@[simp] theorem State.modLaunch_acts : (s.modLaunch lid f).acts = s.acts := rfl
@[simp] theorem State.modLaunch_barMsgs : (s.modLaunch lid f).barMsgs = s.barMsgs := rfl
@[simp] theorem State.modLaunch_cmds : (s.modLaunch lid f).cmds = s.cmds := rfl
@[simp] theorem State.modLaunch_ports : (s.modLaunch lid f).ports = s.ports := rfl
@[simp] theorem State.modLaunch_out : (s.modLaunch lid f).out = s.out := rfl
@[simp] theorem State.modLaunch_inbox : (s.modLaunch lid f).inbox = s.inbox := rfl
@[simp] theorem State.modLaunch_banks : (s.modLaunch lid f).banks = s.banks := rfl
@[simp] theorem State.modLaunch_plat : (s.modLaunch lid f).plat = s.plat := rfl
@[simp] theorem State.modLaunch_pkg : (s.modLaunch lid f).pkg = s.pkg := rfl
@[simp] theorem State.modLaunch_now : (s.modLaunch lid f).now = s.now := rfl
@[simp] theorem State.modLaunch_fresh : (s.modLaunch lid f).fresh = s.fresh := rfl
@[simp] theorem State.modLaunch_free : (s.modLaunch lid f).free = s.free := rfl
@[simp] theorem State.modLaunch_turn : (s.modLaunch lid f).turn = s.turn := rfl
@[simp] theorem State.modLaunch_blocked : (s.modLaunch lid f).blocked = s.blocked := rfl
@[simp] theorem State.modLaunch_agenda : (s.modLaunch lid f).agenda = s.agenda := rfl
@[simp] theorem State.modLaunch_sched : (s.modLaunch lid f).sched = s.sched := rfl
end

/-! ## setRdc -/

section
variable (s : State) (die : Nat) (m : Map CLine)
@[simp] theorem setRdc_cores : (setRdc s die m).cores = s.cores := rfl
@[simp] theorem setRdc_mem : (setRdc s die m).mem = s.mem := rfl
@[simp] theorem setRdc_poison : (setRdc s die m).poison = s.poison := rfl
@[simp] theorem setRdc_host : (setRdc s die m).host = s.host := rfl
@[simp] theorem setRdc_hostLines : (setRdc s die m).hostLines = s.hostLines := rfl
@[simp] theorem setRdc_dir : (setRdc s die m).dir = s.dir := rfl
@[simp] theorem setRdc_rdc : (setRdc s die m).rdc = Map.set s.rdc die m := rfl
@[simp] theorem setRdc_rdcX : (setRdc s die m).rdcX = s.rdcX := rfl
@[simp] theorem setRdc_msgs : (setRdc s die m).msgs = s.msgs := rfl
@[simp] theorem setRdc_watches : (setRdc s die m).watches = s.watches := rfl
@[simp] theorem setRdc_entryWait : (setRdc s die m).entryWait = s.entryWait := rfl
@[simp] theorem setRdc_leases : (setRdc s die m).leases = s.leases := rfl
@[simp] theorem setRdc_ws : (setRdc s die m).ws = s.ws := rfl
@[simp] theorem setRdc_walks : (setRdc s die m).walks = s.walks := rfl
@[simp] theorem setRdc_invals : (setRdc s die m).invals = s.invals := rfl
@[simp] theorem setRdc_parts : (setRdc s die m).parts = s.parts := rfl
@[simp] theorem setRdc_launches : (setRdc s die m).launches = s.launches := rfl
@[simp] theorem setRdc_groups : (setRdc s die m).groups = s.groups := rfl
@[simp] theorem setRdc_replays : (setRdc s die m).replays = s.replays := rfl
@[simp] theorem setRdc_subs : (setRdc s die m).subs = s.subs := rfl
@[simp] theorem setRdc_queries : (setRdc s die m).queries = s.queries := rfl
@[simp] theorem setRdc_packets : (setRdc s die m).packets = s.packets := rfl
@[simp] theorem setRdc_acts : (setRdc s die m).acts = s.acts := rfl
@[simp] theorem setRdc_barMsgs : (setRdc s die m).barMsgs = s.barMsgs := rfl
@[simp] theorem setRdc_cmds : (setRdc s die m).cmds = s.cmds := rfl
@[simp] theorem setRdc_ports : (setRdc s die m).ports = s.ports := rfl
@[simp] theorem setRdc_out : (setRdc s die m).out = s.out := rfl
@[simp] theorem setRdc_inbox : (setRdc s die m).inbox = s.inbox := rfl
@[simp] theorem setRdc_banks : (setRdc s die m).banks = s.banks := rfl
@[simp] theorem setRdc_plat : (setRdc s die m).plat = s.plat := rfl
@[simp] theorem setRdc_pkg : (setRdc s die m).pkg = s.pkg := rfl
@[simp] theorem setRdc_now : (setRdc s die m).now = s.now := rfl
@[simp] theorem setRdc_fresh : (setRdc s die m).fresh = s.fresh := rfl
@[simp] theorem setRdc_free : (setRdc s die m).free = s.free := rfl
@[simp] theorem setRdc_turn : (setRdc s die m).turn = s.turn := rfl
@[simp] theorem setRdc_blocked : (setRdc s die m).blocked = s.blocked := rfl
@[simp] theorem setRdc_agenda : (setRdc s die m).agenda = s.agenda := rfl
@[simp] theorem setRdc_sched : (setRdc s die m).sched = s.sched := rfl
end

/-! ## logEvent -/

section
variable (s : State) (bank part cls : Nat) (event : BitVec 16) (addr who extra cycle : Word)
@[simp] theorem logEvent_cores : (logEvent s bank part cls event addr who extra cycle).cores = s.cores := rfl
@[simp] theorem logEvent_mem : (logEvent s bank part cls event addr who extra cycle).mem = s.mem := rfl
@[simp] theorem logEvent_poison : (logEvent s bank part cls event addr who extra cycle).poison = s.poison := rfl
@[simp] theorem logEvent_host : (logEvent s bank part cls event addr who extra cycle).host = s.host := rfl
@[simp] theorem logEvent_hostLines : (logEvent s bank part cls event addr who extra cycle).hostLines = s.hostLines := rfl
@[simp] theorem logEvent_dir : (logEvent s bank part cls event addr who extra cycle).dir = s.dir := rfl
@[simp] theorem logEvent_rdc : (logEvent s bank part cls event addr who extra cycle).rdc = s.rdc := rfl
@[simp] theorem logEvent_rdcX : (logEvent s bank part cls event addr who extra cycle).rdcX = s.rdcX := rfl
@[simp] theorem logEvent_msgs : (logEvent s bank part cls event addr who extra cycle).msgs = s.msgs := rfl
@[simp] theorem logEvent_watches : (logEvent s bank part cls event addr who extra cycle).watches = s.watches := rfl
@[simp] theorem logEvent_entryWait : (logEvent s bank part cls event addr who extra cycle).entryWait = s.entryWait := rfl
@[simp] theorem logEvent_leases : (logEvent s bank part cls event addr who extra cycle).leases = s.leases := rfl
@[simp] theorem logEvent_ws : (logEvent s bank part cls event addr who extra cycle).ws = s.ws := rfl
@[simp] theorem logEvent_walks : (logEvent s bank part cls event addr who extra cycle).walks = s.walks := rfl
@[simp] theorem logEvent_invals : (logEvent s bank part cls event addr who extra cycle).invals = s.invals := rfl
@[simp] theorem logEvent_parts : (logEvent s bank part cls event addr who extra cycle).parts = s.parts := rfl
@[simp] theorem logEvent_launches : (logEvent s bank part cls event addr who extra cycle).launches = s.launches := rfl
@[simp] theorem logEvent_groups : (logEvent s bank part cls event addr who extra cycle).groups = s.groups := rfl
@[simp] theorem logEvent_replays : (logEvent s bank part cls event addr who extra cycle).replays = s.replays := rfl
@[simp] theorem logEvent_subs : (logEvent s bank part cls event addr who extra cycle).subs = s.subs := rfl
@[simp] theorem logEvent_queries : (logEvent s bank part cls event addr who extra cycle).queries = s.queries := rfl
@[simp] theorem logEvent_packets : (logEvent s bank part cls event addr who extra cycle).packets = s.packets := rfl
@[simp] theorem logEvent_acts : (logEvent s bank part cls event addr who extra cycle).acts = s.acts := rfl
@[simp] theorem logEvent_barMsgs : (logEvent s bank part cls event addr who extra cycle).barMsgs = s.barMsgs := rfl
@[simp] theorem logEvent_cmds : (logEvent s bank part cls event addr who extra cycle).cmds = s.cmds := rfl
@[simp] theorem logEvent_ports : (logEvent s bank part cls event addr who extra cycle).ports = s.ports := rfl
@[simp] theorem logEvent_out : (logEvent s bank part cls event addr who extra cycle).out = s.out := rfl
@[simp] theorem logEvent_inbox : (logEvent s bank part cls event addr who extra cycle).inbox = s.inbox := rfl
@[simp] theorem logEvent_plat : (logEvent s bank part cls event addr who extra cycle).plat = s.plat := rfl
@[simp] theorem logEvent_pkg : (logEvent s bank part cls event addr who extra cycle).pkg = s.pkg := rfl
@[simp] theorem logEvent_now : (logEvent s bank part cls event addr who extra cycle).now = s.now := rfl
@[simp] theorem logEvent_fresh : (logEvent s bank part cls event addr who extra cycle).fresh = s.fresh := rfl
@[simp] theorem logEvent_free : (logEvent s bank part cls event addr who extra cycle).free = s.free := rfl
@[simp] theorem logEvent_turn : (logEvent s bank part cls event addr who extra cycle).turn = s.turn := rfl
@[simp] theorem logEvent_blocked : (logEvent s bank part cls event addr who extra cycle).blocked = s.blocked := rfl
@[simp] theorem logEvent_agenda : (logEvent s bank part cls event addr who extra cycle).agenda = s.agenda := rfl
@[simp] theorem logEvent_sched : (logEvent s bank part cls event addr who extra cycle).sched = s.sched := rfl
end

end Sys2Proof.Machine
end

