-- ==== Sys2Proof/Laws/Map.lean ====
section
/-!
SUPPORT. Laws/Map.lean: reading a map, a core or a thread after an update; and the memories: read after
write, and their canonical form kept.
-/
namespace Sys2Proof.Machine

/-! ## Maps -/

theorem Map.get?_set {α : Type} (m : Map α) (a b : Nat) (x : α) :
    Map.get? (Map.set m a x) b = if b = a then some x else Map.get? m b := by
  induction m with
  | nil => simp [Map.set, Map.get?, eq_comm]
  | cons h m ih =>
    obtain ⟨k, v⟩ := h
    simp only [Map.set]
    repeat' split
    all_goals simp only [Map.get?, ih]
    all_goals (repeat' split) <;> first | rfl | omega

@[simp] theorem Map.get?_set_self {α : Type} (m : Map α) (a : Nat) (x : α) :
    Map.get? (Map.set m a x) a = some x := by simp [Map.get?_set]

theorem Map.get?_set_of_ne {α : Type} (m : Map α) {a b : Nat} (x : α) (h : b ≠ a) :
    Map.get? (Map.set m a x) b = Map.get? m b := by simp [Map.get?_set, h]

theorem Map.get?_erase {α : Type} (m : Map α) (a b : Nat) :
    Map.get? (Map.erase m a) b = if b = a then none else Map.get? m b := by
  induction m with
  | nil => simp [Map.erase, Map.get?]
  | cons h m ih =>
    obtain ⟨k, v⟩ := h
    simp only [Map.erase]
    split
    · subst_vars
      rw [ih]
      by_cases hb : b = k <;> simp [Map.get?, hb]
      intro h'
      exact absurd h'.symm hb
    · simp only [Map.get?, ih]
      (repeat' split) <;> first | rfl | omega

theorem Map.get?_modify {α : Type} (m : Map α) (a b : Nat) (f : α → α) :
    Map.get? (Map.modify m a f) b = if b = a then (Map.get? m a).map f else Map.get? m b := by
  unfold Map.modify
  cases h : Map.get? m a <;> simp only [Map.get?_set] <;> split <;> simp_all

/-! ## Cores and threads -/

theorem State.core_setCore (s : State) (c : Nat) (k : Core) (x : Nat) :
    (s.setCore c k).core x = if x = c then k else s.core x := by
  simp only [State.core, State.setCore_cores, Map.get?_set]
  split <;> rfl

@[simp] theorem State.core_setCore_self (s : State) (c : Nat) (k : Core) : (s.setCore c k).core c = k := by
  simp [State.core_setCore]

theorem State.core_modCore (s : State) (c : Nat) (f : Core → Core) (x : Nat) :
    (s.modCore c f).core x = if x = c then f (s.core c) else s.core x := State.core_setCore ..

@[simp] theorem State.core_modCore_self (s : State) (c : Nat) (f : Core → Core) :
    (s.modCore c f).core c = f (s.core c) := State.core_setCore_self ..

theorem State.core_setThread (s : State) (c slot : Nat) (t : Thread) (x : Nat) :
    (s.setThread c slot t).core x =
      if x = c then { s.core c with threads := Map.set (s.core c).threads slot t } else s.core x :=
  State.core_modCore ..

theorem State.thread?_setThread (s : State) (c slot : Nat) (t : Thread) (c' slot' : Nat) :
    (s.setThread c slot t).thread? c' slot' = if c' = c ∧ slot' = slot then some t else s.thread? c' slot' := by
  simp only [State.thread?, State.core_setThread]
  split
  · subst_vars
    simp only [Map.get?_set, true_and]
  · simp [*]

@[simp] theorem State.thread?_setThread_self (s : State) (c slot : Nat) (t : Thread) :
    (s.setThread c slot t).thread? c slot = some t := by simp [State.thread?_setThread]

theorem State.modThread_eq {s : State} {c slot : Nat} {t : Thread} (h : s.thread? c slot = some t)
    (f : Thread → Thread) : s.modThread c slot f = s.setThread c slot (f t) := by
  simp [State.modThread, h]

@[simp] theorem State.core_post (s : State) (e : Event) (x : Nat) : (s.post e).core x = s.core x := rfl
@[simp] theorem State.core_bump (s : State) (x : Nat) : s.bump.core x = s.core x := rfl
@[simp] theorem State.thread?_post (s : State) (e : Event) (c slot : Nat) :
    (s.post e).thread? c slot = s.thread? c slot := rfl
@[simp] theorem State.thread?_bump (s : State) (c slot : Nat) : s.bump.thread? c slot = s.thread? c slot := rfl

theorem State.part_modPart (s : State) (p : Nat) (f : Part → Part) (q : Nat) :
    (s.modPart p f).part q = if q = p then f (s.part p) else s.part q := by
  simp only [State.part, State.modPart_parts, Map.get?_set]
  split <;> rfl

@[simp] theorem State.part_modPart_self (s : State) (p : Nat) (f : Part → Part) :
    (s.modPart p f).part p = f (s.part p) := by simp [State.part_modPart]

theorem State.port_modPort (s : State) (p : Nat) (f : Port → Port) (q : Nat) :
    (s.modPort p f).port q = if q = p then f (s.port p) else s.port q := by
  simp only [State.port, State.modPort_ports, Map.get?_set]
  split <;> rfl

@[simp] theorem State.port_modPort_self (s : State) (p : Nat) (f : Port → Port) :
    (s.modPort p f).port p = f (s.port p) := by simp [State.port_modPort]

/-! ## Memories -/

theorem Mem.read_write (m : Mem) (a b : Nat) (x : Byte) (h : Mem.wfFrom 0 m = true) :
    Mem.read (Mem.write m a x) b = if b = a then x else Mem.read m b := by
  suffices H : ∀ lo, Mem.wfFrom lo m = true →
      Mem.read (Mem.write m a x) b = if b = a then x else Mem.read m b from H 0 h
  clear h
  have low : ∀ (m : Mem) (lo b : Nat), Mem.wfFrom lo m = true → b < lo → Mem.read m b = 0#8 := by
    intro m
    induction m with
    | nil => intros; rfl
    | cons h m ih =>
      obtain ⟨k, v⟩ := h
      intro lo b hw hb
      simp only [Mem.wfFrom, Bool.and_eq_true, decide_eq_true_eq] at hw
      simp only [Mem.read]
      rw [if_neg (by omega)]
      exact ih _ b hw.2 (by omega)
  induction m with
  | nil =>
    intro lo _
    simp only [Mem.write]
    split
    · subst_vars; simp [Mem.read]
    · simp [Mem.read, eq_comm]
  | cons h m ih =>
    obtain ⟨k, v⟩ := h
    intro lo hw
    simp only [Mem.wfFrom, Bool.and_eq_true, decide_eq_true_eq] at hw
    simp only [Mem.write]
    split
    · split
      · subst_vars
        by_cases hb : b = a
        · subst hb
          simp only [Mem.read, if_true]
          rw [if_neg (by omega)]
          exact low m _ b hw.2 (by omega)
        · simp [hb]
      · simp [Mem.read, eq_comm]
    · split
      · subst_vars
        split
        · subst_vars
          by_cases hb : b = k
          · subst hb
            simp only [if_true]
            exact low m _ b hw.2 (by omega)
          · simp only [Mem.read, hb, if_false]
            rw [if_neg (fun h => hb h.symm)]
        · simp only [Mem.read]
          by_cases hb : b = k
          · simp [hb]
          · simp [hb, eq_comm]
      · simp only [Mem.read, ih _ hw.2]
        (repeat' split) <;> first | rfl | omega

theorem Mem.wfFrom_mono {m : Mem} {lo hi : Nat} (h : Mem.wfFrom hi m = true) (hl : lo ≤ hi) :
    Mem.wfFrom lo m = true := by
  cases m with
  | nil => rfl
  | cons x m =>
    simp only [Mem.wfFrom, Bool.and_eq_true, decide_eq_true_eq] at *
    exact ⟨⟨by omega, h.1.2⟩, h.2⟩

theorem Mem.write_wfFrom (m : Mem) (a lo : Nat) (x : Byte) (h : Mem.wfFrom lo m = true) (ha : lo ≤ a) :
    Mem.wfFrom lo (Mem.write m a x) = true := by
  induction m generalizing lo with
  | nil =>
    simp only [Mem.write]
    split <;> simp_all [Mem.wfFrom]
  | cons y m ih =>
    obtain ⟨k, v⟩ := y
    simp only [Mem.wfFrom, Bool.and_eq_true, decide_eq_true_eq] at h
    simp only [Mem.write]
    repeat' split
    all_goals simp_all [Mem.wfFrom]
    all_goals first
      | omega
      | exact Mem.wfFrom_mono h.2 (by omega)
      | exact ih _ h.2 (by omega)

/-- A write keeps the canonical form. -/
theorem Mem.write_wf {m : Mem} (h : m.wf = true) (a : Nat) (x : Byte) : (Mem.write m a x).wf = true :=
  Mem.write_wfFrom m a 0 x h (Nat.zero_le _)

theorem Mem.writeN_wf {m : Mem} (h : m.wf = true) (a : Nat) (bs : List Byte) : (Mem.writeN m a bs).wf = true := by
  induction bs generalizing m a with
  | nil => exact h
  | cons b bs ih => exact ih (Mem.write_wf h a b) _

theorem Mem.filter_wf {m : Mem} (p : Host.Cell → Bool) (lo : Nat) (h : Mem.wfFrom lo m = true) :
    Mem.wfFrom lo (m.filter p) = true := by
  induction m generalizing lo with
  | nil => rfl
  | cons y m ih =>
    obtain ⟨k, v⟩ := y
    simp only [Mem.wfFrom, Bool.and_eq_true, decide_eq_true_eq] at h
    simp only [List.filter]
    split
    · simp only [Mem.wfFrom, Bool.and_eq_true, decide_eq_true_eq]
      exact ⟨h.1, ih _ h.2⟩
    · exact ih _ (Mem.wfFrom_mono h.2 (by omega))

theorem Mem.clear_wf {m : Mem} (h : m.wf = true) (a n : Nat) : (Mem.clear m a n).wf = true :=
  Mem.filter_wf _ 0 h

/-- Read after write, at any address. -/
theorem Mem.read_writeN {m : Mem} (h : m.wf = true) (a : Nat) (bs : List Byte) (b : Nat) :
    Mem.read (Mem.writeN m a bs) b =
      if a ≤ b ∧ b < a + bs.length then bs.getD (b - a) 0#8 else Mem.read m b := by
  induction bs generalizing m a with
  | nil =>
    simp only [Mem.writeN, List.length_nil]
    rw [if_neg (by omega)]
  | cons x bs ih =>
    simp only [Mem.writeN, ih (Mem.write_wf h a x), Mem.read_write m a b x h, List.length_cons]
    by_cases h1 : b = a
    · subst h1
      rw [if_neg (by omega), if_pos rfl, if_pos (by omega)]
      simp
    · by_cases h2 : a + 1 ≤ b ∧ b < a + 1 + bs.length
      · rw [if_pos h2, if_pos (by omega)]
        have : b - a = b - (a + 1) + 1 := by omega
        rw [this]
        simp
      · rw [if_neg h2, if_neg h1, if_neg (by omega)]

theorem Mem.length_readN (m : Mem) (a n : Nat) : (Mem.readN m a n).length = n := by
  induction n generalizing a with
  | zero => rfl
  | succ n ih => simp [Mem.readN, ih]

theorem Mem.getD_readN (m : Mem) (a n i : Nat) (h : i < n) : (Mem.readN m a n).getD i 0#8 = Mem.read m (a + i) := by
  induction n generalizing a i with
  | zero => omega
  | succ n ih =>
    cases i with
    | zero => rfl
    | succ i =>
      have := ih (a + 1) i (by omega)
      simp only [Mem.readN, List.getD_cons_succ, this]
      congr 1
      omega

/-- The bytes written at an address are read back there. -/
theorem Mem.readN_writeN {m : Mem} (h : m.wf = true) (a : Nat) (bs : List Byte) :
    Mem.readN (Mem.writeN m a bs) a bs.length = bs := by
  apply List.ext_getElem
  · simp [Mem.length_readN]
  · intro i h1 h2
    have h3 := Mem.getD_readN (Mem.writeN m a bs) a bs.length i h2
    rw [Mem.read_writeN h, if_pos (by omega)] at h3
    simpa [List.getD, h1, h2] using h3

/-! ## Bytes and words -/

@[simp] theorem length_leBytes (w n : Nat) : (leBytes w n).length = n := by
  induction n generalizing w with
  | zero => rfl
  | succ n ih => simp [leBytes, ih]

@[simp] theorem length_wordBytes (w : Word) : (wordBytes w).length = 8 := length_leBytes _ _

theorem leNat_leBytes (w n : Nat) : leNat (leBytes w n) = w % 256 ^ n := by
  induction n generalizing w with
  | zero => simp [leBytes, leNat, Nat.mod_one]
  | succ n ih =>
    simp only [leBytes, leNat, ih, BitVec.toNat_ofNat]
    rw [show 256 ^ (n + 1) = 256 * 256 ^ n by rw [Nat.pow_succ, Nat.mul_comm], Nat.mod_mul]

theorem leBytes_leNat (bs : List Byte) : leBytes (leNat bs) bs.length = bs := by
  induction bs with
  | nil => rfl
  | cons b bs ih =>
    simp only [List.length_cons, leBytes, leNat]
    have h1 : (b.toNat + 256 * leNat bs) / 256 = leNat bs := by
      have := b.isLt
      omega
    have h2 : BitVec.ofNat 8 (b.toNat + 256 * leNat bs) = b := by
      apply BitVec.eq_of_toNat_eq
      have := b.isLt
      simp only [BitVec.toNat_ofNat]
      omega
    rw [h1, h2, ih]

@[simp] theorem leWord_wordBytes (w : Word) : leWord (wordBytes w) = w := by
  apply BitVec.eq_of_toNat_eq
  have := w.isLt
  simp only [leWord, wordBytes, leNat_leBytes, BitVec.toNat_ofNat]
  omega

end Sys2Proof.Machine
end

