-- ==== Sys2Proof/Laws/Issue.lean ====
section
/-!
SUPPORT. Laws/Issue.lean: what issuing does (R18, R20, R62, R63), what a write of a register does, and what an
instruction that is complete in its turn leaves alone.
-/
namespace Sys2Proof
open Machine

theorem find?_none_of {p : Nat → Bool} {l : List Nat} (h : ∀ x ∈ l, p x = false) : l.find? p = none := by
  rw [List.find?_eq_none]
  intro x hx
  simp [h x hx]

theorem filter_nil_of {α : Type} {p : α → Bool} {l : List α} (h : ∀ x ∈ l, p x = false) : l.filter p = [] := by
  rw [List.filter_eq_nil_iff]
  intro x hx
  simp [h x hx]

theorem any_false_of {α : Type} {p : α → Bool} {l : List α} (h : ∀ x ∈ l, p x = false) : l.any p = false := by
  rw [List.any_eq_false]
  intro x hx
  simp [h x hx]

theorem limitFault_none {t : Thread} {d : Desc} (h1 : ∀ r ∈ d.g, r < t.n) (h2 : ∀ r ∈ d.v, r < t.m)
    (h3 : ∀ r ∈ d.z, r < t.zc) : limitFault t d = none := by
  unfold limitFault
  rw [filter_nil_of (fun r hr => by simpa using h1 r hr), filter_nil_of (fun r hr => by simpa using h2 r hr),
    filter_nil_of (fun r hr => by simpa using h3 r hr)]

/-- R63: the index that the record has is that of a field past the count. -/
theorem limitPick_mem {w : BitVec 32} {rs : List Nat} (h : rs ≠ []) : limitPick w rs ∈ rs := by
  have hl : 0 < rs.length := List.length_pos_iff.mpr h
  have hm := Nat.mod_lt (Config.limitField w) hl
  rw [limitPick, List.getD_eq_getElem?_getD, List.getElem?_eq_getElem hm]
  exact List.getElem_mem hm

theorem current_thread {s : State} {c slot : Nat} {t : Thread} (h : current s = some (c, slot, t)) :
    s.thread? c slot = some t := by
  simp only [current] at h
  split at h
  · cases h
  · split at h
    · cases h
    · next h2 =>
      cases h
      exact h2

/-! ## What changes nothing else -/

theorem Becomes.refl {s : State} {c slot : Nat} {t : Thread} (h : s.thread? c slot = some t) :
    Becomes s s c slot t := ⟨h, fun _ _ => rfl, rfl, fun _ _ => rfl, rfl, .inl rfl⟩

/-- A change of the core's threads, at the slot alone, and of its register cache. -/
theorem Becomes.of_core {s s1 : State} {c slot : Nat} {t t' : Thread} {k : Core} {n : Nat}
    (h : Becomes s s1 c slot t) (hk : { k with threads := [], rc := [] } = { s1.core c with threads := [], rc := [] })
    (ht : ∀ x, Map.get? k.threads x = if x = slot then some t' else Map.get? (s1.core c).threads x) :
    Becomes s { s1.setCore c k with free := n } c slot t' := by
  have e : ∀ x, State.core { s1.setCore c k with free := n } x = if x = c then k else s1.core x :=
    fun x => State.core_setCore s1 c k x
  refine ⟨?_, ?_, ?_, ?_, ?_, ?_⟩
  · simp only [State.thread?, e, if_true, ht]
  · intro x hx
    simp only [State.thread?, e, if_true, ht, hx, if_false]
    exact h.others x hx
  · simp only [e, if_true]
    exact hk.trans h.core
  · intro x hx
    simp only [e, hx, if_false]
    exact h.cores x hx
  · exact (show _ = { s1 with cores := [], agenda := [], free := 0 } from rfl).trans h.rest
  · exact h.events

theorem Becomes.setThread {s s1 : State} {c slot : Nat} {t : Thread} (h : Becomes s s1 c slot t) (t' : Thread) :
    Becomes s (s1.setThread c slot t') c slot t' :=
  h.of_core (n := s1.free) (k := { s1.core c with threads := Map.set (s1.core c).threads slot t' }) rfl
    (fun x => Map.get?_set _ _ _ _)

theorem Becomes.modThread {s s1 : State} {c slot : Nat} {t : Thread} (h : Becomes s s1 c slot t)
    (f : Thread → Thread) : Becomes s (s1.modThread c slot f) c slot (f t) := by
  rw [State.modThread_eq h.thread]
  exact h.setThread _

theorem Becomes.rc {s s1 : State} {c slot : Nat} {t : Thread} (h : Becomes s s1 c slot t) (m : Map RcState)
    (n : Nat) : Becomes s { s1.setCore c { s1.core c with rc := m } with free := n } c slot t := by
  refine h.of_core rfl ?_
  intro x
  split
  · subst_vars
    exact h.thread
  · rfl

theorem Becomes.rcPut {s s1 : State} {c slot : Nat} {t : Thread} (h : Becomes s s1 c slot t) (r : Nat)
    (e : RcState) : Becomes s (rcPut s1 c slot r e) c slot t := by
  simp only [Machine.rcPut]
  split
  · exact h.rc _ s1.free
  · exact h.rc _ _

/-- R20: a register that has been written changes no more than the register cache. -/
theorem Becomes.rcWrote {s s1 : State} {c slot : Nat} {t : Thread} (h : Becomes s s1 c slot t) (r : Nat)
    (away : Bool) : Becomes s (rcWrote s1 c slot r away) c slot t := by
  unfold Machine.rcWrote
  split
  · exact h.rc _ s1.free
  · exact h.rcPut r _

theorem Becomes.writeG {s s1 : State} {c slot : Nat} {t : Thread} (h : Becomes s s1 c slot t) (d : Nat)
    (w : Word) : Becomes s (writeG s1 c slot d w) c slot (t.setG d w) := by
  unfold Machine.writeG
  by_cases hd : d = 0
  · simp [hd, Thread.setG]
    exact h
  · simp only [hd, if_false, h.thread]
    exact (h.setThread _).rcWrote _ _

theorem Becomes.writePw {s s1 : State} {c slot : Nat} {t : Thread} (h : Becomes s s1 c slot t)
    (w : BitVec 8) : Becomes s (writePw s1 c slot w) c slot (t.setPw w) := by
  unfold Machine.writePw
  simp only [h.thread]
  exact (h.setThread _).rcWrote _ _

theorem Becomes.lock {s s' : State} {c slot : Nat} {t : Thread} (h : Becomes s s' c slot t) :
    (s'.core c).lock = (s.core c).lock := by
  have e := congrArg Core.lock h.core
  exact e

theorem Becomes.settleCore {s s1 : State} {c slot : Nat} {t : Thread} (h : Becomes s s1 c slot t)
    (ha : s1.agenda = s.agenda) : Becomes s (settleCore s1 c slot) c slot t := by
  have h1 : Becomes s (s1.modCore c (fun k => settle k slot)) c slot t := h.rc _ s1.free
  unfold Machine.settleCore postFill
  split
  · exact h1
  · refine ⟨h1.thread, h1.others, h1.core, h1.cores, ?_, .inr ?_⟩
    · exact h1.rest
    · simp [ha]

/-! ## The issue -/

/-- An instruction that issues has its own effect, on the thread as it was before it. -/
theorem issue_next {i : Instr} {d : Desc} {body : Nat → Nat → Thread → State → State} {s : State} {c slot : Nat}
    {t : Thread} (h : Issues d s c slot t) :
    issue i d body s = .next (afterIssue (body c slot (reading i t) (atIssue i d s c slot t)) c slot) := by
  unfold issue
  simp only [h.turn]
  have ha : ∀ r, absent ((s.setThread c slot { t with ipc := t.pc, iword := encode32 i }).core c)
      { t with ipc := t.pc, iword := encode32 i } slot r = absent (s.core c) t slot r := by
    intro r
    simp only [State.core_setThread, if_true]
    rfl
  have hd : deferred { t with ipc := t.pc, iword := encode32 i } d = none := h.noDeferred
  have g1 : (d.guard != 0#3 && absent (s.core c) t slot 0) = false := by
    rcases h.guarded with g | g <;> simp [g]
  have g2 : (d.guard != 0#3 && t.poison.contains 128) = false := by
    rcases h.guarded with g | g
    · simp [g]
    · rw [g.2.1]; simp
  have g3 : (d.guard != 0#3 && !t.p d.guard.toNat) = false := by
    rcases h.guarded with g | g <;> simp [g]
  have g3' : (d.guard != 0#3 && !Thread.p { t with ipc := t.pc, iword := encode32 i } d.guard.toNat) = false := g3
  have e1 : ((d.alloc { t with ipc := t.pc, iword := encode32 i }).any (fun r =>
      !entryFits ((s.setThread c slot { t with ipc := t.pc, iword := encode32 i }).core c) slot r)) = false := by
    have he := h.entry i
    cases hr : d.alloc (reading i t) with
    | none => exact (congrArg (Option.any _) hr).trans rfl
    | some r =>
      have hf : entryFits ((s.setThread c slot { t with ipc := t.pc, iword := encode32 i }).core c) slot r =
          entryFits (s.core c) slot r := by
        simp only [State.core_setThread, if_true]
        rfl
      refine (congrArg (Option.any _) hr).trans ?_
      simp [hf, he r hr]
  rw [limitFault_none (by exact h.gLimit) (by exact h.vLimit) (by exact h.zLimit)]
  simp only [ha, g1, g2, g3', hd]
  have n1 : (if (d.pw && absent (s.core c) t slot 0) = true then [0] else []) = ([] : List Nat) := by
    cases hp : d.pw
    · simp
    · simp [h.pwHere hp]
  have n2 : d.reads.filter (fun r => r != 0 && absent (s.core c) t slot r) = [] := by
    refine filter_nil_of (fun r hr => ?_)
    by_cases h0 : r = 0
    · simp [h0]
    · simp [h.here r hr h0]
  have n3 : d.writes.filter (fun r => pendingG { t with ipc := t.pc, iword := encode32 i } r) = [] :=
    filter_nil_of (fun r hr => h.gFree r hr)
  have n4 : (d.vreads ++ d.vwrites).filter (fun r => pendingV { t with ipc := t.pc, iword := encode32 i } r) = [] :=
    filter_nil_of (fun r hr => h.vFree r hr)
  have n5 : (d.drain && t.relaxed.any (fun x => x.fault.isNone)) = false := by
    cases hp : d.drain
    · rfl
    · simp only [Bool.true_and]
      exact any_false_of (h.drained hp)
  have n6 : d.reads.any (fun r => r != 0 && t.poison.contains r) = false := by
    refine any_false_of (fun r hr => ?_)
    by_cases h0 : r = 0
    · simp [h0]
    · rw [h.gClean r hr h0]; simp
  have n7 : (d.pw && t.poison.contains 128) = false := by
    cases hp : d.pw
    · rfl
    · simp only [Bool.true_and]; exact h.pwClean hp
  have n8 : d.vreads.any (fun r => t.poison.contains (256 + r)) = false := any_false_of h.vClean
  have n9 : d.zreads.any (fun r => t.poison.contains (512 + r)) = false := any_false_of h.zClean
  simp only [n1, n2, n3, n4, n5, n6, n7, n8, n9, e1, List.nil_append, List.map_nil, bne_self_eq_false,
    Bool.or_false, if_false, Bool.false_eq_true]
  rfl

/-- Without a commit, issuing changes nothing but the thread. -/
theorem atIssue_becomes {i : Instr} {d : Desc} {s : State} {c slot : Nat} {t : Thread}
    (h : current s = some (c, slot, t)) (hs : t.stepping = none)
    (hc : d.commit (reading i t) = false ∨ (s.core c).lock = none) :
    Becomes s (atIssue i d s c slot t) c slot (past i d.len t) := by
  have e : issued (reading i t) (encode32 i) d.len = past i d.len t := by
    simp [issued, past, reading, hs]
  have B := (Becomes.refl (current_thread h)).setThread (reading i t)
  simp only [atIssue]
  rw [e]
  split
  · next hcc =>
    have hl : (s.core c).lock = none := by
      rcases hc with hc | hc
      · rw [hc] at hcc; cases hcc
      · exact hc
    have : commitBefore (s.setThread c slot (reading i t)) c slot = s.setThread c slot (reading i t) := by
      unfold commitBefore
      rw [B.lock, hl]
      rfl
    rw [this]
    exact (B.setThread _).settleCore rfl
  · exact (B.setThread _).settleCore rfl

theorem afterIssue_eq {s s' : State} {c slot : Nat} {t t' : Thread} (h : Becomes s s' c slot t')
    (hp : Plain s c slot t) (ht : t'.stepping = none) : afterIssue s' c slot = s' := by
  have hl : postCommit s' c slot = s' := by
    unfold postCommit
    rw [h.lock]
    cases hL : (s.core c).lock with
    | none => rfl
    | some L =>
      simp only [hp.noCommit L hL]
      rfl
  unfold afterIssue
  simp only [h.thread, hl]
  split
  · unfold stepFault
    simp [h.thread, Thread.stepped, ht]
  · rfl

/-- R79: an instruction whose effect is on its own thread's context alone, when the thread meets a condition. -/
theorem computesIf_of {i : Instr} {d : Desc} {body : Nat → Nat → Thread → State → State} {p : Thread → Prop}
    {f : Thread → Thread} (he : exec i = issue i d body) (hc : ∀ t, d.commit t = false)
    (hs : ∀ t, t.stepping = none → (f t).stepping = none)
    (hb : ∀ s s1 c slot t, p t → Becomes s s1 c slot (past i d.len t) →
      Becomes s (body c slot (reading i t) s1) c slot (f (past i d.len t))) :
    ComputesIf i d p f := by
  intro s c slot t hp' h hp
  have B := hb s (atIssue i d s c slot t) c slot t hp' (atIssue_becomes h.turn hp.notStepped (.inl (hc _)))
  refine ⟨_, ?_, B⟩
  rw [he, issue_next h]
  congr 1
  exact afterIssue_eq B hp (hs _ hp.notStepped)

/-- R79: an instruction whose effect is on its own thread's context alone. -/
theorem computes_of {i : Instr} {d : Desc} {body : Nat → Nat → Thread → State → State} {f : Thread → Thread}
    (he : exec i = issue i d body) (hc : ∀ t, d.commit t = false)
    (hs : ∀ t, t.stepping = none → (f t).stepping = none)
    (hb : ∀ s s1 c slot t, Becomes s s1 c slot (past i d.len t) →
      Becomes s (body c slot (reading i t) s1) c slot (f (past i d.len t))) :
    Computes i d f := fun s c slot t =>
  computesIf_of (p := fun _ => True) he hc hs (fun s s1 c slot t _ => hb s s1 c slot t) s c slot t trivial

@[simp] theorem Thread.setG_stepping (t : Thread) (d : Nat) (w : Word) : (t.setG d w).stepping = t.stepping := by
  unfold Thread.setG
  split <;> rfl

end Sys2Proof
end

