-- ==== Sys2Proof/Laws/Compute.lean ====
section
/-!
SUPPORT. Laws/Compute.lean: each operand form (R64, R79, R98, R138, R140) computes what its function says.
-/
namespace Sys2Proof
open Machine

@[simp] theorem Thread.setV_stepping (t : Thread) (d : Nat) (w : VWord) : (t.setV d w).stepping = t.stepping := rfl
@[simp] theorem Thread.setZ_stepping (t : Thread) (d : Nat) (w : ZReg) : (t.setZ d w).stepping = t.stepping := rfl
@[simp] theorem Thread.setPw_stepping (t : Thread) (w : BitVec 8) : (t.setPw w).stepping = t.stepping := rfl
@[simp] theorem withFlags_stepping (t : Thread) (fl : BitVec 5) : (withFlags t fl).stepping = t.stepping := rfl
@[simp] theorem withP_stepping (t : Thread) (k : Nat) (b : Bool) : (withP t k b).stepping = t.stepping := rfl

theorem Becomes.raise {s s1 : State} {c slot : Nat} {t : Thread} (h : Becomes s s1 c slot t) (fl : BitVec 5) :
    Becomes s (raise s1 c slot fl) c slot (withFlags t fl) := h.modThread _

theorem Becomes.setV {s s1 : State} {c slot : Nat} {t : Thread} (h : Becomes s s1 c slot t) (d : Nat) (w : VWord) :
    Becomes s (s1.modThread c slot (fun u => u.setV d w)) c slot (t.setV d w) := h.modThread _

theorem Becomes.setPc {s s1 : State} {c slot : Nat} {t : Thread} (h : Becomes s s1 c slot t) (pc : Word) :
    Becomes s (setPc s1 c slot pc) c slot { t with pc := pc } := h.modThread _

theorem Becomes.fresult {s s1 : State} {c slot : Nat} {t : Thread} (h : Becomes s s1 c slot t) (d : Nat)
    (r : Nat × BitVec 5) :
    Becomes s (fresult s1 c slot d r) c slot ((withFlags t r.2).setG d (BitVec.ofNat 64 r.1)) :=
  (h.raise _).writeG _ _

theorem Becomes.vresult {s s1 : State} {c slot : Nat} {t : Thread} (h : Becomes s s1 c slot t) (d : Nat)
    (r : VWord × BitVec 5) : Becomes s (vresult s1 c slot d r) c slot ((withFlags t r.2).setV d r.1) :=
  (h.raise _).setV _ _

theorem Becomes.writeP {s s1 : State} {c slot : Nat} {t : Thread} (h : Becomes s s1 c slot t) (k : Nat) (b : Bool) :
    Becomes s (writeP s1 c slot k b) c slot (withP t k b) := by
  unfold Machine.writeP
  simp only [h.thread]
  exact h.writePw _

theorem computes_rrr {i : Instr} {g : BitVec 3} {d a b : BitVec 7} {f : Word → Word → Word}
    (he : exec i = opRRR i g d a b f) :
    Computes i (dRRR g d a b) (fun t => t.setG d.toNat (f (t.gv a.toNat) (t.gv b.toNat))) :=
  computes_of (body := fun c slot t s => writeG s c slot d.toNat (f (t.gv a.toNat) (t.gv b.toNat)))
    he (fun _ => rfl) (fun t h => by simp [h]) (fun _ _ _ _ _ h => h.writeG _ _)

theorem computes_rr {i : Instr} {g : BitVec 3} {d a : BitVec 7} {f : Word → Word}
    (he : exec i = opRR i g d a f) :
    Computes i (dRR g d a) (fun t => t.setG d.toNat (f (t.gv a.toNat))) :=
  computes_of (body := fun c slot t s => writeG s c slot d.toNat (f (t.gv a.toNat)))
    he (fun _ => rfl) (fun t h => by simp [h]) (fun _ _ _ _ _ h => h.writeG _ _)

theorem computes_drr {i : Instr} {g : BitVec 3} {d a b : BitVec 7} {f : Word → Word → Word → Word}
    (he : exec i = opDRR i g d a b f) :
    Computes i (dDRR g d a b)
      (fun t => t.setG d.toNat (f (t.gv d.toNat) (t.gv a.toNat) (t.gv b.toNat))) :=
  computes_of (body := fun c slot t s =>
      writeG s c slot d.toNat (f (t.gv d.toNat) (t.gv a.toNat) (t.gv b.toNat)))
    he (fun _ => rfl) (fun t h => by simp [h]) (fun _ _ _ _ _ h => h.writeG _ _)

theorem computes_f2 {i : Instr} {g : BitVec 3} {d a b : BitVec 7} {f : FFmt}
    {op : Word → Nat → Nat → Nat × BitVec 5} (he : exec i = opF2 i g d a b f op) :
    Computes i (dRRR g d a b) (fun t =>
      let r := op t.fpctl ((t.gv a.toNat).toNat % 2 ^ f.width) ((t.gv b.toNat).toNat % 2 ^ f.width)
      (withFlags t r.2).setG d.toNat (BitVec.ofNat 64 r.1)) :=
  computes_of (body := fun c slot t s => fresult s c slot d.toNat
      (op t.fpctl (fopnd f (t.gv a.toNat)) (fopnd f (t.gv b.toNat))))
    he (fun _ => rfl) (fun t h => by simp [h]) (fun _ _ _ _ _ h => h.fresult _ _)

theorem computes_f1 {i : Instr} {g : BitVec 3} {d a : BitVec 7} {f : FFmt}
    {op : Word → Nat → Nat × BitVec 5} (he : exec i = opF1 i g d a f op) :
    Computes i (dRR g d a) (fun t =>
      let r := op t.fpctl ((t.gv a.toNat).toNat % 2 ^ f.width)
      (withFlags t r.2).setG d.toNat (BitVec.ofNat 64 r.1)) :=
  computes_of (body := fun c slot t s => fresult s c slot d.toNat (op t.fpctl (fopnd f (t.gv a.toNat))))
    he (fun _ => rfl) (fun t h => by simp [h]) (fun _ _ _ _ _ h => h.fresult _ _)

theorem computes_fma {i : Instr} {g : BitVec 3} {d a b : BitVec 7} {f : FFmt} {sub : Bool}
    (he : exec i = opFma i g d a b f sub) :
    Computes i (dDRR g d a b) (fun t =>
      let r := ffma f t.fpctl sub ((t.gv d.toNat).toNat % 2 ^ f.width)
        ((t.gv a.toNat).toNat % 2 ^ f.width) ((t.gv b.toNat).toNat % 2 ^ f.width)
      (withFlags t r.2).setG d.toNat (BitVec.ofNat 64 r.1)) :=
  computes_of (body := fun c slot t s => fresult s c slot d.toNat
      (ffma f t.fpctl sub (fopnd f (t.gv d.toNat)) (fopnd f (t.gv a.toNat)) (fopnd f (t.gv b.toNat))))
    he (fun _ => rfl) (fun t h => by simp [h]) (fun _ _ _ _ _ h => h.fresult _ _)

theorem computes_v2 {i : Instr} {g : BitVec 3} {d a b : BitVec 6} {f : BitVec 32 → BitVec 32 → BitVec 32}
    (he : exec i = opV2 i g d a b f) :
    Computes i (dVVV g d a b) (fun t => t.setV d.toNat
      (ofLanes ((List.range 16).map (fun l => f (lane (t.vv a.toNat) l) (lane (t.vv b.toNat) l))))) :=
  computes_of (body := fun c slot t s => s.modThread c slot (fun u => u.setV d.toNat
      (ofLanes ((List.range 16).map (fun l => f (lane (t.vv a.toNat) l) (lane (t.vv b.toNat) l))))))
    he (fun _ => rfl) (fun t h => by simp [h]) (fun _ _ _ _ _ h => h.setV _ _)

theorem computes_v1 {i : Instr} {g : BitVec 3} {d a : BitVec 6} {f : BitVec 32 → BitVec 32}
    (he : exec i = opV1 i g d a f) :
    Computes i (dVV g d a) (fun t => t.setV d.toNat
      (ofLanes ((List.range 16).map (fun l => f (lane (t.vv a.toNat) l))))) :=
  computes_of (body := fun c slot t s => s.modThread c slot (fun u => u.setV d.toNat
      (ofLanes ((List.range 16).map (fun l => f (lane (t.vv a.toNat) l))))))
    he (fun _ => rfl) (fun t h => by simp [h]) (fun _ _ _ _ _ h => h.setV _ _)

theorem computes_vf2 {i : Instr} {g : BitVec 3} {d a b : BitVec 6} {f : FFmt}
    {op : Word → Nat → Nat → Nat × BitVec 5} (he : exec i = opVf2 i g d a b f op) :
    Computes i (dVVV g d a b) (fun t =>
      let r := vf2 f (op t.fpctl) (t.vv a.toNat) (t.vv b.toNat)
      (withFlags t r.2).setV d.toNat r.1) :=
  computes_of (body := fun c slot t s => vresult s c slot d.toNat
      (vf2 f (op t.fpctl) (t.vv a.toNat) (t.vv b.toNat)))
    he (fun _ => rfl) (fun t h => by simp [h]) (fun _ _ _ _ _ h => h.vresult _ _)

theorem computes_vf3 {i : Instr} {g : BitVec 3} {d a b : BitVec 6} {f : FFmt}
    {op : Word → Nat → Nat → Nat → Nat × BitVec 5} (he : exec i = opVf3 i g d a b f op) :
    Computes i (dDVV g d a b) (fun t =>
      let r := vf3 f (op t.fpctl) (t.vv d.toNat) (t.vv a.toNat) (t.vv b.toNat)
      (withFlags t r.2).setV d.toNat r.1) :=
  computes_of (body := fun c slot t s => vresult s c slot d.toNat
      (vf3 f (op t.fpctl) (t.vv d.toNat) (t.vv a.toNat) (t.vv b.toNat)))
    he (fun _ => rfl) (fun t h => by simp [h]) (fun _ _ _ _ _ h => h.vresult _ _)

theorem computes_vsign {i : Instr} {g : BitVec 3} {d a : BitVec 6} {f : FFmt} {op : Nat → Nat}
    (he : exec i = opVsign i g d a f op) :
    Computes i (dVV g d a) (fun t =>
      let r := vf2 f (fun x _ => (op x, 0#5)) (t.vv a.toNat) 0#512
      (withFlags t r.2).setV d.toNat r.1) :=
  computes_of (body := fun c slot t s => vresult s c slot d.toNat
      (vf2 f (fun x _ => (op x, 0#5)) (t.vv a.toNat) 0#512))
    he (fun _ => rfl) (fun t h => by simp [h]) (fun _ _ _ _ _ h => h.vresult _ _)

end Sys2Proof
end

