-- ==== Sys2Proof/Laws/Exec.lean ====
section
/-!
SUPPORT. Laws/Exec.lean: for each instruction and each event, the meaning that its arm calls.
-/
namespace Sys2Proof
open Machine

theorem exec_add {g d a b} : exec (.add g d a b) = execAdd g d a b := rfl
theorem exec_sub {g d a b} : exec (.sub g d a b) = execSub g d a b := rfl
theorem exec_and {g d a b} : exec (.and g d a b) = execAnd g d a b := rfl
theorem exec_or {g d a b} : exec (.or g d a b) = execOr g d a b := rfl
theorem exec_xor {g d a b} : exec (.xor g d a b) = execXor g d a b := rfl
theorem exec_andn {g d a b} : exec (.andn g d a b) = execAndn g d a b := rfl
theorem exec_shl {g d a b} : exec (.shl g d a b) = execShl g d a b := rfl
theorem exec_shr {g d a b} : exec (.shr g d a b) = execShr g d a b := rfl
theorem exec_sra {g d a b} : exec (.sra g d a b) = execSra g d a b := rfl
theorem exec_rotl {g d a b} : exec (.rotl g d a b) = execRotl g d a b := rfl
theorem exec_mins {g d a b} : exec (.mins g d a b) = execMins g d a b := rfl
theorem exec_maxs {g d a b} : exec (.maxs g d a b) = execMaxs g d a b := rfl
theorem exec_minu {g d a b} : exec (.minu g d a b) = execMinu g d a b := rfl
theorem exec_maxu {g d a b} : exec (.maxu g d a b) = execMaxu g d a b := rfl
theorem exec_clz {g d a} : exec (.clz g d a) = execClz g d a := rfl
theorem exec_ctz {g d a} : exec (.ctz g d a) = execCtz g d a := rfl
theorem exec_popc {g d a} : exec (.popc g d a) = execPopc g d a := rfl
theorem exec_brev {g d a} : exec (.brev g d a) = execBrev g d a := rfl
theorem exec_bswap {g d a} : exec (.bswap g d a) = execBswap g d a := rfl
theorem exec_mul {g d a b} : exec (.mul g d a b) = execMul g d a b := rfl
theorem exec_mulhs {g d a b} : exec (.mulhs g d a b) = execMulhs g d a b := rfl
theorem exec_mulhu {g d a b} : exec (.mulhu g d a b) = execMulhu g d a b := rfl
theorem exec_mulhsu {g d a b} : exec (.mulhsu g d a b) = execMulhsu g d a b := rfl
theorem exec_divs {g d a b} : exec (.divs g d a b) = execDivs g d a b := rfl
theorem exec_divu {g d a b} : exec (.divu g d a b) = execDivu g d a b := rfl
theorem exec_rems {g d a b} : exec (.rems g d a b) = execRems g d a b := rfl
theorem exec_remu {g d a b} : exec (.remu g d a b) = execRemu g d a b := rfl
theorem exec_shadd1 {g d a b} : exec (.shadd1 g d a b) = execShadd1 g d a b := rfl
theorem exec_shadd2 {g d a b} : exec (.shadd2 g d a b) = execShadd2 g d a b := rfl
theorem exec_shadd3 {g d a b} : exec (.shadd3 g d a b) = execShadd3 g d a b := rfl
theorem exec_shadd4 {g d a b} : exec (.shadd4 g d a b) = execShadd4 g d a b := rfl
theorem exec_bext {g d a b} : exec (.bext g d a b) = execBext g d a b := rfl
theorem exec_bins {g d a b} : exec (.bins g d a b) = execBins g d a b := rfl
theorem exec_addi {g d a i_} : exec (.addi g d a i_) = execAddi g d a i_ := rfl
theorem exec_andi {g d a i_} : exec (.andi g d a i_) = execAndi g d a i_ := rfl
theorem exec_ori {g d a i_} : exec (.ori g d a i_) = execOri g d a i_ := rfl
theorem exec_xori {g d a i_} : exec (.xori g d a i_) = execXori g d a i_ := rfl
theorem exec_shli {g d a n} : exec (.shli g d a n) = execShli g d a n := rfl
theorem exec_shri {g d a n} : exec (.shri g d a n) = execShri g d a n := rfl
theorem exec_srai {g d a n} : exec (.srai g d a n) = execSrai g d a n := rfl
theorem exec_rotli {g d a n} : exec (.rotli g d a n) = execRotli g d a n := rfl
theorem exec_li {g d i_} : exec (.li g d i_) = execLi g d i_ := rfl
theorem exec_lis {g d i_} : exec (.lis g d i_) = execLis g d i_ := rfl
theorem exec_cmpReg {g p c a b} : exec (.cmpReg g p c a b) = execCmpReg g p c a b := rfl
theorem exec_cmpImm {g p c a i_} : exec (.cmpImm g p c a i_) = execCmpImm g p c a i_ := rfl
theorem exec_plog {g p x y o} : exec (.plog g p x y o) = execPlog g p x y o := rfl
theorem exec_pget {g d} : exec (.pget g d) = execPget g d := rfl
theorem exec_pset {g a} : exec (.pset g a) = execPset g a := rfl
theorem exec_br {g o} : exec (.br g o) = execBr g o := rfl
theorem exec_jal {g d i_} : exec (.jal g d i_) = execJal g d i_ := rfl
theorem exec_jr {g d a i_} : exec (.jr g d a i_) = execJr g d a i_ := rfl
theorem exec_ldbn {g d a o r} : exec (.ldbn g d a o r) = execLdbn g d a o r := rfl
theorem exec_ldhn {g d a o r} : exec (.ldhn g d a o r) = execLdhn g d a o r := rfl
theorem exec_ldwn {g d a o r} : exec (.ldwn g d a o r) = execLdwn g d a o r := rfl
theorem exec_ldd {g d a o r} : exec (.ldd g d a o r) = execLdd g d a o r := rfl
theorem exec_ldbs {g d a o r} : exec (.ldbs g d a o r) = execLdbs g d a o r := rfl
theorem exec_ldhs {g d a o r} : exec (.ldhs g d a o r) = execLdhs g d a o r := rfl
theorem exec_ldws {g d a o r} : exec (.ldws g d a o r) = execLdws g d a o r := rfl
theorem exec_stb {g d a o r} : exec (.stb g d a o r) = execStb g d a o r := rfl
theorem exec_sth {g d a o r} : exec (.sth g d a o r) = execSth g d a o r := rfl
theorem exec_stw {g d a o r} : exec (.stw g d a o r) = execStw g d a o r := rfl
theorem exec_std {g d a o r} : exec (.std g d a o r) = execStd g d a o r := rfl
theorem exec_ldq {g d a} : exec (.ldq g d a) = execLdq g d a := rfl
theorem exec_stq {g d a} : exec (.stq g d a) = execStq g d a := rfl
theorem exec_ldfe {g d a b} : exec (.ldfe g d a b) = execLdfe g d a b := rfl
theorem exec_stfe {g d a b} : exec (.stfe g d a b) = execStfe g d a b := rfl
theorem exec_aadd {g d a b} : exec (.aadd g d a b) = execAadd g d a b := rfl
theorem exec_aand {g d a b} : exec (.aand g d a b) = execAand g d a b := rfl
theorem exec_aor {g d a b} : exec (.aor g d a b) = execAor g d a b := rfl
theorem exec_axor {g d a b} : exec (.axor g d a b) = execAxor g d a b := rfl
theorem exec_amins {g d a b} : exec (.amins g d a b) = execAmins g d a b := rfl
theorem exec_amaxs {g d a b} : exec (.amaxs g d a b) = execAmaxs g d a b := rfl
theorem exec_aminu {g d a b} : exec (.aminu g d a b) = execAminu g d a b := rfl
theorem exec_amaxu {g d a b} : exec (.amaxu g d a b) = execAmaxu g d a b := rfl
theorem exec_aswap {g d a b} : exec (.aswap g d a b) = execAswap g d a b := rfl
theorem exec_acas {g d a b} : exec (.acas g d a b) = execAcas g d a b := rfl
theorem exec_acasq {g d a b} : exec (.acasq g d a b) = execAcasq g d a b := rfl
theorem exec_afadd {g d a b} : exec (.afadd g d a b) = execAfadd g d a b := rfl
theorem exec_fence {g w e r s_} : exec (.fence g w e r s_) = execFence g w e r s_ := rfl
theorem exec_watch {g d a} : exec (.watch g d a) = execWatch g d a := rfl
theorem exec_unwatch {g d a} : exec (.unwatch g d a) = execUnwatch g d a := rfl
theorem exec_sleep {g d} : exec (.sleep g d) = execSleep g d := rfl
theorem exec_waitge {g d a b} : exec (.waitge g d a b) = execWaitge g d a b := rfl
theorem exec_wbr {g d a b} : exec (.wbr g d a b) = execWbr g d a b := rfl
theorem exec_invr {g d a b} : exec (.invr g d a b) = execInvr g d a b := rfl
theorem exec_wbinvr {g d a b} : exec (.wbinvr g d a b) = execWbinvr g d a b := rfl
theorem exec_prefr {g a b} : exec (.prefr g a b) = execPrefr g a b := rfl
theorem exec_faddD {g d a b} : exec (.faddD g d a b) = execFaddD g d a b := rfl
theorem exec_fsubD {g d a b} : exec (.fsubD g d a b) = execFsubD g d a b := rfl
theorem exec_fmulD {g d a b} : exec (.fmulD g d a b) = execFmulD g d a b := rfl
theorem exec_fminD {g d a b} : exec (.fminD g d a b) = execFminD g d a b := rfl
theorem exec_fmaxD {g d a b} : exec (.fmaxD g d a b) = execFmaxD g d a b := rfl
theorem exec_fdivD {g d a b} : exec (.fdivD g d a b) = execFdivD g d a b := rfl
theorem exec_fsqrtD {g d a} : exec (.fsqrtD g d a) = execFsqrtD g d a := rfl
theorem exec_fcvt {g d a c} : exec (.fcvt g d a c) = execFcvt g d a c := rfl
theorem exec_faddS {g d a b} : exec (.faddS g d a b) = execFaddS g d a b := rfl
theorem exec_fsubS {g d a b} : exec (.fsubS g d a b) = execFsubS g d a b := rfl
theorem exec_fmulS {g d a b} : exec (.fmulS g d a b) = execFmulS g d a b := rfl
theorem exec_fminS {g d a b} : exec (.fminS g d a b) = execFminS g d a b := rfl
theorem exec_fmaxS {g d a b} : exec (.fmaxS g d a b) = execFmaxS g d a b := rfl
theorem exec_fdivS {g d a b} : exec (.fdivS g d a b) = execFdivS g d a b := rfl
theorem exec_fsqrtS {g d a} : exec (.fsqrtS g d a) = execFsqrtS g d a := rfl
theorem exec_fclass {g d a} : exec (.fclass g d a) = execFclass g d a := rfl
theorem exec_fmaD {g d a b} : exec (.fmaD g d a b) = execFmaD g d a b := rfl
theorem exec_fmaS {g d a b} : exec (.fmaS g d a b) = execFmaS g d a b := rfl
theorem exec_fmsD {g d a b} : exec (.fmsD g d a b) = execFmsD g d a b := rfl
theorem exec_fmsS {g d a b} : exec (.fmsS g d a b) = execFmsS g d a b := rfl
theorem exec_fcmp {g p c a b} : exec (.fcmp g p c a b) = execFcmp g p c a b := rfl
theorem exec_spawn {g d a b} : exec (.spawn g d a b) = execSpawn g d a b := rfl
theorem exec_quit {g} : exec (.quit g) = execQuit g := rfl
theorem exec_migr {g a} : exec (.migr g a) = execMigr g a := rfl
theorem exec_send {g d a b} : exec (.send g d a b) = execSend g d a b := rfl
theorem exec_fork {g d a b} : exec (.fork g d a b) = execFork g d a b := rfl
theorem exec_join {g a} : exec (.join g a) = execJoin g a := rfl
theorem exec_wqry {g d a} : exec (.wqry g d a) = execWqry g d a := rfl
theorem exec_launch {g d a} : exec (.launch g d a) = execLaunch g d a := rfl
theorem exec_bar {g d a} : exec (.bar g d a) = execBar g d a := rfl
theorem exec_bard {g d a} : exec (.bard g d a) = execBard g d a := rfl
theorem exec_breg {g d a} : exec (.breg g d a) = execBreg g d a := rfl
theorem exec_chkpt {g d} : exec (.chkpt g d) = execChkpt g d := rfl
theorem exec_tstop {g d a} : exec (.tstop g d a) = execTstop g d a := rfl
theorem exec_tstart {g d a} : exec (.tstart g d a) = execTstart g d a := rfl
theorem exec_tread {g d a b} : exec (.tread g d a b) = execTread g d a b := rfl
theorem exec_twrite {g d a b} : exec (.twrite g d a b) = execTwrite g d a b := rfl
theorem exec_gets {g d s_} : exec (.gets g d s_) = execGets g d s_ := rfl
theorem exec_sets {g a s_} : exec (.sets g a s_) = execSets g a s_ := rfl
theorem exec_invpg {g d a b} : exec (.invpg g d a b) = execInvpg g d a b := rfl
theorem exec_selft {g d a b} : exec (.selft g d a b) = execSelft g d a b := rfl
theorem exec_brk {g i_} : exec (.brk g i_) = execBrk g i_ := rfl
theorem exec_vadd {g d a b} : exec (.vadd g d a b) = execVadd g d a b := rfl
theorem exec_vsub {g d a b} : exec (.vsub g d a b) = execVsub g d a b := rfl
theorem exec_vmul {g d a b} : exec (.vmul g d a b) = execVmul g d a b := rfl
theorem exec_vmulhs {g d a b} : exec (.vmulhs g d a b) = execVmulhs g d a b := rfl
theorem exec_vmulhu {g d a b} : exec (.vmulhu g d a b) = execVmulhu g d a b := rfl
theorem exec_vand {g d a b} : exec (.vand g d a b) = execVand g d a b := rfl
theorem exec_vor {g d a b} : exec (.vor g d a b) = execVor g d a b := rfl
theorem exec_vxor {g d a b} : exec (.vxor g d a b) = execVxor g d a b := rfl
theorem exec_vandn {g d a b} : exec (.vandn g d a b) = execVandn g d a b := rfl
theorem exec_vshl {g d a b} : exec (.vshl g d a b) = execVshl g d a b := rfl
theorem exec_vshr {g d a b} : exec (.vshr g d a b) = execVshr g d a b := rfl
theorem exec_vsra {g d a b} : exec (.vsra g d a b) = execVsra g d a b := rfl
theorem exec_vmins {g d a b} : exec (.vmins g d a b) = execVmins g d a b := rfl
theorem exec_vmaxs {g d a b} : exec (.vmaxs g d a b) = execVmaxs g d a b := rfl
theorem exec_vminu {g d a b} : exec (.vminu g d a b) = execVminu g d a b := rfl
theorem exec_vmaxu {g d a b} : exec (.vmaxu g d a b) = execVmaxu g d a b := rfl
theorem exec_vabs {g d a} : exec (.vabs g d a) = execVabs g d a := rfl
theorem exec_vpopc {g d a} : exec (.vpopc g d a) = execVpopc g d a := rfl
theorem exec_vclz {g d a} : exec (.vclz g d a) = execVclz g d a := rfl
theorem exec_vcmpeq {g d a b} : exec (.vcmpeq g d a b) = execVcmpeq g d a b := rfl
theorem exec_vcmplts {g d a b} : exec (.vcmplts g d a b) = execVcmplts g d a b := rfl
theorem exec_vcmpltu {g d a b} : exec (.vcmpltu g d a b) = execVcmpltu g d a b := rfl
theorem exec_vsel {g d a b} : exec (.vsel g d a b) = execVsel g d a b := rfl
theorem exec_vshuf {g d a b} : exec (.vshuf g d a b) = execVshuf g d a b := rfl
theorem exec_vfadd {g d a b p} : exec (.vfadd g d a b p) = execVfadd g d a b p := rfl
theorem exec_vfsub {g d a b p} : exec (.vfsub g d a b p) = execVfsub g d a b p := rfl
theorem exec_vfmul {g d a b p} : exec (.vfmul g d a b p) = execVfmul g d a b p := rfl
theorem exec_vfma {g d a b p} : exec (.vfma g d a b p) = execVfma g d a b p := rfl
theorem exec_vfms {g d a b p} : exec (.vfms g d a b p) = execVfms g d a b p := rfl
theorem exec_vfmin {g d a b p} : exec (.vfmin g d a b p) = execVfmin g d a b p := rfl
theorem exec_vfmax {g d a b p} : exec (.vfmax g d a b p) = execVfmax g d a b p := rfl
theorem exec_vfabs {g d a p} : exec (.vfabs g d a p) = execVfabs g d a p := rfl
theorem exec_vfneg {g d a p} : exec (.vfneg g d a p) = execVfneg g d a p := rfl
theorem exec_vfdiv {g d a b p} : exec (.vfdiv g d a b p) = execVfdiv g d a b p := rfl
theorem exec_vfsqrt {g d a p} : exec (.vfsqrt g d a p) = execVfsqrt g d a p := rfl
theorem exec_vfcmpeq {g d a b p} : exec (.vfcmpeq g d a b p) = execVfcmpeq g d a b p := rfl
theorem exec_vfcmplt {g d a b p} : exec (.vfcmplt g d a b p) = execVfcmplt g d a b p := rfl
theorem exec_vfcmple {g d a b p} : exec (.vfcmple g d a b p) = execVfcmple g d a b p := rfl
theorem exec_vfcmpun {g d a b p} : exec (.vfcmpun g d a b p) = execVfcmpun g d a b p := rfl
theorem exec_vhaddH {g d a b} : exec (.vhaddH g d a b) = execVhaddH g d a b := rfl
theorem exec_vhmulH {g d a b} : exec (.vhmulH g d a b) = execVhmulH g d a b := rfl
theorem exec_vhfmaH {g d a b} : exec (.vhfmaH g d a b) = execVhfmaH g d a b := rfl
theorem exec_vhaddB {g d a b} : exec (.vhaddB g d a b) = execVhaddB g d a b := rfl
theorem exec_vhmulB {g d a b} : exec (.vhmulB g d a b) = execVhmulB g d a b := rfl
theorem exec_vhfmaB {g d a b} : exec (.vhfmaB g d a b) = execVhfmaB g d a b := rfl
theorem exec_vdot8 {g d a b} : exec (.vdot8 g d a b) = execVdot8 g d a b := rfl
theorem exec_vdots8 {g d a b} : exec (.vdots8 g d a b) = execVdots8 g d a b := rfl
theorem exec_vcvt {g d a c} : exec (.vcvt g d a c) = execVcvt g d a c := rfl
theorem exec_vld {g d a b} : exec (.vld g d a b) = execVld g d a b := rfl
theorem exec_vst {g d a b} : exec (.vst g d a b) = execVst g d a b := rfl
theorem exec_vlds {g d a b} : exec (.vlds g d a b) = execVlds g d a b := rfl
theorem exec_vsts {g d a b} : exec (.vsts g d a b) = execVsts g d a b := rfl
theorem exec_vgath {g d a b} : exec (.vgath g d a b) = execVgath g d a b := rfl
theorem exec_vscat {g d a b} : exec (.vscat g d a b) = execVscat g d a b := rfl
theorem exec_vldb {g d a b} : exec (.vldb g d a b) = execVldb g d a b := rfl
theorem exec_vldR {g d a b} : exec (.vldR g d a b) = execVldR g d a b := rfl
theorem exec_vbcast {g x v} : exec (.vbcast g x v) = execVbcast g x v := rfl
theorem exec_vext {g x v w} : exec (.vext g x v w) = execVext g x v w := rfl
theorem exec_vins {g x v w} : exec (.vins g x v w) = execVins g x v w := rfl
theorem exec_vredaddS {g x v} : exec (.vredaddS g x v) = execVredaddS g x v := rfl
theorem exec_vredaddI {g x v} : exec (.vredaddI g x v) = execVredaddI g x v := rfl
theorem exec_vredmaxS {g x v} : exec (.vredmaxS g x v) = execVredmaxS g x v := rfl
theorem exec_vredminS {g x v} : exec (.vredminS g x v) = execVredminS g x v := rfl
theorem exec_vmask {g x v} : exec (.vmask g x v) = execVmask g x v := rfl
theorem exec_vrcp {g d a} : exec (.vrcp g d a) = execVrcp g d a := rfl
theorem exec_vrsq {g d a} : exec (.vrsq g d a) = execVrsq g d a := rfl
theorem exec_vexp2 {g d a} : exec (.vexp2 g d a) = execVexp2 g d a := rfl
theorem exec_vlog2 {g d a} : exec (.vlog2 g d a) = execVlog2 g d a := rfl
theorem exec_vsin {g d a} : exec (.vsin g d a) = execVsin g d a := rfl
theorem exec_vcos {g d a} : exec (.vcos g d a) = execVcos g d a := rfl
theorem exec_vtanh {g d a} : exec (.vtanh g d a) = execVtanh g d a := rfl
theorem exec_vsigm {g d a} : exec (.vsigm g d a) = execVsigm g d a := rfl
theorem exec_b2z {g z a b} : exec (.b2z g z a b) = execB2z g z a b := rfl
theorem exec_z2b {g z a} : exec (.z2b g z a) = execZ2b g z a := rfl
theorem exec_zcls {g z a b} : exec (.zcls g z a b) = execZcls g z a b := rfl
theorem exec_zrgn {g z s_ b} : exec (.zrgn g z s_ b) = execZrgn g z s_ b := rfl
theorem exec_zclr {g z} : exec (.zclr g z) = execZclr g z := rfl
theorem exec_zand {g d a b} : exec (.zand g d a b) = execZand g d a b := rfl
theorem exec_zor {g d a b} : exec (.zor g d a b) = execZor g d a b := rfl
theorem exec_zxnor {g d a b} : exec (.zxnor g d a b) = execZxnor g d a b := rfl
theorem exec_znot {g d a} : exec (.znot g d a) = execZnot g d a := rfl
theorem exec_zmux {g d a b s_} : exec (.zmux g d a b s_) = execZmux g d a b s_ := rfl
theorem exec_cwst {g d a} : exec (.cwst g d a) = execCwst g d a := rfl
theorem exec_cwadd {g d a b} : exec (.cwadd g d a b) = execCwadd g d a b := rfl
theorem exec_cwcas {g d a b} : exec (.cwcas g d a b) = execCwcas g d a b := rfl
theorem exec_cwfence {g d a} : exec (.cwfence g d a) = execCwfence g d a := rfl
theorem exec_mma {g cpl x} : exec (.mma g cpl x) = execMma g cpl x := rfl
theorem exec_copy {g cpl x} : exec (.copy g cpl x) = execCopy g cpl x := rfl
theorem exec_gath {g cpl x} : exec (.gath g cpl x) = execGath g cpl x := rfl
theorem exec_coll {g cpl x} : exec (.coll g cpl x) = execColl g cpl x := rfl
theorem exec_fill {g cpl x} : exec (.fill g cpl x) = execFill g cpl x := rfl
theorem exec_enc8 {g cpl x} : exec (.enc8 g cpl x) = execEnc8 g cpl x := rfl
theorem exec_rotationFill {core} : exec (.rotationFill core) = execRotationFill core := rfl
theorem exec_registerFillAdmit {core} : exec (.registerFillAdmit core) = execRegisterFillAdmit core := rfl
theorem exec_registerFillComplete {core slot} : exec (.registerFillComplete core slot) = execRegisterFillComplete core slot := rfl
theorem exec_relaxedLoadDeliver {core slot id} : exec (.relaxedLoadDeliver core slot id) = execRelaxedLoadDeliver core slot id := rfl
theorem exec_relaxedStorePerform {core slot id} : exec (.relaxedStorePerform core slot id) = execRelaxedStorePerform core slot id := rfl
theorem exec_accessComplete {core slot} : exec (.accessComplete core slot) = execAccessComplete core slot := rfl
theorem exec_sfuQueueAdmit {core} : exec (.sfuQueueAdmit core) = execSfuQueueAdmit core := rfl
theorem exec_sfuRequestComplete {core} : exec (.sfuRequestComplete core) = execSfuRequestComplete core := rfl
theorem exec_ssuComplete {core slot} : exec (.ssuComplete core slot) = execSsuComplete core slot := rfl
theorem exec_contextGrant {core} : exec (.contextGrant core) = execContextGrant core := rfl
theorem exec_threadFill {core} : exec (.threadFill core) = execThreadFill core := rfl
theorem exec_threadFillComplete {core slot} : exec (.threadFillComplete core slot) = execThreadFillComplete core slot := rfl
theorem exec_wlimExpiry {core slot} : exec (.wlimExpiry core slot) = execWlimExpiry core slot := rfl
theorem exec_waitgeRecheck {core slot} : exec (.waitgeRecheck core slot) = execWaitgeRecheck core slot := rfl
theorem exec_feWaiterRelease {core word} : exec (.feWaiterRelease core word) = execFeWaiterRelease core word := rfl
theorem exec_watchEntryGrant {core slot} : exec (.watchEntryGrant core slot) = execWatchEntryGrant core slot := rfl
theorem exec_watchRecorded {core slot} : exec (.watchRecorded core slot) = execWatchRecorded core slot := rfl
theorem exec_guestAccess {core} : exec (.guestAccess core) = execGuestAccess core := rfl
theorem exec_postedStoreAccept {core slot} : exec (.postedStoreAccept core slot) = execPostedStoreAccept core slot := rfl
theorem exec_threadPacketArrive {id} : exec (.threadPacketArrive id) = execThreadPacketArrive id := rfl
theorem exec_visitorSlotGrant {core} : exec (.visitorSlotGrant core) = execVisitorSlotGrant core := rfl
theorem exec_threadStateAct {core slot} : exec (.threadStateAct core slot) = execThreadStateAct core slot := rfl
theorem exec_invpgComplete {core slot} : exec (.invpgComplete core slot) = execInvpgComplete core slot := rfl
theorem exec_selftComplete {core slot failed rows ways bank} : exec (.selftComplete core slot failed rows ways bank) = execSelftComplete core slot failed rows ways bank := rfl
theorem exec_barrierRecordGrant {core} : exec (.barrierRecordGrant core) = execBarrierRecordGrant core := rfl
theorem exec_barrierJoin {id} : exec (.barrierJoin id) = execBarrierJoin id := rfl
theorem exec_barrierDrop {id} : exec (.barrierDrop id) = execBarrierDrop id := rfl
theorem exec_barrierArrive {id} : exec (.barrierArrive id) = execBarrierArrive id := rfl
theorem exec_engineAccept {id} : exec (.engineAccept id) = execEngineAccept id := rfl
theorem exec_mmaStep {id} : exec (.mmaStep id) = execMmaStep id := rfl
theorem exec_gathScatterRow {id} : exec (.gathScatterRow id) = execGathScatterRow id := rfl
theorem exec_engineComplete {id} : exec (.engineComplete id) = execEngineComplete id := rfl
theorem exec_collInstanceComplete {id} : exec (.collInstanceComplete id) = execCollInstanceComplete id := rfl
theorem exec_rd {line agent} : exec (.rd line agent) = execRd line agent := rfl
theorem exec_rdx {line agent} : exec (.rdx line agent) = execRdx line agent := rfl
theorem exec_upg {line agent} : exec (.upg line agent) = execUpg line agent := rfl
theorem exec_wb {line agent} : exec (.wb line agent) = execWb line agent := rfl
theorem exec_wbk {line agent} : exec (.wbk line agent) = execWbk line agent := rfl
theorem exec_put {line agent} : exec (.put line agent) = execPut line agent := rfl
theorem exec_amo {line agent} : exec (.amo line agent) = execAmo line agent := rfl
theorem exec_own {line id} : exec (.own line id) = execOwn line id := rfl
theorem exec_ew {line id} : exec (.ew line id) = execEw line id := rfl
theorem exec_rel {line id} : exec (.rel line id) = execRel line id := rfl
theorem exec_inv {line agent} : exec (.inv line agent) = execInv line agent := rfl
theorem exec_rcl {line agent} : exec (.rcl line agent) = execRcl line agent := rfl
theorem exec_dwg {line agent} : exec (.dwg line agent) = execDwg line agent := rfl
theorem exec_recallAnswer {line agent} : exec (.recallAnswer line agent) = execRecallAnswer line agent := rfl
theorem exec_ack {line agent} : exec (.ack line agent) = execAck line agent := rfl
theorem exec_nack {line agent} : exec (.nack line agent) = execNack line agent := rfl
theorem exec_pin {line agent} : exec (.pin line agent) = execPin line agent := rfl
theorem exec_pinDrop {line agent} : exec (.pinDrop line agent) = execPinDrop line agent := rfl
theorem exec_leaseRenewal {die agent} : exec (.leaseRenewal die agent) = execLeaseRenewal die agent := rfl
theorem exec_leaseExpiry {die agent} : exec (.leaseExpiry die agent) = execLeaseExpiry die agent := rfl
theorem exec_leaseSelfLimit {die agent} : exec (.leaseSelfLimit die agent) = execLeaseSelfLimit die agent := rfl
theorem exec_leaseRejoin {die agent} : exec (.leaseRejoin die agent) = execLeaseRejoin die agent := rfl
theorem exec_copyTermExpiry {agent line} : exec (.copyTermExpiry agent line) = execCopyTermExpiry agent line := rfl
theorem exec_walkComplete {id} : exec (.walkComplete id) = execWalkComplete id := rfl
theorem exec_waystationInvalidate {ws id} : exec (.waystationInvalidate ws id) = execWaystationInvalidate ws id := rfl
theorem exec_cwJoin {port} : exec (.cwJoin port) = execCwJoin port := rfl
theorem exec_cwLeave {port} : exec (.cwLeave port) = execCwLeave port := rfl
theorem exec_cwQueueAdmit {port} : exec (.cwQueueAdmit port) = execCwQueueAdmit port := rfl
theorem exec_rotationOpen {port view} : exec (.rotationOpen port view) = execRotationOpen port view := rfl
theorem exec_burstSend {port} : exec (.burstSend port) = execBurstSend port := rfl
theorem exec_frameData {port frame} : exec (.frameData port frame) = execFrameData port frame := rfl
theorem exec_frameReplay {port frame} : exec (.frameReplay port frame) = execFrameReplay port frame := rfl
theorem exec_frameSnapshot {port frame part} : exec (.frameSnapshot port frame part) = execFrameSnapshot port frame part := rfl
theorem exec_frameControl {port index cwid slots} : exec (.frameControl port index cwid slots) = execFrameControl port index cwid slots := rfl
theorem exec_missingFrame {port rotation member fidx} : exec (.missingFrame port rotation member fidx) = execMissingFrame port rotation member fidx := rfl
theorem exec_holeTimeout {port} : exec (.holeTimeout port) = execHoleTimeout port := rfl
theorem exec_masterLoss {port} : exec (.masterLoss port) = execMasterLoss port := rfl
theorem exec_recoveryTimeout {port} : exec (.recoveryTimeout port) = execRecoveryTimeout port := rfl
theorem exec_joinListenEnd {port heard} : exec (.joinListenEnd port heard) = execJoinListenEnd port heard := rfl
theorem exec_founderWaitEnd {port heard} : exec (.founderWaitEnd port heard) = execFounderWaitEnd port heard := rfl
theorem exec_joinGrantTimeout {port} : exec (.joinGrantTimeout port) = execJoinGrantTimeout port := rfl
theorem exec_launchPortHeader {part addr} : exec (.launchPortHeader part addr) = execLaunchPortHeader part addr := rfl
theorem exec_launchPortGraph {part addr} : exec (.launchPortGraph part addr) = execLaunchPortGraph part addr := rfl
theorem exec_launchAccept {id} : exec (.launchAccept id) = execLaunchAccept id := rfl
theorem exec_launchRecordGrant {part} : exec (.launchRecordGrant part) = execLaunchRecordGrant part := rfl
theorem exec_dependenceReady {lid} : exec (.dependenceReady lid) = execDependenceReady lid := rfl
theorem exec_dependenceCancel {lid} : exec (.dependenceCancel lid) = execDependenceCancel lid := rfl
theorem exec_placementDecision {part} : exec (.placementDecision part) = execPlacementDecision part := rfl
theorem exec_quantumExpiry {lid} : exec (.quantumExpiry lid) = execQuantumExpiry lid := rfl
theorem exec_groupSave {gid} : exec (.groupSave gid) = execGroupSave gid := rfl
theorem exec_wqryServe {part} : exec (.wqryServe part) = execWqryServe part := rfl
theorem exec_wqryAnswerDeliver {id} : exec (.wqryAnswerDeliver id) = execWqryAnswerDeliver id := rfl
theorem exec_launchCompletion {lid} : exec (.launchCompletion lid) = execLaunchCompletion lid := rfl
theorem exec_create {part} : exec (.create part) = execCreate part := rfl
theorem exec_reset {part} : exec (.reset part) = execReset part := rfl
theorem exec_teardown {part} : exec (.teardown part) = execTeardown part := rfl
theorem exec_pmsWrite {core slot} : exec (.pmsWrite core slot) = execPmsWrite core slot := rfl
theorem exec_histogramConfig {part unit value} : exec (.histogramConfig part unit value) = execHistogramConfig part unit value := rfl
theorem exec_histogramClear {part unit} : exec (.histogramClear part unit) = execHistogramClear part unit := rfl
theorem exec_histogramSample {part unit sample} : exec (.histogramSample part unit sample) = execHistogramSample part unit sample := rfl
theorem exec_registerWrite {part word value} : exec (.registerWrite part word value) = execRegisterWrite part word value := rfl
theorem exec_postedWriteArrive {id} : exec (.postedWriteArrive id) = execPostedWriteArrive id := rfl
theorem exec_remoteRead {id} : exec (.remoteRead id) = execRemoteRead id := rfl
theorem exec_remoteReadResponse {id data} : exec (.remoteReadResponse id data) = execRemoteReadResponse id data := rfl
theorem exec_remoteAtomic {id} : exec (.remoteAtomic id) = execRemoteAtomic id := rfl
theorem exec_remoteAtomicResponse {id old} : exec (.remoteAtomicResponse id old) = execRemoteAtomicResponse id old := rfl
theorem exec_hostBarAccess {fn addr size write} : exec (.hostBarAccess fn addr size write) = execHostBarAccess fn addr size write := rfl
theorem exec_hostAtomicop {fn offset op} : exec (.hostAtomicop fn offset op) = execHostAtomicop fn offset op := rfl
theorem exec_cxlMemAccess {addr size write} : exec (.cxlMemAccess addr size write) = execCxlMemAccess addr size write := rfl
theorem exec_hostSnoop {line write} : exec (.hostSnoop line write) = execHostSnoop line write := rfl
theorem exec_linkDown {link} : exec (.linkDown link) = execLinkDown link := rfl
theorem exec_flitCrcError {link} : exec (.flitCrcError link) = execFlitCrcError link := rfl
theorem exec_fatalError {unit poisoned} : exec (.fatalError unit poisoned) = execFatalError unit poisoned := rfl
theorem exec_checkpointCommit {core} : exec (.checkpointCommit core) = execCheckpointCommit core := rfl
theorem exec_lockstepMismatch {core} : exec (.lockstepMismatch core) = execLockstepMismatch core := rfl
theorem exec_boot {image0 image1} : exec (.boot image0 image1) = execBoot image0 image1 := rfl
theorem exec_thermalThrottle {die} : exec (.thermalThrottle die) = execThermalThrottle die := rfl
theorem exec_thermalShutdown {die} : exec (.thermalShutdown die) = execThermalShutdown die := rfl
theorem exec_mcBankRead {bank word} : exec (.mcBankRead bank word) = execMcBankRead bank word := rfl
theorem exec_bankClear {bank} : exec (.bankClear bank) = execBankClear bank := rfl
theorem exec_telemetryRead {word} : exec (.telemetryRead word) = execTelemetryRead word := rfl
theorem exec_powerLimitSet {milliwatts} : exec (.powerLimitSet milliwatts) = execPowerLimitSet milliwatts := rfl
theorem exec_pcbWordAccess {part word write} : exec (.pcbWordAccess part word write) = execPcbWordAccess part word write := rfl
theorem exec_attestation {nonce} : exec (.attestation nonce) = execAttestation nonce := rfl
theorem exec_fenceListRead : exec .fenceListRead = execFenceListRead := rfl
theorem exec_versionRaise : exec .versionRaise = execVersionRaise := rfl
theorem exec_mgmtUnknownCode {code} : exec (.mgmtUnknownCode code) = execMgmtUnknownCode code := rfl
theorem exec_layByScrubComplete {part} : exec (.layByScrubComplete part) = execLayByScrubComplete part := rfl
theorem exec_hostLinkUp {link} : exec (.hostLinkUp link) = execHostLinkUp link := rfl
theorem exec_thermalRecovery {die} : exec (.thermalRecovery die) = execThermalRecovery die := rfl

end Sys2Proof
end

