-- ==== Sys2Proof/Laws/Fault.lean ====
section
/-!
SUPPORT. Laws/Fault.lean: what taking a fault does to its thread (R26): nothing that the machine does in the same
act changes a thread that waits for nothing, but for the latch that a write to a watched line sets (R128).
-/
namespace Sys2Proof
open Machine

/-- A thread at rest in its slot, its latch apart. -/
def Rests (c slot : Nat) (u : Thread) (s : State) : Prop :=
  ∃ b, s.thread? c slot = some { u with latch := b }

section
variable {c slot : Nat} {u : Thread}

theorem Rests.of_cores {s s' : State} (h : Rests c slot u s) (e : s'.cores = s.cores) : Rests c slot u s' := by
  obtain ⟨b, hb⟩ := h
  exact ⟨b, by simpa [State.thread?, State.core, e] using hb⟩

theorem Rests.withFree {s : State} (h : Rests c slot u s) (n : Nat) : Rests c slot u { s with free := n } :=
  h.of_cores rfl

theorem Rests.withWatches {s : State} (h : Rests c slot u s) (l : List Watch) :
    Rests c slot u { s with watches := l } := h.of_cores rfl

theorem Rests.setCore {s : State} {q : Nat} {k : Core} (h : Rests c slot u s)
    (e : k.threads = (s.core q).threads) : Rests c slot u (s.setCore q k) := by
  obtain ⟨b, hb⟩ := h
  refine ⟨b, ?_⟩
  simp only [State.thread?, State.core_setCore]
  split
  · subst_vars
    rw [e]
    exact hb
  · exact hb

theorem Rests.modCore {s : State} {q : Nat} {f : Core → Core} (h : Rests c slot u s)
    (e : (f (s.core q)).threads = (s.core q).threads) : Rests c slot u (s.modCore q f) := h.setCore e

theorem Rests.setThread_ne {s : State} {q x : Nat} {t : Thread} (h : Rests c slot u s) (ne : ¬(c = q ∧ slot = x)) :
    Rests c slot u (s.setThread q x t) := by
  obtain ⟨b, hb⟩ := h
  exact ⟨b, by rw [State.thread?_setThread, if_neg ne, hb]⟩

theorem Rests.modThread_ne {s : State} {q x : Nat} {f : Thread → Thread} (h : Rests c slot u s)
    (ne : ¬(c = q ∧ slot = x)) : Rests c slot u (s.modThread q x f) := by
  unfold State.modThread
  split
  · exact h.setThread_ne ne
  · exact h

theorem Rests.post {s : State} (h : Rests c slot u s) (e : Event) : Rests c slot u (s.post e) := h.of_cores rfl

theorem Rests.foldl {α : Type} {f : State → α → State} (hf : ∀ s a, Rests c slot u s → Rests c slot u (f s a))
    (l : List α) {s : State} (h : Rests c slot u s) : Rests c slot u (l.foldl f s) := by
  induction l generalizing s with
  | nil => exact h
  | cons a l ih => exact ih (hf _ _ h)

theorem Rests.postEntries {s : State} (h : Rests c slot u s) : Rests c slot u (postEntries s) := by
  unfold Machine.postEntries
  refine Rests.foldl (fun s a h => h.post _) _ (Rests.foldl (fun s a h => ?_) _ h)
  split
  · exact h.post _
  · exact h

theorem Rests.postWaiting {s : State} (h : Rests c slot u s) : Rests c slot u (postWaiting s) := by
  unfold Machine.postWaiting
  refine Rests.foldl (fun s a h => ?_) _ (Rests.foldl (fun s a h => ?_) _ h)
  · split
    · exact h.post _
    · exact h
  · split <;> exact h.post _

theorem Rests.postFill {s : State} (h : Rests c slot u s) (q : Nat) : Rests c slot u (postFill s q) := by
  unfold Machine.postFill
  split
  · exact h
  · exact h.post _

theorem Rests.postCtx {s : State} (h : Rests c slot u s) (q : Nat) : Rests c slot u (postCtx s q) := by
  unfold Machine.postCtx
  split
  · exact h
  · exact h.post _
  · exact h.post _

theorem Rests.postCommit {s : State} (h : Rests c slot u s) (q x : Nat) : Rests c slot u (postCommit s q x) := by
  unfold Machine.postCommit
  split
  · exact h
  · split
    · exact (h.modCore rfl).post _
    · exact h

theorem Rests.rcPut {s : State} (h : Rests c slot u s) (q x r : Nat) (e : RcState) :
    Rests c slot u (rcPut s q x r e) := by
  simp only [Machine.rcPut]
  split
  · exact h.setCore rfl
  · refine Rests.withFree ?_ _
    exact h.setCore rfl

theorem Rests.rcWrote {s : State} (h : Rests c slot u s) (q x r : Nat) (a : Bool) :
    Rests c slot u (rcWrote s q x r a) := by
  unfold Machine.rcWrote
  split
  · exact h.modCore rfl
  · exact h.rcPut ..

theorem Rests.writeG_ne {s : State} (h : Rests c slot u s) {q x : Nat} (ne : ¬(c = q ∧ slot = x)) (d : Nat)
    (w : Word) : Rests c slot u (writeG s q x d w) := by
  unfold Machine.writeG
  split
  · exact h
  · split
    · exact h
    · exact (h.setThread_ne ne).rcWrote ..

theorem Rests.makeReady_ne {s : State} (h : Rests c slot u s) {q x : Nat} (ne : ¬(c = q ∧ slot = x)) :
    Rests c slot u (makeReady s q x) := (h.modThread_ne ne).modCore rfl

theorem Rests.joinFill {s : State} (h : Rests c slot u s) (q x : Nat) : Rests c slot u (joinFill s q x) :=
  Rests.postCtx (Rests.modCore h rfl) q

theorem Rests.wakeUp_ne {s : State} (h : Rests c slot u s) {q x : Nat} (ne : ¬(c = q ∧ slot = x)) (t : Thread) :
    Rests c slot u (wakeUp s q x t) := by
  unfold Machine.wakeUp
  split
  · exact (h.setThread_ne ne).joinFill ..
  · exact (h.setThread_ne ne).makeReady_ne ne

theorem Rests.finishWait_ne {s : State} (h : Rests c slot u s) {q x : Nat} (ne : ¬(c = q ∧ slot = x)) :
    Rests c slot u (finishWait s q x) := by
  have h1 := (h.postCommit q x).postWaiting
  simp only [Machine.finishWait]
  split
  · exact h1
  · split
    · refine Rests.post ?_ _
      split
      · exact (h1.setThread_ne ne).modThread_ne ne
      · exact h1.setThread_ne ne
    · split
      · exact h1.wakeUp_ne ne _
      · exact h1.wakeUp_ne ne _
      · exact h1.wakeUp_ne ne _
      · exact h1.setThread_ne ne

/-! ### Wakes -/

theorem Rests.latch {s : State} (h : Rests c slot u s) (b : Bool) :
    Rests c slot u (s.setThread c slot { u with latch := b }) := ⟨b, by simp⟩

theorem Rests.barWake {s : State} (h : Rests c slot u s) (hw : u.wait = .idle) (q x : Nat) :
    Rests c slot u (barWake s q x) := by
  by_cases ne : c = q ∧ slot = x
  · obtain ⟨rfl, rfl⟩ := ne
    obtain ⟨b, hb⟩ := h
    unfold Machine.barWake
    simp only [hb, hw]
    exact ⟨b, hb⟩
  · unfold Machine.barWake
    split
    · split
      · simp only
        split
        · exact h
        · exact Rests.finishWait_ne (Rests.writeG_ne (h.withWatches _) ne _ _) ne
      · exact h
    · exact h

theorem Rests.wakeOne {s : State} (h : Rests c slot u s) (hw : u.wait = .idle) (w : Watch) :
    Rests c slot u (wakeOne s w) := by
  simp only [Machine.wakeOne]
  split
  · by_cases ne : c = w.thread.core ∧ slot = w.thread.slot
    · obtain ⟨h1, h2⟩ := ne
      obtain ⟨b, hb⟩ := h
      rw [← h1, ← h2]
      simp only [hb]
      split
      · next e => rw [hw] at e; cases e
      · exact ⟨true, State.thread?_setThread_self ..⟩
    · split
      · split
        · exact Rests.finishWait_ne (Rests.writeG_ne (h.setThread_ne ne) ne _ _) ne
        · exact h.setThread_ne ne
      · exact h
  · exact h.post _
  · exact h.barWake hw ..
  · exact h
  · exact h.post _

theorem Rests.wakeList {s : State} (h : Rests c slot u s) (hw : u.wait = .idle) (l : List Watch) :
    Rests c slot u (wakeList s l) := by
  induction l generalizing s with
  | nil => exact h
  | cons w l ih => exact ih (h.wakeOne hw w)

theorem Rests.wakeLine {s : State} (h : Rests c slot u s) (hw : u.wait = .idle) (p : Place) :
    Rests c slot u (wakeLine s p) := h.wakeList hw _

/-! ### Writes -/

theorem Map.get?_map {α : Type} (m : Map α) (f : Nat → α → α) (a : Nat) :
    Map.get? (m.map (fun x => (x.1, f x.1 x.2))) a = (Map.get? m a).map (f a) := by
  induction m with
  | nil => rfl
  | cons x m ih =>
    obtain ⟨k, v⟩ := x
    simp only [List.map_cons, Map.get?, ih]
    split
    · subst_vars; rfl
    · rfl

theorem Rests.withCores {s s' : State} (h : Rests c slot u s) (g : Nat → Core → Core)
    (e : s'.cores = s.cores.map (fun x => (x.1, g x.1 x.2))) (hg : ∀ q k, (g q k).threads = k.threads) :
    Rests c slot u s' := by
  obtain ⟨b, hb⟩ := h
  refine ⟨b, ?_⟩
  simp only [State.thread?, State.core] at hb ⊢
  rw [e, Map.get?_map]
  cases hc : Map.get? s.cores c with
  | none => rw [hc] at hb; exact hb
  | some k => simpa [hc, hg] using hb

theorem Rests.dropAgent {s : State} (h : Rests c slot u s) (a key : Nat) : Rests c slot u (dropAgent s a key) := by
  unfold Machine.dropAgent
  split
  · exact h.modCore rfl
  · refine h.withCores (fun q k => if coreDie q = a - 0xC00 then
      { k with l1 := Map.erase k.l1 key, xbuf := Map.erase k.xbuf key } else k) ?_ ?_
    · apply List.map_congr_left
      intro x _
      split <;> rfl
    · intro q k
      split <;> rfl

theorem Rests.dropAll {s : State} (h : Rests c slot u s) (key : Nat) (l : List Nat) :
    Rests c slot u (dropAll s key l) := by
  induction l generalizing s with
  | nil => exact h
  | cons a l ih => exact ih (h.dropAgent a key)

theorem writeHome_cores (s : State) (pa : Nat) (bs : List Byte) (p : Bool) : (writeHome s pa bs p).cores = s.cores := by
  simp only [Machine.writeHome]
  split
  · rfl
  · split <;> rfl

theorem Rests.writeHome {s : State} (h : Rests c slot u s) (pa : Nat) (bs : List Byte) (p : Bool) :
    Rests c slot u (writeHome s pa bs p) := h.of_cores (writeHome_cores ..)

theorem setDir_cores (s : State) (l : Nat) (e : DirEntry) : (setDir s l e).cores = s.cores := by
  unfold setDir
  split <;> rfl

theorem Rests.clearFl {s : State} (h : Rests c slot u s) (l : Nat) : Rests c slot u (clearFl s l) := by
  unfold Machine.clearFl
  split
  · exact h.of_cores (setDir_cores ..)
  · exact h

theorem Rests.recallAll {s : State} (h : Rests c slot u s) (pa : Nat) : Rests c slot u (recallAll s pa) := by
  simp only [Machine.recallAll]
  split
  · split
    · exact Rests.of_cores (Rests.dropAll ((h.writeHome ..).clearFl _) ..) (setDir_cores ..)
    · exact Rests.of_cores (Rests.dropAll h ..) (setDir_cores ..)
  · split
    · exact Rests.of_cores (Rests.dropAll ((h.writeHome ..).clearFl _) ..) rfl
    · exact Rests.of_cores (Rests.dropAll h ..) rfl

theorem Rests.flushHost {s : State} (h : Rests c slot u s) (key : Nat) : Rests c slot u (flushHost s key) := by
  unfold Machine.flushHost
  split
  · exact h
  · have h1 : Rests c slot u (dropHostL1 { s with hostLines := Map.erase s.hostLines key } (key % 2 ^ 40)) :=
      h.withCores (fun q k => { k with l1 := Map.erase k.l1 (hostKey s (key % 2 ^ 40)) }) rfl (fun _ _ => rfl)
    simp only
    split
    · exact h1.of_cores rfl
    · exact h1

theorem Rests.hostRoom {s : State} (h : Rests c slot u s) (die : Nat) : Rests c slot u (hostRoom s die) := by
  unfold Machine.hostRoom
  split
  · exact h
  · split
    · exact h.flushHost _
    · exact h

theorem Rests.holdHost {s : State} (h : Rests c slot u s) (die line : Nat) (l : CLine) :
    Rests c slot u (holdHost s die line l) := by
  refine Rests.of_cores (Rests.hostRoom (h.withCores (fun q k => if l.leaves.contains q then k
    else { k with l1 := Map.erase k.l1 (hostKey s line) }) ?_ ?_) die) rfl
  · apply List.map_congr_left
    intro x _
    split <;> rfl
  · intro q k
    split <;> rfl

theorem Rests.leaveHost {s : State} (h : Rests c slot u s) (q key : Nat) : Rests c slot u (leaveHost s q key) := by
  simp only [Machine.leaveHost]
  split
  · exact h
  · split <;> exact h.of_cores rfl

theorem Rests.evictL1 {s : State} (h : Rests c slot u s) (q key : Nat) : Rests c slot u (evictL1 s q key) := by
  unfold Machine.evictL1
  split
  · exact h
  · next l _ =>
    have h1 : Rests c slot u (s.modCore q (fun k => { k with l1 := Map.erase k.l1 key })) := h.modCore rfl
    simp only
    split
    · split
      · unfold Machine.writePriv
        simp only
        split <;> exact h1.of_cores (writeHome_cores ..)
      · exact h1
    · split
      · split
        · exact h1
        · split
          · exact h1
          · exact h1.of_cores rfl
      · split
        · exact h1
        · exact Rests.of_cores (h1.modCore (q := q) (f := fun k => { k with xbuf := Map.set k.xbuf key l }) rfl) rfl
    · exact h1.leaveHost ..
    · exact h1

theorem Rests.fillL1 {s : State} (h : Rests c slot u s) (q key : Nat) (l : CLine) :
    Rests c slot u (fillL1 s q key l) := by
  simp only [Machine.fillL1]
  refine Rests.modCore ?_ rfl
  split
  · split
    · exact h.evictL1 ..
    · exact h
  · exact h

theorem Rests.evictRdc {s : State} (h : Rests c slot u s) (die key : Nat) : Rests c slot u (evictRdc s die key) := by
  unfold Machine.evictRdc
  split
  · exact h
  · simp only
    split
    · split <;> split
      · exact h.dropAgent ..
      · exact (h.dropAgent (0xC00 + die) key).of_cores rfl
      · exact h.dropAgent ..
      · exact (h.dropAgent (0xC00 + die) key).of_cores rfl
    · refine Rests.dropAgent (Rests.foldl (fun s a h => ?_) _ h) ..
      split
      · split
        · exact h.writeHome ..
        · exact h
      · exact h
    · exact h.dropAgent ..
    · exact h.of_cores rfl

theorem Rests.rdcPut {s : State} (h : Rests c slot u s) (die key : Nat) (l : CLine) :
    Rests c slot u (rdcPut s die key l) := by
  simp only [Machine.rdcPut]
  split
  · exact h.of_cores rfl
  · exact Rests.of_cores (Rests.evictRdc (h.withFree _) ..) rfl

theorem Rests.fetchPriv {s : State} (h : Rests c slot u s) (q pa : Nat) : Rests c slot u (fetchPriv s q pa) := by
  simp only [Machine.fetchPriv]
  split
  · exact h.modCore rfl
  · refine Rests.fillL1 ?_ ..
    split
    · exact h
    · exact h.rdcPut ..

theorem spadMark_threads (k : Core) (off : Nat) (bs : List Byte) (p : Bool) :
    (spadMark k off bs p).threads = k.threads := by
  simp only [spadMark]
  split <;> rfl

theorem Rests.writePlace {s : State} (h : Rests c slot u s) (hw : u.wait = .idle) (q : Nat) (p : Place)
    (bs : List Byte) (po : Bool) : Rests c slot u (writePlace s q p bs po) := by
  unfold Machine.writePlace
  split
  · exact Rests.wakeLine (h.modCore (spadMark_threads ..)) hw _
  · refine Rests.wakeLine ?_ hw _
    exact Rests.of_cores h rfl
  · exact h
  · split
    · exact Rests.modCore (h.fetchPriv ..) rfl
    · exact Rests.wakeLine (h.holdHost ..) hw _
    · exact h.of_cores rfl
    · exact h
    · exact Rests.wakeLine (((h.recallAll _).writeHome _ _ _).clearFl _) hw _
    · exact Rests.wakeLine (((h.recallAll _).writeHome _ _ _).clearFl _) hw _
    · split
      · exact Rests.wakeLine (((h.recallAll _).writeHome _ _ _).clearFl _) hw _
      · exact h

theorem Rests.storeAt {s : State} (h : Rests c slot u s) (hw : u.wait = .idle) (q : Nat) (p : Place)
    (bs : List Byte) (po : Bool) : Rests c slot u (storeAt s q p bs po) := by
  unfold Machine.storeAt
  split
  · simp only
    split
    · exact h.of_cores (setDir_cores ..)
    · exact h.writePlace hw ..
  · exact h.writePlace hw ..

/-! ### The fault record -/

theorem translate_cores (s : State) (w part proc : Nat) (va : Word) (wr : Bool) :
    (translate s w part proc va wr).1.cores = s.cores := by
  unfold Machine.translate
  split
  · rfl
  · simp only
    split <;> split <;> rfl

theorem resolve_cores (s : State) (q part proc : Nat) (va : Word) (k : AKind) :
    (resolve s q part proc va k).1.cores = s.cores := by
  unfold resolve
  split
  · rfl
  · rfl
  · have e := translate_cores s (coreWs s q) part proc va k.writes
    split
    · next h => rw [h] at e; exact e
    · next h =>
      rw [h] at e
      split <;> exact e

theorem recordPlace_cores (s : State) (q : Nat) (t : Thread) (line : Word) :
    (recordPlace s q t line).1.cores = s.cores := by
  have e := resolve_cores s q t.part t.proc line .record
  unfold recordPlace
  split <;> (next h => rw [h] at e; exact e)

theorem Rests.putRecord {s : State} (h : Rests c slot u s) (hw : u.wait = .idle) (q part : Nat) (p : Place)
    (bs : List Byte) : Rests c slot u (putRecord s q part p bs) := by
  unfold Machine.putRecord
  split
  · exact h.of_cores rfl
  · exact Rests.writePlace (h.writePlace hw _ _ _ _) hw _ _ _ _
  · exact h.storeAt hw ..

theorem Rests.writeRecord {s : State} (h : Rests c slot u s) (hw : u.wait = .idle) (q x : Nat) (t : Thread) (pc : Word)
    (f : FaultInfo) : Rests c slot u (writeRecord s q x t pc f) := by
  simp only [Machine.writeRecord]
  have e1 := recordPlace_cores s q t (if t.fline = 0#64 then launchLine s t else t.fline)
  split
  · next h1 =>
    rw [h1] at e1
    exact (h.of_cores e1).putRecord hw ..
  · next s1 h1 =>
    rw [h1] at e1
    have e2 := recordPlace_cores s1 q t (launchLine s t)
    split
    · next h2 =>
      rw [h2] at e2
      exact ((h.of_cores e1).of_cores e2).putRecord hw ..
    · next h2 =>
      rw [h2] at e2
      exact ((h.of_cores e1).of_cores e2).of_cores rfl

/-- R26: the thread is FAULTED, with its pc at `pc` and its fault counter one higher; it waits for nothing. Its
registers are as they were. -/
theorem enterFault_thread {s : State} {t : Thread} (h : s.thread? c slot = some t) (pc : Word) (f : FaultInfo) :
    Rests c slot { t with code := .faulted, pc := pc, wait := .idle, faults := t.faults + 1#64, stepping := none,
                          slept := false, since := (s.core c).cyc } (enterFault s c slot pc f) := by
  simp only [enterFault, h]
  refine Rests.writeRecord ?_ rfl ..
  refine Rests.postFill (Rests.postWaiting (Rests.postCtx (Rests.modCore ?_ rfl) c)) c
  unfold dropWaits
  refine Rests.postEntries ?_
  refine Rests.of_cores (s := s.setThread c slot _) ⟨t.latch, State.thread?_setThread_self ..⟩ rfl

end

theorem Rests.thread {c slot : Nat} {u : Thread} {s : State} (h : Rests c slot u s) :
    ∃ t, s.thread? c slot = some t ∧ t.code = u.code ∧ t.pc = u.pc := by
  obtain ⟨b, hb⟩ := h
  exact ⟨_, hb, rfl, rfl⟩

theorem takeFault_thread {c slot : Nat} {s : State} {t : Thread} (h : s.thread? c slot = some t) (f : FaultInfo) :
    Rests c slot { t with code := .faulted, pc := t.ipc, wait := .idle, faults := t.faults + 1#64, stepping := none,
                          slept := false, since := (s.core c).cyc } (takeFault s c slot f) := by
  unfold takeFault
  simp only [h]
  split
  · exact enterFault_thread (s := logEvent _ _ _ _ _ _ _ _ _) h _ _
  · exact enterFault_thread h _ _

/-- An instruction that faults is complete with its fault. -/
theorem afterIssue_takeFault {c slot : Nat} {s : State} {t : Thread} (h : s.thread? c slot = some t)
    (f : FaultInfo) : afterIssue (takeFault s c slot f) c slot = takeFault s c slot f := by
  obtain ⟨b, hb⟩ := takeFault_thread h f
  unfold afterIssue
  simp [hb]

end Sys2Proof
end

