-- ==== Sys2Proof/Laws/Lines.lean ====
section
/-!
SUPPORT. Laws/Lines.lean: what bringing a line into an L1 (R218) leaves alone: of every core all but its lines, and the
events to come.
-/
namespace Sys2Proof
open Machine

/-- A core but for the lines it holds. -/
def noLines (k : Core) : Core := { k with l1 := [], xbuf := [] }

/-- Nothing of a core but its lines has changed, and no event has gone. -/
structure LinesOnly (s s' : State) : Prop where
  cores : ∀ x, noLines (s'.core x) = noLines (s.core x)
  agenda : ∀ e ∈ s.agenda, e ∈ s'.agenda

theorem LinesOnly.refl (s : State) : LinesOnly s s := ⟨fun _ => rfl, fun _ h => h⟩

theorem LinesOnly.trans {s s1 s2 : State} (h : LinesOnly s s1) (g : LinesOnly s1 s2) : LinesOnly s s2 :=
  ⟨fun x => (g.cores x).trans (h.cores x), fun e he => g.agenda e (h.agenda e he)⟩

theorem LinesOnly.of_eq {s s' : State} (h : s'.cores = s.cores) (g : s'.agenda = s.agenda) : LinesOnly s s' :=
  ⟨fun x => by unfold State.core; rw [h], fun e he => g ▸ he⟩

theorem LinesOnly.modCore {s : State} {c : Nat} {f : Core → Core} (h : noLines (f (s.core c)) = noLines (s.core c)) :
    LinesOnly s (s.modCore c f) := by
  refine ⟨fun x => ?_, fun _ he => he⟩
  rw [State.core_modCore]
  split
  · subst_vars
    exact h
  · rfl

theorem LinesOnly.sendMsg (s : State) (m : Msg) : LinesOnly s (sendMsg s m) :=
  ⟨fun _ => rfl, fun _ h => List.mem_append_left _ h⟩

theorem writeHome_agenda (s : State) (pa : Nat) (bs : List Byte) (p : Bool) :
    (writeHome s pa bs p).agenda = s.agenda := by
  simp only [Machine.writeHome]
  split
  · rfl
  · split <;> rfl

theorem LinesOnly.leaveHost (s : State) (c key : Nat) : LinesOnly s (leaveHost s c key) := by
  simp only [Machine.leaveHost]
  split
  · exact .refl _
  · split <;> exact .of_eq rfl rfl

theorem LinesOnly.writePriv (s : State) (c pa : Nat) (bs : List Byte) (p : Bool) :
    LinesOnly s (writePriv s c pa bs p) := by
  unfold Machine.writePriv
  simp only
  split <;> exact .of_eq (writeHome_cores ..) (writeHome_agenda ..)

theorem LinesOnly.evictL1 (s : State) (c key : Nat) : LinesOnly s (evictL1 s c key) := by
  unfold Machine.evictL1
  split
  · exact .refl _
  · next l _ =>
    have h1 : LinesOnly s (s.modCore c (fun k => { k with l1 := Map.erase k.l1 key })) := .modCore rfl
    simp only
    split
    · split
      · exact h1.trans (.writePriv ..)
      · exact h1
    · split
      · split
        · exact h1
        · split
          · exact h1
          · exact h1.trans (.of_eq rfl rfl)
      · split
        · exact h1
        · exact (h1.trans (.modCore (f := fun k => { k with xbuf := Map.set k.xbuf key l }) rfl)).trans (.sendMsg ..)
    · exact h1.trans (.leaveHost ..)
    · exact h1

theorem LinesOnly.fillL1 (s : State) (c key : Nat) (l : CLine) : LinesOnly s (fillL1 s c key l) := by
  simp only [Machine.fillL1]
  refine LinesOnly.trans ?_ (.modCore rfl)
  split
  · split
    · exact .evictL1 ..
    · exact .refl _
  · exact .refl _

/-- The fill of a register (R20). -/
theorem LinesOnly.fillLine (s : State) (c : Nat) : LinesOnly s (fillLine s c) :=
  LinesOnly.trans (s1 := { s with free := s.free + 1 }) (.of_eq rfl rfl) (.fillL1 ..)

section
variable {s s' : State} (h : LinesOnly s s')
include h

theorem LinesOnly.rc (x : Nat) : (s'.core x).rc = (s.core x).rc := by
  have e := congrArg Core.rc (h.cores x)
  exact e

theorem LinesOnly.fillq (x : Nat) : (s'.core x).fillq = (s.core x).fillq := by
  have e := congrArg Core.fillq (h.cores x)
  exact e

theorem LinesOnly.rcSize (x : Nat) : rcSize (s'.core x) = rcSize (s.core x) := by
  have e := congrArg Machine.rcSize (h.cores x)
  exact e

theorem LinesOnly.thread (x y : Nat) : s'.thread? x y = s.thread? x y := by
  have e := congrArg (fun k : Core => Map.get? k.threads y) (h.cores x)
  exact e

end

end Sys2Proof
end

