-- ==== Sys2Proof/Laws/Wait.lean ====
section
/-!
SUPPORT. Laws/Wait.lean: what an instruction leaves that faults (R26), or whose thread leaves the rotation to wait
(R10).
-/
namespace Sys2Proof
open Machine

@[simp] theorem reading_gv (i : Instr) (t : Thread) (r : Nat) : (reading i t).gv r = t.gv r := rfl
@[simp] theorem reading_vv (i : Instr) (t : Thread) (r : Nat) : (reading i t).vv r = t.vv r := rfl
@[simp] theorem reading_zv (i : Instr) (t : Thread) (r : Nat) : (reading i t).zv r = t.zv r := rfl
@[simp] theorem reading_p (i : Instr) (t : Thread) (r : Nat) : (reading i t).p r = t.p r := rfl
@[simp] theorem reading_pwv (i : Instr) (t : Thread) : (reading i t).pwv = t.pwv := rfl

theorem settleCore_thread (s : State) (c slot q x : Nat) :
    (settleCore s c slot).thread? q x = s.thread? q x := by
  have key : (s.modCore c (fun k => settle k slot)).thread? q x = s.thread? q x := by
    simp only [State.thread?, State.core_modCore]
    split
    · subst_vars
      rfl
    · rfl
  unfold settleCore postFill
  split
  · exact key
  · exact key

theorem settleCore_core (s : State) (c slot x : Nat) :
    (settleCore s c slot).core x = if x = c then settle (s.core c) slot else s.core x := by
  have key := State.core_modCore s c (fun k => settle k slot) x
  unfold settleCore postFill
  split
  · exact key
  · exact key

/-- The thread as its instruction's own effect finds it. -/
theorem atIssue_thread (i : Instr) (d : Desc) (s : State) (c slot : Nat) (t : Thread) :
    (atIssue i d s c slot t).thread? c slot = some (issued (reading i t) (encode32 i) d.len) := by
  simp [atIssue, settleCore_thread]

/-- The core as an instruction's own effect finds it, when it asks for no commit. -/
theorem atIssue_core {i : Instr} {d : Desc} {s : State} {c slot : Nat} {t : Thread}
    (hc : d.commit (reading i t) = false) :
    (atIssue i d s c slot t).core c =
      settle { s.core c with threads := Map.set (Map.set (s.core c).threads slot (reading i t)) slot
                                          (issued (reading i t) (encode32 i) d.len) } slot := by
  simp [atIssue, hc, settleCore_core, State.core_setThread]

theorem beginWait_thread {s : State} {c slot : Nat} {t : Thread} (h : s.thread? c slot = some t) (code : TCode)
    (w : Wait) : (beginWait s c slot code w).thread? c slot =
      some { t with code := code, wait := w, sleepFor := 0, since := (s.core c).cyc } := by
  unfold beginWait
  simp only [State.modThread_eq h]
  have e : ∀ s1 : State, (postCtx s1 c).thread? c slot = s1.thread? c slot := by
    intro s1
    unfold postCtx
    split <;> rfl
  split
  · rw [e]; simp [State.thread?, leaveRot, Map.get?_set, State.core_setThread]
  · simp [State.thread?, leaveRot, Map.get?_set, State.core_setThread]

/-- Nothing follows in the turn of a thread that no longer runs. -/
theorem afterIssue_of_code {s : State} {c slot : Nat} {t : Thread} (h : s.thread? c slot = some t)
    (hc : t.code ≠ .running) : afterIssue s c slot = s := by
  unfold afterIssue
  simp [h, hc]

/-- An instruction whose own effect is a fault leaves the state that taking it leaves. -/
theorem faults_of {i : Instr} {d : Desc} {body : Nat → Nat → Thread → State → State} {s : State} {c slot : Nat}
    {t : Thread} {f : FaultInfo} (he : exec i = issue i d body) (h : Issues d s c slot t)
    (hb : body c slot (reading i t) (atIssue i d s c slot t) = takeFault (atIssue i d s c slot t) c slot f) :
    FaultsWith i d s c slot t f := by
  unfold FaultsWith
  rw [he, issue_next h, hb, afterIssue_takeFault (atIssue_thread i d s c slot t)]

/-- An instruction whose thread does not run after its own effect leaves the state that its effect leaves. -/
theorem leaves_of {i : Instr} {d : Desc} {body : Nat → Nat → Thread → State → State} {s s' : State} {c slot : Nat}
    {t u : Thread} (he : exec i = issue i d body) (h : Issues d s c slot t)
    (hb : body c slot (reading i t) (atIssue i d s c slot t) = s')
    (hu : s'.thread? c slot = some u) (hc : u.code ≠ .running) : exec i s = .next s' := by
  rw [he, issue_next h, hb, afterIssue_of_code hu hc]

/-! ## Leaving the rotation (R10) -/

theorem Left.post {i : Instr} {s s' : State} {c slot : Nat} {t : Thread} {code : TCode} {w : Wait} {ws : List Watch}
    (h : Left i s s' c slot t code w ws) (e : Event) : Left i s (s'.post e) c slot t code w ws :=
  ⟨h.thread, h.others, h.rot, h.core, h.cores, h.watches, h.rest⟩

/-- What `beginWait` leaves of a machine in which an instruction has issued. -/
theorem Left.of {i : Instr} {s s1 : State} {c slot : Nat} {t : Thread} (B : Becomes s s1 c slot (past i 4 t))
    (ws : List Watch) (code : TCode) (w : Wait) :
    Left i s (beginWait { s1 with watches := ws } c slot code w) c slot t code w ws := by
  have hT : ({ s1 with watches := ws } : State).thread? c slot = some (past i 4 t) := B.thread
  have hcyc : (({ s1 with watches := ws } : State).core c).cyc = (s.core c).cyc := by
    have e := congrArg Core.cyc B.core
    exact e
  have key : Left i s ((({ s1 with watches := ws } : State).setThread c slot
      { past i 4 t with code := code, wait := w, sleepFor := 0, since := (s.core c).cyc }).modCore c
        (fun k => leaveRot k slot)) c slot t code w ws := by
    have hk : ∀ x, ({ s1 with watches := ws } : State).core x = s1.core x := fun _ => rfl
    refine ⟨?_, ?_, ?_, ?_, ?_, rfl, ?_⟩
    · simp [State.thread?, State.core_setThread, leaveRot, Map.get?_set]
    · intro x hx
      simp only [State.thread?, State.core_modCore_self, State.core_setThread, leaveRot, if_true, Map.get?_set, hx,
        if_false, hk]
      exact B.others x hx
    · simp only [State.core_modCore_self, State.core_setThread, leaveRot, if_true, hk]
      have e := congrArg Core.rot B.core
      exact congrArg (fun m : Map Nat => m.filter (fun x => x.2 != slot)) e
    · simp only [State.core_modCore_self, State.core_setThread, leaveRot, if_true, hk]
      exact congrArg (fun k : Core => { k with rot := [], ready := [] }) B.core
    · intro x hx
      simp only [State.core_modCore, hx, if_false, State.core_setThread, hk]
      exact B.cores x hx
    · exact congrArg (fun m : State => { m with watches := [] }) B.rest
  unfold beginWait
  simp only [State.modThread_eq hT, hcyc]
  split
  · unfold postCtx
    split
    · exact key
    · exact key.post _
    · exact key.post _
  · exact key

end Sys2Proof
end

