-- ==== Sys2Proof/Laws/Own.lean ====
section
/-!
SUPPORT. Laws/Own.lean: an access to the own scratchpad (R9, R114): what it passes, reads and writes in its turn, and
what it leaves alone.
-/
namespace Sys2Proof
open Machine

/-! ## What is written -/

theorem readAfter_nil (m : Mem) (a : Nat) : readAfter m [] a = Mem.read m a := rfl

theorem readAfter_snoc (m : Mem) (ws : List (Nat × List Byte)) (o : Nat) (bs : List Byte) (a : Nat) :
    readAfter m (ws ++ [(o, bs)]) a =
      if o ≤ a ∧ a < o + bs.length then bs.getD (a - o) 0#8 else readAfter m ws a := by
  unfold readAfter
  simp only [List.reverse_append, List.reverse_singleton, List.singleton_append, List.find?_cons]
  by_cases h : o ≤ a ∧ a < o + bs.length
  · simp [h]
  · rw [if_neg h]
    have : (decide (o ≤ a) && decide (a < o + bs.length)) = false := by
      simpa using fun h1 => by have := mt (And.intro h1) h; omega
    rw [this]

theorem wakeList_nil (s : State) : wakeList s [] = s := rfl

/-- No watch lies in the scratchpad: nothing wakes. -/
theorem wakeLine_spad {s : State} {c : Nat} (h : ∀ w ∈ s.watches, ∀ off, w.place ≠ .spad c off) (off : Nat) :
    wakeLine s (.spad c off) = s := by
  unfold wakeLine
  rw [show s.watches.filter _ = [] from filter_nil_of (fun w hw => by simp [lineOf, h w hw])]
  rfl

theorem feNext_none {s : State} {c : Nat} (h : ∀ w ∈ s.watches, ∀ off, w.place ≠ .spad c off) (off : Nat) :
    feNext s c off = none := by
  unfold feNext
  rw [List.find?_eq_none]
  intro w hw
  simp [h w hw]

/-- No release of a waiter in the scratchpad is due. -/
def NoDue (s : State) (c : Nat) : Prop := ∀ w, Event.feWaiterRelease c w ∉ s.agenda

theorem feFirst_calm {s : State} {c : Nat} (h : NoDue s c) (off n : Nat) : feFirst s c off n = s := by
  have one : ∀ w, feDue s c w = s := by
    intro w
    unfold feDue
    exact if_neg (by simpa using h w)
  unfold feFirst
  split
  · generalize List.range ((off % 8 + n + 7) / 8) = l
    induction l with
    | nil => rfl
    | cons x l ih => rw [List.foldl_cons, one]; exact ih
  · rfl

theorem NoDue.of_events {s s1 : State} {c : Nat} (h : NoDue s c)
    (e : s1.agenda = s.agenda ∨ s1.agenda = s.agenda ++ [.registerFillAdmit c]) : NoDue s1 c := by
  intro w
  rcases e with e | e <;> simp [e, h w]

theorem Becomes.watches {s s' : State} {c slot : Nat} {t : Thread} (h : Becomes s s' c slot t) :
    s'.watches = s.watches := by
  have e := congrArg State.watches h.rest
  exact e

theorem Alters.watches {s s' : State} {c slot : Nat} {t : Thread} {ws : List (Nat × List Byte)} {fl : List Nat}
    (h : Alters s s' c slot t ws fl) : s'.watches = s.watches := by
  have e := congrArg State.watches h.rest
  exact e

theorem Alters.lock {s s' : State} {c slot : Nat} {t : Thread} {ws : List (Nat × List Byte)} {fl : List Nat}
    (h : Alters s s' c slot t ws fl) : (s'.core c).lock = (s.core c).lock := by
  have e := congrArg Core.lock h.core
  exact e

theorem Alters.of_becomes {s s' : State} {c slot : Nat} {t : Thread} (h : Becomes s s' c slot t) :
    Alters s s' c slot t [] (s.core c).full := by
  have e1 := congrArg Core.spad h.core
  have e2 := congrArg Core.poisonW h.core
  have e3 := congrArg Core.full h.core
  refine ⟨h.thread, h.others, ?_, ?_, e3, ?_, h.cores, h.rest, h.events⟩
  · intro a
    exact congrArg (fun m => Mem.read m a) e1
  · intro w
    simp only [List.not_mem_nil, false_implies, implies_true, and_true]
    exact Eq.to_iff (congrArg (fun l => w ∈ l) e2)
  · exact congrArg (fun k : Core => { k with spad := [], poisonW := [], full := [] }) h.core

section
variable {s s1 : State} {c slot : Nat} {t : Thread} {ws : List (Nat × List Byte)} {fl : List Nat}

/-- What changes nothing else, after a store. -/
theorem Alters.step {s2 : State} {t' : Thread} (h : Alters s s1 c slot t ws fl) (b : Becomes s1 s2 c slot t')
    (ha : s2.agenda = s1.agenda) : Alters s s2 c slot t' ws fl := by
  have e1 := congrArg Core.spad b.core
  have e2 := congrArg Core.poisonW b.core
  have e3 := congrArg Core.full b.core
  refine ⟨b.thread, ?_, ?_, ?_, e3.trans h.full, ?_, ?_, b.rest.trans h.rest, ?_⟩
  · intro x hx
    rw [b.others x hx, h.others x hx]
  · intro a
    rw [← h.memory a]
    exact congrArg (fun m => Mem.read m a) e1
  · intro w
    rw [← h.poison w]
    exact Eq.to_iff (congrArg (fun l => w ∈ l) e2)
  · exact (congrArg (fun k : Core => { k with spad := [], poisonW := [], full := [] }) b.core).trans h.core
  · intro x hx
    rw [b.cores x hx, h.cores x hx]
  · rw [ha]
    exact h.events

theorem rcPut_agenda (s : State) (c slot r : Nat) (e : RcState) : (rcPut s c slot r e).agenda = s.agenda := by
  simp only [Machine.rcPut]
  split <;> rfl

theorem writeG_agenda (s : State) (c slot d : Nat) (w : Word) : (writeG s c slot d w).agenda = s.agenda := by
  unfold Machine.writeG
  split
  · rfl
  · split
    · rfl
    · simp only [rcWrote]
      split
      · rfl
      · rw [rcPut_agenda]
        rfl

theorem Alters.writeG (h : Alters s s1 c slot t ws fl) (d : Nat) (w : Word) :
    Alters s (writeG s1 c slot d w) c slot (t.setG d w) ws fl :=
  h.step ((Becomes.refl h.thread).writeG d w) (writeG_agenda ..)

theorem Alters.modThread (h : Alters s s1 c slot t ws fl) (f : Thread → Thread) :
    Alters s (s1.modThread c slot f) c slot (f t) ws fl :=
  h.step ((Becomes.refl h.thread).modThread f) (by rw [State.modThread_eq h.thread]; rfl)

theorem Map.set_set {α : Type} (m : Map α) (a : Nat) (x y : α) : Map.set (Map.set m a x) a y = Map.set m a y := by
  induction m with
  | nil => simp [Map.set]
  | cons e m ih =>
    obtain ⟨k, v⟩ := e
    simp only [Map.set]
    split
    · simp [Map.set]
    · split
      · subst_vars
        simp [Map.set]
      · simp only [Map.set]
        rename_i h1 h2
        rw [if_neg h1, if_neg h2, ih]

theorem State.setCore_setCore (s : State) (c : Nat) (k k' : Core) : (s.setCore c k).setCore c k' = s.setCore c k' := by
  simp only [State.setCore, Map.set_set]

/-- A write in a scratchpad where no watch lies. -/
theorem writePlace_spad {s : State} {c : Nat} (hw : ∀ w ∈ s.watches, ∀ o, w.place ≠ .spad c o) (off : Nat)
    (bs : List Byte) (po : Bool) : writePlace s c (.spad c off) bs po =
      s.modCore c (fun x => spadMark { x with spad := Mem.writeN x.spad off bs } off bs po) :=
  wakeLine_spad (s := s.modCore c _) hw off

/-- The scratchpad keeps its canonical form. -/
theorem writePlace_spad_wf {s : State} {c off : Nat} {bs : List Byte} (h : (s.core c).spad.wf = true)
    (hw : ∀ w ∈ s.watches, ∀ o, w.place ≠ .spad c o) :
    ((writePlace s c (.spad c off) bs false).core c).spad.wf = true := by
  rw [writePlace_spad hw, State.core_modCore_self]
  unfold spadMark
  exact Mem.writeN_wf h _ _

/-- A mark stays unless the piece covers its word wholly. -/
theorem markedWhole (off n w : Nat) :
    (!(((List.range ((off % 8 + n + 7) / 8)).map (off / 8 + ·)).contains w && decide (off ≤ 8 * w) &&
      decide (8 * w + 8 ≤ off + n))) = true ↔ ¬(off ≤ 8 * w ∧ 8 * w + 8 ≤ off + n) := by
  rw [Bool.not_eq_true', ← Bool.not_eq_true]
  refine not_congr ?_
  simp only [Bool.and_eq_true, decide_eq_true_eq, List.contains_iff_mem, List.mem_map, List.mem_range]
  constructor
  · rintro ⟨⟨-, h1⟩, h2⟩
    exact ⟨h1, h2⟩
  · rintro ⟨h1, h2⟩
    exact ⟨⟨⟨w - off / 8, by omega, by omega⟩, h1⟩, h2⟩

/-- A piece written. -/
theorem Alters.write (h : Alters s s1 c slot t ws fl) (hm : (s1.core c).spad.wf = true) (off : Nat) (bs : List Byte)
    (hw : ∀ w ∈ s.watches, ∀ o, w.place ≠ .spad c o) :
    Alters s (writePlace s1 c (.spad c off) bs false) c slot t (ws ++ [(off, bs)]) fl := by
  have hw1 : ∀ w ∈ s1.watches, ∀ o, w.place ≠ .spad c o := by rw [h.watches]; exact hw
  rw [writePlace_spad hw1]
  refine ⟨?_, ?_, ?_, ?_, ?_, ?_, ?_, h.rest, h.events⟩
  · simp only [State.thread?, State.core_modCore_self, spadMark]
    exact h.thread
  · intro x hx
    simp only [State.thread?, State.core_modCore_self, spadMark]
    exact h.others x hx
  · intro a
    rw [readAfter_snoc, State.core_modCore_self]
    show Mem.read (Mem.writeN (s1.core c).spad off bs) a = _
    rw [Mem.read_writeN hm, h.memory]
  · intro w
    rw [State.core_modCore_self]
    simp only [spadMark, Bool.false_eq_true, if_false, List.mem_filter, h.poison, List.mem_append,
      List.mem_singleton, markedWhole]
    constructor
    · rintro ⟨⟨h1, h2⟩, h3⟩
      refine ⟨h1, ?_⟩
      rintro p (hp | rfl)
      · exact h2 p hp
      · exact h3
    · rintro ⟨h1, h2⟩
      exact ⟨⟨h1, fun p hp => h2 p (.inl hp)⟩, h2 (off, bs) (.inr rfl)⟩
  · rw [State.core_modCore_self]
    exact h.full
  · rw [State.core_modCore_self]
    exact h.core
  · intro x hx
    rw [State.core_modCore, if_neg hx]
    exact h.cores x hx

theorem Alters.afterIssue {u : Thread} (h : Alters s s1 c slot t ws fl) (hp : Plain s c slot u) (ht : t.stepping = none) :
    Machine.afterIssue s1 c slot = s1 := by
  have hl : postCommit s1 c slot = s1 := by
    unfold postCommit
    rw [h.lock]
    cases hL : (s.core c).lock with
    | none => rfl
    | some L =>
      simp only [hp.noCommit L hL]
      rfl
  unfold Machine.afterIssue
  simp only [h.thread, hl]
  split
  · unfold stepFault
    simp [h.thread, Thread.stepped, ht]
  · rfl

end

/-! ## The checks -/

theorem classOf_own {va : Word} (h : va.toNat < 0x20000) : classOf va = .own va.toNat := by
  unfold classOf
  simp [h]

theorem checkClass_own {s : State} {c part : Nat} {va : Word} {k : AKind} (h : va.toNat < 0x20000)
    (hx : (s.core c).xb ≤ va.toNat) (hl : (s.core c).lock = none) (hk : k ≠ .cell false) :
    checkClass s c part va k = .ok (some (.spad c va.toNat)) := by
  unfold checkClass
  rw [classOf_own h]
  simp only [hk, if_false, undoRegion, hl]
  rw [if_neg (by omega)]
  simp

theorem offCore_own {va : Word} (h : va.toNat < 0x20000) : offCore va = false := by
  unfold offCore
  rw [classOf_own h]

theorem relaxable_own {va : Word} (h : va.toNat < 0x20000) : relaxable va = false := by
  unfold relaxable
  rw [classOf_own h]

theorem spadPoison_false {k : Core} {off n : Nat} (h : Unpoisoned k off n) : spadPoison k off n = false := by
  unfold spadPoison
  rw [List.any_eq_false]
  intro w hw
  have := h w hw
  simp only [Bool.and_eq_true, decide_eq_true_eq, not_and, Nat.not_le]
  omega

/-- The pieces of an access whose every piece passes its checks in the own scratchpad. -/
def placed (c : Nat) (us : List MUnit) : List MUnit := us.map (fun u => { u with place := some (.spad c u.va.toNat) })

theorem classify_own {s : State} {c part align : Nat} {k : AKind} {us : List MUnit}
    (h : ∀ u ∈ us, Own s c u.va align) (hl : (s.core c).lock = none) (hk : k ≠ .cell false) :
    classify s c part align k us = (placed c us, none) := by
  induction us with
  | nil => rfl
  | cons u us ih =>
    have hu := h u (List.mem_cons_self ..)
    unfold classify
    rw [checkClass_own hu.own hu.data hl hk, ih (fun x hx => h x (List.mem_cons_of_mem _ hx))]
    simp [hu.aligned, placed]

/-- R9, R114: an access to the own scratchpad is performed in its turn. -/
theorem startAccess_own {s : State} {c slot align : Nat} {t : Thread} {us : List MUnit} {k : AKind} {fin : Finish}
    {auto sup : Bool} (h : ∀ u ∈ us, Own s c u.va align) (hl : (s.core c).lock = none) (hk : k ≠ .cell false)
    (hr : t.relaxed = [] ∨ ∀ u ∈ us, u.op.isWatch = true) :
    startAccess s c slot t us align k fin auto sup =
      match ownUnits s ⟨c, slot⟩ (placed c us) with
      | (_, .error f) => takeFault s c slot f
      | (s', .ok os) => finishAccess s' c slot fin os := by
  unfold startAccess
  rw [classify_own h hl hk]
  have h1 : (placed c us).all (fun u => u.place.isSome) = true := by simp [placed]
  have h2 : allOwn (placed c us) = true := by
    unfold allOwn placed
    rw [List.all_eq_true]
    intro u hu
    obtain ⟨v, hv, rfl⟩ := List.mem_map.1 hu
    simp only [classOf_own (h v hv).own]
  have h3 : (placed c us).any (fun u => match u.place with
      | some p => mustWait s ⟨c, slot⟩ t none u p | none => false) = false := by
    refine any_false_of ?_
    intro u hu
    obtain ⟨v, hv, rfl⟩ := List.mem_map.1 hu
    rcases hr with hr | hr
    · simp [mustWait, hr, invrHolds]
      cases v.op <;> simp
    · simp [mustWait, hr v hv]
  simp only [h1, h2, if_true, Option.isNone_none, Bool.and_self, Bool.true_and]
  exact (if_pos (by rw [Bool.not_eq_true']; exact h3)).trans rfl

/-! ## One piece -/

theorem spadUnit_calm {s : State} {c off n : Nat} {op : UnitOp} (hw : ∀ w ∈ s.watches, ∀ o, w.place ≠ .spad c o)
    (hd : NoDue s c) (hl : (s.core c).lock = none) (hp : op.readsData = true → Unpoisoned (s.core c) off n)
    (h1 : op ≠ .ldfe) (h2 : ∀ d, op ≠ .stfe d) :
    spadUnit s c off n op true =
      match op.writes (Mem.readN (s.core c).spad off n) with
      | none => (s, some (Mem.readN (s.core c).spad off n))
      | some bs => (writePlace s c (.spad c off) bs false, some (Mem.readN (s.core c).spad off n)) := by
  unfold spadUnit
  rw [feFirst_calm hd]
  have hpo : (op.readsData && spadPoison (s.core c) off n) = false := by
    cases hd : op.readsData
    · rfl
    · rw [spadPoison_false (hp hd)]; rfl
  simp only [hpo, Bool.not_true, Bool.and_false, Bool.or_false, Bool.false_eq_true, if_false]
  have hset : ∀ bs, writePlace (s.modCore c (fun k => logUndo k off n)) c (.spad c off) bs false =
      writePlace s c (.spad c off) bs false := by
    intro bs
    rw [writePlace_spad (s := s.modCore c _) hw, writePlace_spad hw]
    simp only [State.modCore, logUndo, hl, State.setCore_setCore, State.core_setCore, if_true]
  cases op with
  | ldfe => exact absurd rfl h1
  | stfe d => exact absurd rfl (h2 d)
  | _ => simp only [if_true, hset] <;> rfl

/-- A store of several pieces in one line, where no watch lies: the act is as it is. -/
theorem quietly_calm {α : Type} {s : State} {c off : Nat} {f : State → State × α}
    (hw : ∀ w ∈ s.watches, ∀ o, w.place ≠ .spad c o) (h : (f s).1.watches = s.watches) :
    quietly (.spad c off) f s = f s := by
  have e1 : s.watches.filter (fun w => !(decide (w.place = lineOf (.spad c off)) && w.kind != .fe)) = s.watches := by
    rw [List.filter_eq_self]
    intro w hm
    simp [lineOf, hw w hm]
  have e2 : s.watches.filter (fun w => (decide (w.place = lineOf (.spad c off)) && w.kind != .fe) ||
      (f s).1.watches.contains w) = s.watches := by
    rw [List.filter_eq_self]
    intro w hm
    simp [h, hm]
  unfold quietly
  simp only [e1]
  show (({ (f s).1 with watches := _ } : State), (f s).2) = f s
  rw [e2, ← h]

/-! ## The whole instruction -/

theorem Issues.commit {d : Desc} {s : State} {c slot : Nat} {t : Thread} (h : Issues d s c slot t)
    (f : Thread → Bool) : Issues { d with commit := f } s c slot t :=
  ⟨h.turn, h.gLimit, h.vLimit, h.zLimit, h.guarded, h.noDeferred, h.here, h.pwHere, h.gFree, h.vFree, h.drained,
    h.gClean, h.pwClean, h.vClean, h.zClean, h.entry⟩

theorem Issues.withAlloc {d : Desc} {s : State} {c slot : Nat} {t : Thread} (h : Issues d s c slot t)
    {f : Thread → Option Nat} (hf : ∀ i, f (reading i t) = none) : Issues { d with alloc := f } s c slot t :=
  ⟨h.turn, h.gLimit, h.vLimit, h.zLimit, h.guarded, h.noDeferred, h.here, h.pwHere, h.gFree, h.vFree, h.drained,
    h.gClean, h.pwClean, h.vClean, h.zClean, fun i r hr => by cases (hf i).symm.trans hr⟩

/-- R20: a load of the own scratchpad asks for no entry of the register cache. -/
theorem loadEntry_own {d : BitVec 7} {r : BitVec 1} {ea : Thread → Word} {t : Thread} (h : (ea t).toNat < 0x20000) :
    loadEntry d r ea t = none := by
  simp [loadEntry, relaxable_own h]

/-- What an access to the own scratchpad looks at is as it was. -/
structure Same (s s1 : State) (c : Nat) : Prop where
  xb : (s1.core c).xb = (s.core c).xb
  lock : (s1.core c).lock = (s.core c).lock
  spad : (s1.core c).spad = (s.core c).spad
  poisonW : (s1.core c).poisonW = (s.core c).poisonW
  full : (s1.core c).full = (s.core c).full
  fenced : (s1.core c).fenced = (s.core c).fenced
  watches : s1.watches = s.watches
  queries : s1.queries = s.queries

theorem Becomes.same {s s1 : State} {c slot : Nat} {t : Thread} (B : Becomes s s1 c slot t) : Same s s1 c := by
  have h := B.core
  have e1 := congrArg Core.xb h
  have e2 := congrArg Core.lock h
  have e3 := congrArg Core.spad h
  have e4 := congrArg Core.poisonW h
  have e5 := congrArg Core.full h
  have e6 := congrArg Core.fenced h
  have e7 := congrArg State.queries B.rest
  exact ⟨e1, e2, e3, e4, e5, e6, B.watches, e7⟩

theorem Own.same {s s1 : State} {c n : Nat} {va : Word} (h : Own s c va n) (q : Same s s1 c) : Own s1 c va n :=
  ⟨h.own, h.aligned, by rw [q.xb]; exact h.data⟩

theorem Same.unpoisoned {s s1 : State} {c off n : Nat} (q : Same s s1 c) (h : Unpoisoned (s.core c) off n) :
    Unpoisoned (s1.core c) off n := by
  intro w hw
  rw [q.poisonW] at hw
  exact h w hw

section
variable {i : Instr} {d : Desc} {body : Nat → Nat → Thread → State → State} {us : List MUnit} {align : Nat}
  {k : AKind} {fin : Finish} {auto sup : Bool} {s : State} {c slot : Nat} {t u : Thread}
  {ws : List (Nat × List Byte)} {fl : List Nat}

/-- An instruction whose effect is an access to the own scratchpad. -/
theorem own_of (he : exec i = issue i d body) (h : Issues d s c slot t) (hp : Plain s c slot t)
    (hl : (s.core c).lock = none) (hr : t.relaxed = [] ∨ ∀ u ∈ us, u.op.isWatch = true)
    (hb : body c slot (reading i t) (atIssue i d s c slot t) =
      startAccess (atIssue i d s c slot t) c slot (reading i t) us align k fin auto sup)
    (hk : k ≠ .cell false) (hus : ∀ u ∈ us, Own s c u.va align) (hst : u.stepping = none)
    (hf : ∀ s1, Becomes s s1 c slot (past i d.len t) →
      ∃ s2 os, ownUnits s1 ⟨c, slot⟩ (placed c us) = (s2, .ok os) ∧
        Alters s (finishAccess s2 c slot fin os) c slot u ws fl) :
    ∃ s', exec i s = .next s' ∧ Alters s s' c slot u ws fl := by
  have B := atIssue_becomes (i := i) (d := d) h.turn hp.notStepped (.inr hl)
  obtain ⟨s2, os, h2, h3⟩ := hf _ B
  have q := B.same
  refine ⟨_, ?_, h3⟩
  rw [he, issue_next h, hb, startAccess_own (t := reading i t) (fun u hu => (hus u hu).same q)
    (by rw [q.lock]; exact hl) hk hr, h2]
  congr 1
  exact h3.afterIssue hp hst

/-- The same, where nothing but the thread changes. -/
theorem ownReads_of (he : exec i = issue i d body) (h : Issues d s c slot t) (hp : Plain s c slot t)
    (hl : (s.core c).lock = none) (hr : t.relaxed = [] ∨ ∀ u ∈ us, u.op.isWatch = true)
    (hb : body c slot (reading i t) (atIssue i d s c slot t) =
      startAccess (atIssue i d s c slot t) c slot (reading i t) us align k fin auto sup)
    (hk : k ≠ .cell false) (hus : ∀ u ∈ us, Own s c u.va align) (hst : u.stepping = none)
    (hf : ∀ s1, Becomes s s1 c slot (past i d.len t) →
      ∃ s2 os, ownUnits s1 ⟨c, slot⟩ (placed c us) = (s2, .ok os) ∧
        Becomes s (finishAccess s2 c slot fin os) c slot u) :
    ∃ s', exec i s = .next s' ∧ Becomes s s' c slot u := by
  have B := atIssue_becomes (i := i) (d := d) h.turn hp.notStepped (.inr hl)
  obtain ⟨s2, os, h2, h3⟩ := hf _ B
  have q := B.same
  refine ⟨_, ?_, h3⟩
  rw [he, issue_next h, hb, startAccess_own (t := reading i t) (fun u hu => (hus u hu).same q)
    (by rw [q.lock]; exact hl) hk hr, h2]
  congr 1
  exact afterIssue_eq h3 hp hst

end

/-- One piece, and then the rest. -/
theorem ownUnits_cons {s s1 : State} {r : TRef} {u : MUnit} {us : List MUnit} {c off : Nat} {o : List Byte}
    (hp : u.place = some (.spad c off)) (hi : u.op.isWatch = false)
    (hw : ∀ w ∈ s.watches, ∀ o, w.place ≠ .spad c o) (hd : NoDue s c)
    (hu : spadUnit s c off u.size u.op true = (s1, some o)) (h1 : s1.watches = s.watches) :
    ownUnits s r (u :: us) = match ownUnits s1 r us with
      | (s', .ok os) => (s', .ok (o :: os))
      | (s', .error f) => (s', .error f) := by
  rw [ownUnits]
  simp only [hp, hi, Bool.false_eq_true, if_false]
  have hq := quietly_calm (off := off) (f := fun s => spadUnit s c off u.size u.op true) hw (by simp only [hu, h1])
  simp only [feFirst_calm hd, hq, ite_self, hu] <;> rfl

/-- Pieces that are loads. -/
theorem own_loads {s s1 : State} {c slot : Nat} {t u : Thread} (B : Becomes s s1 c slot u) (hc : Calm s c t) (n : Nat)
    (us : List Word) (hp : ∀ x ∈ us, Unpoisoned (s.core c) x.toNat n) :
    ownUnits s1 ⟨c, slot⟩ (placed c (us.map (fun x => piece x n .load))) =
      (s1, .ok (us.map (fun x => Mem.readN (s.core c).spad x.toNat n))) := by
  have q := B.same
  have hw1 : ∀ w ∈ s1.watches, ∀ o, w.place ≠ .spad c o := by rw [q.watches]; exact hc.watches
  have hd1 : NoDue s1 c := NoDue.of_events hc.due B.events
  induction us with
  | nil => rfl
  | cons x us ih =>
    have hu : spadUnit s1 c x.toNat n .load true = (s1, some (Mem.readN (s.core c).spad x.toNat n)) := by
      rw [spadUnit_calm hw1 hd1 (by rw [q.lock]; exact hc.unpaired)
        (fun _ => q.unpoisoned (hp x (List.mem_cons_self ..))) (by simp) (by simp), q.spad]
      rfl
    refine (ownUnits_cons (u := { piece x n .load with place := some (.spad c x.toNat) }) rfl rfl hw1 hd1 hu rfl).trans ?_
    have ih : ownUnits s1 ⟨c, slot⟩ (List.map _ _) = _ := ih (fun y hy => hp y (List.mem_cons_of_mem _ hy))
    rw [ih]
    rfl

/-- Pieces that are stores: all are written, in order. -/
theorem own_stores {s s1 : State} {c slot : Nat} {t u : Thread} {ws : List (Nat × List Byte)} {fl : List Nat} (n : Nat)
    (us : List (Word × List Byte)) (A : Alters s s1 c slot u ws fl) (hc : Calm s c t)
    (hm : (s1.core c).spad.wf = true) :
    ∃ s2 os, ownUnits s1 ⟨c, slot⟩ (placed c (us.map (fun x => piece x.1 n (.store x.2)))) = (s2, .ok os) ∧
      Alters s s2 c slot u (ws ++ us.map (fun x => (x.1.toNat, x.2))) fl := by
  induction us generalizing s1 ws with
  | nil => exact ⟨s1, [], rfl, by simpa using A⟩
  | cons x us ih =>
    have hw1 : ∀ w ∈ s1.watches, ∀ o, w.place ≠ .spad c o := by rw [A.watches]; exact hc.watches
    have hd1 : NoDue s1 c := NoDue.of_events hc.due A.events
    have hu : spadUnit s1 c x.1.toNat n (.store x.2) true =
        (writePlace s1 c (.spad c x.1.toNat) x.2 false, some (Mem.readN (s1.core c).spad x.1.toNat n)) := by
      rw [spadUnit_calm hw1 hd1 (by rw [A.lock]; exact hc.unpaired) (fun h => by cases h) (by simp) (by simp)]
      rfl
    obtain ⟨s2, os, h1, h2⟩ := ih (A.write hm x.1.toNat x.2 hc.watches) (writePlace_spad_wf hm hw1)
    refine ⟨s2, Mem.readN (s1.core c).spad x.1.toNat n :: os, ?_, by simpa using h2⟩
    refine (ownUnits_cons (u := { piece x.1 n (.store x.2) with place := some (.spad c x.1.toNat) }) rfl rfl hw1 hd1 hu
      (by rw [writePlace_spad hw1]; rfl)).trans ?_
    have h1 : ownUnits (writePlace s1 c (.spad c x.1.toNat) x.2 false) ⟨c, slot⟩ (List.map _ _) = _ := h1
    rw [h1]

/-- One piece that reads and may write. -/
theorem own_one {s s1 : State} {c slot : Nat} {t u : Thread} (B : Becomes s s1 c slot u) (hc : Calm s c t) (va : Word)
    (n : Nat) (op : UnitOp) (hp : Unpoisoned (s.core c) va.toNat n) (hm : (s.core c).spad.wf = true)
    (h0 : op.isWatch = false) (h1 : op ≠ .ldfe) (h2 : ∀ d, op ≠ .stfe d) :
    ∃ s2, ownUnits s1 ⟨c, slot⟩ (placed c [piece va n op]) =
        (s2, .ok [Mem.readN (s.core c).spad va.toNat n]) ∧
      Alters s s2 c slot u (match op.writes (Mem.readN (s.core c).spad va.toNat n) with
        | none => []
        | some bs => [(va.toNat, bs)]) (s.core c).full := by
  have q := B.same
  have hw1 : ∀ w ∈ s1.watches, ∀ o, w.place ≠ .spad c o := by rw [q.watches]; exact hc.watches
  have hd1 : NoDue s1 c := NoDue.of_events hc.due B.events
  have hs := spadUnit_calm (s := s1) (c := c) (off := va.toNat) (n := n) (op := op) hw1 hd1
    (by rw [q.lock]; exact hc.unpaired) (fun _ => q.unpoisoned hp) h1 h2
  rw [q.spad] at hs
  cases hwr : op.writes (Mem.readN (s.core c).spad va.toNat n) with
  | none =>
    rw [hwr] at hs
    exact ⟨s1, ownUnits_cons (c := c) (off := va.toNat) rfl h0 hw1 hd1 hs rfl, Alters.of_becomes B⟩
  | some bs =>
    rw [hwr] at hs
    exact ⟨_, ownUnits_cons (c := c) (off := va.toNat) rfl h0 hw1 hd1 hs (by rw [writePlace_spad hw1]; rfl),
      (Alters.of_becomes B).write (by rw [q.spad]; exact hm) _ _ hc.watches⟩

theorem readN_append (m : Mem) (a n k : Nat) : Mem.readN m a (n + k) = Mem.readN m a n ++ Mem.readN m (a + n) k := by
  induction n generalizing a with
  | zero => simp [Mem.readN]
  | succ n ih =>
    rw [Nat.succ_add]
    simp only [Mem.readN, List.cons_append]
    rw [ih]
    congr 3
    omega

theorem readN_take (m : Mem) (a : Nat) : (Mem.readN m a 16).take 8 = Mem.readN m a 8 := by
  rw [readN_append m a 8 8, List.take_left' (Mem.length_readN ..)]

theorem readN_drop (m : Mem) (a : Nat) : (Mem.readN m a 16).drop 8 = Mem.readN m (a + 8) 8 := by
  rw [readN_append m a 8 8, List.drop_left' (Mem.length_readN ..)]

/-- Eight bytes are those of the word they make. -/
theorem wordBytes_leWord (bs : List Byte) (h : bs.length = 8) : wordBytes (leWord bs) = bs := by
  have hb : ∀ l : List Byte, leNat l < 256 ^ l.length := by
    intro l
    induction l with
    | nil => simp [leNat]
    | cons x l ih =>
      simp only [leNat, List.length_cons, Nat.pow_succ]
      have := x.isLt
      omega
  have hlt := hb bs
  rw [h] at hlt
  unfold wordBytes leWord
  rw [BitVec.toNat_ofNat, Nat.mod_eq_of_lt (by omega)]
  have e := leBytes_leNat bs
  rw [h] at e
  exact e

theorem wordBytes_inj {x y : Word} (h : wordBytes x = wordBytes y) : x = y := by
  rw [← leWord_wordBytes x, h, leWord_wordBytes]

/-! ## Full bits (R115) -/

/-- A full bit changed, where nothing waits and no answer is held for the word. -/
theorem changeFull_calm {s : State} {c : Nat} (hw : ∀ w ∈ s.watches, ∀ o, w.place ≠ .spad c o) (off : Nat) (b : Bool)
    (hq : b = true ∨ ∀ q ∈ s.queries, q.answer = none) :
    changeFull s c off b = s.modCore c (fun k => { k with
      full := if b then insertNat (off / 8) k.full else k.full.filter (· != off / 8) }) := by
  have e : setFull s c off b = s.modCore c (fun k => { k with
      full := if b then insertNat (off / 8) k.full else k.full.filter (· != off / 8) }) := by
    unfold setFull
    simp only
    rcases hq with rfl | hq
    · split <;> simp
    · rw [List.find?_eq_none.2]
      intro q hq'
      simp [hq q hq']
  unfold changeFull
  rw [e]
  rw [wakeLine_spad (s := s.modCore c _) hw]
  simp only [feNext_none (s := s.modCore c _) hw]

theorem Alters.setFull {s s1 : State} {c slot : Nat} {t : Thread} {ws : List (Nat × List Byte)} {fl : List Nat}
    (h : Alters s s1 c slot t ws fl) (f : List Nat → List Nat) :
    Alters s (s1.modCore c (fun k => { k with full := f k.full })) c slot t ws (f fl) := by
  refine ⟨?_, ?_, ?_, ?_, ?_, ?_, ?_, h.rest, h.events⟩
  · simp only [State.thread?, State.core_modCore_self]
    exact h.thread
  · intro x hx
    simp only [State.thread?, State.core_modCore_self]
    exact h.others x hx
  · intro a
    rw [State.core_modCore_self]
    exact h.memory a
  · intro w
    rw [State.core_modCore_self]
    exact h.poison w
  · rw [State.core_modCore_self]
    exact congrArg f h.full
  · rw [State.core_modCore_self]
    exact h.core
  · intro x hx
    rw [State.core_modCore, if_neg hx]
    exact h.cores x hx

end Sys2Proof
end

