-- ==== Sys2Proof/Laws/Resume.lean ====
section
/-!
SUPPORT. Laws/Resume.lean: what ends a thread's wait leaves it READY (R11, R15).
-/
namespace Sys2Proof
open Machine

theorem mem_readyInsert (slot cyc : Nat) (l : List (Nat × Nat)) : (slot, cyc) ∈ readyInsert slot cyc l := by
  induction l with
  | nil => simp [readyInsert]
  | cons x l ih =>
    obtain ⟨a, b⟩ := x
    unfold readyInsert
    split
    · simp
    · simp [ih]

theorem makeReady_resumed {s : State} {c slot : Nat} {t : Thread} (h : s.thread? c slot = some t)
    (hw : t.wait = .idle) : Resumed (makeReady s c slot) c slot t := by
  unfold makeReady
  rw [State.modThread_eq h]
  refine ⟨?_, ?_⟩
  · simp only [State.thread?, State.core_modCore_self]
    rw [show ∀ k : Core, ({ k with ready := readyInsert slot k.cyc (k.ready.filter (fun x => x.1 != slot)) } :
      Core).threads = k.threads from fun _ => rfl]
    have := State.thread?_setThread_self s c slot { t with code := .ready, slept := false, sleepFor := 0 }
    unfold State.thread? at this
    rw [this]
    simp [hw]
  · simp only [State.core_modCore_self]
    exact mem_readyInsert ..

/-- An update of a core that leaves its threads. -/
theorem thread?_setCore {s : State} {c : Nat} {k : Core} (h : k.threads = (s.core c).threads) (q x : Nat) :
    (s.setCore c k).thread? q x = s.thread? q x := by
  simp only [State.thread?, State.core_setCore]
  split
  · subst_vars
    rw [h]
  · rfl

theorem thread?_modCore {s : State} {c : Nat} {f : Core → Core} (h : (f (s.core c)).threads = (s.core c).threads)
    (q x : Nat) : (s.modCore c f).thread? q x = s.thread? q x := thread?_setCore h q x

theorem postCommit_thread (s : State) (c slot q x : Nat) : (postCommit s c slot).thread? q x = s.thread? q x := by
  unfold postCommit
  split
  · rfl
  · split
    · rw [State.thread?_post]
      exact thread?_modCore rfl q x
    · rfl

theorem foldl_thread {α : Type} {f : State → α → State} (q x : Nat)
    (hf : ∀ s a, (f s a).thread? q x = s.thread? q x) (l : List α) (s : State) :
    (l.foldl f s).thread? q x = s.thread? q x := by
  induction l generalizing s with
  | nil => rfl
  | cons a l ih => rw [List.foldl_cons, ih, hf]

theorem postWaiting_thread (s : State) (q x : Nat) : (postWaiting s).thread? q x = s.thread? q x := by
  unfold postWaiting
  simp only
  rw [foldl_thread q x (by intro s a; split <;> rfl), foldl_thread q x (by intro s a; split <;> rfl)]

theorem postEntries_thread (s : State) (q x : Nat) : (postEntries s).thread? q x = s.thread? q x := by
  unfold postEntries
  simp only
  rw [foldl_thread (f := fun s (x : TRef × Place) => s.post (.watchEntryGrant x.1.core x.1.slot)) q x (fun _ _ => rfl),
    foldl_thread q x (by intro s a; split <;> rfl)]
  rfl

theorem rcPut_thread (s : State) (c slot r : Nat) (e : RcState) (q x : Nat) :
    (rcPut s c slot r e).thread? q x = s.thread? q x := by
  unfold rcPut
  simp only
  split
  · refine thread?_setCore ?_ q x
    rfl
  · show (s.setCore c _).thread? q x = _
    refine thread?_setCore ?_ q x
    rfl

theorem rcWrote_thread (s : State) (c slot r : Nat) (a : Bool) (q x : Nat) :
    (rcWrote s c slot r a).thread? q x = s.thread? q x := by
  unfold rcWrote
  split
  · exact thread?_modCore rfl q x
  · exact rcPut_thread ..

theorem writeG_thread {s : State} {c slot : Nat} {t : Thread} (h : s.thread? c slot = some t) (d : Nat) (w : Word) :
    (writeG s c slot d w).thread? c slot = some (t.setG d w) := by
  unfold writeG
  split
  · subst_vars
    simp [Thread.setG, h]
  · simp only [h]
    rw [rcWrote_thread]
    simp

theorem writeG_thread_ne (s : State) (c slot d : Nat) (w : Word) {q x : Nat} (hn : ¬(q = c ∧ x = slot)) :
    (writeG s c slot d w).thread? q x = s.thread? q x := by
  unfold writeG
  split
  · rfl
  · split
    · rfl
    · rw [rcWrote_thread, State.thread?_setThread, if_neg hn]

/-- R15: the wait of a thread that holds a context is over. -/
theorem wakeUp_resumed {s : State} {c slot : Nat} {t : Thread} (ha : t.away = false) :
    Resumed (wakeUp s c slot t) c slot t := by
  unfold wakeUp
  rw [if_neg (by simp [ha])]
  have key := makeReady_resumed (State.thread?_setThread_self s c slot { t with wait := .idle }) rfl
  exact ⟨key.thread, key.queued⟩

/-- The end of a wait (R15). -/
theorem finishWait_resumed {s : State} {c slot : Nat} {t : Thread} (h : s.thread? c slot = some t)
    (hc : t.code = .waiting ∨ t.code = .sleeping) (hs : t.stepping = none) (ha : t.away = false) :
    Resumed (finishWait s c slot) c slot t := by
  have h1 : (postWaiting (postCommit s c slot)).thread? c slot = some t := by
    rw [postWaiting_thread, postCommit_thread, h]
  have hn : ¬(t.stepped.isSome = true) := by simp [Thread.stepped, hs]
  simp only [finishWait, h1, if_neg hn]
  rcases hc with hc | hc <;> (simp only [hc]; exact wakeUp_resumed ha)

/-- A result written and the wait over. -/
theorem Waits.finish {s : State} {c slot : Nat} {t : Thread} {w : Wait} (h : Waits s c slot t w) (s1 : State)
    (h1 : s1.thread? c slot = some t) (d : Nat) (v : Word) :
    Resumed (finishWait (writeG s1 c slot d v) c slot) c slot (t.setG d v) := by
  refine finishWait_resumed (writeG_thread h1 d v) ?_ ?_ ?_
  · rcases h.code with hc | hc
    · left
      rw [← hc]
      unfold Thread.setG
      split <;> rfl
    · right
      rw [← hc]
      unfold Thread.setG
      split <;> rfl
  · rw [← h.notStepped]
    unfold Thread.setG
    split <;> rfl
  · rw [← h.here]
    unfold Thread.setG
    split <;> rfl

end Sys2Proof
end

