-- ==== Sys2Proof/Laws/Events.lean ====
section
/-!
SUPPORT. Laws/Events.lean: what the events of the agenda leave alone, and the queues they serve.
-/
namespace Sys2Proof
open Machine

theorem CoreOnly.refl (s : State) (c : Nat) : CoreOnly s s c := ⟨fun _ _ => rfl, rfl⟩
theorem CoreOnly.trans {s s1 s2 : State} {c : Nat} (h : CoreOnly s s1 c) (g : CoreOnly s1 s2 c) : CoreOnly s s2 c :=
  ⟨fun x hx => (g.cores x hx).trans (h.cores x hx), g.rest.trans h.rest⟩
theorem CoreOnly.setCore (s : State) (c : Nat) (k : Core) : CoreOnly s (s.setCore c k) c :=
  ⟨fun x hx => by rw [State.core_setCore, if_neg hx], rfl⟩
theorem CoreOnly.modCore (s : State) (c : Nat) (f : Core → Core) : CoreOnly s (s.modCore c f) c := CoreOnly.setCore ..
theorem CoreOnly.setThread (s : State) (c x : Nat) (t : Thread) : CoreOnly s (s.setThread c x t) c := CoreOnly.setCore ..
theorem CoreOnly.modThread (s : State) (c x : Nat) (f : Thread → Thread) : CoreOnly s (s.modThread c x f) c := by
  unfold State.modThread; split
  · exact .setThread ..
  · exact .refl ..
theorem CoreOnly.post (s : State) (c : Nat) (e : Event) : CoreOnly s (s.post e) c := ⟨fun _ _ => rfl, rfl⟩
theorem CoreOnly.rcPut (s : State) (c slot r : Nat) (e : RcState) : CoreOnly s (rcPut s c slot r e) c := by
  unfold Machine.rcPut; simp only; split
  · exact .setCore ..
  · refine ⟨fun x hx => ?_, rfl⟩
    show (s.setCore c _).core x = _
    rw [State.core_setCore, if_neg hx]
theorem CoreOnly.postFill (s : State) (c : Nat) : CoreOnly s (postFill s c) c := by
  unfold Machine.postFill; split
  · exact .refl ..
  · exact .post ..
theorem CoreOnly.postCtx (s : State) (c : Nat) : CoreOnly s (postCtx s c) c := by
  unfold Machine.postCtx; split
  · exact .refl ..
  · exact .post ..
  · exact .post ..
theorem CoreOnly.makeReady (s : State) (c slot : Nat) : CoreOnly s (makeReady s c slot) c := by
  unfold Machine.makeReady
  exact (CoreOnly.modThread ..).trans (.modCore ..)

theorem CoreOnly.postCommit (s : State) (c slot : Nat) : CoreOnly s (postCommit s c slot) c := by
  unfold Machine.postCommit; split
  · exact .refl ..
  · split
    · exact (CoreOnly.modCore ..).trans (.post ..)
    · exact .refl ..
theorem CoreOnly.foldl {α : Type} {f : State → α → State} {c : Nat} (hf : ∀ s a, CoreOnly s (f s a) c) (l : List α) (s : State) : CoreOnly s (l.foldl f s) c := by
  induction l generalizing s with
  | nil => exact .refl ..
  | cons a l ih => exact (hf s a).trans (ih _)
theorem CoreOnly.postWaiting (s : State) (c : Nat) : CoreOnly s (postWaiting s) c := by
  unfold Machine.postWaiting
  refine CoreOnly.trans (CoreOnly.foldl (fun s a => ?_) _ _) (CoreOnly.foldl (fun s a => ?_) _ _)
  · split <;> exact .post ..
  · split
    · exact .post ..
    · exact .refl ..
theorem CoreOnly.wakeUp (s : State) (c slot : Nat) (t : Thread) : CoreOnly s (wakeUp s c slot t) c := by
  unfold Machine.wakeUp; split
  · exact (CoreOnly.setThread ..).trans ((CoreOnly.modCore ..).trans (.postCtx ..))
  · exact (CoreOnly.setThread ..).trans (.makeReady ..)
/-- The end of a wait changes nothing but its core. -/
theorem CoreOnly.finishWait (s : State) (c slot : Nat) : CoreOnly s (finishWait s c slot) c := by
  have h : CoreOnly s (Machine.postWaiting (Machine.postCommit s c slot)) c := (CoreOnly.postCommit ..).trans (.postWaiting ..)
  unfold Machine.finishWait; simp only
  split
  · exact h
  · split
    · refine CoreOnly.trans (h.trans ?_) (.post ..)
      split
      · exact (CoreOnly.setThread ..).trans (.modThread ..)
      · exact .setThread ..
    · split
      · exact h.trans (.wakeUp ..)
      · exact h.trans (.wakeUp ..)
      · exact h.trans (.wakeUp ..)
      · exact h.trans (.setThread ..)
theorem CoreOnly.rcWrote (s : State) (c slot r : Nat) (a : Bool) : CoreOnly s (rcWrote s c slot r a) c := by
  unfold Machine.rcWrote; split
  · exact .modCore ..
  · exact .rcPut ..
theorem CoreOnly.writeG (s : State) (c slot d : Nat) (w : Word) : CoreOnly s (writeG s c slot d w) c := by
  unfold Machine.writeG; split
  · exact .refl ..
  · split
    · exact .refl ..
    · exact (CoreOnly.setThread ..).trans (.rcWrote ..)
theorem CoreOnly.snapThread (s : State) (c slot : Nat) : CoreOnly s (snapThread s c slot) c := by
  unfold Machine.snapThread; split
  · exact .modCore ..
  · exact .refl ..
theorem CoreOnly.field {s s' : State} {c : Nat} (h : CoreOnly s s' c) {α : Type} (f : State → α) (hf : ∀ s, f { s with cores := [], agenda := [], free := 0 } = f s) : f s' = f s := by
  rw [← hf s', ← hf s, h.rest]

theorem postFill_core (s : State) (c x : Nat) : (postFill s c).core x = s.core x := by unfold postFill; split <;> rfl
theorem postFill_agenda {s : State} (c : Nat) {e : Event} (h : e ∈ s.agenda) : e ∈ (postFill s c).agenda := by
  unfold postFill; split
  · exact h
  · exact List.mem_append_left _ h
theorem postCtx_core (s : State) (c x : Nat) : (postCtx s c).core x = s.core x := by unfold postCtx; split <;> rfl
theorem postCtx_agenda {s : State} (c : Nat) {e : Event} (h : e ∈ s.agenda) : e ∈ (postCtx s c).agenda := by
  unfold postCtx; split
  · exact h
  · exact List.mem_append_left _ h
  · exact List.mem_append_left _ h
theorem rcPut_fillq (s : State) (c slot r : Nat) (e : RcState) (x : Nat) : ((rcPut s c slot r e).core x).fillq = (s.core x).fillq := by
  unfold rcPut; simp only; split
  · simp only [State.core_setCore]; split <;> simp_all
  · show ((s.setCore c _).core x).fillq = _
    simp only [State.core_setCore]; split <;> simp_all
theorem reserveAll_core (s : State) (c slot : Nat) (l : List Nat) : ((reserveAll s c slot l).core c).fillq = (s.core c).fillq ∧ (reserveAll s c slot l).thread? c slot = s.thread? c slot := by
  induction l generalizing s with
  | nil => exact ⟨rfl, rfl⟩
  | cons r l ih =>
    have hl := LinesOnly.fillLine s c
    unfold reserveAll
    exact ⟨(ih _).1.trans ((rcPut_fillq ..).trans (hl.fillq c)), (ih _).2.trans ((rcPut_thread ..).trans (hl.thread c slot))⟩
theorem length_set {α : Type} (m : Map α) (a : Nat) (x : α) : (Map.set m a x).length ≤ m.length + 1 := by
  induction m with
  | nil => simp [Map.set]
  | cons e m ih =>
    obtain ⟨k, v⟩ := e
    unfold Map.set; split
    · simp
    · split
      · simp
      · simp only [List.length_cons]; omega
theorem reserveAll_rc (s : State) (c slot : Nat) (l : List Nat) (h : (s.core c).rc.length + l.length ≤ rcSize (s.core c)) :
   (∀ r ∈ l, Map.get? ((reserveAll s c slot l).core c).rc (rcKey slot r) = some .reserved) ∧ ∀ x, Map.get? (s.core c).rc x = some .reserved → Map.get? ((reserveAll s c slot l).core c).rc x = some .reserved := by
  induction l generalizing s with
  | nil => exact ⟨by simp, fun x h => h⟩
  | cons r l ih =>
    have hl := LinesOnly.fillLine s c
    obtain ⟨s1, h1⟩ : ∃ s1, s1 = fillLine s c := ⟨_, rfl⟩
    rw [← h1] at hl
    have e : rcPut s1 c slot r .reserved = s1.setCore c { s1.core c with rc := Map.set (s.core c).rc (rcKey slot r) .reserved } := by
      unfold rcPut; simp only
      rw [if_pos, hl.rc]
      simp only [List.length_cons] at h
      have : (s1.core c).rc.length < rcSize (s1.core c) := by rw [hl.rc, hl.rcSize]; omega
      simp [this]
    have ih := ih (s := rcPut s1 c slot r .reserved) (by
      rw [e, State.core_setCore_self]
      have := length_set (s.core c).rc (rcKey slot r) RcState.reserved
      simp only [List.length_cons] at h
      show (Map.set (s.core c).rc (rcKey slot r) RcState.reserved).length + l.length ≤ rcSize (s1.core c)
      rw [hl.rcSize]
      omega)
    have self : Map.get? ((rcPut s1 c slot r .reserved).core c).rc (rcKey slot r) = some .reserved := by
      rw [e, State.core_setCore_self]; simp
    unfold reserveAll
    rw [← h1]
    refine ⟨?_, ?_⟩
    · intro x hx
      rcases List.mem_cons.1 hx with rfl | hx
      · exact ih.2 _ self
      · exact ih.1 x hx
    · intro x hx
      refine ih.2 x ?_
      rw [e, State.core_setCore_self]
      show Map.get? (Map.set (s.core c).rc (rcKey slot r) RcState.reserved) x = _
      rw [Map.get?_set]; split
      · rfl
      · exact hx
theorem reserveAll_agenda (s : State) (c slot : Nat) (l : List Nat) {e : Event} (h : e ∈ s.agenda) : e ∈ (reserveAll s c slot l).agenda := by
  induction l generalizing s with
  | nil => exact h
  | cons r l ih =>
    unfold reserveAll
    exact ih _ (by rw [rcPut_agenda]; exact (LinesOnly.fillLine s c).agenda e h)

theorem makeReady_eq {s : State} {c slot : Nat} {t : Thread} (h : s.thread? c slot = some t) :
  makeReady s c slot = (s.setThread c slot { t with code := .ready, slept := false, sleepFor := 0 }).modCore c (fun k =>
    { k with ready := readyInsert slot k.cyc (k.ready.filter (fun x => x.1 != slot)) }) := by
  unfold makeReady; rw [State.modThread_eq h]

/-- What a paired core keeps of a new thread changes no more than its checkpoint. -/
theorem snapThread_core (s : State) (c slot x : Nat) : { (snapThread s c slot).core x with lock := none } = { s.core x with lock := none } := by
  unfold snapThread; split
  · rw [State.core_modCore]; split
    · subst_vars; rfl
    · rfl
  · rfl
theorem snapThread_thread (s : State) (c slot q x : Nat) : (snapThread s c slot).thread? q x = s.thread? q x := by
  have e := congrArg (fun k : Core => Map.get? k.threads x) (snapThread_core s c slot q)
  exact e
theorem coreStopping_of {s s' : State} {c : Nat} (h1 : s'.plat = s.plat) (h2 : s'.parts = s.parts) (h3 : (s'.core c).owner = (s.core c).owner) : coreStopping s' c = coreStopping s c := by
  unfold coreStopping State.part; rw [h1, h2, h3]
/-- A thread allocated on a core that is not being stopped. -/
theorem allocThread_eq {s : State} {c slot : Nat} {t : Thread} (h : coreStopping s c = false) :
   allocThread s c slot t = snapThread (makeReady (s.setThread c slot { t with away := false, code := .ready }) c slot) c slot := by
  unfold allocThread
  simp only
  rw [if_neg]
  have A : CoreOnly s (snapThread (makeReady (s.setThread c slot { t with away := false, code := .ready }) c slot) c slot) c :=
    (CoreOnly.setThread ..).trans ((CoreOnly.makeReady ..).trans (.snapThread ..))
  have ho := congrArg Core.owner (snapThread_core (makeReady (s.setThread c slot { t with away := false, code := .ready }) c slot) c slot c)
  rw [coreStopping_of (A.field (fun s => s.plat) (fun _ => rfl)) (A.field (fun s => s.parts) (fun _ => rfl)) (ho.trans ?_), h]
  · simp
  · rw [makeReady_eq (State.thread?_setThread_self ..)]
    simp [State.core_setThread]

theorem allocThread_thread {s : State} {c slot : Nat} {t : Thread} (h : coreStopping s c = false) :
   (allocThread s c slot t).thread? c slot = some { t with away := false, code := .ready, slept := false, sleepFor := 0 } ∧
   (∀ q x, ¬(q = c ∧ x = slot) → (allocThread s c slot t).thread? q x = s.thread? q x) ∧
   CoreOnly s (allocThread s c slot t) c := by
  rw [allocThread_eq h]
  refine ⟨?_, ?_, (CoreOnly.setThread ..).trans ((CoreOnly.makeReady ..).trans (.snapThread ..))⟩
  · rw [snapThread_thread, makeReady_eq (State.thread?_setThread_self ..)]
    refine (thread?_modCore ?_ _ _).trans ?_
    · rfl
    · rw [State.thread?_setThread_self]
  · intro q x hn
    rw [snapThread_thread, makeReady_eq (State.thread?_setThread_self ..)]
    refine (thread?_modCore ?_ _ _).trans ?_
    · rfl
    · rw [State.thread?_setThread, if_neg hn, State.thread?_setThread, if_neg hn]

theorem alloc_fields {s : State} {c slot : Nat} {t : Thread} (h : coreStopping s c = false) :
   ((allocThread s c slot t).core c).owner = (s.core c).owner ∧ ((allocThread s c slot t).core c).gens = (s.core c).gens := by
  have A := snapThread_core (makeReady (s.setThread c slot { t with away := false, code := .ready }) c slot) c slot c
  have ho := congrArg Core.owner A
  have hg := congrArg Core.gens A
  rw [allocThread_eq h]
  refine ⟨ho.trans ?_, hg.trans ?_⟩ <;>
  · rw [makeReady_eq (State.thread?_setThread_self ..)]
    simp [State.core_setThread]

theorem holdNew_id {s : State} {c slot gid lid : Nat} (h : ∀ l, s.launch? lid = some l → l.preempting = false) : holdNew s c slot gid lid = s := by
  unfold holdNew; split
  · rename_i g l h1 h2
    simp [h l h2]
  · rfl
theorem finishWait_packets (s : State) (c slot : Nat) : (finishWait s c slot).packets = s.packets :=
  (CoreOnly.finishWait s c slot).field (fun s => s.packets) (fun _ => rfl)

theorem writeG_packets (s : State) (c slot d : Nat) (w : Word) : (writeG s c slot d w).packets = s.packets :=
  (CoreOnly.writeG s c slot d w).field (fun s => s.packets) (fun _ => rfl)

theorem finishWait_ne {s : State} {c slot q x : Nat} {t : Thread} {v : Option Thread} (h : s.thread? c slot = some t) (hc : t.code = .waiting ∨ t.code = .sleeping) (hs : t.stepping = none) (ha : t.away = false) (hn : ¬(q = c ∧ x = slot)) (hv : s.thread? q x = v) :
   (finishWait s c slot).thread? q x = v := by
  have h1 : (postWaiting (postCommit s c slot)).thread? c slot = some t := by
    rw [postWaiting_thread, postCommit_thread, h]
  have h2 : (postWaiting (postCommit s c slot)).thread? q x = v := by
    rw [postWaiting_thread, postCommit_thread, hv]
  have key : (wakeUp (postWaiting (postCommit s c slot)) c slot t).thread? q x = v := by
    unfold wakeUp
    rw [if_neg (by simp [ha]), makeReady_eq (State.thread?_setThread_self ..)]
    refine (thread?_modCore ?_ _ _).trans ?_
    · rfl
    · rw [State.thread?_setThread, if_neg hn, State.thread?_setThread, if_neg hn, h2]
  have hst : ¬(t.stepped.isSome = true) := by simp [Thread.stepped, hs]
  simp only [finishWait, h1, if_neg hst]
  rcases hc with hc | hc <;> (simp only [hc]; exact key)

theorem handleOf_eq {s s' : State} {c slot : Nat} (h1 : s'.pkg = s.pkg) (h2 : (s'.core c).owner = (s.core c).owner) (h3 : (s'.core c).gens = (s.core c).gens) : handleOf s' c slot = handleOf s c slot := by
  unfold handleOf genOf; simp only [h1, h2, h3]
theorem lowestSlot_free (k : Core) (a f slot : Nat) (h : lowestSlot k a f = some slot) : Map.get? k.threads slot = none := by
  induction f generalizing a with
  | zero => cases h
  | succ f ih =>
    unfold lowestSlot at h; split at h
    · exact ih _ h
    · rename_i hn; cases h
      simp only [Map.has, Bool.or_eq_true, not_or] at hn
      simpa using hn.1
theorem lowestSlot_congr (k k' : Core) (h1 : k'.threads = k.threads) (h2 : k'.reservedSlots = k.reservedSlots) (a f : Nat) : lowestSlot k' a f = lowestSlot k a f := by
  induction f generalizing a with
  | zero => rfl
  | succ f ih => unfold lowestSlot; rw [h1, h2, ih]

theorem spawn_of {s : State} {p : Packet} {slot : Nat} {r : TRef} {u : Thread} {d x : Nat}
   (h4 : p.issuer = some r) (hw : Waits s r.core r.slot u (.packet d x)) (h6 : lowestSlot (s.core p.target) 0 4080 = some slot)
   (h7 : isSaved s p.thread.gid = false) (h8 : poolsFit s p.target p.thread.m p.thread.zc = true) (h9 : backing p.thread.n p.thread.m p.thread.zc ≤ layByRoom s p.thread.part)
   (h10 : contexts s p.target < 512) (h13 : slotsUsed s p.target < 4080) (h14 : p.reply = none) (h11 : coreStopping s p.target = false) (h12 : ∀ l, s.launch? p.thread.lid = some l → l.preempting = false) :
   ∃ s', trySpawn s p = some s' ∧ s'.thread? p.target slot = some { p.thread with room := backing p.thread.n p.thread.m p.thread.zc, away := false, code := .ready, slept := false, sleepFor := 0 } ∧
     Resumed s' r.core r.slot (u.setG d (handleOf s p.target slot)) ∧ s'.packets = Map.erase s.packets p.id := by
  have hfree : s.thread? p.target slot = none := lowestSlot_free _ _ _ _ h6
  have hne : ¬(r.core = p.target ∧ r.slot = slot) := by
    rintro ⟨a, b⟩
    have := hw.thread; rw [a, b, hfree] at this; cases this
  have hne' : ¬(p.target = r.core ∧ slot = r.slot) := fun h => hne ⟨h.1.symm, h.2.symm⟩
  obtain ⟨A1, A2, A3⟩ := allocThread_thread (s := { s with packets := Map.erase s.packets p.id }) (c := p.target) (slot := slot) (t := { p.thread with room := backing p.thread.n p.thread.m p.thread.zc }) h11
  obtain ⟨F1, F2⟩ := alloc_fields (s := { s with packets := Map.erase s.packets p.id }) (c := p.target) (slot := slot) (t := { p.thread with room := backing p.thread.n p.thread.m p.thread.zc }) h11
  obtain ⟨a, ha⟩ : ∃ a, a = allocThread { s with packets := Map.erase s.packets p.id } p.target slot { p.thread with room := backing p.thread.n p.thread.m p.thread.zc } := ⟨_, rfl⟩
  rw [← ha] at A1 A2 A3 F1 F2
  have A3' : CoreOnly { s with packets := Map.erase s.packets p.id } a p.target := A3
  obtain ⟨b, hb⟩ : ∃ b, b = a.modPart p.thread.part (fun q => { q with poolUsed := q.poolUsed + backing p.thread.n p.thread.m p.thread.zc }) := ⟨_, rfl⟩
  have hbt : ∀ q y, b.thread? q y = a.thread? q y := by intro q y; rw [hb]; rfl
  have hu : b.thread? r.core r.slot = some u := by rw [hbt, A2 _ _ hne]; exact hw.thread
  have hhold : holdNew b p.target slot p.thread.gid p.thread.lid = b := by
    refine holdNew_id ?_
    intro l hl
    refine h12 l ?_
    rw [← hl, hb]
    have e := A3'.field (fun s => s.launches) (fun _ => rfl)
    show Map.get? s.launches _ = Map.get? a.launches _
    rw [e]
  have hh : handleOf b p.target slot = handleOf s p.target slot := by
    refine handleOf_eq ?_ ?_ ?_
    · rw [hb]; exact A3'.field (fun s => s.pkg) (fun _ => rfl)
    · rw [hb]; exact F1
    · rw [hb]; exact F2
  refine ⟨finishWait (writeG b r.core r.slot d (handleOf s p.target slot)) r.core r.slot, ?_, ?_, ?_, ?_⟩
  · have hi : packetIssuer b p = some (r, u, d) := by
      unfold packetIssuer
      simp only [h4, Option.bind_some, hu, hw.wait]
    unfold trySpawn
    simp only [h6, h7, h8]
    rw [if_neg (by simp; omega)]
    simp only [freeContext, h10, if_true]
    rw [← ha, ← hb, hhold, hh]
    unfold packetDone
    simp only [hi, h14]
  · have W := hw.code
    refine finishWait_ne (t := u.setG d (handleOf s p.target slot)) (writeG_thread hu d _) ?_ ?_ ?_ hne' ?_
    · unfold Thread.setG; split <;> exact W
    · unfold Thread.setG; split <;> exact hw.notStepped
    · unfold Thread.setG; split <;> exact hw.here
    · rw [writeG_thread_ne _ _ _ _ _ hne', hbt, A1]
  · have W : Waits b r.core r.slot u (.packet d x) := ⟨hu, hw.wait, hw.code, hw.notStepped, hw.here⟩
    exact W.finish b hu d _
  · rw [finishWait_packets, writeG_packets, hb]
    exact A3'.field (fun s => s.packets) (fun _ => rfl)

theorem Resumed.postCtx {s : State} {c slot : Nat} {t : Thread} (h : Resumed s c slot t) (q : Nat) : Resumed (postCtx s q) c slot t := by
  refine ⟨?_, ?_⟩
  · unfold State.thread?; rw [postCtx_core]; exact h.thread
  · rw [postCtx_core]; exact h.queued

theorem postCtx_packets (s : State) (c : Nat) : (postCtx s c).packets = s.packets := by unfold postCtx; split <;> rfl

theorem postEntries_rest (s : State) : { postEntries s with agenda := [] } = { s with agenda := [], dir := s.dir.filter (fun x => keepsEntry s x.1 x.2) } := by
  have fold : ∀ {α : Type} (f : State → α → State), (∀ s a, ({ f s a with agenda := [] } : State) = { s with agenda := [] }) → ∀ (l : List α) (s : State), ({ l.foldl f s with agenda := [] } : State) = { s with agenda := [] } := by
    intro α f hf l
    induction l with
    | nil => intro s; rfl
    | cons a l ih => intro s; rw [List.foldl_cons, ih, hf]
  unfold postEntries; simp only
  rw [fold (fun s (x : TRef × Place) => s.post (.watchEntryGrant x.1.core x.1.slot)) (fun _ _ => rfl), fold _ (by intro s a; split <;> rfl)]
theorem freeRoom_rest (s : State) (part n : Nat) : { freeRoom s part n with agenda := [] } = { s.modPart part (fun p => { p with poolUsed := p.poolUsed - n }) with agenda := [] } := by
  have fold : ∀ (l : List Nat) (s : State), ({ l.foldl (fun s c => s.post (.contextGrant c)) s with agenda := [] } : State) = { s with agenda := [] } := by
    intro l
    induction l with
    | nil => intro s; rfl
    | cons a l ih => intro s; rw [List.foldl_cons, ih]; rfl
  unfold freeRoom; simp only
  split
  · rfl
  · unfold postSpawns; rw [fold]

/-- What clearing a slot does to its core, and what it leaves alone. -/
theorem clearSlot_core {s : State} {c slot : Nat} {t : Thread} (h : s.thread? c slot = some t) :
   (∀ x, (clearSlot s c slot).core x = if x = c then { rcDrop (leaveRot (s.core c) slot) slot with
      threads := Map.erase (s.core c).threads slot
      gens := Map.set (s.core c).gens slot ((genOf (s.core c) slot + 1) % 2 ^ 20)
      fillq := (s.core c).fillq.filter (· != slot)
      sfuq := (s.core c).sfuq.filter (fun r => r.slot != slot)
      sfuWait := (s.core c).sfuWait.filter (· != slot)
      ctxWait := (s.core c).ctxWait.filter (· != .fill slot) } else s.core x) ∧
   (clearSlot s c slot).groups = s.groups ∧ (clearSlot s c slot).launches = s.launches ∧
   (clearSlot s c slot).packets = s.packets ∧ (clearSlot s c slot).plat = s.plat ∧
   (clearSlot s c slot).parts = (s.modPart t.part (fun p => { p with poolUsed := p.poolUsed - t.room })).parts := by
  obtain ⟨s0, hs0⟩ : ∃ s0, s0 = freeRoom s t.part t.room := ⟨_, rfl⟩
  have e0 := freeRoom_rest s t.part t.room
  rw [← hs0] at e0
  obtain ⟨s1, hs1⟩ : ∃ s1, s1 = disarmAll s0 c slot := ⟨_, rfl⟩
  have e1 : ({ s1 with agenda := [], watches := [], entryWait := [], dir := [] } : State) = { s0 with agenda := [], watches := [], entryWait := [], dir := [] } := by
    have := congrArg (fun x : State => ({ x with watches := [], entryWait := [], dir := [] } : State)) (postEntries_rest { s0 with
    watches := s0.watches.filter (fun w =>
      !(w.thread = ⟨c, slot⟩ && (match w.kind with | .dep _ => false | _ => true)))
    entryWait := s0.entryWait.filter (fun x => x.1 != ⟨c, slot⟩) })
    rw [hs1]
    exact this
  obtain ⟨s2, hs2⟩ : ∃ s2, s2 = s1.modCore c (fun k =>
    { rcDrop (leaveRot k slot) slot with
      threads := Map.erase k.threads slot
      gens := Map.set k.gens slot ((genOf k slot + 1) % 2 ^ 20)
      fillq := k.fillq.filter (· != slot)
      sfuq := k.sfuq.filter (fun r => r.slot != slot)
      sfuWait := k.sfuWait.filter (· != slot)
      ctxWait := k.ctxWait.filter (· != .fill slot) }) := ⟨_, rfl⟩
  have e3 : ∃ s3 : State, clearSlot s c slot = s3 ∧ s3.cores = s2.cores ∧ s3.groups = s2.groups ∧ s3.launches = s2.launches ∧ s3.packets = s2.packets ∧ s3.plat = s2.plat ∧ s3.parts = s2.parts := by
    refine ⟨_, rfl, ?_⟩
    unfold clearSlot
    simp only [h]
    rw [← hs0, ← hs1, ← hs2]
    split
    · split
      · exact ⟨rfl, rfl, rfl, rfl, rfl, rfl⟩
      · exact ⟨rfl, rfl, rfl, rfl, rfl, rfl⟩
    · unfold postCtx postFill
      split <;> split <;> exact ⟨rfl, rfl, rfl, rfl, rfl, rfl⟩
  obtain ⟨s3, e3, c3, g3, l3, p3, pl3, pa3⟩ := e3
  have a0 := congrArg State.cores e0
  have b0 := congrArg State.groups e0
  have d0 := congrArg State.launches e0
  have f0 := congrArg State.packets e0
  have g0 := congrArg State.plat e0
  have i0 := congrArg State.parts e0
  have a1 := congrArg State.cores e1
  have b1 := congrArg State.groups e1
  have d1 := congrArg State.launches e1
  have f1 := congrArg State.packets e1
  have g1 := congrArg State.plat e1
  have i1 := congrArg State.parts e1
  have core1 : ∀ x, s1.core x = s.core x := by
    intro x; unfold State.core
    have : s1.cores = s.cores := Eq.trans a1 a0
    rw [this]
  have core3 : ∀ x, s3.core x = s2.core x := by intro x; unfold State.core; rw [c3]
  rw [e3]
  refine ⟨?_, ?_, ?_, ?_, ?_, ?_⟩
  · intro x
    rw [core3, hs2, State.core_modCore, core1, core1]
  · rw [g3, hs2]; exact Eq.trans b1 b0
  · rw [l3, hs2]; exact Eq.trans d1 d0
  · rw [p3, hs2]; exact Eq.trans f1 f0
  · rw [pl3, hs2]; exact Eq.trans g1 g0
  · rw [pa3, hs2]; exact Eq.trans i1 i0

theorem clearSlot_spec {s : State} {c slot : Nat} {t : Thread} (h : s.thread? c slot = some t) (q : Nat) (hq : coreStopping s q = false) :
   (clearSlot s c slot).thread? c slot = none ∧ (∀ y x, ¬(y = c ∧ x = slot) → (clearSlot s c slot).thread? y x = s.thread? y x) ∧
   (clearSlot s c slot).packets = s.packets ∧ coreStopping (clearSlot s c slot) q = false := by
  obtain ⟨hc, -, -, hp, hpl, hpa⟩ := clearSlot_core h
  refine ⟨?_, ?_, hp, ?_⟩
  · unfold State.thread?; rw [hc, if_pos rfl]
    show Map.get? (Map.erase (s.core c).threads slot) slot = none
    rw [Map.get?_erase]; simp
  · intro y x hn
    unfold State.thread?; rw [hc]
    split
    · subst_vars
      show Map.get? (Map.erase (s.core _).threads slot) x = _
      rw [Map.get?_erase, if_neg (by intro hx; exact hn ⟨rfl, hx⟩)]
    · rfl
  · rw [← hq]
    have hown : ((clearSlot s c slot).core q).owner = (s.core q).owner := by
      rw [hc]; split
      · subst_vars; rfl
      · rfl
    have hst : ∀ p, ((clearSlot s c slot).part p).state = (s.part p).state := by
      intro p
      have : (clearSlot s c slot).part p = (s.modPart t.part (fun p => { p with poolUsed := p.poolUsed - t.room })).part p := by
        unfold State.part; rw [hpa]
      rw [this, State.part_modPart]; split
      · subst_vars; rfl
      · rfl
    unfold coreStopping
    rw [hown, hpl]
    simp only [hst]

theorem postEntries_watches (s : State) : (postEntries s).watches = s.watches := by
  have e := congrArg State.watches (postEntries_rest s)
  exact e
theorem postEntries_cores (s : State) : (postEntries s).cores = s.cores := by
  have e := congrArg State.cores (postEntries_rest s)
  exact e
/-- What a core holds beside its threads and the queues they stand in. -/
def bare (k : Core) : Core := { k with threads := [], rc := [], ready := [], ctxWait := [], lock := none }

theorem bare_setCore {s : State} {c : Nat} {k : Core} (h : bare k = bare (s.core c)) (x : Nat) : bare ((s.setCore c k).core x) = bare (s.core x) := by
  rw [State.core_setCore]; split
  · subst_vars; exact h
  · rfl
theorem bare_foldl {α : Type} {f : State → α → State} (hf : ∀ s a, (f s a).cores = s.cores) (l : List α) (s : State) : (l.foldl f s).cores = s.cores := by
  induction l generalizing s with
  | nil => rfl
  | cons a l ih => rw [List.foldl_cons, ih, hf]
theorem postWaiting_cores (s : State) : (postWaiting s).cores = s.cores := by
  unfold postWaiting; simp only
  rw [bare_foldl (by intro s a; split <;> rfl), bare_foldl (by intro s a; split <;> rfl)]
theorem bare_finishWait (s : State) (c slot x : Nat) : bare ((finishWait s c slot).core x) = bare (s.core x) := by
  have h1 : bare ((postCommit s c slot).core x) = bare (s.core x) := by
    unfold postCommit; split
    · rfl
    · split
      · rw [State.core_post]
        refine bare_setCore (s := s) ?_ x
        rfl
      · rfl
  have h : bare ((postWaiting (postCommit s c slot)).core x) = bare (s.core x) := by
    rw [← h1]; unfold State.core; rw [postWaiting_cores]
  have hs : ∀ (s : State) (t : Thread), bare ((s.setThread c slot t).core x) = bare (s.core x) := by
    intro s t
    refine bare_setCore (s := s) ?_ x
    rfl
  have hm : ∀ (s : State), bare ((makeReady s c slot).core x) = bare (s.core x) := by
    intro s
    unfold makeReady; simp only
    refine (bare_setCore (s := s.modThread c slot _) ?_ x).trans ?_
    · rfl
    · unfold State.modThread; split
      · exact hs ..
      · rfl
  have hj : ∀ (s : State), bare ((joinFill s c slot).core x) = bare (s.core x) := by
    intro s
    unfold joinFill; rw [postCtx_core]
    exact bare_setCore (s := s) (k := { s.core c with ctxWait := (s.core c).ctxWait ++ [.fill slot] }) rfl x
  have hu : ∀ (s : State) (t : Thread), bare ((wakeUp s c slot t).core x) = bare (s.core x) := by
    intro s t
    unfold wakeUp; split
    · exact (hj ..).trans (hs ..)
    · exact (hm ..).trans (hs ..)
  have hmod : ∀ (s : State) (f : Thread → Thread), bare ((s.modThread c slot f).core x) = bare (s.core x) := by
    intro s f
    unfold State.modThread; split
    · exact hs ..
    · rfl
  unfold finishWait; simp only
  split
  · exact h
  · split
    · rw [State.core_post]
      split
      · exact (hmod ..).trans ((hs ..).trans h)
      · exact (hs ..).trans h
    · split
      · exact (hu ..).trans h
      · exact (hu ..).trans h
      · exact (hu ..).trans h
      · exact (hs ..).trans h
theorem bare_writeG (s : State) (c slot d : Nat) (w : Word) (x : Nat) : bare ((writeG s c slot d w).core x) = bare (s.core x) := by
  have hs : ∀ (s : State) (t : Thread), bare ((s.setThread c slot t).core x) = bare (s.core x) := by
    intro s t
    refine bare_setCore (s := s) ?_ x
    rfl
  unfold writeG; split
  · rfl
  · split
    · rfl
    · rename_i t _
      refine Eq.trans ?_ (hs s (t.setG d w))
      unfold rcWrote; split
      · refine bare_setCore (s := s.setThread c slot (t.setG d w)) ?_ x
        rfl
      · unfold rcPut; simp only; split
        · refine bare_setCore ?_ x
          rfl
        · refine bare_setCore ?_ x
          rfl

theorem sampleHist_only (s : State) (p n v : Nat) (c : Nat) : CoreOnly s (sampleHist s p n v) c ∧ (sampleHist s p n v).cores = s.cores := by
  have h : ∀ (l : List Nat) (s : State), CoreOnly s (l.foldl (fun s u =>
    match Map.get? (s.part p).hists u with
    | some h =>
      if h.cfg.getLsbD 0 && !h.cfg.getLsbD 2 && !h.cfg.getLsbD 3 && bitsOf h.cfg.toNat 4 8 = n then
        s.post (.histogramSample p u (BitVec.ofNat 64 v))
      else s
    | none => s) s) c ∧ (l.foldl (fun s u =>
    match Map.get? (s.part p).hists u with
    | some h =>
      if h.cfg.getLsbD 0 && !h.cfg.getLsbD 2 && !h.cfg.getLsbD 3 && bitsOf h.cfg.toNat 4 8 = n then
        s.post (.histogramSample p u (BitVec.ofNat 64 v))
      else s
    | none => s) s).cores = s.cores := by
    intro l
    induction l with
    | nil => intro s; exact ⟨.refl .., rfl⟩
    | cons a l ih =>
      intro s
      rw [List.foldl_cons]
      refine ⟨CoreOnly.trans ?_ (ih _).1, (ih _).2.trans ?_⟩
      · split
        · split
          · exact .post ..
          · exact .refl ..
        · exact .refl ..
      · split
        · split <;> rfl
        · rfl
  exact h _ _

/-- An access whose pieces are all performed. -/
theorem completeIfDone_g {s : State} {c slot : Nat} {t : Thread} {a : Access} (h : Waits s c slot t (.access a)) (d : Nat)
    (o : List Byte) {u : MUnit} (hu : a.units = [u]) (ho : u.out = some o) (hf : a.fin = .g d false ∨ a.fin = .status d) :
    Resumed (completeIfDone s ⟨c, slot⟩ none) c slot (t.setG d (leWord o)) ∧ CoreOnly s (completeIfDone s ⟨c, slot⟩ none) c ∧
      ∀ x, bare ((completeIfDone s ⟨c, slot⟩ none).core x) = bare (s.core x) := by
  have e : completeIfDone s ⟨c, slot⟩ none = finishWait (if a.load then sampleHist (writeG s c slot d (leWord o)) t.part 0 (((writeG s c slot d (leWord o)).core c).cyc - a.issued) else (writeG s c slot d (leWord o))) c slot := by
    unfold completeIfDone
    simp only [h.thread, accOf, h.wait, hu, List.all_cons, List.all_nil, ho, Option.isSome_some, Bool.and_true, if_true, List.map_cons, List.map_nil, Option.getD_some]
    rcases hf with hf | hf <;> simp only [hf, finishAccess, List.headD_cons, Bool.false_eq_true, if_false]
  obtain ⟨s1, hs1⟩ : ∃ s1, s1 = (if a.load then sampleHist (writeG s c slot d (leWord o)) t.part 0 (((writeG s c slot d (leWord o)).core c).cyc - a.issued) else (writeG s c slot d (leWord o))) := ⟨_, rfl⟩
  have hc : s1.cores = (writeG s c slot d (leWord o)).cores := by
    rw [hs1]; split
    · exact (sampleHist_only _ _ _ _ c).2
    · rfl
  have hco : CoreOnly (writeG s c slot d (leWord o)) s1 c := by
    rw [hs1]; split
    · exact (sampleHist_only _ _ _ _ c).1
    · exact .refl ..
  rw [e, ← hs1]
  have core1 : ∀ x, s1.core x = (writeG s c slot d (leWord o)).core x := by intro x; unfold State.core; rw [hc]
  refine ⟨?_, (CoreOnly.writeG ..).trans (hco.trans (.finishWait ..)), ?_⟩
  · refine finishWait_resumed ?_ ?_ ?_ ?_
    · unfold State.thread?; rw [core1]; exact writeG_thread h.thread d _
    · unfold Thread.setG; split <;> exact h.code
    · unfold Thread.setG; split <;> exact h.notStepped
    · unfold Thread.setG; split <;> exact h.here
  · intro x; rw [bare_finishWait, core1, bare_writeG]

theorem accOf_one {t : Thread} {x : Relaxed} {id : Nat} (hr : t.relaxed = [x]) (hid : x.id = id) (hf : x.fault = none) : accOf t (some id) = some x.acc := by
  unfold accOf
  simp only [hr, List.find?_cons, hid, decide_true, Option.filter, hf, Option.isNone_none, if_true, Option.map_some]

theorem waitedPiece_one {s : State} {c slot : Nat} {t : Thread} {a : Access} {u : MUnit} (h : s.thread? c slot = some t) (hw : t.wait = .access a) (hu : a.units = [u]) {p : MUnit → Bool} (hp : p u = true) :
    waitedPiece s ⟨c, slot⟩ none p = some (0, u) := by
  unfold waitedPiece
  simp [h, accOf, hw, firstPiece, hu, hp]

theorem Becomes.lockAt {s s1 : State} {c slot : Nat} {t : Thread} (B : Becomes s s1 c slot t) (x : Nat) : (s1.core x).lock = (s.core x).lock := by
  by_cases h : x = c
  · subst h; have e := congrArg Core.lock B.core; exact e
  · rw [B.cores x h]
theorem Becomes.field {s s1 : State} {c slot : Nat} {t : Thread} (B : Becomes s s1 c slot t) {α : Type} (f : State → α) (hf : ∀ s, f { s with cores := [], agenda := [], free := 0 } = f s) : f s1 = f s := by
  rw [← hf s1, ← hf s, B.rest]
theorem Becomes.named {s s1 : State} {c slot : Nat} {t : Thread} (B : Becomes s s1 c slot t) (p : Nat) (h : Word) : namedCore s1 p h = namedCore s p h := by
  unfold namedCore State.part
  rw [B.field (fun s => s.parts) (fun _ => rfl)]
  simp only [B.lockAt]
theorem Becomes.groupOn {s s1 : State} {c slot : Nat} {t : Thread} (B : Becomes s s1 c slot t) (q l : Nat) : groupOn s1 q l = groupOn s q l := by
  unfold Machine.groupOn
  rw [B.field (fun s => s.groups) (fun _ => rfl)]

/-- A thread that leaves with a packet. -/
theorem Left.packet {i : Instr} {s s1 : State} {c slot : Nat} {t : Thread} (B : Becomes s s1 c slot (past i 4 t)) (d kind q : Nat) (ch : Thread) :
   Left i { s with fresh := s.fresh + 1, packets := Map.set s.packets s.fresh (buildPacket s kind c q ch (some ⟨c, slot⟩)) }
     (sendPacket (beginWait s1 c slot .waiting (.packet d s1.fresh)) kind q ch ⟨c, slot⟩) c slot t .waiting (.packet d s.fresh) s.watches ∧
   .threadPacketArrive s.fresh ∈ (sendPacket (beginWait s1 c slot .waiting (.packet d s1.fresh)) kind q ch ⟨c, slot⟩).agenda := by
  have hf : s1.fresh = s.fresh := B.field (fun s => s.fresh) (fun _ => rfl)
  have hp : s1.packets = s.packets := B.field (fun s => s.packets) (fun _ => rfl)
  have L := Left.of (i := i) B s.watches .waiting (.packet d s.fresh)
  have hs : ({ s1 with watches := s.watches } : State) = s1 := by
    have := B.watches; rw [← this]
  rw [hs] at L
  rw [hf]
  obtain ⟨v, hv⟩ : ∃ v, v = beginWait s1 c slot .waiting (.packet d s.fresh) := ⟨_, rfl⟩
  rw [← hv] at L ⊢
  have vf : v.fresh = s.fresh := by have e := congrArg State.fresh L.rest; exact e
  have vp : v.packets = s.packets := by have e := congrArg State.packets L.rest; exact e
  have e : sendPacket v kind q ch ⟨c, slot⟩ = ({ v with fresh := s.fresh + 1, packets := Map.set s.packets s.fresh (buildPacket s kind c q ch (some ⟨c, slot⟩)) } : State).post (.threadPacketArrive s.fresh) := by
    have vk : v.pkg = s.pkg := by have e := congrArg State.pkg L.rest; exact e
    have vo : (v.core c).owner = (s.core c).owner := by have e := congrArg Core.owner L.core; exact e
    have vb : buildPacket v kind c q ch (some ⟨c, slot⟩) = buildPacket s kind c q ch (some ⟨c, slot⟩) := by
      unfold buildPacket packetWords; simp only [vf, vk, vo]
    unfold sendPacket State.bump State.post; simp only [vf, vp, vb]
  rw [e]
  refine ⟨⟨L.thread, L.others, L.rot, L.core, L.cores, L.watches, ?_⟩, by simp [State.post]⟩
  have e := congrArg (fun x : State => ({ x with fresh := s.fresh + 1, packets := Map.set s.packets s.fresh (buildPacket s kind c q ch (some ⟨c, slot⟩)) } : State)) L.rest
  exact e

theorem mem_set_ne {α : Type} {m : Map α} {a : Nat} {x : α} {e : Nat × α} (h : e ∈ m) (hn : e.1 ≠ a) : e ∈ Map.set m a x := by
  induction m with
  | nil => cases h
  | cons y m ih =>
    obtain ⟨k, v⟩ := y
    unfold Map.set
    split
    · exact List.mem_cons_of_mem _ h
    · split
      · rcases List.mem_cons.1 h with rfl | h
        · rename_i hk; exact absurd hk hn
        · exact List.mem_cons_of_mem _ h
      · rcases List.mem_cons.1 h with rfl | h
        · exact List.mem_cons_self ..
        · exact List.mem_cons_of_mem _ (ih h)
theorem mem_erase_ne {α : Type} {m : Map α} {a : Nat} {e : Nat × α} (h : e ∈ m) (hn : e.1 ≠ a) : e ∈ Map.erase m a := by
  induction m with
  | nil => cases h
  | cons y m ih =>
    obtain ⟨k, v⟩ := y
    unfold Map.erase
    split
    · rcases List.mem_cons.1 h with rfl | h
      · rename_i hk; exact absurd hk hn
      · exact ih h
    · rcases List.mem_cons.1 h with rfl | h
      · exact List.mem_cons_self ..
      · exact List.mem_cons_of_mem _ (ih h)

theorem Left.field {i : Instr} {s s1 : State} {c slot : Nat} {t : Thread} {code : TCode} {w : Wait} {ws : List Watch} (L : Left i s s1 c slot t code w ws) {α : Type} (f : State → α) (hf : ∀ s, f { s with cores := [], agenda := [], free := 0, watches := [] } = f s) : f s1 = f s := by
  rw [← hf s1, ← hf s, L.rest]

/-- The present value of a line (R224) is that of the caches, the messages and the home. -/
theorem lineNow_congr {s v : State} (hk : ∀ x key, l1Dirty (v.core x) key = l1Dirty (s.core x) key)
    (hr : { v with cores := [], agenda := [], free := 0, watches := [] } = { s with cores := [], agenda := [], free := 0, watches := [] })
    (pa : Nat) : lineNow v pa = lineNow s pa := by
  have h1 := congrArg State.rdc hr
  have h2 := congrArg State.rdcX hr
  have h3 := congrArg State.msgs hr
  have h4 := congrArg State.leases hr
  have h5 := congrArg State.mem hr
  have h6 := congrArg State.poison hr
  have h7 := congrArg State.dir hr
  have h8 := congrArg State.pkg hr
  simp only at h1 h2 h3 h4 h5 h6 h7 h8
  have hd : ∀ a key, dirtyOf v a key = dirtyOf s a key := by
    intro a key
    unfold dirtyOf rdcOf rdcXOf
    simp only [hk, h1, h2]
  unfold lineNow lineDirty flyingData keptGen leaseOf dirOf lineKey
  simp only [hd, h3, h4, h5, h6, h7, h8]

/-- A piece of a page that its waystation has cached: its request is a message to its home (R107, R216). -/
theorem join_sent {i : Instr} {s v : State} {c slot : Nat} {t : Thread} {a0 : Access} {ea : Word} {e : Tlb} {pkg pa : Nat}
    (L : Left i s v c slot t .waiting (.access a0) s.watches) (ha : a0.units = [piece ea 16 .join]) (hb : a0.bad = none) (hauto : a0.auto = false)
    (hr : t.relaxed = []) (ht : tlbFind (wsOf s (coreWs s c)) t.part t.proc ea = some e) (hpk : e.pkg = s.pkg)
    (hc : checkPage s t.part ea (.cell false) e = .ok (.page .coherent pkg pa)) :
    ∃ acc, acc.fin = a0.fin ∧ acc.units = [{ va := ea, size := 16, op := .join, place := some (.page .coherent pkg pa), sent := true, out := none }] ∧
      .amo (pa / 64) c ∈ (pump v ⟨c, slot⟩ none).agenda ∧
      Left i { s with msgs := s.msgs ++ [{ mkMsg s .amo (pa / 64) c with thread := some ⟨c, slot⟩ }] } (pump v ⟨c, slot⟩ none) c slot t .waiting (.access acc) s.watches := by
  have h0 : pump v ⟨c, slot⟩ none = pump v ⟨c, slot⟩ none := rfl
  have hws : wsOf v = wsOf s := L.field (fun s => wsOf s) (fun _ => rfl)
  have how : (v.core c).owner = (s.core c).owner := by have e := congrArg Core.owner L.core; exact e
  have hparts : v.parts = s.parts := L.field (fun s => s.parts) (fun _ => rfl)
  have hcw : coreWs v c = coreWs s c := by unfold coreWs coreLeaf State.part; rw [how, hparts]
  have hck : checkPage v t.part ea (.cell false) e = .ok (.page .coherent pkg pa) := by
    have h0 : v.pkg = s.pkg := L.field (fun s => s.pkg) (fun _ => rfl)
    have hl : ∀ x key, l1Dirty (v.core x) key = l1Dirty (s.core x) key := by
      intro x key
      by_cases hx : x = c
      · subst hx
        have a := congrArg Core.l1 L.core
        have b := congrArg Core.xbuf L.core
        simp only at a b
        unfold l1Dirty; rw [a, b]
      · rw [L.cores x hx]
    have h1 : reach v t.part e.pkg = reach s t.part e.pkg := by
      unfold reach State.part
      simp only [h0, hparts, lineNow_congr hl L.rest]
    have h2 : rangeOk v = rangeOk s := L.field (fun s => rangeOk s) (fun _ => rfl)
    have h3 : v.plat = s.plat := L.field (fun s => s.plat) (fun _ => rfl)
    rw [← hc]; unfold checkPage; rw [h1, h2, h3]
  have hmsg : mkMsg v .amo (pa / 64) c = mkMsg s .amo (pa / 64) c := L.field (fun s => mkMsg s .amo (pa / 64) c) (fun _ => rfl)
  have hms : v.msgs = s.msgs := L.field (fun s => s.msgs) (fun _ => rfl)
  obtain ⟨tv, htv⟩ : ∃ tv, tv = { past i 4 t with code := .waiting, wait := .access a0, sleepFor := 0, since := (s.core c).cyc } := ⟨_, rfl⟩
  have hT : v.thread? c slot = some tv := by rw [htv]; exact L.thread
  have ep : tv.part = t.part := by rw [htv]; rfl
  have eq : tv.proc = t.proc := by rw [htv]; rfl
  have er : tv.relaxed = [] := by rw [htv]; exact hr
  have ew : accOf tv none = some a0 := by rw [htv]; rfl
  obtain ⟨u0, hu0⟩ : ∃ u0 : MUnit, u0 = { va := ea, size := 16, op := .join, place := some (.page .coherent pkg pa), sent := false, out := none } := ⟨_, rfl⟩
  have htr : translateUnits v c tv a0 a0.units = .ok ([u0], none, e.mig) := by
    rw [ha]
    simp only [translateUnits, piece, hws, hcw, ep, eq, ht, Access.kind, hck, Bool.or_false, hu0]
  have hmig : ∀ s t b, autoMigrates s t a0 b = false := by
    intro s t b; unfold autoMigrates; rw [hauto]; rfl
  obtain ⟨t1, ht1⟩ : ∃ t1, t1 = putAcc tv none { a0 with units := [u0] } := ⟨_, rfl⟩
  obtain ⟨v1, hv1⟩ : ∃ v1, v1 = v.setThread c slot t1 := ⟨_, rfl⟩
  have hsend : sendUnits v1 ⟨c, slot⟩ none t1 [u0] = (sendMsg v1 { mkMsg v1 .amo (pa / 64) c with thread := some ⟨c, slot⟩ }, [{ u0 with sent := true }], false) := by
    have hmw : mustWait v1 ⟨c, slot⟩ t1 none u0 (.page .coherent pkg pa) = false := by
      unfold mustWait
      have : t1.relaxed = [] := by rw [ht1]; exact er
      rw [this, hu0]; rfl
    have e1 : u0.sent = false := by rw [hu0]
    have e2 : u0.out = none := by rw [hu0]
    have e3 : u0.place = some (.page .coherent pkg pa) := by rw [hu0]
    have e4 : u0.op = .join := by rw [hu0]
    have hy : sendUnit v1 ⟨c, slot⟩ none t1.part u0 = (sendMsg v1 { mkMsg v1 .amo (pa / 64) c with thread := some ⟨c, slot⟩ }, .sent) := by
      unfold sendUnit
      simp only [e3, e4, UnitOp.isWatch, Bool.false_eq_true, if_false]
      rfl
    have en : u0.out.isSome = false := by rw [e2]; rfl
    rw [sendUnits, if_neg (by simp only [e1, en, e3, hmw]; simp), hy]
    rfl
  have hif : (if (Option.isNone (none : Option Nat) && autoMigrates v tv a0 e.mig) = true then tryMove v ⟨c, slot⟩ tv [u0] else none) = none := by
    rw [hmig]; rfl
  have htear : List.flatMap tear [u0] = [u0] := by rw [hu0]; rfl
  have hp : pump v ⟨c, slot⟩ none = modAcc (sendMsg v1 { mkMsg v1 .amo (pa / 64) c with thread := some ⟨c, slot⟩ }) ⟨c, slot⟩ none (fun a => { a with units := [{ u0 with sent := true }], checked := true }) := by
    unfold pump
    simp only [hT, ew, htr]
    split
    · rename_i x hx; rw [hb] at hx; cases hx
    · split
      · rename_i x hx
        rw [hif] at hx; cases hx
      · simp only [htear, ← ht1, ← hv1, hsend]; rfl
  have hm1 : mkMsg v1 .amo (pa / 64) c = mkMsg s .amo (pa / 64) c := by rw [← hmsg, hv1]; rfl
  obtain ⟨v2, hv2⟩ : ∃ v2, v2 = sendMsg v1 { mkMsg v1 .amo (pa / 64) c with thread := some ⟨c, slot⟩ } := ⟨_, rfl⟩
  have hT1 : v1.thread? c slot = some t1 := by rw [hv1]; simp [State.thread?, State.core_setThread, Map.get?_set]
  have hT2 : v2.thread? c slot = some t1 := by rw [hv2]; exact hT1
  have ew1 : accOf t1 none = some { a0 with units := [u0] } := by rw [ht1]; rfl
  have hp2 : pump v ⟨c, slot⟩ none = v2.setThread c slot (putAcc t1 none { a0 with units := [{ u0 with sent := true }], checked := true }) := by
    rw [hp, ← hv2]; unfold modAcc; simp only [hT2, ew1]
  refine ⟨{ a0 with units := [{ u0 with sent := true }], checked := true }, rfl, by rw [hu0], ?_, ?_⟩
  · rw [hp2, hv2]
    unfold sendMsg
    simp [State.post, mkMsg]
  · have hcore2 : v2.core c = { v.core c with threads := Map.set (v.core c).threads slot t1 } := by
      rw [hv2]; show v1.core c = _; rw [hv1]; simp [State.core_setThread]
    have hcorex : ∀ x, x ≠ c → v2.core x = v.core x := by
      intro x hx; rw [hv2]; show v1.core x = _; rw [hv1]; simp [State.core_setThread, hx]
    rw [hp2]
    refine ⟨?_, ?_, ?_, ?_, ?_, ?_, ?_⟩
    · simp only [State.thread?, State.core_setThread, if_true, Map.get?_set]
      rw [ht1, htv]; rfl
    · intro x hx
      simp only [State.thread?, State.core_setThread, if_true, Map.get?_set, hx, if_false, hcore2]
      exact L.others x hx
    · simp only [State.core_setThread, if_true, hcore2]; exact L.rot
    · simp only [State.core_setThread, if_true, hcore2]; exact L.core
    · intro x hx
      simp only [State.core_setThread, hx, if_false, hcorex x hx]; exact L.cores x hx
    · rw [← L.watches, hv2]; show v1.watches = _; rw [hv1]; rfl
    · have e := congrArg (fun x : State => ({ x with msgs := s.msgs ++ [{ mkMsg s .amo (pa / 64) c with thread := some ⟨c, slot⟩ }] } : State)) L.rest
      refine Eq.trans ?_ e
      rw [hv2]; unfold sendMsg; rw [hm1, hv1]
      show ({ (v.setThread c slot t1) with msgs := v.msgs ++ _, cores := [], agenda := [], free := 0, watches := [] } : State) = _
      rw [hms]; rfl

theorem Waits.of_thread {s s1 : State} {c slot : Nat} {t : Thread} {w : Wait} (h : Waits s c slot t w) (h1 : s1.thread? c slot = s.thread? c slot) : Waits s1 c slot t w :=
  ⟨h1.trans h.thread, h.wait, h.code, h.notStepped, h.here⟩
/-- The results of an act, written, leave every other thread alone. -/
theorem Waits.finish_ne {s : State} {c slot : Nat} {t : Thread} {w : Wait} (h : Waits s c slot t w) (d : Nat) (v : Word) {q x : Nat} (hn : ¬(q = c ∧ x = slot)) :
   (finishWait (writeG s c slot d v) c slot).thread? q x = s.thread? q x := by
  refine finishWait_ne (writeG_thread h.thread d v) ?_ ?_ ?_ hn ?_
  · rcases h.code with hc | hc
    · left; rw [← hc]; unfold Thread.setG; split <;> rfl
    · right; rw [← hc]; unfold Thread.setG; split <;> rfl
  · rw [← h.notStepped]; unfold Thread.setG; split <;> rfl
  · rw [← h.here]; unfold Thread.setG; split <;> rfl
  · exact writeG_thread_ne _ _ _ _ _ hn

theorem Waits.writeG {s : State} {c slot : Nat} {t : Thread} {w : Wait} (h : Waits s c slot t w) (d : Nat) (v : Word) : Waits (writeG s c slot d v) c slot (t.setG d v) w := by
  refine ⟨writeG_thread h.thread d v, ?_, ?_, ?_, ?_⟩
  · rw [← h.wait]; unfold Thread.setG; split <;> rfl
  · have e : (t.setG d v).code = t.code := by unfold Thread.setG; split <;> rfl
    rw [e]; exact h.code
  · rw [← h.notStepped]; unfold Thread.setG; split <;> rfl
  · rw [← h.here]; unfold Thread.setG; split <;> rfl

theorem actAt_of {s : State} {a : TAct} {q : Nat} {u : Thread} (h1 : hPart a.handle = a.part) (h2 : ∀ r ∈ a.op.needs, a.rights.getLsbD r = true) (h3 : hPkg a.handle = s.pkg)
    (h4 : namedCore s a.part a.handle = some q) (h5 : s.thread? q (hSlot a.handle) = some u) (h6 : genOf (s.core q) (hSlot a.handle) = hGen a.handle) :
    actAt s a = actOn s q (hSlot a.handle) u a.op := by
  have : actRefused a = false := by
    unfold actRefused
    rw [h1, any_false_of (fun r hr => by rw [h2 r hr]; rfl)]; simp
  unfold actAt
  simp only [this, h3, h4, h5, h6, bne_self_eq_false, Bool.false_eq_true, if_false]

theorem act_of {s s1 : State} {c slot : Nat} {a : TAct} {st : Nat} {v : Word} (hw : waitOf s ⟨c, slot⟩ = some (.tact a.id)) (hf : s.acts.find? (fun y => y.id = a.id) = some a)
   (h : actAt s a = (s1, .done st v)) : exec (.threadStateAct c slot) s = .next (actDone s1 ⟨c, slot⟩ a st v) := by
  rw [exec_threadStateAct]; unfold execThreadStateAct; simp only [hw, hf, h]

theorem stopThread_thread {s : State} {c slot : Nat} {t : Thread} (h : s.thread? c slot = some t) (hc : t.code = .ready ∨ t.code = .running ∨ t.code = .waiting ∨ t.code = .sleeping) :
   (stopThread s c slot).thread? c slot = some { t with code := .stopped, slept := t.code = .sleeping, since := (s.core c).cyc } ∧
   ∀ q x, ¬(q = c ∧ x = slot) → (stopThread s c slot).thread? q x = s.thread? q x := by
  have e : ∀ b : Bool, ∀ q x, (postCtx ((s.setThread c slot { t with code := .stopped, slept := b, since := (s.core c).cyc }).modCore c
        (fun k => { leaveRot k slot with ctxWait := k.ctxWait.filter (· != .fill slot) })) c).thread? q x = if q = c ∧ x = slot then some { t with code := .stopped, slept := b, since := (s.core c).cyc } else s.thread? q x := by
    intro b q x
    unfold State.thread?
    rw [postCtx_core]
    refine (thread?_modCore ?_ _ _).trans ?_
    · rfl
    · rw [State.thread?_setThread]; rfl
  unfold stopThread
  simp only [h]
  rcases hc with hc | hc | hc | hc <;> simp only [hc] <;>
    exact ⟨by rw [e]; simp, fun q x hn => by rw [e, if_neg hn]⟩

theorem foldl_post {α : Type} (f : α → Event) (l : List α) (s : State) :
    (l.foldl (fun s a => s.post (f a)) s).agenda = s.agenda ++ l.map f ∧ { l.foldl (fun s a => s.post (f a)) s with agenda := [] } = { s with agenda := [] } := by
  induction l generalizing s with
  | nil => simp
  | cons a l ih =>
    obtain ⟨h1, h2⟩ := ih (s.post (f a))
    refine ⟨?_, ?_⟩
    · rw [List.foldl_cons, h1]; simp [State.post]
    · rw [List.foldl_cons, h2]; rfl

theorem finishWait_lock {s : State} {c slot : Nat} {L : LockStep} (h : (s.core c).lock = some L) (ha : L.after.contains slot = false) :
    ((finishWait s c slot).core c).lock = (s.core c).lock := by
  have h1 : postCommit s c slot = s := by
    unfold postCommit; simp only [h, ha, Bool.false_eq_true, if_false]
  have h2 : ∀ x, (postWaiting s).core x = s.core x := by intro x; unfold State.core; rw [postWaiting_cores]
  have h3 : ∀ (s : State) t, ((s.setThread c slot t).core c).lock = (s.core c).lock := by intro s t; rw [State.core_setThread]; simp
  have h4 : ∀ (s : State), ((makeReady s c slot).core c).lock = (s.core c).lock := by
    intro s; unfold makeReady; rw [State.core_modCore_self]
    show ((s.modThread c slot _).core c).lock = _
    cases ht : s.thread? c slot with
    | none => unfold State.modThread; simp only [ht]
    | some t => rw [State.modThread_eq ht, h3]
  have h5 : ∀ (s : State) t, ((wakeUp s c slot t).core c).lock = (s.core c).lock := by
    intro s t; unfold wakeUp joinFill
    split
    · rw [postCtx_core, State.core_modCore_self]; exact h3 _ _
    · rw [h4, h3]
  have h6 : ∀ (s : State) f, ((s.modThread c slot f).core c).lock = (s.core c).lock := by
    intro s f
    cases ht : s.thread? c slot with
    | none => unfold State.modThread; simp only [ht]
    | some t => rw [State.modThread_eq ht, h3]
  have h7 : ∀ (s : State) e, ((s.post e).core c).lock = (s.core c).lock := fun _ _ => rfl
  unfold finishWait
  rw [h1]
  simp only
  cases ht : (postWaiting s).thread? c slot with
  | none => simp only [h2]
  | some t =>
    simp only
    split
    · rw [h7]
      split
      · rw [h6, h3, h2]
      · rw [h3, h2]
    · split
      · rw [h5, h2]
      · rw [h5, h2]
      · rw [h5, h2]
      · rw [h3, h2]

theorem barAct_w0 {u : State} {p : Place} {e a : Nat} (hw : placeWordAt u p 0 = BitVec.ofNat 64 (e + 2 ^ 32 * a)) (he : e < 2 ^ 32) (ha : a < 2 ^ 32 - 1) :
   bitsOf (placeWordAt u p 0).toNat 0 32 = e ∧ bitsOf (placeWordAt u p 0).toNat 32 32 = a := by
  have hw0 : (placeWordAt u p 0).toNat = e + 2 ^ 32 * a := by
    rw [hw, BitVec.toNat_ofNat]; exact Nat.mod_eq_of_lt (by omega)
  rw [hw0]; unfold bitsOf; omega

theorem barAct_nums {e a k kd x M : Nat} (h1 : 1 < M) (he : e < M) (ha : a < M - 1) (hkd : kd < 3)
   (hk : k = (if kd = 2 then a + 1 else a)) (hx : x = (if kd = 0 then (e + 1) % M else if kd = 1 then (e + M - 1) % M else e)) :
   (e + (if kd = 0 then 1 else 0) + (M - (if kd = 1 then 1 else 0) % M)) % M = x ∧
   (a + (if kd = 2 then 1 else 0)) % M = k := by
  subst hk hx
  rcases kd with _ | _ | _ | n
  · simp [Nat.zero_mod]; rw [Nat.mod_eq_of_lt (by omega)]
  · have h : e + (M - 1) = e + M - 1 := by omega
    simp [Nat.mod_eq_of_lt h1, h]
    exact Nat.mod_eq_of_lt (Nat.lt_of_lt_of_le ha (Nat.sub_le _ _))
  · refine ⟨?_, Nat.mod_eq_of_lt (show a + 1 < M by omega)⟩
    simp [Nat.zero_mod, Nat.mod_eq_of_lt he]
  · omega

theorem barAct_less {u : State} {p : Place} {e a k kd x : Nat} (hw : placeWordAt u p 0 = BitVec.ofNat 64 (e + 2 ^ 32 * a)) (he : e < 2 ^ 32) (ha : a < 2 ^ 32 - 1) (hkd : kd < 3)
   (hk : k = (if kd = 2 then a + 1 else a)) (hx : x = (if kd = 0 then (e + 1) % 2 ^ 32 else if kd = 1 then (e + 2 ^ 32 - 1) % 2 ^ 32 else e)) (hlt : k < x) :
   barAct u kd p 0#64 = writePlace u 0 p (wordBytes (BitVec.ofNat 64 (x + 2 ^ 32 * k))) false := by
  obtain ⟨b1, b2⟩ := barAct_w0 hw he ha
  obtain ⟨n1, n2⟩ := barAct_nums (M := 2 ^ 32) (by decide) he ha hkd hk hx
  unfold barAct barActs
  simp only [b1, b2, n1, n2, bne_self_eq_false, Bool.and_false, Bool.false_eq_true, if_false, Nat.not_le.mpr hlt, decide_false]

theorem barAct_done {u : State} {p : Place} {e a k kd x : Nat} (hw : placeWordAt u p 0 = BitVec.ofNat 64 (e + 2 ^ 32 * a)) (he : e < 2 ^ 32) (ha : a < 2 ^ 32 - 1) (hkd : kd < 3)
   (hk : k = (if kd = 2 then a + 1 else a)) (hx : x = (if kd = 0 then (e + 1) % 2 ^ 32 else if kd = 1 then (e + 2 ^ 32 - 1) % 2 ^ 32 else e)) (hle : x ≤ k) :
   barAct u kd p 0#64 = (let w := writePlace u 0 p (wordBytes (BitVec.ofNat 64 x)) false
           writePlace w 0 (p.add 8) (wordBytes (nextPhase (placeWordAt w p 1))) false) := by
  obtain ⟨b1, b2⟩ := barAct_w0 hw he ha
  obtain ⟨n1, n2⟩ := barAct_nums (M := 2 ^ 32) (by decide) he ha hkd hk hx
  unfold barAct barActs
  simp only [b1, b2, n1, n2, bne_self_eq_false, Bool.and_false, Bool.false_eq_true, if_false, hle, decide_true, if_true, Nat.mul_zero, Nat.add_zero]

theorem port_modPort (s : State) (p : Nat) (f : Port → Port) (q : Nat) : (s.modPort p f).port q = if q = p then f (s.port p) else s.port q := by
  unfold State.modPort State.port
  simp only [Map.get?_set]
  split <;> rfl

theorem port_post (s : State) (e : Event) (q : Nat) : (s.post e).port q = s.port q := rfl
theorem Map.mem_of_get? {α : Type} {m : Map α} {a : Nat} {x : α} (h : Map.get? m a = some x) : (a, x) ∈ m := by
  induction m with
  | nil => cases h
  | cons y m ih =>
    obtain ⟨k, v⟩ := y
    unfold Map.get? at h
    split at h
    · cases h; subst_vars; simp
    · exact List.mem_cons_of_mem _ (ih h)

theorem mem_allThreads {s : State} {c x : Nat} {t : Thread} (h : s.thread? c x = some t) : ((⟨c, x⟩ : TRef), t) ∈ allThreads s := by
  unfold State.thread? State.core at h
  unfold allThreads
  rw [List.mem_flatMap]
  cases hk : Map.get? s.cores c with
  | none => rw [hk] at h; cases h
  | some k =>
    rw [hk] at h
    exact ⟨(c, k), Map.mem_of_get? hk, List.mem_map.2 ⟨(x, t), Map.mem_of_get? h, rfl⟩⟩

theorem recheckFences_none {s : State} (h : ∀ x ∈ allThreads s, x.2.wait = .idle) (l : List TRef) : recheckFences s l = s := by
  induction l with
  | nil => rfl
  | cons r l ih =>
    have : recheckFence s r = s := by
      unfold recheckFence
      cases ht : s.thread? r.core r.slot with
      | none => rfl
      | some t =>
        have := h _ (mem_allThreads ht)
        simp only at this ⊢
        rw [this]
    unfold recheckFences
    rw [this, ih]

theorem faultWaiters_none {s : State} {p : Nat} {l : List (TRef × Thread)} (h : ∀ x ∈ l, x.2.wait = .idle) : faultWaiters s p l = s := by
  induction l with
  | nil => rfl
  | cons x l ih =>
    obtain ⟨r, t⟩ := x
    have : cwWaits t p = none := by
      have := h (r, t) (by simp)
      unfold cwWaits; simp only at this; rw [this]
    unfold faultWaiters
    simp only [this]
    exact ih (fun x hx => h x (by simp [hx]))

theorem Becomes.modPort {s s1 : State} {c slot : Nat} {t : Thread} (B : Becomes s s1 c slot t) (p : Nat) (f : Port → Port) : Becomes (s.modPort p f) (s1.modPort p f) c slot t := by
  have hp : s1.ports = s.ports := B.field (fun s => s.ports) (fun _ => rfl)
  refine ⟨B.thread, B.others, B.core, B.cores, ?_, B.events⟩
  have e := congrArg (fun s : State => s.modPort p f) B.rest
  exact e

theorem Left.modPort {i : Instr} {s s1 : State} {c slot : Nat} {t : Thread} {code : TCode} {w : Wait} {ws : List Watch} (L : Left i s s1 c slot t code w ws) (p : Nat) (f : Port → Port) : Left i (s.modPort p f) (s1.modPort p f) c slot t code w ws := by
  refine ⟨L.thread, L.others, L.rot, L.core, L.cores, L.watches, ?_⟩
  have e := congrArg (fun s : State => s.modPort p f) L.rest
  exact e

theorem Becomes.cwTarget {s s1 : State} {c slot : Nat} {t : Thread} (B : Becomes s s1 c slot t) (part : Nat) (va : Word) : Machine.cwTarget s1 part va = Machine.cwTarget s part va := by
  have hp : s1.port = s.port := B.field (fun s => s.port) (fun _ => rfl)
  unfold Machine.cwTarget; rw [hp]

theorem plain_modPort {s : State} {c slot : Nat} {t : Thread} (h : Plain s c slot t) (p : Nat) (f : Port → Port) : Plain (s.modPort p f) c slot t := ⟨h.notStepped, h.noCommit⟩

end Sys2Proof
end

