-- ==== Sys2Proof/Laws/Form.lean ====
section
/-!
SUPPORT. Laws/Form.lean: the canonical form of the memories (MemOk) is kept by the operations every act is made of.
-/
namespace Sys2Proof.Machine
open Sys2Proof

theorem mapGet_mem {α : Type} {m : Map α} {a : Nat} {x : α} (h : Map.get? m a = some x) : (a, x) ∈ m := by
  induction m with
  | nil => cases h
  | cons y m ih =>
    obtain ⟨k, v⟩ := y
    simp only [Map.get?] at h
    split at h
    · rename_i e; cases h; subst e; exact List.mem_cons_self
    · exact List.mem_cons_of_mem _ (ih h)

theorem mem_mapSet {α : Type} {m : Map α} {a : Nat} {v : α} {x : Nat × α} (h : x ∈ Map.set m a v) : x = (a, v)
    ∨ x ∈ m := by
  induction m with
  | nil => simpa [Map.set] using h
  | cons y m ih =>
    obtain ⟨k, w⟩ := y
    simp only [Map.set] at h
    split at h
    · simpa using h
    · split at h
      · rcases List.mem_cons.1 h with h | h
        · exact .inl h
        · exact .inr (List.mem_cons_of_mem _ h)
      · rcases List.mem_cons.1 h with h | h
        · exact .inr (h ▸ List.mem_cons_self)
        · exact (ih h).imp id (List.mem_cons_of_mem _)

/-- An outcome whose next state, if it has one, has its memories in form. -/
inductive OutOk : Host.Outcome State Fault Refusal → Prop where
  | next {s : State} : MemOk s → OutOk (.next s)
  | fault (f : Fault) : OutOk (.fault f)
  | refused (r : Refusal) : OutOk (.refused r)

/-- The state an option holds, if it holds one, has its memories in form. -/
inductive OptOk : Option State → Prop where
  | none : OptOk none
  | some {s : State} : MemOk s → OptOk (some s)

theorem opt_get {o : Option State} {s : State} (e : o = Option.some s) (h : OptOk o) : MemOk s := by
  cases h with
  | none => cases e
  | some h => cases e; exact h

theorem outOk_get {o : Host.Outcome State Fault Refusal} {s : State} (e : o = .next s) (h : OutOk o) : MemOk s := by
  subst e; cases h with
  | next h => exact h

/-- The state a full-and-empty access makes, if it makes one, has its memories in form. -/
inductive ExcOk : Except FaultInfo (Option State) → Prop where
  | error {f : FaultInfo} : ExcOk (.error f)
  | none : ExcOk (.ok none)
  | some {s : State} : MemOk s → ExcOk (.ok (some s))

theorem exc_get {o : Except FaultInfo (Option State)} {s : State} (e : o = .ok (.some s)) (h : ExcOk o) :
    MemOk s := by
  subst e; cases h with
  | some h => exact h

theorem memOk_mem {s : State} (h : MemOk s) : s.mem.wf = true := h.1
theorem memOk_host {s : State} (h : MemOk s) : s.host.wf = true := h.2.1

theorem undoWrites_wf {m : Mem} (h : m.wf = true) (l : List (Nat × Word)) : (undoWrites m l).wf = true := by
  induction l generalizing m with
  | nil => exact h
  | cons x l ih => exact ih (Mem.writeN_wf h _ _)

theorem memOk_seq {s : State} {p : Prop} (h : MemOk s) (hp : MemOk s → p) : p := hp h

theorem wf_seq {k : Core} {p : Prop} (h : k.spad.wf = true) (hp : k.spad.wf = true → p) : p := hp h

theorem fun_seq {f : State → State} {p : Prop} (h : ∀ s, MemOk s → MemOk (f s)) (hp : (∀ s, MemOk s → MemOk (f s))
    → p) : p :=
  hp h

theorem optOk_map {α : Type} {o : Option α} {f : α → State} (h : ∀ x, MemOk (f x)) : OptOk (o.map f) := by
  cases o with
  | none => exact .none
  | some x => exact .some (h x)

theorem optOk_getD {o : Option State} {s : State} (h : OptOk o) (hs : MemOk s) : MemOk (o.getD s) := by
  cases h with
  | none => exact hs
  | some h => exact h

theorem memOk_core {s : State} (h : MemOk s) (c : Nat) : (s.core c).spad.wf = true := by
  unfold State.core
  cases hg : Map.get? s.cores c with
  | none => rfl
  | some k => exact h.2.2.1 _ (mapGet_mem hg)

theorem pair_fst {α : Type} {x : State × α} {s' : State} {r : α} (e : x = (s', r)) (h : MemOk x.1) : MemOk s' := by
  subst e; exact h

theorem foldl_memOk {β : Type} {g : State → β → State} (hg : ∀ s b, MemOk s → MemOk (g s b)) (l : List β) {s : State}
    (h : MemOk s) : MemOk (l.foldl g s) := by
  induction l generalizing s with
  | nil => exact h
  | cons b l ih => exact ih (hg s b h)

theorem foldr_memOk {β : Type} {g : β → State → State} (hg : ∀ b s, MemOk s → MemOk (g b s)) (l : List β) {s : State}
    (h : MemOk s) : MemOk (l.foldr g s) := by
  induction l with
  | nil => exact h
  | cons b l ih => exact hg b _ ih

theorem foldl_fst_memOk {α β : Type} {g : State × α → β → State × α} (hg : ∀ x b, MemOk x.1 → MemOk (g x b).1) (l :
    List β)
    {x : State × α} (h : MemOk x.1) : MemOk (l.foldl g x).1 := by
  induction l generalizing x with
  | nil => exact h
  | cons b l ih => exact ih (hg x b h)

theorem foldl_optOk {β : Type} {g : Option State → β → Option State} (hg : ∀ s b, OptOk s → OptOk (g s b)) (l :
    List β)
    {s : Option State} (h : OptOk s) : OptOk (l.foldl g s) := by
  induction l generalizing s with
  | nil => exact h
  | cons b l ih => exact ih (hg s b h)

/-- A state whose four memories are in form, with anything else. -/
theorem memOk_of {s s' : State} (h : MemOk s) (hm : s'.mem = s.mem ∨ s'.mem.wf = true)
    (hh : s'.host = s.host ∨ s'.host.wf = true) (hc : s'.cores = s.cores ∨ ∀ x ∈ s'.cores, x.2.spad.wf = true)
    (hp : s'.ports = s.ports ∨ ∀ x ∈ s'.ports, x.2.replica.wf = true) : MemOk s' :=
  ⟨hm.elim (fun e => e ▸ h.1) id, hh.elim (fun e => e ▸ h.2.1) id, hc.elim (fun e => e ▸ h.2.2.1) id,
    hp.elim (fun e => e ▸ h.2.2.2) id⟩

/-- Everything but the four memories may change. -/
theorem memOk_with {s : State}
    (poison_ : List Nat) (hostLines_ : Map CLine) (dir_ : Map DirEntry) (rdc_ rdcX_ : Map (Map CLine))
    (msgs_ : List Msg) (watches_ : List Watch) (entryWait_ : List (TRef × Place)) (leases_ : Map Lease)
    (ws_ : Map (List Tlb)) (walks_ : List Walk) (invals_ : List Inval) (parts_ : Map Part)
    (launches_ : Map Launch) (groups_ : Map Group) (replays_ : List Replay) (subs_ : List Submission)
    (queries_ : List Query) (packets_ : Map Packet) (acts_ : List TAct) (barMsgs_ : List BarMsg)
    (cmds_ : Map Cmd) (out_ : Map FabricPacket) (inbox_ : Map FabricPacket) (banks_ : Map Bank)
    (plat_ : Platform) (pkg_ : Nat) (now_ : Nat) (fresh_ : Nat) (free_ : Nat) (turn_ : Nat)
    (blocked_ : List Event) (agenda_ : List Event) (sched_ : List Pick)
    (h : MemOk s) :
    MemOk { s with
      poison := poison_, hostLines := hostLines_, dir := dir_, rdc := rdc_, rdcX := rdcX_, msgs := msgs_,
      watches := watches_, entryWait := entryWait_, leases := leases_, ws := ws_, walks := walks_,
      invals := invals_, parts := parts_, launches := launches_, groups := groups_, replays := replays_,
      subs := subs_, queries := queries_, packets := packets_, acts := acts_, barMsgs := barMsgs_,
      cmds := cmds_, out := out_, inbox := inbox_, banks := banks_, plat := plat_, pkg := pkg_, now := now_,
      fresh := fresh_, free := free_, turn := turn_, blocked := blocked_, agenda := agenda_, sched := sched_ } := h

theorem memOk_setMem {s : State} {m : Mem} {l : List Nat} (h : MemOk s) (hm : m.wf = true) :
    MemOk { s with mem := m, poison := l } := ⟨hm, h.2⟩

theorem memOk_setHost {s : State} {m : Mem} (h : MemOk s) (hm : m.wf = true) : MemOk { s with host := m } :=
  ⟨h.1, hm, h.2.2⟩

theorem memOk_mapCores {s : State} {g : Nat × Core → Nat × Core} (h : MemOk s)
    (hg : ∀ x, x.2.spad.wf = true → (g x).2.spad.wf = true) : MemOk { s with cores := s.cores.map g } :=
  ⟨h.1, h.2.1, fun _ hx => by obtain ⟨y, hy, rfl⟩ := List.mem_map.1 hx; exact hg y (h.2.2.1 y hy), h.2.2.2⟩

theorem memOk_mapPorts {s : State} {g : Nat × Port → Nat × Port} (h : MemOk s)
    (hg : ∀ x, x.2.replica.wf = true → (g x).2.replica.wf = true) : MemOk { s with ports := s.ports.map g } :=
  ⟨h.1, h.2.1, h.2.2.1, fun _ hx => by obtain ⟨y, hy, rfl⟩ := List.mem_map.1 hx; exact hg y (h.2.2.2 y hy)⟩

/-- The cores of a state, changed one by one, and the ports, changed one by one, with anything else. -/
theorem memOk_cores {s s' : State} (g : Nat × Core → Nat × Core) (h : MemOk s)
    (hg : ∀ x, x.2.spad.wf = true → (g x).2.spad.wf = true) (hm : s'.mem = s.mem) (hh : s'.host = s.host)
    (hc : s'.cores = s.cores.map g) (hp : s'.ports = s.ports) : MemOk s' :=
  memOk_of h (.inl hm) (.inl hh) (.inr (hc ▸ (memOk_mapCores h hg).2.2.1)) (.inl hp)

theorem memOk_ports {s s' : State} (g : Nat × Port → Nat × Port) (h : MemOk s)
    (hg : ∀ x, x.2.replica.wf = true → (g x).2.replica.wf = true) (hm : s'.mem = s.mem) (hh : s'.host = s.host)
    (hc : s'.cores = s.cores) (hp : s'.ports = s.ports.map g) : MemOk s' :=
  memOk_of h (.inl hm) (.inl hh) (.inl hc) (.inr (hp ▸ (memOk_mapPorts h hg).2.2.2))

/-- Bytes written to the host's memory, and the host lines changed. -/
theorem memOk_hostLines {s : State} (a : Nat) (bs : List Byte) (l : Map CLine) (h : MemOk s) :
    MemOk { s with host := Mem.writeN s.host a bs, hostLines := l } :=
  ⟨h.1, Mem.writeN_wf h.2.1 _ _, h.2.2⟩

theorem State.setCore_memOk {s : State} {c : Nat} {k : Core} (hk : k.spad.wf = true) (h : MemOk s) :
    MemOk (s.setCore c k) :=
  ⟨h.1, h.2.1, fun x hx => (mem_mapSet hx).elim (fun e => e ▸ hk) (h.2.2.1 x), h.2.2.2⟩

theorem State.modCore_memOk {s : State} {c : Nat} {f : Core → Core} (hf :
    ∀ k, k.spad.wf = true → (f k).spad.wf = true)
    (h : MemOk s) : MemOk (s.modCore c f) := State.setCore_memOk (hf _ (memOk_core h c)) h

theorem State.setThread_memOk {s : State} {c slot : Nat} {t : Thread} (h : MemOk s) : MemOk (s.setThread c slot t) :=
  State.modCore_memOk (fun _ hk => hk) h

theorem State.modThread_memOk {s : State} {c slot : Nat} {f : Thread → Thread} (h : MemOk s) :
    MemOk (s.modThread c slot f) := by
  unfold State.modThread
  split
  · exact State.setThread_memOk h
  · exact h

theorem memOk_port {s : State} (h : MemOk s) (p : Nat) : (s.port p).replica.wf = true := by
  unfold State.port
  cases hg : Map.get? s.ports p with
  | none => rfl
  | some k => exact h.2.2.2 _ (mapGet_mem hg)

theorem State.modPort_memOk {s : State} {p : Nat} {f : Port → Port}
    (hf : ∀ x, x.replica.wf = true → (f x).replica.wf = true) (h : MemOk s) : MemOk (s.modPort p f) :=
  ⟨h.1, h.2.1, h.2.2.1, fun x hx => (mem_mapSet hx).elim (fun e => e ▸ hf _ (memOk_port h p)) (h.2.2.2 x)⟩

end Sys2Proof.Machine
end

