-- ==== Sys2Proof/Laws/FormOps.lean ====
section
/-!
SUPPORT. Laws/FormOps.lean: the canonical form of the memories is kept by the operations on threads, lines and records (Memory, Translate, Ops, Operands, Packets, Rotation).
-/
namespace Sys2Proof.Machine
open Sys2Proof

theorem State.post_memOk (s : State) (e) (h : MemOk s) : MemOk (State.post s e) := by
  unfold State.post
  repeat' first | assumption | apply memOk_with

theorem State.bump_memOk (s : State) (h : MemOk s) : MemOk (State.bump s) := by
  unfold State.bump
  repeat' first | assumption | apply memOk_with

theorem State.modPart_memOk (s : State) (p f) (h : MemOk s) : MemOk (State.modPart s p f) := by
  unfold State.modPart
  repeat' first | assumption | apply memOk_with

theorem logEvent_memOk (s : State) (bank part cls event addr who extra cycle) (h : MemOk s) :
    MemOk (logEvent s bank part cls event addr who extra cycle) := by
  unfold logEvent
  repeat' first | assumption | apply memOk_with

theorem postEntries_memOk (s : State) (h : MemOk s) : MemOk (postEntries s) := by
  unfold postEntries
  repeat' first
    | with_reducible assumption | with_reducible apply State.post_memOk | with_reducible apply foldl_memOk | intro _
    | split | with_reducible apply memOk_with

theorem rcPut_memOk (s : State) (c slot r e) (h : MemOk s) : MemOk (rcPut s c slot r e) := by
  unfold rcPut
  repeat' first
    | assumption | refine memOk_core ?_ _ | apply State.setCore_memOk | intro _
    | (extract_lets +onlyGivenNames z; with_reducible refine memOk_seq (s := z) ?_ ?_; subst z; rotate_left; clear_value z)
    | (extract_lets +onlyGivenNames z; with_reducible refine wf_seq (k := z) ?_ ?_; subst z; rotate_left; clear_value z)
    | (extract_lets +onlyGivenNames z; clear_value z) | split | apply memOk_with

theorem rcDrop_memOk (k0 : Core) (slot) (h : k0.spad.wf = true) : (rcDrop k0 slot).spad.wf = true := by
  unfold rcDrop
  repeat' first | assumption

theorem rcSpill_memOk (k0 : Core) (slot) (h : k0.spad.wf = true) : (rcSpill k0 slot).spad.wf = true := by
  unfold rcSpill
  repeat' first | assumption

theorem rcWrote_memOk (s : State) (c slot r away) (h : MemOk s) : MemOk (rcWrote s c slot r away) := by
  unfold rcWrote
  repeat' first
    | assumption | apply State.modCore_memOk | apply rcPut_memOk | intro _ | split

theorem writeG_memOk (s : State) (c slot d w) (h : MemOk s) : MemOk (writeG s c slot d w) := by
  unfold writeG
  repeat' first | assumption | apply rcWrote_memOk | apply State.setThread_memOk | split

theorem writePw_memOk (s : State) (c slot w) (h : MemOk s) : MemOk (writePw s c slot w) := by
  unfold writePw
  repeat' first | assumption | apply rcWrote_memOk | apply State.setThread_memOk | split

theorem applyWrite_memOk (s : State) (c slot x2) (h : MemOk s) : MemOk (applyWrite s c slot x2) := by
  unfold applyWrite
  repeat' first | assumption | apply writeG_memOk | apply State.modThread_memOk | split

theorem applyWrites_memOk (s : State) (c slot x2) : MemOk s → MemOk (applyWrites s c slot x2) := by
  fun_induction applyWrites s c slot x2
  all_goals intro h
  repeat' first | apply applyWrite_memOk | apply_assumption

theorem leaveRot_memOk (k0 : Core) (slot) (h : k0.spad.wf = true) : (leaveRot k0 slot).spad.wf = true := by
  unfold leaveRot
  repeat' first | assumption

theorem makeReady_memOk (s : State) (c slot) (h : MemOk s) : MemOk (makeReady s c slot) := by
  unfold makeReady
  repeat' first | assumption | apply State.modThread_memOk | apply State.modCore_memOk | intro _

theorem postCtx_memOk (s : State) (c) (h : MemOk s) : MemOk (postCtx s c) := by
  unfold postCtx
  repeat' first | with_reducible assumption | with_reducible apply State.post_memOk | split

theorem joinFill_memOk (s : State) (c slot) (h : MemOk s) : MemOk (joinFill s c slot) := by
  unfold joinFill
  repeat' first | assumption | apply postCtx_memOk | apply State.modCore_memOk | intro _

theorem beginWait_memOk (s : State) (c slot code w) (h : MemOk s) : MemOk (beginWait s c slot code w) := by
  unfold beginWait
  repeat' first
    | assumption | apply State.modThread_memOk | apply State.modCore_memOk | apply leaveRot_memOk
    | apply postCtx_memOk | intro _ | split

theorem postCommit_memOk (s : State) (c slot) (h : MemOk s) : MemOk (postCommit s c slot) := by
  unfold postCommit
  repeat' first
    | with_reducible assumption | with_reducible apply State.post_memOk | with_reducible apply State.modCore_memOk
    | intro _ | split

theorem postWaiting_memOk (s : State) (h : MemOk s) : MemOk (postWaiting s) := by
  unfold postWaiting
  repeat' first
    | with_reducible assumption | with_reducible apply State.post_memOk | with_reducible apply foldl_memOk | intro _
    | split

theorem wakeUp_memOk (s : State) (c slot t) (h : MemOk s) : MemOk (wakeUp s c slot t) := by
  unfold wakeUp
  repeat' first
    | assumption | apply joinFill_memOk | apply State.setThread_memOk | apply makeReady_memOk | split

theorem finishWait_memOk (s : State) (c slot) (h : MemOk s) : MemOk (finishWait s c slot) := by
  unfold finishWait
  repeat' first
    | with_reducible assumption | with_reducible apply postWaiting_memOk | with_reducible apply postCommit_memOk
    | with_reducible apply State.setThread_memOk | with_reducible apply State.post_memOk
    | with_reducible apply State.modThread_memOk | with_reducible apply wakeUp_memOk | intro _
    | (extract_lets +onlyGivenNames z; with_reducible refine memOk_seq (s := z) ?_ ?_; subst z; rotate_left; clear_value z)
    | split

theorem setDir_memOk (s : State) (line e) (h : MemOk s) : MemOk (setDir s line e) := by
  unfold setDir
  repeat' first | assumption | split | apply memOk_with

theorem setRdc_memOk (s : State) (die m) (h : MemOk s) : MemOk (setRdc s die m) := by
  unfold setRdc
  repeat' first | assumption | apply memOk_with

theorem setRdcX_memOk (s : State) (die m) (h : MemOk s) : MemOk (setRdcX s die m) := by
  unfold setRdcX
  repeat' first | assumption | apply memOk_with

theorem setLease_memOk (s : State) (die agent l) (h : MemOk s) : MemOk (setLease s die agent l) := by
  unfold setLease
  repeat' first | assumption | apply memOk_with

theorem drainNext_memOk (s : State) (p) (h : MemOk s) : MemOk (drainNext s p) := by
  unfold drainNext
  repeat' first | with_reducible assumption | with_reducible apply State.post_memOk | split

theorem drainAgent_memOk (s : State) (agent) (h : MemOk s) : MemOk (drainAgent s agent) := by
  unfold drainAgent
  repeat' first | assumption | apply drainNext_memOk | split

theorem dropL1_memOk (s : State) (c key) (h : MemOk s) : MemOk (dropL1 s c key) := by
  unfold dropL1
  repeat' first | assumption | apply State.modCore_memOk | intro _

theorem dropAgent_memOk (s : State) (agent key) (h : MemOk s) : MemOk (dropAgent s agent key) := by
  unfold dropAgent
  repeat' first
    | with_reducible assumption | with_reducible apply dropL1_memOk | with_reducible apply setRdcX_memOk
    | with_reducible apply setRdc_memOk | with_reducible refine memOk_mapCores ?_ ?_ | intro _ | split

theorem dropAll_memOk (s : State) (key x1) : MemOk s → MemOk (dropAll s key x1) := by
  fun_induction dropAll s key x1
  all_goals intro h
  repeat' first | apply dropAgent_memOk | apply_assumption

theorem setPoison_memOk (s : State) (line p) (h : MemOk s) : MemOk (setPoison s line p) := by
  unfold setPoison
  repeat' first | assumption | apply memOk_with

theorem writeHome_memOk (s : State) (x0 : _) (x1 : _) (x2 : _) (h : MemOk s) : MemOk (writeHome s x0 x1 x2) := by
  have hz := memOk_setMem (l := s.poison) h (Mem.writeN_wf h.1 x0 x1)
  unfold writeHome
  dsimp only
  repeat' first | with_reducible assumption | with_reducible apply setPoison_memOk | split

theorem clearFl_memOk (s : State) (line) (h : MemOk s) : MemOk (clearFl s line) := by
  unfold clearFl
  repeat' first | assumption | apply setDir_memOk | split

theorem recallAll_memOk (s : State) (pa) (h : MemOk s) : MemOk (recallAll s pa) := by
  unfold recallAll
  repeat' first
    | with_reducible assumption | with_reducible apply clearFl_memOk | with_reducible apply writeHome_memOk
    | with_reducible apply dropAll_memOk | with_reducible apply setDir_memOk | intro _
    | (extract_lets +onlyGivenNames z; with_reducible refine memOk_seq (s := z) ?_ ?_; subst z; rotate_left; clear_value z)
    | (extract_lets +onlyGivenNames z; clear_value z) | split | with_reducible apply memOk_with

theorem dirRoom_memOk (s : State) (line) (h : MemOk s) : MemOk (dirRoom s line) := by
  unfold dirRoom
  repeat' first
    | with_reducible assumption | with_reducible apply recallAll_memOk
    | (extract_lets +onlyGivenNames z; clear_value z) | split

theorem putDir_memOk (s : State) (line e) (h : MemOk s) : MemOk (putDir s line e) := by
  unfold putDir
  repeat' first | assumption | apply setDir_memOk | apply dirRoom_memOk

theorem dropHostL1_memOk (s : State) (line) (h : MemOk s) : MemOk (dropHostL1 s line) :=
  memOk_mapCores h (fun _ hx => hx)

theorem flushHost_memOk (s : State) (key) (h : MemOk s) : MemOk (flushHost s key) := by
  unfold flushHost
  repeat' first
    | assumption | apply dropHostL1_memOk | refine memOk_setHost ?_ (Mem.writeN_wf (memOk_host ?_) _ _) | split
    | apply memOk_with

theorem hostRoom_memOk (s : State) (die) (h : MemOk s) : MemOk (hostRoom s die) := by
  unfold hostRoom
  repeat' first | assumption | apply flushHost_memOk | split

theorem holdHost_memOk (s : State) (die line l) (h : MemOk s) : MemOk (holdHost s die line l) := by
  unfold holdHost
  extract_lets s1 s2
  have h1 : MemOk s1 := memOk_cores _ h (fun x hx => by split <;> exact hx) rfl rfl rfl rfl
  clear_value s1
  exact memOk_of (hostRoom_memOk _ _ h1) (.inl rfl) (.inl rfl) (.inl rfl) (.inl rfl)

theorem leaveHost_memOk (s : State) (c key) (h : MemOk s) : MemOk (leaveHost s c key) := by
  unfold leaveHost
  repeat' first
    | assumption | apply memOk_hostLines
    | (extract_lets +onlyGivenNames z; with_reducible refine memOk_seq (s := z) ?_ ?_; subst z; rotate_left; clear_value z)
    | extract_lets +onlyGivenNames z | split | apply memOk_with

theorem sendMsg_memOk (s : State) (m) (h : MemOk s) : MemOk (sendMsg s m) := by
  unfold sendMsg
  repeat' first | assumption | apply State.post_memOk | apply memOk_with

theorem writePriv_memOk (s : State) (c pa data poison) (h : MemOk s) : MemOk (writePriv s c pa data poison) := by
  unfold writePriv
  repeat' first
    | with_reducible assumption | with_reducible apply setRdc_memOk | with_reducible apply writeHome_memOk | split

theorem evictL1_memOk (s : State) (c key) (h : MemOk s) : MemOk (evictL1 s c key) := by
  unfold evictL1
  repeat' first
    | with_reducible assumption | with_reducible apply State.modCore_memOk | with_reducible apply writePriv_memOk
    | with_reducible apply setRdc_memOk | with_reducible apply sendMsg_memOk | with_reducible apply leaveHost_memOk
    | intro _
    | (extract_lets +onlyGivenNames z; with_reducible refine memOk_seq (s := z) ?_ ?_; subst z; rotate_left; clear_value z)
    | (extract_lets +onlyGivenNames z; clear_value z) | split

theorem fillL1_memOk (s : State) (c key l) (h : MemOk s) : MemOk (fillL1 s c key l) := by
  unfold fillL1
  repeat' first
    | assumption | apply evictL1_memOk | apply State.modCore_memOk | intro _ | split

theorem evictRdc_memOk (s : State) (die key) (h : MemOk s) : MemOk (evictRdc s die key) := by
  unfold evictRdc
  repeat' first
    | with_reducible assumption | with_reducible apply dropAgent_memOk | with_reducible apply sendMsg_memOk
    | with_reducible apply setRdcX_memOk | with_reducible apply writeHome_memOk | with_reducible apply setRdc_memOk
    | with_reducible apply foldl_memOk | intro _
    | (extract_lets +onlyGivenNames z; with_reducible refine memOk_seq (s := z) ?_ ?_; subst z; rotate_left; clear_value z)
    | (extract_lets +onlyGivenNames z; clear_value z) | split

theorem rdcPut_memOk (s : State) (die key l) (h : MemOk s) : MemOk (rdcPut s die key l) := by
  unfold rdcPut
  repeat' first
    | with_reducible assumption | with_reducible apply setRdc_memOk | with_reducible apply evictRdc_memOk | intro _
    | (extract_lets +onlyGivenNames z; with_reducible refine memOk_seq (s := z) ?_ ?_; subst z; rotate_left; clear_value z)
    | (extract_lets +onlyGivenNames z; clear_value z) | split | with_reducible apply memOk_with

theorem touchL1_memOk (s : State) (c key) (h : MemOk s) : MemOk (touchL1 s c key) := by
  unfold touchL1
  repeat' first | assumption | apply State.modCore_memOk | intro _

theorem fetchPriv_memOk (s : State) (c pa) (h : MemOk s) : MemOk (fetchPriv s c pa) := by
  unfold fetchPriv
  repeat' first
    | assumption | apply touchL1_memOk | apply rdcPut_memOk | apply fillL1_memOk | intro _
    | (extract_lets +onlyGivenNames z; with_reducible refine memOk_seq (s := z) ?_ ?_; subst z; rotate_left; clear_value z)
    | (extract_lets +onlyGivenNames z; clear_value z) | split

theorem fetchCopy_memOk (s : State) (c kind pkg pa) (h : MemOk s) : MemOk (fetchCopy s c kind pkg pa) := by
  unfold fetchCopy
  repeat' first
    | assumption | apply touchL1_memOk | apply fillL1_memOk | apply rdcPut_memOk | intro _
    | (extract_lets +onlyGivenNames z; with_reducible refine memOk_seq (s := z) ?_ ?_; subst z; rotate_left; clear_value z)
    | (extract_lets +onlyGivenNames z; clear_value z) | split

theorem fetchHost_memOk (s : State) (c pa) (h : MemOk s) : MemOk (fetchHost s c pa) := by
  unfold fetchHost
  repeat' first
    | assumption | apply touchL1_memOk | apply fillL1_memOk | apply hostRoom_memOk | apply memOk_hostLines | split
    | dsimp only | apply memOk_with

theorem barWake_memOk (s : State) (c slot) (h : MemOk s) : MemOk (barWake s c slot) := by
  unfold barWake
  repeat' first
    | assumption | apply finishWait_memOk | apply writeG_memOk | intro _
    | (extract_lets +onlyGivenNames z; with_reducible refine memOk_seq (s := z) ?_ ?_; subst z; rotate_left; clear_value z)
    | (extract_lets +onlyGivenNames z; clear_value z) | split | apply memOk_with

theorem wakeOne_memOk (s : State) (w) (h : MemOk s) : MemOk (wakeOne s w) := by
  unfold wakeOne
  repeat' first
    | with_reducible assumption | with_reducible apply State.setThread_memOk | with_reducible apply finishWait_memOk
    | with_reducible apply writeG_memOk | with_reducible apply State.post_memOk | with_reducible apply barWake_memOk
    | intro _
    | (extract_lets +onlyGivenNames z; with_reducible refine memOk_seq (s := z) ?_ ?_; subst z; rotate_left; clear_value z)
    | (extract_lets +onlyGivenNames z; clear_value z) | split

theorem wakeList_memOk (s : State) (x0) : MemOk s → MemOk (wakeList s x0) := by
  fun_induction wakeList s x0
  all_goals intro h
  repeat' first | apply wakeOne_memOk | apply_assumption

theorem wakeLine_memOk (s : State) (p) (h : MemOk s) : MemOk (wakeLine s p) := by
  unfold wakeLine
  repeat' first | assumption | apply wakeList_memOk

theorem spadMark_memOk (k0 : Core) (off bytes poison) (h : k0.spad.wf = true) :
    (spadMark k0 off bytes poison).spad.wf = true := by
  unfold spadMark
  repeat' first | assumption | split

theorem writePlace_memOk (s : State) (c p bytes poison) (h : MemOk s) : MemOk (writePlace s c p bytes poison) := by
  unfold writePlace
  repeat' first
    | with_reducible assumption | with_reducible apply State.modCore_memOk | with_reducible apply spadMark_memOk
    | with_reducible apply wakeLine_memOk | with_reducible apply State.modPort_memOk
    | with_reducible apply fetchPriv_memOk | with_reducible apply holdHost_memOk
    | with_reducible apply recallAll_memOk | with_reducible apply clearFl_memOk | with_reducible apply writeHome_memOk
    | with_reducible refine memOk_setHost ?_ (Mem.writeN_wf (memOk_host ?_) _ _) | with_reducible apply Mem.writeN_wf
    | intro _ | split

theorem writePieces_memOk (s : State) (c p poison x3) : MemOk s → MemOk (writePieces s c p poison x3) := by
  fun_induction writePieces s c p poison x3
  all_goals intro h
  repeat' first | apply writePlace_memOk | apply_assumption

theorem writeBytes_memOk (s : State) (c p bytes poison) (h : MemOk s) : MemOk (writeBytes s c p bytes poison) := by
  unfold writeBytes
  repeat' first | assumption | apply writePieces_memOk

theorem storeAt_memOk (s : State) (c p bytes poison) (h : MemOk s) : MemOk (storeAt s c p bytes poison) := by
  unfold storeAt
  repeat' first
    | assumption | apply setDir_memOk | apply writePlace_memOk | (extract_lets +onlyGivenNames z; clear_value z)
    | split

theorem storePieces_memOk (s : State) (c p poison x3) : MemOk s → MemOk (storePieces s c p poison x3) := by
  fun_induction storePieces s c p poison x3
  all_goals intro h
  repeat' first | apply storeAt_memOk | apply_assumption

theorem storeBytes_memOk (s : State) (c p bytes poison) (h : MemOk s) : MemOk (storeBytes s c p bytes poison) := by
  unfold storeBytes
  repeat' first | assumption | apply storePieces_memOk

theorem tlbAdd_memOk (s : State) (w t) (h : MemOk s) : MemOk (tlbAdd s w t) := by
  unfold tlbAdd
  repeat' first | assumption | apply memOk_with

theorem translate_memOk (s : State) (w part proc va write) (h : MemOk s) :
    MemOk (translate s w part proc va write).1 := by
  unfold translate
  repeat' first
    | with_reducible assumption | with_reducible apply tlbAdd_memOk | intro _
    | (extract_lets +onlyGivenNames z; with_reducible refine memOk_seq (s := z) ?_ ?_; subst z; rotate_left; clear_value z)
    | (extract_lets +onlyGivenNames z; clear_value z) | split | with_reducible apply memOk_with

theorem resolve_memOk (s : State) (c part proc va x4) (h : MemOk s) : MemOk (resolve s c part proc va x4).1 := by
  unfold resolve
  repeat' first | assumption | apply translate_memOk | split | refine pair_fst (by assumption) ?_

theorem State.modGroup_memOk (s : State) (gid f) (h : MemOk s) : MemOk (State.modGroup s gid f) := by
  unfold State.modGroup
  repeat' first | assumption | apply memOk_with

theorem State.modLaunch_memOk (s : State) (lid f) (h : MemOk s) : MemOk (State.modLaunch s lid f) := by
  unfold State.modLaunch
  repeat' first | assumption | apply memOk_with

theorem sendPosted_memOk (s : State) (addr part ms data poison thread cmd) (h : MemOk s) :
    MemOk (sendPosted s addr part ms data poison thread cmd) := by
  unfold sendPosted
  repeat' first | assumption | apply State.post_memOk | apply State.bump_memOk | apply memOk_with

theorem putRecord_memOk (s : State) (c part p bytes) (h : MemOk s) : MemOk (putRecord s c part p bytes) := by
  unfold putRecord
  repeat' first
    | with_reducible assumption | with_reducible apply sendPosted_memOk | with_reducible apply writePlace_memOk
    | with_reducible apply storeAt_memOk | split

theorem recordPlace_memOk (s : State) (c t line) (h : MemOk s) : MemOk (recordPlace s c t line).1 := by
  unfold recordPlace
  repeat' first | assumption | apply resolve_memOk | split | refine pair_fst (by assumption) ?_

theorem writeRecord_memOk (s : State) (c slot t pc f) (h : MemOk s) : MemOk (writeRecord s c slot t pc f) := by
  unfold writeRecord
  repeat' first
    | with_reducible assumption | with_reducible apply recordPlace_memOk | with_reducible apply putRecord_memOk
    | with_reducible apply logEvent_memOk | (extract_lets +onlyGivenNames z; clear_value z) | split
    | with_reducible refine pair_fst (by with_reducible assumption) ?_

theorem dropWaits_memOk (s : State) (c slot) (h : MemOk s) : MemOk (dropWaits s c slot) := by
  unfold dropWaits
  repeat' first | assumption | apply postEntries_memOk | apply memOk_with

theorem settle_memOk (k0 : Core) (slot) (h : k0.spad.wf = true) : (settle k0 slot).spad.wf = true := by
  unfold settle
  repeat' first | assumption

theorem postFill_memOk (s : State) (c) (h : MemOk s) : MemOk (postFill s c) := by
  unfold postFill
  repeat' first | with_reducible assumption | with_reducible apply State.post_memOk | split

theorem enterFault_memOk (s : State) (c slot pc f) (h : MemOk s) : MemOk (enterFault s c slot pc f) := by
  unfold enterFault
  repeat' first
    | with_reducible assumption | with_reducible apply postCtx_memOk | with_reducible apply State.modCore_memOk
    | with_reducible apply dropWaits_memOk | with_reducible apply State.setThread_memOk
    | with_reducible apply settle_memOk | with_reducible apply leaveRot_memOk | with_reducible apply postFill_memOk
    | with_reducible apply postWaiting_memOk | with_reducible apply writeRecord_memOk | intro _ | split

theorem takeFault_memOk (s : State) (c slot f) (h : MemOk s) : MemOk (takeFault s c slot f) := by
  unfold takeFault
  repeat' first
    | with_reducible assumption | with_reducible apply logEvent_memOk | with_reducible apply enterFault_memOk | split

theorem stepFault_memOk (s : State) (c slot) (h : MemOk s) : MemOk (stepFault s c slot) := by
  unfold stepFault
  repeat' first | assumption | apply enterFault_memOk | split

theorem readyOrFill_memOk (s : State) (c slot) (h : MemOk s) : MemOk (readyOrFill s c slot) := by
  unfold readyOrFill
  repeat' first | assumption | apply wakeUp_memOk | split

theorem restart_memOk (s : State) (c slot) (h : MemOk s) : MemOk (restart s c slot) := by
  unfold restart
  repeat' first | assumption | apply readyOrFill_memOk | apply State.modThread_memOk

theorem unstop_memOk (s : State) (c slot) (h : MemOk s) : MemOk (unstop s c slot) := by
  unfold unstop
  repeat' first
    | assumption | apply State.setThread_memOk | apply State.modThread_memOk | apply readyOrFill_memOk | split

theorem stopThread_memOk (s : State) (c slot) (h : MemOk s) : MemOk (stopThread s c slot) := by
  unfold stopThread
  repeat' first
    | assumption | apply postCtx_memOk | apply State.modCore_memOk | apply State.setThread_memOk
    | apply leaveRot_memOk | intro _ | split

theorem ownWrite_memOk (s : State) (c pkg pa bytes) (h : MemOk s) : MemOk (ownWrite s c pkg pa bytes) := by
  unfold ownWrite
  repeat' first | assumption | apply State.modCore_memOk | apply setRdc_memOk | intro _

theorem postStore_memOk (s : State) (r rid pkg pa bytes) (h : MemOk s) :
    MemOk (postStore s r rid pkg pa bytes) := by
  unfold postStore
  repeat' first
    | with_reducible assumption | with_reducible apply sendPosted_memOk | with_reducible apply ownWrite_memOk | split
    | with_reducible apply memOk_with

theorem releaseWrite_memOk (s : State) (r p bs) (h : MemOk s) : MemOk (releaseWrite s r p bs) := by
  unfold releaseWrite
  repeat' first | assumption | apply postStore_memOk | apply storeBytes_memOk | split

theorem releaseHeld_memOk (s : State) (x0) : MemOk s → MemOk (releaseHeld s x0) := by
  fun_induction releaseHeld s x0
  all_goals intro h
  repeat' first | apply releaseWrite_memOk | apply_assumption

theorem commitPair_memOk (s : State) (c) (h : MemOk s) : MemOk (commitPair s c) := by
  unfold commitPair
  repeat' first
    | with_reducible assumption | with_reducible apply releaseHeld_memOk | with_reducible apply State.modCore_memOk
    | with_reducible apply State.post_memOk | intro _
    | (extract_lets +onlyGivenNames z; with_reducible refine memOk_seq (s := z) ?_ ?_; subst z; rotate_left; clear_value z)
    | split

theorem commitBefore_memOk (s : State) (c slot) (h : MemOk s) : MemOk (commitBefore s c slot) := by
  unfold commitBefore
  repeat' first
    | assumption | apply State.modCore_memOk | apply commitPair_memOk | intro _ | split

theorem waitIssue_memOk (s : State) (c slot w) (h : MemOk s) : MemOk (waitIssue s c slot w) := by
  unfold waitIssue
  repeat' first | assumption | apply beginWait_memOk

theorem waitEntries_memOk (s : State) (c slot w) (h : MemOk s) : MemOk (waitEntries s c slot w) := by
  unfold waitEntries
  repeat' first
    | assumption | apply State.post_memOk | apply State.modCore_memOk | apply waitIssue_memOk | intro _

theorem waitFill_memOk (s : State) (c slot regs) (h : MemOk s) : MemOk (waitFill s c slot regs) := by
  unfold waitFill
  repeat' first | assumption | apply waitEntries_memOk

theorem afterIssue_memOk (s : State) (c slot) (h : MemOk s) : MemOk (afterIssue s c slot) := by
  unfold afterIssue
  repeat' first | assumption | apply stepFault_memOk | apply postCommit_memOk | split

theorem settleCore_memOk (s : State) (c slot) (h : MemOk s) : MemOk (settleCore s c slot) := by
  unfold settleCore
  repeat' first
    | assumption | apply postFill_memOk | apply State.modCore_memOk | apply settle_memOk | intro _

theorem issue_memOk (i d body) (s : State) (h : ∀ c slot t s, MemOk s → MemOk (body c slot t s)) (h1 : MemOk s) :
    OutOk (issue i d body s) := by
  unfold issue
  repeat' first
    | with_reducible assumption | with_reducible apply State.setThread_memOk | with_reducible apply waitFill_memOk
    | with_reducible apply takeFault_memOk | with_reducible apply afterIssue_memOk
    | with_reducible apply settleCore_memOk | with_reducible apply waitIssue_memOk
    | with_reducible apply waitEntries_memOk | with_reducible apply commitBefore_memOk | with_reducible apply h
    | with_reducible apply OutOk.next | with_reducible apply OutOk.fault | intro _
    | (extract_lets +onlyGivenNames z; with_reducible refine memOk_seq (s := z) ?_ ?_; subst z; rotate_left; clear_value z)
    | (extract_lets +onlyGivenNames z; clear_value z) | split

theorem resumeIssue_memOk (s : State) (c slot) (h : MemOk s) : MemOk (resumeIssue s c slot) := by
  unfold resumeIssue
  repeat' first | assumption | apply wakeUp_memOk | apply State.setThread_memOk | split

theorem setPc_memOk (s : State) (c slot pc) (h : MemOk s) : MemOk (setPc s c slot pc) := by
  unfold setPc
  repeat' first | assumption | apply State.modThread_memOk

theorem writeP_memOk (s : State) (c slot x2 b) (h : MemOk s) : MemOk (writeP s c slot x2 b) := by
  unfold writeP
  repeat' first | assumption | apply writePw_memOk | split

theorem opRRR_memOk (i g d a b f) (s : State) (h : MemOk s) : OutOk (opRRR i g d a b f s) := by
  unfold opRRR
  repeat' first | assumption | apply issue_memOk | apply writeG_memOk | intro _

theorem opRR_memOk (i g d a f) (s : State) (h : MemOk s) : OutOk (opRR i g d a f s) := by
  unfold opRR
  repeat' first | assumption | apply issue_memOk | apply writeG_memOk | intro _

theorem opDRR_memOk (i g d a b f) (s : State) (h : MemOk s) : OutOk (opDRR i g d a b f s) := by
  unfold opDRR
  repeat' first | assumption | apply issue_memOk | apply writeG_memOk | intro _

theorem disarmAll_memOk (s : State) (c slot) (h : MemOk s) : MemOk (disarmAll s c slot) := by
  unfold disarmAll
  repeat' first | assumption | apply postEntries_memOk | apply memOk_with

theorem sendBar_memOk (s : State) (kind place status thread cmd) (h : MemOk s) :
    MemOk (sendBar s kind place status thread cmd) := by
  unfold sendBar
  repeat' first | assumption | apply State.bump_memOk | apply State.post_memOk | apply memOk_with

theorem dropReg_memOk (s : State) (c place) (h : MemOk s) : MemOk (dropReg s c place) := by
  unfold dropReg
  repeat' first
    | with_reducible assumption | with_reducible apply sendBar_memOk | with_reducible apply State.modCore_memOk
    | with_reducible apply State.post_memOk | intro _
    | (extract_lets +onlyGivenNames z; with_reducible refine memOk_seq (s := z) ?_ ?_; subst z; rotate_left; clear_value z)
    | (extract_lets +onlyGivenNames z; clear_value z) | split

theorem dropRegs_memOk (s : State) (c x1) : MemOk s → MemOk (dropRegs s c x1) := by
  fun_induction dropRegs s c x1
  all_goals intro h
  repeat' first | apply dropReg_memOk | apply_assumption

theorem postSpawns_memOk (s : State) (part) (h : MemOk s) : MemOk (postSpawns s part) := by
  unfold postSpawns
  repeat' first
    | with_reducible assumption | with_reducible apply State.post_memOk | with_reducible apply foldl_memOk | intro _

theorem freeRoom_memOk (s : State) (part n) (h : MemOk s) : MemOk (freeRoom s part n) := by
  unfold freeRoom
  repeat' first
    | with_reducible assumption | with_reducible apply State.modPart_memOk | with_reducible apply postSpawns_memOk
    | split

theorem withdrawWaiters_memOk (s : State) (x0) : MemOk s → MemOk (withdrawWaiters s x0) := by
  fun_induction withdrawWaiters s x0
  all_goals intro h
  repeat' first | apply takeFault_memOk | apply_assumption

theorem releaseAllocation_memOk (s : State) (c base size) (h : MemOk s) :
    MemOk (releaseAllocation s c base size) := by
  unfold releaseAllocation
  repeat' first | assumption | apply withdrawWaiters_memOk

theorem bandEnd_memOk (s : State) (g) (h : MemOk s) : MemOk (bandEnd s g) := by
  unfold bandEnd
  repeat' first
    | with_reducible assumption | with_reducible apply State.modLaunch_memOk | with_reducible apply State.post_memOk
    | intro _
    | (extract_lets +onlyGivenNames z; with_reducible refine memOk_seq (s := z) ?_ ?_; subst z; rotate_left; clear_value z)
    | split

theorem unpair_memOk (s : State) (c) (h : MemOk s) : MemOk (unpair s c) := by
  unfold unpair
  repeat' first
    | assumption | refine memOk_core ?_ _ | apply commitPair_memOk | apply State.setCore_memOk
    | apply State.modCore_memOk | intro _ | split

theorem preempted_memOk (s : State) (lid) (h : MemOk s) : MemOk (preempted s lid) := by
  unfold preempted
  repeat' first
    | with_reducible assumption | with_reducible apply State.post_memOk | with_reducible apply State.modLaunch_memOk
    | split

theorem endGroup_memOk (s : State) (gid) (h : MemOk s) : MemOk (endGroup s gid) := by
  unfold endGroup
  repeat' first
    | with_reducible assumption | with_reducible apply State.modGroup_memOk | with_reducible apply freeRoom_memOk
    | with_reducible apply postCtx_memOk | with_reducible apply bandEnd_memOk | with_reducible apply unpair_memOk
    | with_reducible apply releaseAllocation_memOk | intro _
    | (extract_lets +onlyGivenNames z; with_reducible refine memOk_seq (s := z) ?_ ?_; subst z; rotate_left; clear_value z)
    | (extract_lets +onlyGivenNames z; clear_value z) | split | with_reducible apply memOk_with

theorem groupEnd_memOk (s : State) (gid) (h : MemOk s) : MemOk (groupEnd s gid) := by
  unfold groupEnd
  repeat' first | assumption | apply preempted_memOk | apply endGroup_memOk | split

theorem endOp_memOk (s : State) (gid) (h : MemOk s) : MemOk (endOp s gid) := by
  unfold endOp
  repeat' first | assumption | apply groupEnd_memOk | apply State.modGroup_memOk

theorem disown_memOk (s : State) (a) (h : MemOk s) : MemOk (disown s a) := by
  refine memOk_ports _ h ?_ rfl rfl rfl rfl
  intro _ hx
  exact hx

theorem moveWork_memOk (s : State) (a b) (h : MemOk s) : MemOk (moveWork s a b) := by
  refine memOk_ports _ h ?_ rfl rfl rfl rfl
  intro _ hx
  exact hx

theorem clearSlot_memOk (s : State) (c slot) (h : MemOk s) : MemOk (clearSlot s c slot) := by
  unfold clearSlot
  repeat' first
    | with_reducible assumption | with_reducible apply freeRoom_memOk | with_reducible apply State.modCore_memOk
    | with_reducible apply disarmAll_memOk | with_reducible apply rcDrop_memOk | with_reducible apply leaveRot_memOk
    | with_reducible apply disown_memOk | with_reducible apply State.post_memOk | with_reducible apply postCtx_memOk
    | with_reducible apply postFill_memOk | intro _
    | (extract_lets +onlyGivenNames z; with_reducible refine memOk_seq (s := z) ?_ ?_; subst z; rotate_left; clear_value z)
    | split

theorem sendReply_memOk (s : State) (request data) (h : MemOk s) : MemOk (sendReply s request data) := by
  unfold sendReply
  repeat' first | assumption | apply State.bump_memOk | apply memOk_with

theorem awayEnded_memOk (s : State) (gid origin) (h : MemOk s) : MemOk (awayEnded s gid origin) := by
  unfold awayEnded
  repeat' first
    | with_reducible assumption | with_reducible apply sendReply_memOk | with_reducible apply groupEnd_memOk
    | with_reducible apply State.modGroup_memOk | split

theorem freeSlot_memOk (s : State) (c slot) (h : MemOk s) : MemOk (freeSlot s c slot) := by
  unfold freeSlot
  repeat' first
    | assumption | apply clearSlot_memOk | apply awayEnded_memOk | apply groupEnd_memOk | split

theorem quitThread_memOk (s : State) (c slot) (h : MemOk s) : MemOk (quitThread s c slot) := by
  unfold quitThread
  repeat' first | assumption | apply freeSlot_memOk | apply dropRegs_memOk | split

theorem sendPacket_memOk (s : State) (kind target t r) (h : MemOk s) : MemOk (sendPacket s kind target t r) := by
  unfold sendPacket
  repeat' first | assumption | apply State.post_memOk | apply State.bump_memOk | apply memOk_with

theorem sendAway_memOk (s : State) (kind lcore addr t r) (h : MemOk s) :
    MemOk (sendAway s kind lcore addr t r) := by
  unfold sendAway
  repeat' first | assumption | apply State.bump_memOk | apply memOk_with

theorem migrate_memOk (s : State) (c slot t pkg pa pc) (h : MemOk s) : OptOk (migrate s c slot t pkg pa pc) := by
  unfold migrate
  repeat' first
    | with_reducible assumption | with_reducible apply beginWait_memOk | with_reducible apply sendAway_memOk
    | with_reducible apply sendPacket_memOk | with_reducible apply optOk_map | intro _ | split
    | with_reducible apply memOk_with

theorem leaveSlot_memOk (s : State) (r) (h : MemOk s) : MemOk (leaveSlot s r) := by
  unfold leaveSlot
  repeat' first
    | with_reducible assumption | with_reducible apply clearSlot_memOk | with_reducible apply State.modGroup_memOk
    | split

theorem execRotationFill_memOk (core) (s : State) (h : MemOk s) : OutOk (execRotationFill core s) := by
  unfold execRotationFill
  repeat' first
    | assumption | refine memOk_core ?_ _ | apply State.modThread_memOk | apply State.setCore_memOk | apply OutOk.next
    | intro _
    | (extract_lets +onlyGivenNames z; with_reducible refine wf_seq (k := z) ?_ ?_; subst z; rotate_left; clear_value z)
    | split

theorem fillLine_memOk (s : State) (c) (h : MemOk s) : MemOk (fillLine s c) := by
  unfold fillLine
  repeat' first | assumption | apply fillL1_memOk | apply memOk_with

theorem reserveAll_memOk (s : State) (c slot x2) : MemOk s → MemOk (reserveAll s c slot x2) := by
  fun_induction reserveAll s c slot x2
  all_goals intro h
  repeat' first | apply rcPut_memOk | apply fillLine_memOk | apply_assumption

theorem execRegisterFillAdmit_memOk (core) (s : State) (h : MemOk s) : OutOk (execRegisterFillAdmit core s) := by
  unfold execRegisterFillAdmit
  repeat' first
    | with_reducible assumption | with_reducible refine memOk_core ?_ _ | with_reducible apply postFill_memOk
    | with_reducible apply State.setCore_memOk | with_reducible apply reserveAll_memOk
    | with_reducible apply State.post_memOk | with_reducible apply rcPut_memOk
    | with_reducible apply resumeIssue_memOk | with_reducible apply OutOk.next | intro _
    | (extract_lets +onlyGivenNames z; with_reducible refine memOk_seq (s := z) ?_ ?_; subst z; rotate_left; clear_value z)
    | (extract_lets +onlyGivenNames z; with_reducible refine wf_seq (k := z) ?_ ?_; subst z; rotate_left; clear_value z)
    | (extract_lets +onlyGivenNames z; clear_value z) | split

theorem execRegisterFillComplete_memOk (core slot) (s : State) (h : MemOk s) :
    OutOk (execRegisterFillComplete core slot s) := by
  unfold execRegisterFillComplete
  repeat' first | assumption | apply resumeIssue_memOk | apply OutOk.next | split

theorem spill_memOk (s : State) (c slot) (h : MemOk s) : MemOk (spill s c slot) := by
  unfold spill
  repeat' first
    | assumption | apply State.modThread_memOk | apply postFill_memOk | apply State.modCore_memOk
    | apply rcSpill_memOk | intro _

theorem freeContext_memOk (s : State) (c) (h : MemOk s) : OptOk (freeContext s c) := by
  unfold freeContext
  repeat' first
    | assumption | apply spill_memOk | exact OptOk.none | apply OptOk.some | split

theorem holdNew_memOk (s : State) (c slot gid lid) (h : MemOk s) : MemOk (holdNew s c slot gid lid) := by
  unfold holdNew
  repeat' first | assumption | apply stopThread_memOk | apply State.modThread_memOk | split

theorem snapThread_memOk (s : State) (c slot) (h : MemOk s) : MemOk (snapThread s c slot) := by
  unfold snapThread
  repeat' first | assumption | apply State.modCore_memOk | intro _ | split

theorem allocThread_memOk (s : State) (c slot t) (h : MemOk s) : MemOk (allocThread s c slot t) := by
  unfold allocThread
  repeat' first
    | assumption | apply snapThread_memOk | apply makeReady_memOk | apply State.setThread_memOk
    | apply stopThread_memOk | apply State.modThread_memOk | intro _
    | (extract_lets +onlyGivenNames z; with_reducible refine memOk_seq (s := z) ?_ ?_; subst z; rotate_left; clear_value z)
    | split

theorem packetDone_memOk (s : State) (p w) (h : MemOk s) : MemOk (packetDone s p w) := by
  unfold packetDone
  repeat' first
    | with_reducible assumption | with_reducible apply finishWait_memOk | with_reducible apply writeG_memOk
    | with_reducible apply sendReply_memOk | split

theorem trySpawn_memOk (s : State) (p) (h : MemOk s) : OptOk (trySpawn s p) := by
  unfold trySpawn
  repeat' first
    | with_reducible assumption | with_reducible apply freeContext_memOk | with_reducible apply allocThread_memOk
    | with_reducible apply State.modPart_memOk | with_reducible apply holdNew_memOk
    | with_reducible apply packetDone_memOk | with_reducible exact OptOk.none | with_reducible apply OptOk.some
    | (extract_lets +onlyGivenNames z; clear_value z) | split
    | with_reducible refine opt_get (by with_reducible assumption) ?_ | with_reducible apply memOk_with

theorem startRecruit_memOk (s : State) (p slot) (h : MemOk s) : MemOk (startRecruit s p slot) := by
  unfold startRecruit
  repeat' first
    | assumption | apply State.modCore_memOk | apply holdNew_memOk | apply allocThread_memOk | intro _
    | apply memOk_with

theorem takeMigrant_memOk (s : State) (p slot) (h : MemOk s) : MemOk (takeMigrant s p slot) := by
  unfold takeMigrant
  repeat' first
    | with_reducible assumption | with_reducible apply leaveSlot_memOk | with_reducible apply moveWork_memOk
    | with_reducible apply allocThread_memOk | with_reducible apply stopThread_memOk
    | with_reducible apply State.modThread_memOk | with_reducible apply sendReply_memOk | split

theorem takeVisitor_memOk (s : State) (p slot) (h : MemOk s) : MemOk (takeVisitor s p slot) := by
  unfold takeVisitor
  repeat' first
    | assumption | apply takeMigrant_memOk | apply packetDone_memOk | apply allocThread_memOk | split
    | apply memOk_with

theorem foreignPacket_memOk (s : State) (x m) (h : MemOk s) : MemOk (foreignPacket s x m) := by
  unfold foreignPacket
  repeat' first
    | with_reducible assumption | with_reducible apply sendReply_memOk | with_reducible apply State.post_memOk
    | with_reducible apply State.bump_memOk | intro _
    | (extract_lets +onlyGivenNames z; with_reducible refine memOk_seq (s := z) ?_ ?_; subst z; rotate_left; clear_value z)
    | (extract_lets +onlyGivenNames z; clear_value z) | split | with_reducible apply memOk_with

theorem takeForeign_memOk (s : State) (id) (h : MemOk s) : MemOk (takeForeign s id) := by
  unfold takeForeign
  repeat' first | assumption | apply foreignPacket_memOk | split

theorem execThreadPacketArrive_memOk (id) (s : State) (h : MemOk s) : OutOk (execThreadPacketArrive id s) := by
  unfold execThreadPacketArrive
  repeat' first
    | with_reducible assumption | with_reducible refine memOk_core ?_ _ | with_reducible apply takeForeign_memOk
    | with_reducible apply startRecruit_memOk | with_reducible apply trySpawn_memOk
    | with_reducible apply State.setCore_memOk | with_reducible apply takeVisitor_memOk
    | with_reducible apply OutOk.next | with_reducible exact OptOk.none | intro _
    | (extract_lets +onlyGivenNames z; with_reducible refine wf_seq (k := z) ?_ ?_; subst z; rotate_left; clear_value z)
    | split | with_reducible refine opt_get (by with_reducible assumption) ?_

theorem execContextGrant_memOk (core) (s : State) (h : MemOk s) : OutOk (execContextGrant core s) := by
  unfold execContextGrant
  repeat' first
    | with_reducible assumption | with_reducible refine memOk_core ?_ _ | with_reducible apply postCtx_memOk
    | with_reducible apply State.setCore_memOk | with_reducible apply trySpawn_memOk | with_reducible apply OutOk.next
    | intro _
    | (extract_lets +onlyGivenNames z; with_reducible refine wf_seq (k := z) ?_ ?_; subst z; rotate_left; clear_value z)
    | split | with_reducible refine opt_get (by with_reducible assumption) ?_

theorem execVisitorSlotGrant_memOk (core) (s : State) (h : MemOk s) : OutOk (execVisitorSlotGrant core s) := by
  unfold execVisitorSlotGrant
  repeat' first
    | with_reducible assumption | with_reducible refine memOk_core ?_ _ | with_reducible apply State.setCore_memOk
    | with_reducible apply takeVisitor_memOk | with_reducible apply State.post_memOk | with_reducible apply OutOk.next
    | intro _
    | (extract_lets +onlyGivenNames z; with_reducible refine wf_seq (k := z) ?_ ?_; subst z; rotate_left; clear_value z)
    | split

theorem execThreadFill_memOk (core) (s : State) (h : MemOk s) : OutOk (execThreadFill core s) := by
  unfold execThreadFill
  repeat' first
    | with_reducible assumption | with_reducible refine memOk_core ?_ _ | with_reducible apply postCtx_memOk
    | with_reducible apply State.setCore_memOk | with_reducible apply freeContext_memOk
    | with_reducible apply State.modCore_memOk | with_reducible apply State.modThread_memOk
    | with_reducible apply State.post_memOk | with_reducible apply OutOk.next | intro _
    | (extract_lets +onlyGivenNames z; with_reducible refine wf_seq (k := z) ?_ ?_; subst z; rotate_left; clear_value z)
    | split | with_reducible refine opt_get (by with_reducible assumption) ?_

theorem execThreadFillComplete_memOk (core slot) (s : State) (h : MemOk s) :
    OutOk (execThreadFillComplete core slot s) := by
  unfold execThreadFillComplete
  repeat' first | assumption | apply makeReady_memOk | apply OutOk.next | split

end Sys2Proof.Machine
end

