-- ==== Sys2Proof/Laws/FormAccess.lean ====
section
/-!
SUPPORT. Laws/FormAccess.lean: the canonical form of the memories is kept by the accesses, authorities, barriers, ports and device words (Access to Perform).
-/
namespace Sys2Proof.Machine
open Sys2Proof

theorem setFull_memOk (s : State) (c off b) (h : MemOk s) : MemOk (setFull s c off b) := by
  unfold setFull
  repeat' first
    | with_reducible assumption | with_reducible apply State.modCore_memOk | with_reducible apply State.post_memOk
    | intro _
    | (extract_lets +onlyGivenNames z; with_reducible refine memOk_seq (s := z) ?_ ?_; subst z; rotate_left; clear_value z)
    | split

theorem logUndo_memOk (k0 : Core) (off n) (h : k0.spad.wf = true) : (logUndo k0 off n).spad.wf = true := by
  unfold logUndo
  repeat' first | assumption | split

theorem feRelease_memOk (s : State) (c off) (h : MemOk s) : MemOk (feRelease s c off) := by
  unfold feRelease
  repeat' first
    | with_reducible assumption | with_reducible apply postEntries_memOk | with_reducible apply takeFault_memOk
    | with_reducible apply wakeLine_memOk | with_reducible apply setFull_memOk | with_reducible apply finishWait_memOk
    | with_reducible apply writeG_memOk | with_reducible apply State.modCore_memOk
    | with_reducible apply logUndo_memOk | with_reducible apply writePlace_memOk | intro _
    | (extract_lets +onlyGivenNames z; with_reducible refine memOk_seq (s := z) ?_ ?_; subst z; rotate_left; clear_value z)
    | (extract_lets +onlyGivenNames z; clear_value z) | split | with_reducible apply memOk_with

theorem feSettle_memOk (s : State) (c off x2) : MemOk s → MemOk (feSettle s c off x2) := by
  fun_induction feSettle s c off x2
  all_goals intro h
  repeat' first | with_reducible apply feRelease_memOk | apply_assumption

theorem feDue_memOk (s : State) (c word) (h : MemOk s) : MemOk (feDue s c word) := by
  unfold feDue
  repeat' first
    | assumption | apply feSettle_memOk | (extract_lets +onlyGivenNames z; clear_value z) | split | apply memOk_with

theorem feFirst_memOk (s : State) (c off n) (h : MemOk s) : MemOk (feFirst s c off n) := by
  unfold feFirst
  repeat' first
    | assumption | apply feDue_memOk | apply foldl_memOk | intro _ | split

theorem changeFull_memOk (s : State) (c off b) (h : MemOk s) : MemOk (changeFull s c off b) := by
  unfold changeFull
  repeat' first
    | with_reducible assumption | with_reducible apply wakeLine_memOk | with_reducible apply setFull_memOk
    | with_reducible apply State.post_memOk | intro _
    | (extract_lets +onlyGivenNames z; with_reducible refine memOk_seq (s := z) ?_ ?_; subst z; rotate_left; clear_value z)
    | split

theorem spadUnit_memOk (s : State) (c off n op own) (h : MemOk s) : MemOk (spadUnit s c off n op own).1 := by
  unfold spadUnit
  repeat' first
    | with_reducible assumption | with_reducible apply feFirst_memOk | with_reducible apply State.modCore_memOk
    | with_reducible apply logUndo_memOk | with_reducible apply setFull_memOk | with_reducible apply writePlace_memOk
    | with_reducible apply State.post_memOk | intro _
    | (extract_lets +onlyGivenNames z; with_reducible refine memOk_seq (s := z) ?_ ?_; subst z; rotate_left; clear_value z)
    | (extract_lets +onlyGivenNames z; clear_value z) | split

theorem addWatch_memOk (s : State) (w) (h : MemOk s) : MemOk (addWatch s w) := by
  unfold addWatch
  repeat' first
    | assumption | apply recallAll_memOk | apply putDir_memOk | split | apply memOk_with

theorem armWatch_memOk (s : State) (r p) (h : MemOk s) : MemOk (armWatch s r p).1 := by
  unfold armWatch
  repeat' first
    | assumption | apply addWatch_memOk | (extract_lets +onlyGivenNames z; clear_value z) | split

theorem disarmWatch_memOk (s : State) (r p) (h : MemOk s) : MemOk (disarmWatch s r p).1 := by
  unfold disarmWatch
  repeat' first
    | assumption | apply postEntries_memOk | (extract_lets +onlyGivenNames z; clear_value z) | split
    | apply memOk_with

theorem disarmEvery_memOk (s : State) (r) (h : MemOk s) : MemOk (disarmEvery s r).1 := by
  unfold disarmEvery
  repeat' first | assumption | apply postEntries_memOk | apply memOk_with

theorem watchUnit_memOk (s : State) (r op p) (h : MemOk s) : MemOk (watchUnit s r op p).1 := by
  unfold watchUnit
  repeat' first
    | assumption | apply armWatch_memOk | apply disarmWatch_memOk | apply disarmEvery_memOk | split

theorem holdWrite_memOk (s : State) (r p bs) (h : MemOk s) : MemOk (holdWrite s r p bs) := by
  unfold holdWrite
  repeat' first | assumption | apply State.modCore_memOk | intro _

theorem directUnit_memOk (s : State) (r u p) (h : MemOk s) : MemOk (directUnit s r u p).1 := by
  unfold directUnit
  repeat' first
    | with_reducible assumption | with_reducible apply fetchPriv_memOk | with_reducible apply fetchCopy_memOk
    | with_reducible apply fetchHost_memOk | with_reducible apply writePlace_memOk | intro _
    | (extract_lets +onlyGivenNames z; with_reducible refine memOk_seq (s := z) ?_ ?_; subst z; rotate_left; clear_value z)
    | (extract_lets +onlyGivenNames z; clear_value z) | split

theorem l1Unit_memOk (s : State) (c pa n op) (h : MemOk s) : MemOk (l1Unit s c pa n op).1 := by
  unfold l1Unit
  repeat' first
    | assumption | refine memOk_core ?_ _ | apply State.setCore_memOk | intro _
    | (extract_lets +onlyGivenNames z; with_reducible refine memOk_seq (s := z) ?_ ?_; subst z; rotate_left; clear_value z)
    | (extract_lets +onlyGivenNames z; with_reducible refine wf_seq (k := z) ?_ ?_; subst z; rotate_left; clear_value z)
    | (extract_lets +onlyGivenNames z; clear_value z) | split

theorem sampleHist_memOk (s : State) (part source v) (h : MemOk s) : MemOk (sampleHist s part source v) := by
  unfold sampleHist
  repeat' first
    | with_reducible assumption | with_reducible apply State.post_memOk | with_reducible apply foldl_memOk | intro _
    | split

theorem finishAccess_memOk (s : State) (c slot fin outs) (h : MemOk s) :
    MemOk (finishAccess s c slot fin outs) := by
  unfold finishAccess
  repeat' first
    | assumption | apply writeG_memOk | apply State.modThread_memOk | apply quitThread_memOk
    | (extract_lets +onlyGivenNames z; clear_value z) | split

theorem modAcc_memOk (s : State) (r rid f) (h : MemOk s) : MemOk (modAcc s r rid f) := by
  unfold modAcc
  repeat' first | assumption | apply State.setThread_memOk | split

theorem postAcc_memOk (s : State) (r rid) (h : MemOk s) : MemOk (postAcc s r rid) := by
  unfold postAcc
  repeat' first | with_reducible assumption | with_reducible apply State.post_memOk | split

theorem wakeRelaxed_memOk (s : State) (r) (h : MemOk s) : MemOk (wakeRelaxed s r) := by
  unfold wakeRelaxed
  repeat' first
    | with_reducible assumption | with_reducible apply State.post_memOk | with_reducible apply resumeIssue_memOk
    | (extract_lets +onlyGivenNames z; clear_value z) | split

theorem postRelaxed_memOk (s : State) (r) (h : MemOk s) : MemOk (postRelaxed s r) := by
  unfold postRelaxed
  repeat' first
    | with_reducible assumption | with_reducible apply State.post_memOk | with_reducible apply foldl_memOk | intro _
    | split

theorem failAcc_memOk (s : State) (r rid f) (h : MemOk s) : MemOk (failAcc s r rid f) := by
  unfold failAcc
  repeat' first
    | with_reducible assumption | with_reducible apply takeFault_memOk | with_reducible apply State.setThread_memOk
    | with_reducible apply rcWrote_memOk | with_reducible apply postRelaxed_memOk
    | with_reducible apply wakeRelaxed_memOk | with_reducible apply postWaiting_memOk
    | with_reducible apply postFill_memOk | split

theorem quietly_memOk {α : Type} (p : Place) (f : State → State × α) (s : State) (h : MemOk s)
    (h1 : ∀ s, MemOk s → MemOk (f s).1) : MemOk (quietly p f s).1 := by
  unfold quietly
  extract_lets mine x
  have hx : MemOk x.1 := h1 _ (by with_reducible apply memOk_with; exact h)
  clear_value x
  with_reducible apply memOk_with
  exact hx

theorem ownUnits_memOk (s : State) (r x1) (h : MemOk s) : MemOk (ownUnits s r x1).1 := by
  induction x1 generalizing s r with
  | nil => exact h
  | cons _ _ ih =>
    unfold ownUnits
    repeat' first
      | assumption | apply feFirst_memOk | apply spadUnit_memOk | apply watchUnit_memOk | apply quietly_memOk
      | apply ih | intro _
      | (extract_lets +onlyGivenNames z; with_reducible refine memOk_seq (s := z.1) ?_ ?_; subst z; rotate_left; clear_value z)
      | split | refine pair_fst (by assumption) ?_

theorem joinWalk_memOk (s : State) (r t va) (h : MemOk s) : MemOk (joinWalk s r t va) := by
  unfold joinWalk
  repeat' first
    | with_reducible assumption | with_reducible apply State.post_memOk | with_reducible apply State.bump_memOk
    | (extract_lets +onlyGivenNames z; clear_value z) | split | with_reducible apply memOk_with

theorem sendRemote_memOk (s : State) (r rid part kind u pkg pa) (h : MemOk s) :
    MemOk (sendRemote s r rid part kind u pkg pa) := by
  unfold sendRemote
  repeat' first | assumption | apply State.bump_memOk | apply memOk_with

theorem dropOthers_memOk (s : State) (die c key) (h : MemOk s) : MemOk (dropOthers s die c key) := by
  unfold dropOthers
  repeat' first | assumption | refine memOk_mapCores ?_ ?_ | intro _ | split

theorem rdcGrant_memOk (s : State) (c key l write) (h : MemOk s) : MemOk (rdcGrant s c key l write) := by
  unfold rdcGrant
  repeat' first
    | with_reducible assumption | with_reducible apply dropOthers_memOk | with_reducible apply setRdc_memOk
    | with_reducible apply fillL1_memOk | with_reducible apply State.modCore_memOk | intro _ | split

theorem askLine_memOk (s : State) (r rid pa write) (h : MemOk s) : MemOk (askLine s r rid pa write).1 := by
  unfold askLine
  repeat' first
    | with_reducible assumption | with_reducible apply sendMsg_memOk | with_reducible apply rdcGrant_memOk
    | (extract_lets +onlyGivenNames z; clear_value z) | split

theorem sendUnit_memOk (s : State) (r rid part u) (h : MemOk s) : MemOk (sendUnit s r rid part u).1 := by
  unfold sendUnit
  repeat' first
    | with_reducible assumption | with_reducible apply State.post_memOk | with_reducible apply State.modCore_memOk
    | with_reducible apply askLine_memOk | with_reducible apply sendMsg_memOk | with_reducible apply sendRemote_memOk
    | intro _ | (extract_lets +onlyGivenNames z; clear_value z) | split

theorem sendUnits_memOk (s : State) (r rid t x3) : MemOk s → MemOk (sendUnits s r rid t x3).1 := by
  fun_induction sendUnits s r rid t x3
  all_goals intro h
  repeat' first | apply sendUnit_memOk | apply_assumption

theorem tryMove_memOk (s : State) (r t us) (h : MemOk s) : OptOk (tryMove s r t us) := by
  unfold tryMove
  repeat' first
    | assumption | apply takeFault_memOk | apply State.setThread_memOk | apply migrate_memOk | exact OptOk.none
    | apply OptOk.some | split

theorem pump_memOk (s : State) (r rid) (h : MemOk s) : MemOk (pump s r rid) := by
  unfold pump
  repeat' first
    | assumption | apply failAcc_memOk | apply joinWalk_memOk | apply State.setThread_memOk | apply tryMove_memOk
    | apply sendUnits_memOk | apply modAcc_memOk | apply postAcc_memOk | exact OptOk.none | intro _
    | (extract_lets +onlyGivenNames z; with_reducible refine memOk_seq (s := z) ?_ ?_; subst z; rotate_left; clear_value z)
    | (extract_lets +onlyGivenNames z; with_reducible refine memOk_seq (s := z.1) ?_ ?_; subst z; rotate_left; clear_value z)
    | (extract_lets +onlyGivenNames z; clear_value z) | split | refine opt_get (by assumption) ?_

theorem pumpList_memOk (s : State) (r x1) : MemOk s → MemOk (pumpList s r x1) := by
  fun_induction pumpList s r x1
  all_goals intro h
  repeat' first | apply pump_memOk | apply_assumption

theorem pumpAll_memOk (s : State) (r) (h : MemOk s) : MemOk (pumpAll s r) := by
  unfold pumpAll
  repeat' first | assumption | apply pumpList_memOk | split

theorem deliverRelaxed_memOk (s : State) (r id) (h : MemOk s) : MemOk (deliverRelaxed s r id) := by
  unfold deliverRelaxed
  repeat' first
    | with_reducible assumption | with_reducible apply State.setThread_memOk | with_reducible apply finishAccess_memOk
    | with_reducible apply pumpAll_memOk | with_reducible apply wakeRelaxed_memOk
    | with_reducible apply postWaiting_memOk | with_reducible apply postFill_memOk | split

theorem completeIfDone_memOk (s : State) (r rid) (h : MemOk s) : MemOk (completeIfDone s r rid) := by
  unfold completeIfDone
  repeat' first
    | with_reducible assumption | with_reducible apply deliverRelaxed_memOk | with_reducible apply finishAccess_memOk
    | with_reducible apply sampleHist_memOk | with_reducible apply finishWait_memOk | split

theorem performPiece_memOk (s : State) (r rid k u) (f : State → State × Option (List Byte)) (h : MemOk s)
    (h1 : ∀ s, MemOk s → MemOk (f s).1) : MemOk (performPiece s r rid k u f) := by
  unfold performPiece
  extract_lets g
  have hg : MemOk (g s).1 := by
    dsimp only [g]
    split
    · exact quietly_memOk _ _ _ h h1
    · exact h1 _ h
  clear_value g
  split
  · exact modAcc_memOk _ _ _ _ (pair_fst (by assumption) hg)
  · exact failAcc_memOk _ _ _ _ (pair_fst (by assumption) hg)

theorem performWhere_memOk (s : State) (x0 x1 x2 x3 x4) (h : MemOk s) (h1 : ∀ s u p, MemOk s → MemOk (x3 s u p).1) :
    MemOk (performWhere s x0 x1 x2 x3 x4) := by
  induction x4 generalizing s x0 x1 with
  | nil => exact h
  | cons _ _ ih =>
    unfold performWhere
    repeat' first
      | assumption | apply performPiece_memOk | apply ih | apply h1 | intro _ | split

theorem performLine_memOk (s : State) (r rid line) (h : MemOk s) : MemOk (performLine s r rid line) := by
  unfold performLine
  repeat' first
    | assumption | apply performWhere_memOk | apply l1Unit_memOk | apply completeIfDone_memOk | intro _

theorem startAccess_memOk (s : State) (c slot t us align x5 fin auto sup) (h : MemOk s) :
    MemOk (startAccess s c slot t us align x5 fin auto sup) := by
  unfold startAccess
  repeat' first
    | assumption | apply takeFault_memOk | apply ownUnits_memOk | apply finishAccess_memOk | apply pump_memOk
    | apply beginWait_memOk | (extract_lets +onlyGivenNames z; clear_value z) | split
    | refine pair_fst (by assumption) ?_

theorem readPieces_memOk (s : State) (c part proc x3 x4) (h : MemOk s) :
    MemOk (readPieces s c part proc x3 x4).1 := by
  induction x4 generalizing s c part proc x3 with
  | nil => exact h
  | cons _ _ ih =>
    unfold readPieces
    repeat' first
      | assumption | apply resolve_memOk | apply ih | (extract_lets +onlyGivenNames z; clear_value z) | split
      | refine pair_fst (by assumption) ?_

theorem readVa_memOk (s : State) (c part proc va n) (h : MemOk s) : MemOk (readVa s c part proc va n).1 := by
  unfold readVa
  repeat' first | assumption | apply readPieces_memOk

theorem searchRights_memOk (s : State) (c part proc authp x4 e x6) (h : MemOk s) :
    MemOk (searchRights s c part proc authp x4 e x6).1 := by
  induction x6 generalizing s c part proc authp x4 e with
  | zero => exact h
  | succ _ ih =>
    unfold searchRights
    repeat' first
      | assumption | apply readVa_memOk | apply ih | (extract_lets +onlyGivenNames z; clear_value z) | split
      | refine pair_fst (by assumption) ?_

theorem rightsOver_memOk (s : State) (c t x2) (h : MemOk s) : MemOk (rightsOver s c t x2).1 := by
  unfold rightsOver
  repeat' first
    | assumption | apply readVa_memOk | apply searchRights_memOk | split | refine pair_fst (by assumption) ?_

theorem ownRights_memOk (s : State) (c slot t) (h : MemOk s) : MemOk (ownRights s c slot t).1 := by
  unfold ownRights
  repeat' first | assumption | apply rightsOver_memOk

theorem needRight_memOk (s : State) (c slot t right) (h : MemOk s) : MemOk (needRight s c slot t right).1 := by
  unfold needRight
  repeat' first | assumption | apply ownRights_memOk | split | refine pair_fst (by assumption) ?_

theorem cellPlace_memOk (s : State) (c t va align own) (h : MemOk s) : MemOk (cellPlace s c t va align own).1 := by
  unfold cellPlace
  repeat' first | assumption | apply resolve_memOk | split | refine pair_fst (by assumption) ?_

theorem doSpawn_memOk (s : State) (c slot t d name start) (h : MemOk s) :
    MemOk (doSpawn s c slot t d name start) := by
  unfold doSpawn
  repeat' first
    | with_reducible assumption | with_reducible apply writeG_memOk | with_reducible apply sendPacket_memOk
    | with_reducible apply beginWait_memOk | split

theorem execSpawn_memOk (g d a b) (s : State) (h : MemOk s) : OutOk (execSpawn g d a b s) := by
  unfold execSpawn
  repeat' first | assumption | apply issue_memOk | apply doSpawn_memOk | intro _

theorem execQuit_memOk (g) (s : State) (h : MemOk s) : OutOk (execQuit g s) := by
  unfold execQuit
  repeat' first | assumption | apply issue_memOk | apply quitThread_memOk | intro _

theorem doMigr_memOk (s : State) (c slot t ea) (h : MemOk s) : MemOk (doMigr s c slot t ea) := by
  unfold doMigr
  repeat' first
    | assumption | apply resolve_memOk | apply takeFault_memOk | apply migrate_memOk | apply optOk_getD | split
    | refine pair_fst (by assumption) ?_

theorem execMigr_memOk (g a) (s : State) (h : MemOk s) : OutOk (execMigr g a s) := by
  unfold execMigr
  repeat' first | assumption | apply issue_memOk | apply doMigr_memOk | intro _

theorem doSend_memOk (s : State) (c slot t d name pc) (h : MemOk s) : MemOk (doSend s c slot t d name pc) := by
  unfold doSend
  repeat' first
    | with_reducible assumption | with_reducible apply sendAway_memOk | with_reducible apply beginWait_memOk
    | with_reducible apply writeG_memOk | with_reducible apply sendPacket_memOk | split

theorem execSend_memOk (g d a b) (s : State) (h : MemOk s) : OutOk (execSend g d a b s) := by
  unfold execSend
  repeat' first | assumption | apply issue_memOk | apply doSend_memOk | intro _

theorem takeRecruit_memOk (s : State) (t c q) (h : MemOk s) : OptOk (takeRecruit s t c q) := by
  unfold takeRecruit
  repeat' first
    | assumption | apply State.modCore_memOk | apply State.modPart_memOk | apply State.bump_memOk | exact OptOk.none
    | apply OptOk.some | intro _ | (extract_lets +onlyGivenNames z; clear_value z) | split | apply memOk_with

theorem takeRecruits_memOk (s : State) (t c q x3) : MemOk s → MemOk (takeRecruits s t c q x3).1 := by
  fun_induction takeRecruits s t c q x3
  all_goals intro h
  repeat' first | apply takeRecruit_memOk | apply_assumption | refine opt_get (by assumption) ?_

theorem findRecruits_memOk (s : State) (t c want x3) : MemOk s → MemOk (findRecruits s t c want x3).1 := by
  fun_induction findRecruits s t c want x3
  all_goals intro h
  repeat' first | apply takeRecruits_memOk | apply_assumption

theorem sendRecruits_memOk (s : State) (first T parts n x4) :
    MemOk s → MemOk (sendRecruits s first T parts n x4) := by
  fun_induction sendRecruits s first T parts n x4
  all_goals intro h
  repeat' first | apply_assumption

theorem doFork_memOk (s : State) (c slot t d jc trip) (h : MemOk s) : MemOk (doFork s c slot t d jc trip) := by
  unfold doFork
  repeat' first
    | with_reducible assumption | with_reducible apply cellPlace_memOk | with_reducible apply takeFault_memOk
    | with_reducible apply findRecruits_memOk | with_reducible apply storeAt_memOk
    | with_reducible apply sendRecruits_memOk | with_reducible apply writeG_memOk | split
    | with_reducible refine pair_fst (by with_reducible assumption) ?_

theorem execFork_memOk (g d a b) (s : State) (h : MemOk s) : OutOk (execFork g d a b s) := by
  unfold execFork
  repeat' first | assumption | apply issue_memOk | apply doFork_memOk | intro _

theorem execJoin_memOk (g a) (s : State) (h : MemOk s) : OutOk (execJoin g a s) := by
  unfold execJoin
  repeat' first | assumption | apply issue_memOk | apply startAccess_memOk | intro _

theorem touchLease_memOk (s : State) (line agent) (h : MemOk s) : MemOk (touchLease s line agent) := by
  unfold touchLease
  repeat' first
    | with_reducible assumption | with_reducible apply setLease_memOk
    | (extract_lets +onlyGivenNames z; clear_value z) | split

theorem homeStore_memOk (s : State) (pa bytes poison) (h : MemOk s) : MemOk (homeStore s pa bytes poison) := by
  unfold homeStore
  repeat' first | assumption | apply wakeLine_memOk | apply clearFl_memOk | apply writeHome_memOk

theorem fillAgent_memOk (s : State) (line m write) (h : MemOk s) : MemOk (fillAgent s line m write) := by
  unfold fillAgent
  repeat' first
    | with_reducible assumption | with_reducible apply State.modCore_memOk | with_reducible apply fillL1_memOk
    | with_reducible apply rdcPut_memOk | with_reducible apply rdcGrant_memOk | intro _
    | (extract_lets +onlyGivenNames z; with_reducible refine memOk_seq (s := z) ?_ ?_; subst z; rotate_left; clear_value z)
    | (extract_lets +onlyGivenNames z; clear_value z) | split

theorem afterGrant_memOk (s : State) (m) (h : MemOk s) : MemOk (afterGrant s m) := by
  unfold afterGrant
  repeat' first | assumption | apply performLine_memOk | split

theorem grantS_memOk (s : State) (m) (h : MemOk s) : MemOk (grantS s m) := by
  unfold grantS
  repeat' first
    | assumption | apply touchLease_memOk | apply putDir_memOk | apply afterGrant_memOk | apply fillAgent_memOk
    | split

theorem carriedStore_memOk (s : State) (m) (h : MemOk s) : MemOk (carriedStore s m) := by
  unfold carriedStore
  repeat' first
    | assumption | apply completeIfDone_memOk | apply performWhere_memOk | apply homeStore_memOk | intro _ | split

theorem grantE_memOk (s : State) (m) (h : MemOk s) : MemOk (grantE s m) := by
  unfold grantE
  repeat' first
    | assumption | apply touchLease_memOk | apply carriedStore_memOk | apply putDir_memOk | apply fillAgent_memOk
    | apply dropAgent_memOk | apply afterGrant_memOk | intro _
    | (extract_lets +onlyGivenNames z; with_reducible refine memOk_seq (s := z) ?_ ?_; subst z; rotate_left; clear_value z)
    | split

theorem performAmo_memOk (s : State) (m) (h : MemOk s) : MemOk (performAmo s m) := by
  unfold performAmo
  repeat' first
    | assumption | apply completeIfDone_memOk | apply performWhere_memOk | apply homeStore_memOk | intro _
    | (extract_lets +onlyGivenNames z; clear_value z) | split

theorem modCmd_memOk (s : State) (id f) (h : MemOk s) : MemOk (modCmd s id f) := by
  unfold modCmd
  repeat' first | assumption | apply memOk_with

theorem ownNext_memOk (s : State) (id) (h : MemOk s) : MemOk (ownNext s id) := by
  unfold ownNext
  repeat' first
    | with_reducible assumption | with_reducible apply sendMsg_memOk | with_reducible apply State.post_memOk | split

theorem ownGranted_memOk (s : State) (line id) (h : MemOk s) : MemOk (ownGranted s line id) := by
  unfold ownGranted
  repeat' first | assumption | apply ownNext_memOk | apply modCmd_memOk

theorem pinNext_memOk (s : State) (id) (h : MemOk s) : MemOk (pinNext s id) := by
  unfold pinNext
  repeat' first
    | with_reducible assumption | with_reducible apply sendMsg_memOk | with_reducible apply State.post_memOk | split

theorem pinGranted_memOk (s : State) (line id) (h : MemOk s) : MemOk (pinGranted s line id) := by
  unfold pinGranted
  repeat' first | assumption | apply pinNext_memOk | apply modCmd_memOk

theorem sendRecalls_memOk (s : State) (line x1) : MemOk s → MemOk (sendRecalls s line x1) := by
  fun_induction sendRecalls s line x1
  all_goals intro h
  repeat' first | apply_assumption

theorem serveNow_memOk (s : State) (m) (h : MemOk s) : MemOk (serveNow s m) := by
  unfold serveNow
  repeat' first
    | with_reducible assumption | with_reducible apply grantS_memOk | with_reducible apply grantE_memOk
    | with_reducible apply putDir_memOk | with_reducible apply performAmo_memOk
    | with_reducible apply touchLease_memOk | with_reducible apply ownGranted_memOk
    | with_reducible apply pinGranted_memOk | split

theorem startRequest_memOk (s : State) (m) (h : MemOk s) : MemOk (startRequest s m) := by
  unfold startRequest
  repeat' first
    | assumption | apply serveNow_memOk | apply sendRecalls_memOk | apply putDir_memOk
    | (extract_lets +onlyGivenNames z; clear_value z) | split

theorem refuse_memOk (s : State) (m) (h : MemOk s) : MemOk (refuse s m) := by
  unfold refuse
  repeat' first | assumption | apply sendMsg_memOk

theorem queuedWrite_memOk (s : State) (m) (h : MemOk s) : MemOk (queuedWrite s m) := by
  unfold queuedWrite
  repeat' first | assumption | apply writePlace_memOk

theorem sendCall_memOk (s : State) (m) (h : MemOk s) : MemOk (sendCall s m) := by
  unfold sendCall
  repeat' first | with_reducible assumption | with_reducible apply State.post_memOk | split

theorem serveQueue_memOk (s : State) (line x1) (h : MemOk s) : MemOk (serveQueue s line x1) := by
  induction x1 generalizing s line with
  | zero => exact h
  | succ _ ih =>
    unfold serveQueue
    repeat' first
      | with_reducible assumption | with_reducible apply setDir_memOk | with_reducible apply startRequest_memOk
      | with_reducible apply refuse_memOk | with_reducible apply queuedWrite_memOk
      | with_reducible apply sendCall_memOk | with_reducible apply ih | intro _
      | (extract_lets +onlyGivenNames z; with_reducible refine memOk_seq (s := z) ?_ ?_; subst z; rotate_left; clear_value z)
      | (extract_lets +onlyGivenNames z; clear_value z) | split

theorem serveAll_memOk (s : State) (line) (h : MemOk s) : MemOk (serveAll s line) := by
  unfold serveAll
  repeat' first | assumption | apply serveQueue_memOk

theorem request_memOk (s : State) (m) (h : MemOk s) : MemOk (request s m) := by
  unfold request
  repeat' first
    | with_reducible assumption | with_reducible apply refuse_memOk | with_reducible apply putDir_memOk
    | with_reducible apply startRequest_memOk | (extract_lets +onlyGivenNames z; clear_value z) | split

theorem atHome_memOk (s : State) (e line write twice f) (h : MemOk s) (h1 : ∀ s, MemOk s → MemOk (f s)) :
    MemOk (atHome s e line write twice f) := by
  unfold atHome
  repeat' first
    | assumption | apply setDir_memOk | apply serveAll_memOk | apply h1 | intro _
    | (extract_lets +onlyGivenNames z; with_reducible refine memOk_seq (s := z) ?_ ?_; subst z; rotate_left; clear_value z)
    | (extract_lets +onlyGivenNames z; clear_value z) | split

theorem atPlace_memOk (s : State) (e p write twice f) (h : MemOk s) (h1 : ∀ s, MemOk s → MemOk (f s)) :
    MemOk (atPlace s e p write twice f) := by
  unfold atPlace
  repeat' first | assumption | apply atHome_memOk | apply h1 | split

theorem settleAct_memOk (s : State) (e) (h : MemOk s) : MemOk (settleAct s e) := by
  unfold settleAct
  repeat' first | assumption | apply serveAll_memOk | apply setDir_memOk | split

theorem unblock_memOk (s : State) (h : MemOk s) : MemOk (unblock s) := by
  unfold unblock
  repeat' first
    | with_reducible assumption | with_reducible apply drainNext_memOk | with_reducible apply State.post_memOk
    | with_reducible apply foldl_memOk | with_reducible apply memOk_with

theorem barActs_memOk (s : State) (p j d n status) (h : MemOk s) : MemOk (barActs s p j d n status) := by
  unfold barActs
  repeat' first
    | assumption | apply writePlace_memOk | intro _
    | (extract_lets +onlyGivenNames z; with_reducible refine memOk_seq (s := z) ?_ ?_; subst z; rotate_left; clear_value z)
    | (extract_lets +onlyGivenNames z; clear_value z) | split

theorem barAct_memOk (s : State) (kind p status) (h : MemOk s) : MemOk (barAct s kind p status) := by
  unfold barAct
  repeat' first | assumption | apply barActs_memOk

theorem bregDone_memOk (s : State) (r phase) (h : MemOk s) : MemOk (bregDone s r phase) := by
  unfold bregDone
  repeat' first | assumption | apply finishWait_memOk | apply writeG_memOk | split

theorem barBatch_memOk (s : State) (p ms) (h : MemOk s) : MemOk (barBatch s p ms) := by
  unfold barBatch
  repeat' first | assumption | apply barActs_memOk

theorem cmdArrived_memOk (s : State) (m) (h : MemOk s) : MemOk (cmdArrived s m) := by
  unfold cmdArrived
  repeat' first
    | with_reducible assumption | with_reducible apply State.post_memOk | with_reducible apply modCmd_memOk | split

theorem barDone_memOk (s : State) (phase x1) : MemOk s → MemOk (barDone s phase x1) := by
  fun_induction barDone s phase x1
  all_goals intro h
  repeat' first | apply bregDone_memOk | apply cmdArrived_memOk | apply_assumption | split

theorem barMsg_memOk (s : State) (m) (h : MemOk s) : MemOk (barMsg s m) := by
  unfold barMsg
  repeat' first
    | assumption | apply postWaiting_memOk | apply barDone_memOk | apply barBatch_memOk | apply memOk_with

theorem barTurn_memOk (s : State) (e id) (h : MemOk s) : MemOk (barTurn s e id) := by
  unfold barTurn
  repeat' first
    | assumption | apply settleAct_memOk | apply atPlace_memOk | apply barMsg_memOk | intro _ | split

theorem execBarrierJoin_memOk (id) (s : State) (h : MemOk s) : OutOk (execBarrierJoin id s) := by
  unfold execBarrierJoin
  repeat' first | assumption | apply barTurn_memOk | apply OutOk.next

theorem execBarrierDrop_memOk (id) (s : State) (h : MemOk s) : OutOk (execBarrierDrop id s) := by
  unfold execBarrierDrop
  repeat' first | assumption | apply barTurn_memOk | apply OutOk.next

theorem execBarrierArrive_memOk (id) (s : State) (h : MemOk s) : OutOk (execBarrierArrive id s) := by
  unfold execBarrierArrive
  repeat' first | assumption | apply barTurn_memOk | apply OutOk.next

theorem registerBar_memOk (s : State) (c slot p) (h : MemOk s) : MemOk (registerBar s c slot p) := by
  unfold registerBar
  repeat' first
    | with_reducible assumption | with_reducible apply State.modThread_memOk | with_reducible apply bregDone_memOk
    | with_reducible apply State.modCore_memOk | with_reducible apply sendBar_memOk | intro _
    | (extract_lets +onlyGivenNames z; with_reducible refine memOk_seq (s := z) ?_ ?_; subst z; rotate_left; clear_value z)
    | split

theorem execBarrierRecordGrant_memOk (core) (s : State) (h : MemOk s) : OutOk (execBarrierRecordGrant core s) := by
  unfold execBarrierRecordGrant
  repeat' first
    | with_reducible assumption | with_reducible refine memOk_core ?_ _ | with_reducible apply State.post_memOk
    | with_reducible apply State.setCore_memOk | with_reducible apply takeFault_memOk
    | with_reducible apply registerBar_memOk | with_reducible apply OutOk.next | intro _
    | (extract_lets +onlyGivenNames z; with_reducible refine memOk_seq (s := z) ?_ ?_; subst z; rotate_left; clear_value z)
    | (extract_lets +onlyGivenNames z; with_reducible refine wf_seq (k := z) ?_ ?_; subst z; rotate_left; clear_value z)
    | (extract_lets +onlyGivenNames z; with_reducible refine fun_seq (f := z) ?_ ?_; subst z; rotate_left; clear_value z; intro hz)
    | with_reducible apply hz | (extract_lets +onlyGivenNames z; clear_value z) | split

theorem arriveBar_memOk (s : State) (c p) (h : MemOk s) : MemOk (arriveBar s c p) := by
  unfold arriveBar
  repeat' first
    | with_reducible assumption | with_reducible apply State.modCore_memOk | with_reducible apply sendBar_memOk
    | intro _ | extract_lets +onlyGivenNames z | split

theorem opBar_memOk (i g d a body) (s : State) (h : ∀ c slot t p s, MemOk s → MemOk (body c slot t p s))
    (h1 : MemOk s) :
    OutOk (opBar i g d a body s) := by
  unfold opBar
  repeat' first
    | assumption | apply issue_memOk | apply cellPlace_memOk | apply takeFault_memOk | apply h | intro _ | split
    | refine pair_fst (by assumption) ?_

theorem doBreg_memOk (d c slot t p) (s : State) (h : MemOk s) : MemOk (doBreg d c slot t p s) := by
  unfold doBreg
  repeat' first
    | with_reducible assumption | with_reducible apply writeG_memOk | with_reducible apply State.post_memOk
    | with_reducible apply State.modCore_memOk | with_reducible apply beginWait_memOk | intro _ | split

theorem execBreg_memOk (g d a) (s : State) (h : MemOk s) : OutOk (execBreg g d a s) := by
  unfold execBreg
  repeat' first | assumption | apply opBar_memOk | apply doBreg_memOk

theorem doBar_memOk (d va c slot t p) (s : State) (h : MemOk s) : MemOk (doBar d va c slot t p s) := by
  unfold doBar
  repeat' first
    | assumption | apply writeG_memOk | apply takeFault_memOk | apply beginWait_memOk | apply arriveBar_memOk | split
    | apply memOk_with

theorem execBar_memOk (g d a) (s : State) (h : MemOk s) : OutOk (execBar g d a s) := by
  unfold execBar
  repeat' first
    | with_reducible assumption | with_reducible apply opBar_memOk | with_reducible apply doBar_memOk | intro _

theorem doBard_memOk (d va c slot t p) (s : State) (h : MemOk s) : MemOk (doBard d va c slot t p s) := by
  unfold doBard
  repeat' first
    | assumption | apply writeG_memOk | apply takeFault_memOk | apply State.modThread_memOk | apply dropReg_memOk
    | split

theorem execBard_memOk (g d a) (s : State) (h : MemOk s) : OutOk (execBard g d a s) := by
  unfold execBard
  repeat' first
    | with_reducible assumption | with_reducible apply opBar_memOk | with_reducible apply doBard_memOk | intro _

theorem execChkpt_memOk (g d) (s : State) (h : MemOk s) : OutOk (execChkpt g d s) := by
  unfold execChkpt
  repeat' first
    | with_reducible assumption | with_reducible apply issue_memOk | with_reducible apply writeG_memOk
    | with_reducible apply State.post_memOk | with_reducible apply beginWait_memOk | intro _ | split

theorem chkptDone_memOk (s : State) (c x1) : MemOk s → MemOk (chkptDone s c x1) := by
  fun_induction chkptDone s c x1
  all_goals intro h
  repeat' first | apply writeG_memOk | apply finishWait_memOk | apply_assumption

theorem execCheckpointCommit_memOk (core) (s : State) (h : MemOk s) : OutOk (execCheckpointCommit core s) := by
  unfold execCheckpointCommit
  repeat' first
    | assumption | apply commitPair_memOk | apply chkptDone_memOk | apply OutOk.next | split

theorem recheckFence_memOk (s : State) (r) (h : MemOk s) : MemOk (recheckFence s r) := by
  unfold recheckFence
  repeat' first | assumption | apply finishWait_memOk | split

theorem recheckFences_memOk (s : State) (x0) : MemOk s → MemOk (recheckFences s x0) := by
  fun_induction recheckFences s x0
  all_goals intro h
  repeat' first | apply recheckFence_memOk | apply_assumption

theorem fenceApplied_memOk (s : State) (p x1) : MemOk s → MemOk (fenceApplied s p x1) := by
  fun_induction fenceApplied s p x1
  all_goals intro h
  repeat' first | apply writeG_memOk | apply finishWait_memOk | apply_assumption

theorem cwAnswer_memOk (s : State) (p r pos old) (h : MemOk s) : MemOk (cwAnswer s p r pos old) := by
  unfold cwAnswer
  repeat' first | assumption | apply finishWait_memOk | apply writeG_memOk | split

theorem applyOp_memOk (s : State) (p x1 own) (h : MemOk s) : MemOk (applyOp s p x1 own) := by
  unfold applyOp
  repeat' first
    | with_reducible assumption | with_reducible apply writePlace_memOk | with_reducible apply State.modPort_memOk
    | with_reducible apply recheckFence_memOk | with_reducible apply cwAnswer_memOk
    | with_reducible apply fenceApplied_memOk | intro _ | split

theorem applyOps_memOk (s : State) (p own x2) : MemOk s → MemOk (applyOps s p own x2) := by
  fun_induction applyOps s p own x2
  all_goals intro h
  repeat' first | with_reducible apply applyOp_memOk | apply_assumption

theorem advance_memOk (k0 : Port) (fcount) (h : k0.replica.wf = true) : (advance k0 fcount).replica.wf = true := by
  unfold advance
  repeat' first | assumption | split

theorem takeSnaps_memOk (k0 : Port) (h : k0.replica.wf = true) : (takeSnaps k0).replica.wf = true := by
  unfold takeSnaps
  repeat' first | assumption

theorem drainPort_memOk (s : State) (p x1) (h : MemOk s) : MemOk (drainPort s p x1) := by
  induction x1 generalizing s p with
  | zero => exact h
  | succ _ ih =>
    unfold drainPort
    repeat' first
      | assumption | apply State.modPort_memOk | apply applyOps_memOk | apply advance_memOk | apply takeSnaps_memOk
      | apply ih | intro _
      | (extract_lets +onlyGivenNames z; with_reducible refine memOk_seq (s := z) ?_ ?_; subst z; rotate_left; clear_value z)
      | (extract_lets +onlyGivenNames z; clear_value z) | split

theorem drainAll_memOk (s : State) (p) (h : MemOk s) : MemOk (drainAll s p) := by
  unfold drainAll
  repeat' first
    | assumption | apply drainPort_memOk | (extract_lets +onlyGivenNames z; clear_value z) | split

theorem logCwLeft_memOk (s : State) (p reason cause rotation) (h : MemOk s) :
    MemOk (logCwLeft s p reason cause rotation) := by
  unfold logCwLeft
  repeat' first | assumption | apply logEvent_memOk

theorem faultWaiters_memOk (s : State) (p x1) : MemOk s → MemOk (faultWaiters s p x1) := by
  fun_induction faultWaiters s p x1
  all_goals intro h
  repeat' first | apply takeFault_memOk | apply_assumption

theorem portLeave_memOk (s : State) (p st cause) (h : MemOk s) : MemOk (portLeave s p st cause) := by
  unfold portLeave
  repeat' first
    | with_reducible assumption | with_reducible apply logCwLeft_memOk | with_reducible apply State.modPort_memOk
    | with_reducible apply recheckFences_memOk | with_reducible apply faultWaiters_memOk | rfl | intro _

theorem portJoin_memOk (s : State) (p) (h : MemOk s) : MemOk (portJoin s p) := by
  unfold portJoin
  repeat' first
    | assumption | apply State.modPort_memOk | rfl | intro _ | split

theorem refuseJoin_memOk (s : State) (p reason) (h : MemOk s) : MemOk (refuseJoin s p reason) := by
  unfold refuseJoin
  repeat' first | assumption | apply logCwLeft_memOk | apply State.modPort_memOk | intro _

theorem execCwJoin_memOk (port) (s : State) (h : MemOk s) : OutOk (execCwJoin port s) := by
  unfold execCwJoin
  repeat' first | assumption | apply portJoin_memOk | apply OutOk.next

theorem execCwLeave_memOk (port) (s : State) (h : MemOk s) : OutOk (execCwLeave port s) := by
  unfold execCwLeave
  repeat' first | assumption | apply portLeave_memOk | apply OutOk.next | split

theorem execJoinListenEnd_memOk (port heard) (s : State) (h : MemOk s) :
    OutOk (execJoinListenEnd port heard s) := by
  unfold execJoinListenEnd
  repeat' first
    | assumption | apply refuseJoin_memOk | apply State.modPort_memOk | apply OutOk.next | intro _
    | (extract_lets +onlyGivenNames z; clear_value z) | split

theorem execFounderWaitEnd_memOk (port heard) (s : State) (h : MemOk s) :
    OutOk (execFounderWaitEnd port heard s) := by
  unfold execFounderWaitEnd
  repeat' first
    | assumption | apply refuseJoin_memOk | apply State.modPort_memOk | apply OutOk.next | intro _
    | (extract_lets +onlyGivenNames z; clear_value z) | split

theorem execJoinGrantTimeout_memOk (port) (s : State) (h : MemOk s) : OutOk (execJoinGrantTimeout port s) := by
  unfold execJoinGrantTimeout
  repeat' first | assumption | apply refuseJoin_memOk | apply OutOk.next | split

theorem execFrameControl_memOk (port index cwid slots) (s : State) (h : MemOk s) :
    OutOk (execFrameControl port index cwid slots s) := by
  unfold execFrameControl
  repeat' first
    | assumption | apply State.modPort_memOk | apply OutOk.next | intro _
    | (extract_lets +onlyGivenNames z; clear_value z) | split

theorem trim_memOk (k0 : Port) (rot) (h : k0.replica.wf = true) : (trim k0 rot).replica.wf = true := by
  unfold trim
  repeat' first | assumption

theorem seeView_memOk (k0 : Port) (v) (h : k0.replica.wf = true) : (seeView k0 v).replica.wf = true := by
  unfold seeView
  repeat' first | assumption | apply trim_memOk

theorem openRotation_memOk (x : Port) (held) (h : x.replica.wf = true) :
    (openRotation x held).replica.wf = true := by
  unfold openRotation
  extract_lets rot y z
  have hz : z.replica.wf = true := seeView_memOk _ _ h
  clear_value z
  split
  · split <;> exact hz
  · exact hz

theorem execRotationOpen_memOk (port view) (s : State) (h : MemOk s) : OutOk (execRotationOpen port view s) := by
  unfold execRotationOpen
  repeat' first
    | with_reducible assumption | with_reducible refine memOk_port ?_ _ | with_reducible apply drainAll_memOk
    | with_reducible apply State.modPort_memOk | with_reducible apply openRotation_memOk
    | with_reducible apply seeView_memOk | with_reducible apply portLeave_memOk | with_reducible apply OutOk.next
    | intro _ | extract_lets +onlyGivenNames z | split

theorem hearOwn_memOk (s : State) (port f x2) (h : MemOk s) : MemOk (hearOwn s port f x2) := by
  unfold hearOwn
  repeat' first | with_reducible assumption | with_reducible apply State.post_memOk | split

theorem sendBurst_memOk (s : State) (port) (h : MemOk s) : MemOk (sendBurst s port) := by
  unfold sendBurst
  repeat' first
    | with_reducible assumption | with_reducible apply State.modPort_memOk | with_reducible apply hearOwn_memOk
    | with_reducible apply State.post_memOk | with_reducible apply foldl_memOk | intro _
    | (extract_lets +onlyGivenNames z; with_reducible refine memOk_seq (s := z) ?_ ?_; subst z; rotate_left; clear_value z)
    | (extract_lets +onlyGivenNames z; clear_value z) | split

theorem execBurstSend_memOk (port) (s : State) (h : MemOk s) : OutOk (execBurstSend port s) := by
  unfold execBurstSend
  repeat' first
    | with_reducible assumption | with_reducible apply State.post_memOk | with_reducible apply State.modPort_memOk
    | with_reducible apply sendBurst_memOk | with_reducible apply OutOk.next | intro _
    | (extract_lets +onlyGivenNames z; clear_value z) | split

theorem noteFrame_memOk (k0 : Port) (f fresh) (h : k0.replica.wf = true) :
    (noteFrame k0 f fresh).replica.wf = true := by
  unfold noteFrame
  repeat' first | assumption | split

theorem bufferFrame_memOk (k0 : Port) (f fresh) (h : k0.replica.wf = true) :
    (bufferFrame k0 f fresh).replica.wf = true := by
  unfold bufferFrame
  repeat' first | assumption

theorem takeFrame_memOk (s : State) (port f fresh) (h : MemOk s) : MemOk (takeFrame s port f fresh) := by
  unfold takeFrame
  repeat' first
    | assumption | apply drainAll_memOk | apply State.modPort_memOk | apply bufferFrame_memOk | apply noteFrame_memOk
    | intro _

theorem execFrameData_memOk (port frame) (s : State) (h : MemOk s) : OutOk (execFrameData port frame s) := by
  unfold execFrameData
  repeat' first | assumption | apply takeFrame_memOk | apply OutOk.next | split

theorem loadSnap_memOk (k0 : Port) (off data) (h : k0.replica.wf = true) :
    (loadSnap k0 off data).replica.wf = true := by
  unfold loadSnap
  repeat' first | assumption | apply Mem.writeN_wf | split

theorem takeSnap_memOk (s : State) (port frame) (h : MemOk s) : MemOk (takeSnap s port frame) := by
  unfold takeSnap
  repeat' first
    | assumption | apply State.modPort_memOk | apply loadSnap_memOk | apply drainAll_memOk | intro _
    | (extract_lets +onlyGivenNames z; with_reducible refine memOk_seq (s := z) ?_ ?_; subst z; rotate_left; clear_value z)
    | (extract_lets +onlyGivenNames z; clear_value z) | split

theorem execFrameReplay_memOk (port frame) (s : State) (h : MemOk s) : OutOk (execFrameReplay port frame s) := by
  unfold execFrameReplay
  repeat' first | assumption | apply takeSnap_memOk | apply takeFrame_memOk | apply OutOk.next | split

theorem execFrameSnapshot_memOk (port frame part) (s : State) (h : MemOk s) :
    OutOk (execFrameSnapshot port frame part s) := by
  unfold execFrameSnapshot
  repeat' first
    | assumption | apply takeSnap_memOk | apply takeFrame_memOk | apply OutOk.next
    | (extract_lets +onlyGivenNames z; clear_value z) | split

theorem execMissingFrame_memOk (port rotation member fidx) (s : State) (h : MemOk s) :
    OutOk (execMissingFrame port rotation member fidx s) := by
  unfold execMissingFrame
  repeat' first
    | assumption | apply State.modPort_memOk | apply OutOk.next | intro _
    | (extract_lets +onlyGivenNames z; clear_value z) | split

theorem execHoleTimeout_memOk (port) (s : State) (h : MemOk s) : OutOk (execHoleTimeout port s) := by
  unfold execHoleTimeout
  repeat' first | assumption | apply portLeave_memOk | apply OutOk.next | split

theorem execMasterLoss_memOk (port) (s : State) (h : MemOk s) : OutOk (execMasterLoss port s) := by
  unfold execMasterLoss
  repeat' first
    | assumption | apply State.modPort_memOk | apply OutOk.next | intro _ | split

theorem execRecoveryTimeout_memOk (port) (s : State) (h : MemOk s) : OutOk (execRecoveryTimeout port s) := by
  unfold execRecoveryTimeout
  repeat' first | assumption | apply portLeave_memOk | apply OutOk.next | split

theorem acceptOp_memOk (s : State) (p x1) (h : MemOk s) : MemOk (acceptOp s p x1) := by
  unfold acceptOp
  repeat' first | assumption | apply State.modPort_memOk | intro _

theorem cwIssue_memOk (s : State) (c slot t va kind d data expect) (h : MemOk s) :
    MemOk (cwIssue s c slot t va kind d data expect) := by
  unfold cwIssue
  repeat' first
    | assumption | apply takeFault_memOk | apply acceptOp_memOk | apply beginWait_memOk | apply State.modPort_memOk
    | intro _ | split

theorem execCwQueueAdmit_memOk (port) (s : State) (h : MemOk s) : OutOk (execCwQueueAdmit port s) := by
  unfold execCwQueueAdmit
  repeat' first
    | with_reducible assumption | with_reducible apply State.modPort_memOk | with_reducible apply State.post_memOk
    | with_reducible apply acceptOp_memOk | with_reducible apply finishWait_memOk
    | with_reducible apply State.modThread_memOk | with_reducible apply OutOk.next | intro _
    | (extract_lets +onlyGivenNames z; with_reducible refine memOk_seq (s := z) ?_ ?_; subst z; rotate_left; clear_value z)
    | (extract_lets +onlyGivenNames z; clear_value z) | split

theorem execCwst_memOk (g d a) (s : State) (h : MemOk s) : OutOk (execCwst g d a s) := by
  unfold execCwst
  repeat' first | assumption | apply issue_memOk | apply cwIssue_memOk | intro _

theorem execCwadd_memOk (g d a b) (s : State) (h : MemOk s) : OutOk (execCwadd g d a b s) := by
  unfold execCwadd
  repeat' first | assumption | apply issue_memOk | apply cwIssue_memOk | intro _

theorem execCwcas_memOk (g d a b) (s : State) (h : MemOk s) : OutOk (execCwcas g d a b s) := by
  unfold execCwcas
  repeat' first | assumption | apply issue_memOk | apply cwIssue_memOk | intro _

theorem execCwfence_memOk (g d a) (s : State) (h : MemOk s) : OutOk (execCwfence g d a s) := by
  unfold execCwfence
  repeat' first
    | assumption | apply issue_memOk | apply takeFault_memOk | apply writeG_memOk | apply beginWait_memOk | intro _
    | (extract_lets +onlyGivenNames z; clear_value z) | split

theorem setHist_memOk (s : State) (part u x2) (h : MemOk s) : MemOk (setHist s part u x2) := by
  unfold setHist
  repeat' first | assumption | apply State.modPart_memOk

theorem histClear_memOk (s : State) (part u) (h : MemOk s) : MemOk (histClear s part u) := by
  unfold histClear
  repeat' first | assumption | apply setHist_memOk

theorem histConfig_memOk (s : State) (part u v) (h : MemOk s) : MemOk (histConfig s part u v) := by
  unfold histConfig
  repeat' first
    | with_reducible assumption | with_reducible apply histClear_memOk | with_reducible apply setHist_memOk | split

theorem execHistogramConfig_memOk (part unit value) (s : State) (h : MemOk s) :
    OutOk (execHistogramConfig part unit value s) := by
  unfold execHistogramConfig
  repeat' first | assumption | apply histConfig_memOk | apply OutOk.next | split

theorem execHistogramClear_memOk (part unit) (s : State) (h : MemOk s) :
    OutOk (execHistogramClear part unit s) := by
  unfold execHistogramClear
  repeat' first
    | with_reducible assumption | with_reducible apply histClear_memOk | with_reducible apply OutOk.next | split

theorem execHistogramSample_memOk (part unit sample) (s : State) (h : MemOk s) :
    OutOk (execHistogramSample part unit sample s) := by
  unfold execHistogramSample
  repeat' first
    | with_reducible assumption | with_reducible apply setHist_memOk | with_reducible apply OutOk.next | split

theorem portSubmit_memOk (s : State) (part addr graph) (h : MemOk s) : MemOk (portSubmit s part addr graph) := by
  unfold portSubmit
  repeat' first
    | with_reducible assumption | with_reducible apply State.modPart_memOk | with_reducible apply State.post_memOk
    | with_reducible apply State.bump_memOk | split | with_reducible apply memOk_with

theorem execLaunchPortHeader_memOk (part addr) (s : State) (h : MemOk s) :
    OutOk (execLaunchPortHeader part addr s) := by
  unfold execLaunchPortHeader
  repeat' first | assumption | apply portSubmit_memOk | apply OutOk.next

theorem execLaunchPortGraph_memOk (part addr) (s : State) (h : MemOk s) :
    OutOk (execLaunchPortGraph part addr s) := by
  unfold execLaunchPortGraph
  repeat' first | assumption | apply portSubmit_memOk | apply OutOk.next

theorem launchPortWrite_memOk (s : State) (part w v) (h : MemOk s) : MemOk (launchPortWrite s part w v) := by
  unfold launchPortWrite
  repeat' first
    | with_reducible assumption | with_reducible apply State.modPart_memOk | with_reducible apply portSubmit_memOk
    | split

theorem deviceRead_memOk (s : State) (c slot t va off) (h : MemOk s) : MemOk (deviceRead s c slot t va off).1 := by
  unfold deviceRead
  repeat' first
    | assumption | apply needRight_memOk | (extract_lets +onlyGivenNames z; clear_value z) | split
    | refine pair_fst (by assumption) ?_

theorem pmsTranslate_memOk (s : State) (c t v) (h : MemOk s) : MemOk (pmsTranslate s c t v).1 := by
  unfold pmsTranslate
  repeat' first
    | assumption | apply resolve_memOk | (extract_lets +onlyGivenNames z; clear_value z) | split
    | refine pair_fst (by assumption) ?_

theorem pmsWrite_memOk (s : State) (c slot t v) (h : MemOk s) : MemOk (pmsWrite s c slot t v).1 := by
  unfold pmsWrite
  repeat' first
    | assumption | apply pmsTranslate_memOk | apply State.modThread_memOk | split | refine pair_fst (by assumption) ?_

theorem portCommand_memOk (s : State) (p v) (h : MemOk s) : MemOk (portCommand s p v) := by
  unfold portCommand
  repeat' first | assumption | apply portJoin_memOk | apply portLeave_memOk | split

theorem deviceWrite_memOk (s : State) (c slot t va off v) (h : MemOk s) :
    MemOk (deviceWrite s c slot t va off v).1 := by
  unfold deviceWrite
  repeat' first
    | assumption | apply pmsWrite_memOk | apply portCommand_memOk | apply needRight_memOk
    | apply launchPortWrite_memOk | apply histConfig_memOk | (extract_lets +onlyGivenNames z; clear_value z) | split
    | refine pair_fst (by assumption) ?_

theorem fillPosition_memOk (s : State) (h : MemOk s) : MemOk (fillPosition s) := by
  unfold fillPosition
  split
  · exact outOk_get (by assumption) (execRotationFill_memOk _ _ h)
  · exact h

theorem fetchFaults_memOk (s : State) (c slot f) (h : MemOk s) : MemOk (fetchFaults s c slot f) := by
  unfold fetchFaults
  repeat' first | assumption | apply takeFault_memOk | apply State.modThread_memOk

theorem postAll_memOk (s : State) (x0) : MemOk s → MemOk (postAll s x0) := by
  fun_induction postAll s x0
  all_goals intro h
  repeat' first | apply_assumption

theorem placeWord_memOk (s : State) (bytes) (h : MemOk s) : MemOk (placeWord s bytes) := by
  unfold placeWord
  repeat' first
    | assumption | refine memOk_core ?_ _ | apply State.setCore_memOk | apply Mem.writeN_wf | split | apply memOk_with

theorem startRelaxed_memOk (s : State) (c slot t us align x5 load dstG dstV fin) (h : MemOk s) :
    MemOk (startRelaxed s c slot t us align x5 load dstG dstV fin) := by
  unfold startRelaxed
  repeat' first
    | with_reducible assumption | with_reducible apply beginWait_memOk | with_reducible apply State.modThread_memOk
    | with_reducible apply State.bump_memOk | with_reducible apply rcPut_memOk | with_reducible apply pump_memOk
    | split

theorem opLoad_memOk (i g d a off r size signed) (s : State) (h : MemOk s) :
    OutOk (opLoad i g d a off r size signed s) := by
  unfold opLoad
  repeat' first
    | assumption | apply issue_memOk | apply startRelaxed_memOk | apply startAccess_memOk | intro _ | split

theorem opStore_memOk (i g d a off r size) (s : State) (h : MemOk s) : OutOk (opStore i g d a off r size s) := by
  unfold opStore
  repeat' first
    | assumption | apply issue_memOk | apply startRelaxed_memOk | apply startAccess_memOk | intro _ | split

theorem execLdbn_memOk (g d a off8 r) (s : State) (h : MemOk s) : OutOk (execLdbn g d a off8 r s) := by
  unfold execLdbn
  repeat' first | assumption | apply opLoad_memOk

theorem execLdhn_memOk (g d a off8 r) (s : State) (h : MemOk s) : OutOk (execLdhn g d a off8 r s) := by
  unfold execLdhn
  repeat' first | assumption | apply opLoad_memOk

theorem execLdwn_memOk (g d a off8 r) (s : State) (h : MemOk s) : OutOk (execLdwn g d a off8 r s) := by
  unfold execLdwn
  repeat' first | assumption | apply opLoad_memOk

theorem execLdd_memOk (g d a off8 r) (s : State) (h : MemOk s) : OutOk (execLdd g d a off8 r s) := by
  unfold execLdd
  repeat' first | assumption | apply opLoad_memOk

theorem execLdbs_memOk (g d a off8 r) (s : State) (h : MemOk s) : OutOk (execLdbs g d a off8 r s) := by
  unfold execLdbs
  repeat' first | assumption | apply opLoad_memOk

theorem execLdhs_memOk (g d a off8 r) (s : State) (h : MemOk s) : OutOk (execLdhs g d a off8 r s) := by
  unfold execLdhs
  repeat' first | assumption | apply opLoad_memOk

theorem execLdws_memOk (g d a off8 r) (s : State) (h : MemOk s) : OutOk (execLdws g d a off8 r s) := by
  unfold execLdws
  repeat' first | assumption | apply opLoad_memOk

theorem execStb_memOk (g d a off8 r) (s : State) (h : MemOk s) : OutOk (execStb g d a off8 r s) := by
  unfold execStb
  repeat' first | assumption | apply opStore_memOk

theorem execSth_memOk (g d a off8 r) (s : State) (h : MemOk s) : OutOk (execSth g d a off8 r s) := by
  unfold execSth
  repeat' first | assumption | apply opStore_memOk

theorem execStw_memOk (g d a off8 r) (s : State) (h : MemOk s) : OutOk (execStw g d a off8 r s) := by
  unfold execStw
  repeat' first | assumption | apply opStore_memOk

theorem execStd_memOk (g d a off8 r) (s : State) (h : MemOk s) : OutOk (execStd g d a off8 r s) := by
  unfold execStd
  repeat' first | assumption | apply opStore_memOk

theorem execLdq_memOk (g d a) (s : State) (h : MemOk s) : OutOk (execLdq g d a s) := by
  unfold execLdq
  repeat' first | assumption | apply issue_memOk | apply startAccess_memOk | intro _

theorem execStq_memOk (g d a) (s : State) (h : MemOk s) : OutOk (execStq g d a s) := by
  unfold execStq
  repeat' first | assumption | apply issue_memOk | apply startAccess_memOk | intro _

theorem register_memOk (s : State) (r p w) (h : MemOk s) : MemOk (register s r p w).1 := by
  unfold register
  repeat' first | assumption | apply addWatch_memOk | split | apply memOk_with

theorem feAct_memOk (s : State) (x0 : _) (x1 : _) (x2 : _) (x3 : _) (x4 : _) (x5 : _) (x6 : _) (h : MemOk s) :
    ExcOk (feAct s x0 x1 x2 x3 x4 x5 x6) := by
  unfold feAct
  repeat' first
    | assumption | apply feFirst_memOk | apply changeFull_memOk | apply writeG_memOk | apply writePlace_memOk
    | apply State.modCore_memOk | apply logUndo_memOk | exact ExcOk.error | exact ExcOk.none | apply ExcOk.some
    | intro _
    | (extract_lets +onlyGivenNames z; with_reducible refine memOk_seq (s := z) ?_ ?_; subst z; rotate_left; clear_value z)
    | extract_lets +onlyGivenNames z | split

theorem feWait_memOk (s : State) (c slot load d va p data) (h : MemOk s) :
    MemOk (feWait s c slot load d va p data) := by
  unfold feWait
  repeat' first
    | assumption | apply register_memOk | apply beginWait_memOk | split | refine pair_fst (by assumption) ?_

theorem startFe_memOk (s : State) (c slot t load d va data) (h : MemOk s) :
    MemOk (startFe s c slot t load d va data) := by
  unfold startFe
  repeat' first
    | with_reducible assumption | with_reducible apply takeFault_memOk | with_reducible apply beginWait_memOk
    | with_reducible apply State.post_memOk | with_reducible apply State.modCore_memOk
    | with_reducible apply feWait_memOk | with_reducible apply feFirst_memOk
    | with_reducible refine exc_get (by with_reducible assumption) ?_ | with_reducible apply feAct_memOk | intro _
    | split

theorem execLdfe_memOk (g d a b) (s : State) (h : MemOk s) : OutOk (execLdfe g d a b s) := by
  unfold execLdfe
  repeat' first
    | assumption | apply issue_memOk | apply startFe_memOk | apply startAccess_memOk | intro _ | split

theorem execStfe_memOk (g d a b) (s : State) (h : MemOk s) : OutOk (execStfe g d a b s) := by
  unfold execStfe
  repeat' first
    | assumption | apply issue_memOk | apply startFe_memOk | apply startAccess_memOk | intro _ | split

theorem opAmo_memOk (i g d a b op sup) (s : State) (h : MemOk s) : OutOk (opAmo i g d a b op sup s) := by
  unfold opAmo
  repeat' first | assumption | apply issue_memOk | apply startAccess_memOk | intro _

theorem execAadd_memOk (g d a b) (s : State) (h : MemOk s) : OutOk (execAadd g d a b s) := by
  unfold execAadd
  repeat' first | assumption | apply opAmo_memOk

theorem execAand_memOk (g d a b) (s : State) (h : MemOk s) : OutOk (execAand g d a b s) := by
  unfold execAand
  repeat' first | assumption | apply opAmo_memOk

theorem execAor_memOk (g d a b) (s : State) (h : MemOk s) : OutOk (execAor g d a b s) := by
  unfold execAor
  repeat' first | assumption | apply opAmo_memOk

theorem execAxor_memOk (g d a b) (s : State) (h : MemOk s) : OutOk (execAxor g d a b s) := by
  unfold execAxor
  repeat' first | assumption | apply opAmo_memOk

theorem execAmins_memOk (g d a b) (s : State) (h : MemOk s) : OutOk (execAmins g d a b s) := by
  unfold execAmins
  repeat' first | assumption | apply opAmo_memOk

theorem execAmaxs_memOk (g d a b) (s : State) (h : MemOk s) : OutOk (execAmaxs g d a b s) := by
  unfold execAmaxs
  repeat' first | assumption | apply opAmo_memOk

theorem execAminu_memOk (g d a b) (s : State) (h : MemOk s) : OutOk (execAminu g d a b s) := by
  unfold execAminu
  repeat' first | assumption | apply opAmo_memOk

theorem execAmaxu_memOk (g d a b) (s : State) (h : MemOk s) : OutOk (execAmaxu g d a b s) := by
  unfold execAmaxu
  repeat' first | assumption | apply opAmo_memOk

theorem execAswap_memOk (g d a b) (s : State) (h : MemOk s) : OutOk (execAswap g d a b s) := by
  unfold execAswap
  repeat' first | assumption | apply opAmo_memOk

theorem execAfadd_memOk (g d a b) (s : State) (h : MemOk s) : OutOk (execAfadd g d a b s) := by
  unfold execAfadd
  repeat' first | assumption | apply opAmo_memOk

theorem execAcas_memOk (g d a b) (s : State) (h : MemOk s) : OutOk (execAcas g d a b s) := by
  unfold execAcas
  repeat' first | assumption | apply issue_memOk | apply startAccess_memOk | intro _

theorem execAcasq_memOk (g d a b) (s : State) (h : MemOk s) : OutOk (execAcasq g d a b s) := by
  unfold execAcasq
  repeat' first | assumption | apply issue_memOk | apply startAccess_memOk | intro _

theorem execFence_memOk (g cw eng rel scope) (s : State) (h : MemOk s) :
    OutOk (execFence g cw eng rel scope s) := by
  unfold execFence
  repeat' first
    | assumption | apply issue_memOk | apply beginWait_memOk | intro _ | split

theorem execWatch_memOk (g d a) (s : State) (h : MemOk s) : OutOk (execWatch g d a s) := by
  unfold execWatch
  repeat' first | assumption | apply issue_memOk | apply startAccess_memOk | intro _

theorem execUnwatch_memOk (g d a) (s : State) (h : MemOk s) : OutOk (execUnwatch g d a s) := by
  unfold execUnwatch
  repeat' first
    | assumption | apply issue_memOk | apply disarmEvery_memOk | apply writeG_memOk | apply pump_memOk
    | apply beginWait_memOk | apply startAccess_memOk | intro _ | split

theorem execSleep_memOk (g d) (s : State) (h : MemOk s) : OutOk (execSleep g d s) := by
  unfold execSleep
  repeat' first
    | assumption | apply issue_memOk | apply writeG_memOk | apply State.modThread_memOk | apply beginWait_memOk
    | intro _ | split

theorem geWait_memOk (s : State) (c slot d va p bound v) (h : MemOk s) :
    MemOk (geWait s c slot d va p bound v) := by
  unfold geWait
  repeat' first
    | assumption | apply register_memOk | apply beginWait_memOk | split | refine pair_fst (by assumption) ?_

theorem execWaitge_memOk (g d a b) (s : State) (h : MemOk s) : OutOk (execWaitge g d a b s) := by
  unfold execWaitge
  repeat' first
    | assumption | apply issue_memOk | apply takeFault_memOk | apply feFirst_memOk | apply writeG_memOk
    | apply geWait_memOk | apply pump_memOk | apply beginWait_memOk | intro _
    | (extract_lets +onlyGivenNames z; with_reducible refine memOk_seq (s := z) ?_ ?_; subst z; rotate_left; clear_value z)
    | (extract_lets +onlyGivenNames z; clear_value z) | split

theorem opRange_memOk (i g d a b op) (s : State) (h : MemOk s) : OutOk (opRange i g d a b op s) := by
  unfold opRange
  repeat' first
    | assumption | apply issue_memOk | apply State.post_memOk | apply beginWait_memOk | intro _

theorem execWbr_memOk (g d a b) (s : State) (h : MemOk s) : OutOk (execWbr g d a b s) := by
  unfold execWbr
  repeat' first | assumption | apply opRange_memOk

theorem execInvr_memOk (g d a b) (s : State) (h : MemOk s) : OutOk (execInvr g d a b s) := by
  unfold execInvr
  repeat' first | assumption | apply opRange_memOk

theorem execWbinvr_memOk (g d a b) (s : State) (h : MemOk s) : OutOk (execWbinvr g d a b s) := by
  unfold execWbinvr
  repeat' first | assumption | apply opRange_memOk

theorem prefetchLine_memOk (s : State) (r t va) (h : MemOk s) : MemOk (prefetchLine s r t va) := by
  unfold prefetchLine
  repeat' first
    | with_reducible assumption | with_reducible apply resolve_memOk | with_reducible apply fetchPriv_memOk
    | with_reducible apply fetchCopy_memOk | with_reducible apply fetchHost_memOk
    | with_reducible apply State.bump_memOk | with_reducible apply askLine_memOk
    | with_reducible apply sendRemote_memOk | (extract_lets +onlyGivenNames z; clear_value z) | split
    | with_reducible refine pair_fst (by with_reducible assumption) ?_

theorem prefetchLines_memOk (s : State) (r t va x3) : MemOk s → MemOk (prefetchLines s r t va x3) := by
  fun_induction prefetchLines s r t va x3
  all_goals intro h
  repeat' first | apply prefetchLine_memOk | apply_assumption

theorem execPrefr_memOk (g a b) (s : State) (h : MemOk s) : OutOk (execPrefr g a b s) := by
  unfold execPrefr
  repeat' first | assumption | apply issue_memOk | apply prefetchLines_memOk | intro _

theorem sleepNow_memOk (s : State) (r w) (h : MemOk s) : MemOk (sleepNow s r w) := by
  unfold sleepNow
  repeat' first | assumption | apply postCtx_memOk | apply State.setThread_memOk | split

theorem performDev_memOk (s : State) (r rid x2 u off) (h : MemOk s) : MemOk (performDev s r rid x2 u off) := by
  unfold performDev
  repeat' first
    | assumption | apply deviceWrite_memOk | apply failAcc_memOk | apply modAcc_memOk | apply deviceRead_memOk | split
    | refine pair_fst (by assumption) ?_

theorem geRead_memOk (s : State) (c p) (h : MemOk s) : MemOk (geRead s c p).1 := by
  unfold geRead
  repeat' first | assumption | apply feFirst_memOk | split

theorem lookGe_memOk (s : State) (r x1 u p bound) (h : MemOk s) : MemOk (lookGe s r x1 u p bound) := by
  unfold lookGe
  repeat' first
    | assumption | apply geRead_memOk | apply takeFault_memOk | apply modAcc_memOk | apply register_memOk
    | apply sleepNow_memOk | apply State.modThread_memOk | split | refine pair_fst (by assumption) ?_

theorem performGe_memOk (s : State) (r x1 u p bound) (h : MemOk s) : MemOk (performGe s r x1 u p bound) := by
  unfold performGe
  repeat' first
    | assumption | apply modAcc_memOk | apply atPlace_memOk | apply lookGe_memOk | intro _

theorem sendStore_memOk (s : State) (r rid x2 u pkg pa bs) (h : MemOk s) :
    MemOk (sendStore s r rid x2 u pkg pa bs) := by
  unfold sendStore
  repeat' first
    | assumption | apply performPiece_memOk | apply postStore_memOk | apply modAcc_memOk | intro _ | split

theorem performUnit_memOk (s : State) (r rid x2 u p) (h : MemOk s) : MemOk (performUnit s r rid x2 u p) := by
  unfold performUnit
  repeat' first
    | assumption | apply failAcc_memOk | apply performGe_memOk | apply performDev_memOk | apply performPiece_memOk
    | apply holdWrite_memOk | apply spadUnit_memOk | apply l1Unit_memOk | apply sendStore_memOk
    | apply directUnit_memOk | intro _ | split

theorem performHere_memOk (s : State) (r rid x2) (h : MemOk s) : MemOk (performHere s r rid x2) := by
  induction x2 generalizing s r rid with
  | nil => exact h
  | cons _ _ ih =>
    unfold performHere
    repeat' first
      | assumption | apply sendUnit_memOk | apply performUnit_memOk | apply ih | split
      | refine pair_fst (by assumption) ?_

theorem performAcc_memOk (s : State) (r rid) (h : MemOk s) : MemOk (performAcc s r rid) := by
  unfold performAcc
  repeat' first | assumption | apply pump_memOk | apply completeIfDone_memOk | apply performHere_memOk

theorem execRelaxedLoadDeliver_memOk (core slot id) (s : State) (h : MemOk s) :
    OutOk (execRelaxedLoadDeliver core slot id s) := by
  unfold execRelaxedLoadDeliver
  repeat' first | assumption | apply performAcc_memOk | apply OutOk.next

theorem execRelaxedStorePerform_memOk (core slot id) (s : State) (h : MemOk s) :
    OutOk (execRelaxedStorePerform core slot id s) := by
  unfold execRelaxedStorePerform
  repeat' first | assumption | apply performAcc_memOk | apply OutOk.next

theorem execPostedStoreAccept_memOk (core slot) (s : State) (h : MemOk s) :
    OutOk (execPostedStoreAccept core slot s) := by
  unfold execPostedStoreAccept
  repeat' first
    | assumption | apply modAcc_memOk | apply postStore_memOk | apply completeIfDone_memOk | apply OutOk.next
    | (extract_lets +onlyGivenNames z; clear_value z) | split

theorem execPmsWrite_memOk (core slot) (s : State) (h : MemOk s) : OutOk (execPmsWrite core slot s) := by
  unfold execPmsWrite
  repeat' first
    | assumption | apply pmsWrite_memOk | apply takeFault_memOk | apply completeIfDone_memOk | apply modAcc_memOk
    | apply OutOk.next | (extract_lets +onlyGivenNames z; clear_value z) | split | refine pair_fst (by assumption) ?_

theorem execWatchRecorded_memOk (core slot) (s : State) (h : MemOk s) : OutOk (execWatchRecorded core slot s) := by
  unfold execWatchRecorded
  repeat' first
    | assumption | apply settleAct_memOk | apply failAcc_memOk | apply watchUnit_memOk | apply completeIfDone_memOk
    | apply modAcc_memOk | apply atPlace_memOk | apply OutOk.next | intro _
    | (extract_lets +onlyGivenNames z; with_reducible refine fun_seq (f := z) ?_ ?_; subst z; rotate_left; clear_value z; intro hz)
    | apply hz | (extract_lets +onlyGivenNames z; clear_value z) | split

theorem guestFe_memOk (s : State) (r load d va q off data) (h : MemOk s) :
    MemOk (guestFe s r load d va q off data) := by
  unfold guestFe
  repeat' first
    | assumption | apply takeFault_memOk | apply finishWait_memOk | apply feFirst_memOk | apply register_memOk
    | apply sleepNow_memOk | refine exc_get (by assumption) ?_ | apply feAct_memOk | intro _
    | (extract_lets +onlyGivenNames z; with_reducible refine memOk_seq (s := z) ?_ ?_; subst z; rotate_left; clear_value z)
    | (extract_lets +onlyGivenNames z; clear_value z) | split | refine pair_fst (by assumption) ?_

theorem guestPerform_memOk (s : State) (q r rid) (h : MemOk s) : MemOk (guestPerform s q r rid) := by
  unfold guestPerform
  repeat' first
    | assumption | apply completeIfDone_memOk | apply performUnit_memOk | apply guestFe_memOk | split

theorem execGuestAccess_memOk (core) (s : State) (h : MemOk s) : OutOk (execGuestAccess core s) := by
  unfold execGuestAccess
  repeat' first
    | with_reducible assumption | with_reducible apply guestPerform_memOk | with_reducible apply State.modCore_memOk
    | with_reducible apply State.post_memOk | with_reducible apply OutOk.next | intro _
    | (extract_lets +onlyGivenNames z; with_reducible refine memOk_seq (s := z) ?_ ?_; subst z; rotate_left; clear_value z)
    | (extract_lets +onlyGivenNames z; clear_value z) | split

theorem execFeWaiterRelease_memOk (core word) (s : State) (h : MemOk s) :
    OutOk (execFeWaiterRelease core word s) := by
  unfold execFeWaiterRelease
  repeat' first
    | assumption | apply feRelease_memOk | apply State.post_memOk | apply OutOk.next | intro _
    | (extract_lets +onlyGivenNames z; with_reducible refine memOk_seq (s := z) ?_ ?_; subst z; rotate_left; clear_value z)
    | split

theorem dropGe_memOk (s : State) (r) (h : MemOk s) : MemOk (dropGe s r) := by
  unfold dropGe
  repeat' first | assumption | apply postEntries_memOk | apply memOk_with

theorem dropBar_memOk (s : State) (r) (h : MemOk s) : MemOk (dropBar s r) := by
  unfold dropBar
  repeat' first | assumption | apply postEntries_memOk | apply memOk_with

theorem recheckGe_memOk (s : State) (c slot d va p bound) (h : MemOk s) :
    MemOk (recheckGe s c slot d va p bound) := by
  unfold recheckGe
  repeat' first
    | assumption | apply geRead_memOk | apply takeFault_memOk | apply finishWait_memOk | apply writeG_memOk
    | apply dropGe_memOk | apply State.modThread_memOk | split | refine pair_fst (by assumption) ?_

theorem execWaitgeRecheck_memOk (core slot) (s : State) (h : MemOk s) : OutOk (execWaitgeRecheck core slot s) := by
  unfold execWaitgeRecheck
  repeat' first
    | assumption | apply settleAct_memOk | apply atPlace_memOk | apply recheckGe_memOk | apply OutOk.next | intro _
    | split

theorem entryGe_memOk (s : State) (r d va p bound) (h : MemOk s) : MemOk (entryGe s r d va p bound) := by
  unfold entryGe
  repeat' first
    | assumption | apply geRead_memOk | apply takeFault_memOk | apply finishWait_memOk | apply writeG_memOk
    | apply sleepNow_memOk | apply addWatch_memOk | split | refine pair_fst (by assumption) ?_

theorem execWatchEntryGrant_memOk (core slot) (s : State) (h : MemOk s) :
    OutOk (execWatchEntryGrant core slot s) := by
  unfold execWatchEntryGrant
  repeat' first
    | assumption | apply settleAct_memOk | apply guestFe_memOk | apply atPlace_memOk | apply entryGe_memOk
    | apply OutOk.next | intro _
    | (extract_lets +onlyGivenNames z; with_reducible refine fun_seq (f := z) ?_ ?_; subst z; rotate_left; clear_value z; intro hz)
    | apply hz | (extract_lets +onlyGivenNames z; clear_value z) | split | apply memOk_with

theorem execWlimExpiry_memOk (core slot) (s : State) (h : MemOk s) : OutOk (execWlimExpiry core slot s) := by
  unfold execWlimExpiry
  repeat' first
    | with_reducible assumption | with_reducible apply State.post_memOk | with_reducible apply finishWait_memOk
    | with_reducible apply writeG_memOk | with_reducible apply dropGe_memOk | with_reducible apply takeFault_memOk
    | with_reducible apply dropBar_memOk | with_reducible apply OutOk.next | split

theorem afterWalk_memOk (s : State) (r x1 rid) (h : MemOk s) : MemOk (afterWalk s r x1 rid) := by
  unfold afterWalk
  repeat' first | assumption | apply failAcc_memOk | apply pump_memOk | split

theorem afterWalkAll_memOk (s : State) (r x1 x2) : MemOk s → MemOk (afterWalkAll s r x1 x2) := by
  fun_induction afterWalkAll s r x1 x2
  all_goals intro h
  repeat' first | apply afterWalk_memOk | apply_assumption

theorem serveWaiters_memOk (s : State) (x0 x1) : MemOk s → MemOk (serveWaiters s x0 x1) := by
  fun_induction serveWaiters s x0 x1
  all_goals intro h
  repeat' first | apply afterWalkAll_memOk | apply_assumption

theorem pumpThreads_memOk (s : State) (x0) : MemOk s → MemOk (pumpThreads s x0) := by
  fun_induction pumpThreads s x0
  all_goals intro h
  repeat' first | apply pumpAll_memOk | apply_assumption

theorem endWalk_memOk (s : State) (x0) (h : MemOk s) : MemOk (endWalk s x0) := by
  unfold endWalk
  repeat' first
    | with_reducible assumption | with_reducible apply serveWaiters_memOk | with_reducible apply tlbAdd_memOk | split
    | with_reducible apply memOk_with

theorem stepWalk_memOk (s : State) (x0) (h : MemOk s) : MemOk (stepWalk s x0) := by
  unfold stepWalk
  repeat' first
    | with_reducible assumption | with_reducible apply State.post_memOk | with_reducible apply endWalk_memOk
    | (extract_lets +onlyGivenNames z; clear_value z) | split | with_reducible apply memOk_with

theorem execWalkComplete_memOk (id) (s : State) (h : MemOk s) : OutOk (execWalkComplete id s) := by
  unfold execWalkComplete
  repeat' first
    | assumption | apply settleAct_memOk | apply pumpThreads_memOk | apply atPlace_memOk | apply stepWalk_memOk
    | apply OutOk.next | intro _ | split | apply memOk_with

theorem execCopyTermExpiry_memOk (agent line) (s : State) (h : MemOk s) :
    OutOk (execCopyTermExpiry agent line s) := by
  unfold execCopyTermExpiry
  repeat' first
    | with_reducible assumption | with_reducible apply State.modCore_memOk | with_reducible apply setRdc_memOk
    | with_reducible apply OutOk.next | intro _ | split

end Sys2Proof.Machine
end

