-- ==== Sys2Proof/Laws/FormCoherence.lean ====
section
/-!
SUPPORT. Laws/FormCoherence.lean: the canonical form of the memories is kept by the coherence messages, the launches and the placement.
-/
namespace Sys2Proof.Machine
open Sys2Proof

theorem arrive_memOk (s : State) (e p f) (h : MemOk s) (h1 : ∀ s m, MemOk s → MemOk (f s m)) :
    OutOk (arrive s e p f) := by
  unfold arrive
  repeat' first
    | with_reducible assumption | with_reducible apply drainAgent_memOk | with_reducible apply State.post_memOk
    | with_reducible apply h1 | with_reducible apply OutOk.next | split | with_reducible apply memOk_with

theorem execRd_memOk (line agent) (s : State) (h : MemOk s) : OutOk (execRd line agent s) := by
  unfold execRd
  repeat' first | assumption | apply arrive_memOk | apply request_memOk

theorem execRdx_memOk (line agent) (s : State) (h : MemOk s) : OutOk (execRdx line agent s) := by
  unfold execRdx
  repeat' first | assumption | apply arrive_memOk | apply request_memOk

theorem execUpg_memOk (line agent) (s : State) (h : MemOk s) : OutOk (execUpg line agent s) := by
  unfold execUpg
  repeat' first | assumption | apply arrive_memOk | apply request_memOk

theorem execAmo_memOk (line agent) (s : State) (h : MemOk s) : OutOk (execAmo line agent s) := by
  unfold execAmo
  repeat' first | assumption | apply arrive_memOk | apply request_memOk

theorem execOwn_memOk (line id) (s : State) (h : MemOk s) : OutOk (execOwn line id s) := by
  unfold execOwn
  repeat' first | assumption | apply arrive_memOk | apply request_memOk

theorem execPin_memOk (line agent) (s : State) (h : MemOk s) : OutOk (execPin line agent s) := by
  unfold execPin
  repeat' first | assumption | apply arrive_memOk | apply request_memOk

theorem execPinDrop_memOk (line agent) (s : State) (h : MemOk s) : OutOk (execPinDrop line agent s) := by
  unfold execPinDrop
  repeat' first
    | assumption | apply arrive_memOk | apply unblock_memOk | apply serveAll_memOk | apply putDir_memOk | intro _

theorem recalled_memOk (s : State) (line) (h : MemOk s) : MemOk (recalled s line) := by
  unfold recalled
  repeat' first
    | with_reducible assumption | with_reducible apply putDir_memOk | with_reducible apply serveAll_memOk
    | with_reducible apply refuse_memOk | with_reducible apply serveNow_memOk
    | (extract_lets +onlyGivenNames z; clear_value z) | split

theorem answered_memOk (s : State) (line agent keep) (h : MemOk s) : MemOk (answered s line agent keep) := by
  unfold answered
  repeat' first
    | assumption | apply putDir_memOk | apply recalled_memOk | intro _
    | (extract_lets +onlyGivenNames z; with_reducible refine memOk_seq (s := z) ?_ ?_; subst z; rotate_left; clear_value z)
    | (extract_lets +onlyGivenNames z; clear_value z) | split

theorem execRecallAnswer_memOk (line agent) (s : State) (h : MemOk s) : OutOk (execRecallAnswer line agent s) := by
  unfold execRecallAnswer
  repeat' first
    | assumption | apply arrive_memOk | apply homeStore_memOk | apply answered_memOk | intro _
    | (extract_lets +onlyGivenNames z; with_reducible refine memOk_seq (s := z) ?_ ?_; subst z; rotate_left; clear_value z)
    | (extract_lets +onlyGivenNames z; clear_value z) | split

theorem sendAck_memOk (s : State) (m) (h : MemOk s) : MemOk (sendAck s m) := by
  unfold sendAck
  repeat' first | assumption | apply sendMsg_memOk

theorem late_memOk (s : State) (m) (h : MemOk s) : MemOk (late s m) := by
  unfold late
  repeat' first | assumption | apply logEvent_memOk

theorem writeBack_memOk (s : State) (m) (h : MemOk s) : MemOk (writeBack s m) := by
  unfold writeBack
  repeat' first
    | with_reducible assumption | with_reducible apply homeStore_memOk | with_reducible apply late_memOk
    | with_reducible apply putDir_memOk | with_reducible apply sendAck_memOk | with_reducible apply serveAll_memOk
    | with_reducible apply answered_memOk | intro _
    | (extract_lets +onlyGivenNames z; with_reducible refine memOk_seq (s := z) ?_ ?_; subst z; rotate_left; clear_value z)
    | (extract_lets +onlyGivenNames z; with_reducible refine fun_seq (f := z) ?_ ?_; subst z; rotate_left; clear_value z; intro hz)
    | with_reducible apply hz | extract_lets +onlyGivenNames z | split

theorem execWb_memOk (line agent) (s : State) (h : MemOk s) : OutOk (execWb line agent s) := by
  unfold execWb
  repeat' first | assumption | apply arrive_memOk | apply writeBack_memOk

theorem execWbk_memOk (line agent) (s : State) (h : MemOk s) : OutOk (execWbk line agent s) := by
  unfold execWbk
  repeat' first | assumption | apply arrive_memOk | apply writeBack_memOk

theorem execPut_memOk (line agent) (s : State) (h : MemOk s) : OutOk (execPut line agent s) := by
  unfold execPut
  repeat' first | assumption | apply arrive_memOk | apply writeBack_memOk

theorem dropHeld_memOk (s : State) (agent key) (h : MemOk s) : MemOk (dropHeld s agent key) := by
  unfold dropHeld
  repeat' first
    | assumption | apply State.modCore_memOk | apply dropAgent_memOk | intro _ | split

theorem downgrade_memOk (s : State) (agent key data poison) (h : MemOk s) :
    MemOk (downgrade s agent key data poison) := by
  unfold downgrade
  repeat' first
    | with_reducible assumption | with_reducible apply State.modCore_memOk | with_reducible apply setRdc_memOk
    | with_reducible refine memOk_mapCores ?_ ?_ | intro _ | split

theorem sendAnswer_memOk (s : State) (m data poison keep) (h : MemOk s) :
    MemOk (sendAnswer s m data poison keep) := by
  unfold sendAnswer
  repeat' first | assumption | apply sendMsg_memOk

theorem recallAgent_memOk (s : State) (m keep) (h : MemOk s) : MemOk (recallAgent s m keep) := by
  unfold recallAgent
  repeat' first
    | with_reducible assumption | with_reducible apply sendAnswer_memOk | with_reducible apply downgrade_memOk
    | with_reducible apply dropHeld_memOk | (extract_lets +onlyGivenNames z; clear_value z) | split

theorem execInv_memOk (line agent) (s : State) (h : MemOk s) : OutOk (execInv line agent s) := by
  unfold execInv
  repeat' first | assumption | apply arrive_memOk | apply recallAgent_memOk | intro _

theorem execRcl_memOk (line agent) (s : State) (h : MemOk s) : OutOk (execRcl line agent s) := by
  unfold execRcl
  repeat' first | assumption | apply arrive_memOk | apply recallAgent_memOk | intro _

theorem execDwg_memOk (line agent) (s : State) (h : MemOk s) : OutOk (execDwg line agent s) := by
  unfold execDwg
  repeat' first | assumption | apply arrive_memOk | apply recallAgent_memOk | intro _

theorem execAck_memOk (line agent) (s : State) (h : MemOk s) : OutOk (execAck line agent s) := by
  unfold execAck
  repeat' first
    | with_reducible assumption | with_reducible apply arrive_memOk | with_reducible apply State.modCore_memOk
    | with_reducible apply unblock_memOk | with_reducible apply pumpThreads_memOk | with_reducible apply setRdcX_memOk
    | intro _ | split

theorem refuseCmd_memOk (s : State) (id line) (h : MemOk s) : MemOk (refuseCmd s id line) := by
  unfold refuseCmd
  repeat' first | assumption | apply modCmd_memOk

theorem disownLine_memOk (s : State) (line id) (h : MemOk s) : MemOk (disownLine s line id) := by
  unfold disownLine
  repeat' first
    | with_reducible assumption | with_reducible apply modCmd_memOk | with_reducible apply State.post_memOk | intro _
    | (extract_lets +onlyGivenNames z; with_reducible refine memOk_seq (s := z) ?_ ?_; subst z; rotate_left; clear_value z)
    | split

theorem execNack_memOk (line agent) (s : State) (h : MemOk s) : OutOk (execNack line agent s) := by
  unfold execNack
  repeat' first
    | with_reducible assumption | with_reducible apply arrive_memOk | with_reducible apply failAcc_memOk
    | with_reducible apply refuseCmd_memOk | with_reducible apply State.post_memOk
    | with_reducible apply disownLine_memOk | intro _ | split

theorem execLeaseRenewal_memOk (die agent) (s : State) (h : MemOk s) : OutOk (execLeaseRenewal die agent s) := by
  unfold execLeaseRenewal
  repeat' first
    | assumption | apply State.post_memOk | apply setLease_memOk | apply OutOk.next
    | (extract_lets +onlyGivenNames z; clear_value z) | split

theorem resolveEntry_memOk (s : State) (agent line) (h : MemOk s) : MemOk (resolveEntry s agent line) := by
  unfold resolveEntry
  repeat' first
    | with_reducible assumption | with_reducible apply logEvent_memOk | with_reducible apply putDir_memOk
    | with_reducible apply answered_memOk | with_reducible apply serveAll_memOk | intro _
    | (extract_lets +onlyGivenNames z; with_reducible refine memOk_seq (s := z) ?_ ?_; subst z; rotate_left; clear_value z)
    | extract_lets +onlyGivenNames z | split

theorem resolveAll_memOk (s : State) (agent x1) : MemOk s → MemOk (resolveAll s agent x1) := by
  fun_induction resolveAll s agent x1
  all_goals intro h
  repeat' first | apply resolveEntry_memOk | apply_assumption

theorem execLeaseExpiry_memOk (die agent) (s : State) (h : MemOk s) : OutOk (execLeaseExpiry die agent s) := by
  unfold execLeaseExpiry
  repeat' first
    | with_reducible assumption | with_reducible apply setLease_memOk | with_reducible apply unblock_memOk
    | with_reducible apply resolveAll_memOk | with_reducible apply OutOk.next | intro _
    | (extract_lets +onlyGivenNames z; with_reducible refine memOk_seq (s := z) ?_ ?_; subst z; rotate_left; clear_value z)
    | (extract_lets +onlyGivenNames z; clear_value z) | split

theorem logDrops_memOk (s : State) (agent x1) : MemOk s → MemOk (logDrops s agent x1) := by
  fun_induction logDrops s agent x1
  all_goals intro h
  repeat' first | apply_assumption

theorem execLeaseRejoin_memOk (die agent) (s : State) (h : MemOk s) : OutOk (execLeaseRejoin die agent s) := by
  unfold execLeaseRejoin
  repeat' first
    | with_reducible assumption | with_reducible apply dropAgent_memOk | with_reducible apply logDrops_memOk
    | with_reducible apply setLease_memOk | with_reducible apply unblock_memOk
    | with_reducible apply pumpThreads_memOk | with_reducible apply OutOk.next | with_reducible apply foldl_memOk
    | intro _ | split

theorem loseOwned_memOk (s : State) (die agent) (h : MemOk s) : MemOk (loseOwned s die agent) := by
  unfold loseOwned
  repeat' first
    | with_reducible assumption | with_reducible apply State.post_memOk | with_reducible apply refuseCmd_memOk
    | with_reducible apply foldl_memOk | intro _ | split

theorem execLeaseSelfLimit_memOk (die agent) (s : State) (h : MemOk s) :
    OutOk (execLeaseSelfLimit die agent s) := by
  unfold execLeaseSelfLimit
  repeat' first
    | assumption | apply execLeaseRejoin_memOk | apply loseOwned_memOk | apply OutOk.next | split

theorem distStore_memOk (s : State) (part p bytes) (h : MemOk s) : MemOk (distStore s part p bytes) := by
  unfold distStore
  repeat' first
    | with_reducible assumption | with_reducible apply writePriv_memOk | with_reducible apply sendPosted_memOk
    | with_reducible apply writeBytes_memOk | split

theorem enterLaunch_memOk (s : State) (lid) (h : MemOk s) : MemOk (enterLaunch s lid) := by
  unfold enterLaunch
  repeat' first
    | with_reducible assumption | with_reducible apply State.post_memOk | with_reducible apply State.modLaunch_memOk
    | split

theorem newLaunch_memOk (s : State) (x0 node) (h : MemOk s) : MemOk (newLaunch s x0 node) := by
  unfold newLaunch
  repeat' first | assumption | apply State.bump_memOk | apply memOk_with

theorem answerSub_memOk (s : State) (x status) (h : MemOk s) : MemOk (answerSub s x status) := by
  unfold answerSub
  repeat' first
    | with_reducible assumption | with_reducible apply State.modPart_memOk | with_reducible apply State.post_memOk
    | with_reducible apply finishWait_memOk | with_reducible apply writeG_memOk | intro _
    | (extract_lets +onlyGivenNames z; with_reducible refine memOk_seq (s := z) ?_ ?_; subst z; rotate_left; clear_value z)
    | split | with_reducible apply memOk_with

theorem takeHeader_memOk (s : State) (x bs) (h : MemOk s) : MemOk (takeHeader s x bs) := by
  unfold takeHeader
  repeat' first
    | with_reducible assumption | with_reducible apply answerSub_memOk | with_reducible apply enterLaunch_memOk
    | with_reducible apply newLaunch_memOk | (extract_lets +onlyGivenNames z; clear_value z) | split

theorem portHeader_memOk (s : State) (x) (h : MemOk s) : MemOk (portHeader s x) := by
  unfold portHeader
  repeat' first | assumption | apply answerSub_memOk | apply takeHeader_memOk | split

theorem grantRecord_memOk (s : State) (part) (h : MemOk s) : MemOk (grantRecord s part) := by
  unfold grantRecord
  repeat' first | with_reducible assumption | with_reducible apply State.post_memOk | split

theorem dropSub_memOk (s : State) (x) (h : MemOk s) : MemOk (dropSub s x) := by
  unfold dropSub
  repeat' first | assumption | apply grantRecord_memOk | apply memOk_with

theorem checkHeader_memOk (s : State) (x bs) (h : MemOk s) : MemOk (checkHeader s x bs) := by
  unfold checkHeader
  repeat' first | assumption | apply takeHeader_memOk | split | apply memOk_with

theorem threadHeader_memOk (s : State) (x r) (h : MemOk s) : MemOk (threadHeader s x r) := by
  unfold threadHeader
  repeat' first
    | assumption | apply dropSub_memOk | apply checkHeader_memOk | apply readVa_memOk | apply takeFault_memOk | split
    | refine pair_fst (by assumption) ?_

theorem makeNodes_memOk (s : State) (rid v x2 x3) : MemOk s → MemOk (makeNodes s rid v x2 x3) := by
  fun_induction makeNodes s rid v x2 x3
  all_goals intro h
  repeat' first | apply_assumption

theorem enterNodes_memOk (s : State) (x x1) : MemOk s → MemOk (enterNodes s x x1) := by
  fun_induction enterNodes s x x1
  all_goals intro h
  repeat' first | apply enterLaunch_memOk | apply_assumption

theorem enterAll_memOk (s : State) (x0) : MemOk s → MemOk (enterAll s x0) := by
  fun_induction enterAll s x0
  all_goals intro h
  repeat' first | apply enterNodes_memOk | apply_assumption

theorem portGraph_memOk (s : State) (x) (h : MemOk s) : MemOk (portGraph s x) := by
  unfold portGraph
  repeat' first
    | with_reducible assumption | with_reducible apply answerSub_memOk | with_reducible apply makeNodes_memOk
    | with_reducible apply State.bump_memOk | with_reducible apply enterNodes_memOk | intro _
    | (extract_lets +onlyGivenNames z; with_reducible refine memOk_seq (s := z) ?_ ?_; subst z; rotate_left; clear_value z)
    | (extract_lets +onlyGivenNames z; clear_value z) | split | with_reducible apply memOk_with

theorem execLaunchAccept_memOk (id) (s : State) (h : MemOk s) : OutOk (execLaunchAccept id s) := by
  unfold execLaunchAccept
  repeat' first
    | assumption | apply threadHeader_memOk | apply portGraph_memOk | apply portHeader_memOk | apply OutOk.next
    | split

theorem execLaunchRecordGrant_memOk (part) (s : State) (h : MemOk s) : OutOk (execLaunchRecordGrant part s) := by
  unfold execLaunchRecordGrant
  repeat' first | assumption | apply execLaunchAccept_memOk | apply OutOk.next | split

theorem doLaunch_memOk (s : State) (c slot t d va) (h : MemOk s) : MemOk (doLaunch s c slot t d va) := by
  unfold doLaunch
  repeat' first
    | with_reducible assumption | with_reducible apply needRight_memOk | with_reducible apply takeFault_memOk
    | with_reducible apply beginWait_memOk | with_reducible apply State.post_memOk
    | with_reducible apply State.bump_memOk | split | with_reducible refine pair_fst (by with_reducible assumption) ?_
    | with_reducible apply memOk_with

theorem execLaunch_memOk (g d a) (s : State) (h : MemOk s) : OutOk (execLaunch g d a s) := by
  unfold execLaunch
  repeat' first | assumption | apply issue_memOk | apply doLaunch_memOk | intro _

theorem dropDep_memOk (s : State) (lid) (h : MemOk s) : MemOk (dropDep s lid) := by
  unfold dropDep
  repeat' first | assumption | apply postEntries_memOk | apply memOk_with

theorem readDep_memOk (s : State) (l p) (h : MemOk s) : MemOk (readDep s l p) := by
  unfold readDep
  repeat' first
    | with_reducible assumption | with_reducible apply State.post_memOk | with_reducible apply dropDep_memOk
    | with_reducible apply State.modLaunch_memOk | with_reducible apply addWatch_memOk
    | (extract_lets +onlyGivenNames z; clear_value z) | split

theorem execDependenceReady_memOk (lid) (s : State) (h : MemOk s) : OutOk (execDependenceReady lid s) := by
  unfold execDependenceReady
  repeat' first
    | with_reducible assumption | with_reducible apply settleAct_memOk | with_reducible apply State.post_memOk
    | with_reducible apply atPlace_memOk | with_reducible apply readDep_memOk | with_reducible apply OutOk.next
    | intro _ | split

theorem execDependenceCancel_memOk (lid) (s : State) (h : MemOk s) : OutOk (execDependenceCancel lid s) := by
  unfold execDependenceCancel
  repeat' first
    | with_reducible assumption | with_reducible apply State.post_memOk | with_reducible apply State.modLaunch_memOk
    | with_reducible apply dropDep_memOk | with_reducible apply OutOk.next | split

theorem doWqry_memOk (s : State) (c slot t d va) (h : MemOk s) : MemOk (doWqry s c slot t d va) := by
  unfold doWqry
  repeat' first
    | with_reducible assumption | with_reducible apply takeFault_memOk | with_reducible apply State.post_memOk
    | with_reducible apply State.bump_memOk | with_reducible apply writeG_memOk
    | with_reducible apply State.modGroup_memOk | split | with_reducible apply memOk_with

theorem execWqry_memOk (g d a) (s : State) (h : MemOk s) : OutOk (execWqry g d a s) := by
  unfold execWqry
  repeat' first | assumption | apply issue_memOk | apply doWqry_memOk | intro _

theorem execWqryServe_memOk (part) (s : State) (h : MemOk s) : OutOk (execWqryServe part s) := by
  unfold execWqryServe
  repeat' first
    | assumption | apply State.modLaunch_memOk | apply State.post_memOk | apply OutOk.next | split | apply memOk_with

theorem execWqryAnswerDeliver_memOk (id) (s : State) (h : MemOk s) : OutOk (execWqryAnswerDeliver id s) := by
  unfold execWqryAnswerDeliver
  repeat' first
    | with_reducible assumption | with_reducible apply feFirst_memOk | with_reducible apply groupEnd_memOk
    | with_reducible apply setFull_memOk | with_reducible apply writePlace_memOk
    | with_reducible apply State.post_memOk | with_reducible apply endOp_memOk | with_reducible apply OutOk.next
    | intro _
    | (extract_lets +onlyGivenNames z; with_reducible refine memOk_seq (s := z) ?_ ?_; subst z; rotate_left; clear_value z)
    | split | with_reducible apply memOk_with

theorem logLaunchWrite_memOk (s : State) (part va extra) (h : MemOk s) :
    MemOk (logLaunchWrite s part va extra) := by
  unfold logLaunchWrite
  repeat' first | assumption | apply logEvent_memOk

theorem distAtomic_memOk (s : State) (part proc lid va op w) (h : MemOk s) :
    MemOk (distAtomic s part proc lid va op w).1 := by
  unfold distAtomic
  repeat' first
    | with_reducible assumption | with_reducible apply State.bump_memOk | with_reducible apply writePlace_memOk
    | (extract_lets +onlyGivenNames z; clear_value z) | split | with_reducible apply memOk_with

theorem launchOver_memOk (s : State) (l) (h : MemOk s) : MemOk (launchOver s l) := by
  unfold launchOver
  repeat' first
    | with_reducible assumption | with_reducible apply grantRecord_memOk | with_reducible apply State.modLaunch_memOk
    | with_reducible apply State.post_memOk | with_reducible apply enterAll_memOk | split
    | with_reducible apply memOk_with

theorem postReplays_memOk (s : State) (x x1) : MemOk s → MemOk (postReplays s x x1) := by
  fun_induction postReplays s x x1
  all_goals intro h
  repeat' first | apply_assumption | split

theorem replayOver_memOk (s : State) (x) (h : MemOk s) : MemOk (replayOver s x) := by
  unfold replayOver
  repeat' first | assumption | apply grantRecord_memOk | apply postReplays_memOk | apply memOk_with

theorem setReplayWrote_memOk (s : State) (id n) (h : MemOk s) : MemOk (setReplayWrote s id n) := by
  unfold setReplayWrote
  repeat' first | assumption | apply memOk_with

theorem distTurn_memOk (s : State) (part proc lid va x4 f) (h : MemOk s) (h1 : ∀ s, MemOk s → MemOk (f s)) :
    MemOk (distTurn s part proc lid va x4 f) := by
  unfold distTurn
  repeat' first | assumption | apply atPlace_memOk | apply h1 | split

theorem writeRetired_memOk (s : State) (lid x) (h : MemOk s) : MemOk (writeRetired s lid x) := by
  unfold writeRetired
  repeat' first
    | with_reducible assumption | with_reducible apply logLaunchWrite_memOk | with_reducible apply distStore_memOk
    | split | with_reducible apply memOk_with

theorem addDone_memOk (s : State) (lid x) (h : MemOk s) : MemOk (addDone s lid x) := by
  unfold addDone
  repeat' first
    | with_reducible assumption | with_reducible apply distAtomic_memOk | with_reducible apply replayOver_memOk
    | with_reducible apply logLaunchWrite_memOk | with_reducible apply setReplayWrote_memOk | split
    | with_reducible refine pair_fst (by with_reducible assumption) ?_

theorem replayStep_memOk (s : State) (lid x) (h : MemOk s) : MemOk (replayStep s lid x) := by
  unfold replayStep
  repeat' first
    | with_reducible assumption | with_reducible apply distTurn_memOk | with_reducible apply State.post_memOk
    | with_reducible apply setReplayWrote_memOk | with_reducible apply writeRetired_memOk
    | with_reducible apply replayOver_memOk | with_reducible apply addDone_memOk | intro _ | split

theorem completionWrite_memOk (s : State) (l lid va op w next) (h : MemOk s) (h1 : ∀ s, MemOk s → MemOk (next s)) :
    MemOk (completionWrite s l lid va op w next) := by
  unfold completionWrite
  repeat' first
    | with_reducible assumption | with_reducible apply distAtomic_memOk | with_reducible apply logLaunchWrite_memOk
    | with_reducible apply State.modLaunch_memOk | with_reducible apply h1 | split
    | with_reducible refine pair_fst (by with_reducible assumption) ?_

theorem completionStep_memOk (s : State) (l lid) (h : MemOk s) : MemOk (completionStep s l lid) := by
  unfold completionStep
  repeat' first
    | with_reducible assumption | with_reducible apply distTurn_memOk | with_reducible apply completionWrite_memOk
    | with_reducible apply State.post_memOk | with_reducible apply State.modLaunch_memOk
    | with_reducible apply launchOver_memOk | intro _ | split

theorem execLaunchCompletion_memOk (lid) (s : State) (h : MemOk s) : OutOk (execLaunchCompletion lid s) := by
  unfold execLaunchCompletion
  repeat' first
    | assumption | apply settleAct_memOk | apply replayStep_memOk | apply launchOver_memOk
    | apply completionStep_memOk | apply OutOk.next | split

theorem loadImage_memOk (s : State) (x0 c) (h : MemOk s) : OptOk (loadImage s x0 c) := by
  unfold loadImage
  repeat' first
    | assumption | apply State.modCore_memOk | apply writeBytes_memOk | apply optOk_map | apply OptOk.some | intro _
    | split

theorem loadAll_memOk (s : State) (x0 : _) (x1 : _) (h : MemOk s) {s' : State} (e : loadAll s x0 x1 = .ok s') :
    MemOk s' := by
  induction x1 generalizing s with
  | nil => cases e; exact h
  | cons c l ih =>
    unfold loadAll at e
    split at e
    · cases e
    · exact ih _ (opt_get (by assumption) (loadImage_memOk _ _ _ h)) e

theorem logCodeLoad_memOk (s : State) (x0 c) (h : MemOk s) : MemOk (logCodeLoad s x0 c) := by
  unfold logCodeLoad
  repeat' first | assumption | apply logEvent_memOk

theorem spreadImage_memOk (s : State) (l x1) (h : MemOk s) : MemOk (spreadImage s l x1) := by
  induction x1 generalizing s l with
  | nil => exact h
  | cons _ _ ih =>
    unfold spreadImage
    repeat' first
      | with_reducible assumption | with_reducible apply loadImage_memOk | with_reducible apply logCodeLoad_memOk
      | with_reducible apply ih | split | with_reducible refine opt_get (by with_reducible assumption) ?_

theorem freeContexts_memOk (s : State) (c n x2) : MemOk s → MemOk (freeContexts s c n x2) := by
  fun_induction freeContexts s c n x2
  all_goals intro h
  repeat' first | apply spill_memOk | apply_assumption

theorem placeThreads_memOk (s : State) (c l gid b rank x5) :
    MemOk s → MemOk (placeThreads s c l gid b rank x5) := by
  fun_induction placeThreads s c l gid b rank x5
  all_goals intro h
  repeat' first | apply allocThread_memOk | apply_assumption

theorem emptyRange_memOk (s : State) (c base n) (h : MemOk s) : MemOk (emptyRange s c base n) := by
  unfold emptyRange
  repeat' first | assumption | apply State.modCore_memOk | intro _

theorem setPair_memOk (s : State) (lead) (h : MemOk s) : MemOk (setPair s lead) := by
  unfold setPair
  repeat' first | assumption | apply State.modCore_memOk | intro _ | split

theorem snapNow_memOk (s : State) (c) (h : MemOk s) : MemOk (snapNow s c) := by
  unfold snapNow
  repeat' first | assumption | apply State.modCore_memOk | intro _

theorem placeGroup_memOk (s : State) (l b rank c base) (h : MemOk s) : MemOk (placeGroup s l b rank c base) := by
  unfold placeGroup
  repeat' first
    | with_reducible assumption | with_reducible apply freeContexts_memOk | with_reducible apply emptyRange_memOk
    | with_reducible apply State.bump_memOk | with_reducible apply State.modPart_memOk
    | with_reducible apply setPair_memOk | with_reducible apply placeThreads_memOk
    | with_reducible apply snapNow_memOk | split | with_reducible apply memOk_with

theorem placeGroups_memOk (s : State) (l b x2) : MemOk s → MemOk (placeGroups s l b x2) := by
  fun_induction placeGroups s l b x2
  all_goals intro h
  repeat' first | apply placeGroup_memOk | apply_assumption

theorem bandPlaced_memOk (s : State) (l b start) (h : MemOk s) : MemOk (bandPlaced s l b start) := by
  unfold bandPlaced
  repeat' first
    | with_reducible assumption | with_reducible apply State.modLaunch_memOk | with_reducible apply sampleHist_memOk

theorem placeFresh_memOk (s : State) (l b cores) (h : MemOk s) : MemOk (placeFresh s l b cores).1 := by
  unfold placeFresh
  repeat' first
    | with_reducible assumption | with_reducible apply logCodeLoad_memOk | with_reducible apply placeGroups_memOk
    | with_reducible apply spreadImage_memOk | with_reducible apply bandPlaced_memOk
    | with_reducible refine loadAll_memOk _ _ _ ?_ (by with_reducible assumption) | split

theorem clearHold_memOk (s : State) (c x1) : MemOk s → MemOk (clearHold s c x1) := by
  fun_induction clearHold s c x1
  all_goals intro h
  repeat' first | apply State.modThread_memOk | apply unstop_memOk | apply_assumption

theorem refill_memOk (s : State) (g v c base) (h : MemOk s) : MemOk (refill s g v c base) := by
  unfold refill
  repeat' first
    | with_reducible assumption | with_reducible apply State.modCore_memOk | with_reducible apply State.modGroup_memOk
    | with_reducible apply State.post_memOk | with_reducible apply State.bump_memOk | with_reducible apply foldl_memOk
    | with_reducible apply Mem.writeN_wf | intro _ | with_reducible apply memOk_with

theorem restoreHome_memOk (s : State) (l g) (h : MemOk s) : MemOk (restoreHome s l g) := by
  unfold restoreHome
  repeat' first
    | assumption | refine memOk_core ?_ _ | apply freeContexts_memOk | apply setPair_memOk | apply refill_memOk
    | apply State.modThread_memOk | apply snapNow_memOk | apply foldl_memOk | intro _ | split

theorem moveRefs_memOk (s : State) (a b) (h : MemOk s) : MemOk (moveRefs s a b) := by
  refine memOk_ports _ (moveWork_memOk s a b h) ?_ rfl rfl rfl rfl
  intro _ hx
  exact hx

theorem moveBreg_memOk (s : State) (a c slot n) (h : MemOk s) : MemOk (moveBreg s a c slot n) := by
  unfold moveBreg
  repeat' first
    | with_reducible assumption | with_reducible apply State.post_memOk | with_reducible apply State.modCore_memOk
    | intro _ | split

theorem moveThread_memOk (s : State) (a c slot t) (h : MemOk s) : MemOk (moveThread s a c slot t) := by
  unfold moveThread
  repeat' first
    | assumption | apply moveBreg_memOk | apply moveRefs_memOk | apply State.modCore_memOk | apply rcDrop_memOk
    | apply State.setThread_memOk | intro _ | split

theorem moveThreads_memOk (s : State) (a c x2) : MemOk s → MemOk (moveThreads s a c x2) := by
  fun_induction moveThreads s a c x2
  all_goals intro h
  repeat' first | apply moveThread_memOk | apply_assumption

theorem restoreMoved_memOk (s : State) (l g c base) (h : MemOk s) : MemOk (restoreMoved s l g c base) := by
  unfold restoreMoved
  repeat' first
    | with_reducible assumption | with_reducible apply freeContexts_memOk | with_reducible apply setPair_memOk
    | with_reducible apply refill_memOk | with_reducible apply moveThreads_memOk | with_reducible apply snapNow_memOk
    | with_reducible apply State.modCore_memOk | with_reducible apply State.post_memOk
    | with_reducible apply foldl_memOk | intro _ | split | with_reducible apply memOk_with

theorem releaseBand_memOk (s : State) (x0) : MemOk s → MemOk (releaseBand s x0) := by
  fun_induction releaseBand s x0
  all_goals intro h
  repeat' first | apply postCtx_memOk | apply groupEnd_memOk | apply clearHold_memOk | apply_assumption

theorem restoreAll_memOk (s : State) (l x1) : MemOk s → MemOk (restoreAll s l x1) := by
  fun_induction restoreAll s l x1
  all_goals intro h
  repeat' first | apply restoreMoved_memOk | apply_assumption

theorem placeSaved_memOk (s : State) (l b p) (h : MemOk s) : MemOk (placeSaved s l b p).1 := by
  unfold placeSaved
  repeat' first
    | with_reducible assumption | with_reducible apply restoreHome_memOk | with_reducible apply bandPlaced_memOk
    | with_reducible apply releaseBand_memOk | with_reducible apply logCodeLoad_memOk
    | with_reducible apply restoreAll_memOk
    | with_reducible refine loadAll_memOk _ _ _ ?_ (by with_reducible assumption) | with_reducible apply foldl_memOk
    | intro _ | split

theorem writeFit_memOk (s : State) (l g) (h : MemOk s) : MemOk (writeFit s l g) := by
  unfold writeFit
  repeat' first
    | with_reducible assumption | with_reducible apply logEvent_memOk | with_reducible apply State.modLaunch_memOk
    | with_reducible apply writePlace_memOk | intro _
    | (extract_lets +onlyGivenNames z; with_reducible refine memOk_seq (s := z) ?_ ?_; subst z; rotate_left; clear_value z)
    | (extract_lets +onlyGivenNames z; clear_value z) | split

theorem reportBand_memOk (s : State) (l b) (h : MemOk s) : MemOk (reportBand s l b) := by
  unfold reportBand
  repeat' first
    | with_reducible assumption | with_reducible apply writeFit_memOk | with_reducible apply State.modLaunch_memOk
    | split

theorem reportFit_memOk (s : State) (l) (h : MemOk s) : MemOk (reportFit s l) := by
  unfold reportFit
  repeat' first | assumption | apply reportBand_memOk | apply foldl_memOk | intro _

theorem reportAll_memOk (s : State) (x0) : MemOk s → MemOk (reportAll s x0) := by
  fun_induction reportAll s x0
  all_goals intro h
  repeat' first | apply reportFit_memOk | apply_assumption

theorem decide1_memOk (s : State) (x0) : MemOk s → MemOk (decide1 s x0).1 := by
  fun_induction decide1 s x0
  all_goals intro h
  repeat' first | apply placeFresh_memOk | apply placeSaved_memOk | apply_assumption

theorem execPlacementDecision_memOk (part) (s : State) (h : MemOk s) : OutOk (execPlacementDecision part s) := by
  unfold execPlacementDecision
  repeat' first
    | with_reducible assumption | with_reducible apply decide1_memOk | with_reducible apply State.post_memOk
    | with_reducible apply reportAll_memOk | with_reducible apply OutOk.next | split

theorem leaveGuests_memOk (s : State) (r w) (h : MemOk s) : MemOk (leaveGuests s r w) := by
  unfold leaveGuests
  repeat' first | assumption | apply State.modCore_memOk | intro _ | split

theorem holdWaits_memOk (s : State) (c slot) (h : MemOk s) : MemOk (holdWaits s c slot) := by
  unfold holdWaits
  repeat' first
    | with_reducible assumption | with_reducible apply disarmEvery_memOk | with_reducible apply postEntries_memOk
    | with_reducible apply State.setThread_memOk | with_reducible apply leaveGuests_memOk | split
    | with_reducible apply memOk_with

theorem holdThread_memOk (s : State) (c slot) (h : MemOk s) : MemOk (holdThread s c slot) := by
  unfold holdThread
  repeat' first
    | with_reducible assumption | with_reducible apply stopThread_memOk | with_reducible apply State.modThread_memOk
    | with_reducible apply holdWaits_memOk

theorem holdThreads_memOk (s : State) (c x1) : MemOk s → MemOk (holdThreads s c x1) := by
  fun_induction holdThreads s c x1
  all_goals intro h
  repeat' first | apply holdThread_memOk | apply_assumption

theorem holdGroups_memOk (s : State) (x0) : MemOk s → MemOk (holdGroups s x0) := by
  fun_induction holdGroups s x0
  all_goals intro h
  repeat' first
    | with_reducible apply State.post_memOk | with_reducible apply holdThreads_memOk | apply_assumption

theorem restartQuantum_memOk (s : State) (lid) (h : MemOk s) : MemOk (restartQuantum s lid) := by
  unfold restartQuantum
  repeat' first | assumption | apply State.modLaunch_memOk

theorem execQuantumExpiry_memOk (lid) (s : State) (h : MemOk s) : OutOk (execQuantumExpiry lid s) := by
  unfold execQuantumExpiry
  repeat' first
    | with_reducible assumption | with_reducible apply State.modLaunch_memOk
    | with_reducible apply restartQuantum_memOk | with_reducible apply holdGroups_memOk
    | with_reducible apply OutOk.next | intro _
    | (extract_lets +onlyGivenNames z; with_reducible refine memOk_seq (s := z) ?_ ?_; subst z; rotate_left; clear_value z)
    | (extract_lets +onlyGivenNames z; clear_value z) | split

theorem saveThread_memOk (s : State) (c slot) (h : MemOk s) : MemOk (saveThread s c slot) := by
  unfold saveThread
  repeat' first
    | with_reducible assumption | with_reducible apply holdWaits_memOk | with_reducible apply State.modCore_memOk
    | with_reducible apply rcDrop_memOk | with_reducible apply State.setThread_memOk
    | with_reducible apply State.modThread_memOk | with_reducible apply writeG_memOk | intro _
    | (extract_lets +onlyGivenNames z; with_reducible refine memOk_seq (s := z) ?_ ?_; subst z; rotate_left; clear_value z)
    | split

theorem saveThreads_memOk (s : State) (c x1) : MemOk s → MemOk (saveThreads s c x1) := by
  fun_induction saveThreads s c x1
  all_goals intro h
  repeat' first | apply saveThread_memOk | apply_assumption

theorem saveGroup_memOk (s : State) (g) (h : MemOk s) : MemOk (saveGroup s g) := by
  unfold saveGroup
  repeat' first
    | with_reducible assumption | with_reducible apply commitPair_memOk | with_reducible apply State.modCore_memOk
    | with_reducible apply saveThreads_memOk | with_reducible apply State.modGroup_memOk
    | with_reducible apply unpair_memOk | with_reducible apply releaseAllocation_memOk
    | with_reducible apply State.modLaunch_memOk | with_reducible apply State.post_memOk
    | with_reducible apply postCtx_memOk | with_reducible apply postFill_memOk | intro _ | split
    | with_reducible apply memOk_with

theorem execGroupSave_memOk (gid) (s : State) (h : MemOk s) : OutOk (execGroupSave gid s) := by
  unfold execGroupSave
  repeat' first
    | with_reducible assumption | with_reducible apply preempted_memOk | with_reducible apply saveGroup_memOk
    | with_reducible apply OutOk.next | split

end Sys2Proof.Machine
end

