-- ==== Sys2Proof/Laws/FormTile.lean ====
section
/-!
SUPPORT. Laws/FormTile.lean: the canonical form of the memories is kept by the engines, the contexts and the system instructions.
-/
namespace Sys2Proof.Machine
open Sys2Proof

theorem engLeaf_memOk (s : State) (c va write) (h : MemOk s) : MemOk (engLeaf s c va write).1 := by
  unfold engLeaf
  repeat' first | assumption | apply translate_memOk | split

theorem srcPlace_memOk (s : State) (c va) (h : MemOk s) : MemOk (srcPlace s c va).1 := by
  unfold srcPlace
  repeat' first | assumption | apply engLeaf_memOk | split | refine pair_fst (by assumption) ?_

theorem engRead_memOk (s : State) (c x1) : MemOk s → MemOk (engRead s c x1).1 := by
  fun_induction engRead s c x1
  all_goals intro h
  repeat' first
    | apply srcPlace_memOk | apply_assumption | refine pair_fst (by assumption) ?_ | with_reducible apply memOk_with

theorem engPriv_memOk (s : State) (c pa bytes poison) (h : MemOk s) : MemOk (engPriv s c pa bytes poison) := by
  unfold engPriv
  repeat' first | assumption | apply State.modCore_memOk | apply writePriv_memOk | intro _

theorem sourcesDone_memOk (s : State) (id) (h : MemOk s) : MemOk (sourcesDone s id) := by
  unfold sourcesDone
  repeat' first
    | with_reducible assumption | with_reducible apply recheckFence_memOk | with_reducible apply modCmd_memOk | split

theorem cutCmd_memOk (s : State) (id va) (h : MemOk s) : MemOk (cutCmd s id va) := by
  unfold cutCmd
  repeat' first | assumption | apply modCmd_memOk

theorem stopAt_memOk (s : State) (id va) (h : MemOk s) : MemOk (stopAt s id va) := by
  unfold stopAt
  repeat' first
    | with_reducible assumption | with_reducible apply State.post_memOk | with_reducible apply sourcesDone_memOk
    | with_reducible apply cutCmd_memOk

theorem engWrite_memOk (s : State) (id p bytes poison) (h : MemOk s) : MemOk (engWrite s id p bytes poison) := by
  unfold engWrite
  repeat' first
    | with_reducible assumption | with_reducible apply modCmd_memOk | with_reducible apply engPriv_memOk
    | with_reducible apply sendPosted_memOk | with_reducible apply stopAt_memOk
    | with_reducible apply writePlace_memOk | with_reducible apply feFirst_memOk | split

theorem flushOwned_memOk (s : State) (c x1) : MemOk s → MemOk (flushOwned s c x1) := by
  fun_induction flushOwned s c x1
  all_goals intro h
  repeat' first | apply_assumption

theorem ownEnd_memOk (s : State) (m) (h : MemOk s) : MemOk (ownEnd s m) := by
  unfold ownEnd
  repeat' first
    | with_reducible assumption | with_reducible apply sendMsg_memOk | with_reducible apply homeStore_memOk
    | with_reducible apply putDir_memOk | with_reducible apply unblock_memOk | with_reducible apply disownLine_memOk
    | with_reducible apply serveAll_memOk | intro _
    | (extract_lets +onlyGivenNames z; with_reducible refine memOk_seq (s := z) ?_ ?_; subst z; rotate_left; clear_value z)
    | (extract_lets +onlyGivenNames z; clear_value z) | split

theorem execEw_memOk (line id) (s : State) (h : MemOk s) : OutOk (execEw line id s) := by
  unfold execEw
  repeat' first | assumption | apply arrive_memOk | apply ownEnd_memOk

theorem execRel_memOk (line id) (s : State) (h : MemOk s) : OutOk (execRel line id s) := by
  unfold execRel
  repeat' first | assumption | apply arrive_memOk | apply ownEnd_memOk

theorem nextCmd_memOk (s : State) (c) (h : MemOk s) : MemOk (nextCmd s c) := by
  unfold nextCmd
  repeat' first | with_reducible assumption | with_reducible apply State.post_memOk | split

theorem rejectCmd_memOk (s : State) (c f) (h : MemOk s) : MemOk (rejectCmd s c f) := by
  unfold rejectCmd
  repeat' first
    | assumption | apply takeFault_memOk | apply drainNext_memOk | apply nextCmd_memOk | split | apply memOk_with

theorem writeCompletion_memOk (s : State) (c) (h : MemOk s) : MemOk (writeCompletion s c) := by
  unfold writeCompletion
  repeat' first
    | with_reducible assumption | with_reducible apply writePlace_memOk | with_reducible apply engPriv_memOk
    | with_reducible apply feFirst_memOk | with_reducible apply logEvent_memOk | split

theorem endCmd_memOk (s : State) (c) (h : MemOk s) : MemOk (endCmd s c) := by
  unfold endCmd
  repeat' first
    | with_reducible assumption | with_reducible apply finishWait_memOk | with_reducible apply endOp_memOk
    | with_reducible apply recheckFence_memOk | with_reducible apply postWaiting_memOk
    | with_reducible apply unblock_memOk | with_reducible apply pumpThreads_memOk
    | with_reducible apply drainNext_memOk | with_reducible apply nextCmd_memOk | split
    | with_reducible apply memOk_with

theorem completeCmd_memOk (s : State) (c) (h : MemOk s) : MemOk (completeCmd s c) := by
  unfold completeCmd
  extract_lets ending
  have he : ∀ s id, MemOk s → MemOk (ending s id) := fun s _ h => modCmd_memOk s _ _ h
  clear_value ending
  repeat' first
    | with_reducible assumption | with_reducible apply modCmd_memOk | with_reducible apply sendPosted_memOk
    | with_reducible apply sendBar_memOk | with_reducible apply State.post_memOk
    | with_reducible apply writePlace_memOk | with_reducible apply atPlace_memOk | with_reducible apply endCmd_memOk
    | with_reducible apply writeCompletion_memOk | with_reducible apply he | intro _ | split

theorem finishCmd_memOk (s : State) (c) (h : MemOk s) : MemOk (finishCmd s c) := by
  unfold finishCmd
  repeat' first
    | with_reducible assumption | with_reducible apply flushOwned_memOk | with_reducible apply modCmd_memOk
    | with_reducible apply State.post_memOk | with_reducible apply endCmd_memOk
    | with_reducible apply writeCompletion_memOk | with_reducible apply completeCmd_memOk | split

theorem startCmd_memOk (i regs leafUnit c slot t) (s : State) (h : MemOk s) :
    MemOk (startCmd i regs leafUnit c slot t s) := by
  unfold startCmd
  repeat' first
    | assumption | apply State.post_memOk | apply beginWait_memOk | apply State.bump_memOk | apply memOk_with

theorem issueTile_memOk (i g w rest leafUnit) (s : State) (h : MemOk s) :
    OutOk (issueTile i g w rest leafUnit s) := by
  unfold issueTile
  repeat' first | assumption | apply issue_memOk | apply startCmd_memOk

theorem execMma_memOk (g w x) (s : State) (h : MemOk s) : OutOk (execMma g w x s) := by
  unfold execMma
  repeat' first | assumption | apply issueTile_memOk

theorem execCopy_memOk (g w x) (s : State) (h : MemOk s) : OutOk (execCopy g w x s) := by
  unfold execCopy
  repeat' first | assumption | apply issueTile_memOk

theorem execGath_memOk (g w x) (s : State) (h : MemOk s) : OutOk (execGath g w x s) := by
  unfold execGath
  repeat' first | assumption | apply issueTile_memOk

theorem execColl_memOk (g w x) (s : State) (h : MemOk s) : OutOk (execColl g w x s) := by
  unfold execColl
  repeat' first | assumption | apply issueTile_memOk

theorem execFill_memOk (g w x) (s : State) (h : MemOk s) : OutOk (execFill g w x s) := by
  unfold execFill
  repeat' first | assumption | apply issueTile_memOk

theorem execEnc8_memOk (g w x) (s : State) (h : MemOk s) : OutOk (execEnc8 g w x s) := by
  unfold execEnc8
  repeat' first | assumption | apply issueTile_memOk

theorem cplPlace_memOk (s : State) (c) (h : MemOk s) : MemOk (cplPlace s c).1 := by
  unfold cplPlace
  repeat' first
    | assumption | apply engLeaf_memOk | (extract_lets +onlyGivenNames z; clear_value z) | split
    | refine pair_fst (by assumption) ?_

theorem msPlace_memOk (s : State) (c) (h : MemOk s) : MemOk (msPlace s c).1 := by
  unfold msPlace
  repeat' first
    | assumption | apply pmsTranslate_memOk | (extract_lets +onlyGivenNames z; clear_value z) | split
    | refine pair_fst (by assumption) ?_

theorem coverSrc_memOk (s : State) (c x1) (h : MemOk s) : MemOk (coverSrc s c x1).1 := by
  induction x1 generalizing s c with
  | nil => exact h
  | cons _ _ ih =>
    unfold coverSrc
    repeat' first
      | assumption | apply engLeaf_memOk | apply ih | split | refine pair_fst (by assumption) ?_

theorem takeIndex_memOk (x0 : _) (x1 : _) (x2 : _) (x3 : _) (x4 : _) (x5 : _) (h : MemOk x5.1) :
    MemOk (takeIndex x0 x1 x2 x3 x4 x5).1 := by
  obtain ⟨s, f | c⟩ := x5 <;> exact h

theorem indexLine_memOk (s : State) (c x1 ix ld steps i) (h : MemOk s) :
    MemOk (indexLine s c x1 ix ld steps i).1 := by
  unfold indexLine
  repeat' first | assumption | apply takeIndex_memOk | apply coverSrc_memOk

theorem readEntries_memOk (s : State) (c x1 ix ld steps x5) (h : MemOk s) :
    MemOk (readEntries s c x1 ix ld steps x5).1 := by
  induction x5 generalizing s c x1 ix ld steps with
  | nil => exact h
  | cons _ _ ih =>
    unfold readEntries
    repeat' first | assumption | apply indexLine_memOk | apply ih

theorem coverAll_memOk (s : State) (c x1) (h : MemOk s) : MemOk (coverAll s c x1).1 := by
  induction x1 generalizing s c with
  | nil => exact h
  | cons _ _ ih =>
    unfold coverAll
    repeat' first
      | assumption | apply coverSrc_memOk | apply ih | split | refine pair_fst (by assumption) ?_

theorem checkMma_memOk (s : State) (c x) (h : MemOk s) : MemOk (checkMma s c x).1 := by
  unfold checkMma
  repeat' first
    | with_reducible assumption | with_reducible apply readEntries_memOk | with_reducible apply coverAll_memOk
    | intro _
    | (extract_lets +onlyGivenNames z; with_reducible refine memOk_seq (s := z.1) ?_ ?_; subst z; rotate_left; clear_value z)
    | (extract_lets +onlyGivenNames z; clear_value z) | split
    | with_reducible refine pair_fst (by with_reducible assumption) ?_

theorem dstPage_memOk (s : State) (c va) (h : MemOk s) : MemOk (dstPage s c va).1 := by
  unfold dstPage
  repeat' first | assumption | apply engLeaf_memOk | split | refine pair_fst (by assumption) ?_

theorem coverDst_memOk (s : State) (c x1) : MemOk s → MemOk (coverDst s c x1).1 := by
  fun_induction coverDst s c x1
  all_goals intro h
  repeat' first | apply dstPage_memOk | apply_assumption | refine pair_fst (by assumption) ?_

theorem checkDst_memOk (s : State) (c) (h : MemOk s) : MemOk (checkDst s c).1 := by
  unfold checkDst
  repeat' first
    | assumption | apply coverDst_memOk | (extract_lets +onlyGivenNames z; clear_value z) | split
    | refine pair_fst (by assumption) ?_

theorem checkCmd_memOk (s : State) (c) (h : MemOk s) : MemOk (checkCmd s c).1 := by
  unfold checkCmd
  repeat' first
    | with_reducible assumption | with_reducible apply cplPlace_memOk | with_reducible apply msPlace_memOk
    | with_reducible apply checkMma_memOk | with_reducible apply checkDst_memOk
    | (extract_lets +onlyGivenNames z; clear_value z) | split
    | with_reducible refine pair_fst (by with_reducible assumption) ?_

theorem beginStep_memOk (s : State) (id) (h : MemOk s) : MemOk (beginStep s id) := by
  unfold beginStep
  repeat' first
    | with_reducible assumption | with_reducible apply pinNext_memOk | with_reducible apply modCmd_memOk | split

theorem dropPriv_memOk (s : State) (core x1) : MemOk s → MemOk (dropPriv s core x1) := by
  fun_induction dropPriv s core x1
  all_goals intro h
  repeat' first | apply evictL1_memOk | apply_assumption

theorem countContribution_memOk (s : State) (c) (h : MemOk s) : MemOk (countContribution s c) := by
  unfold countContribution
  repeat' first
    | with_reducible assumption | with_reducible apply modCmd_memOk | with_reducible apply State.modGroup_memOk
    | split

theorem acceptCmd_memOk (s : State) (id) (h : MemOk s) : MemOk (acceptCmd s id) := by
  unfold acceptCmd
  repeat' first
    | with_reducible assumption | with_reducible apply modCmd_memOk | with_reducible apply dropPriv_memOk
    | with_reducible apply State.modGroup_memOk | with_reducible apply finishWait_memOk
    | with_reducible apply countContribution_memOk | with_reducible apply beginStep_memOk
    | with_reducible apply State.post_memOk | with_reducible apply drainNext_memOk
    | with_reducible apply nextCmd_memOk | intro _
    | (extract_lets +onlyGivenNames z; with_reducible refine memOk_seq (s := z) ?_ ?_; subst z; rotate_left; clear_value z)
    | split

theorem execEngineAccept_memOk (id) (s : State) (h : MemOk s) : OutOk (execEngineAccept id s) := by
  unfold execEngineAccept
  repeat' first
    | assumption | apply acceptCmd_memOk | apply checkCmd_memOk | apply rejectCmd_memOk | apply ownNext_memOk
    | apply OutOk.next | split | refine pair_fst (by assumption) ?_ | with_reducible apply memOk_with

theorem elemStep_memOk (s : State) (c x ra rb sc i j) (h : MemOk s) : MemOk (elemStep s c x ra rb sc i j) := by
  unfold elemStep
  repeat' first
    | with_reducible assumption | with_reducible apply engWrite_memOk | with_reducible apply modCmd_memOk | intro _
    | (extract_lets +onlyGivenNames z; with_reducible refine memOk_seq (s := z) ?_ ?_; subst z; rotate_left; clear_value z)
    | (extract_lets +onlyGivenNames z; clear_value z) | split

theorem elemSteps_memOk (s : State) (c x ra rb sc x5) : MemOk s → MemOk (elemSteps s c x ra rb sc x5) := by
  fun_induction elemSteps s c x ra rb sc x5
  all_goals intro h
  repeat' first | apply elemStep_memOk | apply_assumption

theorem matrixStep_memOk (s : State) (c x) (h : MemOk s) : MemOk (matrixStep s c x) := by
  unfold matrixStep
  repeat' first
    | with_reducible assumption | with_reducible apply modCmd_memOk | with_reducible apply elemSteps_memOk
    | with_reducible apply memOk_with

theorem dropPins_memOk (s : State) (c x1) : MemOk s → MemOk (dropPins s c x1) := by
  fun_induction dropPins s c x1
  all_goals intro h
  repeat' first | apply_assumption

theorem doneMoving_memOk (s : State) (id) (h : MemOk s) : MemOk (doneMoving s id) := by
  unfold doneMoving
  repeat' first
    | with_reducible assumption | with_reducible apply State.post_memOk | with_reducible apply sourcesDone_memOk
    | with_reducible apply modCmd_memOk

theorem execMmaStep_memOk (id) (s : State) (h : MemOk s) : OutOk (execMmaStep id s) := by
  unfold execMmaStep
  repeat' first
    | with_reducible assumption | with_reducible apply stopAt_memOk | with_reducible apply dropPins_memOk
    | with_reducible apply matrixStep_memOk | with_reducible apply modCmd_memOk
    | with_reducible apply doneMoving_memOk | with_reducible apply beginStep_memOk | with_reducible apply OutOk.next
    | intro _
    | (extract_lets +onlyGivenNames z; with_reducible refine memOk_seq (s := z) ?_ ?_; subst z; rotate_left; clear_value z)
    | (extract_lets +onlyGivenNames z; clear_value z) | split

theorem writeAll_memOk (s : State) (id x1) : MemOk s → MemOk (writeAll s id x1) := by
  fun_induction writeAll s id x1
  all_goals intro h
  repeat' first | apply engWrite_memOk | apply_assumption

theorem moveTo_memOk (s : State) (c va bs ps) (h : MemOk s) : MemOk (moveTo s c va bs ps) := by
  unfold moveTo
  repeat' first
    | with_reducible assumption | with_reducible apply modCmd_memOk | with_reducible apply writeAll_memOk | split

theorem advanceRow_memOk (s : State) (id n rowb rows) (h : MemOk s) : MemOk (advanceRow s id n rowb rows) := by
  unfold advanceRow
  repeat' first
    | with_reducible assumption | with_reducible apply State.post_memOk | with_reducible apply modCmd_memOk
    | with_reducible apply doneMoving_memOk | split

theorem movePiece_memOk (s : State) (c dst src rowb rows) (h : MemOk s) :
    MemOk (movePiece s c dst src rowb rows) := by
  unfold movePiece
  repeat' first
    | assumption | apply engRead_memOk | apply stopAt_memOk | apply advanceRow_memOk | apply moveTo_memOk
    | (extract_lets +onlyGivenNames z; clear_value z) | split | refine pair_fst (by assumption) ?_

theorem fillPiece_memOk (s : State) (c dst pat rowb rows) (h : MemOk s) :
    MemOk (fillPiece s c dst pat rowb rows) := by
  unfold fillPiece
  repeat' first | assumption | apply advanceRow_memOk | apply moveTo_memOk

theorem readRow_memOk (s : State) (c idx) (h : MemOk s) : MemOk (readRow s c idx) := by
  unfold readRow
  repeat' first
    | with_reducible assumption | with_reducible apply engRead_memOk | with_reducible apply stopAt_memOk
    | with_reducible apply modCmd_memOk | with_reducible apply State.post_memOk | split
    | with_reducible refine pair_fst (by with_reducible assumption) ?_

theorem scatterTarget_memOk (s : State) (c rs) (h : MemOk s) : MemOk (scatterTarget s c rs) := by
  unfold scatterTarget
  repeat' first
    | assumption | apply stopAt_memOk | apply coverDst_memOk | apply ownNext_memOk | apply dropPriv_memOk | split
    | refine pair_fst (by assumption) ?_ | with_reducible apply memOk_with

theorem nextScatter_memOk (s : State) (c n) (h : MemOk s) : MemOk (nextScatter s c n) := by
  unfold nextScatter
  repeat' first
    | with_reducible assumption | with_reducible apply modCmd_memOk | with_reducible apply unblock_memOk
    | with_reducible apply pumpThreads_memOk | with_reducible apply State.post_memOk
    | with_reducible apply doneMoving_memOk | split

theorem execGathScatterRow_memOk (id) (s : State) (h : MemOk s) : OutOk (execGathScatterRow id s) := by
  unfold execGathScatterRow
  repeat' first
    | with_reducible assumption | with_reducible apply readRow_memOk | with_reducible apply nextScatter_memOk
    | with_reducible apply scatterTarget_memOk | with_reducible apply engRead_memOk
    | with_reducible apply stopAt_memOk | with_reducible apply moveTo_memOk | with_reducible apply flushOwned_memOk
    | with_reducible apply modCmd_memOk | with_reducible apply State.post_memOk | with_reducible apply OutOk.next
    | intro _
    | (extract_lets +onlyGivenNames z; with_reducible refine memOk_seq (s := z) ?_ ?_; subst z; rotate_left; clear_value z)
    | (extract_lets +onlyGivenNames z; clear_value z) | split
    | with_reducible refine pair_fst (by with_reducible assumption) ?_

theorem encLines_memOk (s : State) (c x x2) : MemOk s → MemOk (encLines s c x x2).1 := by
  fun_induction encLines s c x x2
  all_goals intro h
  repeat' first | apply engRead_memOk | apply_assumption | refine pair_fst (by assumption) ?_

theorem encodeAll_memOk (s : State) (c x) (h : MemOk s) : MemOk (encodeAll s c x) := by
  unfold encodeAll
  repeat' first
    | with_reducible assumption | with_reducible apply encLines_memOk | with_reducible apply stopAt_memOk
    | with_reducible apply doneMoving_memOk | with_reducible apply modCmd_memOk | split
    | with_reducible refine pair_fst (by with_reducible assumption) ?_

theorem execEngineComplete_memOk (id) (s : State) (h : MemOk s) : OutOk (execEngineComplete id s) := by
  unfold execEngineComplete
  repeat' first
    | with_reducible assumption | with_reducible apply settleAct_memOk | with_reducible apply acceptCmd_memOk
    | with_reducible apply State.post_memOk | with_reducible apply engWrite_memOk | with_reducible apply modCmd_memOk
    | with_reducible apply finishCmd_memOk | with_reducible apply dropPins_memOk
    | with_reducible apply movePiece_memOk | with_reducible apply fillPiece_memOk | with_reducible apply readRow_memOk
    | with_reducible apply encodeAll_memOk | with_reducible apply OutOk.next | split

theorem collSources_memOk (s : State) (x0) (h : MemOk s) : MemOk (collSources s x0).1 := by
  induction x0 generalizing s with
  | nil => exact h
  | cons _ _ ih =>
    unfold collSources
    repeat' first | assumption | apply engRead_memOk | apply ih | split

theorem endContributions_memOk (s : State) (f x1) : MemOk s → MemOk (endContributions s f x1) := by
  fun_induction endContributions s f x1
  all_goals intro h
  repeat' first | apply doneMoving_memOk | apply_assumption

theorem runColl_memOk (s : State) (cs) (h : MemOk s) : MemOk (runColl s cs) := by
  unfold runColl
  repeat' first
    | assumption | apply collSources_memOk | apply endContributions_memOk | apply foldl_memOk | intro _
    | (extract_lets +onlyGivenNames z; with_reducible refine memOk_seq (s := z.1) ?_ ?_; subst z; rotate_left; clear_value z)
    | (extract_lets +onlyGivenNames z; clear_value z) | split

theorem execCollInstanceComplete_memOk (id) (s : State) (h : MemOk s) : OutOk (execCollInstanceComplete id s) := by
  unfold execCollInstanceComplete
  repeat' first
    | assumption | apply runColl_memOk | apply OutOk.next | (extract_lets +onlyGivenNames z; clear_value z) | split

theorem pcbWrite_memOk (s : State) (p w v) (h : MemOk s) : MemOk (pcbWrite s p w v) := by
  unfold pcbWrite
  repeat' first | with_reducible assumption | with_reducible apply State.modPart_memOk | split

theorem endCommand_memOk (s : State) (p result st) (h : MemOk s) : MemOk (endCommand s p result st) := by
  unfold endCommand
  repeat' first
    | with_reducible assumption | with_reducible apply State.modPart_memOk | with_reducible apply distStore_memOk
    | intro _
    | (extract_lets +onlyGivenNames z; with_reducible refine memOk_seq (s := z) ?_ ?_; subst z; rotate_left; clear_value z)
    | (extract_lets +onlyGivenNames z; clear_value z) | split

theorem scrubbed_memOk (k0 : Core) (_ : k0.spad.wf = true) : (scrubbed k0).spad.wf = true := rfl

theorem giveCores_memOk (s : State) (p x1 x2) : MemOk s → MemOk (giveCores s p x1 x2) := by
  fun_induction giveCores s p x1 x2
  all_goals intro h
  repeat' first | apply State.modCore_memOk | apply scrubbed_memOk | apply_assumption

theorem makePart_memOk (s : State) (p tab) (h : MemOk s) : MemOk (makePart s p tab) := by
  unfold makePart
  repeat' first
    | with_reducible assumption | with_reducible apply giveCores_memOk | with_reducible apply State.modPort_memOk
    | with_reducible apply State.modPart_memOk | with_reducible apply foldl_memOk | intro _

theorem execCreate_memOk (part) (s : State) (h : MemOk s) : OutOk (execCreate part s) := by
  unfold execCreate
  repeat' first
    | with_reducible assumption | with_reducible apply State.modPart_memOk | with_reducible apply endCommand_memOk
    | with_reducible apply makePart_memOk | with_reducible apply OutOk.next
    | (extract_lets +onlyGivenNames z; clear_value z) | split

theorem holdCores_memOk (s : State) (x0) : MemOk s → MemOk (holdCores s x0) := by
  fun_induction holdCores s x0
  all_goals intro h
  repeat' first | apply holdThreads_memOk | apply_assumption

theorem holdPart_memOk (s : State) (p) (h : MemOk s) : MemOk (holdPart s p) := by
  unfold holdPart
  repeat' first | assumption | apply holdCores_memOk

theorem dropUnbegun_memOk (s : State) (p) (h : MemOk s) : MemOk (dropUnbegun s p) := by
  unfold dropUnbegun
  repeat' first | assumption | apply memOk_with

theorem beginStop_memOk (s : State) (p running) (h : MemOk s) : MemOk (beginStop s p running) := by
  unfold beginStop
  repeat' first
    | with_reducible assumption | with_reducible apply State.modPart_memOk | with_reducible apply State.post_memOk
    | with_reducible apply dropUnbegun_memOk | with_reducible apply holdPart_memOk

theorem execReset_memOk (part) (s : State) (h : MemOk s) : OutOk (execReset part s) := by
  unfold execReset
  repeat' first
    | with_reducible assumption | with_reducible apply State.modPart_memOk | with_reducible apply beginStop_memOk
    | with_reducible apply OutOk.next | split

theorem execTeardown_memOk (part) (s : State) (h : MemOk s) : OutOk (execTeardown part s) := by
  unfold execTeardown
  repeat' first
    | with_reducible assumption | with_reducible apply State.modPart_memOk | with_reducible apply beginStop_memOk
    | with_reducible apply OutOk.next | split

theorem execRegisterWrite_memOk (part word value) (s : State) (h : MemOk s) :
    OutOk (execRegisterWrite part word value s) := by
  unfold execRegisterWrite
  repeat' first
    | with_reducible assumption | with_reducible apply launchPortWrite_memOk | with_reducible apply execCreate_memOk
    | with_reducible apply execReset_memOk | with_reducible apply execTeardown_memOk
    | with_reducible apply pcbWrite_memOk | with_reducible apply OutOk.next | split

theorem cancelColls_memOk (s : State) (p) (h : MemOk s) : MemOk (cancelColls s p) := by
  unfold cancelColls
  repeat' first
    | with_reducible assumption | with_reducible apply endContributions_memOk | with_reducible apply logEvent_memOk
    | intro _
    | (extract_lets +onlyGivenNames z; with_reducible refine memOk_seq (s := z) ?_ ?_; subst z; rotate_left; clear_value z)
    | (extract_lets +onlyGivenNames z; clear_value z) | split

theorem freeLaunches_memOk (s : State) (p) (h : MemOk s) : MemOk (freeLaunches s p) := by
  unfold freeLaunches
  repeat' first | assumption | apply memOk_with

theorem discardQueues_memOk (s : State) (x0 : _) (h : MemOk s) : MemOk (discardQueues s x0) := by
  refine memOk_mapPorts h ?_
  intro x hx
  split <;> exact hx

theorem evictAll_memOk (s : State) (c x1) : MemOk s → MemOk (evictAll s c x1) := by
  fun_induction evictAll s c x1
  all_goals intro h
  repeat' first | apply evictL1_memOk | apply_assumption

theorem evictCores_memOk (s : State) (x0) : MemOk s → MemOk (evictCores s x0) := by
  fun_induction evictCores s x0
  all_goals intro h
  repeat' first | apply evictAll_memOk | apply_assumption | split

theorem forgetThreads_memOk (s : State) (p cs) (h : MemOk s) : MemOk (forgetThreads s p cs) := by
  unfold forgetThreads
  repeat' first | assumption | apply memOk_with

theorem scrubCores_memOk (s : State) (x0) : MemOk s → MemOk (scrubCores s x0) := by
  fun_induction scrubCores s x0
  all_goals intro h
  repeat' first | apply State.modCore_memOk | apply scrubbed_memOk | apply_assumption

theorem zeroMemory_memOk (s : State) (a n) (h : MemOk s) : MemOk (zeroMemory s a n) := by
  unfold zeroMemory
  repeat' first
    | assumption | apply recallAll_memOk | apply wakeLine_memOk
    | refine memOk_setMem ?_ (Mem.clear_wf (memOk_mem ?_) _ _) | apply foldl_memOk | intro _

theorem scrub_memOk (s : State) (p) (h : MemOk s) : MemOk (scrub s p) := by
  unfold scrub
  repeat' first
    | with_reducible assumption | with_reducible apply scrubCores_memOk | with_reducible apply forgetThreads_memOk
    | with_reducible apply zeroMemory_memOk | with_reducible apply State.modPart_memOk
    | with_reducible apply memOk_with

theorem releasePart_memOk (s : State) (p) (h : MemOk s) : MemOk (releasePart s p) := by
  unfold releasePart
  repeat' first
    | with_reducible assumption | with_reducible apply State.modCore_memOk | with_reducible apply portLeave_memOk
    | with_reducible apply State.modPort_memOk | with_reducible apply State.modPart_memOk
    | with_reducible apply foldl_memOk | intro _ | split

theorem stopped_memOk (s : State) (p) (h : MemOk s) : MemOk (stopped s p) := by
  unfold stopped
  repeat' first
    | with_reducible assumption | with_reducible apply State.modPart_memOk
    | (extract_lets +onlyGivenNames z; with_reducible refine memOk_seq (s := z) ?_ ?_; subst z; rotate_left; clear_value z)
    | split | with_reducible apply memOk_with

theorem execLayByScrubComplete_memOk (part) (s : State) (h : MemOk s) : OutOk (execLayByScrubComplete part s) := by
  unfold execLayByScrubComplete
  repeat' first
    | with_reducible assumption | with_reducible apply cancelColls_memOk | with_reducible apply evictCores_memOk
    | with_reducible apply discardQueues_memOk | with_reducible apply freeLaunches_memOk
    | with_reducible apply stopped_memOk | with_reducible apply scrub_memOk | with_reducible apply endCommand_memOk
    | with_reducible apply releasePart_memOk | with_reducible apply OutOk.next | intro _
    | (extract_lets +onlyGivenNames z; with_reducible refine memOk_seq (s := z) ?_ ?_; subst z; rotate_left; clear_value z)
    | (extract_lets +onlyGivenNames z; clear_value z) | split

theorem ssuRun_memOk (s : State) (c slot time w) (h : MemOk s) : MemOk (ssuRun s c slot time w) := by
  unfold ssuRun
  repeat' first
    | with_reducible assumption | with_reducible refine memOk_core ?_ _ | with_reducible apply State.setCore_memOk
    | with_reducible apply applyWrites_memOk | with_reducible apply beginWait_memOk | intro _
    | (extract_lets +onlyGivenNames z; with_reducible refine memOk_seq (s := z) ?_ ?_; subst z; rotate_left; clear_value z)
    | (extract_lets +onlyGivenNames z; with_reducible refine wf_seq (k := z) ?_ ?_; subst z; rotate_left; clear_value z)
    | (extract_lets +onlyGivenNames z; clear_value z) | split

theorem opZ_memOk (i d body) (s : State) (h : ∀ c slot t s, MemOk s → MemOk (body c slot t s)) (h1 : MemOk s) :
    OutOk (opZ i d body s) := by
  unfold opZ
  repeat' first
    | assumption | apply issue_memOk | apply takeFault_memOk | apply h | intro _ | split

theorem execB2z_memOk (g x1 a b) (s : State) (h : MemOk s) : OutOk (execB2z g x1 a b s) := by
  unfold execB2z
  repeat' first | assumption | apply opZ_memOk | apply ssuRun_memOk | intro _

theorem execZ2b_memOk (g x1 a) (s : State) (h : MemOk s) : OutOk (execZ2b g x1 a s) := by
  unfold execZ2b
  repeat' first | assumption | apply opZ_memOk | apply ssuRun_memOk | intro _

theorem execZcls_memOk (g x1 a b) (s : State) (h : MemOk s) : OutOk (execZcls g x1 a b s) := by
  unfold execZcls
  repeat' first | assumption | apply opZ_memOk | apply writeG_memOk | intro _

theorem execZrgn_memOk (g x1 src b) (s : State) (h : MemOk s) : OutOk (execZrgn g x1 src b s) := by
  unfold execZrgn
  repeat' first | assumption | apply opZ_memOk | apply ssuRun_memOk | intro _

theorem execZclr_memOk (g x1) (s : State) (h : MemOk s) : OutOk (execZclr g x1 s) := by
  unfold execZclr
  repeat' first | assumption | apply opZ_memOk | apply State.modThread_memOk | intro _

theorem opZ2_memOk (i g d a b f) (s : State) (h : MemOk s) : OutOk (opZ2 i g d a b f s) := by
  unfold opZ2
  repeat' first
    | assumption | apply opZ_memOk | apply takeFault_memOk | apply ssuRun_memOk | intro _
    | (extract_lets +onlyGivenNames z; clear_value z) | split

theorem execZand_memOk (g d a b) (s : State) (h : MemOk s) : OutOk (execZand g d a b s) := by
  unfold execZand
  repeat' first | assumption | apply opZ2_memOk

theorem execZor_memOk (g d a b) (s : State) (h : MemOk s) : OutOk (execZor g d a b s) := by
  unfold execZor
  repeat' first | assumption | apply opZ2_memOk

theorem execZxnor_memOk (g d a b) (s : State) (h : MemOk s) : OutOk (execZxnor g d a b s) := by
  unfold execZxnor
  repeat' first | assumption | apply opZ2_memOk

theorem execZnot_memOk (g d a) (s : State) (h : MemOk s) : OutOk (execZnot g d a s) := by
  unfold execZnot
  repeat' first | assumption | apply opZ_memOk | apply ssuRun_memOk | intro _

theorem execZmux_memOk (g d a b sel) (s : State) (h : MemOk s) : OutOk (execZmux g d a b sel s) := by
  unfold execZmux
  repeat' first
    | assumption | apply opZ_memOk | apply takeFault_memOk | apply ssuRun_memOk | intro _
    | (extract_lets +onlyGivenNames z; clear_value z) | split

theorem execSsuComplete_memOk (core slot) (s : State) (h : MemOk s) : OutOk (execSsuComplete core slot s) := by
  unfold execSsuComplete
  repeat' first
    | assumption | apply finishWait_memOk | apply applyWrites_memOk | apply OutOk.next | split

theorem selWrite_memOk (s : State) (c slot t x w) (h : MemOk s) : MemOk (selWrite s c slot t x w) := by
  unfold selWrite
  repeat' first
    | assumption | apply writeG_memOk | apply writePw_memOk | apply State.setThread_memOk | split

theorem actOn_memOk (s : State) (c slot t op) (h : MemOk s) : MemOk (actOn s c slot t op).1 := by
  unfold actOn
  repeat' first
    | with_reducible assumption | with_reducible apply stopThread_memOk | with_reducible apply State.setThread_memOk
    | with_reducible apply restart_memOk | with_reducible apply unstop_memOk | with_reducible apply logEvent_memOk
    | with_reducible apply selWrite_memOk | intro _
    | (extract_lets +onlyGivenNames z; with_reducible refine memOk_seq (s := z) ?_ ?_; subst z; rotate_left; clear_value z)
    | (extract_lets +onlyGivenNames z; clear_value z) | split

theorem actAt_memOk (s : State) (a) (h : MemOk s) : MemOk (actAt s a).1 := by
  unfold actAt
  repeat' first | assumption | apply actOn_memOk | split

theorem actDone_memOk (s : State) (r a status value) (h : MemOk s) : MemOk (actDone s r a status value) := by
  unfold actDone
  repeat' first
    | assumption | apply finishWait_memOk | apply writeG_memOk | split | apply memOk_with

theorem execThreadStateAct_memOk (core slot) (s : State) (h : MemOk s) :
    OutOk (execThreadStateAct core slot s) := by
  unfold execThreadStateAct
  repeat' first
    | assumption | apply actAt_memOk | apply actDone_memOk | apply OutOk.next | split
    | refine pair_fst (by assumption) ?_

theorem startAct_memOk (s : State) (c slot t op d x5) (h : MemOk s) : MemOk (startAct s c slot t op d x5) := by
  unfold startAct
  repeat' first
    | with_reducible assumption | with_reducible apply rightsOver_memOk | with_reducible apply takeFault_memOk
    | with_reducible apply beginWait_memOk | with_reducible apply State.bump_memOk
    | with_reducible apply State.post_memOk | intro _
    | (extract_lets +onlyGivenNames z; with_reducible refine memOk_seq (s := z) ?_ ?_; subst z; rotate_left; clear_value z)
    | (extract_lets +onlyGivenNames z; with_reducible refine memOk_seq (s := z.1) ?_ ?_; subst z; rotate_left; clear_value z)
    | (extract_lets +onlyGivenNames z; clear_value z) | split | with_reducible apply memOk_with

theorem execTstop_memOk (g d a) (s : State) (h : MemOk s) : OutOk (execTstop g d a s) := by
  unfold execTstop
  repeat' first | assumption | apply issue_memOk | apply startAct_memOk | intro _

theorem execTstart_memOk (g d a) (s : State) (h : MemOk s) : OutOk (execTstart g d a s) := by
  unfold execTstart
  repeat' first | assumption | apply issue_memOk | apply startAct_memOk | intro _

theorem execTread_memOk (g d a b) (s : State) (h : MemOk s) : OutOk (execTread g d a b s) := by
  unfold execTread
  repeat' first | assumption | apply issue_memOk | apply startAct_memOk | intro _

theorem execTwrite_memOk (g d a b) (s : State) (h : MemOk s) : OutOk (execTwrite g d a b s) := by
  unfold execTwrite
  repeat' first | assumption | apply issue_memOk | apply startAct_memOk | intro _

theorem execGets_memOk (g d sel) (s : State) (h : MemOk s) : OutOk (execGets g d sel s) := by
  unfold execGets
  repeat' first | assumption | apply issue_memOk | apply writeG_memOk | intro _

theorem setsWrite_memOk (s : State) (c slot sel v) (h : MemOk s) : MemOk (setsWrite s c slot sel v) := by
  unfold setsWrite
  repeat' first
    | assumption | apply State.modThread_memOk | apply State.modCore_memOk | intro _ | split

theorem setsChecked_memOk (s : State) (c slot sel v) (h : MemOk s) : MemOk (setsChecked s c slot sel v) := by
  unfold setsChecked
  repeat' first | assumption | apply takeFault_memOk | apply setsWrite_memOk | split

theorem execSets_memOk (g a sel) (s : State) (h : MemOk s) : OutOk (execSets g a sel s) := by
  unfold execSets
  repeat' first
    | assumption | apply issue_memOk | apply needRight_memOk | apply takeFault_memOk | apply setsChecked_memOk
    | intro _ | split | refine pair_fst (by assumption) ?_

theorem execWaystationInvalidate_memOk (w id) (s : State) (h : MemOk s) :
    OutOk (execWaystationInvalidate w id s) := by
  unfold execWaystationInvalidate
  repeat' first
    | with_reducible assumption | with_reducible apply State.post_memOk | with_reducible apply OutOk.next | split
    | with_reducible apply memOk_with

theorem execInvpgComplete_memOk (core slot) (s : State) (h : MemOk s) : OutOk (execInvpgComplete core slot s) := by
  unfold execInvpgComplete
  repeat' first
    | with_reducible assumption | with_reducible apply State.post_memOk | with_reducible apply finishWait_memOk
    | with_reducible apply writeG_memOk | with_reducible apply OutOk.next | with_reducible apply foldl_memOk | intro _
    | split | with_reducible apply memOk_with

theorem startInvpg_memOk (s : State) (c slot t d va ctl) (h : MemOk s) :
    MemOk (startInvpg s c slot t d va ctl) := by
  unfold startInvpg
  repeat' first
    | with_reducible assumption | with_reducible apply beginWait_memOk | with_reducible apply State.post_memOk
    | with_reducible apply State.bump_memOk | with_reducible apply foldl_memOk | intro _
    | with_reducible apply memOk_with

theorem execInvpg_memOk (g d a b) (s : State) (h : MemOk s) : OutOk (execInvpg g d a b s) := by
  unfold execInvpg
  repeat' first
    | with_reducible assumption | with_reducible apply issue_memOk | with_reducible apply needRight_memOk
    | with_reducible apply takeFault_memOk | with_reducible apply startInvpg_memOk | intro _ | split
    | with_reducible refine pair_fst (by with_reducible assumption) ?_

theorem startSelft_memOk (s : State) (c slot t d mask va) (h : MemOk s) :
    MemOk (startSelft s c slot t d mask va) := by
  unfold startSelft
  repeat' first
    | assumption | apply needRight_memOk | apply takeFault_memOk | apply resolve_memOk | apply State.modCore_memOk
    | apply beginWait_memOk | intro _ | split | refine pair_fst (by assumption) ?_

theorem execSelft_memOk (g d a b) (s : State) (h : MemOk s) : OutOk (execSelft g d a b s) := by
  unfold execSelft
  repeat' first | assumption | apply issue_memOk | apply startSelft_memOk | intro _

theorem execBrk_memOk (g imm) (s : State) (h : MemOk s) : OutOk (execBrk g imm s) := by
  unfold execBrk
  repeat' first | assumption | apply issue_memOk | apply takeFault_memOk | intro _

end Sys2Proof.Machine
end

