-- ==== Sys2Proof/Laws/FormFabric.lean ====
section
/-!
SUPPORT. Laws/FormFabric.lean: the canonical form of the memories is kept by the fabric, the host and platform ports, the repairs and the range operations.
-/
namespace Sys2Proof.Machine
open Sys2Proof

theorem logDrop_memOk (s : State) (x n) (h : MemOk s) : MemOk (logDrop s x n) := by
  unfold logDrop
  repeat' first | assumption | apply logEvent_memOk

theorem addMilestone_memOk (s : State) (x) (h : MemOk s) : MemOk (addMilestone s x) := by
  unfold addMilestone
  repeat' first
    | assumption | apply writePlace_memOk | (extract_lets +onlyGivenNames z; clear_value z) | split

theorem takePayload_memOk (s : State) (x) (h : MemOk s) : MemOk (takePayload s x) := by
  unfold takePayload
  repeat' first
    | with_reducible assumption | with_reducible apply State.post_memOk | with_reducible apply writePlace_memOk
    | with_reducible apply memOk_with

theorem takePosted_memOk (s : State) (x) (h : MemOk s) : MemOk (takePosted s x) := by
  unfold takePosted
  repeat' first
    | with_reducible assumption | with_reducible apply logDrop_memOk | with_reducible apply atHome_memOk
    | with_reducible apply takePayload_memOk | with_reducible apply addMilestone_memOk | intro _ | split
    | with_reducible apply memOk_with

theorem dropCopies_memOk (s : State) (c x) (h : MemOk s) : MemOk (dropCopies s c x) := by
  unfold dropCopies
  repeat' first
    | with_reducible assumption | with_reducible apply State.modCore_memOk | with_reducible apply setRdc_memOk
    | with_reducible apply foldl_memOk | intro _

theorem storeDone_memOk (s : State) (r x) (h : MemOk s) : MemOk (storeDone s r x) := by
  unfold storeDone
  repeat' first
    | assumption | apply completeIfDone_memOk | apply performWhere_memOk | intro _ | split

theorem postedDone_memOk (s : State) (x) (h : MemOk s) : MemOk (postedDone s x) := by
  unfold postedDone
  repeat' first
    | with_reducible assumption | with_reducible apply State.post_memOk | with_reducible apply modCmd_memOk
    | with_reducible apply dropCopies_memOk | with_reducible apply storeDone_memOk
    | with_reducible apply pumpAll_memOk | with_reducible apply recheckFence_memOk
    | with_reducible apply postWaiting_memOk | split | with_reducible apply memOk_with

theorem execPostedWriteArrive_memOk (id) (s : State) (h : MemOk s) : OutOk (execPostedWriteArrive id s) := by
  unfold execPostedWriteArrive
  repeat' first
    | assumption | apply postedDone_memOk | apply settleAct_memOk | apply takePosted_memOk | apply OutOk.next | split

theorem sendAnswerTo_memOk (s : State) (x kind data poison) (h : MemOk s) :
    MemOk (sendAnswerTo s x kind data poison) := by
  unfold sendAnswerTo
  repeat' first | assumption | apply State.bump_memOk | apply memOk_with

theorem execRemoteRead_memOk (id) (s : State) (h : MemOk s) : OutOk (execRemoteRead id s) := by
  unfold execRemoteRead
  repeat' first
    | with_reducible assumption | with_reducible apply settleAct_memOk | with_reducible apply logDrop_memOk
    | with_reducible apply sendAnswerTo_memOk | with_reducible apply atHome_memOk | with_reducible apply OutOk.next
    | intro _ | split

theorem refuseAccess_memOk (s : State) (r x) (h : MemOk s) : MemOk (refuseAccess s r x) := by
  unfold refuseAccess
  repeat' first | assumption | apply failAcc_memOk | split

theorem fillCopy_memOk (s : State) (c key data poison) (h : MemOk s) : MemOk (fillCopy s c key data poison) := by
  unfold fillCopy
  repeat' first | assumption | apply rdcPut_memOk | apply fillL1_memOk

theorem takeLine_memOk (s : State) (r x data poison) (h : MemOk s) : MemOk (takeLine s r x data poison) := by
  unfold takeLine
  repeat' first
    | with_reducible assumption | with_reducible apply fillCopy_memOk | with_reducible apply sampleHist_memOk
    | with_reducible apply completeIfDone_memOk | with_reducible apply performWhere_memOk | intro _ | split

theorem execRemoteReadResponse_memOk (id data) (s : State) (h : MemOk s) :
    OutOk (execRemoteReadResponse id data s) := by
  unfold execRemoteReadResponse
  repeat' first
    | with_reducible assumption | with_reducible apply postWaiting_memOk | with_reducible apply refuseAccess_memOk
    | with_reducible apply takeLine_memOk | with_reducible apply OutOk.next | split | with_reducible apply memOk_with

theorem atomicHere_memOk (s : State) (x op) (h : MemOk s) : MemOk (atomicHere s x op) := by
  unfold atomicHere
  repeat' first
    | with_reducible assumption | with_reducible apply sendAnswerTo_memOk | with_reducible apply writePlace_memOk
    | (extract_lets +onlyGivenNames z; clear_value z) | split

theorem actHere_memOk (s : State) (x a) (h : MemOk s) : MemOk (actHere s x a) := by
  unfold actHere
  repeat' first
    | with_reducible assumption | with_reducible apply actAt_memOk | with_reducible apply sendAnswerTo_memOk
    | (extract_lets +onlyGivenNames z; clear_value z) | split
    | with_reducible refine pair_fst (by with_reducible assumption) ?_ | with_reducible apply memOk_with

theorem execRemoteAtomic_memOk (id) (s : State) (h : MemOk s) : OutOk (execRemoteAtomic id s) := by
  unfold execRemoteAtomic
  repeat' first
    | with_reducible assumption | with_reducible apply settleAct_memOk | with_reducible apply logDrop_memOk
    | with_reducible apply sendAnswerTo_memOk | with_reducible apply atHome_memOk
    | with_reducible apply atomicHere_memOk | with_reducible apply actHere_memOk | with_reducible apply OutOk.next
    | intro _ | split

theorem takeOld_memOk (s : State) (r x old) (h : MemOk s) : MemOk (takeOld s r x old) := by
  unfold takeOld
  repeat' first
    | assumption | apply ownWrite_memOk | apply completeIfDone_memOk | apply performWhere_memOk | intro _ | split

theorem completionDone_memOk (s : State) (lid ok) (h : MemOk s) : MemOk (completionDone s lid ok) := by
  unfold completionDone
  repeat' first
    | with_reducible assumption | with_reducible apply logLaunchWrite_memOk | with_reducible apply State.post_memOk
    | split

theorem messageDone_memOk (s : State) (r id status) (h : MemOk s) : MemOk (messageDone s r id status) := by
  unfold messageDone
  repeat' first | assumption | apply finishWait_memOk | apply writeG_memOk | split

theorem migrantDone_memOk (s : State) (x m) (h : MemOk s) : MemOk (migrantDone s x m) := by
  unfold migrantDone
  repeat' first
    | assumption | apply leaveSlot_memOk | apply awayEnded_memOk | split | apply memOk_with

theorem foreignActDone_memOk (s : State) (r a old) (h : MemOk s) : MemOk (foreignActDone s r a old) := by
  unfold foreignActDone
  repeat' first | assumption | apply actDone_memOk | split

theorem execRemoteAtomicResponse_memOk (id old) (s : State) (h : MemOk s) :
    OutOk (execRemoteAtomicResponse id old s) := by
  unfold execRemoteAtomicResponse
  repeat' first
    | assumption | apply postWaiting_memOk | apply migrantDone_memOk | apply takeOld_memOk | apply refuseAccess_memOk
    | apply completionDone_memOk | apply messageDone_memOk | apply foreignActDone_memOk | apply OutOk.next | split
    | apply memOk_with

theorem raise_memOk (s : State) (c slot fl) (h : MemOk s) : MemOk (raise s c slot fl) := by
  unfold raise
  repeat' first | assumption | apply State.modThread_memOk

theorem fresult_memOk (s : State) (c slot d r) (h : MemOk s) : MemOk (fresult s c slot d r) := by
  unfold fresult
  repeat' first | assumption | apply writeG_memOk | apply raise_memOk

theorem opF2_memOk (i g d a b f op) (s : State) (h : MemOk s) : OutOk (opF2 i g d a b f op s) := by
  unfold opF2
  repeat' first | assumption | apply issue_memOk | apply fresult_memOk | intro _

theorem opFma_memOk (i g d a b f sub) (s : State) (h : MemOk s) : OutOk (opFma i g d a b f sub s) := by
  unfold opFma
  repeat' first | assumption | apply issue_memOk | apply fresult_memOk | intro _

theorem opF1_memOk (i g d a f op) (s : State) (h : MemOk s) : OutOk (opF1 i g d a f op s) := by
  unfold opF1
  repeat' first | assumption | apply issue_memOk | apply fresult_memOk | intro _

theorem execFaddD_memOk (g d a b) (s : State) (h : MemOk s) : OutOk (execFaddD g d a b s) := by
  unfold execFaddD
  repeat' first | assumption | apply opF2_memOk

theorem execFsubD_memOk (g d a b) (s : State) (h : MemOk s) : OutOk (execFsubD g d a b s) := by
  unfold execFsubD
  repeat' first | assumption | apply opF2_memOk

theorem execFmulD_memOk (g d a b) (s : State) (h : MemOk s) : OutOk (execFmulD g d a b s) := by
  unfold execFmulD
  repeat' first | assumption | apply opF2_memOk

theorem execFminD_memOk (g d a b) (s : State) (h : MemOk s) : OutOk (execFminD g d a b s) := by
  unfold execFminD
  repeat' first | assumption | apply opF2_memOk

theorem execFmaxD_memOk (g d a b) (s : State) (h : MemOk s) : OutOk (execFmaxD g d a b s) := by
  unfold execFmaxD
  repeat' first | assumption | apply opF2_memOk

theorem execFdivD_memOk (g d a b) (s : State) (h : MemOk s) : OutOk (execFdivD g d a b s) := by
  unfold execFdivD
  repeat' first | assumption | apply opF2_memOk

theorem execFsqrtD_memOk (g d a) (s : State) (h : MemOk s) : OutOk (execFsqrtD g d a s) := by
  unfold execFsqrtD
  repeat' first | assumption | apply opF1_memOk

theorem execFmaD_memOk (g d a b) (s : State) (h : MemOk s) : OutOk (execFmaD g d a b s) := by
  unfold execFmaD
  repeat' first | assumption | apply opFma_memOk

theorem execFmsD_memOk (g d a b) (s : State) (h : MemOk s) : OutOk (execFmsD g d a b s) := by
  unfold execFmsD
  repeat' first | assumption | apply opFma_memOk

theorem execFaddS_memOk (g d a b) (s : State) (h : MemOk s) : OutOk (execFaddS g d a b s) := by
  unfold execFaddS
  repeat' first | assumption | apply opF2_memOk

theorem execFsubS_memOk (g d a b) (s : State) (h : MemOk s) : OutOk (execFsubS g d a b s) := by
  unfold execFsubS
  repeat' first | assumption | apply opF2_memOk

theorem execFmulS_memOk (g d a b) (s : State) (h : MemOk s) : OutOk (execFmulS g d a b s) := by
  unfold execFmulS
  repeat' first | assumption | apply opF2_memOk

theorem execFminS_memOk (g d a b) (s : State) (h : MemOk s) : OutOk (execFminS g d a b s) := by
  unfold execFminS
  repeat' first | assumption | apply opF2_memOk

theorem execFmaxS_memOk (g d a b) (s : State) (h : MemOk s) : OutOk (execFmaxS g d a b s) := by
  unfold execFmaxS
  repeat' first | assumption | apply opF2_memOk

theorem execFdivS_memOk (g d a b) (s : State) (h : MemOk s) : OutOk (execFdivS g d a b s) := by
  unfold execFdivS
  repeat' first | assumption | apply opF2_memOk

theorem execFsqrtS_memOk (g d a) (s : State) (h : MemOk s) : OutOk (execFsqrtS g d a s) := by
  unfold execFsqrtS
  repeat' first | assumption | apply opF1_memOk

theorem execFmaS_memOk (g d a b) (s : State) (h : MemOk s) : OutOk (execFmaS g d a b s) := by
  unfold execFmaS
  repeat' first | assumption | apply opFma_memOk

theorem execFmsS_memOk (g d a b) (s : State) (h : MemOk s) : OutOk (execFmsS g d a b s) := by
  unfold execFmsS
  repeat' first | assumption | apply opFma_memOk

theorem execFcmp_memOk (g p c a b) (s : State) (h : MemOk s) : OutOk (execFcmp g p c a b s) := by
  unfold execFcmp
  repeat' first
    | assumption | apply issue_memOk | apply writeP_memOk | apply raise_memOk | intro _

theorem execFclass_memOk (g d a) (s : State) (h : MemOk s) : OutOk (execFclass g d a s) := by
  unfold execFclass
  repeat' first | assumption | apply opRR_memOk

theorem execFcvt_memOk (g d a c) (s : State) (h : MemOk s) : OutOk (execFcvt g d a c s) := by
  unfold execFcvt
  repeat' first | assumption | apply issue_memOk | apply fresult_memOk | intro _

theorem hostPlace_memOk (s : State) (fn off x2) (h : MemOk s) : MemOk (hostPlace s fn off x2).1 := by
  unfold hostPlace
  repeat' first | assumption | apply translate_memOk | split | refine pair_fst (by assumption) ?_

theorem unsupported_memOk (s : State) (fn off read) (h : MemOk s) : MemOk (unsupported s fn off read) := by
  unfold unsupported
  repeat' first
    | with_reducible assumption | with_reducible apply logEvent_memOk | split | with_reducible apply memOk_with

theorem recallHolder_memOk (s : State) (p) (h : MemOk s) : MemOk (recallHolder s p) := by
  unfold recallHolder
  repeat' first | assumption | apply recallAll_memOk | split

theorem hostPerform_memOk (s : State) (part p size write) (h : MemOk s) :
    MemOk (hostPerform s part p size write) := by
  unfold hostPerform
  repeat' first
    | assumption | apply distStore_memOk | apply recallHolder_memOk | split | apply memOk_with

theorem barWrite_memOk (s : State) (fn off v n) (h : MemOk s) : OutOk (barWrite s fn off v n) := by
  induction n generalizing s off v with
  | zero => exact .next h
  | succ n ih =>
    have ho : OutOk (match barRegister fn off with
        | some (p, w) => execRegisterWrite p w (BitVec.ofNat 64 v) s
        | none => .next s) := by
      split
      · exact execRegisterWrite_memOk _ _ _ _ h
      · exact .next h
    unfold barWrite
    split
    · exact ih _ _ _ (outOk_get (by assumption) ho)
    · exact ho

theorem barZero_memOk (s : State) (fn off size write) (h : MemOk s) : OutOk (barZero s fn off size write) := by
  unfold barZero
  repeat' first
    | assumption | apply unsupported_memOk | apply barWrite_memOk | apply OutOk.next | split | apply memOk_with

theorem execHostBarAccess_memOk (fn addr size write) (s : State) (h : MemOk s) :
    OutOk (execHostBarAccess fn addr size write s) := by
  unfold execHostBarAccess
  repeat' first
    | assumption | apply barZero_memOk | apply hostPlace_memOk | apply unsupported_memOk | apply settleAct_memOk
    | apply atPlace_memOk | apply hostPerform_memOk | apply OutOk.next | intro _ | split
    | refine pair_fst (by assumption) ?_

theorem atomicOpHere_memOk (s : State) (part p op) (h : MemOk s) : MemOk (atomicOpHere s part p op) := by
  unfold atomicOpHere
  repeat' first
    | assumption | apply distStore_memOk
    | (extract_lets +onlyGivenNames z; with_reducible refine memOk_seq (s := z) ?_ ?_; subst z; rotate_left; clear_value z)
    | (extract_lets +onlyGivenNames z; clear_value z) | split | apply memOk_with

theorem execHostAtomicop_memOk (fn offset op) (s : State) (h : MemOk s) :
    OutOk (execHostAtomicop fn offset op s) := by
  unfold execHostAtomicop
  repeat' first
    | assumption | apply unsupported_memOk | apply hostPlace_memOk | apply settleAct_memOk | apply atPlace_memOk
    | apply atomicOpHere_memOk | apply OutOk.next | intro _ | split | refine pair_fst (by assumption) ?_

theorem execCxlMemAccess_memOk (addr size write) (s : State) (h : MemOk s) :
    OutOk (execCxlMemAccess addr size write s) := by
  unfold execCxlMemAccess
  repeat' first
    | assumption | apply settleAct_memOk | apply atPlace_memOk | apply hostPerform_memOk | apply OutOk.next | intro _
    | (extract_lets +onlyGivenNames z; clear_value z) | split

theorem shareHost_memOk (s : State) (line) (h : MemOk s) : MemOk (shareHost s line) := by
  unfold shareHost
  repeat' first
    | assumption | refine memOk_setHost ?_ (Mem.writeN_wf (memOk_host ?_) _ _) | apply foldl_memOk | intro _
    | apply memOk_with

theorem execHostSnoop_memOk (line write) (s : State) (h : MemOk s) : OutOk (execHostSnoop line write s) := by
  unfold execHostSnoop
  repeat' first
    | assumption | apply shareHost_memOk | apply flushHost_memOk | apply wakeLine_memOk
    | refine memOk_setHost ?_ (Mem.writeN_wf (memOk_host ?_) _ _) | apply OutOk.next | apply foldl_memOk | split

theorem execLinkDown_memOk (link) (s : State) (h : MemOk s) : OutOk (execLinkDown link s) := by
  unfold execLinkDown
  repeat' first | assumption | apply OutOk.next | split | apply memOk_with

theorem execHostLinkUp_memOk (link) (s : State) (h : MemOk s) : OutOk (execHostLinkUp link s) := by
  unfold execHostLinkUp
  repeat' first | assumption | apply OutOk.next | split | apply memOk_with

theorem execFlitCrcError_memOk (link) (s : State) (h : MemOk s) : OutOk (execFlitCrcError link s) := by
  unfold execFlitCrcError
  repeat' first
    | assumption | apply logEvent_memOk | apply OutOk.next | intro _
    | (extract_lets +onlyGivenNames z; with_reducible refine memOk_seq (s := z) ?_ ?_; subst z; rotate_left; clear_value z)
    | (extract_lets +onlyGivenNames z; clear_value z) | split | apply memOk_with

theorem recoverPart_memOk (s : State) (bank p) (h : MemOk s) : MemOk (recoverPart s bank p) := by
  unfold recoverPart
  repeat' first
    | with_reducible assumption | with_reducible apply holdPart_memOk | with_reducible apply writePlace_memOk
    | with_reducible apply endCommand_memOk | split

theorem recoverParts_memOk (s : State) (bank x1) : MemOk s → MemOk (recoverParts s bank x1) := by
  fun_induction recoverParts s bank x1
  all_goals intro h
  repeat' first | with_reducible apply recoverPart_memOk | apply_assumption | split

theorem recoverCore_memOk (s : State) (c) (h : MemOk s) : MemOk (recoverCore s c) := by
  unfold recoverCore
  repeat' first | with_reducible assumption | with_reducible apply recoverParts_memOk | split

theorem recordFence_memOk (s : State) (n) (h : MemOk s) : MemOk (recordFence s n) := by
  unfold recordFence
  repeat' first | assumption | apply memOk_with

theorem fenceCore_memOk (s : State) (c) (h : MemOk s) : MemOk (fenceCore s c) := by
  unfold fenceCore
  repeat' first | assumption | apply recordFence_memOk | apply State.modCore_memOk | intro _

theorem fenceFunction_memOk (s : State) (c bit) (h : MemOk s) : MemOk (fenceFunction s c bit) := by
  unfold fenceFunction
  repeat' first | assumption | apply State.modCore_memOk | apply recordFence_memOk | intro _

theorem repair_memOk (s : State) (c r who) (h : MemOk s) : MemOk (repair s c r who) := by
  unfold repair
  repeat' first
    | with_reducible assumption | with_reducible apply State.modCore_memOk | with_reducible apply evictAll_memOk
    | with_reducible apply logEvent_memOk | intro _ | split

theorem fenceFound_memOk (s : State) (c r who) (h : MemOk s) : MemOk (fenceFound s c r who) := by
  unfold fenceFound
  repeat' first
    | with_reducible assumption | with_reducible apply logEvent_memOk | with_reducible apply fenceFunction_memOk
    | with_reducible apply fenceCore_memOk | with_reducible apply recoverCore_memOk | split

theorem execSelftComplete_memOk (core slot failed rows ways bank) (s : State) (h : MemOk s) :
    OutOk (execSelftComplete core slot failed rows ways bank s) := by
  unfold execSelftComplete
  repeat' first
    | with_reducible assumption | with_reducible apply putRecord_memOk | with_reducible apply writeG_memOk
    | with_reducible apply State.modCore_memOk | with_reducible apply finishWait_memOk
    | with_reducible apply fenceFound_memOk | with_reducible apply repair_memOk | with_reducible apply OutOk.next
    | intro _ | split | with_reducible apply memOk_with

theorem poisonLines_memOk (s : State) (bank x1) : MemOk s → MemOk (poisonLines s bank x1) := by
  fun_induction poisonLines s bank x1
  all_goals intro h
  repeat' first | apply_assumption

theorem fenceUnit_memOk (s : State) (x0) (h : MemOk s) : MemOk (fenceUnit s x0) := by
  unfold fenceUnit
  repeat' first
    | with_reducible assumption | with_reducible apply fenceCore_memOk | with_reducible apply fenceFunction_memOk
    | with_reducible apply recordFence_memOk | split | with_reducible apply memOk_with

theorem execFatalError_memOk (unit poisoned) (s : State) (h : MemOk s) :
    OutOk (execFatalError unit poisoned s) := by
  unfold execFatalError
  repeat' first
    | with_reducible assumption | with_reducible apply poisonLines_memOk | with_reducible apply logEvent_memOk
    | with_reducible apply fenceUnit_memOk | with_reducible apply recoverParts_memOk | with_reducible apply OutOk.next

theorem resumeRolled_memOk (s : State) (c x1) (h : MemOk s) : MemOk (resumeRolled s c x1) := by
  induction x1 generalizing s c with
  | nil => exact h
  | cons _ _ ih =>
    unfold resumeRolled
    repeat' first
      | with_reducible assumption | with_reducible apply State.modThread_memOk | with_reducible apply writeG_memOk
      | with_reducible apply makeReady_memOk | with_reducible apply finishWait_memOk
      | with_reducible apply barWake_memOk | with_reducible apply postAcc_memOk | with_reducible apply pump_memOk
      | with_reducible apply ih | with_reducible apply foldl_memOk | intro _ | split

theorem rollback_memOk (s : State) (c L) (h : MemOk s) : MemOk (rollback s c L) := by
  unfold rollback
  repeat' first
    | assumption | refine memOk_core ?_ _ | apply State.setCore_memOk | apply resumeRolled_memOk
    | refine undoWrites_wf ?_ _

theorem lockstepFaults_memOk (s : State) (c count x2) (h : MemOk s) : MemOk (lockstepFaults s c count x2) := by
  induction x2 generalizing s c count with
  | nil => exact h
  | cons _ _ ih =>
    unfold lockstepFaults
    repeat' first | assumption | apply enterFault_memOk | apply ih | split

theorem failPair_memOk (s : State) (c L) (h : MemOk s) : MemOk (failPair s c L) := by
  unfold failPair
  repeat' first
    | with_reducible assumption | with_reducible apply lockstepFaults_memOk | with_reducible apply logEvent_memOk
    | with_reducible apply recoverCore_memOk | with_reducible apply fenceCore_memOk

theorem execLockstepMismatch_memOk (core) (s : State) (h : MemOk s) : OutOk (execLockstepMismatch core s) := by
  unfold execLockstepMismatch
  repeat' first
    | with_reducible assumption | with_reducible apply commitPair_memOk | with_reducible apply rollback_memOk
    | with_reducible apply logEvent_memOk | with_reducible apply failPair_memOk | with_reducible apply OutOk.next
    | intro _
    | (extract_lets +onlyGivenNames z; with_reducible refine memOk_seq (s := z) ?_ ?_; subst z; rotate_left; clear_value z)
    | split

theorem refence_memOk (s : State) (n) (h : MemOk s) : MemOk (refence s n) := by
  unfold refence
  repeat' first
    | assumption | apply State.modCore_memOk | intro _ | split | apply memOk_with

theorem bootTest_memOk (s : State) (c) (h : MemOk s) : MemOk (bootTest s c) := by
  unfold bootTest
  repeat' first | assumption | apply fenceFound_memOk | apply repair_memOk | split

theorem bootTests_memOk (s : State) (x0) : MemOk s → MemOk (bootTests s x0) := by
  fun_induction bootTests s x0
  all_goals intro h
  repeat' first | apply bootTest_memOk | apply_assumption

theorem poweredUp_memOk (s : State) (h : MemOk s) : MemOk (poweredUp s) :=
  ⟨rfl, h.2.1, fun _ hx => (List.not_mem_nil hx).elim, fun _ hx => (List.not_mem_nil hx).elim⟩

theorem execBoot_memOk (image0 image1) (s : State) (h : MemOk s) : OutOk (execBoot image0 image1 s) := by
  unfold execBoot
  repeat' first
    | with_reducible assumption | with_reducible apply poweredUp_memOk | with_reducible apply bootTests_memOk
    | with_reducible apply refence_memOk | with_reducible apply OutOk.next | with_reducible apply foldl_memOk | split
    | with_reducible apply memOk_with

theorem execThermalThrottle_memOk (die) (s : State) (h : MemOk s) : OutOk (execThermalThrottle die s) := by
  unfold execThermalThrottle
  repeat' first | assumption | apply OutOk.next | apply memOk_with

theorem execThermalRecovery_memOk (die) (s : State) (h : MemOk s) : OutOk (execThermalRecovery die s) := by
  unfold execThermalRecovery
  repeat' first | assumption | apply OutOk.next | apply memOk_with

theorem stopParts_memOk (s : State) (x0) : MemOk s → MemOk (stopParts s x0) := by
  fun_induction stopParts s x0
  all_goals intro h
  repeat' first | apply beginStop_memOk | apply_assumption | split

theorem execThermalShutdown_memOk (die) (s : State) (h : MemOk s) : OutOk (execThermalShutdown die s) := by
  unfold execThermalShutdown
  repeat' first
    | with_reducible assumption | with_reducible apply logEvent_memOk | with_reducible apply stopParts_memOk
    | with_reducible apply OutOk.next | split | with_reducible apply memOk_with

theorem portAnswer_memOk (s : State) (answer) (h : MemOk s) : OutOk (portAnswer s answer) := by
  unfold portAnswer
  repeat' first | assumption | apply OutOk.next | split | apply memOk_with

theorem execMcBankRead_memOk (bank word) (s : State) (h : MemOk s) : OutOk (execMcBankRead bank word s) := by
  unfold execMcBankRead
  repeat' first | assumption | apply portAnswer_memOk

theorem clearBank_memOk (s : State) (bank) (h : MemOk s) : MemOk (clearBank s bank) := by
  unfold clearBank
  repeat' first | assumption | apply memOk_with

theorem execBankClear_memOk (bank) (s : State) (h : MemOk s) : OutOk (execBankClear bank s) := by
  unfold execBankClear
  repeat' first
    | assumption | apply portAnswer_memOk | apply clearBank_memOk | apply OutOk.next | split

theorem execTelemetryRead_memOk (word) (s : State) (h : MemOk s) : OutOk (execTelemetryRead word s) := by
  unfold execTelemetryRead
  repeat' first | assumption | apply portAnswer_memOk | apply memOk_with

theorem execPowerLimitSet_memOk (milliwatts) (s : State) (h : MemOk s) :
    OutOk (execPowerLimitSet milliwatts s) := by
  unfold execPowerLimitSet
  repeat' first
    | assumption | apply portAnswer_memOk | apply OutOk.next | split | apply memOk_with

theorem execPcbWordAccess_memOk (part word write) (s : State) (h : MemOk s) :
    OutOk (execPcbWordAccess part word write s) := by
  unfold execPcbWordAccess
  repeat' first
    | assumption | apply portAnswer_memOk | apply execRegisterWrite_memOk | refine outOk_get (by assumption) ?_
    | apply OutOk.next | split

theorem execAttestation_memOk (nonce) (s : State) (h : MemOk s) : OutOk (execAttestation nonce s) := by
  unfold execAttestation
  repeat' first | assumption | apply portAnswer_memOk

theorem execFenceListRead_memOk (s : State) (h : MemOk s) : OutOk (execFenceListRead s) := by
  unfold execFenceListRead
  repeat' first | assumption | apply portAnswer_memOk

theorem execVersionRaise_memOk (s : State) (h : MemOk s) : OutOk (execVersionRaise s) := by
  unfold execVersionRaise
  repeat' first
    | assumption | apply portAnswer_memOk | apply OutOk.next | split | apply memOk_with

theorem execMgmtUnknownCode_memOk (code) (s : State) (h : MemOk s) : OutOk (execMgmtUnknownCode code s) := by
  unfold execMgmtUnknownCode
  repeat' first | assumption | apply portAnswer_memOk | apply OutOk.next | split

theorem rangePlaces_memOk (s : State) (c t x2) (h : MemOk s) : MemOk (rangePlaces s c t x2).1 := by
  induction x2 generalizing s c t with
  | nil => exact h
  | cons _ _ ih =>
    unfold rangePlaces
    repeat' first
      | assumption | apply resolve_memOk | apply ih | split | refine pair_fst (by assumption) ?_

theorem sendRdc_memOk (s : State) (die key kind keep d) (h : MemOk s) : MemOk (sendRdc s die key kind keep d) := by
  unfold sendRdc
  repeat' first | assumption | apply sendMsg_memOk | apply setRdcX_memOk

theorem rdcRange_memOk (s : State) (c op key) (h : MemOk s) : MemOk (rdcRange s c op key) := by
  unfold rdcRange
  repeat' first
    | with_reducible assumption | with_reducible apply sendRdc_memOk | with_reducible apply downgrade_memOk
    | with_reducible apply dropAgent_memOk | intro _
    | (extract_lets +onlyGivenNames z; with_reducible refine memOk_seq (s := z) ?_ ?_; subst z; rotate_left; clear_value z)
    | (extract_lets +onlyGivenNames z; clear_value z) | split

theorem l1FarRange_memOk (s : State) (c op key l) (h : MemOk s) : MemOk (l1FarRange s c op key l) := by
  unfold l1FarRange
  extract_lets die agent free erase
  have hf : ∀ s, MemOk s → MemOk (free s) := fun s hs => setRdc_memOk _ _ _ hs
  have he : ∀ s, MemOk s → MemOk (erase s) := fun s hs => State.modCore_memOk (fun _ hk => hk) hs
  clear_value erase free agent die
  repeat' first
    | with_reducible assumption | with_reducible apply sendRdc_memOk | with_reducible apply downgrade_memOk
    | with_reducible apply hf | with_reducible apply he | split

theorem l1Range_memOk (s : State) (c op key l) (h : MemOk s) : MemOk (l1Range s c op key l) := by
  unfold l1Range
  repeat' first
    | with_reducible assumption | with_reducible apply sendMsg_memOk | with_reducible apply State.modCore_memOk
    | intro _ | split

theorem rangeLine_memOk (s : State) (x0 x1 x2 x3) (h : MemOk s) : MemOk (rangeLine s x0 x1 x2 x3).1 := by
  unfold rangeLine
  extract_lets pa mine rdc dropRdc kind
  have hd : ∀ s, MemOk s → MemOk (dropRdc s) := by
    intro s hs
    dsimp only [dropRdc]
    split
    · exact setRdc_memOk _ _ _ hs
    · exact hs
  have hm : ∀ (m : Option CLine) (a : State), a = (match m with
      | some l => if isDirty l && x1 != 1 then writePriv s x0 pa l.data l.poison else s
      | none => s) → MemOk a := by
    rintro m _ rfl
    split
    · split
      · exact writePriv_memOk _ _ _ _ _ h
      · exact h
    · exact h
  clear_value kind dropRdc rdc mine pa
  repeat' first
    | with_reducible assumption | with_reducible apply State.modCore_memOk | with_reducible apply rdcRange_memOk
    | with_reducible apply l1FarRange_memOk | with_reducible apply l1Range_memOk | with_reducible apply hd
    | exact hm _ _ rfl | exact hm (some _) _ rfl | intro _ | split

theorem rangeLines_memOk (s : State) (c op scope n x4) : MemOk s → MemOk (rangeLines s c op scope n x4).1 := by
  fun_induction rangeLines s c op scope n x4
  all_goals intro h
  repeat' first | apply rangeLine_memOk | apply_assumption

theorem hostRange_memOk (s : State) (c op scope key) (h : MemOk s) : MemOk (hostRange s c op scope key).1 := by
  unfold hostRange
  repeat' first
    | assumption | apply dropHostL1_memOk | apply State.modCore_memOk
    | refine memOk_setHost ?_ (Mem.writeN_wf (memOk_host ?_) _ _) | intro _ | apply hz
    | extract_lets +onlyGivenNames z | split | apply memOk_with

theorem hostRanges_memOk (s : State) (c op scope n x4) : MemOk s → MemOk (hostRanges s c op scope n x4).1 := by
  fun_induction hostRanges s c op scope n x4
  all_goals intro h
  repeat' first | apply hostRange_memOk | apply_assumption

theorem discardRight_memOk (s : State) (c slot t dirty) (h : MemOk s) :
    MemOk (discardRight s c slot t dirty).1 := by
  unfold discardRight
  repeat' first | assumption | apply needRight_memOk | split

theorem countDiscards_memOk (s : State) (c n) (h : MemOk s) : MemOk (countDiscards s c n) := by
  unfold countDiscards
  repeat' first | assumption | split | apply memOk_with

theorem rangeAct_memOk (s : State) (c slot t op d va ctl) (h : MemOk s) :
    MemOk (rangeAct s c slot t op d va ctl) := by
  unfold rangeAct
  repeat' first
    | with_reducible assumption | with_reducible apply rangePlaces_memOk | with_reducible apply takeFault_memOk
    | with_reducible apply discardRight_memOk | with_reducible apply rangeLines_memOk
    | with_reducible apply countDiscards_memOk | with_reducible apply hostRanges_memOk
    | with_reducible apply finishWait_memOk | with_reducible apply writeG_memOk
    | with_reducible apply State.modThread_memOk | intro _
    | (extract_lets +onlyGivenNames z; with_reducible refine memOk_seq (s := z) ?_ ?_; subst z; rotate_left; clear_value z)
    | (extract_lets +onlyGivenNames z; with_reducible refine memOk_seq (s := z.1) ?_ ?_; subst z; rotate_left; clear_value z)
    | (extract_lets +onlyGivenNames z; clear_value z) | split
    | with_reducible refine pair_fst (by with_reducible assumption) ?_ | with_reducible apply memOk_with

theorem execAccessComplete_memOk (core slot) (s : State) (h : MemOk s) :
    OutOk (execAccessComplete core slot s) := by
  unfold execAccessComplete
  repeat' first
    | with_reducible assumption | with_reducible apply settleAct_memOk | with_reducible apply performAcc_memOk
    | with_reducible apply recheckFence_memOk | with_reducible apply rangeAct_memOk
    | with_reducible apply pumpThreads_memOk | with_reducible apply finishWait_memOk
    | with_reducible apply writeG_memOk | with_reducible apply stepFault_memOk | with_reducible apply OutOk.next
    | split | with_reducible apply memOk_with

end Sys2Proof.Machine
end

