-- ==== Sys2Proof/Laws/FormExec.lean ====
section
/-!
SUPPORT. Laws/FormExec.lean: the canonical form of the memories is kept by every instruction and every event.
-/
namespace Sys2Proof.Machine
open Sys2Proof

theorem execAdd_memOk (g d a b) (s : State) (h : MemOk s) : OutOk (execAdd g d a b s) := by
  unfold execAdd
  repeat' first | assumption | apply opRRR_memOk

theorem execSub_memOk (g d a b) (s : State) (h : MemOk s) : OutOk (execSub g d a b s) := by
  unfold execSub
  repeat' first | assumption | apply opRRR_memOk

theorem execAnd_memOk (g d a b) (s : State) (h : MemOk s) : OutOk (execAnd g d a b s) := by
  unfold execAnd
  repeat' first | assumption | apply opRRR_memOk

theorem execOr_memOk (g d a b) (s : State) (h : MemOk s) : OutOk (execOr g d a b s) := by
  unfold execOr
  repeat' first | assumption | apply opRRR_memOk

theorem execXor_memOk (g d a b) (s : State) (h : MemOk s) : OutOk (execXor g d a b s) := by
  unfold execXor
  repeat' first | assumption | apply opRRR_memOk

theorem execAndn_memOk (g d a b) (s : State) (h : MemOk s) : OutOk (execAndn g d a b s) := by
  unfold execAndn
  repeat' first | assumption | apply opRRR_memOk

theorem execShl_memOk (g d a b) (s : State) (h : MemOk s) : OutOk (execShl g d a b s) := by
  unfold execShl
  repeat' first | assumption | apply opRRR_memOk

theorem execShr_memOk (g d a b) (s : State) (h : MemOk s) : OutOk (execShr g d a b s) := by
  unfold execShr
  repeat' first | assumption | apply opRRR_memOk

theorem execSra_memOk (g d a b) (s : State) (h : MemOk s) : OutOk (execSra g d a b s) := by
  unfold execSra
  repeat' first | assumption | apply opRRR_memOk

theorem execRotl_memOk (g d a b) (s : State) (h : MemOk s) : OutOk (execRotl g d a b s) := by
  unfold execRotl
  repeat' first | assumption | apply opRRR_memOk

theorem execMins_memOk (g d a b) (s : State) (h : MemOk s) : OutOk (execMins g d a b s) := by
  unfold execMins
  repeat' first | assumption | apply opRRR_memOk

theorem execMaxs_memOk (g d a b) (s : State) (h : MemOk s) : OutOk (execMaxs g d a b s) := by
  unfold execMaxs
  repeat' first | assumption | apply opRRR_memOk

theorem execMinu_memOk (g d a b) (s : State) (h : MemOk s) : OutOk (execMinu g d a b s) := by
  unfold execMinu
  repeat' first | assumption | apply opRRR_memOk

theorem execMaxu_memOk (g d a b) (s : State) (h : MemOk s) : OutOk (execMaxu g d a b s) := by
  unfold execMaxu
  repeat' first | assumption | apply opRRR_memOk

theorem execClz_memOk (g d a) (s : State) (h : MemOk s) : OutOk (execClz g d a s) := by
  unfold execClz
  repeat' first | assumption | apply opRR_memOk

theorem execCtz_memOk (g d a) (s : State) (h : MemOk s) : OutOk (execCtz g d a s) := by
  unfold execCtz
  repeat' first | assumption | apply opRR_memOk

theorem execPopc_memOk (g d a) (s : State) (h : MemOk s) : OutOk (execPopc g d a s) := by
  unfold execPopc
  repeat' first | assumption | apply opRR_memOk

theorem execBrev_memOk (g d a) (s : State) (h : MemOk s) : OutOk (execBrev g d a s) := by
  unfold execBrev
  repeat' first | assumption | apply opRR_memOk

theorem execBswap_memOk (g d a) (s : State) (h : MemOk s) : OutOk (execBswap g d a s) := by
  unfold execBswap
  repeat' first | assumption | apply opRR_memOk

theorem execMul_memOk (g d a b) (s : State) (h : MemOk s) : OutOk (execMul g d a b s) := by
  unfold execMul
  repeat' first | assumption | apply opRRR_memOk

theorem execMulhs_memOk (g d a b) (s : State) (h : MemOk s) : OutOk (execMulhs g d a b s) := by
  unfold execMulhs
  repeat' first | assumption | apply opRRR_memOk

theorem execMulhu_memOk (g d a b) (s : State) (h : MemOk s) : OutOk (execMulhu g d a b s) := by
  unfold execMulhu
  repeat' first | assumption | apply opRRR_memOk

theorem execMulhsu_memOk (g d a b) (s : State) (h : MemOk s) : OutOk (execMulhsu g d a b s) := by
  unfold execMulhsu
  repeat' first | assumption | apply opRRR_memOk

theorem execDivs_memOk (g d a b) (s : State) (h : MemOk s) : OutOk (execDivs g d a b s) := by
  unfold execDivs
  repeat' first | assumption | apply opRRR_memOk

theorem execDivu_memOk (g d a b) (s : State) (h : MemOk s) : OutOk (execDivu g d a b s) := by
  unfold execDivu
  repeat' first | assumption | apply opRRR_memOk

theorem execRems_memOk (g d a b) (s : State) (h : MemOk s) : OutOk (execRems g d a b s) := by
  unfold execRems
  repeat' first | assumption | apply opRRR_memOk

theorem execRemu_memOk (g d a b) (s : State) (h : MemOk s) : OutOk (execRemu g d a b s) := by
  unfold execRemu
  repeat' first | assumption | apply opRRR_memOk

theorem execShadd1_memOk (g d a b) (s : State) (h : MemOk s) : OutOk (execShadd1 g d a b s) := by
  unfold execShadd1
  repeat' first | assumption | apply opRRR_memOk

theorem execShadd2_memOk (g d a b) (s : State) (h : MemOk s) : OutOk (execShadd2 g d a b s) := by
  unfold execShadd2
  repeat' first | assumption | apply opRRR_memOk

theorem execShadd3_memOk (g d a b) (s : State) (h : MemOk s) : OutOk (execShadd3 g d a b s) := by
  unfold execShadd3
  repeat' first | assumption | apply opRRR_memOk

theorem execShadd4_memOk (g d a b) (s : State) (h : MemOk s) : OutOk (execShadd4 g d a b s) := by
  unfold execShadd4
  repeat' first | assumption | apply opRRR_memOk

theorem execBext_memOk (g d a b) (s : State) (h : MemOk s) : OutOk (execBext g d a b s) := by
  unfold execBext
  repeat' first | assumption | apply opRRR_memOk

theorem execBins_memOk (g d a b) (s : State) (h : MemOk s) : OutOk (execBins g d a b s) := by
  unfold execBins
  repeat' first | assumption | apply opDRR_memOk

theorem execAddi_memOk (g d a i) (s : State) (h : MemOk s) : OutOk (execAddi g d a i s) := by
  unfold execAddi
  repeat' first | assumption | apply opRR_memOk

theorem execAndi_memOk (g d a i) (s : State) (h : MemOk s) : OutOk (execAndi g d a i s) := by
  unfold execAndi
  repeat' first | assumption | apply opRR_memOk

theorem execOri_memOk (g d a i) (s : State) (h : MemOk s) : OutOk (execOri g d a i s) := by
  unfold execOri
  repeat' first | assumption | apply opRR_memOk

theorem execXori_memOk (g d a i) (s : State) (h : MemOk s) : OutOk (execXori g d a i s) := by
  unfold execXori
  repeat' first | assumption | apply opRR_memOk

theorem execShli_memOk (g d a n) (s : State) (h : MemOk s) : OutOk (execShli g d a n s) := by
  unfold execShli
  repeat' first | assumption | apply opRR_memOk

theorem execShri_memOk (g d a n) (s : State) (h : MemOk s) : OutOk (execShri g d a n s) := by
  unfold execShri
  repeat' first | assumption | apply opRR_memOk

theorem execSrai_memOk (g d a n) (s : State) (h : MemOk s) : OutOk (execSrai g d a n s) := by
  unfold execSrai
  repeat' first | assumption | apply opRR_memOk

theorem execRotli_memOk (g d a n) (s : State) (h : MemOk s) : OutOk (execRotli g d a n s) := by
  unfold execRotli
  repeat' first | assumption | apply opRR_memOk

theorem execLi_memOk (g d i) (s : State) (h : MemOk s) : OutOk (execLi g d i s) := by
  unfold execLi
  repeat' first | assumption | apply issue_memOk | apply writeG_memOk | intro _

theorem execLis_memOk (g d i) (s : State) (h : MemOk s) : OutOk (execLis g d i s) := by
  unfold execLis
  repeat' first | assumption | apply issue_memOk | apply writeG_memOk | intro _

theorem execCmpReg_memOk (g p c a b) (s : State) (h : MemOk s) : OutOk (execCmpReg g p c a b s) := by
  unfold execCmpReg
  repeat' first | assumption | apply issue_memOk | apply writeP_memOk | intro _

theorem execCmpImm_memOk (g p c a i) (s : State) (h : MemOk s) : OutOk (execCmpImm g p c a i s) := by
  unfold execCmpImm
  repeat' first | assumption | apply issue_memOk | apply writeP_memOk | intro _

theorem execPlog_memOk (g p x y x4) (s : State) (h : MemOk s) : OutOk (execPlog g p x y x4 s) := by
  unfold execPlog
  repeat' first | assumption | apply issue_memOk | apply writeP_memOk | intro _

theorem execPget_memOk (g d) (s : State) (h : MemOk s) : OutOk (execPget g d s) := by
  unfold execPget
  repeat' first | assumption | apply issue_memOk | apply writeG_memOk | intro _

theorem execPset_memOk (g a) (s : State) (h : MemOk s) : OutOk (execPset g a s) := by
  unfold execPset
  repeat' first | assumption | apply issue_memOk | apply writePw_memOk | intro _

theorem execBr_memOk (g x1) (s : State) (h : MemOk s) : OutOk (execBr g x1 s) := by
  unfold execBr
  repeat' first | assumption | apply issue_memOk | apply setPc_memOk | intro _

theorem execJal_memOk (g d i) (s : State) (h : MemOk s) : OutOk (execJal g d i s) := by
  unfold execJal
  repeat' first
    | assumption | apply issue_memOk | apply setPc_memOk | apply writeG_memOk | intro _

theorem execJr_memOk (g d a i) (s : State) (h : MemOk s) : OutOk (execJr g d a i s) := by
  unfold execJr
  repeat' first
    | assumption | apply issue_memOk | apply takeFault_memOk | apply setPc_memOk | apply writeG_memOk | intro _
    | (extract_lets +onlyGivenNames z; clear_value z) | split

theorem vresult_memOk (s : State) (c slot d r) (h : MemOk s) : MemOk (vresult s c slot d r) := by
  unfold vresult
  repeat' first | assumption | apply State.modThread_memOk | apply raise_memOk

theorem opV2_memOk (i g d a b f) (s : State) (h : MemOk s) : OutOk (opV2 i g d a b f s) := by
  unfold opV2
  repeat' first | assumption | apply issue_memOk | apply State.modThread_memOk | intro _

theorem opV1_memOk (i g d a f) (s : State) (h : MemOk s) : OutOk (opV1 i g d a f s) := by
  unfold opV1
  repeat' first | assumption | apply issue_memOk | apply State.modThread_memOk | intro _

theorem execVadd_memOk (g d a b) (s : State) (h : MemOk s) : OutOk (execVadd g d a b s) := by
  unfold execVadd
  repeat' first | assumption | apply opV2_memOk

theorem execVsub_memOk (g d a b) (s : State) (h : MemOk s) : OutOk (execVsub g d a b s) := by
  unfold execVsub
  repeat' first | assumption | apply opV2_memOk

theorem execVmul_memOk (g d a b) (s : State) (h : MemOk s) : OutOk (execVmul g d a b s) := by
  unfold execVmul
  repeat' first | assumption | apply opV2_memOk

theorem execVmulhs_memOk (g d a b) (s : State) (h : MemOk s) : OutOk (execVmulhs g d a b s) := by
  unfold execVmulhs
  repeat' first | assumption | apply opV2_memOk

theorem execVmulhu_memOk (g d a b) (s : State) (h : MemOk s) : OutOk (execVmulhu g d a b s) := by
  unfold execVmulhu
  repeat' first | assumption | apply opV2_memOk

theorem execVand_memOk (g d a b) (s : State) (h : MemOk s) : OutOk (execVand g d a b s) := by
  unfold execVand
  repeat' first | assumption | apply opV2_memOk

theorem execVor_memOk (g d a b) (s : State) (h : MemOk s) : OutOk (execVor g d a b s) := by
  unfold execVor
  repeat' first | assumption | apply opV2_memOk

theorem execVxor_memOk (g d a b) (s : State) (h : MemOk s) : OutOk (execVxor g d a b s) := by
  unfold execVxor
  repeat' first | assumption | apply opV2_memOk

theorem execVandn_memOk (g d a b) (s : State) (h : MemOk s) : OutOk (execVandn g d a b s) := by
  unfold execVandn
  repeat' first | assumption | apply opV2_memOk

theorem execVshl_memOk (g d a b) (s : State) (h : MemOk s) : OutOk (execVshl g d a b s) := by
  unfold execVshl
  repeat' first | assumption | apply opV2_memOk

theorem execVshr_memOk (g d a b) (s : State) (h : MemOk s) : OutOk (execVshr g d a b s) := by
  unfold execVshr
  repeat' first | assumption | apply opV2_memOk

theorem execVsra_memOk (g d a b) (s : State) (h : MemOk s) : OutOk (execVsra g d a b s) := by
  unfold execVsra
  repeat' first | assumption | apply opV2_memOk

theorem execVmins_memOk (g d a b) (s : State) (h : MemOk s) : OutOk (execVmins g d a b s) := by
  unfold execVmins
  repeat' first | assumption | apply opV2_memOk

theorem execVmaxs_memOk (g d a b) (s : State) (h : MemOk s) : OutOk (execVmaxs g d a b s) := by
  unfold execVmaxs
  repeat' first | assumption | apply opV2_memOk

theorem execVminu_memOk (g d a b) (s : State) (h : MemOk s) : OutOk (execVminu g d a b s) := by
  unfold execVminu
  repeat' first | assumption | apply opV2_memOk

theorem execVmaxu_memOk (g d a b) (s : State) (h : MemOk s) : OutOk (execVmaxu g d a b s) := by
  unfold execVmaxu
  repeat' first | assumption | apply opV2_memOk

theorem execVabs_memOk (g d a) (s : State) (h : MemOk s) : OutOk (execVabs g d a s) := by
  unfold execVabs
  repeat' first | assumption | apply opV1_memOk

theorem execVpopc_memOk (g d a) (s : State) (h : MemOk s) : OutOk (execVpopc g d a s) := by
  unfold execVpopc
  repeat' first | assumption | apply opV1_memOk

theorem execVclz_memOk (g d a) (s : State) (h : MemOk s) : OutOk (execVclz g d a s) := by
  unfold execVclz
  repeat' first | assumption | apply opV1_memOk

theorem execVcmpeq_memOk (g d a b) (s : State) (h : MemOk s) : OutOk (execVcmpeq g d a b s) := by
  unfold execVcmpeq
  repeat' first | assumption | apply opV2_memOk

theorem execVcmplts_memOk (g d a b) (s : State) (h : MemOk s) : OutOk (execVcmplts g d a b s) := by
  unfold execVcmplts
  repeat' first | assumption | apply opV2_memOk

theorem execVcmpltu_memOk (g d a b) (s : State) (h : MemOk s) : OutOk (execVcmpltu g d a b s) := by
  unfold execVcmpltu
  repeat' first | assumption | apply opV2_memOk

theorem execVsel_memOk (g d a b) (s : State) (h : MemOk s) : OutOk (execVsel g d a b s) := by
  unfold execVsel
  repeat' first | assumption | apply issue_memOk | apply State.modThread_memOk | intro _

theorem execVshuf_memOk (g d a b) (s : State) (h : MemOk s) : OutOk (execVshuf g d a b s) := by
  unfold execVshuf
  repeat' first | assumption | apply issue_memOk | apply State.modThread_memOk | intro _

theorem opVf2_memOk (i g d a b f op) (s : State) (h : MemOk s) : OutOk (opVf2 i g d a b f op s) := by
  unfold opVf2
  repeat' first | assumption | apply issue_memOk | apply vresult_memOk | intro _

theorem opVf3_memOk (i g d a b f op) (s : State) (h : MemOk s) : OutOk (opVf3 i g d a b f op s) := by
  unfold opVf3
  repeat' first | assumption | apply issue_memOk | apply vresult_memOk | intro _

theorem opVsign_memOk (i g d a f op) (s : State) (h : MemOk s) : OutOk (opVsign i g d a f op s) := by
  unfold opVsign
  repeat' first | assumption | apply issue_memOk | apply vresult_memOk | intro _

theorem execVfadd_memOk (g d a b p) (s : State) (h : MemOk s) : OutOk (execVfadd g d a b p s) := by
  unfold execVfadd
  repeat' first | assumption | apply opVf2_memOk

theorem execVfsub_memOk (g d a b p) (s : State) (h : MemOk s) : OutOk (execVfsub g d a b p s) := by
  unfold execVfsub
  repeat' first | assumption | apply opVf2_memOk

theorem execVfmul_memOk (g d a b p) (s : State) (h : MemOk s) : OutOk (execVfmul g d a b p s) := by
  unfold execVfmul
  repeat' first | assumption | apply opVf2_memOk

theorem execVfma_memOk (g d a b p) (s : State) (h : MemOk s) : OutOk (execVfma g d a b p s) := by
  unfold execVfma
  repeat' first | assumption | apply opVf3_memOk

theorem execVfms_memOk (g d a b p) (s : State) (h : MemOk s) : OutOk (execVfms g d a b p s) := by
  unfold execVfms
  repeat' first | assumption | apply opVf3_memOk

theorem execVfmin_memOk (g d a b p) (s : State) (h : MemOk s) : OutOk (execVfmin g d a b p s) := by
  unfold execVfmin
  repeat' first | assumption | apply opVf2_memOk

theorem execVfmax_memOk (g d a b p) (s : State) (h : MemOk s) : OutOk (execVfmax g d a b p s) := by
  unfold execVfmax
  repeat' first | assumption | apply opVf2_memOk

theorem execVfabs_memOk (g d a p) (s : State) (h : MemOk s) : OutOk (execVfabs g d a p s) := by
  unfold execVfabs
  repeat' first | assumption | apply opVsign_memOk

theorem execVfneg_memOk (g d a p) (s : State) (h : MemOk s) : OutOk (execVfneg g d a p s) := by
  unfold execVfneg
  repeat' first | assumption | apply opVsign_memOk

theorem execVfcmpeq_memOk (g d a b p) (s : State) (h : MemOk s) : OutOk (execVfcmpeq g d a b p s) := by
  unfold execVfcmpeq
  repeat' first | assumption | apply opVf2_memOk

theorem execVfcmplt_memOk (g d a b p) (s : State) (h : MemOk s) : OutOk (execVfcmplt g d a b p s) := by
  unfold execVfcmplt
  repeat' first | assumption | apply opVf2_memOk

theorem execVfcmple_memOk (g d a b p) (s : State) (h : MemOk s) : OutOk (execVfcmple g d a b p s) := by
  unfold execVfcmple
  repeat' first | assumption | apply opVf2_memOk

theorem execVfcmpun_memOk (g d a b p) (s : State) (h : MemOk s) : OutOk (execVfcmpun g d a b p s) := by
  unfold execVfcmpun
  repeat' first | assumption | apply opVf2_memOk

theorem execVhaddH_memOk (g d a b) (s : State) (h : MemOk s) : OutOk (execVhaddH g d a b s) := by
  unfold execVhaddH
  repeat' first | assumption | apply opVf2_memOk

theorem execVhmulH_memOk (g d a b) (s : State) (h : MemOk s) : OutOk (execVhmulH g d a b s) := by
  unfold execVhmulH
  repeat' first | assumption | apply opVf2_memOk

theorem execVhfmaH_memOk (g d a b) (s : State) (h : MemOk s) : OutOk (execVhfmaH g d a b s) := by
  unfold execVhfmaH
  repeat' first | assumption | apply opVf3_memOk

theorem execVhaddB_memOk (g d a b) (s : State) (h : MemOk s) : OutOk (execVhaddB g d a b s) := by
  unfold execVhaddB
  repeat' first | assumption | apply opVf2_memOk

theorem execVhmulB_memOk (g d a b) (s : State) (h : MemOk s) : OutOk (execVhmulB g d a b s) := by
  unfold execVhmulB
  repeat' first | assumption | apply opVf2_memOk

theorem execVhfmaB_memOk (g d a b) (s : State) (h : MemOk s) : OutOk (execVhfmaB g d a b s) := by
  unfold execVhfmaB
  repeat' first | assumption | apply opVf3_memOk

theorem execVdot8_memOk (g d a b) (s : State) (h : MemOk s) : OutOk (execVdot8 g d a b s) := by
  unfold execVdot8
  repeat' first | assumption | apply opVf3_memOk

theorem execVdots8_memOk (g d a b) (s : State) (h : MemOk s) : OutOk (execVdots8 g d a b s) := by
  unfold execVdots8
  repeat' first | assumption | apply opVf3_memOk

theorem execVcvt_memOk (g d a c) (s : State) (h : MemOk s) : OutOk (execVcvt g d a c s) := by
  unfold execVcvt
  repeat' first
    | with_reducible assumption | with_reducible apply issue_memOk | with_reducible apply State.modThread_memOk
    | with_reducible apply vresult_memOk | intro _

theorem execVbcast_memOk (g x v) (s : State) (h : MemOk s) : OutOk (execVbcast g x v s) := by
  unfold execVbcast
  repeat' first | assumption | apply issue_memOk | apply State.modThread_memOk | intro _

theorem execVext_memOk (g x v w) (s : State) (h : MemOk s) : OutOk (execVext g x v w s) := by
  unfold execVext
  repeat' first | assumption | apply issue_memOk | apply writeG_memOk | intro _

theorem execVins_memOk (g x v w) (s : State) (h : MemOk s) : OutOk (execVins g x v w s) := by
  unfold execVins
  repeat' first | assumption | apply issue_memOk | apply State.modThread_memOk | intro _

theorem opRed_memOk (i g x v op wide) (s : State) (h : MemOk s) : OutOk (opRed i g x v op wide s) := by
  unfold opRed
  repeat' first
    | assumption | apply issue_memOk | apply writeG_memOk | apply raise_memOk | intro _

theorem execVredaddS_memOk (g x v) (s : State) (h : MemOk s) : OutOk (execVredaddS g x v s) := by
  unfold execVredaddS
  repeat' first | assumption | apply opRed_memOk

theorem execVredaddI_memOk (g x v) (s : State) (h : MemOk s) : OutOk (execVredaddI g x v s) := by
  unfold execVredaddI
  repeat' first | assumption | apply opRed_memOk

theorem execVredmaxS_memOk (g x v) (s : State) (h : MemOk s) : OutOk (execVredmaxS g x v s) := by
  unfold execVredmaxS
  repeat' first | assumption | apply opRed_memOk

theorem execVredminS_memOk (g x v) (s : State) (h : MemOk s) : OutOk (execVredminS g x v s) := by
  unfold execVredminS
  repeat' first | assumption | apply opRed_memOk

theorem execVmask_memOk (g x v) (s : State) (h : MemOk s) : OutOk (execVmask g x v s) := by
  unfold execVmask
  repeat' first | assumption | apply issue_memOk | apply writeG_memOk | intro _

theorem execVld_memOk (g d a b) (s : State) (h : MemOk s) : OutOk (execVld g d a b s) := by
  unfold execVld
  repeat' first | assumption | apply issue_memOk | apply startAccess_memOk | intro _

theorem execVst_memOk (g d a b) (s : State) (h : MemOk s) : OutOk (execVst g d a b s) := by
  unfold execVst
  repeat' first | assumption | apply issue_memOk | apply startAccess_memOk | intro _

theorem execVlds_memOk (g d a b) (s : State) (h : MemOk s) : OutOk (execVlds g d a b s) := by
  unfold execVlds
  repeat' first | assumption | apply issue_memOk | apply startAccess_memOk | intro _

theorem execVsts_memOk (g d a b) (s : State) (h : MemOk s) : OutOk (execVsts g d a b s) := by
  unfold execVsts
  repeat' first | assumption | apply issue_memOk | apply startAccess_memOk | intro _

theorem execVgath_memOk (g d a b) (s : State) (h : MemOk s) : OutOk (execVgath g d a b s) := by
  unfold execVgath
  repeat' first | assumption | apply issue_memOk | apply startAccess_memOk | intro _

theorem execVscat_memOk (g d a b) (s : State) (h : MemOk s) : OutOk (execVscat g d a b s) := by
  unfold execVscat
  repeat' first | assumption | apply issue_memOk | apply startAccess_memOk | intro _

theorem execVldb_memOk (g d a b) (s : State) (h : MemOk s) : OutOk (execVldb g d a b s) := by
  unfold execVldb
  repeat' first | assumption | apply issue_memOk | apply startAccess_memOk | intro _

theorem execVldR_memOk (g d a b) (s : State) (h : MemOk s) : OutOk (execVldR g d a b s) := by
  unfold execVldR
  repeat' first
    | assumption | apply issue_memOk | apply startRelaxed_memOk | apply startAccess_memOk | intro _
    | (extract_lets +onlyGivenNames z; clear_value z) | split

theorem sfuJoin_memOk (s : State) (c slot r) (h : MemOk s) : MemOk (sfuJoin s c slot r) := by
  unfold sfuJoin
  repeat' first
    | with_reducible assumption | with_reducible refine memOk_core ?_ _ | with_reducible apply State.post_memOk
    | with_reducible apply State.modCore_memOk | with_reducible apply beginWait_memOk | intro _
    | (extract_lets +onlyGivenNames z; with_reducible refine wf_seq (k := z) ?_ ?_; subst z; rotate_left; clear_value z)
    | split

theorem opSfu_memOk (i g d a b) (s : State) (h : MemOk s) : OutOk (opSfu i g d a b s) := by
  unfold opSfu
  repeat' first | assumption | apply issue_memOk | apply sfuJoin_memOk | intro _

theorem execVfdiv_memOk (g d a b p) (s : State) (h : MemOk s) : OutOk (execVfdiv g d a b p s) := by
  unfold execVfdiv
  repeat' first | assumption | apply opSfu_memOk

theorem execVfsqrt_memOk (g d a p) (s : State) (h : MemOk s) : OutOk (execVfsqrt g d a p s) := by
  unfold execVfsqrt
  repeat' first | assumption | apply opSfu_memOk

theorem execVrcp_memOk (g d a) (s : State) (h : MemOk s) : OutOk (execVrcp g d a s) := by
  unfold execVrcp
  repeat' first | assumption | apply opSfu_memOk

theorem execVrsq_memOk (g d a) (s : State) (h : MemOk s) : OutOk (execVrsq g d a s) := by
  unfold execVrsq
  repeat' first | assumption | apply opSfu_memOk

theorem execVexp2_memOk (g d a) (s : State) (h : MemOk s) : OutOk (execVexp2 g d a s) := by
  unfold execVexp2
  repeat' first | assumption | apply opSfu_memOk

theorem execVlog2_memOk (g d a) (s : State) (h : MemOk s) : OutOk (execVlog2 g d a s) := by
  unfold execVlog2
  repeat' first | assumption | apply opSfu_memOk

theorem execVsin_memOk (g d a) (s : State) (h : MemOk s) : OutOk (execVsin g d a s) := by
  unfold execVsin
  repeat' first | assumption | apply opSfu_memOk

theorem execVcos_memOk (g d a) (s : State) (h : MemOk s) : OutOk (execVcos g d a s) := by
  unfold execVcos
  repeat' first | assumption | apply opSfu_memOk

theorem execVtanh_memOk (g d a) (s : State) (h : MemOk s) : OutOk (execVtanh g d a s) := by
  unfold execVtanh
  repeat' first | assumption | apply opSfu_memOk

theorem execVsigm_memOk (g d a) (s : State) (h : MemOk s) : OutOk (execVsigm g d a s) := by
  unfold execVsigm
  repeat' first | assumption | apply opSfu_memOk

theorem execSfuQueueAdmit_memOk (core) (s : State) (h : MemOk s) : OutOk (execSfuQueueAdmit core s) := by
  unfold execSfuQueueAdmit
  repeat' first
    | assumption | refine memOk_core ?_ _ | apply State.setCore_memOk | apply State.post_memOk
    | apply State.modCore_memOk | apply State.setThread_memOk | apply OutOk.next | intro _
    | (extract_lets +onlyGivenNames z; with_reducible refine memOk_seq (s := z) ?_ ?_; subst z; rotate_left; clear_value z)
    | (extract_lets +onlyGivenNames z; with_reducible refine wf_seq (k := z) ?_ ?_; subst z; rotate_left; clear_value z)
    | split

theorem execSfuRequestComplete_memOk (core) (s : State) (h : MemOk s) : OutOk (execSfuRequestComplete core s) := by
  unfold execSfuRequestComplete
  repeat' first
    | with_reducible assumption | with_reducible refine memOk_core ?_ _ | with_reducible apply State.setCore_memOk
    | with_reducible apply State.post_memOk | with_reducible apply finishWait_memOk
    | with_reducible apply vresult_memOk | with_reducible apply OutOk.next | intro _
    | (extract_lets +onlyGivenNames z; with_reducible refine memOk_seq (s := z) ?_ ?_; subst z; rotate_left; clear_value z)
    | (extract_lets +onlyGivenNames z; with_reducible refine wf_seq (k := z) ?_ ?_; subst z; rotate_left; clear_value z)
    | split

theorem exec_memOk (i : Instr) (s : State) (h : MemOk s) : OutOk (exec i s) :=
  match i with
  | .add g d a b => execAdd_memOk g d a b s h
  | .sub g d a b => execSub_memOk g d a b s h
  | .and g d a b => execAnd_memOk g d a b s h
  | .or g d a b => execOr_memOk g d a b s h
  | .xor g d a b => execXor_memOk g d a b s h
  | .andn g d a b => execAndn_memOk g d a b s h
  | .shl g d a b => execShl_memOk g d a b s h
  | .shr g d a b => execShr_memOk g d a b s h
  | .sra g d a b => execSra_memOk g d a b s h
  | .rotl g d a b => execRotl_memOk g d a b s h
  | .mins g d a b => execMins_memOk g d a b s h
  | .maxs g d a b => execMaxs_memOk g d a b s h
  | .minu g d a b => execMinu_memOk g d a b s h
  | .maxu g d a b => execMaxu_memOk g d a b s h
  | .clz g d a => execClz_memOk g d a s h
  | .ctz g d a => execCtz_memOk g d a s h
  | .popc g d a => execPopc_memOk g d a s h
  | .brev g d a => execBrev_memOk g d a s h
  | .bswap g d a => execBswap_memOk g d a s h
  | .mul g d a b => execMul_memOk g d a b s h
  | .mulhs g d a b => execMulhs_memOk g d a b s h
  | .mulhu g d a b => execMulhu_memOk g d a b s h
  | .mulhsu g d a b => execMulhsu_memOk g d a b s h
  | .divs g d a b => execDivs_memOk g d a b s h
  | .divu g d a b => execDivu_memOk g d a b s h
  | .rems g d a b => execRems_memOk g d a b s h
  | .remu g d a b => execRemu_memOk g d a b s h
  | .shadd1 g d a b => execShadd1_memOk g d a b s h
  | .shadd2 g d a b => execShadd2_memOk g d a b s h
  | .shadd3 g d a b => execShadd3_memOk g d a b s h
  | .shadd4 g d a b => execShadd4_memOk g d a b s h
  | .bext g d a b => execBext_memOk g d a b s h
  | .bins g d a b => execBins_memOk g d a b s h
  | .addi g d a i_ => execAddi_memOk g d a i_ s h
  | .andi g d a i_ => execAndi_memOk g d a i_ s h
  | .ori g d a i_ => execOri_memOk g d a i_ s h
  | .xori g d a i_ => execXori_memOk g d a i_ s h
  | .shli g d a n => execShli_memOk g d a n s h
  | .shri g d a n => execShri_memOk g d a n s h
  | .srai g d a n => execSrai_memOk g d a n s h
  | .rotli g d a n => execRotli_memOk g d a n s h
  | .li g d i_ => execLi_memOk g d i_ s h
  | .lis g d i_ => execLis_memOk g d i_ s h
  | .cmpReg g p c a b => execCmpReg_memOk g p c a b s h
  | .cmpImm g p c a i_ => execCmpImm_memOk g p c a i_ s h
  | .plog g p x y o => execPlog_memOk g p x y o s h
  | .pget g d => execPget_memOk g d s h
  | .pset g a => execPset_memOk g a s h
  | .br g o => execBr_memOk g o s h
  | .jal g d i_ => execJal_memOk g d i_ s h
  | .jr g d a i_ => execJr_memOk g d a i_ s h
  | .ldbn g d a o r => execLdbn_memOk g d a o r s h
  | .ldhn g d a o r => execLdhn_memOk g d a o r s h
  | .ldwn g d a o r => execLdwn_memOk g d a o r s h
  | .ldd g d a o r => execLdd_memOk g d a o r s h
  | .ldbs g d a o r => execLdbs_memOk g d a o r s h
  | .ldhs g d a o r => execLdhs_memOk g d a o r s h
  | .ldws g d a o r => execLdws_memOk g d a o r s h
  | .stb g d a o r => execStb_memOk g d a o r s h
  | .sth g d a o r => execSth_memOk g d a o r s h
  | .stw g d a o r => execStw_memOk g d a o r s h
  | .std g d a o r => execStd_memOk g d a o r s h
  | .ldq g d a => execLdq_memOk g d a s h
  | .stq g d a => execStq_memOk g d a s h
  | .ldfe g d a b => execLdfe_memOk g d a b s h
  | .stfe g d a b => execStfe_memOk g d a b s h
  | .aadd g d a b => execAadd_memOk g d a b s h
  | .aand g d a b => execAand_memOk g d a b s h
  | .aor g d a b => execAor_memOk g d a b s h
  | .axor g d a b => execAxor_memOk g d a b s h
  | .amins g d a b => execAmins_memOk g d a b s h
  | .amaxs g d a b => execAmaxs_memOk g d a b s h
  | .aminu g d a b => execAminu_memOk g d a b s h
  | .amaxu g d a b => execAmaxu_memOk g d a b s h
  | .aswap g d a b => execAswap_memOk g d a b s h
  | .acas g d a b => execAcas_memOk g d a b s h
  | .acasq g d a b => execAcasq_memOk g d a b s h
  | .afadd g d a b => execAfadd_memOk g d a b s h
  | .fence g w e r s_ => execFence_memOk g w e r s_ s h
  | .watch g d a => execWatch_memOk g d a s h
  | .unwatch g d a => execUnwatch_memOk g d a s h
  | .sleep g d => execSleep_memOk g d s h
  | .waitge g d a b => execWaitge_memOk g d a b s h
  | .wbr g d a b => execWbr_memOk g d a b s h
  | .invr g d a b => execInvr_memOk g d a b s h
  | .wbinvr g d a b => execWbinvr_memOk g d a b s h
  | .prefr g a b => execPrefr_memOk g a b s h
  | .faddD g d a b => execFaddD_memOk g d a b s h
  | .fsubD g d a b => execFsubD_memOk g d a b s h
  | .fmulD g d a b => execFmulD_memOk g d a b s h
  | .fminD g d a b => execFminD_memOk g d a b s h
  | .fmaxD g d a b => execFmaxD_memOk g d a b s h
  | .fdivD g d a b => execFdivD_memOk g d a b s h
  | .fsqrtD g d a => execFsqrtD_memOk g d a s h
  | .fcvt g d a c => execFcvt_memOk g d a c s h
  | .faddS g d a b => execFaddS_memOk g d a b s h
  | .fsubS g d a b => execFsubS_memOk g d a b s h
  | .fmulS g d a b => execFmulS_memOk g d a b s h
  | .fminS g d a b => execFminS_memOk g d a b s h
  | .fmaxS g d a b => execFmaxS_memOk g d a b s h
  | .fdivS g d a b => execFdivS_memOk g d a b s h
  | .fsqrtS g d a => execFsqrtS_memOk g d a s h
  | .fclass g d a => execFclass_memOk g d a s h
  | .fmaD g d a b => execFmaD_memOk g d a b s h
  | .fmaS g d a b => execFmaS_memOk g d a b s h
  | .fmsD g d a b => execFmsD_memOk g d a b s h
  | .fmsS g d a b => execFmsS_memOk g d a b s h
  | .fcmp g p c a b => execFcmp_memOk g p c a b s h
  | .spawn g d a b => execSpawn_memOk g d a b s h
  | .quit g => execQuit_memOk g s h
  | .migr g a => execMigr_memOk g a s h
  | .send g d a b => execSend_memOk g d a b s h
  | .fork g d a b => execFork_memOk g d a b s h
  | .join g a => execJoin_memOk g a s h
  | .wqry g d a => execWqry_memOk g d a s h
  | .launch g d a => execLaunch_memOk g d a s h
  | .bar g d a => execBar_memOk g d a s h
  | .bard g d a => execBard_memOk g d a s h
  | .breg g d a => execBreg_memOk g d a s h
  | .chkpt g d => execChkpt_memOk g d s h
  | .tstop g d a => execTstop_memOk g d a s h
  | .tstart g d a => execTstart_memOk g d a s h
  | .tread g d a b => execTread_memOk g d a b s h
  | .twrite g d a b => execTwrite_memOk g d a b s h
  | .gets g d s_ => execGets_memOk g d s_ s h
  | .sets g a s_ => execSets_memOk g a s_ s h
  | .invpg g d a b => execInvpg_memOk g d a b s h
  | .selft g d a b => execSelft_memOk g d a b s h
  | .brk g i_ => execBrk_memOk g i_ s h
  | .vadd g d a b => execVadd_memOk g d a b s h
  | .vsub g d a b => execVsub_memOk g d a b s h
  | .vmul g d a b => execVmul_memOk g d a b s h
  | .vmulhs g d a b => execVmulhs_memOk g d a b s h
  | .vmulhu g d a b => execVmulhu_memOk g d a b s h
  | .vand g d a b => execVand_memOk g d a b s h
  | .vor g d a b => execVor_memOk g d a b s h
  | .vxor g d a b => execVxor_memOk g d a b s h
  | .vandn g d a b => execVandn_memOk g d a b s h
  | .vshl g d a b => execVshl_memOk g d a b s h
  | .vshr g d a b => execVshr_memOk g d a b s h
  | .vsra g d a b => execVsra_memOk g d a b s h
  | .vmins g d a b => execVmins_memOk g d a b s h
  | .vmaxs g d a b => execVmaxs_memOk g d a b s h
  | .vminu g d a b => execVminu_memOk g d a b s h
  | .vmaxu g d a b => execVmaxu_memOk g d a b s h
  | .vabs g d a => execVabs_memOk g d a s h
  | .vpopc g d a => execVpopc_memOk g d a s h
  | .vclz g d a => execVclz_memOk g d a s h
  | .vcmpeq g d a b => execVcmpeq_memOk g d a b s h
  | .vcmplts g d a b => execVcmplts_memOk g d a b s h
  | .vcmpltu g d a b => execVcmpltu_memOk g d a b s h
  | .vsel g d a b => execVsel_memOk g d a b s h
  | .vshuf g d a b => execVshuf_memOk g d a b s h
  | .vfadd g d a b p => execVfadd_memOk g d a b p s h
  | .vfsub g d a b p => execVfsub_memOk g d a b p s h
  | .vfmul g d a b p => execVfmul_memOk g d a b p s h
  | .vfma g d a b p => execVfma_memOk g d a b p s h
  | .vfms g d a b p => execVfms_memOk g d a b p s h
  | .vfmin g d a b p => execVfmin_memOk g d a b p s h
  | .vfmax g d a b p => execVfmax_memOk g d a b p s h
  | .vfabs g d a p => execVfabs_memOk g d a p s h
  | .vfneg g d a p => execVfneg_memOk g d a p s h
  | .vfdiv g d a b p => execVfdiv_memOk g d a b p s h
  | .vfsqrt g d a p => execVfsqrt_memOk g d a p s h
  | .vfcmpeq g d a b p => execVfcmpeq_memOk g d a b p s h
  | .vfcmplt g d a b p => execVfcmplt_memOk g d a b p s h
  | .vfcmple g d a b p => execVfcmple_memOk g d a b p s h
  | .vfcmpun g d a b p => execVfcmpun_memOk g d a b p s h
  | .vhaddH g d a b => execVhaddH_memOk g d a b s h
  | .vhmulH g d a b => execVhmulH_memOk g d a b s h
  | .vhfmaH g d a b => execVhfmaH_memOk g d a b s h
  | .vhaddB g d a b => execVhaddB_memOk g d a b s h
  | .vhmulB g d a b => execVhmulB_memOk g d a b s h
  | .vhfmaB g d a b => execVhfmaB_memOk g d a b s h
  | .vdot8 g d a b => execVdot8_memOk g d a b s h
  | .vdots8 g d a b => execVdots8_memOk g d a b s h
  | .vcvt g d a c => execVcvt_memOk g d a c s h
  | .vld g d a b => execVld_memOk g d a b s h
  | .vst g d a b => execVst_memOk g d a b s h
  | .vlds g d a b => execVlds_memOk g d a b s h
  | .vsts g d a b => execVsts_memOk g d a b s h
  | .vgath g d a b => execVgath_memOk g d a b s h
  | .vscat g d a b => execVscat_memOk g d a b s h
  | .vldb g d a b => execVldb_memOk g d a b s h
  | .vldR g d a b => execVldR_memOk g d a b s h
  | .vbcast g x v => execVbcast_memOk g x v s h
  | .vext g x v w => execVext_memOk g x v w s h
  | .vins g x v w => execVins_memOk g x v w s h
  | .vredaddS g x v => execVredaddS_memOk g x v s h
  | .vredaddI g x v => execVredaddI_memOk g x v s h
  | .vredmaxS g x v => execVredmaxS_memOk g x v s h
  | .vredminS g x v => execVredminS_memOk g x v s h
  | .vmask g x v => execVmask_memOk g x v s h
  | .vrcp g d a => execVrcp_memOk g d a s h
  | .vrsq g d a => execVrsq_memOk g d a s h
  | .vexp2 g d a => execVexp2_memOk g d a s h
  | .vlog2 g d a => execVlog2_memOk g d a s h
  | .vsin g d a => execVsin_memOk g d a s h
  | .vcos g d a => execVcos_memOk g d a s h
  | .vtanh g d a => execVtanh_memOk g d a s h
  | .vsigm g d a => execVsigm_memOk g d a s h
  | .b2z g z a b => execB2z_memOk g z a b s h
  | .z2b g z a => execZ2b_memOk g z a s h
  | .zcls g z a b => execZcls_memOk g z a b s h
  | .zrgn g z s_ b => execZrgn_memOk g z s_ b s h
  | .zclr g z => execZclr_memOk g z s h
  | .zand g d a b => execZand_memOk g d a b s h
  | .zor g d a b => execZor_memOk g d a b s h
  | .zxnor g d a b => execZxnor_memOk g d a b s h
  | .znot g d a => execZnot_memOk g d a s h
  | .zmux g d a b s_ => execZmux_memOk g d a b s_ s h
  | .cwst g d a => execCwst_memOk g d a s h
  | .cwadd g d a b => execCwadd_memOk g d a b s h
  | .cwcas g d a b => execCwcas_memOk g d a b s h
  | .cwfence g d a => execCwfence_memOk g d a s h
  | .mma g cpl x => execMma_memOk g cpl x s h
  | .copy g cpl x => execCopy_memOk g cpl x s h
  | .gath g cpl x => execGath_memOk g cpl x s h
  | .coll g cpl x => execColl_memOk g cpl x s h
  | .fill g cpl x => execFill_memOk g cpl x s h
  | .enc8 g cpl x => execEnc8_memOk g cpl x s h
  | .rotationFill core => execRotationFill_memOk core s h
  | .registerFillAdmit core => execRegisterFillAdmit_memOk core s h
  | .registerFillComplete core slot => execRegisterFillComplete_memOk core slot s h
  | .relaxedLoadDeliver core slot id => execRelaxedLoadDeliver_memOk core slot id s h
  | .relaxedStorePerform core slot id => execRelaxedStorePerform_memOk core slot id s h
  | .accessComplete core slot => execAccessComplete_memOk core slot s h
  | .sfuQueueAdmit core => execSfuQueueAdmit_memOk core s h
  | .sfuRequestComplete core => execSfuRequestComplete_memOk core s h
  | .ssuComplete core slot => execSsuComplete_memOk core slot s h
  | .contextGrant core => execContextGrant_memOk core s h
  | .threadFill core => execThreadFill_memOk core s h
  | .threadFillComplete core slot => execThreadFillComplete_memOk core slot s h
  | .wlimExpiry core slot => execWlimExpiry_memOk core slot s h
  | .waitgeRecheck core slot => execWaitgeRecheck_memOk core slot s h
  | .feWaiterRelease core word => execFeWaiterRelease_memOk core word s h
  | .watchEntryGrant core slot => execWatchEntryGrant_memOk core slot s h
  | .watchRecorded core slot => execWatchRecorded_memOk core slot s h
  | .guestAccess core => execGuestAccess_memOk core s h
  | .postedStoreAccept core slot => execPostedStoreAccept_memOk core slot s h
  | .threadPacketArrive id => execThreadPacketArrive_memOk id s h
  | .visitorSlotGrant core => execVisitorSlotGrant_memOk core s h
  | .threadStateAct core slot => execThreadStateAct_memOk core slot s h
  | .invpgComplete core slot => execInvpgComplete_memOk core slot s h
  | .selftComplete core slot failed rows ways bank => execSelftComplete_memOk core slot failed rows ways bank s h
  | .barrierRecordGrant core => execBarrierRecordGrant_memOk core s h
  | .barrierJoin id => execBarrierJoin_memOk id s h
  | .barrierDrop id => execBarrierDrop_memOk id s h
  | .barrierArrive id => execBarrierArrive_memOk id s h
  | .engineAccept id => execEngineAccept_memOk id s h
  | .mmaStep id => execMmaStep_memOk id s h
  | .gathScatterRow id => execGathScatterRow_memOk id s h
  | .engineComplete id => execEngineComplete_memOk id s h
  | .collInstanceComplete id => execCollInstanceComplete_memOk id s h
  | .rd line agent => execRd_memOk line agent s h
  | .rdx line agent => execRdx_memOk line agent s h
  | .upg line agent => execUpg_memOk line agent s h
  | .wb line agent => execWb_memOk line agent s h
  | .wbk line agent => execWbk_memOk line agent s h
  | .put line agent => execPut_memOk line agent s h
  | .amo line agent => execAmo_memOk line agent s h
  | .own line id => execOwn_memOk line id s h
  | .ew line id => execEw_memOk line id s h
  | .rel line id => execRel_memOk line id s h
  | .inv line agent => execInv_memOk line agent s h
  | .rcl line agent => execRcl_memOk line agent s h
  | .dwg line agent => execDwg_memOk line agent s h
  | .recallAnswer line agent => execRecallAnswer_memOk line agent s h
  | .ack line agent => execAck_memOk line agent s h
  | .nack line agent => execNack_memOk line agent s h
  | .pin line agent => execPin_memOk line agent s h
  | .pinDrop line agent => execPinDrop_memOk line agent s h
  | .leaseRenewal die agent => execLeaseRenewal_memOk die agent s h
  | .leaseExpiry die agent => execLeaseExpiry_memOk die agent s h
  | .leaseSelfLimit die agent => execLeaseSelfLimit_memOk die agent s h
  | .leaseRejoin die agent => execLeaseRejoin_memOk die agent s h
  | .copyTermExpiry agent line => execCopyTermExpiry_memOk agent line s h
  | .walkComplete id => execWalkComplete_memOk id s h
  | .waystationInvalidate ws id => execWaystationInvalidate_memOk ws id s h
  | .cwJoin port => execCwJoin_memOk port s h
  | .cwLeave port => execCwLeave_memOk port s h
  | .cwQueueAdmit port => execCwQueueAdmit_memOk port s h
  | .rotationOpen port view => execRotationOpen_memOk port view s h
  | .burstSend port => execBurstSend_memOk port s h
  | .frameData port frame => execFrameData_memOk port frame s h
  | .frameReplay port frame => execFrameReplay_memOk port frame s h
  | .frameSnapshot port frame part => execFrameSnapshot_memOk port frame part s h
  | .frameControl port index cwid slots => execFrameControl_memOk port index cwid slots s h
  | .missingFrame port rotation member fidx => execMissingFrame_memOk port rotation member fidx s h
  | .holeTimeout port => execHoleTimeout_memOk port s h
  | .masterLoss port => execMasterLoss_memOk port s h
  | .recoveryTimeout port => execRecoveryTimeout_memOk port s h
  | .joinListenEnd port heard => execJoinListenEnd_memOk port heard s h
  | .founderWaitEnd port heard => execFounderWaitEnd_memOk port heard s h
  | .joinGrantTimeout port => execJoinGrantTimeout_memOk port s h
  | .launchPortHeader part addr => execLaunchPortHeader_memOk part addr s h
  | .launchPortGraph part addr => execLaunchPortGraph_memOk part addr s h
  | .launchAccept id => execLaunchAccept_memOk id s h
  | .launchRecordGrant part => execLaunchRecordGrant_memOk part s h
  | .dependenceReady lid => execDependenceReady_memOk lid s h
  | .dependenceCancel lid => execDependenceCancel_memOk lid s h
  | .placementDecision part => execPlacementDecision_memOk part s h
  | .quantumExpiry lid => execQuantumExpiry_memOk lid s h
  | .groupSave gid => execGroupSave_memOk gid s h
  | .wqryServe part => execWqryServe_memOk part s h
  | .wqryAnswerDeliver id => execWqryAnswerDeliver_memOk id s h
  | .launchCompletion lid => execLaunchCompletion_memOk lid s h
  | .create part => execCreate_memOk part s h
  | .reset part => execReset_memOk part s h
  | .teardown part => execTeardown_memOk part s h
  | .pmsWrite core slot => execPmsWrite_memOk core slot s h
  | .histogramConfig part unit value => execHistogramConfig_memOk part unit value s h
  | .histogramClear part unit => execHistogramClear_memOk part unit s h
  | .histogramSample part unit sample => execHistogramSample_memOk part unit sample s h
  | .registerWrite part word value => execRegisterWrite_memOk part word value s h
  | .postedWriteArrive id => execPostedWriteArrive_memOk id s h
  | .remoteRead id => execRemoteRead_memOk id s h
  | .remoteReadResponse id data => execRemoteReadResponse_memOk id data s h
  | .remoteAtomic id => execRemoteAtomic_memOk id s h
  | .remoteAtomicResponse id old => execRemoteAtomicResponse_memOk id old s h
  | .hostBarAccess fn addr size write => execHostBarAccess_memOk fn addr size write s h
  | .hostAtomicop fn offset op => execHostAtomicop_memOk fn offset op s h
  | .cxlMemAccess addr size write => execCxlMemAccess_memOk addr size write s h
  | .hostSnoop line write => execHostSnoop_memOk line write s h
  | .linkDown link => execLinkDown_memOk link s h
  | .flitCrcError link => execFlitCrcError_memOk link s h
  | .fatalError unit poisoned => execFatalError_memOk unit poisoned s h
  | .checkpointCommit core => execCheckpointCommit_memOk core s h
  | .lockstepMismatch core => execLockstepMismatch_memOk core s h
  | .boot image0 image1 => execBoot_memOk image0 image1 s h
  | .thermalThrottle die => execThermalThrottle_memOk die s h
  | .thermalShutdown die => execThermalShutdown_memOk die s h
  | .mcBankRead bank word => execMcBankRead_memOk bank word s h
  | .bankClear bank => execBankClear_memOk bank s h
  | .telemetryRead word => execTelemetryRead_memOk word s h
  | .powerLimitSet milliwatts => execPowerLimitSet_memOk milliwatts s h
  | .pcbWordAccess part word write => execPcbWordAccess_memOk part word write s h
  | .attestation nonce => execAttestation_memOk nonce s h
  | .fenceListRead => execFenceListRead_memOk s h
  | .versionRaise => execVersionRaise_memOk s h
  | .mgmtUnknownCode code => execMgmtUnknownCode_memOk code s h
  | .layByScrubComplete part => execLayByScrubComplete_memOk part s h
  | .hostLinkUp link => execHostLinkUp_memOk link s h
  | .thermalRecovery die => execThermalRecovery_memOk die s h

theorem perform_memOk (e) (s : State) (h : MemOk s) : OutOk (perform e s) := by
  unfold perform
  repeat' first
    | with_reducible assumption | with_reducible apply execRotationFill_memOk
    | with_reducible apply execRegisterFillAdmit_memOk | with_reducible apply execRegisterFillComplete_memOk
    | with_reducible apply execRelaxedLoadDeliver_memOk | with_reducible apply execRelaxedStorePerform_memOk
    | with_reducible apply execAccessComplete_memOk | with_reducible apply execSfuQueueAdmit_memOk
    | with_reducible apply execSfuRequestComplete_memOk | with_reducible apply execSsuComplete_memOk
    | with_reducible apply execContextGrant_memOk | with_reducible apply execThreadFill_memOk
    | with_reducible apply execThreadFillComplete_memOk | with_reducible apply execWlimExpiry_memOk
    | with_reducible apply execWaitgeRecheck_memOk | with_reducible apply execFeWaiterRelease_memOk
    | with_reducible apply execWatchEntryGrant_memOk | with_reducible apply execWatchRecorded_memOk
    | with_reducible apply execGuestAccess_memOk | with_reducible apply execPostedStoreAccept_memOk
    | with_reducible apply execThreadPacketArrive_memOk | with_reducible apply execVisitorSlotGrant_memOk
    | with_reducible apply execThreadStateAct_memOk | with_reducible apply execInvpgComplete_memOk
    | with_reducible apply execSelftComplete_memOk | with_reducible apply execBarrierRecordGrant_memOk
    | with_reducible apply execBarrierJoin_memOk | with_reducible apply execBarrierDrop_memOk
    | with_reducible apply execBarrierArrive_memOk | with_reducible apply execEngineAccept_memOk
    | with_reducible apply execMmaStep_memOk | with_reducible apply execGathScatterRow_memOk
    | with_reducible apply execEngineComplete_memOk | with_reducible apply execCollInstanceComplete_memOk
    | with_reducible apply execRd_memOk | with_reducible apply execRdx_memOk | with_reducible apply execUpg_memOk
    | with_reducible apply execWb_memOk | with_reducible apply execWbk_memOk | with_reducible apply execPut_memOk
    | with_reducible apply execAmo_memOk | with_reducible apply execOwn_memOk | with_reducible apply execEw_memOk
    | with_reducible apply execRel_memOk | with_reducible apply execInv_memOk | with_reducible apply execRcl_memOk
    | with_reducible apply execDwg_memOk | with_reducible apply execRecallAnswer_memOk
    | with_reducible apply execAck_memOk | with_reducible apply execNack_memOk | with_reducible apply execPin_memOk
    | with_reducible apply execPinDrop_memOk | with_reducible apply execLeaseRenewal_memOk
    | with_reducible apply execLeaseExpiry_memOk | with_reducible apply execLeaseSelfLimit_memOk
    | with_reducible apply execLeaseRejoin_memOk | with_reducible apply execCopyTermExpiry_memOk
    | with_reducible apply execWalkComplete_memOk | with_reducible apply execWaystationInvalidate_memOk
    | with_reducible apply execCwJoin_memOk | with_reducible apply execCwLeave_memOk
    | with_reducible apply execCwQueueAdmit_memOk | with_reducible apply execRotationOpen_memOk
    | with_reducible apply execBurstSend_memOk | with_reducible apply execFrameData_memOk
    | with_reducible apply execFrameReplay_memOk | with_reducible apply execFrameSnapshot_memOk
    | with_reducible apply execFrameControl_memOk | with_reducible apply execMissingFrame_memOk
    | with_reducible apply execHoleTimeout_memOk | with_reducible apply execMasterLoss_memOk
    | with_reducible apply execRecoveryTimeout_memOk | with_reducible apply execJoinListenEnd_memOk
    | with_reducible apply execFounderWaitEnd_memOk | with_reducible apply execJoinGrantTimeout_memOk
    | with_reducible apply execLaunchPortHeader_memOk | with_reducible apply execLaunchPortGraph_memOk
    | with_reducible apply execLaunchAccept_memOk | with_reducible apply execLaunchRecordGrant_memOk
    | with_reducible apply execDependenceReady_memOk | with_reducible apply execDependenceCancel_memOk
    | with_reducible apply execPlacementDecision_memOk | with_reducible apply execQuantumExpiry_memOk
    | with_reducible apply execGroupSave_memOk | with_reducible apply execWqryServe_memOk
    | with_reducible apply execWqryAnswerDeliver_memOk | with_reducible apply execLaunchCompletion_memOk
    | with_reducible apply execCreate_memOk | with_reducible apply execReset_memOk
    | with_reducible apply execTeardown_memOk | with_reducible apply execPmsWrite_memOk
    | with_reducible apply execHistogramConfig_memOk | with_reducible apply execHistogramClear_memOk
    | with_reducible apply execHistogramSample_memOk | with_reducible apply execRegisterWrite_memOk
    | with_reducible apply execPostedWriteArrive_memOk | with_reducible apply execRemoteRead_memOk
    | with_reducible apply execRemoteReadResponse_memOk | with_reducible apply execRemoteAtomic_memOk
    | with_reducible apply execRemoteAtomicResponse_memOk | with_reducible apply execHostBarAccess_memOk
    | with_reducible apply execHostAtomicop_memOk | with_reducible apply execCxlMemAccess_memOk
    | with_reducible apply execHostSnoop_memOk | with_reducible apply execLinkDown_memOk
    | with_reducible apply execFlitCrcError_memOk | with_reducible apply execFatalError_memOk
    | with_reducible apply execCheckpointCommit_memOk | with_reducible apply execLockstepMismatch_memOk
    | with_reducible apply execBoot_memOk | with_reducible apply execThermalThrottle_memOk
    | with_reducible apply execThermalShutdown_memOk | with_reducible apply execMcBankRead_memOk
    | with_reducible apply execBankClear_memOk | with_reducible apply execTelemetryRead_memOk
    | with_reducible apply execPowerLimitSet_memOk | with_reducible apply execPcbWordAccess_memOk
    | with_reducible apply execAttestation_memOk | with_reducible apply execFenceListRead_memOk
    | with_reducible apply execVersionRaise_memOk | with_reducible apply execMgmtUnknownCode_memOk
    | with_reducible apply execLayByScrubComplete_memOk | with_reducible apply execHostLinkUp_memOk
    | with_reducible apply execThermalRecovery_memOk | split

theorem launchTick_memOk (s : State) (h : MemOk s) : MemOk (launchTick s) := by
  unfold launchTick
  repeat' first | assumption | apply postAll_memOk | apply memOk_with

theorem tick_memOk (s : State) (c) (h : MemOk s) : MemOk (tick s c) := by
  unfold tick
  repeat' first
    | with_reducible assumption | with_reducible apply State.modCore_memOk | with_reducible apply postAll_memOk
    | with_reducible apply launchTick_memOk | intro _ | split | with_reducible apply memOk_with

theorem endCycle_memOk {x0 : _} (x1 : _) (h : OutOk x0) : OutOk (endCycle x0 x1) := by
  cases h with
  | next h => exact .next (tick_memOk _ _ h)
  | fault f => exact .fault f
  | refused r => exact .refused r

theorem State.withFetchWord_memOk (s : State) (nbits w) (h : MemOk s) : MemOk (State.withFetchWord s nbits w) := by
  unfold State.withFetchWord
  repeat' first | assumption | apply placeWord_memOk

end Sys2Proof.Machine
end

