-- ==== Sys2Proof/Laws/Slices.lean ====
section
/-!
SUPPORT. Laws/Slices.lean: the bit fields of a word that an encoder has put together (R64, R67).
-/
namespace Sys2Proof

/-- A field above the lowest piece of a word. -/
theorem ex_hi {m n : Nat} (x : BitVec m) (y : BitVec n) (k l : Nat) (w : BitVec (m + n)) (hw : w = x ++ y) :
    w.extractLsb' (n + k) l = x.extractLsb' k l := by
  subst hw
  ext i hi
  simp only [BitVec.getElem_extractLsb', BitVec.getLsbD_append]
  rw [if_neg (by omega)]
  congr 1
  omega

/-- A field inside the lowest piece of a word. -/
theorem ex_lo {m n : Nat} (x : BitVec m) (y : BitVec n) (k l : Nat) (w : BitVec (m + n)) (hw : w = x ++ y)
    (h : k + l ≤ n) : w.extractLsb' k l = y.extractLsb' k l := by
  subst hw
  ext i hi
  simp [BitVec.getElem_extractLsb', BitVec.getLsbD_append]
  omega

/-- A field that takes in the lowest piece of a word and reaches above it. -/
theorem ex_two {m n : Nat} (x : BitVec m) (y : BitVec n) (l : Nat) (w : BitVec (m + n)) (hw : w = x ++ y) :
    w.extractLsb' 0 (l + n) = x.extractLsb' 0 l ++ y := by
  subst hw
  ext i hi
  simp only [BitVec.getElem_extractLsb', BitVec.getLsbD_append, Nat.zero_add, BitVec.getElem_append]
  split
  · rw [BitVec.getLsbD_eq_getElem]
  · simp

theorem ex_all {n : Nat} (x : BitVec n) : x.extractLsb' 0 n = x := by
  ext i hi
  simp

theorem encR_0_2 (g : BitVec 3) (maj : BitVec 6) (d : BitVec 7) (a : BitVec 7) (b : BitVec 7) (m : BitVec 2) :
    (encR g maj d a b m).extractLsb' 0 2 = m :=
  (ex_lo _ _ 0 2 _ rfl (by decide)).trans (ex_all _)

theorem encR_2_7 (g : BitVec 3) (maj : BitVec 6) (d : BitVec 7) (a : BitVec 7) (b : BitVec 7) (m : BitVec 2) :
    (encR g maj d a b m).extractLsb' 2 7 = b :=
  (ex_hi _ _ 0 7 _ rfl).trans ((ex_lo _ _ 0 7 _ rfl (by decide)).trans (ex_all _))

theorem encR_2_14 (g : BitVec 3) (maj : BitVec 6) (d : BitVec 7) (a : BitVec 7) (b : BitVec 7) (m : BitVec 2) :
    (encR g maj d a b m).extractLsb' 2 14 = a ++ b :=
  (ex_hi _ _ 0 14 _ rfl).trans ((ex_two _ _ 7 _ rfl).trans (congrArg (· ++ b) ((ex_lo _ _ 0 7 _ rfl (by decide)).trans (ex_all _))))

theorem encR_2_21 (g : BitVec 3) (maj : BitVec 6) (d : BitVec 7) (a : BitVec 7) (b : BitVec 7) (m : BitVec 2) :
    (encR g maj d a b m).extractLsb' 2 21 = d ++ a ++ b :=
  (ex_hi _ _ 0 21 _ rfl).trans ((ex_two _ _ 14 _ rfl).trans (congrArg (· ++ b) ((ex_two _ _ 7 _ rfl).trans (congrArg (· ++ a) ((ex_lo _ _ 0 7 _ rfl (by decide)).trans (ex_all _))))))

theorem encR_9_7 (g : BitVec 3) (maj : BitVec 6) (d : BitVec 7) (a : BitVec 7) (b : BitVec 7) (m : BitVec 2) :
    (encR g maj d a b m).extractLsb' 9 7 = a :=
  (ex_hi _ _ 7 7 _ rfl).trans ((ex_hi _ _ 0 7 _ rfl).trans ((ex_lo _ _ 0 7 _ rfl (by decide)).trans (ex_all _)))

theorem encR_16_7 (g : BitVec 3) (maj : BitVec 6) (d : BitVec 7) (a : BitVec 7) (b : BitVec 7) (m : BitVec 2) :
    (encR g maj d a b m).extractLsb' 16 7 = d :=
  (ex_hi _ _ 14 7 _ rfl).trans ((ex_hi _ _ 7 7 _ rfl).trans ((ex_hi _ _ 0 7 _ rfl).trans ((ex_lo _ _ 0 7 _ rfl (by decide)).trans (ex_all _))))

theorem encR_23_6 (g : BitVec 3) (maj : BitVec 6) (d : BitVec 7) (a : BitVec 7) (b : BitVec 7) (m : BitVec 2) :
    (encR g maj d a b m).extractLsb' 23 6 = maj :=
  (ex_hi _ _ 21 6 _ rfl).trans ((ex_hi _ _ 14 6 _ rfl).trans ((ex_hi _ _ 7 6 _ rfl).trans ((ex_hi _ _ 0 6 _ rfl).trans ((ex_lo _ _ 0 6 _ rfl (by decide)).trans (ex_all _)))))

theorem encR_29_3 (g : BitVec 3) (maj : BitVec 6) (d : BitVec 7) (a : BitVec 7) (b : BitVec 7) (m : BitVec 2) :
    (encR g maj d a b m).extractLsb' 29 3 = g :=
  (ex_hi _ _ 27 3 _ rfl).trans ((ex_hi _ _ 20 3 _ rfl).trans ((ex_hi _ _ 13 3 _ rfl).trans ((ex_hi _ _ 6 3 _ rfl).trans ((ex_hi _ _ 0 3 _ rfl).trans (ex_all _)))))

theorem encI_0_9 (g : BitVec 3) (maj : BitVec 6) (d : BitVec 7) (a : BitVec 7) (i : BitVec 9) :
    (encI g maj d a i).extractLsb' 0 9 = i :=
  (ex_lo _ _ 0 9 _ rfl (by decide)).trans (ex_all _)

theorem encI_9_7 (g : BitVec 3) (maj : BitVec 6) (d : BitVec 7) (a : BitVec 7) (i : BitVec 9) :
    (encI g maj d a i).extractLsb' 9 7 = a :=
  (ex_hi _ _ 0 7 _ rfl).trans ((ex_lo _ _ 0 7 _ rfl (by decide)).trans (ex_all _))

theorem encI_16_7 (g : BitVec 3) (maj : BitVec 6) (d : BitVec 7) (a : BitVec 7) (i : BitVec 9) :
    (encI g maj d a i).extractLsb' 16 7 = d :=
  (ex_hi _ _ 7 7 _ rfl).trans ((ex_hi _ _ 0 7 _ rfl).trans ((ex_lo _ _ 0 7 _ rfl (by decide)).trans (ex_all _)))

theorem encI_23_6 (g : BitVec 3) (maj : BitVec 6) (d : BitVec 7) (a : BitVec 7) (i : BitVec 9) :
    (encI g maj d a i).extractLsb' 23 6 = maj :=
  (ex_hi _ _ 14 6 _ rfl).trans ((ex_hi _ _ 7 6 _ rfl).trans ((ex_hi _ _ 0 6 _ rfl).trans ((ex_lo _ _ 0 6 _ rfl (by decide)).trans (ex_all _))))

theorem encI_29_3 (g : BitVec 3) (maj : BitVec 6) (d : BitVec 7) (a : BitVec 7) (i : BitVec 9) :
    (encI g maj d a i).extractLsb' 29 3 = g :=
  (ex_hi _ _ 20 3 _ rfl).trans ((ex_hi _ _ 13 3 _ rfl).trans ((ex_hi _ _ 6 3 _ rfl).trans ((ex_hi _ _ 0 3 _ rfl).trans (ex_all _))))

theorem encShi_0_6 (g : BitVec 3) (maj : BitVec 6) (d : BitVec 7) (a : BitVec 7) (k : BitVec 2) (n : BitVec 6) :
    (encShi g maj d a k n).extractLsb' 0 6 = n :=
  (ex_lo _ _ 0 6 _ rfl (by decide)).trans (ex_all _)

theorem encShi_6_1 (g : BitVec 3) (maj : BitVec 6) (d : BitVec 7) (a : BitVec 7) (k : BitVec 2) (n : BitVec 6) :
    (encShi g maj d a k n).extractLsb' 6 1 = 0#1 :=
  (ex_hi _ _ 0 1 _ rfl).trans ((ex_lo _ _ 0 1 _ rfl (by decide)).trans (ex_all _))

theorem encShi_7_2 (g : BitVec 3) (maj : BitVec 6) (d : BitVec 7) (a : BitVec 7) (k : BitVec 2) (n : BitVec 6) :
    (encShi g maj d a k n).extractLsb' 7 2 = k :=
  (ex_hi _ _ 1 2 _ rfl).trans ((ex_hi _ _ 0 2 _ rfl).trans ((ex_lo _ _ 0 2 _ rfl (by decide)).trans (ex_all _)))

theorem encShi_9_7 (g : BitVec 3) (maj : BitVec 6) (d : BitVec 7) (a : BitVec 7) (k : BitVec 2) (n : BitVec 6) :
    (encShi g maj d a k n).extractLsb' 9 7 = a :=
  (ex_hi _ _ 3 7 _ rfl).trans ((ex_hi _ _ 2 7 _ rfl).trans ((ex_hi _ _ 0 7 _ rfl).trans ((ex_lo _ _ 0 7 _ rfl (by decide)).trans (ex_all _))))

theorem encShi_16_7 (g : BitVec 3) (maj : BitVec 6) (d : BitVec 7) (a : BitVec 7) (k : BitVec 2) (n : BitVec 6) :
    (encShi g maj d a k n).extractLsb' 16 7 = d :=
  (ex_hi _ _ 10 7 _ rfl).trans ((ex_hi _ _ 9 7 _ rfl).trans ((ex_hi _ _ 7 7 _ rfl).trans ((ex_hi _ _ 0 7 _ rfl).trans ((ex_lo _ _ 0 7 _ rfl (by decide)).trans (ex_all _)))))

theorem encShi_23_6 (g : BitVec 3) (maj : BitVec 6) (d : BitVec 7) (a : BitVec 7) (k : BitVec 2) (n : BitVec 6) :
    (encShi g maj d a k n).extractLsb' 23 6 = maj :=
  (ex_hi _ _ 17 6 _ rfl).trans ((ex_hi _ _ 16 6 _ rfl).trans ((ex_hi _ _ 14 6 _ rfl).trans ((ex_hi _ _ 7 6 _ rfl).trans ((ex_hi _ _ 0 6 _ rfl).trans ((ex_lo _ _ 0 6 _ rfl (by decide)).trans (ex_all _))))))

theorem encShi_29_3 (g : BitVec 3) (maj : BitVec 6) (d : BitVec 7) (a : BitVec 7) (k : BitVec 2) (n : BitVec 6) :
    (encShi g maj d a k n).extractLsb' 29 3 = g :=
  (ex_hi _ _ 23 3 _ rfl).trans ((ex_hi _ _ 22 3 _ rfl).trans ((ex_hi _ _ 20 3 _ rfl).trans ((ex_hi _ _ 13 3 _ rfl).trans ((ex_hi _ _ 6 3 _ rfl).trans ((ex_hi _ _ 0 3 _ rfl).trans (ex_all _))))))

theorem encL_0_16 (g : BitVec 3) (maj : BitVec 6) (d : BitVec 7) (i : BitVec 16) :
    (encL g maj d i).extractLsb' 0 16 = i :=
  (ex_lo _ _ 0 16 _ rfl (by decide)).trans (ex_all _)

theorem encL_16_7 (g : BitVec 3) (maj : BitVec 6) (d : BitVec 7) (i : BitVec 16) :
    (encL g maj d i).extractLsb' 16 7 = d :=
  (ex_hi _ _ 0 7 _ rfl).trans ((ex_lo _ _ 0 7 _ rfl (by decide)).trans (ex_all _))

theorem encL_23_6 (g : BitVec 3) (maj : BitVec 6) (d : BitVec 7) (i : BitVec 16) :
    (encL g maj d i).extractLsb' 23 6 = maj :=
  (ex_hi _ _ 7 6 _ rfl).trans ((ex_hi _ _ 0 6 _ rfl).trans ((ex_lo _ _ 0 6 _ rfl (by decide)).trans (ex_all _)))

theorem encL_29_3 (g : BitVec 3) (maj : BitVec 6) (d : BitVec 7) (i : BitVec 16) :
    (encL g maj d i).extractLsb' 29 3 = g :=
  (ex_hi _ _ 13 3 _ rfl).trans ((ex_hi _ _ 6 3 _ rfl).trans ((ex_hi _ _ 0 3 _ rfl).trans (ex_all _)))

theorem encP_0_2 (g : BitVec 3) (maj : BitVec 6) (p : BitVec 3) (c : BitVec 3) (a : BitVec 7) (b : BitVec 7) :
    (encP g maj p c a b).extractLsb' 0 2 = 0#2 :=
  (ex_lo _ _ 0 2 _ rfl (by decide)).trans (ex_all _)

theorem encP_2_7 (g : BitVec 3) (maj : BitVec 6) (p : BitVec 3) (c : BitVec 3) (a : BitVec 7) (b : BitVec 7) :
    (encP g maj p c a b).extractLsb' 2 7 = b :=
  (ex_hi _ _ 0 7 _ rfl).trans ((ex_lo _ _ 0 7 _ rfl (by decide)).trans (ex_all _))

theorem encP_9_7 (g : BitVec 3) (maj : BitVec 6) (p : BitVec 3) (c : BitVec 3) (a : BitVec 7) (b : BitVec 7) :
    (encP g maj p c a b).extractLsb' 9 7 = a :=
  (ex_hi _ _ 7 7 _ rfl).trans ((ex_hi _ _ 0 7 _ rfl).trans ((ex_lo _ _ 0 7 _ rfl (by decide)).trans (ex_all _)))

theorem encP_16_1 (g : BitVec 3) (maj : BitVec 6) (p : BitVec 3) (c : BitVec 3) (a : BitVec 7) (b : BitVec 7) :
    (encP g maj p c a b).extractLsb' 16 1 = 0#1 :=
  (ex_hi _ _ 14 1 _ rfl).trans ((ex_hi _ _ 7 1 _ rfl).trans ((ex_hi _ _ 0 1 _ rfl).trans ((ex_lo _ _ 0 1 _ rfl (by decide)).trans (ex_all _))))

theorem encP_17_3 (g : BitVec 3) (maj : BitVec 6) (p : BitVec 3) (c : BitVec 3) (a : BitVec 7) (b : BitVec 7) :
    (encP g maj p c a b).extractLsb' 17 3 = c :=
  (ex_hi _ _ 15 3 _ rfl).trans ((ex_hi _ _ 8 3 _ rfl).trans ((ex_hi _ _ 1 3 _ rfl).trans ((ex_hi _ _ 0 3 _ rfl).trans ((ex_lo _ _ 0 3 _ rfl (by decide)).trans (ex_all _)))))

theorem encP_20_3 (g : BitVec 3) (maj : BitVec 6) (p : BitVec 3) (c : BitVec 3) (a : BitVec 7) (b : BitVec 7) :
    (encP g maj p c a b).extractLsb' 20 3 = p :=
  (ex_hi _ _ 18 3 _ rfl).trans ((ex_hi _ _ 11 3 _ rfl).trans ((ex_hi _ _ 4 3 _ rfl).trans ((ex_hi _ _ 3 3 _ rfl).trans ((ex_hi _ _ 0 3 _ rfl).trans ((ex_lo _ _ 0 3 _ rfl (by decide)).trans (ex_all _))))))

theorem encP_23_6 (g : BitVec 3) (maj : BitVec 6) (p : BitVec 3) (c : BitVec 3) (a : BitVec 7) (b : BitVec 7) :
    (encP g maj p c a b).extractLsb' 23 6 = maj :=
  (ex_hi _ _ 21 6 _ rfl).trans ((ex_hi _ _ 14 6 _ rfl).trans ((ex_hi _ _ 7 6 _ rfl).trans ((ex_hi _ _ 6 6 _ rfl).trans ((ex_hi _ _ 3 6 _ rfl).trans ((ex_hi _ _ 0 6 _ rfl).trans ((ex_lo _ _ 0 6 _ rfl (by decide)).trans (ex_all _)))))))

theorem encP_29_3 (g : BitVec 3) (maj : BitVec 6) (p : BitVec 3) (c : BitVec 3) (a : BitVec 7) (b : BitVec 7) :
    (encP g maj p c a b).extractLsb' 29 3 = g :=
  (ex_hi _ _ 27 3 _ rfl).trans ((ex_hi _ _ 20 3 _ rfl).trans ((ex_hi _ _ 13 3 _ rfl).trans ((ex_hi _ _ 12 3 _ rfl).trans ((ex_hi _ _ 9 3 _ rfl).trans ((ex_hi _ _ 6 3 _ rfl).trans ((ex_hi _ _ 0 3 _ rfl).trans (ex_all _)))))))

theorem encPI_0_9 (g : BitVec 3) (maj : BitVec 6) (p : BitVec 3) (c : BitVec 3) (a : BitVec 7) (i : BitVec 9) :
    (encPI g maj p c a i).extractLsb' 0 9 = i :=
  (ex_lo _ _ 0 9 _ rfl (by decide)).trans (ex_all _)

theorem encPI_9_7 (g : BitVec 3) (maj : BitVec 6) (p : BitVec 3) (c : BitVec 3) (a : BitVec 7) (i : BitVec 9) :
    (encPI g maj p c a i).extractLsb' 9 7 = a :=
  (ex_hi _ _ 0 7 _ rfl).trans ((ex_lo _ _ 0 7 _ rfl (by decide)).trans (ex_all _))

theorem encPI_16_1 (g : BitVec 3) (maj : BitVec 6) (p : BitVec 3) (c : BitVec 3) (a : BitVec 7) (i : BitVec 9) :
    (encPI g maj p c a i).extractLsb' 16 1 = 1#1 :=
  (ex_hi _ _ 7 1 _ rfl).trans ((ex_hi _ _ 0 1 _ rfl).trans ((ex_lo _ _ 0 1 _ rfl (by decide)).trans (ex_all _)))

theorem encPI_17_3 (g : BitVec 3) (maj : BitVec 6) (p : BitVec 3) (c : BitVec 3) (a : BitVec 7) (i : BitVec 9) :
    (encPI g maj p c a i).extractLsb' 17 3 = c :=
  (ex_hi _ _ 8 3 _ rfl).trans ((ex_hi _ _ 1 3 _ rfl).trans ((ex_hi _ _ 0 3 _ rfl).trans ((ex_lo _ _ 0 3 _ rfl (by decide)).trans (ex_all _))))

theorem encPI_20_3 (g : BitVec 3) (maj : BitVec 6) (p : BitVec 3) (c : BitVec 3) (a : BitVec 7) (i : BitVec 9) :
    (encPI g maj p c a i).extractLsb' 20 3 = p :=
  (ex_hi _ _ 11 3 _ rfl).trans ((ex_hi _ _ 4 3 _ rfl).trans ((ex_hi _ _ 3 3 _ rfl).trans ((ex_hi _ _ 0 3 _ rfl).trans ((ex_lo _ _ 0 3 _ rfl (by decide)).trans (ex_all _)))))

theorem encPI_23_6 (g : BitVec 3) (maj : BitVec 6) (p : BitVec 3) (c : BitVec 3) (a : BitVec 7) (i : BitVec 9) :
    (encPI g maj p c a i).extractLsb' 23 6 = maj :=
  (ex_hi _ _ 14 6 _ rfl).trans ((ex_hi _ _ 7 6 _ rfl).trans ((ex_hi _ _ 6 6 _ rfl).trans ((ex_hi _ _ 3 6 _ rfl).trans ((ex_hi _ _ 0 6 _ rfl).trans ((ex_lo _ _ 0 6 _ rfl (by decide)).trans (ex_all _))))))

theorem encPI_29_3 (g : BitVec 3) (maj : BitVec 6) (p : BitVec 3) (c : BitVec 3) (a : BitVec 7) (i : BitVec 9) :
    (encPI g maj p c a i).extractLsb' 29 3 = g :=
  (ex_hi _ _ 20 3 _ rfl).trans ((ex_hi _ _ 13 3 _ rfl).trans ((ex_hi _ _ 12 3 _ rfl).trans ((ex_hi _ _ 9 3 _ rfl).trans ((ex_hi _ _ 6 3 _ rfl).trans ((ex_hi _ _ 0 3 _ rfl).trans (ex_all _))))))

theorem encPlog_0_12 (g : BitVec 3) (maj : BitVec 6) (p : BitVec 3) (x : BitVec 3) (y : BitVec 3) (o : BitVec 2) :
    (encPlog g maj p x y o).extractLsb' 0 12 = 0#12 :=
  (ex_lo _ _ 0 12 _ rfl (by decide)).trans (ex_all _)

theorem encPlog_12_2 (g : BitVec 3) (maj : BitVec 6) (p : BitVec 3) (x : BitVec 3) (y : BitVec 3) (o : BitVec 2) :
    (encPlog g maj p x y o).extractLsb' 12 2 = o :=
  (ex_hi _ _ 0 2 _ rfl).trans ((ex_lo _ _ 0 2 _ rfl (by decide)).trans (ex_all _))

theorem encPlog_14_3 (g : BitVec 3) (maj : BitVec 6) (p : BitVec 3) (x : BitVec 3) (y : BitVec 3) (o : BitVec 2) :
    (encPlog g maj p x y o).extractLsb' 14 3 = y :=
  (ex_hi _ _ 2 3 _ rfl).trans ((ex_hi _ _ 0 3 _ rfl).trans ((ex_lo _ _ 0 3 _ rfl (by decide)).trans (ex_all _)))

theorem encPlog_17_3 (g : BitVec 3) (maj : BitVec 6) (p : BitVec 3) (x : BitVec 3) (y : BitVec 3) (o : BitVec 2) :
    (encPlog g maj p x y o).extractLsb' 17 3 = x :=
  (ex_hi _ _ 5 3 _ rfl).trans ((ex_hi _ _ 3 3 _ rfl).trans ((ex_hi _ _ 0 3 _ rfl).trans ((ex_lo _ _ 0 3 _ rfl (by decide)).trans (ex_all _))))

theorem encPlog_20_3 (g : BitVec 3) (maj : BitVec 6) (p : BitVec 3) (x : BitVec 3) (y : BitVec 3) (o : BitVec 2) :
    (encPlog g maj p x y o).extractLsb' 20 3 = p :=
  (ex_hi _ _ 8 3 _ rfl).trans ((ex_hi _ _ 6 3 _ rfl).trans ((ex_hi _ _ 3 3 _ rfl).trans ((ex_hi _ _ 0 3 _ rfl).trans ((ex_lo _ _ 0 3 _ rfl (by decide)).trans (ex_all _)))))

theorem encPlog_23_6 (g : BitVec 3) (maj : BitVec 6) (p : BitVec 3) (x : BitVec 3) (y : BitVec 3) (o : BitVec 2) :
    (encPlog g maj p x y o).extractLsb' 23 6 = maj :=
  (ex_hi _ _ 11 6 _ rfl).trans ((ex_hi _ _ 9 6 _ rfl).trans ((ex_hi _ _ 6 6 _ rfl).trans ((ex_hi _ _ 3 6 _ rfl).trans ((ex_hi _ _ 0 6 _ rfl).trans ((ex_lo _ _ 0 6 _ rfl (by decide)).trans (ex_all _))))))

theorem encPlog_29_3 (g : BitVec 3) (maj : BitVec 6) (p : BitVec 3) (x : BitVec 3) (y : BitVec 3) (o : BitVec 2) :
    (encPlog g maj p x y o).extractLsb' 29 3 = g :=
  (ex_hi _ _ 17 3 _ rfl).trans ((ex_hi _ _ 15 3 _ rfl).trans ((ex_hi _ _ 12 3 _ rfl).trans ((ex_hi _ _ 9 3 _ rfl).trans ((ex_hi _ _ 6 3 _ rfl).trans ((ex_hi _ _ 0 3 _ rfl).trans (ex_all _))))))

theorem encB_0_23 (g : BitVec 3) (maj : BitVec 6) (o : BitVec 23) :
    (encB g maj o).extractLsb' 0 23 = o :=
  (ex_lo _ _ 0 23 _ rfl (by decide)).trans (ex_all _)

theorem encB_23_6 (g : BitVec 3) (maj : BitVec 6) (o : BitVec 23) :
    (encB g maj o).extractLsb' 23 6 = maj :=
  (ex_hi _ _ 0 6 _ rfl).trans ((ex_lo _ _ 0 6 _ rfl (by decide)).trans (ex_all _))

theorem encB_29_3 (g : BitVec 3) (maj : BitVec 6) (o : BitVec 23) :
    (encB g maj o).extractLsb' 29 3 = g :=
  (ex_hi _ _ 6 3 _ rfl).trans ((ex_hi _ _ 0 3 _ rfl).trans (ex_all _))

theorem encM_0_1 (g : BitVec 3) (maj : BitVec 6) (d : BitVec 7) (a : BitVec 7) (o : BitVec 8) (r : BitVec 1) :
    (encM g maj d a o r).extractLsb' 0 1 = r :=
  (ex_lo _ _ 0 1 _ rfl (by decide)).trans (ex_all _)

theorem encM_1_8 (g : BitVec 3) (maj : BitVec 6) (d : BitVec 7) (a : BitVec 7) (o : BitVec 8) (r : BitVec 1) :
    (encM g maj d a o r).extractLsb' 1 8 = o :=
  (ex_hi _ _ 0 8 _ rfl).trans ((ex_lo _ _ 0 8 _ rfl (by decide)).trans (ex_all _))

theorem encM_9_7 (g : BitVec 3) (maj : BitVec 6) (d : BitVec 7) (a : BitVec 7) (o : BitVec 8) (r : BitVec 1) :
    (encM g maj d a o r).extractLsb' 9 7 = a :=
  (ex_hi _ _ 8 7 _ rfl).trans ((ex_hi _ _ 0 7 _ rfl).trans ((ex_lo _ _ 0 7 _ rfl (by decide)).trans (ex_all _)))

theorem encM_16_7 (g : BitVec 3) (maj : BitVec 6) (d : BitVec 7) (a : BitVec 7) (o : BitVec 8) (r : BitVec 1) :
    (encM g maj d a o r).extractLsb' 16 7 = d :=
  (ex_hi _ _ 15 7 _ rfl).trans ((ex_hi _ _ 7 7 _ rfl).trans ((ex_hi _ _ 0 7 _ rfl).trans ((ex_lo _ _ 0 7 _ rfl (by decide)).trans (ex_all _))))

theorem encM_23_6 (g : BitVec 3) (maj : BitVec 6) (d : BitVec 7) (a : BitVec 7) (o : BitVec 8) (r : BitVec 1) :
    (encM g maj d a o r).extractLsb' 23 6 = maj :=
  (ex_hi _ _ 22 6 _ rfl).trans ((ex_hi _ _ 14 6 _ rfl).trans ((ex_hi _ _ 7 6 _ rfl).trans ((ex_hi _ _ 0 6 _ rfl).trans ((ex_lo _ _ 0 6 _ rfl (by decide)).trans (ex_all _)))))

theorem encM_29_3 (g : BitVec 3) (maj : BitVec 6) (d : BitVec 7) (a : BitVec 7) (o : BitVec 8) (r : BitVec 1) :
    (encM g maj d a o r).extractLsb' 29 3 = g :=
  (ex_hi _ _ 28 3 _ rfl).trans ((ex_hi _ _ 20 3 _ rfl).trans ((ex_hi _ _ 13 3 _ rfl).trans ((ex_hi _ _ 6 3 _ rfl).trans ((ex_hi _ _ 0 3 _ rfl).trans (ex_all _)))))

theorem encFence_0_3 (g : BitVec 3) (maj : BitVec 6) (w : BitVec 1) (e : BitVec 1) (r : BitVec 1) (s : BitVec 3) :
    (encFence g maj w e r s).extractLsb' 0 3 = s :=
  (ex_lo _ _ 0 3 _ rfl (by decide)).trans (ex_all _)

theorem encFence_3_1 (g : BitVec 3) (maj : BitVec 6) (w : BitVec 1) (e : BitVec 1) (r : BitVec 1) (s : BitVec 3) :
    (encFence g maj w e r s).extractLsb' 3 1 = r :=
  (ex_hi _ _ 0 1 _ rfl).trans ((ex_lo _ _ 0 1 _ rfl (by decide)).trans (ex_all _))

theorem encFence_4_1 (g : BitVec 3) (maj : BitVec 6) (w : BitVec 1) (e : BitVec 1) (r : BitVec 1) (s : BitVec 3) :
    (encFence g maj w e r s).extractLsb' 4 1 = e :=
  (ex_hi _ _ 1 1 _ rfl).trans ((ex_hi _ _ 0 1 _ rfl).trans ((ex_lo _ _ 0 1 _ rfl (by decide)).trans (ex_all _)))

theorem encFence_5_1 (g : BitVec 3) (maj : BitVec 6) (w : BitVec 1) (e : BitVec 1) (r : BitVec 1) (s : BitVec 3) :
    (encFence g maj w e r s).extractLsb' 5 1 = w :=
  (ex_hi _ _ 2 1 _ rfl).trans ((ex_hi _ _ 1 1 _ rfl).trans ((ex_hi _ _ 0 1 _ rfl).trans ((ex_lo _ _ 0 1 _ rfl (by decide)).trans (ex_all _))))

theorem encFence_6_17 (g : BitVec 3) (maj : BitVec 6) (w : BitVec 1) (e : BitVec 1) (r : BitVec 1) (s : BitVec 3) :
    (encFence g maj w e r s).extractLsb' 6 17 = 0#17 :=
  (ex_hi _ _ 3 17 _ rfl).trans ((ex_hi _ _ 2 17 _ rfl).trans ((ex_hi _ _ 1 17 _ rfl).trans ((ex_hi _ _ 0 17 _ rfl).trans ((ex_lo _ _ 0 17 _ rfl (by decide)).trans (ex_all _)))))

theorem encFence_23_6 (g : BitVec 3) (maj : BitVec 6) (w : BitVec 1) (e : BitVec 1) (r : BitVec 1) (s : BitVec 3) :
    (encFence g maj w e r s).extractLsb' 23 6 = maj :=
  (ex_hi _ _ 20 6 _ rfl).trans ((ex_hi _ _ 19 6 _ rfl).trans ((ex_hi _ _ 18 6 _ rfl).trans ((ex_hi _ _ 17 6 _ rfl).trans ((ex_hi _ _ 0 6 _ rfl).trans ((ex_lo _ _ 0 6 _ rfl (by decide)).trans (ex_all _))))))

theorem encFence_29_3 (g : BitVec 3) (maj : BitVec 6) (w : BitVec 1) (e : BitVec 1) (r : BitVec 1) (s : BitVec 3) :
    (encFence g maj w e r s).extractLsb' 29 3 = g :=
  (ex_hi _ _ 26 3 _ rfl).trans ((ex_hi _ _ 25 3 _ rfl).trans ((ex_hi _ _ 24 3 _ rfl).trans ((ex_hi _ _ 23 3 _ rfl).trans ((ex_hi _ _ 6 3 _ rfl).trans ((ex_hi _ _ 0 3 _ rfl).trans (ex_all _))))))

theorem encS_0_9 (g : BitVec 3) (maj : BitVec 6) (d : BitVec 7) (a : BitVec 7) (s : BitVec 9) :
    (encS g maj d a s).extractLsb' 0 9 = s :=
  (ex_lo _ _ 0 9 _ rfl (by decide)).trans (ex_all _)

theorem encS_9_7 (g : BitVec 3) (maj : BitVec 6) (d : BitVec 7) (a : BitVec 7) (s : BitVec 9) :
    (encS g maj d a s).extractLsb' 9 7 = a :=
  (ex_hi _ _ 0 7 _ rfl).trans ((ex_lo _ _ 0 7 _ rfl (by decide)).trans (ex_all _))

theorem encS_16_7 (g : BitVec 3) (maj : BitVec 6) (d : BitVec 7) (a : BitVec 7) (s : BitVec 9) :
    (encS g maj d a s).extractLsb' 16 7 = d :=
  (ex_hi _ _ 7 7 _ rfl).trans ((ex_hi _ _ 0 7 _ rfl).trans ((ex_lo _ _ 0 7 _ rfl (by decide)).trans (ex_all _)))

theorem encS_23_6 (g : BitVec 3) (maj : BitVec 6) (d : BitVec 7) (a : BitVec 7) (s : BitVec 9) :
    (encS g maj d a s).extractLsb' 23 6 = maj :=
  (ex_hi _ _ 14 6 _ rfl).trans ((ex_hi _ _ 7 6 _ rfl).trans ((ex_hi _ _ 0 6 _ rfl).trans ((ex_lo _ _ 0 6 _ rfl (by decide)).trans (ex_all _))))

theorem encS_29_3 (g : BitVec 3) (maj : BitVec 6) (d : BitVec 7) (a : BitVec 7) (s : BitVec 9) :
    (encS g maj d a s).extractLsb' 29 3 = g :=
  (ex_hi _ _ 20 3 _ rfl).trans ((ex_hi _ _ 13 3 _ rfl).trans ((ex_hi _ _ 6 3 _ rfl).trans ((ex_hi _ _ 0 3 _ rfl).trans (ex_all _))))

theorem encBrk_0_2 (g : BitVec 3) (maj : BitVec 6) (i : BitVec 21) (m : BitVec 2) :
    (encBrk g maj i m).extractLsb' 0 2 = m :=
  (ex_lo _ _ 0 2 _ rfl (by decide)).trans (ex_all _)

theorem encBrk_2_21 (g : BitVec 3) (maj : BitVec 6) (i : BitVec 21) (m : BitVec 2) :
    (encBrk g maj i m).extractLsb' 2 21 = i :=
  (ex_hi _ _ 0 21 _ rfl).trans ((ex_lo _ _ 0 21 _ rfl (by decide)).trans (ex_all _))

theorem encBrk_23_6 (g : BitVec 3) (maj : BitVec 6) (i : BitVec 21) (m : BitVec 2) :
    (encBrk g maj i m).extractLsb' 23 6 = maj :=
  (ex_hi _ _ 21 6 _ rfl).trans ((ex_hi _ _ 0 6 _ rfl).trans ((ex_lo _ _ 0 6 _ rfl (by decide)).trans (ex_all _)))

theorem encBrk_29_3 (g : BitVec 3) (maj : BitVec 6) (i : BitVec 21) (m : BitVec 2) :
    (encBrk g maj i m).extractLsb' 29 3 = g :=
  (ex_hi _ _ 27 3 _ rfl).trans ((ex_hi _ _ 6 3 _ rfl).trans ((ex_hi _ _ 0 3 _ rfl).trans (ex_all _)))

theorem encV_0_5 (g : BitVec 3) (maj : BitVec 6) (d : BitVec 6) (a : BitVec 6) (b : BitVec 6) (m : BitVec 5) :
    (encV g maj d a b m).extractLsb' 0 5 = m :=
  (ex_lo _ _ 0 5 _ rfl (by decide)).trans (ex_all _)

theorem encV_5_6 (g : BitVec 3) (maj : BitVec 6) (d : BitVec 6) (a : BitVec 6) (b : BitVec 6) (m : BitVec 5) :
    (encV g maj d a b m).extractLsb' 5 6 = b :=
  (ex_hi _ _ 0 6 _ rfl).trans ((ex_lo _ _ 0 6 _ rfl (by decide)).trans (ex_all _))

theorem encV_11_6 (g : BitVec 3) (maj : BitVec 6) (d : BitVec 6) (a : BitVec 6) (b : BitVec 6) (m : BitVec 5) :
    (encV g maj d a b m).extractLsb' 11 6 = a :=
  (ex_hi _ _ 6 6 _ rfl).trans ((ex_hi _ _ 0 6 _ rfl).trans ((ex_lo _ _ 0 6 _ rfl (by decide)).trans (ex_all _)))

theorem encV_17_6 (g : BitVec 3) (maj : BitVec 6) (d : BitVec 6) (a : BitVec 6) (b : BitVec 6) (m : BitVec 5) :
    (encV g maj d a b m).extractLsb' 17 6 = d :=
  (ex_hi _ _ 12 6 _ rfl).trans ((ex_hi _ _ 6 6 _ rfl).trans ((ex_hi _ _ 0 6 _ rfl).trans ((ex_lo _ _ 0 6 _ rfl (by decide)).trans (ex_all _))))

theorem encV_23_6 (g : BitVec 3) (maj : BitVec 6) (d : BitVec 6) (a : BitVec 6) (b : BitVec 6) (m : BitVec 5) :
    (encV g maj d a b m).extractLsb' 23 6 = maj :=
  (ex_hi _ _ 18 6 _ rfl).trans ((ex_hi _ _ 12 6 _ rfl).trans ((ex_hi _ _ 6 6 _ rfl).trans ((ex_hi _ _ 0 6 _ rfl).trans ((ex_lo _ _ 0 6 _ rfl (by decide)).trans (ex_all _)))))

theorem encV_29_3 (g : BitVec 3) (maj : BitVec 6) (d : BitVec 6) (a : BitVec 6) (b : BitVec 6) (m : BitVec 5) :
    (encV g maj d a b m).extractLsb' 29 3 = g :=
  (ex_hi _ _ 24 3 _ rfl).trans ((ex_hi _ _ 18 3 _ rfl).trans ((ex_hi _ _ 12 3 _ rfl).trans ((ex_hi _ _ 6 3 _ rfl).trans ((ex_hi _ _ 0 3 _ rfl).trans (ex_all _)))))

theorem encVF_0_4 (g : BitVec 3) (maj : BitVec 6) (d : BitVec 6) (a : BitVec 6) (b : BitVec 6) (p : BitVec 1) (m : BitVec 4) :
    (encVF g maj d a b p m).extractLsb' 0 4 = m :=
  (ex_lo _ _ 0 4 _ rfl (by decide)).trans (ex_all _)

theorem encVF_4_1 (g : BitVec 3) (maj : BitVec 6) (d : BitVec 6) (a : BitVec 6) (b : BitVec 6) (p : BitVec 1) (m : BitVec 4) :
    (encVF g maj d a b p m).extractLsb' 4 1 = p :=
  (ex_hi _ _ 0 1 _ rfl).trans ((ex_lo _ _ 0 1 _ rfl (by decide)).trans (ex_all _))

theorem encVF_5_6 (g : BitVec 3) (maj : BitVec 6) (d : BitVec 6) (a : BitVec 6) (b : BitVec 6) (p : BitVec 1) (m : BitVec 4) :
    (encVF g maj d a b p m).extractLsb' 5 6 = b :=
  (ex_hi _ _ 1 6 _ rfl).trans ((ex_hi _ _ 0 6 _ rfl).trans ((ex_lo _ _ 0 6 _ rfl (by decide)).trans (ex_all _)))

theorem encVF_11_6 (g : BitVec 3) (maj : BitVec 6) (d : BitVec 6) (a : BitVec 6) (b : BitVec 6) (p : BitVec 1) (m : BitVec 4) :
    (encVF g maj d a b p m).extractLsb' 11 6 = a :=
  (ex_hi _ _ 7 6 _ rfl).trans ((ex_hi _ _ 6 6 _ rfl).trans ((ex_hi _ _ 0 6 _ rfl).trans ((ex_lo _ _ 0 6 _ rfl (by decide)).trans (ex_all _))))

theorem encVF_17_6 (g : BitVec 3) (maj : BitVec 6) (d : BitVec 6) (a : BitVec 6) (b : BitVec 6) (p : BitVec 1) (m : BitVec 4) :
    (encVF g maj d a b p m).extractLsb' 17 6 = d :=
  (ex_hi _ _ 13 6 _ rfl).trans ((ex_hi _ _ 12 6 _ rfl).trans ((ex_hi _ _ 6 6 _ rfl).trans ((ex_hi _ _ 0 6 _ rfl).trans ((ex_lo _ _ 0 6 _ rfl (by decide)).trans (ex_all _)))))

theorem encVF_23_6 (g : BitVec 3) (maj : BitVec 6) (d : BitVec 6) (a : BitVec 6) (b : BitVec 6) (p : BitVec 1) (m : BitVec 4) :
    (encVF g maj d a b p m).extractLsb' 23 6 = maj :=
  (ex_hi _ _ 19 6 _ rfl).trans ((ex_hi _ _ 18 6 _ rfl).trans ((ex_hi _ _ 12 6 _ rfl).trans ((ex_hi _ _ 6 6 _ rfl).trans ((ex_hi _ _ 0 6 _ rfl).trans ((ex_lo _ _ 0 6 _ rfl (by decide)).trans (ex_all _))))))

theorem encVF_29_3 (g : BitVec 3) (maj : BitVec 6) (d : BitVec 6) (a : BitVec 6) (b : BitVec 6) (p : BitVec 1) (m : BitVec 4) :
    (encVF g maj d a b p m).extractLsb' 29 3 = g :=
  (ex_hi _ _ 25 3 _ rfl).trans ((ex_hi _ _ 24 3 _ rfl).trans ((ex_hi _ _ 18 3 _ rfl).trans ((ex_hi _ _ 12 3 _ rfl).trans ((ex_hi _ _ 6 3 _ rfl).trans ((ex_hi _ _ 0 3 _ rfl).trans (ex_all _))))))

theorem encVM_0_3 (g : BitVec 3) (maj : BitVec 6) (d : BitVec 6) (a : BitVec 7) (b : BitVec 7) (m : BitVec 3) :
    (encVM g maj d a b m).extractLsb' 0 3 = m :=
  (ex_lo _ _ 0 3 _ rfl (by decide)).trans (ex_all _)

theorem encVM_3_7 (g : BitVec 3) (maj : BitVec 6) (d : BitVec 6) (a : BitVec 7) (b : BitVec 7) (m : BitVec 3) :
    (encVM g maj d a b m).extractLsb' 3 7 = b :=
  (ex_hi _ _ 0 7 _ rfl).trans ((ex_lo _ _ 0 7 _ rfl (by decide)).trans (ex_all _))

theorem encVM_10_7 (g : BitVec 3) (maj : BitVec 6) (d : BitVec 6) (a : BitVec 7) (b : BitVec 7) (m : BitVec 3) :
    (encVM g maj d a b m).extractLsb' 10 7 = a :=
  (ex_hi _ _ 7 7 _ rfl).trans ((ex_hi _ _ 0 7 _ rfl).trans ((ex_lo _ _ 0 7 _ rfl (by decide)).trans (ex_all _)))

theorem encVM_17_6 (g : BitVec 3) (maj : BitVec 6) (d : BitVec 6) (a : BitVec 7) (b : BitVec 7) (m : BitVec 3) :
    (encVM g maj d a b m).extractLsb' 17 6 = d :=
  (ex_hi _ _ 14 6 _ rfl).trans ((ex_hi _ _ 7 6 _ rfl).trans ((ex_hi _ _ 0 6 _ rfl).trans ((ex_lo _ _ 0 6 _ rfl (by decide)).trans (ex_all _))))

theorem encVM_23_6 (g : BitVec 3) (maj : BitVec 6) (d : BitVec 6) (a : BitVec 7) (b : BitVec 7) (m : BitVec 3) :
    (encVM g maj d a b m).extractLsb' 23 6 = maj :=
  (ex_hi _ _ 20 6 _ rfl).trans ((ex_hi _ _ 13 6 _ rfl).trans ((ex_hi _ _ 6 6 _ rfl).trans ((ex_hi _ _ 0 6 _ rfl).trans ((ex_lo _ _ 0 6 _ rfl (by decide)).trans (ex_all _)))))

theorem encVM_29_3 (g : BitVec 3) (maj : BitVec 6) (d : BitVec 6) (a : BitVec 7) (b : BitVec 7) (m : BitVec 3) :
    (encVM g maj d a b m).extractLsb' 29 3 = g :=
  (ex_hi _ _ 26 3 _ rfl).trans ((ex_hi _ _ 19 3 _ rfl).trans ((ex_hi _ _ 12 3 _ rfl).trans ((ex_hi _ _ 6 3 _ rfl).trans ((ex_hi _ _ 0 3 _ rfl).trans (ex_all _)))))

theorem encVX_0_4 (g : BitVec 3) (maj : BitVec 6) (x : BitVec 7) (v : BitVec 6) (w : BitVec 6) (m : BitVec 4) :
    (encVX g maj x v w m).extractLsb' 0 4 = m :=
  (ex_lo _ _ 0 4 _ rfl (by decide)).trans (ex_all _)

theorem encVX_4_6 (g : BitVec 3) (maj : BitVec 6) (x : BitVec 7) (v : BitVec 6) (w : BitVec 6) (m : BitVec 4) :
    (encVX g maj x v w m).extractLsb' 4 6 = w :=
  (ex_hi _ _ 0 6 _ rfl).trans ((ex_lo _ _ 0 6 _ rfl (by decide)).trans (ex_all _))

theorem encVX_10_6 (g : BitVec 3) (maj : BitVec 6) (x : BitVec 7) (v : BitVec 6) (w : BitVec 6) (m : BitVec 4) :
    (encVX g maj x v w m).extractLsb' 10 6 = v :=
  (ex_hi _ _ 6 6 _ rfl).trans ((ex_hi _ _ 0 6 _ rfl).trans ((ex_lo _ _ 0 6 _ rfl (by decide)).trans (ex_all _)))

theorem encVX_16_7 (g : BitVec 3) (maj : BitVec 6) (x : BitVec 7) (v : BitVec 6) (w : BitVec 6) (m : BitVec 4) :
    (encVX g maj x v w m).extractLsb' 16 7 = x :=
  (ex_hi _ _ 12 7 _ rfl).trans ((ex_hi _ _ 6 7 _ rfl).trans ((ex_hi _ _ 0 7 _ rfl).trans ((ex_lo _ _ 0 7 _ rfl (by decide)).trans (ex_all _))))

theorem encVX_23_6 (g : BitVec 3) (maj : BitVec 6) (x : BitVec 7) (v : BitVec 6) (w : BitVec 6) (m : BitVec 4) :
    (encVX g maj x v w m).extractLsb' 23 6 = maj :=
  (ex_hi _ _ 19 6 _ rfl).trans ((ex_hi _ _ 13 6 _ rfl).trans ((ex_hi _ _ 7 6 _ rfl).trans ((ex_hi _ _ 0 6 _ rfl).trans ((ex_lo _ _ 0 6 _ rfl (by decide)).trans (ex_all _)))))

theorem encVX_29_3 (g : BitVec 3) (maj : BitVec 6) (x : BitVec 7) (v : BitVec 6) (w : BitVec 6) (m : BitVec 4) :
    (encVX g maj x v w m).extractLsb' 29 3 = g :=
  (ex_hi _ _ 25 3 _ rfl).trans ((ex_hi _ _ 19 3 _ rfl).trans ((ex_hi _ _ 13 3 _ rfl).trans ((ex_hi _ _ 6 3 _ rfl).trans ((ex_hi _ _ 0 3 _ rfl).trans (ex_all _)))))

theorem encZG_0_5 (g : BitVec 3) (maj : BitVec 6) (z : BitVec 4) (a : BitVec 7) (b : BitVec 7) (m : BitVec 5) :
    (encZG g maj z a b m).extractLsb' 0 5 = m :=
  (ex_lo _ _ 0 5 _ rfl (by decide)).trans (ex_all _)

theorem encZG_5_7 (g : BitVec 3) (maj : BitVec 6) (z : BitVec 4) (a : BitVec 7) (b : BitVec 7) (m : BitVec 5) :
    (encZG g maj z a b m).extractLsb' 5 7 = b :=
  (ex_hi _ _ 0 7 _ rfl).trans ((ex_lo _ _ 0 7 _ rfl (by decide)).trans (ex_all _))

theorem encZG_5_14 (g : BitVec 3) (maj : BitVec 6) (z : BitVec 4) (a : BitVec 7) (b : BitVec 7) (m : BitVec 5) :
    (encZG g maj z a b m).extractLsb' 5 14 = a ++ b :=
  (ex_hi _ _ 0 14 _ rfl).trans ((ex_two _ _ 7 _ rfl).trans (congrArg (· ++ b) ((ex_lo _ _ 0 7 _ rfl (by decide)).trans (ex_all _))))

theorem encZG_12_7 (g : BitVec 3) (maj : BitVec 6) (z : BitVec 4) (a : BitVec 7) (b : BitVec 7) (m : BitVec 5) :
    (encZG g maj z a b m).extractLsb' 12 7 = a :=
  (ex_hi _ _ 7 7 _ rfl).trans ((ex_hi _ _ 0 7 _ rfl).trans ((ex_lo _ _ 0 7 _ rfl (by decide)).trans (ex_all _)))

theorem encZG_19_4 (g : BitVec 3) (maj : BitVec 6) (z : BitVec 4) (a : BitVec 7) (b : BitVec 7) (m : BitVec 5) :
    (encZG g maj z a b m).extractLsb' 19 4 = z :=
  (ex_hi _ _ 14 4 _ rfl).trans ((ex_hi _ _ 7 4 _ rfl).trans ((ex_hi _ _ 0 4 _ rfl).trans ((ex_lo _ _ 0 4 _ rfl (by decide)).trans (ex_all _))))

theorem encZG_23_6 (g : BitVec 3) (maj : BitVec 6) (z : BitVec 4) (a : BitVec 7) (b : BitVec 7) (m : BitVec 5) :
    (encZG g maj z a b m).extractLsb' 23 6 = maj :=
  (ex_hi _ _ 18 6 _ rfl).trans ((ex_hi _ _ 11 6 _ rfl).trans ((ex_hi _ _ 4 6 _ rfl).trans ((ex_hi _ _ 0 6 _ rfl).trans ((ex_lo _ _ 0 6 _ rfl (by decide)).trans (ex_all _)))))

theorem encZG_29_3 (g : BitVec 3) (maj : BitVec 6) (z : BitVec 4) (a : BitVec 7) (b : BitVec 7) (m : BitVec 5) :
    (encZG g maj z a b m).extractLsb' 29 3 = g :=
  (ex_hi _ _ 24 3 _ rfl).trans ((ex_hi _ _ 17 3 _ rfl).trans ((ex_hi _ _ 10 3 _ rfl).trans ((ex_hi _ _ 6 3 _ rfl).trans ((ex_hi _ _ 0 3 _ rfl).trans (ex_all _)))))

theorem encZ_0_7 (g : BitVec 3) (maj : BitVec 6) (d : BitVec 4) (a : BitVec 4) (b : BitVec 4) (s : BitVec 4) (m : BitVec 7) :
    (encZ g maj d a b s m).extractLsb' 0 7 = m :=
  (ex_lo _ _ 0 7 _ rfl (by decide)).trans (ex_all _)

theorem encZ_7_4 (g : BitVec 3) (maj : BitVec 6) (d : BitVec 4) (a : BitVec 4) (b : BitVec 4) (s : BitVec 4) (m : BitVec 7) :
    (encZ g maj d a b s m).extractLsb' 7 4 = s :=
  (ex_hi _ _ 0 4 _ rfl).trans ((ex_lo _ _ 0 4 _ rfl (by decide)).trans (ex_all _))

theorem encZ_7_8 (g : BitVec 3) (maj : BitVec 6) (d : BitVec 4) (a : BitVec 4) (b : BitVec 4) (s : BitVec 4) (m : BitVec 7) :
    (encZ g maj d a b s m).extractLsb' 7 8 = b ++ s :=
  (ex_hi _ _ 0 8 _ rfl).trans ((ex_two _ _ 4 _ rfl).trans (congrArg (· ++ s) ((ex_lo _ _ 0 4 _ rfl (by decide)).trans (ex_all _))))

theorem encZ_11_4 (g : BitVec 3) (maj : BitVec 6) (d : BitVec 4) (a : BitVec 4) (b : BitVec 4) (s : BitVec 4) (m : BitVec 7) :
    (encZ g maj d a b s m).extractLsb' 11 4 = b :=
  (ex_hi _ _ 4 4 _ rfl).trans ((ex_hi _ _ 0 4 _ rfl).trans ((ex_lo _ _ 0 4 _ rfl (by decide)).trans (ex_all _)))

theorem encZ_15_4 (g : BitVec 3) (maj : BitVec 6) (d : BitVec 4) (a : BitVec 4) (b : BitVec 4) (s : BitVec 4) (m : BitVec 7) :
    (encZ g maj d a b s m).extractLsb' 15 4 = a :=
  (ex_hi _ _ 8 4 _ rfl).trans ((ex_hi _ _ 4 4 _ rfl).trans ((ex_hi _ _ 0 4 _ rfl).trans ((ex_lo _ _ 0 4 _ rfl (by decide)).trans (ex_all _))))

theorem encZ_19_4 (g : BitVec 3) (maj : BitVec 6) (d : BitVec 4) (a : BitVec 4) (b : BitVec 4) (s : BitVec 4) (m : BitVec 7) :
    (encZ g maj d a b s m).extractLsb' 19 4 = d :=
  (ex_hi _ _ 12 4 _ rfl).trans ((ex_hi _ _ 8 4 _ rfl).trans ((ex_hi _ _ 4 4 _ rfl).trans ((ex_hi _ _ 0 4 _ rfl).trans ((ex_lo _ _ 0 4 _ rfl (by decide)).trans (ex_all _)))))

theorem encZ_23_6 (g : BitVec 3) (maj : BitVec 6) (d : BitVec 4) (a : BitVec 4) (b : BitVec 4) (s : BitVec 4) (m : BitVec 7) :
    (encZ g maj d a b s m).extractLsb' 23 6 = maj :=
  (ex_hi _ _ 16 6 _ rfl).trans ((ex_hi _ _ 12 6 _ rfl).trans ((ex_hi _ _ 8 6 _ rfl).trans ((ex_hi _ _ 4 6 _ rfl).trans ((ex_hi _ _ 0 6 _ rfl).trans ((ex_lo _ _ 0 6 _ rfl (by decide)).trans (ex_all _))))))

theorem encZ_29_3 (g : BitVec 3) (maj : BitVec 6) (d : BitVec 4) (a : BitVec 4) (b : BitVec 4) (s : BitVec 4) (m : BitVec 7) :
    (encZ g maj d a b s m).extractLsb' 29 3 = g :=
  (ex_hi _ _ 22 3 _ rfl).trans ((ex_hi _ _ 18 3 _ rfl).trans ((ex_hi _ _ 14 3 _ rfl).trans ((ex_hi _ _ 10 3 _ rfl).trans ((ex_hi _ _ 6 3 _ rfl).trans ((ex_hi _ _ 0 3 _ rfl).trans (ex_all _))))))

theorem encZG_zrgn_hi (g : BitVec 3) (maj : BitVec 6) (z s : BitVec 4) (b : BitVec 7) (m : BitVec 5) :
    (encZG g maj z (0#3 ++ s) b m).extractLsb' 16 3 = 0#3 :=
  (ex_hi _ _ 11 3 _ rfl).trans <| (ex_hi _ _ 4 3 _ rfl).trans <| (ex_lo _ _ 4 3 _ rfl (by decide)).trans <|
    (ex_hi (0#3) s 0 3 _ rfl).trans (ex_all _)

theorem encZG_zrgn_lo (g : BitVec 3) (maj : BitVec 6) (z s : BitVec 4) (b : BitVec 7) (m : BitVec 5) :
    (encZG g maj z (0#3 ++ s) b m).extractLsb' 12 4 = s :=
  (ex_hi _ _ 7 4 _ rfl).trans <| (ex_hi _ _ 0 4 _ rfl).trans <| (ex_lo _ _ 0 4 _ rfl (by decide)).trans <|
    (ex_lo (0#3) s 0 4 _ rfl (by decide)).trans (ex_all _)

theorem encHeader_29_3 (g : BitVec 3) (kind : BitVec 4) (flags : BitVec 16) :
    (encHeader g kind flags).extractLsb' 29 3 = g :=
  (ex_hi _ _ 13 3 _ rfl).trans ((ex_hi _ _ 10 3 _ rfl).trans ((ex_hi _ _ 6 3 _ rfl).trans ((ex_hi _ _ 0 3 _ rfl).trans (ex_all _))))

theorem encHeader_23_6 (g : BitVec 3) (kind : BitVec 4) (flags : BitVec 16) :
    (encHeader g kind flags).extractLsb' 23 6 = 0x3F#6 :=
  (ex_hi _ _ 7 6 _ rfl).trans ((ex_hi _ _ 4 6 _ rfl).trans ((ex_hi _ _ 0 6 _ rfl).trans ((ex_lo _ _ 0 6 _ rfl (by decide)).trans (ex_all _))))

theorem encHeader_19_4 (g : BitVec 3) (kind : BitVec 4) (flags : BitVec 16) :
    (encHeader g kind flags).extractLsb' 19 4 = kind :=
  (ex_hi _ _ 3 4 _ rfl).trans ((ex_hi _ _ 0 4 _ rfl).trans ((ex_lo _ _ 0 4 _ rfl (by decide)).trans (ex_all _)))

theorem encHeader_16_3 (g : BitVec 3) (kind : BitVec 4) (flags : BitVec 16) :
    (encHeader g kind flags).extractLsb' 16 3 = 7#3 :=
  (ex_hi _ _ 0 3 _ rfl).trans ((ex_lo _ _ 0 3 _ rfl (by decide)).trans (ex_all _))

/-- A field of the flags of a header. -/
theorem encHeader_flags (g : BitVec 3) (kind : BitVec 4) (flags : BitVec 16) (k l : Nat) (h : k + l ≤ 16) :
    (encHeader g kind flags).extractLsb' k l = flags.extractLsb' k l :=
  ex_lo _ flags k l _ rfl h

theorem encPay_29_3 (x y z : BitVec 7) (t : BitVec 2) :
    (encPay x y z t).extractLsb' 29 3 = 0#3 :=
  (ex_hi _ _ 27 3 _ rfl).trans ((ex_hi _ _ 20 3 _ rfl).trans ((ex_hi _ _ 13 3 _ rfl).trans ((ex_hi _ _ 6 3 _ rfl).trans ((ex_hi _ _ 0 3 _ rfl).trans (ex_all _)))))

theorem encPay_23_6 (x y z : BitVec 7) (t : BitVec 2) :
    (encPay x y z t).extractLsb' 23 6 = 0x3E#6 :=
  (ex_hi _ _ 21 6 _ rfl).trans ((ex_hi _ _ 14 6 _ rfl).trans ((ex_hi _ _ 7 6 _ rfl).trans ((ex_hi _ _ 0 6 _ rfl).trans ((ex_lo _ _ 0 6 _ rfl (by decide)).trans (ex_all _)))))

theorem encPay_16_7 (x y z : BitVec 7) (t : BitVec 2) :
    (encPay x y z t).extractLsb' 16 7 = x :=
  (ex_hi _ _ 14 7 _ rfl).trans ((ex_hi _ _ 7 7 _ rfl).trans ((ex_hi _ _ 0 7 _ rfl).trans ((ex_lo _ _ 0 7 _ rfl (by decide)).trans (ex_all _))))

theorem encPay_9_7 (x y z : BitVec 7) (t : BitVec 2) :
    (encPay x y z t).extractLsb' 9 7 = y :=
  (ex_hi _ _ 7 7 _ rfl).trans ((ex_hi _ _ 0 7 _ rfl).trans ((ex_lo _ _ 0 7 _ rfl (by decide)).trans (ex_all _)))

theorem encPay_2_7 (x y z : BitVec 7) (t : BitVec 2) :
    (encPay x y z t).extractLsb' 2 7 = z :=
  (ex_hi _ _ 0 7 _ rfl).trans ((ex_lo _ _ 0 7 _ rfl (by decide)).trans (ex_all _))

theorem encPay_0_2 (x y z : BitVec 7) (t : BitVec 2) :
    (encPay x y z t).extractLsb' 0 2 = t :=
  (ex_lo _ _ 0 2 _ rfl (by decide)).trans (ex_all _)

theorem encPay_0_23 (x y z : BitVec 7) (t : BitVec 2) :
    (encPay x y z t).extractLsb' 0 23 = x ++ y ++ z ++ t :=
  (ex_two _ _ 21 _ rfl).trans (congrArg (· ++ t) ((ex_two _ _ 14 _ rfl).trans (congrArg (· ++ z) ((ex_two _ _ 7 _ rfl).trans (congrArg (· ++ y) ((ex_lo _ _ 0 7 _ rfl (by decide)).trans (ex_all _)))))))

theorem mmaFlags_8_8 (z e : BitVec 1) (fb fa : BitVec 3) :
    (0#8 ++ z ++ e ++ fb ++ fa : BitVec 16).extractLsb' 8 8 = 0#8 :=
  (ex_hi _ _ 5 8 _ rfl).trans ((ex_hi _ _ 2 8 _ rfl).trans ((ex_hi _ _ 1 8 _ rfl).trans ((ex_hi _ _ 0 8 _ rfl).trans (ex_all _))))

theorem mmaFlags_7_1 (z e : BitVec 1) (fb fa : BitVec 3) :
    (0#8 ++ z ++ e ++ fb ++ fa : BitVec 16).extractLsb' 7 1 = z :=
  (ex_hi _ _ 4 1 _ rfl).trans ((ex_hi _ _ 1 1 _ rfl).trans ((ex_hi _ _ 0 1 _ rfl).trans ((ex_lo _ _ 0 1 _ rfl (by decide)).trans (ex_all _))))

theorem mmaFlags_6_1 (z e : BitVec 1) (fb fa : BitVec 3) :
    (0#8 ++ z ++ e ++ fb ++ fa : BitVec 16).extractLsb' 6 1 = e :=
  (ex_hi _ _ 3 1 _ rfl).trans ((ex_hi _ _ 0 1 _ rfl).trans ((ex_lo _ _ 0 1 _ rfl (by decide)).trans (ex_all _)))

theorem mmaFlags_3_3 (z e : BitVec 1) (fb fa : BitVec 3) :
    (0#8 ++ z ++ e ++ fb ++ fa : BitVec 16).extractLsb' 3 3 = fb :=
  (ex_hi _ _ 0 3 _ rfl).trans ((ex_lo _ _ 0 3 _ rfl (by decide)).trans (ex_all _))

theorem mmaFlags_0_3 (z e : BitVec 1) (fb fa : BitVec 3) :
    (0#8 ++ z ++ e ++ fb ++ fa : BitVec 16).extractLsb' 0 3 = fa :=
  (ex_lo _ _ 0 3 _ rfl (by decide)).trans (ex_all _)

theorem collFlags_6_10 (rf : BitVec 4) (op : BitVec 2) :
    (0#10 ++ rf ++ op : BitVec 16).extractLsb' 6 10 = 0#10 :=
  (ex_hi _ _ 4 10 _ rfl).trans ((ex_hi _ _ 0 10 _ rfl).trans (ex_all _))

theorem collFlags_2_4 (rf : BitVec 4) (op : BitVec 2) :
    (0#10 ++ rf ++ op : BitVec 16).extractLsb' 2 4 = rf :=
  (ex_hi _ _ 0 4 _ rfl).trans ((ex_lo _ _ 0 4 _ rfl (by decide)).trans (ex_all _))

theorem collFlags_0_2 (rf : BitVec 4) (op : BitVec 2) :
    (0#10 ++ rf ++ op : BitVec 16).extractLsb' 0 2 = op :=
  (ex_lo _ _ 0 2 _ rfl (by decide)).trans (ex_all _)

theorem oneFlag_1_15 (b : BitVec 1) :
    (0#15 ++ b : BitVec 16).extractLsb' 1 15 = 0#15 :=
  (ex_hi _ _ 0 15 _ rfl).trans (ex_all _)

theorem oneFlag_0_1 (b : BitVec 1) :
    (0#15 ++ b : BitVec 16).extractLsb' 0 1 = b :=
  (ex_lo _ _ 0 1 _ rfl (by decide)).trans (ex_all _)

end Sys2Proof
end

