-- ==== Sys2Proof/Laws/Majors.lean ====
section
/-!
SUPPORT. Laws/Majors.lean: what the decoder reads from a word of each major (R69).
-/
namespace Sys2Proof

theorem decode_0x00 (w : BitVec 32) (h : w.extractLsb' 23 6 = 0x00#6) :
    decodeFields w =
      match (w.extractLsb' 0 2).toNat with
      | 0 => .ok (.add (w.extractLsb' 29 3) (w.extractLsb' 16 7) (w.extractLsb' 9 7) (w.extractLsb' 2 7))
      | 1 => .ok (.sub (w.extractLsb' 29 3) (w.extractLsb' 16 7) (w.extractLsb' 9 7) (w.extractLsb' 2 7))
      | 2 => .ok (.and (w.extractLsb' 29 3) (w.extractLsb' 16 7) (w.extractLsb' 9 7) (w.extractLsb' 2 7))
      | 3 => .ok (.or (w.extractLsb' 29 3) (w.extractLsb' 16 7) (w.extractLsb' 9 7) (w.extractLsb' 2 7))
      | _ => illegal := by
  unfold decodeFields
  rw [h]
  rfl

theorem decode_0x01 (w : BitVec 32) (h : w.extractLsb' 23 6 = 0x01#6) :
    decodeFields w =
      match (w.extractLsb' 0 2).toNat with
      | 0 => .ok (.xor (w.extractLsb' 29 3) (w.extractLsb' 16 7) (w.extractLsb' 9 7) (w.extractLsb' 2 7))
      | 1 => .ok (.andn (w.extractLsb' 29 3) (w.extractLsb' 16 7) (w.extractLsb' 9 7) (w.extractLsb' 2 7))
      | 2 => .ok (.shl (w.extractLsb' 29 3) (w.extractLsb' 16 7) (w.extractLsb' 9 7) (w.extractLsb' 2 7))
      | 3 => .ok (.shr (w.extractLsb' 29 3) (w.extractLsb' 16 7) (w.extractLsb' 9 7) (w.extractLsb' 2 7))
      | _ => illegal := by
  unfold decodeFields
  rw [h]
  rfl

theorem decode_0x02 (w : BitVec 32) (h : w.extractLsb' 23 6 = 0x02#6) :
    decodeFields w =
      match (w.extractLsb' 0 2).toNat with
      | 0 => .ok (.sra (w.extractLsb' 29 3) (w.extractLsb' 16 7) (w.extractLsb' 9 7) (w.extractLsb' 2 7))
      | 1 => .ok (.rotl (w.extractLsb' 29 3) (w.extractLsb' 16 7) (w.extractLsb' 9 7) (w.extractLsb' 2 7))
      | 2 => .ok (.mins (w.extractLsb' 29 3) (w.extractLsb' 16 7) (w.extractLsb' 9 7) (w.extractLsb' 2 7))
      | 3 => .ok (.maxs (w.extractLsb' 29 3) (w.extractLsb' 16 7) (w.extractLsb' 9 7) (w.extractLsb' 2 7))
      | _ => illegal := by
  unfold decodeFields
  rw [h]
  rfl

theorem decode_0x03 (w : BitVec 32) (h : w.extractLsb' 23 6 = 0x03#6) :
    decodeFields w =
      match (w.extractLsb' 0 2).toNat with
      | 0 => .ok (.minu (w.extractLsb' 29 3) (w.extractLsb' 16 7) (w.extractLsb' 9 7) (w.extractLsb' 2 7))
      | 1 => .ok (.maxu (w.extractLsb' 29 3) (w.extractLsb' 16 7) (w.extractLsb' 9 7) (w.extractLsb' 2 7))
      | 2 => guardZ (w.extractLsb' 2 7 == 0#7) (.clz (w.extractLsb' 29 3) (w.extractLsb' 16 7) (w.extractLsb' 9 7))
      | 3 => guardZ (w.extractLsb' 2 7 == 0#7) (.ctz (w.extractLsb' 29 3) (w.extractLsb' 16 7) (w.extractLsb' 9 7))
      | _ => illegal := by
  unfold decodeFields
  rw [h]
  rfl

theorem decode_0x04 (w : BitVec 32) (h : w.extractLsb' 23 6 = 0x04#6) :
    decodeFields w =
      match (w.extractLsb' 0 2).toNat with
      | 0 => guardZ (w.extractLsb' 2 7 == 0#7) (.popc (w.extractLsb' 29 3) (w.extractLsb' 16 7) (w.extractLsb' 9 7))
      | 1 => guardZ (w.extractLsb' 2 7 == 0#7) (.brev (w.extractLsb' 29 3) (w.extractLsb' 16 7) (w.extractLsb' 9 7))
      | 2 => guardZ (w.extractLsb' 2 7 == 0#7) (.bswap (w.extractLsb' 29 3) (w.extractLsb' 16 7) (w.extractLsb' 9 7))
      | _ => illegal := by
  unfold decodeFields
  rw [h]
  rfl

theorem decode_0x05 (w : BitVec 32) (h : w.extractLsb' 23 6 = 0x05#6) :
    decodeFields w =
      match (w.extractLsb' 0 2).toNat with
      | 0 => .ok (.mul (w.extractLsb' 29 3) (w.extractLsb' 16 7) (w.extractLsb' 9 7) (w.extractLsb' 2 7))
      | 1 => .ok (.mulhs (w.extractLsb' 29 3) (w.extractLsb' 16 7) (w.extractLsb' 9 7) (w.extractLsb' 2 7))
      | 2 => .ok (.mulhu (w.extractLsb' 29 3) (w.extractLsb' 16 7) (w.extractLsb' 9 7) (w.extractLsb' 2 7))
      | 3 => .ok (.mulhsu (w.extractLsb' 29 3) (w.extractLsb' 16 7) (w.extractLsb' 9 7) (w.extractLsb' 2 7))
      | _ => illegal := by
  unfold decodeFields
  rw [h]
  rfl

theorem decode_0x06 (w : BitVec 32) (h : w.extractLsb' 23 6 = 0x06#6) :
    decodeFields w =
      match (w.extractLsb' 0 2).toNat with
      | 0 => .ok (.divs (w.extractLsb' 29 3) (w.extractLsb' 16 7) (w.extractLsb' 9 7) (w.extractLsb' 2 7))
      | 1 => .ok (.divu (w.extractLsb' 29 3) (w.extractLsb' 16 7) (w.extractLsb' 9 7) (w.extractLsb' 2 7))
      | 2 => .ok (.rems (w.extractLsb' 29 3) (w.extractLsb' 16 7) (w.extractLsb' 9 7) (w.extractLsb' 2 7))
      | 3 => .ok (.remu (w.extractLsb' 29 3) (w.extractLsb' 16 7) (w.extractLsb' 9 7) (w.extractLsb' 2 7))
      | _ => illegal := by
  unfold decodeFields
  rw [h]
  rfl

theorem decode_0x07 (w : BitVec 32) (h : w.extractLsb' 23 6 = 0x07#6) :
    decodeFields w =
      match (w.extractLsb' 0 2).toNat with
      | 0 => .ok (.shadd1 (w.extractLsb' 29 3) (w.extractLsb' 16 7) (w.extractLsb' 9 7) (w.extractLsb' 2 7))
      | 1 => .ok (.shadd2 (w.extractLsb' 29 3) (w.extractLsb' 16 7) (w.extractLsb' 9 7) (w.extractLsb' 2 7))
      | 2 => .ok (.shadd3 (w.extractLsb' 29 3) (w.extractLsb' 16 7) (w.extractLsb' 9 7) (w.extractLsb' 2 7))
      | 3 => .ok (.shadd4 (w.extractLsb' 29 3) (w.extractLsb' 16 7) (w.extractLsb' 9 7) (w.extractLsb' 2 7))
      | _ => illegal := by
  unfold decodeFields
  rw [h]
  rfl

theorem decode_0x08 (w : BitVec 32) (h : w.extractLsb' 23 6 = 0x08#6) :
    decodeFields w =
      match (w.extractLsb' 0 2).toNat with
      | 0 => .ok (.bext (w.extractLsb' 29 3) (w.extractLsb' 16 7) (w.extractLsb' 9 7) (w.extractLsb' 2 7))
      | 1 => .ok (.bins (w.extractLsb' 29 3) (w.extractLsb' 16 7) (w.extractLsb' 9 7) (w.extractLsb' 2 7))
      | _ => illegal := by
  unfold decodeFields
  rw [h]
  rfl

theorem decode_0x09 (w : BitVec 32) (h : w.extractLsb' 23 6 = 0x09#6) :
    decodeFields w = .ok (.addi (w.extractLsb' 29 3) (w.extractLsb' 16 7) (w.extractLsb' 9 7) (w.extractLsb' 0 9)) := by
  unfold decodeFields
  rw [h]
  rfl

theorem decode_0x0A (w : BitVec 32) (h : w.extractLsb' 23 6 = 0x0A#6) :
    decodeFields w = .ok (.andi (w.extractLsb' 29 3) (w.extractLsb' 16 7) (w.extractLsb' 9 7) (w.extractLsb' 0 9)) := by
  unfold decodeFields
  rw [h]
  rfl

theorem decode_0x0B (w : BitVec 32) (h : w.extractLsb' 23 6 = 0x0B#6) :
    decodeFields w = .ok (.ori (w.extractLsb' 29 3) (w.extractLsb' 16 7) (w.extractLsb' 9 7) (w.extractLsb' 0 9)) := by
  unfold decodeFields
  rw [h]
  rfl

theorem decode_0x0C (w : BitVec 32) (h : w.extractLsb' 23 6 = 0x0C#6) :
    decodeFields w = .ok (.xori (w.extractLsb' 29 3) (w.extractLsb' 16 7) (w.extractLsb' 9 7) (w.extractLsb' 0 9)) := by
  unfold decodeFields
  rw [h]
  rfl

theorem decode_0x0D (w : BitVec 32) (h : w.extractLsb' 23 6 = 0x0D#6) :
    decodeFields w =
      match (w.extractLsb' 7 2).toNat with
      | 0 => guardZ (w.extractLsb' 6 1 == 0#1) (.shli (w.extractLsb' 29 3) (w.extractLsb' 16 7) (w.extractLsb' 9 7) (w.extractLsb' 0 6))
      | 1 => guardZ (w.extractLsb' 6 1 == 0#1) (.shri (w.extractLsb' 29 3) (w.extractLsb' 16 7) (w.extractLsb' 9 7) (w.extractLsb' 0 6))
      | 2 => guardZ (w.extractLsb' 6 1 == 0#1) (.srai (w.extractLsb' 29 3) (w.extractLsb' 16 7) (w.extractLsb' 9 7) (w.extractLsb' 0 6))
      | 3 => guardZ (w.extractLsb' 6 1 == 0#1) (.rotli (w.extractLsb' 29 3) (w.extractLsb' 16 7) (w.extractLsb' 9 7) (w.extractLsb' 0 6))
      | _ => illegal := by
  unfold decodeFields
  rw [h]
  rfl

theorem decode_0x0E (w : BitVec 32) (h : w.extractLsb' 23 6 = 0x0E#6) :
    decodeFields w = .ok (.li (w.extractLsb' 29 3) (w.extractLsb' 16 7) (w.extractLsb' 0 16)) := by
  unfold decodeFields
  rw [h]
  rfl

theorem decode_0x0F (w : BitVec 32) (h : w.extractLsb' 23 6 = 0x0F#6) :
    decodeFields w = .ok (.lis (w.extractLsb' 29 3) (w.extractLsb' 16 7) (w.extractLsb' 0 16)) := by
  unfold decodeFields
  rw [h]
  rfl

theorem decode_0x10 (w : BitVec 32) (h : w.extractLsb' 23 6 = 0x10#6) :
    decodeFields w =
      if w.extractLsb' 16 1 == 0#1 then guardZ (w.extractLsb' 0 2 == 0#2) (.cmpReg (w.extractLsb' 29 3) (w.extractLsb' 20 3) (w.extractLsb' 17 3) (w.extractLsb' 9 7) (w.extractLsb' 2 7))
      else .ok (.cmpImm (w.extractLsb' 29 3) (w.extractLsb' 20 3) (w.extractLsb' 17 3) (w.extractLsb' 9 7) (w.extractLsb' 0 9)) := by
  unfold decodeFields
  rw [h]
  rfl

theorem decode_0x11 (w : BitVec 32) (h : w.extractLsb' 23 6 = 0x11#6) :
    decodeFields w = guardZ (w.extractLsb' 0 12 == 0#12) (.plog (w.extractLsb' 29 3) (w.extractLsb' 20 3) (w.extractLsb' 17 3) (w.extractLsb' 14 3) (w.extractLsb' 12 2)) := by
  unfold decodeFields
  rw [h]
  rfl

theorem decode_0x12 (w : BitVec 32) (h : w.extractLsb' 23 6 = 0x12#6) :
    decodeFields w =
      match (w.extractLsb' 0 2).toNat with
      | 0 => guardZ (w.extractLsb' 2 14 == 0#14) (.pget (w.extractLsb' 29 3) (w.extractLsb' 16 7))
      | 1 => guardZ (w.extractLsb' 2 7 == 0#7 && w.extractLsb' 16 7 == 0#7) (.pset (w.extractLsb' 29 3) (w.extractLsb' 9 7))
      | _ => illegal := by
  unfold decodeFields
  rw [h]
  rfl

theorem decode_0x13 (w : BitVec 32) (h : w.extractLsb' 23 6 = 0x13#6) :
    decodeFields w = .ok (.br (w.extractLsb' 29 3) (w.extractLsb' 0 23)) := by
  unfold decodeFields
  rw [h]
  rfl

theorem decode_0x14 (w : BitVec 32) (h : w.extractLsb' 23 6 = 0x14#6) :
    decodeFields w = .ok (.jal (w.extractLsb' 29 3) (w.extractLsb' 16 7) (w.extractLsb' 0 16)) := by
  unfold decodeFields
  rw [h]
  rfl

theorem decode_0x15 (w : BitVec 32) (h : w.extractLsb' 23 6 = 0x15#6) :
    decodeFields w = .ok (.jr (w.extractLsb' 29 3) (w.extractLsb' 16 7) (w.extractLsb' 9 7) (w.extractLsb' 0 9)) := by
  unfold decodeFields
  rw [h]
  rfl

theorem decode_0x16 (w : BitVec 32) (h : w.extractLsb' 23 6 = 0x16#6) :
    decodeFields w = .ok (.ldbn (w.extractLsb' 29 3) (w.extractLsb' 16 7) (w.extractLsb' 9 7) (w.extractLsb' 1 8) (w.extractLsb' 0 1)) := by
  unfold decodeFields
  rw [h]
  rfl

theorem decode_0x17 (w : BitVec 32) (h : w.extractLsb' 23 6 = 0x17#6) :
    decodeFields w = .ok (.ldhn (w.extractLsb' 29 3) (w.extractLsb' 16 7) (w.extractLsb' 9 7) (w.extractLsb' 1 8) (w.extractLsb' 0 1)) := by
  unfold decodeFields
  rw [h]
  rfl

theorem decode_0x18 (w : BitVec 32) (h : w.extractLsb' 23 6 = 0x18#6) :
    decodeFields w = .ok (.ldwn (w.extractLsb' 29 3) (w.extractLsb' 16 7) (w.extractLsb' 9 7) (w.extractLsb' 1 8) (w.extractLsb' 0 1)) := by
  unfold decodeFields
  rw [h]
  rfl

theorem decode_0x19 (w : BitVec 32) (h : w.extractLsb' 23 6 = 0x19#6) :
    decodeFields w = .ok (.ldd (w.extractLsb' 29 3) (w.extractLsb' 16 7) (w.extractLsb' 9 7) (w.extractLsb' 1 8) (w.extractLsb' 0 1)) := by
  unfold decodeFields
  rw [h]
  rfl

theorem decode_0x1A (w : BitVec 32) (h : w.extractLsb' 23 6 = 0x1A#6) :
    decodeFields w = .ok (.ldbs (w.extractLsb' 29 3) (w.extractLsb' 16 7) (w.extractLsb' 9 7) (w.extractLsb' 1 8) (w.extractLsb' 0 1)) := by
  unfold decodeFields
  rw [h]
  rfl

theorem decode_0x1B (w : BitVec 32) (h : w.extractLsb' 23 6 = 0x1B#6) :
    decodeFields w = .ok (.ldhs (w.extractLsb' 29 3) (w.extractLsb' 16 7) (w.extractLsb' 9 7) (w.extractLsb' 1 8) (w.extractLsb' 0 1)) := by
  unfold decodeFields
  rw [h]
  rfl

theorem decode_0x1C (w : BitVec 32) (h : w.extractLsb' 23 6 = 0x1C#6) :
    decodeFields w = .ok (.ldws (w.extractLsb' 29 3) (w.extractLsb' 16 7) (w.extractLsb' 9 7) (w.extractLsb' 1 8) (w.extractLsb' 0 1)) := by
  unfold decodeFields
  rw [h]
  rfl

theorem decode_0x1D (w : BitVec 32) (h : w.extractLsb' 23 6 = 0x1D#6) :
    decodeFields w = .ok (.stb (w.extractLsb' 29 3) (w.extractLsb' 16 7) (w.extractLsb' 9 7) (w.extractLsb' 1 8) (w.extractLsb' 0 1)) := by
  unfold decodeFields
  rw [h]
  rfl

theorem decode_0x1E (w : BitVec 32) (h : w.extractLsb' 23 6 = 0x1E#6) :
    decodeFields w = .ok (.sth (w.extractLsb' 29 3) (w.extractLsb' 16 7) (w.extractLsb' 9 7) (w.extractLsb' 1 8) (w.extractLsb' 0 1)) := by
  unfold decodeFields
  rw [h]
  rfl

theorem decode_0x1F (w : BitVec 32) (h : w.extractLsb' 23 6 = 0x1F#6) :
    decodeFields w = .ok (.stw (w.extractLsb' 29 3) (w.extractLsb' 16 7) (w.extractLsb' 9 7) (w.extractLsb' 1 8) (w.extractLsb' 0 1)) := by
  unfold decodeFields
  rw [h]
  rfl

theorem decode_0x20 (w : BitVec 32) (h : w.extractLsb' 23 6 = 0x20#6) :
    decodeFields w = .ok (.std (w.extractLsb' 29 3) (w.extractLsb' 16 7) (w.extractLsb' 9 7) (w.extractLsb' 1 8) (w.extractLsb' 0 1)) := by
  unfold decodeFields
  rw [h]
  rfl

theorem decode_0x21 (w : BitVec 32) (h : w.extractLsb' 23 6 = 0x21#6) :
    decodeFields w =
      match (w.extractLsb' 0 2).toNat with
      | 0 => guardZ (w.extractLsb' 2 7 == 0#7) (.ldq (w.extractLsb' 29 3) (w.extractLsb' 16 7) (w.extractLsb' 9 7))
      | 1 => guardZ (w.extractLsb' 2 7 == 0#7) (.stq (w.extractLsb' 29 3) (w.extractLsb' 16 7) (w.extractLsb' 9 7))
      | 2 => .ok (.ldfe (w.extractLsb' 29 3) (w.extractLsb' 16 7) (w.extractLsb' 9 7) (w.extractLsb' 2 7))
      | 3 => .ok (.stfe (w.extractLsb' 29 3) (w.extractLsb' 16 7) (w.extractLsb' 9 7) (w.extractLsb' 2 7))
      | _ => illegal := by
  unfold decodeFields
  rw [h]
  rfl

theorem decode_0x22 (w : BitVec 32) (h : w.extractLsb' 23 6 = 0x22#6) :
    decodeFields w =
      match (w.extractLsb' 0 2).toNat with
      | 0 => .ok (.aadd (w.extractLsb' 29 3) (w.extractLsb' 16 7) (w.extractLsb' 9 7) (w.extractLsb' 2 7))
      | 1 => .ok (.aand (w.extractLsb' 29 3) (w.extractLsb' 16 7) (w.extractLsb' 9 7) (w.extractLsb' 2 7))
      | 2 => .ok (.aor (w.extractLsb' 29 3) (w.extractLsb' 16 7) (w.extractLsb' 9 7) (w.extractLsb' 2 7))
      | 3 => .ok (.axor (w.extractLsb' 29 3) (w.extractLsb' 16 7) (w.extractLsb' 9 7) (w.extractLsb' 2 7))
      | _ => illegal := by
  unfold decodeFields
  rw [h]
  rfl

theorem decode_0x23 (w : BitVec 32) (h : w.extractLsb' 23 6 = 0x23#6) :
    decodeFields w =
      match (w.extractLsb' 0 2).toNat with
      | 0 => .ok (.amins (w.extractLsb' 29 3) (w.extractLsb' 16 7) (w.extractLsb' 9 7) (w.extractLsb' 2 7))
      | 1 => .ok (.amaxs (w.extractLsb' 29 3) (w.extractLsb' 16 7) (w.extractLsb' 9 7) (w.extractLsb' 2 7))
      | 2 => .ok (.aminu (w.extractLsb' 29 3) (w.extractLsb' 16 7) (w.extractLsb' 9 7) (w.extractLsb' 2 7))
      | 3 => .ok (.amaxu (w.extractLsb' 29 3) (w.extractLsb' 16 7) (w.extractLsb' 9 7) (w.extractLsb' 2 7))
      | _ => illegal := by
  unfold decodeFields
  rw [h]
  rfl

theorem decode_0x24 (w : BitVec 32) (h : w.extractLsb' 23 6 = 0x24#6) :
    decodeFields w =
      match (w.extractLsb' 0 2).toNat with
      | 0 => .ok (.aswap (w.extractLsb' 29 3) (w.extractLsb' 16 7) (w.extractLsb' 9 7) (w.extractLsb' 2 7))
      | 1 => .ok (.acas (w.extractLsb' 29 3) (w.extractLsb' 16 7) (w.extractLsb' 9 7) (w.extractLsb' 2 7))
      | 2 => .ok (.acasq (w.extractLsb' 29 3) (w.extractLsb' 16 7) (w.extractLsb' 9 7) (w.extractLsb' 2 7))
      | 3 => .ok (.afadd (w.extractLsb' 29 3) (w.extractLsb' 16 7) (w.extractLsb' 9 7) (w.extractLsb' 2 7))
      | _ => illegal := by
  unfold decodeFields
  rw [h]
  rfl

theorem decode_0x25 (w : BitVec 32) (h : w.extractLsb' 23 6 = 0x25#6) :
    decodeFields w = guardZ (w.extractLsb' 6 17 == 0#17) (.fence (w.extractLsb' 29 3) (w.extractLsb' 5 1) (w.extractLsb' 4 1) (w.extractLsb' 3 1) (w.extractLsb' 0 3)) := by
  unfold decodeFields
  rw [h]
  rfl

theorem decode_0x26 (w : BitVec 32) (h : w.extractLsb' 23 6 = 0x26#6) :
    decodeFields w =
      match (w.extractLsb' 0 2).toNat with
      | 0 => guardZ (w.extractLsb' 2 7 == 0#7) (.watch (w.extractLsb' 29 3) (w.extractLsb' 16 7) (w.extractLsb' 9 7))
      | 1 => guardZ (w.extractLsb' 2 7 == 0#7) (.unwatch (w.extractLsb' 29 3) (w.extractLsb' 16 7) (w.extractLsb' 9 7))
      | 2 => guardZ (w.extractLsb' 2 14 == 0#14) (.sleep (w.extractLsb' 29 3) (w.extractLsb' 16 7))
      | 3 => .ok (.waitge (w.extractLsb' 29 3) (w.extractLsb' 16 7) (w.extractLsb' 9 7) (w.extractLsb' 2 7))
      | _ => illegal := by
  unfold decodeFields
  rw [h]
  rfl

theorem decode_0x27 (w : BitVec 32) (h : w.extractLsb' 23 6 = 0x27#6) :
    decodeFields w =
      match (w.extractLsb' 0 2).toNat with
      | 0 => .ok (.wbr (w.extractLsb' 29 3) (w.extractLsb' 16 7) (w.extractLsb' 9 7) (w.extractLsb' 2 7))
      | 1 => .ok (.invr (w.extractLsb' 29 3) (w.extractLsb' 16 7) (w.extractLsb' 9 7) (w.extractLsb' 2 7))
      | 2 => .ok (.wbinvr (w.extractLsb' 29 3) (w.extractLsb' 16 7) (w.extractLsb' 9 7) (w.extractLsb' 2 7))
      | 3 => guardZ (w.extractLsb' 16 7 == 0#7) (.prefr (w.extractLsb' 29 3) (w.extractLsb' 9 7) (w.extractLsb' 2 7))
      | _ => illegal := by
  unfold decodeFields
  rw [h]
  rfl

theorem decode_0x28 (w : BitVec 32) (h : w.extractLsb' 23 6 = 0x28#6) :
    decodeFields w =
      match (w.extractLsb' 0 2).toNat with
      | 0 => .ok (.faddD (w.extractLsb' 29 3) (w.extractLsb' 16 7) (w.extractLsb' 9 7) (w.extractLsb' 2 7))
      | 1 => .ok (.fsubD (w.extractLsb' 29 3) (w.extractLsb' 16 7) (w.extractLsb' 9 7) (w.extractLsb' 2 7))
      | 2 => .ok (.fmulD (w.extractLsb' 29 3) (w.extractLsb' 16 7) (w.extractLsb' 9 7) (w.extractLsb' 2 7))
      | 3 => .ok (.fminD (w.extractLsb' 29 3) (w.extractLsb' 16 7) (w.extractLsb' 9 7) (w.extractLsb' 2 7))
      | _ => illegal := by
  unfold decodeFields
  rw [h]
  rfl

theorem decode_0x29 (w : BitVec 32) (h : w.extractLsb' 23 6 = 0x29#6) :
    decodeFields w =
      match (w.extractLsb' 0 2).toNat with
      | 0 => .ok (.fmaxD (w.extractLsb' 29 3) (w.extractLsb' 16 7) (w.extractLsb' 9 7) (w.extractLsb' 2 7))
      | 1 => .ok (.fdivD (w.extractLsb' 29 3) (w.extractLsb' 16 7) (w.extractLsb' 9 7) (w.extractLsb' 2 7))
      | 2 => guardZ (w.extractLsb' 2 7 == 0#7) (.fsqrtD (w.extractLsb' 29 3) (w.extractLsb' 16 7) (w.extractLsb' 9 7))
      | 3 => .ok (.fcvt (w.extractLsb' 29 3) (w.extractLsb' 16 7) (w.extractLsb' 9 7) (w.extractLsb' 2 7))
      | _ => illegal := by
  unfold decodeFields
  rw [h]
  rfl

theorem decode_0x2A (w : BitVec 32) (h : w.extractLsb' 23 6 = 0x2A#6) :
    decodeFields w =
      match (w.extractLsb' 0 2).toNat with
      | 0 => .ok (.faddS (w.extractLsb' 29 3) (w.extractLsb' 16 7) (w.extractLsb' 9 7) (w.extractLsb' 2 7))
      | 1 => .ok (.fsubS (w.extractLsb' 29 3) (w.extractLsb' 16 7) (w.extractLsb' 9 7) (w.extractLsb' 2 7))
      | 2 => .ok (.fmulS (w.extractLsb' 29 3) (w.extractLsb' 16 7) (w.extractLsb' 9 7) (w.extractLsb' 2 7))
      | 3 => .ok (.fminS (w.extractLsb' 29 3) (w.extractLsb' 16 7) (w.extractLsb' 9 7) (w.extractLsb' 2 7))
      | _ => illegal := by
  unfold decodeFields
  rw [h]
  rfl

theorem decode_0x2B (w : BitVec 32) (h : w.extractLsb' 23 6 = 0x2B#6) :
    decodeFields w =
      match (w.extractLsb' 0 2).toNat with
      | 0 => .ok (.fmaxS (w.extractLsb' 29 3) (w.extractLsb' 16 7) (w.extractLsb' 9 7) (w.extractLsb' 2 7))
      | 1 => .ok (.fdivS (w.extractLsb' 29 3) (w.extractLsb' 16 7) (w.extractLsb' 9 7) (w.extractLsb' 2 7))
      | 2 => guardZ (w.extractLsb' 2 7 == 0#7) (.fsqrtS (w.extractLsb' 29 3) (w.extractLsb' 16 7) (w.extractLsb' 9 7))
      | 3 => guardZ (w.extractLsb' 2 7 == 0#7) (.fclass (w.extractLsb' 29 3) (w.extractLsb' 16 7) (w.extractLsb' 9 7))
      | _ => illegal := by
  unfold decodeFields
  rw [h]
  rfl

theorem decode_0x2C (w : BitVec 32) (h : w.extractLsb' 23 6 = 0x2C#6) :
    decodeFields w =
      match (w.extractLsb' 0 2).toNat with
      | 0 => .ok (.fmaD (w.extractLsb' 29 3) (w.extractLsb' 16 7) (w.extractLsb' 9 7) (w.extractLsb' 2 7))
      | 1 => .ok (.fmaS (w.extractLsb' 29 3) (w.extractLsb' 16 7) (w.extractLsb' 9 7) (w.extractLsb' 2 7))
      | 2 => .ok (.fmsD (w.extractLsb' 29 3) (w.extractLsb' 16 7) (w.extractLsb' 9 7) (w.extractLsb' 2 7))
      | 3 => .ok (.fmsS (w.extractLsb' 29 3) (w.extractLsb' 16 7) (w.extractLsb' 9 7) (w.extractLsb' 2 7))
      | _ => illegal := by
  unfold decodeFields
  rw [h]
  rfl

theorem decode_0x2D (w : BitVec 32) (h : w.extractLsb' 23 6 = 0x2D#6) :
    decodeFields w = if w.extractLsb' 16 1 == 0#1 then guardZ (w.extractLsb' 0 2 == 0#2) (.fcmp (w.extractLsb' 29 3) (w.extractLsb' 20 3) (w.extractLsb' 17 3) (w.extractLsb' 9 7) (w.extractLsb' 2 7)) else illegal := by
  unfold decodeFields
  rw [h]
  rfl

theorem decode_0x2E (w : BitVec 32) (h : w.extractLsb' 23 6 = 0x2E#6) :
    decodeFields w =
      match (w.extractLsb' 0 2).toNat with
      | 0 => .ok (.spawn (w.extractLsb' 29 3) (w.extractLsb' 16 7) (w.extractLsb' 9 7) (w.extractLsb' 2 7))
      | 1 => guardZ (w.extractLsb' 2 21 == 0#21) (.quit (w.extractLsb' 29 3))
      | 2 => guardZ (w.extractLsb' 2 7 == 0#7 && w.extractLsb' 16 7 == 0#7) (.migr (w.extractLsb' 29 3) (w.extractLsb' 9 7))
      | 3 => .ok (.send (w.extractLsb' 29 3) (w.extractLsb' 16 7) (w.extractLsb' 9 7) (w.extractLsb' 2 7))
      | _ => illegal := by
  unfold decodeFields
  rw [h]
  rfl

theorem decode_0x2F (w : BitVec 32) (h : w.extractLsb' 23 6 = 0x2F#6) :
    decodeFields w =
      match (w.extractLsb' 0 2).toNat with
      | 0 => .ok (.fork (w.extractLsb' 29 3) (w.extractLsb' 16 7) (w.extractLsb' 9 7) (w.extractLsb' 2 7))
      | 1 => guardZ (w.extractLsb' 2 7 == 0#7 && w.extractLsb' 16 7 == 0#7) (.join (w.extractLsb' 29 3) (w.extractLsb' 9 7))
      | 2 => guardZ (w.extractLsb' 2 7 == 0#7) (.wqry (w.extractLsb' 29 3) (w.extractLsb' 16 7) (w.extractLsb' 9 7))
      | 3 => guardZ (w.extractLsb' 2 7 == 0#7) (.launch (w.extractLsb' 29 3) (w.extractLsb' 16 7) (w.extractLsb' 9 7))
      | _ => illegal := by
  unfold decodeFields
  rw [h]
  rfl

theorem decode_0x30 (w : BitVec 32) (h : w.extractLsb' 23 6 = 0x30#6) :
    decodeFields w =
      match (w.extractLsb' 0 2).toNat with
      | 0 => guardZ (w.extractLsb' 2 7 == 0#7) (.bar (w.extractLsb' 29 3) (w.extractLsb' 16 7) (w.extractLsb' 9 7))
      | 1 => guardZ (w.extractLsb' 2 7 == 0#7) (.bard (w.extractLsb' 29 3) (w.extractLsb' 16 7) (w.extractLsb' 9 7))
      | 2 => guardZ (w.extractLsb' 2 7 == 0#7) (.breg (w.extractLsb' 29 3) (w.extractLsb' 16 7) (w.extractLsb' 9 7))
      | 3 => guardZ (w.extractLsb' 2 14 == 0#14) (.chkpt (w.extractLsb' 29 3) (w.extractLsb' 16 7))
      | _ => illegal := by
  unfold decodeFields
  rw [h]
  rfl

theorem decode_0x31 (w : BitVec 32) (h : w.extractLsb' 23 6 = 0x31#6) :
    decodeFields w =
      match (w.extractLsb' 0 2).toNat with
      | 0 => guardZ (w.extractLsb' 2 7 == 0#7) (.tstop (w.extractLsb' 29 3) (w.extractLsb' 16 7) (w.extractLsb' 9 7))
      | 1 => guardZ (w.extractLsb' 2 7 == 0#7) (.tstart (w.extractLsb' 29 3) (w.extractLsb' 16 7) (w.extractLsb' 9 7))
      | 2 => .ok (.tread (w.extractLsb' 29 3) (w.extractLsb' 16 7) (w.extractLsb' 9 7) (w.extractLsb' 2 7))
      | 3 => .ok (.twrite (w.extractLsb' 29 3) (w.extractLsb' 16 7) (w.extractLsb' 9 7) (w.extractLsb' 2 7))
      | _ => illegal := by
  unfold decodeFields
  rw [h]
  rfl

theorem decode_0x32 (w : BitVec 32) (h : w.extractLsb' 23 6 = 0x32#6) :
    decodeFields w = guardZ (w.extractLsb' 9 7 == 0#7) (.gets (w.extractLsb' 29 3) (w.extractLsb' 16 7) (w.extractLsb' 0 9)) := by
  unfold decodeFields
  rw [h]
  rfl

theorem decode_0x33 (w : BitVec 32) (h : w.extractLsb' 23 6 = 0x33#6) :
    decodeFields w = guardZ (w.extractLsb' 16 7 == 0#7) (.sets (w.extractLsb' 29 3) (w.extractLsb' 9 7) (w.extractLsb' 0 9)) := by
  unfold decodeFields
  rw [h]
  rfl

theorem decode_0x34 (w : BitVec 32) (h : w.extractLsb' 23 6 = 0x34#6) :
    decodeFields w =
      match (w.extractLsb' 0 2).toNat with
      | 0 => .ok (.invpg (w.extractLsb' 29 3) (w.extractLsb' 16 7) (w.extractLsb' 9 7) (w.extractLsb' 2 7))
      | 1 => .ok (.selft (w.extractLsb' 29 3) (w.extractLsb' 16 7) (w.extractLsb' 9 7) (w.extractLsb' 2 7))
      | 2 => .ok (.brk (w.extractLsb' 29 3) (w.extractLsb' 2 21))
      | _ => illegal := by
  unfold decodeFields
  rw [h]
  rfl

theorem decode_0x35 (w : BitVec 32) (h : w.extractLsb' 23 6 = 0x35#6) :
    decodeFields w =
      match (w.extractLsb' 0 5).toNat with
      | 0 => .ok (.vadd (w.extractLsb' 29 3) (w.extractLsb' 17 6) (w.extractLsb' 11 6) (w.extractLsb' 5 6))
      | 1 => .ok (.vsub (w.extractLsb' 29 3) (w.extractLsb' 17 6) (w.extractLsb' 11 6) (w.extractLsb' 5 6))
      | 2 => .ok (.vmul (w.extractLsb' 29 3) (w.extractLsb' 17 6) (w.extractLsb' 11 6) (w.extractLsb' 5 6))
      | 3 => .ok (.vmulhs (w.extractLsb' 29 3) (w.extractLsb' 17 6) (w.extractLsb' 11 6) (w.extractLsb' 5 6))
      | 4 => .ok (.vmulhu (w.extractLsb' 29 3) (w.extractLsb' 17 6) (w.extractLsb' 11 6) (w.extractLsb' 5 6))
      | 5 => .ok (.vand (w.extractLsb' 29 3) (w.extractLsb' 17 6) (w.extractLsb' 11 6) (w.extractLsb' 5 6))
      | 6 => .ok (.vor (w.extractLsb' 29 3) (w.extractLsb' 17 6) (w.extractLsb' 11 6) (w.extractLsb' 5 6))
      | 7 => .ok (.vxor (w.extractLsb' 29 3) (w.extractLsb' 17 6) (w.extractLsb' 11 6) (w.extractLsb' 5 6))
      | 8 => .ok (.vandn (w.extractLsb' 29 3) (w.extractLsb' 17 6) (w.extractLsb' 11 6) (w.extractLsb' 5 6))
      | 9 => .ok (.vshl (w.extractLsb' 29 3) (w.extractLsb' 17 6) (w.extractLsb' 11 6) (w.extractLsb' 5 6))
      | 10 => .ok (.vshr (w.extractLsb' 29 3) (w.extractLsb' 17 6) (w.extractLsb' 11 6) (w.extractLsb' 5 6))
      | 11 => .ok (.vsra (w.extractLsb' 29 3) (w.extractLsb' 17 6) (w.extractLsb' 11 6) (w.extractLsb' 5 6))
      | 12 => .ok (.vmins (w.extractLsb' 29 3) (w.extractLsb' 17 6) (w.extractLsb' 11 6) (w.extractLsb' 5 6))
      | 13 => .ok (.vmaxs (w.extractLsb' 29 3) (w.extractLsb' 17 6) (w.extractLsb' 11 6) (w.extractLsb' 5 6))
      | 14 => .ok (.vminu (w.extractLsb' 29 3) (w.extractLsb' 17 6) (w.extractLsb' 11 6) (w.extractLsb' 5 6))
      | 15 => .ok (.vmaxu (w.extractLsb' 29 3) (w.extractLsb' 17 6) (w.extractLsb' 11 6) (w.extractLsb' 5 6))
      | 16 => guardZ (w.extractLsb' 5 6 == 0#6) (.vabs (w.extractLsb' 29 3) (w.extractLsb' 17 6) (w.extractLsb' 11 6))
      | 17 => guardZ (w.extractLsb' 5 6 == 0#6) (.vpopc (w.extractLsb' 29 3) (w.extractLsb' 17 6) (w.extractLsb' 11 6))
      | 18 => guardZ (w.extractLsb' 5 6 == 0#6) (.vclz (w.extractLsb' 29 3) (w.extractLsb' 17 6) (w.extractLsb' 11 6))
      | 19 => .ok (.vcmpeq (w.extractLsb' 29 3) (w.extractLsb' 17 6) (w.extractLsb' 11 6) (w.extractLsb' 5 6))
      | 20 => .ok (.vcmplts (w.extractLsb' 29 3) (w.extractLsb' 17 6) (w.extractLsb' 11 6) (w.extractLsb' 5 6))
      | 21 => .ok (.vcmpltu (w.extractLsb' 29 3) (w.extractLsb' 17 6) (w.extractLsb' 11 6) (w.extractLsb' 5 6))
      | 22 => .ok (.vsel (w.extractLsb' 29 3) (w.extractLsb' 17 6) (w.extractLsb' 11 6) (w.extractLsb' 5 6))
      | 23 => .ok (.vshuf (w.extractLsb' 29 3) (w.extractLsb' 17 6) (w.extractLsb' 11 6) (w.extractLsb' 5 6))
      | _ => illegal := by
  unfold decodeFields
  rw [h]
  rfl

theorem decode_0x36 (w : BitVec 32) (h : w.extractLsb' 23 6 = 0x36#6) :
    decodeFields w =
      match (w.extractLsb' 0 4).toNat with
      | 0 => .ok (.vfadd (w.extractLsb' 29 3) (w.extractLsb' 17 6) (w.extractLsb' 11 6) (w.extractLsb' 5 6) (w.extractLsb' 4 1))
      | 1 => .ok (.vfsub (w.extractLsb' 29 3) (w.extractLsb' 17 6) (w.extractLsb' 11 6) (w.extractLsb' 5 6) (w.extractLsb' 4 1))
      | 2 => .ok (.vfmul (w.extractLsb' 29 3) (w.extractLsb' 17 6) (w.extractLsb' 11 6) (w.extractLsb' 5 6) (w.extractLsb' 4 1))
      | 3 => .ok (.vfma (w.extractLsb' 29 3) (w.extractLsb' 17 6) (w.extractLsb' 11 6) (w.extractLsb' 5 6) (w.extractLsb' 4 1))
      | 4 => .ok (.vfms (w.extractLsb' 29 3) (w.extractLsb' 17 6) (w.extractLsb' 11 6) (w.extractLsb' 5 6) (w.extractLsb' 4 1))
      | 5 => .ok (.vfmin (w.extractLsb' 29 3) (w.extractLsb' 17 6) (w.extractLsb' 11 6) (w.extractLsb' 5 6) (w.extractLsb' 4 1))
      | 6 => .ok (.vfmax (w.extractLsb' 29 3) (w.extractLsb' 17 6) (w.extractLsb' 11 6) (w.extractLsb' 5 6) (w.extractLsb' 4 1))
      | 7 => guardZ (w.extractLsb' 5 6 == 0#6) (.vfabs (w.extractLsb' 29 3) (w.extractLsb' 17 6) (w.extractLsb' 11 6) (w.extractLsb' 4 1))
      | 8 => guardZ (w.extractLsb' 5 6 == 0#6) (.vfneg (w.extractLsb' 29 3) (w.extractLsb' 17 6) (w.extractLsb' 11 6) (w.extractLsb' 4 1))
      | 9 => .ok (.vfdiv (w.extractLsb' 29 3) (w.extractLsb' 17 6) (w.extractLsb' 11 6) (w.extractLsb' 5 6) (w.extractLsb' 4 1))
      | 10 => guardZ (w.extractLsb' 5 6 == 0#6) (.vfsqrt (w.extractLsb' 29 3) (w.extractLsb' 17 6) (w.extractLsb' 11 6) (w.extractLsb' 4 1))
      | 11 => .ok (.vfcmpeq (w.extractLsb' 29 3) (w.extractLsb' 17 6) (w.extractLsb' 11 6) (w.extractLsb' 5 6) (w.extractLsb' 4 1))
      | 12 => .ok (.vfcmplt (w.extractLsb' 29 3) (w.extractLsb' 17 6) (w.extractLsb' 11 6) (w.extractLsb' 5 6) (w.extractLsb' 4 1))
      | 13 => .ok (.vfcmple (w.extractLsb' 29 3) (w.extractLsb' 17 6) (w.extractLsb' 11 6) (w.extractLsb' 5 6) (w.extractLsb' 4 1))
      | 14 => .ok (.vfcmpun (w.extractLsb' 29 3) (w.extractLsb' 17 6) (w.extractLsb' 11 6) (w.extractLsb' 5 6) (w.extractLsb' 4 1))
      | _ => illegal := by
  unfold decodeFields
  rw [h]
  rfl

theorem decode_0x37 (w : BitVec 32) (h : w.extractLsb' 23 6 = 0x37#6) :
    decodeFields w =
      match (w.extractLsb' 0 5).toNat with
      | 0 => .ok (.vhaddH (w.extractLsb' 29 3) (w.extractLsb' 17 6) (w.extractLsb' 11 6) (w.extractLsb' 5 6))
      | 1 => .ok (.vhmulH (w.extractLsb' 29 3) (w.extractLsb' 17 6) (w.extractLsb' 11 6) (w.extractLsb' 5 6))
      | 2 => .ok (.vhfmaH (w.extractLsb' 29 3) (w.extractLsb' 17 6) (w.extractLsb' 11 6) (w.extractLsb' 5 6))
      | 3 => .ok (.vhaddB (w.extractLsb' 29 3) (w.extractLsb' 17 6) (w.extractLsb' 11 6) (w.extractLsb' 5 6))
      | 4 => .ok (.vhmulB (w.extractLsb' 29 3) (w.extractLsb' 17 6) (w.extractLsb' 11 6) (w.extractLsb' 5 6))
      | 5 => .ok (.vhfmaB (w.extractLsb' 29 3) (w.extractLsb' 17 6) (w.extractLsb' 11 6) (w.extractLsb' 5 6))
      | 6 => .ok (.vdot8 (w.extractLsb' 29 3) (w.extractLsb' 17 6) (w.extractLsb' 11 6) (w.extractLsb' 5 6))
      | 7 => .ok (.vdots8 (w.extractLsb' 29 3) (w.extractLsb' 17 6) (w.extractLsb' 11 6) (w.extractLsb' 5 6))
      | 8 => .ok (.vcvt (w.extractLsb' 29 3) (w.extractLsb' 17 6) (w.extractLsb' 11 6) (w.extractLsb' 5 6))
      | _ => illegal := by
  unfold decodeFields
  rw [h]
  rfl

theorem decode_0x38 (w : BitVec 32) (h : w.extractLsb' 23 6 = 0x38#6) :
    decodeFields w =
      match (w.extractLsb' 0 3).toNat with
      | 0 => .ok (.vld (w.extractLsb' 29 3) (w.extractLsb' 17 6) (w.extractLsb' 10 7) (w.extractLsb' 3 7))
      | 1 => .ok (.vst (w.extractLsb' 29 3) (w.extractLsb' 17 6) (w.extractLsb' 10 7) (w.extractLsb' 3 7))
      | 2 => .ok (.vlds (w.extractLsb' 29 3) (w.extractLsb' 17 6) (w.extractLsb' 10 7) (w.extractLsb' 3 7))
      | 3 => .ok (.vsts (w.extractLsb' 29 3) (w.extractLsb' 17 6) (w.extractLsb' 10 7) (w.extractLsb' 3 7))
      | 4 => .ok (.vgath (w.extractLsb' 29 3) (w.extractLsb' 17 6) (w.extractLsb' 10 7) (w.extractLsb' 3 7))
      | 5 => .ok (.vscat (w.extractLsb' 29 3) (w.extractLsb' 17 6) (w.extractLsb' 10 7) (w.extractLsb' 3 7))
      | 6 => .ok (.vldb (w.extractLsb' 29 3) (w.extractLsb' 17 6) (w.extractLsb' 10 7) (w.extractLsb' 3 7))
      | 7 => .ok (.vldR (w.extractLsb' 29 3) (w.extractLsb' 17 6) (w.extractLsb' 10 7) (w.extractLsb' 3 7))
      | _ => illegal := by
  unfold decodeFields
  rw [h]
  rfl

theorem decode_0x39 (w : BitVec 32) (h : w.extractLsb' 23 6 = 0x39#6) :
    decodeFields w =
      match (w.extractLsb' 0 4).toNat with
      | 0 => guardZ (w.extractLsb' 4 6 == 0#6) (.vbcast (w.extractLsb' 29 3) (w.extractLsb' 16 7) (w.extractLsb' 10 6))
      | 1 => .ok (.vext (w.extractLsb' 29 3) (w.extractLsb' 16 7) (w.extractLsb' 10 6) (w.extractLsb' 4 6))
      | 2 => .ok (.vins (w.extractLsb' 29 3) (w.extractLsb' 16 7) (w.extractLsb' 10 6) (w.extractLsb' 4 6))
      | 3 => guardZ (w.extractLsb' 4 6 == 0#6) (.vredaddS (w.extractLsb' 29 3) (w.extractLsb' 16 7) (w.extractLsb' 10 6))
      | 4 => guardZ (w.extractLsb' 4 6 == 0#6) (.vredaddI (w.extractLsb' 29 3) (w.extractLsb' 16 7) (w.extractLsb' 10 6))
      | 5 => guardZ (w.extractLsb' 4 6 == 0#6) (.vredmaxS (w.extractLsb' 29 3) (w.extractLsb' 16 7) (w.extractLsb' 10 6))
      | 6 => guardZ (w.extractLsb' 4 6 == 0#6) (.vredminS (w.extractLsb' 29 3) (w.extractLsb' 16 7) (w.extractLsb' 10 6))
      | 7 => guardZ (w.extractLsb' 4 6 == 0#6) (.vmask (w.extractLsb' 29 3) (w.extractLsb' 16 7) (w.extractLsb' 10 6))
      | _ => illegal := by
  unfold decodeFields
  rw [h]
  rfl

theorem decode_0x3A (w : BitVec 32) (h : w.extractLsb' 23 6 = 0x3A#6) :
    decodeFields w =
      match (w.extractLsb' 0 5).toNat with
      | 0 => guardZ (w.extractLsb' 5 6 == 0#6) (.vrcp (w.extractLsb' 29 3) (w.extractLsb' 17 6) (w.extractLsb' 11 6))
      | 1 => guardZ (w.extractLsb' 5 6 == 0#6) (.vrsq (w.extractLsb' 29 3) (w.extractLsb' 17 6) (w.extractLsb' 11 6))
      | 2 => guardZ (w.extractLsb' 5 6 == 0#6) (.vexp2 (w.extractLsb' 29 3) (w.extractLsb' 17 6) (w.extractLsb' 11 6))
      | 3 => guardZ (w.extractLsb' 5 6 == 0#6) (.vlog2 (w.extractLsb' 29 3) (w.extractLsb' 17 6) (w.extractLsb' 11 6))
      | 4 => guardZ (w.extractLsb' 5 6 == 0#6) (.vsin (w.extractLsb' 29 3) (w.extractLsb' 17 6) (w.extractLsb' 11 6))
      | 5 => guardZ (w.extractLsb' 5 6 == 0#6) (.vcos (w.extractLsb' 29 3) (w.extractLsb' 17 6) (w.extractLsb' 11 6))
      | 6 => guardZ (w.extractLsb' 5 6 == 0#6) (.vtanh (w.extractLsb' 29 3) (w.extractLsb' 17 6) (w.extractLsb' 11 6))
      | 7 => guardZ (w.extractLsb' 5 6 == 0#6) (.vsigm (w.extractLsb' 29 3) (w.extractLsb' 17 6) (w.extractLsb' 11 6))
      | _ => illegal := by
  unfold decodeFields
  rw [h]
  rfl

theorem decode_0x3B (w : BitVec 32) (h : w.extractLsb' 23 6 = 0x3B#6) :
    decodeFields w =
      match (w.extractLsb' 0 5).toNat with
      | 0 => .ok (.b2z (w.extractLsb' 29 3) (w.extractLsb' 19 4) (w.extractLsb' 12 7) (w.extractLsb' 5 7))
      | 1 => guardZ (w.extractLsb' 5 7 == 0#7) (.z2b (w.extractLsb' 29 3) (w.extractLsb' 19 4) (w.extractLsb' 12 7))
      | 2 => .ok (.zcls (w.extractLsb' 29 3) (w.extractLsb' 19 4) (w.extractLsb' 12 7) (w.extractLsb' 5 7))
      | 3 => guardZ (w.extractLsb' 16 3 == 0#3) (.zrgn (w.extractLsb' 29 3) (w.extractLsb' 19 4) (w.extractLsb' 12 4) (w.extractLsb' 5 7))
      | 4 => guardZ (w.extractLsb' 5 14 == 0#14) (.zclr (w.extractLsb' 29 3) (w.extractLsb' 19 4))
      | _ => illegal := by
  unfold decodeFields
  rw [h]
  rfl

theorem decode_0x3C (w : BitVec 32) (h : w.extractLsb' 23 6 = 0x3C#6) :
    decodeFields w =
      match (w.extractLsb' 0 7).toNat with
      | 0 => guardZ (w.extractLsb' 7 4 == 0#4) (.zand (w.extractLsb' 29 3) (w.extractLsb' 19 4) (w.extractLsb' 15 4) (w.extractLsb' 11 4))
      | 1 => guardZ (w.extractLsb' 7 4 == 0#4) (.zor (w.extractLsb' 29 3) (w.extractLsb' 19 4) (w.extractLsb' 15 4) (w.extractLsb' 11 4))
      | 2 => guardZ (w.extractLsb' 7 4 == 0#4) (.zxnor (w.extractLsb' 29 3) (w.extractLsb' 19 4) (w.extractLsb' 15 4) (w.extractLsb' 11 4))
      | 3 => guardZ (w.extractLsb' 7 8 == 0#8) (.znot (w.extractLsb' 29 3) (w.extractLsb' 19 4) (w.extractLsb' 15 4))
      | 4 => .ok (.zmux (w.extractLsb' 29 3) (w.extractLsb' 19 4) (w.extractLsb' 15 4) (w.extractLsb' 11 4) (w.extractLsb' 7 4))
      | _ => illegal := by
  unfold decodeFields
  rw [h]
  rfl

theorem decode_0x3D (w : BitVec 32) (h : w.extractLsb' 23 6 = 0x3D#6) :
    decodeFields w =
      match (w.extractLsb' 0 2).toNat with
      | 0 => guardZ (w.extractLsb' 2 7 == 0#7) (.cwst (w.extractLsb' 29 3) (w.extractLsb' 16 7) (w.extractLsb' 9 7))
      | 1 => .ok (.cwadd (w.extractLsb' 29 3) (w.extractLsb' 16 7) (w.extractLsb' 9 7) (w.extractLsb' 2 7))
      | 2 => .ok (.cwcas (w.extractLsb' 29 3) (w.extractLsb' 16 7) (w.extractLsb' 9 7) (w.extractLsb' 2 7))
      | 3 => guardZ (w.extractLsb' 2 7 == 0#7) (.cwfence (w.extractLsb' 29 3) (w.extractLsb' 16 7) (w.extractLsb' 9 7))
      | _ => illegal := by
  unfold decodeFields
  rw [h]
  rfl

end Sys2Proof
end

