-- ==== Sys2Proof/Laws/PerInstr.lean ====
section
/-!
SUPPORT. Laws/PerInstr.lean: decoding the words of a well-formed instruction gives it back (R60, R64, R67), one
lemma a constructor. An event has no words.
-/
namespace Sys2Proof.Laws.Encoding
open Sys2Proof

/-- Decoding the words of a well-formed instruction gives that instruction and leaves no word over. -/
def Statement (i : Instr) : Prop := i.wf = true → encode i ≠ [] → decodeWords (encode i) = .ok (i, [])

/-- An instruction of one word. -/
theorem word_ok {i : Instr} {w : BitVec 32} {m : BitVec 6} (he : encode i = [w])
    (hm : w.extractLsb' 23 6 = m) (h3f : (m == 0x3F#6) = false) (hd : decodeFields w = .ok i) :
    Statement i := by
  intro hw _
  rw [he]
  simp [decodeWords, isTcwHeader, hm, h3f, decodeWord, hd, checkWf, hw, Except.map]

/-- An event. -/
theorem event_ok {i : Instr} (he : encode i = []) : Statement i := fun _ h => absurd he h

/-- A tile command. -/
theorem tcw_ok {i : Instr} {g : BitVec 3} {kind : BitVec 4} {flags : BitVec 16} {c : Cpl}
    {x2 y2 z2 x3 y3 z3 x4 y4 x5 y5 : BitVec 7}
    (he : encode i = encTcw g kind flags c x2 y2 z2 x3 y3 z3 x4 y4 x5 y5)
    (hd : decodeTcwFields (encHeader g kind flags) (encPay c.cpl c.val c.ms c.mode) (encPay x2 y2 z2 0#2)
      (encPay x3 y3 z3 0#2) (encPay x4 y4 0#7 0#2) (encPay x5 y5 0#7 0#2) (encPay 0#7 0#7 0#7 0#2)
      (encPay 0#7 0#7 0#7 0#2) = .ok i) :
    Statement i := by
  intro hw _
  rw [he]
  have hp : ∀ x y z t, isPayload (encPay x y z t) = true := by
    intro x y z t
    simp [isPayload, encPay_29_3, encPay_23_6]
  simp [encTcw, decodeWords, isTcwHeader, encHeader_23_6, encHeader_16_3, decodeTcw, hp, hd, checkWf, hw,
    Except.map]

theorem guard_ok {c : Bool} {i j : Instr} (hc : c = true) (h : i = j) : guardZ c i = .ok j := by
  simp [guardZ, hc, h]

theorem bit_one (b : Bool) : (bit b == 1#1) = b := by cases b <;> rfl

theorem add (g : BitVec 3) (d : BitVec 7) (a : BitVec 7) (b : BitVec 7) : Statement (.add g d a b) :=
  word_ok rfl (encR_23_6 ..) rfl <| (decode_0x00 _ (encR_23_6 ..)).trans <| by
    simp only [encR_0_2, encR_2_7, encR_2_14, encR_2_21, encR_9_7, encR_16_7, encR_23_6, encR_29_3] <;> rfl

theorem sub (g : BitVec 3) (d : BitVec 7) (a : BitVec 7) (b : BitVec 7) : Statement (.sub g d a b) :=
  word_ok rfl (encR_23_6 ..) rfl <| (decode_0x00 _ (encR_23_6 ..)).trans <| by
    simp only [encR_0_2, encR_2_7, encR_2_14, encR_2_21, encR_9_7, encR_16_7, encR_23_6, encR_29_3] <;> rfl

theorem and (g : BitVec 3) (d : BitVec 7) (a : BitVec 7) (b : BitVec 7) : Statement (.and g d a b) :=
  word_ok rfl (encR_23_6 ..) rfl <| (decode_0x00 _ (encR_23_6 ..)).trans <| by
    simp only [encR_0_2, encR_2_7, encR_2_14, encR_2_21, encR_9_7, encR_16_7, encR_23_6, encR_29_3] <;> rfl

theorem or (g : BitVec 3) (d : BitVec 7) (a : BitVec 7) (b : BitVec 7) : Statement (.or g d a b) :=
  word_ok rfl (encR_23_6 ..) rfl <| (decode_0x00 _ (encR_23_6 ..)).trans <| by
    simp only [encR_0_2, encR_2_7, encR_2_14, encR_2_21, encR_9_7, encR_16_7, encR_23_6, encR_29_3] <;> rfl

theorem xor (g : BitVec 3) (d : BitVec 7) (a : BitVec 7) (b : BitVec 7) : Statement (.xor g d a b) :=
  word_ok rfl (encR_23_6 ..) rfl <| (decode_0x01 _ (encR_23_6 ..)).trans <| by
    simp only [encR_0_2, encR_2_7, encR_2_14, encR_2_21, encR_9_7, encR_16_7, encR_23_6, encR_29_3] <;> rfl

theorem andn (g : BitVec 3) (d : BitVec 7) (a : BitVec 7) (b : BitVec 7) : Statement (.andn g d a b) :=
  word_ok rfl (encR_23_6 ..) rfl <| (decode_0x01 _ (encR_23_6 ..)).trans <| by
    simp only [encR_0_2, encR_2_7, encR_2_14, encR_2_21, encR_9_7, encR_16_7, encR_23_6, encR_29_3] <;> rfl

theorem shl (g : BitVec 3) (d : BitVec 7) (a : BitVec 7) (b : BitVec 7) : Statement (.shl g d a b) :=
  word_ok rfl (encR_23_6 ..) rfl <| (decode_0x01 _ (encR_23_6 ..)).trans <| by
    simp only [encR_0_2, encR_2_7, encR_2_14, encR_2_21, encR_9_7, encR_16_7, encR_23_6, encR_29_3] <;> rfl

theorem shr (g : BitVec 3) (d : BitVec 7) (a : BitVec 7) (b : BitVec 7) : Statement (.shr g d a b) :=
  word_ok rfl (encR_23_6 ..) rfl <| (decode_0x01 _ (encR_23_6 ..)).trans <| by
    simp only [encR_0_2, encR_2_7, encR_2_14, encR_2_21, encR_9_7, encR_16_7, encR_23_6, encR_29_3] <;> rfl

theorem sra (g : BitVec 3) (d : BitVec 7) (a : BitVec 7) (b : BitVec 7) : Statement (.sra g d a b) :=
  word_ok rfl (encR_23_6 ..) rfl <| (decode_0x02 _ (encR_23_6 ..)).trans <| by
    simp only [encR_0_2, encR_2_7, encR_2_14, encR_2_21, encR_9_7, encR_16_7, encR_23_6, encR_29_3] <;> rfl

theorem rotl (g : BitVec 3) (d : BitVec 7) (a : BitVec 7) (b : BitVec 7) : Statement (.rotl g d a b) :=
  word_ok rfl (encR_23_6 ..) rfl <| (decode_0x02 _ (encR_23_6 ..)).trans <| by
    simp only [encR_0_2, encR_2_7, encR_2_14, encR_2_21, encR_9_7, encR_16_7, encR_23_6, encR_29_3] <;> rfl

theorem mins (g : BitVec 3) (d : BitVec 7) (a : BitVec 7) (b : BitVec 7) : Statement (.mins g d a b) :=
  word_ok rfl (encR_23_6 ..) rfl <| (decode_0x02 _ (encR_23_6 ..)).trans <| by
    simp only [encR_0_2, encR_2_7, encR_2_14, encR_2_21, encR_9_7, encR_16_7, encR_23_6, encR_29_3] <;> rfl

theorem maxs (g : BitVec 3) (d : BitVec 7) (a : BitVec 7) (b : BitVec 7) : Statement (.maxs g d a b) :=
  word_ok rfl (encR_23_6 ..) rfl <| (decode_0x02 _ (encR_23_6 ..)).trans <| by
    simp only [encR_0_2, encR_2_7, encR_2_14, encR_2_21, encR_9_7, encR_16_7, encR_23_6, encR_29_3] <;> rfl

theorem minu (g : BitVec 3) (d : BitVec 7) (a : BitVec 7) (b : BitVec 7) : Statement (.minu g d a b) :=
  word_ok rfl (encR_23_6 ..) rfl <| (decode_0x03 _ (encR_23_6 ..)).trans <| by
    simp only [encR_0_2, encR_2_7, encR_2_14, encR_2_21, encR_9_7, encR_16_7, encR_23_6, encR_29_3] <;> rfl

theorem maxu (g : BitVec 3) (d : BitVec 7) (a : BitVec 7) (b : BitVec 7) : Statement (.maxu g d a b) :=
  word_ok rfl (encR_23_6 ..) rfl <| (decode_0x03 _ (encR_23_6 ..)).trans <| by
    simp only [encR_0_2, encR_2_7, encR_2_14, encR_2_21, encR_9_7, encR_16_7, encR_23_6, encR_29_3] <;> rfl

theorem clz (g : BitVec 3) (d : BitVec 7) (a : BitVec 7) : Statement (.clz g d a) :=
  word_ok rfl (encR_23_6 ..) rfl <| (decode_0x03 _ (encR_23_6 ..)).trans <| by
    simp only [encR_0_2, encR_2_7, encR_2_14, encR_2_21, encR_9_7, encR_16_7, encR_23_6, encR_29_3] <;> rfl

theorem ctz (g : BitVec 3) (d : BitVec 7) (a : BitVec 7) : Statement (.ctz g d a) :=
  word_ok rfl (encR_23_6 ..) rfl <| (decode_0x03 _ (encR_23_6 ..)).trans <| by
    simp only [encR_0_2, encR_2_7, encR_2_14, encR_2_21, encR_9_7, encR_16_7, encR_23_6, encR_29_3] <;> rfl

theorem popc (g : BitVec 3) (d : BitVec 7) (a : BitVec 7) : Statement (.popc g d a) :=
  word_ok rfl (encR_23_6 ..) rfl <| (decode_0x04 _ (encR_23_6 ..)).trans <| by
    simp only [encR_0_2, encR_2_7, encR_2_14, encR_2_21, encR_9_7, encR_16_7, encR_23_6, encR_29_3] <;> rfl

theorem brev (g : BitVec 3) (d : BitVec 7) (a : BitVec 7) : Statement (.brev g d a) :=
  word_ok rfl (encR_23_6 ..) rfl <| (decode_0x04 _ (encR_23_6 ..)).trans <| by
    simp only [encR_0_2, encR_2_7, encR_2_14, encR_2_21, encR_9_7, encR_16_7, encR_23_6, encR_29_3] <;> rfl

theorem bswap (g : BitVec 3) (d : BitVec 7) (a : BitVec 7) : Statement (.bswap g d a) :=
  word_ok rfl (encR_23_6 ..) rfl <| (decode_0x04 _ (encR_23_6 ..)).trans <| by
    simp only [encR_0_2, encR_2_7, encR_2_14, encR_2_21, encR_9_7, encR_16_7, encR_23_6, encR_29_3] <;> rfl

theorem mul (g : BitVec 3) (d : BitVec 7) (a : BitVec 7) (b : BitVec 7) : Statement (.mul g d a b) :=
  word_ok rfl (encR_23_6 ..) rfl <| (decode_0x05 _ (encR_23_6 ..)).trans <| by
    simp only [encR_0_2, encR_2_7, encR_2_14, encR_2_21, encR_9_7, encR_16_7, encR_23_6, encR_29_3] <;> rfl

theorem mulhs (g : BitVec 3) (d : BitVec 7) (a : BitVec 7) (b : BitVec 7) : Statement (.mulhs g d a b) :=
  word_ok rfl (encR_23_6 ..) rfl <| (decode_0x05 _ (encR_23_6 ..)).trans <| by
    simp only [encR_0_2, encR_2_7, encR_2_14, encR_2_21, encR_9_7, encR_16_7, encR_23_6, encR_29_3] <;> rfl

theorem mulhu (g : BitVec 3) (d : BitVec 7) (a : BitVec 7) (b : BitVec 7) : Statement (.mulhu g d a b) :=
  word_ok rfl (encR_23_6 ..) rfl <| (decode_0x05 _ (encR_23_6 ..)).trans <| by
    simp only [encR_0_2, encR_2_7, encR_2_14, encR_2_21, encR_9_7, encR_16_7, encR_23_6, encR_29_3] <;> rfl

theorem mulhsu (g : BitVec 3) (d : BitVec 7) (a : BitVec 7) (b : BitVec 7) : Statement (.mulhsu g d a b) :=
  word_ok rfl (encR_23_6 ..) rfl <| (decode_0x05 _ (encR_23_6 ..)).trans <| by
    simp only [encR_0_2, encR_2_7, encR_2_14, encR_2_21, encR_9_7, encR_16_7, encR_23_6, encR_29_3] <;> rfl

theorem divs (g : BitVec 3) (d : BitVec 7) (a : BitVec 7) (b : BitVec 7) : Statement (.divs g d a b) :=
  word_ok rfl (encR_23_6 ..) rfl <| (decode_0x06 _ (encR_23_6 ..)).trans <| by
    simp only [encR_0_2, encR_2_7, encR_2_14, encR_2_21, encR_9_7, encR_16_7, encR_23_6, encR_29_3] <;> rfl

theorem divu (g : BitVec 3) (d : BitVec 7) (a : BitVec 7) (b : BitVec 7) : Statement (.divu g d a b) :=
  word_ok rfl (encR_23_6 ..) rfl <| (decode_0x06 _ (encR_23_6 ..)).trans <| by
    simp only [encR_0_2, encR_2_7, encR_2_14, encR_2_21, encR_9_7, encR_16_7, encR_23_6, encR_29_3] <;> rfl

theorem rems (g : BitVec 3) (d : BitVec 7) (a : BitVec 7) (b : BitVec 7) : Statement (.rems g d a b) :=
  word_ok rfl (encR_23_6 ..) rfl <| (decode_0x06 _ (encR_23_6 ..)).trans <| by
    simp only [encR_0_2, encR_2_7, encR_2_14, encR_2_21, encR_9_7, encR_16_7, encR_23_6, encR_29_3] <;> rfl

theorem remu (g : BitVec 3) (d : BitVec 7) (a : BitVec 7) (b : BitVec 7) : Statement (.remu g d a b) :=
  word_ok rfl (encR_23_6 ..) rfl <| (decode_0x06 _ (encR_23_6 ..)).trans <| by
    simp only [encR_0_2, encR_2_7, encR_2_14, encR_2_21, encR_9_7, encR_16_7, encR_23_6, encR_29_3] <;> rfl

theorem shadd1 (g : BitVec 3) (d : BitVec 7) (a : BitVec 7) (b : BitVec 7) : Statement (.shadd1 g d a b) :=
  word_ok rfl (encR_23_6 ..) rfl <| (decode_0x07 _ (encR_23_6 ..)).trans <| by
    simp only [encR_0_2, encR_2_7, encR_2_14, encR_2_21, encR_9_7, encR_16_7, encR_23_6, encR_29_3] <;> rfl

theorem shadd2 (g : BitVec 3) (d : BitVec 7) (a : BitVec 7) (b : BitVec 7) : Statement (.shadd2 g d a b) :=
  word_ok rfl (encR_23_6 ..) rfl <| (decode_0x07 _ (encR_23_6 ..)).trans <| by
    simp only [encR_0_2, encR_2_7, encR_2_14, encR_2_21, encR_9_7, encR_16_7, encR_23_6, encR_29_3] <;> rfl

theorem shadd3 (g : BitVec 3) (d : BitVec 7) (a : BitVec 7) (b : BitVec 7) : Statement (.shadd3 g d a b) :=
  word_ok rfl (encR_23_6 ..) rfl <| (decode_0x07 _ (encR_23_6 ..)).trans <| by
    simp only [encR_0_2, encR_2_7, encR_2_14, encR_2_21, encR_9_7, encR_16_7, encR_23_6, encR_29_3] <;> rfl

theorem shadd4 (g : BitVec 3) (d : BitVec 7) (a : BitVec 7) (b : BitVec 7) : Statement (.shadd4 g d a b) :=
  word_ok rfl (encR_23_6 ..) rfl <| (decode_0x07 _ (encR_23_6 ..)).trans <| by
    simp only [encR_0_2, encR_2_7, encR_2_14, encR_2_21, encR_9_7, encR_16_7, encR_23_6, encR_29_3] <;> rfl

theorem bext (g : BitVec 3) (d : BitVec 7) (a : BitVec 7) (b : BitVec 7) : Statement (.bext g d a b) :=
  word_ok rfl (encR_23_6 ..) rfl <| (decode_0x08 _ (encR_23_6 ..)).trans <| by
    simp only [encR_0_2, encR_2_7, encR_2_14, encR_2_21, encR_9_7, encR_16_7, encR_23_6, encR_29_3] <;> rfl

theorem bins (g : BitVec 3) (d : BitVec 7) (a : BitVec 7) (b : BitVec 7) : Statement (.bins g d a b) :=
  word_ok rfl (encR_23_6 ..) rfl <| (decode_0x08 _ (encR_23_6 ..)).trans <| by
    simp only [encR_0_2, encR_2_7, encR_2_14, encR_2_21, encR_9_7, encR_16_7, encR_23_6, encR_29_3] <;> rfl

theorem addi (g : BitVec 3) (d : BitVec 7) (a : BitVec 7) (i : BitVec 9) : Statement (.addi g d a i) :=
  word_ok rfl (encI_23_6 ..) rfl <| (decode_0x09 _ (encI_23_6 ..)).trans <| by
    simp only [encI_0_9, encI_9_7, encI_16_7, encI_23_6, encI_29_3] <;> rfl

theorem andi (g : BitVec 3) (d : BitVec 7) (a : BitVec 7) (i : BitVec 9) : Statement (.andi g d a i) :=
  word_ok rfl (encI_23_6 ..) rfl <| (decode_0x0A _ (encI_23_6 ..)).trans <| by
    simp only [encI_0_9, encI_9_7, encI_16_7, encI_23_6, encI_29_3] <;> rfl

theorem ori (g : BitVec 3) (d : BitVec 7) (a : BitVec 7) (i : BitVec 9) : Statement (.ori g d a i) :=
  word_ok rfl (encI_23_6 ..) rfl <| (decode_0x0B _ (encI_23_6 ..)).trans <| by
    simp only [encI_0_9, encI_9_7, encI_16_7, encI_23_6, encI_29_3] <;> rfl

theorem xori (g : BitVec 3) (d : BitVec 7) (a : BitVec 7) (i : BitVec 9) : Statement (.xori g d a i) :=
  word_ok rfl (encI_23_6 ..) rfl <| (decode_0x0C _ (encI_23_6 ..)).trans <| by
    simp only [encI_0_9, encI_9_7, encI_16_7, encI_23_6, encI_29_3] <;> rfl

theorem shli (g : BitVec 3) (d : BitVec 7) (a : BitVec 7) (n : BitVec 6) : Statement (.shli g d a n) :=
  word_ok rfl (encShi_23_6 ..) rfl <| (decode_0x0D _ (encShi_23_6 ..)).trans <| by
    simp only [encShi_0_6, encShi_6_1, encShi_7_2, encShi_9_7, encShi_16_7, encShi_23_6, encShi_29_3] <;> rfl

theorem shri (g : BitVec 3) (d : BitVec 7) (a : BitVec 7) (n : BitVec 6) : Statement (.shri g d a n) :=
  word_ok rfl (encShi_23_6 ..) rfl <| (decode_0x0D _ (encShi_23_6 ..)).trans <| by
    simp only [encShi_0_6, encShi_6_1, encShi_7_2, encShi_9_7, encShi_16_7, encShi_23_6, encShi_29_3] <;> rfl

theorem srai (g : BitVec 3) (d : BitVec 7) (a : BitVec 7) (n : BitVec 6) : Statement (.srai g d a n) :=
  word_ok rfl (encShi_23_6 ..) rfl <| (decode_0x0D _ (encShi_23_6 ..)).trans <| by
    simp only [encShi_0_6, encShi_6_1, encShi_7_2, encShi_9_7, encShi_16_7, encShi_23_6, encShi_29_3] <;> rfl

theorem rotli (g : BitVec 3) (d : BitVec 7) (a : BitVec 7) (n : BitVec 6) : Statement (.rotli g d a n) :=
  word_ok rfl (encShi_23_6 ..) rfl <| (decode_0x0D _ (encShi_23_6 ..)).trans <| by
    simp only [encShi_0_6, encShi_6_1, encShi_7_2, encShi_9_7, encShi_16_7, encShi_23_6, encShi_29_3] <;> rfl

theorem li (g : BitVec 3) (d : BitVec 7) (i : BitVec 16) : Statement (.li g d i) :=
  word_ok rfl (encL_23_6 ..) rfl <| (decode_0x0E _ (encL_23_6 ..)).trans <| by
    simp only [encL_0_16, encL_16_7, encL_23_6, encL_29_3] <;> rfl

theorem lis (g : BitVec 3) (d : BitVec 7) (i : BitVec 16) : Statement (.lis g d i) :=
  word_ok rfl (encL_23_6 ..) rfl <| (decode_0x0F _ (encL_23_6 ..)).trans <| by
    simp only [encL_0_16, encL_16_7, encL_23_6, encL_29_3] <;> rfl

theorem cmpReg (g : BitVec 3) (p : BitVec 3) (c : BitVec 3) (a : BitVec 7) (b : BitVec 7) : Statement (.cmpReg g p c a b) :=
  word_ok rfl (encP_23_6 ..) rfl <| (decode_0x10 _ (encP_23_6 ..)).trans <| by
    simp only [encP_0_2, encP_2_7, encP_9_7, encP_16_1, encP_17_3, encP_20_3, encP_23_6, encP_29_3] <;> rfl

theorem cmpImm (g : BitVec 3) (p : BitVec 3) (c : BitVec 3) (a : BitVec 7) (i : BitVec 9) : Statement (.cmpImm g p c a i) :=
  word_ok rfl (encPI_23_6 ..) rfl <| (decode_0x10 _ (encPI_23_6 ..)).trans <| by
    simp only [encPI_0_9, encPI_9_7, encPI_16_1, encPI_17_3, encPI_20_3, encPI_23_6, encPI_29_3] <;> rfl

theorem plog (g : BitVec 3) (p : BitVec 3) (x : BitVec 3) (y : BitVec 3) (o : BitVec 2) : Statement (.plog g p x y o) :=
  word_ok rfl (encPlog_23_6 ..) rfl <| (decode_0x11 _ (encPlog_23_6 ..)).trans <| by
    simp only [encPlog_0_12, encPlog_12_2, encPlog_14_3, encPlog_17_3, encPlog_20_3, encPlog_23_6, encPlog_29_3] <;> rfl

theorem pget (g : BitVec 3) (d : BitVec 7) : Statement (.pget g d) :=
  word_ok rfl (encR_23_6 ..) rfl <| (decode_0x12 _ (encR_23_6 ..)).trans <| by
    simp only [encR_0_2, encR_2_7, encR_2_14, encR_2_21, encR_9_7, encR_16_7, encR_23_6, encR_29_3] <;> rfl

theorem pset (g : BitVec 3) (a : BitVec 7) : Statement (.pset g a) :=
  word_ok rfl (encR_23_6 ..) rfl <| (decode_0x12 _ (encR_23_6 ..)).trans <| by
    simp only [encR_0_2, encR_2_7, encR_2_14, encR_2_21, encR_9_7, encR_16_7, encR_23_6, encR_29_3] <;> rfl

theorem br (g : BitVec 3) (o : BitVec 23) : Statement (.br g o) :=
  word_ok rfl (encB_23_6 ..) rfl <| (decode_0x13 _ (encB_23_6 ..)).trans <| by
    simp only [encB_0_23, encB_23_6, encB_29_3] <;> rfl

theorem jal (g : BitVec 3) (d : BitVec 7) (i : BitVec 16) : Statement (.jal g d i) :=
  word_ok rfl (encL_23_6 ..) rfl <| (decode_0x14 _ (encL_23_6 ..)).trans <| by
    simp only [encL_0_16, encL_16_7, encL_23_6, encL_29_3] <;> rfl

theorem jr (g : BitVec 3) (d : BitVec 7) (a : BitVec 7) (i : BitVec 9) : Statement (.jr g d a i) :=
  word_ok rfl (encI_23_6 ..) rfl <| (decode_0x15 _ (encI_23_6 ..)).trans <| by
    simp only [encI_0_9, encI_9_7, encI_16_7, encI_23_6, encI_29_3] <;> rfl

theorem ldbn (g : BitVec 3) (d : BitVec 7) (a : BitVec 7) (o : BitVec 8) (r : BitVec 1) : Statement (.ldbn g d a o r) :=
  word_ok rfl (encM_23_6 ..) rfl <| (decode_0x16 _ (encM_23_6 ..)).trans <| by
    simp only [encM_0_1, encM_1_8, encM_9_7, encM_16_7, encM_23_6, encM_29_3] <;> rfl

theorem ldhn (g : BitVec 3) (d : BitVec 7) (a : BitVec 7) (o : BitVec 8) (r : BitVec 1) : Statement (.ldhn g d a o r) :=
  word_ok rfl (encM_23_6 ..) rfl <| (decode_0x17 _ (encM_23_6 ..)).trans <| by
    simp only [encM_0_1, encM_1_8, encM_9_7, encM_16_7, encM_23_6, encM_29_3] <;> rfl

theorem ldwn (g : BitVec 3) (d : BitVec 7) (a : BitVec 7) (o : BitVec 8) (r : BitVec 1) : Statement (.ldwn g d a o r) :=
  word_ok rfl (encM_23_6 ..) rfl <| (decode_0x18 _ (encM_23_6 ..)).trans <| by
    simp only [encM_0_1, encM_1_8, encM_9_7, encM_16_7, encM_23_6, encM_29_3] <;> rfl

theorem ldd (g : BitVec 3) (d : BitVec 7) (a : BitVec 7) (o : BitVec 8) (r : BitVec 1) : Statement (.ldd g d a o r) :=
  word_ok rfl (encM_23_6 ..) rfl <| (decode_0x19 _ (encM_23_6 ..)).trans <| by
    simp only [encM_0_1, encM_1_8, encM_9_7, encM_16_7, encM_23_6, encM_29_3] <;> rfl

theorem ldbs (g : BitVec 3) (d : BitVec 7) (a : BitVec 7) (o : BitVec 8) (r : BitVec 1) : Statement (.ldbs g d a o r) :=
  word_ok rfl (encM_23_6 ..) rfl <| (decode_0x1A _ (encM_23_6 ..)).trans <| by
    simp only [encM_0_1, encM_1_8, encM_9_7, encM_16_7, encM_23_6, encM_29_3] <;> rfl

theorem ldhs (g : BitVec 3) (d : BitVec 7) (a : BitVec 7) (o : BitVec 8) (r : BitVec 1) : Statement (.ldhs g d a o r) :=
  word_ok rfl (encM_23_6 ..) rfl <| (decode_0x1B _ (encM_23_6 ..)).trans <| by
    simp only [encM_0_1, encM_1_8, encM_9_7, encM_16_7, encM_23_6, encM_29_3] <;> rfl

theorem ldws (g : BitVec 3) (d : BitVec 7) (a : BitVec 7) (o : BitVec 8) (r : BitVec 1) : Statement (.ldws g d a o r) :=
  word_ok rfl (encM_23_6 ..) rfl <| (decode_0x1C _ (encM_23_6 ..)).trans <| by
    simp only [encM_0_1, encM_1_8, encM_9_7, encM_16_7, encM_23_6, encM_29_3] <;> rfl

theorem stb (g : BitVec 3) (d : BitVec 7) (a : BitVec 7) (o : BitVec 8) (r : BitVec 1) : Statement (.stb g d a o r) :=
  word_ok rfl (encM_23_6 ..) rfl <| (decode_0x1D _ (encM_23_6 ..)).trans <| by
    simp only [encM_0_1, encM_1_8, encM_9_7, encM_16_7, encM_23_6, encM_29_3] <;> rfl

theorem sth (g : BitVec 3) (d : BitVec 7) (a : BitVec 7) (o : BitVec 8) (r : BitVec 1) : Statement (.sth g d a o r) :=
  word_ok rfl (encM_23_6 ..) rfl <| (decode_0x1E _ (encM_23_6 ..)).trans <| by
    simp only [encM_0_1, encM_1_8, encM_9_7, encM_16_7, encM_23_6, encM_29_3] <;> rfl

theorem stw (g : BitVec 3) (d : BitVec 7) (a : BitVec 7) (o : BitVec 8) (r : BitVec 1) : Statement (.stw g d a o r) :=
  word_ok rfl (encM_23_6 ..) rfl <| (decode_0x1F _ (encM_23_6 ..)).trans <| by
    simp only [encM_0_1, encM_1_8, encM_9_7, encM_16_7, encM_23_6, encM_29_3] <;> rfl

theorem std (g : BitVec 3) (d : BitVec 7) (a : BitVec 7) (o : BitVec 8) (r : BitVec 1) : Statement (.std g d a o r) :=
  word_ok rfl (encM_23_6 ..) rfl <| (decode_0x20 _ (encM_23_6 ..)).trans <| by
    simp only [encM_0_1, encM_1_8, encM_9_7, encM_16_7, encM_23_6, encM_29_3] <;> rfl

theorem ldq (g : BitVec 3) (d : BitVec 7) (a : BitVec 7) : Statement (.ldq g d a) :=
  word_ok rfl (encR_23_6 ..) rfl <| (decode_0x21 _ (encR_23_6 ..)).trans <| by
    simp only [encR_0_2, encR_2_7, encR_2_14, encR_2_21, encR_9_7, encR_16_7, encR_23_6, encR_29_3] <;> rfl

theorem stq (g : BitVec 3) (d : BitVec 7) (a : BitVec 7) : Statement (.stq g d a) :=
  word_ok rfl (encR_23_6 ..) rfl <| (decode_0x21 _ (encR_23_6 ..)).trans <| by
    simp only [encR_0_2, encR_2_7, encR_2_14, encR_2_21, encR_9_7, encR_16_7, encR_23_6, encR_29_3] <;> rfl

theorem ldfe (g : BitVec 3) (d : BitVec 7) (a : BitVec 7) (b : BitVec 7) : Statement (.ldfe g d a b) :=
  word_ok rfl (encR_23_6 ..) rfl <| (decode_0x21 _ (encR_23_6 ..)).trans <| by
    simp only [encR_0_2, encR_2_7, encR_2_14, encR_2_21, encR_9_7, encR_16_7, encR_23_6, encR_29_3] <;> rfl

theorem stfe (g : BitVec 3) (d : BitVec 7) (a : BitVec 7) (b : BitVec 7) : Statement (.stfe g d a b) :=
  word_ok rfl (encR_23_6 ..) rfl <| (decode_0x21 _ (encR_23_6 ..)).trans <| by
    simp only [encR_0_2, encR_2_7, encR_2_14, encR_2_21, encR_9_7, encR_16_7, encR_23_6, encR_29_3] <;> rfl

theorem aadd (g : BitVec 3) (d : BitVec 7) (a : BitVec 7) (b : BitVec 7) : Statement (.aadd g d a b) :=
  word_ok rfl (encR_23_6 ..) rfl <| (decode_0x22 _ (encR_23_6 ..)).trans <| by
    simp only [encR_0_2, encR_2_7, encR_2_14, encR_2_21, encR_9_7, encR_16_7, encR_23_6, encR_29_3] <;> rfl

theorem aand (g : BitVec 3) (d : BitVec 7) (a : BitVec 7) (b : BitVec 7) : Statement (.aand g d a b) :=
  word_ok rfl (encR_23_6 ..) rfl <| (decode_0x22 _ (encR_23_6 ..)).trans <| by
    simp only [encR_0_2, encR_2_7, encR_2_14, encR_2_21, encR_9_7, encR_16_7, encR_23_6, encR_29_3] <;> rfl

theorem aor (g : BitVec 3) (d : BitVec 7) (a : BitVec 7) (b : BitVec 7) : Statement (.aor g d a b) :=
  word_ok rfl (encR_23_6 ..) rfl <| (decode_0x22 _ (encR_23_6 ..)).trans <| by
    simp only [encR_0_2, encR_2_7, encR_2_14, encR_2_21, encR_9_7, encR_16_7, encR_23_6, encR_29_3] <;> rfl

theorem axor (g : BitVec 3) (d : BitVec 7) (a : BitVec 7) (b : BitVec 7) : Statement (.axor g d a b) :=
  word_ok rfl (encR_23_6 ..) rfl <| (decode_0x22 _ (encR_23_6 ..)).trans <| by
    simp only [encR_0_2, encR_2_7, encR_2_14, encR_2_21, encR_9_7, encR_16_7, encR_23_6, encR_29_3] <;> rfl

theorem amins (g : BitVec 3) (d : BitVec 7) (a : BitVec 7) (b : BitVec 7) : Statement (.amins g d a b) :=
  word_ok rfl (encR_23_6 ..) rfl <| (decode_0x23 _ (encR_23_6 ..)).trans <| by
    simp only [encR_0_2, encR_2_7, encR_2_14, encR_2_21, encR_9_7, encR_16_7, encR_23_6, encR_29_3] <;> rfl

theorem amaxs (g : BitVec 3) (d : BitVec 7) (a : BitVec 7) (b : BitVec 7) : Statement (.amaxs g d a b) :=
  word_ok rfl (encR_23_6 ..) rfl <| (decode_0x23 _ (encR_23_6 ..)).trans <| by
    simp only [encR_0_2, encR_2_7, encR_2_14, encR_2_21, encR_9_7, encR_16_7, encR_23_6, encR_29_3] <;> rfl

theorem aminu (g : BitVec 3) (d : BitVec 7) (a : BitVec 7) (b : BitVec 7) : Statement (.aminu g d a b) :=
  word_ok rfl (encR_23_6 ..) rfl <| (decode_0x23 _ (encR_23_6 ..)).trans <| by
    simp only [encR_0_2, encR_2_7, encR_2_14, encR_2_21, encR_9_7, encR_16_7, encR_23_6, encR_29_3] <;> rfl

theorem amaxu (g : BitVec 3) (d : BitVec 7) (a : BitVec 7) (b : BitVec 7) : Statement (.amaxu g d a b) :=
  word_ok rfl (encR_23_6 ..) rfl <| (decode_0x23 _ (encR_23_6 ..)).trans <| by
    simp only [encR_0_2, encR_2_7, encR_2_14, encR_2_21, encR_9_7, encR_16_7, encR_23_6, encR_29_3] <;> rfl

theorem aswap (g : BitVec 3) (d : BitVec 7) (a : BitVec 7) (b : BitVec 7) : Statement (.aswap g d a b) :=
  word_ok rfl (encR_23_6 ..) rfl <| (decode_0x24 _ (encR_23_6 ..)).trans <| by
    simp only [encR_0_2, encR_2_7, encR_2_14, encR_2_21, encR_9_7, encR_16_7, encR_23_6, encR_29_3] <;> rfl

theorem acas (g : BitVec 3) (d : BitVec 7) (a : BitVec 7) (b : BitVec 7) : Statement (.acas g d a b) :=
  word_ok rfl (encR_23_6 ..) rfl <| (decode_0x24 _ (encR_23_6 ..)).trans <| by
    simp only [encR_0_2, encR_2_7, encR_2_14, encR_2_21, encR_9_7, encR_16_7, encR_23_6, encR_29_3] <;> rfl

theorem acasq (g : BitVec 3) (d : BitVec 7) (a : BitVec 7) (b : BitVec 7) : Statement (.acasq g d a b) :=
  word_ok rfl (encR_23_6 ..) rfl <| (decode_0x24 _ (encR_23_6 ..)).trans <| by
    simp only [encR_0_2, encR_2_7, encR_2_14, encR_2_21, encR_9_7, encR_16_7, encR_23_6, encR_29_3] <;> rfl

theorem afadd (g : BitVec 3) (d : BitVec 7) (a : BitVec 7) (b : BitVec 7) : Statement (.afadd g d a b) :=
  word_ok rfl (encR_23_6 ..) rfl <| (decode_0x24 _ (encR_23_6 ..)).trans <| by
    simp only [encR_0_2, encR_2_7, encR_2_14, encR_2_21, encR_9_7, encR_16_7, encR_23_6, encR_29_3] <;> rfl

theorem fence (g : BitVec 3) (w : BitVec 1) (e : BitVec 1) (r : BitVec 1) (s : BitVec 3) : Statement (.fence g w e r s) :=
  word_ok rfl (encFence_23_6 ..) rfl <| (decode_0x25 _ (encFence_23_6 ..)).trans <| by
    simp only [encFence_0_3, encFence_3_1, encFence_4_1, encFence_5_1, encFence_6_17, encFence_23_6, encFence_29_3] <;> rfl

theorem watch (g : BitVec 3) (d : BitVec 7) (a : BitVec 7) : Statement (.watch g d a) :=
  word_ok rfl (encR_23_6 ..) rfl <| (decode_0x26 _ (encR_23_6 ..)).trans <| by
    simp only [encR_0_2, encR_2_7, encR_2_14, encR_2_21, encR_9_7, encR_16_7, encR_23_6, encR_29_3] <;> rfl

theorem unwatch (g : BitVec 3) (d : BitVec 7) (a : BitVec 7) : Statement (.unwatch g d a) :=
  word_ok rfl (encR_23_6 ..) rfl <| (decode_0x26 _ (encR_23_6 ..)).trans <| by
    simp only [encR_0_2, encR_2_7, encR_2_14, encR_2_21, encR_9_7, encR_16_7, encR_23_6, encR_29_3] <;> rfl

theorem sleep (g : BitVec 3) (d : BitVec 7) : Statement (.sleep g d) :=
  word_ok rfl (encR_23_6 ..) rfl <| (decode_0x26 _ (encR_23_6 ..)).trans <| by
    simp only [encR_0_2, encR_2_7, encR_2_14, encR_2_21, encR_9_7, encR_16_7, encR_23_6, encR_29_3] <;> rfl

theorem waitge (g : BitVec 3) (d : BitVec 7) (a : BitVec 7) (b : BitVec 7) : Statement (.waitge g d a b) :=
  word_ok rfl (encR_23_6 ..) rfl <| (decode_0x26 _ (encR_23_6 ..)).trans <| by
    simp only [encR_0_2, encR_2_7, encR_2_14, encR_2_21, encR_9_7, encR_16_7, encR_23_6, encR_29_3] <;> rfl

theorem wbr (g : BitVec 3) (d : BitVec 7) (a : BitVec 7) (b : BitVec 7) : Statement (.wbr g d a b) :=
  word_ok rfl (encR_23_6 ..) rfl <| (decode_0x27 _ (encR_23_6 ..)).trans <| by
    simp only [encR_0_2, encR_2_7, encR_2_14, encR_2_21, encR_9_7, encR_16_7, encR_23_6, encR_29_3] <;> rfl

theorem invr (g : BitVec 3) (d : BitVec 7) (a : BitVec 7) (b : BitVec 7) : Statement (.invr g d a b) :=
  word_ok rfl (encR_23_6 ..) rfl <| (decode_0x27 _ (encR_23_6 ..)).trans <| by
    simp only [encR_0_2, encR_2_7, encR_2_14, encR_2_21, encR_9_7, encR_16_7, encR_23_6, encR_29_3] <;> rfl

theorem wbinvr (g : BitVec 3) (d : BitVec 7) (a : BitVec 7) (b : BitVec 7) : Statement (.wbinvr g d a b) :=
  word_ok rfl (encR_23_6 ..) rfl <| (decode_0x27 _ (encR_23_6 ..)).trans <| by
    simp only [encR_0_2, encR_2_7, encR_2_14, encR_2_21, encR_9_7, encR_16_7, encR_23_6, encR_29_3] <;> rfl

theorem prefr (g : BitVec 3) (a : BitVec 7) (b : BitVec 7) : Statement (.prefr g a b) :=
  word_ok rfl (encR_23_6 ..) rfl <| (decode_0x27 _ (encR_23_6 ..)).trans <| by
    simp only [encR_0_2, encR_2_7, encR_2_14, encR_2_21, encR_9_7, encR_16_7, encR_23_6, encR_29_3] <;> rfl

theorem faddD (g : BitVec 3) (d : BitVec 7) (a : BitVec 7) (b : BitVec 7) : Statement (.faddD g d a b) :=
  word_ok rfl (encR_23_6 ..) rfl <| (decode_0x28 _ (encR_23_6 ..)).trans <| by
    simp only [encR_0_2, encR_2_7, encR_2_14, encR_2_21, encR_9_7, encR_16_7, encR_23_6, encR_29_3] <;> rfl

theorem fsubD (g : BitVec 3) (d : BitVec 7) (a : BitVec 7) (b : BitVec 7) : Statement (.fsubD g d a b) :=
  word_ok rfl (encR_23_6 ..) rfl <| (decode_0x28 _ (encR_23_6 ..)).trans <| by
    simp only [encR_0_2, encR_2_7, encR_2_14, encR_2_21, encR_9_7, encR_16_7, encR_23_6, encR_29_3] <;> rfl

theorem fmulD (g : BitVec 3) (d : BitVec 7) (a : BitVec 7) (b : BitVec 7) : Statement (.fmulD g d a b) :=
  word_ok rfl (encR_23_6 ..) rfl <| (decode_0x28 _ (encR_23_6 ..)).trans <| by
    simp only [encR_0_2, encR_2_7, encR_2_14, encR_2_21, encR_9_7, encR_16_7, encR_23_6, encR_29_3] <;> rfl

theorem fminD (g : BitVec 3) (d : BitVec 7) (a : BitVec 7) (b : BitVec 7) : Statement (.fminD g d a b) :=
  word_ok rfl (encR_23_6 ..) rfl <| (decode_0x28 _ (encR_23_6 ..)).trans <| by
    simp only [encR_0_2, encR_2_7, encR_2_14, encR_2_21, encR_9_7, encR_16_7, encR_23_6, encR_29_3] <;> rfl

theorem fmaxD (g : BitVec 3) (d : BitVec 7) (a : BitVec 7) (b : BitVec 7) : Statement (.fmaxD g d a b) :=
  word_ok rfl (encR_23_6 ..) rfl <| (decode_0x29 _ (encR_23_6 ..)).trans <| by
    simp only [encR_0_2, encR_2_7, encR_2_14, encR_2_21, encR_9_7, encR_16_7, encR_23_6, encR_29_3] <;> rfl

theorem fdivD (g : BitVec 3) (d : BitVec 7) (a : BitVec 7) (b : BitVec 7) : Statement (.fdivD g d a b) :=
  word_ok rfl (encR_23_6 ..) rfl <| (decode_0x29 _ (encR_23_6 ..)).trans <| by
    simp only [encR_0_2, encR_2_7, encR_2_14, encR_2_21, encR_9_7, encR_16_7, encR_23_6, encR_29_3] <;> rfl

theorem fsqrtD (g : BitVec 3) (d : BitVec 7) (a : BitVec 7) : Statement (.fsqrtD g d a) :=
  word_ok rfl (encR_23_6 ..) rfl <| (decode_0x29 _ (encR_23_6 ..)).trans <| by
    simp only [encR_0_2, encR_2_7, encR_2_14, encR_2_21, encR_9_7, encR_16_7, encR_23_6, encR_29_3] <;> rfl

theorem fcvt (g : BitVec 3) (d : BitVec 7) (a : BitVec 7) (c : BitVec 7) : Statement (.fcvt g d a c) :=
  word_ok rfl (encR_23_6 ..) rfl <| (decode_0x29 _ (encR_23_6 ..)).trans <| by
    simp only [encR_0_2, encR_2_7, encR_2_14, encR_2_21, encR_9_7, encR_16_7, encR_23_6, encR_29_3] <;> rfl

theorem faddS (g : BitVec 3) (d : BitVec 7) (a : BitVec 7) (b : BitVec 7) : Statement (.faddS g d a b) :=
  word_ok rfl (encR_23_6 ..) rfl <| (decode_0x2A _ (encR_23_6 ..)).trans <| by
    simp only [encR_0_2, encR_2_7, encR_2_14, encR_2_21, encR_9_7, encR_16_7, encR_23_6, encR_29_3] <;> rfl

theorem fsubS (g : BitVec 3) (d : BitVec 7) (a : BitVec 7) (b : BitVec 7) : Statement (.fsubS g d a b) :=
  word_ok rfl (encR_23_6 ..) rfl <| (decode_0x2A _ (encR_23_6 ..)).trans <| by
    simp only [encR_0_2, encR_2_7, encR_2_14, encR_2_21, encR_9_7, encR_16_7, encR_23_6, encR_29_3] <;> rfl

theorem fmulS (g : BitVec 3) (d : BitVec 7) (a : BitVec 7) (b : BitVec 7) : Statement (.fmulS g d a b) :=
  word_ok rfl (encR_23_6 ..) rfl <| (decode_0x2A _ (encR_23_6 ..)).trans <| by
    simp only [encR_0_2, encR_2_7, encR_2_14, encR_2_21, encR_9_7, encR_16_7, encR_23_6, encR_29_3] <;> rfl

theorem fminS (g : BitVec 3) (d : BitVec 7) (a : BitVec 7) (b : BitVec 7) : Statement (.fminS g d a b) :=
  word_ok rfl (encR_23_6 ..) rfl <| (decode_0x2A _ (encR_23_6 ..)).trans <| by
    simp only [encR_0_2, encR_2_7, encR_2_14, encR_2_21, encR_9_7, encR_16_7, encR_23_6, encR_29_3] <;> rfl

theorem fmaxS (g : BitVec 3) (d : BitVec 7) (a : BitVec 7) (b : BitVec 7) : Statement (.fmaxS g d a b) :=
  word_ok rfl (encR_23_6 ..) rfl <| (decode_0x2B _ (encR_23_6 ..)).trans <| by
    simp only [encR_0_2, encR_2_7, encR_2_14, encR_2_21, encR_9_7, encR_16_7, encR_23_6, encR_29_3] <;> rfl

theorem fdivS (g : BitVec 3) (d : BitVec 7) (a : BitVec 7) (b : BitVec 7) : Statement (.fdivS g d a b) :=
  word_ok rfl (encR_23_6 ..) rfl <| (decode_0x2B _ (encR_23_6 ..)).trans <| by
    simp only [encR_0_2, encR_2_7, encR_2_14, encR_2_21, encR_9_7, encR_16_7, encR_23_6, encR_29_3] <;> rfl

theorem fsqrtS (g : BitVec 3) (d : BitVec 7) (a : BitVec 7) : Statement (.fsqrtS g d a) :=
  word_ok rfl (encR_23_6 ..) rfl <| (decode_0x2B _ (encR_23_6 ..)).trans <| by
    simp only [encR_0_2, encR_2_7, encR_2_14, encR_2_21, encR_9_7, encR_16_7, encR_23_6, encR_29_3] <;> rfl

theorem fclass (g : BitVec 3) (d : BitVec 7) (a : BitVec 7) : Statement (.fclass g d a) :=
  word_ok rfl (encR_23_6 ..) rfl <| (decode_0x2B _ (encR_23_6 ..)).trans <| by
    simp only [encR_0_2, encR_2_7, encR_2_14, encR_2_21, encR_9_7, encR_16_7, encR_23_6, encR_29_3] <;> rfl

theorem fmaD (g : BitVec 3) (d : BitVec 7) (a : BitVec 7) (b : BitVec 7) : Statement (.fmaD g d a b) :=
  word_ok rfl (encR_23_6 ..) rfl <| (decode_0x2C _ (encR_23_6 ..)).trans <| by
    simp only [encR_0_2, encR_2_7, encR_2_14, encR_2_21, encR_9_7, encR_16_7, encR_23_6, encR_29_3] <;> rfl

theorem fmaS (g : BitVec 3) (d : BitVec 7) (a : BitVec 7) (b : BitVec 7) : Statement (.fmaS g d a b) :=
  word_ok rfl (encR_23_6 ..) rfl <| (decode_0x2C _ (encR_23_6 ..)).trans <| by
    simp only [encR_0_2, encR_2_7, encR_2_14, encR_2_21, encR_9_7, encR_16_7, encR_23_6, encR_29_3] <;> rfl

theorem fmsD (g : BitVec 3) (d : BitVec 7) (a : BitVec 7) (b : BitVec 7) : Statement (.fmsD g d a b) :=
  word_ok rfl (encR_23_6 ..) rfl <| (decode_0x2C _ (encR_23_6 ..)).trans <| by
    simp only [encR_0_2, encR_2_7, encR_2_14, encR_2_21, encR_9_7, encR_16_7, encR_23_6, encR_29_3] <;> rfl

theorem fmsS (g : BitVec 3) (d : BitVec 7) (a : BitVec 7) (b : BitVec 7) : Statement (.fmsS g d a b) :=
  word_ok rfl (encR_23_6 ..) rfl <| (decode_0x2C _ (encR_23_6 ..)).trans <| by
    simp only [encR_0_2, encR_2_7, encR_2_14, encR_2_21, encR_9_7, encR_16_7, encR_23_6, encR_29_3] <;> rfl

theorem fcmp (g : BitVec 3) (p : BitVec 3) (c : BitVec 3) (a : BitVec 7) (b : BitVec 7) : Statement (.fcmp g p c a b) :=
  word_ok rfl (encP_23_6 ..) rfl <| (decode_0x2D _ (encP_23_6 ..)).trans <| by
    simp only [encP_0_2, encP_2_7, encP_9_7, encP_16_1, encP_17_3, encP_20_3, encP_23_6, encP_29_3] <;> rfl

theorem spawn (g : BitVec 3) (d : BitVec 7) (a : BitVec 7) (b : BitVec 7) : Statement (.spawn g d a b) :=
  word_ok rfl (encR_23_6 ..) rfl <| (decode_0x2E _ (encR_23_6 ..)).trans <| by
    simp only [encR_0_2, encR_2_7, encR_2_14, encR_2_21, encR_9_7, encR_16_7, encR_23_6, encR_29_3] <;> rfl

theorem quit (g : BitVec 3) : Statement (.quit g) :=
  word_ok rfl (encR_23_6 ..) rfl <| (decode_0x2E _ (encR_23_6 ..)).trans <| by
    simp only [encR_0_2, encR_2_7, encR_2_14, encR_2_21, encR_9_7, encR_16_7, encR_23_6, encR_29_3] <;> rfl

theorem migr (g : BitVec 3) (a : BitVec 7) : Statement (.migr g a) :=
  word_ok rfl (encR_23_6 ..) rfl <| (decode_0x2E _ (encR_23_6 ..)).trans <| by
    simp only [encR_0_2, encR_2_7, encR_2_14, encR_2_21, encR_9_7, encR_16_7, encR_23_6, encR_29_3] <;> rfl

theorem send (g : BitVec 3) (d : BitVec 7) (a : BitVec 7) (b : BitVec 7) : Statement (.send g d a b) :=
  word_ok rfl (encR_23_6 ..) rfl <| (decode_0x2E _ (encR_23_6 ..)).trans <| by
    simp only [encR_0_2, encR_2_7, encR_2_14, encR_2_21, encR_9_7, encR_16_7, encR_23_6, encR_29_3] <;> rfl

theorem fork (g : BitVec 3) (d : BitVec 7) (a : BitVec 7) (b : BitVec 7) : Statement (.fork g d a b) :=
  word_ok rfl (encR_23_6 ..) rfl <| (decode_0x2F _ (encR_23_6 ..)).trans <| by
    simp only [encR_0_2, encR_2_7, encR_2_14, encR_2_21, encR_9_7, encR_16_7, encR_23_6, encR_29_3] <;> rfl

theorem join (g : BitVec 3) (a : BitVec 7) : Statement (.join g a) :=
  word_ok rfl (encR_23_6 ..) rfl <| (decode_0x2F _ (encR_23_6 ..)).trans <| by
    simp only [encR_0_2, encR_2_7, encR_2_14, encR_2_21, encR_9_7, encR_16_7, encR_23_6, encR_29_3] <;> rfl

theorem wqry (g : BitVec 3) (d : BitVec 7) (a : BitVec 7) : Statement (.wqry g d a) :=
  word_ok rfl (encR_23_6 ..) rfl <| (decode_0x2F _ (encR_23_6 ..)).trans <| by
    simp only [encR_0_2, encR_2_7, encR_2_14, encR_2_21, encR_9_7, encR_16_7, encR_23_6, encR_29_3] <;> rfl

theorem launch (g : BitVec 3) (d : BitVec 7) (a : BitVec 7) : Statement (.launch g d a) :=
  word_ok rfl (encR_23_6 ..) rfl <| (decode_0x2F _ (encR_23_6 ..)).trans <| by
    simp only [encR_0_2, encR_2_7, encR_2_14, encR_2_21, encR_9_7, encR_16_7, encR_23_6, encR_29_3] <;> rfl

theorem bar (g : BitVec 3) (d : BitVec 7) (a : BitVec 7) : Statement (.bar g d a) :=
  word_ok rfl (encR_23_6 ..) rfl <| (decode_0x30 _ (encR_23_6 ..)).trans <| by
    simp only [encR_0_2, encR_2_7, encR_2_14, encR_2_21, encR_9_7, encR_16_7, encR_23_6, encR_29_3] <;> rfl

theorem bard (g : BitVec 3) (d : BitVec 7) (a : BitVec 7) : Statement (.bard g d a) :=
  word_ok rfl (encR_23_6 ..) rfl <| (decode_0x30 _ (encR_23_6 ..)).trans <| by
    simp only [encR_0_2, encR_2_7, encR_2_14, encR_2_21, encR_9_7, encR_16_7, encR_23_6, encR_29_3] <;> rfl

theorem breg (g : BitVec 3) (d : BitVec 7) (a : BitVec 7) : Statement (.breg g d a) :=
  word_ok rfl (encR_23_6 ..) rfl <| (decode_0x30 _ (encR_23_6 ..)).trans <| by
    simp only [encR_0_2, encR_2_7, encR_2_14, encR_2_21, encR_9_7, encR_16_7, encR_23_6, encR_29_3] <;> rfl

theorem chkpt (g : BitVec 3) (d : BitVec 7) : Statement (.chkpt g d) :=
  word_ok rfl (encR_23_6 ..) rfl <| (decode_0x30 _ (encR_23_6 ..)).trans <| by
    simp only [encR_0_2, encR_2_7, encR_2_14, encR_2_21, encR_9_7, encR_16_7, encR_23_6, encR_29_3] <;> rfl

theorem tstop (g : BitVec 3) (d : BitVec 7) (a : BitVec 7) : Statement (.tstop g d a) :=
  word_ok rfl (encR_23_6 ..) rfl <| (decode_0x31 _ (encR_23_6 ..)).trans <| by
    simp only [encR_0_2, encR_2_7, encR_2_14, encR_2_21, encR_9_7, encR_16_7, encR_23_6, encR_29_3] <;> rfl

theorem tstart (g : BitVec 3) (d : BitVec 7) (a : BitVec 7) : Statement (.tstart g d a) :=
  word_ok rfl (encR_23_6 ..) rfl <| (decode_0x31 _ (encR_23_6 ..)).trans <| by
    simp only [encR_0_2, encR_2_7, encR_2_14, encR_2_21, encR_9_7, encR_16_7, encR_23_6, encR_29_3] <;> rfl

theorem tread (g : BitVec 3) (d : BitVec 7) (a : BitVec 7) (b : BitVec 7) : Statement (.tread g d a b) :=
  word_ok rfl (encR_23_6 ..) rfl <| (decode_0x31 _ (encR_23_6 ..)).trans <| by
    simp only [encR_0_2, encR_2_7, encR_2_14, encR_2_21, encR_9_7, encR_16_7, encR_23_6, encR_29_3] <;> rfl

theorem twrite (g : BitVec 3) (d : BitVec 7) (a : BitVec 7) (b : BitVec 7) : Statement (.twrite g d a b) :=
  word_ok rfl (encR_23_6 ..) rfl <| (decode_0x31 _ (encR_23_6 ..)).trans <| by
    simp only [encR_0_2, encR_2_7, encR_2_14, encR_2_21, encR_9_7, encR_16_7, encR_23_6, encR_29_3] <;> rfl

theorem gets (g : BitVec 3) (d : BitVec 7) (s : BitVec 9) : Statement (.gets g d s) :=
  word_ok rfl (encS_23_6 ..) rfl <| (decode_0x32 _ (encS_23_6 ..)).trans <| by
    simp only [encS_0_9, encS_9_7, encS_16_7, encS_23_6, encS_29_3] <;> rfl

theorem sets (g : BitVec 3) (a : BitVec 7) (s : BitVec 9) : Statement (.sets g a s) :=
  word_ok rfl (encS_23_6 ..) rfl <| (decode_0x33 _ (encS_23_6 ..)).trans <| by
    simp only [encS_0_9, encS_9_7, encS_16_7, encS_23_6, encS_29_3] <;> rfl

theorem invpg (g : BitVec 3) (d : BitVec 7) (a : BitVec 7) (b : BitVec 7) : Statement (.invpg g d a b) :=
  word_ok rfl (encR_23_6 ..) rfl <| (decode_0x34 _ (encR_23_6 ..)).trans <| by
    simp only [encR_0_2, encR_2_7, encR_2_14, encR_2_21, encR_9_7, encR_16_7, encR_23_6, encR_29_3] <;> rfl

theorem selft (g : BitVec 3) (d : BitVec 7) (a : BitVec 7) (b : BitVec 7) : Statement (.selft g d a b) :=
  word_ok rfl (encR_23_6 ..) rfl <| (decode_0x34 _ (encR_23_6 ..)).trans <| by
    simp only [encR_0_2, encR_2_7, encR_2_14, encR_2_21, encR_9_7, encR_16_7, encR_23_6, encR_29_3] <;> rfl

theorem brk (g : BitVec 3) (i : BitVec 21) : Statement (.brk g i) :=
  word_ok rfl (encBrk_23_6 ..) rfl <| (decode_0x34 _ (encBrk_23_6 ..)).trans <| by
    simp only [encBrk_0_2, encBrk_2_21, encBrk_23_6, encBrk_29_3] <;> rfl

theorem vadd (g : BitVec 3) (d : BitVec 6) (a : BitVec 6) (b : BitVec 6) : Statement (.vadd g d a b) :=
  word_ok rfl (encV_23_6 ..) rfl <| (decode_0x35 _ (encV_23_6 ..)).trans <| by
    simp only [encV_0_5, encV_5_6, encV_11_6, encV_17_6, encV_23_6, encV_29_3] <;> rfl

theorem vsub (g : BitVec 3) (d : BitVec 6) (a : BitVec 6) (b : BitVec 6) : Statement (.vsub g d a b) :=
  word_ok rfl (encV_23_6 ..) rfl <| (decode_0x35 _ (encV_23_6 ..)).trans <| by
    simp only [encV_0_5, encV_5_6, encV_11_6, encV_17_6, encV_23_6, encV_29_3] <;> rfl

theorem vmul (g : BitVec 3) (d : BitVec 6) (a : BitVec 6) (b : BitVec 6) : Statement (.vmul g d a b) :=
  word_ok rfl (encV_23_6 ..) rfl <| (decode_0x35 _ (encV_23_6 ..)).trans <| by
    simp only [encV_0_5, encV_5_6, encV_11_6, encV_17_6, encV_23_6, encV_29_3] <;> rfl

theorem vmulhs (g : BitVec 3) (d : BitVec 6) (a : BitVec 6) (b : BitVec 6) : Statement (.vmulhs g d a b) :=
  word_ok rfl (encV_23_6 ..) rfl <| (decode_0x35 _ (encV_23_6 ..)).trans <| by
    simp only [encV_0_5, encV_5_6, encV_11_6, encV_17_6, encV_23_6, encV_29_3] <;> rfl

theorem vmulhu (g : BitVec 3) (d : BitVec 6) (a : BitVec 6) (b : BitVec 6) : Statement (.vmulhu g d a b) :=
  word_ok rfl (encV_23_6 ..) rfl <| (decode_0x35 _ (encV_23_6 ..)).trans <| by
    simp only [encV_0_5, encV_5_6, encV_11_6, encV_17_6, encV_23_6, encV_29_3] <;> rfl

theorem vand (g : BitVec 3) (d : BitVec 6) (a : BitVec 6) (b : BitVec 6) : Statement (.vand g d a b) :=
  word_ok rfl (encV_23_6 ..) rfl <| (decode_0x35 _ (encV_23_6 ..)).trans <| by
    simp only [encV_0_5, encV_5_6, encV_11_6, encV_17_6, encV_23_6, encV_29_3] <;> rfl

theorem vor (g : BitVec 3) (d : BitVec 6) (a : BitVec 6) (b : BitVec 6) : Statement (.vor g d a b) :=
  word_ok rfl (encV_23_6 ..) rfl <| (decode_0x35 _ (encV_23_6 ..)).trans <| by
    simp only [encV_0_5, encV_5_6, encV_11_6, encV_17_6, encV_23_6, encV_29_3] <;> rfl

theorem vxor (g : BitVec 3) (d : BitVec 6) (a : BitVec 6) (b : BitVec 6) : Statement (.vxor g d a b) :=
  word_ok rfl (encV_23_6 ..) rfl <| (decode_0x35 _ (encV_23_6 ..)).trans <| by
    simp only [encV_0_5, encV_5_6, encV_11_6, encV_17_6, encV_23_6, encV_29_3] <;> rfl

theorem vandn (g : BitVec 3) (d : BitVec 6) (a : BitVec 6) (b : BitVec 6) : Statement (.vandn g d a b) :=
  word_ok rfl (encV_23_6 ..) rfl <| (decode_0x35 _ (encV_23_6 ..)).trans <| by
    simp only [encV_0_5, encV_5_6, encV_11_6, encV_17_6, encV_23_6, encV_29_3] <;> rfl

theorem vshl (g : BitVec 3) (d : BitVec 6) (a : BitVec 6) (b : BitVec 6) : Statement (.vshl g d a b) :=
  word_ok rfl (encV_23_6 ..) rfl <| (decode_0x35 _ (encV_23_6 ..)).trans <| by
    simp only [encV_0_5, encV_5_6, encV_11_6, encV_17_6, encV_23_6, encV_29_3] <;> rfl

theorem vshr (g : BitVec 3) (d : BitVec 6) (a : BitVec 6) (b : BitVec 6) : Statement (.vshr g d a b) :=
  word_ok rfl (encV_23_6 ..) rfl <| (decode_0x35 _ (encV_23_6 ..)).trans <| by
    simp only [encV_0_5, encV_5_6, encV_11_6, encV_17_6, encV_23_6, encV_29_3] <;> rfl

theorem vsra (g : BitVec 3) (d : BitVec 6) (a : BitVec 6) (b : BitVec 6) : Statement (.vsra g d a b) :=
  word_ok rfl (encV_23_6 ..) rfl <| (decode_0x35 _ (encV_23_6 ..)).trans <| by
    simp only [encV_0_5, encV_5_6, encV_11_6, encV_17_6, encV_23_6, encV_29_3] <;> rfl

theorem vmins (g : BitVec 3) (d : BitVec 6) (a : BitVec 6) (b : BitVec 6) : Statement (.vmins g d a b) :=
  word_ok rfl (encV_23_6 ..) rfl <| (decode_0x35 _ (encV_23_6 ..)).trans <| by
    simp only [encV_0_5, encV_5_6, encV_11_6, encV_17_6, encV_23_6, encV_29_3] <;> rfl

theorem vmaxs (g : BitVec 3) (d : BitVec 6) (a : BitVec 6) (b : BitVec 6) : Statement (.vmaxs g d a b) :=
  word_ok rfl (encV_23_6 ..) rfl <| (decode_0x35 _ (encV_23_6 ..)).trans <| by
    simp only [encV_0_5, encV_5_6, encV_11_6, encV_17_6, encV_23_6, encV_29_3] <;> rfl

theorem vminu (g : BitVec 3) (d : BitVec 6) (a : BitVec 6) (b : BitVec 6) : Statement (.vminu g d a b) :=
  word_ok rfl (encV_23_6 ..) rfl <| (decode_0x35 _ (encV_23_6 ..)).trans <| by
    simp only [encV_0_5, encV_5_6, encV_11_6, encV_17_6, encV_23_6, encV_29_3] <;> rfl

theorem vmaxu (g : BitVec 3) (d : BitVec 6) (a : BitVec 6) (b : BitVec 6) : Statement (.vmaxu g d a b) :=
  word_ok rfl (encV_23_6 ..) rfl <| (decode_0x35 _ (encV_23_6 ..)).trans <| by
    simp only [encV_0_5, encV_5_6, encV_11_6, encV_17_6, encV_23_6, encV_29_3] <;> rfl

theorem vabs (g : BitVec 3) (d : BitVec 6) (a : BitVec 6) : Statement (.vabs g d a) :=
  word_ok rfl (encV_23_6 ..) rfl <| (decode_0x35 _ (encV_23_6 ..)).trans <| by
    simp only [encV_0_5, encV_5_6, encV_11_6, encV_17_6, encV_23_6, encV_29_3] <;> rfl

theorem vpopc (g : BitVec 3) (d : BitVec 6) (a : BitVec 6) : Statement (.vpopc g d a) :=
  word_ok rfl (encV_23_6 ..) rfl <| (decode_0x35 _ (encV_23_6 ..)).trans <| by
    simp only [encV_0_5, encV_5_6, encV_11_6, encV_17_6, encV_23_6, encV_29_3] <;> rfl

theorem vclz (g : BitVec 3) (d : BitVec 6) (a : BitVec 6) : Statement (.vclz g d a) :=
  word_ok rfl (encV_23_6 ..) rfl <| (decode_0x35 _ (encV_23_6 ..)).trans <| by
    simp only [encV_0_5, encV_5_6, encV_11_6, encV_17_6, encV_23_6, encV_29_3] <;> rfl

theorem vcmpeq (g : BitVec 3) (d : BitVec 6) (a : BitVec 6) (b : BitVec 6) : Statement (.vcmpeq g d a b) :=
  word_ok rfl (encV_23_6 ..) rfl <| (decode_0x35 _ (encV_23_6 ..)).trans <| by
    simp only [encV_0_5, encV_5_6, encV_11_6, encV_17_6, encV_23_6, encV_29_3] <;> rfl

theorem vcmplts (g : BitVec 3) (d : BitVec 6) (a : BitVec 6) (b : BitVec 6) : Statement (.vcmplts g d a b) :=
  word_ok rfl (encV_23_6 ..) rfl <| (decode_0x35 _ (encV_23_6 ..)).trans <| by
    simp only [encV_0_5, encV_5_6, encV_11_6, encV_17_6, encV_23_6, encV_29_3] <;> rfl

theorem vcmpltu (g : BitVec 3) (d : BitVec 6) (a : BitVec 6) (b : BitVec 6) : Statement (.vcmpltu g d a b) :=
  word_ok rfl (encV_23_6 ..) rfl <| (decode_0x35 _ (encV_23_6 ..)).trans <| by
    simp only [encV_0_5, encV_5_6, encV_11_6, encV_17_6, encV_23_6, encV_29_3] <;> rfl

theorem vsel (g : BitVec 3) (d : BitVec 6) (a : BitVec 6) (b : BitVec 6) : Statement (.vsel g d a b) :=
  word_ok rfl (encV_23_6 ..) rfl <| (decode_0x35 _ (encV_23_6 ..)).trans <| by
    simp only [encV_0_5, encV_5_6, encV_11_6, encV_17_6, encV_23_6, encV_29_3] <;> rfl

theorem vshuf (g : BitVec 3) (d : BitVec 6) (a : BitVec 6) (b : BitVec 6) : Statement (.vshuf g d a b) :=
  word_ok rfl (encV_23_6 ..) rfl <| (decode_0x35 _ (encV_23_6 ..)).trans <| by
    simp only [encV_0_5, encV_5_6, encV_11_6, encV_17_6, encV_23_6, encV_29_3] <;> rfl

theorem vfadd (g : BitVec 3) (d : BitVec 6) (a : BitVec 6) (b : BitVec 6) (p : BitVec 1) : Statement (.vfadd g d a b p) :=
  word_ok rfl (encVF_23_6 ..) rfl <| (decode_0x36 _ (encVF_23_6 ..)).trans <| by
    simp only [encVF_0_4, encVF_4_1, encVF_5_6, encVF_11_6, encVF_17_6, encVF_23_6, encVF_29_3] <;> rfl

theorem vfsub (g : BitVec 3) (d : BitVec 6) (a : BitVec 6) (b : BitVec 6) (p : BitVec 1) : Statement (.vfsub g d a b p) :=
  word_ok rfl (encVF_23_6 ..) rfl <| (decode_0x36 _ (encVF_23_6 ..)).trans <| by
    simp only [encVF_0_4, encVF_4_1, encVF_5_6, encVF_11_6, encVF_17_6, encVF_23_6, encVF_29_3] <;> rfl

theorem vfmul (g : BitVec 3) (d : BitVec 6) (a : BitVec 6) (b : BitVec 6) (p : BitVec 1) : Statement (.vfmul g d a b p) :=
  word_ok rfl (encVF_23_6 ..) rfl <| (decode_0x36 _ (encVF_23_6 ..)).trans <| by
    simp only [encVF_0_4, encVF_4_1, encVF_5_6, encVF_11_6, encVF_17_6, encVF_23_6, encVF_29_3] <;> rfl

theorem vfma (g : BitVec 3) (d : BitVec 6) (a : BitVec 6) (b : BitVec 6) (p : BitVec 1) : Statement (.vfma g d a b p) :=
  word_ok rfl (encVF_23_6 ..) rfl <| (decode_0x36 _ (encVF_23_6 ..)).trans <| by
    simp only [encVF_0_4, encVF_4_1, encVF_5_6, encVF_11_6, encVF_17_6, encVF_23_6, encVF_29_3] <;> rfl

theorem vfms (g : BitVec 3) (d : BitVec 6) (a : BitVec 6) (b : BitVec 6) (p : BitVec 1) : Statement (.vfms g d a b p) :=
  word_ok rfl (encVF_23_6 ..) rfl <| (decode_0x36 _ (encVF_23_6 ..)).trans <| by
    simp only [encVF_0_4, encVF_4_1, encVF_5_6, encVF_11_6, encVF_17_6, encVF_23_6, encVF_29_3] <;> rfl

theorem vfmin (g : BitVec 3) (d : BitVec 6) (a : BitVec 6) (b : BitVec 6) (p : BitVec 1) : Statement (.vfmin g d a b p) :=
  word_ok rfl (encVF_23_6 ..) rfl <| (decode_0x36 _ (encVF_23_6 ..)).trans <| by
    simp only [encVF_0_4, encVF_4_1, encVF_5_6, encVF_11_6, encVF_17_6, encVF_23_6, encVF_29_3] <;> rfl

theorem vfmax (g : BitVec 3) (d : BitVec 6) (a : BitVec 6) (b : BitVec 6) (p : BitVec 1) : Statement (.vfmax g d a b p) :=
  word_ok rfl (encVF_23_6 ..) rfl <| (decode_0x36 _ (encVF_23_6 ..)).trans <| by
    simp only [encVF_0_4, encVF_4_1, encVF_5_6, encVF_11_6, encVF_17_6, encVF_23_6, encVF_29_3] <;> rfl

theorem vfabs (g : BitVec 3) (d : BitVec 6) (a : BitVec 6) (p : BitVec 1) : Statement (.vfabs g d a p) :=
  word_ok rfl (encVF_23_6 ..) rfl <| (decode_0x36 _ (encVF_23_6 ..)).trans <| by
    simp only [encVF_0_4, encVF_4_1, encVF_5_6, encVF_11_6, encVF_17_6, encVF_23_6, encVF_29_3] <;> rfl

theorem vfneg (g : BitVec 3) (d : BitVec 6) (a : BitVec 6) (p : BitVec 1) : Statement (.vfneg g d a p) :=
  word_ok rfl (encVF_23_6 ..) rfl <| (decode_0x36 _ (encVF_23_6 ..)).trans <| by
    simp only [encVF_0_4, encVF_4_1, encVF_5_6, encVF_11_6, encVF_17_6, encVF_23_6, encVF_29_3] <;> rfl

theorem vfdiv (g : BitVec 3) (d : BitVec 6) (a : BitVec 6) (b : BitVec 6) (p : BitVec 1) : Statement (.vfdiv g d a b p) :=
  word_ok rfl (encVF_23_6 ..) rfl <| (decode_0x36 _ (encVF_23_6 ..)).trans <| by
    simp only [encVF_0_4, encVF_4_1, encVF_5_6, encVF_11_6, encVF_17_6, encVF_23_6, encVF_29_3] <;> rfl

theorem vfsqrt (g : BitVec 3) (d : BitVec 6) (a : BitVec 6) (p : BitVec 1) : Statement (.vfsqrt g d a p) :=
  word_ok rfl (encVF_23_6 ..) rfl <| (decode_0x36 _ (encVF_23_6 ..)).trans <| by
    simp only [encVF_0_4, encVF_4_1, encVF_5_6, encVF_11_6, encVF_17_6, encVF_23_6, encVF_29_3] <;> rfl

theorem vfcmpeq (g : BitVec 3) (d : BitVec 6) (a : BitVec 6) (b : BitVec 6) (p : BitVec 1) : Statement (.vfcmpeq g d a b p) :=
  word_ok rfl (encVF_23_6 ..) rfl <| (decode_0x36 _ (encVF_23_6 ..)).trans <| by
    simp only [encVF_0_4, encVF_4_1, encVF_5_6, encVF_11_6, encVF_17_6, encVF_23_6, encVF_29_3] <;> rfl

theorem vfcmplt (g : BitVec 3) (d : BitVec 6) (a : BitVec 6) (b : BitVec 6) (p : BitVec 1) : Statement (.vfcmplt g d a b p) :=
  word_ok rfl (encVF_23_6 ..) rfl <| (decode_0x36 _ (encVF_23_6 ..)).trans <| by
    simp only [encVF_0_4, encVF_4_1, encVF_5_6, encVF_11_6, encVF_17_6, encVF_23_6, encVF_29_3] <;> rfl

theorem vfcmple (g : BitVec 3) (d : BitVec 6) (a : BitVec 6) (b : BitVec 6) (p : BitVec 1) : Statement (.vfcmple g d a b p) :=
  word_ok rfl (encVF_23_6 ..) rfl <| (decode_0x36 _ (encVF_23_6 ..)).trans <| by
    simp only [encVF_0_4, encVF_4_1, encVF_5_6, encVF_11_6, encVF_17_6, encVF_23_6, encVF_29_3] <;> rfl

theorem vfcmpun (g : BitVec 3) (d : BitVec 6) (a : BitVec 6) (b : BitVec 6) (p : BitVec 1) : Statement (.vfcmpun g d a b p) :=
  word_ok rfl (encVF_23_6 ..) rfl <| (decode_0x36 _ (encVF_23_6 ..)).trans <| by
    simp only [encVF_0_4, encVF_4_1, encVF_5_6, encVF_11_6, encVF_17_6, encVF_23_6, encVF_29_3] <;> rfl

theorem vhaddH (g : BitVec 3) (d : BitVec 6) (a : BitVec 6) (b : BitVec 6) : Statement (.vhaddH g d a b) :=
  word_ok rfl (encV_23_6 ..) rfl <| (decode_0x37 _ (encV_23_6 ..)).trans <| by
    simp only [encV_0_5, encV_5_6, encV_11_6, encV_17_6, encV_23_6, encV_29_3] <;> rfl

theorem vhmulH (g : BitVec 3) (d : BitVec 6) (a : BitVec 6) (b : BitVec 6) : Statement (.vhmulH g d a b) :=
  word_ok rfl (encV_23_6 ..) rfl <| (decode_0x37 _ (encV_23_6 ..)).trans <| by
    simp only [encV_0_5, encV_5_6, encV_11_6, encV_17_6, encV_23_6, encV_29_3] <;> rfl

theorem vhfmaH (g : BitVec 3) (d : BitVec 6) (a : BitVec 6) (b : BitVec 6) : Statement (.vhfmaH g d a b) :=
  word_ok rfl (encV_23_6 ..) rfl <| (decode_0x37 _ (encV_23_6 ..)).trans <| by
    simp only [encV_0_5, encV_5_6, encV_11_6, encV_17_6, encV_23_6, encV_29_3] <;> rfl

theorem vhaddB (g : BitVec 3) (d : BitVec 6) (a : BitVec 6) (b : BitVec 6) : Statement (.vhaddB g d a b) :=
  word_ok rfl (encV_23_6 ..) rfl <| (decode_0x37 _ (encV_23_6 ..)).trans <| by
    simp only [encV_0_5, encV_5_6, encV_11_6, encV_17_6, encV_23_6, encV_29_3] <;> rfl

theorem vhmulB (g : BitVec 3) (d : BitVec 6) (a : BitVec 6) (b : BitVec 6) : Statement (.vhmulB g d a b) :=
  word_ok rfl (encV_23_6 ..) rfl <| (decode_0x37 _ (encV_23_6 ..)).trans <| by
    simp only [encV_0_5, encV_5_6, encV_11_6, encV_17_6, encV_23_6, encV_29_3] <;> rfl

theorem vhfmaB (g : BitVec 3) (d : BitVec 6) (a : BitVec 6) (b : BitVec 6) : Statement (.vhfmaB g d a b) :=
  word_ok rfl (encV_23_6 ..) rfl <| (decode_0x37 _ (encV_23_6 ..)).trans <| by
    simp only [encV_0_5, encV_5_6, encV_11_6, encV_17_6, encV_23_6, encV_29_3] <;> rfl

theorem vdot8 (g : BitVec 3) (d : BitVec 6) (a : BitVec 6) (b : BitVec 6) : Statement (.vdot8 g d a b) :=
  word_ok rfl (encV_23_6 ..) rfl <| (decode_0x37 _ (encV_23_6 ..)).trans <| by
    simp only [encV_0_5, encV_5_6, encV_11_6, encV_17_6, encV_23_6, encV_29_3] <;> rfl

theorem vdots8 (g : BitVec 3) (d : BitVec 6) (a : BitVec 6) (b : BitVec 6) : Statement (.vdots8 g d a b) :=
  word_ok rfl (encV_23_6 ..) rfl <| (decode_0x37 _ (encV_23_6 ..)).trans <| by
    simp only [encV_0_5, encV_5_6, encV_11_6, encV_17_6, encV_23_6, encV_29_3] <;> rfl

theorem vcvt (g : BitVec 3) (d : BitVec 6) (a : BitVec 6) (c : BitVec 6) : Statement (.vcvt g d a c) :=
  word_ok rfl (encV_23_6 ..) rfl <| (decode_0x37 _ (encV_23_6 ..)).trans <| by
    simp only [encV_0_5, encV_5_6, encV_11_6, encV_17_6, encV_23_6, encV_29_3] <;> rfl

theorem vld (g : BitVec 3) (d : BitVec 6) (a : BitVec 7) (b : BitVec 7) : Statement (.vld g d a b) :=
  word_ok rfl (encVM_23_6 ..) rfl <| (decode_0x38 _ (encVM_23_6 ..)).trans <| by
    simp only [encVM_0_3, encVM_3_7, encVM_10_7, encVM_17_6, encVM_23_6, encVM_29_3] <;> rfl

theorem vst (g : BitVec 3) (d : BitVec 6) (a : BitVec 7) (b : BitVec 7) : Statement (.vst g d a b) :=
  word_ok rfl (encVM_23_6 ..) rfl <| (decode_0x38 _ (encVM_23_6 ..)).trans <| by
    simp only [encVM_0_3, encVM_3_7, encVM_10_7, encVM_17_6, encVM_23_6, encVM_29_3] <;> rfl

theorem vlds (g : BitVec 3) (d : BitVec 6) (a : BitVec 7) (b : BitVec 7) : Statement (.vlds g d a b) :=
  word_ok rfl (encVM_23_6 ..) rfl <| (decode_0x38 _ (encVM_23_6 ..)).trans <| by
    simp only [encVM_0_3, encVM_3_7, encVM_10_7, encVM_17_6, encVM_23_6, encVM_29_3] <;> rfl

theorem vsts (g : BitVec 3) (d : BitVec 6) (a : BitVec 7) (b : BitVec 7) : Statement (.vsts g d a b) :=
  word_ok rfl (encVM_23_6 ..) rfl <| (decode_0x38 _ (encVM_23_6 ..)).trans <| by
    simp only [encVM_0_3, encVM_3_7, encVM_10_7, encVM_17_6, encVM_23_6, encVM_29_3] <;> rfl

theorem vgath (g : BitVec 3) (d : BitVec 6) (a : BitVec 7) (b : BitVec 7) : Statement (.vgath g d a b) :=
  word_ok rfl (encVM_23_6 ..) rfl <| (decode_0x38 _ (encVM_23_6 ..)).trans <| by
    simp only [encVM_0_3, encVM_3_7, encVM_10_7, encVM_17_6, encVM_23_6, encVM_29_3] <;> rfl

theorem vscat (g : BitVec 3) (d : BitVec 6) (a : BitVec 7) (b : BitVec 7) : Statement (.vscat g d a b) :=
  word_ok rfl (encVM_23_6 ..) rfl <| (decode_0x38 _ (encVM_23_6 ..)).trans <| by
    simp only [encVM_0_3, encVM_3_7, encVM_10_7, encVM_17_6, encVM_23_6, encVM_29_3] <;> rfl

theorem vldb (g : BitVec 3) (d : BitVec 6) (a : BitVec 7) (b : BitVec 7) : Statement (.vldb g d a b) :=
  word_ok rfl (encVM_23_6 ..) rfl <| (decode_0x38 _ (encVM_23_6 ..)).trans <| by
    simp only [encVM_0_3, encVM_3_7, encVM_10_7, encVM_17_6, encVM_23_6, encVM_29_3] <;> rfl

theorem vldR (g : BitVec 3) (d : BitVec 6) (a : BitVec 7) (b : BitVec 7) : Statement (.vldR g d a b) :=
  word_ok rfl (encVM_23_6 ..) rfl <| (decode_0x38 _ (encVM_23_6 ..)).trans <| by
    simp only [encVM_0_3, encVM_3_7, encVM_10_7, encVM_17_6, encVM_23_6, encVM_29_3] <;> rfl

theorem vbcast (g : BitVec 3) (x : BitVec 7) (v : BitVec 6) : Statement (.vbcast g x v) :=
  word_ok rfl (encVX_23_6 ..) rfl <| (decode_0x39 _ (encVX_23_6 ..)).trans <| by
    simp only [encVX_0_4, encVX_4_6, encVX_10_6, encVX_16_7, encVX_23_6, encVX_29_3] <;> rfl

theorem vext (g : BitVec 3) (x : BitVec 7) (v : BitVec 6) (w : BitVec 6) : Statement (.vext g x v w) :=
  word_ok rfl (encVX_23_6 ..) rfl <| (decode_0x39 _ (encVX_23_6 ..)).trans <| by
    simp only [encVX_0_4, encVX_4_6, encVX_10_6, encVX_16_7, encVX_23_6, encVX_29_3] <;> rfl

theorem vins (g : BitVec 3) (x : BitVec 7) (v : BitVec 6) (w : BitVec 6) : Statement (.vins g x v w) :=
  word_ok rfl (encVX_23_6 ..) rfl <| (decode_0x39 _ (encVX_23_6 ..)).trans <| by
    simp only [encVX_0_4, encVX_4_6, encVX_10_6, encVX_16_7, encVX_23_6, encVX_29_3] <;> rfl

theorem vredaddS (g : BitVec 3) (x : BitVec 7) (v : BitVec 6) : Statement (.vredaddS g x v) :=
  word_ok rfl (encVX_23_6 ..) rfl <| (decode_0x39 _ (encVX_23_6 ..)).trans <| by
    simp only [encVX_0_4, encVX_4_6, encVX_10_6, encVX_16_7, encVX_23_6, encVX_29_3] <;> rfl

theorem vredaddI (g : BitVec 3) (x : BitVec 7) (v : BitVec 6) : Statement (.vredaddI g x v) :=
  word_ok rfl (encVX_23_6 ..) rfl <| (decode_0x39 _ (encVX_23_6 ..)).trans <| by
    simp only [encVX_0_4, encVX_4_6, encVX_10_6, encVX_16_7, encVX_23_6, encVX_29_3] <;> rfl

theorem vredmaxS (g : BitVec 3) (x : BitVec 7) (v : BitVec 6) : Statement (.vredmaxS g x v) :=
  word_ok rfl (encVX_23_6 ..) rfl <| (decode_0x39 _ (encVX_23_6 ..)).trans <| by
    simp only [encVX_0_4, encVX_4_6, encVX_10_6, encVX_16_7, encVX_23_6, encVX_29_3] <;> rfl

theorem vredminS (g : BitVec 3) (x : BitVec 7) (v : BitVec 6) : Statement (.vredminS g x v) :=
  word_ok rfl (encVX_23_6 ..) rfl <| (decode_0x39 _ (encVX_23_6 ..)).trans <| by
    simp only [encVX_0_4, encVX_4_6, encVX_10_6, encVX_16_7, encVX_23_6, encVX_29_3] <;> rfl

theorem vmask (g : BitVec 3) (x : BitVec 7) (v : BitVec 6) : Statement (.vmask g x v) :=
  word_ok rfl (encVX_23_6 ..) rfl <| (decode_0x39 _ (encVX_23_6 ..)).trans <| by
    simp only [encVX_0_4, encVX_4_6, encVX_10_6, encVX_16_7, encVX_23_6, encVX_29_3] <;> rfl

theorem vrcp (g : BitVec 3) (d : BitVec 6) (a : BitVec 6) : Statement (.vrcp g d a) :=
  word_ok rfl (encV_23_6 ..) rfl <| (decode_0x3A _ (encV_23_6 ..)).trans <| by
    simp only [encV_0_5, encV_5_6, encV_11_6, encV_17_6, encV_23_6, encV_29_3] <;> rfl

theorem vrsq (g : BitVec 3) (d : BitVec 6) (a : BitVec 6) : Statement (.vrsq g d a) :=
  word_ok rfl (encV_23_6 ..) rfl <| (decode_0x3A _ (encV_23_6 ..)).trans <| by
    simp only [encV_0_5, encV_5_6, encV_11_6, encV_17_6, encV_23_6, encV_29_3] <;> rfl

theorem vexp2 (g : BitVec 3) (d : BitVec 6) (a : BitVec 6) : Statement (.vexp2 g d a) :=
  word_ok rfl (encV_23_6 ..) rfl <| (decode_0x3A _ (encV_23_6 ..)).trans <| by
    simp only [encV_0_5, encV_5_6, encV_11_6, encV_17_6, encV_23_6, encV_29_3] <;> rfl

theorem vlog2 (g : BitVec 3) (d : BitVec 6) (a : BitVec 6) : Statement (.vlog2 g d a) :=
  word_ok rfl (encV_23_6 ..) rfl <| (decode_0x3A _ (encV_23_6 ..)).trans <| by
    simp only [encV_0_5, encV_5_6, encV_11_6, encV_17_6, encV_23_6, encV_29_3] <;> rfl

theorem vsin (g : BitVec 3) (d : BitVec 6) (a : BitVec 6) : Statement (.vsin g d a) :=
  word_ok rfl (encV_23_6 ..) rfl <| (decode_0x3A _ (encV_23_6 ..)).trans <| by
    simp only [encV_0_5, encV_5_6, encV_11_6, encV_17_6, encV_23_6, encV_29_3] <;> rfl

theorem vcos (g : BitVec 3) (d : BitVec 6) (a : BitVec 6) : Statement (.vcos g d a) :=
  word_ok rfl (encV_23_6 ..) rfl <| (decode_0x3A _ (encV_23_6 ..)).trans <| by
    simp only [encV_0_5, encV_5_6, encV_11_6, encV_17_6, encV_23_6, encV_29_3] <;> rfl

theorem vtanh (g : BitVec 3) (d : BitVec 6) (a : BitVec 6) : Statement (.vtanh g d a) :=
  word_ok rfl (encV_23_6 ..) rfl <| (decode_0x3A _ (encV_23_6 ..)).trans <| by
    simp only [encV_0_5, encV_5_6, encV_11_6, encV_17_6, encV_23_6, encV_29_3] <;> rfl

theorem vsigm (g : BitVec 3) (d : BitVec 6) (a : BitVec 6) : Statement (.vsigm g d a) :=
  word_ok rfl (encV_23_6 ..) rfl <| (decode_0x3A _ (encV_23_6 ..)).trans <| by
    simp only [encV_0_5, encV_5_6, encV_11_6, encV_17_6, encV_23_6, encV_29_3] <;> rfl

theorem b2z (g : BitVec 3) (z : BitVec 4) (a : BitVec 7) (b : BitVec 7) : Statement (.b2z g z a b) :=
  word_ok rfl (encZG_23_6 ..) rfl <| (decode_0x3B _ (encZG_23_6 ..)).trans <| by
    simp only [encZG_0_5, encZG_5_7, encZG_5_14, encZG_12_7, encZG_19_4, encZG_23_6, encZG_29_3] <;> rfl

theorem z2b (g : BitVec 3) (z : BitVec 4) (a : BitVec 7) : Statement (.z2b g z a) :=
  word_ok rfl (encZG_23_6 ..) rfl <| (decode_0x3B _ (encZG_23_6 ..)).trans <| by
    simp only [encZG_0_5, encZG_5_7, encZG_5_14, encZG_12_7, encZG_19_4, encZG_23_6, encZG_29_3] <;> rfl

theorem zcls (g : BitVec 3) (z : BitVec 4) (a : BitVec 7) (b : BitVec 7) : Statement (.zcls g z a b) :=
  word_ok rfl (encZG_23_6 ..) rfl <| (decode_0x3B _ (encZG_23_6 ..)).trans <| by
    simp only [encZG_0_5, encZG_5_7, encZG_5_14, encZG_12_7, encZG_19_4, encZG_23_6, encZG_29_3] <;> rfl

theorem zrgn (g : BitVec 3) (z : BitVec 4) (s : BitVec 4) (b : BitVec 7) : Statement (.zrgn g z s b) :=
  word_ok rfl (encZG_23_6 ..) rfl <| (decode_0x3B _ (encZG_23_6 ..)).trans <| by
    simp only [encZG_0_5, encZG_5_7, encZG_5_14, encZG_12_7, encZG_19_4, encZG_23_6, encZG_29_3, encZG_zrgn_hi, encZG_zrgn_lo] <;> rfl

theorem zclr (g : BitVec 3) (z : BitVec 4) : Statement (.zclr g z) :=
  word_ok rfl (encZG_23_6 ..) rfl <| (decode_0x3B _ (encZG_23_6 ..)).trans <| by
    simp only [encZG_0_5, encZG_5_7, encZG_5_14, encZG_12_7, encZG_19_4, encZG_23_6, encZG_29_3] <;> rfl

theorem zand (g : BitVec 3) (d : BitVec 4) (a : BitVec 4) (b : BitVec 4) : Statement (.zand g d a b) :=
  word_ok rfl (encZ_23_6 ..) rfl <| (decode_0x3C _ (encZ_23_6 ..)).trans <| by
    simp only [encZ_0_7, encZ_7_4, encZ_7_8, encZ_11_4, encZ_15_4, encZ_19_4, encZ_23_6, encZ_29_3] <;> rfl

theorem zor (g : BitVec 3) (d : BitVec 4) (a : BitVec 4) (b : BitVec 4) : Statement (.zor g d a b) :=
  word_ok rfl (encZ_23_6 ..) rfl <| (decode_0x3C _ (encZ_23_6 ..)).trans <| by
    simp only [encZ_0_7, encZ_7_4, encZ_7_8, encZ_11_4, encZ_15_4, encZ_19_4, encZ_23_6, encZ_29_3] <;> rfl

theorem zxnor (g : BitVec 3) (d : BitVec 4) (a : BitVec 4) (b : BitVec 4) : Statement (.zxnor g d a b) :=
  word_ok rfl (encZ_23_6 ..) rfl <| (decode_0x3C _ (encZ_23_6 ..)).trans <| by
    simp only [encZ_0_7, encZ_7_4, encZ_7_8, encZ_11_4, encZ_15_4, encZ_19_4, encZ_23_6, encZ_29_3] <;> rfl

theorem znot (g : BitVec 3) (d : BitVec 4) (a : BitVec 4) : Statement (.znot g d a) :=
  word_ok rfl (encZ_23_6 ..) rfl <| (decode_0x3C _ (encZ_23_6 ..)).trans <| by
    simp only [encZ_0_7, encZ_7_4, encZ_7_8, encZ_11_4, encZ_15_4, encZ_19_4, encZ_23_6, encZ_29_3] <;> rfl

theorem zmux (g : BitVec 3) (d : BitVec 4) (a : BitVec 4) (b : BitVec 4) (s : BitVec 4) : Statement (.zmux g d a b s) :=
  word_ok rfl (encZ_23_6 ..) rfl <| (decode_0x3C _ (encZ_23_6 ..)).trans <| by
    simp only [encZ_0_7, encZ_7_4, encZ_7_8, encZ_11_4, encZ_15_4, encZ_19_4, encZ_23_6, encZ_29_3] <;> rfl

theorem cwst (g : BitVec 3) (d : BitVec 7) (a : BitVec 7) : Statement (.cwst g d a) :=
  word_ok rfl (encR_23_6 ..) rfl <| (decode_0x3D _ (encR_23_6 ..)).trans <| by
    simp only [encR_0_2, encR_2_7, encR_2_14, encR_2_21, encR_9_7, encR_16_7, encR_23_6, encR_29_3] <;> rfl

theorem cwadd (g : BitVec 3) (d : BitVec 7) (a : BitVec 7) (b : BitVec 7) : Statement (.cwadd g d a b) :=
  word_ok rfl (encR_23_6 ..) rfl <| (decode_0x3D _ (encR_23_6 ..)).trans <| by
    simp only [encR_0_2, encR_2_7, encR_2_14, encR_2_21, encR_9_7, encR_16_7, encR_23_6, encR_29_3] <;> rfl

theorem cwcas (g : BitVec 3) (d : BitVec 7) (a : BitVec 7) (b : BitVec 7) : Statement (.cwcas g d a b) :=
  word_ok rfl (encR_23_6 ..) rfl <| (decode_0x3D _ (encR_23_6 ..)).trans <| by
    simp only [encR_0_2, encR_2_7, encR_2_14, encR_2_21, encR_9_7, encR_16_7, encR_23_6, encR_29_3] <;> rfl

theorem cwfence (g : BitVec 3) (d : BitVec 7) (a : BitVec 7) : Statement (.cwfence g d a) :=
  word_ok rfl (encR_23_6 ..) rfl <| (decode_0x3D _ (encR_23_6 ..)).trans <| by
    simp only [encR_0_2, encR_2_7, encR_2_14, encR_2_21, encR_9_7, encR_16_7, encR_23_6, encR_29_3] <;> rfl

theorem mma (g : BitVec 3) (cpl : Cpl) (x : MmaArgs) : Statement (.mma g cpl x) := by
  refine tcw_ok rfl ?_
  unfold decodeTcwFields
  simp only [encHeader_19_4]
  refine guard_ok ?_ ?_
  · simp (disch := decide) only [encPay_0_2, encPay_2_7, encPay_9_7, encPay_0_23, payT, payY, payZ,
      encHeader_flags, mmaFlags_8_8, mmaFlags_7_1, mmaFlags_6_1, mmaFlags_3_3, mmaFlags_0_3]
    rfl
  · simp (disch := decide) only [encPay_0_2, encPay_2_7, encPay_9_7, encPay_16_7, payT, payX, payY, payZ, encHeader_29_3,
      encHeader_flags, mmaFlags_8_8, mmaFlags_7_1, mmaFlags_6_1, mmaFlags_3_3, mmaFlags_0_3, bit_one]

theorem copy (g : BitVec 3) (cpl : Cpl) (x : CopyArgs) : Statement (.copy g cpl x) := by
  refine tcw_ok rfl ?_
  unfold decodeTcwFields
  simp only [encHeader_19_4]
  refine guard_ok ?_ ?_
  · simp (disch := decide) only [encPay_0_2, encPay_2_7, encPay_9_7, encPay_0_23, payT, payY, payZ,
      encHeader_flags, ex_all]
    rfl
  · simp (disch := decide) only [encPay_0_2, encPay_2_7, encPay_9_7, encPay_16_7, payT, payX, payY, payZ, encHeader_29_3,
      encHeader_flags, ex_all, bit_one]

theorem gath (g : BitVec 3) (cpl : Cpl) (x : GathArgs) : Statement (.gath g cpl x) := by
  refine tcw_ok rfl ?_
  unfold decodeTcwFields
  simp only [encHeader_19_4]
  refine guard_ok ?_ ?_
  · simp (disch := decide) only [encPay_0_2, encPay_2_7, encPay_9_7, encPay_0_23, payT, payY, payZ,
      encHeader_flags, oneFlag_1_15, oneFlag_0_1]
    rfl
  · simp (disch := decide) only [encPay_0_2, encPay_2_7, encPay_9_7, encPay_16_7, payT, payX, payY, payZ, encHeader_29_3,
      encHeader_flags, oneFlag_1_15, oneFlag_0_1, bit_one]

theorem coll (g : BitVec 3) (cpl : Cpl) (x : CollArgs) : Statement (.coll g cpl x) := by
  refine tcw_ok rfl ?_
  unfold decodeTcwFields
  simp only [encHeader_19_4]
  refine guard_ok ?_ ?_
  · simp (disch := decide) only [encPay_0_2, encPay_2_7, encPay_9_7, encPay_0_23, payT, payY, payZ,
      encHeader_flags, collFlags_6_10, collFlags_2_4, collFlags_0_2]
    rfl
  · simp (disch := decide) only [encPay_0_2, encPay_2_7, encPay_9_7, encPay_16_7, payT, payX, payY, payZ, encHeader_29_3,
      encHeader_flags, collFlags_6_10, collFlags_2_4, collFlags_0_2, bit_one]

theorem fill (g : BitVec 3) (cpl : Cpl) (x : FillArgs) : Statement (.fill g cpl x) := by
  refine tcw_ok rfl ?_
  unfold decodeTcwFields
  simp only [encHeader_19_4]
  refine guard_ok ?_ ?_
  · simp (disch := decide) only [encPay_0_2, encPay_2_7, encPay_9_7, encPay_0_23, payT, payY, payZ,
      encHeader_flags, ex_all]
    rfl
  · simp (disch := decide) only [encPay_0_2, encPay_2_7, encPay_9_7, encPay_16_7, payT, payX, payY, payZ, encHeader_29_3,
      encHeader_flags, ex_all, bit_one]

theorem enc8 (g : BitVec 3) (cpl : Cpl) (x : Enc8Args) : Statement (.enc8 g cpl x) := by
  refine tcw_ok rfl ?_
  unfold decodeTcwFields
  simp only [encHeader_19_4]
  refine guard_ok ?_ ?_
  · simp (disch := decide) only [encPay_0_2, encPay_2_7, encPay_9_7, encPay_0_23, payT, payY, payZ,
      encHeader_flags, oneFlag_1_15, oneFlag_0_1]
    rfl
  · simp (disch := decide) only [encPay_0_2, encPay_2_7, encPay_9_7, encPay_16_7, payT, payX, payY, payZ, encHeader_29_3,
      encHeader_flags, oneFlag_1_15, oneFlag_0_1, bit_one]

theorem rotationFill (core : Nat) : Statement (.rotationFill core) := event_ok rfl
theorem registerFillAdmit (core : Nat) : Statement (.registerFillAdmit core) := event_ok rfl
theorem registerFillComplete (core : Nat) (slot : Nat) : Statement (.registerFillComplete core slot) := event_ok rfl
theorem relaxedLoadDeliver (core : Nat) (slot : Nat) (id : Nat) : Statement (.relaxedLoadDeliver core slot id) := event_ok rfl
theorem relaxedStorePerform (core : Nat) (slot : Nat) (id : Nat) : Statement (.relaxedStorePerform core slot id) := event_ok rfl
theorem accessComplete (core : Nat) (slot : Nat) : Statement (.accessComplete core slot) := event_ok rfl
theorem sfuQueueAdmit (core : Nat) : Statement (.sfuQueueAdmit core) := event_ok rfl
theorem sfuRequestComplete (core : Nat) : Statement (.sfuRequestComplete core) := event_ok rfl
theorem ssuComplete (core : Nat) (slot : Nat) : Statement (.ssuComplete core slot) := event_ok rfl
theorem contextGrant (core : Nat) : Statement (.contextGrant core) := event_ok rfl
theorem threadFill (core : Nat) : Statement (.threadFill core) := event_ok rfl
theorem threadFillComplete (core : Nat) (slot : Nat) : Statement (.threadFillComplete core slot) := event_ok rfl
theorem wlimExpiry (core : Nat) (slot : Nat) : Statement (.wlimExpiry core slot) := event_ok rfl
theorem waitgeRecheck (core : Nat) (slot : Nat) : Statement (.waitgeRecheck core slot) := event_ok rfl
theorem feWaiterRelease (core : Nat) (word : Nat) : Statement (.feWaiterRelease core word) := event_ok rfl
theorem watchEntryGrant (core : Nat) (slot : Nat) : Statement (.watchEntryGrant core slot) := event_ok rfl
theorem watchRecorded (core : Nat) (slot : Nat) : Statement (.watchRecorded core slot) := event_ok rfl
theorem guestAccess (core : Nat) : Statement (.guestAccess core) := event_ok rfl
theorem postedStoreAccept (core : Nat) (slot : Nat) : Statement (.postedStoreAccept core slot) := event_ok rfl
theorem threadPacketArrive (id : Nat) : Statement (.threadPacketArrive id) := event_ok rfl
theorem visitorSlotGrant (core : Nat) : Statement (.visitorSlotGrant core) := event_ok rfl
theorem threadStateAct (core : Nat) (slot : Nat) : Statement (.threadStateAct core slot) := event_ok rfl
theorem invpgComplete (core : Nat) (slot : Nat) : Statement (.invpgComplete core slot) := event_ok rfl
theorem selftComplete (core : Nat) (slot : Nat) (failed : BitVec 8) (rows : BitVec 64) (ways : BitVec 4) (bank : BitVec 8) : Statement (.selftComplete core slot failed rows ways bank) := event_ok rfl
theorem barrierRecordGrant (core : Nat) : Statement (.barrierRecordGrant core) := event_ok rfl
theorem barrierJoin (id : Nat) : Statement (.barrierJoin id) := event_ok rfl
theorem barrierDrop (id : Nat) : Statement (.barrierDrop id) := event_ok rfl
theorem barrierArrive (id : Nat) : Statement (.barrierArrive id) := event_ok rfl
theorem engineAccept (id : Nat) : Statement (.engineAccept id) := event_ok rfl
theorem mmaStep (id : Nat) : Statement (.mmaStep id) := event_ok rfl
theorem gathScatterRow (id : Nat) : Statement (.gathScatterRow id) := event_ok rfl
theorem engineComplete (id : Nat) : Statement (.engineComplete id) := event_ok rfl
theorem collInstanceComplete (id : Nat) : Statement (.collInstanceComplete id) := event_ok rfl
theorem rd (line : Nat) (agent : Nat) : Statement (.rd line agent) := event_ok rfl
theorem rdx (line : Nat) (agent : Nat) : Statement (.rdx line agent) := event_ok rfl
theorem upg (line : Nat) (agent : Nat) : Statement (.upg line agent) := event_ok rfl
theorem wb (line : Nat) (agent : Nat) : Statement (.wb line agent) := event_ok rfl
theorem wbk (line : Nat) (agent : Nat) : Statement (.wbk line agent) := event_ok rfl
theorem put (line : Nat) (agent : Nat) : Statement (.put line agent) := event_ok rfl
theorem amo (line : Nat) (agent : Nat) : Statement (.amo line agent) := event_ok rfl
theorem own (line : Nat) (id : Nat) : Statement (.own line id) := event_ok rfl
theorem ew (line : Nat) (id : Nat) : Statement (.ew line id) := event_ok rfl
theorem rel (line : Nat) (id : Nat) : Statement (.rel line id) := event_ok rfl
theorem inv (line : Nat) (agent : Nat) : Statement (.inv line agent) := event_ok rfl
theorem rcl (line : Nat) (agent : Nat) : Statement (.rcl line agent) := event_ok rfl
theorem dwg (line : Nat) (agent : Nat) : Statement (.dwg line agent) := event_ok rfl
theorem recallAnswer (line : Nat) (agent : Nat) : Statement (.recallAnswer line agent) := event_ok rfl
theorem ack (line : Nat) (agent : Nat) : Statement (.ack line agent) := event_ok rfl
theorem nack (line : Nat) (agent : Nat) : Statement (.nack line agent) := event_ok rfl
theorem pin (line : Nat) (agent : Nat) : Statement (.pin line agent) := event_ok rfl
theorem pinDrop (line : Nat) (agent : Nat) : Statement (.pinDrop line agent) := event_ok rfl
theorem leaseRenewal (die : Nat) (agent : Nat) : Statement (.leaseRenewal die agent) := event_ok rfl
theorem leaseExpiry (die : Nat) (agent : Nat) : Statement (.leaseExpiry die agent) := event_ok rfl
theorem leaseSelfLimit (die : Nat) (agent : Nat) : Statement (.leaseSelfLimit die agent) := event_ok rfl
theorem leaseRejoin (die : Nat) (agent : Nat) : Statement (.leaseRejoin die agent) := event_ok rfl
theorem copyTermExpiry (agent : Nat) (line : Nat) : Statement (.copyTermExpiry agent line) := event_ok rfl
theorem walkComplete (id : Nat) : Statement (.walkComplete id) := event_ok rfl
theorem waystationInvalidate (ws : Nat) (id : Nat) : Statement (.waystationInvalidate ws id) := event_ok rfl
theorem cwJoin (port : Nat) : Statement (.cwJoin port) := event_ok rfl
theorem cwLeave (port : Nat) : Statement (.cwLeave port) := event_ok rfl
theorem cwQueueAdmit (port : Nat) : Statement (.cwQueueAdmit port) := event_ok rfl
theorem rotationOpen (port : Nat) (view : CwView) : Statement (.rotationOpen port view) := event_ok rfl
theorem burstSend (port : Nat) : Statement (.burstSend port) := event_ok rfl
theorem frameData (port : Nat) (frame : CwFrame) : Statement (.frameData port frame) := event_ok rfl
theorem frameReplay (port : Nat) (frame : CwReplay) : Statement (.frameReplay port frame) := event_ok rfl
theorem frameSnapshot (port : Nat) (frame : CwFrame) (part : Nat × List Byte) : Statement (.frameSnapshot port frame part) := event_ok rfl
theorem frameControl (port : Nat) (index : Nat) (cwid : BitVec 16) (slots : Nat) : Statement (.frameControl port index cwid slots) := event_ok rfl
theorem missingFrame (port : Nat) (rotation : Nat) (member : Nat) (fidx : Nat) : Statement (.missingFrame port rotation member fidx) := event_ok rfl
theorem holeTimeout (port : Nat) : Statement (.holeTimeout port) := event_ok rfl
theorem masterLoss (port : Nat) : Statement (.masterLoss port) := event_ok rfl
theorem recoveryTimeout (port : Nat) : Statement (.recoveryTimeout port) := event_ok rfl
theorem joinListenEnd (port : Nat) (heard : CwHeard) : Statement (.joinListenEnd port heard) := event_ok rfl
theorem founderWaitEnd (port : Nat) (heard : CwHeard) : Statement (.founderWaitEnd port heard) := event_ok rfl
theorem joinGrantTimeout (port : Nat) : Statement (.joinGrantTimeout port) := event_ok rfl
theorem launchPortHeader (part : Nat) (addr : Word) : Statement (.launchPortHeader part addr) := event_ok rfl
theorem launchPortGraph (part : Nat) (addr : Word) : Statement (.launchPortGraph part addr) := event_ok rfl
theorem launchAccept (id : Nat) : Statement (.launchAccept id) := event_ok rfl
theorem launchRecordGrant (part : Nat) : Statement (.launchRecordGrant part) := event_ok rfl
theorem dependenceReady (lid : Nat) : Statement (.dependenceReady lid) := event_ok rfl
theorem dependenceCancel (lid : Nat) : Statement (.dependenceCancel lid) := event_ok rfl
theorem placementDecision (part : Nat) : Statement (.placementDecision part) := event_ok rfl
theorem quantumExpiry (lid : Nat) : Statement (.quantumExpiry lid) := event_ok rfl
theorem groupSave (gid : Nat) : Statement (.groupSave gid) := event_ok rfl
theorem wqryServe (part : Nat) : Statement (.wqryServe part) := event_ok rfl
theorem wqryAnswerDeliver (id : Nat) : Statement (.wqryAnswerDeliver id) := event_ok rfl
theorem launchCompletion (lid : Nat) : Statement (.launchCompletion lid) := event_ok rfl
theorem create (part : Nat) : Statement (.create part) := event_ok rfl
theorem reset (part : Nat) : Statement (.reset part) := event_ok rfl
theorem teardown (part : Nat) : Statement (.teardown part) := event_ok rfl
theorem pmsWrite (core : Nat) (slot : Nat) : Statement (.pmsWrite core slot) := event_ok rfl
theorem histogramConfig (part : Nat) (unit : Nat) (value : Word) : Statement (.histogramConfig part unit value) := event_ok rfl
theorem histogramClear (part : Nat) (unit : Nat) : Statement (.histogramClear part unit) := event_ok rfl
theorem histogramSample (part : Nat) (unit : Nat) (sample : Word) : Statement (.histogramSample part unit sample) := event_ok rfl
theorem registerWrite (part : Nat) (word : Nat) (value : Word) : Statement (.registerWrite part word value) := event_ok rfl
theorem postedWriteArrive (id : Nat) : Statement (.postedWriteArrive id) := event_ok rfl
theorem remoteRead (id : Nat) : Statement (.remoteRead id) := event_ok rfl
theorem remoteReadResponse (id : Nat) (data : Option (List Byte)) : Statement (.remoteReadResponse id data) := event_ok rfl
theorem remoteAtomic (id : Nat) : Statement (.remoteAtomic id) := event_ok rfl
theorem remoteAtomicResponse (id : Nat) (old : Option (List Byte)) : Statement (.remoteAtomicResponse id old) := event_ok rfl
theorem hostBarAccess (fn : HostFn) (addr : BarAddr) (size : Nat) (write : Option Nat) : Statement (.hostBarAccess fn addr size write) := event_ok rfl
theorem hostAtomicop (fn : HostFn) (offset : Nat) (op : HostAtomic) : Statement (.hostAtomicop fn offset op) := event_ok rfl
theorem cxlMemAccess (addr : Nat) (size : Nat) (write : Option Nat) : Statement (.cxlMemAccess addr size write) := event_ok rfl
theorem hostSnoop (line : Nat) (write : Option (List Byte)) : Statement (.hostSnoop line write) := event_ok rfl
theorem linkDown (link : HostLink) : Statement (.linkDown link) := event_ok rfl
theorem flitCrcError (link : Nat) : Statement (.flitCrcError link) := event_ok rfl
theorem fatalError (unit : FatalUnit) (poisoned : List Nat) : Statement (.fatalError unit poisoned) := event_ok rfl
theorem checkpointCommit (core : Nat) : Statement (.checkpointCommit core) := event_ok rfl
theorem lockstepMismatch (core : Nat) : Statement (.lockstepMismatch core) := event_ok rfl
theorem boot (image0 : Bool) (image1 : Bool) : Statement (.boot image0 image1) := event_ok rfl
theorem thermalThrottle (die : Nat) : Statement (.thermalThrottle die) := event_ok rfl
theorem thermalShutdown (die : Nat) : Statement (.thermalShutdown die) := event_ok rfl
theorem mcBankRead (bank : Nat) (word : Nat) : Statement (.mcBankRead bank word) := event_ok rfl
theorem bankClear (bank : Nat) : Statement (.bankClear bank) := event_ok rfl
theorem telemetryRead (word : Nat) : Statement (.telemetryRead word) := event_ok rfl
theorem powerLimitSet (milliwatts : Nat) : Statement (.powerLimitSet milliwatts) := event_ok rfl
theorem pcbWordAccess (part : Nat) (word : Nat) (write : Option Word) : Statement (.pcbWordAccess part word write) := event_ok rfl
theorem attestation (nonce : List Byte) : Statement (.attestation nonce) := event_ok rfl
theorem fenceListRead  : Statement (.fenceListRead ) := event_ok rfl
theorem versionRaise  : Statement (.versionRaise ) := event_ok rfl
theorem mgmtUnknownCode (code : BitVec 8) : Statement (.mgmtUnknownCode code) := event_ok rfl
theorem layByScrubComplete (part : Nat) : Statement (.layByScrubComplete part) := event_ok rfl
theorem hostLinkUp (link : HostLink) : Statement (.hostLinkUp link) := event_ok rfl
theorem thermalRecovery (die : Nat) : Statement (.thermalRecovery die) := event_ok rfl
end Sys2Proof.Laws.Encoding
end

