-- ==== Sys2Proof/Laws/Reencode.lean ====
section
/-!
SUPPORT. Laws/Reencode.lean: an instruction that a word of a major decodes to has that word as its encoding
(R64, R66, R69), and the words of bytes and the bytes of words (R60).
-/
namespace Sys2Proof
/-- Two neighbouring fields are one field. -/
theorem join2 {n : Nat} (w : BitVec n) (a m b k : Nat) (h : a = b + k) :
    w.extractLsb' a m ++ w.extractLsb' b k = w.extractLsb' b (m + k) := by
  subst h
  ext i hi
  simp only [BitVec.getElem_append, BitVec.getElem_extractLsb']
  split
  · rfl
  · congr 1; omega
/-- Every part of a field of zeros is zero. -/
theorem zsub {n : Nat} {w : BitVec n} {a m : Nat} (b k : Nat) (h : w.extractLsb' a m = 0#m) (h1 : a ≤ b) (h2 : b +
    k ≤ a + m) :
    w.extractLsb' b k = 0#k := by
  ext i hi
  have := congrArg (fun x => x.getLsbD (b - a + i)) h
  simp only [BitVec.getLsbD_extractLsb', show b - a + i < m by omega, decide_true, Bool.true_and,
    BitVec.getLsbD_zero] at this
  simp only [BitVec.getElem_extractLsb', BitVec.getElem_zero]
  rw [← this]; congr 1; omega
/-- A bit that is not 0 is 1. -/
theorem one_of {n} {w : BitVec n} {a} (h : ¬ (w.extractLsb' a 1 == 0#1) = true) : w.extractLsb' a 1 = 1#1 := by
  revert h; generalize w.extractLsb' a 1 = x; revert x; decide
/-- A flag and its bit. -/
theorem bit_of (x : BitVec 1) : bit (x == 1#1) = x := by revert x; decide
/-- R64: a word is put together again from its fields, format R. -/
theorem encR_back (w : BitVec 32) : encR (w.extractLsb' 29 3) (w.extractLsb' 23 6) (w.extractLsb' 16 7)
    (w.extractLsb' 9 7) (w.extractLsb' 2 7) (w.extractLsb' 0 2) = w := by
  rw [encR, join2 w 29 3 23 6 rfl, join2 w 23 9 16 7 rfl, join2 w 16 16 9 7 rfl, join2 w 9 23 2 7 rfl, join2 w 2 30
    0 2 rfl]
  exact ex_all w
/-- R64: a word is put together again from its fields, format I. -/
theorem encI_back (w : BitVec 32) : encI (w.extractLsb' 29 3) (w.extractLsb' 23 6) (w.extractLsb' 16 7)
    (w.extractLsb' 9 7) (w.extractLsb' 0 9) = w := by
  rw [encI, join2 w 29 3 23 6 rfl, join2 w 23 9 16 7 rfl, join2 w 16 16 9 7 rfl, join2 w 9 23 0 9 rfl]
  exact ex_all w
/-- R64: a word is put together again from its fields, format L. -/
theorem encL_back (w : BitVec 32) : encL (w.extractLsb' 29 3) (w.extractLsb' 23 6) (w.extractLsb' 16 7)
    (w.extractLsb' 0 16) = w := by
  rw [encL, join2 w 29 3 23 6 rfl, join2 w 23 9 16 7 rfl, join2 w 16 16 0 16 rfl]
  exact ex_all w
/-- R64: a word is put together again from its fields, format M. -/
theorem encM_back (w : BitVec 32) : encM (w.extractLsb' 29 3) (w.extractLsb' 23 6) (w.extractLsb' 16 7)
    (w.extractLsb' 9 7) (w.extractLsb' 1 8) (w.extractLsb' 0 1) = w := by
  rw [encM, join2 w 29 3 23 6 rfl, join2 w 23 9 16 7 rfl, join2 w 16 16 9 7 rfl, join2 w 9 23 1 8 rfl, join2 w 1 31
    0 1 rfl]
  exact ex_all w
/-- R64: a word is put together again from its fields, format B. -/
theorem encB_back (w : BitVec 32) : encB (w.extractLsb' 29 3) (w.extractLsb' 23 6) (w.extractLsb' 0 23) = w := by
  rw [encB, join2 w 29 3 23 6 rfl, join2 w 23 9 0 23 rfl]
  exact ex_all w
/-- R64: a word is put together again from its fields, format S. -/
theorem encS_back (w : BitVec 32) : encS (w.extractLsb' 29 3) (w.extractLsb' 23 6) (w.extractLsb' 16 7)
    (w.extractLsb' 9 7) (w.extractLsb' 0 9) = w := by
  rw [encS, join2 w 29 3 23 6 rfl, join2 w 23 9 16 7 rfl, join2 w 16 16 9 7 rfl, join2 w 9 23 0 9 rfl]
  exact ex_all w
/-- R64: a word is put together again from its fields, format V. -/
theorem encV_back (w : BitVec 32) : encV (w.extractLsb' 29 3) (w.extractLsb' 23 6) (w.extractLsb' 17 6)
    (w.extractLsb' 11 6) (w.extractLsb' 5 6) (w.extractLsb' 0 5) = w := by
  rw [encV, join2 w 29 3 23 6 rfl, join2 w 23 9 17 6 rfl, join2 w 17 15 11 6 rfl, join2 w 11 21 5 6 rfl, join2 w 5
    27 0 5 rfl]
  exact ex_all w
/-- R64: a word is put together again from its fields, format VF. -/
theorem encVF_back (w : BitVec 32) : encVF (w.extractLsb' 29 3) (w.extractLsb' 23 6) (w.extractLsb' 17 6)
    (w.extractLsb' 11 6) (w.extractLsb' 5 6) (w.extractLsb' 4 1) (w.extractLsb' 0 4) = w := by
  rw [encVF, join2 w 29 3 23 6 rfl, join2 w 23 9 17 6 rfl, join2 w 17 15 11 6 rfl, join2 w 11 21 5 6 rfl, join2 w 5
    27 4 1 rfl, join2 w 4 28 0 4 rfl]
  exact ex_all w
/-- R64: a word is put together again from its fields, format VM. -/
theorem encVM_back (w : BitVec 32) : encVM (w.extractLsb' 29 3) (w.extractLsb' 23 6) (w.extractLsb' 17 6)
    (w.extractLsb' 10 7) (w.extractLsb' 3 7) (w.extractLsb' 0 3) = w := by
  rw [encVM, join2 w 29 3 23 6 rfl, join2 w 23 9 17 6 rfl, join2 w 17 15 10 7 rfl, join2 w 10 22 3 7 rfl, join2 w 3
    29 0 3 rfl]
  exact ex_all w
/-- R64: a word is put together again from its fields, format VX. -/
theorem encVX_back (w : BitVec 32) : encVX (w.extractLsb' 29 3) (w.extractLsb' 23 6) (w.extractLsb' 16 7)
    (w.extractLsb' 10 6) (w.extractLsb' 4 6) (w.extractLsb' 0 4) = w := by
  rw [encVX, join2 w 29 3 23 6 rfl, join2 w 23 9 16 7 rfl, join2 w 16 16 10 6 rfl, join2 w 10 22 4 6 rfl, join2 w 4
    28 0 4 rfl]
  exact ex_all w
/-- R64: a word is put together again from its fields, format ZG. -/
theorem encZG_back (w : BitVec 32) : encZG (w.extractLsb' 29 3) (w.extractLsb' 23 6) (w.extractLsb' 19 4)
    (w.extractLsb' 12 7) (w.extractLsb' 5 7) (w.extractLsb' 0 5) = w := by
  rw [encZG, join2 w 29 3 23 6 rfl, join2 w 23 9 19 4 rfl, join2 w 19 13 12 7 rfl, join2 w 12 20 5 7 rfl, join2 w 5
    27 0 5 rfl]
  exact ex_all w
/-- R64: a word is put together again from its fields, format Z. -/
theorem encZ_back (w : BitVec 32) : encZ (w.extractLsb' 29 3) (w.extractLsb' 23 6) (w.extractLsb' 19 4)
    (w.extractLsb' 15 4) (w.extractLsb' 11 4) (w.extractLsb' 7 4) (w.extractLsb' 0 7) = w := by
  rw [encZ, join2 w 29 3 23 6 rfl, join2 w 23 9 19 4 rfl, join2 w 19 13 15 4 rfl, join2 w 15 17 11 4 rfl, join2 w
    11 21 7 4 rfl, join2 w 7 25 0 7 rfl]
  exact ex_all w
/-- R64: a word is put together again from its fields, format Brk. -/
theorem encBrk_back (w : BitVec 32) : encBrk (w.extractLsb' 29 3) (w.extractLsb' 23 6) (w.extractLsb' 2 21)
    (w.extractLsb' 0 2) = w := by
  rw [encBrk, join2 w 29 3 23 6 rfl, join2 w 23 9 2 21 rfl, join2 w 2 30 0 2 rfl]
  exact ex_all w

/-- R64: a word is put together again from its fields, format Shi. -/
theorem encShi_back (w : BitVec 32) (h : w.extractLsb' 6 1 = 0#1) : encShi (w.extractLsb' 29 3) (w.extractLsb' 23
    6) (w.extractLsb' 16 7) (w.extractLsb' 9 7) (w.extractLsb' 7 2) (w.extractLsb' 0 6) = w := by
  rw [encShi, ← h, join2 w 29 3 23 6 rfl, join2 w 23 9 16 7 rfl, join2 w 16 16 9 7 rfl, join2 w 9 23 7 2 rfl, join2
    w 7 25 6 1 rfl, join2 w 6 26 0 6 rfl]
  exact ex_all w
/-- R64: a word is put together again from its fields, format P. -/
theorem encP_back (w : BitVec 32) (h : w.extractLsb' 16 1 = 0#1) (h2 : w.extractLsb' 0 2 = 0#2) : encP
    (w.extractLsb' 29 3) (w.extractLsb' 23 6) (w.extractLsb' 20 3) (w.extractLsb' 17 3) (w.extractLsb' 9 7)
    (w.extractLsb' 2 7) = w := by
  rw [encP, ← h, ← h2, join2 w 29 3 23 6 rfl, join2 w 23 9 20 3 rfl, join2 w 20 12 17 3 rfl, join2 w 17 15 16 1
    rfl, join2 w 16 16 9 7 rfl, join2 w 9 23 2 7 rfl, join2 w 2 30 0 2 rfl]
  exact ex_all w
/-- R64: a word is put together again from its fields, format PI. -/
theorem encPI_back (w : BitVec 32) (h : w.extractLsb' 16 1 = 1#1) : encPI (w.extractLsb' 29 3) (w.extractLsb' 23 6)
    (w.extractLsb' 20 3) (w.extractLsb' 17 3) (w.extractLsb' 9 7) (w.extractLsb' 0 9) = w := by
  rw [encPI, ← h, join2 w 29 3 23 6 rfl, join2 w 23 9 20 3 rfl, join2 w 20 12 17 3 rfl, join2 w 17 15 16 1 rfl,
    join2 w 16 16 9 7 rfl, join2 w 9 23 0 9 rfl]
  exact ex_all w
/-- R64: a word is put together again from its fields, format Plog. -/
theorem encPlog_back (w : BitVec 32) (h : w.extractLsb' 0 12 = 0#12) : encPlog (w.extractLsb' 29 3) (w.extractLsb'
    23 6) (w.extractLsb' 20 3) (w.extractLsb' 17 3) (w.extractLsb' 14 3) (w.extractLsb' 12 2) = w := by
  rw [encPlog, ← h, join2 w 29 3 23 6 rfl, join2 w 23 9 20 3 rfl, join2 w 20 12 17 3 rfl, join2 w 17 15 14 3 rfl,
    join2 w 14 18 12 2 rfl, join2 w 12 20 0 12 rfl]
  exact ex_all w
/-- R64: a word is put together again from its fields, format Fence. -/
theorem encFence_back (w : BitVec 32) (h : w.extractLsb' 6 17 = 0#17) : encFence (w.extractLsb' 29 3)
    (w.extractLsb' 23 6) (w.extractLsb' 5 1) (w.extractLsb' 4 1) (w.extractLsb' 3 1) (w.extractLsb' 0 3) = w := by
  rw [encFence, ← h, join2 w 29 3 23 6 rfl, join2 w 23 9 6 17 rfl, join2 w 6 26 5 1 rfl, join2 w 5 27 4 1 rfl,
    join2 w 4 28 3 1 rfl, join2 w 3 29 0 3 rfl]
  exact ex_all w
/-- R66: the index of ZRGN with its three zero bits. -/
theorem zrgn_ga (w : BitVec 32) (h : w.extractLsb' 16 3 = 0#3) : 0#3 ++ w.extractLsb' 12 4 = w.extractLsb' 12 7 := by
  rw [← h, join2 w 16 3 12 4 rfl]

/-- R69, major 0x00. -/
theorem back_0x00 (w : BitVec 32) (i : Instr) (h : w.extractLsb' 23 6 = 0x00#6) (hd : decodeFields w = .ok i) :
    encode i = [w] := by
  rw [decode_0x00 w h] at hd
  (try simp only [guardZ, illegal] at hd)
  (repeat' split at hd)
  all_goals first | (cases hd; done) | (
    injection hd with e; subst e; (try simp only [Bool.and_eq_true, beq_iff_eq] at *)
    refine congrArg (fun x => [x]) ?_
    (refine Eq.trans ?_ (encR_back w); congr 1))
  all_goals first | exact h.symm | (apply BitVec.eq_of_toNat_eq; symm; assumption)

/-- R69, major 0x01. -/
theorem back_0x01 (w : BitVec 32) (i : Instr) (h : w.extractLsb' 23 6 = 0x01#6) (hd : decodeFields w = .ok i) :
    encode i = [w] := by
  rw [decode_0x01 w h] at hd
  (try simp only [guardZ, illegal] at hd)
  (repeat' split at hd)
  all_goals first | (cases hd; done) | (
    injection hd with e; subst e; (try simp only [Bool.and_eq_true, beq_iff_eq] at *)
    refine congrArg (fun x => [x]) ?_
    (refine Eq.trans ?_ (encR_back w); congr 1))
  all_goals first | exact h.symm | (apply BitVec.eq_of_toNat_eq; symm; assumption)

/-- R69, major 0x02. -/
theorem back_0x02 (w : BitVec 32) (i : Instr) (h : w.extractLsb' 23 6 = 0x02#6) (hd : decodeFields w = .ok i) :
    encode i = [w] := by
  rw [decode_0x02 w h] at hd
  (try simp only [guardZ, illegal] at hd)
  (repeat' split at hd)
  all_goals first | (cases hd; done) | (
    injection hd with e; subst e; (try simp only [Bool.and_eq_true, beq_iff_eq] at *)
    refine congrArg (fun x => [x]) ?_
    (refine Eq.trans ?_ (encR_back w); congr 1))
  all_goals first | exact h.symm | (apply BitVec.eq_of_toNat_eq; symm; assumption)

/-- R69, major 0x03. -/
theorem back_0x03 (w : BitVec 32) (i : Instr) (h : w.extractLsb' 23 6 = 0x03#6) (hd : decodeFields w = .ok i) :
    encode i = [w] := by
  rw [decode_0x03 w h] at hd
  (try simp only [guardZ, illegal] at hd)
  (repeat' split at hd)
  all_goals first | (cases hd; done) | (
    injection hd with e; subst e; (try simp only [Bool.and_eq_true, beq_iff_eq] at *)
    refine congrArg (fun x => [x]) ?_
    (refine Eq.trans ?_ (encR_back w); congr 1))
  all_goals first
    | exact h.symm
    | (symm; assumption)
    | (apply BitVec.eq_of_toNat_eq; symm; assumption)

/-- R69, major 0x04. -/
theorem back_0x04 (w : BitVec 32) (i : Instr) (h : w.extractLsb' 23 6 = 0x04#6) (hd : decodeFields w = .ok i) :
    encode i = [w] := by
  rw [decode_0x04 w h] at hd
  (try simp only [guardZ, illegal] at hd)
  (repeat' split at hd)
  all_goals first | (cases hd; done) | (
    injection hd with e; subst e; (try simp only [Bool.and_eq_true, beq_iff_eq] at *)
    refine congrArg (fun x => [x]) ?_
    (refine Eq.trans ?_ (encR_back w); congr 1))
  all_goals first
    | exact h.symm
    | (symm; assumption)
    | (apply BitVec.eq_of_toNat_eq; symm; assumption)

/-- R69, major 0x05. -/
theorem back_0x05 (w : BitVec 32) (i : Instr) (h : w.extractLsb' 23 6 = 0x05#6) (hd : decodeFields w = .ok i) :
    encode i = [w] := by
  rw [decode_0x05 w h] at hd
  (try simp only [guardZ, illegal] at hd)
  (repeat' split at hd)
  all_goals first | (cases hd; done) | (
    injection hd with e; subst e; (try simp only [Bool.and_eq_true, beq_iff_eq] at *)
    refine congrArg (fun x => [x]) ?_
    (refine Eq.trans ?_ (encR_back w); congr 1))
  all_goals first | exact h.symm | (apply BitVec.eq_of_toNat_eq; symm; assumption)

/-- R69, major 0x06. -/
theorem back_0x06 (w : BitVec 32) (i : Instr) (h : w.extractLsb' 23 6 = 0x06#6) (hd : decodeFields w = .ok i) :
    encode i = [w] := by
  rw [decode_0x06 w h] at hd
  (try simp only [guardZ, illegal] at hd)
  (repeat' split at hd)
  all_goals first | (cases hd; done) | (
    injection hd with e; subst e; (try simp only [Bool.and_eq_true, beq_iff_eq] at *)
    refine congrArg (fun x => [x]) ?_
    (refine Eq.trans ?_ (encR_back w); congr 1))
  all_goals first | exact h.symm | (apply BitVec.eq_of_toNat_eq; symm; assumption)

/-- R69, major 0x07. -/
theorem back_0x07 (w : BitVec 32) (i : Instr) (h : w.extractLsb' 23 6 = 0x07#6) (hd : decodeFields w = .ok i) :
    encode i = [w] := by
  rw [decode_0x07 w h] at hd
  (try simp only [guardZ, illegal] at hd)
  (repeat' split at hd)
  all_goals first | (cases hd; done) | (
    injection hd with e; subst e; (try simp only [Bool.and_eq_true, beq_iff_eq] at *)
    refine congrArg (fun x => [x]) ?_
    (refine Eq.trans ?_ (encR_back w); congr 1))
  all_goals first | exact h.symm | (apply BitVec.eq_of_toNat_eq; symm; assumption)

/-- R69, major 0x08. -/
theorem back_0x08 (w : BitVec 32) (i : Instr) (h : w.extractLsb' 23 6 = 0x08#6) (hd : decodeFields w = .ok i) :
    encode i = [w] := by
  rw [decode_0x08 w h] at hd
  (try simp only [guardZ, illegal] at hd)
  (repeat' split at hd)
  all_goals first | (cases hd; done) | (
    injection hd with e; subst e; (try simp only [Bool.and_eq_true, beq_iff_eq] at *)
    refine congrArg (fun x => [x]) ?_
    (refine Eq.trans ?_ (encR_back w); congr 1))
  all_goals first | exact h.symm | (apply BitVec.eq_of_toNat_eq; symm; assumption)

/-- R69, major 0x09. -/
theorem back_0x09 (w : BitVec 32) (i : Instr) (h : w.extractLsb' 23 6 = 0x09#6) (hd : decodeFields w = .ok i) :
    encode i = [w] := by
  rw [decode_0x09 w h] at hd
  all_goals first | (cases hd; done) | (
    injection hd with e; subst e; (try simp only [Bool.and_eq_true, beq_iff_eq] at *)
    refine congrArg (fun x => [x]) ?_
    (refine Eq.trans ?_ (encI_back w); congr 1))
  exact h.symm

/-- R69, major 0x0A. -/
theorem back_0x0A (w : BitVec 32) (i : Instr) (h : w.extractLsb' 23 6 = 0x0A#6) (hd : decodeFields w = .ok i) :
    encode i = [w] := by
  rw [decode_0x0A w h] at hd
  all_goals first | (cases hd; done) | (
    injection hd with e; subst e; (try simp only [Bool.and_eq_true, beq_iff_eq] at *)
    refine congrArg (fun x => [x]) ?_
    (refine Eq.trans ?_ (encI_back w); congr 1))
  exact h.symm

/-- R69, major 0x0B. -/
theorem back_0x0B (w : BitVec 32) (i : Instr) (h : w.extractLsb' 23 6 = 0x0B#6) (hd : decodeFields w = .ok i) :
    encode i = [w] := by
  rw [decode_0x0B w h] at hd
  all_goals first | (cases hd; done) | (
    injection hd with e; subst e; (try simp only [Bool.and_eq_true, beq_iff_eq] at *)
    refine congrArg (fun x => [x]) ?_
    (refine Eq.trans ?_ (encI_back w); congr 1))
  exact h.symm

/-- R69, major 0x0C. -/
theorem back_0x0C (w : BitVec 32) (i : Instr) (h : w.extractLsb' 23 6 = 0x0C#6) (hd : decodeFields w = .ok i) :
    encode i = [w] := by
  rw [decode_0x0C w h] at hd
  all_goals first | (cases hd; done) | (
    injection hd with e; subst e; (try simp only [Bool.and_eq_true, beq_iff_eq] at *)
    refine congrArg (fun x => [x]) ?_
    (refine Eq.trans ?_ (encI_back w); congr 1))
  exact h.symm

/-- R69, major 0x0D. -/
theorem back_0x0D (w : BitVec 32) (i : Instr) (h : w.extractLsb' 23 6 = 0x0D#6) (hd : decodeFields w = .ok i) :
    encode i = [w] := by
  rw [decode_0x0D w h] at hd
  (try simp only [guardZ, illegal] at hd)
  (repeat' split at hd)
  all_goals first | (cases hd; done) | (
    injection hd with e; subst e; (try simp only [Bool.and_eq_true, beq_iff_eq] at *)
    refine congrArg (fun x => [x]) ?_
    (refine Eq.trans ?_ (encShi_back w (by assumption)); congr 1))
  all_goals first
    | exact h.symm
    | (symm; assumption)
    | (apply BitVec.eq_of_toNat_eq; symm; assumption)

/-- R69, major 0x0E. -/
theorem back_0x0E (w : BitVec 32) (i : Instr) (h : w.extractLsb' 23 6 = 0x0E#6) (hd : decodeFields w = .ok i) :
    encode i = [w] := by
  rw [decode_0x0E w h] at hd
  all_goals first | (cases hd; done) | (
    injection hd with e; subst e; (try simp only [Bool.and_eq_true, beq_iff_eq] at *)
    refine congrArg (fun x => [x]) ?_
    (refine Eq.trans ?_ (encL_back w); congr 1))
  exact h.symm

/-- R69, major 0x0F. -/
theorem back_0x0F (w : BitVec 32) (i : Instr) (h : w.extractLsb' 23 6 = 0x0F#6) (hd : decodeFields w = .ok i) :
    encode i = [w] := by
  rw [decode_0x0F w h] at hd
  all_goals first | (cases hd; done) | (
    injection hd with e; subst e; (try simp only [Bool.and_eq_true, beq_iff_eq] at *)
    refine congrArg (fun x => [x]) ?_
    (refine Eq.trans ?_ (encL_back w); congr 1))
  exact h.symm

/-- R69, major 0x10. -/
theorem back_0x10 (w : BitVec 32) (i : Instr) (h : w.extractLsb' 23 6 = 0x10#6) (hd : decodeFields w = .ok i) :
    encode i = [w] := by
  rw [decode_0x10 w h] at hd
  (try simp only [guardZ, illegal] at hd)
  (repeat' split at hd)
  all_goals first | (cases hd; done) | (
    injection hd with e; subst e; (try simp only [Bool.and_eq_true, beq_iff_eq] at *)
    refine congrArg (fun x => [x]) ?_
    first | (refine Eq.trans ?_ (encP_back w (by assumption) (by assumption)); congr 1) | (refine Eq.trans ?_ (encPI_back w (one_of (by simpa using ‹_›))); congr 1))
  all_goals first
    | exact h.symm
    | (symm; assumption)

/-- R69, major 0x11. -/
theorem back_0x11 (w : BitVec 32) (i : Instr) (h : w.extractLsb' 23 6 = 0x11#6) (hd : decodeFields w = .ok i) :
    encode i = [w] := by
  rw [decode_0x11 w h] at hd
  (try simp only [guardZ, illegal] at hd)
  (repeat' split at hd)
  all_goals first | (cases hd; done) | (
    injection hd with e; subst e; (try simp only [Bool.and_eq_true, beq_iff_eq] at *)
    refine congrArg (fun x => [x]) ?_
    (refine Eq.trans ?_ (encPlog_back w (by assumption)); congr 1))
  all_goals first
    | exact h.symm
    | (symm; assumption)

/-- R69, major 0x12. -/
theorem back_0x12 (w : BitVec 32) (i : Instr) (h : w.extractLsb' 23 6 = 0x12#6) (hd : decodeFields w = .ok i) :
    encode i = [w] := by
  rw [decode_0x12 w h] at hd
  (try simp only [guardZ, illegal] at hd)
  (repeat' split at hd)
  all_goals first | (cases hd; done) | (
    injection hd with e; subst e; (try simp only [Bool.and_eq_true, beq_iff_eq] at *)
    refine congrArg (fun x => [x]) ?_
    (try cases ‹_ ∧ _›)
    (refine Eq.trans ?_ (encR_back w); congr 1))
  all_goals first
    | exact h.symm
    | (symm; assumption)
    | (apply BitVec.eq_of_toNat_eq; symm; assumption)
    | (symm; apply zsub _ _ (a := 2) (m := 14) (by assumption) (by decide) (by decide))

/-- R69, major 0x13. -/
theorem back_0x13 (w : BitVec 32) (i : Instr) (h : w.extractLsb' 23 6 = 0x13#6) (hd : decodeFields w = .ok i) :
    encode i = [w] := by
  rw [decode_0x13 w h] at hd
  all_goals first | (cases hd; done) | (
    injection hd with e; subst e; (try simp only [Bool.and_eq_true, beq_iff_eq] at *)
    refine congrArg (fun x => [x]) ?_
    (refine Eq.trans ?_ (encB_back w); congr 1))
  exact h.symm

/-- R69, major 0x14. -/
theorem back_0x14 (w : BitVec 32) (i : Instr) (h : w.extractLsb' 23 6 = 0x14#6) (hd : decodeFields w = .ok i) :
    encode i = [w] := by
  rw [decode_0x14 w h] at hd
  all_goals first | (cases hd; done) | (
    injection hd with e; subst e; (try simp only [Bool.and_eq_true, beq_iff_eq] at *)
    refine congrArg (fun x => [x]) ?_
    (refine Eq.trans ?_ (encL_back w); congr 1))
  exact h.symm

/-- R69, major 0x15. -/
theorem back_0x15 (w : BitVec 32) (i : Instr) (h : w.extractLsb' 23 6 = 0x15#6) (hd : decodeFields w = .ok i) :
    encode i = [w] := by
  rw [decode_0x15 w h] at hd
  all_goals first | (cases hd; done) | (
    injection hd with e; subst e; (try simp only [Bool.and_eq_true, beq_iff_eq] at *)
    refine congrArg (fun x => [x]) ?_
    (refine Eq.trans ?_ (encI_back w); congr 1))
  exact h.symm

/-- R69, major 0x16. -/
theorem back_0x16 (w : BitVec 32) (i : Instr) (h : w.extractLsb' 23 6 = 0x16#6) (hd : decodeFields w = .ok i) :
    encode i = [w] := by
  rw [decode_0x16 w h] at hd
  all_goals first | (cases hd; done) | (
    injection hd with e; subst e; (try simp only [Bool.and_eq_true, beq_iff_eq] at *)
    refine congrArg (fun x => [x]) ?_
    (refine Eq.trans ?_ (encM_back w); congr 1))
  exact h.symm

/-- R69, major 0x17. -/
theorem back_0x17 (w : BitVec 32) (i : Instr) (h : w.extractLsb' 23 6 = 0x17#6) (hd : decodeFields w = .ok i) :
    encode i = [w] := by
  rw [decode_0x17 w h] at hd
  all_goals first | (cases hd; done) | (
    injection hd with e; subst e; (try simp only [Bool.and_eq_true, beq_iff_eq] at *)
    refine congrArg (fun x => [x]) ?_
    (refine Eq.trans ?_ (encM_back w); congr 1))
  exact h.symm

/-- R69, major 0x18. -/
theorem back_0x18 (w : BitVec 32) (i : Instr) (h : w.extractLsb' 23 6 = 0x18#6) (hd : decodeFields w = .ok i) :
    encode i = [w] := by
  rw [decode_0x18 w h] at hd
  all_goals first | (cases hd; done) | (
    injection hd with e; subst e; (try simp only [Bool.and_eq_true, beq_iff_eq] at *)
    refine congrArg (fun x => [x]) ?_
    (refine Eq.trans ?_ (encM_back w); congr 1))
  exact h.symm

/-- R69, major 0x19. -/
theorem back_0x19 (w : BitVec 32) (i : Instr) (h : w.extractLsb' 23 6 = 0x19#6) (hd : decodeFields w = .ok i) :
    encode i = [w] := by
  rw [decode_0x19 w h] at hd
  all_goals first | (cases hd; done) | (
    injection hd with e; subst e; (try simp only [Bool.and_eq_true, beq_iff_eq] at *)
    refine congrArg (fun x => [x]) ?_
    (refine Eq.trans ?_ (encM_back w); congr 1))
  exact h.symm

/-- R69, major 0x1A. -/
theorem back_0x1A (w : BitVec 32) (i : Instr) (h : w.extractLsb' 23 6 = 0x1A#6) (hd : decodeFields w = .ok i) :
    encode i = [w] := by
  rw [decode_0x1A w h] at hd
  all_goals first | (cases hd; done) | (
    injection hd with e; subst e; (try simp only [Bool.and_eq_true, beq_iff_eq] at *)
    refine congrArg (fun x => [x]) ?_
    (refine Eq.trans ?_ (encM_back w); congr 1))
  exact h.symm

/-- R69, major 0x1B. -/
theorem back_0x1B (w : BitVec 32) (i : Instr) (h : w.extractLsb' 23 6 = 0x1B#6) (hd : decodeFields w = .ok i) :
    encode i = [w] := by
  rw [decode_0x1B w h] at hd
  all_goals first | (cases hd; done) | (
    injection hd with e; subst e; (try simp only [Bool.and_eq_true, beq_iff_eq] at *)
    refine congrArg (fun x => [x]) ?_
    (refine Eq.trans ?_ (encM_back w); congr 1))
  exact h.symm

/-- R69, major 0x1C. -/
theorem back_0x1C (w : BitVec 32) (i : Instr) (h : w.extractLsb' 23 6 = 0x1C#6) (hd : decodeFields w = .ok i) :
    encode i = [w] := by
  rw [decode_0x1C w h] at hd
  all_goals first | (cases hd; done) | (
    injection hd with e; subst e; (try simp only [Bool.and_eq_true, beq_iff_eq] at *)
    refine congrArg (fun x => [x]) ?_
    (refine Eq.trans ?_ (encM_back w); congr 1))
  exact h.symm

/-- R69, major 0x1D. -/
theorem back_0x1D (w : BitVec 32) (i : Instr) (h : w.extractLsb' 23 6 = 0x1D#6) (hd : decodeFields w = .ok i) :
    encode i = [w] := by
  rw [decode_0x1D w h] at hd
  all_goals first | (cases hd; done) | (
    injection hd with e; subst e; (try simp only [Bool.and_eq_true, beq_iff_eq] at *)
    refine congrArg (fun x => [x]) ?_
    (refine Eq.trans ?_ (encM_back w); congr 1))
  exact h.symm

/-- R69, major 0x1E. -/
theorem back_0x1E (w : BitVec 32) (i : Instr) (h : w.extractLsb' 23 6 = 0x1E#6) (hd : decodeFields w = .ok i) :
    encode i = [w] := by
  rw [decode_0x1E w h] at hd
  all_goals first | (cases hd; done) | (
    injection hd with e; subst e; (try simp only [Bool.and_eq_true, beq_iff_eq] at *)
    refine congrArg (fun x => [x]) ?_
    (refine Eq.trans ?_ (encM_back w); congr 1))
  exact h.symm

/-- R69, major 0x1F. -/
theorem back_0x1F (w : BitVec 32) (i : Instr) (h : w.extractLsb' 23 6 = 0x1F#6) (hd : decodeFields w = .ok i) :
    encode i = [w] := by
  rw [decode_0x1F w h] at hd
  all_goals first | (cases hd; done) | (
    injection hd with e; subst e; (try simp only [Bool.and_eq_true, beq_iff_eq] at *)
    refine congrArg (fun x => [x]) ?_
    (refine Eq.trans ?_ (encM_back w); congr 1))
  exact h.symm

/-- R69, major 0x20. -/
theorem back_0x20 (w : BitVec 32) (i : Instr) (h : w.extractLsb' 23 6 = 0x20#6) (hd : decodeFields w = .ok i) :
    encode i = [w] := by
  rw [decode_0x20 w h] at hd
  all_goals first | (cases hd; done) | (
    injection hd with e; subst e; (try simp only [Bool.and_eq_true, beq_iff_eq] at *)
    refine congrArg (fun x => [x]) ?_
    (refine Eq.trans ?_ (encM_back w); congr 1))
  exact h.symm

/-- R69, major 0x21. -/
theorem back_0x21 (w : BitVec 32) (i : Instr) (h : w.extractLsb' 23 6 = 0x21#6) (hd : decodeFields w = .ok i) :
    encode i = [w] := by
  rw [decode_0x21 w h] at hd
  (try simp only [guardZ, illegal] at hd)
  (repeat' split at hd)
  all_goals first | (cases hd; done) | (
    injection hd with e; subst e; (try simp only [Bool.and_eq_true, beq_iff_eq] at *)
    refine congrArg (fun x => [x]) ?_
    (refine Eq.trans ?_ (encR_back w); congr 1))
  all_goals first
    | exact h.symm
    | (symm; assumption)
    | (apply BitVec.eq_of_toNat_eq; symm; assumption)

/-- R69, major 0x22. -/
theorem back_0x22 (w : BitVec 32) (i : Instr) (h : w.extractLsb' 23 6 = 0x22#6) (hd : decodeFields w = .ok i) :
    encode i = [w] := by
  rw [decode_0x22 w h] at hd
  (try simp only [guardZ, illegal] at hd)
  (repeat' split at hd)
  all_goals first | (cases hd; done) | (
    injection hd with e; subst e; (try simp only [Bool.and_eq_true, beq_iff_eq] at *)
    refine congrArg (fun x => [x]) ?_
    (refine Eq.trans ?_ (encR_back w); congr 1))
  all_goals first | exact h.symm | (apply BitVec.eq_of_toNat_eq; symm; assumption)

/-- R69, major 0x23. -/
theorem back_0x23 (w : BitVec 32) (i : Instr) (h : w.extractLsb' 23 6 = 0x23#6) (hd : decodeFields w = .ok i) :
    encode i = [w] := by
  rw [decode_0x23 w h] at hd
  (try simp only [guardZ, illegal] at hd)
  (repeat' split at hd)
  all_goals first | (cases hd; done) | (
    injection hd with e; subst e; (try simp only [Bool.and_eq_true, beq_iff_eq] at *)
    refine congrArg (fun x => [x]) ?_
    (refine Eq.trans ?_ (encR_back w); congr 1))
  all_goals first | exact h.symm | (apply BitVec.eq_of_toNat_eq; symm; assumption)

/-- R69, major 0x24. -/
theorem back_0x24 (w : BitVec 32) (i : Instr) (h : w.extractLsb' 23 6 = 0x24#6) (hd : decodeFields w = .ok i) :
    encode i = [w] := by
  rw [decode_0x24 w h] at hd
  (try simp only [guardZ, illegal] at hd)
  (repeat' split at hd)
  all_goals first | (cases hd; done) | (
    injection hd with e; subst e; (try simp only [Bool.and_eq_true, beq_iff_eq] at *)
    refine congrArg (fun x => [x]) ?_
    (refine Eq.trans ?_ (encR_back w); congr 1))
  all_goals first | exact h.symm | (apply BitVec.eq_of_toNat_eq; symm; assumption)

/-- R69, major 0x25. -/
theorem back_0x25 (w : BitVec 32) (i : Instr) (h : w.extractLsb' 23 6 = 0x25#6) (hd : decodeFields w = .ok i) :
    encode i = [w] := by
  rw [decode_0x25 w h] at hd
  (try simp only [guardZ, illegal] at hd)
  (repeat' split at hd)
  all_goals first | (cases hd; done) | (
    injection hd with e; subst e; (try simp only [Bool.and_eq_true, beq_iff_eq] at *)
    refine congrArg (fun x => [x]) ?_
    (refine Eq.trans ?_ (encFence_back w (by assumption)); congr 1))
  all_goals first
    | exact h.symm
    | (symm; assumption)

/-- R69, major 0x26. -/
theorem back_0x26 (w : BitVec 32) (i : Instr) (h : w.extractLsb' 23 6 = 0x26#6) (hd : decodeFields w = .ok i) :
    encode i = [w] := by
  rw [decode_0x26 w h] at hd
  (try simp only [guardZ, illegal] at hd)
  (repeat' split at hd)
  all_goals first | (cases hd; done) | (
    injection hd with e; subst e; (try simp only [Bool.and_eq_true, beq_iff_eq] at *)
    refine congrArg (fun x => [x]) ?_
    (refine Eq.trans ?_ (encR_back w); congr 1))
  all_goals first
    | exact h.symm
    | (symm; assumption)
    | (apply BitVec.eq_of_toNat_eq; symm; assumption)
    | (symm; apply zsub _ _ (a := 2) (m := 14) (by assumption) (by decide) (by decide))

/-- R69, major 0x27. -/
theorem back_0x27 (w : BitVec 32) (i : Instr) (h : w.extractLsb' 23 6 = 0x27#6) (hd : decodeFields w = .ok i) :
    encode i = [w] := by
  rw [decode_0x27 w h] at hd
  (try simp only [guardZ, illegal] at hd)
  (repeat' split at hd)
  all_goals first | (cases hd; done) | (
    injection hd with e; subst e; (try simp only [Bool.and_eq_true, beq_iff_eq] at *)
    refine congrArg (fun x => [x]) ?_
    (refine Eq.trans ?_ (encR_back w); congr 1))
  all_goals first
    | exact h.symm
    | (symm; assumption)
    | (apply BitVec.eq_of_toNat_eq; symm; assumption)

/-- R69, major 0x28. -/
theorem back_0x28 (w : BitVec 32) (i : Instr) (h : w.extractLsb' 23 6 = 0x28#6) (hd : decodeFields w = .ok i) :
    encode i = [w] := by
  rw [decode_0x28 w h] at hd
  (try simp only [guardZ, illegal] at hd)
  (repeat' split at hd)
  all_goals first | (cases hd; done) | (
    injection hd with e; subst e; (try simp only [Bool.and_eq_true, beq_iff_eq] at *)
    refine congrArg (fun x => [x]) ?_
    (refine Eq.trans ?_ (encR_back w); congr 1))
  all_goals first | exact h.symm | (apply BitVec.eq_of_toNat_eq; symm; assumption)

/-- R69, major 0x29. -/
theorem back_0x29 (w : BitVec 32) (i : Instr) (h : w.extractLsb' 23 6 = 0x29#6) (hd : decodeFields w = .ok i) :
    encode i = [w] := by
  rw [decode_0x29 w h] at hd
  (try simp only [guardZ, illegal] at hd)
  (repeat' split at hd)
  all_goals first | (cases hd; done) | (
    injection hd with e; subst e; (try simp only [Bool.and_eq_true, beq_iff_eq] at *)
    refine congrArg (fun x => [x]) ?_
    (refine Eq.trans ?_ (encR_back w); congr 1))
  all_goals first
    | exact h.symm
    | (symm; assumption)
    | (apply BitVec.eq_of_toNat_eq; symm; assumption)

/-- R69, major 0x2A. -/
theorem back_0x2A (w : BitVec 32) (i : Instr) (h : w.extractLsb' 23 6 = 0x2A#6) (hd : decodeFields w = .ok i) :
    encode i = [w] := by
  rw [decode_0x2A w h] at hd
  (try simp only [guardZ, illegal] at hd)
  (repeat' split at hd)
  all_goals first | (cases hd; done) | (
    injection hd with e; subst e; (try simp only [Bool.and_eq_true, beq_iff_eq] at *)
    refine congrArg (fun x => [x]) ?_
    (refine Eq.trans ?_ (encR_back w); congr 1))
  all_goals first | exact h.symm | (apply BitVec.eq_of_toNat_eq; symm; assumption)

/-- R69, major 0x2B. -/
theorem back_0x2B (w : BitVec 32) (i : Instr) (h : w.extractLsb' 23 6 = 0x2B#6) (hd : decodeFields w = .ok i) :
    encode i = [w] := by
  rw [decode_0x2B w h] at hd
  (try simp only [guardZ, illegal] at hd)
  (repeat' split at hd)
  all_goals first | (cases hd; done) | (
    injection hd with e; subst e; (try simp only [Bool.and_eq_true, beq_iff_eq] at *)
    refine congrArg (fun x => [x]) ?_
    (refine Eq.trans ?_ (encR_back w); congr 1))
  all_goals first
    | exact h.symm
    | (symm; assumption)
    | (apply BitVec.eq_of_toNat_eq; symm; assumption)

/-- R69, major 0x2C. -/
theorem back_0x2C (w : BitVec 32) (i : Instr) (h : w.extractLsb' 23 6 = 0x2C#6) (hd : decodeFields w = .ok i) :
    encode i = [w] := by
  rw [decode_0x2C w h] at hd
  (try simp only [guardZ, illegal] at hd)
  (repeat' split at hd)
  all_goals first | (cases hd; done) | (
    injection hd with e; subst e; (try simp only [Bool.and_eq_true, beq_iff_eq] at *)
    refine congrArg (fun x => [x]) ?_
    (refine Eq.trans ?_ (encR_back w); congr 1))
  all_goals first | exact h.symm | (apply BitVec.eq_of_toNat_eq; symm; assumption)

/-- R69, major 0x2D. -/
theorem back_0x2D (w : BitVec 32) (i : Instr) (h : w.extractLsb' 23 6 = 0x2D#6) (hd : decodeFields w = .ok i) :
    encode i = [w] := by
  rw [decode_0x2D w h] at hd
  (try simp only [guardZ, illegal] at hd)
  (repeat' split at hd)
  all_goals first | (cases hd; done) | (
    injection hd with e; subst e; (try simp only [Bool.and_eq_true, beq_iff_eq] at *)
    refine congrArg (fun x => [x]) ?_
    (refine Eq.trans ?_ (encP_back w (by assumption) (by assumption)); congr 1))
  all_goals first
    | exact h.symm
    | (symm; assumption)

/-- R69, major 0x2E. -/
theorem back_0x2E (w : BitVec 32) (i : Instr) (h : w.extractLsb' 23 6 = 0x2E#6) (hd : decodeFields w = .ok i) :
    encode i = [w] := by
  rw [decode_0x2E w h] at hd
  (try simp only [guardZ, illegal] at hd)
  (repeat' split at hd)
  all_goals first | (cases hd; done) | (
    injection hd with e; subst e; (try simp only [Bool.and_eq_true, beq_iff_eq] at *)
    refine congrArg (fun x => [x]) ?_
    (try cases ‹_ ∧ _›)
    (refine Eq.trans ?_ (encR_back w); congr 1))
  all_goals first
    | exact h.symm
    | (symm; assumption)
    | (apply BitVec.eq_of_toNat_eq; symm; assumption)
    | (symm; apply zsub _ _ (a := 2) (m := 21) (by assumption) (by decide) (by decide))

/-- R69, major 0x2F. -/
theorem back_0x2F (w : BitVec 32) (i : Instr) (h : w.extractLsb' 23 6 = 0x2F#6) (hd : decodeFields w = .ok i) :
    encode i = [w] := by
  rw [decode_0x2F w h] at hd
  (try simp only [guardZ, illegal] at hd)
  (repeat' split at hd)
  all_goals first | (cases hd; done) | (
    injection hd with e; subst e; (try simp only [Bool.and_eq_true, beq_iff_eq] at *)
    refine congrArg (fun x => [x]) ?_
    (try cases ‹_ ∧ _›)
    (refine Eq.trans ?_ (encR_back w); congr 1))
  all_goals first
    | exact h.symm
    | (symm; assumption)
    | (apply BitVec.eq_of_toNat_eq; symm; assumption)

/-- R69, major 0x30. -/
theorem back_0x30 (w : BitVec 32) (i : Instr) (h : w.extractLsb' 23 6 = 0x30#6) (hd : decodeFields w = .ok i) :
    encode i = [w] := by
  rw [decode_0x30 w h] at hd
  (try simp only [guardZ, illegal] at hd)
  (repeat' split at hd)
  all_goals first | (cases hd; done) | (
    injection hd with e; subst e; (try simp only [Bool.and_eq_true, beq_iff_eq] at *)
    refine congrArg (fun x => [x]) ?_
    (refine Eq.trans ?_ (encR_back w); congr 1))
  all_goals first
    | exact h.symm
    | (symm; assumption)
    | (apply BitVec.eq_of_toNat_eq; symm; assumption)
    | (symm; apply zsub _ _ (a := 2) (m := 14) (by assumption) (by decide) (by decide))

/-- R69, major 0x31. -/
theorem back_0x31 (w : BitVec 32) (i : Instr) (h : w.extractLsb' 23 6 = 0x31#6) (hd : decodeFields w = .ok i) :
    encode i = [w] := by
  rw [decode_0x31 w h] at hd
  (try simp only [guardZ, illegal] at hd)
  (repeat' split at hd)
  all_goals first | (cases hd; done) | (
    injection hd with e; subst e; (try simp only [Bool.and_eq_true, beq_iff_eq] at *)
    refine congrArg (fun x => [x]) ?_
    (refine Eq.trans ?_ (encR_back w); congr 1))
  all_goals first
    | exact h.symm
    | (symm; assumption)
    | (apply BitVec.eq_of_toNat_eq; symm; assumption)

/-- R69, major 0x32. -/
theorem back_0x32 (w : BitVec 32) (i : Instr) (h : w.extractLsb' 23 6 = 0x32#6) (hd : decodeFields w = .ok i) :
    encode i = [w] := by
  rw [decode_0x32 w h] at hd
  (try simp only [guardZ, illegal] at hd)
  (repeat' split at hd)
  all_goals first | (cases hd; done) | (
    injection hd with e; subst e; (try simp only [Bool.and_eq_true, beq_iff_eq] at *)
    refine congrArg (fun x => [x]) ?_
    (refine Eq.trans ?_ (encS_back w); congr 1))
  all_goals first
    | exact h.symm
    | (symm; assumption)

/-- R69, major 0x33. -/
theorem back_0x33 (w : BitVec 32) (i : Instr) (h : w.extractLsb' 23 6 = 0x33#6) (hd : decodeFields w = .ok i) :
    encode i = [w] := by
  rw [decode_0x33 w h] at hd
  (try simp only [guardZ, illegal] at hd)
  (repeat' split at hd)
  all_goals first | (cases hd; done) | (
    injection hd with e; subst e; (try simp only [Bool.and_eq_true, beq_iff_eq] at *)
    refine congrArg (fun x => [x]) ?_
    (refine Eq.trans ?_ (encS_back w); congr 1))
  all_goals first
    | exact h.symm
    | (symm; assumption)

/-- R69, major 0x34. -/
theorem back_0x34 (w : BitVec 32) (i : Instr) (h : w.extractLsb' 23 6 = 0x34#6) (hd : decodeFields w = .ok i) :
    encode i = [w] := by
  have kR : ∀ m : BitVec 2, ∀ b : BitVec 7, (w.extractLsb' 0 2).toNat = m.toNat → w.extractLsb' 2 7 = b →
      [encR (w.extractLsb' 29 3) 0x34#6 (w.extractLsb' 16 7) (w.extractLsb' 9 7) b m] = [w] := by
    intro m b hm hb
    rw [← hb, ← BitVec.eq_of_toNat_eq hm, ← h, encR_back]
  have kB : ∀ m : BitVec 2, (w.extractLsb' 0 2).toNat = m.toNat →
      [encBrk (w.extractLsb' 29 3) 0x34#6 (w.extractLsb' 2 21) m] = [w] := by
    intro m hm
    rw [← BitVec.eq_of_toNat_eq hm, ← h, encBrk_back]
  rw [decode_0x34 w h] at hd
  split at hd
  · injection hd with e; subst e; exact kR _ _ ‹_› rfl
  · injection hd with e; subst e; exact kR _ _ ‹_› rfl
  · injection hd with e; subst e; exact kB _ ‹_›
  · cases hd

/-- R69, major 0x35. -/
theorem back_0x35 (w : BitVec 32) (i : Instr) (h : w.extractLsb' 23 6 = 0x35#6) (hd : decodeFields w = .ok i) :
    encode i = [w] := by
  rw [decode_0x35 w h] at hd
  (try simp only [guardZ, illegal] at hd)
  (repeat' split at hd)
  all_goals first | (cases hd; done) | (
    injection hd with e; subst e; (try simp only [Bool.and_eq_true, beq_iff_eq] at *)
    refine congrArg (fun x => [x]) ?_
    (refine Eq.trans ?_ (encV_back w); congr 1))
  all_goals first
    | exact h.symm
    | (symm; assumption)
    | (apply BitVec.eq_of_toNat_eq; symm; assumption)

/-- R69, major 0x36. -/
theorem back_0x36 (w : BitVec 32) (i : Instr) (h : w.extractLsb' 23 6 = 0x36#6) (hd : decodeFields w = .ok i) :
    encode i = [w] := by
  have key : ∀ m x : BitVec 4, ∀ b c : BitVec 6, (w.extractLsb' 0 4).toNat = m.toNat → w.extractLsb' 5 6 = b →
      [encVF (w.extractLsb' 29 3) 0x36#6 (w.extractLsb' 17 6) (w.extractLsb' 11 6) b (w.extractLsb' 4 1) m] = [w] := by
    intro m _ b _ hm hb
    rw [← hb, ← BitVec.eq_of_toNat_eq hm, ← h, encVF_back]
  rw [decode_0x36 w h] at hd
  generalize hm : (w.extractLsb' 0 4).toNat = n at hd key
  have hn : n < 16 := hm ▸ (w.extractLsb' 0 4).isLt
  simp only [guardZ, illegal] at hd
  revert hd
  clear hm h
  split
  all_goals first
    | (intro hd; injection hd with e; subst e; exact key _ 0#4 _ 0#6 rfl rfl)
    | (split <;> intro hd <;> first
        | (cases hd; done)
        | (injection hd with e; subst e; exact key _ 0#4 _ 0#6 rfl (eq_of_beq ‹_›)))
    | (intro hd; cases hd; done)

/-- R69, major 0x37. -/
theorem back_0x37 (w : BitVec 32) (i : Instr) (h : w.extractLsb' 23 6 = 0x37#6) (hd : decodeFields w = .ok i) :
    encode i = [w] := by
  rw [decode_0x37 w h] at hd
  (try simp only [guardZ, illegal] at hd)
  (repeat' split at hd)
  all_goals first | (cases hd; done) | (
    injection hd with e; subst e; (try simp only [Bool.and_eq_true, beq_iff_eq] at *)
    refine congrArg (fun x => [x]) ?_
    (refine Eq.trans ?_ (encV_back w); congr 1))
  all_goals first | exact h.symm | (apply BitVec.eq_of_toNat_eq; symm; assumption)

/-- R69, major 0x38. -/
theorem back_0x38 (w : BitVec 32) (i : Instr) (h : w.extractLsb' 23 6 = 0x38#6) (hd : decodeFields w = .ok i) :
    encode i = [w] := by
  rw [decode_0x38 w h] at hd
  (try simp only [guardZ, illegal] at hd)
  (repeat' split at hd)
  all_goals first | (cases hd; done) | (
    injection hd with e; subst e; (try simp only [Bool.and_eq_true, beq_iff_eq] at *)
    refine congrArg (fun x => [x]) ?_
    (refine Eq.trans ?_ (encVM_back w); congr 1))
  all_goals first | exact h.symm | (apply BitVec.eq_of_toNat_eq; symm; assumption)

/-- R69, major 0x39. -/
theorem back_0x39 (w : BitVec 32) (i : Instr) (h : w.extractLsb' 23 6 = 0x39#6) (hd : decodeFields w = .ok i) :
    encode i = [w] := by
  rw [decode_0x39 w h] at hd
  (try simp only [guardZ, illegal] at hd)
  (repeat' split at hd)
  all_goals first | (cases hd; done) | (
    injection hd with e; subst e; (try simp only [Bool.and_eq_true, beq_iff_eq] at *)
    refine congrArg (fun x => [x]) ?_
    (refine Eq.trans ?_ (encVX_back w); congr 1))
  all_goals first
    | exact h.symm
    | (symm; assumption)
    | (apply BitVec.eq_of_toNat_eq; symm; assumption)

/-- R69, major 0x3A. -/
theorem back_0x3A (w : BitVec 32) (i : Instr) (h : w.extractLsb' 23 6 = 0x3A#6) (hd : decodeFields w = .ok i) :
    encode i = [w] := by
  rw [decode_0x3A w h] at hd
  (try simp only [guardZ, illegal] at hd)
  (repeat' split at hd)
  all_goals first | (cases hd; done) | (
    injection hd with e; subst e; (try simp only [Bool.and_eq_true, beq_iff_eq] at *)
    refine congrArg (fun x => [x]) ?_
    (refine Eq.trans ?_ (encV_back w); congr 1))
  all_goals first
    | exact h.symm
    | (symm; assumption)
    | (apply BitVec.eq_of_toNat_eq; symm; assumption)

/-- R69, major 0x3B. -/
theorem back_0x3B (w : BitVec 32) (i : Instr) (h : w.extractLsb' 23 6 = 0x3B#6) (hd : decodeFields w = .ok i) :
    encode i = [w] := by
  rw [decode_0x3B w h] at hd
  (try simp only [guardZ, illegal] at hd)
  (repeat' split at hd)
  all_goals first | (cases hd; done) | (
    injection hd with e; subst e; (try simp only [Bool.and_eq_true, beq_iff_eq] at *)
    refine congrArg (fun x => [x]) ?_
    (refine Eq.trans ?_ (encZG_back w); congr 1))
  all_goals first
    | exact h.symm
    | (symm; assumption)
    | (apply BitVec.eq_of_toNat_eq; symm; assumption)
    | (symm; apply zsub _ _ (a := 5) (m := 14) (by assumption) (by decide) (by decide))
    | exact zrgn_ga _ (by assumption)

/-- R69, major 0x3C. -/
theorem back_0x3C (w : BitVec 32) (i : Instr) (h : w.extractLsb' 23 6 = 0x3C#6) (hd : decodeFields w = .ok i) :
    encode i = [w] := by
  rw [decode_0x3C w h] at hd
  (try simp only [guardZ, illegal] at hd)
  (repeat' split at hd)
  all_goals first | (cases hd; done) | (
    injection hd with e; subst e; (try simp only [Bool.and_eq_true, beq_iff_eq] at *)
    refine congrArg (fun x => [x]) ?_
    (refine Eq.trans ?_ (encZ_back w); congr 1))
  all_goals first
    | exact h.symm
    | (symm; assumption)
    | (apply BitVec.eq_of_toNat_eq; symm; assumption)
    | (symm; apply zsub _ _ (a := 7) (m := 8) (by assumption) (by decide) (by decide))

/-- R69, major 0x3D. -/
theorem back_0x3D (w : BitVec 32) (i : Instr) (h : w.extractLsb' 23 6 = 0x3D#6) (hd : decodeFields w = .ok i) :
    encode i = [w] := by
  rw [decode_0x3D w h] at hd
  (try simp only [guardZ, illegal] at hd)
  (repeat' split at hd)
  all_goals first | (cases hd; done) | (
    injection hd with e; subst e; (try simp only [Bool.and_eq_true, beq_iff_eq] at *)
    refine congrArg (fun x => [x]) ?_
    (refine Eq.trans ?_ (encR_back w); congr 1))
  all_goals first
    | exact h.symm
    | (symm; assumption)
    | (apply BitVec.eq_of_toNat_eq; symm; assumption)

theorem word_bytes (w : BitVec 32) : wordOfBytes (w.extractLsb' 0 8) (w.extractLsb' 8 8) (w.extractLsb' 16 8)
    (w.extractLsb' 24 8) = w := by
  apply BitVec.eq_of_getLsbD_eq
  intro i hi
  simp only [wordOfBytes, BitVec.getLsbD_append, BitVec.getLsbD_extractLsb']
  rcases Nat.lt_or_ge i 8 with h | h
  · simp [h]
  rcases Nat.lt_or_ge i 16 with h2 | h2
  · simp [show ¬ i < 8 by omega, show i - 8 < 8 by omega, show 8 + (i - 8) = i by omega]
  rcases Nat.lt_or_ge i 24 with h3 | h3
  · simp [show ¬ i < 8 by omega, show ¬ i - 8 < 8 by omega, show i - 8 - 8 < 8 by omega, show 16 + (i - 8 - 8) = i by omega]
  · simp [show ¬ i < 8 by omega, show ¬ i - 8 < 8 by omega, show ¬ i - 8 - 8 < 8 by omega, show i - 8 - 8 - 8 < 8 by omega, show 24 + (i - 8 - 8 - 8) = i by omega]

theorem wordsOfBytes_bytes (ws : List (BitVec 32)) : wordsOfBytes (ws.flatMap bytesOfWord) = ws := by
  induction ws with
  | nil => rfl
  | cons w ws ih => simp only [List.flatMap_cons, bytesOfWord, List.cons_append, List.nil_append, wordsOfBytes, ih, word_bytes]

end Sys2Proof
end

