-- ==== Sys2Proof/Laws/Turn.lean ====
section
/-!
SUPPORT. Turn.lean: when an act at a home is made at once, when it waits, and when nothing of it is left (R346).
-/
namespace Sys2Proof
open Sys2Proof.Machine

theorem settleAct_of {s : State} {e : Event}
    (h : ∀ x ∈ s.dir, ∀ m, x.2.queue.head? = some m → ¬(m.event = some e ∧ m.called = true)) : settleAct s e = s := by
  unfold settleAct
  have : s.dir.find? (fun x => x.2.queue.head?.any (fun m => m.event = some e && m.called)) = none := by
    rw [List.find?_eq_none]
    intro x hx
    cases hq : x.2.queue.head? with
    | none => simp
    | some m => have := h x hx m hq; simpa [hq] using this
  rw [this]

theorem settleAct_noAct {s : State} {e : Event} (h : NoAct s e) : settleAct s e = s :=
  settleAct_of (fun x hx _ hm hc => h x hx _ (List.mem_of_mem_head? hm) hc.1)

/-- Where no act of an event waits, none waits among fewer entries. -/
theorem NoAct.mono {s s' : State} {e : Event} (h : NoAct s e) (hd : ∀ x ∈ s'.dir, x ∈ s.dir) : NoAct s' e :=
  fun x hx => h x (hd x hx)

theorem NoAct.of_dir {s s' : State} {e : Event} (h : NoAct s e) (hd : s'.dir = s.dir) : NoAct s' e :=
  h.mono (fun x hx => by rw [← hd]; exact hx)

theorem InTurn.of_dir {s s' : State} {e : Event} {p : Place} {w : Bool} (h : InTurn s e p w) (hd : s'.dir = s.dir) :
    InTurn s' e p w :=
  ⟨NoAct.of_dir h.noAct hd, by unfold dirOf; rw [hd]; exact h.noQueue, by unfold dirOf; rw [hd]; exact h.notHeld⟩

/-- R346: an act that has its turn is made. -/
theorem atHome_turn {s : State} {e : Event} {line : Nat} {w tw : Bool} {f : State → State}
    (hq : (dirOf s line).queue = []) (hh : actHeld (dirOf s line) w = false) : atHome s e line w tw f = f s := by
  unfold atHome
  simp only [hq, hh, Bool.false_eq_true, if_false]

/-- R346: an act that the line's state holds joins its queue. -/
theorem atHome_held {s : State} {e : Event} {line : Nat} {w tw : Bool} {f : State → State}
    (hq : (dirOf s line).queue = []) (hh : actHeld (dirOf s line) w = true) :
    atHome s e line w tw f = setDir s line { dirOf s line with queue := [actMsg e line w] } := by
  unfold atHome
  simp only [hq, hh, if_true, List.nil_append]

theorem atPlace_inTurn {s : State} {e : Event} {p : Place} {w tw : Bool} {f : State → State} (h : InTurn s e p w) :
    atPlace s e p w tw f = f s := by
  unfold atPlace
  split
  · exact atHome_turn (h.noQueue _ _ rfl) (h.notHeld _ _ rfl)
  · rfl

/-- R346: what joins a queue is not called yet. -/
theorem settleAct_held {s : State} {e : Event} {line : Nat} {w : Bool} (h : NoAct s e) :
    settleAct (setDir s line { dirOf s line with queue := [actMsg e line w] }) e =
      setDir s line { dirOf s line with queue := [actMsg e line w] } := by
  refine settleAct_of (fun x hx m hm hc => ?_)
  have hmem : ∀ (l : Map DirEntry) (a : Nat) (v : DirEntry), x ∈ Map.set l a v → x = (a, v) ∨ x ∈ l := by
    intro l a v
    induction l with
    | nil => intro h; simpa [Map.set] using h
    | cons y l ih =>
      intro h
      unfold Map.set at h
      split at h
      · rcases List.mem_cons.1 h with h | h
        · exact .inl h
        · exact .inr h
      · split at h
        · rcases List.mem_cons.1 h with h | h
          · exact .inl h
          · exact .inr (List.mem_cons_of_mem _ h)
        · rcases List.mem_cons.1 h with h | h
          · exact .inr (by rw [h]; exact List.mem_cons_self ..)
          · rcases ih h with h | h
            · exact .inl h
            · exact .inr (List.mem_cons_of_mem _ h)
  unfold setDir at hx
  rw [if_pos (by unfold keepsEntry; simp)] at hx
  rcases hmem _ _ _ hx with h' | h'
  · rw [h'] at hm
    simp only [List.head?_cons, Option.some.injEq] at hm
    rw [← hm] at hc
    exact absurd hc.2 (by simp [actMsg])
  · exact h x h' m (List.mem_of_mem_head? hm) hc.1

end Sys2Proof
end

