-- ==== Sys2Proof/Tests/Slice0.lean ====
section
/-!
SUPPORT. Tests/Slice0.lean: words written out from the encoding tables, instructions that are not well formed, the
spec's worked examples, and for the hypotheses of every statement a state and operands that meet them.
-/
namespace Sys2Proof.Tests
open Sys2Proof Sys2Proof.Machine
set_option Elab.async false

/-! ## Words (R60, R64, R65, R67, R69; the words of R84, R91, R96, R101, R104, R109, R115, R118, R119, R129, R143 and
R74 are the spec's own) -/

def word (w : BitVec 32) : Option Instr := decodeTableWord 32 w.toNat

theorem test_word_sub : word 0b000_000000_0000001_0000010_0000011_01#32 = some (.sub 0#3 1#7 2#7 3#7) := by decide
theorem test_word_mulhu : word 0x02850C1E#32 = some (.mulhu 0#3 5#7 6#7 7#7) := by decide
theorem test_word_bins : word 0b011_001000_0000001_0000010_0000011_01#32 = some (.bins 3#3 1#7 2#7 3#7) := by decide
theorem test_word_ori : word 0b000_001011_0000001_0000010_111111110#32 = some (.ori 0#3 1#7 2#7 0x1FE#9) := by decide
theorem test_word_lis : word 0b000_001111_0000001_1000000000000001#32 = some (.lis 0#3 1#7 0x8001#16) := by decide
theorem test_word_cmp_bset : word 0x084D123F#32 = some (.cmpImm 0#3 4#3 6#3 9#7 63#9) := by decide
theorem test_word_plog_xor :
    word 0b000_010001_001_010_011_10_000000000000#32 = some (.plog 0#3 1#3 2#3 3#3 2#2) := by decide
theorem test_word_pset : word 0b000_010010_0000000_0000101_0000000_01#32 = some (.pset 0#3 5#7) := by decide
theorem test_word_br : word 0x29FFFFFD#32 = some (.br 1#3 0x7FFFFD#23) := by decide
theorem test_word_jr : word 0x0A800200#32 = some (.jr 0#3 0#7 1#7 0#9) := by decide
theorem test_word_ldws : word 0x0E030DFE#32 = some (.ldws 0#3 3#7 6#7 0xFF#8 0#1) := by decide
theorem test_word_std : word 0x10040A04#32 = some (.std 0#3 4#7 5#7 2#8 0#1) := by decide
theorem test_word_stfe : word 0x10820603#32 = some (.stfe 0#3 2#7 3#7 0#7) := by decide
theorem test_word_aadd : word 0x11071024#32 = some (.aadd 0#3 7#7 8#7 9#7) := by decide
theorem test_word_acasq : word 0x1204101A#32 = some (.acasq 0#3 4#7 8#7 6#7) := by decide
theorem test_word_sleep : word 0x13030002#32 = some (.sleep 0#3 3#7) := by decide
theorem test_word_fence : word 0b000_100101_00000000000000000_1_0_1_010#32 = some (.fence 0#3 1#1 0#1 1#1 2#3) := by
  decide
theorem test_word_fcvt : word 0x14840A13#32 = some (.fcvt 0#3 4#7 5#7 4#7) := by decide
theorem test_word_fma : word 0x16040A18#32 = some (.fmaD 0#3 4#7 5#7 6#7) := by decide
theorem test_word_fcmp : word 0b000_101101_011_101_0_0000100_0000101_00#32 = some (.fcmp 0#3 3#3 5#3 4#7 5#7) := by
  decide
theorem test_word_spawn : word 0b000_101110_0000001_0000010_0000011_00#32 = some (.spawn 0#3 1#7 2#7 3#7) := by decide
theorem test_word_bar : word 0b000_110000_0000001_0000010_0000000_00#32 = some (.bar 0#3 1#7 2#7) := by decide
theorem test_word_twrite : word 0b000_110001_0000100_0000101_0000110_11#32 = some (.twrite 0#3 4#7 5#7 6#7) := by decide
theorem test_word_sets : word 0b000_110011_0000000_0000001_000010100#32 = some (.sets 0#3 1#7 0x14#9) := by decide
theorem test_word_brk : word 0b000_110100_000000000000000000001_10#32 = some (.brk 0#3 1#21) := by decide
theorem test_word_vshuf : word 0b000_110101_000001_000010_000011_10111#32 = some (.vshuf 0#3 1#6 2#6 3#6) := by decide
theorem test_word_vfmul_d : word 0b000_110110_000001_000010_000011_1_0010#32 = some (.vfmul 0#3 1#6 2#6 3#6 1#1) := by
  decide
theorem test_word_vcvt : word 0x1B882C88#32 = some (.vcvt 0#3 4#6 5#6 0x24#6) := by decide
theorem test_word_vldb : word 0b000_111000_000001_0000010_0000011_110#32 = some (.vldb 0#3 1#6 2#7 3#7) := by decide
theorem test_word_vext : word 0b000_111001_0000110_000001_000001_0001#32 = some (.vext 0#3 6#7 1#6 1#6) := by decide
theorem test_word_vtanh : word 0b000_111010_000001_000010_000000_00110#32 = some (.vtanh 0#3 1#6 2#6) := by decide
theorem test_word_b2z : word 0b000_111011_0001_0000010_0000011_00000#32 = some (.b2z 0#3 1#4 2#7 3#7) := by decide
theorem test_word_zmux : word 0b000_111100_0001_0010_0011_0100_0000100#32 = some (.zmux 0#3 1#4 2#4 3#4 4#4) := by
  decide
theorem test_word_cwcas : word 0b000_111101_0000001_0000010_0000011_10#32 = some (.cwcas 0#3 1#7 2#7 3#7) := by decide
/-- R67: MMA, flags ZERO and EDGE, formats BF16 and FP16, without completion. -/
theorem test_words_mma :
    decodeWords [0b000_111111_0000_111_00000000_1_1_100_011#32, 0x1F000000#32,
        0b000_111110_0000001_0000010_0000011_00#32, 0b000_111110_0000100_0000101_0000110_00#32,
        0b000_111110_0000111_0001000_0000000_00#32, 0x1F000000#32, 0x1F000000#32, 0x1F000000#32] =
      .ok (.mma 0#3 { cpl := 0#7, val := 0#7, ms := 0#7, mode := 0#2 }
        { zero := true, edge := true, fb := 4#3, fa := 3#3, c := 1#7, a := 2#7, b := 3#7, k := 4#7, lda := 5#7,
          ldb := 6#7, sa := 7#7, sb := 8#7, ia := 0#7, ib := 0#7 }, []) := by rfl

/-! ## Words that are no instruction (R63, R66, R68, R69, R70) -/

theorem test_illegal_reserved_minor : word 0b000_000100_0000001_0000010_0000000_11#32 = none := by decide
theorem test_illegal_unused_field : word 0b000_000100_0000001_0000010_0000001_00#32 = none := by decide
theorem test_illegal_shift_bit : word 0b000_001101_0000001_0000010_10_1_000000#32 = none := by decide
theorem test_illegal_second_vector : word 0b000_111001_0000010_000001_000001_0100#32 = none := by decide
theorem test_illegal_fcmp_immediate : word 0b000_101101_011_101_1_0000100_0000101_00#32 = none := by decide
theorem test_engine_kind_reserved :
    decodeWords [0b000_111111_0110_111_0000000000000000#32, 0x1F000000#32, 0x1F000000#32, 0x1F000000#32,
      0x1F000000#32, 0x1F000000#32, 0x1F000000#32, 0x1F000000#32] = .error (.engine 6#4) := by rfl

/-! ## Instructions that are not well formed, one for each check -/

theorem test_ill_fence_scope : (Instr.fence 0#3 0#1 0#1 0#1 5#3).wf = false := by decide
theorem test_ill_gets_selector : (Instr.gets 0#3 1#7 0x15#9).wf = false := by decide
theorem test_ill_sets_read_only : (Instr.sets 0#3 1#7 0x0E#9).wf = false := by decide
theorem test_ill_plog_p0 : (Instr.plog 0#3 0#3 1#3 2#3 0#2).wf = false := by decide
theorem test_ill_cmp_p0 : (Instr.cmpReg 0#3 0#3 0#3 1#7 2#7).wf = false := by decide
theorem test_ill_cmp_imm_p0 : (Instr.cmpImm 0#3 0#3 0#3 1#7 2#9).wf = false := by decide
theorem test_ill_cmp_bit_64 : (Instr.cmpImm 0#3 1#3 6#3 1#7 64#9).wf = false := by decide
theorem test_ill_fcmp_p0 : (Instr.fcmp 0#3 0#3 0#3 1#7 2#7).wf = false := by decide
theorem test_ill_fcvt_same_format : (Instr.fcvt 0#3 1#7 2#7 0b0_001_001#7).wf = false := by decide
theorem test_ill_fcvt_truncate : (Instr.fcvt 0#3 1#7 2#7 0b1_110_111#7).wf = false := by decide

def noCpl : Cpl := { cpl := 0#7, val := 0#7, ms := 0#7, mode := 0#2 }
def copyArgs : CopyArgs := { dst := 1#7, src := 2#7, rows := 3#7, rowb := 4#7, ss := 5#7, ds := 6#7 }
def mmaArgs : MmaArgs :=
  { zero := false, edge := false, fb := 3#3, fa := 3#3, c := 1#7, a := 2#7, b := 3#7, k := 4#7, lda := 5#7,
    ldb := 6#7, sa := 0#7, sb := 0#7, ia := 0#7, ib := 0#7 }
def collArgs : CollArgs := { rf := 0#4, op := 0#2, dst := 1#7, src := 2#7, n := 3#7, tag := 4#7, root := 5#7 }

theorem test_wf_tile : (Instr.copy 0#3 noCpl copyArgs).wf && (Instr.mma 0#3 noCpl mmaArgs).wf &&
    (Instr.coll 0#3 noCpl collArgs).wf = true := by decide
theorem test_ill_mode_three : (Instr.copy 0#3 { noCpl with mode := 3#2 } copyArgs).wf = false := by decide
theorem test_ill_mode_zero_cpl : (Instr.copy 0#3 { noCpl with cpl := 1#7 } copyArgs).wf = false := by decide
theorem test_ill_mode_two_val : (Instr.copy 0#3 { noCpl with mode := 2#2, val := 1#7 } copyArgs).wf = false := by decide
theorem test_ill_ms_of_mma : (Instr.mma 0#3 { noCpl with ms := 1#7 } mmaArgs).wf = false := by decide
theorem test_ill_format_pair : (Instr.mma 0#3 noCpl { mmaArgs with fa := 5#3 }).wf = false := by decide
theorem test_ill_index_missing : (Instr.mma 0#3 noCpl { mmaArgs with fa := 2#3, fb := 0#3 }).wf = false := by decide
theorem test_ill_index_of_other : (Instr.mma 0#3 noCpl { mmaArgs with ia := 1#7 }).wf = false := by decide
theorem test_ill_scale_of_s8 : (Instr.mma 0#3 noCpl { mmaArgs with fa := 7#3, fb := 7#3, sa := 1#7 }).wf = false := by
  decide
theorem test_ill_reduction : (Instr.coll 0#3 noCpl { collArgs with rf := 7#4 }).wf = false := by decide
theorem test_ill_reduction_of_bcast : (Instr.coll 0#3 noCpl { collArgs with rf := 1#4, op := 2#2 }).wf = false := by
  decide

/-! ## One step on a small state; the expected results are the spec's worked examples or reckoned from its rules -/

/-- One core whose present position holds the thread `t`, every register of which is present. -/
def on (t : Thread) (k : Core := {}) : State :=
  { cores := [(0, { k with
      rot := [(0, 0)], threads := [(0, t)], rc := (0, .present true) :: t.g.map (fun x => (rcKey 0 x.1, .present true)) })] }

/-- A RUNNING thread with the largest claims and these g registers. -/
def thr (g : Map Word) : Thread := { loadedThread with g := g }

/-- What a field of the thread is after an instruction. -/
def gives {α : Type} (i : Instr) (s : State) (f : Thread → α) : Option α :=
  match exec i s with
  | .next u => (u.thread? 0 0).map f
  | _ => none

def result (i : Instr) (g : Map Word) (d : Nat) : Option Word := gives i (on (thr g)) (·.gv d)

/-- R84. -/
theorem test_mulhu : result (.mulhu 0#3 5#7 6#7 7#7) [(6, 0xFFFFFFFFFFFFFFFF#64), (7, 0xFFFFFFFFFFFFFFFF#64)] 5 =
    some 0xFFFFFFFFFFFFFFFE#64 := by decide
/-- R85: −7 by 2. -/
theorem test_divs : result (.divs 0#3 1#7 2#7 3#7) [(2, -7#64), (3, 2#64)] 1 = some (-3#64) := by decide
theorem test_rems : result (.rems 0#3 1#7 2#7 3#7) [(2, -7#64), (3, 2#64)] 1 = some (-1#64) := by decide
/-- R85: −2^63 by −1. -/
theorem test_divs_edge : result (.divs 0#3 1#7 2#7 3#7) [(2, 0x8000000000000000#64), (3, -1#64)] 1 =
    some 0x8000000000000000#64 := by decide
/-- R83: only the low six bits of a shift amount count. -/
theorem test_sra : result (.sra 0#3 1#7 1#7 2#7) [(1, 0x8000000000000000#64), (2, 127#64)] 1 = some (-1#64) := by decide
theorem test_clz_zero : result (.clz 0#3 1#7 2#7) [] 1 = some 64#64 := by decide
/-- R87: a field cut off at bit 63. -/
theorem test_bext : result (.bext 0#3 1#7 2#7 3#7) [(2, 0xF000000000000000#64), (3, 0x073C#64)] 1 = some 0xF#64 := by decide
theorem test_bins : result (.bins 0#3 1#7 2#7 3#7) [(1, 0#64), (2, 0xFF#64), (3, 0x073C#64)] 1 =
    some 0xF000000000000000#64 := by decide
/-- R65, R88: ANDI with −2 clears bit 0 and keeps the others. -/
theorem test_andi : result (.andi 0#3 1#7 2#7 0x1FE#9) [(2, 0xFFFFFFFFFFFFFFFF#64)] 1 = some 0xFFFFFFFFFFFFFFFE#64 := by
  decide
/-- R91: the sign bit of g9 into p4. -/
theorem test_cmp_bset : gives (.cmpImm 0#3 4#3 6#3 9#7 63#9) (on (thr [(9, 0x8000000000000000#64)])) (·.p 4) =
    some true := by decide
/-- R94, R97: a branch back by three words. -/
theorem test_br : gives (.br 0#3 0x7FFFFD#23) (on { thr [] with pc := 0x114#64 }) (·.pc) = some 0x108#64 := by decide
/-- R96: the target is formed from the old value of the link register. -/
theorem test_jr_same : gives (.jr 0#3 1#7 1#7 0x1FF#9) (on { thr [(1, 0x100#64)] with pc := 0x40#64 })
    (fun t => (t.pc, t.gv 1)) = some (0xFC#64, 0x44#64) := by decide
/-- R36: FMA.S of +0, +∞ and a signalling NaN with its sign set. -/
theorem test_fma_s : gives (.fmaS 0#3 1#7 2#7 3#7) (on (thr [(1, 0xFF812345#64), (2, 0#64), (3, 0x7F800000#64)]))
    (fun t => (t.gv 1, t.fpflg)) = some (0xFFC12345#64, 1#64) := by decide
/-- R103. -/
theorem test_fclass : result (.fclass 0#3 1#7 2#7) [(2, 0x7FF000007F800001#64)] 1 = some 0x01000100#64 := by decide
/-- R104: 300.0 to F8e4, inexact; and truncated to an integer, exact. -/
theorem test_fcvt_f8 : gives (.fcvt 0#3 4#7 5#7 4#7) (on (thr [(5, 0x4072C00000000000#64)]))
    (fun t => (t.gv 4, t.fpflg)) = some (0x79#64, 16#64) := by decide
theorem test_fcvt_s64 : gives (.fcvt 0#3 4#7 5#7 0x46#7) (on (thr [(5, 0x4072C00000000000#64)]))
    (fun t => (t.gv 4, t.fpflg)) = some (300#64, 0#64) := by decide
set_option maxRecDepth 100000 in
/-- R143: stochastic rounding of 1 + 2^−12 in sixteen lanes. -/
theorem test_vcvt_sr : gives (.vcvt 0#3 4#6 5#6 0x24#6)
    (on { thr [] with srseed := 0x3F8#64, v := [(5, ofElems 32 (List.replicate 16 0x3F800800))] })
    (fun t => (elem 32 (t.vv 4) 0, elem 32 (t.vv 4) 7, elem 32 (t.vv 4) 8, t.srseed)) =
      some (0x3C013C01, 0x3C003C00, 0, 0x408#64) := by decide
set_option maxRecDepth 100000 in
/-- R45: 2^24 and fifteen ones. -/
theorem test_vredadd : gives (.vredaddS 0#3 1#7 2#6)
    (on { thr [] with v := [(2, ofElems 32 (0x4B800000 :: List.replicate 15 0x3F800000))] }) (·.gv 1) =
      some 0x4B800007#64 := by decide
set_option maxRecDepth 100000 in
/-- R138: the absolute value of the most negative lane. -/
theorem test_vabs : gives (.vabs 0#3 1#6 2#6) (on { thr [] with v := [(2, ofElems 32 (List.replicate 16 0x80000000))] })
    (fun t => lane (t.vv 1) 15) = some 0x80000000#32 := by decide
set_option maxRecDepth 100000 in
/-- R58: 64 in class 0, 128 in class 1, and the ones of their AND. -/
theorem test_streams : (streamOf 0#2 0 64).bits = 0xFFFFFFFFFFFFFFFF#4096 ∧
    (streamOf 0#2 1 128).bits.extractLsb' 0 64 = 0x5555555555555555#64 ∧
    streamCount { streamOf 0#2 0 64 with bits := (streamOf 0#2 0 64).bits &&& (streamOf 0#2 1 128).bits } = 32 := by decide
/-- R109: a store and a load of four bytes, sign-extended, XB at 0. -/
theorem test_stw_bytes : (match exec (.stw 0#3 1#7 2#7 1#8 0#1) (on (thr [(1, 0x80000001#64), (2, 0x100#64)])) with
    | .next u => Mem.readN (u.core 0).spad 0x103 6 | _ => []) = [0x00#8, 0x01#8, 0x00#8, 0x00#8, 0x80#8, 0x00#8] := by
  decide
theorem test_ldws : gives (.ldws 0#3 3#7 6#7 0xFF#8 0#1)
    (on (thr [(6, 0x104#64)]) { spad := [(0x103, 0x80#8)] }) (·.gv 3) = some 0xFFFFFFFF80000000#64 := by decide
/-- R118: the old word comes back. -/
theorem test_aadd : gives (.aadd 0#3 7#7 8#7 9#7) (on (thr [(8, 0x100#64), (9, 5#64)]) { spad := [(0x100, 0x03#8)] })
    (·.gv 7) = some 3#64 := by decide
/-- R115: STFE on an empty word fills it and says 1. -/
theorem test_stfe_status : (match exec (.stfe 0#3 2#7 3#7 4#7) (on (thr [(2, 7#64), (3, 0x100#64)])) with
    | .next u => ((u.core 0).full, (u.thread? 0 0).map (·.gv 4)) | _ => ([], none)) = ([0x20], some 1#64) := by decide
/-- R129: SLEEP with the latch set takes it. -/
theorem test_sleep_latch : gives (.sleep 0#3 3#7) (on { thr [] with latch := true }) (fun t => (t.latch, t.gv 3)) =
    some (false, 0#64) := by decide
/-- R129: without a watch it answers 2. -/
theorem test_sleep_no_watch : result (.sleep 0#3 3#7) [] 3 = some 2#64 := by decide
/-- R62: guarded off. -/
theorem test_guard : gives (.li 3#3 1#7 5#16) (on (thr [])) (fun t => (t.gv 1, t.pc)) = some (0#64, 4#64) := by decide
/-- R107: a misaligned load faults and its thread stays at it. -/
theorem test_misaligned : gives (.ldd 0#3 1#7 2#7 0#8 0#1) (on { thr [(2, 0x101#64)] with pc := 8#64 })
    (fun t => (t.code, t.pc, t.faults)) = some (.faulted, 8#64, 1#64) := by decide
/-- R204: FPCTL takes 7 and no more. -/
theorem test_sets_fpctl : gives (.sets 0#3 1#7 7#9) (on (thr [(1, 8#64)])) (fun t => (t.code, t.fpctl)) =
    some (.faulted, 0#64) := by decide
/-- R61, R67: a word placed where the step fetches runs, and the thread stands past it. -/
theorem test_step_runs : (match step (State.reset.withFetchWord 32 0x07010005) with
    | .next u => (u.thread? 0 0).map (fun t => (t.pc, t.gv 1)) | _ => none) = some (4#64, 5#64) := by decide

/-! ## States and operands that meet the hypotheses of the statements -/

/-- What `Issues` asks, as a test. -/
def issuesB (d : Desc) (s : State) (c slot : Nat) (t : Thread) : Bool :=
  decide (current s = some (c, slot, t)) && d.g.all (fun r => decide (r < t.n)) && d.v.all (fun r => decide (r < t.m)) &&
    d.z.all (fun r => decide (r < t.zc)) &&
    (d.guard == 0#3 ||
      (!absent (s.core c) t slot 0 && !t.poison.contains 128 && t.p d.guard.toNat)) &&
    (deferred t d).isNone && d.reads.all (fun r => r == 0 || !absent (s.core c) t slot r) &&
    (!d.pw || !absent (s.core c) t slot 0) && t.relaxed.isEmpty && t.poison.isEmpty

theorem issues_of {d : Desc} {s : State} {c slot : Nat} {t : Thread} (h : issuesB d s c slot t = true)
    (he : ∀ i r, d.alloc (reading i t) = some r → entryFits (s.core c) slot r = true := by intro _ _ h; cases h) :
    Issues d s c slot t := by
  simp only [issuesB, Bool.and_eq_true, Bool.or_eq_true, Bool.not_eq_true', decide_eq_true_eq, List.all_eq_true,
    beq_iff_eq, Option.isNone_iff_eq_none, List.isEmpty_iff] at h
  obtain ⟨⟨⟨⟨⟨⟨⟨⟨⟨h1, h2⟩, h3⟩, h4⟩, h5⟩, h6⟩, h7⟩, h8⟩, h9⟩, h10⟩ := h
  have no : ∀ r, t.poison.contains r = false := by simp [h10]
  exact { turn := h1, gLimit := h2, vLimit := h3, zLimit := h4,
          guarded := h5.imp id (fun x => ⟨x.1.1, x.1.2, x.2⟩), noDeferred := h6,
          here := fun r hr h0 => (h7 r hr).resolve_left h0,
          pwHere := fun hp => h8.resolve_left (by simp [hp]),
          gFree := fun r _ => by simp [pendingG, h9], vFree := fun r _ => by simp [pendingV, h9],
          drained := fun _ x hx => by simp [h9] at hx,
          gClean := fun _ _ _ => no _, pwClean := fun _ => no _, vClean := fun _ _ => no _, zClean := fun _ _ => no _,
          entry := he }

/-- Nothing is stepped and no pair owes a commit. -/
theorem plain_of {s : State} {c slot : Nat} {t : Thread} (h : t.stepping = none) (h2 : (s.core c).lock = none) :
    Plain s c slot t := ⟨h, fun _ h3 => by rw [h2] at h3; cases h3⟩

def t0 : Thread := thr []
def s0 : State := on t0

/-- A form and its operands issue in `s0`, with nothing that follows. -/
def Ready (d : Desc) : Prop := Issues d s0 0 0 t0 ∧ Plain s0 0 0 t0

theorem ready_of {d : Desc} (h : issuesB d s0 0 0 t0 = true)
    (he : ∀ i r, d.alloc (reading i t0) = some r → entryFits (s0.core 0) 0 r = true := by intro _ _ h; cases h) : Ready d :=
  ⟨issues_of h he, plain_of rfl rfl⟩

theorem witness_integer : Ready (dRRR 0#3 127#7 0#7 126#7) := ready_of (by decide)
/-- The same under a guard that is true. -/
theorem witness_integer_guarded : Issues (dRR 7#3 127#7 1#7) (on { t0 with pw := 0x80#8 }) 0 0 { t0 with pw := 0x80#8 } :=
  issues_of (by decide)
theorem witness_divide : Ready (dRRR 0#3 1#7 2#7 0#7) := ready_of (by decide)
theorem witness_field : Ready (dDRR 0#3 1#7 1#7 1#7) := ready_of (by decide)
theorem witness_immediate : Ready (dRR 0#3 1#7 127#7) := ready_of (by decide)
theorem witness_li : Ready { guard := 0#3, g := [127], writes := [127] } := ready_of (by decide)
theorem witness_lis : Ready { guard := 0#3, g := [127], reads := [127], writes := [127] } := ready_of (by decide)
theorem witness_cmp : Ready (dSrc2 0#3 1#7 127#7) := ready_of (by decide)
theorem witness_br : Ready { guard := 0#3 } := ready_of (by decide)
/-- JR: a target that is aligned, and one that is not. -/
theorem witness_jr : Ready (dRR 0#3 1#7 2#7) ∧ (t0.gv 2 + (0x100#9).signExtend 64 * 4#64).extractLsb' 0 2 = 0#2 :=
  ⟨ready_of (by decide), by decide⟩
theorem witness_jr_misaligned : Issues (dRR 0#3 1#7 2#7) (on (thr [(2, 3#64)])) 0 0 (thr [(2, 3#64)]) ∧
    ((thr [(2, 3#64)]).gv 2 + (0#9).signExtend 64 * 4#64).extractLsb' 0 2 ≠ 0#2 := ⟨issues_of (by decide), by decide⟩
theorem witness_float : Ready (dDRR 0#3 0#7 127#7 0#7) := ready_of (by decide)
theorem witness_vector : Ready (dVVV 0#3 63#6 0#6 1#6) ∧ Ready (dDVV 0#3 63#6 63#6 63#6) ∧ Ready (dVV 0#3 0#6 63#6) :=
  ⟨ready_of (by decide), ready_of (by decide), ready_of (by decide)⟩
theorem witness_transfer :
    Ready { guard := 0#3, g := [127], v := [63], writes := [127], vreads := [63] } ∧
    Ready { guard := 0#3, g := [127], v := [63, 0], reads := [127], writes := [127], vreads := [63, 0] } :=
  ⟨ready_of (by decide), ready_of (by decide)⟩
/-- R35: a NaN and a number; R100: two infinities of unlike sign, an infinity and a zero, a zero divisor, a value below
−0. -/
theorem witness_special : (fp64.unpack 0x7FF0000000000001).isNan = true ∧ fp32.unpack 0x7F800000 = .inf false ∧
    fp32.unpack 0xFF800000 = .inf true ∧ (∃ e, fp32.unpack 0x80000000 = .fin true 0 e) ∧
    ∃ m e, fp32.unpack 0x80000001 = .fin true m e ∧ m ≠ 0 :=
  ⟨by decide, by decide, by decide, ⟨_, rfl⟩, ⟨_, _, rfl, by decide⟩⟩
theorem witness_minimum : (fp32.unpack 0x7FC00000).isNan = true ∧ (fp32.unpack 0x80000000).isNan = false := by decide
set_option maxRecDepth 100000 in
/-- The unit in service; a short operation (0 cycles busy before it) and one that is done more than 16 cycles on. -/
theorem witness_stream :
    Ready { guard := 0#3, z := [15, 0, 1], zreads := [0, 1] } ∧ (s0.core 0).fencedFns.getLsbD 4 = false ∧
    max (s0.core 0).cyc (s0.core 0).ssuBusy + ssuTime 0#2 ≤ (s0.core 0).cyc + 16 ∧
    (let s := on t0 { ssuBusy := 16 }
     Issues { guard := 0#3, z := [15, 0, 1], zreads := [0, 1] } s 0 0 t0 ∧
       (s.core 0).cyc + 16 < max (s.core 0).cyc (s.core 0).ssuBusy + ssuTime 0#2) ∧
    (t0.zv 0).len = (t0.zv 1).len ∧ (t0.zv 0).cls &&& (t0.zv 1).cls = 0#64 :=
  ⟨ready_of (by decide), by decide, by decide, ⟨issues_of (by decide), by decide⟩, by decide, by decide⟩
set_option maxRecDepth 100000 in
/-- Streams of unlike length, and streams that share a class. -/
theorem witness_stream_checks :
    (let t := { t0 with z := [(1, { bits := 0#4096, len := 1#2, cls := 0#64 })] }
     Issues { guard := 0#3, z := [2, 0, 1], zreads := [0, 1] } (on t) 0 0 t ∧ (t.zv 0).len ≠ (t.zv 1).len) ∧
    (let x : ZReg := { bits := 0#4096, len := 0#2, cls := 1#64 }
     let t := { t0 with z := [(0, x), (1, x)] }
     Issues { guard := 0#3, z := [2, 0, 1, 1], zreads := [0, 1, 1] } (on t) 0 0 t ∧ (t.zv 0).len = (t.zv 1).len ∧
       (t.zv 1).cls &&& (t.zv 0).cls ≠ 0#64) :=
  ⟨⟨issues_of (by decide), by decide⟩, ⟨issues_of (by decide), by decide, by decide⟩⟩
set_option maxRecDepth 100000 in
theorem witness_zmux_checks :
    (let z : ZReg := { bits := 0#4096, len := 1#2, cls := 0#64 }
     let t := { t0 with z := [(2, z)] }
     Issues { guard := 0#3, z := [3, 0, 1, 2], zreads := [0, 1, 2] } (on t) 0 0 t ∧ (t.zv 0).len = (t.zv 1).len ∧
       (t.zv 0).len ≠ (t.zv 2).len) ∧
    (let x : ZReg := { bits := 0#4096, len := 0#2, cls := 1#64 }
     let t := { t0 with z := [(1, x), (2, x)] }
     Issues { guard := 0#3, z := [3, 0, 1, 2], zreads := [0, 1, 2] } (on t) 0 0 t ∧ (t.zv 0).len = (t.zv 1).len ∧
       (t.zv 0).len = (t.zv 2).len ∧ (t.zv 2).cls &&& (t.zv 0).cls = 0#64 ∧ (t.zv 2).cls &&& (t.zv 1).cls ≠ 0#64) :=
  ⟨⟨issues_of (by decide), by decide, by decide⟩,
   ⟨issues_of (by decide), by decide, by decide, by decide, by decide⟩⟩
theorem witness_generator : (2#2 : BitVec 2) ≠ 3#2 ∧ 63 < 64 ∧ 4096 ≤ streamLen 2#2 := by decide
/-- GETS, of the last selector there is. -/
theorem witness_gets : Ready { guard := 0#3, g := [127], writes := [127] } ∧ (0x14#9 : BitVec 9).toNat ≤ 0x14 :=
  ⟨ready_of (by decide), by decide⟩
/-- SETS: a thread whose g1 holds the last value that FPCTL, FPFLG, FLINE or ZCTL takes, or the first it refuses. -/
theorem witness_sets (v : Word) (h : v = 7#64 ∨ v = 8#64 ∨ v = 31#64 ∨ v = 32#64 ∨ v = 64#64 ∨ v = 65#64 ∨ v = 2#64 ∨
    v = 3#64 ∨ v = 0x8000000000000000#64) :
    Issues (dSrc 0#3 1#7) (on (thr [(1, v)])) 0 0 (thr [(1, v)]) ∧ (thr [(1, v)]).gv 1 = v := by
  rcases h with h | h | h | h | h | h | h | h | h <;> subst h <;> exact ⟨issues_of (by decide), by decide⟩
theorem witness_guarded_off : Skips (dRRR 1#3 1#7 2#7 3#7) s0 0 0 t0 :=
  ⟨by decide, by decide, by decide, by decide, by decide, by decide, by decide, by decide⟩
/-- Claims of 8 registers: g8, v8 and z8 are past them. -/
theorem witness_limits : (let t := { t0 with n := 8, m := 8, zc := 8 }
    current (on t) = some (0, 0, t) ∧ absent ((on t).core 0) t 0 0 = false ∧ t.n ≤ 8 ∧ 7 < t.m ∧ t.m ≤ 8 ∧ t.zc ≤ 8) := by decide
theorem witness_poisoned : (let t := { thr [(1, 5#64)] with poison := [1] }
    current (on t) = some (0, 0, t) ∧ t.relaxed = [] ∧ absent ((on t).core 0) t 0 1 = false ∧ t.poison.contains 1 = true) := by
  decide
theorem witness_step_form : MemOk State.reset ∧ MemOk { State.reset with sched := [.event 0] } ∧
    step { State.reset with sched := [.event 0] } = .next { State.reset with sched := [] } :=
  ⟨⟨rfl, rfl, by simp [State.reset], by simp [State.reset]⟩, ⟨rfl, rfl, by simp [State.reset], by simp [State.reset]⟩, rfl⟩
theorem witness_fault : s0.thread? 0 0 = some t0 := by decide
theorem witness_step : (let t := { t0 with stepping := some 0#32, step := true }
    Issues (dRRR 0#3 1#7 2#7 3#7) (on t) 0 0 t ∧ t.code = .running ∧ ((on t).core 0).lock = none) :=
  ⟨issues_of (by decide), by decide, by decide⟩

/-- A thread that names own-scratchpad address `ea` in g1, and holds `x` in g2. -/
def tea (ea : Word) (x : Word := 0#64) : Thread := thr [(1, ea), (2, x)]

theorem calm_of {s : State} {c : Nat} {t : Thread} (h1 : (s.core c).lock = none) (h2 : t.relaxed = [])
    (h3 : s.watches = []) (h4 : s.agenda = [] := by rfl) : Calm s c t := ⟨h1, h2, by simp [h3], by simp [h4]⟩

/-- No line has an entry in the directory: no act waits, and every act has its turn. -/
theorem noAct_of {s : State} {e : Event} (h : s.dir = []) : NoAct s e := fun x hx => by rw [h] at hx; cases hx
theorem noAct_quiet {s : State} {e : Event} (h : s.dir.all (fun x => x.2.queue.isEmpty) = true) : NoAct s e := by
  intro x hx m hm
  have := List.all_eq_true.mp h x hx
  rw [List.isEmpty_iff] at this
  simp [this] at hm
theorem inTurn_of {s : State} {e : Event} {p : Place} {w : Bool} (h : s.dir = []) : InTurn s e p w :=
  ⟨noAct_of h, fun _ _ _ => by simp [dirOf, h, Map.get?], fun _ _ _ => by simp [dirOf, h, Map.get?, actHeld]⟩

/-- The hypotheses of the accesses to the own scratchpad, for `n` bytes at the highest address there is. -/
def Reaches (d : Desc) (n : Nat) : Prop :=
  let t := tea (0x20000#64 - BitVec.ofNat 64 n)
  let s := on t
  Issues d s 0 0 t ∧ Plain s 0 0 t ∧ Calm s 0 t ∧ Own s 0 (t.gv 1) n ∧ Unpoisoned (s.core 0) (t.gv 1).toNat n ∧
    (s.core 0).spad.wf = true

theorem witness_loads : Reaches { guard := 0#3, g := [127, 1], reads := [1], writes := [127] } 8 :=
  ⟨issues_of (by decide), plain_of rfl rfl, calm_of rfl rfl rfl, ⟨by decide, by decide, by decide⟩, by unfold Unpoisoned; decide, by decide⟩
theorem witness_stores : Reaches { guard := 0#3, g := [2, 1], reads := [2, 1] } 8 :=
  ⟨issues_of (by decide), plain_of rfl rfl, calm_of rfl rfl rfl, ⟨by decide, by decide, by decide⟩, by unfold Unpoisoned; decide, by decide⟩
theorem witness_pairs : Reaches { guard := 0#3, g := [127, 1], reads := [1], writes := [126, 127], drain := true } 16 :=
  ⟨issues_of (by decide), plain_of rfl rfl, calm_of rfl rfl rfl, ⟨by decide, by decide, by decide⟩, by unfold Unpoisoned; decide, by decide⟩
theorem witness_atomics : Reaches { dRRR 0#3 127#7 1#7 2#7 with drain := true } 8 :=
  ⟨issues_of (by decide), plain_of rfl rfl, calm_of rfl rfl rfl, ⟨by decide, by decide, by decide⟩, by unfold Unpoisoned; decide, by decide⟩
theorem witness_vector_access :
    Reaches { guard := 0#3, g := [1, 3], v := [63], reads := [1, 3], vwrites := [63] } 64 :=
  ⟨issues_of (by decide), plain_of rfl rfl, calm_of rfl rfl rfl, ⟨by decide, by decide, by decide⟩, by unfold Unpoisoned; decide, by decide⟩
/-- LDFE and STFE at the last word: empty, and full. -/
theorem witness_full_empty :
    Reaches { guard := 0#3, g := [2, 1, 0], reads := [2, 1], writes := [2], drain := true } 8 ∧
    (0x1FFF8 : Nat) / 8 ∉ ((on (tea 0x1FFF8#64)).core 0).full ∧
    (0x1FFF8 : Nat) / 8 ∈ ((on (tea 0x1FFF8#64) { full := [0x3FFF] }).core 0).full :=
  ⟨⟨issues_of (by decide), plain_of rfl rfl, calm_of rfl rfl rfl, ⟨by decide, by decide, by decide⟩,
    by unfold Unpoisoned; decide, by decide⟩, by decide, by decide⟩
/-- Each code of WATCH: a free watch, the line watched, eight watches. -/
def w0 (k : Nat) : Watch := { place := .spad 0 (64 * k), thread := ⟨0, 0⟩, kind := .watch }
theorem witness_watch : Reaches (dRR 0#3 2#7 1#7) 1 ∧ storeRoom s0 0 (w0 0).place = true ∧ w0 0 ∈ [w0 0] ∧
    w0 9 ∉ (List.range 8).map w0 ∧
    8 ≤ (((List.range 8).map w0).filter (fun x => x.thread = ⟨0, 0⟩ && x.kind = .watch)).length :=
  ⟨⟨issues_of (by decide), plain_of rfl rfl, calm_of rfl rfl rfl, ⟨by decide, by decide, by decide⟩,
    by unfold Unpoisoned; decide, by decide⟩, by decide, by decide, by decide, by decide⟩
theorem witness_unwatch : NoEntryWaits s0 ∧ Ready (dRR 0#3 2#7 0#7) ∧
    (∀ w ∈ [w0 0], w.thread = ⟨0, 0⟩ → w.kind = .watch → ∃ off, w.place = .spad 0 off) :=
  ⟨⟨rfl, by decide, by decide⟩, ready_of (by decide), fun w h _ _ => ⟨0, by simp [w0] at h; rw [h]⟩⟩
theorem witness_sleep : Ready { guard := 0#3, g := [3], writes := [3] } ∧ t0.latch = false ∧
    (∃ w ∈ [w0 0], w.thread = ⟨0, 0⟩ ∧ w.kind = .watch) ∧
    (let t := { t0 with latch := true }
     Issues { guard := 0#3, g := [3], writes := [3] } (on t) 0 0 t ∧ t.latch = true) :=
  ⟨ready_of (by decide), rfl, ⟨w0 0, by simp, rfl, rfl⟩, ⟨issues_of (by decide), rfl⟩⟩
/-- WAITGE of a word that is equal to the bound (0), and of one that is below it (1). -/
theorem witness_waitge : Reaches (dRRR 0#3 3#7 1#7 2#7) 8 ∧
    ((tea 0x1FFF8#64).gv 2).toNat ≤ (leWord (Mem.readN ((on (tea 0x1FFF8#64)).core 0).spad 0x1FFF8 8)).toNat ∧
    (leWord (Mem.readN ((on (tea 0x1FFF8#64)).core 0).spad 0x1FFF8 8)).toNat < ((tea 0x1FFF8#64 1#64).gv 2).toNat :=
  ⟨⟨issues_of (by decide), plain_of rfl rfl, calm_of rfl rfl rfl, ⟨by decide, by decide, by decide⟩,
    by unfold Unpoisoned; decide, by decide⟩, by decide, by decide⟩
set_option maxRecDepth 100000 in
/-- Sixteen lanes, strided and indexed, all in the scratchpad. -/
theorem witness_lanes : (let t := tea 0x1FFC0#64 4#64
    ∀ l, l < 16 → (t.gv 1 + BitVec.ofNat 64 l * t.gv 2).toNat < 0x20000 ∧
      (t.gv 1 + BitVec.ofNat 64 l * t.gv 2).toNat % 4 = 0) ∧
    (let t := { tea 0x100#64 0xFFFE#64 with v := [(2, ofElems 32 (List.replicate 16 0xFFFFFFFF))] }
     (List.range 16).filter (fun l => !(t.gv 2).getLsbD l) = [0] ∧
       (t.gv 1 + (lane (t.vv 2) 0).signExtend 64 * 4#64).toNat = 0xFC ∧
       issuesB { guard := 0#3, g := [1, 2], v := [2, 3], reads := [1, 2], vreads := [2], vwrites := [3] } (on t) 0 0 t = true) := by
  constructor
  · decide
  · decide
/-- Misaligned; below XB; the last address below XB and the first address of no class. -/
theorem witness_checked : (0x101#64 : Word).toNat % 8 ≠ 0 ∧
    (let s := on (tea 0xF8#64) { xb := 0x100 }
     issuesB { guard := 0#3, g := [2, 1], reads := [2, 1] } s 0 0 (tea 0xF8#64) = true ∧ (0xF8 : Nat) < (s.core 0).xb) ∧
    (let s := on (tea 0x20000#64) { xb := 0x20000 }
     issuesB { guard := 0#3, g := [2, 1], reads := [1], writes := [2] } s 0 0 (tea 0x20000#64) = true ∧
       0x20000 ≤ (0x20000#64 : Word).toNat) := by decide

/-- Page tables of process 0 of partition 0: one coherent page of 1 GiB, at address 0 and at the first coherent
address. -/
def tables : Mem :=
  [(0, 0x01#8), (1, 0x10#8), (0x1000, 0x01#8), (0x1001, 0x20#8), (0x1010, 0x01#8), (0x1011, 0x20#8), (0x2000, 0x07#8),
   (0x2001, 0x40#8)]

theorem ok_of {α β : Type} {x : Except α β} {a : β} (h : x.toOption = some a) : x = .ok a := by
  cases x <;> simp_all [Except.toOption]

def aLine : List Byte := List.replicate 64 7#8
def aWord : List Byte := [1#8, 2#8, 3#8, 4#8, 5#8, 6#8, 7#8, 8#8]
/-- One core, whatever it holds. -/
def at0 (k : Core) : State := { cores := [(0, k)] }
/-- A thread that waits. -/
def tw (w : Wait) (c : TCode := .waiting) : Thread := { t0 with code := c, wait := w }
/-- The thread of core 0 waits. -/
def sw (w : Wait) (k : Core := {}) : State := on (tw w) k

theorem witness_rotation_fill : ∃ (c : _) (s : State) (slot : _) (y : _) (rest : _) (t : Thread),
    Map.has (s.core c).rot ((s.core c).cyc % 16) = false ∧
    (s.core c).selft = none ∧
    issueStopped s c = false ∧
    (s.core c).ready = (slot, y) :: rest ∧
    y < (s.core c).cyc ∧
    s.thread? c slot = some t :=
  ⟨0, at0 { cyc := 1, ready := [(0, 0)], threads := [(0, t0)] }, _, _, _, _, by first | rfl | decide,
   by first | rfl | decide, by first | rfl | decide, by first | rfl | decide, by first | rfl | decide, rfl⟩

theorem witness_fill_admit : ∃ (c : _) (s : State) (slot : _) (rest : _) (t : Thread) (regs : _) (need : _),
    (s.core c).fillq = slot :: rest ∧
    s.thread? c slot = some t ∧
    t.wait = .fill regs ∧
    need = regs.filter (fun r => r < 128 && cold (s.core c) t slot r) ∧
    busyEntries (s.core c) + need.length < rcSize (s.core c) :=
  ⟨0, at0 { fillq := [0], threads := [(0, tw (.fill [1, 130]))] }, _, _, _, _, _, by first | rfl | decide, rfl,
   by first | rfl | decide, rfl, by first | rfl | decide⟩

theorem witness_fill_complete : ∃ (c : _) (slot : _) (s : State) (t : Thread) (regs : _),
    Waits s c slot t (.fill regs) ∧
    t.code = .waiting ∧
    slot ∉ (s.core c).fillq ∧
    (∀ r ∈ regs, pendingG t r = false ∧ (128 ≤ r → pendingV t (r - 128) = false)) :=
  ⟨0, 0, sw (.fill [1, 130]), _, _, ⟨rfl, rfl, .inl rfl, rfl, rfl⟩, by first | rfl | decide, by first | rfl | decide,
   by first | rfl | decide⟩

theorem witness_thread_fill : ∃ (c : _) (s : State) (slot : _) (rest : _) (t : Thread),
    (s.core c).ctxWait = .fill slot :: rest ∧
    s.thread? c slot = some t ∧
    poolsFit s c t.m t.zc = true ∧
    contexts s c < 512 :=
  ⟨0, at0 { ctxWait := [.fill 0], threads := [(0, { code := .spilled, away := true })] }, _, _, _,
   by first | rfl | decide, rfl, by first | rfl | decide, by first | rfl | decide⟩

theorem witness_thread_fill_complete : ∃ (c : _) (slot : _) (s : State) (t : Thread),
    s.thread? c slot = some t ∧
    t.code = .spilled ∧
    t.away = false ∧
    t.wait = .idle :=
  ⟨0, 0, at0 { threads := [(0, { code := .spilled })] }, _, rfl, by first | rfl | decide, by first | rfl | decide,
   by first | rfl | decide⟩

theorem witness_spawn_packet : ∃ (id : _) (s : State) (p : _) (slot : _) (r : _) (u : _) (d : _) (x : _) (t : Thread) (e : Instr),
    Map.get? s.packets id = some p ∧
    p.kind = 0 ∧
    p.slot = none ∧
    p.issuer = some r ∧
    Waits s r.core r.slot u (.packet d x) ∧
    lowestSlot (s.core p.target) 0 4080 = some slot ∧
    isSaved s p.thread.gid = false ∧
    poolsFit s p.target p.thread.m p.thread.zc = true ∧
    backing p.thread.n p.thread.m p.thread.zc ≤ layByRoom s p.thread.part ∧
    contexts s p.target < 512 ∧
    slotsUsed s p.target < 4080 ∧
    p.reply = none ∧
    coreStopping s p.target = false ∧
    (∀ l, s.launch? p.thread.lid = some l → l.preempting = false) ∧
    t = { p.thread with room := backing p.thread.n p.thread.m p.thread.zc, away := false, code := .ready,
                        slept := false, sleepFor := 0 } ∧
    (e = .threadPacketArrive id ∧ (s.core p.target).ctxWait = [] ∧ id ∉ (s.core p.target).visitWait ∨ e =
      .contextGrant p.target ∧ (s.core p.target).ctxWait.head? = some (.packet id)) :=
  ⟨5,
   { sw (.packet 3 5) with parts := [(0, { words := [(5, 1#64)] })], packets := [(5, { id := 5, target := 0, words := 0x0000000000000000#64 :: List.replicate 15 0#64, issuer := some ⟨0, 0⟩ })] },
   _, 1, _, _, _, _, _, .threadPacketArrive 5, rfl, by decide +kernel, by first | rfl | decide, rfl,
   ⟨rfl, rfl, .inl rfl, rfl, rfl⟩, by decide +kernel, by decide +kernel, by decide +kernel, by decide +kernel,
   by decide +kernel, by decide +kernel, by decide +kernel, by decide +kernel,
   fun _ h => (nomatch (show none = some _ from h)), rfl, .inl ⟨rfl, rfl, by decide⟩⟩

theorem witness_spawn_packet_later : ∃ (id : _) (s : State) (p : _) (slot : _) (r : _) (u : _) (d : _) (x : _) (t : Thread) (e : Instr),
    Map.get? s.packets id = some p ∧
    p.kind = 0 ∧
    p.slot = none ∧
    p.issuer = some r ∧
    Waits s r.core r.slot u (.packet d x) ∧
    lowestSlot (s.core p.target) 0 4080 = some slot ∧
    isSaved s p.thread.gid = false ∧
    poolsFit s p.target p.thread.m p.thread.zc = true ∧
    backing p.thread.n p.thread.m p.thread.zc ≤ layByRoom s p.thread.part ∧
    contexts s p.target < 512 ∧
    slotsUsed s p.target < 4080 ∧
    p.reply = none ∧
    coreStopping s p.target = false ∧
    (∀ l, s.launch? p.thread.lid = some l → l.preempting = false) ∧
    t = { p.thread with room := backing p.thread.n p.thread.m p.thread.zc, away := false, code := .ready,
                        slept := false, sleepFor := 0 } ∧
    (e = .threadPacketArrive id ∧ (s.core p.target).ctxWait = [] ∧ id ∉ (s.core p.target).visitWait ∨ e =
      .contextGrant p.target ∧ (s.core p.target).ctxWait.head? = some (.packet id)) :=
  ⟨5,
   { sw (.packet 3 5) { ctxWait := [.packet 5] } with parts := [(0, { words := [(5, 1#64)] })], packets := [(5, { id := 5, target := 0, words := 0x0000000000000000#64 :: List.replicate 15 0#64, issuer := some ⟨0, 0⟩ })] },
   _, 1, _, _, _, _, _, .contextGrant 0, rfl, by decide +kernel, by first | rfl | decide, rfl,
   ⟨rfl, rfl, .inl rfl, rfl, rfl⟩, by decide +kernel, by decide +kernel, by decide +kernel, by decide +kernel,
   by decide +kernel, by decide +kernel, by decide +kernel, by decide +kernel,
   fun _ h => (nomatch (show none = some _ from h)), rfl, .inr ⟨rfl, rfl⟩⟩

theorem witness_fork_packet : ∃ (id : _) (s : State) (p : _) (slot : _),
    Map.get? s.packets id = some p ∧
    p.slot = some slot ∧
    coreStopping s p.target = false ∧
    .packet id ∉ (s.core p.target).ctxWait ∧
    id ∉ (s.core p.target).visitWait ∧
    (∀ l, s.launch? p.thread.lid = some l → l.preempting = false) :=
  ⟨5,
   { at0 { reservedSlots := [1] } with packets := [(5, { id := 5, target := 0, words := 0x3000000000000000#64 :: List.replicate 15 0#64, issuer := some ⟨0, 0⟩, slot := some 1 })] },
   _, _, rfl, rfl, by first | rfl | decide, by first | rfl | decide, by first | rfl | decide,
   fun _ h => (nomatch (show none = some _ from h))⟩

theorem witness_message_packet : ∃ (id : _) (s : State) (p : _) (slot : _) (r : _) (u : _) (d : _) (x : _) (t : Thread) (e : Instr),
    Map.get? s.packets id = some p ∧
    (p.kind = 1 ∨ p.kind = 2) ∧
    p.slot = none ∧
    p.issuer = some r ∧
    Waits s r.core r.slot u (.packet d x) ∧
    u.sstop = false ∧
    lowestSlot (s.core p.target) 4080 16 = some slot ∧
    coreStopping s p.target = false ∧
    p.reply = none ∧
    t = { p.thread with away := false, code := .ready, slept := false, sleepFor := 0 } ∧
    (e = .threadPacketArrive id ∧ (s.core p.target).visitWait = [] ∧ .packet id ∉ (s.core p.target).ctxWait ∨ e =
      .visitorSlotGrant p.target ∧ (s.core p.target).visitWait.head? = some id) :=
  ⟨5,
   { sw (.packet 3 5) with packets := [(5, { id := 5, target := 0, words := 0x2000000000000000#64 :: List.replicate 15 0#64, issuer := some ⟨0, 0⟩ })] },
   _, 4080, _, _, _, _, _, .threadPacketArrive 5, rfl, .inr (by decide +kernel), by first | rfl | decide, rfl,
   ⟨rfl, rfl, .inl rfl, rfl, rfl⟩, by first | rfl | decide, by decide +kernel, by decide +kernel, by decide +kernel,
   rfl, .inl ⟨rfl, rfl, by decide⟩⟩

theorem witness_migrant_packet : ∃ (id : _) (s : State) (p : _) (slot : _) (r : _) (u : _) (d : _) (x : _) (t : Thread) (e : Instr),
    Map.get? s.packets id = some p ∧
    (p.kind = 1 ∨ p.kind = 2) ∧
    p.slot = none ∧
    p.issuer = some r ∧
    Waits s r.core r.slot u (.packet d x) ∧
    u.sstop = false ∧
    lowestSlot (s.core p.target) 4080 16 = some slot ∧
    coreStopping s p.target = false ∧
    p.reply = none ∧
    t = { p.thread with away := false, code := .ready, slept := false, sleepFor := 0 } ∧
    (e = .threadPacketArrive id ∧ (s.core p.target).visitWait = [] ∧ .packet id ∉ (s.core p.target).ctxWait ∨ e =
      .visitorSlotGrant p.target ∧ (s.core p.target).visitWait.head? = some id) :=
  ⟨5,
   { sw (.packet 3 5) { visitWait := [5] } with packets := [(5, { id := 5, target := 0, words := 0x1000000000000000#64 :: List.replicate 15 0#64, issuer := some ⟨0, 0⟩ })] },
   _, 4080, _, _, _, _, _, .visitorSlotGrant 0, rfl, .inl (by decide +kernel), by first | rfl | decide, rfl,
   ⟨rfl, rfl, .inl rfl, rfl, rfl⟩, by first | rfl | decide, by decide +kernel, by decide +kernel, by decide +kernel,
   rfl, .inr ⟨rfl, rfl⟩⟩

theorem witness_sleep_limit : ∃ (c : _) (slot : _) (s : State) (t : Thread) (w : _) (d : _) (v : _),
    Waits s c slot t w ∧
    limitReached t = true ∧
    woken s ⟨c, slot⟩ w = false ∧
    (w = .sleep d ∧ v = 1#64 ∨ (∃ va p b e, w = .waitge d va p b v e) ∨ ∃ p, w = .bar d p v) :=
  ⟨0, 0, on ({ tw (.sleep 3) .sleeping with wlim := 10#64, sleepFor := 10 }), _, _, 3, 1#64,
   ⟨rfl, rfl, .inr rfl, rfl, rfl⟩, by first | rfl | decide, by first | rfl | decide, .inl ⟨rfl, rfl⟩⟩

theorem witness_waitge_limit : ∃ (c : _) (slot : _) (s : State) (t : Thread) (w : _) (d : _) (v : _),
    Waits s c slot t w ∧
    limitReached t = true ∧
    woken s ⟨c, slot⟩ w = false ∧
    (w = .sleep d ∧ v = 1#64 ∨ (∃ va p b e, w = .waitge d va p b v e) ∨ ∃ p, w = .bar d p v) :=
  ⟨0, 0,
   on ({ tw (.waitge 3 0x1FFF8#64 (.spad 0 0x1FFF8) 1#64 0#64 true) .sleeping with wlim := 10#64, sleepFor := 10 }),
   _, _, 3, 0#64, ⟨rfl, rfl, .inr rfl, rfl, rfl⟩, by first | rfl | decide, by first | rfl | decide,
   .inr (.inl ⟨_, _, _, _, rfl⟩)⟩

theorem witness_bar_limit : ∃ (c : _) (slot : _) (s : State) (t : Thread) (w : _) (d : _) (v : _),
    Waits s c slot t w ∧
    limitReached t = true ∧
    woken s ⟨c, slot⟩ w = false ∧
    (w = .sleep d ∧ v = 1#64 ∨ (∃ va p b e, w = .waitge d va p b v e) ∨ ∃ p, w = .bar d p v) :=
  ⟨0, 0, on ({ tw (.bar 3 (.page .coherent 0 0x28) 7#64) .sleeping with wlim := 10#64, sleepFor := 10 }), _, _, 3,
   7#64, ⟨rfl, rfl, .inr rfl, rfl, rfl⟩, by first | rfl | decide, by first | rfl | decide, .inr (.inr ⟨_, rfl⟩)⟩

theorem witness_fe_limit : ∃ (c : _) (slot : _) (s : State) (t : Thread) (w : _) (load : _) (d : _) (va : Word) (p : _) (data : _) (e : _),
    Waits s c slot t w ∧
    limitReached t = true ∧
    woken s ⟨c, slot⟩ w = false ∧
    w = .fe load d va p data e :=
  ⟨0, 0,
   on ({ tw (.fe true 3 0x1FFF8#64 (.spad 0 0x1FFF8) 0#64 true) .sleeping with wlim := 10#64, sleepFor := 10 }), _,
   _, _, _, _, _, _, _, ⟨rfl, rfl, .inr rfl, rfl, rfl⟩, by first | rfl | decide, by first | rfl | decide, rfl⟩

theorem witness_waitge_met : ∃ (c : _) (slot : _) (s : State) (t : Thread) (d : _) (va : Word) (p : _) (bound : _) (last : _) (v : _),
    Waits s c slot t (.waitge d va p bound last true) ∧
    (s.core c).lock = none ∧
    InTurn s (.waitgeRecheck c slot) p false ∧
    (∀ q w, Event.feWaiterRelease q w ∉ s.agenda) ∧
    v = readPlace s c p 8 ∧
    v.2 = false ∧
    bound.toNat ≤ (leWord v.1).toNat :=
  ⟨0, 0, sw (.waitge 3 0x1FFF8#64 (.spad 0 0x1FFF8) 0#64 0#64 true), _, _, _, _, _, _, _,
   ⟨rfl, rfl, .inl rfl, rfl, rfl⟩, by first | rfl | decide, inTurn_of rfl, fun _ => (by simp [at0, sw, on]), rfl,
   by first | rfl | decide, by first | rfl | decide⟩

theorem witness_waitge_not_met : ∃ (c : _) (slot : _) (s : State) (t : Thread) (d : _) (va : Word) (p : _) (bound : _) (last : _) (v : _),
    Waits s c slot t (.waitge d va p bound last true) ∧
    (s.core c).lock = none ∧
    InTurn s (.waitgeRecheck c slot) p false ∧
    (∀ q w, Event.feWaiterRelease q w ∉ s.agenda) ∧
    v = readPlace s c p 8 ∧
    v.2 = false ∧
    (leWord v.1).toNat < bound.toNat :=
  ⟨0, 0, sw (.waitge 3 0x1FFF8#64 (.spad 0 0x1FFF8) 1#64 0#64 true), _, _, _, _, _, _, _,
   ⟨rfl, rfl, .inl rfl, rfl, rfl⟩, by first | rfl | decide, inTurn_of rfl, fun _ => (by simp [at0, sw, on]), rfl,
   by first | rfl | decide, by first | rfl | decide⟩

theorem witness_waitge_entry_met : ∃ (c : _) (slot : _) (s : State) (t : Thread) (d : _) (va : Word) (q : _) (off : _) (bound : _) (last : _) (v : _),
    Waits s c slot t (.waitge d va (.spad q off) bound last false) ∧
    t.code = .waiting ∧
    (s.core c).lock = none ∧
    InTurn s (.watchEntryGrant c slot) (.spad q off) false ∧
    (∀ q w, Event.feWaiterRelease q w ∉ s.agenda) ∧
    v = readPlace s c (.spad q off) 8 ∧
    v.2 = false ∧
    storeRoom s c (.spad q off) = true ∧
    s.entryWait.head? = some (⟨c, slot⟩, .spad q off) ∧
    bound.toNat ≤ (leWord v.1).toNat :=
  ⟨0, 0,
   { sw (.waitge 3 0x1FFF8#64 (.spad 0 0x1FFF8) 0#64 0#64 false) with entryWait := [(⟨0, 0⟩, .spad 0 0x1FFF8)] }, _,
   _, _, _, _, _, _, _, ⟨rfl, rfl, .inl rfl, rfl, rfl⟩, by first | rfl | decide, by first | rfl | decide,
   inTurn_of rfl, fun _ => (by simp [at0, sw, on]), rfl, by first | rfl | decide, by first | rfl | decide, rfl,
   by first | rfl | decide⟩

theorem witness_waitge_entry_not_met : ∃ (c : _) (slot : _) (s : State) (t : Thread) (d : _) (va : Word) (q : _) (off : _) (bound : _) (last : _) (v : _),
    Waits s c slot t (.waitge d va (.spad q off) bound last false) ∧
    t.code = .waiting ∧
    (s.core c).lock = none ∧
    InTurn s (.watchEntryGrant c slot) (.spad q off) false ∧
    (∀ q w, Event.feWaiterRelease q w ∉ s.agenda) ∧
    v = readPlace s c (.spad q off) 8 ∧
    v.2 = false ∧
    storeRoom s c (.spad q off) = true ∧
    s.entryWait.head? = some (⟨c, slot⟩, .spad q off) ∧
    (leWord v.1).toNat < bound.toNat :=
  ⟨0, 0,
   { sw (.waitge 3 0x1FFF8#64 (.spad 0 0x1FFF8) 1#64 0#64 false) with entryWait := [(⟨0, 0⟩, .spad 0 0x1FFF8)] }, _,
   _, _, _, _, _, _, _, ⟨rfl, rfl, .inl rfl, rfl, rfl⟩, by first | rfl | decide, by first | rfl | decide,
   inTurn_of rfl, fun _ => (by simp [at0, sw, on]), rfl, by first | rfl | decide, by first | rfl | decide, rfl,
   by first | rfl | decide⟩

theorem witness_fe_release : ∃ (c : _) (off : _) (s : State) (w : _) (slot : _) (t : Thread) (d : _) (va : Word) (data : _),
    Waits s c slot t (.fe true d va (.spad c (8 * off)) data true) ∧
    w = { place := .spad c (8 * off), thread := ⟨c, slot⟩, kind := .fe } ∧
    s.watches = [w] ∧
    off ∈ (s.core c).full ∧
    Unpoisoned (s.core c) (8 * off) 8 ∧
    (∀ q ∈ s.queries, q.answer = none) ∧
    (s.core c).fenced = false :=
  ⟨0, 0x3FFF,
   { sw (.fe true 3 0x1FFF8#64 (.spad 0 0x1FFF8) 0#64 true) { full := [0x3FFF] } with
    watches := [{ place := .spad 0 0x1FFF8, thread := ⟨0, 0⟩, kind := .fe }] },
   _, _, _, _, _, _, ⟨rfl, rfl, .inl rfl, rfl, rfl⟩, rfl, by first | rfl | decide, by first | rfl | decide,
   by unfold Unpoisoned; decide, nofun, by first | rfl | decide⟩

set_option maxRecDepth 100000 in
theorem witness_load_complete : ∃ (c : _) (slot : _) (s : State) (t : Thread) (a : _) (va : Word) (pkg : _) (pa : _) (l : _) (d : _),
    Waits s c slot t (.access a) ∧
    t.relaxed = [] ∧
    (s.core c).lock = none ∧
    a.units = [{ va := va, size := 8, op := .load, place := some (.page .coherent pkg pa), sent := false,
                 out := none }] ∧
    a.fin = .g d false ∧
    a.bad = none ∧
    NoAct s (.accessComplete c slot) ∧
    Map.get? (s.core c).l1 (lineKey s pa) = some l ∧
    l.poison = false :=
  ⟨0, 0,
   sw (.access { units := [{ va := 0x10000000008#64, size := 8, op := .load, place := some (.page .coherent 0 0x48), sent := false, out := none }], fin := .g 3 false, checked := true, issued := 0, load := true, auto := false, sup := false }) { l1 := [(1, { st := .s, kind := .coherent, data := aLine })] },
   _, _, _, _, _, { st := .s, kind := .coherent, data := aLine }, _, ⟨rfl, rfl, .inl rfl, rfl, rfl⟩,
   by first | rfl | decide, by first | rfl | decide, rfl, rfl, by first | rfl | decide, noAct_of rfl, by decide,
   by first | rfl | decide⟩

set_option maxRecDepth 100000 in
theorem witness_relaxed_load : ∃ (c : _) (slot : _) (id : _) (s : State) (t : Thread) (x : _) (va : Word) (pkg : _) (pa : _) (l : _) (d : _),
    s.thread? c slot = some t ∧
    t.relaxed = [x] ∧
    x.id = id ∧
    x.fault = none ∧
    t.wait = .idle ∧
    (s.core c).lock = none ∧
    x.acc.units = [{ va := va, size := 8, op := .load, place := some (.page .coherent pkg pa), sent := false,
                     out := none }] ∧
    x.acc.fin = .g d false ∧
    Map.get? (s.core c).l1 (lineKey s pa) = some l ∧
    l.poison = false :=
  ⟨0, 0, _,
   on { t0 with relaxed := [{ id := 9, load := true, dstG := some 3, dstV := none, word := 0#32, acc := { units := [{ va := 0x10000000008#64, size := 8, op := .load, place := some (.page .coherent 0 0x48), sent := false, out := none }], fin := .g 3 false, checked := true, issued := 0, load := true, auto := false, sup := false } }] } { l1 := [(1, { st := .s, kind := .coherent, data := aLine })] },
   _, _, _, _, _, { st := .s, kind := .coherent, data := aLine }, _, rfl, rfl, rfl, by first | rfl | decide,
   by first | rfl | decide, by first | rfl | decide, by first | rfl | decide, rfl, by decide, by first | rfl | decide⟩

set_option maxRecDepth 100000 in
theorem witness_relaxed_store : ∃ (c : _) (slot : _) (id : _) (s : State) (t : Thread) (x : _) (va : Word) (pkg : _) (pa : _) (l : _) (bs : _),
    s.thread? c slot = some t ∧
    t.relaxed = [x] ∧
    x.id = id ∧
    x.fault = none ∧
    t.wait = .idle ∧
    (s.core c).lock = none ∧
    bs.length = 8 ∧
    x.acc.units = [{ va := va, size := 8, op := .store bs, place := some (.page .coherent pkg pa), sent := false,
                     out := none }] ∧
    x.acc.fin = .none ∧
    Map.get? (s.core c).l1 (lineKey s pa) = some l ∧
    l.st ≠ .s ∧
    invrHolds s c (.page .coherent pkg pa) = false :=
  ⟨0, 0, _,
   on { t0 with relaxed := [{ id := 9, load := false, dstG := none, dstV := none, word := 0#32, acc := { units := [{ va := 0x10000000008#64, size := 8, op := .store (aWord), place := some (.page .coherent 0 0x48), sent := false, out := none }], fin := .none, checked := true, issued := 0, load := false, auto := false, sup := false } }] } { l1 := [(1, { st := .e, kind := .coherent, data := aLine })] },
   _, _, _, _, _, { st := .e, kind := .coherent, data := aLine }, aWord, rfl, rfl, rfl, by first | rfl | decide,
   by first | rfl | decide, by first | rfl | decide, by first | rfl | decide, by first | rfl | decide, rfl,
   by decide, by first | rfl | decide, by first | rfl | decide⟩

theorem witness_guest : ∃ (c : _) (slot : _) (q : _) (s : State) (t : Thread) (a : _) (va : Word) (off : _) (d : _),
    Waits s c slot t (.access a) ∧
    (s.core q).guests = [(⟨c, slot⟩, none)] ∧
    a.units = [{ va := va, size := 8, op := .load, place := some (.spad q off), sent := true, out := none }] ∧
    a.fin = .g d false ∧
    c ≠ q ∧
    (s.core c).lock = none ∧
    (s.core q).lock = none ∧
    (s.core q).fenced = false ∧
    Unpoisoned (s.core q) off 8 ∧
    (∀ w ∈ s.watches, w.kind ≠ .fe) :=
  ⟨0, 0, 1,
   { cores := [(0, { threads := [(0, tw (.access { units := [{ va := 0x10000000008#64, size := 8, op := .load, place := some (.spad 1 0x1FFF8), sent := true, out := none }], fin := .g 3 false, checked := true, issued := 0, load := true, auto := false, sup := false }))] }), (1, { guests := [(⟨0, 0⟩, none)] })] },
   _, _, _, _, _, ⟨rfl, rfl, .inl rfl, rfl, rfl⟩, by first | rfl | decide, rfl, rfl, by first | rfl | decide,
   by first | rfl | decide, by first | rfl | decide, by first | rfl | decide, nofun, by first | rfl | decide⟩

theorem witness_posted_store : ∃ (c : _) (slot : _) (s : State) (t : Thread) (a : _) (va : Word) (pkg : _) (pa : _) (bs : _),
    Waits s c slot t (.access a) ∧
    a.units = [{ va := va, size := bs.length, op := .store bs, place := some (.page .remotePosted pkg pa),
                 sent := true, out := none }] ∧
    a.fin = .none :=
  ⟨0, 0,
   sw (.access { units := [{ va := 0x10000000008#64, size := 2, op := .store [1#8, 2#8], place := some (.page .remotePosted 1 0x48), sent := true, out := none }], fin := .none, checked := true, issued := 0, load := false, auto := false, sup := false }),
   _, _, _, _, _, [1#8, 2#8], ⟨rfl, rfl, .inl rfl, rfl, rfl⟩, rfl, rfl⟩

theorem witness_watch_recorded : ∃ (c : _) (slot : _) (s : State) (t : Thread) (a : _) (va : Word) (q : _) (off : _) (d : _) (w : _) (code : _),
    Waits s c slot t (.access a) ∧
    a.units = [{ va := va, size := 1, op := .watch, place := some (.spad q off), sent := true, out := none }] ∧
    a.fin = .status d ∧
    w = { place := .spad q (off / 64 * 64), thread := ⟨c, slot⟩, kind := .watch } ∧
    (code = if w ∈ s.watches then 1#64 else if 8 ≤ (s.watches.filter (fun x => x.thread = ⟨c, slot⟩ && x.kind =
      .watch)).length then 3#64 else if storeRoom s c w.place then 0#64 else 2#64) ∧
    NoAct s (.watchRecorded c slot) :=
  ⟨0, 0,
   sw (.access { units := [{ va := 0x10000000008#64, size := 1, op := .watch, place := some (.spad 0 0x1FFF8), sent := true, out := none }], fin := .status 3, checked := true, issued := 0, load := true, auto := false, sup := false }),
   _, _, _, _, _, _, _, _, ⟨rfl, rfl, .inl rfl, rfl, rfl⟩, rfl, rfl, rfl, rfl, noAct_of rfl⟩

theorem witness_pms_write : ∃ (c : _) (slot : _) (s : State) (t : Thread) (a : _) (va : Word) (bs : _) (m : _),
    Waits s c slot t (.access a) ∧
    a.units = [{ va := va, size := 8, op := .store bs, place := some (.dev 0x80), sent := true, out := none }] ∧
    a.fin = .none ∧
    pmsTranslate s c t (leWord bs) = (s, .ok m) :=
  ⟨0, 0,
   sw (.access { units := [{ va := 0x10000000008#64, size := 8, op := .store (wordBytes 0#64), place := some (.dev 0x80), sent := true, out := none }], fin := .none, checked := true, issued := 0, load := false, auto := false, sup := false }),
   _, _, _, _, _, ⟨rfl, rfl, .inl rfl, rfl, rfl⟩, rfl, rfl, by first | rfl | decide⟩

set_option maxRecDepth 100000 in
theorem witness_walk : ∃ (id : _) (s : State) (k : Walk) (p : _) (a : _) (lvl : _) (b : _),
    s.walks.find? (fun k => k.id = id) = some k ∧
    k.marked = false ∧
    p = walkStep s k.part k.proc k.va.toNat k.pos ∧
    walkReads s k.part k.proc k.va.toNat k.pos = some a ∧
    InTurn s (.walkComplete id) (.page .coherent s.pkg (a / 64 * 64)) false ∧
    p = .table lvl b :=
  ⟨5,
   { mem := tables, walks := [{ id := 5, ws := 0, part := 0, proc := 0, va := 0#64, waiters := [], marked := false }] },
   { id := 5, ws := 0, part := 0, proc := 0, va := 0#64, waiters := [], marked := false }, _, 0, _, _, rfl,
   by first | rfl | decide, rfl, by decide, inTurn_of rfl, rfl⟩

set_option maxRecDepth 100000 in
theorem witness_walk_leaf : ∃ (id : _) (s : State) (k : Walk) (p : _) (a : _) (e : _),
    s.walks.find? (fun k => k.id = id) = some k ∧
    k.marked = false ∧
    p = walkStep s k.part k.proc k.va.toNat k.pos ∧
    walkReads s k.part k.proc k.va.toNat k.pos = some a ∧
    InTurn s (.walkComplete id) (.page .coherent s.pkg (a / 64 * 64)) false ∧
    p = .leaf e :=
  ⟨5,
   { mem := tables, walks := [{ id := 5, ws := 0, part := 0, proc := 0, va := 0#64, waiters := [], marked := false, pos := .table 2 0x2000 }] },
   { id := 5, ws := 0, part := 0, proc := 0, va := 0#64, waiters := [], marked := false, pos := .table 2 0x2000 }, _,
   0x2000,
   { part := 0, proc := 0, page := 0, bits := 30, pkg := 0, frame := 0, kind := .coherent, mig := false, noamo := false, w := true },
   rfl, by first | rfl | decide, rfl, by decide, inTurn_of rfl, rfl⟩

theorem witness_l1_term : ∃ (agent : _) (line : _) (s : State) (l : _) (e : _),
    l.term = some e ∧
    isL1 agent = true ∧
    Map.get? (s.core agent).l1 line = some l ∧
    e ≤ (s.core agent).cyc :=
  ⟨0, 1, at0 { cyc := 7, l1 := [(1, { st := .s, kind := .remotePosted, data := [], term := some 7 })] }, _, _, rfl,
   by first | rfl | decide, rfl, by first | rfl | decide⟩

theorem witness_rdc_term : ∃ (agent : _) (line : _) (s : State) (l : _) (e : _),
    l.term = some e ∧
    isL1 agent = false ∧
    Map.get? (rdcOf s (agent - 0xC00)) line = some l ∧
    e ≤ s.now :=
  ⟨0xC00, 1, { rdc := [(0, [(1, { st := .s, kind := .remotePosted, data := [], term := some 7 })])], now := 7 }, _,
   _, rfl, by first | rfl | decide, rfl, by first | rfl | decide⟩

theorem some_of {α : Type} {x : Option α} (h : x.isSome = true) : x = some (x.get h) := by simp
theorem pair_ok {σ ε α : Type} {x : σ × Except ε α} {b : α} (h : x.2.toOption = some b) : x = (x.1, .ok b) := by
  obtain ⟨s, r⟩ := x
  cases r <;> simp_all [Except.toOption]
theorem pair_none {σ α : Type} {x : σ × Option α} (h : x.2.isNone = true) : x = (x.1, none) := by
  obtain ⟨s, r⟩ := x
  cases r <;> simp_all

def hdr0 : Header :=
  { code := 0#64, entry := 0, bytes := 0, gfield := 0, tfield := 0, count := 0, widths := [], extents := [], spad := 0,
    zclaim := 0, vclaim := 0, regs := 16, gsize := 1, fmt := 0#64, scl := 0#64, auth := 0#64, fline := 0#64,
    done := 0#64, doneadd := 0#64, dep := 0#64, depval := 0#64, quantum := 0, migrant := true, edge := false,
    persist := false, lsp := false, prio := 0, geom := 0#64, wlist := 0#64, grain := 0, wcount := 0, proc := 0,
    part := 0 }
def launch0 : Launch :=
  { lid := 0, part := 0, hdr := hdr0, seq := 0, entered := true, ready := some 0, cancelled := false, bands := [.placed],
    status := 0#5, ran := 0, preempting := false, items := 0, node := none, fits := 0, done := false }
def group0 : Group := { gid := 0, lid := 0, core := 0 }
/-- Partition 0 has the cores 0, 1 and 16, with one launch that has a group on core 0; a page of 1 GiB stands at the first
coherent address. -/
def hosted (s : State) : State :=
  { s with parts := [(0, { ctab := [0, 1, 16] })], launches := [(0, launch0)], groups := [(0, group0)],
           ws := [(0, [{ part := 0, proc := 0, page := 1024, bits := 30, pkg := 0, frame := 0, kind := .coherent,
                         mig := true, noamo := false, w := true }])] }
/-- The same with a page of another package at that address, which the partition's route table lets it reach. -/
def far (s : State) : State :=
  { hosted s with parts := [(0, { ctab := [0, 1, 16], words := [(2, 0x2000#64)] })], mem := [(0x2001, 1#8)],
                  ws := [(0, [{ part := 0, proc := 0, page := 1024, bits := 30, pkg := 1, frame := 0, kind := .remotePosted,
                                mig := true, noamo := false, w := true }])] }

/-- A thread whose table, in its core's scratchpad, gives it every right over every thread. -/
def ta : Thread := { tea 0x1FF00#64 0x1FF40#64 with authp := 0x200#64 }
def sa : State := on ta { spad := [(0x200, 1#8), (0x220, 0xFF#8), (0x221, 0xFF#8)] }
/-- A member of the launch that may migrate, with the address of a line of the page in g1. -/
def tm : Thread := { ({} : Thread) with n := 16, code := .running, g := [(1, 0x10000000040#64)] }

theorem witness_spawn : ∃ (g : BitVec 3) (d : BitVec 7) (a : BitVec 7) (b : BitVec 7) (s : State) (c : _) (slot : _) (t : Thread) (name :
      Word) (q : _) (gr : _),
    name = t.gv a.toNat ∧
    (s.core c).lock = none ∧
    Issues { guard := g, g := [d.toNat, a.toNat, b.toNat], reads := [a.toNat, b.toNat, 1, 2, 3, 4],
             writes := [d.toNat], drain := true } s c slot t ∧
    Plain s c slot t ∧
    hPkg name = s.pkg ∧
    namedCore s t.part name = some q ∧
    groupOn s q t.lid = some gr :=
  ⟨0#3, 127#7, 11#7, 12#7, hosted s0, 0, 0, t0, _, 0, group0, rfl, by first | rfl | decide, issues_of (by decide),
   plain_of rfl rfl, by first | rfl | decide, rfl, rfl⟩

theorem witness_spawn_no_core : ∃ (g : BitVec 3) (d : BitVec 7) (a : BitVec 7) (b : BitVec 7) (s : State) (c : _) (slot : _) (t : Thread) (name :
      Word) (r : _),
    name = t.gv a.toNat ∧
    (s.core c).lock = none ∧
    Issues { guard := g, g := [d.toNat, a.toNat, b.toNat], reads := [a.toNat, b.toNat, 1, 2, 3, 4],
             writes := [d.toNat], drain := true } s c slot t ∧
    Plain s c slot t ∧
    (hPkg name ≠ s.pkg ∧ r = 3 ∨ hPkg name = s.pkg ∧ namedCore s t.part name = none ∧ r = 2 ∨ hPkg name = s.pkg ∧
      (∃ q, namedCore s t.part name = some q ∧ groupOn s q t.lid = none) ∧ r = 1) :=
  ⟨0#3, 127#7, 11#7, 12#7, s0, 0, 0, t0, _, 2, rfl, by first | rfl | decide, issues_of (by decide), plain_of rfl rfl,
   by first | rfl | decide⟩

theorem witness_spawn_no_group : ∃ (g : BitVec 3) (d : BitVec 7) (a : BitVec 7) (b : BitVec 7) (s : State) (c : _) (slot : _) (t : Thread) (name :
      Word) (r : _),
    name = t.gv a.toNat ∧
    (s.core c).lock = none ∧
    Issues { guard := g, g := [d.toNat, a.toNat, b.toNat], reads := [a.toNat, b.toNat, 1, 2, 3, 4],
             writes := [d.toNat], drain := true } s c slot t ∧
    Plain s c slot t ∧
    (hPkg name ≠ s.pkg ∧ r = 3 ∨ hPkg name = s.pkg ∧ namedCore s t.part name = none ∧ r = 2 ∨ hPkg name = s.pkg ∧
      (∃ q, namedCore s t.part name = some q ∧ groupOn s q t.lid = none) ∧ r = 1) :=
  ⟨0#3, 127#7, 11#7, 12#7, { hosted s0 with groups := [] }, 0, 0, t0, _, 1, rfl, by first | rfl | decide,
   issues_of (by decide), plain_of rfl rfl, by first | rfl | decide⟩

theorem witness_send : ∃ (g : BitVec 3) (d : BitVec 7) (a : BitVec 7) (b : BitVec 7) (s : State) (c : _) (slot : _) (t : Thread) (name :
      Word) (q : _) (gr : _),
    name = t.gv a.toNat ∧
    (s.core c).lock = none ∧
    hPkg name = s.pkg ∧
    Issues { guard := g, g := [d.toNat, a.toNat, b.toNat], reads := [a.toNat, b.toNat, 1, 2, 3, 4, 5, 6, 7, 8, 9,
             10], writes := [d.toNat], drain := true } s c slot t ∧
    Plain s c slot t ∧
    namedCore s t.part name = some q ∧
    groupOn s q t.lid = some gr :=
  ⟨0#3, 127#7, 11#7, 12#7, hosted s0, 0, 0, t0, _, 0, group0, rfl, by first | rfl | decide, by first | rfl | decide,
   issues_of (by decide), plain_of rfl rfl, rfl, rfl⟩

theorem witness_send_no_core : ∃ (g : BitVec 3) (d : BitVec 7) (a : BitVec 7) (b : BitVec 7) (s : State) (c : _) (slot : _) (t : Thread) (name :
      Word) (r : _),
    name = t.gv a.toNat ∧
    (s.core c).lock = none ∧
    hPkg name = s.pkg ∧
    Issues { guard := g, g := [d.toNat, a.toNat, b.toNat], reads := [a.toNat, b.toNat, 1, 2, 3, 4, 5, 6, 7, 8, 9,
             10], writes := [d.toNat], drain := true } s c slot t ∧
    Plain s c slot t ∧
    (namedCore s t.part name = none ∧ r = 2#64 ∨ (∃ q, namedCore s t.part name = some q ∧ groupOn s q t.lid = none) ∧
      r = 1#64) :=
  ⟨0#3, 127#7, 11#7, 12#7, s0, 0, 0, t0, _, 2#64, rfl, by first | rfl | decide, by first | rfl | decide,
   issues_of (by decide), plain_of rfl rfl, by decide⟩

theorem witness_send_no_group : ∃ (g : BitVec 3) (d : BitVec 7) (a : BitVec 7) (b : BitVec 7) (s : State) (c : _) (slot : _) (t : Thread) (name :
      Word) (r : _),
    name = t.gv a.toNat ∧
    (s.core c).lock = none ∧
    hPkg name = s.pkg ∧
    Issues { guard := g, g := [d.toNat, a.toNat, b.toNat], reads := [a.toNat, b.toNat, 1, 2, 3, 4, 5, 6, 7, 8, 9,
             10], writes := [d.toNat], drain := true } s c slot t ∧
    Plain s c slot t ∧
    (namedCore s t.part name = none ∧ r = 2#64 ∨ (∃ q, namedCore s t.part name = some q ∧ groupOn s q t.lid = none) ∧
      r = 1#64) :=
  ⟨0#3, 127#7, 11#7, 12#7, { hosted s0 with groups := [] }, 0, 0, t0, _, 1#64, rfl, by first | rfl | decide,
   by first | rfl | decide, issues_of (by decide), plain_of rfl rfl, .inr ⟨⟨0, by decide, by decide⟩, rfl⟩⟩

theorem witness_spawn_elsewhere : ∃ (g : BitVec 3) (d : BitVec 7) (a : BitVec 7) (b : BitVec 7) (s : State) (c : _) (slot : _) (t : Thread) (name :
      Word) (r : _),
    name = t.gv a.toNat ∧
    (s.core c).lock = none ∧
    Issues { guard := g, g := [d.toNat, a.toNat, b.toNat], reads := [a.toNat, b.toNat, 1, 2, 3, 4],
             writes := [d.toNat], drain := true } s c slot t ∧
    Plain s c slot t ∧
    (hPkg name ≠ s.pkg ∧ r = 3 ∨ hPkg name = s.pkg ∧ namedCore s t.part name = none ∧ r = 2 ∨ hPkg name = s.pkg ∧
      (∃ q, namedCore s t.part name = some q ∧ groupOn s q t.lid = none) ∧ r = 1) :=
  ⟨0#3, 127#7, 11#7, 12#7, on (thr [(11, 0x4000000000000#64)]), 0, 0, thr [(11, 0x4000000000000#64)], _, 3, rfl,
   by first | rfl | decide, issues_of (by decide), plain_of rfl rfl, .inl ⟨by decide, rfl⟩⟩

theorem witness_quit : ∃ (g : BitVec 3) (s : State) (c : _) (slot : _) (t : Thread),
    Issues { guard := g, drain := true } s c slot t ∧
    Plain s c slot t ∧
    t.bars = [] ∧
    t.handler = false ∧
    t.migrant = false ∧
    (∃ x ∈ (s.core c).threads, x.1 ≠ slot ∧ ownMember x.2 t.gid = true) ∧
    (∀ gr, s.group? t.gid = some gr → gr.core = c ∧ gr.gid = t.gid) ∧
    t.relaxed = [] :=
  ⟨0#3, at0 { rot := [(0, 0)], threads := [(0, t0), (1, {})] }, 0, 0, t0, issues_of (by decide), plain_of rfl rfl,
   by first | rfl | decide, by first | rfl | decide, by first | rfl | decide, by first | rfl | decide,
   by first | rfl | decide, by first | rfl | decide⟩

theorem witness_migr_own : ∃ (g : BitVec 3) (a : BitVec 7) (s : State) (c : _) (slot : _) (t : Thread) (ea : Word) (D : _) (U : _) (R : _),
    ea = t.gv a.toNat ∧
    R = reading (.migr g a) t ∧
    D = { guard := g, g := [a.toNat], reads := [a.toNat], drain := true, commit := fun _ => true } ∧
    Issues D s c slot t ∧
    U = atIssue (.migr g a) D s c slot t ∧
    ea.toNat < 0x20000 ∧
    (s.core c).lock = none ∧
    Plain s c slot t :=
  ⟨0#3, 1#7, on (tea 0x1FFF8#64), 0, 0, tea 0x1FFF8#64, _, _, _, _, rfl, rfl, rfl, issues_of (by decide), rfl,
   by first | rfl | decide, by first | rfl | decide, plain_of rfl rfl⟩

theorem witness_migr : ∃ (g : BitVec 3) (a : BitVec 7) (s : State) (c : _) (slot : _) (t : Thread) (ea : Word) (D : _) (U : _) (R : _) (u :
      _) (k : _) (pa : _) (m : _) (q : _),
    ea = t.gv a.toNat ∧
    R = reading (.migr g a) t ∧
    D = { guard := g, g := [a.toNat], reads := [a.toNat], drain := true, commit := fun _ => true } ∧
    Issues D s c slot t ∧
    U = atIssue (.migr g a) D s c slot t ∧
    0x20000 ≤ ea.toNat ∧
    resolve U c t.part t.proc ea .ld1 = (u, .ok (.page k u.pkg pa, m)) ∧
    mayMigrate u R = true ∧
    migrTarget u t.part pa = some q ∧
    q ≠ c :=
  ⟨0#3, 1#7, hosted (on tm), 0, 0, tm, _, _, _, _, _, .coherent, 0x40, true, 16, rfl, rfl, rfl, issues_of (by decide), rfl,
   by first | rfl | decide, pair_ok (by decide), by first | rfl | decide, by decide, by decide⟩

theorem witness_fork : ∃ (g : BitVec 3) (d : BitVec 7) (a : BitVec 7) (b : BitVec 7) (s : State) (c : _) (slot : _) (t : Thread) (U : _) (R
      : _) (u : _) (p : _) (x : _) (w : _) (T : _),
    Issues { guard := g, g := [d.toNat, a.toNat, b.toNat], reads := [a.toNat, b.toNat, 3, 4, 5, 6, 7, 8, 9, 10],
             writes := [1, 2, d.toNat], drain := true, commit := fun _ => true } s c slot t ∧
    R = reading (.fork g d a b) t ∧
    T = (t.gv b.toNat).toNat ∧
    U = atIssue (.fork g d a b) { guard := g, g := [d.toNat, a.toNat, b.toNat], reads := [a.toNat, b.toNat, 3, 4, 5,
                                  6, 7, 8, 9, 10], writes := [1, 2, d.toNat], drain := true,
                                  commit := fun _ => true } s c slot t ∧
    cellPlace U c R (t.gv a.toNat) 16 false = (u, .ok p) ∧
    x = findRecruits u R c (Nat.min 128 ((T + forkGrain u R - 1) / forkGrain u R) - 1) (forkCores u t.part c t.lid) ∧
    w = storeAt (storeAt x.1 c p (wordBytes (BitVec.ofNat 64 (x.2 + 1))) false) c (p.add 12) (leBytes (handleOf
      (storeAt x.1 c p (wordBytes (BitVec.ofNat 64 (x.2 + 1))) false) c slot).toNat 4) false :=
  ⟨0#3, 127#7, 1#7, 2#7, hosted (on (tea 0x10000000010#64 64#64)), 0, 0, tea 0x10000000010#64 64#64, _, _, _,
   .page .coherent 0 0x10, _, _, _, issues_of (by decide), rfl, rfl, rfl, pair_ok (by decide), rfl, rfl⟩

theorem witness_migr_far : ∃ (g : BitVec 3) (a : BitVec 7) (s : State) (c : _) (slot : _) (t : Thread) (ea : Word) (D : _) (U : _) (R : _) (u :
      _) (k : _) (pkg : _) (pa : _) (m : _),
    ea = t.gv a.toNat ∧
    R = reading (.migr g a) t ∧
    D = { guard := g, g := [a.toNat], reads := [a.toNat], drain := true, commit := fun _ => true } ∧
    Issues D s c slot t ∧
    U = atIssue (.migr g a) D s c slot t ∧
    0x20000 ≤ ea.toNat ∧
    resolve U c t.part t.proc ea .ld1 = (u, .ok (.page k pkg pa, m)) ∧
    mayMigrate u R = true ∧
    pkg ≠ u.pkg :=
  ⟨0#3, 1#7, far (on tm), 0, 0, tm, _, _, _, _, _, .remotePosted, 1, 0x40, true, rfl, rfl, rfl, issues_of (by decide), rfl,
   by first | rfl | decide, pair_ok (by decide), by decide, by decide⟩

theorem witness_join : ∃ (g : BitVec 3) (a : BitVec 7) (s : State) (c : _) (slot : _) (t : Thread) (ea : Word) (e : _) (pkg : _) (pa : _) (m
      : _),
    ea = t.gv a.toNat ∧
    (s.core c).lock = none ∧
    ea.toNat % 16 = 0 ∧
    0x10000000000 ≤ ea.toNat ∧
    Issues { guard := g, g := [a.toNat], reads := [a.toNat], drain := true } s c slot t ∧
    Plain s c slot t ∧
    t.relaxed = [] ∧
    tlbFind (wsOf s (coreWs s c)) t.part t.proc ea = some e ∧
    e.pkg = s.pkg ∧
    checkPage s t.part ea (.cell false) e = .ok (.page .coherent pkg pa) ∧
    m = { mkMsg s .amo (pa / 64) c with thread := some ⟨c, slot⟩ } :=
  ⟨0#3, 1#7, hosted (on (tea 0x10000000010#64)), 0, 0, tea 0x10000000010#64, _,
   { part := 0, proc := 0, page := 1024, bits := 30, pkg := 0, frame := 0, kind := .coherent, mig := true, noamo := false, w := true },
   0, 0x10, _, rfl, by first | rfl | decide, by first | rfl | decide, by first | rfl | decide, issues_of (by decide),
   plain_of rfl rfl, by first | rfl | decide, rfl, by first | rfl | decide, ok_of (by decide), rfl⟩

theorem witness_tstop : ∃ (i : Instr) (D : _) (op : TOp) (d : Nat) (h : Word) (s : State) (c : _) (slot : _) (t : Thread) (U : _) (R : _) (u
      : _) (r : _) (g : BitVec 3) (fd : BitVec 7) (fa : BitVec 7) (fb : BitVec 7),
    (i = .tstop g fd fa ∧ op = .stop ∧ d = fd.toNat ∧ D = { guard := g, g := [fd.toNat, fa.toNat],
                                                            reads := [fa.toNat], writes := [fd.toNat], drain := true,
                                                            commit := fun _ => true } ∨ i = .tstart g fd fa ∧ op =
                                                            .start ∧ d = fd.toNat ∧ D = { guard := g, g := [fd.toNat,
                                                                                          fa.toNat],
                                                                                          reads := [fa.toNat],
                                                                                          writes := [fd.toNat],
                                                                                          drain := true,
                                                                                          commit := fun _ => true } ∨
                                                                                          i = .tread g fd fa fb ∧
                                                                                          op =
                                                                                          .read fd.toNat fb.toNat
                                                                                          (t.gv fb.toNat) ∧ d = 0 ∧
                                                                                          D = { guard := g,
                                                                                                g := [fd.toNat,
                                                                                                fa.toNat, fb.toNat],
                                                                                                reads := [fa.toNat,
                                                                                                fb.toNat],
                                                                                                writes := [fd.toNat,
                                                                                                fb.toNat],
                                                                                                drain := true,
                                                                                                commit := fun _ =>
                                                                                                true } ∨ i =
                                                                                                .twrite g fd fa fb ∧
                                                                                                op =
                                                                                                .write fb.toNat (t.gv
                                                                                                fb.toNat) (t.gv
                                                                                                fd.toNat) ∧ d = 0 ∧
                                                                                                D = { guard := g,
                                                                                                      g := [fd.toNat,
                                                                                                      fa.toNat,
                                                                                                      fb.toNat],
                                                                                                      reads :=
                                                                                                      [fd.toNat,
                                                                                                      fa.toNat,
                                                                                                      fb.toNat],
                                                                                                      writes :=
                                                                                                      [fb.toNat],
                                                                                                      drain := true,
                                                                                                      commit := fun _
                                                                                                      => true }) ∧
    h = t.gv fa.toNat ∧
    Issues D s c slot t ∧
    R = reading i t ∧
    U = atIssue i D s c slot t ∧
    hPkg h = u.pkg ∧
    (hPart h ≠ t.part ∧ u = U ∧ r = 0#32 ∨ hPart h = t.part ∧ rightsOver U c R h = (u, .ok r)) :=
  ⟨_, _, _, _, _, s0, 0, 0, t0, _, _, _, _, 0#3, 127#7, 126#7, 125#7, .inl ⟨rfl, rfl, rfl, rfl⟩, rfl,
   issues_of (by decide), rfl, rfl, by first | rfl | decide, .inr ⟨by decide, rfl⟩⟩

theorem witness_tstart : ∃ (i : Instr) (D : _) (op : TOp) (d : Nat) (h : Word) (s : State) (c : _) (slot : _) (t : Thread) (U : _) (R : _) (u
      : _) (r : _) (g : BitVec 3) (fd : BitVec 7) (fa : BitVec 7) (fb : BitVec 7),
    (i = .tstop g fd fa ∧ op = .stop ∧ d = fd.toNat ∧ D = { guard := g, g := [fd.toNat, fa.toNat],
                                                            reads := [fa.toNat], writes := [fd.toNat], drain := true,
                                                            commit := fun _ => true } ∨ i = .tstart g fd fa ∧ op =
                                                            .start ∧ d = fd.toNat ∧ D = { guard := g, g := [fd.toNat,
                                                                                          fa.toNat],
                                                                                          reads := [fa.toNat],
                                                                                          writes := [fd.toNat],
                                                                                          drain := true,
                                                                                          commit := fun _ => true } ∨
                                                                                          i = .tread g fd fa fb ∧
                                                                                          op =
                                                                                          .read fd.toNat fb.toNat
                                                                                          (t.gv fb.toNat) ∧ d = 0 ∧
                                                                                          D = { guard := g,
                                                                                                g := [fd.toNat,
                                                                                                fa.toNat, fb.toNat],
                                                                                                reads := [fa.toNat,
                                                                                                fb.toNat],
                                                                                                writes := [fd.toNat,
                                                                                                fb.toNat],
                                                                                                drain := true,
                                                                                                commit := fun _ =>
                                                                                                true } ∨ i =
                                                                                                .twrite g fd fa fb ∧
                                                                                                op =
                                                                                                .write fb.toNat (t.gv
                                                                                                fb.toNat) (t.gv
                                                                                                fd.toNat) ∧ d = 0 ∧
                                                                                                D = { guard := g,
                                                                                                      g := [fd.toNat,
                                                                                                      fa.toNat,
                                                                                                      fb.toNat],
                                                                                                      reads :=
                                                                                                      [fd.toNat,
                                                                                                      fa.toNat,
                                                                                                      fb.toNat],
                                                                                                      writes :=
                                                                                                      [fb.toNat],
                                                                                                      drain := true,
                                                                                                      commit := fun _
                                                                                                      => true }) ∧
    h = t.gv fa.toNat ∧
    Issues D s c slot t ∧
    R = reading i t ∧
    U = atIssue i D s c slot t ∧
    hPkg h = u.pkg ∧
    (hPart h ≠ t.part ∧ u = U ∧ r = 0#32 ∨ hPart h = t.part ∧ rightsOver U c R h = (u, .ok r)) :=
  ⟨_, _, _, _, _, s0, 0, 0, t0, _, _, _, _, 0#3, 127#7, 126#7, 125#7, .inr (.inl ⟨rfl, rfl, rfl, rfl⟩), rfl,
   issues_of (by decide), rfl, rfl, by first | rfl | decide, .inr ⟨by decide, rfl⟩⟩

theorem witness_tread : ∃ (i : Instr) (D : _) (op : TOp) (d : Nat) (h : Word) (s : State) (c : _) (slot : _) (t : Thread) (U : _) (R : _) (u
      : _) (r : _) (g : BitVec 3) (fd : BitVec 7) (fa : BitVec 7) (fb : BitVec 7),
    (i = .tstop g fd fa ∧ op = .stop ∧ d = fd.toNat ∧ D = { guard := g, g := [fd.toNat, fa.toNat],
                                                            reads := [fa.toNat], writes := [fd.toNat], drain := true,
                                                            commit := fun _ => true } ∨ i = .tstart g fd fa ∧ op =
                                                            .start ∧ d = fd.toNat ∧ D = { guard := g, g := [fd.toNat,
                                                                                          fa.toNat],
                                                                                          reads := [fa.toNat],
                                                                                          writes := [fd.toNat],
                                                                                          drain := true,
                                                                                          commit := fun _ => true } ∨
                                                                                          i = .tread g fd fa fb ∧
                                                                                          op =
                                                                                          .read fd.toNat fb.toNat
                                                                                          (t.gv fb.toNat) ∧ d = 0 ∧
                                                                                          D = { guard := g,
                                                                                                g := [fd.toNat,
                                                                                                fa.toNat, fb.toNat],
                                                                                                reads := [fa.toNat,
                                                                                                fb.toNat],
                                                                                                writes := [fd.toNat,
                                                                                                fb.toNat],
                                                                                                drain := true,
                                                                                                commit := fun _ =>
                                                                                                true } ∨ i =
                                                                                                .twrite g fd fa fb ∧
                                                                                                op =
                                                                                                .write fb.toNat (t.gv
                                                                                                fb.toNat) (t.gv
                                                                                                fd.toNat) ∧ d = 0 ∧
                                                                                                D = { guard := g,
                                                                                                      g := [fd.toNat,
                                                                                                      fa.toNat,
                                                                                                      fb.toNat],
                                                                                                      reads :=
                                                                                                      [fd.toNat,
                                                                                                      fa.toNat,
                                                                                                      fb.toNat],
                                                                                                      writes :=
                                                                                                      [fb.toNat],
                                                                                                      drain := true,
                                                                                                      commit := fun _
                                                                                                      => true }) ∧
    h = t.gv fa.toNat ∧
    Issues D s c slot t ∧
    R = reading i t ∧
    U = atIssue i D s c slot t ∧
    hPkg h = u.pkg ∧
    (hPart h ≠ t.part ∧ u = U ∧ r = 0#32 ∨ hPart h = t.part ∧ rightsOver U c R h = (u, .ok r)) :=
  ⟨_, _, _, _, _, s0, 0, 0, t0, _, _, _, _, 0#3, 127#7, 126#7, 125#7, .inr (.inr (.inl ⟨rfl, rfl, rfl, rfl⟩)), rfl,
   issues_of (by decide), rfl, rfl, by first | rfl | decide, .inr ⟨by decide, rfl⟩⟩

theorem witness_twrite : ∃ (i : Instr) (D : _) (op : TOp) (d : Nat) (h : Word) (s : State) (c : _) (slot : _) (t : Thread) (U : _) (R : _) (u
      : _) (r : _) (g : BitVec 3) (fd : BitVec 7) (fa : BitVec 7) (fb : BitVec 7),
    (i = .tstop g fd fa ∧ op = .stop ∧ d = fd.toNat ∧ D = { guard := g, g := [fd.toNat, fa.toNat],
                                                            reads := [fa.toNat], writes := [fd.toNat], drain := true,
                                                            commit := fun _ => true } ∨ i = .tstart g fd fa ∧ op =
                                                            .start ∧ d = fd.toNat ∧ D = { guard := g, g := [fd.toNat,
                                                                                          fa.toNat],
                                                                                          reads := [fa.toNat],
                                                                                          writes := [fd.toNat],
                                                                                          drain := true,
                                                                                          commit := fun _ => true } ∨
                                                                                          i = .tread g fd fa fb ∧
                                                                                          op =
                                                                                          .read fd.toNat fb.toNat
                                                                                          (t.gv fb.toNat) ∧ d = 0 ∧
                                                                                          D = { guard := g,
                                                                                                g := [fd.toNat,
                                                                                                fa.toNat, fb.toNat],
                                                                                                reads := [fa.toNat,
                                                                                                fb.toNat],
                                                                                                writes := [fd.toNat,
                                                                                                fb.toNat],
                                                                                                drain := true,
                                                                                                commit := fun _ =>
                                                                                                true } ∨ i =
                                                                                                .twrite g fd fa fb ∧
                                                                                                op =
                                                                                                .write fb.toNat (t.gv
                                                                                                fb.toNat) (t.gv
                                                                                                fd.toNat) ∧ d = 0 ∧
                                                                                                D = { guard := g,
                                                                                                      g := [fd.toNat,
                                                                                                      fa.toNat,
                                                                                                      fb.toNat],
                                                                                                      reads :=
                                                                                                      [fd.toNat,
                                                                                                      fa.toNat,
                                                                                                      fb.toNat],
                                                                                                      writes :=
                                                                                                      [fb.toNat],
                                                                                                      drain := true,
                                                                                                      commit := fun _
                                                                                                      => true }) ∧
    h = t.gv fa.toNat ∧
    Issues D s c slot t ∧
    R = reading i t ∧
    U = atIssue i D s c slot t ∧
    hPkg h = u.pkg ∧
    (hPart h ≠ t.part ∧ u = U ∧ r = 0#32 ∨ hPart h = t.part ∧ rightsOver U c R h = (u, .ok r)) :=
  ⟨_, _, _, _, _, s0, 0, 0, t0, _, _, _, _, 0#3, 127#7, 126#7, 125#7, .inr (.inr (.inr ⟨rfl, rfl, rfl, rfl⟩)), rfl,
   issues_of (by decide), rfl, rfl, by first | rfl | decide, .inr ⟨by decide, rfl⟩⟩

theorem witness_tstop_foreign : ∃ (i : Instr) (D : _) (op : TOp) (d : Nat) (h : Word) (s : State) (c : _) (slot : _) (t : Thread) (U : _) (R : _) (u
      : _) (r : _) (g : BitVec 3) (fd : BitVec 7) (fa : BitVec 7) (fb : BitVec 7),
    (i = .tstop g fd fa ∧ op = .stop ∧ d = fd.toNat ∧ D = { guard := g, g := [fd.toNat, fa.toNat],
                                                            reads := [fa.toNat], writes := [fd.toNat], drain := true,
                                                            commit := fun _ => true } ∨ i = .tstart g fd fa ∧ op =
                                                            .start ∧ d = fd.toNat ∧ D = { guard := g, g := [fd.toNat,
                                                                                          fa.toNat],
                                                                                          reads := [fa.toNat],
                                                                                          writes := [fd.toNat],
                                                                                          drain := true,
                                                                                          commit := fun _ => true } ∨
                                                                                          i = .tread g fd fa fb ∧
                                                                                          op =
                                                                                          .read fd.toNat fb.toNat
                                                                                          (t.gv fb.toNat) ∧ d = 0 ∧
                                                                                          D = { guard := g,
                                                                                                g := [fd.toNat,
                                                                                                fa.toNat, fb.toNat],
                                                                                                reads := [fa.toNat,
                                                                                                fb.toNat],
                                                                                                writes := [fd.toNat,
                                                                                                fb.toNat],
                                                                                                drain := true,
                                                                                                commit := fun _ =>
                                                                                                true } ∨ i =
                                                                                                .twrite g fd fa fb ∧
                                                                                                op =
                                                                                                .write fb.toNat (t.gv
                                                                                                fb.toNat) (t.gv
                                                                                                fd.toNat) ∧ d = 0 ∧
                                                                                                D = { guard := g,
                                                                                                      g := [fd.toNat,
                                                                                                      fa.toNat,
                                                                                                      fb.toNat],
                                                                                                      reads :=
                                                                                                      [fd.toNat,
                                                                                                      fa.toNat,
                                                                                                      fb.toNat],
                                                                                                      writes :=
                                                                                                      [fb.toNat],
                                                                                                      drain := true,
                                                                                                      commit := fun _
                                                                                                      => true }) ∧
    h = t.gv fa.toNat ∧
    Issues D s c slot t ∧
    R = reading i t ∧
    U = atIssue i D s c slot t ∧
    hPkg h = u.pkg ∧
    (hPart h ≠ t.part ∧ u = U ∧ r = 0#32 ∨ hPart h = t.part ∧ rightsOver U c R h = (u, .ok r)) :=
  ⟨_, _, _, _, _, on (thr [(126, 0x100000000000#64)]), 0, 0, thr [(126, 0x100000000000#64)], _, _, _, _, 0#3, 127#7,
   126#7, 125#7, .inl ⟨rfl, rfl, rfl, rfl⟩, rfl, issues_of (by decide), rfl, rfl, by first | rfl | decide,
   .inl ⟨by decide, rfl, rfl⟩⟩

theorem witness_stop_act : ∃ (s : State) (c : _) (slot : _) (t : Thread) (a : _) (q : _) (x : _) (u : _),
    Waits s c slot t (.tact a.id) ∧
    s.acts.find? (fun y => y.id = a.id) = some a ∧
    hPart a.handle = a.part ∧
    (∀ r ∈ a.op.needs, a.rights.getLsbD r = true) ∧
    hPkg a.handle = s.pkg ∧
    namedCore s a.part a.handle = some q ∧
    x = hSlot a.handle ∧
    s.thread? q x = some u ∧
    genOf (s.core q) x = hGen a.handle ∧
    (¬(q = c ∧ x = slot)) ∧
    a.op = .stop ∧
    (u.code = .ready ∨ u.code = .running ∨ u.code = .waiting ∨ u.code = .sleeping) :=
  ⟨{ at0 { threads := [(0, tw (.tact 5)), (1, { t0 with code := .running })] } with
    parts := [(0, { ctab := [0] })],
    acts := [{ id := 5, thread := some ⟨0, 0⟩, handle := 0x100000#64, op := .stop, d := 3, rights := 0xFFFFFFFF#32, part := 0 }] },
   0, 0, _,
   { id := 5, thread := some ⟨0, 0⟩, handle := 0x100000#64, op := .stop, d := 3, rights := 0xFFFFFFFF#32, part := 0 },
   0, _, { t0 with code := .running }, ⟨rfl, rfl, .inl rfl, rfl, rfl⟩, rfl, by first | rfl | decide, by decide,
   by first | rfl | decide, rfl, rfl, rfl, by first | rfl | decide, by first | rfl | decide, by first | rfl | decide,
   by first | rfl | decide⟩

theorem witness_start_act : ∃ (s : State) (c : _) (slot : _) (t : Thread) (a : _) (q : _) (x : _) (u : _),
    Waits s c slot t (.tact a.id) ∧
    s.acts.find? (fun y => y.id = a.id) = some a ∧
    hPart a.handle = a.part ∧
    (∀ r ∈ a.op.needs, a.rights.getLsbD r = true) ∧
    hPkg a.handle = s.pkg ∧
    namedCore s a.part a.handle = some q ∧
    x = hSlot a.handle ∧
    s.thread? q x = some u ∧
    genOf (s.core q) x = hGen a.handle ∧
    (¬(q = c ∧ x = slot)) ∧
    a.op = .start ∧
    u.code = .faulted ∧
    u.hold = false ∧
    u.away = false ∧
    u.wait = .idle :=
  ⟨{ at0 { threads := [(0, tw (.tact 5)), (1, { t0 with code := .faulted })] } with
    parts := [(0, { ctab := [0] })],
    acts := [{ id := 5, thread := some ⟨0, 0⟩, handle := 0x100000#64, op := .start, d := 3, rights := 0xFFFFFFFF#32, part := 0 }] },
   0, 0, _,
   { id := 5, thread := some ⟨0, 0⟩, handle := 0x100000#64, op := .start, d := 3, rights := 0xFFFFFFFF#32, part := 0 },
   0, _, { t0 with code := .faulted }, ⟨rfl, rfl, .inl rfl, rfl, rfl⟩, rfl, by first | rfl | decide, by decide,
   by first | rfl | decide, rfl, rfl, rfl, by first | rfl | decide, by first | rfl | decide, by first | rfl | decide,
   by first | rfl | decide, by first | rfl | decide, by first | rfl | decide, by first | rfl | decide⟩

theorem witness_read_act : ∃ (s : State) (c : _) (slot : _) (t : Thread) (a : _) (q : _) (x : _) (u : _) (d : _) (b : _) (sel : _) (y : _),
    Waits s c slot t (.tact a.id) ∧
    s.acts.find? (fun y => y.id = a.id) = some a ∧
    hPart a.handle = a.part ∧
    (∀ r ∈ a.op.needs, a.rights.getLsbD r = true) ∧
    hPkg a.handle = s.pkg ∧
    namedCore s a.part a.handle = some q ∧
    x = hSlot a.handle ∧
    s.thread? q x = some u ∧
    genOf (s.core q) x = hGen a.handle ∧
    (¬(q = c ∧ x = slot)) ∧
    a.op = .read d b sel ∧
    (u.code = .stopped ∨ u.code = .faulted) ∧
    selOf u sel = some y ∧
    writePending s q x u y = false ∧
    (∀ k, y.key = some k → u.poison.contains k = false) :=
  ⟨{ at0 { threads := [(0, tw (.tact 5)), (1, { t0 with code := .stopped })] } with
    parts := [(0, { ctab := [0] })],
    acts := [{ id := 5, thread := some ⟨0, 0⟩, handle := 0x100000#64, op := .read 4 5 0x80#64, d := 3, rights := 0xFFFFFFFF#32, part := 0 }] },
   0, 0, _,
   { id := 5, thread := some ⟨0, 0⟩, handle := 0x100000#64, op := .read 4 5 0x80#64, d := 3, rights := 0xFFFFFFFF#32, part := 0 },
   0, _, { t0 with code := .stopped }, _, _, _, .pc, ⟨rfl, rfl, .inl rfl, rfl, rfl⟩, rfl, by first | rfl | decide,
   by first | rfl | decide, by first | rfl | decide, rfl, rfl, rfl, by first | rfl | decide, by first | rfl | decide,
   by first | rfl | decide, by first | rfl | decide, rfl, by first | rfl | decide, by nofun⟩

theorem witness_write_act : ∃ (s : State) (c : _) (slot : _) (t : Thread) (a : _) (q : _) (x : _) (u : _) (b : _) (sel : _) (w : _) (y : _),
    Waits s c slot t (.tact a.id) ∧
    s.acts.find? (fun y => y.id = a.id) = some a ∧
    hPart a.handle = a.part ∧
    (∀ r ∈ a.op.needs, a.rights.getLsbD r = true) ∧
    hPkg a.handle = s.pkg ∧
    namedCore s a.part a.handle = some q ∧
    x = hSlot a.handle ∧
    s.thread? q x = some u ∧
    genOf (s.core q) x = hGen a.handle ∧
    (¬(q = c ∧ x = slot)) ∧
    a.op = .write b sel w ∧
    (u.code = .stopped ∨ u.code = .faulted) ∧
    selOf u sel = some y ∧
    selRefuses y w = false :=
  ⟨{ at0 { threads := [(0, tw (.tact 5)), (1, { t0 with code := .stopped })] } with
    parts := [(0, { ctab := [0] })],
    acts := [{ id := 5, thread := some ⟨0, 0⟩, handle := 0x100000#64, op := .write 5 0x80#64 8#64, d := 3, rights := 0xFFFFFFFF#32, part := 0 }] },
   0, 0, _,
   { id := 5, thread := some ⟨0, 0⟩, handle := 0x100000#64, op := .write 5 0x80#64 8#64, d := 3, rights := 0xFFFFFFFF#32, part := 0 },
   0, _, { t0 with code := .stopped }, _, _, _, .pc, ⟨rfl, rfl, .inl rfl, rfl, rfl⟩, rfl, by first | rfl | decide,
   by first | rfl | decide, by first | rfl | decide, rfl, rfl, rfl, by first | rfl | decide, by first | rfl | decide,
   by first | rfl | decide, by first | rfl | decide, rfl, by first | rfl | decide⟩

theorem witness_invpg : ∃ (g : BitVec 3) (d : _) (a : _) (b : _) (s : State) (c : _) (slot : _) (t : Thread) (T : _) (D : _) (U : _) (u : _),
    D = { dRRR g d a b with drain := true } ∧
    Issues D s c slot t ∧
    U = atIssue (.invpg g d a b) D s c slot t ∧
    needRight U c slot (reading (.invpg g d a b) t) 6 = (u, none) ∧
    u.thread? c slot = some T :=
  ⟨0#3, 3#7, 1#7, 2#7, sa, 0, 0, ta, _, _, _, _, rfl, issues_of (by decide), rfl, pair_none (by decide),
   some_of (by decide)⟩

theorem witness_waystation : ∃ (w : _) (id : _) (s : State) (v : _),
    s.invals.find? (fun x => x.id = id) = some v ∧
    w ∈ v.left :=
  ⟨31, 5, { invals := [{ id := 5, thread := ⟨0, 0⟩, part := 0, proc := 0, va := 0#64, size := 0, left := [31] }] },
   _, rfl, by first | rfl | decide⟩

theorem witness_invpg_complete : ∃ (s : State) (c : _) (slot : _) (t : Thread) (d : _) (id : _) (v : _),
    Waits s c slot t (.invpg d id) ∧
    s.invals.find? (fun x => x.id = id) = some v ∧
    invalDone s v = true :=
  ⟨{ sw (.invpg 3 5) with invals := [{ id := 5, thread := ⟨0, 0⟩, part := 0, proc := 0, va := 0#64, size := 0, left := [] }] },
   0, 0, _, _, _, _, ⟨rfl, rfl, .inl rfl, rfl, rfl⟩, rfl, by first | rfl | decide⟩

theorem witness_selft : ∃ (g : BitVec 3) (d : _) (a : _) (b : BitVec 7) (s : State) (c : _) (slot : _) (t : Thread) (T : _) (D : _) (U : _)
      (u : _) (w : _) (p : _) (m : _) (va : Word),
    D = { dRRR g d a b with drain := true } ∧
    Issues D s c slot t ∧
    U = atIssue (.selft g d a b) D s c slot t ∧
    needRight U c slot (reading (.selft g d a b) t) 8 = (u, none) ∧
    va = t.gv b.toNat ∧
    va.toNat % 64 = 0 ∧
    resolve u c t.part t.proc va .st = (w, .ok (p, m)) ∧
    w.thread? c slot = some T :=
  ⟨0#3, 3#7, 1#7, 2#7, sa, 0, 0, ta, _, _, _, _, _, .spad 0 0x1FF40, false, _, rfl, issues_of (by decide), rfl,
   pair_none (by decide), rfl, by first | rfl | decide, pair_ok (by decide), some_of (by decide)⟩

theorem witness_selft_complete : ∃ (s : State) (c : _) (slot : _) (t : Thread) (d : _) (mask : _) (p : _) (e : _) (failed : _) (rows : _) (ways : _)
      (bank : _) (r : _) (s1 : _),
    Waits s c slot t (.selft d mask p e) ∧
    e ≤ (s.core c).cyc ∧
    (mask.getLsbD 3 && mmaRuns s c) = false ∧
    r = tested (s.core c) mask failed rows ways ∧
    s1 = putRecord { s with free := s.free + 1 } c t.part p (selftRecord mask r bank) ∧
    s1.thread? c slot = some t :=
  ⟨sw (.selft 3 0xFF#8 (.spad 0 0x1FF40) 9) { cyc := 9 }, 0, 0, _, _, _, _, _, 0#8, BitVec.allOnes 64, 0xF#4, 0#8, _,
   _, ⟨rfl, rfl, .inl rfl, rfl, rfl⟩, by first | rfl | decide, by first | rfl | decide, rfl, rfl, rfl⟩

theorem witness_fence_holds : ∃ (g : BitVec 3) (cw : _) (eng : _) (rel : _) (scope : _) (s : State) (c : _) (slot : _) (t : Thread) (D : _) (U : _),
    D = { guard := g, drain := rel = 1#1, commit := fun _ => decide (3 ≤ scope.toNat) } ∧
    Issues D s c slot t ∧
    Plain s c slot t ∧
    (s.core c).lock = none ∧
    U = atIssue (.fence g cw eng rel scope) D s c slot t ∧
    fenceHolds U ⟨c, slot⟩ (cw = 1#1) (eng = 1#1) scope.toNat = true :=
  ⟨0#3, 1#1, 1#1, 1#1, 4#3, s0, 0, 0, t0, _, _, rfl, issues_of (by decide), plain_of rfl rfl,
   by first | rfl | decide, rfl, by first | rfl | decide⟩

theorem witness_fence_waits : ∃ (g : BitVec 3) (cw : _) (eng : _) (rel : _) (scope : _) (s : State) (c : _) (slot : _) (t : Thread) (D : _) (U : _),
    D = { guard := g, drain := rel = 1#1, commit := fun _ => decide (3 ≤ scope.toNat) } ∧
    Issues D s c slot t ∧
    Plain s c slot t ∧
    (s.core c).lock = none ∧
    U = atIssue (.fence g cw eng rel scope) D s c slot t ∧
    fenceHolds U ⟨c, slot⟩ (cw = 1#1) (eng = 1#1) scope.toNat = false :=
  ⟨0#3, 1#1, 1#1, 1#1, 4#3, { s0 with out := [(9, { id := 9, kind := 0, data := [], thread := some ⟨0, 0⟩ })] }, 0,
   0, t0, _, _, rfl, issues_of (by decide), plain_of rfl rfl, by first | rfl | decide, rfl, by first | rfl | decide⟩

theorem witness_wbr : ∃ (g : BitVec 3) (d : _) (a : _) (b : _) (s : State) (c : _) (slot : _) (t : Thread) (i : Instr) (op : Nat),
    (i = .wbr g d a b ∧ op = 0 ∨ i = .invr g d a b ∧ op = 1 ∨ i = .wbinvr g d a b ∧ op = 2) ∧
    Issues (dRRR g d a b) s c slot t ∧
    Plain s c slot t ∧
    (s.core c).lock = none :=
  ⟨0#3, 127#7, 1#7, 126#7, s0, 0, 0, t0, _, _, .inl ⟨rfl, rfl⟩, issues_of (by decide), plain_of rfl rfl,
   by first | rfl | decide⟩

theorem witness_invr : ∃ (g : BitVec 3) (d : _) (a : _) (b : _) (s : State) (c : _) (slot : _) (t : Thread) (i : Instr) (op : Nat),
    (i = .wbr g d a b ∧ op = 0 ∨ i = .invr g d a b ∧ op = 1 ∨ i = .wbinvr g d a b ∧ op = 2) ∧
    Issues (dRRR g d a b) s c slot t ∧
    Plain s c slot t ∧
    (s.core c).lock = none :=
  ⟨0#3, 127#7, 1#7, 126#7, s0, 0, 0, t0, _, _, .inr (.inl ⟨rfl, rfl⟩), issues_of (by decide), plain_of rfl rfl,
   by first | rfl | decide⟩

theorem witness_wbinvr : ∃ (g : BitVec 3) (d : _) (a : _) (b : _) (s : State) (c : _) (slot : _) (t : Thread) (i : Instr) (op : Nat),
    (i = .wbr g d a b ∧ op = 0 ∨ i = .invr g d a b ∧ op = 1 ∨ i = .wbinvr g d a b ∧ op = 2) ∧
    Issues (dRRR g d a b) s c slot t ∧
    Plain s c slot t ∧
    (s.core c).lock = none :=
  ⟨0#3, 127#7, 1#7, 126#7, s0, 0, 0, t0, _, _, .inr (.inr ⟨rfl, rfl⟩), issues_of (by decide), plain_of rfl rfl,
   by first | rfl | decide⟩

theorem witness_prefr : ∃ (g : BitVec 3) (a : BitVec 7) (b : BitVec 7) (s : State) (c : _) (slot : _) (t : Thread),
    Issues { guard := g, g := [a.toNat, b.toNat] } s c slot t ∧
    Plain s c slot t :=
  ⟨0#3, 127#7, 126#7, s0, 0, 0, t0, issues_of (by decide), plain_of rfl rfl⟩

theorem witness_range_of_nothing : ∃ (s : State) (c : _) (slot : _) (t : Thread) (op : _) (d : _) (va : Word) (ctl : _),
    Waits s c slot t (.range op d va ctl none) ∧
    ctl.toNat % 2 ^ 40 = 0 :=
  ⟨sw (.range 0 3 0x10000000000#64 0x10000000000#64 none), 0, 0, _, _, _, _, _, ⟨rfl, rfl, .inl rfl, rfl, rfl⟩,
   by first | rfl | decide⟩

theorem witness_chkpt : ∃ (g : BitVec 3) (d : BitVec 7) (s : State) (c : _) (slot : _) (t : Thread),
    Issues { guard := g, g := [d.toNat], writes := [d.toNat], drain := true } s c slot t ∧
    Plain s c slot t ∧
    (s.core c).lock = none :=
  ⟨0#3, 127#7, s0, 0, 0, t0, issues_of (by decide), plain_of rfl rfl, by first | rfl | decide⟩

theorem witness_chkpt_paired : ∃ (g : BitVec 3) (d : BitVec 7) (s : State) (c : _) (slot : _) (t : Thread),
    Issues { guard := g, g := [d.toNat], writes := [d.toNat], drain := true } s c slot t ∧
    Plain s c slot t ∧
    (s.core c).lock ≠ none :=
  ⟨0#3, 127#7,
   on t0 { lock := some { partner := 1, odd := false, count := 0xFFFFFFFF, held := [], undo := [], snap := [], mismatches := 0, since := 0 } },
   0, 0, t0, issues_of (by decide), ⟨rfl, fun _ h => by cases h; rfl⟩, nofun⟩

theorem witness_checkpoint : ∃ (s : State) (c : _) (slot : _) (t : Thread) (d : _) (L : _) (n : _),
    (s.core c).lock = some L ∧
    n = (L.count + 1) % 2 ^ 32 ∧
    L.held = [] ∧
    L.after = [] ∧
    (s.core c).threads = [(slot, t)] ∧
    Waits s c slot t (.chkpt d) :=
  ⟨sw (.chkpt 3) { lock := some { partner := 1, odd := false, count := 0xFFFFFFFF, held := [], undo := [], snap := [], mismatches := 0, since := 0 } },
   0, 0, _, _, _, _, by first | rfl | decide, rfl, by first | rfl | decide, by first | rfl | decide,
   by first | rfl | decide, ⟨rfl, rfl, .inl rfl, rfl, rfl⟩⟩

/-- The other member of a Causeway of two, of partition 0; nothing has been sent. -/
def cw0 : Port :=
  { owner := some 0, slots := 2, index := 1, state := .member, live := 3#32, master := 0,
    views := [{ rotation := 5, master := 0, live := 3#32 }] }
/-- Port 3 is so. -/
def cwOf (x : Port) (s : State := {}) : State := { s with ports := [(3, x)] }
def req0 : SfuReq := { slot := 0, instr := .vrcp 0#3 63#6 62#6, vd := 63, a := 0#512, b := 0#512, fpctl := 0#64 }

theorem witness_vfdiv : ∃ (i : Instr) (g : BitVec 3) (d : BitVec 6) (a : BitVec 6) (b : BitVec 6) (p : BitVec 1) (x : List Nat) (s : State)
      (c : _) (slot : _) (t : Thread) (r : SfuReq),
    (i = .vfdiv g d a b p ∧ x = [b.toNat] ∨ x = [] ∧ (i = .vfsqrt g d a p ∨ i = .vrcp g d a ∨ i = .vrsq g d a ∨ i =
      .vexp2 g d a ∨ i = .vlog2 g d a ∨ i = .vsin g d a ∨ i = .vcos g d a ∨ i = .vtanh g d a ∨ i = .vsigm g d a)) ∧
    Issues { guard := g, v := d.toNat :: a.toNat :: x, vreads := a.toNat :: x, vwrites := [d.toNat] } s c slot t ∧
    Plain s c slot t ∧
    r = { slot := slot, instr := i, vd := d.toNat, a := t.vv a.toNat, b := ((x.head?.map t.vv).getD 0#512),
          fpctl := t.fpctl } ∧
    (s.core c).sfuq.length < 32 ∧
    (s.core c).sfuWait = [] :=
  ⟨_, 0#3, 63#6, 62#6, 61#6, 1#1, _, s0, 0, 0, t0, _, .inl ⟨rfl, rfl⟩, issues_of (by decide), plain_of rfl rfl, rfl,
   by first | rfl | decide, by first | rfl | decide⟩

theorem witness_vfsqrt : ∃ (i : Instr) (g : BitVec 3) (d : BitVec 6) (a : BitVec 6) (b : BitVec 6) (p : BitVec 1) (x : List Nat) (s : State)
      (c : _) (slot : _) (t : Thread) (r : SfuReq),
    (i = .vfdiv g d a b p ∧ x = [b.toNat] ∨ x = [] ∧ (i = .vfsqrt g d a p ∨ i = .vrcp g d a ∨ i = .vrsq g d a ∨ i =
      .vexp2 g d a ∨ i = .vlog2 g d a ∨ i = .vsin g d a ∨ i = .vcos g d a ∨ i = .vtanh g d a ∨ i = .vsigm g d a)) ∧
    Issues { guard := g, v := d.toNat :: a.toNat :: x, vreads := a.toNat :: x, vwrites := [d.toNat] } s c slot t ∧
    Plain s c slot t ∧
    r = { slot := slot, instr := i, vd := d.toNat, a := t.vv a.toNat, b := ((x.head?.map t.vv).getD 0#512),
          fpctl := t.fpctl } ∧
    (s.core c).sfuq.length < 32 ∧
    (s.core c).sfuWait = [] :=
  ⟨_, 0#3, 63#6, 62#6, 61#6, 1#1, _, s0, 0, 0, t0, _, .inr ⟨rfl, .inl rfl⟩, issues_of (by decide), plain_of rfl rfl,
   rfl, by first | rfl | decide, by first | rfl | decide⟩

theorem witness_vrcp : ∃ (i : Instr) (g : BitVec 3) (d : BitVec 6) (a : BitVec 6) (b : BitVec 6) (p : BitVec 1) (x : List Nat) (s : State)
      (c : _) (slot : _) (t : Thread) (r : SfuReq),
    (i = .vfdiv g d a b p ∧ x = [b.toNat] ∨ x = [] ∧ (i = .vfsqrt g d a p ∨ i = .vrcp g d a ∨ i = .vrsq g d a ∨ i =
      .vexp2 g d a ∨ i = .vlog2 g d a ∨ i = .vsin g d a ∨ i = .vcos g d a ∨ i = .vtanh g d a ∨ i = .vsigm g d a)) ∧
    Issues { guard := g, v := d.toNat :: a.toNat :: x, vreads := a.toNat :: x, vwrites := [d.toNat] } s c slot t ∧
    Plain s c slot t ∧
    r = { slot := slot, instr := i, vd := d.toNat, a := t.vv a.toNat, b := ((x.head?.map t.vv).getD 0#512),
          fpctl := t.fpctl } ∧
    (s.core c).sfuq.length < 32 ∧
    (s.core c).sfuWait = [] :=
  ⟨_, 0#3, 63#6, 62#6, 61#6, 1#1, _, s0, 0, 0, t0, _, .inr ⟨rfl, .inr (.inl rfl)⟩, issues_of (by decide),
   plain_of rfl rfl, rfl, by first | rfl | decide, by first | rfl | decide⟩

theorem witness_sfu_full : ∃ (i : Instr) (g : BitVec 3) (d : BitVec 6) (a : BitVec 6) (b : BitVec 6) (p : BitVec 1) (x : List Nat) (s : State)
      (c : _) (slot : _) (t : Thread) (r : SfuReq),
    (i = .vfdiv g d a b p ∧ x = [b.toNat] ∨ x = [] ∧ (i = .vfsqrt g d a p ∨ i = .vrcp g d a ∨ i = .vrsq g d a ∨ i =
      .vexp2 g d a ∨ i = .vlog2 g d a ∨ i = .vsin g d a ∨ i = .vcos g d a ∨ i = .vtanh g d a ∨ i = .vsigm g d a)) ∧
    Issues { guard := g, v := d.toNat :: a.toNat :: x, vreads := a.toNat :: x, vwrites := [d.toNat] } s c slot t ∧
    Plain s c slot t ∧
    r = { slot := slot, instr := i, vd := d.toNat, a := t.vv a.toNat, b := ((x.head?.map t.vv).getD 0#512),
          fpctl := t.fpctl } ∧
    (32 ≤ (s.core c).sfuq.length ∨ (s.core c).sfuWait ≠ []) :=
  ⟨_, 0#3, 63#6, 62#6, 61#6, 1#1, _, on t0 { sfuq := List.replicate 32 req0 }, 0, 0, t0, _,
   .inr ⟨rfl, .inr (.inl rfl)⟩, issues_of (by decide), plain_of rfl rfl, rfl, .inl (by decide)⟩

theorem witness_sfu_behind : ∃ (i : Instr) (g : BitVec 3) (d : BitVec 6) (a : BitVec 6) (b : BitVec 6) (p : BitVec 1) (x : List Nat) (s : State)
      (c : _) (slot : _) (t : Thread) (r : SfuReq),
    (i = .vfdiv g d a b p ∧ x = [b.toNat] ∨ x = [] ∧ (i = .vfsqrt g d a p ∨ i = .vrcp g d a ∨ i = .vrsq g d a ∨ i =
      .vexp2 g d a ∨ i = .vlog2 g d a ∨ i = .vsin g d a ∨ i = .vcos g d a ∨ i = .vtanh g d a ∨ i = .vsigm g d a)) ∧
    Issues { guard := g, v := d.toNat :: a.toNat :: x, vreads := a.toNat :: x, vwrites := [d.toNat] } s c slot t ∧
    Plain s c slot t ∧
    r = { slot := slot, instr := i, vd := d.toNat, a := t.vv a.toNat, b := ((x.head?.map t.vv).getD 0#512),
          fpctl := t.fpctl } ∧
    (32 ≤ (s.core c).sfuq.length ∨ (s.core c).sfuWait ≠ []) :=
  ⟨_, 0#3, 63#6, 62#6, 61#6, 1#1, _, on t0 { sfuWait := [1] }, 0, 0, t0, _, .inr ⟨rfl, .inr (.inl rfl)⟩,
   issues_of (by decide), plain_of rfl rfl, rfl, .inr nofun⟩

theorem witness_sfu_admit : ∃ (s : State) (c : _) (slot : _) (rest : _) (t : Thread) (r : _),
    (s.core c).sfuWait = slot :: rest ∧
    (s.core c).sfuq.length < 32 ∧
    Waits s c slot t (.sfuPlace r) :=
  ⟨sw (.sfuPlace req0) { sfuWait := [0], sfuq := List.replicate 31 req0 }, 0, _, _, _, _, by first | rfl | decide,
   by first | rfl | decide, ⟨rfl, rfl, .inl rfl, rfl, rfl⟩⟩

theorem witness_sfu_complete : ∃ (s : State) (c : _) (t : Thread) (r : _) (rest : _),
    (s.core c).sfuq = r :: rest ∧
    Waits s c r.slot t .sfu :=
  ⟨sw .sfu { sfuq := [req0] }, 0, _, _, _, by first | rfl | decide, ⟨rfl, rfl, .inl rfl, rfl, rfl⟩⟩

theorem witness_ssu_complete : ∃ (s : State) (c : _) (slot : _) (t : Thread) (e : _) (w : _),
    Waits s c slot t (.ssu e w) ∧
    e ≤ (s.core c).cyc :=
  ⟨sw (.ssu 9 [.g 3 1#64]) { cyc := 9 }, 0, 0, _, _, _, ⟨rfl, rfl, .inl rfl, rfl, rfl⟩, by first | rfl | decide⟩

set_option maxRecDepth 100000 in
theorem witness_breg : ∃ (i : Instr) (g : BitVec 3) (d : _) (a : BitVec 7) (s : State) (c : _) (slot : _) (t : Thread) (T : _) (D : _) (U :
      _) (R : _) (u : _) (p : _),
    (i = .breg g d a ∨ i = .bar g d a ∨ i = .bard g d a) ∧
    D = { dRR g d a with drain := true } ∧
    Issues D s c slot t ∧
    R = reading i t ∧
    U = atIssue i D s c slot t ∧
    cellPlace U c R (t.gv a.toNat) 32 true = (u, .ok p) ∧
    u.thread? c slot = some T ∧
    i = .breg g d a ∧
    R.bars.length < 4 ∧
    p ∉ R.bars :=
  ⟨_, 0#3, 127#7, 1#7, hosted (on (tea 0x10000000020#64)), 0, 0, tea 0x10000000020#64, _, _, _, _, _,
   .page .coherent 0 0x20, .inl rfl, rfl, issues_of (by decide), rfl, rfl, pair_ok (by decide), some_of (by decide),
   rfl, by first | rfl | decide, by decide⟩

set_option maxRecDepth 100000 in
theorem witness_breg_full : ∃ (i : Instr) (g : BitVec 3) (d : _) (a : BitVec 7) (s : State) (c : _) (slot : _) (t : Thread) (T : _) (D : _) (U :
      _) (R : _) (u : _) (p : _),
    (i = .breg g d a ∨ i = .bar g d a ∨ i = .bard g d a) ∧
    D = { dRR g d a with drain := true } ∧
    Issues D s c slot t ∧
    R = reading i t ∧
    U = atIssue i D s c slot t ∧
    cellPlace U c R (t.gv a.toNat) 32 true = (u, .ok p) ∧
    u.thread? c slot = some T ∧
    (i = .breg g d a ∧ (4 ≤ R.bars.length ∨ p ∈ R.bars) ∨ i ≠ .breg g d a ∧ p ∉ R.bars) :=
  ⟨_, 0#3, 127#7, 1#7, hosted (on { tea 0x10000000020#64 with bars := List.replicate 4 (.page .coherent 0 0x40) }),
   0, 0, { tea 0x10000000020#64 with bars := List.replicate 4 (.page .coherent 0 0x40) }, _, _, _, _, _,
   .page .coherent 0 0x20, .inl rfl, rfl, issues_of (by decide), rfl, rfl, pair_ok (by decide), some_of (by decide),
   .inl ⟨rfl, .inl (by decide)⟩⟩

set_option maxRecDepth 100000 in
theorem witness_breg_again : ∃ (i : Instr) (g : BitVec 3) (d : _) (a : BitVec 7) (s : State) (c : _) (slot : _) (t : Thread) (T : _) (D : _) (U :
      _) (R : _) (u : _) (p : _),
    (i = .breg g d a ∨ i = .bar g d a ∨ i = .bard g d a) ∧
    D = { dRR g d a with drain := true } ∧
    Issues D s c slot t ∧
    R = reading i t ∧
    U = atIssue i D s c slot t ∧
    cellPlace U c R (t.gv a.toNat) 32 true = (u, .ok p) ∧
    u.thread? c slot = some T ∧
    (i = .breg g d a ∧ (4 ≤ R.bars.length ∨ p ∈ R.bars) ∨ i ≠ .breg g d a ∧ p ∉ R.bars) :=
  ⟨_, 0#3, 127#7, 1#7, hosted (on { tea 0x10000000020#64 with bars := [.page .coherent 0 0x20] }), 0, 0,
   { tea 0x10000000020#64 with bars := [.page .coherent 0 0x20] }, _, _, _, _, _, .page .coherent 0 0x20, .inl rfl,
   rfl, issues_of (by decide), rfl, rfl, pair_ok (by decide), some_of (by decide), .inl ⟨rfl, .inr (by decide)⟩⟩

set_option maxRecDepth 100000 in
theorem witness_bar_unregistered : ∃ (i : Instr) (g : BitVec 3) (d : _) (a : BitVec 7) (s : State) (c : _) (slot : _) (t : Thread) (T : _) (D : _) (U :
      _) (R : _) (u : _) (p : _),
    (i = .breg g d a ∨ i = .bar g d a ∨ i = .bard g d a) ∧
    D = { dRR g d a with drain := true } ∧
    Issues D s c slot t ∧
    R = reading i t ∧
    U = atIssue i D s c slot t ∧
    cellPlace U c R (t.gv a.toNat) 32 true = (u, .ok p) ∧
    u.thread? c slot = some T ∧
    (i = .breg g d a ∧ (4 ≤ R.bars.length ∨ p ∈ R.bars) ∨ i ≠ .breg g d a ∧ p ∉ R.bars) :=
  ⟨_, 0#3, 127#7, 1#7, hosted (on (tea 0x10000000020#64)), 0, 0, tea 0x10000000020#64, _, _, _, _, _,
   .page .coherent 0 0x20, .inr (.inl rfl), rfl, issues_of (by decide), rfl, rfl, pair_ok (by decide),
   some_of (by decide), .inr ⟨nofun, by decide⟩⟩

set_option maxRecDepth 100000 in
theorem witness_bar : ∃ (i : Instr) (g : BitVec 3) (d : _) (a : BitVec 7) (s : State) (c : _) (slot : _) (t : Thread) (T : _) (D : _) (U :
      _) (R : _) (u : _) (p : _),
    (i = .breg g d a ∨ i = .bar g d a ∨ i = .bard g d a) ∧
    D = { dRR g d a with drain := true } ∧
    Issues D s c slot t ∧
    R = reading i t ∧
    U = atIssue i D s c slot t ∧
    cellPlace U c R (t.gv a.toNat) 32 true = (u, .ok p) ∧
    u.thread? c slot = some T ∧
    i = .bar g d a ∧
    p ∈ R.bars ∧
    (readPlace u c (p.add 8) 8).2 = false :=
  ⟨_, 0#3, 127#7, 1#7, hosted (on { tea 0x10000000020#64 with bars := [.page .coherent 0 0x20] }), 0, 0,
   { tea 0x10000000020#64 with bars := [.page .coherent 0 0x20] }, _, _, _, _, _, .page .coherent 0 0x20,
   .inr (.inl rfl), rfl, issues_of (by decide), rfl, rfl, pair_ok (by decide), some_of (by decide), rfl, by decide,
   by decide⟩

set_option maxRecDepth 100000 in
theorem witness_bard_unregistered : ∃ (i : Instr) (g : BitVec 3) (d : _) (a : BitVec 7) (s : State) (c : _) (slot : _) (t : Thread) (T : _) (D : _) (U :
      _) (R : _) (u : _) (p : _),
    (i = .breg g d a ∨ i = .bar g d a ∨ i = .bard g d a) ∧
    D = { dRR g d a with drain := true } ∧
    Issues D s c slot t ∧
    R = reading i t ∧
    U = atIssue i D s c slot t ∧
    cellPlace U c R (t.gv a.toNat) 32 true = (u, .ok p) ∧
    u.thread? c slot = some T ∧
    (i = .breg g d a ∧ (4 ≤ R.bars.length ∨ p ∈ R.bars) ∨ i ≠ .breg g d a ∧ p ∉ R.bars) :=
  ⟨_, 0#3, 127#7, 1#7, hosted (on (tea 0x10000000020#64)), 0, 0, tea 0x10000000020#64, _, _, _, _, _,
   .page .coherent 0 0x20, .inr (.inr rfl), rfl, issues_of (by decide), rfl, rfl, pair_ok (by decide),
   some_of (by decide), .inr ⟨nofun, by decide⟩⟩

set_option maxRecDepth 100000 in
theorem witness_bard : ∃ (i : Instr) (g : BitVec 3) (d : _) (a : BitVec 7) (s : State) (c : _) (slot : _) (t : Thread) (T : _) (D : _) (U :
      _) (R : _) (u : _) (p : _),
    (i = .breg g d a ∨ i = .bar g d a ∨ i = .bard g d a) ∧
    D = { dRR g d a with drain := true } ∧
    Issues D s c slot t ∧
    R = reading i t ∧
    U = atIssue i D s c slot t ∧
    cellPlace U c R (t.gv a.toNat) 32 true = (u, .ok p) ∧
    u.thread? c slot = some T ∧
    i = .bard g d a ∧
    p ∈ R.bars ∧
    (readPlace u c (p.add 8) 8).2 = false :=
  ⟨_, 0#3, 127#7, 1#7, hosted (on { tea 0x10000000020#64 with bars := [.page .coherent 0 0x20] }), 0, 0,
   { tea 0x10000000020#64 with bars := [.page .coherent 0 0x20] }, _, _, _, _, _, .page .coherent 0 0x20,
   .inr (.inr rfl), rfl, issues_of (by decide), rfl, rfl, pair_ok (by decide), some_of (by decide), rfl, by decide,
   by decide⟩

theorem witness_breg_recorded : ∃ (s : State) (c : _) (slot : _) (rest : _) (t : Thread) (d : _) (p : _) (u : _) (v : _) (r : _),
    (s.core c).barWait = slot :: rest ∧
    Waits s c slot t (.breg d p) ∧
    u = s.setCore c { s.core c with barWait := rest } ∧
    barPoison u p = false ∧
    v = u.setThread c slot { t with bars := t.bars ++ [p] } ∧
    (s.core c).bars.find? (fun r => r.place = p) = some r :=
  ⟨sw (.breg 3 (.page .coherent 0 0x20)) { barWait := [0], bars := [{ place := .page .coherent 0 0x20, r := 1, a := 0 }] },
   0, _, _, _, _, _, _, _, { place := .page .coherent 0 0x20, r := 1, a := 0 }, by first | rfl | decide,
   ⟨rfl, rfl, .inl rfl, rfl, rfl⟩, rfl, by first | rfl | decide, rfl, by decide⟩

theorem witness_breg_first : ∃ (s : State) (c : _) (slot : _) (rest : _) (t : Thread) (d : _) (p : _) (u : _) (v : _),
    (s.core c).barWait = slot :: rest ∧
    Waits s c slot t (.breg d p) ∧
    u = s.setCore c { s.core c with barWait := rest } ∧
    barPoison u p = false ∧
    v = u.setThread c slot { t with bars := t.bars ++ [p] } ∧
    (s.core c).bars.find? (fun r => r.place = p) = none ∧
    (s.core c).bars.length < 64 :=
  ⟨sw (.breg 3 (.page .coherent 0 0x20)) { barWait := [0], bars := [] }, 0, _, _, _, _, _, _, _,
   by first | rfl | decide, ⟨rfl, rfl, .inl rfl, rfl, rfl⟩, rfl, by first | rfl | decide, rfl,
   by first | rfl | decide, by first | rfl | decide⟩

theorem witness_arrive_waits : ∃ (s : State) (c : _) (p : _) (r : _),
    (s.core c).bars.find? (fun x => x.place = p) = some r ∧
    r.a + 1 < r.r :=
  ⟨at0 { bars := [{ place := .page .coherent 0 0x20, r := 2, a := 0 }] }, 0, .page .coherent 0 0x20,
   { place := .page .coherent 0 0x20, r := 2, a := 0 }, by decide, by first | rfl | decide⟩

theorem witness_arrive_last : ∃ (s : State) (c : _) (p : _) (r : _),
    (s.core c).bars.find? (fun x => x.place = p) = some r ∧
    r.a + 1 = r.r :=
  ⟨at0 { bars := [{ place := .page .coherent 0 0x20, r := 2, a := 1 }] }, 0, .page .coherent 0 0x20,
   { place := .page .coherent 0 0x20, r := 2, a := 1 }, by decide, by first | rfl | decide⟩

theorem witness_drop_last : ∃ (s : State) (c : _) (p : _) (r : _),
    (s.core c).bars.find? (fun x => x.place = p) = some r ∧
    r.r = 1 ∧
    (s.core c).barWait = [] :=
  ⟨at0 { bars := [{ place := .page .coherent 0 0x20, r := 1, a := 0 }] }, 0, .page .coherent 0 0x20,
   { place := .page .coherent 0 0x20, r := 1, a := 0 }, by decide, by first | rfl | decide, by first | rfl | decide⟩

theorem witness_barrier_join : ∃ (s : State) (id : _) (m : _) (u : _),
    s.barMsgs.find? (fun m => m.id = id) = some m ∧
    s.barMsgs.filter (together s m) = [m] ∧
    m.cmd = none ∧
    u = postWaiting { s with barMsgs := s.barMsgs.filter (fun x => !together s m x), free := s.free + 1 } ∧
    m.kind = 0 :=
  ⟨{ barMsgs := [{ id := 5, kind := 0, place := .page .coherent 0 0x20, status := 0#64, thread := some ⟨0, 0⟩ }] },
   5, _, _, rfl, by decide, by first | rfl | decide, rfl, by first | rfl | decide⟩

theorem witness_barrier_drop : ∃ (s : State) (id : _) (m : _) (u : _),
    s.barMsgs.find? (fun m => m.id = id) = some m ∧
    s.barMsgs.filter (together s m) = [m] ∧
    m.cmd = none ∧
    u = postWaiting { s with barMsgs := s.barMsgs.filter (fun x => !together s m x), free := s.free + 1 } ∧
    m.kind = 1 ∧
    m.thread = none ∧
    InTurn s (.barrierDrop id) m.place true :=
  ⟨{ barMsgs := [{ id := 5, kind := 1, place := .page .coherent 0 0x20, status := 0#64, thread := none }] }, 5, _, _,
   rfl, by decide, by first | rfl | decide, rfl, by first | rfl | decide, by first | rfl | decide, inTurn_of rfl⟩

theorem witness_barrier_arrive : ∃ (s : State) (id : _) (m : _) (u : _),
    s.barMsgs.find? (fun m => m.id = id) = some m ∧
    s.barMsgs.filter (together s m) = [m] ∧
    m.cmd = none ∧
    u = postWaiting { s with barMsgs := s.barMsgs.filter (fun x => !together s m x), free := s.free + 1 } ∧
    m.kind = 2 ∧
    m.thread = none ∧
    InTurn s (.barrierArrive id) m.place true :=
  ⟨{ barMsgs := [{ id := 5, kind := 2, place := .page .coherent 0 0x20, status := 0#64, thread := none }] }, 5, _, _,
   rfl, by decide, by first | rfl | decide, rfl, by first | rfl | decide, by first | rfl | decide, inTurn_of rfl⟩

theorem witness_phase_goes_on : ∃ (s : State) (id : _) (m : _) (u : _) (e : _) (a : _) (k : _) (x : _),
    s.barMsgs.find? (fun m => m.id = id) = some m ∧
    s.barMsgs.filter (together s m) = [m] ∧
    m.cmd = none ∧
    u = postWaiting { s with barMsgs := s.barMsgs.filter (fun x => !together s m x), free := s.free + 1 } ∧
    m.kind < 3 ∧
    placeWordAt u m.place 0 = BitVec.ofNat 64 (e + 2 ^ 32 * a) ∧
    e < 2 ^ 32 ∧
    a < 2 ^ 32 - 1 ∧
    k = (if m.kind = 2 then a + 1 else a) ∧
    m.status = 0#64 ∧
    x = (if m.kind = 0 then (e + 1) % 2 ^ 32 else if m.kind = 1 then (e + 2 ^ 32 - 1) % 2 ^ 32 else e) ∧
    k < x :=
  ⟨{ barMsgs := [{ id := 5, kind := 2, place := .page .coherent 0 0x20, status := 0#64, thread := none }], mem := [(0x20, 3#8), (0x24, 1#8)] },
   5, _, _, 3, 1, _, _, rfl, by decide, by first | rfl | decide, rfl, by first | rfl | decide, by decide,
   by first | rfl | decide, by first | rfl | decide, rfl, by first | rfl | decide, rfl, by first | rfl | decide⟩

theorem witness_phase_completes : ∃ (s : State) (id : _) (m : _) (u : _) (e : _) (a : _) (k : _) (x : _),
    s.barMsgs.find? (fun m => m.id = id) = some m ∧
    s.barMsgs.filter (together s m) = [m] ∧
    m.cmd = none ∧
    u = postWaiting { s with barMsgs := s.barMsgs.filter (fun x => !together s m x), free := s.free + 1 } ∧
    m.kind < 3 ∧
    placeWordAt u m.place 0 = BitVec.ofNat 64 (e + 2 ^ 32 * a) ∧
    e < 2 ^ 32 ∧
    a < 2 ^ 32 - 1 ∧
    k = (if m.kind = 2 then a + 1 else a) ∧
    m.status = 0#64 ∧
    x = (if m.kind = 0 then (e + 1) % 2 ^ 32 else if m.kind = 1 then (e + 2 ^ 32 - 1) % 2 ^ 32 else e) ∧
    x ≤ k :=
  ⟨{ barMsgs := [{ id := 5, kind := 2, place := .page .coherent 0 0x20, status := 0#64, thread := none }], mem := [(0x20, 2#8), (0x24, 1#8)] },
   5, _, _, 2, 1, _, _, rfl, by decide, by first | rfl | decide, rfl, by first | rfl | decide, by decide,
   by first | rfl | decide, by first | rfl | decide, rfl, by first | rfl | decide, rfl, by first | rfl | decide⟩

theorem witness_cycle_goes_on : ∃ (u : _) (p : _) (j : _) (d : _) (n : _) (e : _) (a : _),
    placeWordAt u p 0 = BitVec.ofNat 64 (e + 2 ^ 32 * a) ∧
    e + j < 2 ^ 32 ∧
    d ≤ e + j ∧
    a + n < 2 ^ 32 ∧
    a + n < e + j - d :=
  ⟨{ mem := [(0x20, 2#8), (0x24, 1#8)] }, .page .coherent 0 0x20, 1, 1, 0, 2, 1, by decide, by first | rfl | decide,
   by first | rfl | decide, by first | rfl | decide, by first | rfl | decide⟩

theorem witness_cycle_completes : ∃ (u : _) (p : _) (j : _) (d : _) (n : _) (e : _) (a : _),
    placeWordAt u p 0 = BitVec.ofNat 64 (e + 2 ^ 32 * a) ∧
    e + j < 2 ^ 32 ∧
    d ≤ e + j ∧
    a + n < 2 ^ 32 ∧
    e + j - d ≤ a + n :=
  ⟨{ mem := [(0x20, 2#8), (0x24, 1#8)] }, .page .coherent 0 0x20, 1, 1, 1, 2, 1, by decide, by first | rfl | decide,
   by first | rfl | decide, by first | rfl | decide, by first | rfl | decide⟩

theorem witness_cwst : ∃ (i : Instr) (k : CwOpKind) (dd : Nat) (w : Word) (x : Word) (g : BitVec 3) (d : BitVec 7) (a : BitVec 7) (b :
      BitVec 7) (s : State) (c : _) (slot : _) (t : Thread) (D : _) (va : Word) (p : _) (o : CwOp) (n : _),
    (i = .cwst g d a ∧ k = .cwst ∧ dd = 0 ∧ w = t.gv d.toNat ∧ x = 0#64 ∧ D = { guard := g, g := [d.toNat, a.toNat],
                                                                                reads := [d.toNat, a.toNat],
                                                                                drain := true,
                                                                                commit := fun _ => true } ∨ i =
                                                                                .cwadd g d a b ∧ k = .cwadd ∧ dd =
                                                                                d.toNat ∧ w = t.gv b.toNat ∧ x =
                                                                                0#64 ∧ D = { guard := g,
                                                                                             g := [d.toNat, a.toNat,
                                                                                             b.toNat],
                                                                                             reads := [a.toNat,
                                                                                             b.toNat],
                                                                                             writes := [d.toNat],
                                                                                             drain := true,
                                                                                             commit := fun _ => true
                                                                                             } ∨ i = .cwcas g d a b ∧
                                                                                             k = .cwcas ∧ dd =
                                                                                             d.toNat ∧ w =
                                                                                             t.gv b.toNat ∧ x =
                                                                                             t.gv d.toNat ∧ D =
                                                                                             { guard := g,
                                                                                               g := [d.toNat,
                                                                                               a.toNat, b.toNat],
                                                                                               reads := [d.toNat,
                                                                                               a.toNat, b.toNat],
                                                                                               writes := [d.toNat],
                                                                                               drain := true,
                                                                                               commit := fun _ =>
                                                                                               true }) ∧
    Issues D s c slot t ∧
    Plain s c slot t ∧
    (s.core c).lock = none ∧
    va = t.gv a.toNat ∧
    cwTarget s t.part va = .ok (p, n) ∧
    o = { what := { kind := k, word := n, data := w, expect := x }, issuer := some ⟨c, slot⟩, d := dd } ∧
    (s.port p).queue.length < 1024 ∧
    (s.port p).room = [] :=
  ⟨_, _, _, _, _, 0#3, 3#7, 1#7, 2#7, cwOf cw0 (on (tea 0x2003FFFF8#64 7#64)), 0, 0, tea 0x2003FFFF8#64 7#64, _, _,
   3, _, 131071, .inl ⟨rfl, rfl, rfl, rfl, rfl, rfl⟩, issues_of (by decide), plain_of rfl rfl,
   by first | rfl | decide, rfl, ok_of (by decide), rfl, by first | rfl | decide, by first | rfl | decide⟩

theorem witness_cwadd : ∃ (i : Instr) (k : CwOpKind) (dd : Nat) (w : Word) (x : Word) (g : BitVec 3) (d : BitVec 7) (a : BitVec 7) (b :
      BitVec 7) (s : State) (c : _) (slot : _) (t : Thread) (D : _) (va : Word) (p : _) (o : CwOp) (n : _),
    (i = .cwst g d a ∧ k = .cwst ∧ dd = 0 ∧ w = t.gv d.toNat ∧ x = 0#64 ∧ D = { guard := g, g := [d.toNat, a.toNat],
                                                                                reads := [d.toNat, a.toNat],
                                                                                drain := true,
                                                                                commit := fun _ => true } ∨ i =
                                                                                .cwadd g d a b ∧ k = .cwadd ∧ dd =
                                                                                d.toNat ∧ w = t.gv b.toNat ∧ x =
                                                                                0#64 ∧ D = { guard := g,
                                                                                             g := [d.toNat, a.toNat,
                                                                                             b.toNat],
                                                                                             reads := [a.toNat,
                                                                                             b.toNat],
                                                                                             writes := [d.toNat],
                                                                                             drain := true,
                                                                                             commit := fun _ => true
                                                                                             } ∨ i = .cwcas g d a b ∧
                                                                                             k = .cwcas ∧ dd =
                                                                                             d.toNat ∧ w =
                                                                                             t.gv b.toNat ∧ x =
                                                                                             t.gv d.toNat ∧ D =
                                                                                             { guard := g,
                                                                                               g := [d.toNat,
                                                                                               a.toNat, b.toNat],
                                                                                               reads := [d.toNat,
                                                                                               a.toNat, b.toNat],
                                                                                               writes := [d.toNat],
                                                                                               drain := true,
                                                                                               commit := fun _ =>
                                                                                               true }) ∧
    Issues D s c slot t ∧
    Plain s c slot t ∧
    (s.core c).lock = none ∧
    va = t.gv a.toNat ∧
    cwTarget s t.part va = .ok (p, n) ∧
    o = { what := { kind := k, word := n, data := w, expect := x }, issuer := some ⟨c, slot⟩, d := dd } ∧
    (s.port p).queue.length < 1024 ∧
    (s.port p).room = [] :=
  ⟨_, _, _, _, _, 0#3, 3#7, 1#7, 2#7, cwOf cw0 (on (tea 0x2003FFFF8#64 7#64)), 0, 0, tea 0x2003FFFF8#64 7#64, _, _,
   3, _, 131071, .inr (.inl ⟨rfl, rfl, rfl, rfl, rfl, rfl⟩), issues_of (by decide), plain_of rfl rfl,
   by first | rfl | decide, rfl, ok_of (by decide), rfl, by first | rfl | decide, by first | rfl | decide⟩

theorem witness_cwcas : ∃ (i : Instr) (k : CwOpKind) (dd : Nat) (w : Word) (x : Word) (g : BitVec 3) (d : BitVec 7) (a : BitVec 7) (b :
      BitVec 7) (s : State) (c : _) (slot : _) (t : Thread) (D : _) (va : Word) (p : _) (o : CwOp) (n : _),
    (i = .cwst g d a ∧ k = .cwst ∧ dd = 0 ∧ w = t.gv d.toNat ∧ x = 0#64 ∧ D = { guard := g, g := [d.toNat, a.toNat],
                                                                                reads := [d.toNat, a.toNat],
                                                                                drain := true,
                                                                                commit := fun _ => true } ∨ i =
                                                                                .cwadd g d a b ∧ k = .cwadd ∧ dd =
                                                                                d.toNat ∧ w = t.gv b.toNat ∧ x =
                                                                                0#64 ∧ D = { guard := g,
                                                                                             g := [d.toNat, a.toNat,
                                                                                             b.toNat],
                                                                                             reads := [a.toNat,
                                                                                             b.toNat],
                                                                                             writes := [d.toNat],
                                                                                             drain := true,
                                                                                             commit := fun _ => true
                                                                                             } ∨ i = .cwcas g d a b ∧
                                                                                             k = .cwcas ∧ dd =
                                                                                             d.toNat ∧ w =
                                                                                             t.gv b.toNat ∧ x =
                                                                                             t.gv d.toNat ∧ D =
                                                                                             { guard := g,
                                                                                               g := [d.toNat,
                                                                                               a.toNat, b.toNat],
                                                                                               reads := [d.toNat,
                                                                                               a.toNat, b.toNat],
                                                                                               writes := [d.toNat],
                                                                                               drain := true,
                                                                                               commit := fun _ =>
                                                                                               true }) ∧
    Issues D s c slot t ∧
    Plain s c slot t ∧
    (s.core c).lock = none ∧
    va = t.gv a.toNat ∧
    cwTarget s t.part va = .ok (p, n) ∧
    o = { what := { kind := k, word := n, data := w, expect := x }, issuer := some ⟨c, slot⟩, d := dd } ∧
    (s.port p).queue.length < 1024 ∧
    (s.port p).room = [] :=
  ⟨_, _, _, _, _, 0#3, 3#7, 1#7, 2#7, cwOf cw0 (on (tea 0x2003FFFF8#64 7#64)), 0, 0, tea 0x2003FFFF8#64 7#64, _, _,
   3, _, 131071, .inr (.inr ⟨rfl, rfl, rfl, rfl, rfl, rfl⟩), issues_of (by decide), plain_of rfl rfl,
   by first | rfl | decide, rfl, ok_of (by decide), rfl, by first | rfl | decide, by first | rfl | decide⟩

theorem witness_cw_room : ∃ (i : Instr) (k : CwOpKind) (dd : Nat) (w : Word) (x : Word) (g : BitVec 3) (d : BitVec 7) (a : BitVec 7) (b :
      BitVec 7) (s : State) (c : _) (slot : _) (t : Thread) (D : _) (va : Word) (p : _) (o : CwOp) (n : _),
    (i = .cwst g d a ∧ k = .cwst ∧ dd = 0 ∧ w = t.gv d.toNat ∧ x = 0#64 ∧ D = { guard := g, g := [d.toNat, a.toNat],
                                                                                reads := [d.toNat, a.toNat],
                                                                                drain := true,
                                                                                commit := fun _ => true } ∨ i =
                                                                                .cwadd g d a b ∧ k = .cwadd ∧ dd =
                                                                                d.toNat ∧ w = t.gv b.toNat ∧ x =
                                                                                0#64 ∧ D = { guard := g,
                                                                                             g := [d.toNat, a.toNat,
                                                                                             b.toNat],
                                                                                             reads := [a.toNat,
                                                                                             b.toNat],
                                                                                             writes := [d.toNat],
                                                                                             drain := true,
                                                                                             commit := fun _ => true
                                                                                             } ∨ i = .cwcas g d a b ∧
                                                                                             k = .cwcas ∧ dd =
                                                                                             d.toNat ∧ w =
                                                                                             t.gv b.toNat ∧ x =
                                                                                             t.gv d.toNat ∧ D =
                                                                                             { guard := g,
                                                                                               g := [d.toNat,
                                                                                               a.toNat, b.toNat],
                                                                                               reads := [d.toNat,
                                                                                               a.toNat, b.toNat],
                                                                                               writes := [d.toNat],
                                                                                               drain := true,
                                                                                               commit := fun _ =>
                                                                                               true }) ∧
    Issues D s c slot t ∧
    Plain s c slot t ∧
    (s.core c).lock = none ∧
    va = t.gv a.toNat ∧
    cwTarget s t.part va = .ok (p, n) ∧
    o = { what := { kind := k, word := n, data := w, expect := x }, issuer := some ⟨c, slot⟩, d := dd } ∧
    (1024 ≤ (s.port p).queue.length ∨ (s.port p).room ≠ []) :=
  ⟨_, _, _, _, _, 0#3, 3#7, 1#7, 2#7, cwOf { cw0 with room := [⟨0, 1⟩] } (on (tea 0x2003FFFF8#64 7#64)), 0, 0,
   tea 0x2003FFFF8#64 7#64, _, _, 3, _, 131071, .inl ⟨rfl, rfl, rfl, rfl, rfl, rfl⟩, issues_of (by decide),
   plain_of rfl rfl, by first | rfl | decide, rfl, ok_of (by decide), rfl, .inr nofun⟩

theorem witness_cwfence : ∃ (g : BitVec 3) (d : BitVec 7) (a : BitVec 7) (s : State) (c : _) (slot : _) (t : Thread) (va : Word) (p : _) (n :
      _),
    Issues { guard := g, g := [d.toNat, a.toNat], reads := [a.toNat], writes := [d.toNat], drain := true,
             commit := fun _ => true } s c slot t ∧
    Plain s c slot t ∧
    (s.core c).lock = none ∧
    va = t.gv a.toNat ∧
    cwTarget s t.part va = .ok (p, n) ∧
    (s.port p).accepted ≤ (s.port p).ownApplied :=
  ⟨0#3, 3#7, 1#7, cwOf cw0 (on (tea 0x2003FFFF8#64 7#64)), 0, 0, tea 0x2003FFFF8#64 7#64, _, 3, 131071,
   issues_of (by decide), plain_of rfl rfl, by first | rfl | decide, rfl, ok_of (by decide), by first | rfl | decide⟩

theorem witness_cwfence_waits : ∃ (g : BitVec 3) (d : BitVec 7) (a : BitVec 7) (s : State) (c : _) (slot : _) (t : Thread) (va : Word) (p : _) (n :
      _),
    Issues { guard := g, g := [d.toNat, a.toNat], reads := [a.toNat], writes := [d.toNat], drain := true,
             commit := fun _ => true } s c slot t ∧
    Plain s c slot t ∧
    (s.core c).lock = none ∧
    va = t.gv a.toNat ∧
    cwTarget s t.part va = .ok (p, n) ∧
    (s.port p).ownApplied < (s.port p).accepted :=
  ⟨0#3, 3#7, 1#7, cwOf { cw0 with accepted := 1 } (on (tea 0x2003FFFF8#64 7#64)), 0, 0, tea 0x2003FFFF8#64 7#64, _,
   3, 131071, issues_of (by decide), plain_of rfl rfl, by first | rfl | decide, rfl, ok_of (by decide),
   by first | rfl | decide⟩

theorem witness_cw_admit : ∃ (s : State) (p : _) (c : _) (slot : _) (rest : _) (t : Thread) (o : _) (va : Word),
    (s.port p).room = ⟨c, slot⟩ :: rest ∧
    (s.port p).queue.length < 1024 ∧
    Waits s c slot t (.cwRoom p o va) :=
  ⟨cwOf { cw0 with room := [⟨0, 0⟩] } (sw (.cwRoom 3 { what := { kind := .cwadd, word := 131071, data := 1#64, expect := 0#64 }, issuer := some ⟨0, 0⟩, d := 3 } 0x2003FFFF8#64)),
   3, _, _, _, _, _, _, by first | rfl | decide, by first | rfl | decide, ⟨rfl, rfl, .inl rfl, rfl, rfl⟩⟩

theorem witness_cw_join : ∃ (s : State) (p : _),
    ((s.port p).state = .none ∨ (s.port p).state = .removed) :=
  ⟨cwOf {}, 3, .inl rfl⟩

theorem witness_cw_leave : ∃ (s : State) (p : _),
    (s.port p).state = .member ∧
    (∀ x ∈ allThreads s, x.2.wait = .idle) :=
  ⟨cwOf cw0 s0, 3, by first | rfl | decide, by decide⟩

theorem witness_listen_refused : ∃ (s : State) (p : _) (h : CwHeard) (r : _),
    (s.port p).state = .joining ∧
    (s.port p).asked = false ∧
    (s.port p).founder = false ∧
    refusal (s.port p) h = some r :=
  ⟨cwOf { cw0 with state := .joining, views := [] }, 3,
   { light := true, cwid := 1#16, slots := 2, period := true, ownSlot := false, far := false, weak := false }, 1,
   by first | rfl | decide, by first | rfl | decide, by first | rfl | decide, rfl⟩

theorem witness_listen_light : ∃ (s : State) (p : _) (h : CwHeard),
    (s.port p).state = .joining ∧
    (s.port p).asked = false ∧
    (s.port p).founder = false ∧
    refusal (s.port p) h = none ∧
    h.light = true :=
  ⟨cwOf { cw0 with state := .joining, views := [] }, 3,
   { light := true, cwid := 0#16, slots := 2, period := true, ownSlot := false, far := false, weak := false },
   by first | rfl | decide, by first | rfl | decide, by first | rfl | decide, by first | rfl | decide,
   by first | rfl | decide⟩

theorem witness_listen_dark : ∃ (s : State) (p : _) (h : CwHeard),
    (s.port p).state = .joining ∧
    (s.port p).asked = false ∧
    (s.port p).founder = false ∧
    refusal (s.port p) h = none ∧
    h.light = false :=
  ⟨cwOf { cw0 with state := .joining, views := [] }, 3,
   { light := false, cwid := 0#16, slots := 2, period := true, ownSlot := false, far := false, weak := false },
   by first | rfl | decide, by first | rfl | decide, by first | rfl | decide, by first | rfl | decide,
   by first | rfl | decide⟩

theorem witness_founder_refused : ∃ (s : State) (p : _) (h : CwHeard) (r : _),
    (s.port p).state = .joining ∧
    (s.port p).founder = true ∧
    (s.port p).asked = false ∧
    (s.port p).views = [] ∧
    refusal (s.port p) h = some r :=
  ⟨cwOf { cw0 with state := .joining, views := [], founder := true }, 3,
   { light := true, cwid := 1#16, slots := 2, period := true, ownSlot := false, far := false, weak := false }, 1,
   by first | rfl | decide, by first | rfl | decide, by first | rfl | decide, by first | rfl | decide, rfl⟩

theorem witness_founder_light : ∃ (s : State) (p : _) (h : CwHeard),
    (s.port p).state = .joining ∧
    (s.port p).founder = true ∧
    (s.port p).asked = false ∧
    (s.port p).views = [] ∧
    refusal (s.port p) h = none ∧
    h.light = true :=
  ⟨cwOf { cw0 with state := .joining, views := [], founder := true }, 3,
   { light := true, cwid := 0#16, slots := 2, period := true, ownSlot := false, far := false, weak := false },
   by first | rfl | decide, by first | rfl | decide, by first | rfl | decide, by first | rfl | decide,
   by first | rfl | decide, by first | rfl | decide⟩

theorem witness_founder_dark : ∃ (s : State) (p : _) (h : CwHeard),
    (s.port p).state = .joining ∧
    (s.port p).founder = true ∧
    (s.port p).asked = false ∧
    (s.port p).views = [] ∧
    refusal (s.port p) h = none ∧
    h.light = false :=
  ⟨cwOf { cw0 with state := .joining, views := [], founder := true }, 3,
   { light := false, cwid := 0#16, slots := 2, period := true, ownSlot := false, far := false, weak := false },
   by first | rfl | decide, by first | rfl | decide, by first | rfl | decide, by first | rfl | decide,
   by first | rfl | decide, by first | rfl | decide⟩

theorem witness_grant_timeout : ∃ (s : State) (p : _),
    (s.port p).state = .joining ∧
    (s.port p).asked = true ∧
    (s.port p).snapshot = false ∧
    (s.port p).sentRot ≠ none :=
  ⟨cwOf { cw0 with state := .joining, asked := true, sentRot := some 5 }, 3, by first | rfl | decide,
   by first | rfl | decide, by first | rfl | decide, nofun⟩

theorem witness_control_frame : ∃ (s : State) (p : _) (j : _),
    isMaster (s.port p) = true ∧
    j < (s.port p).slots ∧
    (s.port p).live.getLsbD j = false ∧
    j ∉ (s.port p).joiners ∧
    j ≠ (s.port p).index :=
  ⟨cwOf { cw0 with index := 0, live := 1#32 }, 3, 1, by first | rfl | decide, by first | rfl | decide,
   by first | rfl | decide, by first | rfl | decide, by first | rfl | decide⟩

set_option maxRecDepth 100000 in
theorem witness_snapshot : ∃ (s : State) (p : _) (f : CwFrame) (o : _) (bs : List Byte) (u : _),
    hears (s.port p) = true ∧
    u = takeFrame s p { f with snap := some (o, bs) } true ∧
    (loadSnap (u.port p) o bs).state = .joining ∧
    (loadSnap (u.port p) o bs).snapshot = true ∧
    (loadSnap (u.port p) o bs).got ≠ 2 ^ 1093 - 1 :=
  ⟨cwOf { cw0 with state := .joining, snapshot := true, got := 0 }, 3,
   { rotation := 5, member := 0, fidx := 0, fcount := 1, ops := [], nacks := [] }, 0, List.replicate 960 0#8, _,
   by first | rfl | decide, rfl, by first | rfl | decide, by first | rfl | decide, by first | rfl | decide⟩

set_option maxRecDepth 100000 in
theorem witness_snapshot_last : ∃ (s : State) (p : _) (f : CwFrame) (o : _) (bs : List Byte) (u : _),
    hears (s.port p) = true ∧
    u = takeFrame s p { f with snap := some (o, bs) } true ∧
    (loadSnap (u.port p) o bs).state = .joining ∧
    (loadSnap (u.port p) o bs).snapshot = true ∧
    (loadSnap (u.port p) o bs).got = 2 ^ 1093 - 1 :=
  ⟨cwOf { cw0 with state := .joining, snapshot := true, got := 2 ^ 1092 - 1 }, 3,
   { rotation := 5, member := 0, fidx := 0, fcount := 1, ops := [], nacks := [] }, 1048320, List.replicate 256 0#8,
   _, by first | rfl | decide, rfl, by first | rfl | decide, by first | rfl | decide, by first | rfl | decide⟩

set_option maxRecDepth 100000 in
theorem witness_snapshot_bytes : ∃ (x : Port) (o : _) (bs : List Byte),
    x.state = .joining ∧
    x.snapshot = true ∧
    o % 960 = 0 ∧
    o < 1048576 ∧
    bs.length = min 960 (1048576 - o) :=
  ⟨{ cw0 with state := .joining, snapshot := true }, 1048320, List.replicate 256 0#8, by first | rfl | decide,
   by first | rfl | decide, by first | rfl | decide, by first | rfl | decide, by first | rfl | decide⟩

theorem witness_rotation_opens : ∃ (s : State) (p : _),
    isMaster (s.port p) = true :=
  ⟨cwOf { cw0 with index := 0 }, 3, by first | rfl | decide⟩

theorem witness_rotation_seen : ∃ (s : State) (p : _) (v : CwView) (w : _) (vs : _),
    ((s.port p).state = .member ∨ (s.port p).state = .recovering) ∧
    isMaster (s.port p) = false ∧
    (s.port p).views = w :: vs ∧
    w.rotation < v.rotation ∧
    v.live.getLsbD (s.port p).index = true :=
  ⟨cwOf cw0, 3, { rotation := 6, master := 0, live := 3#32 }, _, _, .inl rfl, by first | rfl | decide,
   by first | rfl | decide, by first | rfl | decide, by first | rfl | decide⟩

theorem witness_rotation_recovers : ∃ (s : State) (p : _) (v : CwView) (w : _) (vs : _),
    ((s.port p).state = .member ∨ (s.port p).state = .recovering) ∧
    isMaster (s.port p) = false ∧
    (s.port p).views = w :: vs ∧
    w.rotation < v.rotation ∧
    v.live.getLsbD (s.port p).index = true :=
  ⟨cwOf { cw0 with slots := 3, index := 2, live := 7#32, state := .recovering, kept := [{ rotation := 5, member := 1, fidx := 0, fcount := 1, ops := [], nacks := [] }] },
   3, { rotation := 6, master := 0, live := 7#32 }, _, _, .inr rfl, by first | rfl | decide, by first | rfl | decide,
   by first | rfl | decide, by first | rfl | decide⟩

theorem witness_rotation_without : ∃ (s : State) (p : _) (v : CwView) (w : _) (vs : _),
    ((s.port p).state = .member ∨ (s.port p).state = .recovering) ∧
    isMaster (s.port p) = false ∧
    (s.port p).views = w :: vs ∧
    w.rotation < v.rotation ∧
    v.live.getLsbD (s.port p).index = false :=
  ⟨cwOf cw0, 3, { rotation := 6, master := 0, live := 1#32 }, _, _, .inl rfl, by first | rfl | decide,
   by first | rfl | decide, by first | rfl | decide, by first | rfl | decide⟩

theorem witness_burst : ∃ (s : State) (p : _) (v : _) (vs : _),
    (s.port p).state = .member ∧
    (s.port p).views = v :: vs ∧
    (∀ r, (s.port p).sentRot = some r → r < v.rotation) ∧
    (s.port p).live.getLsbD (s.port p).index = true ∧
    (s.port p).owed = [] ∧
    (s.port p).requests = [] ∧
    (s.port p).ask = [] ∧
    (s.port p).snaps = [] ∧
    (s.port p).room = [] ∧
    (s.port p).queue.length ≤ 30 :=
  ⟨cwOf { cw0 with queue := List.replicate 30 { what := { kind := .cwadd, word := 131071, data := 1#64, expect := 0#64 }, issuer := some ⟨0, 0⟩, d := 3 } },
   3, _, _, by first | rfl | decide, by first | rfl | decide, nofun, by first | rfl | decide,
   by first | rfl | decide, by first | rfl | decide, by first | rfl | decide, by first | rfl | decide,
   by first | rfl | decide, by first | rfl | decide⟩

theorem witness_hears : ∃ (s : State) (p : _),
    hears (s.port p) = true :=
  ⟨cwOf cw0, 3, by first | rfl | decide⟩

theorem witness_cwst_applied : ∃ (s : State) (p : _) (o : CwRec) (old : _),
    old = leWord (Mem.readN (s.port p).replica (8 * (o.word % 131072)) 8) ∧
    (o.kind = .cwst ∨ o.kind = .cwadd ∨ o.expect = old) :=
  ⟨cwOf cw0, 3, { kind := .cwst, word := 131071, data := 1#64, expect := 0#64 }, _, rfl, .inl rfl⟩

theorem witness_cwadd_applied : ∃ (s : State) (p : _) (o : CwRec) (old : _),
    old = leWord (Mem.readN (s.port p).replica (8 * (o.word % 131072)) 8) ∧
    (o.kind = .cwst ∨ o.kind = .cwadd ∨ o.expect = old) :=
  ⟨cwOf cw0, 3, { kind := .cwadd, word := 131071, data := 1#64, expect := 0#64 }, _, rfl, .inr (.inl rfl)⟩

theorem witness_cwcas_applied : ∃ (s : State) (p : _) (o : CwRec) (old : _),
    old = leWord (Mem.readN (s.port p).replica (8 * (o.word % 131072)) 8) ∧
    (o.kind = .cwst ∨ o.kind = .cwadd ∨ o.expect = old) :=
  ⟨cwOf cw0, 3, { kind := .cwcas, word := 131071, data := 1#64, expect := 0#64 }, _, rfl, .inr (.inr rfl)⟩

theorem witness_cwcas_unlike : ∃ (s : State) (p : _) (o : CwRec) (old : _),
    old = leWord (Mem.readN (s.port p).replica (8 * (o.word % 131072)) 8) ∧
    o.kind = .cwcas ∧
    o.expect ≠ old :=
  ⟨cwOf cw0, 3, { kind := .cwcas, word := 131071, data := 1#64, expect := 1#64 }, _, rfl, by first | rfl | decide,
   by first | rfl | decide⟩

theorem witness_missing : ∃ (s : State) (p : _) (r : _) (m : _) (i : _),
    hears (s.port p) = true ∧
    lacks (s.port p) r m i = true :=
  ⟨cwOf { cw0 with nextRot := 5 }, 3, 5, 0, 0, by first | rfl | decide, by first | rfl | decide⟩

theorem witness_hole : ∃ (s : State) (p : _),
    hears (s.port p) = true ∧
    (∃ h ∈ (s.port p).holes, h.2.2.2 + 8 ≤ nowRot (s.port p)) :=
  ⟨cwOf { cw0 with views := [{ rotation := 8, master := 0, live := 3#32 }], holes := [(0, 0, 0, 0)] }, 3,
   by first | rfl | decide, ⟨_, .head _, by decide⟩⟩

theorem witness_master_loss : ∃ (s : State) (p : _),
    (s.port p).state = .member ∧
    isMaster (s.port p) = false :=
  ⟨cwOf cw0, 3, by first | rfl | decide, by first | rfl | decide⟩

theorem witness_recovery : ∃ (s : State) (p : _),
    (s.port p).state = .recovering :=
  ⟨cwOf { cw0 with state := .recovering }, 3, by first | rfl | decide⟩

/-- R149, R151: a signalling NaN, the infinities, and a number below −0. -/
theorem witness_sfu_special : fp32.unpack 0x7F800001 = .nan false true ∧ fp32.unpack 0xFF800000 = .inf true ∧
    fp32.unpack 0x7F800000 = .inf false ∧ ∃ m e, fp32.unpack 0x80000001 = .fin true m e ∧ m ≠ 0 :=
  ⟨by decide, by decide, by decide, _, _, rfl, by decide⟩

theorem pair_some {σ ε α : Type} {x : σ × Except ε α} (h : x.2.toOption.isSome = true) :
    x = (x.1, .ok (x.2.toOption.get h)) := by
  obtain ⟨s, r⟩ := x
  cases r with
  | error e => cases h
  | ok a => rfl
theorem pair_snd {α β : Type} {x : α × β} {b : β} (h : x.2 = b) : x = (x.1, b) := by subst h; rfl

/-- The page tables, and at 0x4000 a launch header: code of 4 bytes, one group of one thread with 8 registers. -/
def withHeader : Mem :=
  tables ++ [(0x4000, 0x01#8), (0x4001, 0x48#8), (0x4002, 0x4C#8), (0x4003, 0x51#8), (0x4009, 0x50#8), (0x400D, 0x01#8),
    (0x4010, 0x04#8), (0x4018, 0x41#8), (0x401C, 0xA0#8), (0x4020, 0x01#8), (0x4024, 0x01#8), (0x4038, 0x01#8),
    (0x403A, 0x08#8)]
/-- Partition 0 with one core and a lay-by pool of one page of 64 KiB. -/
def small (s : State) : State :=
  { s with mem := withHeader, parts := [(0, { state := .active, ctab := [0], words := [(5, 1#64)] })] }
/-- The launch of that header. -/
def launch1 : Launch :=
  { launch0 with hdr := headerOf (Mem.readN withHeader 0x4000 256), bands := [.unplaced] }
def core1 : Core := { threads := [(0, {})] }
def tl : Thread := { tea 0x1FF00#64 with authp := 0x200#64 }
def sl : State := on tl { spad := [(0x200, 1#8), (0x221, 0xFF#8)] }
/-- A line of a core table that names the cores in order. -/
def tabLine (i : Nat) : CLine :=
  { st := .m, kind := .coherent, data := (List.range 32).flatMap (fun k => [BitVec.ofNat 8 (32 * i + k), 0#8]) }

theorem witness_launch : ∃ (g : BitVec 3) (d : _) (a : BitVec 7) (s : State) (c : _) (slot : _) (t : Thread) (T : _) (D : _) (U : _) (u : _)
      (va : Word),
    D = { dRR g d a with drain := true, commit := fun _ => true } ∧
    Issues D s c slot t ∧
    U = atIssue (.launch g d a) D s c slot t ∧
    needRight U c slot (reading (.launch g d a) t) 10 = (u, none) ∧
    va = t.gv a.toNat ∧
    va.toNat % 64 = 0 ∧
    u.thread? c slot = some T :=
  ⟨0#3, 3#7, 1#7, sl, 0, 0, tl, _, _, _, _, _, rfl, issues_of (by decide), rfl, pair_none (by decide +kernel), rfl,
   by first | rfl | decide, some_of (by decide +kernel)⟩

theorem witness_port_header : ∃ (s : State) (p : _),
    s.subs.any (fun x => x.part = p && x.thread.isNone) = false :=
  ⟨{}, 63, by first | rfl | decide⟩

theorem witness_port_busy : ∃ (s : State) (p : _),
    s.subs.any (fun x => x.part = p && x.thread.isNone) = true :=
  ⟨{ subs := [{ id := 5, part := 0, proc := 0, addr := 0x10000004000#64, graph := false, thread := none }] }, 0,
   by first | rfl | decide⟩

theorem witness_submission_misaligned : ∃ (s : State) (x : Submission) (st : Nat),
    s.subs.find? (fun y => y.id = x.id) = some x ∧
    x.thread = none ∧
    x.graph = false ∧
    (x.addr.toNat % 64 ≠ 0 ∧ st = 6 ∨ x.addr.toNat % 64 = 0 ∧ distRead s x.part x.proc x.addr 256 = none ∧ st = 6 ∨
      x.addr.toNat % 64 = 0 ∧ (∃ bs, distRead s x.part x.proc x.addr 256 = some bs ∧ 1024 ≤ recordsOf s x.part) ∧
      st = 5 ∨ x.addr.toNat % 64 = 0 ∧ (∃ bs, distRead s x.part x.proc x.addr 256 = some bs ∧
      recordsOf s x.part < 1024 ∧ headerStatus s x.part x.proc bs = st) ∧ st ≠ 0) :=
  ⟨small { subs := [{ id := 5, part := 0, proc := 0, addr := 0x10000004020#64, graph := false, thread := none }] },
   { id := 5, part := 0, proc := 0, addr := 0x10000004020#64, graph := false, thread := none }, 6, rfl,
   by first | rfl | decide, by first | rfl | decide, .inl ⟨by decide, rfl⟩⟩

theorem witness_submission_unreadable : ∃ (s : State) (x : Submission) (st : Nat),
    s.subs.find? (fun y => y.id = x.id) = some x ∧
    x.thread = none ∧
    x.graph = false ∧
    (x.addr.toNat % 64 ≠ 0 ∧ st = 6 ∨ x.addr.toNat % 64 = 0 ∧ distRead s x.part x.proc x.addr 256 = none ∧ st = 6 ∨
      x.addr.toNat % 64 = 0 ∧ (∃ bs, distRead s x.part x.proc x.addr 256 = some bs ∧ 1024 ≤ recordsOf s x.part) ∧
      st = 5 ∨ x.addr.toNat % 64 = 0 ∧ (∃ bs, distRead s x.part x.proc x.addr 256 = some bs ∧
      recordsOf s x.part < 1024 ∧ headerStatus s x.part x.proc bs = st) ∧ st ≠ 0) :=
  ⟨{ subs := [{ id := 5, part := 0, proc := 0, addr := 0x10000004000#64, graph := false, thread := none }] },
   { id := 5, part := 0, proc := 0, addr := 0x10000004000#64, graph := false, thread := none }, 6, rfl,
   by first | rfl | decide, by first | rfl | decide, .inr (.inl ⟨by decide, by decide +kernel, rfl⟩)⟩

theorem witness_submission_no_record : ∃ (s : State) (x : Submission) (st : Nat),
    s.subs.find? (fun y => y.id = x.id) = some x ∧
    x.thread = none ∧
    x.graph = false ∧
    (x.addr.toNat % 64 ≠ 0 ∧ st = 6 ∨ x.addr.toNat % 64 = 0 ∧ distRead s x.part x.proc x.addr 256 = none ∧ st = 6 ∨
      x.addr.toNat % 64 = 0 ∧ (∃ bs, distRead s x.part x.proc x.addr 256 = some bs ∧ 1024 ≤ recordsOf s x.part) ∧
      st = 5 ∨ x.addr.toNat % 64 = 0 ∧ (∃ bs, distRead s x.part x.proc x.addr 256 = some bs ∧
      recordsOf s x.part < 1024 ∧ headerStatus s x.part x.proc bs = st) ∧ st ≠ 0) :=
  ⟨{ small { subs := [{ id := 5, part := 0, proc := 0, addr := 0x10000004000#64, graph := false, thread := none }] } with launches := (List.range 1024).map (fun i => (i, launch0)) },
   { id := 5, part := 0, proc := 0, addr := 0x10000004000#64, graph := false, thread := none }, 5, rfl,
   by first | rfl | decide, by first | rfl | decide,
   .inr (.inr (.inl ⟨by decide, ⟨_, some_of (by decide +kernel), by decide +kernel⟩, rfl⟩))⟩

theorem witness_submission_refused : ∃ (s : State) (x : Submission) (st : Nat),
    s.subs.find? (fun y => y.id = x.id) = some x ∧
    x.thread = none ∧
    x.graph = false ∧
    (x.addr.toNat % 64 ≠ 0 ∧ st = 6 ∨ x.addr.toNat % 64 = 0 ∧ distRead s x.part x.proc x.addr 256 = none ∧ st = 6 ∨
      x.addr.toNat % 64 = 0 ∧ (∃ bs, distRead s x.part x.proc x.addr 256 = some bs ∧ 1024 ≤ recordsOf s x.part) ∧
      st = 5 ∨ x.addr.toNat % 64 = 0 ∧ (∃ bs, distRead s x.part x.proc x.addr 256 = some bs ∧
      recordsOf s x.part < 1024 ∧ headerStatus s x.part x.proc bs = st) ∧ st ≠ 0) :=
  ⟨{ small { subs := [{ id := 5, part := 0, proc := 0, addr := 0x10000004000#64, graph := false, thread := none }] } with mem := tables },
   { id := 5, part := 0, proc := 0, addr := 0x10000004000#64, graph := false, thread := none }, 1, rfl,
   by first | rfl | decide, by first | rfl | decide,
   .inr (.inr (.inr ⟨by decide, ⟨_, some_of (by decide +kernel), by decide +kernel, by decide +kernel⟩, by decide⟩))⟩

theorem witness_submission : ∃ (s : State) (x : Submission) (bs : _),
    s.subs.find? (fun y => y.id = x.id) = some x ∧
    x.thread = none ∧
    x.graph = false ∧
    x.addr.toNat % 64 = 0 ∧
    distRead s x.part x.proc x.addr 256 = some bs ∧
    recordsOf s x.part < 1024 ∧
    headerStatus s x.part x.proc bs = 0 :=
  ⟨small { subs := [{ id := 5, part := 0, proc := 0, addr := 0x10000004000#64, graph := false, thread := none }] },
   { id := 5, part := 0, proc := 0, addr := 0x10000004000#64, graph := false, thread := none }, _, rfl,
   by first | rfl | decide, by first | rfl | decide, by first | rfl | decide, some_of (by decide +kernel),
   by decide +kernel, by decide +kernel⟩

theorem witness_launch_decided : ∃ (s : State) (p : _) (x : Submission) (u : _) (c : _) (slot : _) (t : Thread) (T : _) (d : _) (bs : _) (st : _),
    s.subs.find? (fun y => y.part = p && y.thread.isSome) = some x ∧
    s.subs.find? (fun y => y.id = x.id) = some x ∧
    x.thread = some ⟨c, slot⟩ ∧
    s.thread? c slot = some T ∧
    (x.read = none ∧ readVa s c T.part T.proc x.addr 256 = (u, .ok bs) ∨ x.read = some bs ∧ u = s) ∧
    recordsOf u x.part < 1024 ∧
    u.subs.any (fun y => y.part = x.part && y.thread.isSome && decide (y.id < x.id)) = false ∧
    st = headerStatus u x.part x.proc bs ∧
    Waits u c slot t (.launch d x.id) :=
  ⟨small { sw (.launch 3 5) with subs := [{ id := 5, part := 0, proc := 0, addr := 0x10000004000#64, graph := false, thread := some ⟨0, 0⟩ }] },
   0, { id := 5, part := 0, proc := 0, addr := 0x10000004000#64, graph := false, thread := some ⟨0, 0⟩ }, _, 0, 0,
   tw (.launch 3 5), tw (.launch 3 5), 3, _, _, rfl, rfl, rfl, rfl, .inl ⟨rfl, pair_some (by decide +kernel)⟩,
   by decide +kernel, by decide +kernel, rfl, ⟨by decide +kernel, rfl, .inl rfl, rfl, rfl⟩⟩

theorem witness_launch_held : ∃ (s : State) (p : _) (x : Submission) (u : _) (c : _) (slot : _) (t : Thread) (T : _) (d : _) (bs : _) (st : _),
    s.subs.find? (fun y => y.part = p && y.thread.isSome) = some x ∧
    s.subs.find? (fun y => y.id = x.id) = some x ∧
    x.thread = some ⟨c, slot⟩ ∧
    s.thread? c slot = some T ∧
    (x.read = none ∧ readVa s c T.part T.proc x.addr 256 = (u, .ok bs) ∨ x.read = some bs ∧ u = s) ∧
    recordsOf u x.part < 1024 ∧
    u.subs.any (fun y => y.part = x.part && y.thread.isSome && decide (y.id < x.id)) = false ∧
    st = headerStatus u x.part x.proc bs ∧
    Waits u c slot t (.launch d x.id) :=
  ⟨small { sw (.launch 3 5) with subs := [{ id := 5, part := 0, proc := 0, addr := 0x10000004000#64, graph := false, thread := some ⟨0, 0⟩, read := some withHeader.unzip.2 }] },
   0,
   { id := 5, part := 0, proc := 0, addr := 0x10000004000#64, graph := false, thread := some ⟨0, 0⟩, read := some withHeader.unzip.2 },
   _, 0, 0, tw (.launch 3 5), tw (.launch 3 5), 3, _, _, rfl, rfl, rfl, rfl, .inr ⟨rfl, rfl⟩, by decide +kernel,
   by decide +kernel, rfl, ⟨by decide +kernel, rfl, .inl rfl, rfl, rfl⟩⟩

theorem witness_dependence : ∃ (s : State) (lid : _) (l : _) (p : _),
    s.launch? lid = some l ∧
    l.entered = true ∧
    l.ready = none ∧
    l.done = false ∧
    l.hdr.dep ≠ 0#64 ∧
    l.cancelled = false ∧
    l.preempting = false ∧
    depPlace s l.hdr = some p ∧
    InTurn s (.dependenceReady lid) p false ∧
    l.hdr.depval.toNat ≤ (leWord (readPlace s noCore p 8).1).toNat :=
  ⟨{ small {} with launches := [(0, { launch0 with hdr := { hdr0 with dep := 0x10000004100#64 }, ready := none })] },
   0, { launch0 with hdr := { hdr0 with dep := 0x10000004100#64 }, ready := none }, .page .coherent 0 0x4100, rfl,
   by first | rfl | decide, by first | rfl | decide, by first | rfl | decide, by first | rfl | decide,
   by first | rfl | decide, by first | rfl | decide, by decide +kernel, inTurn_of rfl, by decide +kernel⟩

theorem witness_dependence_gone : ∃ (s : State) (lid : _) (l : _),
    s.launch? lid = some l ∧
    l.entered = true ∧
    l.ready = none ∧
    l.done = false ∧
    l.hdr.dep ≠ 0#64 ∧
    l.cancelled = false ∧
    l.preempting = false ∧
    depPlace s l.hdr = none :=
  ⟨{ launches := [(0, { launch0 with hdr := { hdr0 with dep := 0x10000004100#64 }, ready := none })] }, 0,
   { launch0 with hdr := { hdr0 with dep := 0x10000004100#64 }, ready := none }, rfl, by first | rfl | decide,
   by first | rfl | decide, by first | rfl | decide, by first | rfl | decide, by first | rfl | decide,
   by first | rfl | decide, by decide +kernel⟩

theorem witness_wqry : ∃ (g : BitVec 3) (d : _) (a : BitVec 7) (s : State) (c : _) (slot : _) (t : Thread) (l : _) (va : Word) (D : _),
    D = { dRR g d a with drain := true, commit := fun _ => true } ∧
    Issues D s c slot t ∧
    Plain s c slot t ∧
    (s.core c).lock = none ∧
    va = t.gv a.toNat ∧
    va.toNat % 8 = 0 ∧
    va.toNat < 0x20000 ∧
    (s.core c).xb ≤ va.toNat ∧
    s.launch? t.lid = some l ∧
    l.hdr.persist = true :=
  ⟨0#3, 3#7, 1#7,
   { on (tea 0x1FFF8#64) with launches := [(0, { launch0 with hdr := { hdr0 with persist := true } })] }, 0, 0,
   tea 0x1FFF8#64, { launch0 with hdr := { hdr0 with persist := true } }, _, _, rfl, issues_of (by decide),
   plain_of rfl rfl, by first | rfl | decide, rfl, by first | rfl | decide, by first | rfl | decide,
   by first | rfl | decide, rfl, by first | rfl | decide⟩

theorem witness_wqry_no_list : ∃ (g : BitVec 3) (d : _) (a : BitVec 7) (s : State) (c : _) (slot : _) (t : Thread) (l : _) (va : Word) (D : _),
    D = { dRR g d a with drain := true, commit := fun _ => true } ∧
    Issues D s c slot t ∧
    Plain s c slot t ∧
    (s.core c).lock = none ∧
    va = t.gv a.toNat ∧
    va.toNat % 8 = 0 ∧
    va.toNat < 0x20000 ∧
    (s.core c).xb ≤ va.toNat ∧
    s.launch? t.lid = some l ∧
    l.hdr.persist = false :=
  ⟨0#3, 3#7, 1#7,
   { on (tea 0x1FFF8#64) with launches := [(0, { launch0 with hdr := { hdr0 with persist := false } })] }, 0, 0,
   tea 0x1FFF8#64, { launch0 with hdr := { hdr0 with persist := false } }, _, _, rfl, issues_of (by decide),
   plain_of rfl rfl, by first | rfl | decide, rfl, by first | rfl | decide, by first | rfl | decide,
   by first | rfl | decide, rfl, by first | rfl | decide⟩

theorem witness_item : ∃ (s : State) (p : _) (q : _) (l : _) (w : _),
    s.queries.find? (fun q => q.answer.isNone && (match s.launch? q.lid with | some l => l.part = p | none => false)) = some q ∧
    s.launch? q.lid = some l ∧
    (l.items < l.hdr.wcount ∧ (∃ bs, leWord bs = w ∧
      distRead s l.part l.hdr.proc (l.hdr.wlist + BitVec.ofNat 64 (8 * l.items)) 8 = some bs) ∨
      l.hdr.wcount ≤ l.items ∧ w = endToken) :=
  ⟨{ small {} with launches := [(0, { launch0 with hdr := { hdr0 with persist := true, wcount := 1, wlist := 0x10000004000#64 }, items := 0 })], queries := [{ id := 5, lid := 0, gid := 0, core := 0, off := 0x1FFF8, answer := none }] },
   0, { id := 5, lid := 0, gid := 0, core := 0, off := 0x1FFF8, answer := none },
   { launch0 with hdr := { hdr0 with persist := true, wcount := 1, wlist := 0x10000004000#64 }, items := 0 },
   0x514C4801#64, by decide +kernel, rfl,
   .inl ⟨by decide, [0x01#8, 0x48#8, 0x4C#8, 0x51#8, 0#8, 0#8, 0#8, 0#8], by decide, by decide +kernel⟩⟩

theorem witness_no_item : ∃ (s : State) (p : _) (q : _) (l : _) (w : _),
    s.queries.find? (fun q => q.answer.isNone && (match s.launch? q.lid with | some l => l.part = p | none => false)) = some q ∧
    s.launch? q.lid = some l ∧
    (l.items < l.hdr.wcount ∧ (∃ bs, leWord bs = w ∧
      distRead s l.part l.hdr.proc (l.hdr.wlist + BitVec.ofNat 64 (8 * l.items)) 8 = some bs) ∨
      l.hdr.wcount ≤ l.items ∧ w = endToken) :=
  ⟨{ small {} with launches := [(0, { launch0 with hdr := { hdr0 with persist := true, wcount := 1, wlist := 0x10000004000#64 }, items := 1 })], queries := [{ id := 5, lid := 0, gid := 0, core := 0, off := 0x1FFF8, answer := none }] },
   0, { id := 5, lid := 0, gid := 0, core := 0, off := 0x1FFF8, answer := none },
   { launch0 with hdr := { hdr0 with persist := true, wcount := 1, wlist := 0x10000004000#64 }, items := 1 },
   endToken, by decide +kernel, rfl, .inr ⟨by decide, rfl⟩⟩

theorem witness_answer : ∃ (s : State) (id : _) (q : _) (w : _) (u : _) (v : _),
    s.queries.find? (fun q => q.id = id) = some q ∧
    q.answer = some w ∧
    u = feFirst s q.core q.off 8 ∧
    u.queries.any (fun x => x.core = q.core && x.off = q.off && x.answer.isSome && decide (x.id < id)) = false ∧
    v = setFull (writePlace { u with queries := u.queries.filter (fun x => x.id != id) } q.core (.spad q.core q.off)
      (wordBytes w) false) q.core q.off true ∧
    fullBit (u.core q.core) q.off = false ∧
    feNext v q.core q.off = none :=
  ⟨{ at0 {} with queries := [{ id := 5, lid := 0, gid := 0, core := 0, off := 0x1FFF8, answer := some 7#64 }] }, 5,
   { id := 5, lid := 0, gid := 0, core := 0, off := 0x1FFF8, answer := some 7#64 }, 7#64, _, _, rfl, rfl, rfl,
   by first | rfl | decide, rfl, by first | rfl | decide, by first | rfl | decide⟩

theorem witness_answer_held : ∃ (s : State) (id : _) (q : _) (w : _) (u : _) (v : _),
    s.queries.find? (fun q => q.id = id) = some q ∧
    q.answer = some w ∧
    u = feFirst s q.core q.off 8 ∧
    u.queries.any (fun x => x.core = q.core && x.off = q.off && x.answer.isSome && decide (x.id < id)) = false ∧
    v = setFull (writePlace { u with queries := u.queries.filter (fun x => x.id != id) } q.core (.spad q.core q.off)
      (wordBytes w) false) q.core q.off true ∧
    fullBit (u.core q.core) q.off = true :=
  ⟨{ at0 {full := [0x3FFF]} with queries := [{ id := 5, lid := 0, gid := 0, core := 0, off := 0x1FFF8, answer := some 7#64 }] },
   5, { id := 5, lid := 0, gid := 0, core := 0, off := 0x1FFF8, answer := some 7#64 }, 7#64, _, _, rfl, rfl, rfl,
   by first | rfl | decide, rfl, by first | rfl | decide⟩

theorem witness_launch_over : ∃ (s : State) (lid : _) (l : _),
    s.launch? lid = some l ∧
    l.done = false ∧
    l.bands.all (· = .ended) = true ∧
    writesInFlight s lid = false ∧
    NoAct s (.launchCompletion lid) ∧
    l.hdr.done = 0#64 ∧
    l.node = none ∧
    l.lid = lid :=
  ⟨{ launches := [(0, { launch0 with bands := [.ended] })] }, 0, { launch0 with bands := [.ended] }, rfl,
   by first | rfl | decide, by first | rfl | decide, by first | rfl | decide, noAct_of rfl, by first | rfl | decide,
   by first | rfl | decide, rfl⟩

theorem witness_completion_status : ∃ (s : State) (lid : _) (l : _) (u : _),
    s.launch? lid = some l ∧
    l.done = false ∧
    l.bands.all (· = .ended) = true ∧
    writesInFlight s lid = false ∧
    NoAct s (.launchCompletion lid) ∧
    l.hdr.done ≠ 0#64 ∧
    l.wrote = 0 ∧
    (∀ p, distPlace s l.part l.hdr.proc (l.hdr.done + 8#64) (.amo true) = some p →
      InTurn s (.launchCompletion lid) p true) ∧
    distAtomic s l.part l.hdr.proc lid (l.hdr.done + 8#64) .or (l.status.zeroExtend 64) = (u, .made) :=
  ⟨{ small {} with launches := [(0, { launch0 with bands := [.ended], hdr := { hdr0 with done := 0x10000004100#64, doneadd := 1#64 }, wrote := 0 })] },
   0, { launch0 with bands := [.ended], hdr := { hdr0 with done := 0x10000004100#64, doneadd := 1#64 }, wrote := 0 },
   _, rfl, by first | rfl | decide, by first | rfl | decide, by first | rfl | decide, noAct_of rfl,
   by first | rfl | decide, by first | rfl | decide, fun _ _ => inTurn_of rfl, pair_snd (by decide +kernel)⟩

theorem witness_completion_unwritten : ∃ (s : State) (lid : _) (l : _) (u : _),
    s.launch? lid = some l ∧
    l.done = false ∧
    l.bands.all (· = .ended) = true ∧
    writesInFlight s lid = false ∧
    NoAct s (.launchCompletion lid) ∧
    l.hdr.done ≠ 0#64 ∧
    l.wrote = 0 ∧
    (∀ p, distPlace s l.part l.hdr.proc (l.hdr.done + 8#64) (.amo true) = some p →
      InTurn s (.launchCompletion lid) p true) ∧
    distAtomic s l.part l.hdr.proc lid (l.hdr.done + 8#64) .or (l.status.zeroExtend 64) = (u, .failed) :=
  ⟨{ small {} with launches := [(0, { launch0 with bands := [.ended], hdr := { hdr0 with done := 0x100000000#64, doneadd := 1#64 }, wrote := 0 })] },
   0, { launch0 with bands := [.ended], hdr := { hdr0 with done := 0x100000000#64, doneadd := 1#64 }, wrote := 0 },
   _, rfl, by first | rfl | decide, by first | rfl | decide, by first | rfl | decide, noAct_of rfl,
   by first | rfl | decide, by first | rfl | decide, fun _ _ => inTurn_of rfl, pair_snd (by decide +kernel)⟩

theorem witness_completion_done : ∃ (s : State) (lid : _) (l : _) (u : _),
    s.launch? lid = some l ∧
    l.done = false ∧
    l.bands.all (· = .ended) = true ∧
    writesInFlight s lid = false ∧
    NoAct s (.launchCompletion lid) ∧
    l.hdr.done ≠ 0#64 ∧
    l.wrote = 1 ∧
    (∀ p, distPlace s l.part l.hdr.proc l.hdr.done (.amo true) = some p → InTurn s (.launchCompletion lid) p true) ∧
    distAtomic s l.part l.hdr.proc lid l.hdr.done .add l.hdr.doneadd = (u, .made) :=
  ⟨{ small {} with launches := [(0, { launch0 with bands := [.ended], hdr := { hdr0 with done := 0x10000004100#64, doneadd := 1#64 }, wrote := 1 })] },
   0, { launch0 with bands := [.ended], hdr := { hdr0 with done := 0x10000004100#64, doneadd := 1#64 }, wrote := 1 },
   _, rfl, by first | rfl | decide, by first | rfl | decide, by first | rfl | decide, noAct_of rfl,
   by first | rfl | decide, by first | rfl | decide, fun _ _ => inTurn_of rfl, pair_snd (by decide +kernel)⟩

theorem witness_nothing_ready : ∃ (s : State) (p : _),
    readyOrder s p = [] :=
  ⟨{}, 0, by first | rfl | decide⟩

theorem witness_placement : ∃ (s : State) (p : _) (l : _) (ls : _) (b : _) (cores : _) (u : _),
    readyOrder s p = l :: ls ∧
    planOf s l = some (.fresh b cores) ∧
    placeFresh s l b cores = (u, true) :=
  ⟨{ small {} with launches := [(0, launch1)] }, 0, launch1, [], 0, [(0, 0)], _, by decide +kernel,
   by decide +kernel, pair_snd (by decide +kernel)⟩

theorem witness_placed_thread : ∃ (s : State) (c : _) (slot : _),
    lowestSlot (s.core c) 0 4080 = some slot ∧
    coreStopping s c = false :=
  ⟨{}, 0, 0, rfl, by first | rfl | decide⟩

theorem witness_quantum_ended : ∃ (s : State) (lid : _) (l : _),
    s.launch? lid = some l ∧
    l.hdr.quantum ≠ 0 ∧
    l.hdr.quantum ≤ l.ran ∧
    l.preempting = false ∧
    l.done = false ∧
    l.bands.all (· = .ended) = true :=
  ⟨{ launches := [(0, { launch0 with hdr := { hdr0 with quantum := 1 }, ran := 1, bands := [.ended] })] }, 0,
   { launch0 with hdr := { hdr0 with quantum := 1 }, ran := 1, bands := [.ended] }, rfl, by first | rfl | decide,
   by first | rfl | decide, by first | rfl | decide, by first | rfl | decide, by first | rfl | decide⟩

theorem witness_quantum_again : ∃ (s : State) (lid : _) (l : _) (gs : _),
    s.launch? lid = some l ∧
    l.hdr.quantum ≠ 0 ∧
    l.hdr.quantum ≤ l.ran ∧
    l.preempting = false ∧
    l.done = false ∧
    l.bands.all (· = .ended) = false ∧
    gs = (s.groups.map (·.2)).filter (fun g => g.lid = lid && running s g) ∧
    gs ≠ [] ∧
    l.victim = false :=
  ⟨{ at0 core1 with groups := [(0, group0)], launches := [(0, { launch0 with hdr := { hdr0 with quantum := 1 }, ran := 1 })] },
   0, { launch0 with hdr := { hdr0 with quantum := 1 }, ran := 1 }, _, rfl, by first | rfl | decide,
   by first | rfl | decide, by first | rfl | decide, by first | rfl | decide, by first | rfl | decide, rfl,
   by decide +kernel, by first | rfl | decide⟩

theorem witness_quantum_preempted : ∃ (s : State) (lid : _) (l : _) (gs : _),
    s.launch? lid = some l ∧
    l.hdr.quantum ≠ 0 ∧
    l.hdr.quantum ≤ l.ran ∧
    l.preempting = false ∧
    l.done = false ∧
    l.bands.all (· = .ended) = false ∧
    gs = (s.groups.map (·.2)).filter (fun g => g.lid = lid && running s g) ∧
    gs ≠ [] ∧
    l.victim = true :=
  ⟨{ at0 core1 with groups := [(0, group0)], launches := [(0, { launch0 with hdr := { hdr0 with quantum := 1 }, ran := 1, victim := true })] },
   0, { launch0 with hdr := { hdr0 with quantum := 1 }, ran := 1, victim := true }, _, rfl, by first | rfl | decide,
   by first | rfl | decide, by first | rfl | decide, by first | rfl | decide, by first | rfl | decide, rfl,
   by decide +kernel, by first | rfl | decide⟩

theorem witness_save_empty : ∃ (s : State) (gid : _) (g : Group) (l : _),
    s.group? gid = some g ∧
    s.launch? g.lid = some l ∧
    l.preempting = true ∧
    g.saved = none ∧
    members s g = [] :=
  ⟨{ groups := [(0, group0)], launches := [(0, { launch0 with preempting := true })] }, 0, group0,
   { launch0 with preempting := true }, rfl, rfl, by first | rfl | decide, by first | rfl | decide,
   by first | rfl | decide⟩

theorem witness_save : ∃ (s : State) (gid : _) (g : Group) (l : _),
    s.group? gid = some g ∧
    s.launch? g.lid = some l ∧
    l.preempting = true ∧
    g.saved = none ∧
    canSave s g = true :=
  ⟨{ at0 { threads := [(0, { hold := true })] } with groups := [(0, group0)], launches := [(0, { launch0 with preempting := true })] },
   0, group0, { launch0 with preempting := true }, rfl, rfl, by first | rfl | decide, by first | rfl | decide,
   by decide +kernel⟩

theorem witness_create_present : ∃ (s : State) (p : _),
    p < 64 ∧
    (s.part p).state ≠ .absent :=
  ⟨{ parts := [(63, { state := .busy })] }, 63, by first | rfl | decide, by decide⟩

theorem witness_create_bad : ∃ (s : State) (p : _),
    p < 64 ∧
    (s.part p).state = .absent ∧
    pcbBad s p = true :=
  ⟨{}, 63, by first | rfl | decide, by first | rfl | decide, by first | rfl | decide⟩

theorem witness_create : ∃ (s : State) (p : _) (tab : _),
    p < 64 ∧
    (s.part p).state = .absent ∧
    pcbBad s p = false ∧
    tab = readTable s (partWord s p 1).toNat (ccountOf s p) ∧
    createCheck s p tab = 0 :=
  ⟨{ cores := [(500, { l1 := (List.range 4).map (fun i => (0x200 + i, tabLine i)) })],
     dir := (List.range 4).map (fun i => (0x200 + i, { st := .e, ptrs := [500] })),
     parts := [(0, { words := [(0, 0x0001001010000080#64), (1, 0x8000#64), (3, 0x1000#64), (4, 0x100000#64), (5, 16#64)] })] },
   0, List.range 128, by first | rfl | decide, by first | rfl | decide, by decide +kernel, by decide +kernel,
   by decide +kernel⟩

theorem witness_reset : ∃ (s : State) (p : _),
    p < 64 ∧
    (s.part p).state = .active :=
  ⟨{ parts := [(63, { state := .active })] }, 63, by first | rfl | decide, by first | rfl | decide⟩

theorem witness_reset_absent : ∃ (s : State) (p : _),
    p < 64 ∧
    (s.part p).state ≠ .active :=
  ⟨{}, 63, by first | rfl | decide, by decide⟩

theorem witness_pcb_word : ∃ (s : State) (p : _) (w : Nat),
    p < 64 ∧
    w ≤ 8 ∧
    (s.part p).state = .absent :=
  ⟨{}, 63, 8, by first | rfl | decide, by first | rfl | decide, by first | rfl | decide⟩

theorem witness_reset_over : ∃ (s : State) (p : _) (u : _) (v : _),
    (s.part p).state = .busy ∧
    s.cmds.any (fun x => x.2.part = p) = false ∧
    u = evictCores (discardQueues (freeLaunches s p) p) (s.part p).ctab ∧
    (s.part p).ctab.any (agentBusy u) = false ∧
    v = scrub u p ∧
    (u.part p).running = (s.part p).running ∧
    (v.part p).running = (s.part p).running ∧
    (s.part p).running = 2 :=
  ⟨{ parts := [(0, { state := .busy, running := 2 })] }, 0, _, _, by first | rfl | decide, by first | rfl | decide,
   rfl, by decide +kernel, rfl, by decide +kernel, by decide +kernel, by first | rfl | decide⟩

theorem witness_teardown_over : ∃ (s : State) (p : _) (u : _) (v : _),
    (s.part p).state = .busy ∧
    s.cmds.any (fun x => x.2.part = p) = false ∧
    u = evictCores (discardQueues (freeLaunches s p) p) (s.part p).ctab ∧
    (s.part p).ctab.any (agentBusy u) = false ∧
    v = scrub u p ∧
    (u.part p).running = (s.part p).running ∧
    (v.part p).running = (s.part p).running ∧
    (s.part p).running = 3 :=
  ⟨{ parts := [(0, { state := .busy, running := 3 })] }, 0, _, _, by first | rfl | decide, by first | rfl | decide,
   rfl, by decide +kernel, rfl, by decide +kernel, by decide +kernel, by first | rfl | decide⟩

theorem witness_hist_config : ∃ (x : _) (v : Word),
    x < 8 ∧
    v.toNat / 16 % 256 ≤ 5 ∧
    v.getLsbD 1 = false :=
  ⟨7, 0x50#64, by first | rfl | decide, by first | rfl | decide, by first | rfl | decide⟩

theorem witness_hist_config_refused : ∃ (x : _) (v : Word),
    x < 8 ∧
    5 < v.toNat / 16 % 256 :=
  ⟨7, 0x60#64, by first | rfl | decide, by first | rfl | decide⟩

theorem witness_hist_sample : ∃ (s : State) (p : _) (x : _) (h : Hist),
    x < 8 ∧
    h = histOf s p x ∧
    h.cfg.getLsbD 0 = true ∧
    h.cfg.getLsbD 2 = false :=
  ⟨{ parts := [(0, { hists := [(7, { cfg := 1#16 })] })] }, 0, 7, _, by first | rfl | decide, rfl,
   by first | rfl | decide, by first | rfl | decide⟩

/-- A message of core 3 about line 5. -/
def msg (k : MsgKind) (gen : BitVec 16 := 0#16) : Msg := { kind := k, line := 5, agent := 3, gen := gen }
/-- The message is the next of its path, and the line's directory entry is `e`. -/
def sent (m : Msg) (e : DirEntry := {}) : State := { msgs := [m], dir := [(5, e)] }
def cmd0 : Cmd :=
  { id := 9, instr := .copy 0#3 { cpl := 7#7, val := 8#7, ms := 0#7, mode := 1#2 }
      { dst := 1#7, src := 2#7, rows := 3#7, rowb := 4#7, ss := 5#7, ds := 6#7 },
    thread := ⟨3, 0⟩, core := 3, gid := 0, lid := 0 }

theorem witness_old_generation : ∃ (ev : Nat → Nat → Instr) (k : MsgKind) (s : State) (m : Msg) (u : _) (e : DirEntry),
    (ev, k) ∈ [(Instr.rd, MsgKind.rd), (.rdx, .rdx), (.upg, .upg), (.amo, .amo), (.pin, .pin)] ∧
    Arrives (isMsg k m.line m.agent) s m u ∧
    e = dirOf u m.line ∧
    m.gen ≠ keptGen u m.line m.agent :=
  ⟨.rd, .rd, sent (msg .rd 1#16) {}, msg .rd 1#16, _, _, by simp, ⟨_, rfl, rfl⟩, rfl, by decide⟩

theorem witness_queued : ∃ (ev : Nat → Nat → Instr) (k : MsgKind) (s : State) (m : Msg) (u : _) (e : DirEntry),
    (ev, k) ∈ [(Instr.rd, MsgKind.rd), (.rdx, .rdx), (.upg, .upg), (.amo, .amo), (.pin, .pin)] ∧
    Arrives (isMsg k m.line m.agent) s m u ∧
    e = dirOf u m.line ∧
    m.gen = keptGen u m.line m.agent ∧
    (e.st = .b ∨ e.st = .r ∨ e.st = .o ∧ k ≠ .pin ∨ e.pins ≠ [] ∧ k ≠ .rd ∧ k ≠ .pin ∨ 15 ≤ e.pins.length ∧ k =
      .pin ∨ k ≠ .pin ∧ ∃ x ∈ e.queue, x.kind = .act) :=
  ⟨.rdx, .rdx, sent (msg .rdx) { st := .o }, msg .rdx, _, _, by simp, ⟨_, rfl, rfl⟩, rfl, by decide,
   .inr (.inr (.inl ⟨rfl, nofun⟩))⟩

theorem witness_queued_pin : ∃ (ev : Nat → Nat → Instr) (k : MsgKind) (s : State) (m : Msg) (u : _) (e : DirEntry),
    (ev, k) ∈ [(Instr.rd, MsgKind.rd), (.rdx, .rdx), (.upg, .upg), (.amo, .amo), (.pin, .pin)] ∧
    Arrives (isMsg k m.line m.agent) s m u ∧
    e = dirOf u m.line ∧
    m.gen = keptGen u m.line m.agent ∧
    (e.st = .b ∨ e.st = .r ∨ e.st = .o ∧ k ≠ .pin ∨ e.pins ≠ [] ∧ k ≠ .rd ∧ k ≠ .pin ∨ 15 ≤ e.pins.length ∧ k =
      .pin ∨ k ≠ .pin ∧ ∃ x ∈ e.queue, x.kind = .act) :=
  ⟨.pin, .pin, sent (msg .pin) { pins := List.replicate 15 4 }, msg .pin, _, _, by simp, ⟨_, rfl, rfl⟩, rfl,
   by decide, .inr (.inr (.inr (.inr (.inl ⟨by decide, rfl⟩))))⟩

theorem witness_recall : ∃ (ev : Nat → Nat → Instr) (k : MsgKind) (s : State) (m : Msg) (u : _) (e : DirEntry) (x : _),
    (ev, k) ∈ [(Instr.rd, MsgKind.rd), (.rdx, .rdx), (.upg, .upg), (.amo, .amo), (.pin, .pin)] ∧
    Arrives (isMsg k m.line m.agent) s m u ∧
    e = dirOf u m.line ∧
    m.gen = keptGen u m.line m.agent ∧
    e.st = .e ∧
    e.mode = false ∧
    e.pins = [] ∧
    e.queue = [] ∧
    e.ptrs = [x] ∧
    (k = .pin ∨ k = .amo ∨ x ≠ m.agent) :=
  ⟨.upg, .upg, sent (msg .upg) { st := .e, ptrs := [4] }, msg .upg, _, _, 4, by simp, ⟨_, rfl, rfl⟩, rfl, by decide,
   by first | rfl | decide, by first | rfl | decide, by first | rfl | decide, by first | rfl | decide, rfl, by decide⟩

theorem witness_invalidate : ∃ (ev : Nat → Nat → Instr) (k : MsgKind) (s : State) (m : Msg) (u : _) (e : DirEntry) (xs : _),
    (ev, k) ∈ [(Instr.rd, MsgKind.rd), (.rdx, .rdx), (.upg, .upg), (.amo, .amo), (.pin, .pin)] ∧
    Arrives (isMsg k m.line m.agent) s m u ∧
    e = dirOf u m.line ∧
    m.gen = keptGen u m.line m.agent ∧
    (k = .rdx ∨ k = .upg) ∧
    e.st = .s ∧
    e.mode = false ∧
    e.pins = [] ∧
    e.queue = [] ∧
    xs = e.ptrs.filter (· != m.agent) ∧
    xs ≠ [] :=
  ⟨.rdx, .rdx, sent (msg .rdx) { st := .s, ptrs := [3, 4] }, msg .rdx, _, _, _, by simp, ⟨_, rfl, rfl⟩, rfl,
   by decide, .inl rfl, by first | rfl | decide, by first | rfl | decide, by first | rfl | decide,
   by first | rfl | decide, rfl, by decide⟩

theorem witness_rd : ∃ (s : State) (m : Msg) (u : _) (e : DirEntry) (key : Nat),
    Arrives (isMsg .rd m.line m.agent) s m u ∧
    e = dirOf u m.line ∧
    m.gen = keptGen u m.line m.agent ∧
    (e.st = .i ∨ e.st = .s) ∧
    e.queue = [] ∧
    EntryRoom u m.line ∧
    isL1 m.agent = true ∧
    key = lineKey u (64 * m.line) ∧
    L1Room u m.agent key :=
  ⟨sent (msg .rd) {}, msg .rd, _, _, _, ⟨_, rfl, rfl⟩, rfl, by decide, .inl rfl, by first | rfl | decide,
   .inr (by decide), by first | rfl | decide, rfl, ⟨rfl, by decide⟩⟩

theorem witness_rdx : ∃ (ev : Nat → Nat → Instr) (k : MsgKind) (s : State) (m : Msg) (u : _) (e : DirEntry) (key : Nat),
    (ev, k) ∈ [(Instr.rdx, MsgKind.rdx), (.upg, .upg)] ∧
    Arrives (isMsg k m.line m.agent) s m u ∧
    e = dirOf u m.line ∧
    m.gen = keptGen u m.line m.agent ∧
    (e.st = .i ∨ e.st = .s) ∧
    e.mode = false ∧
    (∀ x ∈ e.ptrs, x = m.agent) ∧
    e.pins = [] ∧
    e.queue = [] ∧
    watched u m.line = false ∧
    EntryRoom u m.line ∧
    isL1 m.agent = true ∧
    key = lineKey u (64 * m.line) ∧
    (L1Room u m.agent key ∨ ∃ l, Map.get? (u.core m.agent).l1 key = some l ∧ l.st = .s) :=
  ⟨.rdx, .rdx, sent (msg .rdx) {}, msg .rdx, _, _, _, by simp, ⟨_, rfl, rfl⟩, rfl, by decide, .inl rfl,
   by first | rfl | decide, nofun, by first | rfl | decide, by first | rfl | decide, by first | rfl | decide,
   .inr (by decide), by first | rfl | decide, rfl, .inl ⟨rfl, by decide⟩⟩

theorem witness_upg : ∃ (ev : Nat → Nat → Instr) (k : MsgKind) (s : State) (m : Msg) (u : _) (e : DirEntry) (key : Nat),
    (ev, k) ∈ [(Instr.rdx, MsgKind.rdx), (.upg, .upg)] ∧
    Arrives (isMsg k m.line m.agent) s m u ∧
    e = dirOf u m.line ∧
    m.gen = keptGen u m.line m.agent ∧
    (e.st = .i ∨ e.st = .s) ∧
    e.mode = false ∧
    (∀ x ∈ e.ptrs, x = m.agent) ∧
    e.pins = [] ∧
    e.queue = [] ∧
    watched u m.line = false ∧
    EntryRoom u m.line ∧
    isL1 m.agent = true ∧
    key = lineKey u (64 * m.line) ∧
    (L1Room u m.agent key ∨ ∃ l, Map.get? (u.core m.agent).l1 key = some l ∧ l.st = .s) :=
  ⟨.upg, .upg,
   { sent (msg .upg) { st := .s, ptrs := [3] } with cores := [(3, { l1 := [(5, { st := .s, kind := .coherent, data := aLine })] })] },
   msg .upg, _, _, _, by simp, ⟨_, rfl, rfl⟩, rfl, by decide, .inr rfl, by first | rfl | decide, by decide,
   by first | rfl | decide, by first | rfl | decide, by first | rfl | decide, .inr (by decide),
   by first | rfl | decide, rfl, .inr ⟨{ st := .s, kind := .coherent, data := aLine }, by decide, rfl⟩⟩

theorem witness_amo : ∃ (s : State) (m : Msg) (u : _) (e : DirEntry),
    Arrives (isMsg .amo m.line m.agent) s m u ∧
    e = dirOf u m.line ∧
    m.gen = keptGen u m.line m.agent ∧
    e.st = .i ∧
    e.mode = false ∧
    e.ptrs = [] ∧
    e.pins = [] ∧
    e.queue = [] :=
  ⟨sent (msg .amo) {}, msg .amo, _, _, ⟨_, rfl, rfl⟩, rfl, by decide, by first | rfl | decide,
   by first | rfl | decide, by first | rfl | decide, by first | rfl | decide, by first | rfl | decide⟩

theorem witness_own : ∃ (s : State) (m : Msg) (u : _) (e : DirEntry) (id : _) (c : Cmd),
    Arrives (fun m' => m'.kind = .own && m'.line = m.line && m'.cmd = some id) s m u ∧
    e = dirOf u m.line ∧
    e.st = .i ∧
    e.mode = false ∧
    e.ptrs = [] ∧
    e.pins = [] ∧
    e.queue = [] ∧
    EntryRoom u m.line ∧
    Map.get? u.cmds id = some c :=
  ⟨{ sent ({ msg .own with cmd := some 9 }) {} with cmds := [(9, cmd0)] }, { msg .own with cmd := some 9 }, _, _, 9,
   _, ⟨_, rfl, rfl⟩, rfl, by first | rfl | decide, by first | rfl | decide, by first | rfl | decide,
   by first | rfl | decide, by first | rfl | decide, .inr (by decide), rfl⟩

theorem witness_pin : ∃ (s : State) (m : Msg) (u : _) (e : DirEntry) (id : _) (c : Cmd),
    Arrives (isMsg .pin m.line m.agent) s m u ∧
    m.cmd = some id ∧
    e = dirOf u m.line ∧
    m.gen = keptGen u m.line m.agent ∧
    (e.st = .i ∨ e.st = .s) ∧
    e.pins.length < 15 ∧
    EntryRoom u m.line ∧
    Map.get? u.cmds id = some c :=
  ⟨{ sent ({ msg .pin with cmd := some 9 }) {} with cmds := [(9, cmd0)] }, { msg .pin with cmd := some 9 }, _, _, 9,
   _, ⟨_, rfl, rfl⟩, rfl, rfl, by decide, .inl rfl, by first | rfl | decide, .inr (by decide), rfl⟩

theorem witness_pin_drop : ∃ (s : State) (m : Msg) (u : _) (e : DirEntry),
    Arrives (isMsg .pinDrop m.line m.agent) s m u ∧
    e = dirOf u m.line ∧
    e.queue = [] :=
  ⟨sent (msg .pinDrop) { st := .s, pins := [3] }, msg .pinDrop, _, _, ⟨_, rfl, rfl⟩, rfl, by first | rfl | decide⟩

theorem witness_answer_late : ∃ (s : State) (m : Msg) (u : _) (e : DirEntry),
    Arrives (isMsg .answer m.line m.agent) s m u ∧
    e = dirOf u m.line ∧
    (e.st ≠ .b ∨ e.asked.contains m.agent = false ∨ m.gen ≠ keptGen u m.line m.agent) :=
  ⟨sent (msg .answer) {}, msg .answer, _, _, ⟨_, rfl, rfl⟩, rfl, .inl (by decide)⟩

theorem witness_answer_first : ∃ (s : State) (m : Msg) (u : _) (e : DirEntry) (v : _),
    Arrives (isMsg .answer m.line m.agent) s m u ∧
    e = dirOf u m.line ∧
    e.st = .b ∧
    e.asked.contains m.agent = true ∧
    m.gen = keptGen u m.line m.agent ∧
    m.data = none ∧
    v = putDir u m.line { e with asked := e.asked.filter (· != m.agent),
                                 ptrs := if m.keep then e.ptrs else e.ptrs.filter (· != m.agent) } ∧
    e.asked.filter (· != m.agent) ≠ [] :=
  ⟨sent (msg .answer) { st := .b, ptrs := [3, 4], asked := [3, 4] }, msg .answer, _, _, _, ⟨_, rfl, rfl⟩, rfl,
   by first | rfl | decide, by first | rfl | decide, by decide, by first | rfl | decide, rfl, by decide⟩

theorem witness_answer_last : ∃ (s : State) (m : Msg) (u : _) (e : DirEntry) (v : _),
    Arrives (isMsg .answer m.line m.agent) s m u ∧
    e = dirOf u m.line ∧
    e.st = .b ∧
    e.asked.contains m.agent = true ∧
    m.gen = keptGen u m.line m.agent ∧
    m.data = none ∧
    v = putDir u m.line { e with asked := e.asked.filter (· != m.agent),
                                 ptrs := if m.keep then e.ptrs else e.ptrs.filter (· != m.agent) } ∧
    e.asked.filter (· != m.agent) = [] :=
  ⟨sent (msg .answer) { st := .b, ptrs := [3], asked := [3] }, msg .answer, _, _, _, ⟨_, rfl, rfl⟩, rfl,
   by first | rfl | decide, by first | rfl | decide, by decide, by first | rfl | decide, rfl, by decide⟩

theorem witness_write_back_late : ∃ (ev : Nat → Nat → Instr) (k : MsgKind) (s : State) (m : Msg) (u : _) (e : DirEntry),
    (ev, k) ∈ [(Instr.wb, MsgKind.wb), (.wbk, .wbk), (.put, .put)] ∧
    Arrives (isMsg k m.line m.agent) s m u ∧
    e = dirOf u m.line ∧
    m.gen ≠ keptGen u m.line m.agent :=
  ⟨.wb, .wb, sent (msg .wb 1#16) {}, msg .wb 1#16, _, _, by simp, ⟨_, rfl, rfl⟩, rfl, by decide⟩

theorem witness_write_back : ∃ (ev : Nat → Nat → Instr) (k : MsgKind) (s : State) (m : Msg) (u : _) (e : DirEntry),
    (ev, k) ∈ [(Instr.wb, MsgKind.wb), (.wbk, .wbk), (.put, .put)] ∧
    Arrives (isMsg k m.line m.agent) s m u ∧
    e = dirOf u m.line ∧
    m.gen = keptGen u m.line m.agent ∧
    e.st = .e ∧
    e.ptrs = [m.agent] ∧
    m.gen = e.gen ∧
    e.queue = [] ∧
    watched u m.line = false :=
  ⟨.wbk, .wbk, sent ({ msg .wbk with data := some aLine }) { st := .e, ptrs := [3] },
   { msg .wbk with data := some aLine }, _, _, by simp, ⟨_, rfl, rfl⟩, rfl, by decide, by first | rfl | decide,
   by first | rfl | decide, by first | rfl | decide, by first | rfl | decide, by first | rfl | decide⟩

theorem witness_inv_absent : ∃ (ev : Nat → Nat → Instr) (k : MsgKind) (s : State) (m : Msg) (u : _) (key : Nat),
    (ev, k) ∈ [(Instr.inv, MsgKind.inv), (.rcl, .rcl), (.dwg, .dwg)] ∧
    Arrives (isMsg k m.line m.agent) s m u ∧
    isL1 m.agent = true ∧
    key = lineKey u (64 * m.line) ∧
    (u.core m.agent).fenced = false ∧
    Map.get? (u.core m.agent).l1 key = none :=
  ⟨.inv, .inv, sent (msg .inv) {}, msg .inv, _, _, by simp, ⟨_, rfl, rfl⟩, by first | rfl | decide, rfl,
   by first | rfl | decide, by decide⟩

theorem witness_dwg : ∃ (ev : Nat → Nat → Instr) (k : MsgKind) (s : State) (m : Msg) (u : _) (key : Nat) (l : _),
    (ev, k) ∈ [(Instr.inv, MsgKind.inv), (.rcl, .rcl), (.dwg, .dwg)] ∧
    Arrives (isMsg k m.line m.agent) s m u ∧
    isL1 m.agent = true ∧
    key = lineKey u (64 * m.line) ∧
    (u.core m.agent).fenced = false ∧
    Map.get? (u.core m.agent).l1 key = some l :=
  ⟨.dwg, .dwg,
   { sent (msg .dwg) { st := .b } with cores := [(3, { l1 := [(5, { st := .m, kind := .coherent, data := aLine })] })] },
   msg .dwg, _, _, { st := .m, kind := .coherent, data := aLine }, by simp, ⟨_, rfl, rfl⟩, by first | rfl | decide,
   rfl, by first | rfl | decide, by decide⟩

theorem witness_ack : ∃ (s : State) (m : Msg) (u : _) (v : _),
    Arrives (isMsg .ack m.line m.agent) s m u ∧
    isL1 m.agent = true ∧
    v = u.modCore m.agent (fun k => { k with xbuf := Map.erase k.xbuf (lineKey u (64 * m.line)) }) :=
  ⟨sent (msg .ack) {}, msg .ack, _, _, ⟨_, rfl, rfl⟩, by first | rfl | decide, rfl⟩

theorem witness_nack : ∃ (s : State) (m : Msg) (u : _) (c : _) (slot : _) (t : Thread) (a : _),
    Arrives (isMsg .nack m.line m.agent) s m u ∧
    m.thread = some ⟨c, slot⟩ ∧
    m.cmd = none ∧
    m.rid = none ∧
    Waits u c slot t (.access a) :=
  ⟨{ sw (.access { units := [], fin := .none, checked := true, issued := 0, load := true, auto := false, sup := false }) with msgs := [{ msg .nack with thread := some ⟨0, 0⟩ }] },
   { msg .nack with thread := some ⟨0, 0⟩ }, _, _, _, _, _, ⟨_, rfl, rfl⟩, rfl, by first | rfl | decide,
   by first | rfl | decide, ⟨rfl, rfl, .inl rfl, rfl, rfl⟩⟩

theorem witness_ew : ∃ (ev : Nat → Nat → Instr) (k : MsgKind) (s : State) (m : Msg) (u : _) (e : DirEntry) (id : _) (c : Cmd),
    (ev, k) ∈ [(Instr.ew, MsgKind.ew), (.rel, .rel)] ∧
    Arrives (fun m' => m'.kind = k && m'.line = m.line && m'.cmd = some id) s m u ∧
    e = dirOf u m.line ∧
    e.st = .o ∧
    e.cmd = some id ∧
    e.queue = [] ∧
    watched u m.line = false ∧
    Map.get? u.cmds id = some c ∧
    m.gen = keptGen u m.line m.agent :=
  ⟨.ew, .ew, { sent ({ msg .ew with cmd := some 9 }) { st := .o, cmd := some 9 } with cmds := [(9, cmd0)] },
   { msg .ew with cmd := some 9 }, _, _, 9, _, by simp, ⟨_, rfl, rfl⟩, rfl, by first | rfl | decide, rfl,
   by first | rfl | decide, by first | rfl | decide, rfl, by decide⟩

theorem witness_ew_expired : ∃ (ev : Nat → Nat → Instr) (k : MsgKind) (s : State) (m : Msg) (u : _) (e : DirEntry) (id : _) (c : Cmd),
    (ev, k) ∈ [(Instr.ew, MsgKind.ew), (.rel, .rel)] ∧
    Arrives (fun m' => m'.kind = k && m'.line = m.line && m'.cmd = some id) s m u ∧
    e = dirOf u m.line ∧
    e.st = .o ∧
    e.cmd = some id ∧
    e.queue = [] ∧
    watched u m.line = false ∧
    Map.get? u.cmds id = some c ∧
    m.gen ≠ keptGen u m.line m.agent :=
  ⟨.rel, .rel, { sent ({ msg .rel 1#16 with cmd := some 9 }) { st := .o, cmd := some 9 } with cmds := [(9, cmd0)] },
   { msg .rel 1#16 with cmd := some 9 }, _, _, 9, _, by simp, ⟨_, rfl, rfl⟩, rfl, by first | rfl | decide, rfl,
   by first | rfl | decide, by first | rfl | decide, rfl, by decide⟩

theorem witness_renewal : ∃ (s : State) (die : _) (a : _) (l : Lease),
    l = leaseOf s die a ∧
    l.held = l.gen :=
  ⟨{}, 3, 0x81F, _, rfl, by first | rfl | decide⟩

theorem witness_renewal_lost : ∃ (s : State) (die : _) (a : _) (l : Lease),
    l = leaseOf s die a ∧
    l.held ≠ l.gen :=
  ⟨{ leases := [(3, { gen := 1#16 })] }, 0, 3, _, rfl, by decide⟩

theorem witness_lease_runs : ∃ (s : State) (die : _) (a : _) (l : Lease),
    l = leaseOf s die a ∧
    (s.now < l.last + 2 ^ 20 ∨ l.expired = true) :=
  ⟨{ now := 0xFFFFF }, 0, 3, _, rfl, by first | rfl | decide⟩

theorem witness_lease_expires : ∃ (s : State) (die : _) (a : _) (l : Lease) (x : _) (xs : _),
    l = leaseOf s die a ∧
    l.expired = false ∧
    l.last + 2 ^ 20 ≤ s.now ∧
    namedLines s die a = x :: xs :=
  ⟨{ now := 0x100000, dir := [(5, { st := .e, ptrs := [3] })] }, 0, 3, _, _, _, rfl, by first | rfl | decide,
   by first | rfl | decide, rfl⟩

theorem witness_resolve : ∃ (s : State) (a : _) (line : _) (e : _),
    e = dirOf s line ∧
    e.ptrs = [a] ∧
    e.queue = [] ∧
    e.st = .e :=
  ⟨{ dir := [(5, { st := .e, ptrs := [3] })] }, 3, 5, _, rfl, by first | rfl | decide, by first | rfl | decide,
   by first | rfl | decide⟩

theorem witness_resolve_watched : ∃ (s : State) (a : _) (line : _) (e : _),
    e = dirOf s line ∧
    e.ptrs = [a] ∧
    e.queue = [] ∧
    e.st = .e ∧
    watched s line = true :=
  ⟨{ dir := [(5, { st := .e, ptrs := [3] })], watches := [{ place := .page .coherent 0 0x140, thread := ⟨3, 0⟩, kind := .watch }] },
   3, 5, _, rfl, by first | rfl | decide, by first | rfl | decide, by first | rfl | decide, by first | rfl | decide⟩

theorem witness_self_limit : ∃ (s : State) (die : _) (a : _),
    isL1 a = true ∧
    (leaseOf s die a).ack + 786432 ≤ (s.core a).cyc ∧
    ((agentLines s die a).1 ≠ [] ∨ namedLines s die a ≠ []) :=
  ⟨{ cores := [(3, { cyc := 786432, l1 := [(5, { st := .m, kind := .coherent, data := aLine })] })] }, 0, 3,
   by first | rfl | decide, by first | rfl | decide, by decide⟩

theorem witness_self_limit_runs : ∃ (s : State) (die : _) (a : _),
    isL1 a = true ∧
    (s.core a).cyc < (leaseOf s die a).ack + 786432 :=
  ⟨{ cores := [(3, { cyc := 786431 })] }, 0, 3, by first | rfl | decide, by first | rfl | decide⟩

def errOf {ε α : Type} : Except ε α → Option ε
  | .error e => some e
  | .ok _ => none
theorem pair_error {σ ε α : Type} {x : σ × Except ε α} (h : (errOf x.2).isSome = true) :
    x = (x.1, .error ((errOf x.2).get h)) := by
  obtain ⟨s, r⟩ := x
  cases r with
  | error e => rfl
  | ok a => cases h

def cpl0 : Cpl := { cpl := 7#7, val := 8#7, ms := 0#7, mode := 1#2 }
def none0 : Cpl := { cpl := 0#7, val := 0#7, ms := 0#7, mode := 0#2 }
def copy0 : CopyArgs := { dst := 1#7, src := 2#7, rows := 3#7, rowb := 4#7, ss := 5#7, ds := 6#7 }
/-- Command 9 of the thread of core 0: a COPY of one row of 64 bytes within the scratchpad. -/
def cmd1 : Cmd :=
  { id := 9, instr := .copy 0#3 cpl0 copy0, thread := ⟨0, 0⟩, core := 0, gid := 0, lid := 0,
    regs := [(1, 0x1FF00#64), (2, 0x1FE00#64), (3, 1#64), (4, 64#64), (5, 64#64), (6, 64#64), (7, 0x1FD00#64)],
    dst := [(1, .spad 0 0x10000)] }
def running0 (i : Instr) : Cmd := { cmd1 with instr := i, accepted := true, checked := true }
def mma0 : MmaArgs :=
  { zero := false, edge := false, fb := 7#3, fa := 7#3, c := 1#7, a := 2#7, b := 3#7, k := 4#7, lda := 5#7, ldb := 6#7,
    sa := 9#7, sb := 9#7, ia := 9#7, ib := 9#7 }
def fill0 : FillArgs := { dst := 1#7, pat := 2#7, rows := 3#7, rowb := 4#7, ds := 6#7 }
def gath0 (scat : Bool) : GathArgs := { scat := scat, dst := 1#7, src := 2#7, idx := 2#7, n := 3#7, rowb := 4#7, ss := 5#7, ds := 6#7 }
def coll0 : CollArgs := { rf := 0#4, op := 2#2, dst := 1#7, src := 2#7, n := 3#7, tag := 9#7, root := 9#7 }
def enc0 : Enc8Args := { bf16 := true, dat := 1#7, src := 2#7, rows := 3#7, kk := 4#7, stride := 5#7, idx := 9#7, sc := 9#7, off := 9#7 }

theorem witness_engine_busy : ∃ (s : State) (id : _) (c : Cmd),
    Map.get? s.cmds id = some c ∧
    c.accepted = false ∧
    c.checked = false ∧
    engineReady s c = false :=
  ⟨{ sw (.tile 9) with cmds := [(8, { cmd1 with id := 8 }), (9, cmd1)] }, 9, cmd1, rfl, by first | rfl | decide,
   by first | rfl | decide, by decide +kernel⟩

theorem witness_command_refused : ∃ (s : State) (id : _) (c : Cmd) (u : _) (f : FaultInfo),
    Map.get? s.cmds id = some c ∧
    c.accepted = false ∧
    c.checked = false ∧
    engineReady s c = true ∧
    checkCmd s c = (u, .error f) :=
  ⟨{ sw (.tile 9) with cmds := [(9, { cmd1 with regs := [(1, 1#64)] })] }, 9, { cmd1 with regs := [(1, 1#64)] }, _,
   _, rfl, by first | rfl | decide, by first | rfl | decide, by decide +kernel, pair_error (by decide +kernel)⟩

theorem witness_command_owns : ∃ (s : State) (id : _) (c : Cmd) (u : _) (c' : Cmd),
    Map.get? s.cmds id = some c ∧
    c.accepted = false ∧
    c.checked = false ∧
    engineReady s c = true ∧
    checkCmd s c = (u, .ok c') ∧
    c'.toOwn ≠ [] :=
  ⟨hosted { sw (.tile 9) with cmds := [(9, { cmd1 with regs := [(1, 0x10000004000#64), (2, 0x1FE00#64), (3, 1#64), (4, 64#64), (5, 64#64), (6, 64#64), (7, 0x1FD00#64)] })] },
   9,
   { cmd1 with regs := [(1, 0x10000004000#64), (2, 0x1FE00#64), (3, 1#64), (4, 64#64), (5, 64#64), (6, 64#64), (7, 0x1FD00#64)] },
   _, _, rfl, by first | rfl | decide, by first | rfl | decide, by decide +kernel, pair_some (by decide +kernel),
   by decide +kernel⟩

theorem witness_command_accepted : ∃ (s : State) (id : _) (c : Cmd) (u : _) (c' : Cmd) (g : BitVec 3) (w : Cpl) (x : CopyArgs) (core : _) (slot : _) (t
      : Thread),
    Map.get? s.cmds id = some c ∧
    c.accepted = false ∧
    c.checked = false ∧
    engineReady s c = true ∧
    checkCmd s c = (u, .ok c') ∧
    c'.toOwn = [] ∧
    c'.priv = [] ∧
    c'.instr = .copy g w x ∧
    c'.id = id ∧
    c'.stopped = false ∧
    c'.thread = ⟨core, slot⟩ ∧
    Waits u core slot t (.tile id) :=
  ⟨{ sw (.tile 9) with cmds := [(9, cmd1)] }, 9, cmd1, _, _, 0#3, cpl0, copy0, 0, 0, tw (.tile 9), rfl,
   by first | rfl | decide, by first | rfl | decide, by decide +kernel, pair_some (by decide +kernel),
   by decide +kernel, by decide +kernel, by decide +kernel, by decide +kernel, by decide +kernel, by decide +kernel,
   ⟨by decide +kernel, rfl, .inl rfl, rfl, rfl⟩⟩

theorem witness_mma_step : ∃ (s : State) (id : _) (c : Cmd) (g : BitVec 3) (w : Cpl) (x : MmaArgs),
    Map.get? s.cmds id = some c ∧
    c.instr = .mma g w x ∧
    c.accepted = true ∧
    c.stopped = false ∧
    c.toPin = [] ∧
    stepBarred s c x = none ∧
    c.step + 1 = c.num x.k / 64 :=
  ⟨{ cmds := [(9, { running0 (.mma 0#3 none0 mma0) with
     regs := [(1, 0x10000#64), (2, 0x8000#64), (3, 0x4000#64), (4, 64#64), (5, 64#64), (6, 64#64)] })] },
   9,
   { running0 (.mma 0#3 none0 mma0) with
     regs := [(1, 0x10000#64), (2, 0x8000#64), (3, 0x4000#64), (4, 64#64), (5, 64#64), (6, 64#64)] },
   0#3, none0, mma0, rfl, by first | rfl | decide, by first | rfl | decide, by first | rfl | decide,
   by first | rfl | decide, by decide +kernel, by decide +kernel⟩

theorem witness_mma_barred : ∃ (s : State) (id : _) (c : Cmd) (g : BitVec 3) (w : Cpl) (x : MmaArgs) (va : Word),
    Map.get? s.cmds id = some c ∧
    c.instr = .mma g w x ∧
    c.accepted = true ∧
    c.stopped = false ∧
    c.toPin = [] ∧
    stepBarred s c x = some va :=
  ⟨{ cmds := [(9, { running0 (.mma 0#3 none0 mma0) with
     regs := [(1, 0x10000#64), (2, 0x8000#64), (3, 0x4000#64), (4, 64#64), (5, 64#64), (6, 64#64)] })], cores := [(0, { xb := 0x20000 })] },
   9,
   { running0 (.mma 0#3 none0 mma0) with
     regs := [(1, 0x10000#64), (2, 0x8000#64), (3, 0x4000#64), (4, 64#64), (5, 64#64), (6, 64#64)] },
   0#3, none0, mma0, _, rfl, by first | rfl | decide, by first | rfl | decide, by first | rfl | decide,
   by first | rfl | decide, some_of (by decide +kernel)⟩

theorem witness_mma_element : ∃ (s : State) (id : _) (c : Cmd) (g : BitVec 3) (w : Cpl) (x : MmaArgs) (i : _) (j : _) (p : _) (v : _) (a : _) (b :
      _) (sc : _) (r : _),
    Map.get? s.cmds id = some c ∧
    c.instr = .mma g w x ∧
    c.accepted = true ∧
    c.stopped = false ∧
    c.toPin = [] ∧
    p = Place.spad c.core (c.num x.c + accSize x.fa.toNat * (32 * i + j)) ∧
    x.zero = false ∧
    v = readPlace s c.core p (accSize x.fa.toNat) ∧
    v.2 = false ∧
    r = newElem x (leNat v.1) a b sc false ∧
    r.2 = false ∧
    c.id = id :=
  ⟨{ cmds := [(9, { running0 (.mma 0#3 none0 mma0) with
     regs := [(1, 0x10000#64), (2, 0x8000#64), (3, 0x4000#64), (4, 64#64), (5, 64#64), (6, 64#64)] })] },
   9,
   { running0 (.mma 0#3 none0 mma0) with
     regs := [(1, 0x10000#64), (2, 0x8000#64), (3, 0x4000#64), (4, 64#64), (5, 64#64), (6, 64#64)] },
   0#3, none0, mma0, 31, 31, _, _, [1, 2], [3, 4], 0, _, rfl, by first | rfl | decide, by first | rfl | decide,
   by first | rfl | decide, by first | rfl | decide, rfl, by first | rfl | decide, rfl, by decide +kernel, rfl,
   by decide +kernel, rfl⟩

theorem witness_fill : ∃ (s : State) (id : _) (c : Cmd) (g : BitVec 3) (w : Cpl) (x : FillArgs) (da : _) (p : _) (n : _),
    Map.get? s.cmds id = some c ∧
    c.instr = .fill g w x ∧
    c.id = id ∧
    c.accepted = true ∧
    c.stopped = false ∧
    c.todo = [] ∧
    c.rowBad = false ∧
    da = c.reg x.dst + BitVec.ofNat 64 c.step * c.reg x.ds + BitVec.ofNat 64 c.pos ∧
    c.placeAt da = some p ∧
    n = Nat.min (c.num x.rowb - c.pos) (pieceRoom p) ∧
    8 ≤ n :=
  ⟨{ cmds := [(9, running0 (.fill 0#3 cpl0 fill0))] }, 9, running0 (.fill 0#3 cpl0 fill0), 0#3, cpl0, fill0, _,
   .spad 0 0x1FF00, _, rfl, by first | rfl | decide, rfl, by first | rfl | decide, by first | rfl | decide,
   by first | rfl | decide, by first | rfl | decide, rfl, by decide +kernel, rfl, by decide +kernel⟩

theorem witness_copy_piece : ∃ (s : State) (id : _) (c : Cmd) (g : BitVec 3) (w : Cpl) (x : CopyArgs) (da : _) (sa : _) (q : _) (off : _) (n : _)
      (u : _) (bs : _) (po : _),
    Map.get? s.cmds id = some c ∧
    c.instr = .copy g w x ∧
    c.id = id ∧
    c.accepted = true ∧
    c.stopped = false ∧
    c.todo = [] ∧
    c.rowBad = false ∧
    da = c.reg x.dst + BitVec.ofNat 64 c.step * c.reg x.ds + BitVec.ofNat 64 c.pos ∧
    sa = c.reg x.src + BitVec.ofNat 64 c.step * c.reg x.ss + BitVec.ofNat 64 c.pos ∧
    c.placeAt da = some (.spad q off) ∧
    n = Nat.min (c.num x.rowb - c.pos) (64 - sa.toNat % 64) ∧
    engRead s c (lineChunks sa n) = (u, .ok (bs, po)) :=
  ⟨{ cmds := [(9, running0 (.copy 0#3 cpl0 copy0))] }, 9, running0 (.copy 0#3 cpl0 copy0), 0#3, cpl0, copy0, _, _, 0,
   0x1FF00, _, _, _, _, rfl, by first | rfl | decide, rfl, by first | rfl | decide, by first | rfl | decide,
   by first | rfl | decide, by first | rfl | decide, rfl, rfl, by decide +kernel, rfl, pair_some (by decide +kernel)⟩

theorem witness_copy_stops : ∃ (s : State) (id : _) (c : Cmd) (g : BitVec 3) (w : Cpl) (x : CopyArgs) (da : _) (sa : _) (q : _) (off : _) (n : _)
      (u : _) (va : Word),
    Map.get? s.cmds id = some c ∧
    c.instr = .copy g w x ∧
    c.id = id ∧
    c.accepted = true ∧
    c.stopped = false ∧
    c.todo = [] ∧
    c.rowBad = false ∧
    da = c.reg x.dst + BitVec.ofNat 64 c.step * c.reg x.ds + BitVec.ofNat 64 c.pos ∧
    sa = c.reg x.src + BitVec.ofNat 64 c.step * c.reg x.ss + BitVec.ofNat 64 c.pos ∧
    c.placeAt da = some (.spad q off) ∧
    n = Nat.min (c.num x.rowb - c.pos) (64 - sa.toNat % 64) ∧
    engRead s c (lineChunks sa n) = (u, .error va) :=
  ⟨{ cmds := [(9, { running0 (.copy 0#3 cpl0 copy0) with regs := [(1, 0x1FF00#64), (2, 0x20000#64), (4, 64#64)] })] },
   9, { running0 (.copy 0#3 cpl0 copy0) with regs := [(1, 0x1FF00#64), (2, 0x20000#64), (4, 64#64)] }, 0#3, cpl0,
   copy0, _, _, 0, 0x1FF00, _, _, _, rfl, by first | rfl | decide, rfl, by first | rfl | decide,
   by first | rfl | decide, by first | rfl | decide, by first | rfl | decide, rfl, rfl, by decide +kernel, rfl,
   pair_error (by decide +kernel)⟩

theorem witness_scatter_index : ∃ (s : State) (id : _) (c : Cmd) (g : BitVec 3) (w : Cpl) (x : GathArgs) (ia : _) (u : _) (bs : _) (po : _),
    Map.get? s.cmds id = some c ∧
    c.instr = .gath g w x ∧
    c.id = id ∧
    c.accepted = true ∧
    c.stopped = false ∧
    ia = c.reg x.idx + BitVec.ofNat 64 (4 * c.step) ∧
    c.row = none ∧
    engRead s c (lineChunks ia 4) = (u, .ok (bs, po)) ∧
    x.scat = true ∧
    c.toOwn = [] :=
  ⟨{ cmds := [(9, running0 (.gath 0#3 cpl0 (gath0 true)))] }, 9, running0 (.gath 0#3 cpl0 (gath0 true)), 0#3, cpl0,
   gath0 true, _, _, _, _, rfl, by first | rfl | decide, rfl, by first | rfl | decide, by first | rfl | decide, rfl,
   by first | rfl | decide, pair_some (by decide +kernel), by first | rfl | decide, by first | rfl | decide⟩

theorem witness_gather_index : ∃ (s : State) (id : _) (c : Cmd) (g : BitVec 3) (w : Cpl) (x : GathArgs) (ia : _) (u : _) (bs : _) (po : _),
    Map.get? s.cmds id = some c ∧
    c.instr = .gath g w x ∧
    c.id = id ∧
    c.accepted = true ∧
    c.stopped = false ∧
    ia = c.reg x.idx + BitVec.ofNat 64 (4 * c.step) ∧
    c.row = none ∧
    engRead s c (lineChunks ia 4) = (u, .ok (bs, po)) ∧
    x.scat = false ∧
    c.todo = [] :=
  ⟨{ cmds := [(9, running0 (.gath 0#3 cpl0 (gath0 false)))] }, 9, running0 (.gath 0#3 cpl0 (gath0 false)), 0#3, cpl0,
   gath0 false, _, _, _, _, rfl, by first | rfl | decide, rfl, by first | rfl | decide, by first | rfl | decide, rfl,
   by first | rfl | decide, pair_some (by decide +kernel), by first | rfl | decide, by first | rfl | decide⟩

theorem witness_scatter_row : ∃ (s : State) (id : _) (c : Cmd) (g : BitVec 3) (w : Cpl) (x : GathArgs) (r : _) (da : _) (u : _) (bs : _) (po : _)
      (c' : Cmd),
    Map.get? s.cmds id = some c ∧
    c.instr = .gath g w x ∧
    c.id = id ∧
    c.accepted = true ∧
    c.stopped = false ∧
    c.row = some r ∧
    r ≠ 0xFFFFFFFF ∧
    x.scat = true ∧
    c.toOwn = [] ∧
    c.pos ≠ 0 ∧
    c.flushed = false ∧
    c.owned = [] ∧
    da = c.reg x.dst + BitVec.ofNat 64 r * c.reg x.ds ∧
    engRead s c (lineChunks (c.reg x.src + BitVec.ofNat 64 c.step * c.reg x.ss) (c.num x.rowb)) = (u, .ok (bs, po)) ∧
    Map.get? (moveTo u c da bs (c.rowMarks po)).cmds id = some c' ∧
    c'.owned = [] :=
  ⟨{ cmds := [(9, { running0 (.gath 0#3 cpl0 (gath0 true)) with row := some 0, pos := 1 })] }, 9,
   { running0 (.gath 0#3 cpl0 (gath0 true)) with row := some 0, pos := 1 }, 0#3, cpl0, gath0 true, 0, _, _, _, _, _,
   rfl, by first | rfl | decide, rfl, by first | rfl | decide, by first | rfl | decide, rfl, by first | rfl | decide,
   by first | rfl | decide, by first | rfl | decide, by first | rfl | decide, by first | rfl | decide,
   by first | rfl | decide, rfl, pair_some (by decide +kernel), some_of (by decide +kernel), by decide +kernel⟩

theorem witness_gather_row : ∃ (s : State) (id : _) (c : Cmd) (g : BitVec 3) (w : Cpl) (x : GathArgs) (r : _),
    Map.get? s.cmds id = some c ∧
    c.instr = .gath g w x ∧
    c.id = id ∧
    c.accepted = true ∧
    c.stopped = false ∧
    c.row = some r ∧
    r ≠ 0xFFFFFFFF ∧
    x.scat = false ∧
    c.todo = [] :=
  ⟨{ cmds := [(9, { running0 (.gath 0#3 cpl0 (gath0 false)) with row := some 0 })] }, 9,
   { running0 (.gath 0#3 cpl0 (gath0 false)) with row := some 0 }, 0#3, cpl0, gath0 false, 0, rfl,
   by first | rfl | decide, rfl, by first | rfl | decide, by first | rfl | decide, rfl, by first | rfl | decide,
   by first | rfl | decide, by first | rfl | decide⟩

theorem witness_enc8 : ∃ (s : State) (id : _) (c : Cmd) (g : BitVec 3) (w : Cpl) (x : Enc8Args) (u : _) (ls : _),
    Map.get? s.cmds id = some c ∧
    c.instr = .enc8 g w x ∧
    c.id = id ∧
    c.accepted = true ∧
    c.stopped = false ∧
    c.todo = [] ∧
    encLines s c x (List.range (c.num x.rows)) = (u, .ok ls) :=
  ⟨{ cmds := [(9, running0 (.enc8 0#3 cpl0 enc0))] }, 9, running0 (.enc8 0#3 cpl0 enc0), 0#3, cpl0, enc0, _, _, rfl,
   by first | rfl | decide, rfl, by first | rfl | decide, by first | rfl | decide, by first | rfl | decide,
   pair_some (by decide +kernel)⟩

theorem witness_engine_complete : ∃ (s : State) (id : _) (c : Cmd),
    Map.get? s.cmds id = some c ∧
    c.id = id ∧
    c.accepted = true ∧
    c.stopped = true ∧
    c.todo = [] ∧
    c.pinned = [] ∧
    c.flushed = true ∧
    c.owned = [] ∧
    c.unacked = [] ∧
    c.ending = false :=
  ⟨{ cmds := [(9, { running0 (.copy 0#3 cpl0 copy0) with stopped := true, flushed := true })] }, 9,
   { running0 (.copy 0#3 cpl0 copy0) with stopped := true, flushed := true }, rfl, rfl, by first | rfl | decide,
   by first | rfl | decide, by first | rfl | decide, by first | rfl | decide, by first | rfl | decide,
   by first | rfl | decide, by first | rfl | decide, by first | rfl | decide⟩

theorem witness_engine_ends : ∃ (s : State) (id : _) (c : Cmd),
    Map.get? s.cmds id = some c ∧
    c.id = id ∧
    c.accepted = true ∧
    c.stopped = true ∧
    c.todo = [] ∧
    c.pinned = [] ∧
    c.flushed = true ∧
    c.owned = [] ∧
    c.unacked = [] ∧
    c.ending = true ∧
    c.second = false :=
  ⟨{ cmds := [(9, { running0 (.copy 0#3 cpl0 copy0) with stopped := true, flushed := true, ending := true })] }, 9,
   { running0 (.copy 0#3 cpl0 copy0) with stopped := true, flushed := true, ending := true }, rfl, rfl,
   by first | rfl | decide, by first | rfl | decide, by first | rfl | decide, by first | rfl | decide,
   by first | rfl | decide, by first | rfl | decide, by first | rfl | decide, by first | rfl | decide,
   by first | rfl | decide⟩

theorem witness_completion_none : ∃ (s : State) (id : _) (c : Cmd),
    Map.get? s.cmds id = some c ∧
    c.id = id ∧
    c.accepted = true ∧
    c.stopped = true ∧
    c.todo = [] ∧
    c.pinned = [] ∧
    c.word1.mode = 0#2 :=
  ⟨{ cmds := [(9, { running0 (.copy 0#3 none0 copy0) with stopped := true })] }, 9,
   { running0 (.copy 0#3 none0 copy0) with stopped := true }, rfl, rfl, by first | rfl | decide,
   by first | rfl | decide, by first | rfl | decide, by first | rfl | decide, by first | rfl | decide⟩

theorem witness_completion_coherent : ∃ (s : State) (id : _) (c : Cmd) (p : _),
    Map.get? s.cmds id = some c ∧
    c.id = id ∧
    c.accepted = true ∧
    c.stopped = true ∧
    c.todo = [] ∧
    c.pinned = [] ∧
    c.word1.mode = 1#2 ∧
    c.cpl = some p ∧
    (∀ pkg pa, p ≠ .page .remotePosted pkg pa) ∧
    (∀ pkg pa, p ≠ .page .hostNoncoherent pkg pa) ∧
    InTurn s (.engineComplete id) p true :=
  ⟨{ cmds := [(9, { running0 (.copy 0#3 cpl0 copy0) with stopped := true, cpl := some (.page .coherent 0 0x40) })] },
   9, { running0 (.copy 0#3 cpl0 copy0) with stopped := true, cpl := some (.page .coherent 0 0x40) },
   .page .coherent 0 0x40, rfl, rfl, by first | rfl | decide, by first | rfl | decide, by first | rfl | decide,
   by first | rfl | decide, by first | rfl | decide, rfl, nofun, nofun, inTurn_of rfl⟩

theorem witness_completion_sent : ∃ (s : State) (id : _) (c : Cmd) (pkg : _) (pa : _),
    Map.get? s.cmds id = some c ∧
    c.id = id ∧
    c.accepted = true ∧
    c.stopped = true ∧
    c.todo = [] ∧
    c.pinned = [] ∧
    c.word1.mode = 1#2 ∧
    c.cpl = some (.page .remotePosted pkg pa) :=
  ⟨{ cmds := [(9, { running0 (.copy 0#3 cpl0 copy0) with stopped := true, cpl := some (.page .remotePosted 1 0x40) })] },
   9, { running0 (.copy 0#3 cpl0 copy0) with stopped := true, cpl := some (.page .remotePosted 1 0x40) }, _, _, rfl,
   rfl, by first | rfl | decide, by first | rfl | decide, by first | rfl | decide, by first | rfl | decide,
   by first | rfl | decide, rfl⟩

theorem witness_completion_written : ∃ (s : State) (id : _) (c : Cmd) (q : _) (off : _),
    Map.get? s.cmds id = some c ∧
    c.id = id ∧
    c.accepted = true ∧
    c.stopped = true ∧
    c.todo = [] ∧
    c.pinned = [] ∧
    c.word1.mode = 1#2 ∧
    c.cpl = some (.spad q off) :=
  ⟨{ cmds := [(9, { running0 (.copy 0#3 cpl0 copy0) with stopped := true, cpl := some (.spad 0 0x1FD00) })] }, 9,
   { running0 (.copy 0#3 cpl0 copy0) with stopped := true, cpl := some (.spad 0 0x1FD00) }, _, _, rfl, rfl,
   by first | rfl | decide, by first | rfl | decide, by first | rfl | decide, by first | rfl | decide,
   by first | rfl | decide, rfl⟩

theorem witness_coll_complete : ∃ (s : State) (id : _) (c : Cmd) (g : BitVec 3) (w : Cpl) (x : CollArgs) (cs : _),
    Map.get? s.cmds id = some c ∧
    c.instr = .coll g w x ∧
    c.accepted = true ∧
    c.stopped = false ∧
    cs = (List.range (partiesOf s c)).map (contribution s c) ∧
    cs.all (·.isSome) = true :=
  ⟨{ cmds := [(9, running0 (.coll 0#3 cpl0 coll0))] }, 9, running0 (.coll 0#3 cpl0 coll0), 0#3, cpl0, coll0, _, rfl,
   by first | rfl | decide, by first | rfl | decide, by first | rfl | decide, rfl, by decide +kernel⟩

theorem witness_coll_waits : ∃ (s : State) (id : _) (c : Cmd) (g : BitVec 3) (w : Cpl) (x : CollArgs) (cs : _),
    Map.get? s.cmds id = some c ∧
    c.instr = .coll g w x ∧
    c.accepted = true ∧
    c.stopped = false ∧
    cs = (List.range (partiesOf s c)).map (contribution s c) ∧
    cs.all (·.isSome) = false :=
  ⟨{ cmds := [(9, running0 (.coll 0#3 cpl0 coll0))], launches := [(0, { launch0 with hdr := { hdr0 with extents := [2] } })] },
   9, running0 (.coll 0#3 cpl0 coll0), 0#3, cpl0, coll0, _, rfl, by first | rfl | decide, by first | rfl | decide,
   by first | rfl | decide, rfl, by decide +kernel⟩

theorem witness_posted_performed : ∃ (s : State) (id : _) (x : FabricPacket),
    Map.get? s.out id = some x ∧
    x.kind = 0 ∧
    x.thread = none ∧
    x.cmd = none ∧
    x.lid = 0 ∧
    x.id = id :=
  ⟨{ out := [(9, { id := 9, kind := 0, addr := 0x40, data := [1#8], thread := none })] }, 9,
   { id := 9, kind := 0, addr := 0x40, data := [1#8], thread := none }, rfl, by first | rfl | decide,
   by first | rfl | decide, by first | rfl | decide, by first | rfl | decide, rfl⟩

theorem witness_posted_dropped : ∃ (s : State) (id : _) (x : FabricPacket) (pa : _) (n : _) (line : _) (e : _),
    Map.get? s.out id = none ∧
    Map.get? s.inbox id = some x ∧
    x.kind = 0 ∧
    x.id = id ∧
    pa = x.addr % 2 ^ 50 + x.pos ∧
    n = Nat.min (64 - pa % 64) (x.data.length - x.pos) ∧
    line = pa / 64 ∧
    e = .postedWriteArrive id ∧
    packetOk s x x.data.length = false ∧
    NoAct s e :=
  ⟨{ inbox := [(9, { id := 9, kind := 0, addr := 0x40, data := [1#8], thread := none })] }, 9,
   { id := 9, kind := 0, addr := 0x40, data := [1#8], thread := none }, _, _, _, _, by first | rfl | decide, rfl,
   by first | rfl | decide, rfl, rfl, rfl, rfl, rfl, by decide +kernel, noAct_of rfl⟩

theorem witness_posted_performed_here : ∃ (s : State) (id : _) (x : FabricPacket) (pa : _) (n : _) (line : _) (e : _),
    Map.get? s.out id = none ∧
    Map.get? s.inbox id = some x ∧
    x.kind = 0 ∧
    x.id = id ∧
    pa = x.addr % 2 ^ 50 + x.pos ∧
    n = Nat.min (64 - pa % 64) (x.data.length - x.pos) ∧
    line = pa / 64 ∧
    e = .postedWriteArrive id ∧
    packetOk s x x.data.length = true ∧
    x.pos < x.data.length ∧
    InTurn s e (.page .coherent s.pkg pa) true :=
  ⟨{ inbox := [(9, { id := 9, kind := 0, addr := 0x40, data := [1#8], thread := none })], parts := [(0, { state := .active })] },
   9, { id := 9, kind := 0, addr := 0x40, data := [1#8], thread := none }, _, _, _, _, by first | rfl | decide, rfl,
   by first | rfl | decide, rfl, rfl, rfl, rfl, rfl, by decide +kernel, by decide +kernel, inTurn_of rfl⟩

theorem witness_posted_held : ∃ (s : State) (id : _) (x : FabricPacket) (pa : _) (n : _) (line : _) (e : _),
    Map.get? s.out id = none ∧
    Map.get? s.inbox id = some x ∧
    x.kind = 0 ∧
    x.id = id ∧
    pa = x.addr % 2 ^ 50 + x.pos ∧
    n = Nat.min (64 - pa % 64) (x.data.length - x.pos) ∧
    line = pa / 64 ∧
    e = .postedWriteArrive id ∧
    packetOk s x x.data.length = true ∧
    x.pos < x.data.length ∧
    NoAct s e ∧
    (dirOf s line).queue = [] ∧
    actHeld (dirOf s line) true = true :=
  ⟨{ inbox := [(9, { id := 9, kind := 0, addr := 0x40, data := [1#8], thread := none })], parts := [(0, { state := .active })], dir := [(1, { st := .o })] },
   9, { id := 9, kind := 0, addr := 0x40, data := [1#8], thread := none }, _, _, _, _, by first | rfl | decide, rfl,
   by first | rfl | decide, rfl, rfl, rfl, rfl, rfl, by decide +kernel, by decide +kernel, noAct_quiet (by decide),
   by decide +kernel, by decide +kernel⟩

theorem witness_posted_over : ∃ (s : State) (id : _) (x : FabricPacket) (pa : _) (n : _) (line : _) (e : _),
    Map.get? s.out id = none ∧
    Map.get? s.inbox id = some x ∧
    x.kind = 0 ∧
    x.id = id ∧
    pa = x.addr % 2 ^ 50 + x.pos ∧
    n = Nat.min (64 - pa % 64) (x.data.length - x.pos) ∧
    line = pa / 64 ∧
    e = .postedWriteArrive id ∧
    packetOk s x x.data.length = true ∧
    x.pos = x.data.length ∧
    msHere s x = none ∧
    NoAct s e :=
  ⟨{ inbox := [(9, { id := 9, kind := 0, addr := 0x40, data := [1#8], pos := 1, thread := none })], parts := [(0, { state := .active })] },
   9, { id := 9, kind := 0, addr := 0x40, data := [1#8], pos := 1, thread := none }, _, _, _, _,
   by first | rfl | decide, rfl, by first | rfl | decide, rfl, rfl, rfl, rfl, rfl, by decide +kernel,
   by decide +kernel, by decide +kernel, noAct_of rfl⟩

theorem witness_posted_milestone : ∃ (s : State) (id : _) (x : FabricPacket) (pa : _) (n : _) (line : _) (e : _) (m : _),
    Map.get? s.out id = none ∧
    Map.get? s.inbox id = some x ∧
    x.kind = 0 ∧
    x.id = id ∧
    pa = x.addr % 2 ^ 50 + x.pos ∧
    n = Nat.min (64 - pa % 64) (x.data.length - x.pos) ∧
    line = pa / 64 ∧
    e = .postedWriteArrive id ∧
    packetOk s x x.data.length = true ∧
    x.pos = x.data.length ∧
    msHere s x = some m ∧
    InTurn s e (.page .coherent s.pkg m) true :=
  ⟨{ inbox := [(9, { id := 9, kind := 0, addr := 0x40, data := [1#8], ms := some 0x48, pos := 1, thread := none })], parts := [(0, { state := .active })] },
   9, { id := 9, kind := 0, addr := 0x40, data := [1#8], ms := some 0x48, pos := 1, thread := none }, _, _, _, _,
   0x48, by first | rfl | decide, rfl, by first | rfl | decide, rfl, rfl, rfl, rfl, rfl, by decide +kernel,
   by decide +kernel, by decide +kernel, inTurn_of rfl⟩

theorem witness_milestone : ∃ (s : State) (x : FabricPacket) (m : _) (v : _),
    msHere s x = some m ∧
    v = readPlace s noCore (.page .coherent s.pkg m) 8 ∧
    v.2 = false :=
  ⟨{ inbox := [(9, { id := 9, kind := 0, addr := 0x40, data := [1#8], ms := some 0x48, thread := none })], parts := [(0, { state := .active })] },
   { id := 9, kind := 0, addr := 0x40, data := [1#8], ms := some 0x48, thread := none }, 0x48, _, by decide +kernel,
   rfl, by decide +kernel⟩

theorem witness_remote_read : ∃ (s : State) (id : _) (x : FabricPacket) (v : _),
    Map.get? s.inbox id = some x ∧
    x.kind = 1 ∧
    packetOk s x 1 = true ∧
    InTurn s (.remoteRead id) (.page .coherent s.pkg (x.addr % 2 ^ 50 / 64 * 64)) false ∧
    v = lineNow s (x.addr % 2 ^ 50 / 64 * 64) :=
  ⟨{ inbox := [(9, { id := 9, kind := 1, addr := 0x40, data := [], thread := none })], parts := [(0, { state := .active })] },
   9, { id := 9, kind := 1, addr := 0x40, data := [], thread := none }, _, rfl, by first | rfl | decide,
   by decide +kernel, inTurn_of rfl, rfl⟩

theorem witness_read_response : ∃ (s : State) (id : _) (x : FabricPacket) (c : _) (slot : _) (u : _) (bs : List Byte),
    Map.get? s.out id = some x ∧
    x.kind = 1 ∧
    x.thread = some ⟨c, slot⟩ ∧
    u = { s with out := Map.erase s.out id } ∧
    bs.length = 64 :=
  ⟨{ out := [(9, { id := 9, kind := 1, addr := 0x40, data := [], thread := some ⟨0, 0⟩ })] }, 9,
   { id := 9, kind := 1, addr := 0x40, data := [], thread := some ⟨0, 0⟩ }, _, _, _, aLine, rfl,
   by first | rfl | decide, rfl, rfl, by decide +kernel⟩

theorem witness_read_refused : ∃ (s : State) (id : _) (x : FabricPacket) (c : _) (slot : _) (u : _) (t : Thread) (a : _) (w : MUnit),
    Map.get? s.out id = some x ∧
    x.kind = 1 ∧
    x.thread = some ⟨c, slot⟩ ∧
    u = { s with out := Map.erase s.out id } ∧
    x.rid = none ∧
    Waits s c slot t (.access a) ∧
    a.units = [w] ∧
    w.out = none ∧
    w.sent = true ∧
    w.place = some (.page .remotePosted (x.addr / 2 ^ 50) (x.addr % 2 ^ 50)) ∧
    w.size = x.size :=
  ⟨{ sw (.access { units := [{ va := 0x10000000040#64, size := 8, op := .load, place := some (.page .remotePosted 1 0x40), sent := true, out := none }], fin := .g 3 false, checked := true, issued := 0, load := true, auto := false, sup := false }) with out := [(9, { id := 9, kind := 1, addr := 0x4000000000040, size := 8, data := [], thread := some ⟨0, 0⟩ })] },
   9, { id := 9, kind := 1, addr := 0x4000000000040, size := 8, data := [], thread := some ⟨0, 0⟩ }, _, _, _, _, _,
   { va := 0x10000000040#64, size := 8, op := .load, place := some (.page .remotePosted 1 0x40), sent := true, out := none },
   rfl, by first | rfl | decide, rfl, rfl, by first | rfl | decide, ⟨rfl, rfl, .inl rfl, rfl, rfl⟩,
   by first | rfl | decide, by first | rfl | decide, by first | rfl | decide, rfl, by first | rfl | decide⟩

theorem witness_remote_atomic : ∃ (s : State) (id : _) (x : FabricPacket) (op : UnitOp) (p : _) (v : _) (bs : _),
    Map.get? s.inbox id = some x ∧
    x.kind = 3 ∧
    x.op = some op ∧
    packetOk s x x.size = true ∧
    p = Place.page .coherent s.pkg (x.addr % 2 ^ 50) ∧
    InTurn s (.remoteAtomic id) p true ∧
    v = readPlace s noCore p x.size ∧
    v.2 = false ∧
    op.writes v.1 = some bs :=
  ⟨{ inbox := [(9, { id := 9, kind := 3, addr := 0x40, size := 8, data := [], op := some (.amo .add 1#64), thread := none })], parts := [(0, { state := .active })] },
   9, { id := 9, kind := 3, addr := 0x40, size := 8, data := [], op := some (.amo .add 1#64), thread := none },
   .amo .add 1#64, _, _, _, rfl, by first | rfl | decide, rfl, by decide +kernel, rfl, inTurn_of rfl, rfl,
   by decide +kernel, some_of (by decide +kernel)⟩

theorem witness_packet_answer : ∃ (s : State) (id : _) (x : FabricPacket) (c : _) (slot : _) (t : Thread) (d : _),
    Map.get? s.out id = some x ∧
    x.kind = 5 ∧
    x.thread = some ⟨c, slot⟩ ∧
    (∀ m, x.carried = some m → m.kind ≠ 1) ∧
    Waits s c slot t (.packet d id) :=
  ⟨{ sw (.packet 3 9) with out := [(9, { id := 9, kind := 5, data := [], thread := some ⟨0, 0⟩ })] }, 9,
   { id := 9, kind := 5, data := [], thread := some ⟨0, 0⟩ }, _, _, _, _, rfl, by first | rfl | decide, rfl, nofun,
   ⟨rfl, rfl, .inl rfl, rfl, rfl⟩⟩

theorem witness_completion_answer : ∃ (s : State) (id : _) (x : FabricPacket),
    Map.get? s.out id = some x ∧
    x.kind = 3 ∧
    x.thread = none :=
  ⟨{ out := [(9, { id := 9, kind := 3, addr := 0x40, data := [1#8], thread := none })] }, 9,
   { id := 9, kind := 3, addr := 0x40, data := [1#8], thread := none }, rfl, by first | rfl | decide,
   by first | rfl | decide⟩

theorem witness_bar_read : ∃ (s : State) (off : _) (size : _) (p : _) (line : _) (u : _) (e : Event),
    hostAnswers s = true ∧
    s.plat.pcieDown = false ∧
    oneLine off size = true ∧
    p = Place.page .coherent s.pkg off ∧
    line = off / 64 ∧
    populated s off = true ∧
    off < 2 ^ 42 ∧
    e = .hostBarAccess .pf ⟨2, off⟩ size none ∧
    InTurn s e p false ∧
    u = (if (dirOf s line).st = .e then recallAll s off else s) :=
  ⟨{}, 0x38, 8, _, _, _, _, by first | rfl | decide, by first | rfl | decide, by decide +kernel, rfl, rfl,
   by decide +kernel, by decide +kernel, rfl, inTurn_of rfl, rfl⟩

theorem witness_bar_write : ∃ (s : State) (off : _) (size : _) (p : _) (line : _) (v : Nat) (e : Event),
    hostAnswers s = true ∧
    s.plat.pcieDown = false ∧
    oneLine off size = true ∧
    p = Place.page .coherent s.pkg off ∧
    line = off / 64 ∧
    populated s off = true ∧
    off < 2 ^ 42 ∧
    e = .hostBarAccess .pf ⟨2, off⟩ size (some v) ∧
    InTurn s e p true :=
  ⟨{}, 0x38, 8, _, _, 7, _, by first | rfl | decide, by first | rfl | decide, by decide +kernel, rfl, rfl,
   by decide +kernel, by decide +kernel, rfl, inTurn_of rfl⟩

theorem witness_bar_held : ∃ (s : State) (off : _) (size : _) (p : _) (line : _) (v : Nat) (e : Event),
    hostAnswers s = true ∧
    s.plat.pcieDown = false ∧
    oneLine off size = true ∧
    p = Place.page .coherent s.pkg off ∧
    line = off / 64 ∧
    populated s off = true ∧
    off < 2 ^ 42 ∧
    e = .hostBarAccess .pf ⟨2, off⟩ size (some v) ∧
    NoAct s e ∧
    (dirOf s line).queue = [] ∧
    actHeld (dirOf s line) true = true :=
  ⟨{ dir := [(0, { st := .o })] }, 0x38, 8, _, _, 7, _, by first | rfl | decide, by first | rfl | decide,
   by decide +kernel, rfl, rfl, by decide +kernel, by decide +kernel, rfl, noAct_quiet (by decide),
   by decide +kernel, by decide +kernel⟩

theorem witness_bar_unpopulated : ∃ (s : State) (off : _) (size : _) (p : _) (line : _),
    hostAnswers s = true ∧
    s.plat.pcieDown = false ∧
    oneLine off size = true ∧
    p = Place.page .coherent s.pkg off ∧
    line = off / 64 ∧
    populated s off = false :=
  ⟨{}, 0x40000000000, 64, _, _, by first | rfl | decide, by first | rfl | decide, by decide +kernel, rfl, rfl,
   by decide +kernel⟩

theorem witness_bar0_register : ∃ (s : State) (fn : HostFn) (off : _) (size : _) (p : _) (w : Nat),
    hostAnswers s = true ∧
    s.plat.pcieDown = false ∧
    oneLine off size = true ∧
    fnEnabled s fn = true ∧
    off % 8 = 0 ∧
    size = 8 ∧
    barRegister fn off = some (p, w) :=
  ⟨{ parts := [(3, { state := .active })] }, .vf 3, 0x1008, 8, 3, 17, by first | rfl | decide,
   by first | rfl | decide, by decide +kernel, by decide +kernel, by decide +kernel, rfl, by decide +kernel⟩

theorem witness_bar0_nothing : ∃ (s : State) (fn : HostFn) (off : _) (size : _),
    hostAnswers s = true ∧
    s.plat.pcieDown = false ∧
    oneLine off size = true ∧
    fnEnabled s fn = true ∧
    off % 8 = 0 ∧
    size = 8 ∧
    barRegister fn off = none :=
  ⟨{}, .pf, 0x0FF8, 8, by first | rfl | decide, by first | rfl | decide, by decide +kernel, by decide +kernel,
   by decide +kernel, rfl, by decide +kernel⟩

theorem witness_bar0_place_1 : ∃ (p : Nat) (w : Nat) (i : Nat),
    p < 64 ∧
    i < 8 ∧
    w < 8 :=
  ⟨63, 7, 7, by decide +kernel, by decide +kernel, by decide +kernel⟩

theorem witness_bar0_place_2 : ∃ (p : Nat) (w : Nat) (i : Nat),
    p < 64 ∧
    i < 8 ∧
    w < 16 :=
  ⟨63, 15, 7, by decide +kernel, by decide +kernel, by decide +kernel⟩

theorem witness_bar0_place_3 : ∃ (p : Nat) (w : Nat) (i : Nat),
    p < 64 ∧
    i < 8 ∧
    w < 8 :=
  ⟨63, 7, 7, by decide +kernel, by decide +kernel, by decide +kernel⟩

theorem witness_host_atomic : ∃ (s : State) (off : _) (op : HostAtomic) (p : _) (v : _) (w : _),
    hostAnswers s = true ∧
    s.plat.pcieDown = false ∧
    hostOpKnown op = true ∧
    off % hostOpSize op = 0 ∧
    populated s off = true ∧
    off < 2 ^ 42 ∧
    p = Place.page .coherent s.pkg off ∧
    InTurn s (.hostAtomicop .pf off op) p true ∧
    v = readBytes s noCore p (hostOpSize op) ∧
    v.2 = false ∧
    hostOpNew op (leNat v.1) = some w :=
  ⟨{}, 0x38, .fetchAdd 8 1, _, _, _, by first | rfl | decide, by first | rfl | decide, by first | rfl | decide,
   by first | rfl | decide, by decide +kernel, by first | rfl | decide, rfl, inTurn_of rfl, rfl, by decide +kernel,
   some_of (by decide +kernel)⟩

theorem witness_cxl : ∃ (s : State) (a : Nat) (size : Nat) (pa : _) (p : _) (u : _),
    hostAnswers s = true ∧
    s.plat.cxlDown = false ∧
    s.plat.hdmBase ≤ a ∧
    pa = a - s.plat.hdmBase ∧
    pa < 2 ^ 38 ∧
    oneLine pa size = true ∧
    p = Place.page .coherent s.pkg pa ∧
    InTurn s (.cxlMemAccess a size none) p false ∧
    u = (if (dirOf s (pa / 64)).st = .e then recallAll s pa else s) :=
  ⟨{ plat := { hdmBase := 0x1000 } }, 0x1038, 8, _, _, _, by first | rfl | decide, by first | rfl | decide,
   by first | rfl | decide, rfl, by first | rfl | decide, by decide +kernel, rfl, inTurn_of rfl, rfl⟩

theorem witness_snoop : ∃ (s : State) (line : _),
    s.plat.cxlDown = false ∧
    (∀ k ∈ Map.keys s.hostLines, k % 2 ^ 40 ≠ line) :=
  ⟨{}, 7, by first | rfl | decide, nofun⟩

theorem witness_flit : ∃ (s : State) (link : _) (n : _),
    s.plat.linksDown.contains link = false ∧
    n = (Map.get? s.plat.retries link).getD 0 + 1 :=
  ⟨{ plat := { retries := [(2, 15)] } }, 2, _, by first | rfl | decide, rfl⟩

theorem witness_fatal : ∃ (s : State) (c : _),
    (s.core c).owner = none :=
  ⟨{}, 2079, by first | rfl | decide⟩

theorem witness_fatal_shared : ∃ (s : State),
    s.parts = [] :=
  ⟨{}, by first | rfl | decide⟩

theorem witness_no_pair : ∃ (s : State) (c : _) (part : _),
    s.agenda.contains (.checkpointCommit c) = false ∧
    part = ((s.core c).owner.map (·.1)).getD 0 ∧
    (s.core c).lock = none :=
  ⟨{}, 0, _, by first | rfl | decide, rfl, by first | rfl | decide⟩

theorem witness_mismatch : ∃ (s : State) (c : _) (L : _) (part : _),
    s.agenda.contains (.checkpointCommit c) = false ∧
    part = ((s.core c).owner.map (·.1)).getD 0 ∧
    (s.core c).lock = some L ∧
    L.odd = false ∧
    (s.core c).fenced = false ∧
    L.mismatches < 2 :=
  ⟨at0 { lock := some { partner := 1, odd := false, count := 0, held := [], undo := [], snap := [], mismatches := 1, since := 0 } },
   0, { partner := 1, odd := false, count := 0, held := [], undo := [], snap := [], mismatches := 1, since := 0 }, _,
   by first | rfl | decide, rfl, by first | rfl | decide, by first | rfl | decide, by first | rfl | decide, by decide⟩

theorem witness_mismatch_third : ∃ (s : State) (c : _) (L : _) (part : _),
    s.agenda.contains (.checkpointCommit c) = false ∧
    part = ((s.core c).owner.map (·.1)).getD 0 ∧
    (s.core c).lock = some L ∧
    L.odd = false ∧
    (s.core c).fenced = false ∧
    2 ≤ L.mismatches :=
  ⟨at0 { lock := some { partner := 1, odd := false, count := 0, held := [], undo := [], snap := [], mismatches := 2, since := 0 } },
   0, { partner := 1, odd := false, count := 0, held := [], undo := [], snap := [], mismatches := 2, since := 0 }, _,
   by first | rfl | decide, rfl, by first | rfl | decide, by first | rfl | decide, by first | rfl | decide, by decide⟩

theorem witness_boot : ∃ (s : State) (u : _) (i0 : _) (i1 : _) (v : _) (w : _),
    u = poweredUp s ∧
    (i0 = true ∨ i1 = true) ∧
    v = { u with plat := { u.plat with image := if i0 then 0 else 1 } } ∧
    w = bootTests (v.plat.fences.foldl refence v) (List.range 2080) :=
  ⟨{}, _, true, false, _, _, rfl, .inl rfl, rfl, rfl⟩

theorem witness_bank_clear : ∃ (s : State) (bank : _) (b : _),
    s.plat.off = false ∧
    Map.get? s.banks bank = some b ∧
    bankExists bank = true :=
  ⟨{ banks := [(0, { written := 1 })] }, 0, _, by first | rfl | decide, rfl, by decide +kernel⟩

theorem witness_attestation : ∃ (s : State) (nonce : List Byte) (body : List Byte),
    s.plat.off = false ∧
    nonce.length = 64 ∧
    s.plat.recovery = false ∧
    body = nonce ++ digest (Config.firmware s.plat.image) ++ digest (Config.fuses s.plat.version) ++ digest
      (fenceBytes s ++ pcbBytes s) :=
  ⟨{}, aLine, _, by first | rfl | decide, by decide +kernel, by first | rfl | decide, rfl⟩

theorem witness_pcb_port : ∃ (s : State) (p : _) (w : _),
    s.plat.off = false ∧
    p < 64 ∧
    w < 16 :=
  ⟨{}, 63, 15, by first | rfl | decide, by first | rfl | decide, by first | rfl | decide⟩

theorem witness_no_command : ∃ (s : State) (code : BitVec 8),
    s.plat.off = false ∧
    (code = 0#8 ∨ 8 < code.toNat) :=
  ⟨{}, 9#8, by first | rfl | decide, .inr (by decide)⟩

theorem witness_port_off : ∃ (s : State),
    s.plat.off = true :=
  ⟨{ plat := { off := true } }, by first | rfl | decide⟩

theorem witness_step_word : ∃ (s : State) (u : _) (c : _) (slot : _) (t : Thread) (i : Instr),
    s.sched = [] ∧
    s.agenda = [] ∧
    u = fillPosition s ∧
    current u = some (c, slot, t) ∧
    t.code = .running ∧
    (u.core c).selft = none ∧
    (u.core c).fenced = false ∧
    issueStopped u c = false ∧
    t.pc.toNat % 4 = 0 ∧
    i.wf = true ∧
    encode i ≠ [] ∧
    t.pc.toNat + 4 * (encode i).length ≤ (u.core c).xb ∧
    ((encode i).length = 8 → t.pc.toNat % 32 = 0) ∧
    Mem.readN (u.core c).spad t.pc.toNat (4 * (encode i).length) = (encode i).flatMap bytesOfWord :=
  ⟨on ({ t0 with pc := 0x100#64 }) { xb := 0x104, spad := [(0x100, 0x0C#8), (0x101, 0x04#8), (0x102, 0x01#8)] }, _,
   0, 0, { t0 with pc := 0x100#64 }, .add 0#3 1#7 2#7 3#7, by first | rfl | decide, by first | rfl | decide, rfl,
   by decide +kernel, by first | rfl | decide, by decide +kernel, by decide +kernel, by decide +kernel,
   by first | rfl | decide, by decide +kernel, by decide +kernel, by decide +kernel, (fun h => by cases h),
   by decide +kernel⟩

theorem witness_step_tile : ∃ (s : State) (u : _) (c : _) (slot : _) (t : Thread) (i : Instr),
    s.sched = [] ∧
    s.agenda = [] ∧
    u = fillPosition s ∧
    current u = some (c, slot, t) ∧
    t.code = .running ∧
    (u.core c).selft = none ∧
    (u.core c).fenced = false ∧
    issueStopped u c = false ∧
    t.pc.toNat % 4 = 0 ∧
    i.wf = true ∧
    encode i ≠ [] ∧
    t.pc.toNat + 4 * (encode i).length ≤ (u.core c).xb ∧
    ((encode i).length = 8 → t.pc.toNat % 32 = 0) ∧
    Mem.readN (u.core c).spad t.pc.toNat (4 * (encode i).length) = (encode i).flatMap bytesOfWord :=
  ⟨on ({ t0 with pc := 0x1FFE0#64 }) { xb := 0x20000, spad := Mem.writeN [] 0x1FFE0 ((encode (.copy 0#3 cpl0 copy0)).flatMap bytesOfWord) },
   _, 0, 0, { t0 with pc := 0x1FFE0#64 }, .copy 0#3 cpl0 copy0, by first | rfl | decide, by first | rfl | decide,
   rfl, by decide +kernel, by first | rfl | decide, by decide +kernel, by decide +kernel, by decide +kernel,
   by decide +kernel, by decide +kernel, by decide +kernel, by decide +kernel, (fun _ => by decide), by decide +kernel⟩

theorem witness_fetch_misaligned : ∃ (s : State) (u : _) (c : _) (slot : _) (t : Thread),
    s.sched = [] ∧
    s.agenda = [] ∧
    u = fillPosition s ∧
    current u = some (c, slot, t) ∧
    t.code = .running ∧
    (u.core c).selft = none ∧
    (u.core c).fenced = false ∧
    issueStopped u c = false ∧
    t.pc.toNat % 4 ≠ 0 :=
  ⟨on ({ t0 with pc := 2#64 }), _, 0, 0, { t0 with pc := 2#64 }, by first | rfl | decide, by first | rfl | decide,
   rfl, by decide +kernel, by first | rfl | decide, by decide +kernel, by decide +kernel, by decide +kernel,
   by first | rfl | decide⟩

theorem witness_fetch_past_xb : ∃ (s : State) (u : _) (c : _) (slot : _) (t : Thread),
    s.sched = [] ∧
    s.agenda = [] ∧
    u = fillPosition s ∧
    current u = some (c, slot, t) ∧
    t.code = .running ∧
    (u.core c).selft = none ∧
    (u.core c).fenced = false ∧
    issueStopped u c = false ∧
    t.pc.toNat % 4 = 0 ∧
    (u.core c).xb ≤ t.pc.toNat :=
  ⟨on ({ t0 with pc := 0x100#64 }) { xb := 0x100 }, _, 0, 0, { t0 with pc := 0x100#64 }, by first | rfl | decide,
   by first | rfl | decide, rfl, by decide +kernel, by first | rfl | decide, by decide +kernel, by decide +kernel,
   by decide +kernel, by first | rfl | decide, by first | rfl | decide⟩

theorem witness_fetch_illegal : ∃ (s : State) (u : _) (c : _) (slot : _) (t : Thread) (w : BitVec 32) (x : _),
    s.sched = [] ∧
    s.agenda = [] ∧
    u = fillPosition s ∧
    current u = some (c, slot, t) ∧
    t.code = .running ∧
    (u.core c).selft = none ∧
    (u.core c).fenced = false ∧
    issueStopped u c = false ∧
    t.pc.toNat % 4 = 0 ∧
    t.pc.toNat < (u.core c).xb ∧
    isTcwHeader w = false ∧
    decodeWord w = .error (.illegal x) ∧
    Mem.readN (u.core c).spad t.pc.toNat 4 = bytesOfWord w :=
  ⟨on ({ t0 with pc := 0x100#64 }) { xb := 0x104, spad := Mem.writeN [] 0x100 (bytesOfWord 0b000_110010_0001001_0000000_000010101#32) },
   _, 0, 0, { t0 with pc := 0x100#64 }, 0b000_110010_0001001_0000000_000010101#32, _, by first | rfl | decide,
   by first | rfl | decide, rfl, by decide +kernel, by first | rfl | decide, by decide +kernel, by decide +kernel,
   by decide +kernel, by first | rfl | decide, by first | rfl | decide, by first | rfl | decide, rfl,
   by decide +kernel⟩

theorem witness_idle_turn : ∃ (s : State) (u : _),
    s.sched = [] ∧
    s.agenda = [] ∧
    u = fillPosition s ∧
    (∀ c slot t, current u = some (c, slot, t) → t.code ≠ .running ∨ (u.core c).selft.isSome ∨ (u.core c).fenced =
      true ∨ issueStopped u c = true) :=
  ⟨{}, _, by first | rfl | decide, by first | rfl | decide, rfl,
   fun c slot t h => by have : current (fillPosition {}) = none := rfl; rw [this] at h; cases h⟩

theorem witness_event : ∃ (s : State) (e : _) (es : _),
    s.sched = [] ∧
    s.agenda = e :: es :=
  ⟨{ agenda := [.thermalThrottle 0] }, _, _, by first | rfl | decide, rfl⟩

theorem witness_round_trip : ∃ (i : Instr),
    i.wf = true ∧
    encode i ≠ [] :=
  ⟨.copy 0#3 cpl0 copy0, by decide +kernel, by decide +kernel⟩

theorem witness_word : ∃ (w : _) (i : Instr),
    isTcwHeader w = false ∧
    decodeWord w = .ok i :=
  ⟨0x1040C#32, .add 0#3 1#7 2#7 3#7, by first | rfl | decide, rfl⟩

theorem witness_tile_words : ∃ (h : BitVec 32) (w1 : _) (w2 : _) (w3 : _) (w4 : _) (w5 : _) (w6 : _) (w7 : _) (i : Instr),
    isTcwHeader h = true ∧
    decodeTcw h w1 w2 w3 w4 w5 w6 w7 = .ok i :=
  ⟨0b000_111111_0001_111_0000000000000000#32, 0b000_111110_0000111_0001000_0000000_01#32,
   0b000_111110_0000001_0000010_0000011_00#32, 0b000_111110_0000100_0000101_0000110_00#32, 0x1F000000#32,
   0x1F000000#32, 0x1F000000#32, 0x1F000000#32, .copy 0#3 cpl0 copy0, by first | rfl | decide, rfl⟩

/-- R153: every register of the tile commands named, the highest. -/
theorem witness_tile : Issues (dTile 0#3 [7#7, 8#7, 0#7, 127#7, 126#7, 125#7, 124#7, 123#7, 122#7, 121#7, 120#7, 119#7, 118#7])
    s0 0 0 t0 ∧ t0.stepping = none := ⟨issues_of (by decide), rfl⟩

end Sys2Proof.Tests
end

section
/-!
Every step keeps the memories in their canonical form: what is left after the lemmas on every instruction
(`exec_memOk`), every event (`perform_memOk`) and the end of a cycle (`tick_memOk`) is the turn of a core and the
choice of the act.
-/
namespace Sys2Proof.Machine

/-- The choice of the next act takes it from the agenda and names the core whose turn it is; no memory is touched. -/
theorem memOk_choice {s : State} (turn : Nat) (agenda : List Event) (sched : List Pick) (h : MemOk s) :
    MemOk { s with turn := turn, agenda := agenda, sched := sched } := h

/-- R8, R11, R63: a core's cycle, whether its position is idle, its fetch faults or an instruction issues. -/
theorem issueTurn_memOk (s : State) (h : MemOk s) : OutOk (issueTurn s) := by
  have hfill : MemOk (fillPosition s) := fillPosition_memOk s h
  unfold issueTurn
  dsimp only
  split
  case h_1 => exact .next (tick_memOk _ _ hfill)
  case h_2 c slot f _ => exact .next (tick_memOk _ _ (fetchFaults_memOk _ c slot f hfill))
  case h_3 i _ => exact endCycle_memOk _ (exec_memOk i _ hfill)

/-- Whichever act the schedule or the agenda chooses: an event, a turn, or an event that is no longer there. -/
theorem step_memOk (s : State) (h : MemOk s) : OutOk (step s) := by
  unfold step
  split
  case h_1 k rest _ =>
    split
    case h_1 e _ => exact perform_memOk e _ (memOk_choice s.turn _ rest h)
    case h_2 => exact .next (memOk_choice s.turn s.agenda rest h)
  case h_2 c rest _ => exact issueTurn_memOk _ (memOk_choice c s.agenda rest h)
  case h_3 =>
    split
    case h_1 e rest _ => exact perform_memOk e _ (memOk_choice s.turn rest s.sched h)
    case h_2 => exact issueTurn_memOk s h

/-- Settles O60: an act whose outcome is in form (`step_memOk`) has a next state in form. -/
theorem everyStepKeepsTheMemoriesInForm : Obligations.EveryStepKeepsTheMemoriesInForm := by
  unfold Obligations.EveryStepKeepsTheMemoriesInForm
  intro s s' h hs
  exact outOk_get hs (step_memOk s h)

end Sys2Proof.Machine
end

section
/-!
The registers of a thread after a write (R17, R375).
-/
namespace Sys2Proof.Machine

/-! ## The registers of a thread (R17) -/

theorem Thread.setG_gv (t : Thread) (d : Nat) (w : Word) (r : Nat) :
    (t.setG d w).gv r = if r = d ∧ d ≠ 0 then w else t.gv r := by
  by_cases hd : d = 0
  · simp [Thread.setG, hd]
  · simp only [Thread.setG, hd, if_false, Thread.gv, Map.get?_set, ne_eq, not_false_eq_true, and_true]
    by_cases hr : r = d
    · simp [hr, hd]
    · simp [hr]

/-- A write of a g register is one of its map and of its poison mark alone. -/
theorem Thread.setG_eq (t : Thread) (d : Nat) (w : Word) :
    t.setG d w = { t with g := (t.setG d w).g, poison := (t.setG d w).poison } := by
  unfold Thread.setG
  split <;> rfl

theorem Thread.setV_vv (t : Thread) (d : Nat) (w : VWord) (r : Nat) :
    (t.setV d w).vv r = if r = d then w else t.vv r := by
  simp only [Thread.setV, Thread.vv, Map.get?_set]
  split <;> rfl

theorem Thread.setZ_zv (t : Thread) (d : Nat) (w : ZReg) (r : Nat) :
    (t.setZ d w).zv r = if r = d then w else t.zv r := by
  simp only [Thread.setZ, Thread.zv, Map.get?_set]
  split <;> rfl

/-- R375: a write of a g register clears the mark of that register and of no other. -/
theorem Thread.setG_poison (t : Thread) {d : Nat} (hd : d ≠ 0) (w : Word) (r : Nat) :
    (t.setG d w).poison.contains r = true ↔ r ≠ d ∧ t.poison.contains r = true := by
  simp [Thread.setG, hd, and_comm]

theorem Thread.setPw_pwv (t : Thread) (w : BitVec 8) : (t.setPw w).pwv = w ||| 1#8 := by
  simp [Thread.setPw, Thread.pwv, BitVec.or_assoc]

theorem Thread.p_zero (t : Thread) : t.p 0 = true := by
  simp [Thread.p, Thread.pwv]

/-- Settles O20: each register file's read after a write, and what the write leaves (`Thread.setG_eq`). -/
theorem registersKeepWhatIsWritten : Obligations.RegistersKeepWhatIsWritten := by
  unfold Obligations.RegistersKeepWhatIsWritten
  intro t
  refine ⟨rfl, t.p_zero, t.setG_gv, ?_, rfl, fun w => ⟨t.setPw_pwv w, rfl⟩, t.setV_vv, t.setZ_zv,
    fun d w r hd => t.setG_poison hd w r⟩
  intro d w
  rw [Thread.setG_eq]
  exact ⟨rfl, rfl, rfl, rfl⟩

end Sys2Proof.Machine
end

section
/-!
GETS and SETS: the state registers (R24, R204, R205).
-/
namespace Sys2Proof
open Machine

/-! ## GETS (R24, R204) -/

/-- A field of the core that an instruction's effect on its own thread leaves as it was. -/
theorem Becomes.coreField {s s1 : State} {c slot : Nat} {t : Thread} (B : Becomes s s1 c slot t) {α : Type}
    (f : Core → α) (hf : ∀ k, f { k with threads := [], rc := [] } = f k) : f (s1.core c) = f (s.core c) := by
  rw [← hf (s1.core c), ← hf (s.core c), B.core]

/-- A state register reads the same while an instruction issues. -/
theorem Becomes.stateReg {s s1 : State} {c slot : Nat} {u : Thread} (B : Becomes s s1 c slot u) (i : Instr)
    (t : Thread) (sel : Nat) : stateReg s1 c slot (reading i t) sel = stateReg s c slot t sel := by
  have hl : s1.launches = s.launches := B.field (fun s => s.launches) (fun _ => rfl)
  have hp : s1.pkg = s.pkg := B.field (fun s => s.pkg) (fun _ => rfl)
  have hc : (s1.core c).cyc = (s.core c).cyc := B.coreField (·.cyc) (fun _ => rfl)
  have ho : (s1.core c).owner = (s.core c).owner := B.coreField (·.owner) (fun _ => rfl)
  have hg : (s1.core c).gens = (s.core c).gens := B.coreField (·.gens) (fun _ => rfl)
  have hh : handleOf s1 c slot = handleOf s c slot := handleOf_eq hp ho hg
  unfold Machine.stateReg cycWord ckptWord State.launch?
  simp only [hl, hc, ho, hh, B.lock, B.same.xb]
  rfl

/-- GETS of any selector completes and writes the state register to g[d]. -/
theorem gets_reads (g : BitVec 3) (d : BitVec 7) (sel : BitVec 9) {s : State} {c slot : Nat} {t : Thread}
    (h : Issues { guard := g, g := [d.toNat], writes := [d.toNat] } s c slot t) (hp : Plain s c slot t) :
    ∃ s', exec (.gets g d sel) s = .next s' ∧
      Becomes s s' c slot ((past (.gets g d sel) 4 t).setG d.toNat (stateReg s c slot t sel.toNat)) := by
  have B := atIssue_becomes (i := .gets g d sel) (d := { guard := g, g := [d.toNat], writes := [d.toNat] }) h.turn
    hp.notStepped (.inl rfl)
  have W := B.writeG d.toNat (stateReg s c slot t sel.toNat)
  refine ⟨_, ?_, W⟩
  rw [exec_gets, execGets, issue_next h, B.stateReg]
  exact congrArg _ (afterIssue_eq W hp (by simpa [past] using hp.notStepped))

theorem getsGives_of {sel : BitVec 9} {v : State → Nat → Nat → Thread → Word}
    (hv : ∀ s c slot t, stateReg s c slot t sel.toNat = v s c slot t) : GetsGives sel v := by
  intro g d s c slot t h hp
  rw [← hv]
  exact gets_reads g d sel h hp

/-- Settles O18: GETS writes what `stateReg` reads (`gets_reads`), whose arms are the selectors of R24. -/
theorem getsReadsEveryStateRegister : Obligations.GetsReadsEveryStateRegister := by
  unfold Obligations.GetsReadsEveryStateRegister
  refine ⟨?any, ?_, ?tix, ?gsz, ?lcore, ?band, ?_, ?_, ?_, ?_, ?_, ?_, ?_, ?_, ?_, ?_, ?_, ?_, ?_, ?_, ?ckpt, ?_⟩
  case any =>
    intro g d sel _ s c slot t h hp
    obtain ⟨s', he, hB⟩ := gets_reads g d sel h hp
    exact ⟨s', he, _, hB⟩
  case tix | gsz | band =>
    refine getsGives_of (fun s c slot t => ?_)
    cases hl : s.launch? t.lid <;> simp [stateReg, hl]
  case lcore =>
    refine getsGives_of (fun s c slot t => ?_)
    cases ho : (s.core c).owner <;> simp [stateReg, ho]
  case ckpt =>
    refine getsGives_of (fun s c slot t => ?_)
    cases hk : (s.core c).lock <;> simp [stateReg, ckptWord, hk]
  all_goals exact getsGives_of (fun _ _ _ _ => rfl)

/-! ## SETS (R24, R204, R205) -/

/-- SETS of a register other than XB, of a value it takes, is one change of the thread. -/
theorem setsWrites_of {sel : BitVec 9} {ok : Word → Prop} {f : Thread → Word → Thread} (hx : sel ≠ 0x11#9)
    (hi : ∀ v, ok v → setsIllegal sel.toNat v = false) (hm : ∀ v, ok v → sel = 0x09#9 → v.toNat % 64 = 0)
    (hw : ∀ s c slot v, setsWrite s c slot sel.toNat v = s.modThread c slot (fun t => f t v))
    (hs : ∀ t v, (f t v).stepping = t.stepping) : SetsWrites sel ok f := by
  intro g a s c slot t hok h hp
  have B := (atIssue_becomes (i := .sets g a sel) (d := dSrc g a) h.turn hp.notStepped (.inl rfl)).modThread
    (fun u => f u (t.gv a.toNat))
  have hmis : (decide (sel.toNat = 0x09) && (t.gv a.toNat).toNat % 64 != 0) = false := by
    by_cases h9 : sel.toNat = 0x09
    · simp [hm _ hok (BitVec.eq_of_toNat_eq h9)]
    · simp [h9]
  refine ⟨_, ?_, B⟩
  rw [exec_sets]
  refine (issue_next h).trans (congrArg _ ?_)
  simp only [hx, if_false, setsChecked, reading_gv, hi _ hok, hmis, Bool.false_eq_true, hw]
  exact afterIssue_eq B hp (by simpa [past, hs] using hp.notStepped)

/-- A value that SETS refuses faults, and the register keeps its value. -/
theorem sets_faults {g : BitVec 3} {a : BitVec 7} {sel : BitVec 9} {s : State} {c slot : Nat} {t : Thread}
    {f : FaultInfo} (h : Issues (dSrc g a) s c slot t) (hx : sel ≠ 0x11#9)
    (hf : ∀ s, setsChecked s c slot sel.toNat (t.gv a.toNat) = takeFault s c slot f) :
    FaultsWith (.sets g a sel) (dSrc g a) s c slot t f :=
  faults_of exec_sets h (by simp only [hx, if_false, reading_gv, hf])

/-- SETS XB of a thread that has the right, of a value that XB takes, writes the core's XB. -/
theorem sets_xb {g : BitVec 3} {a : BitVec 7} {s s2 : State} {c slot : Nat} {t : Thread}
    (h : Issues (dSrc g a) s c slot t) (h64 : (t.gv a.toNat).toNat % 64 = 0) (hle : (t.gv a.toNat).toNat ≤ 0x20000)
    (hr : needRight (atIssue (.sets g a 0x11#9) (dSrc g a) s c slot t) c slot (reading (.sets g a 0x11#9) t) 5 =
      (s2, none)) :
    exec (.sets g a 0x11#9) s =
      .next (afterIssue (s2.modCore c (fun k => { k with xb := (t.gv a.toNat).toNat })) c slot) := by
  have hi : setsIllegal 0x11 (t.gv a.toNat) = false := by simpa [setsIllegal, h64] using hle
  rw [exec_sets]
  refine (issue_next h).trans (congrArg _ ?_)
  simp [hr, setsChecked, hi, setsWrite]

/-- Settles O19: what SETS writes (`setsWrites_of`, `sets_xb`), and the values that it refuses (`sets_faults`). -/
theorem setsWritesOrRefuses : Obligations.SetsWritesOrRefuses := by
  unfold Obligations.SetsWritesOrRefuses
  refine ⟨⟨?fpctl, ?fpflg, ?fline, ?_, ?geom0, ?_, ?zctl, ?_, ?xb⟩, ?refuses⟩
  case fpctl | fpflg | zctl =>
    exact setsWrites_of (by decide) (fun v hv => by simpa [setsIllegal] using hv) (fun _ _ h => by cases h)
      (fun _ _ _ _ => rfl) (fun _ _ => rfl)
  case fline =>
    exact setsWrites_of (by decide) (fun _ _ => rfl) (fun _ hv _ => hv) (fun _ _ _ _ => rfl) (fun _ _ => rfl)
  case geom0 =>
    exact setsWrites_of (by decide) (fun _ hv => hv) (fun _ _ h => by cases h) (fun _ _ _ _ => rfl) (fun _ _ => rfl)
  case xb => exact fun g a s c slot t s2 h h64 hle hr => sets_xb h h64 hle hr
  case refuses =>
    intro g a sel s c slot t v h hv
    subst hv
    refine ⟨?illegal, ?misalign⟩
    case illegal =>
      rintro (⟨rfl, hb⟩ | ⟨rfl, hb⟩ | ⟨rfl, hb⟩ | ⟨rfl, hb⟩) <;>
        exact sets_faults h (by decide) (fun s => by simp [setsChecked, setsIllegal, hb])
    case misalign =>
      rintro rfl hb
      exact sets_faults h (by decide) (fun s => by simp [setsChecked, setsIllegal, hb])
  all_goals
    exact setsWrites_of (by decide) (fun _ _ => rfl) (fun _ _ h => by cases h) (fun _ _ _ _ => rfl) (fun _ _ => rfl)

end Sys2Proof
end

section
/-!
Registers that an instruction cannot use: past the declared counts (R18, R63), or poisoned (R375).
-/
namespace Sys2Proof
open Machine

/-! ## Fields past the declared counts (R18, R63) -/

/-- The picked field of those that a test selects is one of the list that passes the test. -/
theorem limitPick_filter {p : Nat → Bool} {l : List Nat} (w : BitVec 32) {x : Nat} {xs : List Nat}
    (h : l.filter p = x :: xs) : limitPick w (x :: xs) ∈ l ∧ p (limitPick w (x :: xs)) = true := by
  have hm := limitPick_mem (w := w) (List.cons_ne_nil x xs)
  rw [← h] at hm ⊢
  exact List.mem_filter.1 hm

/-- Some field of a list is past the count: the test for it keeps at least one. -/
theorem filter_past {l : List Nat} {n : Nat} (h : ∃ x ∈ l, n ≤ x) : ∃ x xs, l.filter (fun r => n ≤ r) = x :: xs := by
  obtain ⟨x, hx, hn⟩ := h
  exact List.exists_cons_of_ne_nil (List.ne_nil_of_mem (List.mem_filter.2 ⟨hx, by simpa using hn⟩))

/-- No field of a list is past the count. -/
theorem filter_below {l : List Nat} {n : Nat} (h : ∀ x ∈ l, x < n) : l.filter (fun r => n ≤ r) = [] :=
  filter_nil_of (fun x hx => by simpa using h x hx)

theorem limitFault_g {t : Thread} {d : Desc} (h : ∃ x ∈ d.g, t.n ≤ x) : ∃ r ∈ d.g, t.n ≤ r ∧
    limitFault t d = some (mkFault fcReglimit 0#64 (BitVec.ofNat 64 (r + 256 * t.n))) := by
  obtain ⟨x, xs, hf⟩ := filter_past h
  obtain ⟨hm, hn⟩ := limitPick_filter t.iword hf
  exact ⟨_, hm, by simpa using hn, by unfold limitFault; rw [hf]⟩

theorem limitFault_v {t : Thread} {d : Desc} (hg : ∀ x ∈ d.g, x < t.n) (h : ∃ x ∈ d.v, t.m ≤ x) :
    ∃ r ∈ d.v, t.m ≤ r ∧
      limitFault t d = some (mkFault fcVclaim 0#64 (BitVec.ofNat 64 (r + 256 + 65536 * t.m))) := by
  obtain ⟨x, xs, hf⟩ := filter_past h
  obtain ⟨hm, hn⟩ := limitPick_filter t.iword hf
  exact ⟨_, hm, by simpa using hn, by unfold limitFault; rw [filter_below hg, hf]⟩

theorem limitFault_z {t : Thread} {d : Desc} (hg : ∀ x ∈ d.g, x < t.n) (hv : ∀ x ∈ d.v, x < t.m)
    (h : ∃ x ∈ d.z, t.zc ≤ x) : ∃ r ∈ d.z, t.zc ≤ r ∧
      limitFault t d = some (mkFault fcVclaim 0#64 (BitVec.ofNat 64 (r + 512 + 65536 * t.zc))) := by
  obtain ⟨x, xs, hf⟩ := filter_past h
  obtain ⟨hm, hn⟩ := limitPick_filter t.iword hf
  exact ⟨_, hm, by simpa using hn, by unfold limitFault; rw [filter_below hg, filter_below hv, hf]⟩

section
variable {i : Instr} {d : Desc} {body : Nat → Nat → Thread → State → State} {s : State} {c slot : Nat} {t : Thread}

/-- What the register cache says of a register is not changed by the note of the instruction in the thread. -/
theorem absent_reading (i : Instr) (r : Nat) :
    absent ((s.setThread c slot (reading i t)).core c) (reading i t) slot r = absent (s.core c) t slot r := by
  rw [State.core_setThread, if_pos rfl]
  rfl

/-- R63: once the guard has been read, a field past its count faults before the instruction issues. -/
theorem faultsEarly_limit (he : exec i = issue i d body) (hc : current s = some (c, slot, t))
    (hg : d.guard = 0#3 ∨ absent (s.core c) t slot 0 = false) {f : FaultInfo} (hf : limitFault (reading i t) d = some f) :
    FaultsEarly i s c slot t f := by
  have guardRead : (d.guard != 0#3 && absent (s.core c) t slot 0) = false := by
    rcases hg with hg | hg <;> simp [hg]
  unfold FaultsEarly
  rw [he]
  unfold issue
  simp only [hc]
  rw [show ({ t with ipc := t.pc, iword := encode32 i } : Thread) = reading i t from rfl]
  simp only [absent_reading, guardRead, hf, Bool.false_eq_true, if_false]

theorem faultsEarly_g (he : exec i = issue i d body) (hc : current s = some (c, slot, t))
    (hg : d.guard = 0#3 ∨ absent (s.core c) t slot 0 = false) (h : ∃ x ∈ d.g, t.n ≤ x) : ∃ r ∈ d.g, t.n ≤ r ∧
      FaultsEarly i s c slot t (mkFault fcReglimit 0#64 (BitVec.ofNat 64 (r + 256 * t.n))) := by
  obtain ⟨r, hr, hn, hf⟩ := limitFault_g (t := reading i t) h
  exact ⟨r, hr, hn, faultsEarly_limit he hc hg hf⟩

theorem faultsEarly_v (he : exec i = issue i d body) (hc : current s = some (c, slot, t))
    (hg : d.guard = 0#3 ∨ absent (s.core c) t slot 0 = false) (hgl : ∀ x ∈ d.g, x < t.n) (h : ∃ x ∈ d.v, t.m ≤ x) :
    ∃ r ∈ d.v, t.m ≤ r ∧
      FaultsEarly i s c slot t (mkFault fcVclaim 0#64 (BitVec.ofNat 64 (r + 256 + 65536 * t.m))) := by
  obtain ⟨r, hr, hn, hf⟩ := limitFault_v (t := reading i t) hgl h
  exact ⟨r, hr, hn, faultsEarly_limit he hc hg hf⟩

theorem faultsEarly_z (he : exec i = issue i d body) (hc : current s = some (c, slot, t))
    (hg : d.guard = 0#3 ∨ absent (s.core c) t slot 0 = false) (hgl : ∀ x ∈ d.g, x < t.n) (hvl : ∀ x ∈ d.v, x < t.m)
    (h : ∃ x ∈ d.z, t.zc ≤ x) : ∃ r ∈ d.z, t.zc ≤ r ∧
      FaultsEarly i s c slot t (mkFault fcVclaim 0#64 (BitVec.ofNat 64 (r + 512 + 65536 * t.zc))) := by
  obtain ⟨r, hr, hn, hf⟩ := limitFault_z (t := reading i t) hgl hvl h
  exact ⟨r, hr, hn, faultsEarly_limit he hc hg hf⟩

/-! ## Poisoned registers (R375) -/

/-- R63, R375: an unguarded instruction that has all it needs, of a thread with no relaxed access, faults POISON
where it would read a poisoned g register. -/
theorem faultsEarly_poison (he : exec i = issue i d body) (hc : current s = some (c, slot, t)) (hg : d.guard = 0#3)
    (hl : limitFault (reading i t) d = none) (hrel : t.relaxed = []) (hpw : d.pw = false)
    (here : ∀ r ∈ d.reads, r ≠ 0 → absent (s.core c) t slot r = false)
    (hp : ∃ r ∈ d.reads, r ≠ 0 ∧ t.poison.contains r = true) :
    FaultsEarly i s c slot t (mkFault fcPoison 0#64 0#64) := by
  have hdef : deferred (reading i t) d = none := by simp [deferred, reading, hrel]
  have hpendG : d.writes.filter (fun r => pendingG (reading i t) r) = [] :=
    filter_nil_of (fun r _ => by simp [pendingG, reading, hrel])
  have hpendV : (d.vreads ++ d.vwrites).filter (fun r => pendingV (reading i t) r) = [] :=
    filter_nil_of (fun r _ => by simp [pendingV, reading, hrel])
  have hreads : d.reads.filter (fun r => r != 0 && absent (s.core c) t slot r) = [] :=
    filter_nil_of (fun r hr => by
      by_cases h0 : r = 0
      · simp [h0]
      · simp [here r hr h0])
  have hbad : d.reads.any (fun r => r != 0 && t.poison.contains r) = true := by
    obtain ⟨r, hr, h0, hpr⟩ := hp
    exact List.any_eq_true.2 ⟨r, hr, by rw [hpr]; simp [h0]⟩
  unfold FaultsEarly
  rw [he]
  unfold issue
  simp only [hc]
  rw [show ({ t with ipc := t.pc, iword := encode32 i } : Thread) = reading i t from rfl]
  simp only [hg, hl, hdef, hpw, absent_reading, hreads, hpendG, hpendV, hrel, hbad, List.any_nil,
    List.map_nil, List.append_nil, bne_self_eq_false, Bool.and_false, Bool.false_and, Bool.true_or, Bool.false_eq_true,
    if_false, if_true]

/-- R26, R375: after a fault found before the issue, the thread is FAULTED at the instruction, its marks as before. -/
theorem FaultsEarly.thread {f : FaultInfo} (h : FaultsEarly i s c slot t f) : ∃ s' u, exec i s = .next s' ∧
    s'.thread? c slot = some u ∧ u.code = .faulted ∧ u.pc = t.pc ∧ u.poison = t.poison := by
  obtain ⟨b, hb⟩ := takeFault_thread (State.thread?_setThread_self s c slot (reading i t)) f
  exact ⟨_, _, h, hb, rfl, rfl, rfl⟩

end

/-! ## The forms of ADD, VADD and ZAND -/

theorem opRRR_issues (i : Instr) (g : BitVec 3) (d a b : BitVec 7) (f : Word → Word → Word) :
    ∃ body, opRRR i g d a b f = issue i (dRRR g d a b) body := ⟨_, funext fun s => by unfold opRRR; rfl⟩

theorem opV2_issues (i : Instr) (g : BitVec 3) (d a b : BitVec 6) (f : BitVec 32 → BitVec 32 → BitVec 32) :
    ∃ body, opV2 i g d a b f = issue i (dVVV g d a b) body := ⟨_, rfl⟩

theorem opZ2_issues (i : Instr) (g : BitVec 3) (d a b : BitVec 4) (f : ZWord → ZWord → ZWord) :
    ∃ body, opZ2 i g d a b f =
      issue i { guard := g, z := [d.toNat, a.toNat, b.toNat], zreads := [a.toNat, b.toNat] } body := by
  unfold opZ2 opZ
  exact ⟨_, rfl⟩

/-- Settles O22: a field past its count (`limitFault_g` and its kin), and a poisoned source (`faultsEarly_poison`). -/
theorem unusableRegistersFault : Obligations.UnusableRegistersFault := by
  unfold Obligations.UnusableRegistersFault
  refine ⟨?limits, ?g, ?v, ?z, ?poison⟩
  case limits =>
    intro i d body s c slot t he hc hg
    exact ⟨faultsEarly_g he hc hg, faultsEarly_v he hc hg, faultsEarly_z he hc hg⟩
  case g =>
    intro g d a b s c slot t hc hg hd ha hb
    obtain ⟨body, he⟩ : ∃ body, exec (.add g d a b) = issue _ (dRRR g d a b) body := opRRR_issues ..
    obtain ⟨r, hr, hn, hF⟩ := faultsEarly_g he hc hg ⟨d.toNat, by simp [dRRR], hd⟩
    simp only [dRRR, List.mem_cons, List.not_mem_nil, or_false] at hr
    rcases hr with rfl | rfl | rfl
    · exact hF
    · omega
    · omega
  case v =>
    intro g d a b s c slot t hc hg hd ha hb
    obtain ⟨body, he⟩ : ∃ body, exec (.vadd g d a b) = issue _ (dVVV g d a b) body := opV2_issues ..
    obtain ⟨r, hr, hn, hF⟩ := faultsEarly_v he hc hg (by simp [dVVV]) ⟨a.toNat, by simp [dVVV], ha⟩
    simp only [dVVV, List.mem_cons, List.not_mem_nil, or_false] at hr
    rcases hr with rfl | rfl | rfl
    · omega
    · exact hF
    · omega
  case z =>
    intro g d a b s c slot t hc hg hd ha hb
    obtain ⟨body, he⟩ : ∃ body, exec (.zand g d a b) = issue _ _ body := opZ2_issues ..
    obtain ⟨r, hr, hn, hF⟩ := faultsEarly_z he hc hg (by simp) (by simp) ⟨d.toNat, by simp, hd⟩
    simp only [List.mem_cons, List.not_mem_nil, or_false] at hr
    rcases hr with rfl | rfl | rfl
    · exact hF
    · omega
    · omega
  case poison =>
    intro g d a b s c slot t hc hlim hg hrel here h0 hp
    obtain ⟨body, he⟩ : ∃ body, exec (.add g d a b) = issue _ (dRRR g d a b) body := opRRR_issues ..
    have F : FaultsEarly (.add g d a b) s c slot t (mkFault fcPoison 0#64 0#64) :=
      faultsEarly_poison he hc hg
        (limitFault_none hlim (by simp [dRRR]) (by simp [dRRR])) hrel rfl here ⟨a.toNat, by simp [dRRR], h0, hp⟩
    obtain ⟨s', u, hx, hu, hcode, hpc, hpo⟩ := F.thread
    exact ⟨F, s', u, hx, hu, hcode, hpc, by rw [hpo, hp]⟩

end Sys2Proof
end

section
/-!
LDFE and STFE on a word of the own scratchpad (R10, R115, R116).
-/
namespace Sys2Proof
open Machine

/-! ## The word and its full bit -/

section
variable {s : State} {c slot : Nat}

/-- An LDFE that leaves the word as it is: the word and its full bit are read. -/
theorem spadUnit_ldfe {off : Nat} (hd : NoDue s c) (hp : Unpoisoned (s.core c) off 8) :
    spadUnit s c off 8 .ldfe true =
      (s, some (Mem.readN (s.core c).spad off 8 ++ [if fullBit (s.core c) off then 1#8 else 0#8])) := by
  unfold spadUnit
  simp [feFirst_calm hd, spadPoison_false hp]

/-- An unpaired core keeps no undo log: a write is one of the scratchpad alone. -/
theorem writePlace_logUndo (hw : ∀ w ∈ s.watches, ∀ o, w.place ≠ .spad c o) (hl : (s.core c).lock = none) (off n : Nat)
    (bs : List Byte) : writePlace (s.modCore c (fun k => logUndo k off n)) c (.spad c off) bs false =
      writePlace s c (.spad c off) bs false := by
  rw [writePlace_spad (s := s.modCore c _) hw, writePlace_spad hw]
  simp only [State.modCore, logUndo, hl, State.setCore_setCore, State.core_setCore, if_true]

theorem writePlace_watches (hw : ∀ w ∈ s.watches, ∀ o, w.place ≠ .spad c o) (off : Nat) (bs : List Byte) :
    (writePlace s c (.spad c off) bs false).watches = s.watches := by
  rw [writePlace_spad hw, State.modCore_watches]

/-- A core whose word at `off` is full. -/
def filled (off : Nat) (k : Core) : Core := { k with full := insertNat (off / 8) k.full }

/-- A core whose word at `off` is empty. -/
def emptied (off : Nat) (k : Core) : Core := { k with full := k.full.filter (· != off / 8) }

theorem setFull_true (s : State) (c off : Nat) : setFull s c off true = s.modCore c (filled off) := by
  unfold setFull
  simp only [if_true]
  split <;> rfl

theorem stfe_readsData (w : Word) : (UnitOp.stfe w).readsData = false := rfl

/-- An STFE that finds its word full, and has a register for the status, does nothing. -/
theorem spadUnit_stfe_full {off : Nat} (hd : NoDue s c) (hf : fullBit (s.core c) off = true) (w : Word) :
    spadUnit s c off 8 (.stfe w) true = (s, some [0#8]) := by
  unfold spadUnit
  simp only [feFirst_calm hd, hf, stfe_readsData, Bool.not_true, Bool.and_false, Bool.false_and, Bool.or_false,
    Bool.false_eq_true, if_false, if_true]

/-- An STFE that finds its word empty writes it and makes it full. -/
theorem spadUnit_stfe_empty {off : Nat} (hw : ∀ w ∈ s.watches, ∀ o, w.place ≠ .spad c o) (hd : NoDue s c)
    (hl : (s.core c).lock = none) (hf : fullBit (s.core c) off = false) (w : Word) :
    spadUnit s c off 8 (.stfe w) true =
      ((writePlace s c (.spad c off) (wordBytes w) false).modCore c (filled off), some [1#8]) := by
  have hn : feNext ((writePlace s c (.spad c off) (wordBytes w) false).modCore c (filled off)) c off = none :=
    feNext_none (by rw [State.modCore_watches, writePlace_watches hw]; exact hw) off
  unfold spadUnit
  simp only [feFirst_calm hd, hf, stfe_readsData, writePlace_logUndo hw hl, setFull_true, hn, Bool.not_true,
    Bool.and_false, Bool.false_and, Bool.or_false, Bool.false_eq_true, if_false, if_true]

/-! ## The waiting forms: no register takes the status -/

/-- R115: the word is not as the instruction needs it. -/
theorem feAct_waits {load : Bool} {slot d off : Nat} {va data : Word} (hd : NoDue s c)
    (hf : fullBit (s.core c) off = !load) : feAct s ⟨c, slot⟩ load d va c off data = .ok none := by
  unfold feAct
  cases load <;> simp [feFirst_calm hd, hf]

/-- R115: an LDFE of a full word reads it and empties it. -/
theorem feAct_load {slot d off : Nat} {va : Word} (hw : ∀ w ∈ s.watches, ∀ o, w.place ≠ .spad c o) (hd : NoDue s c)
    (hf : fullBit (s.core c) off = true) (hp : Unpoisoned (s.core c) off 8) (hq : ∀ q ∈ s.queries, q.answer = none) :
    feAct s ⟨c, slot⟩ true d va c off 0#64 =
      .ok (some ((writeG s c slot d (leWord (Mem.readN (s.core c).spad off 8))).modCore c (emptied off))) := by
  have G := CoreOnly.writeG s c slot d (leWord (Mem.readN (s.core c).spad off 8))
  have hwG := G.field (fun s => s.watches) (fun _ => rfl)
  have hqG := G.field (fun s => s.queries) (fun _ => rfl)
  unfold feAct
  simp only [feFirst_calm hd, hf, spadPoison_false hp, decide_true, Bool.not_true, Bool.and_false, bne_self_eq_false,
    Bool.false_eq_true, if_false, if_true]
  rw [changeFull_calm (by rw [hwG]; exact hw) off false (.inr (by rw [hqG]; exact hq))]
  rfl

/-- R115: an STFE of an empty word writes it and makes it full. -/
theorem feAct_store {slot off : Nat} {va data : Word} (hw : ∀ w ∈ s.watches, ∀ o, w.place ≠ .spad c o)
    (hd : NoDue s c) (hl : (s.core c).lock = none) (hf : fullBit (s.core c) off = false) :
    feAct s ⟨c, slot⟩ false 0 va c off data =
      .ok (some ((writePlace s c (.spad c off) (wordBytes data) false).modCore c (filled off))) := by
  unfold feAct
  simp only [feFirst_calm hd, hf, decide_true, Bool.not_true, Bool.and_false, bne_self_eq_false,
    Bool.false_eq_true, if_false, if_true, writePlace_logUndo hw hl]
  rw [changeFull_calm (by rw [writePlace_watches hw]; exact hw) off true (.inl rfl)]
  rfl

/-- Where no watch lies in the scratchpad, its watch table has an entry for the wait. -/
theorem feWait_calm {load : Bool} {d off : Nat} {va data : Word}
    (hw : ∀ w ∈ s.watches, ∀ o, w.place ≠ .spad c o) : feWait s c slot load d va (.spad c off) data =
      beginWait { s with watches := s.watches ++ [{ place := .spad c off, thread := ⟨c, slot⟩, kind := .fe }] } c slot
        .sleeping (.fe load d va (.spad c off) data true) := by
  have hroom : storeRoom s c (.spad c off) = true := by
    have hnone : ∀ w ∈ s.watches,
        (sameStore (w.from s) w.place c (.spad c off) && w.kind != .bar) = false := by
      intro w hm
      cases hp : w.place <;> simp [sameStore]
      case spad q o =>
        rintro rfl
        exact absurd hp (hw w hm o)
    simp [storeRoom, count, filter_nil_of hnone, storeSize]
  unfold feWait register
  simp only [hroom, if_true, addWatch]

/-- R107, R115: a waiting form whose address passes its checks in the own scratchpad acts on its word, or waits. -/
theorem startFe_own {t : Thread} {load : Bool} {d : Nat} {va data : Word} (h : Own s c va 8) (hd : NoDue s c)
    (hl : (s.core c).lock = none) : startFe s c slot t load d va data =
      match feAct s ⟨c, slot⟩ load d va c va.toNat data with
      | .error f => takeFault s c slot f
      | .ok (some s') => s'
      | .ok none => feWait s c slot load d va (.spad c va.toNat) data := by
  unfold startFe
  simp only [h.aligned, checkClass_own h.own h.data hl (k := .fe) (by simp), offCore_own h.own, feFirst_calm hd,
    bne_self_eq_false, Bool.false_eq_true, if_false] <;> rfl

end

/-! ## Full bits changed, and the whole instructions -/

section
variable {s s1 : State} {c slot : Nat} {t : Thread} {ws : List (Nat × List Byte)} {fl : List Nat}

theorem Alters.emptied (h : Alters s s1 c slot t ws fl) (off : Nat) :
    Alters s (s1.modCore c (emptied off)) c slot t ws (fl.filter (· != off / 8)) :=
  h.setFull (fun l => l.filter (· != off / 8))

theorem Alters.filled (h : Alters s s1 c slot t ws fl) (off : Nat) :
    Alters s (s1.modCore c (filled off)) c slot t ws (insertNat (off / 8) fl) := h.setFull (insertNat (off / 8))

/-- A word of the scratchpad written and made full, where no watch lies. -/
theorem Becomes.fill {u : Thread} (B : Becomes s s1 c slot t) (hc : Calm s c u) (hm : (s.core c).spad.wf = true)
    (off : Nat) (w : Word) :
    Alters s ((writePlace s1 c (.spad c off) (wordBytes w) false).modCore c (filled off)) c slot t
      [(off, wordBytes w)] (insertNat (off / 8) (s.core c).full) :=
  ((Alters.of_becomes B).write (by rw [B.same.spad]; exact hm) off (wordBytes w) hc.watches).filled off

/-- What an access to the own scratchpad asks of the core, while an instruction issues. -/
theorem Becomes.calm {u : Thread} (B : Becomes s s1 c slot t) (hc : Calm s c u) :
    (∀ w ∈ s1.watches, ∀ o, w.place ≠ .spad c o) ∧ NoDue s1 c ∧ (s1.core c).lock = none :=
  ⟨by rw [B.watches]; exact hc.watches, NoDue.of_events hc.due B.events, by rw [B.lock]; exact hc.unpaired⟩

theorem Becomes.fullBit (B : Becomes s s1 c slot t) (off : Nat) :
    Machine.fullBit (s1.core c) off = Machine.fullBit (s.core c) off := by
  unfold Machine.fullBit
  rw [B.same.full]

end

/-- What LDFE and STFE name (R115). -/
def dLdfe (g : BitVec 3) (d a b : BitVec 7) : Desc :=
  { guard := g, g := [d.toNat, a.toNat, b.toNat], reads := [a.toNat], writes := [d.toNat, b.toNat], drain := true }
def dStfe (g : BitVec 3) (d a b : BitVec 7) : Desc :=
  { guard := g, g := [d.toNat, a.toNat, b.toNat], reads := [d.toNat, a.toNat], writes := [b.toNat], drain := true }

theorem past_stepping {i : Instr} {n : Nat} {t : Thread} (h : t.stepping = none) : (past i n t).stepping = none := h

section
variable {g : BitVec 3} {d a b : BitVec 7} {s : State} {c slot : Nat} {t : Thread}

/-- LDFE with a register for the full bit reads the word and the bit. -/
theorem ldfe_reads (h : Issues (dLdfe g d a b) s c slot t) (hp : Plain s c slot t) (hc : Calm s c t)
    (ho : Own s c (t.gv a.toNat) 8) (hu : Unpoisoned (s.core c) (t.gv a.toNat).toNat 8) (hb : b ≠ 0#7) :
    ∃ s', exec (.ldfe g d a b) s = .next s' ∧ Becomes s s' c slot
      (((past (.ldfe g d a b) 4 t).setG d.toNat (leWord (Mem.readN (s.core c).spad (t.gv a.toNat).toNat 8))).setG
        b.toNat (if fullBit (s.core c) (t.gv a.toNat).toNat then 1#64 else 0#64)) := by
  refine ownReads_of (us := [piece (t.gv a.toNat) 8 .ldfe]) exec_ldfe (h.commit _) hp hc.unpaired (.inl hc.relaxed)
    (by simp only [hb, if_false]; rfl) (by simp) (by simpa [piece] using ho) (by simpa using past_stepping hp.notStepped) ?_
  intro s1 B
  obtain ⟨hw, hd, hl⟩ := B.calm hc
  have hs := spadUnit_ldfe hd (B.same.unpoisoned hu)
  refine ⟨s1, _, ownUnits_cons (c := c) (off := (t.gv a.toNat).toNat) rfl rfl hw hd hs rfl, ?_⟩
  have W := (B.writeG d.toNat (leWord (Mem.readN (s.core c).spad (t.gv a.toNat).toNat 8))).writeG b.toNat
    (if fullBit (s.core c) (t.gv a.toNat).toNat then 1#64 else 0#64)
  rw [B.same.spad, B.fullBit]
  simp only [finishAccess, List.headD_cons, List.take_left' (Mem.length_readN ..), List.drop_left' (Mem.length_readN ..)]
  split <;> simp_all [leWord, leNat]

/-- STFE with a register for the status writes the word and makes it full, when it is empty. -/
theorem stfe_writes (h : Issues (dStfe g d a b) s c slot t) (hp : Plain s c slot t) (hc : Calm s c t)
    (ho : Own s c (t.gv a.toNat) 8) (hm : (s.core c).spad.wf = true) (hb : b ≠ 0#7)
    (hf : fullBit (s.core c) (t.gv a.toNat).toNat = false) :
    ∃ s', exec (.stfe g d a b) s = .next s' ∧
      Alters s s' c slot ((past (.stfe g d a b) 4 t).setG b.toNat 1#64)
        [((t.gv a.toNat).toNat, wordBytes (t.gv d.toNat))] (insertNat ((t.gv a.toNat).toNat / 8) (s.core c).full) := by
  refine own_of (us := [piece (t.gv a.toNat) 8 (.stfe (t.gv d.toNat))]) exec_stfe (h.commit _) hp hc.unpaired
    (.inl hc.relaxed) (by simp only [hb, if_false]; rfl) (by simp) (by simpa [piece] using ho)
    (by simpa using past_stepping hp.notStepped) ?_
  intro s1 B
  obtain ⟨hw, hd, hl⟩ := B.calm hc
  have hs := spadUnit_stfe_empty hw hd hl (by rw [B.fullBit]; exact hf) (t.gv d.toNat)
  refine ⟨_, _, ownUnits_cons (c := c) (off := (t.gv a.toNat).toNat) rfl rfl hw hd hs
    (by rw [State.modCore_watches, writePlace_watches hw]), ?_⟩
  exact (B.fill hc hm (t.gv a.toNat).toNat (t.gv d.toNat)).writeG b.toNat 1#64

/-- STFE with a register for the status leaves a full word as it is. -/
theorem stfe_finds_full (h : Issues (dStfe g d a b) s c slot t) (hp : Plain s c slot t) (hc : Calm s c t)
    (ho : Own s c (t.gv a.toNat) 8) (hb : b ≠ 0#7) (hf : fullBit (s.core c) (t.gv a.toNat).toNat = true) :
    ∃ s', exec (.stfe g d a b) s = .next s' ∧
      Becomes s s' c slot ((past (.stfe g d a b) 4 t).setG b.toNat 0#64) := by
  refine ownReads_of (us := [piece (t.gv a.toNat) 8 (.stfe (t.gv d.toNat))]) exec_stfe (h.commit _) hp hc.unpaired
    (.inl hc.relaxed) (by simp only [hb, if_false]; rfl) (by simp) (by simpa [piece] using ho)
    (by simpa using past_stepping hp.notStepped) ?_
  intro s1 B
  obtain ⟨hw, hd, hl⟩ := B.calm hc
  have hs := spadUnit_stfe_full hd (by rw [B.fullBit]; exact hf) (t.gv d.toNat)
  exact ⟨s1, _, ownUnits_cons (c := c) (off := (t.gv a.toNat).toNat) rfl rfl hw hd hs rfl, B.writeG b.toNat 0#64⟩

/-! ### The waiting forms -/

section
variable {i : Instr} {e : Desc} {body : Nat → Nat → Thread → State → State} {load : Bool} {dst : Nat} {va data : Word}

/-- A waiting form that acts on its word at once is complete in its turn. -/
theorem fe_acts (he : exec i = issue i e body) (h : Issues e s c slot t) (hp : Plain s c slot t) (hc : Calm s c t)
    (ho : Own s c va 8)
    (hb : ∀ s1, body c slot (reading i t) s1 = startFe s1 c slot (reading i t) load dst va data) {u : Thread}
    {ws : List (Nat × List Byte)} {fl : List Nat} (hst : u.stepping = none)
    (hact : ∀ s1, Becomes s s1 c slot (past i e.len t) →
      ∃ s2, feAct s1 ⟨c, slot⟩ load dst va c va.toNat data = .ok (some s2) ∧ Alters s s2 c slot u ws fl) :
    ∃ s', exec i s = .next s' ∧ Alters s s' c slot u ws fl := by
  have B := atIssue_becomes (i := i) (d := e) h.turn hp.notStepped (.inr hc.unpaired)
  obtain ⟨hw, hd, hl⟩ := B.calm hc
  obtain ⟨s2, h2, A⟩ := hact _ B
  refine ⟨s2, ?_, A⟩
  rw [he, issue_next h, hb, startFe_own (ho.same B.same) hd hl, h2]
  exact congrArg _ (A.afterIssue hp hst)

/-- A waiting form that does not find its word as it needs it puts its thread to sleep. -/
theorem fe_sleeps (he : exec i = issue i e body) (h : Issues e s c slot t) (hp : Plain s c slot t) (hc : Calm s c t)
    (ho : Own s c va 8) (hlen : e.len = 4)
    (hb : ∀ s1, body c slot (reading i t) s1 = startFe s1 c slot (reading i t) load dst va data)
    (hf : fullBit (s.core c) va.toNat = !load) :
    ∃ s', exec i s = .next s' ∧ Left i s s' c slot t .sleeping (.fe load dst va (.spad c va.toNat) data true)
      (s.watches ++ [{ place := .spad c va.toNat, thread := ⟨c, slot⟩, kind := .fe }]) := by
  have B := atIssue_becomes (i := i) (d := e) h.turn hp.notStepped (.inr hc.unpaired)
  rw [hlen] at B
  obtain ⟨hw, hd, hl⟩ := B.calm hc
  have L := Left.of B (s.watches ++ [{ place := .spad c va.toNat, thread := ⟨c, slot⟩, kind := .fe }]) .sleeping
    (.fe load dst va (.spad c va.toNat) data true)
  refine ⟨_, leaves_of he h ?_ L.thread (by simp), L⟩
  rw [hb, startFe_own (ho.same B.same) hd hl, feAct_waits hd (by rw [B.fullBit]; exact hf)]
  show feWait _ c slot load dst va (.spad c va.toNat) data = _
  rw [feWait_calm hw, B.watches]

end

/-- LDFE that finds its word full, with no register for the bit, reads the word and empties it. -/
theorem ldfe_empties (h : Issues (dLdfe g d a 0#7) s c slot t) (hp : Plain s c slot t) (hc : Calm s c t)
    (ho : Own s c (t.gv a.toNat) 8) (hu : Unpoisoned (s.core c) (t.gv a.toNat).toNat 8)
    (hq : ∀ q ∈ s.queries, q.answer = none) (hf : fullBit (s.core c) (t.gv a.toNat).toNat = true) :
    ∃ s', exec (.ldfe g d a 0#7) s = .next s' ∧ Alters s s' c slot
      ((past (.ldfe g d a 0#7) 4 t).setG d.toNat (leWord (Mem.readN (s.core c).spad (t.gv a.toNat).toNat 8))) []
      ((s.core c).full.filter (· != (t.gv a.toNat).toNat / 8)) := by
  refine fe_acts exec_ldfe (h.commit _) hp hc ho (fun s1 => by simp only [if_true]; rfl)
    (by simpa using past_stepping hp.notStepped) ?_
  intro s1 B
  obtain ⟨hw, hd, hl⟩ := B.calm hc
  have W := B.writeG d.toNat (leWord (Mem.readN (s1.core c).spad (t.gv a.toNat).toNat 8))
  refine ⟨_, feAct_load hw hd (by rw [B.fullBit]; exact hf) (B.same.unpoisoned hu) (by rw [B.same.queries]; exact hq), ?_⟩
  rw [← B.same.spad]
  exact (Alters.of_becomes W).emptied _

/-- STFE that finds its word empty, with no register for the status, writes the word and makes it full. -/
theorem stfe_fills (h : Issues (dStfe g d a 0#7) s c slot t) (hp : Plain s c slot t) (hc : Calm s c t)
    (ho : Own s c (t.gv a.toNat) 8) (hm : (s.core c).spad.wf = true)
    (hf : fullBit (s.core c) (t.gv a.toNat).toNat = false) :
    ∃ s', exec (.stfe g d a 0#7) s = .next s' ∧ Alters s s' c slot (past (.stfe g d a 0#7) 4 t)
      [((t.gv a.toNat).toNat, wordBytes (t.gv d.toNat))] (insertNat ((t.gv a.toNat).toNat / 8) (s.core c).full) := by
  refine fe_acts exec_stfe (h.commit _) hp hc ho (fun s1 => by simp only [if_true]; rfl)
    (past_stepping hp.notStepped) ?_
  intro s1 B
  obtain ⟨hw, hd, hl⟩ := B.calm hc
  exact ⟨_, feAct_store hw hd hl (by rw [B.fullBit]; exact hf), B.fill hc hm _ _⟩

/-- Of a thread with no relaxed access, fewer registers read and any written do not keep an instruction from issuing. -/
theorem Issues.withNames {e : Desc} (h : Issues e s c slot t) (hr : t.relaxed = []) {rs ws : List Nat}
    (hs : ∀ r ∈ rs, r ∈ e.reads) : Issues { e with reads := rs, writes := ws } s c slot t where
  turn := h.turn
  gLimit := h.gLimit
  vLimit := h.vLimit
  zLimit := h.zLimit
  guarded := h.guarded
  noDeferred := by simp [deferred, hr]
  here := fun r hm => h.here r (hs r hm)
  pwHere := h.pwHere
  gFree := fun r _ => by simp [pendingG, hr]
  vFree := h.vFree
  drained := h.drained
  gClean := fun r hm => h.gClean r (hs r hm)
  pwClean := h.pwClean
  vClean := h.vClean
  zClean := h.zClean
  entry := h.entry

end

/-- Settles O27: LDFE and STFE with a register for the status (`ldfe_reads`, `stfe_writes`, `stfe_finds_full`), and the
waiting forms, which act (`ldfe_empties`, `stfe_fills`) or put the thread to sleep (`fe_sleeps`). -/
theorem fullEmptyFormsReadWriteOrSleep : Obligations.FullEmptyFormsReadWriteOrSleep := by
  unfold Obligations.FullEmptyFormsReadWriteOrSleep
  have full {k : Core} {n : Nat} (h : n / 8 ∈ k.full) : fullBit k n = true := by simpa [fullBit] using h
  have empty {k : Core} {n : Nat} (h : n / 8 ∉ k.full) : fullBit k n = false := by simpa [fullBit] using h
  refine ⟨⟨?ldfe, ?stfe⟩, ?sleeps⟩
  case ldfe =>
    intro g d a b s c slot t ea w hea hwd h hp hc ho hu hq
    subst hea hwd
    refine ⟨fun hb => ?_, ?_⟩
    · simpa [fullBit] using ldfe_reads h hp hc ho hu hb
    · rintro rfl hf
      exact ldfe_empties h hp hc ho hu hq (full hf)
  case stfe =>
    intro g d a b s c slot t ea hea h hp hc ho hm
    subst hea
    refine ⟨fun hf => ?_, fun hb hf => stfe_finds_full h hp hc ho hb (full hf)⟩
    by_cases hb : b = 0#7
    · subst hb
      exact stfe_fills h hp hc ho hm (empty hf)
    · rw [if_neg hb]
      exact stfe_writes h hp hc ho hm hb (empty hf)
  case sleeps =>
    intro g d a s c slot t ea w hea hwd h hp hc ho
    subst hea hwd
    refine ⟨fun hf => ?_, fun hf => ?_⟩
    · have hi : Issues (dLdfe g d a 0#7) s c slot t := h.withNames hc.relaxed (by simp)
      exact fe_sleeps exec_ldfe (hi.commit _) hp hc ho rfl (fun s1 => by simp only [if_true]; rfl) (empty hf)
    · have hi : Issues (dStfe g d a 0#7) s c slot t := h.withNames hc.relaxed (by simp)
      exact fe_sleeps exec_stfe (hi.commit _) hp hc ho rfl (fun s1 => by simp only [if_true]; rfl) (full hf)

end Sys2Proof
end

section
/-!
Taking a fault, and its record (R26, R27).
-/
namespace Sys2Proof
open Machine

/-- A word of memory among words that lie one after another. -/
theorem word_of_flatMap (ws : List Word) (k : Nat) (w : Word) (h : ws[k]? = some w) :
    leWord (((ws.flatMap wordBytes).drop (8 * k)).take 8) = w := by
  induction ws generalizing k with
  | nil => simp at h
  | cons x ws ih =>
    cases k with
    | zero =>
      obtain rfl : x = w := by simpa using h
      simp [List.take_left' (length_wordBytes x)]
    | succ k =>
      have hd : (wordBytes x ++ ws.flatMap wordBytes).drop (8 * (k + 1)) = (ws.flatMap wordBytes).drop (8 * k) := by
        rw [show 8 * (k + 1) = (wordBytes x).length + 8 * k by rw [length_wordBytes]; omega, List.drop_append]
        simp
      rw [List.flatMap_cons, hd]
      exact ih k (by simpa using h)

/-- R27: the eight words of a record. -/
def recordWords (handle pc wid seq : Word) (f : FaultInfo) : List Word :=
  [f.code.setWidth 64 + f.flags.setWidth 64 * 65536#64, handle, pc, f.addr, f.word.setWidth 64, f.extra, wid, seq]

theorem recordBytes_eq (handle pc wid seq : Word) (f : FaultInfo) :
    recordBytes handle pc wid seq f = (recordWords handle pc wid seq f).flatMap wordBytes := by
  have h0 : BitVec.ofNat 64 (f.code.toNat + 65536 * f.flags.toNat) =
      f.code.setWidth 64 + f.flags.setWidth 64 * 65536#64 := by bv_omega
  simp only [recordBytes, h0, recordWords, List.flatMap_cons, List.flatMap_nil, List.append_assoc, List.append_nil]

/-- Settles O23: the thread as `takeFault_thread` has it, and the record's words (`recordBytes_eq`). -/
theorem takingAFaultWritesItsRecord : Obligations.TakingAFaultWritesItsRecord := by
  unfold Obligations.TakingAFaultWritesItsRecord
  refine ⟨?thread, ?record⟩
  case thread =>
    intro s c slot t f h
    obtain ⟨b, hb⟩ := takeFault_thread h f
    exact ⟨_, hb, rfl, rfl, rfl, rfl, rfl, rfl, rfl, rfl, rfl, rfl, rfl, rfl, rfl, rfl, rfl, rfl, rfl⟩
  case record =>
    intro handle pc wid seq f
    have word (k : Nat) {w : Word} (h : (recordWords handle pc wid seq f)[k]? = some w) :
        leWord (((recordBytes handle pc wid seq f).drop (8 * k)).take 8) = w := by
      rw [recordBytes_eq]
      exact word_of_flatMap _ k w h
    exact ⟨by simp [recordBytes], word 0 rfl, word 1 rfl, word 2 rfl, word 3 rfl, word 4 rfl, word 5 rfl, word 6 rfl,
      word 7 rfl⟩

end Sys2Proof
end

section
/-!
The queues of a core's threads: the rotation fill (R11), register fills (R20) and contexts (R23).
-/
namespace Sys2Proof
open Machine

section
variable {c slot : Nat} {s : State} {t : Thread}

/-- R11: the head of the ready queue, READY since an earlier cycle, takes an empty position of a core that issues. -/
theorem rotationFill_takes {y : Nat} {rest : List (Nat × Nat)}
    (hpos : Map.has (s.core c).rot ((s.core c).cyc % 16) = false) (hself : (s.core c).selft = none)
    (hstop : issueStopped s c = false) (hq : (s.core c).ready = (slot, y) :: rest) (hy : y < (s.core c).cyc)
    (h : s.thread? c slot = some t) :
    exec (.rotationFill c) s = .next ((s.setCore c { s.core c with
      rot := Map.set (s.core c).rot ((s.core c).cyc % 16) slot, ready := rest }).setThread c slot
        { t with code := .running }) := by
  have h1 : (s.setCore c { s.core c with
      rot := Map.set (s.core c).rot ((s.core c).cyc % 16) slot, ready := rest }).thread? c slot = some t :=
    (thread?_setCore (by rfl) c slot).trans h
  have hopen : (Map.has (s.core c).rot ((s.core c).cyc % 16) || (s.core c).selft.isSome || issueStopped s c) =
      false := by simp [hpos, hself, hstop]
  rw [exec_rotationFill, execRotationFill]
  simp only [hopen, hq, Bool.false_eq_true, if_false, Nat.not_le.2 hy]
  rw [State.modThread_eq h1]

/-- R20: the request at the head of the queue that leaves an entry neither pending nor reserved is admitted, whole. -/
theorem registerFillAdmit_admits {rest regs need : List Nat} (hq : (s.core c).fillq = slot :: rest)
    (h : s.thread? c slot = some t) (hw : t.wait = .fill regs)
    (hn : need = regs.filter (fun r => r < 128 && cold (s.core c) t slot r))
    (hroom : busyEntries (s.core c) + need.length < rcSize (s.core c)) :
    exec (.registerFillAdmit c) s = .next (postFill
      ((reserveAll (s.setCore c { s.core c with fillq := rest }) c slot need).post (.registerFillComplete c slot)) c) := by
  subst hn
  rw [exec_registerFillAdmit, execRegisterFillAdmit]
  simp only [hq, h, hw, hroom, if_true]

/-- R20, R112: a thread whose registers are all there may issue again. -/
theorem registerFillComplete_resumes {regs : List Nat} (h : Waits s c slot t (.fill regs)) (hc : t.code = .waiting)
    (hq : slot ∉ (s.core c).fillq)
    (hr : ∀ r ∈ regs, pendingG t r = false ∧ (128 ≤ r → pendingV t (r - 128) = false)) :
    exec (.registerFillComplete c slot) s = .next (wakeUp s c slot t) := by
  have hg : regs.any (fun r => pendingG t r) = false := any_false_of (fun r hm => (hr r hm).1)
  have hv : regs.any (fun r => 128 ≤ r && pendingV t (r - 128)) = false :=
    any_false_of (fun r hm => by
      by_cases h128 : 128 ≤ r
      · simp [(hr r hm).2 h128]
      · simp [h128])
  have hf : (s.core c).fillq.contains slot = false := by simpa using hq
  rw [exec_registerFillComplete, execRegisterFillComplete]
  simp only [h.thread, h.wait, hg, hv, hf, Bool.or_self, Bool.false_eq_true, if_false, resumeIssue, hc]

/-- R23: the first that waits for a context, when one is free, has it back. -/
theorem threadFill_fills {rest : List CtxReq} (hq : (s.core c).ctxWait = .fill slot :: rest)
    (h : s.thread? c slot = some t) (hfree : contexts s c < 512) :
    exec (.threadFill c) s = .next (postCtx (((s.modCore c (fun k => { k with ctxWait := rest })).setThread c slot
      { t with away := false }).post (.threadFillComplete c slot)) c) := by
  have h1 : (s.modCore c (fun k => { k with ctxWait := rest })).thread? c slot = some t :=
    (thread?_modCore (by rfl) c slot).trans h
  rw [exec_threadFill, execThreadFill]
  simp only [hq, h, freeContext, hfree, if_true]
  rw [State.modThread_eq h1]

end

/-- Settles O32: what each event of the queues does (`rotationFill_takes` and those after it), and what it leaves. -/
theorem readyFillAndContextQueuesAreServed : Obligations.ReadyFillAndContextQueuesAreServed := by
  unfold Obligations.ReadyFillAndContextQueuesAreServed
  refine ⟨?rotation, ?enters, ?complete, ?fill, ?filled⟩
  case rotation =>
    intro c s slot y rest t hpos hself hstop hq hy h
    refine ⟨_, rotationFill_takes hpos hself hstop hq hy h, (CoreOnly.setCore ..).trans (.setThread ..), ?_, ?_,
      State.thread?_setThread_self .., ?_⟩
    · simp [State.core_setThread]
    · simp [State.core_setThread]
    · intro x hx
      rw [State.thread?_setThread, if_neg (fun hh => hx hh.2)]
      exact thread?_setCore (by rfl) c x
  case enters =>
    intro c s slot rest t regs need hq h hw hn hroom
    obtain ⟨hfillq, hthread⟩ := reserveAll_core (s.setCore c { s.core c with fillq := rest }) c slot need
    refine ⟨_, registerFillAdmit_admits hq h hw hn hroom, ?_, postFill_agenda c (by simp), ?_, ?_⟩
    · rw [postFill_core, State.core_post, hfillq, State.core_setCore_self]
    · rw [State.thread?, postFill_core]
      exact hthread.trans ((thread?_setCore (by rfl) c slot).trans h)
    · intro hlen r hr
      rw [postFill_core, State.core_post]
      exact (reserveAll_rc _ c slot need (by rw [State.core_setCore_self]; exact hlen)).1 r hr
  case complete =>
    intro c slot s t regs h hc hq hr
    exact ⟨_, registerFillComplete_resumes h hc hq hr, .wakeUp .., wakeUp_resumed h.here⟩
  case fill =>
    intro c s slot rest t hq h _ hfree
    refine ⟨_, threadFill_fills hq h hfree, ?_, ?_, ?_, postCtx_agenda c (by simp)⟩
    · exact (((CoreOnly.modCore ..).trans (.setThread ..)).trans (.post ..)).trans (.postCtx ..)
    · rw [postCtx_core]
      simp [State.core_setThread]
    · rw [State.thread?, postCtx_core]
      exact State.thread?_setThread_self ..
  case filled =>
    intro c slot s t h hc ha hw
    refine ⟨makeReady s c slot, ?_, .makeReady .., makeReady_resumed h hw⟩
    rw [exec_threadFillComplete, execThreadFillComplete]
    simp [h, hc, ha]

end Sys2Proof
end

section
/-!
The special-function queue and the stochastic unit (R29, R30, R141, R148, R185, R186).
-/
namespace Sys2Proof
open Machine

/-! ## A thread that leaves the rotation, and another change of its core -/

theorem Left.begin {i : Instr} {s s1 : State} {c slot : Nat} {t : Thread} (B : Becomes s s1 c slot (past i 4 t))
    (code : TCode) (w : Wait) : Left i s (beginWait s1 c slot code w) c slot t code w s.watches := by
  have L := Left.of B s1.watches code w
  rw [B.watches] at L
  rwa [show ({ s1 with watches := s.watches } : State) = s1 by rw [← B.watches]] at L

/-- A core but for what leaving the rotation changes of it. -/
def unrotated (k : Core) : Core := { k with threads := [], rc := [], rot := [], ready := [] }

/-- A change of the rest of the core may as well have been made before. -/
theorem Left.modCore {i : Instr} {s s1 : State} {c slot : Nat} {t : Thread} {code : TCode} {w : Wait} {ws : List Watch}
    (L : Left i s s1 c slot t code w ws) {f : Core → Core} (ht : ∀ k, (f k).threads = k.threads)
    (hr : ∀ k, (f k).rot = k.rot) (hc : ∀ k, (f k).cyc = k.cyc) (hf : ∀ k, unrotated (f k) = f (unrotated k)) :
    Left i (s.modCore c f) (s1.modCore c f) c slot t code w ws := by
  refine ⟨?_, ?_, ?_, ?_, ?_, L.watches, L.rest⟩
  · rw [thread?_modCore (ht _), L.thread, State.core_modCore_self, hc]
  · intro x hx
    rw [thread?_modCore (ht _), thread?_modCore (ht _), L.others x hx]
  · rw [State.core_modCore_self, State.core_modCore_self, hr, hr, L.rot]
  · rw [State.core_modCore_self, State.core_modCore_self]
    show unrotated (f (s1.core c)) = unrotated (f (s.core c))
    rw [hf, hf]
    exact congrArg f L.core
  · intro x hx
    rw [State.core_modCore, State.core_modCore, if_neg hx, if_neg hx, L.cores x hx]

/-! ## Requests (R29, R30) -/

/-- A request of the special-function unit, as its instruction makes it. -/
def sfuReq (i : Instr) (d a : BitVec 6) (x : List Nat) (slot : Nat) (t : Thread) : SfuReq :=
  { slot := slot, instr := i, vd := d.toNat, a := t.vv a.toNat, b := (x.head?.map t.vv).getD 0#512, fpctl := t.fpctl }

/-- What a special-function instruction names: its destination and its sources. -/
def dSfu (g : BitVec 3) (d a : BitVec 6) (x : List Nat) : Desc :=
  { guard := g, v := d.toNat :: a.toNat :: x, vreads := a.toNat :: x, vwrites := [d.toNat] }

theorem opSfu_eq (i : Instr) (g : BitVec 3) (d a : BitVec 6) (x : List Nat) :
    opSfu i g d a x = issue i (dSfu g d a x) (fun c slot t s => sfuJoin s c slot (sfuReq i d a x slot t)) := by
  cases x <;> rfl

section
variable {i : Instr} {g : BitVec 3} {d a : BitVec 6} {x : List Nat} {s : State} {c slot : Nat} {t : Thread}

/-- The request joins the queue when it has a place and none waits. -/
theorem sfu_joins (he : exec i = opSfu i g d a x) (h : Issues (dSfu g d a x) s c slot t) (hp : Plain s c slot t)
    (hq : (s.core c).sfuq.length < 32) (hw : (s.core c).sfuWait = []) :
    ∃ s', exec i s = .next s' ∧ .sfuRequestComplete c ∈ s'.agenda ∧
      Left i (s.modCore c (fun k => { k with sfuq := k.sfuq ++ [sfuReq i d a x slot t] })) s' c slot t .waiting .sfu
        s.watches := by
  have B := atIssue_becomes (i := i) (d := dSfu g d a x) h.turn hp.notStepped (.inl rfl)
  have L := ((Left.begin B .waiting .sfu).modCore (f := fun k => { k with sfuq := k.sfuq ++ [sfuReq i d a x slot t] })
    (fun _ => rfl) (fun _ => rfl) (fun _ => rfl) (fun _ => rfl)).post (.sfuRequestComplete c)
  refine ⟨_, leaves_of (he.trans (opSfu_eq ..)) h ?_ L.thread (by simp), by simp, L⟩
  have hq' := B.coreField (·.sfuq) (fun _ => rfl)
  have hw' := B.coreField (·.sfuWait) (fun _ => rfl)
  unfold sfuJoin
  simp only [hq', hw', hq, hw, decide_true, List.isEmpty_nil, Bool.and_self, if_true]
  rfl

/-- Otherwise its thread waits for a place. -/
theorem sfu_waits (he : exec i = opSfu i g d a x) (h : Issues (dSfu g d a x) s c slot t) (hp : Plain s c slot t)
    (hq : 32 ≤ (s.core c).sfuq.length ∨ (s.core c).sfuWait ≠ []) :
    ∃ s', exec i s = .next s' ∧
      Left i (s.modCore c (fun k => { k with sfuWait := k.sfuWait ++ [slot] })) s' c slot t .waiting
        (.sfuPlace (sfuReq i d a x slot t)) s.watches := by
  have B := atIssue_becomes (i := i) (d := dSfu g d a x) h.turn hp.notStepped (.inl rfl)
  have L := (Left.begin B .waiting (.sfuPlace (sfuReq i d a x slot t))).modCore
    (f := fun k => { k with sfuWait := k.sfuWait ++ [slot] }) (fun _ => rfl) (fun _ => rfl) (fun _ => rfl) (fun _ => rfl)
  refine ⟨_, leaves_of (he.trans (opSfu_eq ..)) h ?_ L.thread (by simp), L⟩
  have hfull : (decide ((s.core c).sfuq.length < 32) && (s.core c).sfuWait.isEmpty) = false := by
    rcases hq with hq | hq
    · simp [Nat.not_lt.2 hq]
    · simp [hq]
  have hq' := B.coreField (·.sfuq) (fun _ => rfl)
  have hw' := B.coreField (·.sfuWait) (fun _ => rfl)
  unfold sfuJoin
  simp only [hq', hw', hfull, Bool.false_eq_true, if_false]
  rfl

end

section
variable {s : State} {c slot : Nat} {t : Thread}

/-- R29: the first that waits for a place gets one. -/
theorem sfuQueueAdmit_admits {rest : List Nat} {r : SfuReq} (hw : (s.core c).sfuWait = slot :: rest)
    (hq : (s.core c).sfuq.length < 32) (h : Waits s c slot t (.sfuPlace r)) :
    exec (.sfuQueueAdmit c) s = .next ((((s.setCore c { s.core c with sfuWait := rest }).setThread c slot
      { t with wait := .sfu }).modCore c (fun k => { k with sfuq := k.sfuq ++ [r] })).post (.sfuRequestComplete c)) := by
  have h1 : (s.setCore c { s.core c with sfuWait := rest }).thread? c slot = some t :=
    (thread?_setCore (by rfl) c slot).trans h.thread
  rw [exec_sfuQueueAdmit, execSfuQueueAdmit]
  simp only [hw, Nat.not_le.2 hq, if_false, h1, h.wait]

theorem finishWait_sfuq (s : State) (c slot x : Nat) : ((finishWait s c slot).core x).sfuq = (s.core x).sfuq := by
  have e := congrArg Core.sfuq (bare_finishWait s c slot x)
  exact e

/-- R30: the request at the head of the queue writes its result and its flags, and its thread goes on. -/
theorem sfuRequestComplete_writes {r : SfuReq} {rest : List SfuReq} (hq : (s.core c).sfuq = r :: rest)
    (h : Waits s c r.slot t .sfu) : ∃ s', exec (.sfuRequestComplete c) s = .next s' ∧ (s'.core c).sfuq = rest ∧
      Resumed s' c r.slot ((withFlags t (sfuResult r).2).setV r.vd (sfuResult r).1) := by
  obtain ⟨s1, hs1⟩ : ∃ s1, s1 = if (s.core c).sfuWait.isEmpty then s.setCore c { s.core c with sfuq := rest }
    else (s.setCore c { s.core c with sfuq := rest }).post (.sfuQueueAdmit c) := ⟨_, rfl⟩
  have hcore : s1.core c = { s.core c with sfuq := rest } := by
    rw [hs1]
    split
    · exact State.core_setCore_self ..
    · exact State.core_setCore_self ..
  have h1 : s1.thread? c r.slot = some t := by
    rw [State.thread?, hcore]
    exact h.thread
  have B := (Becomes.refl h1).vresult r.vd (sfuResult r)
  refine ⟨finishWait (vresult s1 c r.slot r.vd (sfuResult r)) c r.slot, ?_, ?_,
    finishWait_resumed B.thread h.code h.notStepped h.here⟩
  · rw [exec_sfuRequestComplete, execSfuRequestComplete]
    simp only [hq, ← hs1, h1, h.wait]
  · rw [finishWait_sfuq, B.coreField (·.sfuq) (fun _ => rfl), hcore]

/-- R185, R186: a stream instruction that is done writes its destinations, and its thread goes on. -/
theorem ssuComplete_writes {e : Nat} {w : List RegWrite} (h : Waits s c slot t (.ssu e w)) (he : e ≤ (s.core c).cyc) :
    exec (.ssuComplete c slot) s = .next (finishWait (applyWrites s c slot w) c slot) := by
  rw [exec_ssuComplete, execSsuComplete]
  simp only [h.thread, h.wait, he, if_true]

end

/-- The instructions of R141 and R148 are special-function requests. -/
theorem exec_special {i : Instr} {g : BitVec 3} {d a b : BitVec 6} {p : BitVec 1} {x : List Nat}
    (h : i = .vfdiv g d a b p ∧ x = [b.toNat] ∨ x = [] ∧ (i = .vfsqrt g d a p ∨ i = .vrcp g d a ∨ i = .vrsq g d a ∨
      i = .vexp2 g d a ∨ i = .vlog2 g d a ∨ i = .vsin g d a ∨ i = .vcos g d a ∨ i = .vtanh g d a ∨
      i = .vsigm g d a)) : exec i = opSfu i g d a x := by
  rcases h with ⟨rfl, rfl⟩ | ⟨rfl, rfl | rfl | rfl | rfl | rfl | rfl | rfl | rfl | rfl⟩
  · exact exec_vfdiv
  · exact exec_vfsqrt
  · exact exec_vrcp
  · exact exec_vrsq
  · exact exec_vexp2
  · exact exec_vlog2
  · exact exec_vsin
  · exact exec_vcos
  · exact exec_vtanh
  · exact exec_vsigm

/-- Settles O42: a request joins the queue or waits (`sfu_joins`, `sfu_waits`), is admitted, and is complete. -/
theorem requestsOfTheSharedUnits : Obligations.RequestsOfTheSharedUnits := by
  unfold Obligations.RequestsOfTheSharedUnits
  refine ⟨?issue, ?enters, ?complete, ?ssu⟩
  case issue =>
    intro i g d a b p x s c slot t r hi h hp hr
    have he := exec_special hi
    subst hr
    exact ⟨fun hq hw => sfu_joins he h hp hq hw, fun hq => sfu_waits he h hp hq⟩
  case enters =>
    intro s c slot rest t r hw hq h
    refine ⟨_, sfuQueueAdmit_admits hw hq h, ?_, ?_, ?_, by simp⟩
    · rw [State.thread?_post, thread?_modCore (by rfl), State.thread?_setThread_self]
    · simp [State.core_setThread]
    · simp [State.core_setThread]
  case complete => exact fun s c t r rest hq h => sfuRequestComplete_writes hq h
  case ssu =>
    intro s c slot t e w h he
    refine ⟨_, ssuComplete_writes h he, ?_, ?_, ?_⟩
    · rintro d v rfl
      exact h.finish s h.thread d v
    · rintro d v rfl
      exact finishWait_resumed ((Becomes.refl h.thread).modThread (fun u => u.setV d v)).thread h.code h.notStepped h.here
    · rintro d v rfl
      exact finishWait_resumed ((Becomes.refl h.thread).modThread (fun u => u.setZ d v)).thread h.code h.notStepped h.here

end Sys2Proof
end

section
/-!
Accesses of one piece, performed where they stand (R15, R106, R111, R112, R216, R343).
-/
namespace Sys2Proof
open Machine

/-! ## An access and its pieces -/

/-- One piece, performed: its bytes are there. -/
def doneUnit (u : MUnit) (o : List Byte) : MUnit := { u with out := some o, sent := true }

theorem setOut_one (u : MUnit) (o : List Byte) : setOut [u] 0 o = [doneUnit u o] := rfl

theorem accOf_waited {t : Thread} {a : Access} (h : t.wait = .access a) : accOf t none = some a := by
  simp only [accOf, h]

/-- R111: no relaxed access holds a piece of the thread back: there is none, or the piece is of the only one. -/
def Unhindered (t : Thread) (rid : Option Nat) : Prop :=
  t.relaxed = [] ∨ ∃ x, t.relaxed = [x] ∧ rid = some x.id

/-- A piece on a coherent line waits for nothing but an earlier access of its thread, or for an INVR of its core. -/
theorem mustWait_coherent {s : State} {c slot : Nat} {t : Thread} {rid : Option Nat} {u : MUnit} {pkg pa : Nat}
    (ht : Unhindered t rid) (hi : u.op = .load ∨ invrHolds s c (.page .coherent pkg pa) = false) :
    mustWait s ⟨c, slot⟩ t rid u (.page .coherent pkg pa) = false := by
  unfold mustWait
  rcases ht with ht | ⟨x, ht, rfl⟩
  · rcases hi with hi | hi
    · simp [hi, ht]
    · cases u.op <;> simp [hi, ht]
  · rcases hi with hi | hi
    · simp [hi, ht]
    · cases u.op <;> simp [hi, ht]

/-- The one piece of an access that is to be performed where it stands. -/
theorem performHere_one {s : State} {c slot : Nat} {rid : Option Nat} {t : Thread} {a : Access} {u : MUnit} {p : Place}
    (h : s.thread? c slot = some t) (ha : accOf t rid = some a) (hu : a.units = [u]) (hp : u.place = some p)
    (hs : u.sent = false) (ho : u.out = none) (hw : mustWait s ⟨c, slot⟩ t rid u p = false)
    (hsend : sendUnit s ⟨c, slot⟩ rid t.part u = (s, .here)) :
    performHere s ⟨c, slot⟩ rid (pieceNos s ⟨c, slot⟩ rid) = performUnit s ⟨c, slot⟩ rid 0 u p := by
  have hn : pieceNos s ⟨c, slot⟩ rid = [0] := by simp [pieceNos, h, ha, hu, List.range_succ]
  rw [hn]
  simp only [performHere, h, ha, hu, Option.bind_some, List.getElem?_cons_zero, hp, hs, ho, hw, hsend]
  simp

/-- A core that is not paired holds no write back: a load finds what is there. -/
theorem overlay_unpaired {s : State} {c : Nat} (hl : (s.core c).lock = none) (p : Place) (o : List Byte) :
    overlay s c p o = o := by
  unfold overlay
  rw [hl]

theorem seenBytes_unpaired {s : State} {c : Nat} (hl : (s.core c).lock = none) (u : MUnit) (o : List Byte) :
    seenBytes s c u o = o := by
  unfold seenBytes
  split
  · exact overlay_unpaired hl _ _
  · rfl

theorem heldStore_unpaired {s : State} {c slot : Nat} (hl : (s.core c).lock = none) (p : Place) :
    heldStore s ⟨c, slot⟩ p = false := by
  unfold heldStore
  simp [hl]

/-- The only piece of an access has no later one in its line. -/
theorem laterLane_one {s : State} {c slot : Nat} {rid : Option Nat} {t : Thread} {a : Access} {u : MUnit}
    (h : s.thread? c slot = some t) (ha : accOf t rid = some a) (hu : a.units = [u]) :
    laterLane s ⟨c, slot⟩ rid 0 u = false := by
  unfold laterLane
  simp only [h, Option.bind_some, ha]
  split
  · next e =>
    obtain rfl := Option.some.inj e
    simp [hu]
  · rfl

/-- The one piece of an access performed: the access has its bytes. -/
theorem performPiece_one {s s1 : State} {c slot : Nat} {rid : Option Nat} {t : Thread} {a : Access} {u : MUnit}
    {f : State → State × Option (List Byte)} {o : List Byte} (h : s.thread? c slot = some t) (ha : accOf t rid = some a)
    (hu : a.units = [u]) (hf : f s = (s1, some o)) (h1 : s1.thread? c slot = some t) (hl : (s1.core c).lock = none) :
    performPiece s ⟨c, slot⟩ rid 0 u f = s1.setThread c slot (putAcc t rid { a with units := [doneUnit u o] }) := by
  unfold performPiece
  simp only [laterLane_one h ha hu, Bool.false_eq_true, if_false, hf, seenBytes_unpaired hl]
  unfold modAcc
  simp only [h1, ha, hu, setOut_one]

/-! ## Coherent lines that the L1 holds (R343) -/

/-- A line of the L1 read. -/
def l1Read (s : State) (c key : Nat) : State :=
  s.setCore c { s.core c with l1 := Map.modify (s.core c).l1 key (fun l => { l with used := (s.core c).cyc }) }

theorem l1Read_thread (s : State) (c key q x : Nat) : (l1Read s c key).thread? q x = s.thread? q x :=
  thread?_setCore (by rfl) q x

theorem l1Read_lock (s : State) (c key : Nat) : ((l1Read s c key).core c).lock = (s.core c).lock := by
  unfold l1Read
  rw [State.core_setCore_self]

/-- A line with bytes stored in it: it is M. -/
def storedLine (l : CLine) (pa : Nat) (bs : List Byte) (cyc : Nat) : CLine :=
  { l with st := .m, data := patch l.data (pa % 64) bs, used := cyc }

/-- Bytes stored in a line of the L1. -/
def l1Wrote (s : State) (c pa : Nat) (l : CLine) (bs : List Byte) : State :=
  s.setCore c { s.core c with l1 := Map.set (s.core c).l1 (lineKey s pa) (storedLine l pa bs (s.core c).cyc) }

theorem l1Wrote_thread (s : State) (c pa : Nat) (l : CLine) (bs : List Byte) (q x : Nat) :
    (l1Wrote s c pa l bs).thread? q x = s.thread? q x := thread?_setCore (by rfl) q x

theorem l1Wrote_lock (s : State) (c pa : Nat) (l : CLine) (bs : List Byte) :
    ((l1Wrote s c pa l bs).core c).lock = (s.core c).lock := by
  unfold l1Wrote
  rw [State.core_setCore_self]

section
variable {s : State} {c pa : Nat} {l : CLine}

theorem l1Unit_load (h : Map.get? (s.core c).l1 (lineKey s pa) = some l) (hp : l.poison = false)
    (hl : (s.core c).lock = none) :
    l1Unit s c pa 8 .load = (l1Read s c (lineKey s pa), some (slice l.data (pa % 64) 8)) := by
  unfold l1Unit
  simp only [h, UnitOp.writes, hp, overlay_unpaired hl, Bool.false_eq_true, if_false]
  rfl

theorem l1Unit_store (h : Map.get? (s.core c).l1 (lineKey s pa) = some l) {bs : List Byte} (hb : bs.length = 8) :
    l1Unit s c pa 8 (.store bs) = (l1Wrote s c pa l bs, some (slice l.data (pa % 64) 8)) := by
  have hpo : (l.poison && bs.length != 64) = l.poison := by simp [hb]
  unfold l1Unit
  simp only [h, UnitOp.writes, hpo]
  rfl

/-- A load of a line that the L1 holds is performed where it stands. -/
theorem sendUnit_load {slot part : Nat} {rid : Option Nat} {u : MUnit} {pkg : Nat} (hop : u.op = .load)
    (hpl : u.place = some (.page .coherent pkg pa)) (h : Map.get? (s.core c).l1 (lineKey s pa) = some l) :
    sendUnit s ⟨c, slot⟩ rid part u = (s, .here) := by
  unfold sendUnit
  simp [hop, hpl, l1Holds, h, UnitOp.isWatch]

/-- A store to a line that the L1 may write is performed where it stands. -/
theorem sendUnit_store {slot part : Nat} {rid : Option Nat} {u : MUnit} {bs : List Byte} {pkg : Nat}
    (hop : u.op = .store bs) (hpl : u.place = some (.page .coherent pkg pa))
    (h : Map.get? (s.core c).l1 (lineKey s pa) = some l) (hst : l.st ≠ .s) :
    sendUnit s ⟨c, slot⟩ rid part u = (s, .here) := by
  unfold sendUnit
  simp [hop, hpl, l1Holds, h, hst, UnitOp.isWatch]

/-- A load or store of a coherent line reaches the L1. -/
theorem performUnit_coherent {slot k : Nat} {rid : Option Nat} {u : MUnit} {pkg : Nat} (hl : (s.core c).lock = none)
    (hop : u.op = .load ∨ ∃ bs, u.op = .store bs) :
    performUnit s ⟨c, slot⟩ rid k u (.page .coherent pkg pa) =
      performPiece s ⟨c, slot⟩ rid k u (fun s => l1Unit s c pa u.size u.op) := by
  unfold performUnit
  rcases hop with hop | ⟨bs, hop⟩
  · simp [linkLost, portLost, hop]
  · simp [linkLost, portLost, hop, heldStore_unpaired hl]

end

/-! ## What completes an access -/

@[simp] theorem Thread.setG_wait (t : Thread) (d : Nat) (w : Word) : (t.setG d w).wait = t.wait := by
  rw [Thread.setG_eq]

@[simp] theorem Thread.setG_relaxed (t : Thread) (d : Nat) (w : Word) : (t.setG d w).relaxed = t.relaxed := by
  rw [Thread.setG_eq]

section
variable {s : State} {c slot : Nat} {t : Thread}

theorem pump_none {rid : Option Nat} (h : s.thread? c slot = some t) (ha : accOf t rid = none) :
    pump s ⟨c, slot⟩ rid = s := by
  unfold pump
  simp only [h, ha]

theorem accOf_idle (hw : t.wait = .idle) : accOf t none = none := by simp only [accOf, hw]

theorem accOf_no_relaxed (hr : t.relaxed = []) (id : Nat) : accOf t (some id) = none := by simp [accOf, hr]

/-- The access that a thread waits for, with its piece performed. -/
theorem Waits.performed {a : Access} (h : Waits s c slot t (.access a)) (s1 : State) (a' : Access) :
    Waits (s1.setThread c slot (putAcc t none a')) c slot (putAcc t none a') (.access a') :=
  ⟨State.thread?_setThread_self .., rfl, h.code, h.notStepped, h.here⟩

/-- What a thread resumes with does not depend on what it waited for. -/
theorem Resumed.of_access {a : Access} {d : Nat} {w : Word} (h : Resumed s c slot ((putAcc t none a).setG d w)) :
    Resumed s c slot (t.setG d w) := by
  refine ⟨?_, h.queued⟩
  have e := h.thread
  by_cases hd : d = 0
  · simpa [Thread.setG, hd, putAcc] using e
  · simpa [Thread.setG, hd, putAcc] using e

theorem postFill_thread (s : State) (c q x : Nat) : (postFill s c).thread? q x = s.thread? q x := by
  simp only [State.thread?, postFill_core]

theorem State.setThread_setThread (s : State) (c x : Nat) (t t' : Thread) :
    (s.setThread c x t).setThread c x t' = s.setThread c x t' := by
  simp only [State.setThread, State.modCore, State.core_setCore_self, State.setCore_setCore, Map.set_set]

/-- R111, R112: the only relaxed access of a thread that waits for nothing, delivered: what its finish writes, and
nothing else of its core. -/
theorem deliverRelaxed_one {x : Relaxed} {F : State} {u : Thread} (h : s.thread? c slot = some t) (hr : t.relaxed = [x])
    (hF : finishAccess (s.setThread c slot { t with relaxed := [] }) c slot x.acc.fin
      (x.acc.units.map (fun u => u.out.getD [])) = F)
    (hu : F.thread? c slot = some u) (hw : u.wait = .idle) (hur : u.relaxed = []) :
    deliverRelaxed s ⟨c, slot⟩ x.id = postWaiting (postFill F c) := by
  have hthread : (postWaiting (postFill F c)).thread? c slot = some u := by
    rw [postWaiting_thread, postFill_thread, hu]
  have hwake : wakeRelaxed (postWaiting (postFill F c)) ⟨c, slot⟩ = postWaiting (postFill F c) := by
    unfold wakeRelaxed
    simp only [hthread, hw]
  unfold deliverRelaxed
  simp only [h, hr, List.find?_cons, decide_true, List.filter_cons, bne_self_eq_false, Bool.false_eq_true, if_false,
    List.filter_nil, hF, hwake]
  unfold pumpAll
  simp only [hthread, hur, List.map_nil, pumpList]
  exact pump_none hthread (accOf_idle hw)

/-- The only relaxed access of a thread that waits for nothing is complete when its piece is performed. -/
theorem performAcc_relaxed {s1 : State} {x : Relaxed} {F : State} {u : Thread} {o : List Byte} {w : MUnit}
    (hr : t.relaxed = [x]) (hf : x.fault = none)
    (hhere : performHere s ⟨c, slot⟩ (some x.id) (pieceNos s ⟨c, slot⟩ (some x.id)) =
      s1.setThread c slot (putAcc t (some x.id) { x.acc with units := [doneUnit w o] }))
    (hF : finishAccess (s1.setThread c slot { t with relaxed := [] }) c slot x.acc.fin [o] = F)
    (hu : F.thread? c slot = some u) (hw : u.wait = .idle) (hur : u.relaxed = []) :
    performAcc s ⟨c, slot⟩ (some x.id) = postWaiting (postFill F c) := by
  obtain ⟨y, hy⟩ : ∃ y : Relaxed, y = { x with acc := { x.acc with units := [doneUnit w o] } } := ⟨_, rfl⟩
  have hid : y.id = x.id := by rw [hy]
  have hput : putAcc t (some x.id) { x.acc with units := [doneUnit w o] } = { t with relaxed := [y] } := by
    simp [putAcc, hr, hy]
  have hdone : y.acc.units.all (fun u => u.out.isSome) = true := by simp [hy, doneUnit]
  have hdel : deliverRelaxed (s1.setThread c slot { t with relaxed := [y] }) ⟨c, slot⟩ y.id =
      postWaiting (postFill F c) := by
    refine deliverRelaxed_one (State.thread?_setThread_self ..) rfl ?_ hu hw hur
    rw [State.setThread_setThread, hy]
    exact hF
  have hthread : (postWaiting (postFill F c)).thread? c slot = some u := by
    rw [postWaiting_thread, postFill_thread, hu]
  unfold performAcc
  rw [hhere, hput, ← hid]
  unfold completeIfDone
  simp only [State.thread?_setThread_self, accOf_one (t := { t with relaxed := [y] }) rfl rfl (by rw [hy]; exact hf),
    hdone, if_true, hdel]
  exact pump_none hthread (accOf_no_relaxed hur _)

end

/-! ## The accesses of eight bytes -/

/-- A translated piece of eight bytes that is still to be performed. -/
def dword (va : Word) (op : UnitOp) (p : Place) (sent : Bool) : MUnit :=
  { va := va, size := 8, op := op, place := some p, sent := sent, out := none }

section
variable {s : State} {c slot : Nat} {rid : Option Nat} {t : Thread} {a : Access} {va : Word} {pkg pa : Nat} {l : CLine}

/-- R343: a load of a line that the L1 holds has the line's bytes. -/
theorem performHere_load (h : s.thread? c slot = some t) (ha : accOf t rid = some a)
    (hu : a.units = [dword va .load (.page .coherent pkg pa) false]) (ht : Unhindered t rid)
    (hl : (s.core c).lock = none) (hk : Map.get? (s.core c).l1 (lineKey s pa) = some l) (hp : l.poison = false) :
    performHere s ⟨c, slot⟩ rid (pieceNos s ⟨c, slot⟩ rid) = (l1Read s c (lineKey s pa)).setThread c slot
      (putAcc t rid { a with units :=
        [doneUnit (dword va .load (.page .coherent pkg pa) false) (slice l.data (pa % 64) 8)] }) := by
  rw [performHere_one h ha hu rfl rfl rfl (mustWait_coherent ht (.inl rfl)) (sendUnit_load rfl rfl hk),
    performUnit_coherent hl (.inl rfl)]
  exact performPiece_one h ha hu (l1Unit_load hk hp hl) ((l1Read_thread ..).trans h) ((l1Read_lock ..).trans hl)

/-- R343: a store to a line that the L1 may write makes it M. -/
theorem performHere_store {bs : List Byte} (h : s.thread? c slot = some t) (ha : accOf t rid = some a)
    (hu : a.units = [dword va (.store bs) (.page .coherent pkg pa) false]) (ht : Unhindered t rid)
    (hl : (s.core c).lock = none) (hk : Map.get? (s.core c).l1 (lineKey s pa) = some l) (hst : l.st ≠ .s)
    (hi : invrHolds s c (.page .coherent pkg pa) = false) (hb : bs.length = 8) :
    performHere s ⟨c, slot⟩ rid (pieceNos s ⟨c, slot⟩ rid) = (l1Wrote s c pa l bs).setThread c slot
      (putAcc t rid { a with units :=
        [doneUnit (dword va (.store bs) (.page .coherent pkg pa) false) (slice l.data (pa % 64) 8)] }) := by
  rw [performHere_one h ha hu rfl rfl rfl (mustWait_coherent ht (.inr hi)) (sendUnit_store rfl rfl hk hst),
    performUnit_coherent hl (.inr ⟨bs, rfl⟩)]
  exact performPiece_one h ha hu (l1Unit_store hk hb) ((l1Wrote_thread ..).trans h) ((l1Wrote_lock ..).trans hl)

/-- R15, R106: a load that its thread waits for, of a line that the L1 holds. -/
theorem accessComplete_load {d : Nat} (h : Waits s c slot t (.access a)) (hrel : t.relaxed = [])
    (hl : (s.core c).lock = none) (hu : a.units = [dword va .load (.page .coherent pkg pa) false])
    (hf : a.fin = .g d false) (hn : NoAct s (.accessComplete c slot))
    (hk : Map.get? (s.core c).l1 (lineKey s pa) = some l) (hp : l.poison = false) :
    ∃ s', exec (.accessComplete c slot) s = .next s' ∧
      Resumed s' c slot (t.setG d (leWord (slice l.data (pa % 64) 8))) := by
  have hhere := performHere_load h.thread (accOf_waited h.wait) hu (.inl hrel) hl hk hp
  obtain ⟨R, C, -⟩ := completeIfDone_g (h.performed (l1Read s c (lineKey s pa)) { a with units :=
    [doneUnit (dword va .load (.page .coherent pkg pa) false) (slice l.data (pa % 64) 8)] }) d _ rfl rfl (.inl hf)
  have hdir := C.field (fun s => s.dir) (fun _ => rfl)
  refine ⟨_, ?_, R.of_access⟩
  rw [exec_accessComplete, execAccessComplete]
  simp only [h.thread, h.wait]
  unfold performAcc
  rw [hhere, pump_none R.thread (accOf_idle rfl), settleAct_noAct (hn.of_dir hdir)]

/-- R111, R112: a relaxed load of a line that the L1 holds is delivered. -/
theorem relaxedLoadDeliver_writes {x : Relaxed} {d : Nat} (h : s.thread? c slot = some t) (hrel : t.relaxed = [x])
    (hxf : x.fault = none) (hw : t.wait = .idle) (hl : (s.core c).lock = none)
    (hu : x.acc.units = [dword va .load (.page .coherent pkg pa) false]) (hf : x.acc.fin = .g d false)
    (hk : Map.get? (s.core c).l1 (lineKey s pa) = some l) (hp : l.poison = false) :
    ∃ s', exec (.relaxedLoadDeliver c slot x.id) s = .next s' ∧
      s'.thread? c slot = some ({ t with relaxed := [] }.setG d (leWord (slice l.data (pa % 64) 8))) := by
  have hhere := performHere_load h (accOf_one hrel rfl hxf) hu (.inr ⟨x, hrel, rfl⟩) hl hk hp
  have hthread := writeG_thread (State.thread?_setThread_self (l1Read s c (lineKey s pa)) c slot
    { t with relaxed := [] }) d (leWord (slice l.data (pa % 64) 8))
  refine ⟨_, (congrFun exec_relaxedLoadDeliver s).trans (congrArg Host.Outcome.next (performAcc_relaxed hrel hxf hhere
    (by simp [finishAccess, hf]) hthread (by simpa using hw) (by simp))), ?_⟩
  rw [postWaiting_thread, postFill_thread, hthread]

/-- R111: a relaxed store to a line that the L1 may write is performed. -/
theorem relaxedStorePerform_stores {x : Relaxed} {bs : List Byte} (h : s.thread? c slot = some t)
    (hrel : t.relaxed = [x]) (hxf : x.fault = none) (hw : t.wait = .idle) (hl : (s.core c).lock = none)
    (hb : bs.length = 8) (hu : x.acc.units = [dword va (.store bs) (.page .coherent pkg pa) false])
    (hf : x.acc.fin = .none) (hk : Map.get? (s.core c).l1 (lineKey s pa) = some l) (hst : l.st ≠ .s)
    (hi : invrHolds s c (.page .coherent pkg pa) = false) :
    ∃ s', exec (.relaxedStorePerform c slot x.id) s = .next s' ∧
      s'.thread? c slot = some { t with relaxed := [] } ∧
      Map.get? (s'.core c).l1 (lineKey s pa) = some (storedLine l pa bs (s.core c).cyc) := by
  have hhere := performHere_store h (accOf_one hrel rfl hxf) hu (.inr ⟨x, hrel, rfl⟩) hl hk hst hi hb
  have hthread := State.thread?_setThread_self (l1Wrote s c pa l bs) c slot { t with relaxed := [] }
  refine ⟨_, (congrFun exec_relaxedStorePerform s).trans (congrArg Host.Outcome.next (performAcc_relaxed hrel hxf hhere
    (by simp [finishAccess, hf]) hthread hw rfl)), ?_, ?_⟩
  · rw [postWaiting_thread, postFill_thread, hthread]
  · rw [State.core, postWaiting_cores, ← State.core, postFill_core, State.core_setThread, if_pos rfl, l1Wrote,
      State.core_setCore_self]
    exact Map.get?_set_self ..

end

/-! ## Guests (R216) -/

/-- A load of a word of a scratchpad where no LDFE or STFE waits. -/
theorem spadUnit_load {s : State} {q off : Nat} (hw : ∀ w ∈ s.watches, w.kind ≠ .fe) (hf : (s.core q).fenced = false)
    (hp : Unpoisoned (s.core q) off 8) (own : Bool) :
    spadUnit s q off 8 .load own = (s, some (Mem.readN (s.core q).spad off 8)) := by
  have hfe : feFirst s q off 8 = s := by
    unfold feFirst
    rw [any_false_of (fun w hm => by simpa using hw w hm)]
    rfl
  unfold spadUnit
  simp only [hfe, hf, spadPoison_false hp, UnitOp.writes, Bool.false_and, Bool.and_false, Bool.or_self,
    Bool.false_eq_true, if_false]

/-- A core that is not paired keeps no guest waiting. -/
theorem unsettled_unpaired {k : Core} (h : k.lock = none) (off n : Nat) : unsettled k off n = false := by
  unfold unsettled
  rw [h]

/-- The core of a guest that is served next, with that guest taken. -/
def noGuests (k : Core) : Core := { k with guests := [] }

/-- R216: the only guest of a core that is not paired is served. -/
theorem guestAccess_serves {s : State} {q : Nat} {r : TRef} (hg : (s.core q).guests = [(r, none)])
    (hl : (s.core q).lock = none) :
    exec (.guestAccess q) s = .next (guestPerform (s.modCore q noGuests) q r none) := by
  rw [exec_guestAccess, execGuestAccess]
  simp only [hg, unsettled_unpaired hl, List.isEmpty_nil, Bool.true_or, if_true]
  split <;> rfl

/-- R216: a guest's load of eight bytes reads the scratchpad. -/
theorem guestPerform_load {s : State} {c slot q : Nat} {t : Thread} {a : Access} {va : Word} {off : Nat}
    (h : Waits s c slot t (.access a)) (hu : a.units = [dword va .load (.spad q off) true])
    (hl : (s.core c).lock = none) (hf : (s.core q).fenced = false) (hp : Unpoisoned (s.core q) off 8)
    (hw : ∀ w ∈ s.watches, w.kind ≠ .fe) : guestPerform s q ⟨c, slot⟩ none =
      completeIfDone (s.setThread c slot (putAcc t none { a with units :=
        [doneUnit (dword va .load (.spad q off) true) (Mem.readN (s.core q).spad off 8)] })) ⟨c, slot⟩ none := by
  have hpiece := performPiece_one (f := fun s => spadUnit s q off 8 .load (decide (q = c))) h.thread
    (accOf_waited h.wait) hu (spadUnit_load hw hf hp _) h.thread hl
  unfold guestPerform
  rw [waitedPiece_one h.thread h.wait hu (by simp [dword])]
  simp only [dword, performUnit, linkLost, portLost, Bool.false_eq_true, if_false]
  exact congrArg (fun u => completeIfDone u ⟨c, slot⟩ none) hpiece

/-! ## Posted stores (R106, R363) -/

section
variable {s : State} {c slot : Nat} {t : Thread}

/-- R15: an access that writes no register is complete: its thread goes on. -/
theorem completeIfDone_none {a : Access} (h : Waits s c slot t (.access a))
    (hu : a.units.all (fun u => u.out.isSome) = true) (hf : a.fin = .none) :
    Resumed (completeIfDone s ⟨c, slot⟩ none) c slot t ∧ CoreOnly s (completeIfDone s ⟨c, slot⟩ none) c := by
  obtain ⟨s1, hs1⟩ : ∃ s1, s1 = if a.load then sampleHist s t.part 0 ((s.core c).cyc - a.issued) else s := ⟨_, rfl⟩
  have hkeeps : s1.cores = s.cores ∧ CoreOnly s s1 c := by
    rw [hs1]
    split
    · exact ⟨(sampleHist_only _ _ _ _ c).2, (sampleHist_only _ _ _ _ c).1⟩
    · exact ⟨rfl, .refl ..⟩
  have hthread : s1.thread? c slot = some t := by
    rw [State.thread?, State.core, hkeeps.1]
    exact h.thread
  have e : completeIfDone s ⟨c, slot⟩ none = finishWait s1 c slot := by
    unfold completeIfDone
    simp only [h.thread, accOf_waited h.wait, hu, if_true, hf, finishAccess, hs1]
  rw [e]
  exact ⟨finishWait_resumed hthread h.code h.notStepped h.here, hkeeps.2.trans (.finishWait ..)⟩

/-- The packet of a posted store that its thread waits for. -/
def postedPacket (s : State) (c slot : Nat) (t : Thread) (pkg pa : Nat) (bs : List Byte) : FabricPacket :=
  { id := s.fresh, kind := 0, addr := domAddr pkg pa, part := t.part, size := bs.length, data := bs,
    ms := msFor t pkg, thread := some ⟨c, slot⟩, lid := t.lid }

theorem ownWrite_thread (s : State) (c pkg pa : Nat) (bs : List Byte) (q x : Nat) :
    (ownWrite s c pkg pa bs).thread? q x = s.thread? q x := by
  change (s.modCore c (fun k => { k with l1 := Map.modify k.l1 _ _ })).thread? q x = _
  exact thread?_modCore (by rfl) q x

/-- R106: a posted store that the fabric port accepts: its packet is on its way. -/
theorem postStore_out (h : s.thread? c slot = some t) (pkg pa : Nat) (bs : List Byte) :
    (postStore s ⟨c, slot⟩ none pkg pa bs).out = Map.set s.out s.fresh (postedPacket s c slot t pkg pa bs) := by
  have h1 := (ownWrite_thread s c pkg pa bs c slot).trans h
  have ho : (ownWrite s c pkg pa bs).out = s.out ∧ (ownWrite s c pkg pa bs).fresh = s.fresh := ⟨rfl, rfl⟩
  unfold postStore
  simp only [h]
  simp [sendPosted, h1, ho.1, ho.2, Map.modify, Map.set_set, postedPacket]

theorem postStore_thread (h : s.thread? c slot = some t) (pkg pa : Nat) (bs : List Byte) :
    (postStore s ⟨c, slot⟩ none pkg pa bs).thread? c slot = some t := by
  unfold postStore
  simp only [h]
  exact (ownWrite_thread s c pkg pa bs c slot).trans h

/-- The piece of a store to another package's page that waits for the fabric port. -/
def postedPiece (va : Word) (pkg pa : Nat) (bs : List Byte) : MUnit :=
  { va := va, size := bs.length, op := .store bs, place := some (.page .remotePosted pkg pa), sent := true, out := none }

/-- R106: the only store of a thread that waits for the fabric port is accepted, and the thread goes on. -/
theorem postedStoreAccept_sends {a : Access} {va : Word} {pkg pa : Nat} {bs : List Byte}
    (h : Waits s c slot t (.access a))
    (hu : a.units = [postedPiece va pkg pa bs]) (hf : a.fin = .none) :
    ∃ s', exec (.postedStoreAccept c slot) s = .next s' ∧ Resumed s' c slot t ∧
      s'.out = Map.set s.out s.fresh (postedPacket s c slot t pkg pa bs) := by
  have hthread := postStore_thread h.thread pkg pa bs
  obtain ⟨R, C⟩ := completeIfDone_none (h.performed (postStore s ⟨c, slot⟩ none pkg pa bs)
    { a with units := setOut a.units 0 [] }) (by simp [hu, setOut_one, doneUnit]) hf
  refine ⟨_, ?_, ⟨R.thread, R.queued⟩, ?_⟩
  · rw [exec_postedStoreAccept, execPostedStoreAccept, waitedPiece_one h.thread h.wait hu (by simp [postedPiece])]
    simp only [postedPiece, modAcc, hthread, accOf_waited h.wait]
  · rw [C.field (fun s => s.out) (fun _ => rfl), State.setThread_out, postStore_out h.thread]

end

/-- Settles O35: each access is performed and its thread has what it reads (`accessComplete_load`,
`relaxedLoadDeliver_writes`, `relaxedStorePerform_stores`, `guestPerform_load`, `postedStoreAccept_sends`). -/
theorem accessesArePerformed : Obligations.AccessesArePerformed := by
  unfold Obligations.AccessesArePerformed
  refine ⟨?load, ?relaxedLoad, ?relaxedStore, ?guest, ?posted⟩
  case load =>
    intro c slot s t a va pkg pa l d h hrel hl hu hf _ hn hk hp
    exact accessComplete_load h hrel hl hu hf hn hk hp
  case relaxedLoad =>
    rintro c slot _ s t x va pkg pa l d h hrel rfl hxf hw hl hu hf hk hp
    exact relaxedLoadDeliver_writes h hrel hxf hw hl hu hf hk hp
  case relaxedStore =>
    rintro c slot _ s t x va pkg pa l bs h hrel rfl hxf hw hl hb hu hf hk hst hi
    exact relaxedStorePerform_stores h hrel hxf hw hl hb hu hf hk hst hi
  case guest =>
    intro c slot q s t a va off d h hg hu hf hne hl hlq hfe hp hw
    have hc : (s.modCore q noGuests).core c = s.core c := by rw [State.core_modCore, if_neg hne]
    have hq : (s.modCore q noGuests).core q = noGuests (s.core q) := State.core_modCore_self ..
    have h' : Waits (s.modCore q noGuests) c slot t (.access a) := h.of_thread (thread?_modCore (by rfl) c slot)
    have hserved := guestPerform_load (q := q) h' hu (by rw [hc]; exact hl) (by rw [hq]; exact hfe)
      (by rw [hq]; exact hp) hw
    obtain ⟨R, C, -⟩ := completeIfDone_g (h.performed (s.modCore q noGuests) { a with units :=
      [doneUnit (dword va .load (.spad q off) true) (Mem.readN ((s.modCore q noGuests).core q).spad off 8)] })
      d _ rfl rfl (.inl hf)
    rw [hq] at hserved R C
    refine ⟨_, (guestAccess_serves hg hlq).trans (congrArg Host.Outcome.next hserved), ?_, R.of_access⟩
    rw [C.cores q (fun e => hne e.symm), State.core_setThread, if_neg (fun e => hne e.symm), hq]
    rfl
  case posted =>
    intro c slot s t a va pkg pa bs h hu hf
    exact postedStoreAccept_sends h hu hf

end Sys2Proof
end


section
/-!
O55: the fetch at a thread's pc gives the instruction whose words stand there (`fetchAt_words`), or its fetch fault; the
turn runs what is fetched (`issueTurn_of_fetch`), and the cycle that it counts touches nothing else (`tick_fields`).
-/
namespace Sys2Proof.Laws.Encoding
open Sys2Proof

/-- R60, R64, R67: decoding the words of a well-formed instruction gives it back, whichever it is. -/
theorem decodeWords_encode (i : Instr) : Statement i := by
  cases i <;> first
    | exact event_ok rfl
    | simp only [
        add, sub, and, or, xor, andn, shl, shr, sra, rotl, mins, maxs, minu, maxu, clz, ctz, popc, brev, bswap, mul,
        mulhs, mulhu, mulhsu, divs, divu, rems, remu, shadd1, shadd2, shadd3, shadd4, bext, bins, addi, andi, ori, xori,
        shli, shri, srai, rotli, li, lis, cmpReg, cmpImm, plog, pget, pset, br, jal, jr, ldbn, ldhn, ldwn, ldd, ldbs,
        ldhs, ldws, stb, sth, stw, std, ldq, stq, ldfe, stfe, aadd, aand, aor, axor, amins, amaxs, aminu, amaxu, aswap,
        acas, acasq, afadd, fence, watch, unwatch, sleep, waitge, wbr, invr, wbinvr, prefr, faddD, fsubD, fmulD, fminD,
        fmaxD, fdivD, fsqrtD, fcvt, faddS, fsubS, fmulS, fminS, fmaxS, fdivS, fsqrtS, fclass, fmaD, fmaS, fmsD, fmsS,
        fcmp, spawn, quit, migr, send, fork, join, wqry, launch, bar, bard, breg, chkpt, tstop, tstart, tread, twrite,
        gets, sets, invpg, selft, brk, vadd, vsub, vmul, vmulhs, vmulhu, vand, vor, vxor, vandn, vshl, vshr, vsra,
        vmins, vmaxs, vminu, vmaxu, vabs, vpopc, vclz, vcmpeq, vcmplts, vcmpltu, vsel, vshuf, vfadd, vfsub, vfmul, vfma,
        vfms, vfmin, vfmax, vfabs, vfneg, vfdiv, vfsqrt, vfcmpeq, vfcmplt, vfcmple, vfcmpun, vhaddH, vhmulH, vhfmaH,
        vhaddB, vhmulB, vhfmaB, vdot8, vdots8, vcvt, vld, vst, vlds, vsts, vgath, vscat, vldb, vldR, vbcast, vext, vins,
        vredaddS, vredaddI, vredmaxS, vredminS, vmask, vrcp, vrsq, vexp2, vlog2, vsin, vcos, vtanh, vsigm, b2z, z2b,
        zcls, zrgn, zclr, zand, zor, zxnor, znot, zmux, cwst, cwadd, cwcas, cwfence, mma, copy, gath, coll, fill, enc8]

/-- R60, R67: what follows the first word of an instruction: nothing, or the seven payload words of a tile command. -/
theorem decodeWords_cons {w : BitVec 32} {ws : List (BitVec 32)} {i : Instr} (h : decodeWords (w :: ws) = .ok (i, [])) :
    if isTcwHeader w then ws.length = 7 else ws = [] ∧ decodeWord w = .ok i := by
  unfold decodeWords at h
  split
  case isTrue hh =>
    simp only [hh, if_true] at h
    split at h
    case h_1 w1 w2 w3 w4 w5 w6 w7 rest =>
      cases hd : decodeTcw w w1 w2 w3 w4 w5 w6 w7 with
      | error e => simp [hd, Except.map] at h
      | ok j =>
        simp only [hd, Except.map, Except.ok.injEq, Prod.mk.injEq] at h
        simp [h.2]
    case h_2 => cases h
  case isFalse hh =>
    simp only [hh, Bool.false_eq_true, if_false] at h
    cases hd : decodeWord w with
    | error e => simp [hd, Except.map] at h
    | ok j =>
      simp only [hd, Except.map, Except.ok.injEq, Prod.mk.injEq] at h
      exact ⟨h.2, congrArg Except.ok h.1⟩

end Sys2Proof.Laws.Encoding

namespace Sys2Proof.Machine
open Sys2Proof Sys2Proof.Laws.Encoding

/-! ## What stands at the pc -/

/-- R60: a word is its four bytes read as a number. -/
theorem leNat_bytesOfWord (w : BitVec 32) : BitVec.ofNat 32 (leNat (bytesOfWord w)) = w := by
  apply BitVec.eq_of_toNat_eq
  have hw := w.isLt
  simp only [bytesOfWord, leNat, BitVec.toNat_ofNat, BitVec.extractLsb'_toNat, Nat.shiftRight_eq_div_pow]
  omega

/-- R67, R68: the bytes fetched begin with those of the word at the pc. -/
theorem codeBytes_word {k : Core} {pc : Nat} {w : BitVec 32} (h : Mem.readN k.spad pc 4 = bytesOfWord w) :
    ∃ bs, codeBytes k pc = bytesOfWord w ++ bs := by
  unfold codeBytes
  split
  · exact ⟨Mem.readN k.spad (pc + 4) 28, by rw [← h]; exact readN_append k.spad pc 4 28⟩
  · exact ⟨[], by rw [h, List.append_nil]⟩

/-- R63: the word of a fetch: the first four bytes fetched. -/
theorem fetchWord_append (w : BitVec 32) (bs : List Byte) :
    BitVec.ofNat 32 (leNat ((bytesOfWord w ++ bs).take 4)) = w := leNat_bytesOfWord w

/-- R60: bytes that begin with a word's decode as words that begin with it. -/
theorem decodeBytes_append (w : BitVec 32) (bs : List Byte) :
    decodeBytes (bytesOfWord w ++ bs) = decodeWords (w :: wordsOfBytes bs) := by
  show decodeWords (wordOfBytes _ _ _ _ :: wordsOfBytes bs) = _
  rw [word_bytes]

/-- R63: a pc that is no multiple of 4 faults MISALIGN. -/
theorem fetchAt_misaligned {k : Core} {pc : Word} (ha : pc.toNat % 4 ≠ 0) :
    fetchAt k pc = .error (fetchFault fcMisalign pc 0#32 4) :=
  if_pos (bne_iff_ne.mpr ha)

/-- R63: an aligned pc at or past XB faults XFETCH. -/
theorem fetchAt_pastXb {k : Core} {pc : Word} (ha : pc.toNat % 4 = 0) (hx : k.xb ≤ pc.toNat) :
    fetchAt k pc = .error (fetchFault fcXfetch pc 0#32 k.xb) := by
  unfold fetchAt
  rw [ha, if_neg (by decide), if_pos hx]

/-- R60: a word that is no tile command header is decoded by itself. -/
theorem decodeBytes_word {w : BitVec 32} (hw : isTcwHeader w = false) (bs : List Byte) :
    decodeBytes (bytesOfWord w ++ bs) = (decodeWord w).map (fun i => (i, wordsOfBytes bs)) := by
  simp [decodeBytes_append, decodeWords, hw]

/-- R63: below XB, a word that is no tile command header and decodes is fetched as its instruction. -/
theorem fetchAt_word {k : Core} {pc : Word} {w : BitVec 32} {i : Instr} (ha : pc.toNat % 4 = 0) (hx : pc.toNat < k.xb)
    (hw : isTcwHeader w = false) (hd : decodeWord w = .ok i) (h : Mem.readN k.spad pc.toNat 4 = bytesOfWord w) :
    fetchAt k pc = .ok i := by
  obtain ⟨bs, hbs⟩ := codeBytes_word h
  unfold fetchAt
  simp only [ha, bne_self_eq_false, Nat.not_le.mpr hx, hbs, fetchWord_append, hw, decodeBytes_word hw, hd, Except.map,
    Bool.false_and, Bool.false_eq_true, if_false]

/-- R63: below XB, a word that is no instruction faults ILLEGAL with that word. -/
theorem fetchAt_illegal {k : Core} {pc : Word} {w : BitVec 32} {x : BitVec 9} (ha : pc.toNat % 4 = 0)
    (hx : pc.toNat < k.xb) (hw : isTcwHeader w = false) (hd : decodeWord w = .error (.illegal x))
    (h : Mem.readN k.spad pc.toNat 4 = bytesOfWord w) :
    fetchAt k pc = .error (fetchFault fcIllegal 0#64 w x.toNat) := by
  obtain ⟨bs, hbs⟩ := codeBytes_word h
  unfold fetchAt
  simp only [ha, bne_self_eq_false, Nat.not_le.mpr hx, hbs, fetchWord_append, hw, decodeBytes_word hw, hd, Except.map,
    Bool.false_and, Bool.false_eq_true, if_false]

/-- R63, R67, R68: the words of an instruction that lie below XB, a tile command's at a multiple of 32, are fetched as
that instruction. -/
theorem fetchAt_words {k : Core} {pc : Word} {i : Instr} (hwf : i.wf = true) (he : encode i ≠ [])
    (ha : pc.toNat % 4 = 0) (hx : pc.toNat + 4 * (encode i).length ≤ k.xb)
    (htile : (encode i).length = 8 → pc.toNat % 32 = 0)
    (h : Mem.readN k.spad pc.toNat (4 * (encode i).length) = (encode i).flatMap bytesOfWord) :
    fetchAt k pc = .ok i := by
  have hdec := decodeWords_encode i hwf he
  obtain ⟨w, ws, hws⟩ := List.exists_cons_of_ne_nil he
  rw [hws] at hdec hx htile h
  have hshape := decodeWords_cons hdec
  split at hshape
  case isTrue hhead =>
    have h8 : (w :: ws).length = 8 := by rw [List.length_cons, hshape]
    have ha32 := htile h8
    rw [h8] at h hx
    have hbs : codeBytes k pc.toNat = bytesOfWord w ++ ws.flatMap bytesOfWord := by
      rw [codeBytes, if_pos ha32]
      exact h
    have hd : decodeBytes (bytesOfWord w ++ ws.flatMap bytesOfWord) = .ok (i, []) := by
      rw [decodeBytes_append, wordsOfBytes_bytes, hdec]
    unfold fetchAt
    simp only [ha, ha32, bne_self_eq_false, show ¬ k.xb ≤ pc.toNat by omega, show ¬ k.xb < pc.toNat + 32 by omega, hbs,
      fetchWord_append, hd, decide_false, Bool.and_false, Bool.false_eq_true, if_false]
  case isFalse hhead =>
    obtain ⟨rfl, hword⟩ := hshape
    have hbelow : pc.toNat < k.xb := by
      rw [List.length_singleton] at hx
      omega
    exact fetchAt_word ha hbelow (Bool.eq_false_iff.mpr hhead) hword h

/-! ## The turn -/

/-- R8: with no choice made and no event to come first, a step is a turn. -/
theorem step_turn {s : State} (hs : s.sched = []) (ha : s.agenda = []) : step s = issueTurn s := by
  unfold step
  rw [hs, ha]

/-- R63, R207, R380, R391: a RUNNING thread has the turn, on a core that issues. -/
structure Fetches (u : State) (c slot : Nat) (t : Thread) : Prop where
  current : current u = some (c, slot, t)
  running : t.code = .running
  noSelft : (u.core c).selft = none
  notFenced : (u.core c).fenced = false
  notStopped : issueStopped u c = false

theorem Fetches.run {u : State} {c slot : Nat} {t : Thread} {i : Instr} (h : Fetches u c slot t)
    (hi : fetchAt (u.core c) t.pc = .ok i) : fetch u = .run i := by
  unfold fetch
  simp [h.current, h.running, h.noSelft, h.notFenced, h.notStopped, hi]

theorem Fetches.fault {u : State} {c slot : Nat} {t : Thread} {f : FaultInfo} (h : Fetches u c slot t)
    (hf : fetchAt (u.core c) t.pc = .error f) : fetch u = .fault c slot f := by
  unfold fetch
  simp [h.current, h.running, h.noSelft, h.notFenced, h.notStopped, hf]

/-- R11, R207, R380, R391: with no RUNNING occupant, or on a core that does not issue, nothing is fetched. -/
theorem fetch_idle {u : State} (h : ∀ c slot t, current u = some (c, slot, t) →
    t.code ≠ .running ∨ (u.core c).selft.isSome ∨ (u.core c).fenced = true ∨ issueStopped u c = true) :
    fetch u = .idle := by
  unfold fetch
  cases hc : current u with
  | none => rfl
  | some x =>
    obtain ⟨c, slot, t⟩ := x
    refine if_pos ?_
    simpa [or_assoc] using h c slot t hc

/-- R63: a step whose turn fetches an instruction runs it. -/
theorem step_run {s u : State} {i : Instr} (hs : s.sched = []) (ha : s.agenda = []) (hu : u = fillPosition s)
    (h : fetch u = .run i) : step s = endCycle (exec i u) u.turn := by
  subst hu
  rw [step_turn hs ha, issueTurn, h]

/-- R26, R63: a step whose turn takes a fault of its fetch. -/
theorem step_fetchFaults {s u : State} {c slot : Nat} {f : FaultInfo} (hs : s.sched = []) (ha : s.agenda = [])
    (hu : u = fillPosition s) (h : fetch u = .fault c slot f) : step s = .next (tick (fetchFaults u c slot f) u.turn) := by
  subst hu
  rw [step_turn hs ha, issueTurn, h]

/-- R11: a step whose turn is idle counts its cycle. -/
theorem step_idle {s u : State} (hs : s.sched = []) (ha : s.agenda = []) (hu : u = fillPosition s)
    (h : fetch u = .idle) : step s = .next (tick u u.turn) := by
  subst hu
  rw [step_turn hs ha, issueTurn, h]

/-! ## The cycle -/

/-- What the end of a cycle finds goes at the end of the agenda. -/
theorem postAll_eq (es : List Event) : ∀ s : State, postAll s es = { s with agenda := s.agenda ++ es } := by
  induction es with
  | nil => intro s; rw [postAll, List.append_nil]
  | cons e es ih => intro s; rw [postAll, ih]; simp [State.post]

/-- R307, R394: a cycle of the shared units counts it, counts the quanta, and posts what is due. -/
theorem launchTick_fields (s : State) : ∃ now launches agenda,
    launchTick s = { s with now := now, launches := launches, agenda := agenda } := by
  unfold launchTick
  rw [postAll_eq]
  exact ⟨_, _, _, rfl⟩

/-- R8, R307: what is due posted, and the shared units' cycle counted, if the core is the furthest. -/
theorem posted_fields (s : State) (es : List Event) (cyc : Nat) : ∃ now launches agenda,
    (if (postAll s es).now < cyc then launchTick (postAll s es) else postAll s es) =
      { s with now := now, launches := launches, agenda := agenda } := by
  rw [postAll_eq]
  split
  · obtain ⟨now, launches, agenda, h⟩ := launchTick_fields { s with agenda := s.agenda ++ es }
    exact ⟨now, launches, agenda, h⟩
  · exact ⟨_, _, _, rfl⟩

/-- R8: and the turn passed on. -/
theorem passed_fields {s u : State}
    (h : ∃ now launches agenda, u = { s with now := now, launches := launches, agenda := agenda }) (turn : Nat) :
    ∃ now launches agenda turn', { u with turn := turn } =
      { s with now := now, launches := launches, agenda := agenda, turn := turn' } := by
  obtain ⟨now, launches, agenda, rfl⟩ := h
  exact ⟨now, launches, agenda, turn, rfl⟩

/-- R8, R25, R131: a core's cycle counts it, counts its sleeping periods, posts what is due, and passes the turn on. -/
theorem tick_fields (s : State) (c : Nat) : ∃ now launches agenda turn,
    tick s c = { s.modCore c (fun k => { k with
        cyc := k.cyc + 1, threads := k.threads.map (fun x => (x.1, sleepTick x.2)) }) with
      now := now, launches := launches, agenda := agenda, turn := turn } :=
  passed_fields (posted_fields _ _ _) _

/-- R131: a cycle of a thread counts in its sleeping period, if it is in one. -/
theorem sleepTick_fields (t : Thread) : ∃ n, sleepTick t = { t with sleepFor := n } := by
  unfold sleepTick
  split
  · exact ⟨_, rfl⟩
  · exact ⟨_, rfl⟩

/-- Settles O55: what the turn fetches decides the step (`step_run`, `step_fetchFaults`, `step_idle`), and the words at
the pc decide what it fetches (`fetchAt_words`, `fetchAt_word`). -/
theorem aStepRunsTheDecodedInstruction : Obligations.AStepRunsTheDecodedInstruction := by
  unfold Obligations.AStepRunsTheDecodedInstruction
  refine ⟨?run, ?faults, ?idle, ?event, tick_fields, sleepTick_fields⟩
  case run =>
    intro s u c slot t i hs hg hu hc hrun hself hfence hstop ha hwf he hx htile h
    have hfetches : Fetches u c slot t := ⟨hc, hrun, hself, hfence, hstop⟩
    exact step_run hs hg hu (hfetches.run (fetchAt_words hwf he ha hx htile h))
  case faults =>
    intro s u c slot t hs hg hu hc hrun hself hfence hstop
    have hfetches : Fetches u c slot t := ⟨hc, hrun, hself, hfence, hstop⟩
    refine ⟨fun ha => ?_, fun ha hx => ?_, fun w x ha hx hw hd h => ?_⟩
    · exact step_fetchFaults hs hg hu (hfetches.fault (fetchAt_misaligned ha))
    · exact step_fetchFaults hs hg hu (hfetches.fault (fetchAt_pastXb ha hx))
    · exact step_fetchFaults hs hg hu (hfetches.fault (fetchAt_illegal ha hx hw hd h))
  case idle =>
    intro s u hs hg hu h
    exact step_idle hs hg hu (fetch_idle h)
  case event =>
    intro s e es hs hg
    rw [step, hs, hg]

end Sys2Proof.Machine
end

section
/-!
Rounding (R37): the four modes are three choices of a multiple: the one below, the one above, the nearest.
-/
namespace Sys2Proof.Machine

section
variable {mode : Nat} {neg : Bool} {m k : Nat} {e q : Int}

/-- A coarser grid: the quotient by 2^k, one more where the mode rounds up, and inexact with a remainder. -/
theorem roundAt_coarser (hq : q = e + k) (hk : 0 < k) (mode : Nat) (neg : Bool) (m : Nat) :
    roundAt mode neg m e q =
      (m / 2 ^ k + (if roundUp mode neg (m / 2 ^ k) (m % 2 ^ k) (2 ^ k) then 1 else 0), m % 2 ^ k != 0) := by
  have hlt : ¬ q ≤ e := by omega
  have hexp : (q - e).toNat = k := by omega
  rw [roundAt, if_neg hlt, hexp]

/-- Where a mode does not round up, it picks the greatest multiple that is not above. -/
theorem roundAt_below (hq : q = e + k) (hk : 0 < k)
    (hu : roundUp mode neg (m / 2 ^ k) (m % 2 ^ k) (2 ^ k) = false) :
    (roundAt mode neg m e q).1 * 2 ^ k ≤ m ∧ m < ((roundAt mode neg m e q).1 + 1) * 2 ^ k := by
  rw [roundAt_coarser hq hk, hu]
  exact ⟨Nat.div_mul_le_self m _, (Nat.div_lt_iff_lt_mul (Nat.two_pow_pos k)).1 (Nat.lt_succ_self _)⟩

/-- Where a mode rounds every remainder up, it picks the least multiple that is not below. -/
theorem roundAt_above (hq : q = e + k) (hk : 0 < k)
    (hu : roundUp mode neg (m / 2 ^ k) (m % 2 ^ k) (2 ^ k) = decide (0 < m % 2 ^ k)) :
    m ≤ (roundAt mode neg m e q).1 * 2 ^ k ∧ (roundAt mode neg m e q).1 * 2 ^ k < m + 2 ^ k := by
  have hrem : m % 2 ^ k < 2 ^ k := Nat.mod_lt m (Nat.two_pow_pos k)
  have hdiv : m / 2 ^ k * 2 ^ k + m % 2 ^ k = m := Nat.div_add_mod' m _
  rw [roundAt_coarser hq hk, hu]
  by_cases h : 0 < m % 2 ^ k
  · simp only [h, decide_true, if_true, Nat.add_mul, Nat.one_mul]
    omega
  · simp only [h, decide_false, Bool.false_eq_true, if_false, Nat.add_zero]
    omega

/-- RNE picks a multiple that is at most half a step away, the even one of two. -/
theorem roundAt_nearest (hq : q = e + k) (hk : 0 < k) {r : Nat} (hr : r = (roundAt 0 neg m e q).1) :
    2 * r * 2 ^ k ≤ 2 * m + 2 ^ k ∧ 2 * m ≤ 2 * r * 2 ^ k + 2 ^ k ∧
      (2 * r * 2 ^ k = 2 * m + 2 ^ k ∨ 2 * m = 2 * r * 2 ^ k + 2 ^ k → r % 2 = 0) := by
  have hrem : m % 2 ^ k < 2 ^ k := Nat.mod_lt m (Nat.two_pow_pos k)
  have hdiv : m / 2 ^ k * 2 ^ k + m % 2 ^ k = m := Nat.div_add_mod' m _
  rw [roundAt_coarser hq hk] at hr
  rw [Nat.mul_assoc]
  by_cases hu : roundUp 0 neg (m / 2 ^ k) (m % 2 ^ k) (2 ^ k) = true
  · have hup : 2 ^ k < 2 * (m % 2 ^ k) ∨ 2 * (m % 2 ^ k) = 2 ^ k ∧ m / 2 ^ k % 2 = 1 := by
      simpa [roundUp] using hu
    have hmul : r * 2 ^ k = m / 2 ^ k * 2 ^ k + 2 ^ k := by rw [hr, if_pos hu, Nat.add_mul, Nat.one_mul]
    rw [if_pos hu] at hr
    omega
  · have hdown : ¬(2 ^ k < 2 * (m % 2 ^ k) ∨ 2 * (m % 2 ^ k) = 2 ^ k ∧ m / 2 ^ k % 2 = 1) := by
      simpa [roundUp] using hu
    have hmul : r * 2 ^ k = m / 2 ^ k * 2 ^ k := by rw [hr, if_neg hu, Nat.add_zero]
    rw [if_neg hu] at hr
    omega

end

/-- Settles O10: RNE is `roundAt_nearest`; RTZ rounds to the multiple below, and RUP and RDN to the one below or above
by the sign (`roundAt_below`, `roundAt_above`). -/
theorem roundingIsCorrect : Obligations.RoundingIsCorrect := by
  unfold Obligations.RoundingIsCorrect
  intro neg m e q k hq hk
  refine ⟨roundAt_nearest hq hk rfl, roundAt_below hq hk rfl, ?up, ?down, ?inexact⟩
  case up =>
    cases neg with
    | true => exact roundAt_below hq hk (by simp [roundUp])
    | false => exact roundAt_above hq hk (by simp [roundUp])
  case down =>
    cases neg with
    | true => exact roundAt_above hq hk (by simp [roundUp])
    | false => exact roundAt_below hq hk (by simp [roundUp])
  case inexact =>
    intro mode
    rw [roundAt_coarser hq hk]
    exact Bool.eq_iff_iff.2 (by rw [bne_iff_ne, decide_eq_true_iff])

end Sys2Proof.Machine
end

section
/-!
Special operands (R35, R36, R100, R101): NaNs first, then the invalid operations; minimum and maximum (R46).
-/
namespace Sys2Proof.Machine

section
variable {f : FFmt} {ctl : Word} {x y z : Nat}

/-! ## NaNs (R35) -/

theorem isNan_of_inf {a : Bool} (h : f.unpack x = .inf a) : (f.unpack x).isNan = false := by
  rw [h]
  rfl

theorem isNan_of_fin {a : Bool} {m : Nat} {e : Int} (h : f.unpack x = .fin a m e) : (f.unpack x).isNan = false := by
  rw [h]
  rfl

theorem nanOf_numbers (hx : (f.unpack x).isNan = false) (hy : (f.unpack y).isNan = false) : nanOf f [x, y] = none := by
  simp [nanOf, hx, hy]

/-- The first of two operands that is a NaN is the one passed on. -/
theorem nanOf_pair (h : (f.unpack x).isNan = true ∨ (f.unpack y).isNan = true) :
    nanOf f [x, y] = some (if (f.unpack x).isNan then f.quiet x else f.quiet y,
      if (f.unpack x).isSnan || (f.unpack y).isSnan then flInvalid else 0#5) := by
  cases hx : (f.unpack x).isNan with
  | true => simp [nanOf, hx]
  | false =>
    have hy : (f.unpack y).isNan = true := h.resolve_left (by simp [hx])
    simp [nanOf, hx, hy]

/-- Of the operands of a multiply-add whose factors are numbers, only the addend can be a NaN. -/
theorem nanOf_addend (hx : (f.unpack x).isNan = false) (hy : (f.unpack y).isNan = false) :
    (nanOf f [z, x, y]).map Prod.fst = if (f.unpack z).isNan then some (f.quiet z) else none := by
  cases hz : (f.unpack z).isNan with
  | true => simp [nanOf, hz]
  | false => simp [nanOf, hx, hy, hz]

/-! ## Invalid operations and the division by zero (R36, R100, R101) -/

section
variable {a b : Bool} {m : Nat} {e k : Int}

theorem fadd_opposite_infinities (hx : f.unpack x = .inf a) (hy : f.unpack y = .inf b) (hab : a ≠ b) :
    fadd f ctl x y = (f.canon, flInvalid) := by
  simp [fadd, nanOf_numbers (isNan_of_inf hx) (isNan_of_inf hy), hx, hy, hab]

theorem fdiv_infinities (hx : f.unpack x = .inf a) (hy : f.unpack y = .inf b) :
    fdiv f ctl x y = (f.canon, flInvalid) := by
  simp [fdiv, nanOf_numbers (isNan_of_inf hx) (isNan_of_inf hy), hx, hy]

theorem fmul_infinity_zero (hx : f.unpack x = .inf a) (hy : f.unpack y = .fin b 0 e) :
    fmul f ctl x y = (f.canon, flInvalid) := by
  simp [fmul, nanOf_numbers (isNan_of_inf hx) (isNan_of_fin hy), hx, hy, FVal.isZero]

theorem fmul_zero_infinity (hx : f.unpack x = .fin a 0 e) (hy : f.unpack y = .inf b) :
    fmul f ctl x y = (f.canon, flInvalid) := by
  simp [fmul, nanOf_numbers (isNan_of_fin hx) (isNan_of_inf hy), hx, hy, FVal.isZero]

/-- Division by zero: of zero it is invalid, of any other number it is a signed infinity. -/
theorem fdiv_zero (hx : f.unpack x = .fin a m e) (hy : f.unpack y = .fin b 0 k) :
    fdiv f ctl x y = if m = 0 then (f.canon, flInvalid) else (f.infinity (a != b), flDivZero) := by
  simp [fdiv, nanOf_numbers (isNan_of_fin hx) (isNan_of_fin hy), hx, hy, FVal.neg]

theorem fsqrt_negative (hx : f.unpack x = .fin true m e) (hm : m ≠ 0) : fsqrt f ctl x = (f.canon, flInvalid) := by
  have hnan : nanOf f [x] = none := by simp [nanOf, hx, FVal.isNan]
  simp [fsqrt, hnan, hx, hm]

/-- R36: infinity times zero is invalid also when the addend is a NaN, which is passed on. -/
theorem ffma_infinity_zero {sub : Bool} (hx : f.unpack x = .inf a) (hy : f.unpack y = .fin b 0 e) :
    ffma f ctl sub z x y = (if (f.unpack z).isNan then f.quiet z else f.canon, flInvalid) := by
  have hnan := nanOf_addend (z := z) (isNan_of_inf hx) (isNan_of_fin hy)
  unfold ffma
  cases hz : (f.unpack z).isNan with
  | true =>
    rw [hz, if_pos rfl, Option.map_eq_some_iff] at hnan
    obtain ⟨r, hr, hq⟩ := hnan
    simp [hr, hq, hx, hy, FVal.isZero]
  | false =>
    rw [hz, if_neg Bool.false_ne_true, Option.map_eq_none_iff] at hnan
    simp [hnan, hx, hy, FVal.isZero]

end

end

/-- Settles O9: a NaN is what `nanOf_pair` passes on; without one, each invalid operation and the division by zero has
its lemma. -/
theorem specialValuesOfFloatingPoint : Obligations.SpecialValuesOfFloatingPoint := by
  unfold Obligations.SpecialValuesOfFloatingPoint
  intro f ctl _
  refine ⟨?nan, ?add, ?div, ?mul, ?zero, ?sqrt, ?fma⟩
  case nan =>
    intro x y h
    simp only [fadd, fsub, fmul, fdiv, nanOf_pair h, and_self]
  case add => exact fun x y a b hx hy hab => fadd_opposite_infinities hx hy hab
  case div => exact fun x y a b hx hy => fdiv_infinities hx hy
  case mul => exact fun x y a b e hx hy => ⟨fmul_infinity_zero hx hy, fmul_zero_infinity hy hx⟩
  case zero => exact fun x y a b m e k hx hy => fdiv_zero hx hy
  case sqrt => exact fun x m e hx hm => fsqrt_negative hx hm
  case fma => exact fun z x y a b e hx hy => ffma_infinity_zero hx hy

/-! ## Minimum and maximum (R46) -/

section
variable {f : FFmt} {x y : Nat}

/-- R46: the flag of a minimum or maximum is that of a signalling operand, whatever the result. -/
theorem fminmax_flags (hi : Bool) :
    (fminmax f hi x y).2 = if (f.unpack x).isSnan || (f.unpack y).isSnan then flInvalid else 0#5 := by
  simp only [fminmax, apply_ite Prod.snd, ite_self]

/-- R46: of two NaNs the result is the canonical one. -/
theorem fminmax_nans (hx : (f.unpack x).isNan = true) (hy : (f.unpack y).isNan = true) (hi : Bool) :
    (fminmax f hi x y).1 = f.canon := by
  simp [fminmax, hx, hy]

/-- R46: a NaN gives way to the other operand. -/
theorem fminmax_nan_left (hx : (f.unpack x).isNan = true) (hy : (f.unpack y).isNan = false) (hi : Bool) :
    (fminmax f hi x y).1 = y := by
  simp [fminmax, hx, hy]

theorem fminmax_nan_right (hx : (f.unpack x).isNan = false) (hy : (f.unpack y).isNan = true) (hi : Bool) :
    (fminmax f hi x y).1 = x := by
  simp [fminmax, hx, hy]

section
variable (hx : (f.unpack x).isNan = false) (hy : (f.unpack y).isNan = false)
include hx hy

theorem key_fmin : f.key (fminmax f false x y).1 = min (f.key x) (f.key y) := by
  by_cases h : f.key y < f.key x
  · simp [fminmax, hx, hy, h, Int.min_eq_right (Int.le_of_lt h)]
  · simp [fminmax, hx, hy, h, Int.min_eq_left (Int.not_lt.1 h)]

theorem key_fmax : f.key (fminmax f true x y).1 = max (f.key x) (f.key y) := by
  by_cases h : f.key x < f.key y
  · simp [fminmax, hx, hy, h, Int.max_eq_right (Int.le_of_lt h)]
  · simp [fminmax, hx, hy, h, Int.max_eq_left (Int.not_lt.1 h)]

end

/-- R46: −0 is one below +0. -/
theorem key_zeros : f.key (f.signBit true) = -1 ∧ f.key 0 = 0 := by
  have hpos : 0 < 2 ^ (f.fb + f.eb) := Nat.two_pow_pos _
  simp [FFmt.key, FFmt.signBit, bitsOf, Nat.div_self hpos]

end

/-- Settles O11: the operand that is no NaN (`fminmax_nan_left` and its kin), else the lesser or the greater key. -/
theorem minimumAndMaximum : Obligations.MinimumAndMaximum := by
  unfold Obligations.MinimumAndMaximum
  intro f x y _
  refine ⟨fminmax_nans, fminmax_nan_left, fminmax_nan_right, fun hx hy => ⟨key_fmin hx hy, key_fmax hx hy⟩,
    fminmax_flags, ?zeros⟩
  case zeros =>
    rw [key_zeros.1, key_zeros.2]
    decide

end Sys2Proof.Machine
end

section
/-!
Streams (R55 to R58): every generator is a permutation of its indices, so a stream holds as many ones as its value.
-/
namespace Sys2Proof.Machine

/-! ## The generators are permutations (R56, R57) -/

/-- A function that maps the n-bit numbers into themselves and no two of them to one; it permutes them
(`Permutes.map_range`). -/
structure Permutes (n : Nat) (f : Nat → Nat) : Prop where
  lt : ∀ i, i < 2 ^ n → f i < 2 ^ n
  inj : ∀ i j, i < 2 ^ n → j < 2 ^ n → f i = f j → i = j

theorem Permutes.comp {n : Nat} {f g : Nat → Nat} (hf : Permutes n f) (hg : Permutes n g) :
    Permutes n (fun i => f (g i)) where
  lt := fun i hi => hf.lt _ (hg.lt i hi)
  inj := fun i j hi hj h => hg.inj i j hi hj (hf.inj _ _ (hg.lt i hi) (hg.lt j hj) h)

theorem xor_right_cancel {i j k : Nat} (h : i ^^^ k = j ^^^ k) : i = j :=
  calc i = i ^^^ k ^^^ k := by rw [Nat.xor_assoc, Nat.xor_self, Nat.xor_zero]
    _ = j ^^^ k ^^^ k := by rw [h]
    _ = j := by rw [Nat.xor_assoc, Nat.xor_self, Nat.xor_zero]

theorem brevN_lt (n : Nat) : ∀ i, brevN n i < 2 ^ n := by
  induction n with
  | zero => intro i; simp [brevN]
  | succ n ih =>
    intro i
    have htail := ih (i / 2)
    rw [brevN, Nat.pow_succ]
    rcases Nat.mod_two_eq_zero_or_one i with hbit | hbit <;> rw [hbit] <;> omega

/-- The bits of a number can be read from their reverse: the low one first, then those of the half. -/
theorem brevN_inj (n : Nat) : ∀ i j, i < 2 ^ n → j < 2 ^ n → brevN n i = brevN n j → i = j := by
  induction n with
  | zero => intro i j hi hj _; omega
  | succ n ih =>
    intro i j hi hj h
    have hti := brevN_lt n (i / 2)
    have htj := brevN_lt n (j / 2)
    rw [brevN, brevN] at h
    have hsplit : i % 2 = j % 2 ∧ brevN n (i / 2) = brevN n (j / 2) := by
      rcases Nat.mod_two_eq_zero_or_one i with hbi | hbi <;> rcases Nat.mod_two_eq_zero_or_one j with hbj | hbj <;>
        rw [hbi, hbj] at h ⊢ <;> omega
    have hhalf := ih (i / 2) (j / 2) (by omega) (by omega) hsplit.2
    omega

theorem permutes_brevN (n : Nat) : Permutes n (brevN n) :=
  ⟨fun i _ => brevN_lt n i, brevN_inj n⟩

/-- The Gray code of the half is the half of the Gray code, so that equal codes have equal halves. -/
theorem gray_inj (n : Nat) : ∀ i j, i < 2 ^ n → j < 2 ^ n → i ^^^ (i / 2) = j ^^^ (j / 2) → i = j := by
  induction n with
  | zero => intro i j hi hj _; omega
  | succ n ih =>
    intro i j hi hj h
    have hcodes : (i / 2) ^^^ (i / 2 / 2) = (j / 2) ^^^ (j / 2 / 2) := by
      rw [← Nat.xor_div_two, ← Nat.xor_div_two, h]
    have hhalf : i / 2 = j / 2 := ih _ _ (by omega) (by omega) hcodes
    rw [hhalf] at h
    exact xor_right_cancel h

theorem permutes_gray (n : Nat) : Permutes n (fun i => i ^^^ (i / 2)) :=
  ⟨fun i hi => Nat.xor_lt_two_pow hi (Nat.lt_of_le_of_lt (Nat.div_le_self i 2) hi), gray_inj n⟩

theorem coprime_two_pow (n : Nat) {a : Nat} (ha : a % 2 = 1) : (2 ^ n).Coprime a :=
  Nat.Coprime.pow_left n (by rw [Nat.Coprime, Nat.gcd_rec, ha, Nat.gcd_one_left])

/-- Of two n-bit numbers with equal images their difference is a multiple of 2^n, as an odd factor can be dropped. -/
theorem le_of_affine_eq {n a b i j : Nat} (ha : a % 2 = 1) (hi : i < 2 ^ n)
    (h : (a * i + b) % 2 ^ n = (a * j + b) % 2 ^ n) : i ≤ j := by
  have hprod : 2 ^ n ∣ a * (i - j) := by
    have hdvd := Nat.dvd_of_mod_eq_zero (Nat.sub_mod_eq_zero_of_mod_eq h)
    rwa [Nat.add_sub_add_right, ← Nat.mul_sub] at hdvd
  have hdiff : 2 ^ n ∣ i - j := (coprime_two_pow n ha).dvd_of_dvd_mul_left hprod
  have hzero : i - j = 0 := Nat.eq_zero_of_dvd_of_lt hdiff (by omega)
  omega

/-- Multiplication by an odd number is invertible modulo a power of two. -/
theorem permutes_affine (n : Nat) {a : Nat} (b : Nat) (ha : a % 2 = 1) : Permutes n (fun i => (a * i + b) % 2 ^ n) where
  lt := fun _ _ => Nat.mod_lt _ (Nat.two_pow_pos n)
  inj := fun _ _ hi hj h => Nat.le_antisymm (le_of_affine_eq ha hi h) (le_of_affine_eq ha hj h.symm)

/-- The two parts of a number exchanged. -/
theorem permutes_exchange {n a b : Nat} (hn : a + b = n) : Permutes n (fun i => i % 2 ^ a * 2 ^ b + i / 2 ^ a) := by
  have hpow : 2 ^ n = 2 ^ a * 2 ^ b := by rw [← hn, Nat.pow_add]
  have hhigh {i : Nat} (hi : i < 2 ^ n) : i / 2 ^ a < 2 ^ b := Nat.div_lt_of_lt_mul (hpow ▸ hi)
  have hlow (i : Nat) : i % 2 ^ a < 2 ^ a := Nat.mod_lt i (Nat.two_pow_pos a)
  refine ⟨fun i hi => ?_, fun i j hi hj h => ?_⟩
  · calc i % 2 ^ a * 2 ^ b + i / 2 ^ a < i % 2 ^ a * 2 ^ b + 2 ^ b := Nat.add_lt_add_left (hhigh hi) _
      _ = (i % 2 ^ a + 1) * 2 ^ b := by rw [Nat.add_mul, Nat.one_mul]
      _ ≤ 2 ^ a * 2 ^ b := Nat.mul_le_mul_right _ (hlow i)
      _ = 2 ^ n := hpow.symm
  · have hvalue {i : Nat} (hi : i < 2 ^ n) : (i % 2 ^ a * 2 ^ b + i / 2 ^ a) % 2 ^ b = i / 2 ^ a := by
      rw [Nat.mul_add_mod', Nat.mod_eq_of_lt (hhigh hi)]
    have hhighs : i / 2 ^ a = j / 2 ^ a := (hvalue hi).symm.trans ((congrArg (· % 2 ^ b) h).trans (hvalue hj))
    have hlows : i % 2 ^ a = j % 2 ^ a := by
      rw [hhighs] at h
      exact Nat.eq_of_mul_eq_mul_right (Nat.two_pow_pos b) (Nat.add_right_cancel h)
    rw [← Nat.div_add_mod i (2 ^ a), ← Nat.div_add_mod j (2 ^ a), hhighs, hlows]

theorem permutes_xor {n k : Nat} (hk : k < 2 ^ n) : Permutes n (fun i => i ^^^ k) :=
  ⟨fun _ hi => Nat.xor_lt_two_pow hi hk, fun _ _ _ _ h => xor_right_cancel h⟩

/-- R57: each of the eight P_m is a permutation. -/
theorem permutes_genP (m n : Nat) : Permutes n (genP m n) := by
  unfold genP
  split
  · exact ⟨fun _ hi => hi, fun _ _ _ _ h => h⟩
  · exact permutes_brevN n
  · exact permutes_gray n
  · exact (permutes_brevN n).comp (permutes_gray n)
  · exact permutes_affine n 83 rfl
  · exact (permutes_brevN n).comp (permutes_affine n 83 rfl)
  · exact permutes_exchange (by omega)
  · exact (permutes_brevN n).comp (permutes_affine n 45 rfl)

/-- R56: each of the 64 generators takes every value of n bits once, for every n. -/
theorem permutes_gen (c n : Nat) : Permutes n (gen c n) :=
  (permutes_xor (Nat.mod_lt _ (Nat.two_pow_pos n))).comp (permutes_genP (c % 8) n)

theorem Permutes.nodup {n : Nat} {f : Nat → Nat} (h : Permutes n f) : ((List.range (2 ^ n)).map f).Nodup := by
  refine List.pairwise_map.2 (List.nodup_range.imp_of_mem (fun hi hj hne heq => hne ?_))
  exact h.inj _ _ (List.mem_range.1 hi) (List.mem_range.1 hj) heq

/-- No n-bit number is left out: it and the 2^n values would be more than 2^n different n-bit numbers. -/
theorem Permutes.mem_map {n : Nat} {f : Nat → Nat} (h : Permutes n f) (v : Nat) :
    v ∈ (List.range (2 ^ n)).map f ↔ v ∈ List.range (2 ^ n) := by
  have hsub : ∀ u ∈ (List.range (2 ^ n)).map f, u ∈ List.range (2 ^ n) := by
    intro u hu
    obtain ⟨i, hi, rfl⟩ := List.mem_map.1 hu
    exact List.mem_range.2 (h.lt i (List.mem_range.1 hi))
  refine ⟨hsub v, fun hv => Decidable.byContradiction (fun hout => ?_)⟩
  have hlen := (List.nodup_cons.2 ⟨hout, h.nodup⟩).length_le_of_subset (List.cons_subset.2 ⟨hv, hsub⟩)
  rw [List.length_cons, List.length_map, List.length_range] at hlen
  omega

/-- The values of a permutation, in order, are the numbers in some order. -/
theorem Permutes.map_range {n : Nat} {f : Nat → Nat} (h : Permutes n f) :
    ((List.range (2 ^ n)).map f).Perm (List.range (2 ^ n)) :=
  (List.perm_ext_iff_of_nodup h.nodup List.nodup_range).2 h.mem_map

theorem countP_range_lt (X : Nat) : ∀ L, (List.range L).countP (fun v => decide (v < X)) = min X L := by
  intro L
  induction L with
  | zero => simp
  | succ L ih =>
    rw [List.range_succ, List.countP_append, ih, List.countP_singleton]
    by_cases h : L < X
    · simp only [h, decide_true, if_true]; omega
    · simp only [h, decide_false, Bool.false_eq_true, if_false]; omega

/-- A permutation is below X at X places. -/
theorem Permutes.countP_lt {n : Nat} {f : Nat → Nat} (h : Permutes n f) {X : Nat} (hX : X ≤ 2 ^ n) :
    (List.range (2 ^ n)).countP (fun i => decide (f i < X)) = X :=
  calc (List.range (2 ^ n)).countP (fun i => decide (f i < X))
      = ((List.range (2 ^ n)).map f).countP (fun v => decide (v < X)) := by rw [List.countP_map]; rfl
    _ = (List.range (2 ^ n)).countP (fun v => decide (v < X)) := h.map_range.countP_eq _
    _ = X := by rw [countP_range_lt, Nat.min_eq_left hX]

/-! ## The bits of a stream (R55, R178) -/

/-- R83, R178: the ones of a number are the places at which it has a one. -/
theorem popcN_eq_countP (n : Nat) : ∀ x, popcN n x = (List.range n).countP (fun i => x.testBit i) := by
  induction n with
  | zero => intro x; rfl
  | succ n ih =>
    intro x
    have hlow : x % 2 = if x.testBit 0 then 1 else 0 := by
      rw [Nat.testBit_zero]
      rcases Nat.mod_two_eq_zero_or_one x with h | h <;> simp [h]
    rw [popcN, ih, List.range_succ_eq_map, List.countP_cons, List.countP_map, hlow, Nat.add_comm]
    simp only [Function.comp_def, Nat.testBit_succ]

theorem streamCount_eq (z : ZReg) :
    streamCount z = (List.range (streamLen z.len)).countP (fun i => z.bits.getLsbD i) := popcN_eq_countP _ _

/-- A binary numeral, low digit first, has its digits as bits. -/
theorem testBit_digits (l : List Bool) :
    ∀ i, (l.foldr (fun (b : Bool) acc => (if b then 1 else 0) + 2 * acc) 0).testBit i = l.getD i false := by
  induction l with
  | nil => intro i; simp
  | cons b l ih =>
    intro i
    rw [List.foldr_cons]
    cases i with
    | zero => cases b <;> simp [Nat.testBit_zero]
    | succ i =>
      have hhalf (n : Nat) : ((if b then 1 else 0) + 2 * n) / 2 = n := by split <;> omega
      rw [Nat.testBit_succ, hhalf, ih, List.getD_cons_succ]

theorem ofBits_getLsbD (l : List Bool) {i : Nat} (hi : i < 4096) : (ofBits l).getLsbD i = l.getD i false := by
  rw [ofBits, BitVec.getLsbD_ofNat, testBit_digits]
  simp [hi]

/-- R55: no length but that of code 3 is longer than a stream register. -/
theorem streamLen_le {code : BitVec 2} (h : code ≠ 3#2) : streamLen code ≤ 4096 := by
  revert h
  revert code
  decide

/-- R58: bit i of the stream of X is set where the generator of its class is below X. -/
theorem streamOf_getLsbD {code : BitVec 2} (h : code ≠ 3#2) (c X : Nat) {i : Nat} (hi : i < streamLen code) :
    (streamOf code c X).bits.getLsbD i = decide (gen c (streamN code) i < X) := by
  have hn : i < 2 ^ streamN code := hi
  rw [streamOf, ofBits_getLsbD _ (Nat.lt_of_lt_of_le hi (streamLen_le h))]
  simp [List.getD_eq_getElem?_getD, hn]

/-- Settles O17: the ones of the stream are the places at which the generator is below X (`streamOf_getLsbD`), and the
generator is a permutation (`permutes_gen`). -/
theorem streamsHoldExactlyTheirValue : Obligations.StreamsHoldExactlyTheirValue := by
  unfold Obligations.StreamsHoldExactlyTheirValue
  intro code c X hcode _ hX
  calc streamCount (streamOf code c X)
      = (List.range (streamLen code)).countP (fun i => (streamOf code c X).bits.getLsbD i) := streamCount_eq _
    _ = (List.range (streamLen code)).countP (fun i => decide (gen c (streamN code) i < X)) :=
        List.countP_congr (fun i hi => by rw [streamOf_getLsbD hcode c X (List.mem_range.1 hi)])
    _ = X := (permutes_gen c (streamN code)).countP_lt hX

end Sys2Proof.Machine
end

section
/-!
The stream instructions in the stream unit (R55, R177 to R182, R185).
-/
namespace Sys2Proof
open Machine

/-! ## The unit (R185) -/

/-- A change of the core that leaves its threads and its register cache alone may as well have been made before. -/
theorem Becomes.modCore {s s1 : State} {c slot : Nat} {t : Thread} (B : Becomes s s1 c slot t) {f : Core → Core}
    (ht : ∀ k, (f k).threads = k.threads)
    (hf : ∀ k, { f k with threads := [], rc := [] } = f { k with threads := [], rc := [] }) :
    Becomes (s.modCore c f) (s1.modCore c f) c slot t := by
  refine ⟨?_, ?_, ?_, ?_, B.rest, B.events⟩
  · rw [thread?_modCore (ht _), B.thread]
  · intro x hx
    rw [thread?_modCore (ht _), thread?_modCore (ht _), B.others x hx]
  · rw [State.core_modCore_self, State.core_modCore_self, hf, hf, B.core]
  · intro x hx
    rw [State.core_modCore, State.core_modCore, if_neg hx, if_neg hx, B.cores x hx]

/-- The stream unit taken until cycle `e`. -/
def takeUnit (s : State) (c e : Nat) : State := s.modCore c (fun k => { k with ssuBusy := e })

theorem Becomes.takeUnit {s s1 : State} {c slot : Nat} {t : Thread} (B : Becomes s s1 c slot t) (e : Nat) :
    Becomes (takeUnit s c e) (takeUnit s1 c e) c slot t := B.modCore (fun _ => rfl) (fun _ => rfl)

theorem Plain.takeUnit {s : State} {c slot : Nat} {t : Thread} (hp : Plain s c slot t) (e : Nat) :
    Plain (takeUnit s c e) c slot t where
  notStepped := hp.notStepped
  noCommit := fun L hL => hp.noCommit L (by rwa [Sys2Proof.takeUnit, State.core_modCore_self] at hL)

section
variable {s : State} {c slot time e : Nat} {w : List RegWrite}

/-- R185: a result that is there within 16 cycles is written in the turn. -/
theorem ssuRun_writes (he : e = max (s.core c).cyc (s.core c).ssuBusy + time) (h : e ≤ (s.core c).cyc + 16) :
    ssuRun s c slot time w = applyWrites (takeUnit s c e) c slot w := by
  subst he
  exact if_pos h

/-- R185: for a later one the thread leaves the rotation. -/
theorem ssuRun_waits (he : e = max (s.core c).cyc (s.core c).ssuBusy + time) (h : (s.core c).cyc + 16 < e) :
    ssuRun s c slot time w = beginWait (takeUnit s c e) c slot .waiting (.ssu e w) := by
  subst he
  exact if_neg (Nat.not_le.2 h)

end

/-! ## What every stream instruction does -/

/-- R185, R380: a stream instruction that passes its checks runs in the unit, which stands at the issue as before it. -/
theorem computesZ_of {i : Instr} {d : Desc} {body : Nat → Nat → Thread → State → State} {p : Thread → Prop}
    {time : Thread → Nat} {w : Thread → List RegWrite} {f : Thread → Thread} (he : exec i = opZ i d body)
    (hlen : d.len = 4) (hc : ∀ t, d.commit t = false) (hs : ∀ t, (f t).stepping = t.stepping)
    (hb : ∀ s c slot t, p t → body c slot (reading i t) s = ssuRun s c slot (time t) (w t))
    (hw : ∀ s s1 c slot t, Becomes s s1 c slot (past i 4 t) →
      Becomes s (applyWrites s1 c slot (w t)) c slot (f (past i 4 t))) : ComputesZ i d p time w f := by
  intro s c slot t e hp h hfenced hend
  have hcore := atIssue_core (i := i) (d := d) (s := s) (c := c) (slot := slot) (t := t) (hc _)
  have hcyc : ((atIssue i d s c slot t).core c).cyc = (s.core c).cyc := by rw [hcore]; rfl
  have hbusy : ((atIssue i d s c slot t).core c).ssuBusy = (s.core c).ssuBusy := by rw [hcore]; rfl
  have hfault : ssuFault ((atIssue i d s c slot t).core c) = none := by
    have hfns : ((atIssue i d s c slot t).core c).fencedFns = (s.core c).fencedFns := by rw [hcore]; rfl
    rw [ssuFault, hfns, hfenced]
    rfl
  have hrun := hb (atIssue i d s c slot t) c slot t hp
  rw [← hcyc, ← hbusy] at hend
  rw [← hcyc]
  refine ⟨fun hin hplain => ?_, fun hlate => ?_⟩
  · have B := atIssue_becomes (i := i) (d := d) h.turn hplain.notStepped (.inl (hc _))
    rw [hlen] at B
    have W := hw _ _ _ _ _ (B.takeUnit e)
    refine ⟨_, ?_, W⟩
    rw [he, opZ, issue_next h, hfault]
    dsimp only
    rw [hrun, ssuRun_writes hend hin]
    exact congrArg _ (afterIssue_eq W (hplain.takeUnit e) ((hs _).trans hplain.notStepped))
  · have hthread : (takeUnit (atIssue i d s c slot t) c e).thread? c slot =
        some (issued (reading i t) (encode32 i) d.len) :=
      (thread?_modCore (by rfl) c slot).trans (atIssue_thread i d s c slot t)
    refine leaves_of (he.trans rfl) h ?_ (beginWait_thread hthread .waiting (.ssu e (w t))) (by simp)
    rw [hfault]
    exact hrun.trans (ssuRun_waits hend hlate)

/-- One whose result is a stream. -/
theorem computesZ_setZ {i : Instr} {d : Desc} {body : Nat → Nat → Thread → State → State} {p : Thread → Prop}
    {time : Thread → Nat} {z : Nat} {v : Thread → ZReg} (he : exec i = opZ i d body) (hlen : d.len = 4)
    (hc : ∀ t, d.commit t = false) (hv : ∀ t, v (past i 4 t) = v t)
    (hb : ∀ s c slot t, p t → body c slot (reading i t) s = ssuRun s c slot (time t) [.z z (v t)]) :
    ComputesZ i d p time (fun t => [.z z (v t)]) (fun t => t.setZ z (v t)) :=
  computesZ_of he hlen hc (fun _ => rfl) hb (fun _ _ _ _ t B => by
    simp only [hv]
    exact B.modThread (fun u => u.setZ z (v t)))

/-- ZAND, ZOR and ZXNOR: two streams of one length that share no class. -/
theorem computesZ_opZ2 {i : Instr} {g : BitVec 3} {d a b : BitVec 4} {f : ZWord → ZWord → ZWord}
    (he : exec i = opZ2 i g d a b f) :
    ComputesZ i { guard := g, z := [d.toNat, a.toNat, b.toNat], zreads := [a.toNat, b.toNat] }
      (fun t => (t.zv a.toNat).len = (t.zv b.toNat).len ∧ (t.zv a.toNat).cls &&& (t.zv b.toNat).cls = 0#64)
      (fun t => ssuTime (t.zv a.toNat).len)
      (fun t => [.z d.toNat { bits := clip (t.zv a.toNat).len (f (t.zv a.toNat).bits (t.zv b.toNat).bits)
                              len := (t.zv a.toNat).len, cls := (t.zv a.toNat).cls ||| (t.zv b.toNat).cls }])
      (fun t => t.setZ d.toNat { bits := clip (t.zv a.toNat).len (f (t.zv a.toNat).bits (t.zv b.toNat).bits)
                                 len := (t.zv a.toNat).len, cls := (t.zv a.toNat).cls ||| (t.zv b.toNat).cls }) := by
  refine computesZ_setZ he rfl (fun _ => rfl) (fun _ => rfl) (fun s c slot t hp => ?_)
  obtain ⟨hlen, hcls⟩ := hp
  simp only [reading_zv, bne_eq_false_iff_eq.2 hlen, bne_eq_false_iff_eq.2 hcls, Bool.false_eq_true, if_false]

/-- R177: ZCTL[1:0] as the statement reads it. -/
theorem zctlLen_eq (t : Thread) : zctlLen t = t.zctl.extractLsb' 0 2 := BitVec.setWidth_eq_extractLsb' (by decide)

/-- Settles O15: every stream instruction is a run of the unit (`computesZ_of`) once its checks are passed. -/
theorem streamInstructionsWriteTheirResult : Obligations.StreamInstructionsWriteTheirResult := by
  unfold Obligations.StreamInstructionsWriteTheirResult
  refine ⟨?b2z, ?z2b, ?zrgn, ?binary, ?znot, ?zmux⟩
  case b2z =>
    intro g z a b
    simp only [← zctlLen_eq]
    exact computesZ_setZ exec_b2z rfl (fun _ => rfl) (fun _ => rfl) (fun _ _ _ _ _ => rfl)
  case z2b =>
    intro g z a
    simp only [← streamCount_eq]
    exact computesZ_of exec_z2b rfl (fun _ => rfl) (fun _ => Thread.setG_stepping ..) (fun _ _ _ _ _ => rfl)
      (fun _ _ _ _ _ B => B.writeG _ _)
  case zrgn =>
    intro g z src b
    exact computesZ_setZ exec_zrgn rfl (fun _ => rfl) (fun _ => rfl) (fun _ _ _ _ _ => rfl)
  case binary =>
    intro g d a b op hop
    simp only [List.mem_cons, List.not_mem_nil, or_false] at hop
    rcases hop with rfl | rfl | rfl
    · exact computesZ_opZ2 exec_zand
    · exact computesZ_opZ2 exec_zor
    · exact computesZ_opZ2 exec_zxnor
  case znot =>
    intro g d a
    exact computesZ_setZ exec_znot rfl (fun _ => rfl) (fun _ => rfl) (fun _ _ _ _ _ => rfl)
  case zmux =>
    intro g d a b sel
    refine computesZ_setZ exec_zmux rfl (fun _ => rfl) (fun _ => rfl) (fun s c slot t hp => ?_)
    obtain ⟨hxy, hxz, hzx, hzy⟩ := hp
    simp only [reading_zv, bne_eq_false_iff_eq.2 hxy, bne_eq_false_iff_eq.2 hxz, bne_eq_false_iff_eq.2 hzx,
      bne_eq_false_iff_eq.2 hzy, Bool.false_eq_true, if_false]

end Sys2Proof
end

section
/-!
O57 and O58: the encoder and the decoder are each other's inverse (R60, R64, R66, R67): the decoder reads what the
encoder wrote (`decodeWords_encode`), and what it reads is put together again as the word (`encode_of_decodeFields`) or
as the eight words of the tile command (`encode_of_decodeTcwFields`) that it came from.
-/
namespace Sys2Proof.Laws.Encoding
open Sys2Proof

/-- Settles O57: bytes give their words back (`wordsOfBytes_bytes`), and the words their instruction. -/
theorem decodingTheBytesOfAnInstructionGivesItBack : Obligations.DecodingTheBytesOfAnInstructionGivesItBack := by
  unfold Obligations.DecodingTheBytesOfAnInstructionGivesItBack
  intro i hwf he
  rw [decodeBytes, wordsOfBytes_bytes]
  exact decodeWords_encode i hwf he

/-! ## What the checks of the decoder pass -/

theorem guardZ_ok_iff {c : Bool} {i j : Instr} : guardZ c i = .ok j ↔ c = true ∧ i = j := by
  cases c <;> simp [guardZ, illegal]

theorem checkWf_ok_iff {i j : Instr} : checkWf i = .ok j ↔ j.wf = true ∧ i = j := by
  unfold checkWf
  split
  case isTrue hwf =>
    simp only [Except.ok.injEq]
    exact ⟨fun e => ⟨e ▸ hwf, e⟩, And.right⟩
  case isFalse hwf => exact ⟨nofun, fun ⟨hj, e⟩ => absurd (e ▸ hj) hwf⟩

/-- R63, order 2: a word decodes to the instruction of its fields, when that is well formed. -/
theorem decodeWord_ok_iff {w : BitVec 32} {i : Instr} : decodeWord w = .ok i ↔ i.wf = true ∧ decodeFields w = .ok i := by
  unfold decodeWord
  cases h : decodeFields w with
  | error e => simp
  | ok j => simp only [checkWf_ok_iff, Except.ok.injEq]

/-! ## One word (R64, R66, R69) -/

/-- R69: majors 0x3E and 0x3F are those of the words of a tile command, and no instruction's of one word. -/
theorem decodeFields_tile {w : BitVec 32} {i : Instr} (h : w.extractLsb' 23 6 = 0x3E#6 ∨ w.extractLsb' 23 6 = 0x3F#6) :
    decodeFields w ≠ .ok i := by
  have refused : decodeFields w = illegal := by
    unfold decodeFields
    rcases h with h | h <;> rw [h] <;> rfl
  rw [refused]
  exact nofun

/-- R69: whichever its major is, a word is the encoding of the instruction of its fields. -/
theorem encode_of_major {w : BitVec 32} {i : Instr} : ∀ m : BitVec 6, w.extractLsb' 23 6 = m →
    decodeFields w = .ok i → encode i = [w]
  | ⟨0x00, _⟩ => back_0x00 w i | ⟨0x01, _⟩ => back_0x01 w i | ⟨0x02, _⟩ => back_0x02 w i | ⟨0x03, _⟩ => back_0x03 w i
  | ⟨0x04, _⟩ => back_0x04 w i | ⟨0x05, _⟩ => back_0x05 w i | ⟨0x06, _⟩ => back_0x06 w i | ⟨0x07, _⟩ => back_0x07 w i
  | ⟨0x08, _⟩ => back_0x08 w i | ⟨0x09, _⟩ => back_0x09 w i | ⟨0x0A, _⟩ => back_0x0A w i | ⟨0x0B, _⟩ => back_0x0B w i
  | ⟨0x0C, _⟩ => back_0x0C w i | ⟨0x0D, _⟩ => back_0x0D w i | ⟨0x0E, _⟩ => back_0x0E w i | ⟨0x0F, _⟩ => back_0x0F w i
  | ⟨0x10, _⟩ => back_0x10 w i | ⟨0x11, _⟩ => back_0x11 w i | ⟨0x12, _⟩ => back_0x12 w i | ⟨0x13, _⟩ => back_0x13 w i
  | ⟨0x14, _⟩ => back_0x14 w i | ⟨0x15, _⟩ => back_0x15 w i | ⟨0x16, _⟩ => back_0x16 w i | ⟨0x17, _⟩ => back_0x17 w i
  | ⟨0x18, _⟩ => back_0x18 w i | ⟨0x19, _⟩ => back_0x19 w i | ⟨0x1A, _⟩ => back_0x1A w i | ⟨0x1B, _⟩ => back_0x1B w i
  | ⟨0x1C, _⟩ => back_0x1C w i | ⟨0x1D, _⟩ => back_0x1D w i | ⟨0x1E, _⟩ => back_0x1E w i | ⟨0x1F, _⟩ => back_0x1F w i
  | ⟨0x20, _⟩ => back_0x20 w i | ⟨0x21, _⟩ => back_0x21 w i | ⟨0x22, _⟩ => back_0x22 w i | ⟨0x23, _⟩ => back_0x23 w i
  | ⟨0x24, _⟩ => back_0x24 w i | ⟨0x25, _⟩ => back_0x25 w i | ⟨0x26, _⟩ => back_0x26 w i | ⟨0x27, _⟩ => back_0x27 w i
  | ⟨0x28, _⟩ => back_0x28 w i | ⟨0x29, _⟩ => back_0x29 w i | ⟨0x2A, _⟩ => back_0x2A w i | ⟨0x2B, _⟩ => back_0x2B w i
  | ⟨0x2C, _⟩ => back_0x2C w i | ⟨0x2D, _⟩ => back_0x2D w i | ⟨0x2E, _⟩ => back_0x2E w i | ⟨0x2F, _⟩ => back_0x2F w i
  | ⟨0x30, _⟩ => back_0x30 w i | ⟨0x31, _⟩ => back_0x31 w i | ⟨0x32, _⟩ => back_0x32 w i | ⟨0x33, _⟩ => back_0x33 w i
  | ⟨0x34, _⟩ => back_0x34 w i | ⟨0x35, _⟩ => back_0x35 w i | ⟨0x36, _⟩ => back_0x36 w i | ⟨0x37, _⟩ => back_0x37 w i
  | ⟨0x38, _⟩ => back_0x38 w i | ⟨0x39, _⟩ => back_0x39 w i | ⟨0x3A, _⟩ => back_0x3A w i | ⟨0x3B, _⟩ => back_0x3B w i
  | ⟨0x3C, _⟩ => back_0x3C w i | ⟨0x3D, _⟩ => back_0x3D w i
  | ⟨0x3E, _⟩ => fun h hd => absurd hd (decodeFields_tile (.inl h))
  | ⟨0x3F, _⟩ => fun h hd => absurd hd (decodeFields_tile (.inr h))
  | ⟨_ + 0x40, hn⟩ => absurd hn (Nat.not_lt.2 (Nat.le_add_left ..))

/-- R64, R66: the word that the decoder read an instruction's fields from is that instruction's encoding. -/
theorem encode_of_decodeFields {w : BitVec 32} {i : Instr} (hd : decodeFields w = .ok i) : encode i = [w] :=
  encode_of_major _ rfl hd

/-! ## A tile command (R67, R156, R157) -/

/-- R67: a header is put together again from its guard, its kind and its flags. -/
theorem encHeader_of {h : BitVec 32} {kind : BitVec 4} {flags : BitVec 16} (hh : isTcwHeader h = true)
    (hk : (h.extractLsb' 19 4).toNat = kind.toNat) (hf : flags = h.extractLsb' 0 16) :
    encHeader (h.extractLsb' 29 3) kind flags = h := by
  simp only [isTcwHeader, Bool.and_eq_true, beq_iff_eq] at hh
  obtain ⟨hmajor, hones⟩ := hh
  rw [encHeader, hf, ← BitVec.eq_of_toNat_eq hk, ← hmajor, ← hones, join2 h 29 3 23 6 rfl, join2 h 23 9 19 4 rfl,
    join2 h 19 13 16 3 rfl, join2 h 16 16 0 16 rfl]
  exact ex_all h

/-- R67, R156: a payload word is put together again from its slots. -/
theorem encPay_of {w : BitVec 32} {x y z : BitVec 7} {t : BitVec 2} (hp : isPayload w = true) (hx : payX w = x)
    (hy : payY w = y) (hz : payZ w = z) (ht : payT w = t) : encPay x y z t = w := by
  simp only [isPayload, Bool.and_eq_true, beq_iff_eq] at hp
  obtain ⟨hguard, hmajor⟩ := hp
  rw [encPay, ← hx, ← hy, ← hz, ← ht, ← hguard, ← hmajor]
  exact encR_back w

/-- R156: a payload word none of whose slots is used. -/
theorem encPay_unused {w : BitVec 32} (hp : isPayload w = true) (hz : w.extractLsb' 0 23 = 0#23) :
    encPay 0#7 0#7 0#7 0#2 = w :=
  encPay_of hp (zsub 16 7 hz (by decide) (by decide)) (zsub 9 7 hz (by decide) (by decide))
    (zsub 2 7 hz (by decide) (by decide)) (zsub 0 2 hz (by decide) (by decide))

/-- R157: the flags of an MMA. -/
theorem mmaFlags_of {h : BitVec 32} (hz : h.extractLsb' 8 8 = 0#8) :
    (0#8 ++ bit (h.extractLsb' 7 1 == 1#1) ++ bit (h.extractLsb' 6 1 == 1#1) ++ h.extractLsb' 3 3 ++
      h.extractLsb' 0 3 : BitVec 16) = h.extractLsb' 0 16 := by
  rw [bit_of, bit_of, ← hz, join2 h 8 8 7 1 rfl, join2 h 7 9 6 1 rfl, join2 h 6 10 3 3 rfl, join2 h 3 13 0 3 rfl]

/-- R157: the flags of a GATH or an ENC8, of which one is defined. -/
theorem oneFlag_of {h : BitVec 32} (hz : h.extractLsb' 1 15 = 0#15) :
    (0#15 ++ bit (h.extractLsb' 0 1 == 1#1) : BitVec 16) = h.extractLsb' 0 16 := by
  rw [bit_of, ← hz, join2 h 1 15 0 1 rfl]

/-- R157: the flags of a COLL. -/
theorem collFlags_of {h : BitVec 32} (hz : h.extractLsb' 6 10 = 0#10) :
    (0#10 ++ h.extractLsb' 2 4 ++ h.extractLsb' 0 2 : BitVec 16) = h.extractLsb' 0 16 := by
  rw [← hz, join2 h 6 10 2 4 rfl, join2 h 2 14 0 2 rfl]

section
variable {h w1 w2 w3 w4 w5 w6 w7 : BitVec 32} {g : BitVec 3} {kind : BitVec 4} {flags : BitVec 16} {cpl : Cpl}
  {x2 y2 z2 x3 y3 z3 x4 y4 x5 y5 : BitVec 7} {i : Instr}

/-- R156: eight words that are, one by one, those of a tile command. -/
theorem encTcw_of (hh : encHeader g kind flags = h) (h1 : encPay cpl.cpl cpl.val cpl.ms cpl.mode = w1)
    (h2 : encPay x2 y2 z2 0#2 = w2) (h3 : encPay x3 y3 z3 0#2 = w3) (h4 : encPay x4 y4 0#7 0#2 = w4)
    (h5 : encPay x5 y5 0#7 0#2 = w5) (h6 : encPay 0#7 0#7 0#7 0#2 = w6) (h7 : encPay 0#7 0#7 0#7 0#2 = w7) :
    encTcw g kind flags cpl x2 y2 z2 x3 y3 z3 x4 y4 x5 y5 = [h, w1, w2, w3, w4, w5, w6, w7] := by
  subst hh h1 h2 h3 h4 h5 h6; rw [← h7]; rfl

/-- R66, R156, R157: the eight words that the decoder read a tile command's fields from are its encoding. -/
theorem encode_of_decodeTcwFields (hh : isTcwHeader h = true)
    (hpay : ∀ w ∈ [w1, w2, w3, w4, w5, w6, w7], isPayload w = true)
    (hd : decodeTcwFields h w1 w2 w3 w4 w5 w6 w7 = .ok i) :
    encode i = [h, w1, w2, w3, w4, w5, w6, w7] := by
  simp only [List.forall_mem_cons] at hpay
  obtain ⟨h1, h2, h3, h4, h5, h6, h7, -⟩ := hpay
  have hw1 : encPay (payX w1) (payY w1) (payZ w1) (payT w1) = w1 := encPay_of h1 rfl rfl rfl rfl
  simp only [decodeTcwFields] at hd
  split at hd <;> simp only [guardZ_ok_iff, Bool.and_eq_true, beq_iff_eq, reduceCtorEq] at hd
  case h_1 hk =>
    obtain ⟨⟨⟨⟨⟨⟨⟨⟨⟨t2, t3⟩, t4⟩, t5⟩, r6⟩, r7⟩, z4⟩, z5⟩, hf⟩, rfl⟩ := hd
    exact encTcw_of (encHeader_of hh hk (mmaFlags_of hf)) hw1 (encPay_of h2 rfl rfl rfl t2) (encPay_of h3 rfl rfl rfl t3)
      (encPay_of h4 rfl rfl z4 t4) (encPay_of h5 rfl rfl z5 t5) (encPay_unused h6 r6) (encPay_unused h7 r7)
  case h_2 hk =>
    obtain ⟨⟨⟨⟨⟨⟨⟨⟨⟨t2, t3⟩, t4⟩, t5⟩, r6⟩, r7⟩, r4⟩, r5⟩, hf⟩, rfl⟩ := hd
    exact encTcw_of (encHeader_of hh hk hf.symm) hw1 (encPay_of h2 rfl rfl rfl t2) (encPay_of h3 rfl rfl rfl t3)
      (encPay_unused h4 r4) (encPay_unused h5 r5) (encPay_unused h6 r6) (encPay_unused h7 r7)
  case h_3 hk =>
    obtain ⟨⟨⟨⟨⟨⟨⟨⟨⟨⟨t2, t3⟩, t4⟩, t5⟩, r6⟩, r7⟩, z3⟩, z4⟩, r5⟩, hf⟩, rfl⟩ := hd
    exact encTcw_of (encHeader_of hh hk (oneFlag_of hf)) hw1 (encPay_of h2 rfl rfl rfl t2) (encPay_of h3 rfl rfl z3 t3)
      (encPay_of h4 rfl rfl z4 t4) (encPay_unused h5 r5) (encPay_unused h6 r6) (encPay_unused h7 r7)
  case h_4 hk =>
    obtain ⟨⟨⟨⟨⟨⟨⟨⟨⟨⟨t2, t3⟩, t4⟩, t5⟩, r6⟩, r7⟩, z3⟩, r4⟩, r5⟩, hf⟩, rfl⟩ := hd
    exact encTcw_of (encHeader_of hh hk (collFlags_of hf)) hw1 (encPay_of h2 rfl rfl rfl t2) (encPay_of h3 rfl rfl z3 t3)
      (encPay_unused h4 r4) (encPay_unused h5 r5) (encPay_unused h6 r6) (encPay_unused h7 r7)
  case h_5 hk =>
    obtain ⟨⟨⟨⟨⟨⟨⟨⟨⟨⟨t2, t3⟩, t4⟩, t5⟩, r6⟩, r7⟩, y3⟩, r4⟩, r5⟩, hf⟩, rfl⟩ := hd
    exact encTcw_of (encHeader_of hh hk hf.symm) hw1 (encPay_of h2 rfl rfl rfl t2) (encPay_of h3 rfl y3 rfl t3)
      (encPay_unused h4 r4) (encPay_unused h5 r5) (encPay_unused h6 r6) (encPay_unused h7 r7)
  case h_6 hk =>
    obtain ⟨⟨⟨⟨⟨⟨⟨⟨⟨t2, t3⟩, t4⟩, t5⟩, r6⟩, r7⟩, z4⟩, r5⟩, hf⟩, rfl⟩ := hd
    exact encTcw_of (encHeader_of hh hk (oneFlag_of hf)) hw1 (encPay_of h2 rfl rfl rfl t2) (encPay_of h3 rfl rfl rfl t3)
      (encPay_of h4 rfl rfl z4 t4) (encPay_unused h5 r5) (encPay_unused h6 r6) (encPay_unused h7 r7)

end

/-- R67, R68: a tile command that decodes has seven payload words, and is the well-formed instruction of its fields. -/
theorem decodeTcw_ok {h w1 w2 w3 w4 w5 w6 w7 : BitVec 32} {i : Instr}
    (hd : decodeTcw h w1 w2 w3 w4 w5 w6 w7 = .ok i) :
    (∀ w ∈ [w1, w2, w3, w4, w5, w6, w7], isPayload w = true) ∧ i.wf = true ∧
      decodeTcwFields h w1 w2 w3 w4 w5 w6 w7 = .ok i := by
  unfold decodeTcw at hd
  split at hd
  case isTrue hp =>
    have hpay : ∀ w ∈ [w1, w2, w3, w4, w5, w6, w7], isPayload w = true := by simpa [and_assoc] using hp
    cases hf : decodeTcwFields h w1 w2 w3 w4 w5 w6 w7 with
    | error e => simp [hf] at hd
    | ok j =>
      rw [hf] at hd
      obtain ⟨hwf, rfl⟩ := checkWf_ok_iff.1 hd
      exact ⟨hpay, hwf, rfl⟩
  case isFalse => cases hd

/-- Settles O58: what passes the decoder is well formed, and its fields are the word's (`encode_of_decodeFields`), or
those of the eight words (`encode_of_decodeTcwFields`). -/
theorem everyWordThatDecodesIsItsInstructionsEncoding : Obligations.EveryWordThatDecodesIsItsInstructionsEncoding := by
  unfold Obligations.EveryWordThatDecodesIsItsInstructionsEncoding
  refine ⟨?word, ?tile⟩
  case word =>
    intro w i _ hd
    obtain ⟨hwf, hfields⟩ := decodeWord_ok_iff.1 hd
    exact ⟨hwf, encode_of_decodeFields hfields⟩
  case tile =>
    intro h w1 w2 w3 w4 w5 w6 w7 i hh hd
    obtain ⟨hpay, hwf, hfields⟩ := decodeTcw_ok hd
    exact ⟨hwf, encode_of_decodeTcwFields hh hpay hfields⟩

end Sys2Proof.Laws.Encoding
end

section
/-!
O21: the turn of an instruction whose guard is false (R61, R62), whatever its form: the issue ends before any effect of
the instruction's own (`issue_skips`), with the thread past the instruction and nothing else changed.
-/
namespace Sys2Proof
open Machine

section
variable {i : Instr} {d : Desc} {body : Nat → Nat → Thread → State → State} {s : State} {c slot : Nat} {t : Thread}

/-- R62: with a false guard an instruction that names usable registers only moves the thread past it. -/
theorem issue_skips (h : Skips d s c slot t) : issue i d body s = .next (afterIssue (settleCore
    ((s.setThread c slot (reading i t)).setThread c slot (issued (reading i t) (encode32 i) d.len)) c slot) c slot) := by
  have hguard : (d.guard != 0#3) = true := bne_iff_ne.2 h.guarded
  have hlimit : limitFault (reading i t) d = none := limitFault_none h.gLimit h.vLimit h.zLimit
  have hoff : (reading i t).p d.guard.toNat = false := h.off
  unfold issue
  simp only [h.turn]
  rw [show ({ t with ipc := t.pc, iword := encode32 i } : Thread) = reading i t from rfl]
  simp only [absent_reading, h.here, hguard, hlimit, h.clean, hoff, Bool.and_false, Bool.not_false, Bool.and_true,
    Bool.false_eq_true, if_false, if_true]

/-- R61: a thread that is not being stepped stands past the instruction once it has issued. -/
theorem issued_reading (len : Nat) (hs : t.stepping = none) : issued (reading i t) (encode32 i) len = past i len t := by
  simp [issued, reading, past, hs]

/-- R61, R62: an instruction that issues by `d` is skipped when its guard is false. -/
theorem skippedWhenOff_of_issue (he : exec i = issue i d body) : SkippedWhenOff i d := by
  intro s c slot t h hp
  have moved : Becomes s ((s.setThread c slot (reading i t)).setThread c slot (past i d.len t)) c slot (past i d.len t) :=
    ((Becomes.refl (current_thread h.turn)).setThread _).setThread _
  have settled := moved.settleCore rfl
  refine ⟨_, ?_, settled⟩
  rw [he, issue_skips h, issued_reading _ hp.notStepped, afterIssue_eq settled hp hp.notStepped]

/-- R62: which entry a relaxed load would ask for is nothing to an instruction that is skipped. -/
theorem SkippedWhenOff.of_alloc {alloc : Thread → Option Nat} (h : SkippedWhenOff i { d with alloc := alloc }) :
    SkippedWhenOff i d :=
  fun s c slot t hskip => h s c slot t ⟨hskip.turn, hskip.gLimit, hskip.vLimit, hskip.zLimit, hskip.guarded, hskip.here,
    hskip.clean, hskip.off⟩

end

/-! ## The forms of FADD.D, LDD and STD -/

theorem opF2_issues (i : Instr) (g : BitVec 3) (d a b : BitVec 7) (f : FFmt) (op : Word → Nat → Nat → Nat × BitVec 5) :
    ∃ body, opF2 i g d a b f op = issue i (dRRR g d a b) body := ⟨_, funext fun s => by unfold opF2; rfl⟩

theorem opLoad_issues (i : Instr) (g : BitVec 3) (d a : BitVec 7) (off : BitVec 8) (r : BitVec 1) (size : Nat)
    (signed : Bool) : ∃ body, opLoad i g d a off r size signed =
      issue i { guard := g, g := [d.toNat, a.toNat], reads := [a.toNat], writes := [d.toNat],
                alloc := loadEntry d r (fun t => eaM t a off size) } body :=
  ⟨_, rfl⟩

theorem opStore_issues (i : Instr) (g : BitVec 3) (d a : BitVec 7) (off : BitVec 8) (r : BitVec 1) (size : Nat) :
    ∃ body, opStore i g d a off r size =
      issue i { guard := g, g := [d.toNat, a.toNat], reads := [d.toNat, a.toNat] } body := ⟨_, rfl⟩

/-- Settles O21: every form issues (`skippedWhenOff_of_issue`); a load names besides the entry that it would ask for
(`SkippedWhenOff.of_alloc`). -/
theorem guardedOffInstructionsOnlyAdvance : Obligations.GuardedOffInstructionsOnlyAdvance := by
  unfold Obligations.GuardedOffInstructionsOnlyAdvance
  refine ⟨fun i d body => skippedWhenOff_of_issue, ?binary, ?load, ?store, ?brk, ?quit⟩
  case binary =>
    intro g d a b
    obtain ⟨_, hadd⟩ := opRRR_issues (.add g d a b) g d a b (fun x y => x + y)
    obtain ⟨_, hfadd⟩ := opF2_issues (.faddD g d a b) g d a b fp64 (fadd fp64)
    exact ⟨skippedWhenOff_of_issue (exec_add.trans hadd), skippedWhenOff_of_issue (exec_faddD.trans hfadd)⟩
  case load =>
    intro g d a o r
    obtain ⟨_, hload⟩ := opLoad_issues (.ldd g d a o r) g d a o r 8 false
    exact (skippedWhenOff_of_issue (exec_ldd.trans hload)).of_alloc
  case store =>
    intro g d a o r
    obtain ⟨_, hstore⟩ := opStore_issues (.std g d a o r) g d a o r 8
    exact skippedWhenOff_of_issue (exec_std.trans hstore)
  case brk => exact fun g i => skippedWhenOff_of_issue exec_brk
  case quit => exact fun g => skippedWhenOff_of_issue exec_quit

end Sys2Proof
end

section
/-!
O56: words written out bit by bit from the encoding tables (R64, R65, R67).
-/
namespace Sys2Proof.Laws.Encoding
open Sys2Proof

/-- Settles O56: the decoder is run on each word. -/
theorem decodesTheWordsOfTheEncodingTables : Obligations.DecodesTheWordsOfTheEncodingTables := by
  unfold Obligations.DecodesTheWordsOfTheEncodingTables
  refine ⟨?_, ?_, ?_, ?_, ?_, ?_, ?_, ?_, ?_, ?_, ?_, ?_, ?_, ?_, ?_, ?_, ?_, ?command⟩
  case command => rfl
  all_goals decide

end Sys2Proof.Laws.Encoding
end

section
/-!
What the scalar integer operations compute, word by word (R83 to R92): each function of the model in the words of the
rules.
-/
namespace Sys2Proof.Machine

/-! ## Shifts, rotates and counts of bits (R83) -/

theorem shAmt_lt (y : Word) : shAmt y < 64 := Nat.mod_lt _ (by decide)

/-- R83: what a rotation moves out at the top comes in at the bottom. -/
theorem rotateLeft_eq_shifts {x : Word} {r : Nat} (hr : r < 64) : x.rotateLeft r = (x <<< r) ||| (x >>> (64 - r)) :=
  BitVec.rotateLeft_eq_rotateLeftAux_of_lt hr

/-- The first index that fails a test ends the run of those that pass it. -/
theorem length_takeWhile_range {p : Nat → Bool} {n k : Nat} (hk : k ≤ n) (hpass : ∀ i, i < k → p i = true)
    (hstop : k < n → p k = false) : ((List.range n).takeWhile p).length = k := by
  obtain ⟨m, rfl⟩ := Nat.exists_eq_add_of_le hk
  have hrest : ((List.range m).map (k + ·)).takeWhile p = [] := by
    cases m with
    | zero => rfl
    | succ m => simp [List.range_succ_eq_map, hstop (by omega)]
  rw [List.range_add, List.takeWhile_append_of_pos (fun i hi => hpass i (List.mem_range.1 hi)), hrest, List.append_nil,
    List.length_range]

/-- A number has one binary digit more than its highest one bit has places below it. -/
theorem digits_eq_log2 (n : Nat) : ∀ x, x ≠ 0 → x < 2 ^ n → digits n x = x.log2 + 1 := by
  induction n with
  | zero => intro x h0 hx; omega
  | succ n ih =>
    intro x h0 hx
    rw [digits, if_neg h0, Nat.log2_def]
    by_cases h1 : 2 ≤ x
    · rw [if_pos h1, ih (x / 2) (by omega) (by omega)]
    · have hone : x / 2 = 0 := by omega
      rw [if_neg h1, hone]
      cases n <;> rfl

/-- R83: CLZ counts the zero bits from bit n − 1 down. -/
theorem clzN_eq_takeWhile {n x : Nat} (hx : x < 2 ^ n) :
    clzN n x = ((List.range n).takeWhile (fun i => !x.testBit (n - 1 - i))).length := by
  by_cases h0 : x = 0
  · have hz : clzN n 0 = n := by cases n <;> rfl
    rw [h0, hz, length_takeWhile_range (Nat.le_refl n) (fun i _ => by simp) (fun h => by omega)]
  · have hlog : x.log2 < n := (Nat.log2_lt h0).2 hx
    rw [clzN, digits_eq_log2 n x h0 hx, length_takeWhile_range (k := n - (x.log2 + 1)) (by omega)]
    · intro i hi
      have habove : x < 2 ^ (n - 1 - i) :=
        Nat.lt_of_lt_of_le Nat.lt_log2_self (Nat.pow_le_pow_right (by decide) (by omega))
      rw [Nat.testBit_lt_two_pow habove]
      rfl
    · intro _
      rw [show n - 1 - (n - (x.log2 + 1)) = x.log2 by omega, Nat.testBit_log2 h0]
      rfl

/-- R83: CTZ counts the zero bits from bit 0 up. -/
theorem ctzN_eq_takeWhile (n : Nat) : ∀ x, ctzN n x = ((List.range n).takeWhile (fun i => !x.testBit i)).length := by
  induction n with
  | zero => intro x; rfl
  | succ n ih =>
    intro x
    rw [ctzN, ih, List.range_succ_eq_map, List.takeWhile_cons, List.takeWhile_map, Nat.testBit_zero]
    by_cases hbit : x % 2 = 1
    · simp [hbit]
    · simp [hbit, Function.comp_def, Nat.testBit_succ]

/-- R83: bit i of the reverse is bit n − 1 − i. -/
theorem testBit_brevN (n : Nat) : ∀ x i, (brevN n x).testBit i = (decide (i < n) && x.testBit (n - 1 - i)) := by
  induction n with
  | zero => intro x i; simp [brevN]
  | succ n ih =>
    intro x i
    have hbits : ∀ j, (x % 2).testBit j = (decide (j = 0) && x.testBit 0) := by
      intro j
      rw [Nat.testBit_zero, ← Nat.pow_one 2, Nat.testBit_mod_two_pow]
      cases j <;> simp [Nat.testBit_zero]
    rw [brevN, Nat.mul_comm, Nat.testBit_two_pow_mul_add _ (brevN_lt n _), ih, hbits]
    rcases Nat.lt_trichotomy i n with h | rfl | h
    · rw [if_pos h, ← Nat.testBit_succ, show (n - 1 - i).succ = n + 1 - 1 - i by omega]
      simp [h, Nat.lt_succ_of_lt h]
    · simp
    · have hpast : ¬ i < n + 1 := by omega
      simp [hpast, Nat.lt_asymm h, Nat.sub_ne_zero_of_lt h]

theorem brevN_eq_reverse (x : Word) : BitVec.ofNat 64 (brevN 64 x.toNat) = x.reverse := by
  refine BitVec.eq_of_getLsbD_eq (fun i hi => ?_)
  rw [BitVec.getLsbD_reverse, BitVec.getMsbD_eq_getLsbD, BitVec.getLsbD_ofNat, testBit_brevN]
  simp [hi, BitVec.getLsbD]

theorem toNat_append_eq_add {m n : Nat} (a : BitVec m) (b : BitVec n) :
    (a ++ b).toNat = a.toNat * 2 ^ n + b.toNat := by
  rw [BitVec.toNat_append, ← Nat.shiftLeft_add_eq_or_of_lt b.isLt, Nat.shiftLeft_eq]

/-- The first byte of a word is its low one. -/
theorem leNat_cons_eq_append {n : Nat} (b : Byte) {bs : List Byte} {v : BitVec n} (h : leNat bs = v.toNat) :
    leNat (b :: bs) = (v ++ b).toNat := by
  rw [toNat_append_eq_add, leNat, h]
  omega

theorem leBytes_succ (x : Word) (k n : Nat) :
    leBytes (x.toNat / 2 ^ k) (n + 1) = x.extractLsb' k 8 :: leBytes (x.toNat / 2 ^ (k + 8)) n := by
  have hbyte : BitVec.ofNat 8 (x.toNat / 2 ^ k) = x.extractLsb' k 8 :=
    BitVec.eq_of_toNat_eq (by rw [BitVec.toNat_ofNat, BitVec.extractLsb'_toNat, Nat.shiftRight_eq_div_pow])
  rw [leBytes, hbyte, Nat.div_div_eq_div_mul, Nat.pow_add]

theorem wordBytes_eq_extractLsb' (x : Word) : wordBytes x =
    [x.extractLsb' 0 8, x.extractLsb' 8 8, x.extractLsb' 16 8, x.extractLsb' 24 8, x.extractLsb' 32 8,
      x.extractLsb' 40 8, x.extractLsb' 48 8, x.extractLsb' 56 8] := by
  have hzero : leBytes x.toNat 8 = leBytes (x.toNat / 2 ^ 0) 8 := by rw [Nat.pow_zero, Nat.div_one]
  rw [wordBytes, hzero]
  iterate 8 rw [leBytes_succ]
  rfl

theorem leWord_of_leNat {bs : List Byte} {v : Word} (h : leNat bs = v.toNat) : leWord bs = v := by
  rw [leWord, h, BitVec.ofNat_toNat, BitVec.setWidth_eq]

/-- R83: BSWAP puts the bytes in the other order. -/
theorem opBswap_eq_append (x : Word) : opBswap x =
    x.extractLsb' 0 8 ++ x.extractLsb' 8 8 ++ x.extractLsb' 16 8 ++ x.extractLsb' 24 8 ++ x.extractLsb' 32 8 ++
      x.extractLsb' 40 8 ++ x.extractLsb' 48 8 ++ x.extractLsb' 56 8 := by
  rw [opBswap, wordBytes_eq_extractLsb']
  refine leWord_of_leNat ?_
  iterate 7 refine leNat_cons_eq_append _ ?_
  exact Nat.add_zero _

/-! ## Products and quotients (R84, R85) -/

/-- R84: the upper half of a 128-bit product that is exact. -/
theorem hiHalf_eq_extractLsb' (p : Int) : hiHalf p = (BitVec.ofInt 128 p).extractLsb' 64 64 := by
  refine BitVec.eq_of_toNat_eq ?_
  simp only [hiHalf, BitVec.extractLsb'_toNat, BitVec.toNat_ofInt, Nat.shiftRight_eq_div_pow]
  omega

/-- R84: the lower half of a product is the product of words. -/
theorem mul_eq_extractLsb' (x y : Word) : x * y = (x.setWidth 128 * y.setWidth 128).extractLsb' 0 64 := by
  rw [← BitVec.setWidth_eq_extractLsb' (by decide), BitVec.setWidth_mul _ _ (by decide)]
  simp

theorem ofInt_toInt_mul (x y : Word) :
    BitVec.ofInt 128 (x.toInt * y.toInt) = x.signExtend 128 * y.signExtend 128 := BitVec.ofInt_mul ..

theorem ofInt_toInt_mul_toNat (x y : Word) :
    BitVec.ofInt 128 (x.toInt * y.toNat) = x.signExtend 128 * y.setWidth 128 := by
  rw [BitVec.ofInt_mul, BitVec.ofInt_natCast, BitVec.ofNat_toNat]
  rfl

theorem ofInt_toNat_mul (x y : Word) :
    BitVec.ofInt 128 (x.toNat * y.toNat) = x.setWidth 128 * y.setWidth 128 := by
  rw [BitVec.ofInt_mul, BitVec.ofInt_natCast, BitVec.ofInt_natCast, BitVec.ofNat_toNat, BitVec.ofNat_toNat]

/-- R32, R85: the quotient rounded towards zero, and −2^63 by −1 to −2^63. -/
theorem opDivs_eq_sdiv (x y : Word) : opDivs x y = if y = 0#64 then BitVec.allOnes 64 else x.sdiv y := by
  have hquot : BitVec.ofInt 64 (x.toInt.tdiv y.toInt) = x.sdiv y :=
    BitVec.eq_of_toInt_eq (by rw [BitVec.toInt_ofInt, BitVec.toInt_sdiv])
  rw [opDivs, hquot]

theorem opRems_eq_srem (x y : Word) : opRems x y = if y = 0#64 then x else x.srem y := by
  rw [opRems, ← BitVec.toInt_srem, BitVec.ofInt_toInt]

theorem opDivu_eq_udiv (x y : Word) : opDivu x y = if y = 0#64 then BitVec.allOnes 64 else x / y := by
  rw [opDivu, ← BitVec.toNat_udiv, BitVec.ofNat_toNat, BitVec.setWidth_eq]

theorem opRemu_eq_umod (x y : Word) : opRemu x y = if y = 0#64 then x else x % y := by
  rw [opRemu, ← BitVec.toNat_umod, BitVec.ofNat_toNat, BitVec.setWidth_eq]

/-! ## Bit fields (R87) -/

theorem bitsOf_toNat {w : Nat} (x : BitVec w) (lo n : Nat) : bitsOf x.toNat lo n = (x.extractLsb' lo n).toNat := by
  rw [bitsOf, BitVec.extractLsb'_toNat, Nat.shiftRight_eq_div_pow]

theorem fieldWidth_eq (b : Word) : fieldWidth b = (b.extractLsb' 8 6).toNat + 1 := by
  rw [fieldWidth, bitsOf_toNat]

/-- R87: a field is the word moved down to its lowest bit, under a mask of its width. -/
theorem opBext_eq_mask (x b : Word) : opBext x b =
    (x >>> (b.toNat % 64)) &&& BitVec.ofNat 64 (2 ^ ((b.extractLsb' 8 6).toNat + 1) - 1) := by
  have hwidth : (b.extractLsb' 8 6).toNat + 1 ≤ 64 := (b.extractLsb' 8 6).isLt
  have hmask : 2 ^ ((b.extractLsb' 8 6).toNat + 1) - 1 < 2 ^ 64 :=
    Nat.lt_of_lt_of_le (Nat.sub_lt (Nat.two_pow_pos _) (by decide)) (Nat.pow_le_pow_right (by decide) hwidth)
  refine BitVec.eq_of_toNat_eq ?_
  rw [opBext, fieldLo, fieldWidth_eq, bitsOf, BitVec.toNat_and, BitVec.toNat_ofNat, BitVec.toNat_ofNat,
    Nat.mod_eq_of_lt hmask, Nat.and_two_pow_sub_one_eq_mod, BitVec.toNat_ushiftRight, Nat.shiftRight_eq_div_pow]
  exact Nat.mod_eq_of_lt (Nat.lt_of_le_of_lt (Nat.mod_le ..) (Nat.lt_of_le_of_lt (Nat.div_le_self ..) x.isLt))

/-- R87: the field replaced, the bits around it kept. -/
theorem opBins_eq_mask (old x b : Word) : opBins old x b =
    (old &&& ~~~(BitVec.ofNat 64 (2 ^ ((b.extractLsb' 8 6).toNat + 1) - 1) <<< (b.toNat % 64))) |||
      ((x &&& BitVec.ofNat 64 (2 ^ ((b.extractLsb' 8 6).toNat + 1) - 1)) <<< (b.toNat % 64)) := by
  rw [opBins, fieldWidth_eq, fieldLo]

end Sys2Proof.Machine
end

section
/-!
The scalar integer, predicate and control instructions (R83 to R96): each form issues and completes with its result.
-/
namespace Sys2Proof
open Machine

/-- A result may be stated in other words. -/
theorem Computes.of_eq {i : Instr} {d : Desc} {f f' : Thread → Thread} (h : Computes i d f) (e : ∀ t, f t = f' t) :
    Computes i d f' := funext e ▸ h

/-! ## Results in a register (R83 to R90) -/

theorem givesRRR_of {mk : BitVec 3 → BitVec 7 → BitVec 7 → BitVec 7 → Instr} {f v : Word → Word → Word}
    (he : ∀ g d a b, exec (mk g d a b) = opRRR (mk g d a b) g d a b f) (hv : ∀ x y, f x y = v x y) : GivesRRR mk v :=
  fun g d a b => (computes_rrr (he g d a b)).of_eq (fun t => by rw [hv])

theorem givesRR_of {mk : BitVec 3 → BitVec 7 → BitVec 7 → Instr} {f v : Word → Word}
    (he : ∀ g d a, exec (mk g d a) = opRR (mk g d a) g d a f) (hv : ∀ x, f x = v x) : GivesRR mk v :=
  fun g d a => (computes_rr (he g d a)).of_eq (fun t => by rw [hv])

theorem givesImm_of {n : Nat} {mk : BitVec 3 → BitVec 7 → BitVec 7 → BitVec n → Instr} {f v : Word → BitVec n → Word}
    (he : ∀ g d a i, exec (mk g d a i) = opRR (mk g d a i) g d a (fun x => f x i)) (hv : ∀ x i, f x i = v x i) :
    GivesImm mk v :=
  fun g d a i => (computes_rr (he g d a i)).of_eq (fun t => by rw [hv])

/-- Settles O1: the functions of the rules are those of the model, and the counts, the reverse and the bytes are read
bit by bit (`clzN_eq_takeWhile`, `ctzN_eq_takeWhile`, `popcN_eq_countP`, `brevN_eq_reverse`, `opBswap_eq_append`). -/
theorem integerInstructionsWriteTheirResult : Obligations.IntegerInstructionsWriteTheirResult := by
  unfold Obligations.IntegerInstructionsWriteTheirResult
  exact
    ⟨givesRRR_of (fun _ _ _ _ => exec_add) (fun _ _ => rfl),
     givesRRR_of (fun _ _ _ _ => exec_sub) (fun _ _ => rfl),
     givesRRR_of (fun _ _ _ _ => exec_and) (fun _ _ => rfl),
     givesRRR_of (fun _ _ _ _ => exec_or) (fun _ _ => rfl),
     givesRRR_of (fun _ _ _ _ => exec_xor) (fun _ _ => rfl),
     givesRRR_of (fun _ _ _ _ => exec_andn) (fun _ _ => rfl),
     givesRRR_of (fun _ _ _ _ => exec_shl) (fun _ _ => rfl),
     givesRRR_of (fun _ _ _ _ => exec_shr) (fun _ _ => rfl),
     givesRRR_of (fun _ _ _ _ => exec_sra) (fun _ _ => rfl),
     givesRRR_of (fun _ _ _ _ => exec_rotl) (fun _ y => rotateLeft_eq_shifts (shAmt_lt y)),
     givesRRR_of (fun _ _ _ _ => exec_mins) (fun _ _ => rfl),
     givesRRR_of (fun _ _ _ _ => exec_maxs) (fun _ _ => rfl),
     givesRRR_of (fun _ _ _ _ => exec_minu) (fun _ _ => rfl),
     givesRRR_of (fun _ _ _ _ => exec_maxu) (fun _ _ => rfl),
     givesRR_of (fun _ _ _ => exec_clz) (fun x => congrArg (BitVec.ofNat 64) (clzN_eq_takeWhile x.isLt)),
     givesRR_of (fun _ _ _ => exec_ctz) (fun x => congrArg (BitVec.ofNat 64) (ctzN_eq_takeWhile 64 x.toNat)),
     givesRR_of (fun _ _ _ => exec_popc) (fun x => congrArg (BitVec.ofNat 64) (popcN_eq_countP 64 x.toNat)),
     givesRR_of (fun _ _ _ => exec_brev) brevN_eq_reverse,
     givesRR_of (fun _ _ _ => exec_bswap) opBswap_eq_append⟩

/-- Settles O2: the products are exact in 128 bits (`hiHalf_eq_extractLsb'`), and the quotients are those of words
(`opDivs_eq_sdiv` and its kin). -/
theorem multipliesAndDividesWriteTheirResult : Obligations.MultipliesAndDividesWriteTheirResult := by
  unfold Obligations.MultipliesAndDividesWriteTheirResult
  exact
    ⟨givesRRR_of (fun _ _ _ _ => exec_mul) mul_eq_extractLsb',
     givesRRR_of (fun _ _ _ _ => exec_mulhs) (fun _ _ => by rw [hiHalf_eq_extractLsb', ofInt_toInt_mul]),
     givesRRR_of (fun _ _ _ _ => exec_mulhu) (fun _ _ => by rw [hiHalf_eq_extractLsb', ofInt_toNat_mul]),
     givesRRR_of (fun _ _ _ _ => exec_mulhsu) (fun _ _ => by rw [hiHalf_eq_extractLsb', ofInt_toInt_mul_toNat]),
     givesRRR_of (fun _ _ _ _ => exec_divs) opDivs_eq_sdiv,
     givesRRR_of (fun _ _ _ _ => exec_divu) opDivu_eq_udiv,
     givesRRR_of (fun _ _ _ _ => exec_rems) opRems_eq_srem,
     givesRRR_of (fun _ _ _ _ => exec_remu) opRemu_eq_umod⟩

/-- R86: a scaled add shifts where the rule multiplies. -/
theorem givesRRR_scaledAdd {mk : BitVec 3 → BitVec 7 → BitVec 7 → BitVec 7 → Instr} {n : Nat} {m : Word}
    (he : ∀ g d a b, exec (mk g d a b) = opRRR (mk g d a b) g d a b (fun x y => (x <<< n) + y))
    (hm : BitVec.twoPow 64 n = m) : GivesRRR mk (fun x y => x * m + y) :=
  givesRRR_of he (fun x y => by rw [BitVec.shiftLeft_eq_mul_twoPow, hm])

/-- Settles O3: the scaled adds (`givesRRR_scaledAdd`), and the fields as masks (`opBext_eq_mask`, `opBins_eq_mask`). -/
theorem scaledAddsAndFieldsWriteTheirResult : Obligations.ScaledAddsAndFieldsWriteTheirResult := by
  unfold Obligations.ScaledAddsAndFieldsWriteTheirResult
  exact
    ⟨givesRRR_scaledAdd (fun _ _ _ _ => exec_shadd1) rfl,
     givesRRR_scaledAdd (fun _ _ _ _ => exec_shadd2) rfl,
     givesRRR_scaledAdd (fun _ _ _ _ => exec_shadd3) rfl,
     givesRRR_scaledAdd (fun _ _ _ _ => exec_shadd4) rfl,
     givesRRR_of (fun _ _ _ _ => exec_bext) opBext_eq_mask,
     fun _ _ _ _ => (computes_drr exec_bins).of_eq (fun _ => by rw [opBins_eq_mask])⟩

/-- An instruction whose one effect is a write of a g register. -/
theorem computes_writeG {i : Instr} {dsc : Desc} {d : Nat} {v : Thread → Word}
    (he : exec i = issue i dsc (fun c slot t s => writeG s c slot d (v t))) (hc : ∀ t, dsc.commit t = false)
    (hv : ∀ t, v (reading i t) = v (past i dsc.len t)) : Computes i dsc (fun t => t.setG d (v t)) :=
  computes_of he hc (fun t h => by simp [h]) (fun _ _ _ _ t B => by rw [hv t]; exact B.writeG d _)

/-- Settles O4: the immediate forms (`givesImm_of`), and LI and LIS as writes of a register (`computes_writeG`). -/
theorem immediateInstructionsWriteTheirResult : Obligations.ImmediateInstructionsWriteTheirResult := by
  unfold Obligations.ImmediateInstructionsWriteTheirResult
  exact
    ⟨givesImm_of (fun _ _ _ _ => exec_addi) (fun _ _ => rfl),
     givesImm_of (fun _ _ _ _ => exec_andi) (fun _ _ => rfl),
     givesImm_of (fun _ _ _ _ => exec_ori) (fun _ _ => rfl),
     givesImm_of (fun _ _ _ _ => exec_xori) (fun _ _ => rfl),
     givesImm_of (fun _ _ _ _ => exec_shli) (fun _ _ => rfl),
     givesImm_of (fun _ _ _ _ => exec_shri) (fun _ _ => rfl),
     givesImm_of (fun _ _ _ _ => exec_srai) (fun _ _ => rfl),
     givesImm_of (fun _ _ _ _ => exec_rotli) (fun _ n => rotateLeft_eq_shifts n.isLt),
     fun _ _ _ => computes_writeG exec_li (fun _ => rfl) (fun _ => rfl),
     fun _ _ _ => computes_writeG exec_lis (fun _ => rfl) (fun _ => rfl)⟩

/-! ## Results in a predicate (R91 to R93) -/

/-- An instruction whose one effect is a write of a predicate. -/
theorem computes_writeP {i : Instr} {dsc : Desc} {p : Nat} {v : Thread → Bool}
    (he : exec i = issue i dsc (fun c slot t s => writeP s c slot p (v t))) (hc : ∀ t, dsc.commit t = false)
    (hv : ∀ t, v (reading i t) = v (past i dsc.len t)) : Computes i dsc (fun t => withP t p (v t)) :=
  computes_of he hc (fun t h => by simp [h]) (fun _ _ _ _ t B => by rw [hv t]; exact B.writeP p _)

theorem computes_cmpReg (g p c : BitVec 3) (a b : BitVec 7) : Computes (.cmpReg g p c a b) (dSrc2 g a b)
    (fun t => withP t p.toNat (cmpCond c (t.gv a.toNat) (t.gv b.toNat))) :=
  computes_writeP exec_cmpReg (fun _ => rfl) (fun _ => rfl)

theorem computes_cmpImm (g p c : BitVec 3) (a : BitVec 7) (i : BitVec 9) : Computes (.cmpImm g p c a i) (dSrc g a)
    (fun t => withP t p.toNat (cmpCond c (t.gv a.toNat) (i.signExtend 64))) :=
  computes_writeP exec_cmpImm (fun _ => rfl) (fun _ => rfl)

theorem computes_plog (g p x y : BitVec 3) (o : BitVec 2) : Computes (.plog g p x y o) { guard := g, pw := true }
    (fun t => withP t p.toNat (plogOp o (t.p x.toNat) (t.p y.toNat))) :=
  computes_writeP exec_plog (fun _ => rfl) (fun _ => rfl)

/-- R91: the condition NE. -/
theorem cmpCond_ne (x y : Word) : cmpCond 1#3 x y = decide (x ≠ y) :=
  Bool.eq_iff_iff.2 (bne_iff_ne.trans (decide_eq_true_iff).symm)

/-- Settles O5: each condition of CMP and each operation of PLOG is an arm of `cmpCond` or of `plogOp`. -/
theorem predicateInstructionsWriteTheirResult : Obligations.PredicateInstructionsWriteTheirResult := by
  unfold Obligations.PredicateInstructionsWriteTheirResult
  refine ⟨?cmpReg, ?cmpImm, ?plog, ?pget, ?pset⟩
  case cmpReg =>
    rintro g p a b _ _ rfl rfl
    exact ⟨computes_cmpReg g p _ a b, (computes_cmpReg g p _ a b).of_eq (fun _ => by rw [cmpCond_ne]),
      computes_cmpReg g p _ a b, computes_cmpReg g p _ a b, computes_cmpReg g p _ a b, computes_cmpReg g p _ a b,
      computes_cmpReg g p _ a b, computes_cmpReg g p _ a b⟩
  case cmpImm =>
    rintro g p a i _ _ rfl rfl
    exact ⟨computes_cmpImm g p _ a i, (computes_cmpImm g p _ a i).of_eq (fun _ => by rw [cmpCond_ne]),
      computes_cmpImm g p _ a i, computes_cmpImm g p _ a i, computes_cmpImm g p _ a i, computes_cmpImm g p _ a i,
      computes_cmpImm g p _ a i, computes_cmpImm g p _ a i⟩
  case plog =>
    intro g p x y
    exact ⟨computes_plog g p x y _, computes_plog g p x y _, computes_plog g p x y _, computes_plog g p x y _⟩
  case pget => exact fun g d => computes_writeG exec_pget (fun _ => rfl) (fun _ => rfl)
  case pset =>
    intro g a
    exact computes_of exec_pset (fun _ => rfl) (fun _ h => h) (fun _ _ _ _ _ B => B.writePw _)

/-! ## Control transfer (R94 to R96) -/

/-- R96: the two low bits decide whether a target is aligned. -/
theorem aligned_iff (x : Word) : x.extractLsb' 0 2 = 0#2 ↔ x.toNat % 4 = 0 := by
  rw [← BitVec.toNat_inj, BitVec.extractLsb'_toNat, Nat.shiftRight_zero]
  rfl

theorem computes_br (g : BitVec 3) (o : BitVec 23) :
    Computes (.br g o) { guard := g } (fun t => { t with pc := t.ipc + o.signExtend 64 * 4#64 }) :=
  computes_of exec_br (fun _ => rfl) (fun _ h => h) (fun _ _ _ _ _ B => B.setPc _)

theorem computes_jal (g : BitVec 3) (d : BitVec 7) (i : BitVec 16) :
    Computes (.jal g d i) { guard := g, g := [d.toNat], writes := [d.toNat] }
      (fun t => { t.setG d.toNat (t.ipc + 4#64) with pc := t.ipc + i.signExtend 64 * 4#64 }) :=
  computes_of exec_jal (fun _ => rfl) (fun t h => (Thread.setG_stepping t ..).trans h)
    (fun _ _ _ _ _ B => (B.writeG _ _).setPc _)

theorem computes_jr (g : BitVec 3) (d a : BitVec 7) (i : BitVec 9) : ComputesIf (.jr g d a i) (dRR g d a)
    (fun t => (t.gv a.toNat + i.signExtend 64 * 4#64).extractLsb' 0 2 = 0#2)
    (fun t => { t.setG d.toNat (t.ipc + 4#64) with pc := t.gv a.toNat + i.signExtend 64 * 4#64 }) := by
  refine computesIf_of exec_jr (fun _ => rfl) (fun t h => (Thread.setG_stepping t ..).trans h) ?_
  intro s s1 c slot t haligned B
  have hmod : (t.gv a.toNat + offW i).toNat % 4 = 0 := (aligned_iff _).1 haligned
  simp only [reading_gv, hmod, bne_self_eq_false, Bool.false_eq_true, if_false]
  exact (B.writeG _ _).setPc _

/-- R96: a JR whose target is no multiple of 4 faults. -/
theorem jr_misaligned {g : BitVec 3} {d a : BitVec 7} {i : BitVec 9} {s : State} {c slot : Nat} {t : Thread}
    (h : Issues (dRR g d a) s c slot t) (hmis : (t.gv a.toNat + i.signExtend 64 * 4#64).extractLsb' 0 2 ≠ 0#2) :
    FaultsWith (.jr g d a i) (dRR g d a) s c slot t
      (mkFault fcMisalign (t.gv a.toNat + i.signExtend 64 * 4#64) 4#64) := by
  have hmod : ((t.gv a.toNat + offW i).toNat % 4 != 0) = true := bne_iff_ne.2 (fun h0 => hmis ((aligned_iff _).2 h0))
  exact faults_of exec_jr h (by simp only [reading_gv, hmod, if_true]; rfl)

/-- Settles O6: BR, JAL and JR set the pc once the link is written; a misaligned JR faults (`jr_misaligned`). -/
theorem controlTransfersSetThePc : Obligations.ControlTransfersSetThePc := by
  unfold Obligations.ControlTransfersSetThePc
  refine ⟨⟨computes_br, computes_jal, computes_jr⟩, ?misaligned⟩
  case misaligned =>
    rintro g d a i s c slot t _ h rfl hmis
    exact jr_misaligned h hmis

end Sys2Proof
end

section
/-!
The scalar floating-point instructions (R98 to R104).
-/
namespace Sys2Proof
open Machine

/-- R98: a .D operand is the whole register. -/
theorem mod_width_fp64 (x : Word) : x.toNat % 2 ^ fp64.width = x.toNat := Nat.mod_eq_of_lt x.isLt

theorem givesF2_of {mk : BitVec 3 → BitVec 7 → BitVec 7 → BitVec 7 → Instr} {f : FFmt}
    {op : Word → Nat → Nat → Nat × BitVec 5} (he : ∀ g d a b, exec (mk g d a b) = opF2 (mk g d a b) g d a b f op) :
    GivesF2 mk f op := fun g d a b => computes_f2 (he g d a b)

/-- Settles O7: each operation has the form that `exec` gives it (`givesF2_of`, `computes_f1`, `computes_fma`), and a
.D operand is the whole register (`mod_width_fp64`). -/
theorem scalarFloatingPointWritesResultAndFlags : Obligations.ScalarFloatingPointWritesResultAndFlags := by
  unfold Obligations.ScalarFloatingPointWritesResultAndFlags
  refine ⟨givesF2_of (fun _ _ _ _ => exec_faddD), givesF2_of (fun _ _ _ _ => exec_fsubD),
    givesF2_of (fun _ _ _ _ => exec_fmulD), givesF2_of (fun _ _ _ _ => exec_fdivD),
    givesF2_of (fun _ _ _ _ => exec_fminD), givesF2_of (fun _ _ _ _ => exec_fmaxD),
    givesF2_of (fun _ _ _ _ => exec_faddS), givesF2_of (fun _ _ _ _ => exec_fsubS),
    givesF2_of (fun _ _ _ _ => exec_fmulS), givesF2_of (fun _ _ _ _ => exec_fdivS),
    givesF2_of (fun _ _ _ _ => exec_fminS), givesF2_of (fun _ _ _ _ => exec_fmaxS),
    ?sqrtD, ?sqrtS, ?fmaD, ?fmsD, ?fmaS, ?fmsS⟩
  case sqrtD => exact fun g d a => (computes_f1 exec_fsqrtD).of_eq (fun t => by rw [mod_width_fp64])
  case sqrtS => exact fun g d a => computes_f1 (f := fp32) exec_fsqrtS
  case fmaD => exact fun g d a b => (computes_fma exec_fmaD).of_eq (fun t => by simp only [mod_width_fp64])
  case fmsD => exact fun g d a b => (computes_fma exec_fmsD).of_eq (fun t => by simp only [mod_width_fp64])
  case fmaS => exact fun g d a b => computes_fma exec_fmaS
  case fmsS => exact fun g d a b => computes_fma exec_fmsS

/-- Settles O8: FCMP raises its flags and then writes its predicate; FCLASS is a function of a register, and FCVT a
result with flags. -/
theorem floatCompareClassifyConvertWriteTheirResult : Obligations.FloatCompareClassifyConvertWriteTheirResult := by
  unfold Obligations.FloatCompareClassifyConvertWriteTheirResult
  refine ⟨?fcmp, ?fclass, ?fcvt⟩
  case fcmp =>
    intro g p c a b
    exact computes_of exec_fcmp (fun _ => rfl) (fun _ h => h) (fun _ _ _ _ _ B => (B.raise _).writeP _ _)
  case fclass => exact fun g d a => computes_rr exec_fclass
  case fcvt =>
    intro g d a c
    simp only [← bitsOf_toNat]
    exact computes_of exec_fcvt (fun _ => rfl) (fun t h => (Thread.setG_stepping ..).trans h)
      (fun _ _ _ _ _ B => B.fresult _ _)

end Sys2Proof
end

section
/-!
Loads, stores and atomics of the own scratchpad (R109, R110, R118 to R120).
-/
namespace Sys2Proof
open Machine

/-! ## M-format loads and stores (R109) -/

/-- R111: the relaxed bit has no effect on an address that is not relaxable. -/
theorem not_relaxed {r : BitVec 1} {va : Word} (h : relaxable va = false) : ¬((r = 1#1 && relaxable va) = true) := by
  simp [h]

/-- R109: a value of `w` bits read as a signed number. -/
theorem bitsInt_signed {w : Nat} (hw : 0 < w) (x : Nat) : bitsInt true w x = (BitVec.ofNat w x).toInt := by
  have hsplit : 2 ^ w = 2 * 2 ^ (w - 1) := by rw [← Nat.pow_succ', Nat.succ_eq_add_one, Nat.sub_add_cancel hw]
  rw [bitsInt, BitVec.toInt_eq_toNat_cond, BitVec.toNat_ofNat]
  by_cases h : 2 ^ (w - 1) ≤ x % 2 ^ w
  · rw [if_pos (by simpa using h), if_neg (by omega)]
  · rw [if_neg (by simpa using h), if_pos (by omega)]

/-- R109: a signed load extends the sign of its bytes. -/
theorem ofInt_bitsInt_leWord {n : Nat} (hn : 0 < n) (h8 : n ≤ 8) (bs : List Byte) :
    BitVec.ofInt 64 (bitsInt true (8 * n) (leWord bs).toNat) = (BitVec.ofNat (8 * n) (leNat bs)).signExtend 64 := by
  have hlow : BitVec.ofNat (8 * n) (leNat bs % 2 ^ 64) = BitVec.ofNat (8 * n) (leNat bs) := by
    refine BitVec.eq_of_toNat_eq ?_
    rw [BitVec.toNat_ofNat, BitVec.toNat_ofNat, Nat.mod_mod_of_dvd _ (Nat.pow_dvd_pow 2 (by omega))]
  rw [bitsInt_signed (by omega), leWord, BitVec.toNat_ofNat, hlow]
  rfl

section
variable {g : BitVec 3} {d a : BitVec 7} {o : BitVec 8} {r : BitVec 1} {n : Nat} {i : Instr} {s : State} {c slot : Nat}
  {t : Thread} {ea : Word}

/-- R109: an M-format load of the own scratchpad. -/
theorem load_own {signed : Bool} (he : exec i = opLoad i g d a o r n signed)
    (hea : ea = eaM t a o n)
    (h : Issues { guard := g, g := [d.toNat, a.toNat], reads := [a.toNat], writes := [d.toNat] } s c slot t)
    (hp : Plain s c slot t) (hc : Calm s c t) (ho : Own s c ea n) (hu : Unpoisoned (s.core c) ea.toNat n) :
    ∃ s', exec i s = .next s' ∧ Becomes s s' c slot ((past i 4 t).setG d.toNat
      (let w := leWord (Mem.readN (s.core c).spad ea.toNat n)
       if signed then BitVec.ofInt 64 (bitsInt true (8 * n) w.toNat) else w)) := by
  subst hea
  refine ownReads_of (us := [piece (eaM t a o n) n .load]) he (h.withAlloc (fun _ => loadEntry_own ho.own)) hp
    hc.unpaired (.inl hc.relaxed) (if_neg (not_relaxed (relaxable_own ho.own))) (by unfold loadKind; split <;> simp)
    (by simpa [piece] using ho) (by simpa using past_stepping hp.notStepped) ?_
  · intro s1 B
    refine ⟨s1, _, own_loads B hc n [eaM t a o n] (by simpa using hu), ?_⟩
    have W := B.writeG d.toNat (let w := leWord (Mem.readN (s.core c).spad (eaM t a o n).toNat n)
       if signed then BitVec.ofInt 64 (bitsInt true (8 * n) w.toNat) else w)
    simpa only [finishAccess, List.map_cons, List.headD_cons, Mem.length_readN] using W

/-- R109: an M-format store to the own scratchpad. -/
theorem store_own (he : exec i = opStore i g d a o r n)
    (hea : ea = eaM t a o n)
    (h : Issues { guard := g, g := [d.toNat, a.toNat], reads := [d.toNat, a.toNat] } s c slot t)
    (hp : Plain s c slot t) (hc : Calm s c t) (ho : Own s c ea n) (hm : (s.core c).spad.wf = true) :
    ∃ s', exec i s = .next s' ∧
      Stores s s' c slot (past i 4 t) [(ea.toNat, leBytes (t.gv d.toNat).toNat n)] := by
  subst hea
  refine own_of (us := [piece (eaM t a o n) n (.store (leBytes (t.gv d.toNat).toNat n))]) he h hp hc.unpaired
    (.inl hc.relaxed) (if_neg (not_relaxed (relaxable_own ho.own))) (by unfold storeKind; split <;> simp)
    (by simpa [piece] using ho) (past_stepping hp.notStepped) ?_
  · intro s1 B
    exact own_stores n [(eaM t a o n, leBytes (t.gv d.toNat).toNat n)] (Alters.of_becomes B) hc
      (by rw [B.same.spad]; exact hm)

end

theorem loadsOwn_of {mk : BitVec 3 → BitVec 7 → BitVec 7 → BitVec 8 → BitVec 1 → Instr} {n : Nat} {signed : Bool}
    {v : List Byte → Word} (he : ∀ g d a o r, exec (mk g d a o r) = opLoad (mk g d a o r) g d a o r n signed)
    (hv : ∀ bs, (if signed then BitVec.ofInt 64 (bitsInt true (8 * n) (leWord bs).toNat) else leWord bs) = v bs) :
    LoadsOwn mk n v := by
  intro g d a o r s c slot t ea hea h hp hc ho hu
  rw [← hv]
  exact load_own (he g d a o r) hea h hp hc ho hu

theorem storesOwn_of {mk : BitVec 3 → BitVec 7 → BitVec 7 → BitVec 8 → BitVec 1 → Instr} {n : Nat}
    (he : ∀ g d a o r, exec (mk g d a o r) = opStore (mk g d a o r) g d a o r n) : StoresOwn mk n :=
  fun g d a o r _ _ _ _ _ hea h hp hc ho hm => store_own (he g d a o r) hea h hp hc ho hm

/-! ## LDQ and STQ (R110) -/

section
variable {g : BitVec 3} {d a : BitVec 7} {s : State} {c slot : Nat} {t : Thread}

/-- What LDQ and STQ name. -/
def dLdq (g : BitVec 3) (d a : BitVec 7) : Desc :=
  { guard := g, g := [d.toNat, a.toNat], reads := [a.toNat], writes := [lowOf d, highOf d], drain := true }
def dStq (g : BitVec 3) (d a : BitVec 7) : Desc :=
  { guard := g, g := [d.toNat, a.toNat], reads := [lowOf d, highOf d, a.toNat], drain := true }

/-- A pair of registers takes 16 bytes, the low register the first eight. -/
theorem finishAccess_pair (s : State) (c slot : Nat) (d : BitVec 7) (m : Mem) (off : Nat) :
    finishAccess s c slot (.pair d.toNat) [Mem.readN m off 16] =
      writeG (writeG s c slot (lowOf d) (leWord (Mem.readN m off 8))) c slot (highOf d)
        (leWord (Mem.readN m (off + 8) 8)) := by
  simp only [finishAccess, List.flatten_cons, List.flatten_nil, List.append_nil, readN_take, readN_drop, lowOf, highOf]

theorem Becomes.finishPair {s1 : State} {u : Thread} (B : Becomes s s1 c slot u) (d : BitVec 7) (m : Mem) (off : Nat) :
    Becomes s (finishAccess s1 c slot (.pair d.toNat) [Mem.readN m off 16]) c slot
      ((u.setG (lowOf d) (leWord (Mem.readN m off 8))).setG (highOf d) (leWord (Mem.readN m (off + 8) 8))) := by
  rw [finishAccess_pair]
  exact (B.writeG ..).writeG ..

theorem Alters.finishPair {s1 : State} {u : Thread} {ws : List (Nat × List Byte)} {fl : List Nat}
    (A : Alters s s1 c slot u ws fl) (d : BitVec 7) (m : Mem) (off : Nat) :
    Alters s (finishAccess s1 c slot (.pair d.toNat) [Mem.readN m off 16]) c slot
      ((u.setG (lowOf d) (leWord (Mem.readN m off 8))).setG (highOf d) (leWord (Mem.readN m (off + 8) 8))) ws fl := by
  rw [finishAccess_pair]
  exact (A.writeG ..).writeG ..

theorem ldq_own (h : Issues (dLdq g d a) s c slot t) (hp : Plain s c slot t) (hc : Calm s c t)
    (ho : Own s c (t.gv a.toNat) 16) (hu : Unpoisoned (s.core c) (t.gv a.toNat).toNat 16) :
    ∃ s', exec (.ldq g d a) s = .next s' ∧ Becomes s s' c slot (((past (.ldq g d a) 4 t).setG (lowOf d)
      (leWord (Mem.readN (s.core c).spad (t.gv a.toNat).toNat 8))).setG (highOf d)
      (leWord (Mem.readN (s.core c).spad ((t.gv a.toNat).toNat + 8) 8))) := by
  refine ownReads_of (us := [piece (t.gv a.toNat) 16 .load]) exec_ldq (h.commit _) hp hc.unpaired (.inl hc.relaxed) rfl
    (by simp) (by simpa [piece] using ho) (by simpa using past_stepping hp.notStepped) ?_
  intro s1 B
  exact ⟨s1, _, own_loads B hc 16 [t.gv a.toNat] (by simpa using hu), B.finishPair ..⟩

theorem stq_own (h : Issues (dStq g d a) s c slot t) (hp : Plain s c slot t) (hc : Calm s c t)
    (ho : Own s c (t.gv a.toNat) 16) (hm : (s.core c).spad.wf = true) :
    ∃ s', exec (.stq g d a) s = .next s' ∧ Stores s s' c slot (past (.stq g d a) 4 t)
      [((t.gv a.toNat).toNat, wordBytes (t.gv (lowOf d)) ++ wordBytes (t.gv (highOf d)))] := by
  refine own_of (us := [piece (t.gv a.toNat) 16 (.store (pairBytes t d))]) exec_stq h hp hc.unpaired (.inl hc.relaxed)
    rfl (by simp) (by simpa [piece] using ho) (past_stepping hp.notStepped) ?_
  intro s1 B
  exact own_stores 16 [(t.gv a.toNat, pairBytes t d)] (Alters.of_becomes B) hc (by rw [B.same.spad]; exact hm)

end

/-- Settles O25: the loads (`load_own`), a signed one extending its sign (`ofInt_bitsInt_leWord`), the stores
(`store_own`), and the pairs (`ldq_own`, `stq_own`). -/
theorem loadsAndStoresOfTheOwnScratchpad : Obligations.LoadsAndStoresOfTheOwnScratchpad := by
  unfold Obligations.LoadsAndStoresOfTheOwnScratchpad
  refine ⟨⟨?_, ?_, ?_, ?_, ?_, ?_, ?_⟩, ⟨?_, ?_, ?_, ?_⟩, ?ldq, ?stq⟩
  case ldq =>
    rintro g d a s c slot t _ rfl h hp hc ho hu
    exact ldq_own h hp hc ho hu
  case stq =>
    rintro g d a s c slot t _ rfl h hp hc ho hm
    exact stq_own h hp hc ho hm
  · exact loadsOwn_of (signed := false) (fun _ _ _ _ _ => exec_ldbn) (fun _ => rfl)
  · exact loadsOwn_of (signed := false) (fun _ _ _ _ _ => exec_ldhn) (fun _ => rfl)
  · exact loadsOwn_of (signed := false) (fun _ _ _ _ _ => exec_ldwn) (fun _ => rfl)
  · exact loadsOwn_of (signed := false) (fun _ _ _ _ _ => exec_ldd) (fun _ => rfl)
  · exact loadsOwn_of (fun _ _ _ _ _ => exec_ldbs) (ofInt_bitsInt_leWord (n := 1) (by decide) (by decide))
  · exact loadsOwn_of (fun _ _ _ _ _ => exec_ldhs) (ofInt_bitsInt_leWord (n := 2) (by decide) (by decide))
  · exact loadsOwn_of (fun _ _ _ _ _ => exec_ldws) (ofInt_bitsInt_leWord (n := 4) (by decide) (by decide))
  · exact storesOwn_of (fun _ _ _ _ _ => exec_stb)
  · exact storesOwn_of (fun _ _ _ _ _ => exec_sth)
  · exact storesOwn_of (fun _ _ _ _ _ => exec_stw)
  · exact storesOwn_of (fun _ _ _ _ _ => exec_std)

/-! ## Atomics (R118 to R120) -/

section
variable {g : BitVec 3} {d a b : BitVec 7} {s : State} {c slot : Nat} {t : Thread}

theorem amo_own {i : Instr} {op : AmoOp} {sup : Bool} (he : exec i = opAmo i g d a b op sup)
    (h : Issues { dRRR g d a b with drain := true } s c slot t)
    (hp : Plain s c slot t) (hc : Calm s c t) (ho : Own s c (t.gv a.toNat) 8)
    (hu : Unpoisoned (s.core c) (t.gv a.toNat).toNat 8) (hm : (s.core c).spad.wf = true) {old : Word}
    (hold : old = leWord (Mem.readN (s.core c).spad (t.gv a.toNat).toNat 8)) :
    ∃ s', exec i s = .next s' ∧ Stores s s' c slot ((past i 4 t).setG d.toNat old)
      [((t.gv a.toNat).toNat, wordBytes (amoNew op old (t.gv b.toNat)))] := by
  subst hold
  refine own_of (us := [piece (t.gv a.toNat) 8 (.amo op (t.gv b.toNat))]) he (h.commit _) hp hc.unpaired
    (.inl hc.relaxed) rfl (by simp) (by simpa [piece] using ho) (by simpa using past_stepping hp.notStepped) ?_
  intro s1 B
  obtain ⟨s2, h2, A⟩ := own_one B hc (t.gv a.toNat) 8 (.amo op (t.gv b.toNat)) hu hm rfl (by simp) (by simp)
  exact ⟨s2, _, h2, A.writeG d.toNat _⟩

theorem atomicOwn_of {mk : BitVec 3 → BitVec 7 → BitVec 7 → BitVec 7 → Instr} {op : AmoOp} {sup : Bool}
    (he : ∀ g d a b, exec (mk g d a b) = opAmo (mk g d a b) g d a b op sup) : AtomicOwn mk (amoNew op) := by
  rintro g d a b s c slot t _ old rfl hold h hp hc ho hu hm
  exact amo_own (he g d a b) h hp hc ho hu hm hold

/-- R119: a compare-and-swap writes the new bytes when the old ones are as expected. -/
theorem writes_cas (old e n : List Byte) : (UnitOp.cas e n).writes old = if old = e then some n else none := rfl

/-- Eight bytes are those of a word when that word is read from them. -/
theorem eq_wordBytes_iff {bs : List Byte} (h : bs.length = 8) (w : Word) : bs = wordBytes w ↔ leWord bs = w :=
  ⟨fun e => by rw [e, leWord_wordBytes], fun e => by rw [← e, wordBytes_leWord bs h]⟩

/-- Sixteen bytes are those of two words when those words are read from them. -/
theorem eq_pairBytes_iff (m : Mem) (off : Nat) (x y : Word) : Mem.readN m off 16 = wordBytes x ++ wordBytes y ↔
    leWord (Mem.readN m off 8) = x ∧ leWord (Mem.readN m (off + 8) 8) = y := by
  rw [readN_append m off 8 8, ← eq_wordBytes_iff (Mem.length_readN ..), ← eq_wordBytes_iff (Mem.length_readN ..)]
  exact ⟨fun e => List.append_inj e (by rw [Mem.length_readN, length_wordBytes]), fun e => by rw [e.1, e.2]⟩

/-- R119: a compare-and-swap in its turn. -/
theorem own_cas {s1 : State} {u : Thread} (B : Becomes s s1 c slot u) (hc : Calm s c t) (va : Word) (n : Nat)
    (e new : List Byte) (hu : Unpoisoned (s.core c) va.toNat n) (hm : (s.core c).spad.wf = true) {p : Prop}
    [Decidable p] (h : Mem.readN (s.core c).spad va.toNat n = e ↔ p) :
    ∃ s2, ownUnits s1 ⟨c, slot⟩ (placed c [piece va n (.cas e new)]) =
        (s2, .ok [Mem.readN (s.core c).spad va.toNat n]) ∧
      Alters s s2 c slot u (if p then [(va.toNat, new)] else []) (s.core c).full := by
  obtain ⟨s2, h2, A⟩ := own_one B hc va n (.cas e new) hu hm rfl (by simp) (by simp)
  refine ⟨s2, h2, ?_⟩
  rw [writes_cas] at A
  by_cases hp : p
  · rw [if_pos (h.2 hp)] at A
    rwa [if_pos hp]
  · rw [if_neg (fun e => hp (h.1 e))] at A
    rwa [if_neg hp]

theorem acas_own (h : Issues { dDRR g d a b with drain := true } s c slot t)
    (hp : Plain s c slot t) (hc : Calm s c t) (ho : Own s c (t.gv a.toNat) 8)
    (hu : Unpoisoned (s.core c) (t.gv a.toNat).toNat 8) (hm : (s.core c).spad.wf = true) {old : Word}
    (hold : old = leWord (Mem.readN (s.core c).spad (t.gv a.toNat).toNat 8)) :
    ∃ s', exec (.acas g d a b) s = .next s' ∧ Stores s s' c slot ((past (.acas g d a b) 4 t).setG d.toNat old)
      (if old = t.gv d.toNat then [((t.gv a.toNat).toNat, wordBytes (t.gv b.toNat))] else []) := by
  subst hold
  refine own_of (us := [piece (t.gv a.toNat) 8 (.cas (wordBytes (t.gv d.toNat)) (wordBytes (t.gv b.toNat)))]) exec_acas
    (h.commit _) hp hc.unpaired (.inl hc.relaxed) rfl (by simp) (by simpa [piece] using ho)
    (by simpa using past_stepping hp.notStepped) ?_
  intro s1 B
  obtain ⟨s2, h2, A⟩ := own_cas B hc (t.gv a.toNat) 8 _ (wordBytes (t.gv b.toNat)) hu hm
    (eq_wordBytes_iff (Mem.length_readN ..) (t.gv d.toNat))
  exact ⟨s2, _, h2, A.writeG d.toNat _⟩

/-- What ACASQ names. -/
def dAcasq (g : BitVec 3) (d a b : BitVec 7) : Desc :=
  { guard := g, g := [d.toNat, a.toNat, b.toNat], drain := true,
    reads := [lowOf d, highOf d, a.toNat, lowOf b, highOf b], writes := [lowOf d, highOf d] }

theorem acasq_own (h : Issues (dAcasq g d a b) s c slot t) (hp : Plain s c slot t) (hc : Calm s c t)
    (ho : Own s c (t.gv a.toNat) 16) (hu : Unpoisoned (s.core c) (t.gv a.toNat).toNat 16)
    (hm : (s.core c).spad.wf = true) {lo hi : Word}
    (hlo : lo = leWord (Mem.readN (s.core c).spad (t.gv a.toNat).toNat 8))
    (hhi : hi = leWord (Mem.readN (s.core c).spad ((t.gv a.toNat).toNat + 8) 8)) :
    ∃ s', exec (.acasq g d a b) s = .next s' ∧
      Stores s s' c slot (((past (.acasq g d a b) 4 t).setG (lowOf d) lo).setG (highOf d) hi)
        (if lo = t.gv (lowOf d) ∧ hi = t.gv (highOf d) then
          [((t.gv a.toNat).toNat, wordBytes (t.gv (lowOf b)) ++ wordBytes (t.gv (highOf b)))] else []) := by
  subst hlo hhi
  refine own_of (us := [piece (t.gv a.toNat) 16 (.cas (pairBytes t d) (pairBytes t b))]) exec_acasq
    (h.commit _) hp hc.unpaired (.inl hc.relaxed) rfl (by simp) (by simpa [piece] using ho)
    (by simpa using past_stepping hp.notStepped) ?_
  intro s1 B
  obtain ⟨s2, h2, A⟩ := own_cas B hc (t.gv a.toNat) 16 _ (pairBytes t b) hu hm
    (eq_pairBytes_iff _ _ (t.gv (lowOf d)) (t.gv (highOf d)))
  exact ⟨s2, _, h2, A.finishPair ..⟩

end

/-- Settles O26: the atomics (`amo_own`), and the compare-and-swaps, which write when they find what they expect
(`acas_own`, `acasq_own`). -/
theorem atomicsAndCompareAndSwaps : Obligations.AtomicsAndCompareAndSwaps := by
  unfold Obligations.AtomicsAndCompareAndSwaps
  refine ⟨⟨?_, ?_, ?_, ?_, ?_, ?_, ?_, ?_, ?_, ?_⟩, ?acas, ?acasq⟩
  case acas =>
    rintro g d a b s c slot t _ old rfl hold h hp hc ho hu hm
    exact acas_own h hp hc ho hu hm hold
  case acasq =>
    rintro g d a b s c slot t _ lo hi rfl hlo hhi h hp hc ho hu hm
    exact acasq_own h hp hc ho hu hm hlo hhi
  · exact atomicOwn_of (fun _ _ _ _ => exec_aadd)
  · exact atomicOwn_of (fun _ _ _ _ => exec_aand)
  · exact atomicOwn_of (fun _ _ _ _ => exec_aor)
  · exact atomicOwn_of (fun _ _ _ _ => exec_axor)
  · exact atomicOwn_of (fun _ _ _ _ => exec_amins)
  · exact atomicOwn_of (fun _ _ _ _ => exec_amaxs)
  · exact atomicOwn_of (fun _ _ _ _ => exec_aminu)
  · exact atomicOwn_of (fun _ _ _ _ => exec_amaxu)
  · exact atomicOwn_of (fun _ _ _ _ => exec_aswap)
  · exact atomicOwn_of (fun _ _ _ _ => exec_afadd)

end Sys2Proof
end

section
/-!
The checks of an access that are made in its turn (R105, R107).
-/
namespace Sys2Proof
open Machine

section
variable {s : State} {c slot part align : Nat} {t : Thread} {u : MUnit} {k : AKind} {fin : Finish} {auto sup : Bool}

/-- R107: the checks of a single piece: its alignment, and then its class. -/
def pieceFault (s : State) (c part align : Nat) (k : AKind) (va : Word) : Option FaultInfo :=
  if va.toNat % align ≠ 0 then some (mkFault fcMisalign va (BitVec.ofNat 64 align))
  else match checkClass s c part va k with
    | .error f => some f
    | .ok _ => none

theorem pieceFault_misaligned {va : Word} (h : va.toNat % align ≠ 0) :
    pieceFault s c part align k va = some (mkFault fcMisalign va (BitVec.ofNat 64 align)) := if_pos h

theorem pieceFault_class {va : Word} {f : FaultInfo} (ha : va.toNat % align = 0)
    (h : checkClass s c part va k = .error f) : pieceFault s c part align k va = some f := by
  rw [pieceFault, if_neg (fun hne => hne ha), h]

/-- R26, R107: an access whose piece does not pass its checks faults. -/
theorem startAccess_fault {f : FaultInfo} (h : pieceFault s c t.part align k u.va = some f) :
    startAccess s c slot t [u] align k fin auto sup = takeFault s c slot f := by
  have hc : classify s c t.part align k [u] = ([], some f) := by
    unfold pieceFault at h
    unfold classify
    by_cases ha : u.va.toNat % align = 0
    · rw [if_neg (fun hne => hne ha)] at h
      cases hk : checkClass s c t.part u.va k with
      | error e => simp_all
      | ok p => simp [hk] at h
    · simp_all
  unfold startAccess
  rw [hc]
  rfl

/-- R105, R107: an own-scratchpad address below XB. -/
theorem checkClass_belowXb {va : Word} (ho : va.toNat < 0x20000) (hx : va.toNat < (s.core c).xb)
    (hk : k ≠ .cell false) : checkClass s c part va k = .error (prot va 2) := by
  unfold checkClass
  rw [classOf_own ho]
  simp [hk, hx]

/-- R105: the addresses between the own scratchpad and the peer window are of no class. -/
theorem classOf_none {va : Word} (hlo : 0x20000 ≤ va.toNat) (hhi : va.toNat < 0x100000000) :
    classOf va = .none := by
  unfold classOf
  simp only
  iterate 5 rw [if_neg (by omega)]

theorem checkClass_none {va : Word} (hlo : 0x20000 ≤ va.toNat) (hhi : va.toNat < 0x100000000) :
    checkClass s c part va k = .error (prot va 1) := by
  unfold checkClass
  rw [classOf_none hlo hhi]

end

/-- R20: a load that is not relaxed asks for no entry of the register cache. -/
theorem loadEntry_waited (d : BitVec 7) (ea : Thread → Word) (t : Thread) : loadEntry d 0#1 ea t = none := by
  simp [loadEntry]

section
variable {g : BitVec 3} {d a : BitVec 7} {o : BitVec 8} {n : Nat} {i : Instr} {s : State} {c slot : Nat} {t : Thread}
  {f : FaultInfo}

theorem load_faults {signed : Bool} (he : exec i = opLoad i g d a o 0#1 n signed)
    (h : Issues { guard := g, g := [d.toNat, a.toNat], reads := [a.toNat], writes := [d.toNat] } s c slot t)
    (hf : ∀ s1, (s1.core c).xb = (s.core c).xb → pieceFault s1 c t.part n (loadKind n) (eaM t a o n) = some f) :
    FaultsWith i { guard := g, g := [d.toNat, a.toNat], reads := [a.toNat], writes := [d.toNat] } s c slot t f := by
  refine faults_of (d := { guard := g, g := [d.toNat, a.toNat], reads := [a.toNat], writes := [d.toNat],
                           alloc := loadEntry d 0#1 (fun t => eaM t a o n) }) he
    (h.withAlloc (fun _ => loadEntry_waited ..)) (startAccess_fault (hf _ ?_))
  rw [atIssue_core rfl]
  rfl

theorem store_faults (he : exec i = opStore i g d a o 0#1 n)
    (h : Issues { guard := g, g := [d.toNat, a.toNat], reads := [d.toNat, a.toNat] } s c slot t)
    (hf : ∀ s1, (s1.core c).xb = (s.core c).xb → pieceFault s1 c t.part n (storeKind n) (eaM t a o n) = some f) :
    FaultsWith i { guard := g, g := [d.toNat, a.toNat], reads := [d.toNat, a.toNat] } s c slot t f := by
  refine faults_of he h (startAccess_fault (hf _ ?_))
  rw [atIssue_core rfl]
  rfl

end

/-- Settles O31: the piece is checked for its alignment first (`pieceFault_misaligned`), and then for its class
(`checkClass_belowXb`, `checkClass_none`); what it finds faults (`load_faults`, `store_faults`). -/
theorem accessesAreChecked : Obligations.AccessesAreChecked := by
  unfold Obligations.AccessesAreChecked
  rintro g d a o s c slot t _ rfl
  refine ⟨fun h => ⟨fun ha => ?_, fun ha ho hx => ?_, fun ha hlo hhi => ?_⟩,
    fun h => ⟨fun ha => ?_, fun ha ho hx => ?_, fun ha hlo hhi => ?_⟩⟩
  · exact load_faults exec_ldd h (fun _ _ => pieceFault_misaligned ha)
  · exact load_faults exec_ldd h (fun _ e => pieceFault_class ha (checkClass_belowXb ho (e ▸ hx) (by decide)))
  · exact load_faults exec_ldd h (fun _ _ => pieceFault_class ha (checkClass_none hlo hhi))
  · exact store_faults exec_std h (fun _ _ => pieceFault_misaligned ha)
  · exact store_faults exec_std h (fun _ e => pieceFault_class ha (checkClass_belowXb ho (e ▸ hx) (by decide)))
  · exact store_faults exec_std h (fun _ _ => pieceFault_class ha (checkClass_none hlo hhi))

end Sys2Proof
end

section
/-!
WATCH and UNWATCH of a scratchpad line (R126, R127).
-/
namespace Sys2Proof
open Machine

/-! ## The watch store -/

/-- R126: the watch of a thread on the scratchpad line of a byte. -/
def spadWatch (r : TRef) (q off : Nat) : Watch := { place := .spad q (off / 64 * 64), thread := r, kind := .watch }

/-- The watches of a thread that WATCH has armed. -/
def ownWatches (s : State) (r : TRef) : List Watch := s.watches.filter (fun w => w.thread = r && w.kind = .watch)

/-- R126: the code of WATCH on a scratchpad line, in the order of precedence. -/
def armCode (s : State) (r : TRef) (q off : Nat) : Nat :=
  if spadWatch r q off ∈ s.watches then 1
  else if 8 ≤ (ownWatches s r).length then 3
  else if storeRoom s r.core (.spad q (off / 64 * 64)) then 0 else 2

/-- R126: the watches after it. -/
def armed (s : State) (r : TRef) (q off : Nat) : List Watch :=
  if armCode s r q off = 0 then s.watches ++ [spadWatch r q off] else s.watches

theorem armCode_lt (s : State) (r : TRef) (q off : Nat) : armCode s r q off < 256 := by
  unfold armCode
  repeat' split
  all_goals decide

/-- R126: the code as the register has it. -/
theorem armCode_word (s : State) (r : TRef) (q off : Nat) : BitVec.ofNat 64 (armCode s r q off) =
    if spadWatch r q off ∈ s.watches then 1#64
    else if 8 ≤ (ownWatches s r).length then 3#64
    else if storeRoom s r.core (spadWatch r q off).place then 0#64 else 2#64 := by
  simp only [armCode, apply_ite (BitVec.ofNat 64)]
  rfl

theorem armed_of_word (s : State) (r : TRef) (q off : Nat) : armed s r q off =
    if BitVec.ofNat 64 (armCode s r q off) = 0#64 then s.watches ++ [spadWatch r q off] else s.watches := by
  have hzero : BitVec.ofNat 64 (armCode s r q off) = 0#64 ↔ armCode s r q off = 0 := by
    have := armCode_lt s r q off
    rw [← BitVec.toNat_inj, BitVec.toNat_ofNat, BitVec.toNat_ofNat]
    omega
  simp only [armed, hzero]

/-- A scratchpad is one watch store (R126). -/
theorem storeRoom_spad (s : State) (c q off off' : Nat) :
    storeRoom s c (.spad q off) = storeRoom s c (.spad q off') := by
  have hsame : ∀ d p, sameStore d p c (.spad q off) = sameStore d p c (.spad q off') := by
    intro d p
    cases p <;> simp only [sameStore]
  unfold storeRoom
  simp only [hsame]
  rfl

theorem armWatch_spad (s : State) (r : TRef) (q off : Nat) :
    armWatch s r (.spad q off) = ({ s with watches := armed s r q off }, armCode s r q off) := by
  have hroom := storeRoom_spad s r.core q off (off / 64 * 64)
  have hin : s.watches.contains (spadWatch r q off) = decide (spadWatch r q off ∈ s.watches) :=
    List.contains_eq_mem ..
  have hwatch : armWatch s r (.spad q off) =
      if s.watches.contains (spadWatch r q off) then (s, 1)
      else if 8 ≤ (ownWatches s r).length then (s, 3)
      else if !storeRoom s r.core (.spad q off) then (s, 2)
      else (addWatch s (spadWatch r q off), 0) := rfl
  rw [hwatch, hroom, hin]
  unfold armed armCode
  by_cases h1 : spadWatch r q off ∈ s.watches
  · simp [h1]
  · by_cases h3 : 8 ≤ (ownWatches s r).length
    · simp [h1, h3]
    · by_cases h0 : storeRoom s r.core (.spad q (off / 64 * 64)) = true
      · simp [h1, h3, h0]
        rfl
      · simp [h1, h3, h0]

/-! ## Entries that come free -/

/-- A watch of a scratchpad keeps no directory entry (R350). -/
theorem watched_filter {s : State} {p : Watch → Bool}
    (h : ∀ w ∈ s.watches, p w = false → ∃ q off, w.place = .spad q off) (line : Nat) :
    watched { s with watches := s.watches.filter p } line = watched s line := by
  unfold watched
  rw [Bool.eq_iff_iff, List.any_eq_true, List.any_eq_true]
  constructor
  · rintro ⟨w, hw, he⟩
    exact ⟨w, (List.mem_filter.1 hw).1, he⟩
  · rintro ⟨w, hw, he⟩
    refine ⟨w, List.mem_filter.2 ⟨hw, ?_⟩, he⟩
    cases hp : p w with
    | true => rfl
    | false =>
      obtain ⟨q, off, e⟩ := h w hw hp
      rw [e] at he
      cases he

/-- Watches of scratchpads dropped, where nothing waits for an entry. -/
theorem postEntries_filter {s : State} {p : Watch → Bool} (hn : NoEntryWaits s)
    (h : ∀ w ∈ s.watches, p w = false → ∃ q off, w.place = .spad q off) :
    postEntries { s with watches := s.watches.filter p } = { s with watches := s.watches.filter p } := by
  obtain ⟨hwait, hlaunch, hdir⟩ := hn
  have hkeeps : s.dir.filter (fun x => keepsEntry { s with watches := s.watches.filter p } x.1 x.2) = s.dir := by
    rw [List.filter_eq_self]
    intro x hx
    rw [← hdir x hx]
    unfold keepsEntry
    rw [watched_filter h]
  have hposts : ∀ (l : List (Nat × Launch)) (u : State), (∀ x ∈ l, x.2.entered = false) →
      l.foldl (fun (s : State) (x : Nat × Launch) =>
        if x.2.entered && x.2.ready.isNone && !x.2.done && !s.watches.any (fun w => w.kind = .dep x.1) then
          s.post (.dependenceReady x.1)
        else s) u = u := by
    intro l
    induction l with
    | nil => intros; rfl
    | cons x l ih =>
      intro u hl
      have h0 := hl x (List.mem_cons_self ..)
      rw [List.foldl_cons, h0]
      exact ih _ (fun y hy => hl y (List.mem_cons_of_mem _ hy))
  unfold postEntries
  simp only [hkeeps]
  rw [hposts s.launches _ hlaunch, hwait]
  rfl

theorem NoEntryWaits.of_becomes {s s1 : State} {c slot : Nat} {t : Thread} (hn : NoEntryWaits s)
    (B : Becomes s s1 c slot t) : NoEntryWaits s1 := by
  obtain ⟨hwait, hlaunch, hdir⟩ := hn
  refine ⟨?_, ?_, ?_⟩
  · rw [B.field (fun s => s.entryWait) (fun _ => rfl), hwait]
  · rw [B.field (fun s => s.launches) (fun _ => rfl)]
    exact hlaunch
  · rw [B.field (fun s => s.dir) (fun _ => rfl), B.field keepsEntry (fun _ => rfl)]
    exact hdir

theorem disarmWatch_spad {s : State} (r : TRef) (q off : Nat) (hn : NoEntryWaits s) :
    disarmWatch s r (.spad q off) = ({ s with watches := s.watches.filter (· != spadWatch r q off) },
      if spadWatch r q off ∈ s.watches then 0 else 1) := by
  have hw : disarmWatch s r (.spad q off) = if s.watches.contains (spadWatch r q off) then
      (postEntries { s with watches := s.watches.filter (· != spadWatch r q off) }, 0) else (s, 1) := rfl
  rw [hw]
  by_cases h : spadWatch r q off ∈ s.watches
  · rw [if_pos (by simpa using h), if_pos h, postEntries_filter hn]
    intro w _ e
    exact ⟨q, off / 64 * 64, by rw [show w = spadWatch r q off by simpa using e]; rfl⟩
  · have hall : s.watches.filter (· != spadWatch r q off) = s.watches := by
      rw [List.filter_eq_self]
      intro w hm
      simp only [bne_iff_ne, ne_eq]
      rintro rfl
      exact h hm
    rw [if_neg (by simpa using h), if_neg h, hall]

/-- R127: the watches that are left when a thread disarms every one of its own. -/
def disarmed (s : State) (r : TRef) : List Watch :=
  s.watches.filter (fun w => !(w.thread = r && w.kind = .watch))

theorem disarmEvery_spad {s : State} {r : TRef} (hn : NoEntryWaits s)
    (h : ∀ w ∈ s.watches, w.thread = r → w.kind = .watch → ∃ q off, w.place = .spad q off) :
    disarmEvery s r = ({ s with watches := disarmed s r }, (ownWatches s r).length) := by
  have hd : disarmEvery s r = (postEntries { s with watches := disarmed s r }, (ownWatches s r).length) := rfl
  rw [hd]
  unfold disarmed
  rw [postEntries_filter hn]
  intro w hm e
  simp only [Bool.not_eq_false', Bool.and_eq_true, decide_eq_true_eq] at e
  exact h w hm e.1 e.2

/-! ## The instructions -/

/-- A change of the watches alone. -/
theorem Becomes.withWatches {s s1 : State} {c slot : Nat} {t : Thread} (B : Becomes s s1 c slot t) (ws : List Watch) :
    Becomes { s with watches := ws } { s1 with watches := ws } c slot t :=
  ⟨B.thread, B.others, B.core, B.cores, congrArg (fun u : State => { u with watches := ws }) B.rest, B.events⟩

section
variable {i : Instr} {d : Desc} {body : Nat → Nat → Thread → State → State} {s : State} {c slot : Nat} {t : Thread}

/-- R79: an instruction that is complete in its turn, and leaves the state `v` as it is but for its thread. -/
theorem completes_of {v : State} {u : Thread} (he : exec i = issue i d body) (h : Issues d s c slot t)
    (hp : Plain s c slot t) (hv : Plain v c slot t) (hc : d.commit (reading i t) = false ∨ (s.core c).lock = none)
    (hu : u.stepping = none) (hb : ∀ s1, Becomes s s1 c slot (past i d.len t) →
      Becomes v (body c slot (reading i t) s1) c slot u) :
    ∃ s', exec i s = .next s' ∧ Becomes v s' c slot u := by
  have W := hb _ (atIssue_becomes (i := i) (d := d) h.turn hp.notStepped hc)
  refine ⟨_, ?_, W⟩
  rw [he, issue_next h]
  exact congrArg _ (afterIssue_eq W hv hu)

/-- R126, R127: an instruction of the core's own watch table answers its code in its turn. -/
theorem watchCode_of {dst : Nat} {ws : List Watch} {v : Word} (he : exec i = issue i d body) (h : Issues d s c slot t)
    (hp : Plain s c slot t) (hcommit : d.commit (reading i t) = false)
    (hb : ∀ s1, Becomes s s1 c slot (past i d.len t) →
      body c slot (reading i t) s1 = writeG { s1 with watches := ws } c slot dst v) :
    ∃ s', exec i s = .next s' ∧ Becomes { s with watches := ws } s' c slot ((past i d.len t).setG dst v) :=
  completes_of he h hp ⟨hp.notStepped, hp.noCommit⟩ (.inl hcommit) (by simpa using past_stepping hp.notStepped)
    (fun s1 B => hb s1 B ▸ (B.withWatches ws).writeG dst v)

end

/-- A byte that holds a code. -/
theorem leWord_code {n : Nat} (h : n < 256) : leWord [BitVec.ofNat 8 n] = BitVec.ofNat 64 n := by
  simp [leWord, leNat, Nat.mod_eq_of_lt h]

/-- R9, R126, R127: an access of the core's own watch table. -/
theorem startAccess_watch {s : State} {c slot d code : Nat} {t : Thread} {va : Word} {op : UnitOp} {ws : List Watch}
    (ho : Own s c va 1) (hl : (s.core c).lock = none) (hop : op.isWatch = true) (hcode : code < 256)
    (hw : watchUnit s ⟨c, slot⟩ op (.spad c va.toNat) = ({ s with watches := ws }, [BitVec.ofNat 8 code])) :
    startAccess s c slot t [piece va 1 op] 1 .watch (.status d) false false =
      writeG { s with watches := ws } c slot d (BitVec.ofNat 64 code) := by
  have hu : ownUnits s ⟨c, slot⟩ (placed c [piece va 1 op]) =
      ({ s with watches := ws }, .ok [[BitVec.ofNat 8 code]]) := by
    simp [placed, piece, ownUnits, hop, hw]
  rw [startAccess_own (by simpa [piece] using ho) hl (by simp) (.inr (by simpa [piece] using hop)), hu]
  simp only [finishAccess, List.headD_cons, leWord_code hcode]

section
variable {g : BitVec 3} {d a : BitVec 7} {s s1 : State} {c slot : Nat} {t u : Thread}

theorem Becomes.armCode (B : Becomes s s1 c slot u) (r : TRef) (q off : Nat) :
    armCode s1 r q off = armCode s r q off := B.field (fun s => Sys2Proof.armCode s r q off) (fun _ => rfl)

theorem Becomes.armed (B : Becomes s s1 c slot u) (r : TRef) (q off : Nat) :
    armed s1 r q off = armed s r q off := B.field (fun s => Sys2Proof.armed s r q off) (fun _ => rfl)

/-- R126: WATCH of an own-scratchpad line. -/
theorem watch_own (h : Issues (dRR g d a) s c slot t) (hp : Plain s c slot t) (hl : (s.core c).lock = none)
    (ho : Own s c (t.gv a.toNat) 1) :
    ∃ s', exec (.watch g d a) s = .next s' ∧
      Becomes { s with watches := armed s ⟨c, slot⟩ c (t.gv a.toNat).toNat } s' c slot
        ((past (.watch g d a) 4 t).setG d.toNat (BitVec.ofNat 64 (armCode s ⟨c, slot⟩ c (t.gv a.toNat).toNat))) := by
  refine watchCode_of exec_watch h hp rfl (fun s1 B => startAccess_watch (ho.same B.same) (B.same.lock.trans hl) rfl
    (armCode_lt ..) ?_)
  rw [← B.armCode, ← B.armed]
  simp only [watchUnit, armWatch_spad]
  rfl

/-- R127: UNWATCH of an own-scratchpad line. -/
theorem unwatch_own (h : Issues (dRR g d a) s c slot t) (hp : Plain s c slot t) (hl : (s.core c).lock = none)
    (ha : a ≠ 0#7) (hn : NoEntryWaits s) (ho : Own s c (t.gv a.toNat) 1) {w : Watch}
    (hw : w = spadWatch ⟨c, slot⟩ c (t.gv a.toNat).toNat) :
    ∃ s', exec (.unwatch g d a) s = .next s' ∧
      Becomes { s with watches := s.watches.filter (· != w) } s' c slot
        ((past (.unwatch g d a) 4 t).setG d.toNat (BitVec.ofNat 64 (if w ∈ s.watches then 0 else 1))) := by
  subst hw
  refine watchCode_of exec_unwatch h hp rfl (fun s1 B => (if_neg ha).trans (startAccess_watch (ho.same B.same)
    (B.same.lock.trans hl) rfl (by split <;> decide) ?_))
  simp only [watchUnit]
  rw [reading_gv, disarmWatch_spad _ _ _ (hn.of_becomes B), B.watches]

/-- R127: UNWATCH of every watch, all of which are the own core's. -/
theorem unwatch_every (h : Issues (dRR g d 0#7) s c slot t) (hp : Plain s c slot t) (hn : NoEntryWaits s)
    (hw : ∀ w ∈ s.watches, w.thread = ⟨c, slot⟩ → w.kind = .watch → ∃ off, w.place = .spad c off) :
    ∃ s', exec (.unwatch g d 0#7) s = .next s' ∧
      Becomes { s with watches := disarmed s ⟨c, slot⟩ } s' c slot
        ((past (.unwatch g d 0#7) 4 t).setG d.toNat (BitVec.ofNat 64 (ownWatches s ⟨c, slot⟩).length)) := by
  refine watchCode_of exec_unwatch h hp rfl (fun s1 B => (if_pos rfl).trans ?_)
  have hhere : watchesHere s1 ⟨c, slot⟩ = true := by
    unfold watchesHere
    rw [B.watches, List.all_eq_true]
    intro w hm
    by_cases hmine : w.thread = ⟨c, slot⟩ ∧ w.kind = .watch
    · obtain ⟨off, e⟩ := hw w hm hmine.1 hmine.2
      simp [e]
    · by_cases hthread : w.thread = ⟨c, slot⟩
      · simp [show w.kind ≠ .watch from fun e => hmine ⟨hthread, e⟩]
      · simp [hthread]
  have hdis : disarmed s1 ⟨c, slot⟩ = disarmed s ⟨c, slot⟩ := by simp only [disarmed, B.watches]
  have hown : ownWatches s1 ⟨c, slot⟩ = ownWatches s ⟨c, slot⟩ := by simp only [ownWatches, B.watches]
  rw [if_pos hhere, disarmEvery_spad (hn.of_becomes B), hdis, hown]
  rw [B.watches]
  intro w hm hthread hkind
  obtain ⟨off, e⟩ := hw w hm hthread hkind
  exact ⟨c, off, e⟩

end

/-- Settles O28: WATCH answers `armCode` (`watch_own`), and UNWATCH drops one watch (`unwatch_own`) or every one of its
thread (`unwatch_every`). -/
theorem watchAndUnwatchAnswerTheirCodes : Obligations.WatchAndUnwatchAnswerTheirCodes := by
  unfold Obligations.WatchAndUnwatchAnswerTheirCodes
  refine ⟨?watch, ?unwatch, ?every⟩
  case watch =>
    rintro g d a s c slot t _ h hp hl ho rfl
    obtain ⟨s', he, B⟩ := watch_own h hp hl ho
    refine ⟨s', _, he, ?_, armCode_word ..⟩
    rw [armed_of_word] at B
    exact B
  case unwatch =>
    intro g d a s c slot t w h hp hl ha hn ho hw
    obtain ⟨s', he, B⟩ := unwatch_own h hp hl ha hn ho hw
    refine ⟨s', he, ?_⟩
    by_cases hm : w ∈ s.watches <;> simpa [hm] using B
  case every =>
    intro g d s c slot t h hp hn hw
    exact unwatch_every h hp hn hw

end Sys2Proof
end

section
/-!
SLEEP and WAITGE (R129, R130).
-/
namespace Sys2Proof
open Machine

section
variable {g : BitVec 3} {d a b : BitVec 7} {s : State} {c slot : Nat} {t : Thread}

/-- What SLEEP names. -/
def dSleep (g : BitVec 3) (d : BitVec 7) : Desc := { guard := g, g := [d.toNat], writes := [d.toNat] }

/-- R129: with the wake latch set, SLEEP takes it and goes on. -/
theorem sleep_takes_latch (h : Issues (dSleep g d) s c slot t) (hp : Plain s c slot t) (hl : t.latch = true) :
    ∃ s', exec (.sleep g d) s = .next s' ∧
      Becomes s s' c slot ({ past (.sleep g d) 4 t with latch := false }.setG d.toNat 0#64) :=
  completes_of exec_sleep h hp hp (.inl rfl) (by simpa using past_stepping hp.notStepped) (fun s1 B => by
    rw [if_pos (show (reading (.sleep g d) t).latch = true from hl)]
    exact (B.modThread (fun t => { t with latch := false })).writeG _ _)

/-- R129: a thread without a watch does not sleep. -/
theorem sleep_unwatched (h : Issues (dSleep g d) s c slot t) (hp : Plain s c slot t) (hl : t.latch = false)
    (hw : ∀ w ∈ s.watches, w.thread = ⟨c, slot⟩ → w.kind ≠ .watch) :
    ∃ s', exec (.sleep g d) s = .next s' ∧ Becomes s s' c slot ((past (.sleep g d) 4 t).setG d.toNat 2#64) :=
  completes_of exec_sleep h hp hp (.inl rfl) (by simpa using past_stepping hp.notStepped) (fun s1 B => by
    have hnone : s1.watches.any (fun w => w.thread = ⟨c, slot⟩ && w.kind = .watch) = false := by
      rw [B.watches]
      refine any_false_of (fun w hm => ?_)
      simpa using hw w hm
    rw [if_neg (by simp [show (reading (.sleep g d) t).latch = false from hl]), hnone]
    exact B.writeG _ _)

/-- R129: a thread with a watch and no latch sleeps. -/
theorem sleep_sleeps (h : Issues (dSleep g d) s c slot t) (hp : Plain s c slot t) (hl : t.latch = false)
    (hw : ∃ w ∈ s.watches, w.thread = ⟨c, slot⟩ ∧ w.kind = .watch) :
    ∃ s', exec (.sleep g d) s = .next s' ∧
      Left (.sleep g d) s s' c slot t .sleeping (.sleep d.toNat) s.watches := by
  have B := atIssue_becomes (i := .sleep g d) (d := dSleep g d) h.turn hp.notStepped (.inl rfl)
  have L := Left.begin B .sleeping (.sleep d.toNat)
  refine ⟨_, leaves_of exec_sleep h ?_ L.thread (by simp), L⟩
  have hsome : (atIssue (.sleep g d) (dSleep g d) s c slot t).watches.any
      (fun w => w.thread = ⟨c, slot⟩ && w.kind = .watch) = true := by
    rw [B.watches, List.any_eq_true]
    obtain ⟨w, hm, hthread, hkind⟩ := hw
    exact ⟨w, hm, by simp [hthread, hkind]⟩
  rw [if_neg (by simp [show (reading (.sleep g d) t).latch = false from hl])]
  exact if_neg (by simp only [dSleep] at hsome; simp [hsome])

/-! ## WAITGE (R130) -/

theorem readPlace_own {off : Nat} (hp : Unpoisoned (s.core c) off 8) (hf : (s.core c).fenced = false) (x : Nat) :
    readPlace s x (.spad c off) 8 = (Mem.readN (s.core c).spad off 8, false) := by
  simp only [readPlace, spadPoison_false hp, hf, Bool.or_self]

/-- Where no watch lies in a scratchpad, its watch table has room. -/
theorem storeRoom_calm (hw : ∀ w ∈ s.watches, ∀ o, w.place ≠ .spad c o) (off : Nat) :
    storeRoom s c (.spad c off) = true := by
  have hnone : ∀ w ∈ s.watches, (sameStore (w.from s) w.place c (.spad c off) && w.kind != .bar) = false := by
    intro w hm
    cases hp : w.place <;> simp [sameStore]
    case spad q o =>
      rintro rfl
      exact absurd hp (hw w hm o)
  simp [storeRoom, count, filter_nil_of hnone, storeSize]

theorem geWait_calm {dst off : Nat} {va bound v : Word} (hw : ∀ w ∈ s.watches, ∀ o, w.place ≠ .spad c o) :
    geWait s c slot dst va (.spad c off) bound v =
      beginWait { s with watches := s.watches ++ [geWatch ⟨c, slot⟩ (.spad c off)] } c slot .sleeping
        (.waitge dst va (.spad c off) bound v true) := by
  have hadd : addWatch s (geWatch ⟨c, slot⟩ (.spad c off)) =
      { s with watches := s.watches ++ [geWatch ⟨c, slot⟩ (.spad c off)] } := rfl
  unfold geWait register
  rw [if_pos (storeRoom_calm hw off), hadd]

/-- R130: on the own scratchpad WAITGE makes its first read in the turn. -/
theorem exec_waitge_own : ∃ body, exec (.waitge g d a b) = issue (.waitge g d a b) (dRRR g d a b) body ∧
    ∀ (s : State) (t : Thread) (v : Word), Calm s c t → Own s c (t.gv a.toNat) 8 →
      Unpoisoned (s.core c) (t.gv a.toNat).toNat 8 → (s.core c).fenced = false →
      v = leWord (Mem.readN (s.core c).spad (t.gv a.toNat).toNat 8) →
      body c slot t s = if (t.gv b.toNat).toNat ≤ v.toNat then writeG s c slot d.toNat v
        else geWait s c slot d.toNat (t.gv a.toNat) (.spad c (t.gv a.toNat).toNat) (t.gv b.toNat) v := by
  refine ⟨_, exec_waitge, ?_⟩
  rintro s t _ hc ho hu hf rfl
  have hnow : mustWait s ⟨c, slot⟩ t none (piece (t.gv a.toNat) 8 (.waitge (t.gv b.toNat)))
      (.spad c (t.gv a.toNat).toNat) = false := by
    simp [mustWait, hc.relaxed, piece]
  simp only [offCore_own ho.own, ho.aligned, hnow, checkClass_own ho.own ho.data hc.unpaired (k := .wait) (by simp),
    feFirst_calm hc.due, readPlace_own hu hf]
  rfl

/-- A core's scratchpad is as quiet after the issue of an instruction as before. -/
theorem Calm.of_becomes {s1 : State} {u t' : Thread} (hc : Calm s c t) (B : Becomes s s1 c slot u)
    (hr : t'.relaxed = t.relaxed) : Calm s1 c t' := by
  obtain ⟨hw, hd, hl⟩ := B.calm hc
  exact ⟨hl, hr.trans hc.relaxed, hw, hd⟩

theorem waitge_body {v : Word} (hc : Calm s c t) (ho : Own s c (t.gv a.toNat) 8)
    (hu : Unpoisoned (s.core c) (t.gv a.toNat).toNat 8) (hf : (s.core c).fenced = false)
    (hv : v = leWord (Mem.readN (s.core c).spad (t.gv a.toNat).toNat 8)) :
    ∃ body, exec (.waitge g d a b) = issue (.waitge g d a b) (dRRR g d a b) body ∧
      ∀ s1, Becomes s s1 c slot (past (.waitge g d a b) 4 t) →
        body c slot (reading (.waitge g d a b) t) s1 =
          if (t.gv b.toNat).toNat ≤ v.toNat then writeG s1 c slot d.toNat v
          else geWait s1 c slot d.toNat (t.gv a.toNat) (.spad c (t.gv a.toNat).toNat) (t.gv b.toNat) v := by
  obtain ⟨body, he, hbody⟩ := exec_waitge_own (g := g) (d := d) (a := a) (b := b) (c := c) (slot := slot)
  refine ⟨body, he, fun s1 B => ?_⟩
  have q := B.same
  exact hbody s1 (reading _ t) v (hc.of_becomes B rfl) (ho.same q) (q.unpoisoned hu) (q.fenced.trans hf)
    (by rw [hv, q.spad]; rfl)

/-- R130: a word that is large enough is returned at once. -/
theorem waitge_returns {v : Word} (h : Issues (dRRR g d a b) s c slot t) (hp : Plain s c slot t) (hc : Calm s c t)
    (ho : Own s c (t.gv a.toNat) 8) (hu : Unpoisoned (s.core c) (t.gv a.toNat).toNat 8)
    (hf : (s.core c).fenced = false) (hv : v = leWord (Mem.readN (s.core c).spad (t.gv a.toNat).toNat 8))
    (hle : (t.gv b.toNat).toNat ≤ v.toNat) :
    ∃ s', exec (.waitge g d a b) s = .next s' ∧
      Becomes s s' c slot ((past (.waitge g d a b) 4 t).setG d.toNat v) := by
  obtain ⟨body, he, hbody⟩ := waitge_body (g := g) (d := d) (b := b) (slot := slot) hc ho hu hf hv
  refine completes_of he h hp hp (.inl rfl) (by simpa using past_stepping hp.notStepped) (fun s1 B => ?_)
  rw [hbody s1 B, if_pos hle]
  exact B.writeG _ _

/-- R130: otherwise the thread sleeps under a temporary watch. -/
theorem waitge_sleeps {v : Word} (h : Issues (dRRR g d a b) s c slot t) (hp : Plain s c slot t) (hc : Calm s c t)
    (ho : Own s c (t.gv a.toNat) 8) (hu : Unpoisoned (s.core c) (t.gv a.toNat).toNat 8)
    (hf : (s.core c).fenced = false) (hv : v = leWord (Mem.readN (s.core c).spad (t.gv a.toNat).toNat 8))
    (hlt : v.toNat < (t.gv b.toNat).toNat) :
    ∃ s', exec (.waitge g d a b) s = .next s' ∧
      Left (.waitge g d a b) s s' c slot t .sleeping
        (.waitge d.toNat (t.gv a.toNat) (.spad c (t.gv a.toNat).toNat) (t.gv b.toNat) v true)
        (s.watches ++ [geWatch ⟨c, slot⟩ (.spad c (t.gv a.toNat).toNat)]) := by
  obtain ⟨body, he, hbody⟩ := waitge_body (g := g) (d := d) (b := b) (slot := slot) hc ho hu hf hv
  have B := atIssue_becomes (i := .waitge g d a b) (d := dRRR g d a b) h.turn hp.notStepped (.inl rfl)
  have L := Left.of B (s.watches ++ [geWatch ⟨c, slot⟩ (.spad c (t.gv a.toNat).toNat)]) .sleeping
    (.waitge d.toNat (t.gv a.toNat) (.spad c (t.gv a.toNat).toNat) (t.gv b.toNat) v true)
  refine ⟨_, leaves_of he h ?_ L.thread (by simp), L⟩
  rw [hbody _ B, if_neg (Nat.not_le.2 hlt), geWait_calm (B.calm hc).1, B.watches]

end

/-- Settles O29: SLEEP takes the latch, answers 2 or sleeps (`sleep_takes_latch`, `sleep_unwatched`, `sleep_sleeps`),
and WAITGE returns its word or sleeps (`waitge_returns`, `waitge_sleeps`). -/
theorem sleepAndWaitgeWait : Obligations.SleepAndWaitgeWait := by
  unfold Obligations.SleepAndWaitgeWait
  refine ⟨?sleep, ?waitge⟩
  case sleep =>
    intro g d s c slot t h hp
    exact ⟨sleep_takes_latch h hp, sleep_unwatched h hp, sleep_sleeps h hp⟩
  case waitge =>
    rintro g d a b s c slot t _ v rfl hv h hp hc ho hu hf
    exact ⟨waitge_returns h hp hc ho hu hf hv, waitge_sleeps h hp hc ho hu hf hv⟩

end Sys2Proof
end

section
/-!
How sleeps end (R116, R117, R130, R131, R197, R217).
-/
namespace Sys2Proof
open Machine

section
variable {s : State} {c slot : Nat} {t : Thread}

/-! ## The limit WLIM (R131, R197) -/

theorem postEntries_dir {s : State} {ws : List Watch} :
    ∀ x ∈ (postEntries { s with watches := ws }).dir, x ∈ s.dir := by
  have hdir := congrArg State.dir (postEntries_rest { s with watches := ws })
  intro x hx
  rw [show (postEntries { s with watches := ws }).dir = _ from hdir] at hx
  exact (List.mem_filter.1 hx).1

/-- The end of the watches of a wait changes no thread. -/
theorem Waits.drop {w : Wait} (h : Waits s c slot t w) (ws : List Watch) :
    Waits (postEntries { s with watches := ws }) c slot t w :=
  h.of_thread (postEntries_thread ..)

/-- R131: a period that has reached WLIM, and that no write has ended, ends with the result of its wait. -/
theorem wlimExpiry_ends {w : Wait} {d : Nat} {v : Word} (h : Waits s c slot t w) (hl : limitReached t = true)
    (hw : woken s ⟨c, slot⟩ w = false)
    (hv : w = .sleep d ∧ v = 1#64 ∨ (∃ va p b e, w = .waitge d va p b v e) ∨ ∃ p, w = .bar d p v) :
    ∃ s', exec (.wlimExpiry c slot) s = .next s' ∧ Resumed s' c slot (t.setG d v) := by
  rw [exec_wlimExpiry]
  unfold execWlimExpiry
  simp only [h.thread, hl, h.wait, hw, Bool.not_true, Bool.false_eq_true, if_false]
  rcases hv with ⟨rfl, rfl⟩ | ⟨va, p, b, e, rfl⟩ | ⟨p, rfl⟩
  case inl => exact ⟨_, rfl, h.finish s h.thread d 1#64⟩
  case inr.inl => exact ⟨_, rfl, h.finish _ (h.drop _).thread d v⟩
  case inr.inr => exact ⟨_, rfl, h.finish _ (h.drop _).thread d v⟩

/-- R131: a waiting LDFE or STFE faults at WLIM. -/
theorem wlimExpiry_faults {load : Bool} {d : Nat} {va data : Word} {p : Place} {e : Bool}
    (h : Waits s c slot t (.fe load d va p data e)) (hl : limitReached t = true)
    (hw : woken s ⟨c, slot⟩ (.fe load d va p data e) = false) :
    exec (.wlimExpiry c slot) s = .next (takeFault s c slot (mkFault fcWatchLimit va t.wlim)) := by
  rw [exec_wlimExpiry]
  unfold execWlimExpiry
  simp only [h.thread, hl, h.wait, hw, Bool.not_true, Bool.false_eq_true, if_false]

/-! ## WAITGE reads again (R130, R217) -/

theorem geRead_unpaired (hd : ∀ q, NoDue s q) (hl : (s.core c).lock = none) (p : Place) :
    geRead s c p = (s, readPlace s c p 8) := by
  cases p <;> simp only [geRead, feFirst_calm (hd _), overlay_unpaired hl]

/-- Nothing that the end of a wait does touches the directory. -/
theorem settleAct_finish {s1 : State} {e : Event} {d : Nat} {v : Word} (h : NoAct s e)
    (hd : ∀ x ∈ s1.dir, x ∈ s.dir) :
    settleAct (finishWait (writeG s1 c slot d v) c slot) e = finishWait (writeG s1 c slot d v) c slot := by
  have hrest : CoreOnly s1 (finishWait (writeG s1 c slot d v) c slot) c :=
    (CoreOnly.writeG ..).trans (CoreOnly.finishWait ..)
  exact settleAct_noAct ((h.mono hd).of_dir (hrest.field (·.dir) (fun _ => rfl)))

theorem finish_watches (s1 : State) (d : Nat) (v : Word) :
    (finishWait (writeG s1 c slot d v) c slot).watches = s1.watches :=
  ((CoreOnly.writeG ..).trans (CoreOnly.finishWait ..)).field (·.watches) (fun _ => rfl)

theorem waitgeRecheck_inTurn {d : Nat} {va bound last : Word} {p : Place}
    (h : Waits s c slot t (.waitge d va p bound last true)) (ht : InTurn s (.waitgeRecheck c slot) p false) :
    exec (.waitgeRecheck c slot) s =
      .next (settleAct (recheckGe s c slot d va p bound) (.waitgeRecheck c slot)) := by
  rw [exec_waitgeRecheck]
  unfold execWaitgeRecheck
  simp only [h.thread, h.wait, atPlace_inTurn ht]

/-- R130: a woken WAITGE that finds its word large enough returns it, and its watch is gone. -/
theorem waitgeRecheck_returns {d : Nat} {va bound last : Word} {p : Place} {v : List Byte × Bool}
    (h : Waits s c slot t (.waitge d va p bound last true)) (hl : (s.core c).lock = none)
    (ht : InTurn s (.waitgeRecheck c slot) p false) (hd : ∀ q, NoDue s q) (hv : v = readPlace s c p 8)
    (hp : v.2 = false) (hle : bound.toNat ≤ (leWord v.1).toNat) :
    ∃ s', exec (.waitgeRecheck c slot) s = .next s' ∧ Resumed s' c slot (t.setG d (leWord v.1)) ∧
      ∀ w ∈ s'.watches, ¬(w.thread = ⟨c, slot⟩ ∧ w.kind = .waitge) := by
  have hends : recheckGe s c slot d va p bound =
      finishWait (writeG (dropGe s ⟨c, slot⟩) c slot d (leWord v.1)) c slot := by
    unfold recheckGe
    simp only [geRead_unpaired hd hl, ← hv, hp, hle, Bool.false_eq_true, if_false, if_true]
  have hexec : exec (.waitgeRecheck c slot) s =
      .next (finishWait (writeG (dropGe s ⟨c, slot⟩) c slot d (leWord v.1)) c slot) := by
    rw [waitgeRecheck_inTurn h ht, hends]
    exact congrArg _ (settleAct_finish ht.noAct postEntries_dir)
  refine ⟨_, hexec, h.finish _ (h.drop _).thread d _, fun w hw => ?_⟩
  rw [finish_watches, dropGe, postEntries_watches] at hw
  rintro ⟨hthread, hkind⟩
  simpa [hthread, hkind] using (List.mem_filter.1 hw).2

/-- R130: a woken WAITGE that falls short again keeps the word it has read, and sleeps on. -/
theorem waitgeRecheck_sleeps {d : Nat} {va bound last : Word} {p : Place} {v : List Byte × Bool}
    (h : Waits s c slot t (.waitge d va p bound last true)) (hl : (s.core c).lock = none)
    (ht : InTurn s (.waitgeRecheck c slot) p false) (hd : ∀ q, NoDue s q) (hv : v = readPlace s c p 8)
    (hp : v.2 = false) (hlt : (leWord v.1).toNat < bound.toNat) :
    ∃ s', exec (.waitgeRecheck c slot) s = .next s' ∧ CoreOnly s s' c ∧
      s'.thread? c slot = some { t with wait := .waitge d va p bound (leWord v.1) true } := by
  have hkeeps : recheckGe s c slot d va p bound =
      s.setThread c slot { t with wait := .waitge d va p bound (leWord v.1) true } := by
    unfold recheckGe
    simp only [geRead_unpaired hd hl, ← hv, hp, Nat.not_le.2 hlt, Bool.false_eq_true, if_false,
      State.modThread_eq h.thread]
  have hdir := (CoreOnly.setThread s c slot { t with wait := .waitge d va p bound (leWord v.1) true }).field (·.dir)
    (fun _ => rfl)
  exact ⟨_, by rw [waitgeRecheck_inTurn h ht, hkeeps, settleAct_noAct (ht.noAct.of_dir hdir)],
    .setThread .., State.thread?_setThread_self ..⟩

/-! ## An entry has come free (R217) -/

/-- The state without a thread's wait for an entry. -/
def withoutEntryWait (s : State) (r : TRef) : State := { s with entryWait := s.entryWait.filter (fun x => x.1 != r) }

theorem Waits.withoutEntryWait {w : Wait} (h : Waits s c slot t w) (r : TRef) :
    Waits (withoutEntryWait s r) c slot t w :=
  h.of_thread rfl

/-- The state in which a thread has its entry for a WAITGE, and waits for one no more. -/
def withGeWatch (s : State) (c slot q off : Nat) : State :=
  { withoutEntryWait s ⟨c, slot⟩ with watches := s.watches ++ [geWatch ⟨c, slot⟩ (.spad q off)] }

theorem withGeWatch_core (q off x : Nat) : (withGeWatch s c slot q off).core x = s.core x := rfl

theorem Waits.withGeWatch {w : Wait} (h : Waits s c slot t w) (q off : Nat) :
    Waits (withGeWatch s c slot q off) c slot t w :=
  h.of_thread rfl

/-- R217: the first wait for an entry of a scratchpad's table takes its turn. -/
theorem watchEntryGrant_first {d q off : Nat} {va bound last : Word}
    (h : Waits s c slot t (.waitge d va (.spad q off) bound last false))
    (hroom : storeRoom s c (.spad q off) = true) (hfirst : s.entryWait.head? = some (⟨c, slot⟩, .spad q off)) :
    exec (.watchEntryGrant c slot) s = .next (settleAct
      (entryGe (withoutEntryWait s ⟨c, slot⟩) ⟨c, slot⟩ d va (.spad q off) bound) (.watchEntryGrant c slot)) := by
  obtain ⟨rest, hrest⟩ : ∃ rest, s.entryWait = (⟨c, slot⟩, .spad q off) :: rest :=
    List.head?_eq_some_iff.1 hfirst
  have hmine : s.entryWait.find? (fun x => x.1 = (⟨c, slot⟩ : TRef)) = some (⟨c, slot⟩, .spad q off) := by
    simp [hrest]
  have hturn : firstForEntry s ⟨c, slot⟩ (.spad q off) = true := by
    simp [firstForEntry, hrest, sameStore]
  have hwait : waitOf s ⟨c, slot⟩ = some (.waitge d va (.spad q off) bound last false) := by
    simp [waitOf, h.thread, h.wait]
  rw [exec_watchEntryGrant]
  unfold execWatchEntryGrant
  simp only [hmine, hroom, hturn, hwait, Bool.not_true, Bool.or_self, Bool.false_eq_true, if_false]
  rfl

/-- R130: a WAITGE that gets its entry and finds its word large enough needs it no more. -/
theorem watchEntryGrant_returns {d q off : Nat} {va bound last : Word} {v : List Byte × Bool}
    (h : Waits s c slot t (.waitge d va (.spad q off) bound last false)) (hl : (s.core c).lock = none)
    (hn : NoAct s (.watchEntryGrant c slot)) (hd : ∀ q, NoDue s q) (hv : v = readPlace s c (.spad q off) 8)
    (hp : v.2 = false) (hroom : storeRoom s c (.spad q off) = true)
    (hfirst : s.entryWait.head? = some (⟨c, slot⟩, .spad q off)) (hle : bound.toNat ≤ (leWord v.1).toNat) :
    ∃ s', exec (.watchEntryGrant c slot) s = .next s' ∧ Resumed s' c slot (t.setG d (leWord v.1)) := by
  have hread : geRead (withoutEntryWait s ⟨c, slot⟩) c (.spad q off) = (withoutEntryWait s ⟨c, slot⟩, v) := by
    rw [hv]
    exact geRead_unpaired (s := withoutEntryWait s ⟨c, slot⟩) hd hl _
  have hends : entryGe (withoutEntryWait s ⟨c, slot⟩) ⟨c, slot⟩ d va (.spad q off) bound =
      finishWait (writeG (withoutEntryWait s ⟨c, slot⟩) c slot d (leWord v.1)) c slot := by
    unfold entryGe
    simp only [hread, hp, hle, Bool.false_eq_true, if_false, if_true]
  have hexec : exec (.watchEntryGrant c slot) s =
      .next (finishWait (writeG (withoutEntryWait s ⟨c, slot⟩) c slot d (leWord v.1)) c slot) := by
    rw [watchEntryGrant_first h hroom hfirst, hends]
    exact congrArg _ (settleAct_finish hn (fun _ hx => hx))
  exact ⟨_, hexec, h.finish _ (h.withoutEntryWait _).thread d _⟩

/-- R15: a WAITING thread falls asleep. -/
theorem sleepNow_waiting (ht : s.thread? c slot = some t) (hc : t.code = .waiting) (ha : t.away = false) (w : Wait) :
    sleepNow s ⟨c, slot⟩ w = postCtx (s.setThread c slot
      { t with code := .sleeping, wait := w, sleepFor := 0, since := (s.core c).cyc }) c := by
  unfold sleepNow
  simp only [ht, hc, ha, Bool.false_eq_true, if_false]

/-- R130: a WAITGE that gets its entry and falls short sleeps under its temporary watch. -/
theorem watchEntryGrant_sleeps {d q off : Nat} {va bound last : Word} {v : List Byte × Bool}
    (h : Waits s c slot t (.waitge d va (.spad q off) bound last false)) (hc : t.code = .waiting)
    (hl : (s.core c).lock = none)
    (hn : NoAct s (.watchEntryGrant c slot)) (hd : ∀ q, NoDue s q) (hv : v = readPlace s c (.spad q off) 8)
    (hp : v.2 = false) (hroom : storeRoom s c (.spad q off) = true)
    (hfirst : s.entryWait.head? = some (⟨c, slot⟩, .spad q off)) (hlt : (leWord v.1).toNat < bound.toNat) :
    ∃ s', exec (.watchEntryGrant c slot) s = .next s' ∧
      s'.thread? c slot = some { t with code := .sleeping, sleepFor := 0, since := (s.core c).cyc,
                                        wait := .waitge d va (.spad q off) bound (leWord v.1) true } ∧
      s'.watches = s.watches ++ [geWatch ⟨c, slot⟩ (.spad q off)] ∧
      (⟨c, slot⟩ : TRef) ∉ s'.entryWait.map (·.1) := by
  have hread : geRead (withoutEntryWait s ⟨c, slot⟩) c (.spad q off) = (withoutEntryWait s ⟨c, slot⟩, v) := by
    rw [hv]
    exact geRead_unpaired (s := withoutEntryWait s ⟨c, slot⟩) hd hl _
  have hsleeps : entryGe (withoutEntryWait s ⟨c, slot⟩) ⟨c, slot⟩ d va (.spad q off) bound =
      sleepNow (addWatch (withoutEntryWait s ⟨c, slot⟩) (geWatch ⟨c, slot⟩ (.spad q off))) ⟨c, slot⟩
        (.waitge d va (.spad q off) bound (leWord v.1) true) := by
    unfold entryGe
    simp only [hread, hp, Nat.not_le.2 hlt, Bool.false_eq_true, if_false]
  have hadd : addWatch (withoutEntryWait s ⟨c, slot⟩) (geWatch ⟨c, slot⟩ (.spad q off)) =
      withGeWatch s c slot q off := rfl
  rw [hadd, sleepNow_waiting (h.withGeWatch q off).thread hc h.here, withGeWatch_core] at hsleeps
  have hrest : CoreOnly (withGeWatch s c slot q off) (postCtx ((withGeWatch s c slot q off).setThread c slot
      { t with code := .sleeping, wait := .waitge d va (.spad q off) bound (leWord v.1) true, sleepFor := 0
               since := (s.core c).cyc }) c) c := (CoreOnly.setThread ..).trans (CoreOnly.postCtx ..)
  have hexec := watchEntryGrant_first h hroom hfirst
  rw [hsleeps, settleAct_noAct (hn.of_dir (hrest.field (·.dir) (fun _ => rfl)))] at hexec
  refine ⟨_, hexec, ?_, hrest.field (·.watches) (fun _ => rfl), ?_⟩
  · rw [State.thread?, postCtx_core]
    exact State.thread?_setThread_self ..
  · rw [show (postCtx _ c).entryWait = (withGeWatch s c slot q off).entryWait from
      hrest.field (·.entryWait) (fun _ => rfl)]
    simp [withGeWatch, withoutEntryWait]

/-! ## A full bit changes (R116) -/

theorem setFull_false {off : Nat} (hq : ∀ q ∈ s.queries, q.answer = none) :
    setFull s c off false = s.modCore c (emptied off) := by
  unfold setFull
  simp only [Bool.false_eq_true, if_false]
  rw [List.find?_eq_none.2 (fun q hm => by simp [hq q hm])]
  rfl

/-- The watch of a thread that waits on the word `off` of a scratchpad. -/
def feWatch (c slot off : Nat) : Watch := { place := .spad c (8 * off), thread := ⟨c, slot⟩, kind := .fe }

/-- The state after the only watch is gone and the word it waited for is empty. -/
def releasedFe (s : State) (c off : Nat) : State :=
  (postEntries { s with watches := [] }).modCore c (emptied (8 * off))

/-- R116: an LDFE whose word has become full is next. -/
theorem feNext_load {off d : Nat} {va data : Word} {p : Place} {e : Bool}
    (h : Waits s c slot t (.fe true d va p data e))
    (hw : s.watches = [feWatch c slot off]) (hfull : off ∈ (s.core c).full) :
    feNext s c (8 * off) = some (feWatch c slot off) := by
  simp [feNext, hw, feWatch, h.thread, h.wait, fullBit, hfull, Nat.mul_comm]

/-- R116: an LDFE whose word has become full reads it and empties it. -/
theorem feRelease_load {off d : Nat} {va data : Word} {p : Place} {e : Bool}
    (h : Waits s c slot t (.fe true d va p data e)) (hw : s.watches = [feWatch c slot off])
    (hfull : off ∈ (s.core c).full) (hu : Unpoisoned (s.core c) (8 * off) 8)
    (hq : ∀ q ∈ s.queries, q.answer = none) :
    feRelease s c (8 * off) = finishWait (writeG (releasedFe s c off) c slot d
      (leWord (Mem.readN (s.core c).spad (8 * off) 8))) c slot := by
  have haligned : 8 * off / 8 * 8 = 8 * off := by omega
  have hgone : s.watches.filter (· != feWatch c slot off) = [] := by simp [hw]
  have hcore : (postEntries { s with watches := [] }).core c = s.core c := by
    rw [State.core, postEntries_cores]
    rfl
  have hqueries : (postEntries { s with watches := [] }).queries = s.queries := by
    have hrest := congrArg State.queries (postEntries_rest { s with watches := [] })
    exact hrest
  have hempty : setFull (postEntries { s with watches := [] }) c (8 * off) false = releasedFe s c off :=
    setFull_false (by rw [hqueries]; exact hq)
  have hquiet : (releasedFe s c off).watches = [] := by
    rw [releasedFe, State.modCore_watches, postEntries_watches]
  have hwake : wakeLine (releasedFe s c off) (.spad c (8 * off)) = releasedFe s c off :=
    wakeLine_spad (by simp [hquiet]) _
  have hthread : s.thread? (feWatch c slot off).thread.core (feWatch c slot off).thread.slot = some t := h.thread
  unfold feRelease
  simp only [haligned, feNext_load h hw hfull, hthread, h.wait, hgone, hcore, spadPoison_false hu, hempty, hwake,
    Bool.false_eq_true, if_false, if_true]
  rfl

/-- R116: an LDFE whose word has become full gets it; the word is empty, and nothing waits for it. -/
theorem feWaiterRelease_load {off d : Nat} {va data : Word} {p : Place} {e : Bool}
    (h : Waits s c slot t (.fe true d va p data e)) (hw : s.watches = [feWatch c slot off])
    (hfull : off ∈ (s.core c).full) (hu : Unpoisoned (s.core c) (8 * off) 8)
    (hq : ∀ q ∈ s.queries, q.answer = none) :
    ∃ s', exec (.feWaiterRelease c off) s = .next s' ∧ s'.watches = [] ∧ off ∉ (s'.core c).full ∧
      Resumed s' c slot (t.setG d (leWord (Mem.readN (s.core c).spad (8 * off) 8))) := by
  have hquiet : ∀ v, (finishWait (writeG (releasedFe s c off) c slot d v) c slot).watches = [] := fun v => by
    rw [finish_watches, releasedFe, State.modCore_watches, postEntries_watches]
  have hfullOf : ∀ v, ((finishWait (writeG (releasedFe s c off) c slot d v) c slot).core c).full =
      ((releasedFe s c off).core c).full := fun v => by
    have hbare := (bare_finishWait _ c slot c).trans (bare_writeG (releasedFe s c off) c slot d v c)
    have hfield := congrArg Core.full hbare
    exact hfield
  have hthread : (releasedFe s c off).thread? c slot = some t := by
    rw [releasedFe, State.thread?, State.core_modCore_self]
    exact (postEntries_thread ..).trans h.thread
  refine ⟨_, ?_, hquiet _, ?_, h.finish _ hthread d _⟩
  · rw [exec_feWaiterRelease]
    unfold execFeWaiterRelease
    simp only [feRelease_load h hw hfull hu hq]
    rw [feNext_none (by simp [hquiet])]
  · rw [hfullOf, releasedFe, State.core_modCore_self]
    simp [emptied]

end

/-- Settles O34: sleeps end at WLIM (`wlimExpiry_ends`, `wlimExpiry_faults`), by a WAITGE's new reading
(`waitgeRecheck_returns`, `waitgeRecheck_sleeps`), by an entry that has come free (`watchEntryGrant_returns`,
`watchEntryGrant_sleeps`) and by the change of a full bit (`feWaiterRelease_load`). -/
theorem sleepsEndWithTheirResults : Obligations.SleepsEndWithTheirResults := by
  unfold Obligations.SleepsEndWithTheirResults
  refine ⟨?limit, ?recheck, ?entry, ?fullBit⟩
  case limit =>
    intro c slot s t w h hl hw
    refine ⟨fun d v => wlimExpiry_ends h hl hw, ?_⟩
    rintro load d va p data e rfl
    exact wlimExpiry_faults h hl hw
  case recheck =>
    intro c slot s t d va p bound last v h hl ht hd hv hp
    exact ⟨waitgeRecheck_returns h hl ht hd hv hp, waitgeRecheck_sleeps h hl ht hd hv hp⟩
  case entry =>
    intro c slot s t d va q off bound last v h hc hl ht hd hv hp hroom hfirst
    exact ⟨watchEntryGrant_returns h hl ht.noAct hd hv hp hroom hfirst,
      watchEntryGrant_sleeps h hc hl ht.noAct hd hv hp hroom hfirst⟩
  case fullBit =>
    rintro c off s _ slot t d va data h rfl hw hfull hu hq -
    exact feWaiterRelease_load h hw hfull hu hq

end Sys2Proof
end

section
/-!
Watches recorded, PMS written, walks completed and terms expired (R126, R329, R330, R340, R365).
-/
namespace Sys2Proof
open Machine

section
variable {s : State} {c slot : Nat} {t : Thread}

/-! ## Watches recorded (R126) -/

/-- The piece of a WATCH of a scratchpad line. -/
def watchPiece (va : Word) (q off : Nat) : MUnit :=
  { va := va, size := 1, op := .watch, place := some (.spad q off), sent := true, out := none }

/-- The byte in which a watch store answers its code. -/
def codeByte (s : State) (r : TRef) (q off : Nat) : List Byte := [BitVec.ofNat 8 (armCode s r q off)]

/-- An access with its first piece performed. -/
def firstDone (a : Access) (o : List Byte) : Access := { a with units := setOut a.units 0 o }

/-- R126: the store has recorded a watch, and the access that waited for it has its code. -/
def recordedWatch (s : State) (c slot : Nat) (t : Thread) (a : Access) (q off : Nat) : State :=
  ({ s with watches := armed s ⟨c, slot⟩ q off } : State).setThread c slot
    (putAcc t none (firstDone a (codeByte s ⟨c, slot⟩ q off)))

theorem watchRecorded_acts {a : Access} {va : Word} {q off : Nat} (h : Waits s c slot t (.access a))
    (hu : a.units = [watchPiece va q off]) :
    exec (.watchRecorded c slot) s = .next (settleAct
      (completeIfDone (recordedWatch s c slot t a q off) ⟨c, slot⟩ none) (.watchRecorded c slot)) := by
  have hthread : ({ s with watches := armed s ⟨c, slot⟩ q off } : State).thread? c slot = some t := h.thread
  rw [exec_watchRecorded, execWatchRecorded, waitedPiece_one h.thread h.wait hu rfl]
  simp only [watchPiece, portLost, Bool.false_eq_true, if_false, if_true, atPlace, watchUnit, armWatch_spad, modAcc,
    hthread, accOf_waited h.wait]
  rfl

/-- R126: a watch is recorded where the order of the codes has it so, and its code is answered. -/
theorem watchRecorded_answers {a : Access} {va : Word} {q off d : Nat} (h : Waits s c slot t (.access a))
    (hu : a.units = [watchPiece va q off]) (hf : a.fin = .status d) (hn : NoAct s (.watchRecorded c slot)) :
    ∃ s', exec (.watchRecorded c slot) s = .next s' ∧
      Resumed s' c slot (t.setG d (BitVec.ofNat 64 (armCode s ⟨c, slot⟩ q off))) ∧
      s'.watches = armed s ⟨c, slot⟩ q off := by
  have hw : Waits (recordedWatch s c slot t a q off) c slot _ _ := h.performed _ _
  obtain ⟨R, C, -⟩ := completeIfDone_g hw d (u := doneUnit (watchPiece va q off) (codeByte s ⟨c, slot⟩ q off))
    (codeByte s ⟨c, slot⟩ q off) (by rw [firstDone, hu]; rfl) rfl (.inr hf)
  have hset : CoreOnly { s with watches := armed s ⟨c, slot⟩ q off } (recordedWatch s c slot t a q off) c :=
    .setThread ..
  have hrest := hset.trans C
  refine ⟨_, ?_, ?_, hrest.field (·.watches) (fun _ => rfl)⟩
  · rw [watchRecorded_acts h hu, settleAct_noAct (hn.of_dir (hrest.field (·.dir) (fun _ => rfl)))]
  · rw [← leWord_code (armCode_lt s ⟨c, slot⟩ q off)]
    exact R.of_access

/-! ## PMS (R365) -/

/-- The piece of a store to PMS. -/
def pmsPiece (va : Word) (bs : List Byte) : MUnit :=
  { va := va, size := 8, op := .store bs, place := some (.dev 0x80), sent := true, out := none }

/-- R365: a store to PMS keeps the value and its translation, and its thread goes on. -/
theorem pmsWrite_keeps {a : Access} {va : Word} {bs : List Byte} {m : Option Nat} (h : Waits s c slot t (.access a))
    (hu : a.units = [pmsPiece va bs]) (hf : a.fin = .none) (hm : pmsTranslate s c t (leWord bs) = (s, .ok m)) :
    ∃ s', exec (.pmsWrite c slot) s = .next s' ∧
      Resumed s' c slot { t with pms := leWord bs &&& ~~~7#64, pmsPhys := m } := by
  have h1 : Waits (s.setThread c slot { t with pms := leWord bs &&& ~~~7#64, pmsPhys := m }) c slot
      { t with pms := leWord bs &&& ~~~7#64, pmsPhys := m } (.access a) :=
    ⟨State.thread?_setThread_self .., h.wait, h.code, h.notStepped, h.here⟩
  obtain ⟨R, -⟩ := completeIfDone_none (h1.performed (s.setThread c slot
    { t with pms := leWord bs &&& ~~~7#64, pmsPhys := m }) (firstDone a []))
    (by simp [firstDone, hu, setOut_one, doneUnit]) hf
  have hwrite : pmsWrite s c slot t (leWord bs) =
      (s.setThread c slot { t with pms := leWord bs &&& ~~~7#64, pmsPhys := m }, .ok ()) := by
    unfold pmsWrite
    simp only [hm, State.modThread_eq h.thread]
  refine ⟨_, ?_, ⟨R.thread, R.queued⟩⟩
  rw [exec_pmsWrite, execPmsWrite, waitedPiece_one h.thread h.wait hu (by simp [pmsPiece])]
  simp only [h.thread, pmsPiece, hwrite, modAcc, h1.thread, accOf_waited h1.wait]
  rfl

end

/-! ## Walks (R329, R330) -/

section
variable {s : State} {k : Walk} {id a : Nat}

/-- R329, R346: a walk that has its turn at the home of its next entry makes its next step. -/
theorem walkComplete_steps (hk : s.walks.find? (fun k => k.id = id) = some k) (hm : k.marked = false)
    (hr : walkReads s k.part k.proc k.va.toNat k.pos = some a)
    (ht : InTurn s (.walkComplete id) (.page .coherent s.pkg (a / 64 * 64)) false) :
    exec (.walkComplete id) s = .next (settleAct (stepWalk s k) (.walkComplete id)) := by
  rw [exec_walkComplete, execWalkComplete]
  simp only [hk, hm, hr, atPlace_inTurn ht, Bool.false_eq_true, if_false]

/-- R329: an entry that names a table keeps the walk going, at its next entry. -/
theorem walkComplete_table {lvl b : Nat} (hk : s.walks.find? (fun k => k.id = id) = some k) (hm : k.marked = false)
    (hr : walkReads s k.part k.proc k.va.toNat k.pos = some a)
    (ht : InTurn s (.walkComplete id) (.page .coherent s.pkg (a / 64 * 64)) false)
    (hp : walkStep s k.part k.proc k.va.toNat k.pos = .table lvl b) :
    ∃ s', exec (.walkComplete id) s = .next s' ∧ .walkComplete id ∈ s'.agenda ∧
      s'.walks = s.walks.map (fun x => if x.id = id then { k with pos := .table lvl b } else x) := by
  obtain rfl : k.id = id := by simpa using List.find?_some hk
  have hstep : stepWalk s k = ({ s with walks := s.walks.map (fun x =>
      if x.id = k.id then { k with pos := .table lvl b } else x) } : State).post (.walkComplete k.id) := by
    unfold stepWalk
    simp only [hp]
  have hkeeps : NoAct (stepWalk s k) (.walkComplete k.id) := by
    rw [hstep]
    exact ht.noAct
  refine ⟨_, walkComplete_steps hk hm hr ht, ?_, ?_⟩
  · rw [settleAct_noAct hkeeps, hstep]
    simp [State.post]
  · rw [settleAct_noAct hkeeps, hstep]
    rfl

/-- R330: an entry that maps its page ends the walk: the translation is cached and the waiters are served. -/
theorem walkComplete_leaf {e : Tlb} (hk : s.walks.find? (fun k => k.id = id) = some k) (hm : k.marked = false)
    (hr : walkReads s k.part k.proc k.va.toNat k.pos = some a)
    (ht : InTurn s (.walkComplete id) (.page .coherent s.pkg (a / 64 * 64)) false)
    (hp : walkStep s k.part k.proc k.va.toNat k.pos = .leaf e) :
    exec (.walkComplete id) s = .next (settleAct (serveWaiters (tlbAdd { s with
      walks := s.walks.filter (fun x => x.id != id) } k.ws e) { k with pos := .leaf e } k.waiters)
      (.walkComplete id)) := by
  obtain rfl : k.id = id := by simpa using List.find?_some hk
  rw [walkComplete_steps hk hm hr ht]
  unfold stepWalk
  simp only [hp, endWalk]

end

/-! ## Terms (R340) -/

section
variable {s : State} {agent line : Nat} {l : CLine} {e : Nat}

/-- R340: a copy in an L1 whose term has ended is dropped. -/
theorem copyTermExpiry_l1 (ha : isL1 agent = true) (hk : Map.get? (s.core agent).l1 line = some l)
    (ht : l.term = some e) (he : e ≤ (s.core agent).cyc) :
    ∃ s', exec (.copyTermExpiry agent line) s = .next s' ∧ CoreOnly s s' agent ∧
      (s'.core agent).l1 = Map.erase (s.core agent).l1 line := by
  refine ⟨s.modCore agent (fun k => { k with l1 := Map.erase k.l1 line }), ?_, .modCore .., ?_⟩
  · rw [exec_copyTermExpiry, execCopyTermExpiry]
    simp only [ha, hk, Option.bind_some, ht, he, decide_true, if_true]
  · rw [State.core_modCore_self]

/-- R340: a copy in an RDC whose term has ended is dropped. -/
theorem copyTermExpiry_rdc (ha : isL1 agent = false) (hk : Map.get? (rdcOf s (agent - 0xC00)) line = some l)
    (ht : l.term = some e) (he : e ≤ s.now) :
    exec (.copyTermExpiry agent line) s =
      .next (setRdc s (agent - 0xC00) (Map.erase (rdcOf s (agent - 0xC00)) line)) := by
  rw [exec_copyTermExpiry, execCopyTermExpiry]
  simp only [ha, hk, Option.bind_some, ht, he, decide_true, Bool.false_eq_true, if_false, if_true]

end

/-- Settles O36: a watch recorded (`watchRecorded_answers`), PMS written (`pmsWrite_keeps`), a walk's step
(`walkComplete_table`, `walkComplete_leaf`) and a copy dropped (`copyTermExpiry_l1`, `copyTermExpiry_rdc`). -/
theorem watchesWalksAndTermsAreSettled : Obligations.WatchesWalksAndTermsAreSettled := by
  unfold Obligations.WatchesWalksAndTermsAreSettled
  refine ⟨?watch, ?pms, ?walk, ?term⟩
  case watch =>
    rintro c slot s t a va q off d _ code h hu hf rfl hcode hn
    obtain rfl : code = BitVec.ofNat 64 (armCode s ⟨c, slot⟩ q off) := hcode.trans (armCode_word ..).symm
    obtain ⟨s', hexec, hres, hwatches⟩ := watchRecorded_answers h hu hf hn
    exact ⟨s', hexec, hres, hwatches.trans (armed_of_word ..)⟩
  case pms =>
    intro c slot s t a va bs m h hu hf hm
    exact pmsWrite_keeps h hu hf hm
  case walk =>
    rintro id s k _ a hk hm rfl hr ht
    refine ⟨fun lvl b hp => ?_, fun e hp => ?_⟩
    · rw [hp]
      exact walkComplete_table hk hm hr ht hp
    · rw [hp]
      exact walkComplete_leaf hk hm hr ht hp
  case term =>
    intro agent line s l e ht
    exact ⟨fun ha hk he => copyTermExpiry_l1 ha hk ht he, fun ha hk he => copyTermExpiry_rdc ha hk ht he⟩

end Sys2Proof
end

section
/-!
PREFR (R135): bringing lines into the caches changes nothing of a core but its lines.
-/
namespace Sys2Proof
open Machine

/-! ## The caches -/

theorem LinesOnly.withCores {s s' : State} (g : Nat → Core → Core)
    (hcores : s'.cores = s.cores.map (fun x => (x.1, g x.1 x.2))) (hg : ∀ q k, noLines (g q k) = noLines k)
    (hagenda : s'.agenda = s.agenda) : LinesOnly s s' := by
  refine ⟨fun x => ?_, fun e he => hagenda ▸ he⟩
  unfold State.core
  rw [hcores, Map.get?_map]
  cases Map.get? s.cores x with
  | none => rfl
  | some k => exact hg x k

theorem LinesOnly.foldl {α : Type} {f : State → α → State} (hf : ∀ s a, LinesOnly s (f s a)) (l : List α) (s : State) :
    LinesOnly s (l.foldl f s) := by
  induction l generalizing s with
  | nil => exact .refl s
  | cons a l ih => exact (hf s a).trans (ih _)

theorem LinesOnly.writeHome (s : State) (pa : Nat) (bs : List Byte) (p : Bool) : LinesOnly s (writeHome s pa bs p) :=
  .of_eq (writeHome_cores ..) (writeHome_agenda ..)

theorem LinesOnly.dropAgent (s : State) (a key : Nat) : LinesOnly s (dropAgent s a key) := by
  unfold Machine.dropAgent
  split
  · exact .modCore rfl
  · refine .withCores (fun q k => if coreDie q = a - 0xC00 then
      { k with l1 := Map.erase k.l1 key, xbuf := Map.erase k.xbuf key } else k) ?_ ?_ rfl
    · apply List.map_congr_left
      intro x _
      split <;> rfl
    · intro q k
      split <;> rfl

theorem LinesOnly.evictRdc (s : State) (die key : Nat) : LinesOnly s (evictRdc s die key) := by
  unfold Machine.evictRdc
  split
  · exact .refl s
  · simp only
    split
    · have hsent : ∀ (x : Map CLine) (m : Msg), LinesOnly s
          (Machine.sendMsg (setRdcX (Machine.dropAgent s (0xC00 + die) key) die x) m) := fun x m =>
        (LinesOnly.dropAgent ..).trans
          (LinesOnly.trans (s1 := setRdcX (Machine.dropAgent s (0xC00 + die) key) die x) (.of_eq rfl rfl)
            (.sendMsg ..))
      split <;> split
      · exact .dropAgent ..
      · exact hsent ..
      · exact .dropAgent ..
      · exact hsent ..
    · refine LinesOnly.trans (.foldl (fun s x => ?_) _ _) (.dropAgent ..)
      split
      · split
        · exact .writeHome ..
        · exact .refl s
      · exact .refl s
    · exact .dropAgent ..
    · exact .of_eq rfl rfl

theorem LinesOnly.rdcPut (s : State) (die key : Nat) (l : CLine) : LinesOnly s (rdcPut s die key l) := by
  simp only [Machine.rdcPut]
  split
  · exact .of_eq rfl rfl
  · exact LinesOnly.trans (s1 := { s with free := s.free + 1 }) (.of_eq rfl rfl)
      (LinesOnly.trans (.evictRdc ..) (.of_eq rfl rfl))

theorem LinesOnly.setRdc (s : State) (die : Nat) (m : Map CLine) : LinesOnly s (setRdc s die m) := .of_eq rfl rfl

theorem LinesOnly.touchL1 (s : State) (c key : Nat) : LinesOnly s (touchL1 s c key) := .modCore rfl

theorem LinesOnly.fetchPriv (s : State) (c pa : Nat) : LinesOnly s (fetchPriv s c pa) := by
  simp only [Machine.fetchPriv]
  split
  · exact .touchL1 ..
  · refine LinesOnly.trans ?_ (.fillL1 ..)
    split
    · exact .refl s
    · exact .rdcPut ..

theorem LinesOnly.fetchCopy (s : State) (c : Nat) (kind : PageKind) (pkg pa : Nat) :
    LinesOnly s (fetchCopy s c kind pkg pa) := by
  simp only [Machine.fetchCopy]
  split
  · exact .touchL1 ..
  · split
    · exact .fillL1 ..
    · split
      · exact .refl s
      · refine LinesOnly.trans ?_ (.fillL1 ..)
        split
        · exact .refl s
        · exact .rdcPut ..

theorem LinesOnly.flushHost (s : State) (key : Nat) : LinesOnly s (flushHost s key) := by
  unfold Machine.flushHost
  split
  · exact .refl s
  · have hdrop : LinesOnly s (dropHostL1 { s with hostLines := Map.erase s.hostLines key } (key % 2 ^ 40)) :=
      .withCores (fun _ k => { k with l1 := Map.erase k.l1 (hostKey s (key % 2 ^ 40)) }) rfl (fun _ _ => rfl) rfl
    simp only
    split
    · exact hdrop.trans (.of_eq rfl rfl)
    · exact hdrop

theorem LinesOnly.hostRoom (s : State) (die : Nat) : LinesOnly s (hostRoom s die) := by
  unfold Machine.hostRoom
  split
  · exact .refl s
  · split
    · exact .flushHost ..
    · exact .refl s

theorem LinesOnly.fetchHost (s : State) (c pa : Nat) : LinesOnly s (fetchHost s c pa) := by
  have hused : ∀ (u : State) (m : Map CLine) (key : Nat) (l : CLine), LinesOnly s u →
      LinesOnly s (if Map.has ((({ u with hostLines := m } : State).core c).l1) key then
        Machine.touchL1 { u with hostLines := m } c key else Machine.fillL1 { u with hostLines := m } c key l) := by
    intro u m key l hu
    have hm : LinesOnly s { u with hostLines := m } := hu.trans (.of_eq rfl rfl)
    split
    · exact hm.trans (.touchL1 ..)
    · exact hm.trans (.fillL1 ..)
  simp only [Machine.fetchHost]
  split
  · exact hused s _ _ _ (.refl s)
  · refine hused _ _ _ _ (LinesOnly.trans ?_ (.hostRoom ..))
    split
    · exact .of_eq rfl rfl
    · exact .refl s

/-! ## Requests -/

theorem LinesOnly.dropOthers (s : State) (die c key : Nat) : LinesOnly s (dropOthers s die c key) := by
  refine .withCores (fun q k => if coreDie q = die && q != c then
    { k with l1 := Map.erase k.l1 key, xbuf := Map.erase k.xbuf key } else k) ?_ ?_ rfl
  · apply List.map_congr_left
    intro x _
    split <;> rfl
  · intro q k
    split <;> rfl

theorem LinesOnly.rdcGrant (s : State) (c key : Nat) (l : CLine) (write : Bool) :
    LinesOnly s (rdcGrant s c key l write) := by
  simp only [Machine.rdcGrant]
  split
  · exact (LinesOnly.dropOthers ..).trans (LinesOnly.trans (.setRdc ..) (.fillL1 ..))
  · refine LinesOnly.trans ?_ (LinesOnly.trans (.setRdc ..) (.fillL1 ..))
    split
    · exact .modCore rfl
    · exact .refl s

theorem LinesOnly.askLine (s : State) (r : TRef) (rid : Option Nat) (pa : Nat) (write : Bool) :
    LinesOnly s (askLine s r rid pa write).1 := by
  simp only [Machine.askLine]
  split
  · exact .sendMsg ..
  · split
    · exact .refl s
    · split
      · split
        · exact .rdcGrant ..
        · exact .sendMsg ..
      · exact .sendMsg ..

theorem translate_agenda (s : State) (w part proc : Nat) (va : Word) (wr : Bool) :
    (translate s w part proc va wr).1.agenda = s.agenda := by
  unfold Machine.translate
  split
  · rfl
  · simp only
    split <;> split <;> rfl

theorem LinesOnly.resolve (s : State) (q part proc : Nat) (va : Word) (k : AKind) :
    LinesOnly s (resolve s q part proc va k).1 := by
  have htranslate : LinesOnly s (translate s (coreWs s q) part proc va k.writes).1 :=
    .of_eq (translate_cores ..) (translate_agenda ..)
  unfold Machine.resolve
  split
  · exact .refl s
  · exact .refl s
  · split
    · next h => rwa [h] at htranslate
    · next h =>
      rw [h] at htranslate
      split <;> exact htranslate

/-! ## The hint (R135) -/

theorem LinesOnly.prefetchLine (s : State) (r : TRef) (t : Thread) (va : Word) :
    LinesOnly s (prefetchLine s r t va) := by
  have hresolve := LinesOnly.resolve s r.core t.part t.proc va .ld
  simp only [Machine.prefetchLine]
  split
  · split <;> (rename_i h; rw [h] at hresolve; refine hresolve.trans ?_)
    · exact .fetchPriv ..
    · exact .fetchCopy ..
    · exact .fetchHost ..
    · split
      · exact .refl _
      · exact LinesOnly.trans (.askLine ..) (.of_eq rfl rfl)
    · split
      · exact .fetchCopy ..
      · exact .of_eq rfl rfl
    · exact .refl _
  · exact .refl s

theorem LinesOnly.prefetchLines (r : TRef) (t : Thread) (n : Nat) : ∀ (s : State) (va : Nat),
    LinesOnly s (prefetchLines s r t va n) := by
  induction n with
  | zero => exact fun s _ => .refl s
  | succ n ih => exact fun s va => (LinesOnly.prefetchLine ..).trans (ih ..)

theorem LinesOnly.lock {s s' : State} (h : LinesOnly s s') (x : Nat) : (s'.core x).lock = (s.core x).lock := by
  have hfield := congrArg Core.lock (h.cores x)
  exact hfield

/-- A thread whose core owes no commit for it, and that is not being stepped, is done with its instruction. -/
theorem afterIssue_done {s : State} {c slot : Nat} {t : Thread} (h : s.thread? c slot = some t)
    (hs : t.stepping = none) (hl : ∀ L, (s.core c).lock = some L → L.after.contains slot = false) :
    afterIssue s c slot = s := by
  have hcommit : postCommit s c slot = s := by
    unfold postCommit
    cases hL : (s.core c).lock with
    | none => rfl
    | some L => simp only [hl L hL, Bool.false_eq_true, if_false]
  unfold afterIssue
  simp only [h, hcommit]
  split
  · simp [stepFault, h, Thread.stepped, hs]
  · rfl

section
variable {g : BitVec 3} {a b : BitVec 7} {s : State} {c slot : Nat} {t : Thread}

/-- What PREFR names. -/
def dPrefr (g : BitVec 3) (a b : BitVec 7) : Desc := { guard := g, g := [a.toNat, b.toNat] }

/-- R135: PREFR completes in its turn; with a length of 0 it fetches nothing. -/
theorem prefr_completes (h : Issues (dPrefr g a b) s c slot t) (hp : Plain s c slot t) :
    ∃ s', exec (.prefr g a b) s = .next s' ∧ s'.thread? c slot = some (past (.prefr g a b) 4 t) ∧
      ((t.gv b.toNat).toNat % 2 ^ 40 = 0 → Becomes s s' c slot (past (.prefr g a b) 4 t)) := by
  have B := atIssue_becomes (i := .prefr g a b) (d := dPrefr g a b) h.turn hp.notStepped (.inl rfl)
  have hlines := LinesOnly.prefetchLines ⟨c, slot⟩ (reading (.prefr g a b) t)
    (prefetchCount (t.gv a.toNat) (t.gv b.toNat)) (atIssue (.prefr g a b) (dPrefr g a b) s c slot t)
    ((t.gv a.toNat).toNat / 64 * 64)
  have hthread := (hlines.thread c slot).trans B.thread
  refine ⟨_, ?_, hthread, fun hzero => ?_⟩
  · rw [exec_prefr, show execPrefr g a b = issue (.prefr g a b) (dPrefr g a b) _ from rfl, issue_next h]
    refine congrArg _ (afterIssue_done hthread (by simpa using past_stepping hp.notStepped) (fun L hL => ?_))
    exact hp.noCommit L (((hlines.lock c).trans B.lock).symm.trans hL)
  · have hcount : prefetchCount (t.gv a.toNat) (t.gv b.toNat) = 0 := by
      have hlength : bitsOf (t.gv b.toNat).toNat 0 40 = 0 := by simpa [bitsOf] using hzero
      simp [prefetchCount, hlength]
    rw [hcount]
    exact B

end

end Sys2Proof
end

section
/-!
FENCE, the range operations and CHKPT (R125, R132, R198, R385).
-/
namespace Sys2Proof
open Machine

/-! ## FENCE (R125) -/

section
variable {g : BitVec 3} {cw eng rel : BitVec 1} {scope : BitVec 3} {s : State} {c slot : Nat} {t : Thread}

/-- What FENCE names: REL waits for the relaxed accesses, and a pair commits at a scope of 3 or 4. -/
def dFence (g : BitVec 3) (rel : BitVec 1) (scope : BitVec 3) : Desc :=
  { guard := g, drain := rel = 1#1, commit := fun _ => decide (3 ≤ scope.toNat) }

/-- R125: FENCE goes on where its conditions hold. -/
theorem fence_completes (h : Issues (dFence g rel scope) s c slot t) (hp : Plain s c slot t)
    (hl : (s.core c).lock = none)
    (hf : fenceHolds (atIssue (.fence g cw eng rel scope) (dFence g rel scope) s c slot t) ⟨c, slot⟩ (cw = 1#1)
      (eng = 1#1) scope.toNat = true) :
    ∃ s', exec (.fence g cw eng rel scope) s = .next s' ∧
      Becomes s s' c slot (past (.fence g cw eng rel scope) 4 t) := by
  have B := atIssue_becomes (i := .fence g cw eng rel scope) (d := dFence g rel scope) h.turn hp.notStepped (.inr hl)
  refine ⟨_, ?_, B⟩
  rw [exec_fence, show execFence g cw eng rel scope = issue _ (dFence g rel scope) _ from rfl, issue_next h, if_pos hf,
    afterIssue_eq B hp (by simpa using past_stepping hp.notStepped)]

/-- R125: FENCE leaves the rotation until its conditions hold. -/
theorem fence_waits (h : Issues (dFence g rel scope) s c slot t) (hp : Plain s c slot t)
    (hl : (s.core c).lock = none)
    (hf : fenceHolds (atIssue (.fence g cw eng rel scope) (dFence g rel scope) s c slot t) ⟨c, slot⟩ (cw = 1#1)
      (eng = 1#1) scope.toNat = false) :
    ∃ s', exec (.fence g cw eng rel scope) s = .next s' ∧ Left (.fence g cw eng rel scope) s s' c slot t .waiting
      (.fence (cw = 1#1) (eng = 1#1) (rel = 1#1) scope.toNat) s.watches := by
  have B := atIssue_becomes (i := .fence g cw eng rel scope) (d := dFence g rel scope) h.turn hp.notStepped (.inr hl)
  have L := Left.begin B .waiting (.fence (cw = 1#1) (eng = 1#1) (rel = 1#1) scope.toNat)
  exact ⟨_, leaves_of exec_fence h (if_neg (by simpa [dFence] using hf)) L.thread (by simp), L⟩

end

/-! ## Range operations (R132) -/

section
variable {g : BitVec 3} {d a b : BitVec 7} {s : State} {c slot : Nat} {t : Thread}

/-- R132: a range operation leaves the rotation, and its act is to come. -/
theorem opRange_leaves {i : Instr} {op : Nat} (he : exec i = opRange i g d a b op)
    (h : Issues (dRRR g d a b) s c slot t) (hp : Plain s c slot t) (hl : (s.core c).lock = none) :
    ∃ s', exec i s = .next s' ∧ .accessComplete c slot ∈ s'.agenda ∧
      Left i s s' c slot t .waiting (.range op d.toNat (t.gv a.toNat) (t.gv b.toNat) none) s.watches := by
  have hi := h.commit (fun _ => true)
  have B := atIssue_becomes (i := i) (d := { dRRR g d a b with commit := fun _ => true }) hi.turn hp.notStepped
    (.inr hl)
  have L := (Left.begin B .waiting (.range op d.toNat (t.gv a.toNat) (t.gv b.toNat) none)).post (.accessComplete c slot)
  exact ⟨_, leaves_of he hi rfl L.thread (by simp), by simp, L⟩

/-- R132: a length of 0 covers no line: the result is 0. -/
theorem rangeAct_empty {op d : Nat} {va ctl : Word} (h : ctl.toNat % 2 ^ 40 = 0) :
    rangeAct s c slot t op d va ctl = finishWait (writeG s c slot d 0#64) c slot := by
  have hlength : bitsOf ctl.toNat 0 40 = 0 := by simpa [bitsOf] using h
  unfold rangeAct
  simp [rangeOf, hlength, count, discardRight, countDiscards, rangeLines, hostRanges]

theorem accessComplete_emptyRange {op d : Nat} {va ctl : Word} (h : Waits s c slot t (.range op d va ctl none))
    (hn : ctl.toNat % 2 ^ 40 = 0) :
    ∃ s', exec (.accessComplete c slot) s = .next s' ∧ Resumed s' c slot (t.setG d 0#64) := by
  refine ⟨_, ?_, h.finish s h.thread d 0#64⟩
  rw [exec_accessComplete, execAccessComplete]
  simp only [h.thread, h.wait, rangeAct_empty hn]

end

/-! ## CHKPT (R198, R385) -/

section
variable {g : BitVec 3} {d : BitVec 7} {s : State} {c slot : Nat} {t : Thread}

/-- What CHKPT names. -/
def dChkpt (g : BitVec 3) (d : BitVec 7) : Desc :=
  { guard := g, g := [d.toNat], writes := [d.toNat], drain := true }

/-- R198: on a core that is not paired CHKPT gives 0. -/
theorem chkpt_unpaired (h : Issues (dChkpt g d) s c slot t) (hp : Plain s c slot t) (hl : (s.core c).lock = none) :
    ∃ s', exec (.chkpt g d) s = .next s' ∧ Becomes s s' c slot ((past (.chkpt g d) 4 t).setG d.toNat 0#64) :=
  completes_of exec_chkpt h hp hp (.inl rfl) (by simpa using past_stepping hp.notStepped) (fun s1 B => by
    rw [if_pos (by rw [B.lock, hl]; rfl)]
    exact B.writeG _ _)

/-- R198: on a paired core CHKPT waits for the commit. -/
theorem chkpt_paired (h : Issues (dChkpt g d) s c slot t) (hp : Plain s c slot t) (hl : (s.core c).lock ≠ none) :
    ∃ s', exec (.chkpt g d) s = .next s' ∧ .checkpointCommit c ∈ s'.agenda ∧
      Left (.chkpt g d) s s' c slot t .waiting (.chkpt d.toNat) s.watches := by
  have B := atIssue_becomes (i := .chkpt g d) (d := dChkpt g d) h.turn hp.notStepped (.inl rfl)
  have L := (Left.begin B .waiting (.chkpt d.toNat)).post (.checkpointCommit c)
  have hpaired : ¬ ((atIssue (.chkpt g d) (dChkpt g d) s c slot t).core c).lock.isNone = true := by
    rw [B.lock]
    simpa using hl
  exact ⟨_, leaves_of exec_chkpt h (if_neg hpaired) L.thread (by simp), by simp, L⟩

end

/-! ## The commit (R385) -/

section
variable {s : State} {c slot : Nat} {t : Thread} {L : LockStep}

theorem lock_setCore {k : Core} (h : k.lock = (s.core c).lock) (x : Nat) :
    ((s.setCore c k).core x).lock = (s.core x).lock := by
  rw [State.core_setCore]
  split
  · next e => rw [h, e]
  · rfl

theorem rcPut_lock (s : State) (c slot r : Nat) (e : RcState) (x : Nat) :
    ((rcPut s c slot r e).core x).lock = (s.core x).lock := by
  unfold rcPut
  simp only
  split
  · refine lock_setCore ?_ x
    rfl
  · refine lock_setCore (s := s) ?_ x
    rfl

theorem rcWrote_lock (s : State) (c slot r : Nat) (a : Bool) (x : Nat) :
    ((rcWrote s c slot r a).core x).lock = (s.core x).lock := by
  unfold rcWrote
  split
  · refine lock_setCore ?_ x
    rfl
  · exact rcPut_lock ..

theorem writeG_lock (s : State) (c slot d : Nat) (w : Word) (x : Nat) :
    ((writeG s c slot d w).core x).lock = (s.core x).lock := by
  unfold writeG
  split
  · rfl
  · split
    · rfl
    · rw [rcWrote_lock]
      refine lock_setCore ?_ x
      rfl

/-- The lock-step state of a pair after a commit at the cycle `cyc` with these threads. -/
def committed (L : LockStep) (threads : Map Thread) (cyc : Nat) : LockStep :=
  { L with held := [], undo := [], snap := threads, count := (L.count + 1) % 2 ^ 32, mismatches := 0, since := cyc }

/-- A core whose pair has committed. -/
def commitCore (L : LockStep) (k : Core) : Core := { k with lock := some (committed L k.threads k.cyc) }

/-- R385: a commit with no write held takes the checkpoint and nothing else of the core. -/
theorem commitPair_core (hl : (s.core c).lock = some L) (hh : L.held = []) :
    (commitPair s c).core c = commitCore L (s.core c) := by
  unfold commitPair
  simp only [hl, hh, releaseHeld]
  split
  · rw [State.core_modCore_self]
    rfl
  · rw [State.core_post, State.core_modCore_self]
    rfl

/-- R385: the thread of a core that waits in CHKPT receives the count of the commit, which has taken its checkpoint. -/
theorem checkpointCommit_commits {d : Nat} (hl : (s.core c).lock = some L) (hh : L.held = []) (ha : L.after = [])
    (ht : (s.core c).threads = [(slot, t)]) (h : Waits s c slot t (.chkpt d)) :
    ∃ s', exec (.checkpointCommit c) s = .next s' ∧
      Resumed s' c slot (t.setG d (BitVec.ofNat 64 ((L.count + 1) % 2 ^ 32))) ∧
      (s'.core c).lock = some (committed L [(slot, t)] (s.core c).cyc) := by
  have hcore := commitPair_core hl hh
  have hthreads : ((commitPair s c).core c).threads = [(slot, t)] := by rw [hcore, ← ht]; rfl
  have hlock : ((commitPair s c).core c).lock = some (committed L [(slot, t)] (s.core c).cyc) := by
    rw [hcore, ← ht]; rfl
  have hw : Waits (commitPair s c) c slot t (.chkpt d) :=
    h.of_thread (by rw [State.thread?, hthreads, State.thread?, ht])
  have hcount : ckptCount (commitPair s c) c = BitVec.ofNat 64 ((L.count + 1) % 2 ^ 32) := by
    unfold ckptCount
    rw [hlock]
    rfl
  have hwait : waitOf (commitPair s c) ⟨c, slot⟩ = some (.chkpt d) := by simp [waitOf, hw.thread, hw.wait]
  have hkeys : Map.keys ((commitPair s c).core c).threads = [slot] := by rw [hthreads]; rfl
  refine ⟨_, ?_, hw.finish _ hw.thread d _, ?_⟩
  · rw [exec_checkpointCommit, execCheckpointCommit, if_neg (by simp [hl])]
    simp only [hkeys, chkptDone, hwait, hcount]
  · have hwrote := (writeG_lock (commitPair s c) c slot d (BitVec.ofNat 64 ((L.count + 1) % 2 ^ 32)) c).trans hlock
    rw [finishWait_lock hwrote (by simp [committed, ha]), hwrote]

end

/-- Settles O41: FENCE (`fence_completes`, `fence_waits`), the range operations (`opRange_leaves`,
`accessComplete_emptyRange`), PREFR (`prefr_completes`) and CHKPT with its commit (`chkpt_unpaired`, `chkpt_paired`,
`checkpointCommit_commits`). -/
theorem fencesRangesAndCheckpoints : Obligations.FencesRangesAndCheckpoints := by
  unfold Obligations.FencesRangesAndCheckpoints
  refine ⟨?fence, ?range, ?emptyRange, ?prefr, ?chkpt, ?commit⟩
  case fence =>
    rintro g cw eng rel scope s c slot t _ _ rfl h hp hl rfl
    exact ⟨fence_completes h hp hl, fence_waits h hp hl⟩
  case range =>
    rintro g d a b s c slot t i op (⟨rfl, rfl⟩ | ⟨rfl, rfl⟩ | ⟨rfl, rfl⟩) h hp hl
    · exact opRange_leaves exec_wbr h hp hl
    · exact opRange_leaves exec_invr h hp hl
    · exact opRange_leaves exec_wbinvr h hp hl
  case emptyRange => exact fun s c slot t op d va ctl h hn => accessComplete_emptyRange h hn
  case prefr => exact fun g a b s c slot t h hp => prefr_completes h hp
  case chkpt => exact fun g d s c slot t h hp => ⟨chkpt_unpaired h hp, chkpt_paired h hp⟩
  case commit =>
    rintro s c slot t d L _ hl rfl hh ha ht h
    obtain ⟨s', hexec, hres, hlock⟩ := checkpointCommit_commits hl hh ha ht h
    exact ⟨s', _, hexec, hres, hlock, rfl, rfl, rfl, rfl⟩

end Sys2Proof
end

section
/-!
The integer lane instructions (R138, R139): each lane's function in the words of the rules, and the forms that apply it.
-/
namespace Sys2Proof
open Machine

/-! ## Lanes -/

/-- R138: the upper half of a 64-bit product of two lanes that is exact. -/
theorem ofInt_div_eq_extractLsb' (p : Int) :
    BitVec.ofInt 32 (p / 2 ^ 32) = (BitVec.ofInt 64 p).extractLsb' 32 32 := by
  refine BitVec.eq_of_toNat_eq ?_
  simp only [BitVec.extractLsb'_toNat, BitVec.toNat_ofInt, Nat.shiftRight_eq_div_pow]
  omega

theorem mulhs_lane (x y : BitVec 32) : BitVec.ofInt 32 (x.toInt * y.toInt / 2 ^ 32) =
    (x.signExtend 64 * y.signExtend 64).extractLsb' 32 32 := by
  rw [ofInt_div_eq_extractLsb', BitVec.ofInt_mul]
  rfl

theorem mulhu_lane (x y : BitVec 32) : BitVec.ofNat 32 (x.toNat * y.toNat / 2 ^ 32) =
    (x.setWidth 64 * y.setWidth 64).extractLsb' 32 32 := by
  have hfull : BitVec.ofNat 64 (x.toNat * y.toNat) = x.setWidth 64 * y.setWidth 64 := by
    rw [BitVec.ofNat_mul, BitVec.ofNat_toNat, BitVec.ofNat_toNat]
  rw [← hfull]
  refine BitVec.eq_of_toNat_eq ?_
  simp only [BitVec.extractLsb'_toNat, BitVec.toNat_ofNat, Nat.shiftRight_eq_div_pow]
  omega

/-- R138: a comparison of lanes gives all ones or all zeros. -/
theorem maskLane_decide (p : Prop) [Decidable p] :
    maskLane (decide p) = if p then BitVec.allOnes 32 else 0#32 := by
  simp only [maskLane, decide_eq_true_eq]

theorem maskLane_beq (x y : BitVec 32) : maskLane (x == y) = if x = y then BitVec.allOnes 32 else 0#32 := by
  simp only [maskLane, beq_iff_eq]

/-! ## The forms -/

theorem givesV2_of {mk : BitVec 3 → BitVec 6 → BitVec 6 → BitVec 6 → Instr}
    {f v : BitVec 32 → BitVec 32 → BitVec 32} (he : ∀ g d a b, exec (mk g d a b) = opV2 (mk g d a b) g d a b f)
    (hv : ∀ x y, f x y = v x y) : GivesV2 mk v :=
  fun g d a b => (computes_v2 (he g d a b)).of_eq (fun t => by simp only [hv])

theorem givesV1_of {mk : BitVec 3 → BitVec 6 → BitVec 6 → Instr} {f v : BitVec 32 → BitVec 32}
    (he : ∀ g d a, exec (mk g d a) = opV1 (mk g d a) g d a f) (hv : ∀ x, f x = v x) : GivesV1 mk v :=
  fun g d a => (computes_v1 (he g d a)).of_eq (fun t => by simp only [hv])

/-- An instruction whose one effect is a write of a vector register. -/
theorem computes_setV {i : Instr} {dsc : Desc} {d : Nat} {v : Thread → VWord}
    (he : exec i = issue i dsc (fun c slot t s => s.modThread c slot (fun u => u.setV d (v t))))
    (hc : ∀ t, dsc.commit t = false) (hv : ∀ t, v (reading i t) = v (past i dsc.len t)) :
    Computes i dsc (fun t => t.setV d (v t)) :=
  computes_of he hc (fun _ h => h) (fun _ _ _ _ t B => by rw [hv t]; exact B.setV d _)

/-- Settles O12: each lane's function is the model's (`mulhs_lane`, `mulhu_lane`, `popcN_eq_countP`,
`clzN_eq_takeWhile`, `maskLane_decide`); VSEL and VSHUF are writes of a vector register (`computes_setV`). -/
theorem vectorIntegerWritesEveryLane : Obligations.VectorIntegerWritesEveryLane := by
  unfold Obligations.VectorIntegerWritesEveryLane
  exact
    ⟨givesV2_of (fun _ _ _ _ => exec_vadd) (fun _ _ => rfl),
     givesV2_of (fun _ _ _ _ => exec_vsub) (fun _ _ => rfl),
     givesV2_of (fun _ _ _ _ => exec_vmul) (fun _ _ => rfl),
     givesV2_of (fun _ _ _ _ => exec_vmulhs) mulhs_lane,
     givesV2_of (fun _ _ _ _ => exec_vmulhu) mulhu_lane,
     givesV2_of (fun _ _ _ _ => exec_vand) (fun _ _ => rfl),
     givesV2_of (fun _ _ _ _ => exec_vor) (fun _ _ => rfl),
     givesV2_of (fun _ _ _ _ => exec_vxor) (fun _ _ => rfl),
     givesV2_of (fun _ _ _ _ => exec_vandn) (fun _ _ => rfl),
     givesV2_of (fun _ _ _ _ => exec_vshl) (fun _ _ => rfl),
     givesV2_of (fun _ _ _ _ => exec_vshr) (fun _ _ => rfl),
     givesV2_of (fun _ _ _ _ => exec_vsra) (fun _ _ => rfl),
     givesV2_of (fun _ _ _ _ => exec_vmins) (fun _ _ => rfl),
     givesV2_of (fun _ _ _ _ => exec_vmaxs) (fun _ _ => rfl),
     givesV2_of (fun _ _ _ _ => exec_vminu) (fun _ _ => rfl),
     givesV2_of (fun _ _ _ _ => exec_vmaxu) (fun _ _ => rfl),
     givesV1_of (fun _ _ _ => exec_vabs) (fun _ => rfl),
     givesV1_of (fun _ _ _ => exec_vpopc) (fun x => congrArg (BitVec.ofNat 32) (popcN_eq_countP 32 x.toNat)),
     givesV1_of (fun _ _ _ => exec_vclz) (fun x => congrArg (BitVec.ofNat 32) (clzN_eq_takeWhile x.isLt)),
     givesV2_of (fun _ _ _ _ => exec_vcmpeq) maskLane_beq,
     givesV2_of (fun _ _ _ _ => exec_vcmplts) (fun _ _ => maskLane_decide _),
     givesV2_of (fun _ _ _ _ => exec_vcmpltu) (fun _ _ => maskLane_decide _),
     fun _ _ _ _ => computes_setV exec_vsel (fun _ => rfl) (fun _ => rfl),
     fun _ _ _ _ => computes_setV exec_vshuf (fun _ => rfl) (fun _ => rfl)⟩

end Sys2Proof
end

section
/-!
The floating-point lane instructions (R140), the narrow formats, dot products and conversions (R142, R143), and the
transfers and reductions (R144, R45).
-/
namespace Sys2Proof
open Machine

/-! ## Elements with flags (R136, R140) -/

theorem givesVf2_of {mk : BitVec 3 → BitVec 6 → BitVec 6 → BitVec 6 → Instr} {f : FFmt}
    {op : Word → Nat → Nat → Nat × BitVec 5} (he : ∀ g d a b, exec (mk g d a b) = opVf2 (mk g d a b) g d a b f op) :
    GivesVf2 mk f op := fun g d a b => computes_vf2 (he g d a b)

theorem givesVf3_of {mk : BitVec 3 → BitVec 6 → BitVec 6 → BitVec 6 → Instr} {f : FFmt}
    {op : Word → Nat → Nat → Nat → Nat × BitVec 5}
    (he : ∀ g d a b, exec (mk g d a b) = opVf3 (mk g d a b) g d a b f op) : GivesVf3 mk f op :=
  fun g d a b => computes_vf3 (he g d a b)

/-- R39: raising no flag leaves FPFLG as it is. -/
theorem withFlags_zero (t : Thread) : withFlags t 0#5 = t := by
  simp [withFlags]

/-- R136: elements that raise no flag raise none together. -/
theorem flagged_of_no_flags (w : Nat) {α : Type} (l : List α) (v : α → Nat) :
    flagged w (l.map (fun e => (v e, 0#5))) = (ofElems w (l.map v), 0#5) := by
  have hnone : l.foldl (fun fl _ => fl ||| 0#5) 0#5 = 0#5 := by
    induction l with
    | nil => rfl
    | cons _ _ ih => exact ih
  simp only [flagged, List.map_map, List.foldl_map, hnone, Function.comp_def]

/-- R140: a sign operation raises no flag. -/
theorem computes_sign {i : Instr} {g : BitVec 3} {d a : BitVec 6} {f : FFmt} {op v : Nat → Nat}
    (he : exec i = opVsign i g d a f op) (hv : ∀ x, op x = v x) : Computes i (dVV g d a) (fun t =>
      t.setV d.toNat (ofElems f.width ((List.range (512 / f.width)).map (fun e =>
        v (elem f.width (t.vv a.toNat) e))))) :=
  (computes_vsign he).of_eq (fun t => by simp only [vf2, flagged_of_no_flags, withFlags_zero, vcount, hv])

/-- The sign bit of a format is the highest of its bits. -/
theorem flip_eq_xor (f : FFmt) (x : Nat) : f.flip x = x ^^^ 2 ^ (f.width - 1) := by
  rw [FFmt.flip, show f.fb + f.eb = f.width - 1 by simp only [FFmt.width]; omega]

/-- Settles O13: the precision bit selects the format (`vfmt`), and each operation has the form that `exec` gives it
(`givesVf2_of`, `givesVf3_of`); the sign operations raise no flag (`computes_sign`). -/
theorem vectorFloatingPointWritesEveryElement : Obligations.VectorFloatingPointWritesEveryElement := by
  unfold Obligations.VectorFloatingPointWritesEveryElement
  intro p
  exact
    ⟨givesVf2_of (fun _ _ _ _ => exec_vfadd), givesVf2_of (fun _ _ _ _ => exec_vfsub),
     givesVf2_of (fun _ _ _ _ => exec_vfmul), givesVf3_of (fun _ _ _ _ => exec_vfma),
     givesVf3_of (fun _ _ _ _ => exec_vfms), givesVf2_of (fun _ _ _ _ => exec_vfmin),
     givesVf2_of (fun _ _ _ _ => exec_vfmax),
     fun _ _ _ => computes_sign exec_vfabs (fun _ => rfl),
     fun _ _ _ => computes_sign exec_vfneg (flip_eq_xor _),
     givesVf2_of (fun _ _ _ _ => exec_vfcmpeq), givesVf2_of (fun _ _ _ _ => exec_vfcmplt),
     givesVf2_of (fun _ _ _ _ => exec_vfcmple), givesVf2_of (fun _ _ _ _ => exec_vfcmpun)⟩

/-! ## Dot products and conversions (R142, R143) -/

theorem computes_vdots8 (g : BitVec 3) (d a b : BitVec 6) : Computes (.vdots8 g d a b) (dDVV g d a b) (fun t =>
    t.setV d.toNat (ofElems 32 ((List.range 16).map (fun l =>
      dots8 (elem 32 (t.vv d.toNat) l) (elem 32 (t.vv a.toNat) l) (elem 32 (t.vv b.toNat) l))))) :=
  (computes_vf3 exec_vdots8).of_eq (fun t => by
    simp only [vf3, flagged_of_no_flags, withFlags_zero]
    rfl)

theorem computes_vcvt (g : BitVec 3) (d a c : BitVec 6) : Computes (.vcvt g d a c) (dVV g d a) (fun t =>
    let r := vcvt c t.fpctl t.srseed (t.vv a.toNat)
    { (withFlags t r.1.2).setV d.toNat r.1.1 with srseed := t.srseed + BitVec.ofNat 64 r.2 }) :=
  computes_of exec_vcvt (fun _ => rfl) (fun _ h => h) (fun _ _ _ _ _ B => (B.vresult _ _).modThread _)

/-! ## Transfers (R144) -/

theorem past_gv (i : Instr) (n : Nat) (t : Thread) (r : Nat) : (past i n t).gv r = t.gv r := rfl
theorem past_vv (i : Instr) (n : Nat) (t : Thread) (r : Nat) : (past i n t).vv r = t.vv r := rfl

/-- R144: the lane that `k` names, and above it its neighbour in the other register. -/
def pairOfLanes (v w : VWord) (k : Nat) : Word := lane w (k ^^^ 1) ++ lane v k

theorem computes_vext (g : BitVec 3) (x : BitVec 7) (v w : BitVec 6) : Computes (.vext g x v w)
    { guard := g, g := [x.toNat], v := [v.toNat, w.toNat], reads := [x.toNat], writes := [x.toNat],
      vreads := [v.toNat, w.toNat] }
    (fun t => t.setG x.toNat (pairOfLanes (t.vv v.toNat) (t.vv w.toNat) ((t.gv x.toNat).toNat % 16))) :=
  computes_writeG exec_vext (fun _ => rfl) (fun _ => by simp only [reading_gv, reading_vv, past_gv, past_vv])

theorem computes_vins (g : BitVec 3) (x : BitVec 7) (v w : BitVec 6) : Computes (.vins g x v w)
    { guard := g, g := [x.toNat], v := [v.toNat, w.toNat], reads := [x.toNat], vreads := [w.toNat],
      vwrites := [v.toNat] }
    (fun t => t.setV v.toNat (setLane (t.vv w.toNat) ((t.gv x.toNat).extractLsb' 32 4).toNat
      ((t.gv x.toNat).extractLsb' 0 32))) :=
  (computes_setV exec_vins (fun _ => rfl) (fun _ => rfl)).of_eq (fun t => by
    rw [bitsOf_toNat, BitVec.truncate_eq_setWidth, BitVec.setWidth_eq_extractLsb' (by decide)])

/-- R144: the bits of the lanes that pass a test, gathered one by one. -/
theorem foldl_add_if (p : Nat → Bool) (l : List Nat) (n : Nat) :
    l.foldl (fun acc k => if p k then acc + 2 ^ k else acc) n =
      n + (l.map (fun k => if p k then 2 ^ k else 0)).sum := by
  induction l generalizing n with
  | nil => rfl
  | cons k l ih =>
    rw [List.foldl_cons, ih, List.map_cons, List.sum_cons, ← Nat.add_assoc]
    split <;> rfl

/-! ## Reductions (R45) -/

section
variable {op : Nat → Nat → Nat × BitVec 5}

/-- R45: a level of the tree halves the number of values. -/
theorem pairUp_length (l : List Nat) : (pairUp op l).1.length = (l.length + 1) / 2 := by
  fun_induction pairUp op l with
  | case1 x y l r q ih => simp only [List.length_cons, q, ih]; omega
  | case2 l h =>
    rcases l with _ | ⟨x, _ | ⟨y, l⟩⟩
    · rfl
    · simp
    · exact (h x y l rfl).elim

/-- R45: where `op` adds modulo `M`, a level of the tree keeps the sum. -/
theorem pairUp_sum {M : Nat} (hop : ∀ x y, (op x y).1 % M = (x + y) % M) (l : List Nat) :
    (pairUp op l).1.sum % M = l.sum % M := by
  fun_induction pairUp op l with
  | case1 x y l r q ih =>
    rw [List.sum_cons, List.sum_cons, List.sum_cons, Nat.add_mod, hop, ih, ← Nat.add_mod, Nat.add_assoc]
  | case2 => rfl

theorem pairUp_no_flags (hop : ∀ x y, (op x y).2 = 0#5) (l : List Nat) : (pairUp op l).2 = 0#5 := by
  fun_induction pairUp op l with
  | case1 x y l r q ih => simp only [r, q, hop, ih, BitVec.or_zero]
  | case2 => rfl

/-- R45: where `op` adds modulo `M`, the tree over 16 lanes is their sum. -/
theorem tree16_sum {M : Nat} (hop : ∀ x y, (op x y).1 % M = (x + y) % M) {l : List Nat} (hl : l.length = 16) :
    (tree16 op l).1 % M = l.sum % M := by
  have hlen : (pairUp op (pairUp op (pairUp op (pairUp op l).1).1).1).1.length = 1 := by simp only [pairUp_length, hl]
  obtain ⟨r, hr⟩ := List.length_eq_one_iff.1 hlen
  calc (tree16 op l).1 % M
      = (pairUp op (pairUp op (pairUp op (pairUp op l).1).1).1).1.sum % M := by simp [tree16, hr]
    _ = l.sum % M := by simp only [pairUp_sum hop]

theorem tree16_no_flags (hop : ∀ x y, (op x y).2 = 0#5) (l : List Nat) : (tree16 op l).2 = 0#5 := by
  simp only [tree16, pairUp_no_flags hop, BitVec.or_zero]

end

/-- What VREDADD and its kin, and VMASK, name. -/
def dRed (g : BitVec 3) (x : BitVec 7) (v : BitVec 6) : Desc :=
  { guard := g, g := [x.toNat], v := [v.toNat], writes := [x.toNat], vreads := [v.toNat] }

/-- R45: a reduction by the tree writes its value and raises its flags. -/
theorem computes_red {i : Instr} {g : BitVec 3} {x : BitVec 7} {v : BitVec 6}
    {op : Word → Nat → Nat → Nat × BitVec 5} {wide : Nat → Word} (he : exec i = opRed i g x v op wide) :
    Computes i (dRed g x v) (fun t =>
      let r := tree16 (op t.fpctl) ((List.range 16).map (elem 32 (t.vv v.toNat)))
      (withFlags t r.2).setG x.toNat (wide r.1)) :=
  computes_of (he.trans rfl) (fun _ => rfl) (fun _ h => (Thread.setG_stepping ..).trans h)
    (fun _ _ _ _ _ B => (B.raise _).writeG _ _)

/-- R45: the operation of VREDADD.I. -/
def addLanes (a b : Nat) : Nat × BitVec 5 := ((a + b) % 2 ^ 32, 0#5)

/-- R45: VREDADD.I is the sum of the lanes modulo 2^32. -/
theorem ofNat_tree16_addLanes {l : List Nat} (hl : l.length = 16) :
    BitVec.ofNat 32 (tree16 addLanes l).1 = BitVec.ofNat 32 l.sum :=
  BitVec.eq_of_toNat_eq (tree16_sum (fun _ _ => Nat.mod_mod ..) hl)

theorem computes_vredaddI (g : BitVec 3) (x : BitVec 7) (v : BitVec 6) : Computes (.vredaddI g x v) (dRed g x v)
    (fun t => t.setG x.toNat
      ((BitVec.ofNat 32 ((List.range 16).map (elem 32 (t.vv v.toNat))).sum).signExtend 64)) :=
  (computes_red (op := fun _ => addLanes) exec_vredaddI).of_eq (fun t => by
    simp only [tree16_no_flags (op := addLanes) (fun _ _ => rfl), withFlags_zero,
      ofNat_tree16_addLanes (l := (List.range 16).map (elem 32 (t.vv v.toNat))) (by simp)])

theorem computes_vmask (g : BitVec 3) (x : BitVec 7) (v : BitVec 6) : Computes (.vmask g x v) (dRed g x v)
    (fun t => t.setG x.toNat (BitVec.ofNat 64
      ((List.range 16).map (fun l => if (lane (t.vv v.toNat) l).getLsbD 31 then 2 ^ l else 0)).sum)) :=
  (computes_writeG (exec_vmask.trans rfl) (fun _ => rfl) (fun _ => rfl)).of_eq (fun t => by
    rw [foldl_add_if, Nat.zero_add])

/-- Settles O14: the narrow operations have the forms of the lane operations; the conversions, the transfers and the
reductions have each their lemma. -/
theorem vectorNarrowConvertAndTransfer : Obligations.VectorNarrowConvertAndTransfer := by
  unfold Obligations.VectorNarrowConvertAndTransfer
  refine ⟨⟨?addH, ?mulH, ?fmaH, ?addB, ?mulB, ?fmaB, ?dot8, computes_vdots8, computes_vcvt⟩, ?bcast, computes_vext,
    computes_vins, ?reduce⟩
  case addH => exact givesVf2_of (fun _ _ _ _ => exec_vhaddH)
  case mulH => exact givesVf2_of (fun _ _ _ _ => exec_vhmulH)
  case fmaH => exact givesVf3_of (fun _ _ _ _ => exec_vhfmaH)
  case addB => exact givesVf2_of (fun _ _ _ _ => exec_vhaddB)
  case mulB => exact givesVf2_of (fun _ _ _ _ => exec_vhmulB)
  case fmaB => exact givesVf3_of (fun _ _ _ _ => exec_vhfmaB)
  case dot8 => exact givesVf3_of (fun _ _ _ _ => exec_vdot8)
  case bcast => exact fun g x v => computes_setV exec_vbcast (fun _ => rfl) (fun _ => rfl)
  case reduce =>
    exact fun g x v => ⟨computes_red exec_vredaddS, computes_vredaddI g x v,
      computes_red (op := fun _ => fminmax fp32 true) exec_vredmaxS,
      computes_red (op := fun _ => fminmax fp32 false) exec_vredminS, computes_vmask g x v⟩

end Sys2Proof
end

section
/-!
The vector memory forms on the own scratchpad (R145, R147): the loads write a vector register from the pieces they read,
and the stores write a piece for each lane.
-/
namespace Sys2Proof
open Machine

/-! ## What a load writes to its vector register -/

theorem foldl_zip_map {α β γ : Type} (f : α → β) (k : γ → α × β → γ) (l : List α) (z : γ) :
    (l.zip (l.map f)).foldl k z = l.foldl (fun z x => k z (x, f x)) z := by
  rw [← List.map_prod_left_eq_zip, List.foldl_map]

section
variable {s s1 : State} {c slot : Nat} {u : Thread}

theorem Becomes.finishWhole (B : Becomes s s1 c slot u) (d : Nat) (bs : List Byte) :
    Becomes s (finishAccess s1 c slot (.whole d) [bs]) c slot (u.setV d (BitVec.ofNat 512 (leNat bs))) := by
  simpa only [finishAccess, List.flatten_cons, List.flatten_nil, List.append_nil] using B.setV d _

theorem Becomes.finishBcast (B : Becomes s s1 c slot u) (d : Nat) (bs : List Byte) :
    Becomes s (finishAccess s1 c slot (.bcast d) [bs]) c slot
      (u.setV d (ofLanes (List.replicate 16 (BitVec.ofNat 32 (leNat bs))))) := B.setV d _

/-- R145: each lane that is read takes the bytes of its own piece; the others keep their value. -/
theorem Becomes.finishLanes (B : Becomes s s1 c slot u) (d : Nat) (ls : List Nat) (f : Nat → List Byte) :
    Becomes s (finishAccess s1 c slot (.lanes d ls) (ls.map f)) c slot
      (u.setV d (ls.foldl (fun v l => setLane v l (BitVec.ofNat 32 (leNat (f l)))) (u.vv d))) := by
  have hlanes : Becomes s (finishAccess s1 c slot (.lanes d ls) (ls.map f)) c slot _ := B.modThread _
  rwa [foldl_zip_map] at hlanes

end

/-! ## Loads and stores of several pieces -/

section
variable {i : Instr} {d : Desc} {body : Nat → Nat → Thread → State → State} {s : State} {c slot n : Nat} {t u : Thread}

/-- R145: a load of the own scratchpad whose pieces pass their checks. -/
theorem vectorLoad_own {vas : List Word} {fin : Finish} (he : exec i = issue i d body) (h : Issues d s c slot t)
    (hp : Plain s c slot t) (hc : Calm s c t)
    (hb : body c slot (reading i t) (atIssue i d s c slot t) = startAccess (atIssue i d s c slot t) c slot (reading i t)
      (vas.map (fun x => piece x n .load)) n .ld fin false false)
    (ho : ∀ x ∈ vas, Own s c x n) (hu : ∀ x ∈ vas, Unpoisoned (s.core c) x.toNat n) (hst : u.stepping = t.stepping)
    (hf : ∀ s1, Becomes s s1 c slot (past i d.len t) →
      Becomes s (finishAccess s1 c slot fin (vas.map (fun x => Mem.readN (s.core c).spad x.toNat n))) c slot u) :
    ∃ s', exec i s = .next s' ∧ Becomes s s' c slot u := by
  refine ownReads_of he h hp hc.unpaired (.inl hc.relaxed) hb (by decide) ?_ (hst.trans hp.notStepped) ?_
  · intro p hmem
    obtain ⟨x, hx, rfl⟩ := List.mem_map.1 hmem
    exact ho x hx
  · exact fun s1 B => ⟨s1, _, own_loads B hc n vas hu, hf s1 B⟩

/-- R145: a store to the own scratchpad whose pieces pass their checks writes them in order. -/
theorem vectorStore_own {us : List (Word × List Byte)} (he : exec i = issue i d body) (h : Issues d s c slot t)
    (hp : Plain s c slot t) (hc : Calm s c t) (hm : (s.core c).spad.wf = true)
    (hb : body c slot (reading i t) (atIssue i d s c slot t) = startAccess (atIssue i d s c slot t) c slot (reading i t)
      (us.map (fun x => piece x.1 n (.store x.2))) n .st .none false false)
    (ho : ∀ x ∈ us, Own s c x.1 n) :
    ∃ s', exec i s = .next s' ∧ Stores s s' c slot (past i d.len t) (us.map (fun x => (x.1.toNat, x.2))) := by
  refine own_of he h hp hc.unpaired (.inl hc.relaxed) hb (by decide) ?_ (past_stepping hp.notStepped) ?_
  · intro p hmem
    obtain ⟨x, hx, rfl⟩ := List.mem_map.1 hmem
    exact ho x hx
  · exact fun s1 B => own_stores n us (Alters.of_becomes B) hc (by rw [B.same.spad]; exact hm)

/-- R145: a load of one lane a piece. -/
theorem laneLoad_own {ls : List Nat} {ea : Nat → Word} {vd : Nat} (he : exec i = issue i d body)
    (h : Issues d s c slot t) (hp : Plain s c slot t) (hc : Calm s c t)
    (hb : body c slot (reading i t) (atIssue i d s c slot t) = startAccess (atIssue i d s c slot t) c slot (reading i t)
      (ls.map (fun l => piece (ea l) 4 .load)) 4 .ld (.lanes vd ls) false false)
    (ho : ∀ l ∈ ls, Own s c (ea l) 4) (hu : ∀ l ∈ ls, Unpoisoned (s.core c) (ea l).toNat 4) :
    ∃ s', exec i s = .next s' ∧ Becomes s s' c slot ((past i d.len t).setV vd
      (ls.foldl (fun v l => setLane v l (BitVec.ofNat 32 (leNat (Mem.readN (s.core c).spad (ea l).toNat 4))))
        (t.vv vd))) := by
  refine vectorLoad_own (n := 4) (vas := ls.map ea) he h hp hc (hb.trans (by rw [List.map_map]; rfl))
    (List.forall_mem_map.2 ho) (List.forall_mem_map.2 hu) rfl (fun s1 B => ?_)
  rw [List.map_map]
  exact B.finishLanes vd ls _

/-- R145: a store of one lane a piece. -/
theorem laneStore_own {ls : List Nat} {ea : Nat → Word} {v : VWord} (he : exec i = issue i d body)
    (h : Issues d s c slot t) (hp : Plain s c slot t) (hc : Calm s c t) (hm : (s.core c).spad.wf = true)
    (hb : body c slot (reading i t) (atIssue i d s c slot t) = startAccess (atIssue i d s c slot t) c slot (reading i t)
      (ls.map (fun l => piece (ea l) 4 (.store (laneBytes v l)))) 4 .st .none false false)
    (ho : ∀ l ∈ ls, Own s c (ea l) 4) :
    ∃ s', exec i s = .next s' ∧ Stores s s' c slot (past i d.len t)
      (ls.map (fun l => ((ea l).toNat, laneBytes v l))) := by
  obtain ⟨s', hexec, hstores⟩ := vectorStore_own (n := 4) (us := ls.map (fun l => (ea l, laneBytes v l))) he h hp hc hm
    (hb.trans (by rw [List.map_map]; rfl)) (List.forall_mem_map.2 ho)
  rw [List.map_map] at hstores
  exact ⟨s', hexec, hstores⟩

end

/-! ## The forms (R145, R147) -/

section
variable {g : BitVec 3} {d : BitVec 6} {a b : BitVec 7} {s : State} {c slot : Nat} {t : Thread}

/-- What VLD and VLD.r name. -/
def dVld (g : BitVec 3) (d : BitVec 6) (a b : BitVec 7) : Desc :=
  { guard := g, g := [a.toNat, b.toNat], v := [d.toNat], reads := [a.toNat, b.toNat], vwrites := [d.toNat] }

/-- R145: a load of a whole register. -/
theorem wholeLoad_own {i : Instr} {body : Nat → Nat → Thread → State → State} {ea : Word}
    (he : exec i = issue i (dVld g d a b) body) (h : Issues (dVld g d a b) s c slot t) (hp : Plain s c slot t)
    (hc : Calm s c t)
    (hb : ∀ s, body c slot (reading i t) s =
      startAccess s c slot (reading i t) [piece ea 64 .load] 64 .ld (.whole d.toNat) false false)
    (ho : Own s c ea 64) (hu : Unpoisoned (s.core c) ea.toNat 64) :
    ∃ s', exec i s = .next s' ∧ Becomes s s' c slot ((past i 4 t).setV d.toNat
      (BitVec.ofNat 512 (leNat (Mem.readN (s.core c).spad ea.toNat 64)))) :=
  vectorLoad_own (vas := [ea]) he h hp hc (hb _) (by simpa using ho) (by simpa using hu) rfl
    (fun _ B => B.finishWhole d.toNat _)

end

/-- R147: an access to the own scratchpad is not relaxable. -/
theorem if_relaxable_own {α : Type} {va : Word} {p q : α} (h : va.toNat < 0x20000) :
    (if relaxable va then p else q) = q := by
  rw [relaxable_own h, if_neg Bool.false_ne_true]

/-- Settles O30: VLD and VLD.r load a register (`wholeLoad_own`), VST stores one (`vectorStore_own`), and VLDB loads one
piece for all lanes (`vectorLoad_own`); the strided and the indexed forms move a lane a piece (`laneLoad_own`,
`laneStore_own`). -/
theorem vectorMemoryFormsMoveTheirLanes : Obligations.VectorMemoryFormsMoveTheirLanes := by
  unfold Obligations.VectorMemoryFormsMoveTheirLanes
  refine ⟨?whole, ?strided, ?indexed⟩
  case whole =>
    rintro g d a b s c slot t _ rfl hp hc
    refine ⟨?loads, fun ho hm h => ?store, fun ho hu h => ?bcast⟩
    case loads =>
      intro mk hmk ho hu h
      simp only [List.mem_cons, List.not_mem_nil, or_false] at hmk
      rcases hmk with rfl | rfl
      · exact wholeLoad_own exec_vld h hp hc (fun _ => rfl) ho hu
      · exact wholeLoad_own exec_vldR h hp hc (fun _ => if_relaxable_own ho.own) ho hu
    case store =>
      exact vectorStore_own (us := [(t.gv a.toNat + t.gv b.toNat, leBytes (t.vv d.toNat).toNat 64)]) exec_vst h hp hc hm
        rfl (by simpa using ho)
    case bcast =>
      exact vectorLoad_own (vas := [t.gv a.toNat + t.gv b.toNat]) exec_vldb h hp hc rfl (by simpa using ho)
        (by simpa using hu) rfl (fun _ B => B.finishBcast d.toNat _)
  case strided =>
    intro g d a b s c slot t ea hea hp hc ho
    obtain rfl : ea = eaStride t a b := funext hea
    exact ⟨fun hu h => laneLoad_own exec_vlds h hp hc rfl (fun l hl => ho l (List.mem_range.1 hl))
        (fun l hl => hu l (List.mem_range.1 hl)),
      fun hm h => laneStore_own exec_vsts h hp hc hm rfl (fun l hl => ho l (List.mem_range.1 hl))⟩
  case indexed =>
    rintro g d a b s c slot t _ _ ea _ rfl rfl hea rfl hp hc ho
    obtain rfl : ea = eaIndex t a (vpairX d) := funext hea
    exact ⟨fun hu h => laneLoad_own exec_vgath h hp hc rfl ho hu,
      fun hm h => laneStore_own exec_vscat h hp hc hm rfl ho⟩

end Sys2Proof
end

section
/-!
The special functions of NaNs, of the tabled inputs and of the worked examples (R149 to R151).
-/
namespace Sys2Proof.Machine

/-- R149: a NaN gives its quieted self, with invalid if it is signalling, and no flag is raised but invalid and
divide-by-zero. -/
structure SpecialFunction (f : Nat → Nat × BitVec 5) : Prop where
  nan : ∀ w p q, fp32.unpack w = .nan p q → f w = (fp32.quiet w, if q then flInvalid else 0#5)
  flags : ∀ w, (f w).2 = 0#5 ∨ (f w).2 = flInvalid ∨ (f w).2 = flDivZero

/-- What a NaN raises is a flag that a special function may raise. -/
theorem nan_flags (q : Bool) : (if q then flInvalid else 0#5) = 0#5 ∨ (if q then flInvalid else 0#5) = flInvalid ∨
    (if q then flInvalid else 0#5) = flDivZero := by
  cases q <;> simp

/-! ## By the class of the input (R149) -/

theorem sfuRcp_special : SpecialFunction sfuRcp where
  nan w p q h := by simp only [sfuRcp, h]
  flags w := by
    unfold sfuRcp
    split
    case h_1 => exact nan_flags _
    case h_3 => exact .inr (.inr rfl)
    case h_2 | h_4 => exact .inl rfl

theorem sfuRsq_special : SpecialFunction sfuRsq where
  nan w p q h := by simp only [sfuRsq, h]
  flags w := by
    unfold sfuRsq
    split
    case h_1 => exact nan_flags _
    case h_3 => exact .inr (.inr rfl)
    case h_2 | h_4 => split <;> simp

theorem sfuExp2_special : SpecialFunction sfuExp2 where
  nan w p q h := by simp only [sfuExp2, h]
  flags w := by
    unfold sfuExp2
    split
    case h_1 => exact nan_flags _
    case h_2 | h_3 => exact .inl rfl

theorem sfuLog2_special : SpecialFunction sfuLog2 where
  nan w p q h := by simp only [sfuLog2, h]
  flags w := by
    unfold sfuLog2
    split
    case h_1 => exact nan_flags _
    case h_3 => exact .inr (.inr rfl)
    case h_2 | h_4 => split <;> simp

theorem sfuTurn_special (c0 c1 c2 : List Nat) : SpecialFunction (sfuTurn c0 c1 c2) where
  nan w p q h := by simp only [sfuTurn, h]
  flags w := by
    unfold sfuTurn
    split
    case h_1 => exact nan_flags _
    case h_2 => exact .inr (.inl rfl)
    case h_3 => exact .inl rfl

theorem sfuSigm_special : SpecialFunction sfuSigm where
  nan w p q h := by simp only [sfuSigm, h]
  flags w := by
    unfold sfuSigm
    split
    case h_1 => exact nan_flags _
    case h_2 => exact .inl rfl

theorem sfuTanh_special : SpecialFunction sfuTanh where
  nan w p q h := by simp only [sfuTanh, h]
  flags w := by
    unfold sfuTanh
    split
    case h_1 => exact nan_flags _
    case h_2 => exact .inl (by dsimp only; split <;> rfl)

/-! ## Infinities and numbers below zero (R151) -/

section
variable {w : Nat}

theorem sfuExp2_inf {neg : Bool} (h : fp32.unpack w = .inf neg) :
    sfuExp2 w = (if neg then 0 else fp32.infinity false, 0#5) := by
  simp only [sfuExp2, h]

theorem sfuLog2_inf {neg : Bool} (h : fp32.unpack w = .inf neg) :
    sfuLog2 w = if neg then (fp32.canon, flInvalid) else (fp32.infinity false, 0#5) := by
  simp only [sfuLog2, h]

theorem sfuTurn_inf {c0 c1 c2 : List Nat} {neg : Bool} (h : fp32.unpack w = .inf neg) :
    sfuTurn c0 c1 c2 w = (fp32.canon, flInvalid) := by
  simp only [sfuTurn, h]

theorem sfuRsq_below_zero {m : Nat} {e : Int} (h : fp32.unpack w = .fin true m e) (hm : m ≠ 0) :
    sfuRsq w = (fp32.canon, flInvalid) := by
  simp [sfuRsq, h]

theorem sfuLog2_below_zero {m : Nat} {e : Int} (h : fp32.unpack w = .fin true m e) (hm : m ≠ 0) :
    sfuLog2 w = (fp32.canon, flInvalid) := by
  simp [sfuLog2, h]

end

/-- Settles O43: each function is special in the same way (`SpecialFunction`), and infinities and numbers below zero
have each their lemma; the values at single inputs are computed. -/
theorem specialFunctionsOfSpecialInputs : Obligations.SpecialFunctionsOfSpecialInputs := by
  unfold Obligations.SpecialFunctionsOfSpecialInputs
  refine ⟨?special, ?_, ?_, ?_, ?_, ?_, ?_, ?_, ?_, ?negInf, ?posInf, ?below, ?_, ?_, ?turns, ?_, ?_, ?_, ?_, ?_, ?_,
    ?_, ?_, ?_, ?_, ?_, ?_, ?_⟩
  case special =>
    have hall : ∀ f ∈ [sfuRcp, sfuRsq, sfuExp2, sfuLog2, sfuSin, sfuCos, sfuTanh, sfuSigm], SpecialFunction f := by
      simp only [List.forall_mem_cons]
      exact ⟨sfuRcp_special, sfuRsq_special, sfuExp2_special, sfuLog2_special, sfuTurn_special .., sfuTurn_special ..,
        sfuTanh_special, sfuSigm_special, List.forall_mem_nil _⟩
    exact fun f hf => ⟨(hall f hf).nan, (hall f hf).flags⟩
  case negInf => exact fun w h => ⟨sfuExp2_inf h, sfuLog2_inf h⟩
  case posInf => exact fun w h => ⟨sfuExp2_inf h, sfuLog2_inf h⟩
  case below => exact fun w m e h hm => ⟨sfuRsq_below_zero h hm, sfuLog2_below_zero h hm⟩
  case turns => exact fun w neg h => ⟨sfuTurn_inf h, sfuTurn_inf h⟩
  all_goals decide +kernel

end Sys2Proof.Machine
end

section
/-!
Tile commands on their way to an engine (R153).
-/
namespace Sys2Proof
open Machine

/-- The map of the registers in a list has the value of each of them. -/
theorem get?_foldl_set (v : Nat → Word) {r : BitVec 7} (regs : List (BitVec 7)) (m : Map Word)
    (h : r ∈ regs ∨ Map.get? m r.toNat = some (v r.toNat)) :
    Map.get? (regs.foldl (fun m r => Map.set m r.toNat (v r.toNat)) m) r.toNat = some (v r.toNat) := by
  induction regs generalizing m with
  | nil => exact h.resolve_left List.not_mem_nil
  | cons a regs ih =>
    refine ih _ ?_
    by_cases ha : r.toNat = a.toNat
    · exact .inr (by rw [ha, Map.get?_set_self])
    · refine h.imp (fun hr => ?_) (fun hm => by rw [Map.get?_set_of_ne _ _ ha, hm])
      exact (List.mem_cons.1 hr).resolve_left (fun e => ha (congrArg _ e))

theorem CoreOnly.beginWait (s : State) (c slot : Nat) (code : TCode) (w : Wait) :
    CoreOnly s (beginWait s c slot code w) c := by
  unfold Machine.beginWait
  split
  · exact (CoreOnly.modThread ..).trans ((CoreOnly.modCore ..).trans (.postCtx ..))
  · exact (CoreOnly.modThread ..).trans (.modCore ..)

section
variable (i : Instr) (regs : List (BitVec 7)) (leaf : Bool) (c slot : Nat) (t : Thread) (s : State)

/-- R153: the command that a thread sends to its engine, as its instruction finds the machine. -/
def sentCmd : Cmd :=
  { id := s.fresh, instr := i, thread := ⟨c, slot⟩, core := c, gid := t.gid, lid := t.lid,
    regs := regs.foldl (fun m r => Map.set m r.toNat (t.gv r.toNat)) []
    part := t.part, proc := t.proc, geom0 := t.geom0, geom1 := t.geom1,
    agent := if leaf then 0xD00 + coreLeaf s c else 0xE00 + coreCluster c }

/-- R153: the registers of a command are read as the instruction issues. -/
theorem sentCmd_reg {r : BitVec 7} (hr : r ∈ regs) : (sentCmd i regs leaf c slot t s).reg r = t.gv r.toNat := by
  unfold Cmd.reg
  by_cases h0 : r = 0#7
  · simp [h0, Thread.gv]
  · simp [h0, sentCmd, get?_foldl_set t.gv regs [] (.inl hr)]

theorem startCmd_cmds :
    (startCmd i regs leaf c slot t s).cmds = Map.set s.cmds s.fresh (sentCmd i regs leaf c slot t s) :=
  (CoreOnly.beginWait ..).field (·.cmds) (fun _ => rfl)

theorem startCmd_agenda : .engineAccept s.fresh ∈ (startCmd i regs leaf c slot t s).agenda :=
  List.mem_append_right _ (List.mem_singleton.2 rfl)

variable {c slot s}

/-- R153: the thread that has sent a command waits for its engine. -/
theorem startCmd_thread {u : Thread} (h : s.thread? c slot = some u) :
    (startCmd i regs leaf c slot t s).thread? c slot =
      some { u with code := .waiting, wait := .tile s.fresh, sleepFor := 0, since := (s.core c).cyc } :=
  beginWait_thread (s := State.bump { s with cmds := Map.set s.cmds s.fresh (sentCmd i regs leaf c slot t s) }) h
    .waiting (.tile s.fresh)

end

/-- R153: every tile command that issues by `issueTile` is sent to its engine. -/
theorem sendsCommand_of {α : Type} {mk : BitVec 3 → Cpl → α → Instr} {rest : α → List (BitVec 7)}
    {leaf : Bool} (he : ∀ g w x, exec (mk g w x) = issueTile (mk g w x) g w (rest x) leaf) :
    SendsCommand mk rest leaf := by
  rintro g w x s c slot t regs U id hregs h hs rfl rfl
  have hthread := (atIssue_thread (mk g w x) (dTile g regs) s c slot t).trans (congrArg some (issued_reading _ hs))
  have hwaits := startCmd_thread (mk g w x) regs leaf (reading (mk g w x) t) hthread
  have hcmds := startCmd_cmds (mk g w x) regs leaf c slot (reading (mk g w x) t)
    (atIssue (mk g w x) (dTile g regs) s c slot t)
  have hissue : exec (mk g w x) = issue (mk g w x) (dTile g regs) (startCmd (mk g w x) regs leaf) := by
    rw [he, hregs]
    rfl
  refine ⟨_, _, leaves_of hissue h rfl hwaits (by simp), startCmd_agenda .., ?sent, rfl,
    fun r hr => sentCmd_reg (hr := hr) .., rfl, rfl, rfl, rfl, rfl, rfl, rfl, rfl, rfl, rfl, rfl, ?others, hwaits⟩
  case sent => rw [hcmds, Map.get?_set_self]; rfl
  case others => exact fun y hy => by rw [hcmds, Map.get?_set_of_ne _ _ hy]

/-- Settles O51: each kind of command issues by `issueTile`, which sends it (`sendsCommand_of`). -/
theorem tileCommandsAreSentToTheirEngine : Obligations.TileCommandsAreSentToTheirEngine := by
  unfold Obligations.TileCommandsAreSentToTheirEngine
  exact ⟨sendsCommand_of (fun _ _ _ => exec_mma), sendsCommand_of (fun _ _ _ => exec_copy),
    sendsCommand_of (fun _ _ _ => exec_gath), sendsCommand_of (fun _ _ _ => exec_coll),
    sendsCommand_of (fun _ _ _ => exec_fill), sendsCommand_of (fun _ _ _ => exec_enc8)⟩

end Sys2Proof
end

section
/-!
Engines: how they look at a command, and what each of their acts comes to (R152 to R171).
-/
namespace Sys2Proof
open Machine

/-! ## Acts that only ask for events -/

/-- `s'` is `s` but for events that are also to come. -/
def Asks (s s' : State) : Prop := ∃ es, s' = { s with agenda := s.agenda ++ es }

theorem Asks.refl (s : State) : Asks s s := ⟨[], by simp⟩
theorem Asks.post (s : State) (e : Event) : Asks s (s.post e) := ⟨[e], rfl⟩
theorem Asks.trans {s s1 s2 : State} (h : Asks s s1) (g : Asks s1 s2) : Asks s s2 := by
  obtain ⟨es, rfl⟩ := h
  obtain ⟨fs, rfl⟩ := g
  exact ⟨es ++ fs, by simp⟩

section
variable {s s' : State} (h : Asks s s')
include h

theorem Asks.mem {e : Event} (he : e ∈ s.agenda) : e ∈ s'.agenda := by
  obtain ⟨es, rfl⟩ := h
  exact List.mem_append_left _ he

theorem Asks.cmds : s'.cmds = s.cmds := by
  obtain ⟨es, rfl⟩ := h
  rfl

theorem Asks.groups : s'.groups = s.groups := by
  obtain ⟨es, rfl⟩ := h
  rfl

theorem Asks.resumed {c slot : Nat} {t : Thread} (hr : Resumed s c slot t) : Resumed s' c slot t := by
  obtain ⟨es, rfl⟩ := h
  exact ⟨hr.thread, hr.queued⟩

end

theorem Asks.nextCmd (s : State) (c : Cmd) : Asks s (nextCmd s c) := by
  unfold Machine.nextCmd
  split
  · exact .post ..
  · exact .refl ..

theorem Asks.drainNext (s : State) (p : Nat) : Asks s (drainNext s p) := by
  unfold Machine.drainNext
  split
  · exact .post ..
  · exact .refl ..

/-! ## Commands -/

section
variable {s : State} {id : Nat} {c : Cmd}

theorem modCmd_get? (h : Map.get? s.cmds id = some c) (f : Cmd → Cmd) :
    Map.get? (modCmd s id f).cmds id = some (f c) := by
  simp [modCmd, Map.get?_modify, h]

/-- R396: only a collective contributes as one whose destination failed. -/
theorem refusedColl_of_kind (h : c.kind ≠ 3) : refusedColl c = c := by
  simp [refusedColl, h]

end

/-! ## Acceptance (R152 to R155) -/

/-- R154: the machine once a command has passed its checks. -/
def passed (u : State) (id : Nat) (c : Cmd) : State :=
  { u with cmds := Map.set u.cmds id { c with checked := true } }

section
variable {s u : State} {id : Nat} {c c' : Cmd} (h : Map.get? s.cmds id = some c) (ha : c.accepted = false)
  (hk : c.checked = false)
include h

theorem engineAccept_notReady (hr : engineReady s c = false) : exec (.engineAccept id) s = .next s := by
  simp [exec_engineAccept, execEngineAccept, h, hr]

include ha hk

theorem engineAccept_rejects {f : FaultInfo} (hr : engineReady s c = true) (hc : checkCmd s c = (u, .error f)) :
    exec (.engineAccept id) s = .next (rejectCmd u c f) := by
  simp [exec_engineAccept, execEngineAccept, h, ha, hk, hr, hc]

theorem engineAccept_owns (hr : engineReady s c = true) (hc : checkCmd s c = (u, .ok c')) (ho : c'.toOwn ≠ []) :
    exec (.engineAccept id) s =
      .next (ownNext { u with cmds := Map.set u.cmds id { c' with checked := true } } id) := by
  simp [exec_engineAccept, execEngineAccept, h, ha, hk, hr, hc, ho]

/-- A command that has passed its checks and has no line to own is accepted. -/
theorem engineAccept_accepts (hr : engineReady s c = true) (hc : checkCmd s c = (u, .ok c')) (ho : c'.toOwn = []) :
    exec (.engineAccept id) s =
      .next (acceptCmd (passed u id c') id) := by
  simp [exec_engineAccept, execEngineAccept, h, ha, hk, hr, hc, ho, passed]

end

section
variable {s : State} {id core slot : Nat} {c : Cmd} {t : Thread} {g : BitVec 3} {w : Cpl} {x : CopyArgs}

/-- R155: the machine once a command other than MMA has been marked as accepted, and is an operation of its group. -/
def taken (s : State) (id gid : Nat) : State :=
  (modCmd s id (fun c => refusedColl { c with accepted := true })).modGroup gid (fun g => { g with ops := g.ops + 1 })

theorem taken_get? (h : Map.get? s.cmds id = some c) (hk : c.kind ≠ 3) (gid : Nat) :
    Map.get? (taken s id gid).cmds id = some { c with accepted := true } :=
  (modCmd_get? h _).trans (congrArg some (refusedColl_of_kind (c := { c with accepted := true }) hk))

theorem taken_waits {wt : Wait} (hw : Waits s core slot t wt) (gid : Nat) : Waits (taken s id gid) core slot t wt :=
  hw.of_thread rfl

/-- R155: a COPY with no copy of a line to drop is accepted: its thread goes on, and its first piece is to come. -/
theorem acceptCmd_copy (h : Map.get? s.cmds id = some c) (hi : c.instr = .copy g w x) (hp : c.priv = [])
    (hid : c.id = id) (ht : c.thread = ⟨core, slot⟩) (hw : Waits s core slot t (.tile id)) :
    Asks ((finishWait (taken s id c.gid) core slot).post (.engineComplete id)) (acceptCmd s id) := by
  have hkind : c.kind = 1 := by simp [Cmd.kind, hi]
  have hcmd : Map.get? (modCmd s id (fun c => refusedColl { c with accepted := true })).cmds id =
      some { c with accepted := true } := taken_get? h (by simp [hkind]) c.gid
  have hwait : waitOf (modCmd s id (fun c => refusedColl { c with accepted := true })) ⟨core, slot⟩ =
      some (.tile id) := by
    have hthread := (taken_waits (id := id) hw c.gid).thread
    exact (congrArg (Option.map (·.wait)) hthread).trans (congrArg some hw.wait)
  unfold acceptCmd
  simp only [hcmd, hp, dropPriv, ht, hwait, if_true, countContribution, hi, cmdEvent, hid]
  exact (Asks.nextCmd ..).trans (.drainNext ..)

end

/-- R153, R155: an engine that is ready accepts a COPY that passes the checks and has no line to own. -/
theorem engineAccept_copy {s u : State} {id core slot : Nat} {c c' : Cmd} {t : Thread} {g : BitVec 3} {w : Cpl}
    {x : CopyArgs} (h : Map.get? s.cmds id = some c) (ha : c.accepted = false) (hk : c.checked = false)
    (hr : engineReady s c = true) (hc : checkCmd s c = (u, .ok c')) (ho : c'.toOwn = []) (hp : c'.priv = [])
    (hi : c'.instr = .copy g w x) (hid : c'.id = id) (ht : c'.thread = ⟨core, slot⟩)
    (hw : Waits u core slot t (.tile id)) :
    ∃ s', exec (.engineAccept id) s = .next s' ∧ .engineComplete id ∈ s'.agenda ∧
      Map.get? s'.cmds id = some { c' with checked := true, accepted := true } ∧
      s'.groups = (u.modGroup c'.gid (fun g => { g with ops := g.ops + 1 })).groups ∧ Resumed s' core slot t := by
  have hcmd : Map.get? (passed u id c').cmds id = some { c' with checked := true } := Map.get?_set_self ..
  have hwaits : Waits (passed u id c') core slot t (.tile id) := hw.of_thread rfl
  have hT := taken_waits (id := id) hwaits c'.gid
  have hF := CoreOnly.finishWait (taken (passed u id c') id c'.gid) core slot
  have hA := acceptCmd_copy hcmd hi hp hid ht hwaits
  refine ⟨_, engineAccept_accepts h ha hk hr hc ho, hA.mem (by simp), ?_, ?_, ?_⟩
  · rw [hA.cmds, State.post_cmds, hF.field (·.cmds) (fun _ => rfl)]
    exact taken_get? hcmd (by simp [Cmd.kind, hi]) _
  · rw [hA.groups, State.post_groups, hF.field (·.groups) (fun _ => rfl)]
    rfl
  · exact hA.resumed ((Asks.post ..).resumed (finishWait_resumed hT.thread hT.code hT.notStepped hT.here))

/-! ## MMA (R163, R164) -/

section
variable {s : State} {id : Nat} {c : Cmd} {g : BitVec 3} {w : Cpl} {x : MmaArgs}

section
variable (h : Map.get? s.cmds id = some c) (hi : c.instr = .mma g w x) (ha : c.accepted = true)
  (hs : c.stopped = false) (hp : c.toPin = [])
include h hi ha hs hp

theorem mmaStep_barred {va : Word} (hb : stepBarred s c x = some va) :
    exec (.mmaStep id) s = .next (stopAt (dropPins s c c.pinned) id va) := by
  simp [exec_mmaStep, execMmaStep, h, hi, ha, hs, hp, hb]

theorem mmaStep_last (hb : stepBarred s c x = none) (hl : c.step + 1 = c.num x.k / 64) :
    exec (.mmaStep id) s = .next (doneMoving
      (modCmd (dropPins (matrixStep s c x) c c.pinned) id (fun c => { c with step := c.step + 1 })) id) := by
  simp [exec_mmaStep, execMmaStep, h, hi, ha, hs, hp, hb, hl]

end

/-- R163: an element of C that neither overflows nor meets poison is written in its place. -/
theorem elemStep_clean {i j : Nat} {p : Place} {v : List Byte × Bool} {a b : List Nat} {sc : Nat}
    (hp : p = .spad c.core (c.num x.c + accSize x.fa.toNat * (32 * i + j))) (hz : x.zero = false)
    (hv : v = readPlace s c.core p (accSize x.fa.toNat)) (hclean : v.2 = false)
    (hr : (newElem x (leNat v.1) a b sc false).2 = false) :
    elemStep s c x [(i, a, false, false)] [(j, b, false, false)] (sc, false) i j =
      engWrite s c.id p (leBytes (newElem x (leNat v.1) a b sc false).1 (accSize x.fa.toNat)) false := by
  subst hp hv
  simp [elemStep, Map.get?, hz, hclean, hr]

end

/-! ## Pieces (R165, R166) -/

section
variable {s : State} {c : Cmd} {va : Word} {p : Place} {bs : List Byte} {ps : List Bool}

/-- R165: bytes that end within the piece at their place are one piece. -/
theorem dstPieces_one {n : Nat} (hp : c.placeAt va = some p) (hne : bs ≠ []) (hle : bs.length ≤ pieceRoom p) :
    dstPieces c (n + 1) va bs ps = [(p, bs, (ps.take (pieceRoom p)).any id)] := by
  have hnil : ∀ n va ps, dstPieces c n va [] ps = [] := by
    intro n va ps
    cases n <;> simp [dstPieces]
  obtain ⟨b, bs, rfl⟩ := List.exists_cons_of_ne_nil hne
  simp only [dstPieces, hp, List.take_of_length_le hle, List.drop_of_length_le hle, hnil]

/-- R159, R165: such a piece, none of whose bytes is poisoned, is one write. -/
theorem moveTo_one (hp : c.placeAt va = some p) (hne : bs ≠ []) (hle : bs.length ≤ pieceRoom p)
    (hc : ps.any id = false) : moveTo s c va bs ps = engWrite s c.id p bs false := by
  have htake : (ps.take (pieceRoom p)).any id = false := by
    rw [List.any_eq_false] at hc ⊢
    exact fun b hb => hc b (List.mem_of_mem_take hb)
  simp only [moveTo, hc, dstPieces_one hp hne hle, htake, writeAll, Bool.false_eq_true, if_false]

theorem Cmd.rowMarks_clean (h : c.rowBad = false) : c.rowMarks ps = ps := by
  simp [Machine.Cmd.rowMarks, h]

end

/-! ## The next act of an accepted command (R158) -/

section
variable {s u : State} {id : Nat} {c : Cmd} {g : BitVec 3} {w : Cpl}

section
variable (h : Map.get? s.cmds id = some c) (ha : c.accepted = true) (ht : c.todo = [])
include h ha ht

/-- A stopped command without pins has nothing more to move. -/
theorem engineComplete_finishes (hs : c.stopped = true) (hp : c.pinned = []) :
    exec (.engineComplete id) s = .next (finishCmd s c) := by
  have hfinish : finishCmd (if c.pinned.isEmpty then s else dropPins s c c.pinned) { c with pinned := [] } =
      finishCmd s c := by rw [show { c with pinned := [] } = c by rw [← hp], hp]; rfl
  refine Eq.trans ?_ (congrArg _ hfinish)
  simp [exec_engineComplete, execEngineComplete, h, ha, ht, hs]

variable (hs : c.stopped = false)
include hs

theorem engineComplete_copy {x : CopyArgs} (hi : c.instr = .copy g w x) :
    exec (.engineComplete id) s = .next (movePiece s c (c.reg x.dst + BitVec.ofNat 64 c.step * c.reg x.ds)
      (c.reg x.src + BitVec.ofNat 64 c.step * c.reg x.ss) (c.num x.rowb) (c.num x.rows)) := by
  simp [exec_engineComplete, execEngineComplete, h, ha, ht, hs, hi]

theorem engineComplete_fill {x : FillArgs} (hi : c.instr = .fill g w x) :
    exec (.engineComplete id) s = .next (fillPiece s c (c.reg x.dst + BitVec.ofNat 64 c.step * c.reg x.ds)
      (c.reg x.pat) (c.num x.rowb) (c.num x.rows)) := by
  simp [exec_engineComplete, execEngineComplete, h, ha, ht, hs, hi]

theorem engineComplete_gathIndex {x : GathArgs} (hi : c.instr = .gath g w x) (hx : x.scat = false)
    (hr : c.row = none) : exec (.engineComplete id) s = .next (readRow s c (c.reg x.idx)) := by
  simp [exec_engineComplete, execEngineComplete, h, ha, ht, hs, hi, hx, hr]

theorem engineComplete_gathRow {x : GathArgs} {r : Nat} (hi : c.instr = .gath g w x) (hx : x.scat = false)
    (hr : c.row = some r) (hne : r ≠ 0xFFFFFFFF) :
    exec (.engineComplete id) s = .next (movePiece s c (c.reg x.dst + BitVec.ofNat 64 c.step * c.reg x.ds)
      (c.reg x.src + BitVec.ofNat 64 r * c.reg x.ss) (c.num x.rowb) (c.num x.n)) := by
  simp [exec_engineComplete, execEngineComplete, h, ha, ht, hs, hi, hx, hr, hne]

theorem engineComplete_enc8 {x : Enc8Args} (hi : c.instr = .enc8 g w x) :
    exec (.engineComplete id) s = .next (encodeAll s c x) := by
  simp [exec_engineComplete, execEngineComplete, h, ha, ht, hs, hi]

end

/-! ## FILL and COPY (R165) -/

/-- R165: a piece of a FILL is one write of its word, repeated. -/
theorem fillPiece_writes {dst pat : Word} {rowb rows n : Nat} {p : Place} (hb : c.rowBad = false)
    (hp : c.placeAt (dst + BitVec.ofNat 64 c.pos) = some p) (hn : n = Nat.min (rowb - c.pos) (pieceRoom p))
    (h8 : 8 ≤ n) : fillPiece s c dst pat rowb rows =
      advanceRow (engWrite s c.id p ((List.replicate (n / 8) (wordBytes pat)).flatten) false) c.id n rowb rows := by
  have hlen : ((List.replicate (n / 8) (wordBytes pat)).flatten).length = n / 8 * 8 := by simp
  have hroom : n ≤ pieceRoom p := hn ▸ Nat.min_le_right ..
  have hne : (List.replicate (n / 8) (wordBytes pat)).flatten ≠ [] := List.ne_nil_of_length_pos (by omega)
  have hclean : (List.replicate n c.rowBad).any (fun b => b) = false := by simp [hb]
  unfold fillPiece
  simp only [hp, ← hn]
  rw [moveTo_one hp hne (by omega) hclean]

/-- R165, R166: what is moved to another place than a remote page goes by the source line. -/
theorem movePiece_spad {dst src : Word} {rowb rows q off n : Nat} {bs : List Byte} {po : List Bool}
    (hb : c.rowBad = false) (hp : c.placeAt (dst + BitVec.ofNat 64 c.pos) = some (.spad q off))
    (hn : n = Nat.min (rowb - c.pos) (64 - (src + BitVec.ofNat 64 c.pos).toNat % 64))
    (hr : engRead s c (lineChunks (src + BitVec.ofNat 64 c.pos) n) = (u, .ok (bs, po))) :
    movePiece s c dst src rowb rows =
      advanceRow (moveTo u c (dst + BitVec.ofNat 64 c.pos) bs po) c.id n rowb rows := by
  unfold movePiece
  simp only [hp, ← hn, hr, Cmd.rowMarks_clean hb]

theorem movePiece_spad_stops {dst src va : Word} {rowb rows q off n : Nat}
    (hp : c.placeAt (dst + BitVec.ofNat 64 c.pos) = some (.spad q off))
    (hn : n = Nat.min (rowb - c.pos) (64 - (src + BitVec.ofNat 64 c.pos).toNat % 64))
    (hr : engRead s c (lineChunks (src + BitVec.ofNat 64 c.pos) n) = (u, .error va)) :
    movePiece s c dst src rowb rows = stopAt u c.id va := by
  unfold movePiece
  simp only [hp, ← hn, hr]

/-! ## GATH (R166) -/

/-- R166: the row number is kept, and the command goes on with its row. -/
theorem readRow_reads {idx : Word} {bs : List Byte} {po : List Bool}
    (hr : engRead s c (lineChunks (idx + BitVec.ofNat 64 (4 * c.step)) 4) = (u, .ok (bs, po))) :
    readRow s c idx = (modCmd u c.id (fun c =>
      { c with row := some (leNat bs), rowBad := po.any (fun b => b) })).post (cmdEvent c) := by
  unfold readRow
  rw [hr]
  rfl

theorem cmdEvent_gath {x : GathArgs} (hi : c.instr = .gath g w x) (hs : c.stopped = false) :
    cmdEvent c = if x.scat then .gathScatterRow c.id else .engineComplete c.id := by
  simp [cmdEvent, hi, hs]

section
variable {x : GathArgs} (h : Map.get? s.cmds id = some c) (hi : c.instr = .gath g w x) (ha : c.accepted = true)
  (hs : c.stopped = false) (hx : x.scat = true) (ho : c.toOwn = [])
include h hi ha hs hx ho

theorem gathScatterRow_index (hr : c.row = none) :
    exec (.gathScatterRow id) s = .next (readRow s c (c.reg x.idx)) := by
  simp [exec_gathScatterRow, execGathScatterRow, h, hi, ha, hs, hx, ho, hr]

/-- R161, R166: a row of a scatter whose target has no line to own is written at once. -/
theorem gathScatterRow_writes {r : Nat} {c' : Cmd} {bs : List Byte} {po : List Bool} (hr : c.row = some r)
    (hne : r ≠ 0xFFFFFFFF) (hpos : c.pos ≠ 0) (hf : c.flushed = false)
    (hread : engRead s c (lineChunks (c.reg x.src + BitVec.ofNat 64 c.step * c.reg x.ss) (c.num x.rowb)) =
      (u, .ok (bs, po)))
    (hc : Map.get? (moveTo u c (c.reg x.dst + BitVec.ofNat 64 r * c.reg x.ds) bs (c.rowMarks po)).cmds id = some c')
    (hown : c'.owned = []) :
    exec (.gathScatterRow id) s = .next
      ((modCmd (moveTo u c (c.reg x.dst + BitVec.ofNat 64 r * c.reg x.ds) bs (c.rowMarks po)) id
        (fun c => { c with flushed := true })).post (.gathScatterRow id)) := by
  simp [exec_gathScatterRow, execGathScatterRow, h, hi, ha, hs, hx, ho, hr, hne, hpos, hf, hread, hc, hown, flushOwned]

end

/-! ## ENC8 (R171) -/

/-- R171: once its source is read, ENC8 has all its writes to make. -/
theorem encodeAll_encodes {x : Enc8Args} {ls : List (List Nat × List Bool)}
    (he : encLines s c x (List.range (c.num x.rows)) = (u, .ok ls)) :
    encodeAll s c x = doneMoving (modCmd u c.id (fun c' => { c' with
      todo := todoOf c' (encWrites c x ls).1
      status := c'.status ||| (if (encWrites c x ls).2 then 4#64 else 0#64) |||
        (if ls.any (fun l => l.2.any (fun b => b)) then 1#64 else 0#64) })) c.id := by
  unfold encodeAll
  rw [he]
  rfl

/-! ## The completion of a command (R158, R346) -/

section
variable (hf : c.flushed = true) (ho : c.owned = []) (hu : c.unacked = [])
include hf ho hu

theorem finishCmd_completes (he : c.ending = false) : finishCmd s c = completeCmd s c := by
  simp [finishCmd, hf, ho, hu, he]

theorem finishCmd_ends (he : c.ending = true) (h2 : c.second = false) : finishCmd s c = endCmd s c := by
  simp [finishCmd, hf, ho, hu, he, h2]

end

theorem completeCmd_none (hm : c.word1.mode = 0#2) : completeCmd s c = endCmd (writeCompletion s c) c := by
  simp [completeCmd, hm]

/-- R346: a pair that is one act is written when the act has its turn. -/
theorem completeCmd_inTurn {p : Place} (hm : c.word1.mode = 1#2) (hc : c.cpl = some p)
    (hr : ∀ pkg pa, p ≠ .page .remotePosted pkg pa) (hh : ∀ pkg pa, p ≠ .page .hostNoncoherent pkg pa)
    (ht : InTurn s (.engineComplete c.id) p true) : completeCmd s c = endCmd (writeCompletion s c) c := by
  have hact : completeCmd s c = atPlace s (.engineComplete c.id) p true false
      (fun s => endCmd (writeCompletion s c) c) := by
    cases p with
    | page kind pkg pa =>
      cases kind
      case remotePosted => exact absurd rfl (hr pkg pa)
      case hostNoncoherent => exact absurd rfl (hh pkg pa)
      all_goals simp [completeCmd, hm, hc]
    | _ => simp [completeCmd, hm, hc]
  rw [hact, atPlace_inTurn ht]

/-- R158: a pair for another package is sent, and the command waits for its acknowledgement. -/
theorem completeCmd_remote {pkg pa : Nat} (hm : c.word1.mode = 1#2) (hc : c.cpl = some (.page .remotePosted pkg pa)) :
    completeCmd s c = modCmd (sendPosted s (domAddr pkg pa) c.part none c.pair false none (some c.id)) c.id
      (fun c => { c with ending := true, unacked := c.unacked ++ [s.fresh] }) := by
  simp [completeCmd, hm, hc]

theorem writeCompletion_spad {q off : Nat} (hm : c.word1.mode = 1#2) (hc : c.cpl = some (.spad q off)) :
    writeCompletion s c = writePlace (feFirst s q off 16) c.core (.spad q off) c.pair false := by
  simp [writeCompletion, hm, hc]

/-! ## COLL (R167 to R170) -/

section
variable {x : CollArgs} (h : Map.get? s.cmds id = some c) (hi : c.instr = .coll g w x) (ha : c.accepted = true)
  (hs : c.stopped = false)
include h hi ha hs

/-- R167: a collective runs once every rank of the band has contributed, and waits until then. -/
theorem collInstanceComplete_of : exec (.collInstanceComplete id) s =
    if ((List.range (partiesOf s c)).map (contribution s c)).all (·.isSome) then
      .next (runColl s (((List.range (partiesOf s c)).map (contribution s c)).filterMap (fun x => x)))
    else .next s := by
  have hk : c.kind = 3 := by simp [Cmd.kind, hi]
  simp only [exec_collInstanceComplete, execCollInstanceComplete, h, hk, ha, hs, bne_self_eq_false, Bool.not_true,
    Bool.or_false, Bool.false_eq_true, if_false]

end

end

/-- Settles O52, an engine at a time: acceptance, a step of MMA, the pieces that FILL, COPY and GATH move, ENC8, the
completion, and collectives. -/
theorem enginesCarryOutTheirCommands : Obligations.EnginesCarryOutTheirCommands := by
  unfold Obligations.EnginesCarryOutTheirCommands
  refine ⟨?accept, ?mma, ?fill, ?copy, ?index, ?rows, ?enc8, ?completion, ?coll⟩
  case accept =>
    intro s id c u h ha hk
    exact ⟨engineAccept_notReady h, fun f => engineAccept_rejects h ha hk, fun c' => engineAccept_owns h ha hk,
      fun c' g w x core slot t hr hc ho hp hi hid _ ht hw => engineAccept_copy h ha hk hr hc ho hp hi hid ht hw⟩
  case mma =>
    intro s id c g w x h hi ha hs hp
    refine ⟨fun va => mmaStep_barred h hi ha hs hp, mmaStep_last h hi ha hs hp, ?_⟩
    rintro i j p v a b sc hp hz hv hclean _ rfl hr rfl
    exact elemStep_clean hp hz hv hclean hr
  case fill =>
    rintro s _ c g w x h hi rfl ha hs ht hb _ p n rfl hp hn h8
    rw [engineComplete_fill h ha ht hs hi, fillPiece_writes hb hp hn h8]
  case copy =>
    rintro s _ c g w x h hi rfl ha hs ht hb _ _ q off n u bs po rfl rfl hp hn
    rw [engineComplete_copy h ha ht hs hi]
    exact ⟨fun hr => congrArg _ (movePiece_spad hb hp hn hr),
      fun va hr => congrArg _ (movePiece_spad_stops hp hn hr)⟩
  case index =>
    rintro s _ c g w x h hi rfl ha hs _ u bs po rfl hrow hr
    refine ⟨fun hx ho => ?_, fun hx ht => ?_⟩
    · rw [gathScatterRow_index h hi ha hs hx ho hrow, readRow_reads hr, cmdEvent_gath hi hs, if_pos hx]
    · rw [engineComplete_gathIndex h ha ht hs hi hx hrow, readRow_reads hr, cmdEvent_gath hi hs, if_neg (by simp [hx])]
  case rows =>
    rintro s _ c g w x r h hi rfl ha hs hrow hne da u bs po
    refine ⟨?_, fun hx ht => engineComplete_gathRow h ha ht hs hi hx hrow hne⟩
    rintro hx ho hpos hf _ rfl hread c' hc hown
    exact gathScatterRow_writes h hi ha hs hx ho hrow hne hpos hf hread hc hown
  case enc8 =>
    rintro s _ c g w x u ls h hi rfl ha hs ht he
    rw [engineComplete_enc8 h ha ht hs hi, encodeAll_encodes he]
  case completion =>
    rintro s _ c h rfl ha hs ht hp
    refine ⟨fun hf ho hu => ?_, completeCmd_none, fun p => completeCmd_inTurn, fun pkg pa hm hc => ?_,
      fun q off => writeCompletion_spad⟩
    · rw [engineComplete_finishes h ha ht hs hp]
      exact ⟨fun he => congrArg _ (finishCmd_completes hf ho hu he),
        fun he h2 => congrArg _ (finishCmd_ends hf ho hu he h2)⟩
    · rw [completeCmd_remote hm hc]
      exact ⟨_, Map.get?_set_self .., rfl, rfl, rfl, rfl, rfl⟩
  case coll =>
    rintro s id c g w x _ h hi ha hs rfl
    rw [collInstanceComplete_of h hi ha hs]
    exact ⟨fun hall => if_pos hall, fun hall => if_neg (by simp [hall]), fun rf n root xs => ⟨rfl, rfl⟩⟩

end Sys2Proof
end

section
/-!
The stream instructions that do not enter the stream unit (R179, R181), and the checks of stream operands (R183).
-/
namespace Sys2Proof
open Machine

section
variable {i : Instr} {d : Desc} {body : Nat → Nat → Thread → State → State} {s : State} {c slot : Nat} {t : Thread}

/-- R380: a stream unit that is not fenced does not fault the instruction that has issued. -/
theorem ssuFault_atIssue (hc : d.commit (reading i t) = false) (hfenced : (s.core c).fencedFns.getLsbD 4 = false) :
    ssuFault ((atIssue i d s c slot t).core c) = none := by
  have hfns : ((atIssue i d s c slot t).core c).fencedFns = (s.core c).fencedFns := by rw [atIssue_core hc]; rfl
  rw [ssuFault, hfns, hfenced]
  rfl

/-- A stream instruction whose effect is on its own thread's context alone is complete in its turn. -/
theorem completes_opZ {u : Thread} (he : exec i = opZ i d body) (hc : d.commit (reading i t) = false)
    (h : Issues d s c slot t) (hp : Plain s c slot t) (hfenced : (s.core c).fencedFns.getLsbD 4 = false)
    (hs : u.stepping = t.stepping)
    (hb : ∀ s1, Becomes s s1 c slot (past i d.len t) → Becomes s (body c slot (reading i t) s1) c slot u) :
    ∃ s', exec i s = .next s' ∧ Becomes s s' c slot u := by
  have B := hb _ (atIssue_becomes h.turn hp.notStepped (.inl hc))
  refine ⟨_, ?_, B⟩
  rw [he, opZ, issue_next h, ssuFault_atIssue hc hfenced]
  exact congrArg _ (afterIssue_eq B hp (hs.trans hp.notStepped))

/-- A stream instruction whose operands fail a check faults. -/
theorem faults_opZ {f : FaultInfo} (he : exec i = opZ i d body) (hc : d.commit (reading i t) = false)
    (h : Issues d s c slot t) (hfenced : (s.core c).fencedFns.getLsbD 4 = false)
    (hb : ∀ s1, body c slot (reading i t) s1 = takeFault s1 c slot f) : FaultsWith i d s c slot t f :=
  faults_of he h (by rw [ssuFault_atIssue hc hfenced]; exact hb _)

end

/-! ## ZCLS and ZCLR (R179, R181) -/

section
variable {g : BitVec 3} {z : BitVec 4} {s : State} {c slot : Nat} {t : Thread}

/-- R179: the mask is written first, so that with one register for both the length code stays. -/
theorem zcls_completes {a b : BitVec 7}
    (h : Issues { guard := g, g := [a.toNat, b.toNat], z := [z.toNat], writes := [a.toNat, b.toNat],
                  zreads := [z.toNat] } s c slot t)
    (hp : Plain s c slot t) (hfenced : (s.core c).fencedFns.getLsbD 4 = false) :
    ∃ s', exec (.zcls g z a b) s = .next s' ∧ Becomes s s' c slot
      (((past (.zcls g z a b) 4 t).setG a.toNat (t.zv z.toNat).cls).setG b.toNat
        ((t.zv z.toNat).len.setWidth 64)) :=
  completes_opZ exec_zcls rfl h hp hfenced (by simp [past]) (fun _ B => (B.writeG _ _).writeG _ _)

/-- R181: the stream has no ones and no class, and its length code is that of ZCTL. -/
theorem zclr_completes (h : Issues { guard := g, z := [z.toNat] } s c slot t) (hp : Plain s c slot t)
    (hfenced : (s.core c).fencedFns.getLsbD 4 = false) :
    ∃ s', exec (.zclr g z) s = .next s' ∧ Becomes s s' c slot
      ((past (.zclr g z) 4 t).setZ z.toNat { bits := 0#4096, len := t.zctl.extractLsb' 0 2, cls := 0#64 }) := by
  rw [← zctlLen_eq]
  exact completes_opZ exec_zclr rfl h hp hfenced rfl (fun _ B => B.modThread _)

end

/-! ## The checks of operands (R183) -/

section
variable {i : Instr} {g : BitVec 3} {d a b : BitVec 4} {f : ZWord → ZWord → ZWord} {s : State} {c slot : Nat}
  {t : Thread} (he : exec i = opZ2 i g d a b f)
  (h : Issues { guard := g, z := [d.toNat, a.toNat, b.toNat], zreads := [a.toNat, b.toNat] } s c slot t)
  (hfenced : (s.core c).fencedFns.getLsbD 4 = false)
include he h hfenced

/-- ZAND, ZOR and ZXNOR of streams of two lengths. -/
theorem opZ2_zlen (hlen : (t.zv a.toNat).len ≠ (t.zv b.toNat).len) :
    FaultsWith i { guard := g, z := [d.toNat, a.toNat, b.toNat], zreads := [a.toNat, b.toNat] } s c slot t
      (zlenFault (t.zv a.toNat) (t.zv b.toNat)) :=
  faults_opZ he rfl h hfenced (fun _ => by simp only [reading_zv, bne_iff_ne.2 hlen, if_true])

/-- ZAND, ZOR and ZXNOR of streams of one length that share a class. -/
theorem opZ2_zcorr (hlen : (t.zv a.toNat).len = (t.zv b.toNat).len)
    (hcls : (t.zv a.toNat).cls &&& (t.zv b.toNat).cls ≠ 0#64) :
    FaultsWith i { guard := g, z := [d.toNat, a.toNat, b.toNat], zreads := [a.toNat, b.toNat] } s c slot t
      (zcorrFault (t.zv a.toNat) (t.zv b.toNat)) :=
  faults_opZ he rfl h hfenced (fun _ => by
    simp only [reading_zv, bne_eq_false_iff_eq.2 hlen, bne_iff_ne.2 hcls, Bool.false_eq_true, if_false, if_true])

end

/-- The three instructions of two streams have one form. -/
theorem exec_eq_opZ2 {mk : BitVec 3 → BitVec 4 → BitVec 4 → BitVec 4 → Instr}
    (hmk : mk ∈ [Instr.zand, Instr.zor, Instr.zxnor]) (g : BitVec 3) (d a b : BitVec 4) :
    ∃ f, exec (mk g d a b) = opZ2 (mk g d a b) g d a b f := by
  simp only [List.mem_cons, List.not_mem_nil, or_false] at hmk
  rcases hmk with rfl | rfl | rfl
  · exact ⟨_, exec_zand⟩
  · exact ⟨_, exec_zor⟩
  · exact ⟨_, exec_zxnor⟩

/-- Settles O16: ZCLS and ZCLR change their own thread alone (`completes_opZ`), and each check of operands faults where
the checks before it pass (`faults_opZ`). -/
theorem streamMetadataInstructionsAndChecks : Obligations.StreamMetadataInstructionsAndChecks := by
  unfold Obligations.StreamMetadataInstructionsAndChecks
  refine ⟨⟨?zcls, ?zclr⟩, ?binary, ?zmux⟩
  case zcls => exact fun g z a b s c slot t => zcls_completes
  case zclr => exact fun g z s c slot t => zclr_completes
  case binary =>
    intro g d a b s c slot t mk hmk h hfenced
    obtain ⟨f, he⟩ := exec_eq_opZ2 hmk g d a b
    exact ⟨opZ2_zlen he h hfenced, opZ2_zcorr he h hfenced⟩
  case zmux =>
    intro g d a b sel s c slot t h hfenced x y z
    have passes {n : Nat} {v w : BitVec n} (e : v = w) : ¬(v != w) = true := fun hne => bne_iff_ne.1 hne e
    refine ⟨fun hxy => ?_, fun hxy hxz => ?_, fun hxy hxz hzx => ?_, fun hxy hxz hzx hzy => ?_⟩
    all_goals refine faults_opZ exec_zmux rfl h hfenced (fun s1 => ?_)
    · exact if_pos (bne_iff_ne.2 hxy)
    · exact (if_neg (passes hxy)).trans (if_pos (bne_iff_ne.2 hxz))
    · exact (if_neg (passes hxy)).trans ((if_neg (passes hxz)).trans (if_pos (bne_iff_ne.2 hzx)))
    · exact (if_neg (passes hxy)).trans ((if_neg (passes hxz)).trans
        ((if_neg (passes hzx)).trans (if_pos (bne_iff_ne.2 hzy))))

end Sys2Proof
end

section
/-!
BRK, and instructions that are stepped (R203, R208).
-/
namespace Sys2Proof
open Machine

section
variable {i : Instr} {d : Desc} {body : Nat → Nat → Thread → State → State} {s : State} {c slot : Nat} {t : Thread}

/-- R26: the thread of an instruction that faults is FAULTED at it, and has one fault more. -/
theorem FaultsWith.thread {f : FaultInfo} (h : FaultsWith i d s c slot t f) :
    ∃ s' u, exec i s = .next s' ∧ s'.thread? c slot = some u ∧ u.code = .faulted ∧ u.pc = t.pc ∧
      u.faults = t.faults + 1#64 := by
  obtain ⟨latch, hu⟩ := takeFault_thread (atIssue_thread i d s c slot t) f
  exact ⟨_, _, h, hu, rfl, rfl, rfl⟩

theorem postCommit_unpaired (h : (s.core c).lock = none) : postCommit s c slot = s := by
  simp only [postCommit, h]

/-- R385: an instruction that asks for no commit issues with the lock-step state of its core as it is. -/
theorem atIssue_lock (hc : d.commit (reading i t) = false) :
    ((atIssue i d s c slot t).core c).lock = (s.core c).lock := by
  rw [atIssue_core hc]
  rfl

/-- R203: the thread of a stepped instruction, past it, with the word of its STEP fault. -/
theorem issued_stepping {w : Option (BitVec 32)} (hs : t.stepping = some w) (len : Nat) :
    issued (reading i t) (encode32 i) len = { past i len t with stepping := some (some (encode32 i)) } := by
  simp only [issued, reading, past, hs, Option.map_some]

/-- R203: an instruction of a stepped thread that is complete in its turn, on an unpaired core, faults STEP at the
next. -/
theorem steps_of {s1 : State} {u : Thread} {w : BitVec 32} (he : exec i = issue i d body) (h : Issues d s c slot t)
    (hb : body c slot (reading i t) (atIssue i d s c slot t) = s1) (hu : s1.thread? c slot = some u)
    (hc : u.code = .running) (hs : u.stepping = some (some w)) (hl : (s1.core c).lock = none) :
    exec i s = .next (enterFault s1 c slot u.pc { mkFault fcStep 0#64 0#64 with word := w }) := by
  have hstepped : u.stepped = some w := by rw [Thread.stepped, hs]; rfl
  rw [he, issue_next h, hb]
  simp only [afterIssue, hu, hc, if_true, postCommit_unpaired hl, stepFault, hstepped]

end

theorem exec_add_issues (g : BitVec 3) (d a b : BitVec 7) : exec (.add g d a b) =
    issue (.add g d a b) (dRRR g d a b) (fun c slot t s => writeG s c slot d.toNat (t.gv a.toNat + t.gv b.toNat)) :=
  funext fun s => by rw [exec_add, execAdd, opRRR]; rfl

/-- R203: ADD of a stepped thread writes its sum and then faults STEP. -/
theorem add_steps {g : BitVec 3} {d a b : BitVec 7} {s : State} {c slot : Nat} {t : Thread} {w : Option (BitVec 32)}
    (h : Issues (dRRR g d a b) s c slot t) (hc : t.code = .running) (hs : t.stepping = some w)
    (hl : (s.core c).lock = none) :
    ∃ s1 u, exec (.add g d a b) s =
        .next (enterFault s1 c slot (t.pc + 4#64) { mkFault fcStep 0#64 0#64 with word := encode32 (.add g d a b) }) ∧
      s1.thread? c slot = some u ∧
      u = ({ past (.add g d a b) 4 t with stepping := some (some (encode32 (.add g d a b))) } : Thread).setG d.toNat
        (t.gv a.toNat + t.gv b.toNat) := by
  have hthread := (atIssue_thread (.add g d a b) (dRRR g d a b) s c slot t).trans (congrArg some (issued_stepping hs 4))
  have hu := writeG_thread hthread d.toNat (t.gv a.toNat + t.gv b.toNat)
  have hlock := (writeG_lock _ c slot d.toNat (t.gv a.toNat + t.gv b.toNat) c).trans
    ((atIssue_lock (i := .add g d a b) (d := dRRR g d a b) (slot := slot) (t := t) rfl).trans hl)
  refine ⟨_, _, ?_, hu, rfl⟩
  have hstep := steps_of (exec_add_issues g d a b) h rfl hu (by rw [Thread.setG_eq]; exact hc)
    (by rw [Thread.setG_stepping]) hlock
  rw [hstep, Thread.setG_eq]
  rfl

/-- Settles O24: BRK is a fault (`FaultsWith.thread`), and a stepped ADD faults STEP with its sum written
(`add_steps`). -/
theorem breakAndStepEndInTheirFaults : Obligations.BreakAndStepEndInTheirFaults := by
  unfold Obligations.BreakAndStepEndInTheirFaults
  refine ⟨?brk, ?step⟩
  case brk =>
    intro g imm s c slot t h
    have F : FaultsWith (.brk g imm) { guard := g } s c slot t (mkFault fcBreak 0#64 (imm.setWidth 64)) :=
      faults_of exec_brk h rfl
    exact ⟨F, F.thread⟩
  case step =>
    intro g d a b s c slot t w h hc hs hl
    obtain ⟨s1, u, he, hu, rfl⟩ := add_steps h hc hs hl
    refine ⟨s1, _, he, hu, ?_, ?_, ?_⟩
    · rw [Thread.setG_eq]
      rfl
    · rw [Thread.setG_gv]
      by_cases hd : d = 0#7
      · simp [hd, Thread.gv]
      · have hd0 : d.toNat ≠ 0 := fun h0 => hd (BitVec.eq_of_toNat_eq h0)
        rw [if_pos ⟨rfl, hd0⟩, if_neg hd]
    · rw [Thread.setG_eq]
      rfl

end Sys2Proof
end

section
/-!
Thread packets at their target (R189, R192, R193, R243, R244).
-/
namespace Sys2Proof
open Machine

/-! ## A queue of packets that moves on -/

/-- A core but for its queues of packets. -/
def noQueues (k : Core) : Core := { k with ctxWait := [], visitWait := [] }

/-- Nothing has changed but the queues in which packets wait at cores. -/
structure QueuesOnly (s s' : State) : Prop where
  cores : ∀ x, noQueues (s'.core x) = noQueues (s.core x)
  rest : { s' with cores := [] } = { s with cores := [] }

theorem QueuesOnly.refl (s : State) : QueuesOnly s s := ⟨fun _ => rfl, rfl⟩

theorem QueuesOnly.setCore {s : State} {c : Nat} {k : Core} (h : noQueues k = noQueues (s.core c)) :
    QueuesOnly s (s.setCore c k) := by
  refine ⟨fun x => ?_, rfl⟩
  rw [State.core_setCore]
  split
  · subst_vars
    exact h
  · rfl

section
variable {s s' : State} (h : QueuesOnly s s')
include h

theorem QueuesOnly.field {α : Type} (f : State → α) (hf : ∀ s, f { s with cores := [] } = f s) : f s' = f s := by
  rw [← hf s', ← hf s, h.rest]

theorem QueuesOnly.coreField {α : Type} (f : Core → α) (hf : ∀ k, f (noQueues k) = f k) (x : Nat) :
    f (s'.core x) = f (s.core x) := by
  rw [← hf, ← hf (s.core x), h.cores]

theorem QueuesOnly.threads (x : Nat) : (s'.core x).threads = (s.core x).threads :=
  h.coreField (·.threads) (fun _ => rfl) x

theorem QueuesOnly.reserved (x : Nat) : (s'.core x).reservedSlots = (s.core x).reservedSlots :=
  h.coreField (·.reservedSlots) (fun _ => rfl) x

theorem QueuesOnly.thread (x y : Nat) : s'.thread? x y = s.thread? x y := by
  rw [State.thread?, h.threads, State.thread?]

theorem QueuesOnly.lowestSlot (c a n : Nat) : Machine.lowestSlot (s'.core c) a n = Machine.lowestSlot (s.core c) a n :=
  lowestSlot_congr _ _ (h.threads c) (h.reserved c) a n

theorem QueuesOnly.coreStopping (c : Nat) : Machine.coreStopping s' c = Machine.coreStopping s c :=
  coreStopping_of (h.field (·.plat) (fun _ => rfl)) (h.field (·.parts) (fun _ => rfl))
    (h.coreField (·.owner) (fun _ => rfl) c)

theorem QueuesOnly.draining (c : Nat) : Machine.draining s' c = Machine.draining s c := by
  have hmembers : hasThreads s' = hasThreads s := by
    funext g
    unfold hasThreads
    rw [h.threads, h.field (·.packets) (fun _ => rfl)]
  unfold Machine.draining
  rw [hmembers, h.field (·.groups) (fun _ => rfl), h.field State.launch? (fun _ => rfl)]

theorem QueuesOnly.contexts (c : Nat) : Machine.contexts s' c = Machine.contexts s c := by
  unfold Machine.contexts residents drainSlots
  rw [h.threads, h.reserved, h.draining]

theorem QueuesOnly.slotsUsed (c : Nat) : Machine.slotsUsed s' c = Machine.slotsUsed s c := by
  unfold Machine.slotsUsed drainSlots
  rw [h.threads, h.reserved, h.draining]

theorem QueuesOnly.poolsFit (c m z : Nat) : Machine.poolsFit s' c m z = Machine.poolsFit s c m z := by
  unfold Machine.poolsFit vUsed zUsed claimants recruits
  rw [h.threads, h.draining, h.field (·.packets) (fun _ => rfl), h.field isSaved (fun _ => rfl)]

theorem QueuesOnly.waits {c slot : Nat} {t : Thread} {w : Wait} (hw : Waits s c slot t w) : Waits s' c slot t w :=
  hw.of_thread (h.thread c slot)

end

/-! ## SPAWN's packet (R189) -/

/-- R189: the thread of SPAWN's packet has its slot, its room and its context at its target, and is not held there. -/
structure SpawnFits (s : State) (p : Packet) (slot : Nat) : Prop where
  slot : lowestSlot (s.core p.target) 0 4080 = some slot
  unsaved : isSaved s p.thread.gid = false
  pools : poolsFit s p.target p.thread.m p.thread.zc = true
  room : backing p.thread.n p.thread.m p.thread.zc ≤ layByRoom s p.thread.part
  context : contexts s p.target < 512
  slots : slotsUsed s p.target < 4080
  running : coreStopping s p.target = false
  unheld : ∀ l, s.launch? p.thread.lid = some l → l.preempting = false

theorem SpawnFits.of_queues {s s' : State} {p : Packet} {slot : Nat} (f : SpawnFits s p slot) (h : QueuesOnly s s') :
    SpawnFits s' p slot where
  slot := (h.lowestSlot ..).trans f.slot
  unsaved := (congrFun (h.field isSaved (fun _ => rfl)) _).trans f.unsaved
  pools := (h.poolsFit ..).trans f.pools
  room := by rw [h.field layByRoom (fun _ => rfl)]; exact f.room
  context := by rw [h.contexts]; exact f.context
  slots := by rw [h.slotsUsed]; exact f.slots
  running := (h.coreStopping _).trans f.running
  unheld := by rw [h.field State.launch? (fun _ => rfl)]; exact f.unheld

/-- R15, R189: the thread of SPAWN's packet, READY in the room that it takes. -/
def spawned (p : Packet) : Thread :=
  { p.thread with room := backing p.thread.n p.thread.m p.thread.zc, away := false, code := .ready, slept := false,
                  sleepFor := 0 }

/-- R15: the thread of another packet, READY. -/
def arrived (p : Packet) : Thread := { p.thread with away := false, code := .ready, slept := false, sleepFor := 0 }

section
variable {s : State} {p : Packet} {id slot : Nat}

/-- R189: a packet that fits starts its thread, and its issuer has the handle. -/
theorem trySpawn_starts {s0 : State} {r : TRef} {u : Thread} {d x : Nat} (hq : QueuesOnly s0 s)
    (f : SpawnFits s0 p slot) (hi : p.issuer = some r) (hw : Waits s0 r.core r.slot u (.packet d x))
    (hr : p.reply = none) :
    ∃ s', trySpawn s p = some s' ∧ s'.thread? p.target slot = some (spawned p) ∧
      Resumed s' r.core r.slot (u.setG d (handleOf s0 p.target slot)) ∧ s'.packets = Map.erase s0.packets p.id := by
  have g := f.of_queues hq
  have hh : handleOf s p.target slot = handleOf s0 p.target slot :=
    handleOf_eq (hq.field (·.pkg) (fun _ => rfl)) (hq.coreField (·.owner) (fun _ => rfl) _)
      (hq.coreField (·.gens) (fun _ => rfl) _)
  rw [← hh, ← hq.field (·.packets) (fun _ => rfl)]
  exact spawn_of hi (hq.waits hw) g.slot g.unsaved g.pools g.room g.context g.slots hr g.running g.unheld

theorem threadPacketArrive_spawn {s' : State} (hp : Map.get? s.packets id = some p) (hk : p.kind = 0)
    (hs : p.slot = none) (hc : (s.core p.target).ctxWait = []) (hv : id ∉ (s.core p.target).visitWait)
    (h : trySpawn s p = some s') : exec (.threadPacketArrive id) s = .next s' := by
  rw [exec_threadPacketArrive, execThreadPacketArrive]
  simp only [hp, hc, hs, hk, h, List.not_mem_nil, List.contains_eq_mem, hv, decide_false, Bool.or_self,
    Bool.false_eq_true, if_false, if_true, List.isEmpty_nil]

theorem contextGrant_spawn {s' : State} {c : Nat} {rest : List CtxReq} (hp : Map.get? s.packets id = some p)
    (hc : (s.core c).ctxWait = .packet id :: rest)
    (h : trySpawn (s.setCore c { s.core c with ctxWait := rest }) p = some s') :
    exec (.contextGrant c) s = .next (postCtx s' c) := by
  rw [exec_contextGrant, execContextGrant]
  simp only [hc, hp, h]

/-- R189: SPAWN's packet starts its thread where it arrives and nothing waits before it, or when it is the first that
waits and a context comes free. -/
theorem spawn_starts {r : TRef} {u : Thread} {d x : Nat} {e : Instr} (hp : Map.get? s.packets id = some p)
    (hk : p.kind = 0) (hs : p.slot = none) (f : SpawnFits s p slot) (hi : p.issuer = some r)
    (hw : Waits s r.core r.slot u (.packet d x)) (hr : p.reply = none)
    (he : e = .threadPacketArrive id ∧ (s.core p.target).ctxWait = [] ∧ id ∉ (s.core p.target).visitWait ∨
      e = .contextGrant p.target ∧ (s.core p.target).ctxWait.head? = some (.packet id)) :
    ∃ s', exec e s = .next s' ∧ s'.thread? p.target slot = some (spawned p) ∧
      Resumed s' r.core r.slot (u.setG d (handleOf s p.target slot)) ∧ s'.packets = Map.erase s.packets p.id := by
  rcases he with ⟨rfl, hc, hv⟩ | ⟨rfl, hc⟩
  · obtain ⟨s', h, hstarts⟩ := trySpawn_starts (.refl s) f hi hw hr
    exact ⟨s', threadPacketArrive_spawn hp hk hs hc hv h, hstarts⟩
  · obtain ⟨rest, hrest⟩ := List.head?_eq_some_iff.1 hc
    obtain ⟨s', h, hthread, hres, hpackets⟩ := trySpawn_starts
      (s := s.setCore p.target { s.core p.target with ctxWait := rest }) (.setCore rfl) f hi hw hr
    refine ⟨_, contextGrant_spawn hp hrest h, ?_, hres.postCtx _, (postCtx_packets ..).trans hpackets⟩
    rw [State.thread?, postCtx_core]
    exact hthread

/-! ## FORK's packet (R193) -/

/-- R193: a recruit's packet starts its thread in the slot that FORK has taken for it. -/
theorem threadPacketArrive_recruit (hp : Map.get? s.packets id = some p) (hs : p.slot = some slot)
    (hstop : coreStopping s p.target = false) (hc : .packet id ∉ (s.core p.target).ctxWait)
    (hv : id ∉ (s.core p.target).visitWait) (hl : ∀ l, s.launch? p.thread.lid = some l → l.preempting = false) :
    ∃ s', exec (.threadPacketArrive id) s = .next s' ∧ s'.packets = Map.erase s.packets p.id ∧
      s'.thread? p.target slot = some (arrived p) := by
  obtain ⟨u, hu⟩ : ∃ u : State, u = ({ s with packets := Map.erase s.packets p.id } : State).modCore p.target
      (fun k => { k with reservedSlots := k.reservedSlots.filter (· != slot) }) := ⟨_, rfl⟩
  have hstop' : coreStopping u p.target = false := by
    rw [← hstop, hu]
    exact coreStopping_of rfl rfl (by rw [State.core_modCore_self]; rfl)
  obtain ⟨hthread, -, hrest⟩ := allocThread_thread (slot := slot) (t := p.thread) hstop'
  have hheld : holdNew (allocThread u p.target slot p.thread) p.target slot p.gid p.lid =
      allocThread u p.target slot p.thread := by
    refine holdNew_id (fun l h => hl l ?_)
    rw [hrest.field State.launch? (fun _ => rfl), hu] at h
    exact h
  refine ⟨allocThread u p.target slot p.thread, ?_, ?_, hthread⟩
  · rw [exec_threadPacketArrive, execThreadPacketArrive]
    simp only [hp, hs, List.contains_eq_mem, hc, hv, decide_false, Bool.or_self, Bool.false_eq_true, if_false]
    rw [startRecruit, ← hu, hheld]
  · rw [hrest.field (·.packets) (fun _ => rfl), hu]
    rfl

/-! ## Messages and migrants (R191, R192, R244) -/

/-- R192, R244: the thread of a message or a migrant has its slot at its target, and someone of this package waits for
it to be taken. -/
structure VisitorFits (s : State) (p : Packet) (slot : Nat) (r : TRef) (u : Thread) (d x : Nat) : Prop where
  slot : lowestSlot (s.core p.target) 4080 16 = some slot
  running : coreStopping s p.target = false
  issuer : p.issuer = some r
  waits : Waits s r.core r.slot u (.packet d x)
  unstopped : u.sstop = false
  noReply : p.reply = none

variable {r : TRef} {u : Thread} {d x : Nat}

theorem VisitorFits.of_queues {s' : State} (f : VisitorFits s p slot r u d x) (h : QueuesOnly s s') :
    VisitorFits s' p slot r u d x :=
  ⟨(h.lowestSlot ..).trans f.slot, (h.coreStopping _).trans f.running, f.issuer, h.waits f.waits, f.unstopped, f.noReply⟩

/-- The slot is free, so its thread is not the one that waits. -/
theorem VisitorFits.ne (f : VisitorFits s p slot r u d x) : ¬(r.core = p.target ∧ r.slot = slot) := by
  rintro ⟨hc, hx⟩
  have hfree : s.thread? p.target slot = none := lowestSlot_free _ _ _ _ f.slot
  have hthread := f.waits.thread
  rw [hc, hx, hfree] at hthread
  cases hthread

theorem VisitorFits.packetIssuer {s' : State} (f : VisitorFits s p slot r u d x)
    (h : s'.thread? r.core r.slot = s.thread? r.core r.slot) : packetIssuer s' p = some (r, u, d) := by
  unfold Machine.packetIssuer
  simp only [f.issuer, Option.bind_some, h, f.waits.thread, f.waits.wait]

/-- R192: a message's thread starts, and its sender has 0. -/
theorem takeVisitor_message (f : VisitorFits s p slot r u d x) (hk : p.kind ≠ 1) :
    (takeVisitor s p slot).thread? p.target slot = some (arrived p) ∧
      (takeVisitor s p slot).packets = Map.erase s.packets p.id ∧
      Resumed (takeVisitor s p slot) r.core r.slot (u.setG d 0#64) := by
  obtain ⟨a, ha⟩ : ∃ a, a = allocThread { s with packets := Map.erase s.packets p.id } p.target slot p.thread :=
    ⟨_, rfl⟩
  obtain ⟨hthread, hothers, hrest⟩ := allocThread_thread
    (s := { s with packets := Map.erase s.packets p.id }) (slot := slot) (t := p.thread) f.running
  rw [← ha] at hthread hothers hrest
  have hsame : a.thread? r.core r.slot = s.thread? r.core r.slot := hothers _ _ f.ne
  have hw : Waits a r.core r.slot u (.packet d x) := f.waits.of_thread hsame
  have htake : takeVisitor s p slot = finishWait (writeG a r.core r.slot d 0#64) r.core r.slot := by
    unfold takeVisitor packetDone
    simp only [hk, if_false, ← ha, f.packetIssuer hsame, f.noReply]
  rw [htake]
  refine ⟨(hw.finish_ne d 0#64 (fun h => f.ne ⟨h.1.symm, h.2.symm⟩)).trans hthread, ?_, hw.finish a hw.thread d 0#64⟩
  rw [finishWait_packets, writeG_packets]
  exact hrest.field (·.packets) (fun _ => rfl)

/-- R191, R244: a migrant that leaves its slot leaves every other thread as it was. -/
theorem leaveSlot_leaves {v : State} (h : v.thread? r.core r.slot = some u) (q : Nat) (hq : coreStopping v q = false) :
    (leaveSlot v r).thread? r.core r.slot = none ∧ (leaveSlot v r).packets = v.packets ∧
      coreStopping (leaveSlot v r) q = false := by
  obtain ⟨hgone, -, hpackets, hstop⟩ := clearSlot_spec h q hq
  unfold leaveSlot
  simp only [h]
  split
  · exact ⟨hgone, hpackets, hstop⟩
  · exact ⟨hgone, hpackets, hstop⟩

/-- R191, R244: a migrant's thread starts, and its old slot is free. -/
theorem takeVisitor_migrant (f : VisitorFits s p slot r u d x) (hk : p.kind = 1) :
    (takeVisitor s p slot).thread? p.target slot = some (arrived p) ∧
      (takeVisitor s p slot).packets = Map.erase s.packets p.id ∧
      (takeVisitor s p slot).thread? r.core r.slot = none := by
  obtain ⟨v, hv⟩ : ∃ v : State, v = moveWork { s with packets := Map.erase s.packets p.id } r ⟨p.target, slot⟩ :=
    ⟨_, rfl⟩
  have hthread : v.thread? r.core r.slot = some u := by rw [hv]; exact f.waits.thread
  obtain ⟨hgone, hpackets, hstop⟩ := leaveSlot_leaves hthread p.target (by rw [hv]; exact f.running)
  obtain ⟨hnew, hothers, hrest⟩ := allocThread_thread (slot := slot) (t := p.thread) hstop
  have htake : takeVisitor s p slot = allocThread (leaveSlot v r) p.target slot p.thread := by
    have hi : packetIssuer { s with packets := Map.erase s.packets p.id } p = some (r, u, d) := f.packetIssuer rfl
    unfold takeVisitor takeMigrant
    simp only [hk, if_true, hi, ← hv, f.unstopped, f.noReply, Bool.false_eq_true, if_false]
  rw [htake]
  refine ⟨hnew, ?_, (hothers _ _ f.ne).trans hgone⟩
  rw [hrest.field (·.packets) (fun _ => rfl), hpackets, hv]
  rfl

/-- What the packet of a message or of a migrant leaves when its thread has started. -/
structure VisitorStarted (s s' : State) (p : Packet) (slot : Nat) (r : TRef) (u : Thread) (d : Nat) : Prop where
  thread : s'.thread? p.target slot = some (arrived p)
  packets : s'.packets = Map.erase s.packets p.id
  issuer : if p.kind = 1 then s'.thread? r.core r.slot = none else Resumed s' r.core r.slot (u.setG d 0#64)

theorem takeVisitor_starts (f : VisitorFits s p slot r u d x) :
    VisitorStarted s (takeVisitor s p slot) p slot r u d := by
  by_cases hk : p.kind = 1
  · obtain ⟨hthread, hpackets, hgone⟩ := takeVisitor_migrant f hk
    exact ⟨hthread, hpackets, by rw [if_pos hk]; exact hgone⟩
  · obtain ⟨hthread, hpackets, hres⟩ := takeVisitor_message f hk
    exact ⟨hthread, hpackets, by rw [if_neg hk]; exact hres⟩

theorem VisitorStarted.post {s' : State} (h : VisitorStarted s s' p slot r u d) (e : Event) :
    VisitorStarted s (s'.post e) p slot r u d := by
  refine ⟨h.thread, h.packets, ?_⟩
  have hi := h.issuer
  by_cases hk : p.kind = 1
  · rw [if_pos hk] at hi ⊢
    exact hi
  · rw [if_neg hk] at hi ⊢
    exact ⟨hi.thread, hi.queued⟩

/-- R244: a packet takes its slot where it arrives and nothing waits before it, or when it is the first that waits and
a slot comes free. -/
theorem visitor_starts {e : Instr} (hp : Map.get? s.packets id = some p) (hk : p.kind ≠ 0) (hs : p.slot = none)
    (f : VisitorFits s p slot r u d x)
    (he : e = .threadPacketArrive id ∧ (s.core p.target).visitWait = [] ∧ .packet id ∉ (s.core p.target).ctxWait ∨
      e = .visitorSlotGrant p.target ∧ (s.core p.target).visitWait.head? = some id) :
    ∃ s', exec e s = .next s' ∧ VisitorStarted s s' p slot r u d := by
  rcases he with ⟨rfl, hv, hc⟩ | ⟨rfl, hv⟩
  · refine ⟨_, ?_, takeVisitor_starts f⟩
    rw [exec_threadPacketArrive, execThreadPacketArrive]
    simp only [hp, hv, hs, hk, f.slot, List.not_mem_nil, List.contains_eq_mem, hc, decide_false, Bool.or_self,
      Bool.false_eq_true, if_false, if_true, List.isEmpty_nil]
  · obtain ⟨rest, hrest⟩ := List.head?_eq_some_iff.1 hv
    have hq : QueuesOnly s (s.setCore p.target { s.core p.target with visitWait := rest }) := .setCore rfl
    have hstarts := takeVisitor_starts (f.of_queues hq)
    have hstarts' : VisitorStarted s (takeVisitor (s.setCore p.target { s.core p.target with visitWait := rest }) p slot)
        p slot r u d := ⟨hstarts.thread, hstarts.packets, hstarts.issuer⟩
    rw [exec_visitorSlotGrant, execVisitorSlotGrant]
    simp only [hrest, hp, f.slot]
    split
    · exact ⟨_, rfl, hstarts'⟩
    · exact ⟨_, rfl, hstarts'.post _⟩

end

/-- Settles O33: SPAWN's packet (`spawn_starts`), FORK's (`threadPacketArrive_recruit`), and those of messages and
migrants (`visitor_starts`). -/
theorem threadPacketsStartThreads : Obligations.ThreadPacketsStartThreads := by
  unfold Obligations.ThreadPacketsStartThreads
  refine ⟨?spawn, ?recruit, ?visitor⟩
  case spawn =>
    rintro id s p slot r u d x _ e hp hk hs hi hw hslot hsaved hpools hroom hctx hslots hr hstop hl rfl he
    exact spawn_starts hp hk hs ⟨hslot, hsaved, hpools, hroom, hctx, hslots, hstop, hl⟩ hi hw hr he
  case recruit =>
    intro id s p slot hp hs hstop hc hv hl
    exact threadPacketArrive_recruit hp hs hstop hc hv hl
  case visitor =>
    rintro id s p slot r u d x _ e hp hk hs hi hw hst hslot hstop hr rfl he
    obtain ⟨s', hexec, hthread, hpackets, hissuer⟩ :=
      visitor_starts hp (by omega) hs ⟨hslot, hstop, hi, hw, hst, hr⟩ he
    exact ⟨s', hexec, hthread, hpackets, hissuer⟩

end Sys2Proof
end

section
/-!
SPAWN and SEND (R189, R192, R243).
-/
namespace Sys2Proof
open Machine

section
variable {s : State} {c slot d q : Nat} {t : Thread} {name start : Word}

/-- R189: SPAWN's packet leaves for a core that hosts a group of the launch. -/
theorem doSpawn_sends {gr : Group} (hp : hPkg name = s.pkg) (hq : namedCore s t.part name = some q)
    (hg : groupOn s q t.lid = some gr) : doSpawn s c slot t d name start =
      sendPacket (beginWait s c slot .waiting (.packet d s.fresh)) 0 q
        { childOf s t start (gRange t 1 4) with gid := gr.gid } ⟨c, slot⟩ := by
  unfold doSpawn
  simp only [hp, hq, hg, bne_self_eq_false, Bool.false_eq_true, if_false]

/-- R189: why SPAWN fails, and the code that it answers. -/
def SpawnCode (s : State) (t : Thread) (name : Word) (r : Nat) : Prop :=
  hPkg name ≠ s.pkg ∧ r = 3 ∨ hPkg name = s.pkg ∧ namedCore s t.part name = none ∧ r = 2 ∨
    hPkg name = s.pkg ∧ (∃ q, namedCore s t.part name = some q ∧ groupOn s q t.lid = none) ∧ r = 1

theorem doSpawn_fails {r : Nat} (h : SpawnCode s t name r) :
    doSpawn s c slot t d name start = writeG s c slot d (spawnFail t.part name r) := by
  unfold doSpawn
  rcases h with ⟨hp, rfl⟩ | ⟨hp, hq, rfl⟩ | ⟨hp, ⟨q, hq, hg⟩, rfl⟩
  · rw [if_pos (bne_iff_ne.2 hp)]
  · simp only [hp, hq, bne_self_eq_false, Bool.false_eq_true, if_false]
  · simp only [hp, hq, hg, bne_self_eq_false, Bool.false_eq_true, if_false]

/-- R192: SEND's packet leaves for a core that hosts a group of the launch. -/
theorem doSend_sends {gr : Group} (hp : hPkg name = s.pkg) (hq : namedCore s t.part name = some q)
    (hg : groupOn s q t.lid = some gr) : doSend s c slot t d name start =
      sendPacket (beginWait s c slot .waiting (.packet d s.fresh)) 2 q (handlerOf s t start) ⟨c, slot⟩ := by
  unfold doSend
  simp only [hp, hq, hg, bne_self_eq_false, Bool.false_eq_true, if_false]

/-- R192: why SEND to a core of this package fails, and the code that it answers. -/
def SendCode (s : State) (t : Thread) (name : Word) (r : Word) : Prop :=
  namedCore s t.part name = none ∧ r = 2#64 ∨
    (∃ q, namedCore s t.part name = some q ∧ groupOn s q t.lid = none) ∧ r = 1#64

theorem doSend_fails {r : Word} (hp : hPkg name = s.pkg) (h : SendCode s t name r) :
    doSend s c slot t d name start = writeG s c slot d r := by
  unfold doSend
  rcases h with ⟨hq, rfl⟩ | ⟨⟨q, hq, hg⟩, rfl⟩
  · simp only [hp, hq, bne_self_eq_false, Bool.false_eq_true, if_false]
  · simp only [hp, hq, hg, bne_self_eq_false, Bool.false_eq_true, if_false]

end

/-! ## What an instruction that issues finds as before -/

section
variable {s s1 : State} {c slot : Nat} {u : Thread} (B : Becomes s s1 c slot u)
include B

theorem Becomes.pkg : s1.pkg = s.pkg := B.field (·.pkg) (fun _ => rfl)

theorem Becomes.childOf (i : Instr) (t : Thread) (pc : Word) (m : Map Word) :
    Machine.childOf s1 (reading i t) pc m = Machine.childOf s t pc m := by
  have hl := congrFun (B.field State.launch? (fun _ => rfl)) t.lid
  unfold Machine.childOf reading
  rw [hl]

theorem Becomes.handlerOf (i : Instr) (t : Thread) (pc : Word) :
    Machine.handlerOf s1 (reading i t) pc = Machine.handlerOf s t pc := by
  unfold Machine.handlerOf
  rw [B.childOf]
  rfl

theorem Becomes.spawnCode (i : Instr) {t : Thread} {name : Word} {r : Nat} (h : SpawnCode s t name r) :
    SpawnCode s1 (reading i t) name r := by
  unfold SpawnCode
  simp only [B.pkg, B.named, B.groupOn]
  exact h

theorem Becomes.sendCode (i : Instr) {t : Thread} {name r : Word} (h : SendCode s t name r) :
    SendCode s1 (reading i t) name r := by
  unfold SendCode
  simp only [B.named, B.groupOn]
  exact h

end

/-! ## The instructions -/

/-- What SPAWN and SEND name: the registers that their packets carry are read (R189, R192). -/
def dSpawn (g : BitVec 3) (d a b : BitVec 7) : Desc :=
  { guard := g, g := [d.toNat, a.toNat, b.toNat], reads := [a.toNat, b.toNat, 1, 2, 3, 4], writes := [d.toNat],
    drain := true }
def dSend (g : BitVec 3) (d a b : BitVec 7) : Desc :=
  { guard := g, g := [d.toNat, a.toNat, b.toNat], reads := [a.toNat, b.toNat, 1, 2, 3, 4, 5, 6, 7, 8, 9, 10],
    writes := [d.toNat], drain := true }

/-- R243: an instruction whose effect is a packet leaves with it. -/
theorem leaves_packet {i : Instr} {D : Desc} {body : Nat → Nat → Thread → State → State} {s : State} {c slot : Nat}
    {t child : Thread} {d kind q : Nat} (he : exec i = issue i D body) (hlen : D.len = 4) (h : Issues D s c slot t)
    (hp : Plain s c slot t) (hl : (s.core c).lock = none)
    (hb : ∀ s1, Becomes s s1 c slot (past i 4 t) → body c slot (reading i t) s1 =
      sendPacket (beginWait s1 c slot .waiting (.packet d s1.fresh)) kind q child ⟨c, slot⟩) :
    ∃ s', exec i s = .next s' ∧ .threadPacketArrive s.fresh ∈ s'.agenda ∧
      Left i { s with fresh := s.fresh + 1, packets := Map.set s.packets s.fresh
                        (buildPacket s kind c q child (some ⟨c, slot⟩)) }
        s' c slot t .waiting (.packet d s.fresh) s.watches := by
  have B := atIssue_becomes (i := i) (d := D) h.turn hp.notStepped (.inr hl)
  rw [hlen] at B
  obtain ⟨L, hmem⟩ := Left.packet B d kind q child
  exact ⟨_, leaves_of he h (hb _ B) L.thread (by simp), hmem, L⟩

section
variable {g : BitVec 3} {d a b : BitVec 7} {s : State} {c slot q : Nat} {t : Thread}

theorem spawn_leaves {gr : Group} (h : Issues (dSpawn g d a b) s c slot t) (hp : Plain s c slot t)
    (hl : (s.core c).lock = none) (hk : hPkg (t.gv a.toNat) = s.pkg)
    (hq : namedCore s t.part (t.gv a.toNat) = some q) (hg : groupOn s q t.lid = some gr) :
    ∃ s', exec (.spawn g d a b) s = .next s' ∧ .threadPacketArrive s.fresh ∈ s'.agenda ∧
      Left (.spawn g d a b)
        { s with fresh := s.fresh + 1, packets := Map.set s.packets s.fresh (buildPacket s 0 c q
                   { childOf s t (t.gv b.toNat) (gRange t 1 4) with gid := gr.gid } (some ⟨c, slot⟩)) }
        s' c slot t .waiting (.packet d.toNat s.fresh) s.watches := by
  refine leaves_packet exec_spawn rfl (h.commit _) hp hl (fun s1 B => ?_)
  rw [reading_gv, reading_gv, doSpawn_sends (t := reading _ t) (by rw [B.pkg]; exact hk) ((B.named ..).trans hq)
    ((B.groupOn ..).trans hg),
    B.childOf]
  rfl

theorem spawn_fails {r : Nat} (h : Issues (dSpawn g d a b) s c slot t) (hp : Plain s c slot t)
    (hl : (s.core c).lock = none) (hr : SpawnCode s t (t.gv a.toNat) r) :
    ∃ s', exec (.spawn g d a b) s = .next s' ∧
      Becomes s s' c slot ((past (.spawn g d a b) 4 t).setG d.toNat (spawnFail t.part (t.gv a.toNat) r)) := by
  refine completes_of exec_spawn (h.commit _) hp hp (.inr hl) (by simpa using past_stepping hp.notStepped)
    (fun s1 B => ?_)
  rw [reading_gv, reading_gv, doSpawn_fails (B.spawnCode _ hr)]
  exact B.writeG _ _

theorem send_leaves {gr : Group} (h : Issues (dSend g d a b) s c slot t) (hp : Plain s c slot t)
    (hl : (s.core c).lock = none) (hk : hPkg (t.gv a.toNat) = s.pkg)
    (hq : namedCore s t.part (t.gv a.toNat) = some q) (hg : groupOn s q t.lid = some gr) :
    ∃ s', exec (.send g d a b) s = .next s' ∧ .threadPacketArrive s.fresh ∈ s'.agenda ∧
      Left (.send g d a b)
        { s with fresh := s.fresh + 1, packets := Map.set s.packets s.fresh
                   (buildPacket s 2 c q (handlerOf s t (t.gv b.toNat)) (some ⟨c, slot⟩)) }
        s' c slot t .waiting (.packet d.toNat s.fresh) s.watches := by
  refine leaves_packet exec_send rfl (h.commit _) hp hl (fun s1 B => ?_)
  rw [reading_gv, reading_gv, doSend_sends (t := reading _ t) (by rw [B.pkg]; exact hk) ((B.named ..).trans hq)
    ((B.groupOn ..).trans hg),
    B.handlerOf]

theorem send_fails {r : Word} (h : Issues (dSend g d a b) s c slot t) (hp : Plain s c slot t)
    (hl : (s.core c).lock = none) (hk : hPkg (t.gv a.toNat) = s.pkg) (hr : SendCode s t (t.gv a.toNat) r) :
    ∃ s', exec (.send g d a b) s = .next s' ∧
      Becomes s s' c slot ((past (.send g d a b) 4 t).setG d.toNat r) := by
  refine completes_of exec_send (h.commit _) hp hp (.inr hl) (by simpa using past_stepping hp.notStepped)
    (fun s1 B => ?_)
  rw [reading_gv, reading_gv, doSend_fails (by rw [B.pkg]; exact hk) (B.sendCode _ hr)]
  exact B.writeG _ _

end

/-- Settles O37: each leaves with its packet (`spawn_leaves`, `send_leaves`) or answers its code (`spawn_fails`,
`send_fails`). -/
theorem spawnAndSendLeaveWithTheirPacket : Obligations.SpawnAndSendLeaveWithTheirPacket := by
  unfold Obligations.SpawnAndSendLeaveWithTheirPacket
  refine ⟨?spawn, ?send⟩
  case spawn =>
    rintro g d a b s c slot t _ rfl hl h hp
    exact ⟨fun q gr hk hq hg => spawn_leaves h hp hl hk hq hg, fun r hr => spawn_fails h hp hl hr⟩
  case send =>
    rintro g d a b s c slot t _ rfl hl hk h hp
    exact ⟨fun q gr hq hg => send_leaves h hp hl hk hq hg, fun r hr => send_fails h hp hl hk hr⟩

end Sys2Proof
end

section
/-!
QUIT, MIGR, FORK and JOIN (R190, R191, R193, R194).
-/
namespace Sys2Proof
open Machine

/-- The state that the own effect of an instruction leaves is the next, but for what ends the turn. -/
theorem exec_of {i : Instr} {d : Desc} {body : Nat → Nat → Thread → State → State} {s s' : State} {c slot : Nat}
    {t : Thread} (he : exec i = issue i d body) (h : Issues d s c slot t)
    (hb : body c slot (reading i t) (atIssue i d s c slot t) = s') : exec i s = .next (afterIssue s' c slot) := by
  rw [he, issue_next h, hb]

/-! ## QUIT (R190) -/

section
variable {s : State} {c slot : Nat} {t : Thread}

/-- R308: the pre-emption that goes on changes no core and no group. -/
theorem preempted_leaves (s : State) (lid : Nat) :
    (preempted s lid).cores = s.cores ∧ (preempted s lid).groups = s.groups := by
  unfold preempted
  split
  · exact ⟨rfl, rfl⟩
  · split
    · exact ⟨rfl, rfl⟩
    · exact ⟨rfl, rfl⟩

/-- R240: a group that has a thread does not end. -/
theorem groupEnd_leaves {gid : Nat} (h : ∀ gr, s.group? gid = some gr → hasThreads s gr = true) :
    (groupEnd s gid).cores = s.cores ∧ (groupEnd s gid).groups = s.groups := by
  unfold groupEnd
  cases hg : s.group? gid with
  | none => exact ⟨rfl, rfl⟩
  | some gr =>
    have hstays : endGroup s gid = s := by
      unfold endGroup
      simp only [hg, h gr hg, Bool.or_true, if_true]
    simp only [hstays]
    exact preempted_leaves s gr.lid

/-- R240: a group has a thread while its core holds one of its own. -/
theorem hasThreads_of_member {gr : Group} (h : ∃ x ∈ (s.core gr.core).threads, ownMember x.2 gr.gid = true) :
    hasThreads s gr = true := by
  have hany : (s.core gr.core).threads.any (fun x => ownMember x.2 gr.gid) = true := by
    rw [List.any_eq_true]
    exact h
  unfold hasThreads
  rw [hany, Bool.or_true, Bool.true_or]

/-- R13, R190: the slot of a thread that ends is free, and its generation has advanced; nothing else of its core's
threads has changed, and no group has ended while another of its threads is there. -/
theorem quitThread_frees (h : s.thread? c slot = some t) (hb : t.bars = []) (hh : t.handler = false)
    (hm : t.migrant = false) (hmember : ∃ x ∈ (s.core c).threads, x.1 ≠ slot ∧ ownMember x.2 t.gid = true)
    (hg : ∀ gr, s.group? t.gid = some gr → gr.core = c ∧ gr.gid = t.gid) :
    (∀ x, (quitThread s c slot).thread? c x = if x = slot then none else s.thread? c x) ∧
      genOf ((quitThread s c slot).core c) slot = (genOf (s.core c) slot + 1) % 2 ^ 20 ∧
      (quitThread s c slot).groups = s.groups := by
  obtain ⟨hcore, hgroups, -⟩ := clearSlot_core h
  have hclear := hcore c
  rw [if_pos rfl] at hclear
  have hstays : ∀ gr, (clearSlot s c slot).group? t.gid = some gr → hasThreads (clearSlot s c slot) gr = true := by
    intro gr hgr
    rw [State.group?, hgroups] at hgr
    obtain ⟨rfl, hgid⟩ := hg gr hgr
    obtain ⟨x, hx, hne, hown⟩ := hmember
    refine hasThreads_of_member ⟨x, ?_, by rw [hgid]; exact hown⟩
    rw [hclear]
    exact mem_erase_ne hx hne
  obtain ⟨hcores, hsame⟩ := groupEnd_leaves hstays
  have hquit : quitThread s c slot = groupEnd (clearSlot s c slot) t.gid := by
    unfold quitThread freeSlot
    simp only [h, hb, dropRegs, hh, hm, Bool.false_eq_true, if_false]
  have hq : (groupEnd (clearSlot s c slot) t.gid).core c = (clearSlot s c slot).core c := by
    rw [State.core, hcores, State.core]
  rw [hquit]
  refine ⟨fun x => ?_, ?_, hsame.trans hgroups⟩
  · rw [State.thread?, hq, hclear]
    exact Map.get?_erase ..
  · rw [hq, hclear]
    simp [genOf]

theorem quit_frees {g : BitVec 3} (h : Issues { guard := g, drain := true } s c slot t) (hp : Plain s c slot t)
    (hb : t.bars = []) (hh : t.handler = false) (hm : t.migrant = false)
    (hmember : ∃ x ∈ (s.core c).threads, x.1 ≠ slot ∧ ownMember x.2 t.gid = true)
    (hg : ∀ gr, s.group? t.gid = some gr → gr.core = c ∧ gr.gid = t.gid) :
    ∃ s', exec (.quit g) s = .next s' ∧ s'.thread? c slot = none ∧
      (∀ x, x ≠ slot → s'.thread? c x = s.thread? c x) ∧
      genOf (s'.core c) slot = (genOf (s.core c) slot + 1) % 2 ^ 20 ∧ s'.groups = s.groups := by
  obtain ⟨s1, hs1⟩ : ∃ s1, s1 = atIssue (.quit g) { guard := g, drain := true } s c slot t := ⟨_, rfl⟩
  have B : Becomes s s1 c slot (past (.quit g) 4 t) := hs1 ▸ atIssue_becomes h.turn hp.notStepped (.inl rfl)
  have hgroups : s1.groups = s.groups := B.field (·.groups) (fun _ => rfl)
  have hmember1 : ∃ x ∈ (s1.core c).threads, x.1 ≠ slot ∧ ownMember x.2 t.gid = true := by
    obtain ⟨x, hx, hne, hown⟩ := hmember
    refine ⟨x, ?_, hne, hown⟩
    rw [hs1, atIssue_core rfl]
    exact mem_set_ne (mem_set_ne hx hne) hne
  obtain ⟨hthreads, hgen, hsame⟩ := quitThread_frees B.thread hb hh hm hmember1
    (by rw [State.group?, hgroups]; exact hg)
  have hgone : (quitThread s1 c slot).thread? c slot = none := by rw [hthreads, if_pos rfl]
  refine ⟨quitThread s1 c slot, ?_, hgone, fun x hx => ?_, ?_, hsame.trans hgroups⟩
  · rw [exec_of exec_quit h (congrArg (quitThread · c slot) hs1.symm), afterIssue, hgone]
  · rw [hthreads, if_neg hx, B.others x hx]
  · rw [hgen, genOf, genOf, B.coreField (·.gens) (fun _ => rfl)]

end

/-! ## MIGR (R191, R244) -/

/-- What MIGR names. -/
def dMigr (g : BitVec 3) (a : BitVec 7) : Desc :=
  { guard := g, g := [a.toNat], reads := [a.toNat], drain := true, commit := fun _ => true }

section
variable {s u : State} {c slot pa : Nat} {t : Thread} {ea : Word} {m : Bool} {k : PageKind}

theorem classOf_ne_own (h : 0x20000 ≤ ea.toNat) (x : Nat) : classOf ea ≠ .own x := by
  unfold classOf
  simp only [Nat.not_lt.2 h, if_false]
  repeat' split
  all_goals exact AClass.noConfusion

/-- R191, R244: MIGR to a page moves the thread to the page's core. -/
theorem doMigr_page {pkg : Nat} (h : 0x20000 ≤ ea.toNat)
    (hr : resolve s c t.part t.proc ea .ld1 = (u, .ok (.page k pkg pa, m))) (hm : mayMigrate u t = true) :
    doMigr s c slot t ea = (migrate u c slot t pkg pa (t.ipc + 4#64)).getD u := by
  unfold doMigr
  split
  · next x hx => exact absurd hx (classOf_ne_own h x)
  · simp only [hr, hm, Bool.not_true, Bool.false_eq_true, if_false]

/-- R244: the target in this package is another core. -/
theorem migrate_here {pc : Word} {q : Nat} (hq : migrTarget s t.part pa = some q) (hne : q ≠ c) :
    migrate s c slot t s.pkg pa pc = some (sendPacket (beginWait s c slot .waiting (.packet 0 s.fresh)) 1 q
      (migrantOf s t pc) ⟨c, slot⟩) := by
  have hgoal : migrGoal s c t.part s.pkg pa = some q := by
    unfold migrGoal
    rw [bne_self_eq_false, if_neg (by decide), hq]
    simp [hne]
  unfold migrate
  simp only [hgoal, Option.map_some, bne_self_eq_false, Bool.false_eq_true, if_false]

/-- R244: the page is another package's. -/
theorem migrate_away {pc : Word} {pkg : Nat} (hne : pkg ≠ s.pkg) :
    migrate s c slot t pkg pa pc = (Config.farCore s.free (domAddr pkg pa) t.part).map (fun q =>
      sendAway { beginWait s c slot .waiting (.packet 0 s.fresh) with free := s.free + 1 } 1 q (domAddr pkg pa)
        (migrantOf s t pc) ⟨c, slot⟩) := by
  unfold migrate migrGoal
  simp only [bne_iff_ne.2 hne, if_true]

end

section
variable {g : BitVec 3} {d a b : BitVec 7} {s u : State} {c slot : Nat} {t : Thread}

/-- R191: MIGR to the own scratchpad does nothing. -/
theorem migr_own (h : Issues (dMigr g a) s c slot t) (hp : Plain s c slot t) (hl : (s.core c).lock = none)
    (ho : (t.gv a.toNat).toNat < 0x20000) :
    ∃ s', exec (.migr g a) s = .next s' ∧ Becomes s s' c slot (past (.migr g a) 4 t) := by
  refine completes_of exec_migr h hp hp (.inr hl) (past_stepping hp.notStepped) (fun s1 B => ?_)
  rw [doMigr, reading_gv, classOf_own ho]
  exact B

theorem migr_page {k : PageKind} {pkg pa : Nat} {m : Bool} (h : Issues (dMigr g a) s c slot t)
    (hea : 0x20000 ≤ (t.gv a.toNat).toNat)
    (hr : resolve (atIssue (.migr g a) (dMigr g a) s c slot t) c t.part t.proc (t.gv a.toNat) .ld1 =
      (u, .ok (.page k pkg pa, m)))
    (hm : mayMigrate u (reading (.migr g a) t) = true) :
    exec (.migr g a) s = .next (afterIssue
      ((migrate u c slot (reading (.migr g a) t) pkg pa (t.pc + 4#64)).getD u) c slot) := by
  exact exec_of exec_migr h (doMigr_page (t := reading (.migr g a) t) hea hr hm)

/-- R191, R244: MIGR to another core of this package leaves with its packet. -/
theorem migr_here {k : PageKind} {pa q : Nat} {m : Bool} (h : Issues (dMigr g a) s c slot t)
    (hea : 0x20000 ≤ (t.gv a.toNat).toNat)
    (hr : resolve (atIssue (.migr g a) (dMigr g a) s c slot t) c t.part t.proc (t.gv a.toNat) .ld1 =
      (u, .ok (.page k u.pkg pa, m)))
    (hm : mayMigrate u (reading (.migr g a) t) = true) (hq : migrTarget u t.part pa = some q) (hne : q ≠ c) :
    exec (.migr g a) s = .next (afterIssue (sendPacket (beginWait u c slot .waiting (.packet 0 u.fresh)) 1 q
      (migrantOf u (reading (.migr g a) t) (t.pc + 4#64)) ⟨c, slot⟩) c slot) := by
  rw [migr_page h hea hr hm, migrate_here (t := reading (.migr g a) t) hq hne, Option.getD_some]

/-- R191, R244: MIGR to a page of another package leaves with its packet, where a core there qualifies. -/
theorem migr_away {k : PageKind} {pkg pa : Nat} {m : Bool} (h : Issues (dMigr g a) s c slot t)
    (hea : 0x20000 ≤ (t.gv a.toNat).toNat)
    (hr : resolve (atIssue (.migr g a) (dMigr g a) s c slot t) c t.part t.proc (t.gv a.toNat) .ld1 =
      (u, .ok (.page k pkg pa, m)))
    (hm : mayMigrate u (reading (.migr g a) t) = true) (hne : pkg ≠ u.pkg) :
    exec (.migr g a) s = .next (afterIssue (match Config.farCore u.free (domAddr pkg pa) t.part with
      | some q => sendAway { beginWait u c slot .waiting (.packet 0 u.fresh) with free := u.free + 1 } 1 q
          (domAddr pkg pa) (migrantOf u (reading (.migr g a) t) (t.pc + 4#64)) ⟨c, slot⟩
      | none => u) c slot) := by
  rw [migr_page h hea hr hm, migrate_away (t := reading (.migr g a) t) hne]
  show Host.Outcome.next (afterIssue (((Config.farCore u.free (domAddr pkg pa) t.part).map _).getD u) c slot) = _
  cases Config.farCore u.free (domAddr pkg pa) t.part <;> rfl

/-! ## FORK (R193) -/

/-- R193: FORK of a cell that passes its checks writes the cell, sends the recruits that it finds with their parts,
and keeps the first part itself. -/
theorem doFork_splits {dst T : Nat} {jc trip : Word} {p : Place} {x : State × Nat} {w : State}
    (hp : cellPlace s c t jc 16 false = (u, .ok p)) (hT : T = trip.toNat)
    (hx : x = findRecruits u t c (Nat.min 128 ((T + forkGrain u t - 1) / forkGrain u t) - 1)
      (forkCores u t.part c t.lid))
    (hw : w = storeAt (storeAt x.1 c p (wordBytes (BitVec.ofNat 64 (x.2 + 1))) false) c (p.add 12)
      (leBytes (handleOf (storeAt x.1 c p (wordBytes (BitVec.ofNat 64 (x.2 + 1))) false) c slot).toNat 4) false) :
    doFork s c slot t dst jc trip = writeG (writeG (writeG (sendRecruits w u.fresh T (x.2 + 1) x.2 x.2)
      c slot 1 (partLo T (x.2 + 1) 0)) c slot 2 (partLo T (x.2 + 1) 1)) c slot dst (BitVec.ofNat 64 (x.2 + 1)) := by
  subst hT hw hx
  unfold doFork
  rw [hp]

/-! ## JOIN (R194) -/

theorem classOf_paged {ea : Word} (h : 0x10000000000 ≤ ea.toNat) : classOf ea = .paged := by
  unfold classOf
  simp only []
  rw [if_neg (by omega), if_neg (by omega), if_neg (by omega), if_neg (by omega), if_pos h]

/-- R105, R107: an address of the paged range waits for its translation. -/
theorem checkClass_paged {part : Nat} {ea : Word} {k : AKind} (h : 0x10000000000 ≤ ea.toNat) (hk : k ≠ .fe) :
    checkClass s c part ea k = .ok none := by
  unfold checkClass
  simp only [classOf_paged h, hk, if_false]

/-- The access of JOIN, which issues in the cycle `cyc`. -/
def joinAccess (ea : Word) (cyc : Nat) : Access :=
  { units := [piece ea 16 .join], fin := .join, checked := false, issued := cyc, load := false, auto := false,
    sup := true, bad := none }

/-- R194: JOIN's access leaves for its cell. -/
theorem startAccess_join {ea : Word} (h16 : ea.toNat % 16 = 0) (hea : 0x10000000000 ≤ ea.toNat) :
    startAccess s c slot t [piece ea 16 .join] 16 (.cell false) .join false true =
      pump (beginWait s c slot .waiting (.access (joinAccess ea (s.core c).cyc))) ⟨c, slot⟩ none := by
  have hclass : classify s c t.part 16 (.cell false) [piece ea 16 .join] = ([piece ea 16 .join], none) := by
    simp only [classify, piece, h16, bne_self_eq_false, Bool.false_eq_true, if_false,
      checkClass_paged hea (k := .cell false) (by simp)]
  have hfar : allOwn [piece ea 16 .join] = false := by
    simp only [allOwn, piece, List.all_cons, classOf_paged hea, Bool.false_and]
  unfold startAccess
  simp only [hclass, hfar, Bool.false_and, Bool.false_eq_true, if_false, ite_self]
  rfl

/-- What JOIN names. -/
def dJoin (g : BitVec 3) (a : BitVec 7) : Desc := { guard := g, g := [a.toNat], reads := [a.toNat], drain := true }

/-- R194: a JOIN whose cell's page is cached sends its decrement to the cell's home. -/
theorem join_leaves {e : Tlb} {pkg pa : Nat} (h : Issues (dJoin g a) s c slot t) (hp : Plain s c slot t)
    (hl : (s.core c).lock = none) (h16 : (t.gv a.toNat).toNat % 16 = 0)
    (hea : 0x10000000000 ≤ (t.gv a.toNat).toNat) (hr : t.relaxed = [])
    (ht : tlbFind (wsOf s (coreWs s c)) t.part t.proc (t.gv a.toNat) = some e) (hk : e.pkg = s.pkg)
    (hc : checkPage s t.part (t.gv a.toNat) (.cell false) e = .ok (.page .coherent pkg pa)) :
    ∃ s' acc, exec (.join g a) s = .next s' ∧ acc.fin = .join ∧ .amo (pa / 64) c ∈ s'.agenda ∧
      acc.units = [{ va := t.gv a.toNat, size := 16, op := .join, place := some (.page .coherent pkg pa), sent := true,
                     out := none }] ∧
      Left (.join g a) { s with msgs := s.msgs ++ [{ mkMsg s .amo (pa / 64) c with thread := some ⟨c, slot⟩ }] } s' c slot
        t .waiting (.access acc) s.watches := by
  have hi : Issues { dJoin g a with commit := fun _ => true } s c slot t := h.commit _
  have B := atIssue_becomes (i := .join g a) (d := { dJoin g a with commit := fun _ => true }) h.turn hp.notStepped
    (.inr hl)
  obtain ⟨acc, hfin, hunits, hsent, L⟩ := join_sent
    (Left.begin B .waiting (.access (joinAccess (t.gv a.toNat) _))) rfl rfl rfl hr ht hk hc
  exact ⟨_, acc, leaves_of exec_join hi (startAccess_join h16 hea) L.thread (by simp), hfin, hsent, hunits, L⟩

end

/-- Settles O38: QUIT frees its slot (`quit_frees`); MIGR does nothing (`migr_own`) or leaves (`migr_here`,
`migr_away`); FORK splits its work (`doFork_splits`); JOIN leaves for its cell (`join_leaves`). -/
theorem quitMigrForkAndJoin : Obligations.QuitMigrForkAndJoin := by
  unfold Obligations.QuitMigrForkAndJoin
  refine ⟨?quit, ?migr, ?fork, ?join⟩
  case quit =>
    intro g s c slot t h hp hb hh hm hmember hg _
    exact quit_frees h hp hb hh hm hmember hg
  case migr =>
    rintro g a s c slot t _ _ _ _ rfl rfl rfl h rfl
    exact ⟨fun ho hl hp => migr_own h hp hl ho, fun u k pa m q hea hr hm hq hne => migr_here h hea hr hm hq hne,
      fun u k pkg pa m hea hr hm hne => migr_away h hea hr hm hne⟩
  case fork =>
    intro g d a b s c slot t U R u p x w T h hR hT hU hp hx hw
    subst hU hR
    exact exec_of exec_fork h (doFork_splits (t := reading _ t) hp hT hx hw)
  case join =>
    rintro g a s c slot t _ e pkg pa _ rfl hl h16 hea h hp hr ht hk hc rfl
    exact join_leaves h hp hl h16 hea hr ht hk hc

end Sys2Proof
end

section
/-!
Acts on the state of other threads (R199 to R202).
-/
namespace Sys2Proof
open Machine

/-! ## The act leaves (R199, R200) -/

/-- R200: the state in which an act of this package has left its issuer, with the rights that it has over its target. -/
def actSent (u : State) (c slot : Nat) (t : Thread) (op : TOp) (d : Nat) (h : Word) (r : BitVec 32) : State :=
  ((({ beginWait u c slot .waiting (.tact u.fresh) with
       acts := (beginWait u c slot .waiting (.tact u.fresh)).acts ++
         [{ id := u.fresh, thread := some ⟨c, slot⟩, handle := h, op := op, d := d, rights := r,
            part := t.part }] } : State).bump).post (.threadStateAct c slot))

/-- R199: the rights that a thread has over another, with the state in which they have been read: those that its
authority table gives, and none over a thread of another partition. -/
def RightsFound (s : State) (c : Nat) (t : Thread) (h : Word) (u : State) (r : BitVec 32) : Prop :=
  hPart h ≠ t.part ∧ u = s ∧ r = 0#32 ∨ hPart h = t.part ∧ rightsOver s c t h = (u, .ok r)

theorem startAct_sends {s u : State} {c slot d : Nat} {t : Thread} {op : TOp} {h : Word} {r : BitVec 32}
    (hk : hPkg h = u.pkg) (hr : RightsFound s c t h u r) :
    startAct s c slot t op d h = actSent u c slot t op d h r := by
  unfold startAct
  rcases hr with ⟨hp, rfl, rfl⟩ | ⟨hp, hr⟩
  · simp only [bne_iff_ne.2 hp, if_true, hk, bne_self_eq_false, Bool.false_and, Bool.false_eq_true, if_false]
    rfl
  · simp only [hp, hr, hk, bne_self_eq_false, Bool.false_and, Bool.false_eq_true, if_false]
    rfl

/-! ## The act at its target (R200 to R202) -/

section
variable {s s1 : State} {c slot q x : Nat} {t u : Thread} {w : Wait}

/-- The state in which an act is under way no more. -/
def withoutAct (s : State) (a : TAct) : State := { s with acts := s.acts.filter (fun y => y.id != a.id) }

/-- R202: an issuer that has had its result is READY, and its target is as the act has left it. -/
theorem Waits.actDone (h : Waits s1 c slot t w) (a : TAct) (d : Nat) (v : Word) (hne : ¬(q = c ∧ x = slot)) :
    Resumed (finishWait (Machine.writeG (withoutAct s1 a) c slot d v) c slot) c slot (t.setG d v) ∧
      (finishWait (Machine.writeG (withoutAct s1 a) c slot d v) c slot).thread? q x = s1.thread? q x := by
  have hw : Waits (withoutAct s1 a) c slot t w := h.of_thread rfl
  exact ⟨hw.finish _ hw.thread d v, hw.finish_ne d v hne⟩

/-- R201: a stop is held by its target from then on. -/
theorem stop_stops
    (hc : u.code = .ready ∨ u.code = .running ∨ u.code = .waiting ∨ u.code = .sleeping) :
    (stopThread (s.setThread q x { u with sstop := true }) q x).thread? q x =
        some { u with sstop := true, code := .stopped, slept := u.code = .sleeping, since := (s.core q).cyc } ∧
      ∀ y z, ¬(y = q ∧ z = x) →
        (stopThread (s.setThread q x { u with sstop := true }) q x).thread? y z = s.thread? y z := by
  obtain ⟨hthread, hothers⟩ := stopThread_thread (State.thread?_setThread_self s q x { u with sstop := true }) hc
  refine ⟨?_, fun y z hn => (hothers y z hn).trans ?_⟩
  · rw [hthread, State.core_setThread, if_pos rfl]
  · rw [State.thread?_setThread, if_neg hn]

/-- R15: of the threads, the end of a wait changes the one that waited. -/
theorem wakeUp_others (ha : u.away = false) (y z : Nat) (hn : ¬(y = q ∧ z = x)) :
    (wakeUp s q x u).thread? y z = s.thread? y z := by
  unfold wakeUp
  rw [if_neg (by simp [ha]), makeReady_eq (State.thread?_setThread_self ..)]
  refine (thread?_modCore rfl _ _).trans ?_
  rw [State.thread?_setThread, if_neg hn, State.thread?_setThread, if_neg hn]

/-- R201: a FAULTED thread that is started is READY at its pc. -/
theorem restart_readies (h : s.thread? q x = some u) (ha : u.away = false) :
    (restart s q x).thread? q x = some { u with stepping := Machine.armed u, code := .ready, wait := .idle,
                                                slept := false, sleepFor := 0 } ∧
      ∀ y z, ¬(y = q ∧ z = x) → (restart s q x).thread? y z = s.thread? y z := by
  have hstart : restart s q x = wakeUp (s.setThread q x { u with stepping := Machine.armed u }) q x
      { u with stepping := Machine.armed u } := by
    unfold restart readyOrFill
    rw [State.modThread_eq h, State.thread?_setThread_self]
  rw [hstart]
  refine ⟨(wakeUp_resumed (t := { u with stepping := Machine.armed u }) ha).thread, fun y z hn => ?_⟩
  rw [wakeUp_others (u := { u with stepping := Machine.armed u }) ha y z hn, State.thread?_setThread, if_neg hn]

theorem writePw_thread (h : s.thread? q x = some u) (w : BitVec 8) (y z : Nat) :
    (writePw s q x w).thread? y z = if y = q ∧ z = x then some (u.setPw w) else s.thread? y z := by
  unfold writePw
  simp only [h]
  rw [rcWrote_thread, State.thread?_setThread]

/-- R202: a write changes its target alone. -/
theorem selWrite_thread (h : s.thread? q x = some u) (y : Sel) (w : Word) :
    (∃ u', (selWrite s q x u y w).thread? q x = some u') ∧
      ∀ y' z, ¬(y' = q ∧ z = x) → (selWrite s q x u y w).thread? y' z = s.thread? y' z := by
  have set (u' : Thread) : (∃ v, (s.setThread q x u').thread? q x = some v) ∧
      ∀ y' z, ¬(y' = q ∧ z = x) → (s.setThread q x u').thread? y' z = s.thread? y' z :=
    ⟨⟨u', State.thread?_setThread_self ..⟩, fun y' z hn => by rw [State.thread?_setThread, if_neg hn]⟩
  cases y with
  | g i => exact ⟨⟨_, writeG_thread h i w⟩, fun y' z hn => writeG_thread_ne s q x i w hn⟩
  | pw =>
    exact ⟨⟨_, (writePw_thread h _ q x).trans (if_pos ⟨rfl, rfl⟩)⟩,
      fun y' z hn => (writePw_thread h _ y' z).trans (if_neg hn)⟩
  | state => exact ⟨⟨u, h⟩, fun _ _ _ => rfl⟩
  | pc | fline | wlim | step | v i j | z k j => exact set _

end

/-- R200: the issuer of an act waits for it, and nothing refuses it at its target, the thread `u` in slot `x` of the
core `q`, which is not the issuer. -/
structure Reaches (s : State) (c slot : Nat) (t : Thread) (a : TAct) (q x : Nat) (u : Thread) : Prop where
  waits : Waits s c slot t (.tact a.id)
  act : s.acts.find? (fun y => y.id = a.id) = some a
  part : hPart a.handle = a.part
  rights : ∀ r ∈ a.op.needs, a.rights.getLsbD r = true
  pkg : hPkg a.handle = s.pkg
  core : namedCore s a.part a.handle = some q
  name : x = hSlot a.handle
  target : s.thread? q x = some u
  gen : genOf (s.core q) x = hGen a.handle
  ne : ¬(q = c ∧ x = slot)

section
variable {s s1 : State} {c slot q x : Nat} {t u : Thread} {a : TAct}

/-- R200: an act that reaches its target is performed there, and its issuer has the result. -/
theorem Reaches.performs (h : Reaches s c slot t a q x u) {st : Nat} {v : Word}
    (ho : actOn s q x u a.op = (s1, .done st v)) :
    exec (.threadStateAct c slot) s = .next (Machine.actDone s1 ⟨c, slot⟩ a st v) := by
  obtain ⟨hw, hact, hpart, hrights, hpkg, hcore, rfl, htarget, hgen, -⟩ := h
  have hwait : waitOf s ⟨c, slot⟩ = some (.tact a.id) := by
    unfold waitOf
    rw [hw.thread, Option.map_some, hw.wait]
  exact act_of hwait hact ((actAt_of hpart hrights hpkg hcore htarget hgen).trans ho)

/-- R201: a stop leaves its target STOPPED. -/
theorem threadStateAct_stop (h : Reaches s c slot t a q x u) (ho : a.op = .stop)
    (hc : u.code = .ready ∨ u.code = .running ∨ u.code = .waiting ∨ u.code = .sleeping) :
    ∃ s' u', exec (.threadStateAct c slot) s = .next s' ∧ Resumed s' c slot (t.setG a.d 0#64) ∧
      s'.thread? q x = some u' ∧ u'.code = .stopped ∧ u'.sstop = true ∧ u'.wait = u.wait ∧ u'.g = u.g ∧
        u'.pc = u.pc := by
  obtain ⟨hthread, hothers⟩ := stop_stops (s := s) (q := q) (x := x) hc
  have hw := h.waits.of_thread (hothers c slot (fun e => h.ne ⟨e.1.symm, e.2.symm⟩))
  obtain ⟨hres, hkeeps⟩ := hw.actDone a a.d 0#64 h.ne
  refine ⟨_, _, (h.performs (st := 0) (v := 0#64) (by rw [ho]; rfl)).trans ?_, hres, hkeeps.trans hthread, rfl, rfl,
    rfl, rfl, rfl⟩
  unfold Machine.actDone
  simp only [ho]
  rfl

/-- R201: a start lets a FAULTED target go on from its pc. -/
theorem threadStateAct_start (h : Reaches s c slot t a q x u) (ho : a.op = .start) (hc : u.code = .faulted)
    (hh : u.hold = false) (ha : u.away = false) :
    ∃ s' u', exec (.threadStateAct c slot) s = .next s' ∧ Resumed s' c slot (t.setG a.d 0#64) ∧
      s'.thread? q x = some u' ∧ u'.code = .ready ∧ u'.sstop = false ∧ u'.g = u.g ∧ u'.pc = u.pc := by
  obtain ⟨hthread, hothers⟩ := restart_readies (State.thread?_setThread_self s q x { u with sstop := false }) ha
  have hn : ¬(c = q ∧ slot = x) := fun e => h.ne ⟨e.1.symm, e.2.symm⟩
  have hw := h.waits.of_thread ((hothers c slot hn).trans (by rw [State.thread?_setThread, if_neg hn]))
  obtain ⟨hres, hkeeps⟩ := hw.actDone a a.d 0#64 h.ne
  have hon : actOn s q x u a.op = (restart (s.setThread q x { u with sstop := false }) q x, .done 0 0#64) := by
    rw [ho]
    simp only [actOn, hc, hh, if_true, Bool.false_eq_true, if_false]
  refine ⟨_, _, (h.performs hon).trans ?_, hres, hkeeps.trans hthread, rfl, rfl, rfl, rfl⟩
  unfold Machine.actDone
  simp only [ho]
  rfl

/-- R202: a read gives the register that the selector names. -/
theorem threadStateAct_read {d b : Nat} {sel : Word} {y : Sel} (h : Reaches s c slot t a q x u)
    (ho : a.op = .read d b sel) (hc : u.code = .stopped ∨ u.code = .faulted) (hs : selOf u sel = some y)
    (hp : writePending s q x u y = false) (hk : ∀ k, y.key = some k → u.poison.contains k = false) :
    ∃ s', exec (.threadStateAct c slot) s = .next s' ∧
      Resumed s' c slot ((t.setG d (selRead u y)).setG b 0#64) := by
  have hstill : (decide (u.code = .stopped) || decide (u.code = .faulted)) = true := by simpa using hc
  have hon : actOn s q x u a.op = (s, .done 0 (selRead u y)) := by
    rw [ho]
    cases hy : y.key with
    | none => simp only [actOn, hstill, hs, hp, hy, Bool.not_true, Bool.false_eq_true, if_false]
    | some k => simp only [actOn, hstill, hs, hp, hy, hk k hy, Bool.not_true, Bool.false_eq_true, if_false]
  have hw : Waits (Machine.writeG (withoutAct s a) c slot d (selRead u y)) c slot _ _ :=
    (h.waits.of_thread (s1 := withoutAct s a) rfl).writeG d (selRead u y)
  refine ⟨_, (h.performs hon).trans ?_, hw.finish _ hw.thread b 0#64⟩
  unfold Machine.actDone
  simp only [ho, if_true]
  rfl

/-- R202: a write sets the register that the selector names. -/
theorem threadStateAct_write {b : Nat} {sel w : Word} {y : Sel} (h : Reaches s c slot t a q x u)
    (ho : a.op = .write b sel w) (hc : u.code = .stopped ∨ u.code = .faulted) (hs : selOf u sel = some y)
    (hr : selRefuses y w = false) :
    ∃ s' u', exec (.threadStateAct c slot) s = .next s' ∧ Resumed s' c slot (t.setG b 0#64) ∧
      s'.thread? q x = some u' ∧ (selWrite s q x u y w).thread? q x = some u' := by
  have hstill : (decide (u.code = .stopped) || decide (u.code = .faulted)) = true := by simpa using hc
  have hon : actOn s q x u a.op = (selWrite s q x u y w, .done 0 0#64) := by
    rw [ho]
    simp only [actOn, hstill, hs, hr, Bool.not_true, Bool.false_eq_true, if_false]
  obtain ⟨⟨u', hthread⟩, hothers⟩ := selWrite_thread h.target y w
  have hw := h.waits.of_thread (hothers c slot (fun e => h.ne ⟨e.1.symm, e.2.symm⟩))
  obtain ⟨hres, hkeeps⟩ := hw.actDone a b 0#64 h.ne
  refine ⟨_, u', (h.performs hon).trans ?_, hres, hkeeps.trans hthread, hthread⟩
  unfold Machine.actDone
  simp only [ho]
  rfl

end

/-- Settles O39: each instruction sends its act (`startAct_sends`), which is performed at its target
(`threadStateAct_stop`, `threadStateAct_start`, `threadStateAct_read`, `threadStateAct_write`). -/
theorem threadStateActsReachTheirTarget : Obligations.ThreadStateActsReachTheirTarget := by
  unfold Obligations.ThreadStateActsReachTheirTarget
  refine ⟨?leaves, ?reaches⟩
  case leaves =>
    rintro i D op d h s c slot t U R u r g fd fa fb hi rfl hI rfl rfl hk hr
    rcases hi with ⟨rfl, rfl, rfl, rfl⟩ | ⟨rfl, rfl, rfl, rfl⟩ | ⟨rfl, rfl, rfl, rfl⟩ | ⟨rfl, rfl, rfl, rfl⟩
    · exact exec_of exec_tstop hI (startAct_sends hk hr)
    · exact exec_of exec_tstart hI (startAct_sends hk hr)
    · exact exec_of exec_tread hI (startAct_sends hk hr)
    · exact exec_of exec_twrite hI (startAct_sends hk hr)
  case reaches =>
    intro s c slot t a q x u hw hact hpart hrights hpkg hcore hslot htarget hgen hne
    have h : Reaches s c slot t a q x u := ⟨hw, hact, hpart, hrights, hpkg, hcore, hslot, htarget, hgen, hne⟩
    exact ⟨threadStateAct_stop h, fun ho hc hh ha _ => threadStateAct_start h ho hc hh ha,
      fun d b sel y => threadStateAct_read h, fun b sel w y => threadStateAct_write h⟩

end Sys2Proof
end

section
/-!
Invalidations and self-tests (R206, R207, R331, R379).
-/
namespace Sys2Proof
open Machine

/-! ## INVPG (R206) -/

/-- R206: the invalidation that a thread asks for, with what its control word says. -/
def newInval (s : State) (c slot : Nat) (t : Thread) (va ctl : Word) : Inval :=
  { id := s.fresh, thread := ⟨c, slot⟩, part := t.part, proc := ctl.toNat % 65536, va := va,
    size := ctl.toNat / 65536 % 4, left := List.range 32 }

/-- R206: the state in which a thread has asked for its invalidation, whose messages have not been sent yet. -/
def invalAsked (s : State) (c slot : Nat) (t : Thread) (d : Nat) (va ctl : Word) : State :=
  ({ beginWait s c slot .waiting (.invpg d s.fresh) with invals := s.invals ++ [newInval s c slot t va ctl] }
    : State).bump

section
variable {s : State} {c slot d : Nat} {t : Thread}

theorem startInvpg_eq (va ctl : Word) : startInvpg s c slot t d va ctl =
    allWs.foldl (fun x w => x.post (.waystationInvalidate w s.fresh)) (invalAsked s c slot t d va ctl) := by
  have hproc : bitsOf ctl.toNat 0 16 = ctl.toNat % 65536 := by simp [bitsOf]
  have hinvals : (beginWait s c slot .waiting (.invpg d s.fresh)).invals = s.invals :=
    (CoreOnly.beginWait ..).field (·.invals) (fun _ => rfl)
  unfold startInvpg invalAsked newInval
  simp only [hproc, hinvals]
  rfl

/-- R206: the invalidation is on its way to every waystation, and its thread waits. -/
theorem startInvpg_sends {T : Thread} {va ctl : Word} (h : s.thread? c slot = some T) :
    (startInvpg s c slot t d va ctl).thread? c slot =
        some { T with code := .waiting, wait := .invpg d s.fresh, sleepFor := 0, since := (s.core c).cyc } ∧
      (startInvpg s c slot t d va ctl).invals = s.invals ++ [newInval s c slot t va ctl] ∧
      ∀ w, w < 32 → .waystationInvalidate w s.fresh ∈ (startInvpg s c slot t d va ctl).agenda := by
  have hthread : (invalAsked s c slot t d va ctl).thread? c slot =
      some { T with code := .waiting, wait := .invpg d s.fresh, sleepFor := 0, since := (s.core c).cyc } :=
    beginWait_thread h .waiting (.invpg d s.fresh)
  have hinvals : (invalAsked s c slot t d va ctl).invals = s.invals ++ [newInval s c slot t va ctl] := rfl
  rw [startInvpg_eq]
  generalize invalAsked s c slot t d va ctl = v at hthread hinvals ⊢
  obtain ⟨hagenda, hrest⟩ := foldl_post (fun w => Event.waystationInvalidate w s.fresh) allWs v
  have hkept := congrArg State.invals hrest
  dsimp only at hkept
  refine ⟨?_, hkept.trans hinvals, fun w hw => ?_⟩
  · have hposts := foldl_thread (f := fun x w => x.post (.waystationInvalidate w s.fresh)) c slot
      (fun _ _ => State.thread?_post ..) allWs v
    rw [hposts, hthread]
  · rw [hagenda]
    exact List.mem_append_right _ (List.mem_map_of_mem (List.mem_range.2 hw))

/-- R331: a waystation that an invalidation reaches loses the matching translations, and nothing else does; the last to
be reached lets it complete. -/
theorem waystationInvalidate_removes {w id : Nat} {v : Inval} (hv : s.invals.find? (fun x => x.id = id) = some v)
    (hw : w ∈ v.left) :
    ∃ s', exec (.waystationInvalidate w id) s = .next s' ∧
      wsOf s' w = (wsOf s w).filter (fun e => !invalHits v e) ∧ (∀ x, x ≠ w → wsOf s' x = wsOf s x) ∧
      s'.invals = s.invals.map (fun x => if x.id = id then meetInval s w v else x) ∧
      s'.cores = s.cores ∧ ((∀ x ∈ v.left, x = w) → .invpgComplete v.thread.core v.thread.slot ∈ s'.agenda) := by
  have hself : wsOf { s with ws := Map.set s.ws w ((wsOf s w).filter (fun e => !invalHits v e)) } w =
      (wsOf s w).filter (fun e => !invalHits v e) := by
    rw [wsOf, Map.get?_set_self, Option.getD_some]
  have hothers : ∀ x, x ≠ w →
      wsOf { s with ws := Map.set s.ws w ((wsOf s w).filter (fun e => !invalHits v e)) } x = wsOf s x := by
    intro x hx
    rw [wsOf, Map.get?_set_of_ne _ _ hx, wsOf]
  have hlast : (∀ x ∈ v.left, x = w) → (meetInval s w v).left.isEmpty = true := by
    intro h
    rw [List.isEmpty_iff]
    exact filter_nil_of (fun x hx => by rw [h x hx]; exact bne_self_eq_false w)
  rw [exec_waystationInvalidate, execWaystationInvalidate]
  simp only [hv, List.contains_eq_mem, hw, decide_true, Bool.not_true, Bool.false_eq_true, if_false]
  split
  · exact ⟨_, rfl, hself, hothers, rfl, rfl, fun _ => List.mem_append_right _ (List.mem_singleton.2 rfl)⟩
  · next hleft => exact ⟨_, rfl, hself, hothers, rfl, rfl, fun h => absurd (hlast h) hleft⟩

/-- R206: when everything that an invalidation waits for has been performed, its thread receives 0. -/
theorem invpgComplete_answers {id : Nat} {v : Inval} (h : Waits s c slot t (.invpg d id))
    (hv : s.invals.find? (fun x => x.id = id) = some v) (hd : invalDone s v = true) :
    ∃ s', exec (.invpgComplete c slot) s = .next s' ∧ Resumed s' c slot (t.setG d 0#64) := by
  have hwait : waitOf s ⟨c, slot⟩ = some (.invpg d id) := by
    rw [waitOf, h.thread, Option.map_some, h.wait]
  rw [exec_invpgComplete, execInvpgComplete]
  simp only [hwait, hv, hd, if_true]
  refine ⟨_, rfl, h.finish _ ?_ d 0#64⟩
  rw [foldl_thread c slot (by intro s a; split <;> rfl)]
  exact h.thread

end

/-! ## SELFT (R207, R379) -/

section
variable {s u w : State} {c slot d : Nat} {t T : Thread}

/-- R207: a core whose thread has the right and a place for the record is held for the test, and the thread waits. -/
theorem startSelft_holds {mask : BitVec 8} {va : Word} {p : Place} {m : Bool} (hr : needRight s c slot t 8 = (u, none))
    (ha : va.toNat % 64 = 0) (hp : resolve u c t.part t.proc va .st = (w, .ok (p, m)))
    (h : w.thread? c slot = some T) :
    ((startSelft s c slot t d mask va).core c).selft = some slot ∧
      (startSelft s c slot t d mask va).thread? c slot = some
        { T with code := .waiting, sleepFor := 0, since := (w.core c).cyc,
                 wait := .selft d mask p ((w.core c).cyc + selftTime mask) } := by
  unfold startSelft
  simp only [hr, ha, hp, bne_self_eq_false, Bool.false_eq_true, if_false]
  refine ⟨by rw [State.core_modCore_self], ?_⟩
  rw [thread?_modCore (by rfl)]
  exact beginWait_thread h .waiting (.selft d mask p ((w.core c).cyc + selftTime mask))

/-- R207: the state in which a test has answered and its core is held no more. -/
def selftOver (s : State) (c slot d : Nat) (r : Tested) : State :=
  (finishWait (writeG s c slot d (r.failed.zeroExtend 64)) c slot).modCore c (fun k => { k with selft := none })

theorem selftOver_resumed {x : Wait} {r : Tested} (h : Waits s c slot t x) :
    Resumed (selftOver s c slot d r) c slot (t.setG d (r.failed.zeroExtend 64)) ∧
      ((selftOver s c slot d r).core c).selft = none := by
  have hres := h.finish s h.thread d (r.failed.zeroExtend 64)
  unfold selftOver
  refine ⟨⟨?_, ?_⟩, by rw [State.core_modCore_self]⟩
  · rw [thread?_modCore (by rfl)]
    exact hres.thread
  · rw [State.core_modCore_self]
    exact hres.queued

/-- R379: a test that has found nothing repairs and fences nothing. -/
theorem repair_nothing {r : Tested} {who : Word} (hu : r.fused = 0) (hd : r.disabled = 0) : repair s c r who = s := by
  unfold repair
  simp only [hu, hd, decide_true, Bool.and_self, if_true]

theorem fenceFound_nothing {r : Tested} {who : Word} (hf : r.failed = 0#8) (he : r.fence = false) :
    fenceFound s c r who = s := by
  unfold fenceFound
  simp only [hf, he, BitVec.zero_and, decide_true, Bool.not_false, Bool.and_self, if_true]

/-- R379: a test whose time is over writes its record and answers; then come the repairs and the fences. -/
theorem selftComplete_answers {mask failed bank : BitVec 8} {p : Place} {e : Nat} {rows : BitVec 64} {ways : BitVec 4}
    {r : Tested} {s1 : State} (h : Waits s c slot t (.selft d mask p e)) (he : e ≤ (s.core c).cyc)
    (hm : (mask.getLsbD 3 && mmaRuns s c) = false) (hr : r = tested (s.core c) mask failed rows ways)
    (h1 : s1 = putRecord { s with free := s.free + 1 } c t.part p (selftRecord mask r bank)) :
    exec (.selftComplete c slot failed rows ways bank) s =
      .next (fenceFound (repair (selftOver s1 c slot d r) c r (handleOf s c slot)) c r (handleOf s c slot)) := by
  subst hr h1
  rw [exec_selftComplete, execSelftComplete]
  simp only [h.thread, h.wait, Nat.not_lt.2 he, decide_false, hm, Bool.or_self, Bool.false_eq_true, if_false]
  rfl

end

/-- Settles O40: INVPG leaves (`startInvpg_sends`), is met (`waystationInvalidate_removes`) and answers
(`invpgComplete_answers`); SELFT holds its core (`startSelft_holds`) and answers (`selftComplete_answers`). -/
theorem invalidationsAndSelfTests : Obligations.InvalidationsAndSelfTests := by
  unfold Obligations.InvalidationsAndSelfTests
  refine ⟨?invpg, ?waystation, ?invpgOver, ?selft, ?selftOver⟩
  case invpg =>
    rintro g d a b s c slot t T _ _ u rfl h rfl hr hT
    obtain ⟨hthread, hinvals, hevents⟩ :=
      startInvpg_sends (d := d.toNat) (t := reading (.invpg g d a b) t) (va := t.gv a.toNat) (ctl := t.gv b.toNat) hT
    refine ⟨_, leaves_of (d := { dRRR g d a b with drain := true }) exec_invpg h ?_ hthread (by simp), hthread,
      hinvals, hevents⟩
    simp only [hr]
    rfl
  case waystation => exact fun w id s v hv hw => waystationInvalidate_removes hv hw
  case invpgOver => exact fun s c slot t d id v h hv hd => invpgComplete_answers h hv hd
  case selft =>
    rintro g d a b s c slot t T _ _ u w p m _ rfl h rfl hr rfl ha hp hT
    obtain ⟨hheld, hthread⟩ :=
      startSelft_holds (d := d.toNat) (mask := (t.gv a.toNat).truncate 8) (t := reading (.selft g d a b) t) hr ha hp hT
    exact ⟨_, leaves_of exec_selft h rfl hthread (by simp), hheld, hthread⟩
  case selftOver =>
    intro s c slot t d mask p e failed rows ways bank r s1 h he hm hr h1 hT
    have hexec := selftComplete_answers h he hm hr h1
    obtain ⟨hres, hfree⟩ := selftOver_resumed (d := d) (r := r) (h.of_thread (hT.trans h.thread.symm))
    refine ⟨selftOver s1 c slot d r, hres, hfree, hexec, fun hf hfence hu hd => ?_⟩
    rw [hexec, repair_nothing hu hd, fenceFound_nothing hf hfence]

end Sys2Proof
end

section
/-!
Barriers: registration, arrival, and the messages that an object takes (R197, R248, R249).
-/
namespace Sys2Proof
open Machine

/-! ## BREG, BAR and BARD (R197) -/

section
variable {i : Instr} {g : BitVec 3} {d a : BitVec 7} {s u : State} {c slot : Nat} {t T : Thread} {p : Place}

/-- R197: a barrier instruction whose address names an object goes on to its own effect at the object's place. -/
theorem barrier_exec {body : Nat → Nat → Thread → Place → State → State} (he : exec i = opBar i g d a body)
    (h : Issues { dRR g d a with drain := true } s c slot t)
    (hp : cellPlace (atIssue i { dRR g d a with drain := true } s c slot t) c (reading i t) (t.gv a.toNat) 32 true =
      (u, .ok p)) :
    exec i s = .next (afterIssue (body c slot (reading i t) p u) c slot) := by
  refine exec_of (d := { dRR g d a with drain := true }) he h ?_
  simp only [show (reading i t).gv = t.gv from rfl, hp]

theorem beginWait_barWait (h : s.thread? c slot = some t) (code : TCode) (w : Wait) :
    ((beginWait s c slot code w).core c).barWait = (s.core c).barWait := by
  unfold beginWait
  simp only [State.modThread_eq h]
  split <;> simp [postCtx_core, leaveRot, State.core_setThread]

/-- R197, R248: a BREG of a barrier that its thread has not registered leaves the thread waiting for the core's
record. -/
theorem doBreg_waits {n : Nat} (h : u.thread? c slot = some T) (hroom : t.bars.length < 4) (hp : p ∉ t.bars) :
    .barrierRecordGrant c ∈ (doBreg n c slot t p u).agenda ∧
      ((doBreg n c slot t p u).core c).barWait = (u.core c).barWait ++ [slot] ∧
      (doBreg n c slot t p u).thread? c slot =
        some { T with code := .waiting, wait := .breg n p, sleepFor := 0, since := (u.core c).cyc } := by
  have hbody : (decide (4 ≤ t.bars.length) || t.bars.contains p) = false := by
    simp [hp, hroom]
  unfold doBreg
  simp only [hbody, Bool.false_eq_true, if_false]
  refine ⟨List.mem_append_right _ (List.mem_singleton.2 rfl), ?_, ?_⟩
  · rw [State.core_post, State.core_modCore_self, beginWait_barWait h]
  · rw [State.thread?_post, thread?_modCore (by rfl)]
    exact beginWait_thread h .waiting (.breg n p)

/-- R197: a BREG that does nothing gives all ones. -/
theorem doBreg_refused {n : Nat} (h : 4 ≤ t.bars.length ∨ p ∈ t.bars) :
    doBreg n c slot t p u = writeG u c slot n (BitVec.allOnes 64) := by
  have hbody : (decide (4 ≤ t.bars.length) || t.bars.contains p) = true := by
    simpa using h
  unfold doBreg
  rw [if_pos hbody]

/-- R197: a BAR or BARD of a barrier that its thread has not registered gives all ones. -/
theorem doBar_refused {n : Nat} {va : Word} (h : p ∉ t.bars) :
    doBar n va c slot t p u = writeG u c slot n (BitVec.allOnes 64) := by
  unfold doBar
  rw [if_pos (by simpa using h)]

theorem doBard_refused {n : Nat} {va : Word} (h : p ∉ t.bars) :
    doBard n va c slot t p u = writeG u c slot n (BitVec.allOnes 64) := by
  unfold doBard
  rw [if_pos (by simpa using h)]

/-- R197: BAR takes the phase, sleeps on it, and arrives. -/
theorem doBar_arrives {n : Nat} {va : Word} (h : p ∈ t.bars) (hp : (readPlace u c (p.add 8) 8).2 = false) :
    ∃ v, v = beginWait u c slot .sleeping (.bar n (p.add 8) (placeWordAt u p 1)) ∧
      doBar n va c slot t p u = arriveBar { v with watches := v.watches ++
        [{ place := lineOf p, thread := ⟨c, slot⟩, kind := .bar }] } c p := by
  refine ⟨_, rfl, ?_⟩
  unfold doBar
  simp only [List.contains_eq_mem, h, decide_true, Bool.not_true, Bool.false_eq_true, if_false, hp]

/-- R197: BARD takes the phase, and drops the registration. -/
theorem doBard_drops {n : Nat} {va : Word} (h : p ∈ t.bars) (hp : (readPlace u c (p.add 8) 8).2 = false) :
    doBard n va c slot t p u = dropReg (writeG (u.modThread c slot (fun t => { t with
      bars := t.bars.filter (· != p) })) c slot n (placeWordAt u p 1)) c p := by
  unfold doBard
  simp only [List.contains_eq_mem, h, decide_true, Bool.not_true, Bool.false_eq_true, if_false, hp]

end

/-! ## The core's record (R248) -/

section
variable {s u v : State} {c slot d : Nat} {t : Thread} {p : Place} {rest : List Nat} {r : BarRec}

theorem sendBar_core (kind : Nat) (x : Word) (w : Option TRef) (q : Nat) :
    (sendBar s kind p x w).core q = s.core q := rfl

theorem sendBar_thread (kind : Nat) (x : Word) (w : Option TRef) (q y : Nat) :
    (sendBar s kind p x w).thread? q y = s.thread? q y := rfl

theorem sendBar_barMsgs (kind : Nat) (x : Word) (w : Option TRef) :
    (sendBar s kind p x w).barMsgs =
      s.barMsgs ++ [{ id := s.fresh, kind := kind, place := p, status := x, thread := w }] := rfl

/-- R248: the first BREG that waits is recorded when the core has a record for its barrier, or room for one. -/
theorem barrierRecordGrant_registers (hw : (s.core c).barWait = slot :: rest) (h : Waits s c slot t (.breg d p))
    (hroom : barRoom (s.core c) p = true) (hu : u = s.setCore c { s.core c with barWait := rest })
    (hp : barPoison u p = false) :
    ∃ s', exec (.barrierRecordGrant c) s = .next s' ∧
      (s' = registerBar u c slot p ∨ s' = (registerBar u c slot p).post (.barrierRecordGrant c)) := by
  have hwait : waitOf s ⟨c, slot⟩ = some (.breg d p) := by
    rw [waitOf, h.thread, Option.map_some, h.wait]
  have hready : barReady s c slot = true := by
    unfold barReady
    simp only [hwait]
    exact hroom
  subst hu
  rw [exec_barrierRecordGrant, execBarrierRecordGrant]
  simp only [hw, List.find?_cons_of_pos hready, hwait, List.erase_cons_head, hp, Bool.false_eq_true, if_false]
  split
  · exact ⟨_, rfl, .inl rfl⟩
  · exact ⟨_, rfl, .inr rfl⟩

/-- The thread of a BREG that is recorded has the registration. -/
theorem registered_waits (h : Waits s c slot t (.breg d p)) (hu : u = s.setCore c { s.core c with barWait := rest })
    (hv : v = u.setThread c slot { t with bars := t.bars ++ [p] }) :
    u.modThread c slot (fun t => { t with bars := t.bars ++ [p] }) = v ∧
      Waits v c slot { t with bars := t.bars ++ [p] } (.breg d p) := by
  have hthread : u.thread? c slot = some t := by
    rw [hu, thread?_setCore (by rfl)]
    exact h.thread
  subst hv
  exact ⟨State.modThread_eq hthread _, State.thread?_setThread_self .., h.wait, h.code, h.notStepped, h.here⟩

/-- R248: one more registration in a record that the core has; its thread receives the object's phase. -/
theorem registerBar_counts (h : Waits s c slot t (.breg d p)) (hu : u = s.setCore c { s.core c with barWait := rest })
    (hv : v = u.setThread c slot { t with bars := t.bars ++ [p] })
    (hr : (s.core c).bars.find? (fun r => r.place = p) = some r) :
    Resumed (registerBar u c slot p) c slot (({ t with bars := t.bars ++ [p] } : Thread).setG d (placeWordAt v p 1)) ∧
      ((registerBar u c slot p).core c).bars =
        (s.core c).bars.map (fun r => if r.place = p then { r with r := r.r + 1 } else r) ∧
      (registerBar u c slot p).barMsgs = s.barMsgs := by
  obtain ⟨hmod, hwaits⟩ := registered_waits h hu hv
  have hbars : (v.core c).bars = (s.core c).bars := by
    rw [hv, hu, State.core_setThread, if_pos rfl, State.core_setCore_self]
  have hmsgs : v.barMsgs = s.barMsgs := by rw [hv, hu]; rfl
  unfold registerBar
  simp only [hmod, hbars, hr]
  generalize hw : v.modCore c (fun k => { k with
    bars := k.bars.map (fun r => if r.place = p then { r with r := r.r + 1 } else r) }) = w
  have hthread : w.thread? c slot = some { t with bars := t.bars ++ [p] } := by
    rw [← hw, thread?_modCore (by rfl)]
    exact hwaits.thread
  have hdone : bregDone w ⟨c, slot⟩ (placeWordAt v p 1) =
      finishWait (writeG w c slot d (placeWordAt v p 1)) c slot := by
    unfold bregDone
    simp only [hthread, h.wait]
  rw [hdone]
  refine ⟨hwaits.finish w hthread d _, ?_, ?_⟩
  · have hbare := congrArg Core.bars ((bare_finishWait (writeG w c slot d (placeWordAt v p 1)) c slot c).trans
      (bare_writeG w c slot d (placeWordAt v p 1) c))
    refine hbare.trans ?_
    rw [← hw, ← hbars]
    exact congrArg Core.bars (State.core_modCore_self ..)
  · have hkept : w.barMsgs = s.barMsgs := by rw [← hw]; exact hmsgs
    rw [(CoreOnly.finishWait ..).field (·.barMsgs) (fun _ => rfl),
      (CoreOnly.writeG ..).field (·.barMsgs) (fun _ => rfl), hkept]

/-- R248: a new record with its first registration; its JOIN is on its way to the object. -/
theorem registerBar_joins (h : Waits s c slot t (.breg d p)) (hu : u = s.setCore c { s.core c with barWait := rest })
    (hr : (s.core c).bars.find? (fun r => r.place = p) = none) :
    (registerBar u c slot p).thread? c slot = some { t with bars := t.bars ++ [p] } ∧
      ((registerBar u c slot p).core c).bars = { place := p, r := 1, a := 0 } :: (s.core c).bars ∧
      .barrierJoin s.fresh ∈ (registerBar u c slot p).agenda ∧
      (registerBar u c slot p).barMsgs = s.barMsgs ++
        [{ id := s.fresh, kind := 0, place := p, status := 0#64, thread := some ⟨c, slot⟩ }] := by
  obtain ⟨v, hv⟩ : ∃ v, v = u.setThread c slot { t with bars := t.bars ++ [p] } := ⟨_, rfl⟩
  obtain ⟨hmod, hwaits⟩ := registered_waits h hu hv
  have hbars : (v.core c).bars = (s.core c).bars := by
    rw [hv, hu, State.core_setThread, if_pos rfl, State.core_setCore_self]
  have hmsgs : v.barMsgs = s.barMsgs := by rw [hv, hu]; rfl
  have hfresh : v.fresh = s.fresh := by rw [hv, hu]; rfl
  unfold registerBar
  simp only [hmod, hbars, hr]
  generalize hw : v.modCore c (fun k => { k with bars := { place := p, r := 1, a := 0 } :: k.bars }) = w
  have hwfresh : w.fresh = s.fresh := by rw [← hw, ← hfresh]; rfl
  have hwmsgs : w.barMsgs = s.barMsgs := by rw [← hw, ← hmsgs]; rfl
  refine ⟨?_, ?_, List.mem_append_right _ (List.mem_singleton.2 ?_), ?_⟩
  · rw [sendBar_thread, ← hw, thread?_modCore (by rfl)]
    exact hwaits.thread
  · rw [sendBar_core, ← hw, State.core_modCore_self, hbars]
  · exact congrArg Event.barrierJoin hwfresh.symm
  · rw [sendBar_barMsgs, hwmsgs, hwfresh]

/-- R248: an arrival that is not the last of the core's registrations stays in its record. -/
theorem arriveBar_stays (h : (s.core c).bars.find? (fun x => x.place = p) = some r) (ha : r.a + 1 < r.r) :
    arriveBar s c p = s.modCore c (fun k => { k with
      bars := k.bars.map (fun x => if x.place = p then { x with a := r.a + 1 } else x) }) := by
  unfold arriveBar
  simp only [h, Nat.ne_of_lt ha, if_false]

/-- R248: the last of the core's registered threads to arrive sends its ARRIVE. -/
theorem arriveBar_sends (h : (s.core c).bars.find? (fun x => x.place = p) = some r) (ha : r.a + 1 = r.r) :
    arriveBar s c p = sendBar (s.modCore c (fun k => { k with
      bars := k.bars.map (fun x => if x.place = p then { x with a := 0 } else x) })) 2 p 0#64 none := by
  unfold arriveBar
  simp only [h, ha, if_true]

/-- R248: the last registration of the core's record to be dropped sends its DROP. -/
theorem dropReg_sends (h : (s.core c).bars.find? (fun x => x.place = p) = some r) (hr : r.r = 1)
    (hw : (s.core c).barWait = []) :
    dropReg s c p = sendBar (s.modCore c (fun k => { k with
      bars := (s.core c).bars.filter (fun x => x.place != p) })) 1 p 0#64 none := by
  unfold dropReg
  simp only [h, hr, Nat.le_refl, if_true]
  rw [if_pos]
  rw [sendBar_core, State.core_modCore_self]
  exact List.isEmpty_iff.2 hw

end

/-! ## The messages of an object (R249) -/

section
variable {s u : State} {id : Nat} {m : BarMsg} {e : Event}

/-- R249: the act of a message that reaches its object alone. -/
theorem barBatch_single (hk : m.kind < 3) : barBatch u m.place [m] = barAct u m.kind m.place m.status := by
  unfold barBatch barAct
  obtain hk | hk | hk : m.kind = 0 ∨ m.kind = 1 ∨ m.kind = 2 := by omega
  · simp [hk, count, barActs]
  · simp [hk, count, barActs]
  · simp [hk, count]

/-- R249, R346: a message that reaches its object alone, in its turn, is taken. -/
theorem barTurn_takes (hm : s.barMsgs.find? (fun m => m.id = id) = some m)
    (hone : s.barMsgs.filter (together s m) = [m])
    (hu : u = postWaiting { s with barMsgs := s.barMsgs.filter (fun x => !together s m x), free := s.free + 1 })
    (hk : m.kind < 3) (ht : InTurn s e m.place true) :
    barTurn s e id = settleAct (barDone (barAct u m.kind m.place m.status) (placeWordAt u m.place 1) [m]) e := by
  unfold barTurn
  simp only [hm]
  rw [atPlace_inTurn ht, barMsg, hone, ← hu, barBatch_single hk]

theorem barDone_thread {r : TRef} {x : Word} (h : m.thread = some r) : barDone u x [m] = bregDone u r x := by
  simp only [barDone, h]

theorem barDone_nothing {x : Word} (h : m.thread = none) (hc : m.cmd = none) : barDone u x [m] = u := by
  simp only [barDone, h, cmdArrived, hc]

/-- R249: the two counts of an object after the messages of one cycle, of which none overflows a count. -/
theorem barWord_counts {x y j d n : Nat} {w : Word} (hw : w = BitVec.ofNat 64 (x + 2 ^ 32 * y)) (hj : x + j < 2 ^ 32)
    (hd : d ≤ x + j) (hn : y + n < 2 ^ 32) :
    (bitsOf w.toNat 0 32 + j + (2 ^ 32 - d % 2 ^ 32)) % 2 ^ 32 = x + j - d ∧
      (bitsOf w.toNat 32 32 + n) % 2 ^ 32 = y + n := by
  have hval : w.toNat = x + 2 ^ 32 * y := by
    rw [hw, BitVec.toNat_ofNat]
    exact Nat.mod_eq_of_lt (by omega)
  have hlow : bitsOf w.toNat 0 32 = x := by rw [hval]; unfold bitsOf; omega
  have hhigh : bitsOf w.toNat 32 32 = y := by rw [hval]; unfold bitsOf; omega
  rw [hlow, hhigh]
  omega

section
variable {p : Place} {j d n x y : Nat} (hw : placeWordAt u p 0 = BitVec.ofNat 64 (x + 2 ^ 32 * y))
  (hj : x + j < 2 ^ 32) (hd : d ≤ x + j) (hn : y + n < 2 ^ 32)
include hw hj hd hn

/-- R249: the phase goes on while fewer have arrived than are expected. -/
theorem barActs_goesOn (hlt : y + n < x + j - d) : barActs u p j d n 0#64 =
    writePlace u 0 p (wordBytes (BitVec.ofNat 64 (x + j - d + 2 ^ 32 * (y + n)))) false := by
  obtain ⟨hexpected, harrived⟩ := barWord_counts hw hj hd hn
  unfold barActs
  simp only [hexpected, harrived, Nat.not_le.2 hlt, decide_false, bne_self_eq_false, Bool.and_false,
    Bool.false_eq_true, if_false]

/-- R249: the phase completes when all that are expected have arrived. -/
theorem barActs_completes (hle : x + j - d ≤ y + n) : barActs u p j d n 0#64 =
    (let w := writePlace u 0 p (wordBytes (BitVec.ofNat 64 (x + j - d))) false
     writePlace w 0 (p.add 8) (wordBytes (nextPhase (placeWordAt w p 1))) false) := by
  obtain ⟨hexpected, harrived⟩ := barWord_counts hw hj hd hn
  unfold barActs
  simp only [hexpected, harrived, hle, decide_true, bne_self_eq_false, Bool.and_false, Bool.false_eq_true, if_false,
    if_true, Nat.mul_zero, Nat.add_zero]

end

end

/-- Settles O44: what BREG (`doBreg_waits`), BAR (`doBar_arrives`) and BARD (`doBard_drops`) do at the place of their
object, the core's record (`registerBar_counts`, `registerBar_joins`, `arriveBar_sends`, `dropReg_sends`), and the
messages of the object (`barTurn_takes`, `barActs_completes`). -/
theorem barriersCountAndCompleteTheirPhases : Obligations.BarriersCountAndCompleteTheirPhases := by
  unfold Obligations.BarriersCountAndCompleteTheirPhases
  refine ⟨?instructions, ?grant, ?record, ?messages, ?cycle⟩
  case instructions =>
    rintro i g d a s c slot t T _ _ _ u p hi rfl h rfl rfl hp hT
    refine ⟨?breg, ?refused, ?bar, ?bard⟩
    case breg =>
      rintro rfl hroom hnew
      obtain ⟨hevent, hqueue, hthread⟩ := doBreg_waits (n := d.toNat) hT hroom hnew
      refine ⟨_, ?_, hevent, hqueue, hthread⟩
      rw [barrier_exec exec_breg h hp, afterIssue_of_code hthread (by simp)]
    case refused =>
      rintro (⟨rfl, hno⟩ | ⟨hbreg, hno⟩)
      · rw [barrier_exec exec_breg h hp, doBreg_refused hno]
      · obtain rfl | rfl | rfl := hi
        · exact absurd rfl hbreg
        · rw [barrier_exec exec_bar h hp, doBar_refused hno]
        · rw [barrier_exec exec_bard h hp, doBard_refused hno]
    case bar =>
      rintro rfl hin hclean
      obtain ⟨v, hv, hbody⟩ := doBar_arrives (n := d.toNat) (va := t.gv a.toNat) hin hclean
      exact ⟨v, hv, by rw [barrier_exec exec_bar h hp, ← hbody]; rfl⟩
    case bard =>
      rintro rfl hin hclean
      rw [barrier_exec exec_bard h hp, doBard_drops hin hclean]
  case grant =>
    intro s c slot rest t d p u v hw h hu hp hv
    refine ⟨fun r hr => ?counted, fun hr hroom => ?joined⟩
    case counted =>
      have hany : barRoom (s.core c) p = true := by
        have hmem := List.find?_some hr
        simp only [barRoom, Bool.or_eq_true, List.any_eq_true]
        exact .inl ⟨r, List.mem_of_find?_eq_some hr, hmem⟩
      obtain ⟨s', hexec, hs⟩ := barrierRecordGrant_registers hw h hany hu hp
      obtain ⟨hres, hbars, hmsgs⟩ := registerBar_counts h hu hv hr
      refine ⟨s', hexec, ?_⟩
      obtain rfl | rfl := hs
      · exact ⟨hres, hbars, hmsgs⟩
      · exact ⟨⟨hres.thread, hres.queued⟩, hbars, hmsgs⟩
    case joined =>
      have hany : barRoom (s.core c) p = true := by simp [barRoom, hroom]
      obtain ⟨s', hexec, hs⟩ := barrierRecordGrant_registers hw h hany hu hp
      obtain ⟨hthread, hbars, hevent, hmsgs⟩ := registerBar_joins h hu hr
      refine ⟨s', hexec, ?_⟩
      obtain rfl | rfl := hs
      · exact ⟨hthread, hbars, hevent, hmsgs⟩
      · exact ⟨hthread, hbars, List.mem_append_left _ hevent, hmsgs⟩
  case record =>
    exact fun s c p r h => ⟨arriveBar_stays h, arriveBar_sends h, dropReg_sends h⟩
  case messages =>
    intro s id m u hm hone hcmd hu
    refine ⟨?join, ?drop, ?arrive, ?phase⟩
    case join =>
      intro hk r hr ht
      rw [exec_barrierJoin, execBarrierJoin, barTurn_takes hm hone hu (by omega) ht, barDone_thread hr, hk]
    case drop =>
      intro hk hr ht
      rw [exec_barrierDrop, execBarrierDrop, barTurn_takes hm hone hu (by omega) ht, barDone_nothing hr hcmd, hk]
    case arrive =>
      intro hk hr ht
      rw [exec_barrierArrive, execBarrierArrive, barTurn_takes hm hone hu (by omega) ht, barDone_nothing hr hcmd, hk]
    case phase =>
      intro e a k hkind hword he ha hk hstatus x hx
      rw [hstatus]
      exact ⟨barAct_less hword he ha hkind hk hx, barAct_done hword he ha hkind hk hx⟩
  case cycle =>
    exact fun u p j d n e a hw hj hd hn => ⟨barActs_goesOn hw hj hd hn, barActs_completes hw hj hd hn⟩

end Sys2Proof
end

section
/-!
The Causeway's operations and its fence (R209, R260, R261).
-/
namespace Sys2Proof
open Machine

/-! ## CWST, CWADD and CWCAS -/

section
variable {i : Instr} {s s1 : State} {c slot dd n p : Nat} {t T : Thread} {k : CwOpKind} {va w x : Word} {o : CwOp}

/-- R209, R260: an operation that finds room is accepted; CWST goes on, and the others wait for the old value. -/
theorem cwIssue_accepted (ht : cwTarget s1 T.part va = .ok (p, n))
    (ho : o = { what := { kind := k, word := n, data := w, expect := x }, issuer := some ⟨c, slot⟩, d := dd })
    (hlen : (s1.port p).queue.length < 1024) (hroom : (s1.port p).room = []) :
    cwIssue s1 c slot T va k dd w x =
      if k = .cwst then acceptOp s1 p o
      else beginWait (acceptOp s1 p o) c slot .waiting (.cwResult p dd (s1.port p).accepted va) := by
  subst ho
  unfold cwIssue
  simp only [ht, hlen, hroom, List.isEmpty_nil, decide_true, Bool.and_self, if_true]

/-- R260: an operation that finds no room waits for it, behind those that wait already. -/
theorem cwIssue_noRoom (ht : cwTarget s1 T.part va = .ok (p, n))
    (ho : o = { what := { kind := k, word := n, data := w, expect := x }, issuer := some ⟨c, slot⟩, d := dd })
    (h : 1024 ≤ (s1.port p).queue.length ∨ (s1.port p).room ≠ []) :
    cwIssue s1 c slot T va k dd w x =
      beginWait (s1.modPort p (fun y => { y with room := y.room ++ [⟨c, slot⟩] })) c slot .waiting
        (.cwRoom p o va) := by
  have hfull : (decide ((s1.port p).queue.length < 1024) && (s1.port p).room.isEmpty) = false := by
    rcases h with h | h
    · simp [Nat.not_lt.2 h]
    · simp [h]
  subst ho
  unfold cwIssue
  simp only [ht, hfull, Bool.false_eq_true, if_false]

section
variable {D : Desc} {body : Nat → Nat → Thread → State → State} (he : exec i = issue i D body) (h : Issues D s c slot t)
  (hb : ∀ s1, body c slot (reading i t) s1 = cwIssue s1 c slot (reading i t) va k dd w x) (hlen : D.len = 4)
  (hp : Plain s c slot t) (hl : (s.core c).lock = none) (ht : cwTarget s t.part va = .ok (p, n))
  (ho : o = { what := { kind := k, word := n, data := w, expect := x }, issuer := some ⟨c, slot⟩, d := dd })
include he h hb hlen hp hl ht ho

/-- R209, R260: an instruction whose operation finds room. -/
theorem causewayOp_accepted (hq : (s.port p).queue.length < 1024) (hroom : (s.port p).room = []) :
    ∃ s', exec i s = .next s' ∧
      (k = .cwst → Becomes (acceptOp s p o) s' c slot (past i 4 t)) ∧
      (k ≠ .cwst → Left i (acceptOp s p o) s' c slot t .waiting (.cwResult p dd (s.port p).accepted va) s.watches) := by
  have B := atIssue_becomes (i := i) (d := D) h.turn hp.notStepped (.inr hl)
  rw [hlen] at B
  have hport : (atIssue i D s c slot t).port = s.port := B.field (fun s => s.port) (fun _ => rfl)
  have hbody := cwIssue_accepted (T := reading i t) ((B.cwTarget _ _).trans ht) ho
    (by rw [hport]; exact hq) (by rw [hport]; exact hroom)
  have A : Becomes (acceptOp s p o) (acceptOp (atIssue i D s c slot t) p o) c slot (past i 4 t) := B.modPort p _
  refine ⟨_, exec_of he h (hb _), ?_, ?_⟩
  · intro hk
    rw [hbody, if_pos hk]
    exact (afterIssue_eq A (plain_modPort hp p _) hp.notStepped).symm ▸ A
  · intro hk
    have L := Left.begin A .waiting (.cwResult p dd (s.port p).accepted va)
    rw [hbody, if_neg hk, hport, afterIssue_of_code L.thread (by simp)]
    exact L

/-- R260: an instruction whose operation finds no room. -/
theorem causewayOp_noRoom (hfull : 1024 ≤ (s.port p).queue.length ∨ (s.port p).room ≠ []) :
    ∃ s', exec i s = .next s' ∧
      Left i (s.modPort p (fun y => { y with room := y.room ++ [⟨c, slot⟩] })) s' c slot t .waiting (.cwRoom p o va)
        s.watches := by
  have B := atIssue_becomes (i := i) (d := D) h.turn hp.notStepped (.inr hl)
  rw [hlen] at B
  have hport : (atIssue i D s c slot t).port = s.port := B.field (fun s => s.port) (fun _ => rfl)
  have hbody := cwIssue_noRoom (T := reading i t) ((B.cwTarget _ _).trans ht) ho (by rw [hport]; exact hfull)
  have L := Left.begin (B.modPort p (fun y => { y with room := y.room ++ [⟨c, slot⟩] })) .waiting (.cwRoom p o va)
  refine ⟨_, exec_of he h (hb _), ?_⟩
  rw [hbody, afterIssue_of_code L.thread (by simp)]
  exact L

end

end

/-! ## CWFENCE -/

/-- What CWFENCE names, reads and writes (R209). -/
def cwfenceDesc (g : BitVec 3) (d a : BitVec 7) : Desc :=
  { guard := g, g := [d.toNat, a.toNat], reads := [a.toNat], writes := [d.toNat], drain := true,
    commit := fun _ => true }

section
variable {g : BitVec 3} {d a : BitVec 7} {s : State} {c slot p n : Nat} {t : Thread}
  (h : Issues (cwfenceDesc g d a) s c slot t)
  (hp : Plain s c slot t) (hl : (s.core c).lock = none) (ht : cwTarget s t.part (t.gv a.toNat) = .ok (p, n))
include h hp hl ht

/-- R209: with every accepted operation applied, the fence gives the applied count. -/
theorem cwfence_goesOn (hdone : (s.port p).accepted ≤ (s.port p).ownApplied) :
    ∃ s', exec (.cwfence g d a) s = .next s' ∧
      Becomes s s' c slot ((past (.cwfence g d a) 4 t).setG d.toNat (BitVec.ofNat 64 (s.port p).applied)) := by
  refine completes_of (d := cwfenceDesc g d a) exec_cwfence h hp hp (.inr hl) ?_ (fun s1 B => ?_)
  · rw [Thread.setG_stepping]
    exact hp.notStepped
  · have hport : s1.port = s.port := B.field (fun s => s.port) (fun _ => rfl)
    have htarget := (B.cwTarget (reading (.cwfence g d a) t).part ((reading (.cwfence g d a) t).gv a.toNat)).trans ht
    simp only [htarget, hport, hdone, if_true]
    exact B.writeG d.toNat _

/-- R209, R261: otherwise its thread waits until they have been. -/
theorem cwfence_waits (hlate : (s.port p).ownApplied < (s.port p).accepted) :
    ∃ s', exec (.cwfence g d a) s = .next s' ∧
      Left (.cwfence g d a) s s' c slot t .waiting (.cwFence p d.toNat (s.port p).accepted (t.gv a.toNat))
        s.watches := by
  have B := atIssue_becomes (i := .cwfence g d a) (d := cwfenceDesc g d a) h.turn hp.notStepped (.inr hl)
  have hport := B.field (fun s => s.port) (fun _ => rfl)
  have htarget := (B.cwTarget (reading (.cwfence g d a) t).part ((reading (.cwfence g d a) t).gv a.toNat)).trans ht
  have L := Left.begin B .waiting (.cwFence p d.toNat (s.port p).accepted (t.gv a.toNat))
  refine ⟨_, leaves_of (d := cwfenceDesc g d a) exec_cwfence h ?_ L.thread (by simp), L⟩
  simp only [htarget, hport, Nat.not_le.2 hlate, if_false]
  rfl

end

/-! ## The room of a queue -/

section
variable {s v : State} {c slot d p n : Nat} {t : Thread} {va : Word} {o : CwOp} {rest : List TRef}

/-- R260: the state in which the first operation that waits for room has been given it, and not yet entered. -/
theorem cwQueueAdmit_enters (hroom : (s.port p).room = ⟨c, slot⟩ :: rest) (hlen : (s.port p).queue.length < 1024)
    (h : Waits s c slot t (.cwRoom p o va)) :
    ∃ v, v.port p = { s.port p with room := rest } ∧ v.thread? c slot = some t ∧
      exec (.cwQueueAdmit p) s = .next (if o.what.kind = .cwst then finishWait (acceptOp v p o) c slot
        else (acceptOp v p o).modThread c slot (fun t =>
          { t with wait := .cwResult p o.d (s.port p).accepted va })) := by
  have hport : ((if rest.isEmpty then s.modPort p (fun x => { x with room := rest })
      else (s.modPort p (fun x => { x with room := rest })).post (.cwQueueAdmit p)).port p) =
      { s.port p with room := rest } := by
    split
    · exact State.port_modPort_self ..
    · rw [port_post, State.port_modPort_self]
  have hthread : ((if rest.isEmpty then s.modPort p (fun x => { x with room := rest })
      else (s.modPort p (fun x => { x with room := rest })).post (.cwQueueAdmit p)).thread? c slot) = some t := by
    split <;> exact h.thread
  refine ⟨_, hport, hthread, ?_⟩
  rw [exec_cwQueueAdmit, execCwQueueAdmit]
  simp only [hroom, Nat.not_le.2 hlen, if_false, hthread, h.wait, hport]
  split <;> rfl

theorem acceptOp_port (hv : v.port p = { s.port p with room := rest }) :
    (acceptOp v p o).port p = { s.port p with
      room := rest, queue := (s.port p).queue ++ [o], accepted := (s.port p).accepted + 1 } := by
  rw [acceptOp, State.port_modPort_self, hv]

end

/-- Settles O45: the three operations (`causewayOp_accepted`, `causewayOp_noRoom`), the fence, and the room
(`cwQueueAdmit_enters`). -/
theorem causewayOperationsEnterTheQueue : Obligations.CausewayOperationsEnterTheQueue := by
  unfold Obligations.CausewayOperationsEnterTheQueue
  refine ⟨?operation, ?fence, ?room⟩
  case operation =>
    rintro i k dd w x g d a b s c slot t D _ p o n hi h hp hl rfl ht ho
    rcases hi with ⟨rfl, rfl, rfl, rfl, rfl, rfl⟩ | ⟨rfl, rfl, rfl, rfl, rfl, rfl⟩ | ⟨rfl, rfl, rfl, rfl, rfl, rfl⟩
    · exact ⟨causewayOp_accepted exec_cwst h (fun _ => rfl) rfl hp hl ht ho,
        causewayOp_noRoom exec_cwst h (fun _ => rfl) rfl hp hl ht ho⟩
    · exact ⟨causewayOp_accepted exec_cwadd h (fun _ => rfl) rfl hp hl ht ho,
        causewayOp_noRoom exec_cwadd h (fun _ => rfl) rfl hp hl ht ho⟩
    · exact ⟨causewayOp_accepted exec_cwcas h (fun _ => rfl) rfl hp hl ht ho,
        causewayOp_noRoom exec_cwcas h (fun _ => rfl) rfl hp hl ht ho⟩
  case fence =>
    rintro g d a s c slot t _ p n h hp hl rfl ht
    exact ⟨cwfence_goesOn h hp hl ht, cwfence_waits h hp hl ht⟩
  case room =>
    intro s p c slot rest t o va hroom hlen h
    obtain ⟨v, hv, hthread, hexec⟩ := cwQueueAdmit_enters hroom hlen h
    have hport := acceptOp_port (o := o) hv
    have hin : (acceptOp v p o).thread? c slot = some t := hthread
    by_cases hk : o.what.kind = .cwst
    · rw [if_pos hk] at hexec
      have hkept := (CoreOnly.finishWait (acceptOp v p o) c slot).field (·.port p) (fun _ => rfl)
      refine ⟨_, hexec, ?_, ?_, ?_, fun _ => finishWait_resumed hin h.code h.notStepped h.here,
        fun hne => absurd hk hne⟩
      · rw [hkept, hport]
      · rw [hkept, hport]
      · rw [hkept, hport]
    · rw [if_neg hk, State.modThread_eq hin] at hexec
      refine ⟨_, hexec, ?_, ?_, ?_, fun he => absurd he hk, fun _ => State.thread?_setThread_self ..⟩
      · exact congrArg Port.queue hport
      · exact congrArg Port.room hport
      · exact congrArg Port.accepted hport

end Sys2Proof
end

section
/-!
The ports of the Causeway: joining and leaving, rotations and bursts, frames and replays, and recovery (R209, R253 to
R270).
-/
namespace Sys2Proof
open Machine

/-! ## Joining and leaving (R254, R266 to R269) -/

section
variable {s : State} {p : Nat} {h : CwHeard}

theorem logCwLeft_port (reason cause rotation q : Nat) :
    (logCwLeft s p reason cause rotation).port q = s.port q := rfl

/-- R254: JOIN starts a port afresh. -/
theorem cwJoin_starts (h : (s.port p).state = .none ∨ (s.port p).state = .removed) :
    ∃ s', exec (.cwJoin p) s = .next s' ∧ (s'.port p).state = .joining ∧ (s'.port p).queue = [] ∧
      (s'.port p).replica = [] ∧ (s'.port p).applied = 0 ∧ (s'.port p).lost = 0 ∧ (s'.port p).nacks = 0 ∧
      (∀ q, q ≠ p → s'.port q = s.port q) ∧ s'.cores = s.cores ∧ s'.mem = s.mem := by
  refine ⟨_, rfl, ?_⟩
  unfold portJoin
  rcases h with h | h
  · simp only [h, State.port_modPort_self, true_and]
    exact ⟨fun q hq => by rw [port_modPort, if_neg hq], rfl, rfl⟩
  · simp only [h, State.port_modPort_self, true_and]
    exact ⟨fun q hq => by rw [port_modPort, if_neg hq], rfl, rfl⟩

/-- R266: where every thread is idle, a port that leaves faults none of them, and ends no fence. -/
theorem waiters_idle (h : ∀ x ∈ allThreads s, x.2.wait = .idle) :
    recheckFences (faultWaiters s p (allThreads s)) ((allThreads s).map (·.1)) = s := by
  rw [faultWaiters_none h, recheckFences_none h]

/-- R266: a port that no thread waits at leaves, and keeps nothing. -/
theorem portLeave_idle (h : ∀ x ∈ allThreads s, x.2.wait = .idle) (st : PortState) (cause : Nat) :
    ((portLeave s p st cause).port p).state = st ∧ ((portLeave s p st cause).port p).queue = [] ∧
      ((portLeave s p st cause).port p).replica = [] ∧ ((portLeave s p st cause).port p).live = 0#32 ∧
      ((portLeave s p st cause).port p).lost =
        (s.port p).lost + count (fun o => o.what.kind = .cwst) (s.port p).queue ∧
      (∀ q, q ≠ p → (portLeave s p st cause).port q = s.port q) ∧ (portLeave s p st cause).cores = s.cores ∧
      (portLeave s p st cause).mem = s.mem := by
  unfold portLeave
  simp only
  rw [waiters_idle]
  · simp only [State.port_modPort_self, logCwLeft_port]
    refine ⟨trivial, trivial, trivial, trivial, trivial, fun q hq => ?_, rfl, rfl⟩
    rw [port_modPort, if_neg hq, logCwLeft_port]
  · exact h

/-- R269: a port that refuses itself is in no Causeway, and asks for none. -/
theorem refuseJoin_port (r : Nat) :
    ((refuseJoin s p r).port p).state = .none ∧ ((refuseJoin s p r).port p).asked = false := by
  unfold refuseJoin
  rw [logCwLeft_port, State.port_modPort_self]
  exact ⟨rfl, rfl⟩

section
variable (hs : (s.port p).state = .joining) (ha : (s.port p).asked = false)
include hs ha

/-- R267 to R269: at the end of the listening a port refuses itself, asks the master that it hears, or founds. -/
theorem joinListenEnd_decides (hf : (s.port p).founder = false) :
    (∀ r, refusal (s.port p) h = some r → exec (.joinListenEnd p h) s = .next (refuseJoin s p r)) ∧
    (refusal (s.port p) h = none → h.light = true →
      exec (.joinListenEnd p h) s = .next (s.modPort p (fun x => { x with asked := true }))) ∧
    (refusal (s.port p) h = none → h.light = false →
      exec (.joinListenEnd p h) s = .next (s.modPort p (fun x => { x with founder := true }))) := by
  rw [exec_joinListenEnd, execJoinListenEnd]
  simp only [hs, ha, hf, bne_self_eq_false, Bool.or_self, Bool.false_eq_true, if_false]
  refine ⟨fun r hr => ?_, fun hr hl => ?_, fun hr hl => ?_⟩
  · simp only [hr]
  · simp only [hr, hl, if_true]
  · simp only [hr, hl, Bool.false_eq_true, if_false]

/-- R268, R269: at the end of the founder's wait it refuses itself, asks the master whose light it sees, or is the
master at rotation 0. -/
theorem founderWaitEnd_decides (hf : (s.port p).founder = true) (hv : (s.port p).views = []) :
    (∀ r, refusal (s.port p) h = some r → exec (.founderWaitEnd p h) s = .next (refuseJoin s p r)) ∧
    (refusal (s.port p) h = none → h.light = true → exec (.founderWaitEnd p h) s =
      .next (s.modPort p (fun x => { x with founder := false, asked := true }))) ∧
    (refusal (s.port p) h = none → h.light = false →
      ∃ s', exec (.founderWaitEnd p h) s = .next s' ∧ (s'.port p).master = (s.port p).index ∧
        (s'.port p).views = [{ rotation := 0, master := (s.port p).index, live := 0#32 }]) := by
  rw [exec_founderWaitEnd, execFounderWaitEnd]
  simp only [hs, ha, hf, hv, bne_self_eq_false, Bool.not_true, Bool.or_self, Bool.false_eq_true, if_false]
  refine ⟨fun r hr => ?_, fun hr hl => ?_, fun hr hl => ?_⟩
  · simp only [hr]
  · simp only [hr, hl, if_true]
  · simp only [hr, hl, Bool.false_eq_true, if_false]
    exact ⟨_, rfl, by rw [State.port_modPort_self], by rw [State.port_modPort_self]⟩

end

/-- R269: a port that has asked and is not granted in time refuses itself. -/
theorem joinGrantTimeout_refuses (hs : (s.port p).state = .joining) (ha : (s.port p).asked = true)
    (hg : (s.port p).snapshot = false) (hr : (s.port p).sentRot ≠ none) :
    exec (.joinGrantTimeout p) s = .next (refuseJoin s p 7) := by
  rw [exec_joinGrantTimeout, execJoinGrantTimeout]
  simp only [hs, ha, hg, Option.isSome_iff_ne_none.2 hr, decide_true, Bool.not_false, Bool.and_self, if_true]

/-- R267: the master hears a joiner. -/
theorem frameControl_hears {j : Nat} (hm : isMaster (s.port p) = true) (hj : j < (s.port p).slots)
    (hl : (s.port p).live.getLsbD j = false) (hn : j ∉ (s.port p).joiners) (hi : j ≠ (s.port p).index) :
    exec (.frameControl p j (s.port p).cwid (s.port p).slots) s =
      .next (s.modPort p (fun x => { x with joiners := x.joiners ++ [j] })) := by
  rw [exec_frameControl, execFrameControl]
  simp [hm, Nat.not_le.2 hj, hl, hn, hi]

end

/-! ## Rotations (R258, R264, R265) -/

section
variable {s : State} {p : Nat} {v w : CwView} {vs : List CwView}

/-- R258: the master opens its next rotation. -/
theorem rotationOpen_master (hm : isMaster (s.port p) = true) :
    exec (.rotationOpen p v) s = .next (drainAll (s.modPort p (fun x => openRotation x v.held)) p) := by
  rw [exec_rotationOpen, execRotationOpen]
  simp only [hm, if_true]

/-- R258, R264: the view with which the master opens its next rotation. -/
theorem openRotation_views (x : Port) (h : List (Nat × Nat × Nat)) : (openRotation x h).views =
    { rotation := nowRot x + 1, master := x.index, held := h
      live := nextView { x with dark := countDark x (nowRot x) } (nowRot x + 1) } :: x.views := by
  unfold openRotation
  simp only
  split
  · split <;> rfl
  · rfl

/-- R264, R265: a member takes the view that opens a rotation, or finds itself removed. -/
theorem rotationOpen_member (hs : (s.port p).state = .member ∨ (s.port p).state = .recovering)
    (hm : isMaster (s.port p) = false) (hv : (s.port p).views = w :: vs) (hlt : w.rotation < v.rotation) :
    (v.live.getLsbD (s.port p).index = true → exec (.rotationOpen p v) s =
      .next (drainAll (s.modPort p (fun x => { seeView x v with state := .member })) p)) ∧
    (v.live.getLsbD (s.port p).index = false → exec (.rotationOpen p v) s = .next (portLeave s p .removed 2)) := by
  have hnew : ((s.port p).views != [] && decide (v.rotation ≤ lastRot (s.port p))) = false := by
    simp [lastRot, hv, Nat.not_le.2 hlt]
  rw [exec_rotationOpen, execRotationOpen]
  simp only [hm, hnew, Bool.false_eq_true, if_false]
  rcases hs with hs | hs
  · simp only [hs]
    exact ⟨fun hl => by rw [if_pos hl], fun hl => by rw [hl]; rfl⟩
  · simp only [hs]
    exact ⟨fun hl => by rw [if_pos hl], fun hl => by rw [hl]; rfl⟩

end

/-! ## Bursts (R256, R258, R260) -/

section
variable {s : State} {p : Nat} {v : CwView} {vs : List CwView}

/-- R256: what fits one frame is cut into that frame. -/
theorem chunk_single {os : List CwRec} (n : Nat) (h : os.length ≤ 30) :
    chunk os (n + 2) = if os.isEmpty then [] else [os] := by
  have hdrop : os.drop 30 = [] := List.drop_eq_nil_of_le h
  simp only [chunk, List.take_of_length_le h, hdrop, List.isEmpty_nil, if_true]

/-- R256, R258: a burst that owes nothing and asks for nothing is one frame. -/
theorem burstLoads_single {os : List CwRec} (first : Bool) (n : Nat) (h : os.length ≤ 30) :
    burstLoads first [] ((chunk os (n + 2)).map CwLoad.ops) 0 = [.ops os] := by
  rw [chunk_single n h]
  cases os with
  | nil => cases first <;> rfl
  | cons o os => cases first <;> rfl

/-- R258: the rotation of a burst is that of the newest view, if the port has sent none since. -/
theorem burstRot_newest {x : Port} (hv : x.views = v :: vs) (hr : ∀ r, x.sentRot = some r → r < v.rotation) :
    burstRot x = v.rotation := by
  have hlast : lastRot x = v.rotation := by rw [lastRot, hv]
  unfold burstRot
  cases h : x.sentRot with
  | none => exact hlast
  | some r =>
    have := hr r h
    simp only [hlast]
    omega

/-- R258, R260: a member's burst, where nothing is owed and nothing asked for: its queue in one frame. -/
theorem burstSend_sends (hs : (s.port p).state = .member) (hv : (s.port p).views = v :: vs)
    (hr : ∀ r, (s.port p).sentRot = some r → r < v.rotation) (hl : (s.port p).live.getLsbD (s.port p).index = true)
    (howed : (s.port p).owed = []) (hreq : (s.port p).requests = []) (hask : (s.port p).ask = [])
    (hsnaps : (s.port p).snaps = []) (hroom : (s.port p).room = []) (hq : (s.port p).queue.length ≤ 30) :
    ∃ s', exec (.burstSend p) s = .next s' ∧ (s'.port p).queue = [] ∧
      (s'.port p).flying = (s.port p).flying ++ (s.port p).queue ∧ (s'.port p).sentRot = some v.rotation ∧
      s'.agenda = s.agenda ++ [.frameData p
        { rotation := v.rotation, member := (s.port p).index, fidx := 0, fcount := 1,
          ops := (s.port p).queue.map (·.what), nacks := [],
          view := (s.port p).views.find? (fun w => w.rotation = v.rotation && w.master = (s.port p).index) }] := by
  have hheirs : heirFrames (s.port p) = [] := by rw [heirFrames, hreq]; rfl
  have hloads : ∀ n, snapLoads (s.port p) n = ([], []) := by intro n; rw [snapLoads, hsnaps]
  have hasks : asksFor (s.port p) v.rotation = [] := by rw [asksFor, hask]; rfl
  have hops : (s.port p).queue.take (30 * 64) = (s.port p).queue := List.take_of_length_le (by omega)
  have hdata := burstLoads_single (os := (s.port p).queue.map (·.what))
    ((s.port p).views.any (fun w => w.rotation = v.rotation && w.master = (s.port p).index)) 62 (by simpa using hq)
  rw [exec_burstSend, execBurstSend]
  simp only [hs, hears, hl, reduceCtorEq, decide_true, decide_false, Bool.false_and, Bool.false_eq_true, Bool.true_or,
    Bool.and_self, if_true, if_false, sendBurst, burstRot_newest hv hr, hheirs, hloads, hasks, howed, List.append_nil,
    List.isEmpty_nil, List.length_nil, List.take_nil, List.map_nil, hops, Nat.sub_zero, hdata, List.length_singleton,
    List.range_one, List.map_cons, List.foldl_cons, List.foldl_nil, List.getD_cons_zero, hearOwn, port_post,
    State.port_modPort_self, hroom]
  refine ⟨_, rfl, ?_, ?_, ?_, rfl⟩
  · rw [port_post, State.port_modPort_self]
    exact List.drop_length
  · rw [port_post, State.port_modPort_self]
  · rw [port_post, State.port_modPort_self]

end

/-! ## Frames (R209, R259, R261, R262, R267) -/

section
variable {s u : State} {p : Nat} {f : CwFrame} {o : Nat} {bs : List Byte}

/-- R267: a part of the replica is loaded by a joiner. -/
theorem loadSnap_loads {x : Port} (hs : x.state = .joining) (hg : x.snapshot = true) (h0 : o % 960 = 0)
    (hlt : o < 1048576) (hlen : bs.length = min 960 (1048576 - o)) :
    loadSnap x o bs = { x with replica := Mem.writeN x.replica o bs, got := x.got ||| 2 ^ (o / 960) } := by
  unfold loadSnap
  simp only [hs, hg, h0, hlt, hlen, decide_true, Bool.and_self, if_true]

/-- R267: a snapshot frame is loaded; with the last one its port is a member. -/
theorem frameSnapshot_loads (hh : hears (s.port p) = true)
    (hu : u = takeFrame s p { f with snap := some (o, bs) } true)
    (hs : (loadSnap (u.port p) o bs).state = .joining) (hg : (loadSnap (u.port p) o bs).snapshot = true) :
    ((loadSnap (u.port p) o bs).got ≠ 2 ^ 1093 - 1 →
      exec (.frameSnapshot p f (o, bs)) s = .next (u.modPort p (fun x => loadSnap x o bs))) ∧
    ((loadSnap (u.port p) o bs).got = 2 ^ 1093 - 1 → exec (.frameSnapshot p f (o, bs)) s =
      .next (drainAll ((u.modPort p (fun x => loadSnap x o bs)).modPort p (fun x =>
        { x with state := .member, snapshot := false, asked := false })) p)) := by
  rw [exec_frameSnapshot, execFrameSnapshot]
  simp only [hh, if_true, ← hu, takeSnap, State.port_modPort_self, hs, hg, decide_true, Bool.and_self, Bool.true_and,
    decide_eq_true_eq]
  exact ⟨fun h => by rw [if_neg h], fun h => by rw [if_pos h]⟩

/-- R259, R262: a frame, and a replay with the frame that carries it, are taken into the stream. -/
theorem frameData_taken (hh : hears (s.port p) = true) :
    exec (.frameData p f) s = .next (takeFrame s p f true) ∧
    ∀ g, exec (.frameReplay p ⟨g, f⟩) s = .next (takeSnap (takeFrame (takeFrame s p g true) p f false) p f) := by
  rw [exec_frameData, execFrameData, if_pos hh]
  refine ⟨rfl, fun g => ?_⟩
  rw [exec_frameReplay, execFrameReplay, if_pos hh]

/-- R262: what a port lacks is asked for in its next burst. -/
theorem missingFrame_asks {r m i : Nat} (hh : hears (s.port p) = true) (hl : lacks (s.port p) r m i = true) :
    exec (.missingFrame p r m i) s = .next (s.modPort p (fun x =>
      { x with holes := x.holes ++ [(r, m, i, nowRot x)], ask := x.ask ++ [(r, m, i)] })) := by
  rw [exec_missingFrame, execMissingFrame]
  simp only [hh, hl, Bool.not_true, Bool.or_self, Bool.false_eq_true, if_false]

end

section
variable {s : State} {p : Nat} {o : CwRec} {old : Word}

/-- R209: an operation of another port counts as applied, and does nothing else to the port than its write. -/
theorem applyOp_other (ho : old = leWord (Mem.readN (s.port p).replica (8 * (o.word % 131072)) 8)) :
    (o.kind = .cwst ∨ o.kind = .cwadd ∨ o.expect = old → applyOp s p o none =
      (writePlace s 0 (.cw p (8 * (o.word % 131072)))
        (wordBytes (if o.kind = .cwadd then old + o.data else o.data)) false).modPort p
          (fun x => { x with applied := (x.applied + 1) % 2 ^ 64 })) ∧
    (o.kind = .cwcas → o.expect ≠ old → applyOp s p o none =
      s.modPort p (fun x => { x with applied := (x.applied + 1) % 2 ^ 64 })) := by
  unfold applyOp
  simp only [← ho]
  refine ⟨fun h => ?writes, fun hk hne => ?keeps⟩
  case writes =>
    cases hk : o.kind with
    | cwst => rfl
    | cwadd => rfl
    | cwcas =>
      have he : old = o.expect := by simpa [hk, eq_comm] using h
      simp only [he, if_true]
      rfl
  case keeps =>
    simp only [hk, if_neg (Ne.symm hne)]
    rfl

end

/-! ## Recovery (R263, R264) -/

section
variable {s : State} {p : Nat}

/-- R263: a hole that stays unfilled for 8 rotations makes its port leave. -/
theorem holeTimeout_leaves (hh : hears (s.port p) = true)
    (hold : ∃ h ∈ (s.port p).holes, h.2.2.2 + 8 ≤ nowRot (s.port p)) :
    exec (.holeTimeout p) s = .next (portLeave s p .removed 1) := by
  have hany : (s.port p).holes.any (fun h => decide (h.2.2.2 + 8 ≤ nowRot (s.port p))) = true := by
    obtain ⟨h, hmem, hle⟩ := hold
    exact List.any_eq_true.2 ⟨h, hmem, decide_eq_true hle⟩
  rw [exec_holeTimeout, execHoleTimeout]
  simp only [hh, hany, Bool.and_self, if_true]

/-- R264: a member that loses its master recovers, and leaves when it does not. -/
theorem masterLoss_recovers (hs : (s.port p).state = .member) (hm : isMaster (s.port p) = false) :
    exec (.masterLoss p) s = .next (s.modPort p (fun x => { x with state := .recovering })) := by
  rw [exec_masterLoss, execMasterLoss]
  simp only [hs, hm, decide_true, Bool.not_false, Bool.and_self, if_true]

theorem recoveryTimeout_leaves (hs : (s.port p).state = .recovering) :
    exec (.recoveryTimeout p) s = .next (portLeave s p .removed 4) := by
  rw [exec_recoveryTimeout, execRecoveryTimeout, if_pos hs]

end

/-- Settles O46: joining and leaving (`cwJoin_starts`, `portLeave_idle`, `joinListenEnd_decides`,
`founderWaitEnd_decides`), rotations and bursts (`rotationOpen_member`, `burstSend_sends`), frames
(`frameSnapshot_loads`, `frameData_taken`, `applyOp_other`) and recovery (`holeTimeout_leaves`,
`masterLoss_recovers`). -/
theorem causewayPortsFollowTheStream : Obligations.CausewayPortsFollowTheStream := by
  unfold Obligations.CausewayPortsFollowTheStream
  refine ⟨?join, ?leave, ?listen, ?found, ?grant, ?refuse, ?control, ?snapshot, ?load, ?master, ?views, ?member,
    ?burst, ?frame, ?apply, ?missing, ?hole, ?loss, ?recovery⟩
  case join => exact fun s p h => cwJoin_starts h
  case leave =>
    intro s p hs hidle
    obtain ⟨hstate, hqueue, hreplica, hlive, hlost, hports, hcores, hmem⟩ := portLeave_idle (p := p) hidle .none 3
    refine ⟨_, ?_, hstate, hqueue, hreplica, hlive, hlost, hports, hcores, hmem⟩
    rw [exec_cwLeave, execCwLeave, if_pos hs]
  case listen => exact fun s p h hs ha hf => joinListenEnd_decides hs ha hf
  case found => exact fun s p hs hf ha hv h => founderWaitEnd_decides hs ha hf hv
  case grant => exact fun s p hs ha hg hr => joinGrantTimeout_refuses hs ha hg hr
  case refuse => exact fun s p r => refuseJoin_port r
  case control => exact fun s p j hm hj hl hn hi => frameControl_hears hm hj hl hn hi
  case snapshot => exact fun s p f o bs u hh hu hs hg => frameSnapshot_loads hh hu hs hg
  case load => exact fun x o bs hs hg h0 hlt hlen => loadSnap_loads hs hg h0 hlt hlen
  case master => exact fun s p v hm => rotationOpen_master hm
  case views => exact fun x h => openRotation_views x h
  case member => exact fun s p v w vs hs hm hv hlt => rotationOpen_member hs hm hv hlt
  case burst =>
    exact fun s p v vs hs hv hr hl howed hreq hask hsnaps hroom hq =>
      burstSend_sends hs hv hr hl howed hreq hask hsnaps hroom hq
  case frame => exact fun s p f hh => frameData_taken hh
  case apply => exact fun s p o old ho => applyOp_other ho
  case missing => exact fun s p r m i hh hl => missingFrame_asks hh hl
  case hole => exact fun s p hh hold => holeTimeout_leaves hh hold
  case loss => exact fun s p hs hm => masterLoss_recovers hs hm
  case recovery => exact fun s p hs => recoveryTimeout_leaves hs

end Sys2Proof
end

section
/-!
Launches: their submission and decision, their dependences, their work lists, and their completion (R195, R196, R300 to
R304, R311, R312, R317, R318).
-/
namespace Sys2Proof
open Machine

/-! ## Submissions (R196, R303) -/

section
variable {s u : State} {c slot d p : Nat} {t T : Thread} {va : Word}

/-- R196, R301: a LAUNCH of a thread that has the right leaves its submission, and its thread waits for the decision. -/
theorem doLaunch_submits (hr : needRight s c slot t 10 = (u, none)) (ha : va.toNat % 64 = 0)
    (h : u.thread? c slot = some T) :
    .launchAccept u.fresh ∈ (doLaunch s c slot t d va).agenda ∧
      (doLaunch s c slot t d va).subs = u.subs ++ [{ id := u.fresh, part := t.part, proc := t.proc, addr := va,
                                                     graph := false, thread := some ⟨c, slot⟩ }] ∧
      (doLaunch s c slot t d va).thread? c slot =
        some { T with code := .waiting, wait := .launch d u.fresh, sleepFor := 0, since := (u.core c).cyc } := by
  have hkept := CoreOnly.beginWait u c slot .waiting (.launch d u.fresh)
  have hfresh := hkept.field (·.fresh) (fun _ => rfl)
  have hsubs := hkept.field (·.subs) (fun _ => rfl)
  unfold doLaunch
  simp only [hr, ha, bne_self_eq_false, Bool.false_eq_true, if_false]
  refine ⟨List.mem_append_right _ (List.mem_singleton.2 (congrArg Event.launchAccept hfresh.symm)), ?_, ?_⟩
  · exact congrArg (· ++ _) hsubs
  · exact beginWait_thread h .waiting (.launch d u.fresh)

/-- R303: a write to the launch port is a submission, while none of its partition's is undecided. -/
theorem portSubmit_submits {a : Word} {graph : Bool}
    (h : s.subs.any (fun x => x.part = p && x.thread.isNone) = false) :
    .launchAccept s.fresh ∈ (portSubmit s p a graph).agenda ∧ (portSubmit s p a graph).parts = s.parts ∧
      (portSubmit s p a graph).subs = s.subs ++
        [{ id := s.fresh, part := p, proc := (s.part p).lpProc.toNat, addr := a, graph := graph, thread := none }] := by
  unfold portSubmit
  rw [if_neg (by rw [h]; decide)]
  exact ⟨List.mem_append_right _ (List.mem_singleton.2 rfl), rfl, rfl⟩

/-- R303: a write to the port is dropped while a submission is undecided. -/
theorem portSubmit_drops {a : Word} {graph : Bool}
    (h : s.subs.any (fun x => x.part = p && x.thread.isNone) = true) :
    portSubmit s p a graph = s.modPart p (fun P => { P with lpDropped := P.lpDropped + 1#16 }) := by
  unfold portSubmit
  rw [if_pos h]

end

/-! ## Decisions (R300 to R303) -/

section
variable {s u : State} {x : Submission} {bs : List Byte} {st : Nat}

/-- R303: the decision of a port's submission. -/
theorem answerSub_port (h : x.thread = none) (st : Nat) :
    ((answerSub s x st).part x.part).lpStatus = BitVec.ofNat 8 st ∧
      ((answerSub s x st).part x.part).lpSeq = (s.part x.part).lpSeq + 1#32 := by
  unfold answerSub
  simp only [h, State.part_modPart_self]
  exact ⟨trivial, rfl⟩

/-- R300: a header that passes every check becomes a launch. -/
theorem takeHeader_launches (h : headerStatus s x.part x.proc bs = 0) :
    takeHeader s x bs = answerSub (enterLaunch (newLaunch s (headerOf bs) none) (s.fresh + 1)) x 0 := by
  unfold takeHeader
  simp only [h, if_true]

/-- R300: a header that fails one is refused with its status. -/
theorem takeHeader_refuses (h : headerStatus s x.part x.proc bs = st) (hst : st ≠ 0) :
    takeHeader s x bs = answerSub s x st := by
  unfold takeHeader
  simp only [h, if_neg hst]

/-- R302: the thread of a LAUNCH that is decided receives the status. -/
theorem answerSub_resumes {c slot d : Nat} {t : Thread} (hx : x.thread = some ⟨c, slot⟩)
    (h : Waits s c slot t (.launch d x.id)) (st : Nat) :
    Resumed (answerSub s x st) c slot (t.setG d (BitVec.ofNat 64 st)) := by
  have hthread : (dropSub s x).thread? c slot = some t := by
    unfold dropSub grantRecord
    split <;> exact h.thread
  unfold answerSub
  simp only [hx]
  split
  · next hnone => exact absurd (hnone.symm.trans hthread) (by simp)
  · next t' hsome =>
    obtain rfl : t' = t := Option.some.inj (hsome.symm.trans hthread)
    simp only [h.wait]
    exact h.finish (dropSub s x) hthread d _

theorem newLaunch_cores (s : State) (h : Header) (node : Option (Nat × Nat)) : (newLaunch s h node).cores = s.cores :=
  rfl

theorem enterLaunch_cores (s : State) (lid : Nat) : (enterLaunch s lid).cores = s.cores := by
  unfold enterLaunch
  split
  · rfl
  · split <;> rfl

/-- R300, R302: whatever is decided of a header, its thread receives the status. -/
theorem takeHeader_resumes {c slot d : Nat} {t : Thread} (hx : x.thread = some ⟨c, slot⟩)
    (h : Waits s c slot t (.launch d x.id)) (hst : st = headerStatus s x.part x.proc bs) :
    Resumed (takeHeader s x bs) c slot (t.setG d (BitVec.ofNat 64 st)) := by
  by_cases h0 : st = 0
  · have hcores : (enterLaunch (newLaunch s (headerOf bs) none) (s.fresh + 1)).thread? c slot = s.thread? c slot := by
      rw [State.thread?, State.core, enterLaunch_cores, newLaunch_cores]
      rfl
    rw [takeHeader_launches (hst.symm.trans h0), h0]
    exact answerSub_resumes hx (h.of_thread hcores) 0
  · rw [takeHeader_refuses hst.symm h0]
    exact answerSub_resumes hx h st

/-- R301: a header that has been read is checked when there is a record for it and no earlier LAUNCH waits. -/
theorem checkHeader_takes (hroom : recordsOf s x.part < 1024)
    (hfirst : s.subs.any (fun y => y.part = x.part && y.thread.isSome && decide (y.id < x.id)) = false) :
    checkHeader s x bs = takeHeader s x bs := by
  unfold checkHeader
  simp only [Nat.not_le.2 hroom, decide_false, hfirst, Bool.or_self, Bool.false_eq_true, if_false]

/-- R301: a LAUNCH's header is read once. -/
theorem threadHeader_checks {c slot : Nat} {T : Thread} (h : s.thread? c slot = some T)
    (hr : x.read = none ∧ readVa s c T.part T.proc x.addr 256 = (u, .ok bs) ∨ x.read = some bs ∧ u = s) :
    threadHeader s x ⟨c, slot⟩ = checkHeader u x bs := by
  unfold threadHeader
  rcases hr with ⟨hread, hva⟩ | ⟨hread, rfl⟩
  · simp only [h, hread, hva]
  · simp only [h, hread]

section
variable (hx : s.subs.find? (fun y => y.id = x.id) = some x) (ht : x.thread = none) (hg : x.graph = false)
include hx ht hg

theorem launchAccept_port : exec (.launchAccept x.id) s = .next (portHeader s x) := by
  rw [exec_launchAccept, execLaunchAccept]
  simp only [hx, ht, hg, Bool.false_eq_true, if_false]

/-- R303: a port's header that is misaligned, cannot be read, finds no record, or fails a check. -/
theorem launchAccept_refuses (h : x.addr.toNat % 64 ≠ 0 ∧ st = 6 ∨
      x.addr.toNat % 64 = 0 ∧ distRead s x.part x.proc x.addr 256 = none ∧ st = 6 ∨
      x.addr.toNat % 64 = 0 ∧ (∃ bs, distRead s x.part x.proc x.addr 256 = some bs ∧ 1024 ≤ recordsOf s x.part) ∧
        st = 5 ∨
      x.addr.toNat % 64 = 0 ∧ (∃ bs, distRead s x.part x.proc x.addr 256 = some bs ∧ recordsOf s x.part < 1024 ∧
        headerStatus s x.part x.proc bs = st) ∧ st ≠ 0) :
    exec (.launchAccept x.id) s = .next (answerSub s x st) := by
  rw [launchAccept_port hx ht hg, portHeader]
  rcases h with ⟨ha, rfl⟩ | ⟨ha, hread, rfl⟩ | ⟨ha, ⟨bs, hread, hfull⟩, rfl⟩ | ⟨ha, ⟨bs, hread, hroom, hst⟩, hne⟩
  · rw [if_pos (bne_iff_ne.2 ha)]
  · simp only [ha, hread, bne_self_eq_false, Bool.false_eq_true, if_false]
  · simp only [ha, hread, hfull, bne_self_eq_false, Bool.false_eq_true, if_false, if_true]
  · simp only [ha, hread, Nat.not_le.2 hroom, bne_self_eq_false, Bool.false_eq_true, if_false]
    rw [takeHeader_refuses hst hne]

/-- R300, R303: a port's header that passes becomes a launch. -/
theorem launchAccept_launches (ha : x.addr.toNat % 64 = 0) (hread : distRead s x.part x.proc x.addr 256 = some bs)
    (hroom : recordsOf s x.part < 1024) (hst : headerStatus s x.part x.proc bs = 0) :
    exec (.launchAccept x.id) s =
      .next (answerSub (enterLaunch (newLaunch s (headerOf bs) none) (s.fresh + 1)) x 0) := by
  rw [launchAccept_port hx ht hg, portHeader]
  simp only [ha, hread, Nat.not_le.2 hroom, bne_self_eq_false, Bool.false_eq_true, if_false]
  rw [takeHeader_launches hst]

end

/-- R301: the LAUNCH that has waited longest is decided. -/
theorem launchRecordGrant_decides {p : Nat} {r : TRef}
    (hp : s.subs.find? (fun y => y.part = p && y.thread.isSome) = some x)
    (hx : s.subs.find? (fun y => y.id = x.id) = some x) (hr : x.thread = some r) :
    exec (.launchRecordGrant p) s = .next (threadHeader s x r) ∧
      exec (.launchAccept x.id) s = .next (threadHeader s x r) := by
  have haccept : execLaunchAccept x.id s = .next (threadHeader s x r) := by
    unfold execLaunchAccept
    simp only [hx, hr]
  refine ⟨?_, haccept⟩
  rw [exec_launchRecordGrant, execLaunchRecordGrant]
  simp only [hp, haccept]

end

/-! ## Dependences (R304) -/

section
variable {s : State} {lid : Nat} {l : Launch} {p : Place}

theorem launch?_modLaunch (h : s.launch? lid = some l) (f : Launch → Launch) :
    (s.modLaunch lid f).launch? lid = some (f l) := by
  refine (Map.get?_modify ..).trans ?_
  rw [if_pos rfl]
  exact congrArg (Option.map f) h

theorem dropDep_launch (s : State) (lid x : Nat) : (dropDep s lid).launch? x = s.launch? x := by
  have hkept := congrArg State.launches
    (postEntries_rest { s with watches := s.watches.filter (fun w => w.kind != .dep lid) })
  exact congrArg (fun m => Map.get? m x) hkept

theorem dropDep_noAct {e : Event} (h : NoAct s e) (lid : Nat) : NoAct (dropDep s lid) e := by
  refine h.mono (fun x hx => ?_)
  have hdir := congrArg State.dir
    (postEntries_rest { s with watches := s.watches.filter (fun w => w.kind != .dep lid) })
  rw [show (dropDep s lid).dir = _ from hdir] at hx
  exact (List.mem_filter.1 hx).1

theorem dependent_of (he : l.entered = true) (hr : l.ready = none) (hd : l.done = false) (h0 : l.hdr.dep ≠ 0#64)
    (hc : l.cancelled = false) (hp : l.preempting = false) : dependent l = true := by
  simp [dependent, he, hr, hd, hc, hp, h0]

/-- R304: a launch whose dependence is met is ready. -/
theorem dependenceReady_readies (hl : s.launch? lid = some l) (hd : dependent l = true)
    (hp : depPlace s l.hdr = some p) (ht : InTurn s (.dependenceReady lid) p false)
    (hmet : l.hdr.depval.toNat ≤ (leWord (readPlace s noCore p 8).1).toNat) :
    ∃ s', exec (.dependenceReady lid) s = .next s' ∧ .placementDecision l.part ∈ s'.agenda ∧
      s'.launch? lid = some { l with ready := some s.now } := by
  have hread : readDep s { l with lid := lid } p =
      (dropDep (s.modLaunch lid (fun l => { l with ready := some s.now })) lid).post (.placementDecision l.part) := by
    unfold readDep
    simp only [hmet, if_true]
  have hno : NoAct (readDep s { l with lid := lid } p) (.dependenceReady lid) := by
    have hmod : NoAct (s.modLaunch lid (fun l => { l with ready := some s.now })) (.dependenceReady lid) :=
      ht.noAct.of_dir rfl
    rw [hread]
    exact NoAct.of_dir (dropDep_noAct hmod lid) rfl
  refine ⟨readDep s { l with lid := lid } p, ?_, ?_, ?_⟩
  · rw [exec_dependenceReady, execDependenceReady]
    simp only [hl, hd, hp, Bool.not_true, Bool.false_eq_true, if_false]
    rw [atPlace_inTurn ht, settleAct_noAct hno]
  · rw [hread]
    exact List.mem_append_right _ (List.mem_singleton.2 rfl)
  · rw [hread]
    exact (dropDep_launch _ lid lid).trans (launch?_modLaunch hl _)

/-- R304: a launch whose dependence word has a page that fails is cancelled, and completes. -/
theorem dependenceCancel_cancels (hl : s.launch? lid = some l) (hd : dependent l = true)
    (hp : depPlace s l.hdr = none) :
    ∃ s', exec (.dependenceCancel lid) s = .next s' ∧ .launchCompletion lid ∈ s'.agenda ∧
      s'.launch? lid = some { l with cancelled := true, ready := some s.now, status := l.status ||| 4#5,
                                     bands := l.bands.map (fun _ => .ended) } := by
  rw [exec_dependenceCancel, execDependenceCancel]
  simp only [hl, hd, hp, Bool.not_true, Option.isSome_none, Bool.false_eq_true, if_false]
  refine ⟨_, rfl, List.mem_append_right _ (List.mem_singleton.2 rfl), ?_⟩
  refine (dropDep_launch _ lid lid).trans ?_
  rw [launch?_modLaunch hl]

end

/-! ## Work lists (R195, R311, R312) -/

section
variable {g : BitVec 3} {d a : BitVec 7} {s : State} {c slot n : Nat} {t : Thread} {va : Word} {l : Launch}

/-- R195: the request of a WQRY. -/
def wqryOf (s : State) (c : Nat) (t : Thread) (va : Word) : Query :=
  { id := s.fresh, lid := t.lid, gid := t.gid, core := c, off := va.toNat, answer := none }

/-- R195: the state in which a WQRY has left its request, and not written its result yet. -/
def wqryAsked (s : State) (c : Nat) (t : Thread) (va : Word) (part : Nat) : State :=
  ((({ s with queries := s.queries ++ [wqryOf s c t va] } : State).bump).post (.wqryServe part)).modGroup t.gid
    (fun g => { g with ops := g.ops + 1 })

/-- R195: a WQRY with an answer word that the thread may name queues its request, if its launch is persistent. -/
theorem doWqry_eq (ha : va.toNat % 8 = 0) (hown : va.toNat < 0x20000) (hxb : (s.core c).xb ≤ va.toNat)
    (hlock : (s.core c).lock = none) (hl : s.launch? t.lid = some l) :
    doWqry s c slot t n va = if l.hdr.persist then writeG (wqryAsked s c t va l.part) c slot n 0#64
      else writeG s c slot n 1#64 := by
  have hundo : undoRegion (s.core c) va.toNat = false := by simp [undoRegion, hlock]
  unfold doWqry wqryAsked wqryOf
  simp only [ha, classOf_own hown, Nat.not_lt.2 hxb, hundo, hl, bne_self_eq_false, Bool.false_eq_true, if_false]

/-- What WQRY names, reads and writes (R195). -/
def wqryDesc (g : BitVec 3) (d a : BitVec 7) : Desc := { dRR g d a with drain := true, commit := fun _ => true }

theorem wqry_body {s1 : State} {u : Thread} (B : Becomes s s1 c slot u) (hlock : (s.core c).lock = none)
    (ha : (t.gv a.toNat).toNat % 8 = 0) (hown : (t.gv a.toNat).toNat < 0x20000)
    (hxb : (s.core c).xb ≤ (t.gv a.toNat).toNat) (hl : s.launch? t.lid = some l) :
    doWqry s1 c slot (reading (.wqry g d a) t) n (t.gv a.toNat) =
      if l.hdr.persist then writeG (wqryAsked s1 c t (t.gv a.toNat) l.part) c slot n 0#64
      else writeG s1 c slot n 1#64 := by
  have hxb' : (s1.core c).xb = (s.core c).xb := by
    have e := congrArg Core.xb B.core
    exact e
  have hlaunch : s1.launch? t.lid = s.launch? t.lid := congrArg (Map.get? · t.lid) (B.field (·.launches) (fun _ => rfl))
  exact doWqry_eq (t := reading (.wqry g d a) t) ha hown (hxb'.symm ▸ hxb) (B.lock.trans hlock) (hlaunch.trans hl)

section
variable (h : Issues (wqryDesc g d a) s c slot t) (hp : Plain s c slot t) (hlock : (s.core c).lock = none)
  (ha : (t.gv a.toNat).toNat % 8 = 0) (hown : (t.gv a.toNat).toNat < 0x20000)
  (hxb : (s.core c).xb ≤ (t.gv a.toNat).toNat) (hl : s.launch? t.lid = some l)
include h hp hlock ha hown hxb hl

/-- R195, R311: the WQRY of a persistent launch leaves its request and gives 0. -/
theorem wqry_asks (hpersist : l.hdr.persist = true) :
    ∃ s', exec (.wqry g d a) s = .next s' ∧ .wqryServe l.part ∈ s'.agenda ∧
      s'.thread? c slot = some ((past (.wqry g d a) 4 t).setG d.toNat 0#64) ∧
      s'.groups = (s.modGroup t.gid (fun g => { g with ops := g.ops + 1 })).groups ∧
      s'.queries = s.queries ++ [wqryOf s c t (t.gv a.toNat)] := by
  have B := atIssue_becomes (i := .wqry g d a) (d := wqryDesc g d a) h.turn hp.notStepped (.inr hlock)
  have hbody := wqry_body (g := g) (d := d) (n := d.toNat) B hlock ha hown hxb hl
  rw [if_pos hpersist] at hbody
  have hexec := exec_of (d := wqryDesc g d a) exec_wqry h hbody
  generalize atIssue (.wqry g d a) (wqryDesc g d a) s c slot t = v at B hexec
  have hthread := writeG_thread (s := wqryAsked v c t (t.gv a.toNat) l.part) B.thread d.toNat 0#64
  have hdone := afterIssue_done hthread ((Thread.setG_stepping ..).trans hp.notStepped) (fun L hL => by
    rw [writeG_lock] at hL
    exact absurd (hL.symm.trans (B.lock.trans hlock)) (by simp))
  have hkept := CoreOnly.writeG (wqryAsked v c t (t.gv a.toNat) l.part) c slot d.toNat 0#64
  refine ⟨_, hexec.trans (congrArg _ hdone), ?_, hthread, ?_, ?_⟩
  · rw [writeG_agenda]
    exact List.mem_append_right _ (List.mem_singleton.2 rfl)
  · refine (hkept.field (·.groups) (fun _ => rfl)).trans ?_
    exact congrArg (fun gs : Map Group => Map.modify gs t.gid (fun g => { g with ops := g.ops + 1 }))
      (B.field (·.groups) (fun _ => rfl))
  · refine (hkept.field (·.queries) (fun _ => rfl)).trans ?_
    have hqueries := B.field (·.queries) (fun _ => rfl)
    have hfresh := B.field (·.fresh) (fun _ => rfl)
    show v.queries ++ [wqryOf v c t (t.gv a.toNat)] = _
    rw [wqryOf, hqueries, hfresh, wqryOf]

/-- R195: the WQRY of any other launch gives 1. -/
theorem wqry_refuses (hpersist : l.hdr.persist = false) :
    ∃ s', exec (.wqry g d a) s = .next s' ∧
      Becomes s s' c slot ((past (.wqry g d a) 4 t).setG d.toNat 1#64) := by
  refine completes_of (d := wqryDesc g d a) exec_wqry h hp hp (.inr hlock) ?_ (fun s1 B => ?_)
  · rw [Thread.setG_stepping]
    exact hp.notStepped
  · have hbody := wqry_body (g := g) (d := d) (n := d.toNat) B hlock ha hown hxb hl
    rw [if_neg (by simp [hpersist])] at hbody
    exact hbody ▸ B.writeG d.toNat 1#64

end

end

section
variable {s u v : State} {part id : Nat} {q : Query} {l : Launch} {w : Word}

/-- R311: the item that the next request of a launch takes: one of its work list, or the end token. -/
def nextItem (s : State) (l : Launch) : Option (List Byte) :=
  if l.items < l.hdr.wcount then distRead s l.part l.hdr.proc (l.hdr.wlist + BitVec.ofNat 64 (8 * l.items)) 8
  else some (wordBytes endToken)

theorem nextItem_word (h : l.items < l.hdr.wcount ∧ (∃ bs, leWord bs = w ∧
      distRead s l.part l.hdr.proc (l.hdr.wlist + BitVec.ofNat 64 (8 * l.items)) 8 = some bs) ∨
    l.hdr.wcount ≤ l.items ∧ w = endToken) : ∃ bs, nextItem s l = some bs ∧ leWord bs = w := by
  unfold nextItem
  rcases h with ⟨hlt, bs, hw, hread⟩ | ⟨hle, rfl⟩
  · exact ⟨bs, by rw [if_pos hlt, hread], hw⟩
  · exact ⟨wordBytes endToken, if_neg (Nat.not_lt.2 hle), leWord_wordBytes _⟩

/-- R311: whether a request is one that a partition has not served. -/
def unserved (s : State) (part : Nat) (q : Query) : Bool :=
  q.answer.isNone && (match s.launch? q.lid with
    | some l => l.part = part
    | none => false)

/-- R311: a request that is served has its answer on the way, and its launch one item less. -/
theorem wqryServe_serves (hq : s.queries.find? (unserved s part) = some q) (hl : s.launch? q.lid = some l)
    (hw : l.items < l.hdr.wcount ∧ (∃ bs, leWord bs = w ∧
        distRead s l.part l.hdr.proc (l.hdr.wlist + BitVec.ofNat 64 (8 * l.items)) 8 = some bs) ∨
      l.hdr.wcount ≤ l.items ∧ w = endToken) :
    ∃ s', exec (.wqryServe part) s = .next s' ∧ .wqryAnswerDeliver q.id ∈ s'.agenda ∧
      s'.queries = setAnswer s.queries q.id w ∧
      s'.launch? q.lid = some { l with items := if l.items < l.hdr.wcount then l.items + 1 else l.items } := by
  obtain ⟨bs, hitem, rfl⟩ := nextItem_word hw
  unfold nextItem at hitem
  rw [exec_wqryServe, execWqryServe]
  split
  · next hnone => exact absurd (hnone.symm.trans hq) (by simp)
  · next q' hsome =>
    obtain rfl : q' = q := Option.some.inj (hsome.symm.trans hq)
    simp only [hl, hitem, Option.isNone_some, Bool.false_eq_true, if_false]
    exact ⟨_, rfl, List.mem_append_right _ (List.mem_singleton.2 rfl), rfl, launch?_modLaunch hl _⟩

section
variable (hq : s.queries.find? (fun q => q.id = id) = some q) (hw : q.answer = some w)
  (hu : u = feFirst s q.core q.off 8)
include hq hw hu

/-- R195, R312: an answer for an empty word is written, and the word is full. -/
theorem wqryAnswerDeliver_writes
    (hfirst : u.queries.any (fun x => x.core = q.core && x.off = q.off && x.answer.isSome && decide (x.id < id)) =
      false)
    (hv : v = setFull (writePlace { u with queries := u.queries.filter (fun x => x.id != id) } q.core
      (.spad q.core q.off) (wordBytes w) false) q.core q.off true)
    (hempty : fullBit (u.core q.core) q.off = false) (hnext : feNext v q.core q.off = none) :
    exec (.wqryAnswerDeliver id) s = .next (endOp v q.gid) := by
  rw [exec_wqryAnswerDeliver, execWqryAnswerDeliver]
  simp only [hq, hw, ← hu, hempty, hfirst, Bool.or_self, Bool.false_eq_true, if_false, ← hv, hnext]

/-- R195: an answer for a full word is held. -/
theorem wqryAnswerDeliver_holds (hfull : fullBit (u.core q.core) q.off = true) :
    exec (.wqryAnswerDeliver id) s = .next (groupEnd { u with
      queries := u.queries.map (fun x => if x.id = id then { x with held := true } else x) } q.gid) := by
  rw [exec_wqryAnswerDeliver, execWqryAnswerDeliver]
  simp only [hq, hw, ← hu, hfull, Bool.true_or, if_true]

end

end

/-! ## Completion (R317, R318) -/

section
variable {s u : State} {lid : Nat} {l : Launch} {va w : Word} {op : AmoOp} {next : State → State}

/-- R346: an act of a distributor has its turn, at the place of its address or at once. -/
theorem distTurn_now {part proc : Nat} {k : AKind} (f : State → State)
    (h : ∀ p, distPlace s part proc va k = some p → InTurn s (.launchCompletion lid) p true) :
    distTurn s part proc lid va k f = f s := by
  unfold distTurn
  split
  · next p hp => exact atPlace_inTurn (h p hp)
  · rfl

/-- R318: a completion's write that is made, and one that fails. -/
theorem completionWrite_made (h : distAtomic s l.part l.hdr.proc lid va op w = (u, .made)) :
    completionWrite s l lid va op w next = next u := by
  unfold completionWrite
  rw [h]

theorem completionWrite_failed (h : distAtomic s l.part l.hdr.proc lid va op w = (u, .failed)) :
    completionWrite s l lid va op w next = next (logLaunchWrite u l.part l.hdr.done (l.status.zeroExtend 64)) := by
  unfold completionWrite
  rw [h]

/-- R318: a launch whose completion is written is free. -/
theorem launchOver_frees (hn : l.node = none) (hid : l.lid = lid) :
    (launchOver s l).launch? lid = none ∧ (∀ x, x ≠ lid → (launchOver s l).launch? x = s.launch? x) ∧
      (launchOver s l).dir = s.dir := by
  have hlaunches : (launchOver s l).launches = Map.erase s.launches lid ∧ (launchOver s l).dir = s.dir := by
    unfold launchOver
    simp only [hn, hid]
    unfold grantRecord
    split <;> exact ⟨rfl, rfl⟩
  obtain ⟨herased, hdir⟩ := hlaunches
  refine ⟨?_, fun x hx => ?_, hdir⟩
  · rw [State.launch?, herased, Map.get?_erase, if_pos rfl]
  · rw [State.launch?, herased, Map.get?_erase, if_neg hx, State.launch?]

section
variable (hl : s.launch? lid = some l) (hd : l.done = false) (hb : l.bands.all (· = .ended) = true)
  (hw : writesInFlight s lid = false)
include hl hd hb hw

/-- R235, R317: a launch all of whose bands have ended, and whose writes have been made, makes its next write. -/
theorem launchCompletion_steps : exec (.launchCompletion lid) s =
    .next (settleAct (if l.hdr.done = 0#64 then launchOver s l else completionStep s l lid)
      (.launchCompletion lid)) := by
  rw [exec_launchCompletion, execLaunchCompletion]
  simp only [hl, hd, hb, hw, Bool.not_true, Bool.or_self, Bool.false_eq_true, if_false]

/-- R317: a launch without a completion address is freed. -/
theorem launchCompletion_frees (hno : NoAct s (.launchCompletion lid)) (h0 : l.hdr.done = 0#64) (hn : l.node = none)
    (hid : l.lid = lid) :
    ∃ s', exec (.launchCompletion lid) s = .next s' ∧ s'.launch? lid = none ∧
      (∀ x, x ≠ lid → s'.launch? x = s.launch? x) := by
  obtain ⟨hgone, hothers, hdir⟩ := launchOver_frees (s := s) hn hid
  refine ⟨launchOver s l, ?_, hgone, hothers⟩
  rw [launchCompletion_steps hl hd hb hw, if_pos h0, settleAct_noAct (hno.of_dir hdir)]

section
variable (hne : l.hdr.done ≠ 0#64)
include hne

/-- R318: the status is written first; what becomes of it, the add comes next. -/
theorem launchCompletion_status (h0 : l.wrote = 0)
    (ht : ∀ p, distPlace s l.part l.hdr.proc (l.hdr.done + 8#64) (.amo true) = some p →
      InTurn s (.launchCompletion lid) p true) :
    (distAtomic s l.part l.hdr.proc lid (l.hdr.done + 8#64) .or (l.status.zeroExtend 64) = (u, .made) →
      exec (.launchCompletion lid) s = .next (settleAct ((u.modLaunch lid (fun l => { l with wrote := 1 })).post
        (.launchCompletion lid)) (.launchCompletion lid))) ∧
    (distAtomic s l.part l.hdr.proc lid (l.hdr.done + 8#64) .or (l.status.zeroExtend 64) = (u, .failed) →
      exec (.launchCompletion lid) s = .next (settleAct (((logLaunchWrite u l.part l.hdr.done
        (l.status.zeroExtend 64)).modLaunch lid (fun l => { l with wrote := 1 })).post
          (.launchCompletion lid)) (.launchCompletion lid))) := by
  rw [launchCompletion_steps hl hd hb hw, if_neg hne, completionStep]
  simp only [h0]
  rw [distTurn_now _ ht]
  exact ⟨fun h => by rw [completionWrite_made h], fun h => by rw [completionWrite_failed h]⟩

/-- R318: the add made, the completion is written. -/
theorem launchCompletion_add (h1 : l.wrote = 1)
    (ht : ∀ p, distPlace s l.part l.hdr.proc l.hdr.done (.amo true) = some p →
      InTurn s (.launchCompletion lid) p true)
    (h : distAtomic s l.part l.hdr.proc lid l.hdr.done .add l.hdr.doneadd = (u, .made)) :
    exec (.launchCompletion lid) s = .next (settleAct (launchOver u l) (.launchCompletion lid)) := by
  rw [launchCompletion_steps hl hd hb hw, if_neg hne, completionStep]
  simp only [h1]
  rw [distTurn_now _ ht, completionWrite_made h]

end

end

end

/-- Settles O47: submissions (`doLaunch_submits`, `portSubmit_submits`) and their decisions (`launchAccept_launches`,
`takeHeader_resumes`), dependences (`dependenceReady_readies`, `dependenceCancel_cancels`), work lists (`wqry_asks`,
`wqryServe_serves`, `wqryAnswerDeliver_writes`) and completions (`launchCompletion_status`, `launchCompletion_add`). -/
theorem launchesAreSubmittedDecidedAndCompleted : Obligations.LaunchesAreSubmittedDecidedAndCompleted := by
  unfold Obligations.LaunchesAreSubmittedDecidedAndCompleted
  refine ⟨?launch, ?port, ?dropped, ?accept, ?grant, ?ready, ?cancel, ?wqry, ?serve, ?deliver, ?complete⟩
  case launch =>
    rintro g d a s c slot t T _ _ u _ rfl h rfl hr rfl ha hT
    obtain ⟨hevent, hsubs, hthread⟩ := doLaunch_submits (d := d.toNat) hr ha hT
    exact ⟨_, leaves_of exec_launch h rfl hthread (by simp), hevent, hsubs, hthread⟩
  case port =>
    intro s p a h
    obtain ⟨hevent, hparts, hsubs⟩ := portSubmit_submits (a := a) (graph := false) h
    obtain ⟨hevent', hparts', hsubs'⟩ := portSubmit_submits (a := a) (graph := true) h
    exact ⟨⟨_, rfl, hevent, hparts, hsubs⟩, _, rfl, hevent', hparts', hsubs'⟩
  case dropped =>
    intro s p a h
    rw [exec_launchPortHeader, execLaunchPortHeader, portSubmit_drops h]
  case accept =>
    intro s x hx ht hg
    exact ⟨fun st h => launchAccept_refuses hx ht hg h, fun bs => launchAccept_launches hx ht hg, answerSub_port ht⟩
  case grant =>
    intro s p x u c slot t T d bs st hp hx hthread hT hread hroom hfirst hst h
    obtain ⟨hgrant, haccept⟩ := launchRecordGrant_decides hp hx hthread
    have hdecided : threadHeader s x ⟨c, slot⟩ = takeHeader u x bs :=
      (threadHeader_checks hT hread).trans (checkHeader_takes hroom hfirst)
    rw [hdecided] at hgrant haccept
    exact ⟨_, hgrant, haccept, takeHeader_resumes hthread h hst⟩
  case ready =>
    intro s lid l p hl he hr hd h0 hc hp hplace ht hmet
    exact dependenceReady_readies hl (dependent_of he hr hd h0 hc hp) hplace ht hmet
  case cancel =>
    intro s lid l hl he hr hd h0 hc hp hplace
    exact dependenceCancel_cancels hl (dependent_of he hr hd h0 hc hp) hplace
  case wqry =>
    rintro g d a s c slot t l _ _ rfl h hp hlock rfl ha hown hxb hl
    exact ⟨wqry_asks h hp hlock ha hown hxb hl, wqry_refuses h hp hlock ha hown hxb hl⟩
  case serve => exact fun s p q l w hq hl hw => wqryServe_serves hq hl hw
  case deliver =>
    intro s id q w u v hq hw hu hfirst hv
    exact ⟨wqryAnswerDeliver_writes hq hw hu hfirst hv, wqryAnswerDeliver_holds hq hw hu⟩
  case complete =>
    intro s lid l hl hd hb hw hno
    exact ⟨launchCompletion_frees hl hd hb hw hno, fun u hne h0 ht => launchCompletion_status hl hd hb hw hne h0 ht,
      fun u hne h1 ht => launchCompletion_add hl hd hb hw hne h1 ht⟩

end Sys2Proof
end

section
/-!
Bands and their placement, quanta and saved groups (R239, R305 to R310, R336); partitions (R320, R321, R339, R382);
histogram units (R394, R395).
-/
namespace Sys2Proof
open Machine

/-! ## Placement (R239, R305, R306) -/

section
variable {s u : State} {p b : Nat} {l : Launch} {ls : List Launch} {cores : List (Nat × Nat)}

/-- R305: with no launch that is ready and has a band to place, a decision changes nothing. -/
theorem placementDecision_none (h : readyOrder s p = []) : exec (.placementDecision p) s = .next s := by
  rw [exec_placementDecision, execPlacementDecision]
  simp only [h, decide1, Bool.false_eq_true, if_false, reportAll]

/-- R306: the first ready launch is placed, if its next band fits and its code is loaded. -/
theorem decide1_fresh (hplan : planOf s l = some (.fresh b cores)) (hplace : placeFresh s l b cores = (u, true)) :
    decide1 s (l :: ls) = (u, true) := by
  unfold decide1
  simp only [hplan, hplace, if_true]

/-- R306: after a placement comes another decision. -/
theorem placementDecision_places (h : decide1 s (readyOrder s p) = (u, true)) :
    exec (.placementDecision p) s = .next (u.post (.placementDecision p)) := by
  rw [exec_placementDecision, execPlacementDecision]
  simp only [h, if_true]

/-- R239: a thread that is placed has the lowest free slot of its core, and is READY there. -/
theorem placeThreads_one {c gid rank tix slot : Nat} (hslot : lowestSlot (s.core c) 0 4080 = some slot)
    (hstop : coreStopping s c = false) :
    (placeThreads s c l gid b rank [tix]).thread? c slot =
      some { placedThread l gid b rank tix with away := false, code := .ready, slept := false, sleepFor := 0 } := by
  simp only [placeThreads, hslot]
  exact (allocThread_thread hstop).1

end

/-! ## Quanta (R307, R308, R310) -/

/-- The groups of a launch that are running. -/
def runningGroups (s : State) (lid : Nat) : List Group :=
  (s.groups.map (·.2)).filter (fun g => g.lid = lid && running s g)

section
variable {s : State} {lid : Nat} {l : Launch} (hl : s.launch? lid = some l) (hq : l.hdr.quantum ≠ 0)
  (hran : l.hdr.quantum ≤ l.ran) (hp : l.preempting = false) (hd : l.done = false)
include hl hq hran hp hd

/-- R307: a quantum that has run out ends: by its launch's bands, and by the groups that are running. -/
theorem quantumExpiry_due : exec (.quantumExpiry lid) s =
    .next (if l.bands.all (· = .ended) then s.modLaunch lid (fun l => { l with status := l.status ||| 2#5 })
      else if (runningGroups s lid).isEmpty then s
      else if l.victim then holdGroups (s.modLaunch lid (fun l =>
        { l with preempting := true, ran := 0, ready := none })) (runningGroups s lid)
      else restartQuantum s lid) := by
  rw [exec_quantumExpiry, execQuantumExpiry]
  simp only [hl, hq, Nat.not_lt.2 hran, hp, hd, decide_false, Bool.or_self, Bool.false_eq_true, if_false]
  rw [runningGroups]
  cases l.bands.all (· = .ended)
  case true => rfl
  case false =>
    cases ((s.groups.map (·.2)).filter (fun g => g.lid = lid && running s g)).isEmpty
    case true => rfl
    case false => cases l.victim <;> rfl

/-- R310: retirement wins over a quantum that ends with it; status bit 1 records the idle pre-emption. -/
theorem quantumExpiry_ended (h : l.bands.all (· = .ended) = true) : exec (.quantumExpiry lid) s =
    .next (s.modLaunch lid (fun l => { l with status := l.status ||| 2#5 })) := by
  rw [quantumExpiry_due hl hq hran hp hd, if_pos h]

section
variable (h : l.bands.all (· = .ended) = false) (hgs : runningGroups s lid ≠ [])
include h hgs

/-- R307: a launch that is not the victim starts another quantum. -/
theorem quantumExpiry_restarts (hv : l.victim = false) :
    exec (.quantumExpiry lid) s = .next (restartQuantum s lid) := by
  rw [quantumExpiry_due hl hq hran hp hd, if_neg (by simp [h]), if_neg (by simpa using hgs), if_neg (by simp [hv])]

/-- R308, R310: the victim's running groups are held. -/
theorem quantumExpiry_preempts (hv : l.victim = true) : exec (.quantumExpiry lid) s =
    .next (holdGroups (s.modLaunch lid (fun l => { l with preempting := true, ran := 0, ready := none }))
      (runningGroups s lid)) := by
  rw [quantumExpiry_due hl hq hran hp hd, if_neg (by simp [h]), if_neg (by simpa using hgs), if_pos hv]

end

end

/-! ## Saved groups (R308, R336) -/

section
variable {s : State} {gid : Nat} {g : Group} {l : Launch}

/-- A group that can be saved has members. -/
theorem members_of_canSave (h : canSave s g = true) : (members s g).isEmpty = false := by
  unfold canSave at h
  simp only [Bool.and_eq_true, Bool.not_eq_true'] at h
  obtain ⟨⟨⟨⟨-, hmembers⟩, -⟩, -⟩, -⟩ := h
  exact hmembers

section
variable (hg : s.group? gid = some g) (hl : s.launch? g.lid = some l) (hp : l.preempting = true) (hs : g.saved = none)
include hg hl hp hs

/-- R308, step 2: a group of a launch that is being pre-empted is saved once it can be, and one whose threads are gone
needs no save. -/
theorem groupSave_held : exec (.groupSave gid) s =
    .next (if (members s g).isEmpty then preempted s g.lid
      else if canSave s g then preempted (saveGroup s g) g.lid else s) := by
  rw [exec_groupSave, execGroupSave]
  simp only [hg, hl, hp, hs, Option.isSome_none, Bool.not_true, Bool.or_self, Bool.false_eq_true, if_false]
  split
  · rfl
  · split <;> rfl

/-- R308, R309: the threads of a group have ended, or are away. -/
theorem groupSave_gone (h : members s g = []) : exec (.groupSave gid) s = .next (preempted s g.lid) := by
  rw [groupSave_held hg hl hp hs, if_pos (by rw [h]; rfl)]

/-- R308, R336: the group is saved, which may have been the last save of its launch. -/
theorem groupSave_saves (h : canSave s g = true) :
    exec (.groupSave gid) s = .next (preempted (saveGroup s g) g.lid) := by
  rw [groupSave_held hg hl hp hs, if_neg (by simp [members_of_canSave h]), if_pos h]

end

end

/-! ## The commands of partitions (R320, R321) -/

section
variable {s : State} {p w : Nat} {v : Word}

/-- A partition's command that its state does not allow has result 1. -/
def commandRefused (s : State) (p : Nat) : State := s.modPart p (fun x => { x with result := 1#8 })

section
variable (hp : p < 64)
include hp

/-- R321: CREATE of a partition that exists. -/
theorem create_exists (h : (s.part p).state ≠ .absent) : exec (.create p) s = .next (commandRefused s p) := by
  rw [exec_create, execCreate, if_neg (Nat.not_le.2 hp), if_pos (bne_iff_ne.2 h), commandRefused]

section
variable (h : (s.part p).state = .absent)
include h

/-- R320: CREATE with a control block that fails its checks. -/
theorem create_badBlock (hbad : pcbBad s p = true) : exec (.create p) s = .next (endCommand s p 2#8 .absent) := by
  have hcheck : createCheck s p [] = 2 := by rw [createCheck, if_pos hbad]
  rw [exec_create, execCreate, if_neg (Nat.not_le.2 hp), if_neg (by simp [h])]
  simp only [hbad, if_true, hcheck]
  rfl

/-- R320, R321: CREATE with a control block, a core table, ports and a pool that pass. -/
theorem create_makes {tab : List Nat} (hgood : pcbBad s p = false)
    (htab : tab = readTable s (partWord s p 1).toNat (ccountOf s p)) (hcheck : createCheck s p tab = 0) :
    exec (.create p) s = .next (endCommand (makePart s p tab) p 0#8 .active) := by
  rw [exec_create, execCreate, if_neg (Nat.not_le.2 hp), if_neg (by simp [h])]
  simp only [hgood, Bool.false_eq_true, if_false, ← htab, hcheck, if_true]

end

/-- R321, R382: RESET of an active partition begins its stop. -/
theorem reset_stops (h : (s.part p).state = .active) : exec (.reset p) s = .next (beginStop s p 2) := by
  rw [exec_reset, execReset, if_neg (Nat.not_le.2 hp), if_neg (by simp [h])]

/-- R321, R382: TEARDOWN of an active partition begins its stop. -/
theorem teardown_stops (h : (s.part p).state = .active) : exec (.teardown p) s = .next (beginStop s p 3) := by
  rw [exec_teardown, execTeardown, if_neg (Nat.not_le.2 hp), if_neg (by simp [h])]

/-- R321: RESET of a partition that is not active. -/
theorem reset_refuses (h : (s.part p).state ≠ .active) : exec (.reset p) s = .next (commandRefused s p) := by
  rw [exec_reset, execReset, if_neg (Nat.not_le.2 hp), if_pos (bne_iff_ne.2 h), commandRefused]

/-- R321: TEARDOWN of one that is not. -/
theorem teardown_refuses (h : (s.part p).state ≠ .active) : exec (.teardown p) s = .next (commandRefused s p) := by
  rw [exec_teardown, execTeardown, if_neg (Nat.not_le.2 hp), if_pos (bne_iff_ne.2 h), commandRefused]

/-- R320, R321: a write of word 9 is the command that its low four bits name. -/
theorem registerWrite_command : exec (.registerWrite p 9 v) s =
    (if v.toNat % 16 = 1 then exec (.create p) s else if v.toNat % 16 = 2 then exec (.reset p) s
     else if v.toNat % 16 = 3 then exec (.teardown p) s else .next s) := by
  rw [exec_registerWrite, execRegisterWrite, if_neg (Nat.not_le.2 hp), if_neg (by decide), if_pos rfl]
  split
  · next h => rw [if_pos h, exec_create]
  · next h => rw [if_neg (by omega), if_pos h, exec_reset]
  · next h => rw [if_neg (by omega), if_neg (by omega), if_pos h, exec_teardown]
  · next h1 h2 h3 => rw [if_neg h1, if_neg h2, if_neg h3]

/-- R320: words 0 to 8 of the control block are written while the partition is absent. -/
theorem registerWrite_word (hw : w ≤ 8) (h : (s.part p).state = .absent) : exec (.registerWrite p w v) s =
    .next (s.modPart p (fun x => { x with words := Map.set x.words w v })) := by
  rw [exec_registerWrite, execRegisterWrite, if_neg (Nat.not_le.2 hp), if_neg (by omega), if_neg (by omega), pcbWrite,
    if_neg (by omega), if_pos h]

end

/-- A word of a control block, after a write of one. -/
theorem partWord_setWord (s : State) (p w : Nat) (v : Word) (x : Nat) :
    partWord (s.modPart p (fun P => { P with words := Map.set P.words w v })) p x =
      if x = w then v else partWord s p x := by
  rw [partWord, State.part_modPart_self, Map.get?_set]
  split <;> rfl

end

/-! ## The end of RESET and TEARDOWN (R339, R382) -/

section
variable {s u v : State} {p : Nat}

/-- R382, step 2: with no engine command of a partition there is no collective of it to cancel. -/
theorem cancelColls_none (h : s.cmds.any (fun x => x.2.part = p) = false) : cancelColls s p = s := by
  have hnone : lackingColls s p = [] := by
    unfold lackingColls
    rw [List.filter_eq_nil_iff]
    intro c hc
    obtain ⟨x, hx, rfl⟩ := List.mem_map.1 hc
    have hpart : ¬ x.2.part = p := by simpa using List.any_eq_false.1 h x hx
    simp [hpart]
  unfold cancelColls
  rw [hnone]
  rfl

section
variable (hbusy : (s.part p).state = .busy) (hcmds : s.cmds.any (fun x => x.2.part = p) = false)
  (hu : u = evictCores (discardQueues (freeLaunches s p) p) (s.part p).ctab)
  (hidle : (s.part p).ctab.any (agentBusy u) = false) (hv : v = scrub u p)
  (hkept : (u.part p).running = (s.part p).running) (hkept' : (v.part p).running = (s.part p).running)
include hbusy hcmds hu hidle hv hkept hkept'

/-- R382, steps 3 to 6: what is left of a partition whose engine commands have ended is freed and discarded; once its
cores' agents are idle it is scrubbed, and the command that stopped it ends. -/
theorem layByScrubComplete_scrubs (h4 : (s.part p).running ≠ 4) : exec (.layByScrubComplete p) s =
    .next (if (s.part p).running = 3 then endCommand (releasePart v p) p 0#8 .absent
      else endCommand v p 0#8 .active) := by
  have hunaccepted : s.cmds.any (fun x => x.2.part = p && !x.2.accepted) = false := by
    rw [List.any_eq_false] at hcmds ⊢
    intro x hx
    simpa using fun hpart => absurd hpart (by simpa using hcmds x hx)
  rw [exec_layByScrubComplete, execLayByScrubComplete, if_neg (by simp [hbusy]), if_neg (by simp [hunaccepted])]
  simp only [cancelColls_none hcmds, hcmds, ← hu, hidle, ← hv, hkept, hkept', h4, Bool.false_eq_true, if_false]
  split <;> rfl

/-- R321: after a RESET the partition is active again. -/
theorem layByScrubComplete_reset (h : (s.part p).running = 2) :
    exec (.layByScrubComplete p) s = .next (endCommand v p 0#8 .active) := by
  rw [layByScrubComplete_scrubs hbusy hcmds hu hidle hv hkept hkept' (by omega), if_neg (by omega)]

/-- R321: after a TEARDOWN its cores and ports are released, and it is absent. -/
theorem layByScrubComplete_teardown (h : (s.part p).running = 3) :
    exec (.layByScrubComplete p) s = .next (endCommand (releasePart v p) p 0#8 .absent) := by
  rw [layByScrubComplete_scrubs hbusy hcmds hu hidle hv hkept hkept' (by omega), if_pos h]

end

end

/-! ## Histogram units (R394, R395) -/

section
variable {s : State} {p x : Nat} {v : Word}

theorem histOf_setHist (s : State) (p x : Nat) (h : Hist) : histOf (setHist s p x h) p x = h := by
  rw [histOf, setHist, State.part_modPart_self, Map.get?_set_self]
  rfl

/-- A configuration without its clear bit is stored as it is. -/
theorem truncate_clearBit (h : v.getLsbD 1 = false) : v.truncate 16 &&& ~~~2#16 = v.truncate 16 := by
  refine BitVec.eq_of_getLsbD_eq (fun i hi => ?_)
  have hmask : (2#16).getLsbD i = decide (1 = i) := BitVec.getLsbD_twoPow 1 i
  rw [BitVec.getLsbD_and, BitVec.getLsbD_not, hmask]
  by_cases h1 : 1 = i
  · subst h1
    rw [BitVec.getLsbD_setWidth, h]
    rfl
  · simp [h1, hi]

section
variable (hx : x < 8)
include hx

/-- R394: a configuration with a source that exists. -/
theorem histogramConfig_sets (hsrc : v.toNat / 16 % 256 ≤ 5) (hclear : v.getLsbD 1 = false) :
    exec (.histogramConfig p x v) s = .next (setHist s p x { histOf s p x with cfg := v.truncate 16 }) := by
  have hbits : ¬ 5 < bitsOf v.toNat 4 8 := Nat.not_lt.2 hsrc
  rw [exec_histogramConfig, execHistogramConfig, if_pos hx, histConfig, if_neg hbits]
  simp only [hclear, Bool.false_eq_true, if_false, truncate_clearBit hclear]

/-- R394: a configuration with another source. -/
theorem histogramConfig_drops (hsrc : 5 < v.toNat / 16 % 256) : exec (.histogramConfig p x v) s = .next s := by
  have hbits : 5 < bitsOf v.toNat 4 8 := hsrc
  rw [exec_histogramConfig, execHistogramConfig, if_pos hx, histConfig, if_pos hbits]

/-- R394: CLEAR. -/
theorem histogramClear_clears : exec (.histogramClear p x) s = .next (histClear s p x) := by
  rw [exec_histogramClear, execHistogramClear, if_pos hx]

/-- R395: a sample of a unit that is enabled and not frozen. -/
theorem histogramSample_counts (hon : (histOf s p x).cfg.getLsbD 0 = true)
    (hthaw : (histOf s p x).cfg.getLsbD 2 = false) :
    exec (.histogramSample p x v) s = .next (setHist s p x (histSample (histOf s p x) v.toNat)) := by
  rw [exec_histogramSample, execHistogramSample]
  simp only [hx, hon, hthaw, decide_true, Bool.not_false, Bool.and_self, if_true]

end

end

/-- Settles O48: placement (`placementDecision_places`, `placeThreads_one`), quanta (`quantumExpiry_due`), saved groups
(`groupSave_held`), partitions (`create_makes`, `registerWrite_command`, `layByScrubComplete_scrubs`) and histogram
units (`histogramConfig_sets`, `histogramSample_counts`). -/
theorem bandsPartitionsAndHistograms : Obligations.BandsPartitionsAndHistograms := by
  unfold Obligations.BandsPartitionsAndHistograms
  refine ⟨?decision, ?thread, ?quantum, ?save, ?commands, ?scrub, ?histograms⟩
  case decision =>
    intro s p
    refine ⟨placementDecision_none, fun l ls b cores u hready hplan hplace => placementDecision_places ?_⟩
    rw [hready, decide1_fresh hplan hplace]
  case thread =>
    intro s c l gid b rank tix slot hslot hstop
    exact ⟨_, placeThreads_one hslot hstop, rfl, rfl, rfl, rfl, rfl, rfl, rfl, rfl, rfl, rfl, rfl, rfl, rfl, rfl, rfl,
      rfl, rfl⟩
  case quantum =>
    intro s lid l hl hq hran hp hd
    refine ⟨quantumExpiry_ended hl hq hran hp hd, ?_⟩
    rintro h _ rfl hgs
    exact ⟨quantumExpiry_restarts hl hq hran hp hd h hgs, quantumExpiry_preempts hl hq hran hp hd h hgs⟩
  case save => exact fun s gid g l hg hl hp hs => ⟨groupSave_gone hg hl hp hs, groupSave_saves hg hl hp hs⟩
  case commands =>
    intro s p hp
    refine ⟨create_exists hp, create_badBlock hp, fun tab h => create_makes hp h,
      fun h => ⟨reset_stops hp h, teardown_stops hp h⟩, fun h => ⟨reset_refuses hp h, teardown_refuses hp h⟩,
      fun v => registerWrite_command hp,
      fun w v hw h => ⟨_, registerWrite_word hp hw h, ?_, fun x hx => ?_, fun q hq => ?_⟩⟩
    · rw [partWord_setWord, if_pos rfl]
    · rw [partWord_setWord, if_neg hx]
    · rw [State.part_modPart, if_neg hq]
  case scrub =>
    intro s p u v hbusy hcmds hu hidle hv hkept hkept'
    exact ⟨layByScrubComplete_reset hbusy hcmds hu hidle hv hkept hkept',
      layByScrubComplete_teardown hbusy hcmds hu hidle hv hkept hkept'⟩
  case histograms =>
    intro s p x hx
    refine ⟨fun v hsrc hclear => ⟨_, histogramConfig_sets hx hsrc hclear, histOf_setHist ..⟩,
      fun v => histogramConfig_drops hx, ⟨_, histogramClear_clears hx, histOf_setHist ..⟩, ?_⟩
    rintro v _ rfl hon hthaw
    refine ⟨_, histogramSample_counts hx hon hthaw, ?_⟩
    rw [histOf_setHist]
    exact ⟨rfl, rfl, rfl, rfl⟩

end Sys2Proof
end

section
/-!
A line at its home: what its directory entry reads as after an update, where its slice has room for it (R342); when a
request joins the queue of its line or is served (R345, R346); the leases that homes keep (R351); and how a message
arrives (R344).
-/
namespace Sys2Proof
open Machine

/-! ## Messages (R344) -/

/-- A message that is taken is one that was looked for. -/
theorem takeMsg_picks {p : Msg → Bool} {m : Msg} {ms : List Msg} : ∀ {l before : List Msg},
    takeMsg p before l = some (m, ms) → p m = true
  | [], _, h => nomatch h
  | x :: l, before, h => by
    unfold takeMsg at h
    split at h
    · next hx =>
      split at h
      · cases h
      · cases h
        exact hx
    · exact takeMsg_picks h

section
variable {p : Msg → Bool} {s u : State} {m : Msg}

theorem Arrives.picked (h : Arrives p s m u) : p m = true := by
  obtain ⟨ms, htake, -⟩ := h
  exact takeMsg_picks htake

/-- R344: a message that arrives is dealt with in the state that is left without it. -/
theorem Arrives.arrive (h : Arrives p s m u) (e : Event) (f : State → Msg → State) :
    arrive s e p f = .next (drainAgent (f u m) m.agent) := by
  obtain ⟨ms, htake, rfl⟩ := h
  unfold Machine.arrive
  rw [htake]

theorem Arrives.kind {k : MsgKind} {line agent : Nat} (h : Arrives (isMsg k line agent) s m u) : m.kind = k := by
  have hpicked := h.picked
  simp only [isMsg, Bool.and_eq_true, decide_eq_true_eq] at hpicked
  exact hpicked.1.1

/-- A message of an engine's command is known by its kind, its line and its command. -/
theorem Arrives.ofCmd {k : MsgKind} {line id : Nat}
    (h : Arrives (fun m' => m'.kind = k && m'.line = line && m'.cmd = some id) s m u) :
    m.kind = k ∧ m.cmd = some id := by
  have hpicked := h.picked
  simp only [Bool.and_eq_true, decide_eq_true_eq] at hpicked
  exact ⟨hpicked.1.1, hpicked.2⟩

end

/-! ## Directory entries (R342) -/

section
variable {s : State} {line : Nat} {e : DirEntry}

/-- An update of an entry touches nothing but the directory. -/
theorem setDir_eq (s : State) (line : Nat) (e : DirEntry) : setDir s line e =
    { s with dir := if keepsEntry s line e then Map.set s.dir line e else Map.erase s.dir line } := by
  unfold setDir
  split <;> rfl

/-- An entry that is kept is read back. -/
theorem dirOf_setDir_kept (h : keepsEntry s line e = true) : dirOf (setDir s line e) line = e := by
  rw [setDir_eq, if_pos h, dirOf, Map.get?_set_self]
  rfl

theorem dirOf_setDir_of_st (h : e.st ≠ .i) : dirOf (setDir s line e) line = e :=
  dirOf_setDir_kept (by simp [keepsEntry, h])

/-- An entry that is freed reads as that of a line in I, without a request. -/
theorem dirOf_setDir_freed (h : keepsEntry s line e = false) : dirOf (setDir s line e) line = {} := by
  rw [setDir_eq, h, if_neg Bool.false_ne_true, dirOf, Map.get?_erase, if_pos rfl]
  rfl

theorem dirOf_setDir_st : (dirOf (setDir s line e) line).st = e.st := by
  cases hkept : keepsEntry s line e
  · rw [dirOf_setDir_freed hkept]
    simp only [keepsEntry, Bool.or_eq_false_iff, bne_eq_false_iff_eq] at hkept
    exact hkept.1.1.1.1.symm
  · rw [dirOf_setDir_kept hkept]

theorem dirOf_setDir_queue : (dirOf (setDir s line e) line).queue = e.queue := by
  cases hkept : keepsEntry s line e
  · rw [dirOf_setDir_freed hkept]
    simp only [keepsEntry, Bool.or_eq_false_iff, Bool.not_eq_false', List.isEmpty_iff] at hkept
    exact hkept.1.1.2.symm
  · rw [dirOf_setDir_kept hkept]

/-- A line that is not in I has an entry. -/
theorem EntryRoom.of_st (h : (dirOf s line).st ≠ .i) : EntryRoom s line := by
  refine .inl ?_
  unfold Map.has
  cases hget : Map.get? s.dir line with
  | some d => rfl
  | none => exact absurd (by rw [dirOf, hget]; rfl) h

/-- Where a line has an entry, or its slice has a free one, no other line gives its entry up. -/
theorem EntryRoom.putDir (h : EntryRoom s line) (e : DirEntry) : putDir s line e = setDir s line e := by
  have hroom : dirRoom s line = s := by
    unfold dirRoom
    split
    · rfl
    · next hnone =>
      rcases h with h | h
      · exact absurd h hnone
      · exact if_pos h
  rw [Machine.putDir, hroom]

theorem EntryRoom.of_dir {s' : State} (h : EntryRoom s line) (hdir : s'.dir = s.dir) : EntryRoom s' line := by
  unfold EntryRoom
  rw [hdir]
  exact h

/-! ## The queue of a line (R345, R346) -/

/-- With no request in its queue a line has none to serve. -/
theorem serveAll_idle (h : (dirOf s line).queue = []) : serveAll s line = s := by
  unfold serveAll serveQueue
  simp only [h]

/-- R345, R346, R349: a request that reaches a line in I, S or E is not held there, unless it finds pins that keep it
waiting, or a request before it. -/
theorem mustQueue_false {m : Msg} (hst : e.st = .i ∨ e.st = .s ∨ e.st = .e) (hpins : m.pinWaits = false ∨ e.pins = [])
    (hroom : m.kind = .pin → e.pins.length < 15) (hqueue : m.kind = .pin ∨ e.queue = []) : mustQueue e m = false := by
  have hstate : (decide (e.st = .b) || decide (e.st = .r) || decide (e.st = .o)) = false := by
    rcases hst with h | h | h <;> rw [h] <;> rfl
  have hpinned : (m.pinWaits && !e.pins.isEmpty) = false := by
    rcases hpins with h | h <;> simp [h]
  have hfull : (decide (m.kind = .pin) && decide (15 ≤ e.pins.length)) = false := by
    by_cases hk : m.kind = .pin
    · simp [Nat.not_le.2 (hroom hk)]
    · simp [hk]
  have hbehind : (m.kind != .pin && e.queue.any (fun x => x.kind = .act)) = false := by
    rcases hqueue with h | h <;> simp [h]
  simp only [Bool.or_eq_false_iff] at hstate
  simp only [mustQueue, holdsBack, hstate, hpinned, hfull, hbehind, Bool.false_and, Bool.or_false]

end

section
variable {s : State} {m : Msg}

/-- R353: a request with an old generation is refused. -/
theorem request_stale (hk : m.kind ≠ .own) (hg : m.gen ≠ keptGen s m.line m.agent) :
    request s m = sendMsg s { m with kind := .nack } := by
  unfold request refuse
  rw [if_pos (by simp [hk, hg])]

/-- R346: a request that the line's state or a request before it keeps waiting joins its queue. -/
theorem request_queued (hg : m.gen = keptGen s m.line m.agent) (hq : mustQueue (dirOf s m.line) m = true) :
    request s m = putDir s m.line { dirOf s m.line with queue := (dirOf s m.line).queue ++ [m] } := by
  unfold request
  rw [if_neg (by simp [hg])]
  exact if_pos hq

theorem request_starts (hg : m.kind = .own ∨ m.gen = keptGen s m.line m.agent)
    (hq : mustQueue (dirOf s m.line) m = false) : request s m = startRequest s m := by
  unfold request
  rw [if_neg (by rcases hg with h | h <;> simp [h])]
  exact if_neg (by simp [hq])

/-- R345: a request that no other agent stands in the way of is served at once. -/
theorem startRequest_serves (h : recalls s (dirOf s m.line) m = []) : startRequest s m = serveNow s m := by
  unfold startRequest
  simp only [h]

/-- R345: the agents that stand in the way of a request are recalled, and the line waits for them in B. -/
theorem startRequest_recalls (h : recalls s (dirOf s m.line) m ≠ []) : startRequest s m =
    sendRecalls (putDir s m.line { dirOf s m.line with
      st := .b, cur := some m, asked := (recalls s (dirOf s m.line) m).map (·.1), excl := (dirOf s m.line).st = .e })
      m.line (recalls s (dirOf s m.line) m) := by
  unfold startRequest
  dsimp only
  split
  · next hnone => exact absurd hnone h
  · rfl

end

/-! ## Leases (R351) -/

section
variable {s : State}

theorem leaseOf_setLease (s : State) (die a : Nat) (l : Lease) : leaseOf (setLease s die a l) die a = l := by
  rw [leaseOf, setLease, Map.get?_set_self]
  rfl

/-! The first grant of an agent at a die changes its lease there, and no generation. -/

section
variable (s : State) (line agent : Nat)

@[simp] theorem touchLease_dir : (touchLease s line agent).dir = s.dir := by simp only [touchLease]; split <;> rfl
@[simp] theorem touchLease_mem : (touchLease s line agent).mem = s.mem := by simp only [touchLease]; split <;> rfl
@[simp] theorem touchLease_poison : (touchLease s line agent).poison = s.poison := by simp only [touchLease]; split <;> rfl
@[simp] theorem touchLease_pkg : (touchLease s line agent).pkg = s.pkg := by simp only [touchLease]; split <;> rfl
@[simp] theorem touchLease_cmds : (touchLease s line agent).cmds = s.cmds := by simp only [touchLease]; split <;> rfl
@[simp] theorem touchLease_cores : (touchLease s line agent).cores = s.cores := by simp only [touchLease]; split <;> rfl
@[simp] theorem touchLease_parts : (touchLease s line agent).parts = s.parts := by simp only [touchLease]; split <;> rfl
@[simp] theorem touchLease_watches : (touchLease s line agent).watches = s.watches := by
  simp only [touchLease]; split <;> rfl

@[simp] theorem touchLease_core (c : Nat) : (touchLease s line agent).core c = s.core c := by simp [State.core]
@[simp] theorem touchLease_part (p : Nat) : (touchLease s line agent).part p = s.part p := by simp [State.part]
@[simp] theorem dirOf_touchLease (x : Nat) : dirOf (touchLease s line agent) x = dirOf s x := by simp [dirOf]
@[simp] theorem watched_touchLease (x : Nat) : watched (touchLease s line agent) x = watched s x := by simp [watched]

@[simp] theorem keptGen_touchLease (x a : Nat) : keptGen (touchLease s line agent) x a = keptGen s x a := by
  simp only [touchLease]
  split
  · unfold keptGen leaseOf setLease
    rw [Map.get?_set]
    split
    · next hkey => rw [hkey]; rfl
    · rfl
  · rfl

end

end

end Sys2Proof
end

section
/-!
Coherence requests: refused, queued, recalled for and granted at their home (R345, R346, R348, R349, R353).
-/
namespace Sys2Proof
open Machine

/-! ## What stands in the way of a request (R345) -/

section
variable {s : State} {e : DirEntry} {m : Msg}

/-- With pointers the holders of a line are those that they name. -/
theorem holders_ptrs (h : e.mode = false) (line : Nat) : holders s line e = e.ptrs := by
  simp only [holders, h, Bool.false_eq_true, if_false]

/-- R345, R349: no reader stands in the way of another, nor of a pin. -/
theorem recalls_of_reader (hk : m.kind = .rd ∨ m.kind = .pin) (hst : e.st ≠ .e) : recalls s e m = [] := by
  unfold recalls
  rcases hk with hk | hk <;> simp only [hk, hst, if_false]

/-- R345: a write needs every other agent's copy. -/
theorem recalls_of_write (hk : m.kind = .rdx ∨ m.kind = .upg) (hmode : e.mode = false) : recalls s e m =
    (e.ptrs.filter (· != m.agent)).map (·, if e.st = .e then .rcl else .inv) := by
  unfold recalls
  rw [holders_ptrs hmode]
  rcases hk with hk | hk <;> simp only [hk]

/-- R345, R349: an act of the home needs every copy. -/
theorem recalls_of_act (hk : m.kind = .amo ∨ m.kind = .own) (hmode : e.mode = false) : recalls s e m =
    e.ptrs.map (·, if e.st = .e then .rcl else .inv) := by
  unfold recalls
  rw [holders_ptrs hmode]
  rcases hk with hk | hk <;> simp only [hk]

/-- R345, R349: the agent that holds a line in E is asked to keep S for a read and for a pin, and else to give it up. -/
theorem recalls_of_holder {x : Nat} (hk : m.kind ∈ [MsgKind.rd, .rdx, .upg, .amo, .pin]) (hst : e.st = .e)
    (hmode : e.mode = false) (hptrs : e.ptrs = [x]) (hx : m.kind = .pin ∨ m.kind = .amo ∨ x ≠ m.agent) :
    recalls s e m = [(x, if m.kind = .rd ∨ m.kind = .pin then .dwg else .rcl)] := by
  have hother : x ≠ m.agent → e.ptrs.filter (· != m.agent) = [x] := fun h => by simp [hptrs, h]
  simp only [List.mem_cons, List.not_mem_nil, or_false] at hk
  rcases hk with hk | hk | hk | hk | hk
  · have hne : x ≠ m.agent := by simpa [hk] using hx
    simp [recalls, holders_ptrs hmode, hk, hst, hother hne]
  · have hne : x ≠ m.agent := by simpa [hk] using hx
    simp [recalls_of_write (.inl hk) hmode, hk, hst, hother hne]
  · have hne : x ≠ m.agent := by simpa [hk] using hx
    simp [recalls_of_write (.inr hk) hmode, hk, hst, hother hne]
  · simp [recalls_of_act (.inl hk) hmode, hk, hst, hptrs]
  · simp [recalls, holders_ptrs hmode, hk, hst, hptrs]

end

/-! ## Requests that carry a generation -/

/-- The requests of R345 and R349 that carry a generation: their events and kinds. -/
def GenRequest (ev : Nat → Nat → Instr) (k : MsgKind) : Prop :=
  (ev, k) ∈ [(Instr.rd, MsgKind.rd), (.rdx, .rdx), (.upg, .upg), (.amo, .amo), (.pin, .pin)]

section
variable {ev : Nat → Nat → Instr} {k : MsgKind} {s u : State} {m : Msg}

theorem GenRequest.kind (hev : GenRequest ev k) : k ∈ [MsgKind.rd, .rdx, .upg, .amo, .pin] :=
  List.mem_map_of_mem (f := Prod.snd) hev

/-- R345: the event of a request brings it to its home. -/
theorem Arrives.request (h : Arrives (isMsg k m.line m.agent) s m u) (hev : GenRequest ev k) :
    exec (ev m.line m.agent) s = .next (drainAgent (request u m) m.agent) := by
  simp only [GenRequest, List.mem_cons, Prod.mk.injEq, List.not_mem_nil, or_false] at hev
  rcases hev with ⟨rfl, rfl⟩ | ⟨rfl, rfl⟩ | ⟨rfl, rfl⟩ | ⟨rfl, rfl⟩ | ⟨rfl, rfl⟩
  · rw [exec_rd]; exact h.arrive ..
  · rw [exec_rdx]; exact h.arrive ..
  · rw [exec_upg]; exact h.arrive ..
  · rw [exec_amo]; exact h.arrive ..
  · rw [exec_pin]; exact h.arrive ..

theorem kind_ne_own (hk : k ∈ [MsgKind.rd, .rdx, .upg, .amo, .pin]) : k ≠ .own := by
  rintro rfl
  exact absurd hk (by decide)

/-- R346, R349: a line in B, R or O, a pinned line, and a line with an act in its queue make a request wait. -/
theorem mustQueue_true {e : DirEntry} (hk : k ∈ [MsgKind.rd, .rdx, .upg, .amo, .pin]) (hm : m.kind = k)
    (h : e.st = .b ∨ e.st = .r ∨ e.st = .o ∧ k ≠ .pin ∨ e.pins ≠ [] ∧ k ≠ .rd ∧ k ≠ .pin ∨
      15 ≤ e.pins.length ∧ k = .pin ∨ k ≠ .pin ∧ ∃ x ∈ e.queue, x.kind = .act) : mustQueue e m = true := by
  unfold mustQueue holdsBack
  rcases h with h | h | ⟨h, hpin⟩ | ⟨h, hrd, hpin⟩ | ⟨h, hpin⟩ | ⟨hpin, x, hx, hact⟩
  · simp [h]
  · simp [h]
  · simp [h, hm, hpin]
  · have hwaits : m.pinWaits = true := by
      simp only [List.mem_cons, hrd, hpin, List.not_mem_nil, or_false, false_or] at hk
      unfold Msg.pinWaits
      rcases hk with rfl | rfl | rfl <;> rw [hm]
    simp [hwaits, h]
  · simp [h, hm, hpin]
  · have hany : e.queue.any (fun x => x.kind = .act) = true := List.any_eq_true.2 ⟨x, hx, by simp [hact]⟩
    simp [hm, hpin, hany]

/-- R345: a request for a line in E at another agent, and one of the home's own acts, recall it there. -/
theorem request_recalls_holder {e : DirEntry} {x : Nat} (he : e = dirOf u m.line)
    (hk : m.kind ∈ [MsgKind.rd, .rdx, .upg, .amo, .pin]) (hg : m.gen = keptGen u m.line m.agent) (hst : e.st = .e)
    (hmode : e.mode = false) (hpins : e.pins = []) (hqueue : e.queue = []) (hptrs : e.ptrs = [x])
    (hx : m.kind = .pin ∨ m.kind = .amo ∨ x ≠ m.agent) :
    request u m = sendMsg (putDir u m.line { e with st := .b, cur := some m, asked := [x], excl := true })
      { kind := if m.kind = .rd ∨ m.kind = .pin then .dwg else .rcl, line := m.line, agent := x,
        gen := keptGen u m.line x } := by
  subst he
  have hroom : EntryRoom u m.line := .of_st (by simp [hst])
  have hrecalls := recalls_of_holder (s := u) hk hst hmode hptrs hx
  rw [request_starts (.inr hg) (mustQueue_false (.inr (.inr hst)) (.inr hpins) (by simp [hpins]) (.inr hqueue)),
    startRequest_recalls (by simp [hrecalls]), hrecalls]
  simp only [hroom.putDir, hst, decide_true, List.map_cons, List.map_nil, sendRecalls]
  rw [setDir_eq]
  rfl

/-- R345: a write of a line in S recalls every other sharer. -/
theorem request_recalls_sharers {e : DirEntry} (he : e = dirOf u m.line) (hk : m.kind = .rdx ∨ m.kind = .upg)
    (hg : m.gen = keptGen u m.line m.agent) (hst : e.st = .s) (hmode : e.mode = false) (hpins : e.pins = [])
    (hqueue : e.queue = []) (hothers : e.ptrs.filter (· != m.agent) ≠ []) :
    request u m = sendRecalls (putDir u m.line { e with
        st := .b, cur := some m, asked := e.ptrs.filter (· != m.agent), excl := false })
      m.line ((e.ptrs.filter (· != m.agent)).map (·, .inv)) := by
  subst he
  have hrecalls := recalls_of_write (s := u) hk hmode
  simp only [hst, reduceCtorEq, if_false] at hrecalls
  rw [request_starts (.inr hg) (mustQueue_false (.inr (.inl hst)) (.inr hpins) (by simp [hpins]) (.inr hqueue)),
    startRequest_recalls (by simpa [hrecalls] using hothers), hrecalls]
  simp [hst, Function.comp_def]

end

/-! ## Lines that reach an L1 (R343, R348) -/

section
variable {s : State} {m : Msg}

theorem L1Room.fillL1 {c key : Nat} (h : L1Room s c key) (l : CLine) : fillL1 s c key l =
    s.modCore c (fun k => { k with l1 := Map.set k.l1 key { l with used := k.cyc } }) := by
  have hfree : decide (ones (s.core c).ways ≤ count (fun x => x.1 % 256 = key % 256) (s.core c).l1) = false :=
    decide_eq_false (Nat.not_le.2 h.2)
  simp only [Machine.fillL1, hfree, Bool.and_false, Bool.false_eq_true, if_false]

/-- R343: an L1 that does not hold a line receives it. -/
theorem fillAgent_fresh {line : Nat} (ha : isL1 m.agent = true) (h : L1Room s m.agent (lineKey s (64 * line)))
    (write : Bool) : fillAgent s line m write =
      s.modCore m.agent (fun k => { k with l1 := Map.set k.l1 (lineKey s (64 * line)) {
        st := if write then .e else .s, kind := .coherent, data := Mem.readN s.mem (64 * line) 64,
        poison := s.poison.contains line, used := k.cyc } }) := by
  unfold fillAgent
  simp only [ha, if_true, h.1, h.fillL1]

/-- R343: an L1 that holds S receives permission to write. -/
theorem fillAgent_upgrade {line : Nat} {l : CLine} (ha : isL1 m.agent = true)
    (h : Map.get? (s.core m.agent).l1 (lineKey s (64 * line)) = some l) (hl : l.st = .s) : fillAgent s line m true =
      s.modCore m.agent (fun k => { k with l1 := Map.set k.l1 (lineKey s (64 * line)) { l with st := .e } }) := by
  unfold fillAgent
  simp only [ha, if_true, h, hl, decide_true, Bool.and_self]

/-! ## Grants (R345, R348, R349) -/

/-- The first grant at a die changes nothing by which sharers are marked. -/
theorem addSharer_touchLease (line x : Nat) (e : DirEntry) (a : Nat) :
    addSharer (touchLease s line x) e a = addSharer s e a := by
  simp only [addSharer, vecBit, coreLeaf, touchLease_core, touchLease_part]

theorem addSharer_st (e : DirEntry) (a : Nat) : (addSharer s e a).st = e.st := by
  unfold addSharer
  repeat' split
  all_goals rfl

/-- R345, R348: read permission of a line in I or S. -/
theorem grantS_fresh {e : DirEntry} {key : Nat} (he : e = dirOf s m.line) (hst : e.st ≠ .e) (hroom : EntryRoom s m.line)
    (ha : isL1 m.agent = true) (hkey : key = lineKey s (64 * m.line)) (hfree : L1Room s m.agent key) :
    ∃ v, grantS s m = afterGrant v m ∧ dirOf v m.line = addSharer s { e with st := .s } m.agent ∧ v.mem = s.mem ∧
      (v.core m.agent).l1 = Map.set (s.core m.agent).l1 key
        { st := .s, kind := .coherent, data := Mem.readN s.mem (64 * m.line) 64, poison := s.poison.contains m.line,
          used := (s.core m.agent).cyc } := by
  subst he hkey
  obtain ⟨w, hw⟩ : ∃ w, w = setDir (touchLease s m.line m.agent) m.line
      (addSharer s { dirOf s m.line with st := .s } m.agent) := ⟨_, rfl⟩
  have hdir : dirOf w m.line = addSharer s { dirOf s m.line with st := .s } m.agent := by
    rw [hw, dirOf_setDir_of_st (by simp [addSharer_st])]
  have hgrant : grantS s m = afterGrant (fillAgent w m.line m false) m := by
    unfold grantS
    simp only [dirOf_touchLease, addSharer_touchLease, hst, if_false]
    rw [(hroom.of_dir (touchLease_dir ..)).putDir, hw]
  have hkey : lineKey w (64 * m.line) = lineKey s (64 * m.line) := by rw [hw, setDir_eq]; simp [lineKey]
  have hcore : w.core m.agent = s.core m.agent := by rw [hw, setDir_eq]; exact touchLease_core ..
  have hmem : w.mem = s.mem := by rw [hw, setDir_eq]; exact touchLease_mem ..
  have hpoison : w.poison = s.poison := by rw [hw, setDir_eq]; exact touchLease_poison ..
  have hfill := fillAgent_fresh (s := w) (line := m.line) ha (by rwa [hkey, L1Room, hcore]) false
  simp only [hkey, hmem, hpoison, Bool.false_eq_true, if_false] at hfill
  rw [hgrant, hfill]
  refine ⟨_, rfl, hdir, hmem, ?_⟩
  rw [State.core_modCore_self, hcore]

/-- R345, R348: write permission of an unwatched line that no other agent holds, for an L1 that has room for the line
or holds S. -/
theorem grantE_fills {e : DirEntry} {key : Nat} (he : e = dirOf s m.line) (hroom : EntryRoom s m.line)
    (hw : watched s m.line = false) (ha : isL1 m.agent = true) (hkey : key = lineKey s (64 * m.line))
    (hl1 : L1Room s m.agent key ∨ ∃ l, Map.get? (s.core m.agent).l1 key = some l ∧ l.st = .s) :
    ∃ v, grantE s m = afterGrant v m ∧
      dirOf v m.line = { e with st := .e, mode := false, vec := [], ptrs := [m.agent], gen := m.gen } ∧
      v.mem = s.mem ∧
      (L1Room s m.agent key → (v.core m.agent).l1 = Map.set (s.core m.agent).l1 key
        { st := .e, kind := .coherent, data := Mem.readN s.mem (64 * m.line) 64, poison := s.poison.contains m.line,
          used := (s.core m.agent).cyc }) ∧
      ∀ l, Map.get? (s.core m.agent).l1 key = some l → l.st = .s →
        (v.core m.agent).l1 = Map.set (s.core m.agent).l1 key { l with st := .e } := by
  subst he
  obtain ⟨w, hgrants⟩ : ∃ w, w = setDir (touchLease s m.line m.agent) m.line
      { dirOf s m.line with st := .e, mode := false, vec := [], ptrs := [m.agent], gen := m.gen } := ⟨_, rfl⟩
  have hdir : dirOf w m.line =
      { dirOf s m.line with st := .e, mode := false, vec := [], ptrs := [m.agent], gen := m.gen } := by
    rw [hgrants, dirOf_setDir_of_st (by simp)]
  have hgrant : grantE s m = afterGrant (fillAgent w m.line m true) m := by
    unfold grantE
    simp only [watched_touchLease, dirOf_touchLease, hw, Bool.false_eq_true, if_false]
    rw [(hroom.of_dir (touchLease_dir ..)).putDir, hgrants]
  have hkeyw : lineKey w (64 * m.line) = key := by rw [hkey, hgrants, setDir_eq]; simp [lineKey]
  have hcore : w.core m.agent = s.core m.agent := by rw [hgrants, setDir_eq]; exact touchLease_core ..
  have hmem : w.mem = s.mem := by rw [hgrants, setDir_eq]; exact touchLease_mem ..
  have hpoison : w.poison = s.poison := by rw [hgrants, setDir_eq]; exact touchLease_poison ..
  rw [hgrant]
  rcases hl1 with hfree | ⟨l, hl, hs⟩
  · have hfill := fillAgent_fresh (s := w) (line := m.line) ha (by rwa [hkeyw, L1Room, hcore]) true
    simp only [hkeyw, hmem, hpoison, if_true] at hfill
    refine ⟨_, rfl, ?_, ?_, fun _ => ?_, fun l hl => ?_⟩
    · rw [hfill]; exact hdir
    · rw [hfill]; exact hmem
    · rw [hfill, State.core_modCore_self, hcore]
    · rw [hfree.1] at hl; cases hl
  · have hfill := fillAgent_upgrade (s := w) (line := m.line) ha (by rwa [hkeyw, hcore]) hs
    simp only [hkeyw] at hfill
    refine ⟨_, rfl, ?_, ?_, fun hfree => ?_, fun l' hl' _ => ?_⟩
    · rw [hfill]; exact hdir
    · rw [hfill]; exact hmem
    · rw [hfree.1] at hl; cases hl
    · obtain rfl : l = l' := by rw [hl] at hl'; exact Option.some.inj hl'
      rw [hfill, State.core_modCore_self, hcore]

/-- R349: an engine that asks for a line that nobody holds owns it, and its command has it. -/
theorem serveNow_own {e : DirEntry} {id : Nat} {c : Cmd} (hk : m.kind = .own) (hid : m.cmd = some id)
    (he : e = dirOf s m.line) (hroom : EntryRoom s m.line) (hc : Map.get? s.cmds id = some c) :
    ∃ v, serveNow s m = ownNext v id ∧
      dirOf v m.line = { e with st := .o, mode := false, vec := [], ptrs := [m.agent],
                                gen := keptGen s m.line m.agent, cmd := some id } ∧
      Map.get? v.cmds id = some { c with owned := insertNat m.line c.owned, toOwn := c.toOwn.filter (· != m.line) } := by
  subst he
  obtain ⟨w, hw⟩ : ∃ w, w = setDir (touchLease s m.line m.agent) m.line
      { dirOf s m.line with st := .o, mode := false, vec := [], ptrs := [m.agent],
                            gen := keptGen s m.line m.agent, cmd := some id } := ⟨_, rfl⟩
  have hserve : serveNow s m = ownGranted w m.line id := by
    unfold serveNow
    simp only [hk, hid, dirOf_touchLease, keptGen_touchLease]
    rw [(hroom.of_dir (touchLease_dir ..)).putDir, hw]
  have hcmds : w.cmds = s.cmds := by rw [hw, setDir_eq]; exact touchLease_cmds ..
  refine ⟨_, hserve, ?_, ?_⟩
  · exact (congrArg (dirOf · m.line) hw).trans (dirOf_setDir_of_st (by simp))
  · simp only [modCmd, Map.get?_modify, if_true, hcmds, hc, Option.map_some]

/-- R349: a pin of a line in I or S. -/
theorem serveNow_pin {e : DirEntry} {id : Nat} {c : Cmd} (hk : m.kind = .pin) (hid : m.cmd = some id)
    (he : e = dirOf s m.line) (hst : e.st ≠ .o) (hroom : EntryRoom s m.line) (hc : Map.get? s.cmds id = some c) :
    ∃ v, serveNow s m = pinNext v id ∧
      dirOf v m.line = addSharer s { e with pins := e.pins ++ [m.agent], st := .s } (homeAgent m.line m.agent) ∧
      Map.get? v.cmds id = some { c with pinned := c.pinned ++ [m.line], toPin := eraseFirst (· = m.line) c.toPin } := by
  subst he
  obtain ⟨w, hw⟩ : ∃ w, w = setDir (touchLease s m.line m.agent) m.line
      (addSharer s { dirOf s m.line with pins := (dirOf s m.line).pins ++ [m.agent], st := .s }
        (homeAgent m.line m.agent)) := ⟨_, rfl⟩
  have hserve : serveNow s m = pinGranted w m.line id := by
    unfold serveNow
    simp only [hk, hid, dirOf_touchLease, addSharer_touchLease, hst, if_false]
    rw [(hroom.of_dir (touchLease_dir ..)).putDir, hw]
  have hcmds : w.cmds = s.cmds := by rw [hw, setDir_eq]; exact touchLease_cmds ..
  refine ⟨_, hserve, ?_, ?_⟩
  · exact (congrArg (dirOf · m.line) hw).trans (dirOf_setDir_of_st (by simp [addSharer_st]))
  · simp only [modCmd, Map.get?_modify, if_true, hcmds, hc, Option.map_some]

/-- R345: the atomics of a request for a line that nobody holds are performed. -/
theorem serveNow_amo (hk : m.kind = .amo) (hst : (dirOf s m.line).st = .i) : serveNow s m = performAmo s m := by
  unfold serveNow
  simp [hk, hst]

end

/-! ## Dropping a pin (R349) -/

/-- R349: the pin of a step that has read the line is taken off it, and what waited for engine-owned lines looks
again. -/
theorem pinDrop_drops {s u : State} {m : Msg} {e : DirEntry} (h : Arrives (isMsg .pinDrop m.line m.agent) s m u)
    (he : e = dirOf u m.line) (hqueue : e.queue = []) : exec (.pinDrop m.line m.agent) s =
      .next (drainAgent (unblock (putDir u m.line { e with pins := eraseFirst (· = m.agent) e.pins })) m.agent) := by
  subst he
  rw [exec_pinDrop, execPinDrop, h.arrive]
  dsimp only
  rw [serveAll_idle (by rw [putDir, dirOf_setDir_queue]; exact hqueue)]

/-- Settles O49: a request is refused, queued or recalled for (`request_stale`, `request_queued`,
`request_recalls_holder`, `request_recalls_sharers`), or granted (`grantS_fresh`, `grantE_fills`, `serveNow_amo`,
`serveNow_own`, `serveNow_pin`); and a pin is dropped (`pinDrop_drops`). -/
theorem coherenceRequestsAreServed : Obligations.CoherenceRequestsAreServed := by
  unfold Obligations.CoherenceRequestsAreServed
  refine ⟨?requests, ?rd, ?write, ?amo, ?own, ?pin, ?pinDrop⟩
  case requests =>
    intro ev k hev s m u e h he
    have hkind := h.kind
    have hk := GenRequest.kind hev
    rw [h.request hev]
    refine ⟨fun hg => ?_, fun hg hwait => ?_, fun hg hst hmode hpins hqueue x hptrs hx => ?_,
      fun hg hwrite hst hmode hpins hqueue xs hxs hothers => ?_⟩
    · rw [request_stale (hkind ▸ kind_ne_own hk) hg]
    · subst he
      rw [request_queued hg (mustQueue_true hk hkind hwait)]
    · rw [request_recalls_holder he (hkind ▸ hk) hg hst hmode hpins hqueue hptrs (hkind ▸ hx), hkind]
    · subst hxs
      rw [request_recalls_sharers he (hkind ▸ hwrite) hg hst hmode hpins hqueue hothers]
  case rd =>
    intro s m u e key h he hg hst hqueue hroom ha hkey hfree
    have hkind := h.kind
    have hne : e.st ≠ .e := by rcases hst with hst | hst <;> simp [hst]
    obtain ⟨v, hgrant, hrest⟩ := grantS_fresh he hne hroom ha hkey hfree
    refine ⟨v, ?_, hrest⟩
    subst he
    rw [h.request (k := .rd) (by simp [GenRequest]), request_starts (.inr hg) (mustQueue_false (hst.imp_right .inl)
      (.inl (by rw [Msg.pinWaits, hkind])) (by simp [hkind]) (.inr hqueue)),
      startRequest_serves (recalls_of_reader (.inl hkind) hne), ← hgrant, serveNow, hkind]
  case write =>
    intro ev k hev s m u e key h he hg hst hmode hothers hpins hqueue hw hroom ha hkey hl1
    have hkind : m.kind = .rdx ∨ m.kind = .upg := by
      simp only [List.mem_cons, Prod.mk.injEq, List.not_mem_nil, or_false] at hev
      exact h.kind ▸ hev.imp And.right And.right
    have hfilter : e.ptrs.filter (· != m.agent) = [] := filter_nil_of (fun x hx => by simp [hothers x hx])
    obtain ⟨v, hgrant, hrest⟩ := grantE_fills he hroom hw ha hkey hl1
    refine ⟨v, ?_, hrest⟩
    subst he
    have hserve : serveNow u m = grantE u m := by
      unfold serveNow
      rcases hkind with hk | hk <;> rw [hk]
    have hreq : GenRequest ev k :=
      List.mem_cons_of_mem _ (List.mem_append_left [(Instr.amo, MsgKind.amo), (.pin, .pin)] hev)
    rw [h.request hreq, request_starts (.inr hg) (mustQueue_false (hst.imp_right .inl) (.inr hpins) (by simp [hpins]) (.inr hqueue)),
      startRequest_serves (by rw [recalls_of_write hkind hmode, hfilter]; rfl), hserve, hgrant]
  case amo =>
    intro s m u e h he hg hst hmode hptrs hpins hqueue
    have hkind := h.kind
    subst he
    rw [h.request (k := .amo) (by simp [GenRequest]), request_starts (.inr hg) (mustQueue_false (.inl hst)
      (.inr hpins) (by simp [hpins]) (.inr hqueue)),
      startRequest_serves (by rw [recalls_of_act (.inl hkind) hmode, hptrs]; rfl), serveNow_amo hkind hst]
  case own =>
    intro s m u e id c h he hst hmode hptrs hpins hqueue hroom hc
    obtain ⟨hkind, hid⟩ := h.ofCmd
    obtain ⟨v, hserve, hrest⟩ := serveNow_own hkind hid he hroom hc
    refine ⟨v, ?_, hrest⟩
    subst he
    rw [exec_own, execOwn, h.arrive, request_starts (.inl hkind) (mustQueue_false (.inl hst)
      (.inr hpins) (by simp [hpins]) (.inr hqueue)),
      startRequest_serves (by rw [recalls_of_act (.inr hkind) hmode, hptrs]; rfl), hserve]
  case pin =>
    intro s m u e id c h hid he hg hst hlen hroom hc
    have hkind := h.kind
    have hne : e.st ≠ .e ∧ e.st ≠ .o := by rcases hst with hst | hst <;> simp [hst]
    obtain ⟨v, hserve, hrest⟩ := serveNow_pin hkind hid he hne.2 hroom hc
    refine ⟨v, ?_, hrest⟩
    subst he
    rw [h.request (k := .pin) (by simp [GenRequest]), request_starts (.inr hg) (mustQueue_false (hst.imp_right .inl)
      (.inl (by rw [Msg.pinWaits, hkind])) (fun _ => hlen) (.inl hkind)),
      startRequest_serves (recalls_of_reader (.inr hkind) hne.1), hserve]
  case pinDrop =>
    intro s m u e h he hqueue
    exact pinDrop_drops h he hqueue

end Sys2Proof
end

section
/-!
What ends a permission: recalls, write-backs, downgrades and refusals (R344, R345, R347, R353), the end of an ownership
(R349), and leases (R351 to R353).
-/
namespace Sys2Proof
open Machine

/-! ## Bytes written at a home (R345, R350) -/

section
variable {s : State} {line : Nat} {e : DirEntry}

/-- A write to a line without a watch list wakes nobody. -/
theorem wakeLine_unwatched {pkg pa : Nat} (h : watched s (pa / 64) = false) :
    wakeLine s (.page .coherent pkg pa) = s := by
  have hnone : s.watches.filter (fun w => w.place = lineOf (.page .coherent pkg pa) && w.kind != .fe) = [] := by
    refine filter_nil_of (fun w hw => ?_)
    have hplace : w.place ≠ lineOf (.page .coherent pkg pa) := by
      intro hp
      have hnot := List.any_eq_false.1 h w hw
      simp only [hp, lineOf, decide_eq_true_eq] at hnot
      exact hnot (Nat.mul_div_cancel _ (by decide))
    simp [hplace]
  unfold wakeLine
  rw [hnone]
  rfl

theorem writeHome_eq (s : State) (pa : Nat) (bs : List Byte) (p : Bool) :
    ∃ po, writeHome s pa bs p = { s with mem := Mem.writeN s.mem pa bs, poison := po } := by
  simp only [writeHome, setPoison]
  repeat' split
  all_goals exact ⟨_, rfl⟩

/-- A line that is not in I has its entry. -/
theorem get?_dir_of_st (h : (dirOf s line).st ≠ .i) : Map.get? s.dir line = some (dirOf s line) := by
  unfold dirOf at h ⊢
  cases hget : Map.get? s.dir line with
  | some d => rfl
  | none => exact absurd (by rw [hget]; rfl) h

/-- R345: bytes written at the home of an unwatched line clear its FL, and change the home's copy alone. -/
theorem homeStore_unwatched (hst : (dirOf s line).st ≠ .i) (hw : watched s line = false) (bs : List Byte) (p : Bool) :
    (homeStore s (64 * line) bs p).mem = Mem.writeN s.mem (64 * line) bs ∧
      dirOf (homeStore s (64 * line) bs p) line = { dirOf s line with fl := false } := by
  obtain ⟨po, hwrite⟩ := writeHome_eq s (64 * line) bs p
  have hline : 64 * line / 64 = line := Nat.mul_div_cancel_left _ (by decide)
  have hclear : homeStore s (64 * line) bs p =
      setDir { s with mem := Mem.writeN s.mem (64 * line) bs, poison := po } line { dirOf s line with fl := false } := by
    unfold homeStore
    rw [hwrite, hline]
    simp only [clearFl, get?_dir_of_st hst]
    refine wakeLine_unwatched ?_
    rw [hline, setDir_eq]
    exact hw
  refine ⟨?_, ?_⟩
  · rw [hclear, setDir_eq]
  · rw [hclear]
    exact dirOf_setDir_of_st hst

theorem dirOf_setDir_fl (h : e.fl = false) : (dirOf (setDir s line e) line).fl = false := by
  cases hkept : keepsEntry s line e
  · rw [dirOf_setDir_freed hkept]
  · rw [dirOf_setDir_kept hkept, h]

end

/-! ## Answers to a recall (R345) -/

section
variable {s u : State} {m : Msg} {e : DirEntry}

/-- R345: an answer that is not awaited is discarded. -/
theorem recallAnswer_late (h : Arrives (isMsg .answer m.line m.agent) s m u) (he : e = dirOf u m.line)
    (hlate : e.st ≠ .b ∨ e.asked.contains m.agent = false ∨ m.gen ≠ keptGen u m.line m.agent) :
    exec (.recallAnswer m.line m.agent) s = .next (drainAgent u m.agent) := by
  subst he
  have hdrop : ((dirOf u m.line).st != .b || !(dirOf u m.line).asked.contains m.agent ||
      m.gen != keptGen u m.line m.agent) = true := by
    rcases hlate with h | h | h
    · simp only [bne_iff_ne.2 h, Bool.true_or]
    · simp only [h, Bool.not_false, Bool.or_true, Bool.true_or]
    · simp only [bne_iff_ne.2 h, Bool.or_true]
  rw [exec_recallAnswer, execRecallAnswer, h.arrive]
  simp only [hdrop, if_true]

/-- R345: an answer without data that is awaited. -/
theorem recallAnswer_awaited (h : Arrives (isMsg .answer m.line m.agent) s m u) (he : e = dirOf u m.line)
    (hst : e.st = .b) (hasked : e.asked.contains m.agent = true) (hg : m.gen = keptGen u m.line m.agent)
    (hd : m.data = none) : exec (.recallAnswer m.line m.agent) s =
      .next (drainAgent (answered u m.line m.agent m.keep) m.agent) := by
  subst he
  have htaken : ((dirOf u m.line).st != .b || !(dirOf u m.line).asked.contains m.agent ||
      m.gen != keptGen u m.line m.agent) = false := by
    simp only [hst, hasked, hg, bne_self_eq_false, Bool.not_true, Bool.or_self]
  rw [exec_recallAnswer, execRecallAnswer, h.arrive]
  simp only [htaken, hd, Bool.false_eq_true, if_false]

/-! ## Write-backs (R345, R347, R353) -/

/-- The messages by which an agent gives up write permission of itself. -/
def WriteBack (ev : Nat → Nat → Instr) (k : MsgKind) : Prop := (ev, k) ∈ [(Instr.wb, MsgKind.wb), (.wbk, .wbk), (.put, .put)]

theorem Arrives.writeBack {ev : Nat → Nat → Instr} {k : MsgKind} (h : Arrives (isMsg k m.line m.agent) s m u)
    (hev : WriteBack ev k) : exec (ev m.line m.agent) s = .next (drainAgent (writeBack u m) m.agent) := by
  simp only [WriteBack, List.mem_cons, Prod.mk.injEq, List.not_mem_nil, or_false] at hev
  rcases hev with ⟨rfl, rfl⟩ | ⟨rfl, rfl⟩ | ⟨rfl, rfl⟩
  · rw [exec_wb]; exact h.arrive ..
  · rw [exec_wbk]; exact h.arrive ..
  · rw [exec_put]; exact h.arrive ..

/-- R353: a write-back with an old generation is discarded and logged. -/
theorem writeBack_late (hg : m.gen ≠ keptGen u m.line m.agent) : writeBack u m = late u m := by
  unfold writeBack
  exact if_pos (by simp [hg])

/-- What a home holds once the data of a write-back, if it has any, are written. -/
def withData (u : State) (m : Msg) : State :=
  match m.data with
  | some bs => homeStore u (64 * m.line) bs m.poison
  | none => u

/-- R345: a write-back by the agent that holds the line ends its write permission, and is acknowledged. -/
theorem writeBack_holder (he : e = dirOf u m.line) (hg : m.gen = keptGen u m.line m.agent) (hst : e.st = .e)
    (hptrs : e.ptrs = [m.agent]) (hgen : m.gen = e.gen) :
    writeBack u m = sendAck (serveAll (putDir (withData u m) m.line (if m.kind = .wbk then
      { dirOf (withData u m) m.line with st := .s } else { dirOf (withData u m) m.line with st := .i, ptrs := [] }))
      m.line) m := by
  subst he
  have hholds : (decide ((dirOf u m.line).st = .e) && (dirOf u m.line).ptrs.contains m.agent &&
      decide (m.gen = (dirOf u m.line).gen)) = true := by
    simp [hst, hptrs, hgen]
  unfold writeBack
  simp only [hholds, if_true]
  rw [if_neg (by simp [hg])]
  split <;> rfl

/-- What the data of a write-back of an unwatched line change. -/
theorem withData_unwatched (he : e = dirOf u m.line) (hst : e.st ≠ .i) (hw : watched u m.line = false) :
    (∃ fl, dirOf (withData u m) m.line = { e with fl := fl } ∧ (m.data ≠ none → fl = false)) ∧
    (∀ bs, m.data = some bs → (withData u m).mem = Mem.writeN u.mem (64 * m.line) bs) ∧
    (m.data = none → (withData u m).mem = u.mem) := by
  subst he
  unfold withData
  cases hdata : m.data with
  | none => exact ⟨⟨_, rfl, fun h => absurd rfl h⟩, nofun, fun _ => rfl⟩
  | some bs =>
    obtain ⟨hstore, hdir⟩ := homeStore_unwatched hst hw bs m.poison
    refine ⟨⟨false, hdir, fun _ => rfl⟩, ?_, nofun⟩
    rintro _ ⟨⟩
    exact hstore

/-- R345: what a write-back by the holder of an unwatched line leaves at the home. -/
theorem writeBack_unwatched (he : e = dirOf u m.line) (hg : m.gen = keptGen u m.line m.agent) (hst : e.st = .e)
    (hptrs : e.ptrs = [m.agent]) (hgen : m.gen = e.gen) (hqueue : e.queue = []) (hw : watched u m.line = false) :
    (dirOf (writeBack u m) m.line).st = (if m.kind = .wbk then .s else .i) ∧
      { kind := .ack, line := m.line, agent := m.agent, gen := m.gen } ∈ (writeBack u m).msgs ∧
      (∀ bs, m.data = some bs → (writeBack u m).mem = Mem.writeN u.mem (64 * m.line) bs ∧
        (dirOf (writeBack u m) m.line).fl = false) ∧
      (m.data = none → (writeBack u m).mem = u.mem) := by
  have hne : e.st ≠ .i := by simp [hst]
  obtain ⟨⟨fl, hdir, hfl⟩, hsome, hnone⟩ := withData_unwatched he hne hw
  obtain ⟨d, hd⟩ : ∃ d, d = if m.kind = .wbk then { dirOf (withData u m) m.line with st := .s }
    else { dirOf (withData u m) m.line with st := .i, ptrs := [] } := ⟨_, rfl⟩
  have hdst : d.st = if m.kind = .wbk then .s else .i := by rw [hd]; split <;> rfl
  have hdqueue : d.queue = [] := by rw [hd, hdir]; split <;> exact hqueue
  have hdfl : d.fl = fl := by rw [hd, hdir]; split <;> rfl
  have hwrite : writeBack u m = sendAck (setDir (withData u m) m.line d) m := by
    have hroom : EntryRoom (withData u m) m.line := .of_st (by rw [hdir]; exact hne)
    rw [writeBack_holder he hg hst hptrs hgen, ← hd, hroom.putDir,
      serveAll_idle (by rw [dirOf_setDir_queue, hdqueue])]
  have hmem : (writeBack u m).mem = (withData u m).mem := by rw [hwrite, setDir_eq]; rfl
  refine ⟨?_, ?_, fun bs hbs => ⟨hmem.trans (hsome bs hbs), ?_⟩, fun hbs => hmem.trans (hnone hbs)⟩
  · rw [hwrite, ← hdst]
    exact dirOf_setDir_st
  · rw [hwrite]
    exact List.mem_append_right _ (List.mem_singleton_self _)
  · rw [hwrite]
    exact dirOf_setDir_fl (hdfl.trans (hfl (by simp [hbs])))

/-! ## Messages that reach an L1 (R344, R347) -/

/-- The recalls of R344. -/
def RecallMsg (ev : Nat → Nat → Instr) (k : MsgKind) : Prop := (ev, k) ∈ [(Instr.inv, MsgKind.inv), (.rcl, .rcl), (.dwg, .dwg)]

/-- R344: only DWG leaves its agent the line. -/
theorem Arrives.recall {ev : Nat → Nat → Instr} {k : MsgKind} (h : Arrives (isMsg k m.line m.agent) s m u)
    (hev : RecallMsg ev k) :
    exec (ev m.line m.agent) s = .next (drainAgent (recallAgent u m (k = .dwg)) m.agent) := by
  simp only [RecallMsg, List.mem_cons, Prod.mk.injEq, List.not_mem_nil, or_false] at hev
  rcases hev with ⟨rfl, rfl⟩ | ⟨rfl, rfl⟩ | ⟨rfl, rfl⟩
  · rw [exec_inv]; exact h.arrive ..
  · rw [exec_rcl]; exact h.arrive ..
  · rw [exec_dwg]; exact h.arrive ..

theorem recallAgent_absent {key : Nat} (ha : isL1 m.agent = true) (hkey : key = lineKey u (64 * m.line))
    (hf : (u.core m.agent).fenced = false) (hnone : Map.get? (u.core m.agent).l1 key = none) (keep : Bool) :
    recallAgent u m keep = sendAnswer u m none false false := by
  subst hkey
  unfold recallAgent heldLine
  simp only [ha, hf, hnone, Bool.and_false, Bool.false_eq_true, if_false, if_true, Option.map_none]

/-- R344: an L1 gives up a line, or keeps S of it; what it holds dirty goes with the answer. -/
theorem recallAgent_held {key : Nat} {l : CLine} (ha : isL1 m.agent = true) (hkey : key = lineKey u (64 * m.line))
    (hf : (u.core m.agent).fenced = false) (hl : Map.get? (u.core m.agent).l1 key = some l) (keep : Bool) :
    recallAgent u m keep = sendAnswer (u.modCore m.agent (fun k => { k with
        l1 := if keep then Map.set k.l1 key { l with st := .s, owner := none } else Map.erase k.l1 key }))
      m (if l.st = .m then some l.data else none) l.poison keep := by
  subst hkey
  unfold recallAgent heldLine
  simp only [ha, hf, hl, Bool.and_false, Bool.false_eq_true, if_false, if_true, Option.map_some]
  cases keep with
  | false => simp only [Bool.false_eq_true, if_false, dropHeld, ha, if_true]
  | true => simp only [if_true, downgrade, ha, State.modCore, Map.modify, hl]

/-- R347: an acknowledgement frees the entry of the eviction buffer. -/
theorem ack_frees (h : Arrives (isMsg .ack m.line m.agent) s m u) (ha : isL1 m.agent = true) {v : State}
    (hv : v = u.modCore m.agent (fun k => { k with xbuf := Map.erase k.xbuf (lineKey u (64 * m.line)) })) :
    exec (.ack m.line m.agent) s =
      .next (drainAgent (unblock (pumpThreads v (coreThreads v m.agent))) m.agent) := by
  subst hv
  rw [exec_ack, execAck, h.arrive]
  simp only [ha, if_true]

/-- R353: a refused access faults its thread, and the agent rejoins. -/
theorem nack_faults {c slot : Nat} (h : Arrives (isMsg .nack m.line m.agent) s m u) (ht : m.thread = some ⟨c, slot⟩)
    (hc : m.cmd = none) (hr : m.rid = none) : exec (.nack m.line m.agent) s =
      .next (drainAgent ((takeFault u c slot
        (mkFault fcLease (lineVa u ⟨c, slot⟩ none m.line) (m.gen.zeroExtend 64))).post
        (.leaseRejoin (homeDie (64 * m.line)) m.agent)) m.agent) := by
  rw [exec_nack, execNack, h.arrive]
  simp only [ht, hc, hr, failAcc]

/-! ## The end of an ownership (R349, R353) -/

/-- The messages by which an engine gives up a line. -/
def OwnEnd (ev : Nat → Nat → Instr) (k : MsgKind) : Prop := (ev, k) ∈ [(Instr.ew, MsgKind.ew), (.rel, .rel)]

theorem Arrives.ownEnd {ev : Nat → Nat → Instr} {k : MsgKind} {id : Nat}
    (h : Arrives (fun m' => m'.kind = k && m'.line = m.line && m'.cmd = some id) s m u) (hev : OwnEnd ev k) :
    exec (ev m.line id) s = .next (drainAgent (ownEnd u m) m.agent) := by
  simp only [OwnEnd, List.mem_cons, Prod.mk.injEq, List.not_mem_nil, or_false] at hev
  rcases hev with ⟨rfl, rfl⟩ | ⟨rfl, rfl⟩
  · rw [exec_ew]; exact h.arrive ..
  · rw [exec_rel]; exact h.arrive ..

section
variable {id : Nat} {c : Cmd} (he : e = dirOf u m.line) (hid : m.cmd = some id) (hst : e.st = .o)
  (hcmd : e.cmd = some id)
include he hid hst hcmd

/-- R353: an EW or REL with an old generation is refused. -/
theorem ownEnd_refused (hg : m.gen ≠ keptGen u m.line m.agent) :
    ownEnd u m = sendMsg u { m with kind := .nack, keep := true } := by
  subst he
  unfold ownEnd
  simp only [hid, ownedBy, hst, hcmd]
  exact if_pos (by simp [hg])

/-- What a home holds once the bytes of an EW are written. -/
def withBuf (u : State) (m : Msg) (c : Cmd) : State :=
  match Map.get? c.buf m.line with
  | some b => if m.kind = .ew then
      homeStore u (64 * m.line) (mergeBuf (Mem.readN u.mem (64 * m.line) 64) b)
        (b.poison || (u.poison.contains m.line && b.mask != BitVec.allOnes 64))
    else u
  | none => u

theorem ownEnd_writes (hg : m.gen = keptGen u m.line m.agent) (hc : Map.get? u.cmds id = some c) :
    ownEnd u m = unblock (disownLine (serveAll (putDir (withBuf u m c) m.line
      { dirOf (withBuf u m c) m.line with st := .i, ptrs := [], cmd := none }) m.line) m.line id) := by
  subst he
  unfold ownEnd
  simp only [hid, ownedBy, hst, hcmd, hc, Option.bind_some]
  exact if_neg (by simp [hg])

/-- R349: the line of an EW or REL that counts is no longer owned, and only an EW writes it. -/
theorem ownEnd_ends (hg : m.gen = keptGen u m.line m.agent) (hc : Map.get? u.cmds id = some c)
    (hqueue : e.queue = []) (hw : watched u m.line = false) :
    ∃ v, ownEnd u m = unblock (disownLine v m.line id) ∧ (dirOf v m.line).st = .i ∧
      (m.kind ≠ .ew → v.mem = u.mem) ∧
      ∀ b, m.kind = .ew → Map.get? c.buf m.line = some b →
        v.mem = Mem.writeN u.mem (64 * m.line) (mergeBuf (Mem.readN u.mem (64 * m.line) 64) b) := by
  have hne : e.st ≠ .i := by simp [hst]
  have hbuf : (∃ fl, dirOf (withBuf u m c) m.line = { e with fl := fl }) ∧
      (m.kind ≠ .ew → (withBuf u m c).mem = u.mem) ∧
      ∀ b, m.kind = .ew → Map.get? c.buf m.line = some b →
        (withBuf u m c).mem = Mem.writeN u.mem (64 * m.line) (mergeBuf (Mem.readN u.mem (64 * m.line) 64) b) := by
    unfold withBuf
    split
    · next b hb =>
      split
      · next hk =>
        obtain ⟨hstore, hdir⟩ := homeStore_unwatched (he ▸ hne) hw
          (mergeBuf (Mem.readN u.mem (64 * m.line) 64) b)
          (b.poison || (u.poison.contains m.line && b.mask != BitVec.allOnes 64))
        refine ⟨⟨false, by rw [hdir, he]⟩, fun h => absurd hk h, fun b' _ hb' => ?_⟩
        obtain rfl : b = b' := Option.some.inj (hb.symm.trans hb')
        exact hstore
      · next hk => exact ⟨⟨e.fl, he.symm⟩, fun _ => rfl, fun _ h => absurd h hk⟩
    · next hb => exact ⟨⟨e.fl, he.symm⟩, fun _ => rfl, fun b _ h => absurd (hb.symm.trans h) (by simp)⟩
  obtain ⟨⟨fl, hdir⟩, hrel, hew⟩ := hbuf
  have hroom : EntryRoom (withBuf u m c) m.line := .of_st (by rw [hdir]; exact hne)
  obtain ⟨v, hv⟩ : ∃ v, v = setDir (withBuf u m c) m.line
    { dirOf (withBuf u m c) m.line with st := .i, ptrs := [], cmd := none } := ⟨_, rfl⟩
  have hmem : v.mem = (withBuf u m c).mem := by rw [hv, setDir_eq]
  refine ⟨v, ?_, ?_, fun hk => hmem.trans (hrel hk), fun b hk hb => hmem.trans (hew b hk hb)⟩
  · rw [ownEnd_writes he hid hst hcmd hg hc, hroom.putDir, ← hv,
      serveAll_idle (by rw [hv, dirOf_setDir_queue, hdir]; exact hqueue)]
  · rw [hv, dirOf_setDir_st]

end
end

/-! ## Leases (R351 to R353) -/

section
variable {s : State} {die a : Nat} {l : Lease}

/-- R351: a renewal is noted and acknowledged. -/
theorem leaseRenewal_notes (hl : l = leaseOf s die a) (hg : l.held = l.gen) :
    exec (.leaseRenewal die a) s = .next (setLease s die a { l with last := s.now, ack := agentNow s a }) := by
  subst hl
  rw [exec_leaseRenewal, execLeaseRenewal]
  exact if_neg (by simp [hg])

/-- R351, R353: a renewal with an old generation makes the agent rejoin. -/
theorem leaseRenewal_refused (hl : l = leaseOf s die a) (hg : l.held ≠ l.gen) :
    exec (.leaseRenewal die a) s = .next (s.post (.leaseRejoin die a)) := by
  subst hl
  rw [exec_leaseRenewal, execLeaseRenewal]
  exact if_pos (by simp [hg])

/-- R351: within its term, or when its agent has expired already, a lease does not expire. -/
theorem leaseExpiry_early (hl : l = leaseOf s die a) (h : s.now < l.last + 2 ^ 20 ∨ l.expired = true) :
    exec (.leaseExpiry die a) s = .next s := by
  subst hl
  rw [exec_leaseExpiry, execLeaseExpiry]
  refine if_pos ?_
  rcases h with h | h
  · simp [leaseTerm, show s.now < (leaseOf s die a).last + 1048576 from h]
  · simp [h]

/-- R352: at the end of its term an agent's generation advances, and every entry that names it is resolved. -/
theorem leaseExpiry_resolves {x : Nat} {xs : List Nat} (hl : l = leaseOf s die a) (hx : l.expired = false)
    (ht : l.last + 2 ^ 20 ≤ s.now) (hn : namedLines s die a = x :: xs) :
    exec (.leaseExpiry die a) s = .next (unblock (resolveAll
      (setLease s die a { l with gen := l.gen + 1#16, expired := true }) a (x :: xs))) := by
  subst hl
  have hend : ¬ s.now < (leaseOf s die a).last + leaseTerm := Nat.not_lt.2 ht
  rw [exec_leaseExpiry, execLeaseExpiry]
  simp only [hn, hx, hend, decide_false, List.isEmpty_cons, Bool.or_self, Bool.false_eq_true, if_false]

/-- R352: a line that an expired agent holds alone falls to I, with FL set where it is watched, and its home's copy is
what it was. -/
theorem resolveEntry_holder {line : Nat} {e : DirEntry} (he : e = dirOf s line) (hptrs : e.ptrs = [a])
    (hqueue : e.queue = []) (hst : e.st = .e) : (dirOf (resolveEntry s a line) line).st = .i ∧
      (watched s line = true → (dirOf (resolveEntry s a line) line).fl = true) ∧
      (resolveEntry s a line).mem = s.mem := by
  subst he
  obtain ⟨w, d, hresolve, hdir, hmem, hwatch, hdst, hdqueue, hdfl⟩ : ∃ w d,
      resolveEntry s a line = serveAll (putDir w line d) line ∧ w.dir = s.dir ∧ w.mem = s.mem ∧
        w.watches = s.watches ∧ d.st = .i ∧ d.queue = [] ∧ d.fl = true := by
    unfold resolveEntry
    simp only [hst, hptrs, decide_true, Bool.true_or, Bool.and_self, if_true, reduceCtorEq, if_false]
    exact ⟨_, _, rfl, rfl, rfl, rfl, rfl, hqueue, rfl⟩
  have hroom : EntryRoom w line := (EntryRoom.of_st (s := s) (by simp [hst])).of_dir hdir
  have heq : resolveEntry s a line = setDir w line d := by
    rw [hresolve, hroom.putDir, serveAll_idle (by rw [dirOf_setDir_queue, hdqueue])]
  refine ⟨?_, fun hw => ?_, ?_⟩
  · rw [heq, dirOf_setDir_st, hdst]
  · have hkept : keepsEntry w line d = true := by
      have hwatched : watched w line = true := by rw [watched, hwatch]; exact hw
      simp [keepsEntry, hwatched]
    rw [heq, dirOf_setDir_kept hkept, hdfl]
  · rw [heq, setDir_eq, hmem]

theorem get?_foldl_erase {α : Type} {key : Nat} : ∀ {ls : List Nat} (m : Map α), key ∈ ls ∨ Map.get? m key = none →
    Map.get? (ls.foldl Map.erase m) key = none
  | [], _, h => h.resolve_left List.not_mem_nil
  | x :: ls, m, h => by
    refine get?_foldl_erase (ls := ls) (Map.erase m x) ?_
    rw [Map.get?_erase]
    by_cases hx : key = x
    · exact .inr (if_pos hx)
    · rw [if_neg hx]
      exact h.imp_left (fun h => (List.mem_cons.1 h).resolve_left hx)

/-- Lines taken away from an L1 one after another: the core has lost them, and nothing else has changed. -/
theorem foldl_dropAgent_l1 (ha : isL1 a = true) : ∀ (ls : List Nat) (s : State),
    ((ls.foldl (fun s key => dropAgent s a key) s).core a = { s.core a with
        l1 := ls.foldl Map.erase (s.core a).l1, xbuf := ls.foldl Map.erase (s.core a).xbuf }) ∧
      { ls.foldl (fun s key => dropAgent s a key) s with cores := [] } = { s with cores := [] }
  | [], _ => ⟨rfl, rfl⟩
  | x :: ls, s => by
    have hone : dropAgent s a x = dropL1 s a x := if_pos ha
    obtain ⟨hcore, hrest⟩ := foldl_dropAgent_l1 ha ls (dropL1 s a x)
    rw [List.foldl_cons, hone]
    refine ⟨hcore.trans ?_, hrest.trans rfl⟩
    rw [dropL1, State.core_modCore_self]
    rfl

theorem logDrops_rest (a : Nat) : ∀ (ls : List Nat) (s : State),
    { logDrops s a ls with banks := [] } = { s with banks := [] }
  | [], _ => rfl
  | _ :: ls, _ => (logDrops_rest a ls _).trans rfl

/-- R353: an L1 that rejoins has dropped every line of the die's homes, and holds the current generation. -/
theorem leaseRejoin_drops (ha : isL1 a = true) :
    ∃ v, exec (.leaseRejoin die a) s = .next (unblock (pumpThreads v (coreThreads v a))) ∧
      leaseOf v die a = { leaseOf s die a with
        held := (leaseOf s die a).gen, last := s.now, ack := (s.core a).cyc, expired := false } ∧
      ∀ key ∈ (agentLines s die a).1, Map.get? (v.core a).l1 key = none ∧ Map.get? (v.core a).xbuf key = none := by
  have hlog := logDrops_rest a (agentLines s die a).2 s
  obtain ⟨w, hw⟩ : ∃ w, w = (agentLines s die a).1.foldl (fun s key => dropAgent s a key)
    (logDrops s a (agentLines s die a).2) := ⟨_, rfl⟩
  obtain ⟨hcore, hrest⟩ := foldl_dropAgent_l1 ha (agentLines s die a).1 (logDrops s a (agentLines s die a).2)
  rw [← hw] at hcore hrest
  have hlogcore : (logDrops s a (agentLines s die a).2).core a = s.core a := by
    have h := congrArg (State.core · a) hlog
    exact h
  have hlease : leaseOf w die a = leaseOf s die a := by
    have h := congrArg (leaseOf · die a) hrest
    have h' := congrArg (leaseOf · die a) hlog
    exact Eq.trans h h'
  have hnow : w.now = s.now := by
    have h := congrArg State.now hrest
    have h' := congrArg State.now hlog
    exact Eq.trans h h'
  have hcyc : agentNow w a = (s.core a).cyc := by rw [agentNow, if_pos ha, hcore, hlogcore]
  obtain ⟨v, hv⟩ : ∃ v, v = setLease w die a { leaseOf w die a with
    held := (leaseOf w die a).gen, last := w.now, ack := agentNow w a, expired := false } := ⟨_, rfl⟩
  refine ⟨v, ?_, ?_, fun key hkey => ?_⟩
  · rw [exec_leaseRejoin, execLeaseRejoin]
    simp only [← hw, ← hv, ha, if_true]
  · rw [hv, leaseOf_setLease, hlease, hnow, hcyc]
  · have hvcore : v.core a = w.core a := by rw [hv]; rfl
    rw [hvcore, hcore]
    exact ⟨get?_foldl_erase _ (.inl hkey), get?_foldl_erase _ (.inl hkey)⟩

/-- R351: an L1 that has had no acknowledgement for long treats its permissions as lost. -/
theorem leaseSelfLimit_loses (ha : isL1 a = true) (ht : (leaseOf s die a).ack + 786432 ≤ (s.core a).cyc)
    (hn : (agentLines s die a).1 ≠ [] ∨ namedLines s die a ≠ []) :
    exec (.leaseSelfLimit die a) s = exec (.leaseRejoin die a) (loseOwned s die a) := by
  have hend : ¬ agentNow s a < (leaseOf s die a).ack + 786432 := by
    rw [agentNow, if_pos ha]
    exact Nat.not_lt.2 ht
  have hsome : ((agentLines s die a).1.isEmpty && (namedLines s die a).isEmpty) = false := by
    rcases hn with hn | hn <;> simp [hn]
  rw [exec_leaseSelfLimit, execLeaseSelfLimit, exec_leaseRejoin]
  simp only [hend, hsome, decide_false, Bool.or_self, Bool.false_eq_true, if_false]

theorem leaseSelfLimit_early (ha : isL1 a = true) (ht : (s.core a).cyc < (leaseOf s die a).ack + 786432) :
    exec (.leaseSelfLimit die a) s = .next s := by
  have hearly : agentNow s a < (leaseOf s die a).ack + 786432 := by
    rw [agentNow, if_pos ha]
    exact ht
  rw [exec_leaseSelfLimit, execLeaseSelfLimit]
  exact if_pos (by simp [hearly])

end

/-- Settles O50: answers (`recallAnswer_late`, `recallAnswer_awaited`), write-backs (`writeBack_late`,
`writeBack_unwatched`), what an L1 does (`recallAgent_held`, `ack_frees`, `nack_faults`), the end of an ownership
(`ownEnd_ends`), and leases (`leaseExpiry_resolves`, `resolveEntry_holder`, `leaseRejoin_drops`). -/
theorem recallsWriteBacksAndLeases : Obligations.RecallsWriteBacksAndLeases := by
  unfold Obligations.RecallsWriteBacksAndLeases
  refine ⟨?answer, ?writeBack, ?given, ?ack, ?nack, ?ownEnd, ?lease, ?resolve, ?rejoin⟩
  case answer =>
    intro s m u e v h he
    refine ⟨recallAnswer_late h he, fun hst hasked hg hd hv => ?_⟩
    rw [recallAnswer_awaited h he hst hasked hg hd]
    subst he hv
    exact ⟨fun hmore => by rw [answered, if_neg (by simpa using hmore)],
      fun hlast => by rw [answered, if_pos (by simpa using hlast)]⟩
  case writeBack =>
    intro ev k hev s m u e h he
    have hkind := h.kind
    rw [h.writeBack hev]
    refine ⟨fun hg => by rw [writeBack_late hg], fun hg hst hptrs hgen hqueue hw => ⟨writeBack u m, rfl, ?_⟩⟩
    rw [← hkind]
    exact writeBack_unwatched he hg hst hptrs hgen hqueue hw
  case given =>
    intro ev k hev s m u key h ha hkey hf
    rw [h.recall hev]
    refine ⟨fun hnone => by rw [recallAgent_absent ha hkey hf hnone], fun l hl => ?_⟩
    rw [recallAgent_held ha hkey hf hl]
    simp only [decide_eq_true_eq]
  case ack =>
    intro s m u h ha v hv
    exact ack_frees h ha hv
  case nack =>
    intro s m u c slot t a h ht hc hr _
    exact nack_faults h ht hc hr
  case ownEnd =>
    intro ev k hev s m u e id c h he hst hcmd hqueue hw hc
    obtain ⟨hkind, hid⟩ := h.ofCmd
    rw [h.ownEnd hev]
    refine ⟨fun hg => by rw [ownEnd_refused he hid hst hcmd hg], fun hg => ?_⟩
    obtain ⟨v, hend, hfree, hrel, hew⟩ := ownEnd_ends he hid hst hcmd hg hc hqueue hw
    exact ⟨v, by rw [hend], hfree, fun hk => hrel (by simp [hkind, hk]), fun b hk => hew b (hkind.trans hk)⟩
  case lease =>
    intro s die a l hl
    exact ⟨leaseRenewal_notes hl, leaseRenewal_refused hl, leaseExpiry_early hl,
      fun hx ht x xs hn => leaseExpiry_resolves hl hx ht hn⟩
  case resolve =>
    intro s a line e he hptrs hqueue hst
    exact resolveEntry_holder he hptrs hqueue hst
  case rejoin =>
    intro s die a ha
    exact ⟨leaseRejoin_drops ha, leaseSelfLimit_loses ha, leaseSelfLimit_early ha⟩

end Sys2Proof
end

section
/-!
Packets between packages and their answers (R340, R346, R366, R367); accesses of the host through its BARs and CXL.mem
(R302, R320, R358, R360), snoops (R361), and links (R361, R373).
-/
namespace Sys2Proof
open Machine

/-! ## Acts that have their turn, or wait for it (R346) -/

section
variable {s : State} {e : Event} {p : Place} {w tw : Bool} {f : State → State}

theorem InTurn.atHome {pkg pa : Nat} (h : InTurn s e (.page .coherent pkg pa) w) : atHome s e (pa / 64) w tw f = f s :=
  atHome_turn (h.noQueue _ _ rfl) (h.notHeld _ _ rfl)

/-- R346: an act that finds its line's state against it waits in the line's queue. -/
theorem settleAct_atHome_held {line : Nat} (h : NoAct s e) (hq : (dirOf s line).queue = [])
    (hh : actHeld (dirOf s line) w = true) : settleAct (atHome s e line w tw f) e =
      setDir s line { dirOf s line with queue := [actMsg e line w] } := by
  rw [atHome_held hq hh, settleAct_held h]

end

/-! ## Posted packets (R366) -/

section
variable {s : State} {id : Nat} {x : FabricPacket}

/-- R366: a posted packet that nobody waits for has been performed at its target. -/
theorem postedWriteArrive_done (h : Map.get? s.out id = some x) (hk : x.kind = 0) (ht : x.thread = none)
    (hc : x.cmd = none) (hl : x.lid = 0) (hid : x.id = id) :
    exec (.postedWriteArrive id) s = .next (postWaiting { s with out := Map.erase s.out id }) := by
  rw [exec_postedWriteArrive, execPostedWriteArrive]
  simp only [h, Option.filter, hk, decide_true, if_true, postedDone, hc, ht, hl, hid, Option.bind_none]

/-- R366: a posted packet that has reached this package. -/
theorem postedWriteArrive_here (ho : Map.get? s.out id = none) (hi : Map.get? s.inbox id = some x) (hk : x.kind = 0)
    (hid : x.id = id) :
    exec (.postedWriteArrive id) s = .next (settleAct (takePosted s x) (.postedWriteArrive id)) := by
  subst hid
  have hfound : (Map.get? s.inbox x.id).filter (fun y => y.kind = 0) = some x :=
    Option.filter_eq_some_iff.2 ⟨hi, by simp [hk]⟩
  rw [exec_postedWriteArrive, execPostedWriteArrive]
  simp only [ho, Option.filter_none, hfound]

/-- R366: a packet that cannot be performed here is dropped whole, and logged. -/
theorem takePosted_dropped (h : packetOk s x x.data.length = false) :
    takePosted s x = logDrop { s with inbox := Map.erase s.inbox x.id } x x.data.length := by
  simp only [takePosted, h, Bool.not_false, if_true]

/-- R346, R366: the next line of a packet's payload is an act at its home. -/
theorem takePosted_payload (h : packetOk s x x.data.length = true) (hp : x.pos < x.data.length) : takePosted s x =
    atHome s (.postedWriteArrive x.id) ((x.addr % 2 ^ 50 + x.pos) / 64) true false (fun s => takePayload s x) := by
  simp only [takePosted, h, hp, Bool.not_true, Bool.false_eq_true, if_false, if_true]

/-- R366: a packet whose payload has been performed, and that has no milestone here, is over. -/
theorem takePosted_over (h : packetOk s x x.data.length = true) (hp : x.pos = x.data.length) (hm : msHere s x = none) :
    takePosted s x = { s with inbox := Map.erase s.inbox x.id } := by
  simp only [takePosted, h, hp, hm, Nat.lt_irrefl, Bool.not_true, Bool.false_eq_true, if_false]

/-- R366: the milestone of a packet comes after its payload, as an act at its own home. -/
theorem takePosted_milestone {m : Nat} (h : packetOk s x x.data.length = true) (hp : x.pos = x.data.length)
    (hm : msHere s x = some m) : takePosted s x = atHome s (.postedWriteArrive x.id) (m / 64) true false
      (fun s => addMilestone { s with inbox := Map.erase s.inbox x.id } x) := by
  simp only [takePosted, h, hp, hm, Nat.lt_irrefl, Bool.not_true, Bool.false_eq_true, if_false]

/-- R366: a milestone adds the bytes of its packet to its word. -/
theorem addMilestone_adds {m : Nat} {v : List Byte × Bool} (hm : msHere s x = some m)
    (hv : v = readPlace s noCore (.page .coherent s.pkg m) 8) (hp : v.2 = false) :
    addMilestone s x = writePlace s 0 (.page .coherent s.pkg m)
      (wordBytes (leWord v.1 + BitVec.ofNat 64 x.data.length)) false := by
  subst hv
  simp only [addMilestone, hm, hp, Bool.false_eq_true, if_false]

/-! ## Reads and atomics of other packages (R340, R367) -/

/-- R340, R367: a read packet is answered with its line as it stands. -/
theorem remoteRead_answers {v : List Byte × Bool} (hi : Map.get? s.inbox id = some x) (hk : x.kind = 1)
    (hok : packetOk s x 1 = true)
    (ht : InTurn s (.remoteRead id) (.page .coherent s.pkg (x.addr % 2 ^ 50 / 64 * 64)) false)
    (hv : v = lineNow s (x.addr % 2 ^ 50 / 64 * 64)) :
    exec (.remoteRead id) s = .next (sendAnswerTo s x 2 v.1 v.2) := by
  subst hv
  rw [exec_remoteRead, execRemoteRead]
  simp only [hi, Option.filter, hk, decide_true, if_true, hok, Bool.not_true, Bool.false_eq_true, if_false, ht.atHome]

/-- R367: an atomic packet that writes does so at its home, and is answered with the old value. -/
theorem remoteAtomic_writes {op : UnitOp} {p : Place} {v : List Byte × Bool} {bs : List Byte}
    (hi : Map.get? s.inbox id = some x) (hk : x.kind = 3) (ho : x.op = some op) (hok : packetOk s x x.size = true)
    (hp : p = .page .coherent s.pkg (x.addr % 2 ^ 50)) (ht : InTurn s (.remoteAtomic id) p true)
    (hv : v = readPlace s noCore p x.size) (hclean : v.2 = false) (hw : op.writes v.1 = some bs) :
    exec (.remoteAtomic id) s = .next (sendAnswerTo (writePlace s 0 p bs false) x 4 v.1 false) := by
  subst hp hv
  rw [exec_remoteAtomic, execRemoteAtomic]
  simp only [hi, hk, ho, hok, Bool.not_true, Bool.false_eq_true, if_false, ht.atHome, atomicHere, hclean, hw]

/-! ## Answers to this package's packets (R192, R318, R367) -/

/-- R367: the line of a read reaches its thread. -/
theorem remoteReadResponse_line {r : TRef} {bs : List Byte} (ho : Map.get? s.out id = some x) (hk : x.kind = 1)
    (ht : x.thread = some r) (hbs : bs.length = 64) : exec (.remoteReadResponse id (some bs)) s =
      .next (postWaiting (takeLine { s with out := Map.erase s.out id } r x bs false)) := by
  rw [exec_remoteReadResponse, execRemoteReadResponse]
  simp only [ho, Option.filter, hk, decide_true, if_true, ht, hbs]

theorem remoteReadResponse_refusal {r : TRef} (ho : Map.get? s.out id = some x) (hk : x.kind = 1)
    (ht : x.thread = some r) : exec (.remoteReadResponse id none) s =
      .next (postWaiting (refuseAccess { s with out := Map.erase s.out id } r x)) := by
  rw [exec_remoteReadResponse, execRemoteReadResponse]
  simp only [ho, Option.filter, hk, decide_true, if_true, ht]

/-- R367: an access whose packet is refused faults its thread. -/
theorem refuseAccess_faults {c slot : Nat} {t : Thread} {a : Access} {w : MUnit} (hr : x.rid = none)
    (h : s.thread? c slot = some t) (ha : t.wait = .access a) (hu : a.units = [w]) (hout : w.out = none)
    (hsent : w.sent = true) (hplace : w.place = some (.page .remotePosted (x.addr / 2 ^ 50) (x.addr % 2 ^ 50)))
    (hsize : w.size = x.size) : refuseAccess s ⟨c, slot⟩ x = takeFault s c slot (prot w.va 3) := by
  have haddr : domAddr (x.addr / 2 ^ 50) (x.addr % 2 ^ 50) = x.addr := Nat.div_add_mod' _ _
  have hpiece : packetPiece x w (.page .remotePosted (x.addr / 2 ^ 50) (x.addr % 2 ^ 50)) = true := by
    simp only [packetPiece, hsent, haddr, hsize, decide_true, Bool.and_self]
  simp only [refuseAccess, h, Option.bind_some, hr, accOf_waited ha, hu, List.find?_cons, hplace, hout, hpiece,
    Option.isNone_none, Bool.and_self, failAcc]

theorem Resumed.postWaiting {c slot : Nat} {t : Thread} (h : Resumed s c slot t) :
    Resumed (postWaiting s) c slot t := by
  refine ⟨(postWaiting_thread ..).trans h.thread, ?_⟩
  rw [State.core, postWaiting_cores]
  exact h.queued

/-- R192: the status of a message reaches its sender, which goes on. -/
theorem remoteAtomicResponse_message {c slot d : Nat} {t : Thread} {st : Byte} {bs : List Byte}
    (ho : Map.get? s.out id = some x) (hk : x.kind = 5) (ht : x.thread = some ⟨c, slot⟩)
    (hc : ∀ m, x.carried = some m → m.kind ≠ 1) (h : Waits s c slot t (.packet d id)) :
    ∃ s', exec (.remoteAtomicResponse id (some (st :: bs))) s = .next s' ∧
      Resumed s' c slot (t.setG d (BitVec.ofNat 64 st.toNat)) := by
  have hcarried : x.carried.filter (fun m => x.kind = 5 && m.kind = 1) = none := by
    cases hm : x.carried with
    | none => rfl
    | some m => simp [hc m hm]
  have hfound : (Map.get? s.out id).filter (fun y => y.kind = 3 || y.kind = 5 || y.kind = 6) = some x :=
    Option.filter_eq_some_iff.2 ⟨ho, by simp [hk]⟩
  have hthread : ({ s with out := Map.erase s.out id } : State).thread? c slot = some t := h.thread
  refine ⟨_, ?_, (h.finish { s with out := Map.erase s.out id } hthread d _).postWaiting⟩
  rw [exec_remoteAtomicResponse, execRemoteAtomicResponse]
  simp only [hfound, hcarried]
  simp only [hk, ht, messageDone, waitOf, hthread, Option.map_some, h.wait, if_true]

/-- R318: a completion's write to another package has been made. -/
theorem remoteAtomicResponse_completion {bs : List Byte} (ho : Map.get? s.out id = some x) (hk : x.kind = 3)
    (ht : x.thread = none) : exec (.remoteAtomicResponse id (some bs)) s =
      .next (postWaiting (({ s with out := Map.erase s.out id } : State).post (.launchCompletion x.lid))) := by
  have hcarried : x.carried.filter (fun m => x.kind = 5 && m.kind = 1) = none := by
    cases x.carried <;> simp [hk]
  have hfound : (Map.get? s.out id).filter (fun y => y.kind = 3 || y.kind = 5 || y.kind = 6) = some x :=
    Option.filter_eq_some_iff.2 ⟨ho, by simp [hk]⟩
  rw [exec_remoteAtomicResponse]
  unfold execRemoteAtomicResponse
  simp only [hfound, hcarried]
  simp only [hk, ht, completionDone, Option.isSome_some, if_true]

end

/-! ## The host's accesses (R358, R360) -/

section
variable {s : State} {off size : Nat}

/-- R345, R360: a read of the host recalls write permission on its line, and its completion has the bytes. -/
theorem hostPerform_read {part pkg pa : Nat} {u : State}
    (hu : u = if (dirOf s (pa / 64)).st = .e then recallAll s pa else s) :
    hostPerform s part (.page .coherent pkg pa) size none = { u with
      free := u.free + 1
      plat := { u.plat with completion := some (readBytes u noCore (.page .coherent pkg pa) size) } } := by
  subst hu
  rfl

/-- R358: a write of the host through its own function is one of the home. -/
theorem hostPerform_write (part pkg pa v : Nat) : hostPerform s part (.page .coherent pkg pa) size (some v) =
    writeBytes s 0 (.page .coherent pkg pa) (leBytes v size) false := rfl

section
variable (ha : hostAnswers s = true) (hd : s.plat.pcieDown = false) (ho : oneLine off size = true)
include ha hd ho

/-- R358: an access of the physical function through BAR 2 is an act at its line. -/
theorem hostBarAccess_populated (hp : populated s off = true) (hlt : off < 2 ^ 42) (write : Option Nat) :
    exec (.hostBarAccess .pf ⟨2, off⟩ size write) s = .next (settleAct
      (atHome s (.hostBarAccess .pf ⟨2, off⟩ size write) (off / 64) write.isSome true
        (fun s' => hostPerform s' 0 (.page .coherent s.pkg off) size write))
      (.hostBarAccess .pf ⟨2, off⟩ size write)) := by
  rw [exec_hostBarAccess, execHostBarAccess]
  simp only [ha, hd, ho, hostPlace, hp, hlt, decide_true, Bool.and_self, Bool.not_true, Bool.or_self,
    Bool.false_eq_true, if_false, if_true, show ¬(2 : Nat) = 0 by decide, atPlace, fnPart]

/-- R358: a read of memory that is not populated is an Unsupported Request. -/
theorem hostBarAccess_unpopulated (hp : populated s off = false) :
    exec (.hostBarAccess .pf ⟨2, off⟩ size none) s = .next (unsupported s .pf off true) := by
  rw [exec_hostBarAccess, execHostBarAccess]
  simp only [ha, hd, ho, hostPlace, hp, Bool.false_and, Bool.not_true, Bool.or_self, Bool.false_eq_true, if_false,
    show ¬(2 : Nat) = 0 by decide, Option.isNone_none]

/-- R302, R320, R358: BAR 0 of a function that is enabled. -/
theorem hostBarAccess_barZero (fn : HostFn) (write : Option Nat) :
    exec (.hostBarAccess fn ⟨0, off⟩ size write) s = barZero s fn off size write := by
  rw [exec_hostBarAccess, execHostBarAccess]
  simp only [ha, hd, ho, Bool.not_true, Bool.or_self, Bool.false_eq_true, if_false, if_true]

end

/-- R122, R358: an AtomicOp that finds no poison, and is to write, does so with its completion. -/
theorem atomicOpHere_writes {part pkg pa w : Nat} {op : HostAtomic} {v : List Byte × Bool}
    (hv : v = readBytes s noCore (.page .coherent pkg pa) (hostOpSize op)) (hclean : v.2 = false)
    (hw : hostOpNew op (leNat v.1) = some w) : atomicOpHere s part (.page .coherent pkg pa) op = writeBytes { s with
      free := s.free + 1, plat := { s.plat with completion := some v } } 0 (.page .coherent pkg pa)
      (leBytes w (hostOpSize op)) false := by
  subst hv
  unfold atomicOpHere
  simp only [hw]
  rw [if_neg (by simp [hclean])]
  rfl

/-- R358: an AtomicOp of the host that writes. -/
theorem hostAtomicop_writes {op : HostAtomic} {p : Place} {v : List Byte × Bool} {w : Nat}
    (ha : hostAnswers s = true) (hd : s.plat.pcieDown = false) (hk : hostOpKnown op = true)
    (hal : off % hostOpSize op = 0) (hpop : populated s off = true) (hlt : off < 2 ^ 42)
    (hp : p = .page .coherent s.pkg off) (ht : InTurn s (.hostAtomicop .pf off op) p true)
    (hv : v = readBytes s noCore p (hostOpSize op)) (hclean : v.2 = false) (hw : hostOpNew op (leNat v.1) = some w) :
    exec (.hostAtomicop .pf off op) s = .next (settleAct (writeBytes { s with
      free := s.free + 1, plat := { s.plat with completion := some v } } 0 p (leBytes w (hostOpSize op)) false)
      (.hostAtomicop .pf off op)) := by
  subst hp
  rw [exec_hostAtomicop, execHostAtomicop]
  simp only [ha, hd, hk, hal, hostPlace, hpop, hlt, decide_true, Bool.and_self, Bool.not_true, Bool.or_self,
    bne_self_eq_false, Bool.false_eq_true, if_false, if_true, atPlace, ht.atHome,
    atomicOpHere_writes hv hclean hw]

/-- R360: an access of CXL.mem is an act at its line. -/
theorem cxlMemAccess_exposed {a pa : Nat} (ha : hostAnswers s = true) (hd : s.plat.cxlDown = false)
    (hbase : s.plat.hdmBase ≤ a) (hpa : pa = a - s.plat.hdmBase) (hlt : pa < 2 ^ 38) (ho : oneLine pa size = true)
    (write : Option Nat) : exec (.cxlMemAccess a size write) s = .next (settleAct
      (atHome s (.cxlMemAccess a size write) (pa / 64) write.isSome true
        (fun s' => hostPerform s' 0 (.page .coherent s.pkg pa) size write)) (.cxlMemAccess a size write)) := by
  subst hpa
  have hexposed : ¬ cxlMemBytes ≤ a - s.plat.hdmBase := Nat.not_le.2 hlt
  rw [exec_cxlMemAccess, execCxlMemAccess]
  simp only [ha, hd, ho, hexposed, Nat.not_lt.2 hbase, decide_false, Bool.not_true, Bool.or_self, Bool.false_eq_true,
    if_false, atPlace]

end

/-! ## Registers of BAR 0 (R302, R320, R358) -/

/-- R302, R320: the launch ports and control blocks lie in BAR 0 one after another. -/
theorem barRegister_words {p w i : Nat} (hp : p < 64) (hi : i < 8) :
    (w < 8 → barRegister .pf (0x1000 + 64 * p + 8 * w + i) = some (p, 16 + w)) ∧
    (w < 16 → barRegister .pf (0x2000 + 128 * p + 8 * w + i) = some (p, w)) ∧
    (w < 8 → barRegister (.vf p) (0x1000 + 8 * w + i) = some (p, 16 + w)) := by
  refine ⟨fun hw => ?_, fun hw => ?_, fun hw => ?_⟩
  · rw [barRegister, if_pos (by omega)]
    congr 2 <;> omega
  · rw [barRegister, if_neg (by omega), if_pos (by omega)]
    congr 2 <;> omega
  · rw [barRegister, if_pos (by omega)]
    congr 2
    omega

section
variable {s : State} {fn : HostFn} {off : Nat} (hf : fnEnabled s fn = true)
include hf

theorem barZero_read (size : Nat) : barZero s fn off size none = .next { s with
    free := s.free + 1
    plat := { s.plat with
      completion := some ((List.range size).map (fun i => barByte s fn (off + i)), false) } } := by
  simp only [barZero, hf, Bool.not_true, Bool.false_eq_true, if_false]

/-- R358: a write of one word is that of the register at its offset. -/
theorem barZero_write {size p w v : Nat} (hal : off % 8 = 0) (hs : size = 8) (hr : barRegister fn off = some (p, w)) :
    barZero s fn off size (some v) = exec (.registerWrite p w (BitVec.ofNat 64 v)) s := by
  subst hs
  rw [exec_registerWrite]
  simp only [barZero, hf, hal, Bool.not_true, Bool.false_eq_true, if_false, decide_true, Nat.mod_self, Bool.and_self,
    if_true, barWrite, hr]
  cases execRegisterWrite p w (BitVec.ofNat 64 v) s <;> rfl

theorem barZero_write_nothing {size v : Nat} (hal : off % 8 = 0) (hs : size = 8) (hr : barRegister fn off = none) :
    barZero s fn off size (some v) = .next s := by
  subst hs
  simp only [barZero, hf, hal, Bool.not_true, Bool.false_eq_true, if_false, decide_true, Nat.mod_self, Bool.and_self,
    if_true, barWrite, hr]

end

/-! ## Snoops and links (R361, R373) -/

section
variable {s : State} {line : Nat}

/-- R361: a snoop for a read of a line that no agent holds changes nothing. -/
theorem shareHost_unheld (h : ∀ k ∈ Map.keys s.hostLines, k % 2 ^ 40 ≠ line) : shareHost s line = s := by
  have hno : ∀ x ∈ s.hostLines, ¬ x.1 % 2 ^ 40 = line := fun x hx => h _ (List.mem_map_of_mem hx)
  have hdirty : s.hostLines.filter (fun x => decide (x.1 % 2 ^ 40 = line)) = [] :=
    filter_nil_of (fun x hx => decide_eq_false (hno x hx))
  have hsame : s.hostLines.map (fun x => if decide (x.1 % 2 ^ 40 = line) = true then (x.1, { x.2 with st := .s })
      else x) = s.hostLines := by
    refine (List.map_congr_left (fun x hx => ?_)).trans (List.map_id _)
    exact if_neg (by simpa using hno x hx)
  unfold shareHost
  simp only [hdirty, List.filter_nil, List.foldl_nil, hsame]

/-- R361: a snoop for a write of such a line writes the host's bytes, and wakes the line's watchers. -/
theorem hostSnoop_write (hd : s.plat.cxlDown = false) (h : ∀ k ∈ Map.keys s.hostLines, k % 2 ^ 40 ≠ line)
    (bs : List Byte) : exec (.hostSnoop line (some bs)) s = .next (wakeLine
      { s with host := Mem.writeN s.host (64 * line) (bs.take 64) } (hostLinePlace s line)) := by
  have hnone : (Map.keys s.hostLines).filter (fun k => k % 2 ^ 40 = line) = [] :=
    filter_nil_of (fun k hk => decide_eq_false (h k hk))
  rw [exec_hostSnoop, execHostSnoop]
  simp only [hd, Bool.false_eq_true, if_false, hnone, List.foldl_nil]
  rfl

/-- R373: a flit in error is retried, and the sixteenth retry since the last fence takes the link out of service. -/
theorem flitCrcError_counts {link n : Nat} (hl : s.plat.linksDown.contains link = false)
    (hn : n = (Map.get? s.plat.retries link).getD 0 + 1) :
    ∃ s', exec (.flitCrcError link) s = .next s' ∧
      (n < 16 → s'.plat = { s.plat with retries := Map.set s.plat.retries link n }) ∧
      (16 ≤ n → s'.plat = { s.plat with
        retries := Map.erase s.plat.retries link, linksDown := insertNat link s.plat.linksDown }) := by
  subst hn
  rw [exec_flitCrcError, execFlitCrcError]
  simp only [hl, Bool.false_eq_true, if_false]
  split
  · next h => exact ⟨_, rfl, fun _ => rfl, fun h' => absurd h (Nat.not_lt.2 h')⟩
  · next h => exact ⟨_, rfl, fun h' => absurd h' h, fun _ => rfl⟩

end

/-- Settles O53: packets that reach this package (`takePosted_payload`, `takePosted_milestone`, `remoteRead_answers`,
`remoteAtomic_writes`), answers (`remoteReadResponse_line`, `refuseAccess_faults`, `remoteAtomicResponse_message`), the
host's accesses (`hostBarAccess_populated`, `barZero_write`, `hostAtomicop_writes`, `cxlMemAccess_exposed`), snoops and
links. -/
theorem fabricPacketsAndHostAccessesArePerformed : Obligations.FabricPacketsAndHostAccessesArePerformed := by
  unfold Obligations.FabricPacketsAndHostAccessesArePerformed
  refine ⟨?done, ?posted, ?milestone, ?read, ?readAnswer, ?atomic, ?message, ?completion, ?bar2, ?bar0, ?registers,
    ?hostAtomic, ?cxl, ?snoop, ?links, ?flit⟩
  case done =>
    intro s id x h hk ht hc hl hid
    exact postedWriteArrive_done h hk ht hc hl hid
  case posted =>
    rintro s id x pa n line e ho hi hk rfl rfl rfl rfl rfl
    rw [postedWriteArrive_here ho hi hk rfl]
    refine ⟨fun hok hno => ?_, fun hok hp => ⟨fun ht => ?_, fun hno hq hh => ?_⟩,
      fun hok hp => ⟨fun hm hno => ?_, fun m hm ht => ?_⟩⟩
    · rw [takePosted_dropped hok]
      exact congrArg _ (settleAct_noAct (hno.of_dir (by rfl)))
    · rw [takePosted_payload hok hp, ht.atHome]
      rfl
    · rw [takePosted_payload hok hp, settleAct_atHome_held hno hq hh]
    · rw [takePosted_over hok hp hm]
      exact congrArg _ (settleAct_noAct (hno.of_dir (by rfl)))
    · rw [takePosted_milestone hok hp hm, ht.atHome]
  case milestone =>
    intro s x m v hm hv hp
    exact addMilestone_adds hm hv hp
  case read =>
    intro s id x v hi hk hok ht hv
    exact ⟨_, _, remoteRead_answers hi hk hok ht hv, Map.get?_set_self .., rfl, rfl, rfl, rfl, rfl, rfl⟩
  case readAnswer =>
    rintro s id x c slot _ ho hk ht rfl
    refine ⟨fun bs hbs => remoteReadResponse_line ho hk ht hbs, fun t a w hr h hu hout hsent hplace hsize => ?_⟩
    rw [remoteReadResponse_refusal ho hk ht]
    exact congrArg (fun u => Host.Outcome.next (postWaiting u))
      (refuseAccess_faults (s := { s with out := Map.erase s.out id }) hr h.thread h.wait hu hout hsent hplace hsize)
  case atomic =>
    intro s id x op p v bs hi hk hop hok hp ht hv hclean hw
    exact remoteAtomic_writes hi hk hop hok hp ht hv hclean hw
  case message =>
    intro s id x c slot t d st bs ho hk ht hc h
    exact remoteAtomicResponse_message ho hk ht hc h
  case completion =>
    intro s id x bs ho hk ht
    exact remoteAtomicResponse_completion ho hk ht
  case bar2 =>
    rintro s off size _ _ ha hd ho rfl rfl
    refine ⟨fun hp hlt => ⟨?_, ?_⟩, fun hp => ⟨_, hostBarAccess_unpopulated ha hd ho hp, rfl, rfl⟩⟩
    · rintro u _ rfl ht hu
      rw [hostBarAccess_populated ha hd ho hp hlt, Option.isSome_none, ht.atHome, hostPerform_read hu]
    · rintro v _ rfl
      rw [hostBarAccess_populated ha hd ho hp hlt, Option.isSome_some]
      exact ⟨fun ht => by rw [ht.atHome, hostPerform_write], fun hno hq hh => by rw [settleAct_atHome_held hno hq hh]⟩
  case bar0 =>
    intro s fn off size ha hd ho hf
    refine ⟨by rw [hostBarAccess_barZero ha hd ho, barZero_read hf], fun v hal hs => ⟨fun p w hr => ?_, fun hr => ?_⟩⟩
    · rw [hostBarAccess_barZero ha hd ho, barZero_write hf hal hs hr]
    · rw [hostBarAccess_barZero ha hd ho, barZero_write_nothing hf hal hs hr]
  case registers =>
    intro p w i hp hi
    exact barRegister_words hp hi
  case hostAtomic =>
    intro s off op p v w ha hd hk hal hpop hlt hp ht hv hclean hw
    exact hostAtomicop_writes ha hd hk hal hpop hlt hp ht hv hclean hw
  case cxl =>
    rintro s a size pa _ u ha hd hbase hpa hlt ho rfl ht hu
    rw [cxlMemAccess_exposed ha hd hbase hpa hlt ho, Option.isSome_none, ht.atHome, hostPerform_read hu]
  case snoop =>
    intro s line hd h
    refine ⟨?_, hostSnoop_write hd h⟩
    rw [exec_hostSnoop, execHostSnoop]
    simp only [hd, Bool.false_eq_true, if_false, shareHost_unheld h]
  case links => exact fun s => ⟨rfl, rfl, rfl, rfl⟩
  case flit =>
    intro s link n hl hn
    exact flitCrcError_counts hl hn

end Sys2Proof
end

section
/-!
PROOFS. Repair, boot, power and the management port (R374 to R393): the obligation
`RepairBootAndTheManagementPort`.
-/
namespace Sys2Proof
open Machine

/-! ## Fatal errors (R374, R380, R387) -/

section
variable (s : State) (c : Nat)

theorem State.core_logEvent (bank part cls : Nat) (event : BitVec 16) (addr who extra cycle : Word) :
    (logEvent s bank part cls event addr who extra cycle).core c = s.core c := rfl

theorem unitParts_unowned (h : (s.core c).owner = none) :
    unitParts s (.core c) = [] ∧ unitParts s (.matrix c) = [] ∧ unitParts s (.ssu c) = [] := by
  simp only [unitParts, h, Option.map_none, Option.toList_none, and_self]

/-- R387: with nothing to poison and no partition to stop, a fatal error is a record and a fence. -/
theorem fatalError_unused (unit : FatalUnit)
    (hf : ∀ part u, u = logEvent s (unitBank unit) part 3 0x8013#16 0#64 0#64 (BitVec.ofNat 64 (unitCode unit))
      (nowWord s) → unitParts (fenceUnit u unit) unit = []) :
    ∃ part, exec (.fatalError unit []) s = .next (fenceUnit (logEvent s (unitBank unit) part 3 0x8013#16 0#64 0#64
      (BitVec.ofNat 64 (unitCode unit)) (nowWord s)) unit) := by
  rw [exec_fatalError]
  simp only [execFatalError, poisonLines, hf _ _ rfl, recoverParts]
  exact ⟨_, rfl⟩

theorem fenceCore_core (x : Nat) :
    (fenceCore s c).core x = if x = c then { s.core c with fenced := true } else s.core x :=
  State.core_modCore s c (fun k => { k with fenced := true }) x

theorem fenceFunction_core_self (bit : Nat) : (fenceFunction s c bit).core c =
    { s.core c with fencedFns := (s.core c).fencedFns ||| BitVec.ofNat 8 (2 ^ bit) } :=
  State.core_modCore_self s c (fun k => { k with fencedFns := k.fencedFns ||| BitVec.ofNat 8 (2 ^ bit) })

/-- R380: the bit of a fenced function is set. -/
theorem fenceFunction_sets (bit : Nat) (h : (BitVec.ofNat 8 (2 ^ bit)).getLsbD bit = true) :
    ((fenceFunction s c bit).core c).fencedFns.getLsbD bit = true := by
  rw [fenceFunction_core_self, BitVec.getLsbD_or, h, Bool.or_true]

variable (h : (s.core c).owner = none)
include h

theorem fatalError_core : ∃ s', exec (.fatalError (.core c) []) s = .next s' ∧ (s'.core c).fenced = true ∧
    s'.plat.fences = insertNat (coreBank c) s.plat.fences ∧ s'.mem = s.mem ∧
    (∀ x, x ≠ c → s'.core x = s.core x) := by
  obtain ⟨part, he⟩ := fatalError_unused s (.core c) (by
    rintro part u rfl
    exact (unitParts_unowned _ c (by rw [fenceUnit, fenceCore_core, if_pos rfl]; exact h)).1)
  refine ⟨_, he, ?_, rfl, rfl, fun x hx => ?_⟩
  · rw [fenceUnit, fenceCore_core, if_pos rfl]
  · rw [fenceUnit, fenceCore_core, if_neg hx, State.core_logEvent]

theorem fatalError_matrix :
    ∃ s', exec (.fatalError (.matrix c) []) s = .next s' ∧ (s'.core c).fencedFns.getLsbD 3 = true := by
  obtain ⟨part, he⟩ := fatalError_unused s (.matrix c) (by
    rintro part u rfl
    exact (unitParts_unowned _ c (by rw [fenceUnit, fenceFunction_core_self]; exact h)).2.1)
  exact ⟨_, he, fenceFunction_sets _ c 3 rfl⟩

theorem fatalError_ssu :
    ∃ s', exec (.fatalError (.ssu c) []) s = .next s' ∧ (s'.core c).fencedFns.getLsbD 4 = true := by
  obtain ⟨part, he⟩ := fatalError_unused s (.ssu c) (by
    rintro part u rfl
    exact (unitParts_unowned _ c (by rw [fenceUnit, fenceFunction_core_self]; exact h)).2.2)
  exact ⟨_, he, fenceFunction_sets _ c 4 rfl⟩

end

/-- R387: a shared unit takes the package out of service. -/
theorem fatalError_shared (s : State) (b : Nat) (h : s.parts = []) : ∃ s', exec (.fatalError (.shared b) []) s = .next s' ∧
    s'.plat.outOfService = true ∧ s'.plat.fences = insertNat b s.plat.fences := by
  have hkeys : ∀ u : State, u.parts = s.parts → unitParts u (.shared b) = [] := fun u hu => by
    rw [unitParts, hu, h]
    rfl
  obtain ⟨part, he⟩ := fatalError_unused s (.shared b) (by
    rintro part u rfl
    exact hkeys _ rfl)
  exact ⟨_, he, rfl, rfl⟩

/-! ## Lock-step (R386) -/

section
variable {s : State} {c : Nat} (h : s.agenda.contains (.checkpointCommit c) = false)
include h

theorem lockstepMismatch_unpaired (hl : (s.core c).lock = none) : exec (.lockstepMismatch c) s = .next s := by
  rw [exec_lockstepMismatch]
  simp only [execLockstepMismatch, h, Bool.false_eq_true, if_false, hl]

/-- R386: a mismatch with no commit pending rolls the pair back, and a third one fails it. -/
theorem lockstepMismatch_rollsBack {L : LockStep} (hl : (s.core c).lock = some L) (hodd : L.odd = false)
    (hf : (s.core c).fenced = false) : exec (.lockstepMismatch c) s =
      if L.mismatches < 2 then .next (logEvent (rollback s c L) (coreBank c) (((s.core c).owner.map (·.1)).getD 0) 2
        0x8011#16 0#64 0#64 (BitVec.ofNat 64 L.count) (cycWord (rollback s c L) c))
      else .next (failPair (rollback s c L) c L) := by
  rw [exec_lockstepMismatch]
  simp only [execLockstepMismatch, h, Bool.false_eq_true, if_false, hl, hodd, hf, Bool.or_self]

end

/-! ## Boot and thermal events (R388, R393) -/

/-- R388: an image that verifies is booted, the first before the second; then the recorded fences and the tests. -/
theorem boot_image (s : State) {i0 i1 : Bool} (h : i0 = true ∨ i1 = true) {v w : State}
    (hv : v = { poweredUp s with plat := { (poweredUp s).plat with image := if i0 then 0 else 1 } })
    (hw : w = bootTests (v.plat.fences.foldl refence v) (List.range 2080)) :
    exec (.boot i0 i1) s = .next { w with free := w.free + 2080 } := by
  have hverifies : ¬(!i0 && !i1) = true := by
    rcases h with rfl | rfl
    · exact Bool.false_ne_true
    · rw [Bool.not_true, Bool.and_false]
      exact Bool.false_ne_true
  rw [exec_boot]
  unfold execBoot
  -- the tests are of every core: with the list named, none is run here
  generalize List.range 2080 = cores at hw ⊢
  subst hw hv
  rw [if_neg hverifies]

/-- R393: with no partition to stop, the package shuts down at once. -/
theorem thermalShutdown_idle (s : State) (die : Nat) (h : s.parts = []) :
    ∃ s', exec (.thermalShutdown die) s = .next s' ∧ s'.plat.off = true ∧ s'.mem = s.mem := by
  rw [exec_thermalShutdown]
  simp only [execThermalShutdown, logEvent_parts, h, Map.keys, List.map_nil, stopParts, List.any_nil,
    Bool.false_eq_true, if_false]
  exact ⟨_, rfl, rfl, rfl⟩

/-! ## The management port (R376, R377, R389, R390) -/

theorem portAnswer_off {s : State} (h : s.plat.off = true) (answer : Option (List Byte)) :
    portAnswer s answer = .next s := if_pos h

theorem pcbWord_exists {p w : Nat} (hp : p < 64) (hw : w < 16) : (decide (64 ≤ p) || decide (16 ≤ w)) = false := by
  simp only [Nat.not_le_of_lt hp, Nat.not_le_of_lt hw, decide_false, Bool.or_self]

section
variable {s : State} (h : s.plat.off = false)
include h

theorem portAnswer_some (bs : List Byte) :
    portAnswer s (some bs) = .next { s with plat := { s.plat with answer := bs, nack := false } } := by
  simp only [portAnswer, h, Bool.false_eq_true, if_false]

theorem portAnswer_none :
    portAnswer s none = .next { s with plat := { s.plat with answer := [], nack := true } } := by
  simp only [portAnswer, h, Bool.false_eq_true, if_false]

/-- R376: a word of a bank that exists is read, and any other is refused. -/
theorem mcBankRead_exists {bank word : Nat} (hb : bankExists bank = true ∧ word < 128) :
    exec (.mcBankRead bank word) s = .next { s with plat := { s.plat with
      answer := wordBytes (bankWord s bank (8 * word) (fun _ => true)), nack := false } } := by
  have hread : (bankExists bank && decide (word < 128)) = true := by simpa using hb
  rw [exec_mcBankRead, execMcBankRead, if_pos hread, portAnswer_some h]

theorem mcBankRead_absent {bank word : Nat} (hb : ¬(bankExists bank = true ∧ word < 128)) :
    exec (.mcBankRead bank word) s = .next { s with plat := { s.plat with answer := [], nack := true } } := by
  have hread : ¬(bankExists bank && decide (word < 128)) = true := by simpa using hb
  rw [exec_mcBankRead, execMcBankRead, if_neg hread, portAnswer_none h]

/-- R377: a bank is zeroed but for its fence. -/
theorem bankClear_clears {bank : Nat} {b : Bank} (hb : Map.get? s.banks bank = some b)
    (he : bankExists bank = true) : ∃ s', exec (.bankClear bank) s = .next s' ∧
      Map.get? s'.banks bank = some { fenced := b.fenced } ∧
      s'.plat = { s.plat with answer := [], nack := false } := by
  have hclear : (clearBank s bank).plat.off = false := h
  rw [exec_bankClear, execBankClear, if_neg (by rw [h]; exact Bool.false_ne_true), if_pos he]
  refine ⟨_, portAnswer_some hclear [], ?_, rfl⟩
  rw [clearBank, Map.get?_modify, if_pos rfl, hb, Option.map_some]

theorem telemetryRead_word {word : Nat} (hw : word < 10) : exec (.telemetryRead word) s = .next { s with
    free := s.free + 1
    plat := { s.plat with answer := wordBytes (Config.telemetry word s.free), nack := false } } := by
  have hfree : ({ s with free := s.free + 1 } : State).plat.off = false := h
  rw [exec_telemetryRead]
  simp only [execTelemetryRead, Nat.ne_of_lt hw, Nat.le_of_lt hw, if_false, if_true, portAnswer_some hfree]

theorem telemetryRead_absent {word : Nat} (hw : 10 < word) : exec (.telemetryRead word) s = .next { s with
    free := s.free + 1, plat := { s.plat with answer := [], nack := true } } := by
  have hfree : ({ s with free := s.free + 1 } : State).plat.off = false := h
  rw [exec_telemetryRead]
  simp only [execTelemetryRead, Nat.not_le_of_lt hw, if_false, portAnswer_none hfree]

/-- R391: the limit is kept between 600 W and 2,800 W. -/
theorem powerLimitSet_clamps (mw : Nat) : ∃ s', exec (.powerLimitSet mw) s = .next s' ∧
    s'.plat = { s.plat with powerLimit := Nat.max 600000 (Nat.min 2800000 mw), answer := [], nack := false } := by
  rw [exec_powerLimitSet, execPowerLimitSet, h, if_neg Bool.false_ne_true]
  exact ⟨_, portAnswer_some (by exact h) [], rfl⟩

section
variable {p w : Nat} (hp : p < 64) (hw : w < 16)
include hp hw

theorem pcbWordAccess_read : exec (.pcbWordAccess p w none) s = .next { s with plat := { s.plat with
    answer := wordBytes (pcbWord s p w), nack := false } } := by
  rw [exec_pcbWordAccess]
  simp only [execPcbWordAccess, h, pcbWord_exists hp hw, Bool.false_eq_true, if_false, portAnswer_some h]

/-- R320, R390: a word written through the port is a write of the host's to the register. -/
theorem pcbWordAccess_write {v : Word} {u : State} (hu : exec (.registerWrite p w v) s = .next u)
    (hoff : u.plat.off = false) : exec (.pcbWordAccess p w (some v)) s =
      .next { u with plat := { u.plat with answer := [], nack := false } } := by
  rw [exec_registerWrite] at hu
  rw [exec_pcbWordAccess]
  simp only [execPcbWordAccess, h, pcbWord_exists hp hw, Bool.false_eq_true, if_false, hu, portAnswer_some hoff]

end

/-- R389: the report is the body and its signature. -/
theorem attestation_reports {nonce body : List Byte} (hn : nonce.length = 64) (hr : s.plat.recovery = false)
    (hb : body = nonce ++ digest (Config.firmware s.plat.image) ++ digest (Config.fuses s.plat.version) ++
      digest (fenceBytes s ++ pcbBytes s)) : exec (.attestation nonce) s = .next { s with plat := { s.plat with
      answer := body ++ (List.range 512).map (Config.signature body), nack := false } } := by
  have hbody : reportBody s nonce = body := hb.symm
  rw [exec_attestation]
  simp only [execAttestation, hbody, hn, hr, decide_true, Bool.not_false, Bool.and_self, if_true, portAnswer_some h]

theorem fenceListRead_answers : exec .fenceListRead s =
    .next { s with plat := { s.plat with answer := fenceBytes s, nack := false } } := portAnswer_some h _

theorem versionRaise_raises (hr : s.plat.recovery = false) : exec .versionRaise s = .next { s with plat := { s.plat with
    version := Nat.max s.plat.version (Config.imageVersion s.plat.image), answer := [], nack := false } } := by
  rw [exec_versionRaise, execVersionRaise, h, if_neg Bool.false_ne_true, hr, if_neg Bool.false_ne_true]
  exact portAnswer_some (by exact h) []

theorem mgmtUnknownCode_nacks {code : BitVec 8} (hc : code = 0#8 ∨ 8 < code.toNat) :
    exec (.mgmtUnknownCode code) s = .next { s with plat := { s.plat with answer := [], nack := true } } := by
  have hunassigned : (decide (1 ≤ code.toNat) && decide (code.toNat ≤ 8)) = false := by
    rcases hc with rfl | hc
    · rfl
    · simp only [Nat.not_le_of_lt hc, decide_false, Bool.and_false]
  rw [exec_mgmtUnknownCode, execMgmtUnknownCode, hunassigned, if_neg Bool.false_ne_true, portAnswer_none h]

end

/-- Settles O54: each event and each command of the port is what its rule says. -/
theorem repairBootAndTheManagementPort : Obligations.RepairBootAndTheManagementPort := by
  refine ⟨fatalError_core, fun s c h => ⟨fatalError_matrix s c h, fatalError_ssu s c h⟩, fatalError_shared,
    ?lockstep, ?boot, fun s die => ⟨rfl, rfl, thermalShutdown_idle s die⟩, ?port, ?silent⟩
  case lockstep =>
    rintro s c L _ h rfl
    refine ⟨lockstepMismatch_unpaired h, fun hl hodd hf => ⟨fun hm => ?_, fun hm => ?_⟩⟩
    · rw [lockstepMismatch_rollsBack h hl hodd hf, if_pos hm]
    · rw [lockstepMismatch_rollsBack h hl hodd hf, if_neg (Nat.not_lt_of_le hm)]
  case boot =>
    rintro s _ rfl
    exact ⟨rfl, rfl, rfl, rfl, rfl, rfl, fun i0 i1 h v w hv hw => boot_image s h hv hw⟩
  case port =>
    intro s h
    exact ⟨fun _ _ => ⟨mcBankRead_exists h, mcBankRead_absent h⟩, fun _ _ => bankClear_clears h,
      fun _ => ⟨telemetryRead_word h, telemetryRead_absent h⟩, powerLimitSet_clamps h,
      fun _ _ hp hw => ⟨pcbWordAccess_read h hp hw, fun _ _ => pcbWordAccess_write h hp hw⟩,
      fun _ _ => attestation_reports h, fenceListRead_answers h, versionRaise_raises h,
      fun _ => mgmtUnknownCode_nacks h⟩
  case silent =>
    intro s h bank word
    exact ⟨portAnswer_off h _, portAnswer_off h (some (fenceBytes s))⟩

end Sys2Proof
end

section
/-!
PROOFS. Reset (R388, step 5): the obligation `ResetLeavesTheMachineEmpty`.
-/
namespace Sys2Proof
open Machine

/-- R388, step 5: every core is in its initial state. -/
theorem State.core_reset (c : Nat) : State.reset.core c = {} := rfl

/-- R388: no partition exists. -/
theorem State.part_reset (p : Nat) : State.reset.part p = {} := rfl

/-- R254: no port has a membership. -/
theorem State.port_reset (p : Nat) : State.reset.port p = {} := rfl

/-- R377: no bank holds a record. -/
theorem State.bank_reset (b : Nat) : (Map.get? State.reset.banks b).getD {} = ({} : Bank) := rfl

/-- A memory that lists no byte reads as zero. -/
theorem Mem.read_nil (a : Nat) : Mem.read [] a = 0#8 := rfl

/-- A machine with no core and no port listed has its memories in form where the two shared ones are empty. -/
theorem memOk_reset : MemOk State.reset := ⟨rfl, rfl, List.forall_mem_nil _, List.forall_mem_nil _⟩

/-- Settles O59: reset lists no core, partition, port, bank or byte, so each reads as its initial value. -/
theorem resetLeavesTheMachineEmpty : Obligations.ResetLeavesTheMachineEmpty := by
  refine ⟨memOk_reset, fun c => ?core, fun p => ?part, fun p => ?port, fun b => ?bank, rfl,
    fun a => ⟨Mem.read_nil a, Mem.read_nil a⟩, rfl⟩
  case core =>
    rw [State.core_reset]
    exact ⟨rfl, rfl, rfl, rfl, rfl, rfl, rfl, rfl, Mem.read_nil⟩
  case part =>
    rw [State.part_reset]
    exact ⟨rfl, rfl, fun _ => rfl⟩
  case port =>
    rw [State.port_reset]
    exact ⟨rfl, rfl, rfl, rfl, rfl, rfl, rfl⟩
  case bank =>
    rw [State.bank_reset]
    exact ⟨rfl, rfl, rfl, rfl, rfl, rfl, rfl⟩

end Sys2Proof
end
